-- ==== Sys2Proof/Word.lean ====
section
/-! DEFINITION. The byte and word types every other file shares. -/

namespace Sys2Proof

/-- One byte of an object, a packet or memory. -/
abbrev Byte := BitVec 8

/-- A string of bytes in the order in which they are stored or sent. -/
abbrev Bytes := List Byte

/-- The 16-bit word. -/
abbrev W16 := BitVec 16

/-- The 32-bit word. -/
abbrev W32 := BitVec 32

/-- The 64-bit word. -/
abbrev W64 := BitVec 64

end Sys2Proof
end

