-- ==== Sys2Proof/Syntax.lean ====
section
/-! DEFINITION. The commands of the block, one constructor per row of the operation table, with the
operands that each carries: an object request's fields, a frame's fields, a packet's bytes, or what
the outside world shows the module at the moment of a timed event. -/

namespace Sys2Proof

/-- The two management paths (chapter 2): lane C, or MCTP over I3C. -/
inductive Path where
  | inBand | outOfBand
deriving DecidableEq, Repr

/-- A die. -/
abbrev Die := Fin 2
/-- An optical port. -/
abbrev Port := Fin 24
/-- A lane of a port. -/
abbrev Lane := Fin 8
/-- A laser input. -/
abbrev LaserInput := Fin 6
/-- A power domain (Table 17-1). -/
abbrev Domain := Fin 50
/-- A matrix or vector engine of a die. -/
abbrev Engine := Fin 96
/-- A cluster of a die, and its control core. -/
abbrev Cluster := Fin 8
/-- A granary unit of a die. -/
abbrev GranUnit := Fin 16
/-- An update engine of a die. -/
abbrev UpdUnit := Fin 2
/-- A mailbox. -/
abbrev Mailbox := Fin 32

/-- The fields of an OBJECT request (Table 02-5) as they arrive, the opcode being the row's, with the
path, the number of the path's requests still unanswered at its arrival (R38) and, for SEG_DATA, the
number of the transfer's segments among them (R40). -/
structure ObjReq where
  path : Path
  outstanding : Nat
  segOutstanding : Nat
  flags : Byte
  tag : W16
  index : W16
  sub : Byte
  type : Byte
  length : W32
  abort : W16
  reserved : W16
  data : Bytes
deriving DecidableEq, Repr

/-- What a write to an object with a row of its own carries beside the value. -/
structure WReq where
  path : Path
  outstanding : Nat
  tag : W16
deriving DecidableEq, Repr

/-- A timing exchange with a peer on a control lane (R58, R59): the four hardware timestamps in ps,
the sender's depth from the root and its beat length in µs. -/
structure TimingExchange where
  t1 : W64
  t2 : W64
  t3 : W64
  t4 : W64
  depth : Byte
  beatUs : W16
deriving DecidableEq, Repr

/-- A generator unit's failure in a guard (R193): 0 engine, 1 granary or 2 update engine, its die and
number, and whether the duplicate comparison failed rather than the known answer. -/
structure GenFailure where
  kind : Fin 3
  die : Die
  unit : Byte
  duplicate : Bool
deriving DecidableEq, Repr

/-- A data lane of a port. -/
structure LaneId where
  port : Port
  lane : Lane
deriving DecidableEq, Repr

/-- What the outside world shows at a guard: the generator units that fail their checks, the receive lanes
whose estimated pre-FEC error ratio over the beat exceeds 4.8 × 10^-4 (R321), and the launched power of
each port's active control laser in 0.01 dBm (R308), and the OMA received on each data lane, port × 8 + lane, in
0.01 dBm (R302). -/
structure BoundaryEnv where
  genFailures : List GenFailure
  noisy : List LaneId
  ctlLaunch : List W16
  rxOma : List W16
deriving DecidableEq, Repr

/-- An error that has struck a stored memory line (R265, R266): the line's address, the symbol struck and its bits that
are inverted. The next read of the line meets it. -/
structure Upset where
  line : W64
  symbol : Fin 36
  mask : W16
deriving DecidableEq, Repr

/-- A device-access instruction of a control core (Table 07-11): the core, the register fields, funct7,
and whether the two cores of the pair made the same request (R184). -/
structure CoreReq where
  die : Die
  cluster : Cluster
  rd : Fin 32
  rs1 : Fin 32
  rs2 : Fin 32
  funct7 : BitVec 7
  agree : Bool
deriving DecidableEq, Repr

/-- An instruction that a control core pair retires (R180, R184): where the next one lies, whether the
two cores agree, the trap cause when it traps, and what it writes and where it loads and stores. -/
structure Retire where
  die : Die
  cluster : Cluster
  nextPc : W64
  agree : Bool
  trap : Option Byte
  rd : Fin 32
  value : W64
  fp : Option (Fin 32 × W64)
  csr : Option (BitVec 12 × W64)
  loadAt : Option (W64 × Fin 9)
  storeAt : Option (W64 × Bytes)
deriving DecidableEq, Repr

/-- A packet as it arrives: the head's fields (Table 14-1), the type being the row's or an operand of
its own, the 24 bytes of type fields (Table 14-3), MSG_CRC, and the payload. -/
structure Packet where
  flags : Byte
  cls : Byte
  epoch : Byte
  dst : W16
  src : W16
  flow : W16
  length : W16
  psn : W32
  msgId : W32
  index : W16
  count : W16
  step : W32
  attempt : Byte
  reserved : BitVec 24
  fields : BitVec 192
  msgCrc : W64
  payload : Bytes
deriving DecidableEq, Repr

/-- An error of a product array (R382): the exact term of the k-block of index `block` (b of R116) in a pass,
at an output element, is off by `delta` LSBs, two's complement. -/
structure TermError where
  block : W32
  pass : Fin 6
  row : Fin 64
  column : Fin 64
  delta : BitVec 192
deriving DecidableEq, Repr

/-- An error in the storage of tallies: the bits of T that are wrong at the output, and the element, 64 r + c
in a tile or counted from a chunk's first element. -/
structure TallyError where
  element : BitVec 12
  mask : BitVec 192
deriving DecidableEq, Repr

/-- The end of a slice on an engine, and the errors that struck its terms. -/
structure SliceEnd where
  engine : Engine
  errors : List TermError
deriving DecidableEq, Repr

/-- The end of a tile's drain, and the errors that struck its storage. -/
structure DrainEnd where
  tile : Fin 2
  errors : List TallyError
deriving DecidableEq, Repr

/-- The end of a chunk's outputs, and the errors that struck its tallies. -/
structure ChunkOut where
  chunk : W32
  errors : List TallyError
deriving DecidableEq, Repr

/-- A verdict as it reaches the integrity block (Table 15-1): the kind of check, 0 or 1 matrix engine, 2 lane,
3 granary or 4 update, its die and unit. The residue checks of kinds 0, 1 and 3 compare what State holds; for the
checker lanes of kinds 2 and 4, whether a checker lane's result differed from the lane's, at which element, and for
kind 2 the lane and the instruction's opcode. `gen` names in their place a generator whose duplicate disagreed at a
draw (R193). -/
structure Verdict where
  kind : Fin 5
  die : Die
  unit : Byte
  differs : Bool
  row : Fin 64
  column : Fin 64
  lane : Fin 64
  opcode : Fin 64
  gen : Option GenFailure
deriving DecidableEq, Repr

/-- What a capture holds beside the fields of the verdict (Tables 15-4 and 15-5). -/
structure EvidenceData where
  die : Die
  expected : W64
  actual : W64
  payload : Bytes
deriving DecidableEq, Repr

/-- The end of a pattern case in an idle beat (R396, R397): the pack and case, the unit it ran on, and
whether the result equals the expected one. -/
structure CaseDone where
  pack : W32
  index : Byte
  die : Die
  unit : Byte
  passed : Bool
deriving DecidableEq, Repr

/-- A unit that fails a self-test (R399). -/
structure StFailing where
  phase : Byte
  kind : Byte
  die : Die
  index : Byte
  check : W32
deriving DecidableEq, Repr

/-- The end of a self-test (R398, R399): the failing units, the phases partly skipped, the addresses of
failing DRAM pages, and its duration in ms. -/
structure StDone where
  failing : List StFailing
  skipped : W32
  pages : List W64
  durationMs : W32
deriving DecidableEq, Repr

/-- A microring (R299): a transmit ring, the crosspoint ring in use for an input fibre's wavelength, or a
ring of a laser source's monitor bank. -/
inductive RingId where
  | tx (port : Port) (lane : Lane)
  | xp (port : Port) (lane : Lane)
  | monitor (input : LaserInput) (twin : Bool) (line : Lane)
deriving DecidableEq, Repr

/-- A pilot tone (R297): the line, and whether it is a twin source's. -/
structure Tone where
  line : Lane
  twin : Bool
deriving DecidableEq, Repr

/-- A locked ring's drift (R298): its resonance from its setting in MHz, and the power in mW that its heater, and all
heaters together, would need to hold it (R309). -/
structure RingDrift where
  ring : RingId
  driftMhz : W32
  ringMw : Byte
  totalMw : W32
deriving DecidableEq, Repr

/-- What a laser supply answers to a STATUS (R285): the lines at its own ceiling, and its faults. -/
structure LscStatus where
  ceilings : Byte
  faults : Byte
deriving DecidableEq, Repr

/-- What a CONTROL_ACK carries (Table 13-2): the cumulative SEQ and the management credits. -/
structure CtlAck where
  seq : BitVec 12
  credits : BitVec 12
deriving DecidableEq, Repr

/-- A data link named in a lane C frame: the transmitter's place and port, and one of its lanes. -/
structure LinkName where
  place : W16
  port : Byte
  lane : Lane
deriving DecidableEq, Repr

/-- The body of a LANE_REPORT (Table 13-2): the lanes that the far receiver finds unusable, the identity
results, and the received OMA per lane in 0.01 dBm. -/
structure LaneReport where
  unusable : Byte
  passed : Byte
  failed : Byte
  oma : List W16
deriving DecidableEq, Repr

/-- The body of a CLEAN frame (Table 15-3). -/
structure CleanBody where
  step : W32
  attempt : Byte
  verdict : Byte
  covered : W16
  firstPlace : W16
deriving DecidableEq, Repr

/-- A flit of a received group with its tag (Table 13-1). -/
structure FlitIn where
  vc : Fin 8
  head : Bool
  tail : Bool
  data : BitVec 512
deriving DecidableEq, Repr

/-- An FEC codeword received on a lane: corrected symbols or an uncorrectable one. -/
structure Codeword where
  lane : Lane
  corrected : Bool
  uncorrectable : Bool
deriving DecidableEq, Repr

/-- A flit group received on a data link, named by its port and lowest planned lane: the lanes that it was striped over,
whether its CRC matches once it is put together from them, its trailer's fields (Table 13-1), its flits, and the codewords that carried it. -/
structure GroupIn where
  port : Port
  lane : Lane
  mask : Byte
  crcOk : Bool
  seq : BitVec 12
  idle : Bool
  nextMask : Byte
  ackSeq : Option (BitVec 12)
  credits : List (BitVec 12)
  flits : List FlitIn
  codewords : List Codeword
deriving DecidableEq, Repr

/-- A link training frame received on a lane (R322), with the credit round trip measured on its data
link. -/
structure Training where
  port : Port
  lane : Lane
  place : W16
  srcPort : Byte
  srcLane : Byte
  map : Byte
  rttNs : W32
deriving DecidableEq, Repr

/-- The commands of the block, one constructor per row of the operation table. -/
inductive Instr where
  /-- READ (R39). An OBJECT READ request returns the whole value of an object of at most 1,024 bytes. -/
  | readObject (r : ObjReq)
  /-- WRITE (R39). An OBJECT WRITE request writes a whole value of at most 1,024 bytes; this row covers writes to objects that have no row of their own. -/
  | writeObject (r : ObjReq)
  /-- SEG_WRITE_INIT (R40). Opens a segmented write of a BLOB after the access checks, with the stated total length. -/
  | segWriteInit (r : ObjReq)
  /-- SEG_READ_INIT (R43). Opens a segmented read and fixes the value being read, returning its length. -/
  | segReadInit (r : ObjReq)
  /-- SEG_DATA_WRITE (R40). Stores one numbered segment of an open segmented write in the staging buffer; a repeat is answered again. -/
  | segDataWrite (r : ObjReq)
  /-- SEG_DATA_READ (R43). Returns one numbered segment of the value fixed by SEG_READ_INIT. -/
  | segDataRead (r : ObjReq)
  /-- SEG_END_WRITE (R41). Checks segments, length, CRC-32 and access, then replaces the object's value at once or ends the transfer with an abort. -/
  | segEndWrite (r : ObjReq)
  /-- SEG_END_READ (R43). Ends a segmented read. -/
  | segEndRead (r : ObjReq)
  /-- ABORT (R47). Cancels the open transfer named by TAG; an ABORT for a transfer no longer held succeeds. -/
  | abortTransfer (r : ObjReq)
  /-- SEG_IDLE_TIMEOUT (R46). A transfer idle for SEG_IDLE_TIMEOUT_MS is ended and its staging is discarded. -/
  | segIdleTimeout (path : Path)
  /-- KEPT_RESPONSE_EXPIRY (R45). A response kept for retries is dropped 1,000 ms after it was sent. -/
  | keptResponseExpiry (path : Path)
  /-- FEATURES_ACCEPTED (R55). An in-band write of 0x1019.01 is checked against the offer and echoed into 0x101A.01 before the response. -/
  | featuresAccepted (q : WReq) (v : BitVec 128)
  /-- PLACE_NUMBER (R51). A write of 0x1010.01 sets the module's place number and PLACE_STATED, or aborts with BAD_PLACE. -/
  | placeNumber (q : WReq) (v : W16)
  /-- WRITE_PATHS (R50). A write of 0x1020.01 opens or bars the write paths; it is always accepted out of band. -/
  | writePaths (q : WReq) (v : W32)
  /-- BEAT_CHANGE_AT (R63). A write of the beat length change pair schedules a new beat length at the named boundary. -/
  | beatChangeAt (q : WReq) (isAt : Bool) (v : W64)
  /-- TIME_ROLE (R60). A write of a new time role returns the bell count to UNLOCKED under the new role. -/
  | timeRole (q : WReq) (v : Byte)
  /-- ROOT_SET (R62). Sets the root's bell count at once, or fails with a plan admitted or on a non-root module. -/
  | rootSet (q : WReq) (beat : W64) (off : W32)
  /-- COOLANT_STATEMENT (R67). A write of stated coolant inlet or flow updates COOLANT_STATED and POWER_ALLOWED_W. -/
  | coolantStatement (q : WReq) (flow : Bool) (v : W32)
  /-- PLAN_BLOB (R82). A successful write of the plan blob moves PLAN_STATE to LOADED, or to EMPTY for an empty value, and discards verified rehearsal settings. -/
  | planBlob (q : WReq) (value : Bytes)
  /-- ADMIT (R79). A write of ADMIT starts admission of the loaded plan and moves PLAN_STATE to ADMITTING. -/
  | admitPlan (q : WReq) (v : Byte)
  /-- ADMISSION_RESULT (R81). Admission ends within 2 s by setting the reason code and 0x2021, with PLAN_STATE ADMITTED or LOADED. -/
  | admissionResult
  /-- RELEASE (R82). Requests the end of the admitted plan at the next guard, after any commit due there. -/
  | releasePlan (q : WReq) (v : Byte)
  /-- JOB_START (R82). Names the beat at which step FIRST_STEP begins. -/
  | jobStart (q : WReq) (v : W64)
  /-- JOB_STOP (R82). Stops further steps from beginning while the plan stays admitted. -/
  | jobStop (q : WReq) (v : Byte)
  /-- DISABLE (R131). A write of a die's DISABLE mask rebuilds that die's slot map at once. -/
  | disable (q : WReq) (die : Die) (v : BitVec 128)
  /-- PREPARE (R294). Schedules a rehearsal of the loaded blob at the named beat, or fails with its reason. -/
  | prepare (q : WReq) (v : W64)
  /-- XR_CLEAR (R311). Sets every crosspoint DARK at the next guard, or fails with a plan admitted. -/
  | xrClear (q : WReq) (v : Byte)
  /-- SELECT (R306). Requests the primary or twin laser source, switching at the next guard when it is eligible. -/
  | selectSource (q : WReq) (input : LaserInput) (v : Byte)
  /-- ACCEPT (R331). Copies the observed peer into the port's stated peer, and its partner's for a swapped port, and reclasses them. -/
  | accept (q : WReq) (port : Port) (v : Byte)
  /-- RT_TELEMETRY_CLEAR (R343). Zeroes every link and router counter. -/
  | rtTelemetryClear (q : WReq) (v : Byte)
  /-- MEM_VERIFIED (R277). Moves MEM_STATE from RETAINED_UNVERIFIED to VALID. -/
  | memVerified (q : WReq) (v : Byte)
  /-- EVIDENCE_RESET (R393). Restarts the EVIDENCE slots at slot 0. -/
  | evidenceReset (q : WReq) (v : Byte)
  /-- PACK_LOAD (R395). A segmented write of a pattern pack is checked for signature, format and serial and then stored in flash. -/
  | packLoad (q : WReq) (value : Bytes)
  /-- PACK_REMOVE (R405). Removes the stored pack of the named PACK_ID. -/
  | packRemove (q : WReq) (v : W32)
  /-- ST_RUN (R401). Starts the full self-test without powering off. -/
  | stRun (q : WReq) (v : Byte)
  /-- STE_START (R402). Runs the raw self-test program, in BLANK and DIAG only. -/
  | steStart (q : WReq) (v : Byte)
  /-- DIGEST_REGION (R419). Starts the digest of a region of the loaded blob over its committed view. -/
  | digestRegion (q : WReq) (v : W16)
  /-- REGION_DIGEST_DONE (R419). The region digest completes and is written to REGION_DIGEST. -/
  | regionDigestDone
  /-- REINIT_COMPUTE (R425). Re-initialises engines, vector engines, control cores and tile state. -/
  | reinitCompute (q : WReq)
  /-- REINIT_FABRIC (R425). Re-initialises routers, flows, windows and queue state. -/
  | reinitFabric (q : WReq)
  /-- REINIT_OPTICS (R425). Re-initialises the optical groups outside the keeper and laser control. -/
  | reinitOptics (q : WReq)
  /-- REINIT_UPDATE (R425). Re-initialises the update engines and shard states. -/
  | reinitUpdate (q : WReq)
  /-- FUNCTION_REINIT (R425). A re-initialisation completes, and its objects are served again. -/
  | functionReinit
  /-- LEDGER_CLEAR_RING (R432). Clears the volatile ledger ring. -/
  | ledgerClearRing (q : WReq)
  /-- LEDGER_CLEAR_FLASH (R432). Clears the flash ledger, in DIAG only. -/
  | ledgerClearFlash (q : WReq)
  /-- LC_ADVANCE_PROVISION (R448). Moves BLANK to PROVISIONED out of band and generates the identity key. -/
  | lcAdvanceProvision (q : WReq)
  /-- LC_ADVANCE_DEPLOY (R448). Moves PROVISIONED to DEPLOYED once a certificate chain is held. -/
  | lcAdvanceDeploy (q : WReq)
  /-- LC_REQUEST_DIAG (R449). A valid token of TARGET 3 moves DEPLOYED to DIAG. -/
  | lcRequestDiag (q : WReq) (token : Bytes)
  /-- LC_REQUEST_DEPLOYED (R448). A request of TARGET 2 returns DIAG to DEPLOYED and clears 0x7120. -/
  | lcRequestDeployed (q : WReq) (token : Bytes)
  /-- LC_REQUEST_RETIRE (R448). A valid token of TARGET 4 retires the module and zeroises the identity key. -/
  | lcRequestRetire (q : WReq) (token : Bytes)
  /-- FW_STAGE (R446). A segmented write of a firmware image is checked for signature and SVN and then staged. -/
  | fwStage (q : WReq) (value : Bytes)
  /-- FW_ACTIVATE (R446). Starts copying the staged image over the one in flash. -/
  | fwActivate (q : WReq) (v : Byte)
  /-- FW_IMAGE_COPIED (R446). The flash copy of the staged image ends, and the result word shows done. -/
  | fwImageCopied
  /-- BRIDGE_ROLE (R374). A write of the bridge role takes effect at the next guard. -/
  | bridgeRole (q : WReq) (v : Byte)
  /-- BRIDGE_PLACE (R374). A write of the active bridge place takes effect at the next guard. -/
  | bridgePlace (q : WReq) (v : W16)
  /-- POWER_REQUEST_RUN (R435). Returns the module to RUN from DOZE, KEEP or READY_OFF. -/
  | powerRequestRun (q : WReq)
  /-- POWER_REQUEST_DOZE (R436). Moves RUN to DOZE, or fails with a plan admitted or on a bridge. -/
  | powerRequestDoze (q : WReq)
  /-- POWER_REQUEST_KEEP (R436). Moves RUN or DOZE to KEEP, or fails with a plan admitted or on a bridge. -/
  | powerRequestKeep (q : WReq)
  /-- WARM_RESET (R441). A write of WARM_RESET starts a warm reset. -/
  | warmReset (q : WReq) (v : Byte)
  /-- SHUTDOWN (R437). Starts an orderly shutdown with the shutdown self-test. -/
  | shutdown (q : WReq) (v : Byte)
  /-- MCTP_PACKET (R48). An MCTP packet over I3C is checked by PEC and reassembled into a message. -/
  | mctpPacket (packet : Bytes)
  /-- SET_ENDPOINT_ID (R49). An MCTP control request assigns the endpoint ID. -/
  | setEndpointId (eid : Byte)
  /-- GET_ENDPOINT_ID (R49). An MCTP control request returns the endpoint ID. -/
  | getEndpointId
  /-- GET_MCTP_VERSION_SUPPORT (R49). An MCTP control request returns the supported versions. -/
  | getMctpVersionSupport
  /-- GET_MESSAGE_TYPE_SUPPORT (R49). An MCTP control request returns the supported message types. -/
  | getMessageTypeSupport
  /-- GET_VERSION (R451). An SPDM request answered with version 1.3. -/
  | getVersion
  /-- GET_CAPABILITIES (R451). An SPDM request answered with CERT, CHAL and signed MEAS capabilities. -/
  | getCapabilities
  /-- NEGOTIATE_ALGORITHMS (R451). An SPDM request settling on P-384 and SHA-384. -/
  | negotiateAlgorithms (asym : W32) (hash : W32)
  /-- GET_DIGESTS (R451). An SPDM request returning the digest of certificate slot 0. -/
  | getDigests
  /-- GET_CERTIFICATE (R451). An SPDM request returning the certificate chain of slot 0. -/
  | getCertificate (offset : W16) (length : W16)
  /-- CHALLENGE (R451). An SPDM request answered signed with the identity key. -/
  | challenge (nonce : BitVec 256)
  /-- GET_MEASUREMENTS (R451). An SPDM request returning the signed measurement blocks. -/
  | getMeasurements (index : Byte) (nonce : BitVec 256)
  /-- BEAT_BOUNDARY (R64). At each beat boundary the beat number increments and the guard actions run in order. -/
  | beatBoundary (env : BoundaryEnv)
  /-- GUARD_CLOSE (R65). At 2,000 ns the guard closes; work spilled into it is judged, and scheduled work starts. -/
  | guardClose
  /-- TIME_SEND (R58). A timing exchange is sent to the parent every 250 µs. -/
  | timeSend
  /-- TIME (R481). A received timing exchange gives offset and delay, and the bell count is stepped or steered. -/
  | timeExchange (port : Port) (x : TimingExchange)
  /-- BELL_HOLDOVER (R60). No valid exchange for 1 ms moves LOCKED to HOLDOVER. -/
  | bellHoldover
  /-- HOLDOVER_LIMIT (R60). Holdover lasting beyond HOLDOVER_LIMIT_US returns the bell count to ACQUIRING. -/
  | holdoverLimit
  /-- WAKE_START (R439). The governor starts a waiting unplanned wake at the earliest moment both limits allow. -/
  | wakeStart
  /-- CC_ISSUE (R183). A control core checks a descriptor against its covering item and queues it to a slot's FIFO. -/
  | ccIssue (r : CoreReq)
  /-- CC_QTAKE (R182). Copies the next descriptor of a queue into data memory. -/
  | ccQtake (r : CoreReq)
  /-- CC_SUMRD (R182). Reads one field of a summary slot. -/
  | ccSumrd (r : CoreReq)
  /-- CC_SUMWAIT (R182). Stalls until a summary slot's CONTRIB reaches a count or the next boundary. -/
  | ccSumwait (r : CoreReq)
  /-- CC_SUMCLR (R182). Clears a summary slot. -/
  | ccSumclr (r : CoreReq)
  /-- CC_BEAT (R182). Returns the beat, step, STEP_LIST position or offset. -/
  | ccBeat (r : CoreReq)
  /-- CC_WAIT_BOUNDARY (R182). Stalls the core until the next boundary. -/
  | ccWaitBoundary (r : CoreReq)
  /-- CC_WAIT_IDLE (R182). Stalls until the masked slots' FIFOs are empty and their engines idle. -/
  | ccWaitIdle (r : CoreReq)
  /-- CC_NOTE (R182). Raises CORE_NOTE with a tag and value, at most once per beat. -/
  | ccNote (r : CoreReq)
  /-- CORE_RESUME (R182). A stalled control core resumes when its wait condition is met. -/
  | coreResume (die : Die) (cluster : Cluster)
  /-- CORE_INSTRUCTION (R184). The two cores of a pair retire an instruction and compare the results. -/
  | coreInstruction (i : Retire)
  /-- FILL (R137). A FILL writes an invalid page of the operand buffer, waiting for it to be released, and sets it valid. -/
  | fill (die : Die) (engine : Engine) (upsets : List Upset)
  /-- VLOAD (R173). A VLOAD loads an input plane, broadcast register or program slot once its waits end. -/
  | vload (die : Die) (engine : Engine)
  /-- SLICE_START (R146). A MATRIX slice starts once the previous slice has ended, its tile is EMPTY and its pages are valid. -/
  | sliceStart (die : Die) (engine : Engine)
  /-- SLICE_END (R146). The slice's last term enters the tile, and the next slice may start. -/
  | sliceEnd (die : Die) (e : SliceEnd)
  /-- DRAIN_START (R160). A tile drain begins once its destination, such as a FREE input plane, can take it. -/
  | drainStart (die : Die) (engine : Engine) (tile : Fin 2)
  /-- DRAIN_END (R146). A drain delivers its 64 rows; the tile becomes EMPTY and its status word is final. -/
  | drainEnd (die : Die) (engine : Engine) (d : DrainEnd)
  /-- PROGRAM_START (R175). A vector program starts once its input plane is FULL and every wait of R174 is over. -/
  | programStart (die : Die) (engine : Engine)
  /-- PROGRAM_END (R175). A program ends, its input plane is released and the store unit begins. -/
  | programEnd (die : Die) (engine : Engine)
  /-- SUMMARY_MERGE (R170). A summary merges into a control core slot within 32 cycles of the program's end. -/
  | summaryMerge (die : Die) (cluster : Cluster)
  /-- VERDICT_ARRIVAL (R384). A check's verdict reaches the integrity block; a failing one poisons the step and counts a strike. -/
  | verdictArrival (v : Verdict)
  /-- EVIDENCE_CAPTURED (R391). The capture of a step's first failure completes and is copied to an EVIDENCE slot. -/
  | evidenceCaptured (e : EvidenceData)
  /-- GRANARY_CONTRIBUTION (R222). A granary unit checks a contribution and enters it exactly into its element, counting its chunk. -/
  | granaryContribution (die : Die) (unit : GranUnit)
  /-- CHUNK_OUTPUT_DONE (R227). A completed chunk's outputs are rounded and delivered, and after the last one the window becomes COMPLETE. -/
  | chunkOutputDone (window : W16) (c : ChunkOut)
  /-- UPDATE_CHUNK (R239). An update engine applies its group's recurrence to a delivered chunk and writes the shadow halves. -/
  | updateChunk (die : Die) (unit : UpdUnit)
  /-- SHARD_PHASE_DONE (R243). A phase of a MATRIX shard's update ends and the next may start. -/
  | shardPhaseDone (window : W16)
  /-- WRITE_TRANSACTION (R356). A WRITE packet writes its payload at its target, subject to step checks and R269. -/
  | writeTransaction (p : Packet) (upsets : List Upset)
  /-- READ_TRANSACTION (R357). A READ packet is answered by a READ_DATA message. -/
  | readTransaction (p : Packet) (upsets : List Upset)
  /-- READ_DATA (R357). A READ_DATA packet delivers the bytes read. -/
  | readData (p : Packet)
  /-- TALLY_ADD (R358). A TALLY_ADD packet delivers its contributions to a window. -/
  | tallyAdd (p : Packet)
  /-- MAXIDX (R358). A MAXIDX packet delivers value and index pairs to a window. -/
  | maxidx (p : Packet)
  /-- MINIDX (R358). A MINIDX packet delivers value and index pairs to a window. -/
  | minidx (p : Packet)
  /-- MESSAGE (R359). A MESSAGE reserves room and appends whole entries to an INBOX at completion. -/
  | message (p : Packet)
  /-- DOORBELL (R360). A DOORBELL packet arrives and waits for every earlier message of its flow. -/
  | doorbell (p : Packet)
  /-- DOORBELL_APPLY (R364). A waiting doorbell takes effect, updating a ring index when it is valid. -/
  | doorbellApply (flow : BitVec 12)
  /-- ACK (R351). An ACK acknowledges packets by CUM_PSN and SACK and reports message status. -/
  | ack (p : Packet)
  /-- ACK_TIMER (R351). 4 µs after an unacknowledged packet arrives, the receiver sends an ACK. -/
  | ackTimer (flow : BitVec 12)
  /-- RTO_EXPIRY (R352). An unacknowledged packet is resent with doubled RTO, and the flow fails after eight resends. -/
  | rtoExpiry (flow : BitVec 12) (psn : BitVec 24)
  /-- MAILBOX_GO (R370). The sender sets GO and the mailbox becomes FULL and owned by the receiver. -/
  | mailboxGo (mailbox : Mailbox) (regs : List W64) (length : BitVec 5) (tag : W16)
  /-- MAILBOX_CLEAR (R370). The receiver clears GO, emptying the mailbox and interrupting the sender. -/
  | mailboxClear (mailbox : Mailbox)
  /-- MAILBOX_TIMEOUT (R370). A mailbox not emptied within MB_TIMEOUT_MS is withdrawn. -/
  | mailboxTimeout (mailbox : Mailbox)
  /-- PACKET_ROUTE (R338). The router forwards a packet to the minimal port with the most credit. -/
  | packetRoute
  /-- ESCAPE_TIMEOUT (R339). A packet waiting 2,048 cycles moves to the ESCAPE channel. -/
  | escapeTimeout
  /-- GROUP_SEND (R316). A data link sends a flit group striped over its lanes in use, with its trailer. -/
  | groupSend (port : Port) (lane : Lane)
  /-- GROUP_RECEIVE (R318). A received group is checked by CRC and sequence and delivered or NAKed. -/
  | groupReceive (g : GroupIn)
  /-- NAK (R318). A NAK makes the transmitter send REPLAY and resend from the SEQ. -/
  | nakFrame (port : Port) (l : LinkName) (seq : BitVec 12)
  /-- NAK_REPEAT (R318). The receiver repeats NAK every 2 µs until a REPLAY arrives. -/
  | nakRepeat (port : Port) (lane : Lane)
  /-- REPLAY (R318). A REPLAY sets the SEQ and mask of the resent groups. -/
  | replayFrame (port : Port) (l : LinkName) (seq : BitVec 12) (mask : Byte)
  /-- RETURN (R326). A RETURN frame carries acknowledgements and credits for a link with no reverse lane. -/
  | returnFrame (port : Port) (l : LinkName) (ackSeq : Option (BitVec 12)) (credits : List (BitVec 12))
  /-- LANE_REPORT (R321). A LANE_REPORT carries unusable lanes, identity results and received OMA. -/
  | laneReport (port : Port) (r : LaneReport)
  /-- CLEAN_SEND (R388). Once R22 holds and every child's frame is in, a module sends its rising CLEAN frame. -/
  | cleanSend
  /-- CLEAN (R388). A rising CLEAN frame is combined, or a global verdict is formed, held and forwarded. -/
  | cleanFrame (port : Port) (seq : BitVec 12) (f : CleanBody)
  /-- CONTROL_ACK (R326). A CONTROL_ACK acknowledges sequenced lane C frames and returns management credits. -/
  | controlAck (port : Port) (a : CtlAck)
  /-- LANE_C_RESEND (R326). A sequenced lane C frame not acknowledged within 2 µs is sent again. -/
  | laneCResend (port : Port)
  /-- MGMT (R347). A management flit is forwarded by its source route or delivered as an OBJECT message. -/
  | mgmtFlit (port : Port) (seq : BitVec 12) (flit : BitVec 512)
  /-- HELLO_SEND (R326). A hello is sent every 1 ms and on any change of its content. -/
  | helloSend (port : Port)
  /-- HELLO (R329). A received hello classes the link against its stated peer and agrees link features. -/
  | helloFrame (port : Port) (body : BitVec 256)
  /-- HELLO_TIMEOUT (R329). No valid hello for 3 ms classes the port NO_PEER. -/
  | helloTimeout (port : Port)
  /-- TRAINING_FRAME (R322). The sink checks the lane identity in link training frames. -/
  | trainingFrame (t : Training)
  /-- LANE_C_LOCK (R332). Lane C gains signal lock and the link moves to CLASSIFYING. -/
  | laneCLock (port : Port)
  /-- LANE_C_LOSS (R310). Loss of the peer's lane C closes the fibre's data gate within 5 µs. -/
  | laneCLoss (port : Port)
  /-- LINK_DOWN (R332). Lane C without signal lock for 100 µs takes the link down. -/
  | linkDown (port : Port)
  /-- RESETTING_TIMEOUT (R325). A far end RESETTING for 2 s raises LINK_DOWN. -/
  | resettingTimeout (port : Port)
  /-- LANE_SIGNAL_LOSS (R321). A receive lane losing signal lock or light becomes unusable. -/
  | laneSignalLoss (port : Port) (lane : Lane)
  /-- RING_SWEEP_STEP (R299). A sweeping ring steps its heater by 12.5 GHz, one step per guard or per 5 µs. -/
  | ringSweepStep (ring : RingId) (resonance : Bool) (ringMw : Byte) (totalMw : W32)
  /-- RING_LOCK_SETTLED (R299). A ring's lock loop settles and verification begins. -/
  | ringLockSettled (ring : RingId)
  /-- TONE_WINDOW (R297). A 200 µs monitor window ends and the ring's pilot tone is judged. -/
  | toneWindow (ring : RingId) (tones : List Tone) (power : W16) (trackMhz : W32)
  /-- RING_LIGHT_LOSS (R299). No light for 10 µs moves a locked ring to HOLDING. -/
  | ringLightLoss (ring : RingId)
  /-- RING_LIGHT_RETURN (R299). Light returns to a HOLDING ring, and the next window decides its state. -/
  | ringLightReturn (ring : RingId)
  /-- TX_MONITOR_SAMPLE (R303). Launched OMA is sampled every 250 ns and margins are judged for level requests and switchovers. -/
  | txMonitorSample (port : Port) (oma : List W16) (fibreUw : W32)
  /-- MONITOR_LINE_DROP (R305). A line falling by 3 dB within 10 µs at the monitor bank triggers an emergency switchover. -/
  | monitorLineDrop (input : LaserInput) (line : Lane)
  /-- CONTROL_LASER_DROP (R308). A control laser's launch falls by 6 dB or more, and the spare takes over within 5 µs. -/
  | controlLaserDrop (port : Port)
  /-- LSC_REQUEST_TIMEOUT (R285). A laser supply request not acknowledged within 1 ms is counted and sent again in the next beat. -/
  | lscRequestTimeout
  /-- PATROL_SCRUB (R275). Patrol scrub reads and corrects the next line, and retires pages as needed. -/
  | patrolScrub (upsets : List Upset) (beingWritten : Bool)
  /-- PAGE_COPY_DONE (R268). A retired page's copy completes and its address is redirected. -/
  | pageCopyDone (upsets : List Upset)
  /-- ZEROING_DONE (R276). Power-on zeroing of DRAM ends and MEM_STATE becomes VALID. -/
  | zeroingDone
  /-- PATTERN_CASE_DONE (R397). An idle-beat pattern case ends and is compared bit for bit. -/
  | patternCaseDone (c : CaseDone)
  /-- SELF_TEST_DONE (R399). A self-test ends and records its outcome; at shutdown the module enters READY_OFF. -/
  | selfTestDone (r : StDone)
  /-- SNAPSHOT_DONE (R418). Once every region WRITE is acknowledged, the source rewrites the header with COMPLETE 1. -/
  | snapshotDone
  /-- LEDGER_INTERVAL (R429). The flash-entry count restarts at each 1,000 ms interval boundary. -/
  | ledgerInterval
  /-- PWR_EN_RISE (R435). PWR_EN rising latches ORDERLY_AT_START and starts the power-up order. -/
  | pwrEnRise
  /-- POWER_UP_DONE (R443). Power-up ends in RUN, or in SAFE after a failed self-test. -/
  | powerUpDone
  /-- PWR_EN_FALL (R435). PWR_EN falling takes the module OFF within 1 ms. -/
  | pwrEnFall
  /-- AUX_3V3_LOSS (R465). Loss of AUX_3V3 acts as PWR_EN falling. -/
  | aux3v3Loss
  /-- INPUT_VOLTAGE_CHANGE (R464). A 48 V excursion is counted, or switches off the 48 V domains when beyond its trip limits. -/
  | inputVoltageChange (millivolts : W32)
  /-- RESET_N (R441). RESET_N held low for 1 µs starts a warm reset. -/
  | resetN (heldNs : W32)
  /-- WATCHDOG_EXPIRY (R441). 1,000 ms without watchdog service starts a warm reset. -/
  | watchdogExpiry
  /-- BOOT_ROM_VERIFY (R444). The boot ROM finishes checking the firmware image and runs it or the recovery loader. -/
  | bootRomVerify
  /-- WARM_RESET_DONE (R441). 0x1000 answers again and RESETTING is cleared. -/
  | warmResetDone
  /-- THERMAL_SAMPLE (R440). Junction sensors are read every 10 µs and the thermal thresholds are applied. -/
  | thermalSample (die0 : List W16) (die1 : List W16) (optical : List W16)
  /-- CURRENT_LIMIT (R454). A domain above its current cap for 10 µs is switched off. -/
  | currentLimit (domain : Domain) (milliamps : W32)
  /-- SECURITY_CHECK (R452). Every 10 s the security core recomputes the firmware digest. -/
  | securityCheck (digest : BitVec 384)
  /-- DEBUG_ACCESS (R452). A debug access in DEPLOYED or RETIRED raises SECURITY_VIOLATION. -/
  | debugAccess
  /-- RETURN_SEND (R326). Every 64 ns a RETURN frame carrying ACK_SEQ and CREDITS is sent for a data link whose reverse direction has no lane in use. -/
  | returnSend (port : Port) (lane : Lane)
  /-- CONTROL_ACK_SEND (R326). Every 1 µs while sequenced lane C frames are outstanding, a CONTROL_ACK with the cumulative SEQ and management credits is sent. -/
  | controlAckSend (port : Port)
  /-- LANE_SIGNAL_LOCK (R322). A data-lane receiver regains signal lock, so that the lane may be re-added at a guard, or at once while no plan is admitted. -/
  | laneSignalLock (port : Port) (lane : Lane)
  /-- RING_DRIFT (R298). A locked ring drifts beyond ±50 GHz of its setting, or its heater cannot hold it, and the ring unlocks and sweeps again. -/
  | ringDrift (d : RingDrift)
  /-- LSC_RESPONSE (R285). A laser supply answers a LEVEL, STATUS or OUT_OF_SERVICE request, and a STATUS may report the source at its own ceiling. -/
  | lscResponse (r : LscStatus)
  /-- WAKE_ITEM (R439). A planned WAKE item's domain wake starts at its offset after the guard and draws its tokens. -/
  | wakeItem (item : W16)
  /-- GATE_ITEM (R433). A planned GATE item switches its domain to GATED at its offset after the guard. -/
  | gateItem (item : W16)
  /-- DOMAIN_WAKE_DONE (R433). A waking domain's wake latency has passed, and it moves from WAKING to ON and becomes usable. -/
  | domainWakeDone (domain : Domain)
  /-- AUX_3V3_RISE (R443). AUX_3V3 comes into range; domains 39 and 40 power on and the boot ROM runs. -/
  | aux3v3Rise
  /-- AUX_3V3_SETTLED (R464). AUX_3V3 has been in range for 200 ms, PWR_EN is sampled, and a waiting power-up proceeds. -/
  | aux3v3Settled
  /-- RESET_N_RISE (R475). RESET_N rises, letting a power-up that waited before its 10 ms step continue. -/
  | resetNRise
  /-- DYNAMIC_ADDRESS_ASSIGNMENT (R48). The I3C bus owner assigns the module's dynamic address, which is shown in 0x1020.03. -/
  | dynamicAddressAssignment (addr : BitVec 7)
  /-- SECURITY_CORE_ACCESS (R452). A management core accesses security-core memory or fuses other than through mailboxes 8 to 15, raising SECURITY_VIOLATION cause 2. -/
  | securityCoreAccess
  /-- STE_PROGRAM_DONE (R402). A raw self-test program started by STE_START ends, and its output is placed in STE_OUTPUT with the result word set. -/
  | steProgramDone (output : Bytes)
deriving DecidableEq, Repr

end Sys2Proof
end

