-- ==== Sys2Proof/Decode.lean ====
section
/-! DEFINITION. The decoder over the operation table. No row of the table gives bits: a command reaches the
block as a register access, a frame, a packet or a pin, never as an encoded word. -/

namespace Sys2Proof

/-- The command that a word of the table's bits spells: none, since the table gives no row any bits. -/
def decodeTableWord (_nbits _w : Nat) : Option Instr := none

end Sys2Proof
end

