-- ==== Sys2Proof/Machine/Bytes.lean ====
section
/-! DEFINITION. Byte strings: little-endian reading and writing (R31), bit fields, the two's
complement reading, the CRC-32 of R37 and R316, the CRC-64 of R354, the CRC-8 of the MCTP packet
error code (R48), UTF-8 (Table 02-1), and the sparse canonical map that every bank of state uses. -/

namespace Sys2Proof.Machine

/-- The little-endian reading of a byte string (R31). -/
def leNat : Bytes → Nat
  | [] => 0
  | b :: bs => b.toNat + 256 * leNat bs

/-- The `n` bytes of `x`, least significant first (R31). -/
def natLe : Nat → Nat → Bytes
  | 0, _ => []
  | n + 1, x => BitVec.ofNat 8 x :: natLe n (x / 256)

/-- The big-endian reading of a byte string. -/
def beNat (bs : Bytes) : Nat := bs.foldl (fun a b => a * 256 + b.toNat) 0

/-- The `n` bytes of `x`, most significant first. -/
def natBe (n x : Nat) : Bytes := (natLe n x).reverse

/-- `n` zero bytes. -/
def zeros (n : Nat) : Bytes := List.replicate n 0

/-- `bs` cut or padded with zeros to exactly `n` bytes. -/
def padTo (n : Nat) (bs : Bytes) : Bytes := bs.take n ++ zeros (n - bs.length)

/-- The `n` bytes of `bs` from offset `off`; bytes past the end read as zero. -/
def sliceB (bs : Bytes) (off n : Nat) : Bytes := padTo n ((bs.drop off).take n)

/-- The little-endian field of `n` bytes at `off`. -/
def fieldLe (bs : Bytes) (off n : Nat) : Nat := leNat (sliceB bs off n)

/-- `bs` with the bytes from `off` replaced by `new`, padded with zeros where `bs` is shorter. -/
def overwrite (bs : Bytes) (off : Nat) (new : Bytes) : Bytes :=
  padTo off bs ++ new ++ bs.drop (off + new.length)

/-- Bits [lo + w - 1 : lo] of `x`. -/
def bits (x lo w : Nat) : Nat := (x / 2 ^ lo) % 2 ^ w

/-- Bit `i` of `x`. -/
def bit (x i : Nat) : Bool := x.testBit i

/-- `x` with bits [lo + w - 1 : lo] replaced by `v`. -/
def setBits (x lo w v : Nat) : Nat := x - bits x lo w * 2 ^ lo + (v % 2 ^ w) * 2 ^ lo

/-- 1 for true and 0 for false. -/
def b2n (b : Bool) : Nat := if b then 1 else 0

/-- The two's-complement reading of a `w`-bit field. -/
def toSigned (w x : Nat) : Int :=
  if x % 2 ^ w < 2 ^ (w - 1) then Int.ofNat (x % 2 ^ w) else Int.ofNat (x % 2 ^ w) - Int.ofNat (2 ^ w)

/-- The `w`-bit two's-complement field of `i`. -/
def ofSigned (w : Nat) (i : Int) : Nat := (i % Int.ofNat (2 ^ w)).toNat

/-- `x` held at the largest `w`-bit value (a saturating counter). -/
def satNat (w x : Nat) : Nat := if x < 2 ^ w then x else 2 ^ w - 1

/-- The numbers from 0 to `n - 1`. -/
def upto (n : Nat) : List Nat := List.range n

/-- Division rounded up; 0 when the divisor is 0. -/
def ceilDiv (a b : Nat) : Nat := if b = 0 then 0 else (a + b - 1) / b

/-- The indices of the set bits of the low `n` bits of `x`, lowest first. -/
def setBitsOf (n x : Nat) : List Nat := (upto n).filter (fun i => bit x i)

/-- One bit of a reflected CRC. -/
def crcBit (poly : Nat) (c : Nat) : Nat := if c % 2 = 1 then (c / 2) ^^^ poly else c / 2

/-- One byte of a reflected CRC. -/
def crcByte (poly : Nat) (c : Nat) (b : Byte) : Nat :=
  (upto 8).foldl (fun a _ => crcBit poly a) (c ^^^ b.toNat)

/-- CRC-32 with the polynomial, initial value and final inversion of the IEEE 802.3 frame check
sequence (R37, R316). -/
def crc32 (bs : Bytes) : Nat :=
  (bs.foldl (crcByte 0xEDB88320) 0xFFFFFFFF) ^^^ 0xFFFFFFFF

/-- A lane C frame (R326): its 8-byte head of TYPE, body LENGTH and, for a sequenced type, SEQ, then its body and the
CRC-32 of head and body. -/
def frameBytes (type : Nat) (seq : Option Nat) (body : Bytes) : Bytes :=
  let framed := natLe 8 (type + body.length * 2 ^ 8 + seq.getD 0 % 4096 * 2 ^ 16) ++ body
  framed ++ natLe 4 (crc32 framed)

/-- `n` bits of PRBS31 from a state of its generator x^31 + x^28 + 1, inverted (IEEE 802.3; R322), the first bit the least
significant. -/
def prbs31 : Nat → Nat → Nat
  | 0, _ => 0
  | n + 1, st =>
    let b := (st / 2 ^ 30 + st / 2 ^ 27) % 2
    (1 - b) + 2 * prbs31 n ((2 * st + b) % 2 ^ 31)

/-- CRC-64 of R354: polynomial 0x42F0_E1EB_A9EA_3693 reflected, initial value of all ones, final
inversion. -/
def crc64 (bs : Bytes) : Nat :=
  (bs.foldl (crcByte 0xC96C5795D7870F42) 0xFFFFFFFFFFFFFFFF) ^^^ 0xFFFFFFFFFFFFFFFF

/-- One bit of the packet error code. -/
def pecBit (c : Nat) : Nat := if c ≥ 128 then ((c * 2) % 256) ^^^ 0x07 else c * 2

/-- The packet error code of the MCTP I3C binding (R48): the CRC-8 of polynomial x^8 + x^2 + x + 1.
PRESUMED (assumption 6): the manual names DSP0233 and does not state the polynomial. -/
def pec (bs : Bytes) : Nat :=
  bs.foldl (fun c b => (upto 8).foldl (fun a _ => pecBit a) (c ^^^ b.toNat)) 0

/-- Whether a byte is a UTF-8 continuation byte. -/
def isCont (b : Byte) : Bool := decide (b.toNat / 64 = 2)

/-- The bytes that follow lead byte `b`, or none when `b` leads nothing. -/
def utf8Lead (b : Byte) : Option Nat :=
  let n := b.toNat
  if n < 0x80 then some 0
  else if 0xC2 ≤ n ∧ n ≤ 0xDF then some 1
  else if 0xE0 ≤ n ∧ n ≤ 0xEF then some 2
  else if 0xF0 ≤ n ∧ n ≤ 0xF4 then some 3
  else none

/-- The bound on the byte after lead byte `b` (no overlong form, no surrogate, nothing past
U+10FFFF). -/
def utf8Second (b c : Byte) : Bool :=
  let n := b.toNat; let m := c.toNat
  if n = 0xE0 then decide (0xA0 ≤ m) else if n = 0xED then decide (m ≤ 0x9F)
  else if n = 0xF0 then decide (0x90 ≤ m) else if n = 0xF4 then decide (m ≤ 0x8F) else true

/-- Valid UTF-8 (Table 02-1); `need` is the number of continuation bytes still wanted and `lead` the
lead byte when its second byte is next. -/
def utf8Go : Bytes → Nat → Option Byte → Bool
  | [], need, _ => decide (need = 0)
  | b :: bs, 0, _ => match utf8Lead b with
    | some n => utf8Go bs n (some b)
    | none => false
  | b :: bs, k + 1, lead =>
    isCont b && (match lead with | some l => utf8Second l b | none => true) && utf8Go bs k none

/-- Whether a STR value is valid UTF-8 (Table 02-1). -/
def utf8Valid (bs : Bytes) : Bool := utf8Go bs 0 none

/-! ### The sparse map in canonical form -/

/-- A bank of like things by number: keys strictly rising, and no entry equal to the value that an
unlisted key has. -/
abbrev Bank (α : Type) := List (Nat × α)

/-- The value at `k`, `d` when unlisted. -/
def Bank.get {α : Type} (m : Bank α) (d : α) (k : Nat) : α :=
  match m with
  | [] => d
  | (j, v) :: rest => if j = k then v else Bank.get rest d k

/-- `m` without an entry at `k`. -/
def Bank.erase {α : Type} (m : Bank α) (k : Nat) : Bank α := m.filter (fun e => decide (e.1 ≠ k))

/-- `m` with `v` listed at `k`, keeping the keys rising. -/
def Bank.put {α : Type} (m : Bank α) (k : Nat) (v : α) : Bank α :=
  match m with
  | [] => [(k, v)]
  | (j, w) :: rest =>
    if k < j then (k, v) :: (j, w) :: rest
    else if k = j then (k, v) :: rest
    else (j, w) :: Bank.put rest k v

/-- `m` with `v` at `k`: writing the unlisted value `d` removes the entry. -/
def Bank.set {α : Type} [DecidableEq α] (m : Bank α) (d : α) (k : Nat) (v : α) : Bank α :=
  if v = d then Bank.erase m k else Bank.put m k v

/-- The canonical form: keys strictly rising, no listed value equal to the unlisted one. -/
def Bank.wf {α : Type} [DecidableEq α] (m : Bank α) (d : α) : Bool :=
  match m with
  | [] => true
  | [(_, v)] => decide (v ≠ d)
  | (j, v) :: (k, w) :: rest => decide (j < k) && decide (v ≠ d) && Bank.wf ((k, w) :: rest) d

/-- Every listed value rewritten by `f`, entries that become `d` dropped. -/
def Bank.mapAll {α : Type} [DecidableEq α] (m : Bank α) (d : α) (f : Nat → α → α) : Bank α :=
  (List.map (fun e => (e.1, f e.1 e.2)) m).filter (fun e => decide (e.2 ≠ d))

/-- A number of bytes rounded up to whole lines (R264). -/
def wholeLines (n : Nat) : Nat := (n + 63) / 64 * 64

end Sys2Proof.Machine
end

