-- ==== Sys2Proof/Machine/Float.lean ====
section
/-! DEFINITION. Number formats of chapter 04: layouts (Table 04-1), special values (Table 04-2),
exact values, the store-path rounding of R92 to R95, the FP32 lane arithmetic of R164, MX block
scales (R96 to R98) and the split of R99. -/

namespace Sys2Proof.Machine

/-- The rounding modes of Table 04-4. -/
inductive RMode where
  /-- 0b00, to nearest, ties to even. -/
  | rne
  /-- 0b01, toward zero. -/
  | rtz
  /-- 0b10, stochastic. -/
  | sr
  deriving DecidableEq, Repr

/-- The rounding mode of a 2-bit code; 0b11 is reserved. -/
def RMode.ofCode (c : Nat) : Option RMode :=
  if c = 0 then some .rne else if c = 1 then some .rtz else if c = 2 then some .sr else none

/-- The parameters of a floating-point layout of Table 04-1: `p` mantissa bits, `ebits` exponent
bits, the bias, and the largest finite value `maxQ` × 2^`maxU`. -/
structure FFmt where
  p : Nat
  ebits : Nat
  bias : Nat
  maxQ : Nat
  maxU : Int
  /-- E all ones with M zero is an infinity (Table 04-2). -/
  hasInf : Bool
  /-- NaN encodings exist (Table 04-2). -/
  hasNan : Bool
  deriving DecidableEq, Repr

def fmtFp32 : FFmt := ⟨23, 8, 127, 2 ^ 24 - 1, 104, true, true⟩
def fmtBf16 : FFmt := ⟨7, 8, 127, 2 ^ 8 - 1, 120, true, true⟩
def fmtFp16 : FFmt := ⟨10, 5, 15, 2 ^ 11 - 1, 5, true, true⟩
def fmtE4m3 : FFmt := ⟨3, 4, 7, 14, 5, false, true⟩
def fmtE5m2 : FFmt := ⟨2, 5, 15, 7, 13, true, true⟩
def fmtE2m1 : FFmt := ⟨1, 2, 1, 3, 1, false, false⟩

/-- IEEE 754 binary64, in which the schedules are computed (R250). -/
def fmtFp64 : FFmt := ⟨52, 11, 1023, 2 ^ 53 - 1, 971, true, true⟩

/-- Bits of a value of the format, sign included. -/
def FFmt.width (f : FFmt) : Nat := f.p + f.ebits + 1

/-- Exponent of the smallest normal value. -/
def FFmt.emin (f : FFmt) : Int := 1 - Int.ofNat f.bias

/-- A decoded value: NaN, an infinity, or the exact number (−1)^neg × m × 2^e. Zero keeps its
sign (R84). -/
inductive FVal where
  | nan
  | inf (neg : Bool)
  | num (neg : Bool) (m : Nat) (e : Int)
  deriving DecidableEq, Repr

/-- The value that bits `b` hold in format `f` (R83, R84). -/
def FFmt.decode (f : FFmt) (b : Nat) : FVal :=
  let neg := bit b (f.p + f.ebits)
  let e := bits b f.p f.ebits
  let m := bits b 0 f.p
  if e = 0 then .num neg m (f.emin - Int.ofNat f.p)
  else if e = 2 ^ f.ebits - 1 ∧ f.hasInf then (if m = 0 then .inf neg else .nan)
  else if e = 2 ^ f.ebits - 1 ∧ f.hasNan ∧ m = 2 ^ f.p - 1 then .nan
  else .num neg (2 ^ f.p + m) (Int.ofNat e - Int.ofNat f.bias - Int.ofNat f.p)

/-- The canonical NaN of the format (Table 04-2); E2M1 has none and gives +0 (Table 04-5). -/
def FFmt.canonNan (f : FFmt) : Nat :=
  if f.hasInf then (2 ^ f.ebits - 1) * 2 ^ f.p + 2 ^ (f.p - 1)
  else if f.hasNan then 2 ^ (f.p + f.ebits) - 1 else 0

/-- The sign bit of the format when `neg`. -/
def FFmt.sign (f : FFmt) (neg : Bool) : Nat := if neg then 2 ^ (f.p + f.ebits) else 0

/-- The infinity of the format, as bits. -/
def FFmt.infBits (f : FFmt) (neg : Bool) : Nat := f.sign neg + (2 ^ f.ebits - 1) * 2 ^ f.p

/-- Bits of the finite magnitude q × 2^u, q < 2^(p+1), u at least the subnormal spacing. -/
def FFmt.encodeMag (f : FFmt) (q : Nat) (u : Int) : Nat :=
  if q < 2 ^ f.p then q
  else (u + Int.ofNat f.p + Int.ofNat f.bias).toNat * 2 ^ f.p + (q - 2 ^ f.p)

/-- Bits of the largest finite value. -/
def FFmt.maxBits (f : FFmt) (neg : Bool) : Nat := f.sign neg + f.encodeMag f.maxQ f.maxU

/-- Floor of log2 of m × 2^e, for m above zero. -/
def expOf (m : Nat) (e : Int) : Int := Int.ofNat (Nat.log2 m) + e

/-- x × 2^k with k any integer, floored. -/
def shiftNat (x : Nat) (k : Int) : Nat :=
  if 0 ≤ k then x * 2 ^ k.toNat else x / 2 ^ (-k).toNat

/-- The rounding of R92 of the magnitude m × 2^e to a spacing of 2^u: the quotient, rounded up or
not by the mode; `sticky` marks a nonzero remainder below the last bit of `m` (R239), and `v` holds
the 24 random bits of SR. -/
def roundAt (m : Nat) (e : Int) (sticky : Bool) (u : Int) (mode : RMode) (v : Nat) : Nat :=
  if u ≤ e then m * 2 ^ (e - u).toNat
  else
    let sh := (u - e).toNat
    let t := m / 2 ^ sh
    let r := m % 2 ^ sh
    match mode with
    | .rtz => t
    | .rne =>
      let half := 2 ^ (sh - 1)
      if half < r || (decide (r = half) && (sticky || decide (t % 2 = 1))) then t + 1 else t
    | .sr => if 2 ^ 24 ≤ (r * 2 ^ 24) / 2 ^ sh + v % 2 ^ 24 then t + 1 else t

/-- What a conversion gives: the bits and whether it overflowed (R94) or met a counted special
(R95). -/
structure Conv where
  bits : Nat
  ovf : Bool
  deriving DecidableEq, Repr

/-- The overflow result of R94 for a floating format. -/
def FFmt.overflow (f : FFmt) (neg : Bool) (mode : RMode) : Nat :=
  if f.hasInf ∧ mode ≠ .rtz then f.infBits neg else f.maxBits neg

/-- Round the finite value (−1)^neg × m × 2^e to format `f` (R92 to R94). -/
def FFmt.round (f : FFmt) (neg : Bool) (m : Nat) (e : Int) (sticky : Bool) (mode : RMode) (v : Nat) :
    Conv :=
  if m = 0 then ⟨f.sign neg, false⟩
  else
    let b := expOf m e
    let u := (if b < f.emin then f.emin else b) - Int.ofNat f.p
    let q := roundAt m e sticky u mode v
    let (q, u) := if q = 2 ^ (f.p + 1) then (2 ^ f.p, u + 1) else (q, u)
    let isOver := if f.maxU < u then decide (0 < q) else decide (f.maxQ * 2 ^ (f.maxU - u).toNat < q)
    if isOver then ⟨f.overflow neg mode, true⟩ else ⟨f.sign neg + f.encodeMag q u, false⟩

/-- A store-path conversion of any value to format `f` (R92 to R95). -/
def FFmt.store (f : FFmt) (x : FVal) (mode : RMode) (v : Nat) : Conv :=
  match x with
  | .nan => ⟨f.canonNan, !f.hasInf⟩
  | .inf neg => if f.hasInf then ⟨f.infBits neg, false⟩ else ⟨f.maxBits neg, true⟩
  | .num neg m e => f.round neg m e false mode v

/-- The value 2^(E − 127) of an E8M0 scale (R86); none for 0xFF. -/
def e8m0 (b : Nat) : Option Int := if b % 256 = 255 then none else some (Int.ofNat (b % 256) - 127)

/-! ### Format codes -/

/-- The float layout of a format code of Table 04-3, that of the elements for an MX code. -/
def fmtOfCode (c : Nat) : Option FFmt :=
  if c = 0 then some fmtFp32 else if c = 1 then some fmtBf16 else if c = 2 then some fmtFp16
  else if c = 3 ∨ c = 7 then some fmtE4m3 else if c = 4 ∨ c = 8 then some fmtE5m2
  else if c = 5 ∨ c = 9 then some fmtE2m1 else none

/-- Whether the code is an MX format. -/
def isMx (c : Nat) : Bool := decide (7 ≤ c ∧ c ≤ 9)

/-- Half-bytes of one element in memory (R87, Table 04-3): E2M1 elements are packed two to a byte. -/
def elemNibbles (c : Nat) : Nat :=
  if c = 0 then 8 else if c = 1 ∨ c = 2 then 4 else if c = 5 ∨ c = 9 then 1
  else if c = 10 then 48 else 2

/-- Bytes that `n` consecutive elements occupy. -/
def elemBytes (c n : Nat) : Nat := ceilDiv (n * elemNibbles c) 2

/-- The exact value of an INT8 element (R85). -/
def int8Val (b : Nat) : FVal :=
  let i := toSigned 8 b
  .num (decide (i < 0)) i.natAbs 0

/-- The value of element bits `b` under format code `c`, without any MX scale. -/
def elemVal (c b : Nat) : FVal :=
  if c = 6 then int8Val b else match fmtOfCode c with
    | some f => f.decode b
    | none => .nan

/-- The value times 2^k. -/
def FVal.scale (x : FVal) (k : Int) : FVal :=
  match x with
  | .num n m e => .num n m (e + k)
  | y => y

/-- An MX element with its scale byte (R89): a scale of 0xFF makes every element a NaN. -/
def mxVal (c b scale : Nat) : FVal :=
  match e8m0 scale with
  | none => .nan
  | some k => (elemVal c b).scale k

/-- Element `i` of an array of format code `c` held in `bs` (R87). -/
def elemAt (c : Nat) (bs : Bytes) (i : Nat) : Nat :=
  if elemNibbles c = 1 then bits (fieldLe bs (i / 2) 1) (4 * (i % 2)) 4
  else fieldLe bs (i * (elemNibbles c / 2)) (elemNibbles c / 2)

/-- The bytes of an array of element bits `xs` of format code `c` (R87). -/
def packElems (c : Nat) : List Nat → Bytes
  | [] => []
  | a :: rest =>
    if elemNibbles c = 1 then
      match rest with
      | [] => [BitVec.ofNat 8 (a % 16)]
      | b :: rest' => BitVec.ofNat 8 (a % 16 + 16 * (b % 16)) :: packElems c rest'
    else natLe (elemNibbles c / 2) a ++ packElems c rest

/-! ### Exact sums and FP32 lane arithmetic (R164) -/

/-- The exact number n × 2^e. -/
structure Ex where
  n : Int
  e : Int
  deriving DecidableEq, Repr

/-- The exact value zero. -/
def Ex.zero : Ex := ⟨0, 0⟩

/-- The integer that counts `x` in units of 2^e, for e at most the exponent of x. -/
def Ex.at (x : Ex) (e : Int) : Int := x.n * Int.ofNat (2 ^ (x.e - e).toNat)

/-- The exact sum. -/
def Ex.add (x y : Ex) : Ex :=
  let e := if x.e ≤ y.e then x.e else y.e
  ⟨x.at e + y.at e, e⟩

/-- The exact product. -/
def Ex.mul (x y : Ex) : Ex := ⟨x.n * y.n, x.e + y.e⟩

/-- The exact negation. -/
def Ex.neg (x : Ex) : Ex := ⟨-x.n, x.e⟩

/-- Whether x lies below y. -/
def Ex.lt (x y : Ex) : Bool :=
  let e := if x.e ≤ y.e then x.e else y.e
  decide (x.at e < y.at e)

/-- The exact value of a finite decoded value; 0 for a NaN or an infinity. -/
def FVal.toEx (x : FVal) : Ex :=
  match x with
  | .num neg m e => ⟨if neg then -(Int.ofNat m) else Int.ofNat m, e⟩
  | _ => Ex.zero

/-- Whether the value is finite. -/
def FVal.isNum (x : FVal) : Bool := match x with | .num _ _ _ => true | _ => false

/-- Whether the value is a NaN. -/
def FVal.isNan (x : FVal) : Bool := match x with | .nan => true | _ => false

/-- Whether the value is an infinity. -/
def FVal.isInf (x : FVal) : Bool := match x with | .inf _ => true | _ => false

/-- Whether the value is a zero of either sign. -/
def FVal.isZero (x : FVal) : Bool := match x with | .num _ m _ => decide (m = 0) | _ => false

/-- The sign of the value. -/
def FVal.isNeg (x : FVal) : Bool := match x with | .num s _ _ => s | .inf s => s | .nan => false

/-- Round an exact number to format `f`, a zero taking the sign `zneg`. -/
def FFmt.ofEx (f : FFmt) (x : Ex) (zneg sticky : Bool) (mode : RMode) (v : Nat) : Conv :=
  f.round (if x.n = 0 then zneg else decide (x.n < 0)) x.n.natAbs x.e sticky mode v

/-- RNE of an exact number. -/
def FFmt.rne (f : FFmt) (x : Ex) (zneg : Bool) : Nat := (f.ofEx x zneg false .rne 0).bits

/-- a + b, rounded once by RNE. -/
def FFmt.add (f : FFmt) (a b : Nat) : Nat :=
  match f.decode a, f.decode b with
  | .nan, _ => f.canonNan
  | _, .nan => f.canonNan
  | .inf s, .inf t => if s = t then f.infBits s else f.canonNan
  | .inf s, _ => f.infBits s
  | _, .inf t => f.infBits t
  | x, y => f.rne (x.toEx.add y.toEx) (x.isNeg && y.isNeg)

/-- The bits with the sign flipped; a NaN becomes the canonical NaN. -/
def FFmt.negate (f : FFmt) (a : Nat) : Nat :=
  match f.decode a with
  | .nan => f.canonNan
  | x => a % 2 ^ (f.p + f.ebits) + f.sign (!x.isNeg)

/-- a − b, rounded once by RNE. -/
def FFmt.sub (f : FFmt) (a b : Nat) : Nat := f.add a (f.negate b)

/-- The magnitude; a NaN becomes the canonical NaN. -/
def FFmt.abs (f : FFmt) (a : Nat) : Nat :=
  match f.decode a with
  | .nan => f.canonNan
  | _ => a % 2 ^ (f.p + f.ebits)

/-- a × b, rounded once by RNE. -/
def FFmt.mul (f : FFmt) (a b : Nat) : Nat :=
  let x := f.decode a
  let y := f.decode b
  let s := x.isNeg != y.isNeg
  if x.isNan || y.isNan then f.canonNan
  else if x.isInf || y.isInf then (if x.isZero || y.isZero then f.canonNan else f.infBits s)
  else f.rne (x.toEx.mul y.toEx) s

/-- a × b + c with one rounding by RNE. -/
def FFmt.fma (f : FFmt) (a b c : Nat) : Nat :=
  let x := f.decode a
  let y := f.decode b
  let z := f.decode c
  let s := x.isNeg != y.isNeg
  if x.isNan || y.isNan || z.isNan then f.canonNan
  else if x.isInf || y.isInf then
    (if x.isZero || y.isZero then f.canonNan
     else if z.isInf && z.isNeg != s then f.canonNan else f.infBits s)
  else if z.isInf then f.infBits z.isNeg
  else
    let pz := x.isZero || y.isZero
    f.rne ((x.toEx.mul y.toEx).add z.toEx) (if pz && z.isZero then s && z.isNeg else s && z.isNeg)

/-- Bits by which a quotient or root is extended before its rounding, so that its remainder is
sticky below the result's last place. -/
def guardBits : Nat := 160

/-- a / b, correctly rounded by RNE. -/
def FFmt.div (f : FFmt) (a b : Nat) : Nat :=
  match f.decode a, f.decode b with
  | .nan, _ => f.canonNan
  | _, .nan => f.canonNan
  | .inf s, .inf _ => let _ := s; f.canonNan
  | .inf s, y => f.infBits (s != y.isNeg)
  | x, .inf t => f.sign (x.isNeg != t)
  | .num s m e, .num t n k =>
    if n = 0 then (if m = 0 then f.canonNan else f.infBits (s != t))
    else
      let q := (m * 2 ^ guardBits) / n
      let r := (m * 2 ^ guardBits) % n
      (f.round (s != t) (2 * q + b2n (decide (r ≠ 0))) (e - k - Int.ofNat guardBits - 1) false .rne 0).bits

/-- Integer square root by bits: `n` bits of the root still to find, the root so far in `r`. -/
def isqrtGo : Nat → Nat → Nat → Nat
  | 0, _, r => r
  | n + 1, x, r =>
    let c := r + 2 ^ n
    isqrtGo n x (if c * c ≤ x then c else r)

/-- Floor of the square root. -/
def isqrt (x : Nat) : Nat := isqrtGo (Nat.log2 x / 2 + 1) x 0

/-- The square root of the exact magnitude m × 2^e, as an odd-marked magnitude whose last bit is
sticky. -/
def sqrtEx (m : Nat) (e : Int) : Nat × Int :=
  let (m, e) := if e % 2 = 0 then (m, e) else (2 * m, e - 1)
  let x := m * 2 ^ (2 * guardBits)
  let r := isqrt x
  (2 * r + b2n (decide (r * r ≠ x)), e / 2 - Int.ofNat guardBits - 1)

/-- √a, correctly rounded by RNE. -/
def FFmt.sqrt (f : FFmt) (a : Nat) : Nat :=
  match f.decode a with
  | .nan => f.canonNan
  | .inf s => if s then f.canonNan else f.infBits false
  | .num s m e =>
    if m = 0 then f.sign s
    else if s then f.canonNan
    else let (q, k) := sqrtEx m e; (f.round false q k false .rne 0).bits

/-- The order of R168 on two values that are not NaN: −0 below +0. -/
def FVal.below (x y : FVal) : Bool :=
  match x, y with
  | .inf s, .inf t => s && !t
  | .inf s, _ => s
  | _, .inf t => !t
  | x, y => if x.isZero && y.isZero then x.isNeg && !y.isNeg else x.toEx.lt y.toEx

/-- a < b as numbers; −0 equals +0, and a NaN is below nothing. -/
def FFmt.lt (f : FFmt) (a b : Nat) : Bool :=
  let x := f.decode a
  let y := f.decode b
  !x.isNan && !y.isNan && !(x.isZero && y.isZero) && x.below y

/-- a = b as numbers; a NaN equals nothing. -/
def FFmt.eq (f : FFmt) (a b : Nat) : Bool :=
  let x := f.decode a
  let y := f.decode b
  !x.isNan && !y.isNan && !(f.lt a b) && !(f.lt b a)

/-- The larger operand under R168, a NaN giving the canonical NaN (Table 07-5). -/
def FFmt.max (f : FFmt) (a b : Nat) : Nat :=
  let x := f.decode a
  let y := f.decode b
  if x.isNan || y.isNan then f.canonNan else if x.below y then b else a

/-- The smaller operand, as `max`. -/
def FFmt.min (f : FFmt) (a b : Nat) : Nat :=
  let x := f.decode a
  let y := f.decode b
  if x.isNan || y.isNan then f.canonNan else if y.below x then b else a

/-- a with every NaN made canonical (R84). -/
def FFmt.canon (f : FFmt) (a : Nat) : Nat :=
  match f.decode a with
  | .nan => f.canonNan
  | _ => a % 2 ^ f.width

/-- a × 2^n, correctly rounded (SCL). -/
def FFmt.scl (f : FFmt) (a : Nat) (n : Int) : Nat :=
  match f.decode a with
  | .nan => f.canonNan
  | .inf s => f.infBits s
  | .num s m e => (f.round s m (e + n) false .rne 0).bits

/-- The integer `i` in the format, by RNE. -/
def FFmt.ofInt (f : FFmt) (i : Int) : Nat := f.rne ⟨i, 0⟩ false

/-- A value of format `f` in format `g`, by RNE. -/
def FFmt.conv (f g : FFmt) (a : Nat) : Nat := (g.store (f.decode a) .rne 0).bits

/-! ### INT8 and MX results -/

/-- The INT8 result of R94 and Table 04-5. -/
def int8Store (x : FVal) (mode : RMode) (v : Nat) : Conv :=
  match x with
  | .nan => ⟨0, true⟩
  | .inf neg => ⟨if neg then 128 else 127, true⟩
  | .num neg m e =>
    let q := roundAt m e false 0 mode v
    if neg then (if 128 < q then ⟨128, true⟩ else ⟨(256 - q) % 256, false⟩)
    else if 127 < q then ⟨127, true⟩ else ⟨q, false⟩

/-- A store-path conversion to a code of Table 04-3 outside an MX block. -/
def storeCode (c : Nat) (x : FVal) (mode : RMode) (v : Nat) : Conv :=
  if c = 6 then int8Store x mode v else match fmtOfCode c with
    | some f => f.store x mode v
    | none => ⟨0, false⟩

/-- Exponent of the element format's largest normal value (R96). -/
def mxEmax (c : Nat) : Int := if c = 7 then 8 else if c = 8 then 15 else 2

/-- The largest exponent floor(log2 |x|) over the nonzero finite values of a block (R96). -/
def blockExp (xs : List FVal) : Option Int :=
  xs.foldl (fun a x => match x with
    | .num _ m e => if m = 0 then a else
        match a with
        | none => some (expOf m e)
        | some b => some (if b < expOf m e then expOf m e else b)
    | _ => a) none

/-- The block scale exponent X of R96 before its clamp; none when no finite value is nonzero. -/
def mxScaleRaw (c : Nat) (xs : List FVal) : Option Int := (blockExp xs).map (fun b => b - mxEmax c)

/-- X clamped to −127 to 127 (R96). -/
def clamp127 (x : Int) : Int := if x < -127 then -127 else if 127 < x then 127 else x

/-- A stored MX block: the scale byte, the element bits, and the overflows counted (R95 to R98). -/
structure MxBlock where
  scale : Nat
  elems : List Nat
  ovf : Nat
  deriving DecidableEq, Repr

/-- One element of an MX block at scale exponent `x` (R97, R98): saturating, never an overflow; an
Inf is written as the largest finite value and counted (Table 04-5). -/
def mxElem (c : Nat) (x : Int) (mode : RMode) (y : FVal) (v : Nat) : Conv :=
  match fmtOfCode c with
  | none => ⟨0, false⟩
  | some f => match y with
    | .nan => ⟨0, true⟩
    | .inf neg => ⟨f.maxBits neg, true⟩
    | .num neg m e =>
      let r := f.round neg m (e - x) false mode v
      if r.ovf then ⟨f.maxBits neg, false⟩ else r

/-- The block of up to 32 values `xs`, with the random bits of each element (R96 to R98). -/
def mxStore (c : Nat) (xs : List FVal) (mode : RMode) (vs : List Nat) : MxBlock :=
  let raw := mxScaleRaw c xs
  let x := match raw with | none => -127 | some x => clamp127 x
  let es := List.zipWith (fun y v => mxElem c x mode y v) xs vs
  let n := (es.filter (fun r => r.ovf)).length
  let isOver := match raw with | none => 0 | some x => if 127 < x then 1 else 0
  if xs.any (fun y => y.isNan) then ⟨255, es.map (fun _ => 0), n + isOver⟩
  else ⟨(x + 127).toNat, es.map (fun r => r.bits), n + isOver⟩

/-! ### Split precision -/

/-- RNE BF16 of an exact value, the largest finite in place of Inf (R99). -/
def bf16Piece (x : Ex) : Nat :=
  let r := fmtBf16.ofEx x false false .rne 0
  if r.ovf then fmtBf16.maxBits (decide (x.n < 0)) else r.bits

/-- The BF16 pieces 0, 1 and 2 of an FP32 operand (R99). -/
def splitPieces (a : Nat) : List Nat :=
  match fmtFp32.decode a with
  | .num neg m e =>
    let x := FVal.toEx (.num neg m e)
    let p0 := if m = 0 then fmtBf16.sign neg else bf16Piece x
    let r1 := x.add (fmtBf16.decode p0).toEx.neg
    let p1 := bf16Piece r1
    let r2 := r1.add (fmtBf16.decode p1).toEx.neg
    [p0, p1, bf16Piece r2]
  | y => [(fmtBf16.store y .rne 0).bits, 0, 0]

/-- The pieces multiplied in each pass, in the order of R100. -/
def passPairs (passes : Nat) : List (Nat × Nat) :=
  if passes = 6 then [(0, 0), (0, 1), (1, 0), (0, 2), (1, 1), (2, 0)]
  else if passes = 3 then [(0, 0), (0, 1), (1, 0)] else [(0, 0)]

/-- K indices per cycle, kd of Table 04-7, for the governing class of the two formats (R103): ME-N
when `narrow`. -/
def kdOf (narrow : Bool) (ca cb : Nat) : Nat :=
  let cls := fun c => if c = 5 ∨ c = 9 then 16 else if c = 3 ∨ c = 4 ∨ c = 6 ∨ c = 7 ∨ c = 8 then 8 else 4
  if narrow then Nat.min (cls ca) (cls cb) else 4

/-- The cost class of Table 03-8 and 04-7 for a pair of operand formats. -/
def costClass (ca cb : Nat) : Nat :=
  let cls := fun c => if c = 0 then 4 else if c = 6 then 3 else if c = 5 ∨ c = 9 then 2
    else if c = 1 ∨ c = 2 then 0 else 1
  if cls ca = 4 ∨ cls cb = 4 then 4 else if cls ca = 3 ∨ cls cb = 3 then 3
  else Nat.min (cls ca) (cls cb)

/-- Whether the formats may pair as operands (R103, R85). -/
def mayPair (ca cb : Nat) : Bool :=
  (decide (ca = 0) == decide (cb = 0)) && (decide (ca = 6) == decide (cb = 6))

end Sys2Proof.Machine
end

