-- ==== Sys2Proof/Config.lean ====
section
/-! DEFINITION. What one implementation fixes and what the manual leaves open: opaque constants
without a body, so that nothing can be proved of a value the manual does not give. Each is named in
an entry of the assumption log. -/

namespace Sys2Proof.Config

/-- A value the manual leaves open, fresh for each number of the state's counter (assumption 3). -/
opaque freeValue : Nat → BitVec 64

/-- The order code of the unit: NDM-CL960-A1D, or NDM-CL960-A1 (0x1000.03). -/
opaque partIsA1D : Bool

/-- SERIAL_NUMBER, 16 characters, little-endian (0x1000.04). -/
opaque serialNumber : BitVec 128

/-- The running image's version at manufacture (0x1000.07). -/
opaque firmwareVersion : BitVec 32

/-- The SHA-384 digest of the image in flash at manufacture (0x1110.06). -/
opaque imageDigest : BitVec 384

/-- The SHA-384 digest of the boot ROM (Table 17-10, block 1). -/
opaque bootRomDigest : BitVec 384

/-- The fuse counter of the firmware's SVN at manufacture (0x1110.04). -/
opaque svnFuse : BitVec 8

/-- The SVN of the image in flash at manufacture (R445). -/
opaque imageSvn : BitVec 8

/-- The vendor public key, the affine coordinates of a P-384 point (R444). -/
opaque vendorKeyX : BitVec 384

/-- The vendor public key's second coordinate (R444). -/
opaque vendorKeyY : BitVec 384

/-- The nth identity key pair generated: the public point (R450). -/
opaque identityKeyX : Nat → BitVec 384

/-- The nth identity public key's second coordinate (R450). -/
opaque identityKeyY : Nat → BitVec 384

/-- An ECDSA P-384 signature by the nth identity key over a digest (R451); the private key never
leaves the security core. -/
opaque identitySign : Nat → BitVec 384 → Nat → BitVec 768

/-- The nth nonce of the life cycle (0x1100.02, R449). -/
opaque lcNonce : Nat → BitVec 64

/-- The nth random nonce of an SPDM response (R451). -/
opaque spdmNonce : Nat → BitVec 256

/-- The calibrated bias of a port's control laser, µA (0x50C0.02). -/
opaque controlLaserBias : Nat → BitVec 32

/-- The exponential EXP of a binary32 value, within the bound of Table 07-5. -/
opaque fnExp : BitVec 32 → BitVec 32

/-- EXP2 of a binary32 value. -/
opaque fnExp2 : BitVec 32 → BitVec 32

/-- LOG2 of a binary32 value. -/
opaque fnLog2 : BitVec 32 → BitVec 32

/-- TANH of a binary32 value. -/
opaque fnTanh : BitVec 32 → BitVec 32

/-- ERF of a binary32 value. -/
opaque fnErf : BitVec 32 → BitVec 32

/-- RSQRT of a binary32 value. -/
opaque fnRsqrt : BitVec 32 → BitVec 32

/-- What POWT offers for a binary32 base and a count (R241); used where it lies within 1 ulp. -/
opaque fnPowT : BitVec 32 → BitVec 32 → BitVec 32

/-- The cosine of π × u of the schedule engine, in binary64 (R250, Table 10-6). -/
opaque fnCosPi : BitVec 64 → BitVec 64

/-- The power function of the schedule engine, in binary64 (R250, R252). -/
opaque fnPow : BitVec 64 → BitVec 64 → BitVec 64

/-- The update ratio that the fixed function of R208 offers for its two exact sums; used where it lies
within 1 ulp. -/
opaque fnRatio : Nat → Nat → BitVec 32

/-- The bridge bytes of the contributions to a window, by its number, that arrive on a port of the other die in a step
(R232): no section of a plan states them. -/
opaque crossBytes : Nat → Nat

/-- The descriptors that a core takes from a ring, by its number, in a step (R365): no section of a plan states them. -/
opaque queueReads : Nat → Nat

/-- The address of the scale byte of an MX block that a unit stores, by the format code and the address of the block's
first element: the spec gives the scale array of a result no address (R87, R96). -/
opaque mxScaleAddr : Nat → Nat → Nat

end Sys2Proof.Config
end

