-- ==== Sys2Proof/Machine/Sha384.lean ====
section
/-! DEFINITION. SHA-384 of FIPS 180-4, by which the manual digests plans, images, packs and keys. -/

namespace Sys2Proof.Machine

/-- The round constants. -/
def shaK : List Nat :=
  [0x428A2F98D728AE22, 0x7137449123EF65CD, 0xB5C0FBCFEC4D3B2F, 0xE9B5DBA58189DBBC,
  0x3956C25BF348B538, 0x59F111F1B605D019, 0x923F82A4AF194F9B, 0xAB1C5ED5DA6D8118,
  0xD807AA98A3030242, 0x12835B0145706FBE, 0x243185BE4EE4B28C, 0x550C7DC3D5FFB4E2,
  0x72BE5D74F27B896F, 0x80DEB1FE3B1696B1, 0x9BDC06A725C71235, 0xC19BF174CF692694] ++
  [0xE49B69C19EF14AD2, 0xEFBE4786384F25E3, 0x0FC19DC68B8CD5B5, 0x240CA1CC77AC9C65,
  0x2DE92C6F592B0275, 0x4A7484AA6EA6E483, 0x5CB0A9DCBD41FBD4, 0x76F988DA831153B5,
  0x983E5152EE66DFAB, 0xA831C66D2DB43210, 0xB00327C898FB213F, 0xBF597FC7BEEF0EE4,
  0xC6E00BF33DA88FC2, 0xD5A79147930AA725, 0x06CA6351E003826F, 0x142929670A0E6E70] ++
  [0x27B70A8546D22FFC, 0x2E1B21385C26C926, 0x4D2C6DFC5AC42AED, 0x53380D139D95B3DF,
  0x650A73548BAF63DE, 0x766A0ABB3C77B2A8, 0x81C2C92E47EDAEE6, 0x92722C851482353B,
  0xA2BFE8A14CF10364, 0xA81A664BBC423001, 0xC24B8B70D0F89791, 0xC76C51A30654BE30,
  0xD192E819D6EF5218, 0xD69906245565A910, 0xF40E35855771202A, 0x106AA07032BBD1B8] ++
  [0x19A4C116B8D2D0C8, 0x1E376C085141AB53, 0x2748774CDF8EEB99, 0x34B0BCB5E19B48A8,
  0x391C0CB3C5C95A63, 0x4ED8AA4AE3418ACB, 0x5B9CCA4F7763E373, 0x682E6FF3D6B2B8A3,
  0x748F82EE5DEFB2FC, 0x78A5636F43172F60, 0x84C87814A1F0AB72, 0x8CC702081A6439EC,
  0x90BEFFFA23631E28, 0xA4506CEBDE82BDE9, 0xBEF9A3F7B2C67915, 0xC67178F2E372532B] ++
  [0xCA273ECEEA26619C, 0xD186B8C721C0C207, 0xEADA7DD6CDE0EB1E, 0xF57D4F7FEE6ED178,
  0x06F067AA72176FBA, 0x0A637DC5A2C898A6, 0x113F9804BEF90DAE, 0x1B710B35131C471B,
  0x28DB77F523047D84, 0x32CAAB7B40C72493, 0x3C9EBE0A15C9BEBC, 0x431D67C49C100D4C,
  0x4CC5D4BECB3E42B6, 0x597F299CFC657E2A, 0x5FCB6FAB3AD6FAEC, 0x6C44198C4A475817]

/-- The initial hash value of SHA-384. -/
def shaInit : List Nat :=
  [0xCBBB9D5DC1059ED8, 0x629A292A367CD507, 0x9159015A3070DD17, 0x152FECD8F70E5939,
  0x67332667FFC00B31, 0x8EB44A8768581511, 0xDB0C2E0D64F98FA7, 0x47B5481DBEFA4FA4]

/-- Rotation right in a 64-bit word. -/
def rotr64 (x n : Nat) : Nat := (x / 2 ^ n) ||| ((x * 2 ^ (64 - n)) % 2 ^ 64)

/-- The next word of the message schedule; `w` holds the words so far, newest first. -/
def shaNextW (w : List Nat) : Nat :=
  let a := w.getD 1 0
  let b := w.getD 14 0
  let s1 := rotr64 a 19 ^^^ rotr64 a 61 ^^^ (a / 2 ^ 6)
  let s0 := rotr64 b 1 ^^^ rotr64 b 8 ^^^ (b / 2 ^ 7)
  (w.getD 15 0 + s0 + w.getD 6 0 + s1) % 2 ^ 64

/-- The message schedule extended by `n` words, newest first. -/
def shaSchedule : Nat → List Nat → List Nat
  | 0, w => w
  | n + 1, w => shaSchedule n (shaNextW w :: w)

/-- One round over the eight working variables. -/
def shaRound (v : List Nat) (kw : Nat × Nat) : List Nat :=
  match v with
  | [a, b, c, d, e, f, g, h] =>
    let s1 := rotr64 e 14 ^^^ rotr64 e 18 ^^^ rotr64 e 41
    let ch := (e &&& f) ^^^ ((e ^^^ (2 ^ 64 - 1)) &&& g)
    let t1 := (h + s1 + ch + kw.1 + kw.2) % 2 ^ 64
    let s0 := rotr64 a 28 ^^^ rotr64 a 34 ^^^ rotr64 a 39
    let mj := (a &&& b) ^^^ (a &&& c) ^^^ (b &&& c)
    [(t1 + s0 + mj) % 2 ^ 64, a, b, c, (d + t1) % 2 ^ 64, e, f, g]
  | _ => v

/-- The `n` big-endian 64-bit words at the front of `bs`. -/
def shaWords : Nat → Bytes → List Nat
  | 0, _ => []
  | n + 1, bs => beNat (bs.take 8) :: shaWords n (bs.drop 8)

/-- The compression of one 128-byte block into the hash value. -/
def shaBlock (h : List Nat) (blk : Bytes) : List Nat :=
  let w := (shaSchedule 64 (shaWords 16 blk).reverse).reverse
  let v := (List.zip shaK w).foldl shaRound h
  List.zipWith (fun x y => (x + y) % 2 ^ 64) h v

/-- The blocks of a padded message of `n` blocks. -/
def shaBlocks : Nat → Bytes → List Nat → List Nat
  | 0, _, h => h
  | n + 1, bs, h => shaBlocks n (bs.drop 128) (shaBlock h (bs.take 128))

/-- The SHA-384 digest, 48 bytes. -/
def sha384 (m : Bytes) : Bytes :=
  let l := m.length
  let pad := m ++ [0x80] ++ zeros ((112 + 128 - (l + 1) % 128) % 128) ++ natBe 16 (8 * l)
  ((shaBlocks (pad.length / 128) pad shaInit).take 6).flatMap (natBe 8)

/-- The first 64 bits of a digest as the manual stores them: the little-endian reading of digest
bytes 0 to 7 (R31). -/
def digest64 (d : Bytes) : Nat := leNat (sliceB d 0 8)

end Sys2Proof.Machine
end

