-- ==== Sys2Proof/Machine/Objects.lean ====
section
/-! DEFINITION. The object dictionary's table: one row for each object that the manual's object
tables list (R28, R30, R32, R33), its type, access class, default, retention class and stated range,
and the owning function of each index range (R34, R36). Sub-index 0x00 of every index is derived
(R28). -/

namespace Sys2Proof.Machine

/-- The types of Table 02-1. -/
inductive OTy where
  | bool | u8 | u16 | u32 | u64 | i16 | i32 | i64 | f32 | f64 | bits32 | bits64 | bits128
  | str | blob | time | place
deriving DecidableEq, Repr

/-- The access classes of Table 02-2. -/
inductive Acc where
  | ro | rw | rwa | rwd | wo | cmd
deriving DecidableEq, Repr

/-- The retention classes of Table 02-3. -/
inductive Ret where
  | f | k | d | v
deriving DecidableEq, Repr

/-- The functions that own index ranges (R34, R36): the management complex, the timebase, the
COMPUTE, FABRIC, OPTICS and UPDATE functions of R424, the memory and the self-test engine. -/
inductive Fn where
  | mgmt | timebase | compute | fabric | optics | update | memory | selftest
deriving DecidableEq, Repr

/-- How a row of an object table gives its default. -/
inductive Dflt where
  | num (n : Nat) | text (bs : List Nat) | zeroBytes (n : Nat) | empty
  | orderCode | serial | serialDigest | fwVersion | nonce | svnFuse | imageDigest
  | vendorKeyDigest | clBias | diagSigners | homeSlot | homeState | tokens | latency | recipeKinds
deriving DecidableEq, Repr

/-- One row of an object table: `span` consecutive indices (24 per port, 6 per laser input, else 1),
sub-indices `lo` to `hi`; `rng` lists the intervals of the stated range (none stated: empty);
`maxLen` bounds a BLOB. -/
structure ObjRow where
  index : Nat
  span : Nat
  lo : Nat
  hi : Nat
  ty : OTy
  acc : Acc
  dflt : Dflt
  ret : Ret
  rng : List (Int × Int)
  maxLen : Nat
deriving DecidableEq, Repr

/-- The code of a type (Table 02-1). -/
def OTy.code : OTy → Nat
  | .bool => 1 | .u8 => 2 | .u16 => 3 | .u32 => 4 | .u64 => 5 | .i16 => 6 | .i32 => 7 | .i64 => 8
  | .f32 => 9 | .f64 => 10 | .bits32 => 11 | .bits64 => 12 | .bits128 => 13 | .str => 14
  | .blob => 15 | .time => 16 | .place => 17

/-- The length in bytes of a type of fixed length, 0 for STR and BLOB (Table 02-1). -/
def OTy.len : OTy → Nat
  | .bool => 1 | .u8 => 1 | .u16 => 2 | .u32 => 4 | .u64 => 8 | .i16 => 2 | .i32 => 4 | .i64 => 8
  | .f32 => 4 | .f64 => 8 | .bits32 => 4 | .bits64 => 8 | .bits128 => 16 | .str => 0
  | .blob => 0 | .time => 12 | .place => 2

/-- Whether a value of the type is held as bytes. -/
def OTy.isBytes : OTy → Bool
  | .str => true | .blob => true
  | .bool => false | .u8 => false | .u16 => false | .u32 => false | .u64 => false | .i16 => false
  | .i32 => false | .i64 => false | .f32 => false | .f64 => false | .bits32 => false
  | .bits64 => false | .bits128 => false | .time => false | .place => false

/-- The key of an object: index × 256 + sub-index. -/
def objKey (index sub : Nat) : Nat := index * 256 + sub

/-- Object rows of the identity tables. -/
def rowsIdentity0 : List ObjRow :=
  [⟨0x1000, 1, 1, 1, .str, .ro, (.text [78, 111, 108, 100, 97, 109, 111, 114]), .f, [], 64⟩,
   ⟨0x1000, 1, 2, 2, .str, .ro, (.text [78, 68, 77, 45, 67, 76, 57, 54, 48]), .f, [], 64⟩,
   ⟨0x1000, 1, 3, 3, .str, .ro, .orderCode, .f, [], 64⟩,
   ⟨0x1000, 1, 4, 4, .str, .ro, .serial, .f, [], 64⟩,
   ⟨0x1000, 1, 5, 5, .u64, .ro, .serialDigest, .f, [], 0⟩,
   ⟨0x1000, 1, 6, 6, .u16, .ro, (.num 256), .f, [], 0⟩,
   ⟨0x1000, 1, 7, 7, .u32, .ro, .fwVersion, .f, [], 0⟩,
   ⟨0x1000, 1, 8, 8, .u16, .ro, (.num 1), .f, [], 0⟩,
   ⟨0x1000, 1, 9, 9, .u32, .ro, (.num 62917), .f, [], 0⟩,
   ⟨0x1010, 1, 1, 1, .place, .rwa, (.num 0), .k, [], 0⟩,
   ⟨0x1010, 1, 2, 2, .bool, .ro, (.num 0), .k, [], 0⟩,
   ⟨0x1020, 1, 1, 1, .bits32, .rw, (.num 3), .k, [(0, 3)], 0⟩,
   ⟨0x1020, 1, 2, 2, .u8, .ro, (.num 78), .f, [], 0⟩,
   ⟨0x1020, 1, 3, 3, .u8, .ro, (.num 0), .v, [], 0⟩,
   ⟨0x1020, 1, 4, 4, .u8, .ro, (.num 0), .v, [], 0⟩,
   ⟨0x1020, 1, 5, 5, .u16, .ro, (.num 50), .f, [], 0⟩,
   ⟨0x1020, 1, 6, 6, .u16, .rw, (.num 1000), .k, [(100, 60000)], 0⟩,
   ⟨0x1020, 1, 7, 7, .u64, .ro, (.num 0), .d, [], 0⟩,
   ⟨0x1020, 1, 8, 8, .u64, .ro, (.num 0), .d, [], 0⟩,
   ⟨0x1020, 1, 9, 9, .u64, .ro, (.num 0), .d, [], 0⟩,
   ⟨0x1018, 1, 1, 1, .bits128, .ro, (.num 16383), .f, [], 0⟩,
   ⟨0x1019, 1, 1, 1, .bits128, .rwa, (.num 0), .d, [], 0⟩,
   ⟨0x101A, 1, 1, 1, .bits128, .ro, (.num 0), .d, [], 0⟩]

/-- Object rows of the time tables. -/
def rowsTime0 : List ObjRow :=
  [⟨0x2000, 1, 1, 1, .time, .ro, (.num 0), .k, [], 0⟩,
   ⟨0x2000, 1, 2, 2, .u8, .ro, (.num 0), .k, [], 0⟩,
   ⟨0x2000, 1, 3, 3, .i32, .ro, (.num 0), .k, [], 0⟩,
   ⟨0x2000, 1, 4, 4, .u32, .ro, (.num 0), .k, [], 0⟩,
   ⟨0x2000, 1, 5, 5, .u8, .ro, (.num 255), .k, [], 0⟩,
   ⟨0x2000, 1, 6, 6, .u32, .ro, (.num 0), .k, [], 0⟩,
   ⟨0x2001, 1, 1, 1, .u16, .ro, (.num 100), .k, [], 0⟩,
   ⟨0x2001, 1, 2, 2, .u16, .rwa, (.num 100), .k, [(20, 1000)], 0⟩,
   ⟨0x2001, 1, 3, 3, .u64, .rwa, (.num 0), .k, [], 0⟩,
   ⟨0x2001, 1, 4, 4, .u16, .ro, (.num 2000), .f, [], 0⟩,
   ⟨0x2010, 1, 1, 1, .u8, .rwa, (.num 0), .k, [(0, 2)], 0⟩,
   ⟨0x2010, 1, 2, 2, .u8, .rwa, (.num 255), .k, [(0, 23), (255, 255)], 0⟩,
   ⟨0x2010, 1, 3, 3, .u8, .rwa, (.num 255), .k, [(0, 23), (255, 255)], 0⟩,
   ⟨0x2010, 1, 4, 4, .time, .cmd, (.num 0), .d, [], 0⟩,
   ⟨0x2010, 1, 5, 5, .u32, .rw, (.num 20000), .k, [(1000, 100000)], 0⟩,
   ⟨0x2020, 1, 1, 1, .blob, .rwa, .empty, .d, [], 16777216⟩,
   ⟨0x2020, 1, 2, 2, .u8, .cmd, (.num 0), .d, [(1, 1)], 0⟩,
   ⟨0x2020, 1, 3, 3, .u8, .cmd, (.num 0), .d, [(1, 1)], 0⟩,
   ⟨0x2020, 1, 4, 4, .u8, .ro, (.num 0), .d, [], 0⟩,
   ⟨0x2020, 1, 5, 5, .blob, .ro, .empty, .d, [], 16777216⟩,
   ⟨0x2020, 1, 6, 6, .u64, .ro, (.num 0), .d, [], 0⟩,
   ⟨0x2021, 1, 1, 1, .u16, .ro, (.num 0), .d, [], 0⟩,
   ⟨0x2021, 1, 2, 2, .u32, .ro, (.num 4294967295), .d, [], 0⟩,
   ⟨0x2021, 1, 3, 3, .u16, .ro, (.num 65535), .d, [], 0⟩,
   ⟨0x2021, 1, 4, 4, .u32, .ro, (.num 0), .d, [], 0⟩,
   ⟨0x2021, 1, 5, 5, .u32, .ro, (.num 0), .d, [], 0⟩,
   ⟨0x2021, 1, 6, 6, .u32, .ro, (.num 0), .d, [], 0⟩,
   ⟨0x2022, 1, 1, 1, .u64, .cmd, (.num 0), .d, [], 0⟩,
   ⟨0x2022, 1, 2, 2, .u8, .cmd, (.num 0), .d, [(1, 1)], 0⟩,
   ⟨0x2022, 1, 3, 3, .u32, .ro, (.num 0), .d, [], 0⟩]

/-- Object rows of the time tables. -/
def rowsTime1 : List ObjRow :=
  [⟨0x2022, 1, 4, 4, .u32, .ro, (.num 0), .d, [], 0⟩,
   ⟨0x2022, 1, 5, 5, .u32, .rwa, (.num 0), .d, [], 0⟩,
   ⟨0x2030, 1, 1, 1, .u32, .ro, (.num 0), .d, [], 0⟩,
   ⟨0x2030, 1, 2, 2, .u32, .ro, (.num 0), .d, [], 0⟩,
   ⟨0x2030, 1, 3, 3, .u64, .ro, (.num 0), .d, [], 0⟩,
   ⟨0x2030, 1, 4, 4, .u32, .ro, (.num 0), .d, [], 0⟩,
   ⟨0x2030, 1, 5, 5, .u32, .ro, (.num 0), .d, [], 0⟩,
   ⟨0x2040, 24, 1, 1, .i32, .rwa, (.num 0), .k, [(-100000, 100000)], 0⟩,
   ⟨0x2040, 24, 2, 2, .i32, .ro, (.num 0), .k, [], 0⟩,
   ⟨0x2080, 1, 1, 1, .f32, .rwa, (.num 0), .k, [], 0⟩,
   ⟨0x2080, 1, 2, 2, .f32, .rwa, (.num 0), .k, [], 0⟩,
   ⟨0x2080, 1, 3, 3, .bool, .ro, (.num 0), .k, [], 0⟩,
   ⟨0x2080, 1, 4, 4, .f32, .ro, (.num 0), .k, [], 0⟩]

/-- Object rows of the compute tables. -/
def rowsCompute0 : List ObjRow :=
  [⟨0x3000, 1, 1, 1, .u16, .ro, (.num 192), .f, [], 0⟩,
   ⟨0x3000, 1, 2, 2, .u8, .ro, (.num 2), .k, [], 0⟩,
   ⟨0x3000, 1, 3, 3, .u8, .ro, (.num 2), .k, [], 0⟩,
   ⟨0x3000, 1, 4, 4, .u8, .ro, (.num 2), .k, [], 0⟩,
   ⟨0x3000, 1, 5, 5, .u8, .ro, (.num 2), .k, [], 0⟩,
   ⟨0x3000, 1, 6, 6, .bool, .ro, (.num 0), .k, [], 0⟩,
   ⟨0x3000, 1, 7, 7, .u32, .ro, (.num 0), .k, [], 0⟩,
   ⟨0x3000, 1, 8, 8, .u64, .ro, (.num 0), .k, [], 0⟩,
   ⟨0x3000, 1, 9, 9, .u32, .ro, (.num 0), .d, [], 0⟩,
   ⟨0x3000, 1, 10, 10, .u64, .ro, (.num 0), .d, [], 0⟩,
   ⟨0x3000, 1, 11, 11, .u64, .ro, (.num 0), .d, [], 0⟩,
   ⟨0x3001, 1, 1, 96, .u8, .ro, .homeSlot, .k, [], 0⟩,
   ⟨0x3002, 1, 1, 96, .u8, .ro, .homeSlot, .k, [], 0⟩,
   ⟨0x3003, 1, 1, 100, .u8, .ro, .homeState, .k, [], 0⟩,
   ⟨0x3004, 1, 1, 100, .u8, .ro, .homeState, .k, [], 0⟩,
   ⟨0x3005, 1, 1, 96, .u8, .ro, (.num 0), .d, [], 0⟩,
   ⟨0x3006, 1, 1, 96, .u8, .ro, (.num 0), .d, [], 0⟩,
   ⟨0x3007, 1, 1, 192, .bits64, .ro, (.num 8589934592), .v, [], 0⟩,
   ⟨0x3008, 1, 1, 192, .bits64, .ro, (.num 8589934592), .v, [], 0⟩,
   ⟨0x3009, 1, 1, 1, .bits128, .rwa, (.num 0), .f, [(0, 1267650600228229401496703205375)], 0⟩,
   ⟨0x3009, 1, 2, 2, .bits128, .rwa, (.num 0), .f, [(0, 1267650600228229401496703205375)], 0⟩,
   ⟨0x3040, 1, 1, 1, .u32, .ro, (.num 0), .d, [], 0⟩,
   ⟨0x3040, 1, 2, 2, .u64, .ro, (.num 0), .d, [], 0⟩,
   ⟨0x3040, 1, 3, 3, .u64, .ro, (.num 0), .d, [], 0⟩,
   ⟨0x3040, 1, 4, 4, .u32, .ro, (.num 0), .k, [], 0⟩,
   ⟨0x3040, 1, 5, 5, .u64, .ro, (.num 0), .k, [], 0⟩,
   ⟨0x3040, 1, 6, 6, .u32, .ro, (.num 0), .d, [], 0⟩,
   ⟨0x3040, 1, 7, 7, .u64, .ro, (.num 0), .d, [], 0⟩,
   ⟨0x3041, 1, 1, 1, .u32, .ro, (.num 0), .k, [], 0⟩,
   ⟨0x3041, 1, 2, 2, .u64, .ro, (.num 0), .k, [], 0⟩]

/-- Object rows of the compute tables. -/
def rowsCompute1 : List ObjRow :=
  [⟨0x3041, 1, 3, 3, .u32, .ro, (.num 0), .d, [], 0⟩,
   ⟨0x3041, 1, 4, 4, .u64, .ro, (.num 0), .d, [], 0⟩,
   ⟨0x3041, 1, 5, 5, .u32, .ro, (.num 0), .d, [], 0⟩,
   ⟨0x3041, 1, 6, 6, .u32, .ro, (.num 0), .d, [], 0⟩,
   ⟨0x3041, 1, 7, 7, .u64, .ro, (.num 0), .d, [], 0⟩,
   ⟨0x3042, 1, 1, 16, .u8, .ro, (.num 0), .k, [], 0⟩]

/-- Object rows of the numerics tables. -/
def rowsNumerics0 : List ObjRow :=
  [⟨0x3100, 1, 1, 1, .u64, .ro, (.num 0), .d, [], 0⟩,
   ⟨0x3100, 1, 2, 2, .u32, .ro, (.num 0), .k, [], 0⟩,
   ⟨0x3100, 1, 3, 3, .u64, .ro, (.num 0), .k, [], 0⟩,
   ⟨0x3110, 1, 1, 1, .i16, .ro, (.num 0), .d, [], 0⟩,
   ⟨0x3110, 1, 2, 2, .u32, .ro, (.num 0), .d, [], 0⟩,
   ⟨0x3110, 1, 3, 3, .i16, .rwa, (.num 32767), .d, [], 0⟩,
   ⟨0x3110, 1, 4, 4, .u32, .rwa, (.num 4294967295), .d, [(0, 65534), (4294967295, 4294967295)], 0⟩,
   ⟨0x3110, 1, 5, 5, .u32, .ro, (.num 0), .d, [], 0⟩,
   ⟨0x3110, 1, 6, 6, .u8, .ro, (.num 0), .d, [], 0⟩,
   ⟨0x3110, 1, 7, 7, .u64, .ro, (.num 0), .d, [], 0⟩,
   ⟨0x3120, 1, 1, 1, .bool, .ro, (.num 0), .v, [], 0⟩,
   ⟨0x3120, 1, 2, 2, .u32, .ro, (.num 0), .d, [], 0⟩,
   ⟨0x3120, 1, 3, 3, .u64, .ro, (.num 0), .d, [], 0⟩,
   ⟨0x3120, 1, 4, 4, .u32, .ro, (.num 0), .d, [], 0⟩,
   ⟨0x3130, 1, 1, 1, .blob, .ro, .recipeKinds, .d, [], 16777216⟩,
   ⟨0x3130, 1, 2, 2, .u32, .ro, (.num 0), .d, [], 0⟩,
   ⟨0x3130, 1, 3, 3, .u64, .ro, (.num 0), .d, [], 0⟩,
   ⟨0x3140, 1, 1, 1, .blob, .ro, (.zeroBytes 16384), .d, [], 16777216⟩,
   ⟨0x3140, 1, 2, 2, .u32, .ro, (.num 0), .d, [], 0⟩,
   ⟨0x3140, 1, 3, 3, .u64, .ro, (.num 0), .d, [], 0⟩,
   ⟨0x3160, 1, 1, 1, .u8, .ro, (.num 0), .k, [], 0⟩,
   ⟨0x3160, 1, 2, 65, .bits128, .ro, (.num 0), .k, [], 0⟩]

/-- Object rows of the granary tables. -/
def rowsGranary0 : List ObjRow :=
  [⟨0x3200, 1, 1, 1, .u8, .ro, (.num 32), .f, [], 0⟩,
   ⟨0x3200, 1, 2, 2, .u32, .ro, (.num 5592405), .f, [], 0⟩,
   ⟨0x3200, 1, 3, 3, .u16, .ro, (.num 0), .d, [], 0⟩,
   ⟨0x3200, 1, 4, 4, .u32, .ro, (.num 0), .d, [], 0⟩,
   ⟨0x3200, 1, 5, 5, .u64, .ro, (.num 0), .d, [], 0⟩,
   ⟨0x3200, 1, 6, 6, .u32, .ro, (.num 0), .d, [], 0⟩,
   ⟨0x3200, 1, 7, 7, .u32, .ro, (.num 0), .d, [], 0⟩,
   ⟨0x3200, 1, 8, 8, .u64, .ro, (.num 0), .d, [], 0⟩,
   ⟨0x3200, 1, 9, 9, .u32, .ro, (.num 0), .d, [], 0⟩,
   ⟨0x3200, 1, 10, 10, .u64, .ro, (.num 0), .d, [], 0⟩,
   ⟨0x3200, 1, 11, 11, .u32, .ro, (.num 0), .k, [], 0⟩,
   ⟨0x3200, 1, 12, 12, .u64, .ro, (.num 0), .k, [], 0⟩,
   ⟨0x3210, 1, 1, 1, .u16, .rw, (.num 0), .d, [], 0⟩,
   ⟨0x3210, 1, 2, 2, .u8, .ro, (.num 0), .v, [], 0⟩,
   ⟨0x3210, 1, 3, 3, .u32, .ro, (.num 0), .v, [], 0⟩,
   ⟨0x3210, 1, 4, 4, .u8, .ro, (.num 0), .v, [], 0⟩,
   ⟨0x3210, 1, 5, 5, .u32, .ro, (.num 0), .v, [], 0⟩,
   ⟨0x3210, 1, 6, 6, .u64, .ro, (.num 0), .v, [], 0⟩,
   ⟨0x3210, 1, 7, 7, .u32, .ro, (.num 0), .v, [], 0⟩,
   ⟨0x3210, 1, 8, 8, .u32, .ro, (.num 0), .v, [], 0⟩,
   ⟨0x3210, 1, 9, 9, .u32, .ro, (.num 0), .v, [], 0⟩,
   ⟨0x3210, 1, 10, 10, .time, .ro, (.num 0), .v, [], 0⟩,
   ⟨0x3210, 1, 11, 11, .u32, .ro, (.num 0), .v, [], 0⟩,
   ⟨0x3220, 1, 1, 32, .u64, .ro, (.num 0), .d, [], 0⟩]

/-- Object rows of the update tables. -/
def rowsUpdate0 : List ObjRow :=
  [⟨0x3300, 1, 1, 1, .u8, .ro, (.num 4), .f, [], 0⟩,
   ⟨0x3300, 1, 2, 2, .u16, .ro, (.num 0), .d, [], 0⟩,
   ⟨0x3300, 1, 3, 3, .u64, .ro, (.num 0), .d, [], 0⟩,
   ⟨0x3300, 1, 4, 4, .u32, .ro, (.num 0), .d, [], 0⟩,
   ⟨0x3300, 1, 5, 5, .u32, .ro, (.num 0), .k, [], 0⟩,
   ⟨0x3310, 1, 1, 1, .blob, .ro, (.zeroBytes 4096), .d, [], 16777216⟩,
   ⟨0x3310, 1, 2, 2, .blob, .rwa, .empty, .d, [], 4096⟩,
   ⟨0x3320, 1, 1, 1, .blob, .ro, (.zeroBytes 4096), .v, [], 16777216⟩,
   ⟨0x3330, 1, 1, 1, .u16, .rw, (.num 0), .d, [], 0⟩,
   ⟨0x3330, 1, 2, 2, .u8, .ro, (.num 0), .v, [], 0⟩,
   ⟨0x3330, 1, 3, 3, .u8, .ro, (.num 0), .v, [], 0⟩,
   ⟨0x3330, 1, 4, 4, .u32, .ro, (.num 0), .v, [], 0⟩]

/-- Object rows of the memory tables. -/
def rowsMemory0 : List ObjRow :=
  [⟨0x4000, 1, 1, 1, .u64, .ro, (.num 1099511627776), .f, [], 0⟩,
   ⟨0x4000, 1, 2, 2, .u8, .ro, (.num 0), .k, [], 0⟩,
   ⟨0x4000, 1, 3, 3, .u8, .ro, (.num 128), .f, [], 0⟩,
   ⟨0x4001, 1, 1, 1, .u8, .cmd, (.num 0), .k, [(1, 1)], 0⟩,
   ⟨0x4010, 1, 1, 1, .u64, .ro, (.num 0), .k, [], 0⟩,
   ⟨0x4010, 1, 2, 2, .u32, .ro, (.num 0), .k, [], 0⟩,
   ⟨0x4010, 1, 3, 3, .u64, .ro, (.num 0), .k, [], 0⟩,
   ⟨0x4010, 1, 4, 4, .u32, .ro, (.num 0), .f, [], 0⟩,
   ⟨0x4010, 1, 5, 5, .u8, .ro, (.num 64), .f, [], 0⟩,
   ⟨0x4010, 1, 6, 6, .u32, .ro, (.num 0), .k, [], 0⟩,
   ⟨0x4020, 1, 1, 1, .u64, .ro, (.num 0), .k, [], 0⟩,
   ⟨0x4020, 1, 2, 2, .u32, .ro, (.num 0), .k, [], 0⟩,
   ⟨0x4020, 1, 3, 3, .time, .ro, (.num 0), .k, [], 0⟩,
   ⟨0x4030, 1, 1, 1, .u16, .rw, (.num 0), .d, [], 0⟩,
   ⟨0x4030, 1, 2, 2, .u8, .ro, (.num 0), .d, [], 0⟩,
   ⟨0x4030, 1, 3, 3, .u64, .ro, (.num 0), .d, [], 0⟩,
   ⟨0x4030, 1, 4, 4, .u64, .ro, (.num 0), .d, [], 0⟩,
   ⟨0x4030, 1, 5, 5, .u8, .ro, (.num 0), .d, [], 0⟩,
   ⟨0x4030, 1, 6, 6, .u16, .ro, (.num 0), .d, [], 0⟩,
   ⟨0x4040, 1, 1, 1, .u32, .ro, (.num 0), .d, [], 0⟩,
   ⟨0x4040, 1, 2, 2, .u64, .ro, (.num 0), .d, [], 0⟩,
   ⟨0x4040, 1, 3, 3, .u32, .ro, (.num 0), .d, [], 0⟩,
   ⟨0x4040, 1, 4, 4, .bool, .ro, (.num 0), .k, [], 0⟩]

/-- Object rows of the optics tables. -/
def rowsOptics0 : List ObjRow :=
  [⟨0x5000, 1, 1, 1, .u32, .ro, (.num 228000000), .f, [], 0⟩,
   ⟨0x5000, 1, 2, 2, .u32, .ro, (.num 400000), .f, [], 0⟩,
   ⟨0x5000, 1, 3, 3, .u32, .ro, (.num 235000000), .f, [], 0⟩,
   ⟨0x5000, 1, 4, 4, .u32, .ro, (.num 0), .k, [], 0⟩,
   ⟨0x5000, 1, 5, 5, .u32, .ro, (.num 60000), .f, [], 0⟩,
   ⟨0x5000, 1, 6, 6, .u32, .ro, (.num 30000), .f, [], 0⟩,
   ⟨0x5000, 1, 7, 7, .u32, .ro, (.num 0), .k, [], 0⟩,
   ⟨0x5000, 1, 8, 8, .u64, .ro, (.num 0), .k, [], 0⟩,
   ⟨0x5000, 1, 9, 9, .u32, .ro, (.num 0), .k, [], 0⟩,
   ⟨0x5000, 1, 10, 10, .u64, .ro, (.num 0), .k, [], 0⟩,
   ⟨0x5010, 6, 1, 1, .bits32, .rwa, (.num 0), .k, [(0, 65535)], 0⟩,
   ⟨0x5010, 6, 2, 2, .u32, .rwa, (.num 0), .k, [], 0⟩,
   ⟨0x5010, 6, 3, 3, .u32, .rwa, (.num 0), .k, [], 0⟩,
   ⟨0x5010, 6, 4, 4, .u8, .ro, (.num 0), .k, [], 0⟩,
   ⟨0x5010, 6, 5, 5, .bits32, .ro, (.num 0), .k, [], 0⟩,
   ⟨0x5010, 6, 6, 6, .blob, .ro, (.zeroBytes 32), .v, [], 16777216⟩,
   ⟨0x5010, 6, 7, 7, .bits64, .ro, (.num 0), .k, [], 0⟩,
   ⟨0x5010, 6, 8, 8, .i16, .ro, (.num 32767), .v, [], 0⟩,
   ⟨0x5010, 6, 9, 9, .u32, .ro, (.num 0), .k, [], 0⟩,
   ⟨0x5010, 6, 10, 10, .u64, .ro, (.num 0), .k, [], 0⟩,
   ⟨0x5010, 6, 11, 11, .u8, .cmd, (.num 0), .d, [(0, 1)], 0⟩,
   ⟨0x5020, 1, 1, 1, .u8, .rwa, (.num 0), .k, [(0, 127)], 0⟩,
   ⟨0x5020, 1, 2, 2, .u8, .rwa, (.num 0), .k, [(0, 127)], 0⟩,
   ⟨0x5020, 1, 3, 3, .u32, .ro, (.num 0), .k, [], 0⟩,
   ⟨0x5040, 24, 1, 1, .bits32, .ro, (.num 0), .v, [], 0⟩,
   ⟨0x5040, 24, 2, 2, .blob, .ro, (.zeroBytes 16), .v, [], 16777216⟩,
   ⟨0x5040, 24, 3, 3, .blob, .ro, (.zeroBytes 16), .v, [], 16777216⟩,
   ⟨0x5040, 24, 4, 4, .u8, .ro, (.num 0), .k, [], 0⟩,
   ⟨0x5040, 24, 5, 5, .u32, .ro, (.num 0), .k, [], 0⟩,
   ⟨0x5080, 24, 1, 1, .blob, .ro, (.zeroBytes 16), .v, [], 16777216⟩]

/-- Object rows of the optics tables. -/
def rowsOptics1 : List ObjRow :=
  [⟨0x5080, 24, 2, 2, .bits32, .ro, (.num 0), .v, [], 0⟩,
   ⟨0x5080, 24, 3, 3, .bool, .ro, (.num 0), .k, [], 0⟩,
   ⟨0x50C0, 24, 1, 1, .bits32, .ro, (.num 1), .k, [], 0⟩,
   ⟨0x50C0, 24, 2, 2, .u32, .ro, .clBias, .k, [], 0⟩,
   ⟨0x50C0, 24, 3, 3, .i16, .ro, (.num 0), .k, [], 0⟩,
   ⟨0x5100, 24, 1, 1, .bits64, .ro, (.num 18446744073709551615), .k, [], 0⟩,
   ⟨0x5100, 24, 2, 2, .bits32, .ro, (.num 0), .k, [], 0⟩,
   ⟨0x5200, 1, 1, 1, .u8, .ro, (.num 0), .d, [], 0⟩,
   ⟨0x5200, 1, 2, 2, .u8, .ro, (.num 255), .d, [], 0⟩,
   ⟨0x5200, 1, 3, 3, .u32, .ro, (.num 0), .d, [], 0⟩,
   ⟨0x5200, 1, 4, 4, .u64, .cmd, (.num 0), .d, [], 0⟩,
   ⟨0x5200, 1, 5, 5, .u8, .ro, (.num 0), .d, [], 0⟩,
   ⟨0x5200, 1, 6, 6, .u64, .ro, (.num 0), .d, [], 0⟩,
   ⟨0x5200, 1, 7, 7, .u8, .cmd, (.num 0), .d, [(1, 1)], 0⟩]

/-- Object rows of the link tables. -/
def rowsLink0 : List ObjRow :=
  [⟨0x5400, 1, 1, 1, .bits64, .ro, (.num 1023), .f, [], 0⟩,
   ⟨0x5400, 1, 2, 2, .bits64, .rwa, (.num 18446744073709551615), .k, [], 0⟩,
   ⟨0x5400, 1, 3, 3, .u32, .ro, (.num 2048), .f, [], 0⟩,
   ⟨0x5400, 1, 4, 4, .u32, .ro, (.num 0), .d, [], 0⟩,
   ⟨0x5400, 1, 5, 5, .u64, .ro, (.num 0), .d, [], 0⟩,
   ⟨0x5410, 24, 1, 1, .u8, .ro, (.num 0), .k, [], 0⟩,
   ⟨0x5410, 24, 2, 2, .u32, .ro, (.num 0), .k, [], 0⟩,
   ⟨0x5410, 24, 3, 3, .bits32, .ro, (.num 0), .v, [], 0⟩,
   ⟨0x5410, 24, 4, 4, .bits64, .ro, (.num 0), .k, [], 0⟩,
   ⟨0x5410, 24, 5, 5, .u32, .ro, (.num 0), .k, [], 0⟩,
   ⟨0x5410, 24, 6, 6, .u8, .cmd, (.num 0), .d, [(1, 1)], 0⟩,
   ⟨0x5410, 24, 7, 7, .u8, .ro, (.num 0), .v, [], 0⟩,
   ⟨0x5410, 24, 8, 8, .u8, .ro, (.num 0), .v, [], 0⟩,
   ⟨0x5430, 24, 1, 1, .place, .rwa, (.num 0), .k, [], 0⟩,
   ⟨0x5430, 24, 2, 2, .u8, .rwa, (.num 255), .k, [(0, 23), (255, 255)], 0⟩,
   ⟨0x5430, 24, 3, 3, .u64, .rwa, (.num 0), .k, [], 0⟩,
   ⟨0x5450, 24, 1, 1, .blob, .ro, .empty, .k, [], 16777216⟩,
   ⟨0x5450, 24, 2, 2, .u32, .ro, (.num 4294967295), .k, [], 0⟩,
   ⟨0x5470, 24, 1, 1, .u64, .ro, (.num 0), .d, [], 0⟩,
   ⟨0x5470, 24, 2, 2, .u64, .ro, (.num 0), .d, [], 0⟩,
   ⟨0x5470, 24, 3, 3, .u64, .ro, (.num 0), .d, [], 0⟩,
   ⟨0x5470, 24, 4, 4, .u64, .ro, (.num 0), .d, [], 0⟩,
   ⟨0x5470, 24, 5, 5, .u64, .ro, (.num 0), .d, [], 0⟩,
   ⟨0x5470, 24, 6, 6, .u64, .ro, (.num 0), .d, [], 0⟩,
   ⟨0x5500, 24, 1, 1, .u64, .ro, (.num 0), .d, [], 0⟩,
   ⟨0x5500, 24, 2, 2, .u64, .ro, (.num 0), .d, [], 0⟩,
   ⟨0x5500, 24, 3, 3, .u64, .ro, (.num 0), .d, [], 0⟩,
   ⟨0x5500, 24, 4, 4, .u64, .ro, (.num 0), .d, [], 0⟩,
   ⟨0x5500, 24, 5, 5, .blob, .ro, (.zeroBytes 12), .d, [], 16777216⟩,
   ⟨0x5500, 24, 6, 6, .u64, .ro, (.num 0), .d, [], 0⟩]

/-- Object rows of the link tables. -/
def rowsLink1 : List ObjRow :=
  [⟨0x5500, 24, 7, 7, .u32, .ro, (.num 0), .d, [], 0⟩,
   ⟨0x5500, 24, 8, 8, .u64, .ro, (.num 0), .d, [], 0⟩,
   ⟨0x5540, 1, 1, 1, .u8, .ro, (.num 0), .d, [], 0⟩,
   ⟨0x5540, 1, 2, 2, .u32, .ro, (.num 0), .d, [], 0⟩,
   ⟨0x5540, 1, 3, 3, .u8, .cmd, (.num 0), .d, [(1, 1)], 0⟩]

/-- Object rows of the flow tables. -/
def rowsFlow0 : List ObjRow :=
  [⟨0x5600, 1, 1, 1, .u16, .ro, (.num 0), .v, [], 0⟩,
   ⟨0x5600, 1, 2, 2, .u16, .rwa, (.num 20), .k, [(5, 1000)], 0⟩,
   ⟨0x5600, 1, 3, 3, .u32, .ro, (.num 0), .d, [], 0⟩,
   ⟨0x5600, 1, 4, 4, .u64, .ro, (.num 0), .d, [], 0⟩,
   ⟨0x5600, 1, 5, 5, .u64, .ro, (.num 0), .d, [], 0⟩,
   ⟨0x5600, 1, 6, 6, .u64, .ro, (.num 0), .d, [], 0⟩,
   ⟨0x5600, 1, 7, 7, .u32, .ro, (.num 0), .d, [], 0⟩,
   ⟨0x5610, 1, 1, 1, .u16, .rw, (.num 0), .d, [], 0⟩,
   ⟨0x5610, 1, 2, 2, .u32, .ro, (.num 0), .v, [], 0⟩,
   ⟨0x5610, 1, 3, 3, .u8, .ro, (.num 0), .v, [], 0⟩,
   ⟨0x5610, 1, 4, 4, .u64, .ro, (.num 0), .v, [], 0⟩,
   ⟨0x5610, 1, 5, 5, .u32, .ro, (.num 0), .v, [], 0⟩,
   ⟨0x5610, 1, 6, 6, .u64, .ro, (.num 0), .v, [], 0⟩]

/-- Object rows of the queue tables. -/
def rowsQueue0 : List ObjRow :=
  [⟨0x6000, 1, 1, 1, .u32, .ro, (.num 0), .d, [], 0⟩,
   ⟨0x6000, 1, 2, 2, .u32, .ro, (.num 0), .d, [], 0⟩,
   ⟨0x6000, 1, 3, 3, .u64, .ro, (.num 0), .d, [], 0⟩,
   ⟨0x6000, 1, 4, 4, .u64, .ro, (.num 0), .d, [], 0⟩,
   ⟨0x6000, 1, 5, 5, .u32, .ro, (.num 0), .d, [], 0⟩,
   ⟨0x6010, 1, 1, 1, .u16, .rw, (.num 0), .d, [], 0⟩,
   ⟨0x6010, 1, 2, 2, .u8, .ro, (.num 0), .v, [], 0⟩,
   ⟨0x6010, 1, 3, 3, .u32, .ro, (.num 0), .v, [], 0⟩,
   ⟨0x6010, 1, 4, 4, .u32, .ro, (.num 0), .v, [], 0⟩,
   ⟨0x6020, 1, 1, 1, .u32, .ro, (.num 0), .k, [], 0⟩,
   ⟨0x6020, 1, 2, 2, .blob, .ro, (.zeroBytes 16384), .k, [], 16777216⟩,
   ⟨0x6020, 1, 3, 3, .u32, .ro, (.num 4294967295), .d, [], 0⟩,
   ⟨0x6040, 1, 1, 1, .u8, .rw, (.num 0), .k, [(0, 2)], 0⟩,
   ⟨0x6040, 1, 2, 2, .bits32, .rwa, (.num 0), .k, [(0, 16777215)], 0⟩,
   ⟨0x6040, 1, 3, 3, .place, .rw, (.num 0), .k, [], 0⟩,
   ⟨0x6040, 1, 4, 4, .u64, .ro, (.num 0), .d, [], 0⟩,
   ⟨0x6040, 1, 5, 5, .u32, .ro, (.num 0), .d, [], 0⟩,
   ⟨0x6060, 1, 1, 1, .u16, .rw, (.num 10), .k, [(1, 1000)], 0⟩,
   ⟨0x6060, 1, 2, 2, .u32, .ro, (.num 0), .d, [], 0⟩,
   ⟨0x6060, 1, 3, 3, .bits32, .ro, (.num 0), .d, [], 0⟩]

/-- Object rows of the integrity tables. -/
def rowsIntegrity0 : List ObjRow :=
  [⟨0x7000, 1, 1, 1, .u32, .ro, (.num 0), .k, [], 0⟩,
   ⟨0x7000, 1, 2, 2, .u64, .ro, (.num 0), .k, [], 0⟩,
   ⟨0x7000, 1, 3, 3, .u64, .ro, (.num 0), .d, [], 0⟩,
   ⟨0x7000, 1, 4, 4, .u32, .ro, (.num 0), .d, [], 0⟩,
   ⟨0x7000, 1, 5, 5, .u64, .ro, (.num 0), .d, [], 0⟩,
   ⟨0x7000, 1, 6, 6, .u32, .ro, (.num 0), .d, [], 0⟩,
   ⟨0x7000, 1, 7, 7, .u16, .ro, (.num 100), .f, [], 0⟩,
   ⟨0x7000, 1, 8, 8, .u32, .ro, (.num 0), .d, [], 0⟩,
   ⟨0x7010, 1, 1, 1, .place, .ro, (.num 0), .d, [], 0⟩,
   ⟨0x7010, 1, 2, 2, .u8, .ro, (.num 255), .d, [], 0⟩,
   ⟨0x7010, 1, 3, 3, .bits32, .ro, (.num 0), .d, [], 0⟩,
   ⟨0x7010, 1, 4, 4, .u8, .ro, (.num 0), .d, [], 0⟩,
   ⟨0x7010, 1, 5, 5, .u16, .ro, (.num 0), .d, [], 0⟩,
   ⟨0x7020, 1, 1, 1, .blob, .ro, .empty, .k, [], 16777216⟩,
   ⟨0x7020, 1, 2, 2, .blob, .ro, .empty, .k, [], 16777216⟩,
   ⟨0x7020, 1, 3, 3, .u32, .ro, (.num 0), .k, [], 0⟩,
   ⟨0x7020, 1, 4, 4, .u32, .ro, (.num 0), .d, [], 0⟩,
   ⟨0x7020, 1, 5, 5, .u32, .ro, (.num 0), .d, [], 0⟩,
   ⟨0x7020, 1, 6, 6, .u8, .cmd, (.num 0), .d, [(1, 1)], 0⟩,
   ⟨0x7100, 1, 1, 1, .blob, .wo, .empty, .v, [], 4194304⟩,
   ⟨0x7100, 1, 2, 2, .u8, .ro, (.num 0), .f, [], 0⟩,
   ⟨0x7100, 1, 3, 3, .blob, .ro, .empty, .f, [], 16777216⟩,
   ⟨0x7100, 1, 4, 4, .u32, .cmd, (.num 0), .d, [], 0⟩,
   ⟨0x7100, 1, 5, 5, .u32, .ro, (.num 0), .k, [], 0⟩,
   ⟨0x7100, 1, 6, 6, .u64, .ro, (.num 0), .k, [], 0⟩,
   ⟨0x7100, 1, 7, 7, .u64, .ro, (.num 0), .d, [], 0⟩,
   ⟨0x7110, 1, 1, 1, .u8, .ro, (.num 0), .f, [], 0⟩,
   ⟨0x7110, 1, 2, 2, .blob, .ro, .empty, .f, [], 16777216⟩,
   ⟨0x7110, 1, 3, 3, .time, .ro, (.num 0), .f, [], 0⟩,
   ⟨0x7110, 1, 4, 4, .u32, .ro, (.num 0), .f, [], 0⟩]

/-- Object rows of the integrity tables. -/
def rowsIntegrity1 : List ObjRow :=
  [⟨0x7110, 1, 5, 5, .u8, .cmd, (.num 0), .d, [(1, 1)], 0⟩,
   ⟨0x7110, 1, 6, 6, .u8, .ro, (.num 0), .k, [], 0⟩,
   ⟨0x7110, 1, 7, 7, .bits32, .ro, (.num 0), .f, [], 0⟩,
   ⟨0x7120, 1, 1, 1, .blob, .rw, .empty, .v, [], 1048576⟩,
   ⟨0x7120, 1, 2, 2, .u8, .cmd, (.num 0), .v, [(1, 1)], 0⟩,
   ⟨0x7120, 1, 3, 3, .blob, .ro, .empty, .v, [], 16777216⟩]

/-- Object rows of the fault tables. -/
def rowsFault0 : List ObjRow :=
  [⟨0x7200, 1, 1, 1, .u8, .rwa, (.num 8), .k, [(2, 64)], 0⟩,
   ⟨0x7200, 1, 2, 2, .u64, .ro, (.num 0), .d, [], 0⟩,
   ⟨0x7200, 1, 3, 3, .u8, .ro, (.num 0), .d, [], 0⟩,
   ⟨0x7200, 1, 4, 4, .u32, .ro, (.num 0), .d, [], 0⟩,
   ⟨0x7200, 1, 5, 5, .u64, .ro, (.num 0), .k, [], 0⟩,
   ⟨0x7200, 1, 6, 6, .bits64, .ro, (.num 0), .k, [], 0⟩,
   ⟨0x7210, 1, 1, 1, .u8, .ro, (.num 0), .d, [], 0⟩,
   ⟨0x7210, 1, 2, 2, .u64, .ro, (.num 0), .k, [], 0⟩,
   ⟨0x7210, 1, 3, 3, .u64, .ro, (.num 0), .k, [], 0⟩,
   ⟨0x7210, 1, 4, 4, .u16, .cmd, (.num 0), .d, [], 0⟩,
   ⟨0x7210, 1, 5, 5, .u64, .ro, (.num 0), .k, [], 0⟩,
   ⟨0x7210, 1, 6, 6, .u64, .ro, (.num 0), .d, [], 0⟩,
   ⟨0x7210, 1, 7, 7, .u32, .ro, (.num 0), .k, [], 0⟩,
   ⟨0x7220, 1, 1, 1, .u8, .cmd, (.num 0), .d, [(1, 4)], 0⟩,
   ⟨0x7220, 1, 2, 2, .u64, .ro, (.num 0), .k, [], 0⟩,
   ⟨0x7220, 1, 3, 3, .u32, .ro, (.num 0), .k, [], 0⟩,
   ⟨0x7230, 1, 1, 1, .blob, .ro, .empty, .f, [], 16777216⟩,
   ⟨0x7230, 1, 2, 2, .blob, .ro, .empty, .k, [], 16777216⟩,
   ⟨0x7230, 1, 3, 3, .u16, .ro, (.num 0), .f, [], 0⟩,
   ⟨0x7230, 1, 4, 4, .u32, .ro, (.num 0), .k, [], 0⟩,
   ⟨0x7230, 1, 5, 5, .u8, .cmd, (.num 0), .d, [(1, 2)], 0⟩,
   ⟨0x7230, 1, 6, 6, .u32, .ro, (.num 0), .f, [], 0⟩]

/-- Object rows of the life tables. -/
def rowsLife0 : List ObjRow :=
  [⟨0x1100, 1, 1, 1, .u8, .ro, (.num 0), .f, [], 0⟩,
   ⟨0x1100, 1, 2, 2, .u64, .ro, .nonce, .k, [], 0⟩,
   ⟨0x1100, 1, 3, 3, .blob, .cmd, .empty, .d, [], 120⟩,
   ⟨0x1100, 1, 4, 4, .u8, .ro, .diagSigners, .f, [], 0⟩,
   ⟨0x1100, 1, 5, 5, .u8, .cmd, (.num 0), .d, [(1, 2)], 0⟩,
   ⟨0x1110, 1, 1, 1, .blob, .wo, .empty, .d, [], 16777216⟩,
   ⟨0x1110, 1, 2, 2, .u32, .ro, (.num 0), .d, [], 0⟩,
   ⟨0x1110, 1, 3, 3, .u8, .cmd, (.num 0), .d, [(1, 1)], 0⟩,
   ⟨0x1110, 1, 4, 4, .u8, .ro, .svnFuse, .f, [], 0⟩,
   ⟨0x1110, 1, 5, 5, .u8, .ro, (.num 0), .k, [], 0⟩,
   ⟨0x1110, 1, 6, 6, .blob, .ro, .imageDigest, .f, [], 16777216⟩,
   ⟨0x1110, 1, 7, 7, .blob, .ro, .imageDigest, .k, [], 16777216⟩,
   ⟨0x1200, 1, 1, 1, .blob, .ro, .empty, .f, [], 16777216⟩,
   ⟨0x1200, 1, 2, 2, .blob, .rw, .empty, .f, [], 16384⟩,
   ⟨0x1200, 1, 3, 3, .blob, .rw, .empty, .f, [], 97⟩,
   ⟨0x1200, 1, 4, 4, .u64, .ro, (.num 0), .f, [], 0⟩,
   ⟨0x1200, 1, 5, 5, .u64, .ro, .vendorKeyDigest, .f, [], 0⟩,
   ⟨0x1300, 1, 1, 1, .blob, .ro, .empty, .d, [], 16777216⟩,
   ⟨0x1300, 1, 2, 2, .u32, .ro, (.num 0), .d, [], 0⟩,
   ⟨0x1310, 1, 1, 1, .u32, .ro, (.num 0), .f, [], 0⟩,
   ⟨0x1310, 1, 2, 2, .u64, .ro, (.num 0), .f, [], 0⟩]

/-- Object rows of the power tables. -/
def rowsPower0 : List ObjRow :=
  [⟨0x8000, 1, 1, 1, .u8, .ro, (.num 0), .k, [], 0⟩,
   ⟨0x8000, 1, 2, 2, .u8, .cmd, (.num 0), .d, [(1, 1), (3, 4)], 0⟩,
   ⟨0x8000, 1, 3, 3, .u32, .ro, (.num 0), .k, [], 0⟩,
   ⟨0x8000, 1, 4, 4, .f32, .ro, (.num 0), .k, [], 0⟩,
   ⟨0x8000, 1, 5, 5, .f32, .ro, (.num 0), .d, [], 0⟩,
   ⟨0x8000, 1, 6, 6, .u32, .ro, (.num 0), .k, [], 0⟩,
   ⟨0x8010, 1, 1, 1, .f32, .ro, (.num 0), .k, [], 0⟩,
   ⟨0x8010, 1, 2, 2, .f32, .ro, (.num 0), .k, [], 0⟩,
   ⟨0x8010, 1, 3, 3, .u8, .ro, (.num 0), .k, [], 0⟩,
   ⟨0x8010, 1, 4, 4, .f32, .ro, (.num 1121058816), .f, [], 0⟩,
   ⟨0x8010, 1, 5, 5, .f32, .ro, (.num 1122369536), .f, [], 0⟩,
   ⟨0x8010, 1, 6, 6, .f32, .ro, (.num 1123680256), .f, [], 0⟩,
   ⟨0x8010, 1, 7, 7, .u64, .ro, (.num 0), .k, [], 0⟩,
   ⟨0x8010, 1, 8, 8, .u32, .ro, (.num 0), .k, [], 0⟩,
   ⟨0x8010, 1, 9, 9, .u32, .ro, (.num 0), .f, [], 0⟩,
   ⟨0x8020, 1, 1, 50, .u8, .ro, (.num 0), .k, [], 0⟩,
   ⟨0x8021, 1, 1, 50, .u8, .ro, .tokens, .f, [], 0⟩,
   ⟨0x8022, 1, 1, 50, .u32, .ro, .latency, .f, [], 0⟩,
   ⟨0x8023, 1, 1, 50, .u32, .ro, (.num 0), .k, [], 0⟩,
   ⟨0x8030, 1, 1, 1, .u8, .cmd, (.num 0), .d, [(1, 1)], 0⟩,
   ⟨0x8030, 1, 2, 2, .u8, .cmd, (.num 0), .d, [(1, 1)], 0⟩,
   ⟨0x8030, 1, 3, 3, .u64, .ro, (.num 0), .k, [], 0⟩,
   ⟨0x8030, 1, 4, 4, .u32, .ro, (.num 0), .k, [], 0⟩,
   ⟨0x8030, 1, 5, 5, .bool, .ro, (.num 0), .f, [], 0⟩,
   ⟨0x8030, 1, 6, 6, .u16, .ro, (.num 1000), .f, [], 0⟩,
   ⟨0x8030, 1, 7, 7, .bool, .ro, (.num 0), .k, [], 0⟩,
   ⟨0x8040, 1, 1, 1, .u32, .ro, (.num 0), .k, [], 0⟩,
   ⟨0x8040, 1, 2, 2, .u64, .ro, (.num 0), .k, [], 0⟩,
   ⟨0x8040, 1, 3, 3, .u16, .ro, (.num 150), .f, [], 0⟩]

/-- Every object row. -/
def objRows : List ObjRow :=
  rowsIdentity0 ++
  rowsTime0 ++
  rowsTime1 ++
  rowsCompute0 ++
  rowsCompute1 ++
  rowsNumerics0 ++
  rowsGranary0 ++
  rowsUpdate0 ++
  rowsMemory0 ++
  rowsOptics0 ++
  rowsOptics1 ++
  rowsLink0 ++
  rowsLink1 ++
  rowsFlow0 ++
  rowsQueue0 ++
  rowsIntegrity0 ++
  rowsIntegrity1 ++
  rowsFault0 ++
  rowsLife0 ++
  rowsPower0

/-- The owning function of an index (R34, R36); none outside every range of Table 02-4. -/
def fnOf (index : Nat) : Option Fn :=
  if 0x1000 ≤ index ∧ index ≤ 0x13FF then some .mgmt
  else if 0x2000 ≤ index ∧ index ≤ 0x21FF then some .timebase
  else if 0x3000 ≤ index ∧ index ≤ 0x31FF then some .compute
  else if 0x3200 ≤ index ∧ index ≤ 0x32FF then some .fabric
  else if 0x3300 ≤ index ∧ index ≤ 0x33FF then some .update
  else if 0x4000 ≤ index ∧ index ≤ 0x40FF then some .memory
  else if 0x5000 ≤ index ∧ index ≤ 0x52FF then some .optics
  else if 0x5400 ≤ index ∧ index ≤ 0x56FF then some .fabric
  else if 0x6000 ≤ index ∧ index ≤ 0x60FF then some .fabric
  else if index = 0x7120 then some .selftest
  else if 0x7000 ≤ index ∧ index ≤ 0x72FF then some .mgmt
  else if 0x8000 ≤ index ∧ index ≤ 0x81FF then some .mgmt
  else none

/-- Whether a row holds `index`. -/
def ObjRow.hasIndex (r : ObjRow) (index : Nat) : Bool :=
  decide (r.index ≤ index) && decide (index < r.index + r.span)

/-- Whether a row holds the sub-index. -/
def ObjRow.hasSub (r : ObjRow) (sub : Nat) : Bool := decide (r.lo ≤ sub) && decide (sub ≤ r.hi)

/-- The rows of an index. -/
def rowsOf (index : Nat) : List ObjRow := objRows.filter (fun r => r.hasIndex index)

/-- Whether the dictionary holds the index (R29). -/
def hasObject (index : Nat) : Bool := objRows.any (fun r => r.hasIndex index)

/-- The highest sub-index in use at an index (R28). -/
def subCount (index : Nat) : Nat := (rowsOf index).foldl (fun a r => max a r.hi) 0

/-- The row of sub-index 0x00 of every index (R28). -/
def countRow (index : Nat) : ObjRow := ⟨index, 1, 0, 0, .u8, .ro, .num (subCount index), .f, [], 0⟩

/-- The row of an object (R28, R29). -/
def objRow? (index sub : Nat) : Option ObjRow :=
  if sub = 0 then (if hasObject index then some (countRow index) else none)
  else objRows.find? (fun r => r.hasIndex index && r.hasSub sub)

/-- The home physical index of engine `e` = cluster × 12 + slot (Table 06-1). -/
def homeIndex (e : Nat) : Nat :=
  if e % 12 < 10 then 10 * (e / 12) + e % 12 else 82 + 2 * (e / 12) + (e % 12 - 10)

/-- Tokens of a domain (Table 17-1). -/
def domTokens (d : Nat) : Nat :=
  if d < 8 ∨ (12 ≤ d ∧ d ≤ 19) then 60
  else if d = 8 ∨ d = 9 ∨ d = 20 ∨ d = 21 then 30
  else if d = 10 ∨ d = 22 then 20
  else if d = 11 ∨ d = 23 then 15
  else if 24 ≤ d ∧ d ≤ 29 then 8
  else if 30 ≤ d ∧ d ≤ 35 then 6
  else if d = 36 then 4 else if d = 37 then 2 else if d = 38 then 1
  else if d = 41 then 10 else if d = 42 ∨ d = 43 then 12
  else if d = 44 then 8 else if d = 45 then 5
  else if 46 ≤ d ∧ d ≤ 49 then 10 else 0

/-- Wake latency of a domain, ns (Table 17-1). -/
def domLatency (d : Nat) : Nat :=
  if d < 8 ∨ (12 ≤ d ∧ d ≤ 19) then 1200
  else if d = 8 ∨ d = 9 ∨ d = 20 ∨ d = 21 then 2000
  else if d = 10 ∨ d = 22 then 800
  else if d = 11 ∨ d = 23 then 2000
  else if 24 ≤ d ∧ d ≤ 35 then 50000
  else if 36 ≤ d ∧ d ≤ 38 then 20000
  else if d = 41 then 100000 else if d = 42 ∨ d = 43 then 5000
  else if d = 44 then 2000 else if d = 45 then 5000
  else if 46 ≤ d ∧ d ≤ 49 then 1000 else 0

/-- The fused vendor key as the 97 bytes of an uncompressed point, whose digest is fused (R444; its form is that of
0x1200.01 and 0x1200.03). -/
def vendorKeyBytes : Bytes := natLe 1 4 ++ natBe 48 Config.vendorKeyX.toNat ++ natBe 48 Config.vendorKeyY.toNat

/-- The numeric default at sub-index `sub` of a row, laser or port `n`. -/
def ObjRow.defaultNat (r : ObjRow) (index sub : Nat) : Nat :=
  match r.dflt with
  | .num v => v
  | .serialDigest => fieldLe (sha384 (natLe 16 Config.serialNumber.toNat)) 0 8
  | .fwVersion => Config.firmwareVersion.toNat
  | .nonce => (Config.lcNonce 0).toNat
  | .svnFuse => Config.svnFuse.toNat
  | .vendorKeyDigest => fieldLe (sha384 vendorKeyBytes) 0 8
  | .clBias => (Config.controlLaserBias (index - r.index)).toNat
  | .diagSigners => if Config.partIsA1D then 3 else 1
  | .homeSlot => homeIndex (sub - 1)
  | .homeState => if sub - 1 = 80 ∨ sub - 1 = 81 ∨ sub - 1 = 98 ∨ sub - 1 = 99 then 1 else 0
  | .tokens => domTokens (sub - 1)
  | .latency => domLatency (sub - 1)
  | .text _ => 0 | .zeroBytes _ => 0 | .empty => 0 | .orderCode => 0 | .serial => 0
  | .imageDigest => 0 | .recipeKinds => 0

/-- One 8-byte kind entry of Table 08-4: KIND, FORMAT, ALT_FORMAT, MODES, ANCHOR, LOSS_SCALE and a
reserved byte. -/
def kindEntry (kind fmt alt modes anchor ls : Nat) : List Nat :=
  [kind, fmt, alt, modes, anchor % 256, anchor / 256, ls, 0]

/-- The kind entries of Table 08-6 in force before a plan changes them (R212). -/
def recipeDefault : Bytes :=
  (kindEntry 0 0xFF 0xFF 0 0 0 ++ kindEntry 1 7 0xFF 4 0 0 ++ kindEntry 2 4 8 4 0 0 ++
   kindEntry 3 4 8 4 0 1 ++ kindEntry 4 1 3 4 0 0 ++ kindEntry 5 0 0xFF 0 0 0 ++
   kindEntry 6 0 0xFF 0 0 0 ++ kindEntry 7 0 0xFF 4 0 0xFF).map (BitVec.ofNat 8)

/-- The default of an object held as bytes. -/
def ObjRow.defaultBytes (r : ObjRow) : Bytes :=
  match r.dflt with
  | .text bs => bs.map (BitVec.ofNat 8)
  | .zeroBytes n => zeros n
  | .orderCode => (if Config.partIsA1D then [78, 68, 77, 45, 67, 76, 57, 54, 48, 45, 65, 49, 68]
      else [78, 68, 77, 45, 67, 76, 57, 54, 48, 45, 65, 49]).map (BitVec.ofNat 8)
  | .serial => natLe 16 Config.serialNumber.toNat
  | .imageDigest => natLe 48 Config.imageDigest.toNat
  | .recipeKinds => recipeDefault
  | .num _ => [] | .empty => [] | .serialDigest => [] | .fwVersion => [] | .nonce => []
  | .svnFuse => [] | .vendorKeyDigest => [] | .clBias => [] | .diagSigners => [] | .homeSlot => []
  | .homeState => [] | .tokens => [] | .latency => []

/-- The row of a key. -/
def rowOfKey (k : Nat) : Option ObjRow := objRow? (k / 256) (k % 256)

/-- The numeric default of a key. -/
def objDefault (k : Nat) : Nat :=
  match rowOfKey k with
  | some r => r.defaultNat (k / 256) (k % 256)
  | none => 0

/-- The byte default of a key. -/
def blobDefault (k : Nat) : Bytes :=
  match rowOfKey k with
  | some r => r.defaultBytes
  | none => []

/-- The number of bits of a numeric object. -/
def objBits (k : Nat) : Nat :=
  match rowOfKey k with
  | some r => 8 * r.ty.len
  | none => 64

/-! ### Object keys by the manual's names -/

/-- 0x1000.01 VENDOR_NAME. -/
def oVendorName : Nat := 0x100001
/-- 0x1000.02 PART_NUMBER. -/
def oPartNumber : Nat := 0x100002
/-- 0x1000.03 ORDER_CODE. -/
def oOrderCode : Nat := 0x100003
/-- 0x1000.04 SERIAL_NUMBER. -/
def oSerialNumber : Nat := 0x100004
/-- 0x1000.05 SERIAL_DIGEST. -/
def oSerialDigest : Nat := 0x100005
/-- 0x1000.06 SILICON_STEP. -/
def oSiliconStep : Nat := 0x100006
/-- 0x1000.07 FIRMWARE_VERSION. -/
def oFirmwareVersion : Nat := 0x100007
/-- 0x1000.08 OD_LAYOUT. -/
def oOdLayout : Nat := 0x100008
/-- 0x1000.09 MCTP_VENDOR_PEN. -/
def oMctpVendorPen : Nat := 0x100009
/-- 0x1010.01 PLACE_NUMBER. -/
def oPlaceNumber : Nat := 0x101001
/-- 0x1010.02 PLACE_STATED. -/
def oPlaceStated : Nat := 0x101002
/-- 0x1020.01 WRITE_PATHS. -/
def oWritePaths : Nat := 0x102001
/-- 0x1020.02 I3C_STATIC_ADDR. -/
def oI3cStaticAddr : Nat := 0x102002
/-- 0x1020.03 I3C_DYNAMIC_ADDR. -/
def oI3cDynamicAddr : Nat := 0x102003
/-- 0x1020.04 MCTP_EID. -/
def oMctpEid : Nat := 0x102004
/-- 0x1020.05 OBJECT_TIMEOUT_MS. -/
def oObjectTimeoutMs : Nat := 0x102005
/-- 0x1020.06 SEG_IDLE_TIMEOUT_MS. -/
def oSegIdleTimeoutMs : Nat := 0x102006
/-- 0x1020.07 REQUEST_COUNT. -/
def oRequestCount : Nat := 0x102007
/-- 0x1020.08 ABORT_COUNT. -/
def oAbortCount : Nat := 0x102008
/-- 0x1020.09 LAST_ABORT. -/
def oLastAbort : Nat := 0x102009
/-- 0x1018.01 FEATURES_OFFERED. -/
def oFeaturesOffered : Nat := 0x101801
/-- 0x1019.01 FEATURES_ACCEPTED. -/
def oFeaturesAccepted : Nat := 0x101901
/-- 0x101A.01 FEATURES_AGREED. -/
def oFeaturesAgreed : Nat := 0x101A01
/-- 0x2000.01 BELL_NOW. -/
def oBellNow : Nat := 0x200001
/-- 0x2000.02 BELL_STATE. -/
def oBellState : Nat := 0x200002
/-- 0x2000.03 BELL_OFFSET_PS. -/
def oBellOffsetPs : Nat := 0x200003
/-- 0x2000.04 BELL_PATH_DELAY_PS. -/
def oBellPathDelayPs : Nat := 0x200004
/-- 0x2000.05 BELL_DEPTH. -/
def oBellDepth : Nat := 0x200005
/-- 0x2000.06 LOCK_LOSS_COUNT. -/
def oLockLossCount : Nat := 0x200006
/-- 0x2001.01 BEAT_LENGTH_US. -/
def oBeatLengthUs : Nat := 0x200101
/-- 0x2001.02 BEAT_LENGTH_NEXT. -/
def oBeatLengthNext : Nat := 0x200102
/-- 0x2001.03 BEAT_CHANGE_AT. -/
def oBeatChangeAt : Nat := 0x200103
/-- 0x2001.04 GUARD_NS. -/
def oGuardNs : Nat := 0x200104
/-- 0x2010.01 TIME_ROLE. -/
def oTimeRole : Nat := 0x201001
/-- 0x2010.02 TIME_PARENT_PORT. -/
def oTimeParentPort : Nat := 0x201002
/-- 0x2010.03 TIME_ALT_PORT. -/
def oTimeAltPort : Nat := 0x201003
/-- 0x2010.04 ROOT_SET. -/
def oRootSet : Nat := 0x201004
/-- 0x2010.05 HOLDOVER_LIMIT_US. -/
def oHoldoverLimitUs : Nat := 0x201005
/-- 0x2020.01 PLAN_BLOB. -/
def oPlanBlob : Nat := 0x202001
/-- 0x2020.02 ADMIT. -/
def oAdmit : Nat := 0x202002
/-- 0x2020.03 RELEASE. -/
def oRelease : Nat := 0x202003
/-- 0x2020.04 PLAN_STATE. -/
def oPlanState : Nat := 0x202004
/-- 0x2020.05 PLAN_DIGEST. -/
def oPlanDigest : Nat := 0x202005
/-- 0x2020.06 PLAN_ID. -/
def oPlanId : Nat := 0x202006
/-- 0x2021.01 REASON. -/
def oReason : Nat := 0x202101
/-- 0x2021.02 STEP_BEAT. -/
def oStepBeat : Nat := 0x202102
/-- 0x2021.03 PROGRAM. -/
def oProgram : Nat := 0x202103
/-- 0x2021.04 RESOURCE. -/
def oResource : Nat := 0x202104
/-- 0x2021.05 EXCESS_NS. -/
def oExcessNs : Nat := 0x202105
/-- 0x2021.06 DETAIL. -/
def oDetail : Nat := 0x202106
/-- 0x2022.01 JOB_START. -/
def oJobStart : Nat := 0x202201
/-- 0x2022.02 JOB_STOP. -/
def oJobStop : Nat := 0x202202
/-- 0x2022.03 STEP_NOW. -/
def oStepNow : Nat := 0x202203
/-- 0x2022.04 STEP_BEAT_NOW. -/
def oStepBeatNow : Nat := 0x202204
/-- 0x2022.05 FIRST_STEP. -/
def oFirstStep : Nat := 0x202205
/-- 0x2030.01 OVERRUN_COUNT. -/
def oOverrunCount : Nat := 0x203001
/-- 0x2030.02 OVERRUN_FAULT_COUNT. -/
def oOverrunFaultCount : Nat := 0x203002
/-- 0x2030.03 LAST_OVERRUN. -/
def oLastOverrun : Nat := 0x203003
/-- 0x2030.04 WAKE_DELAY_COUNT. -/
def oWakeDelayCount : Nat := 0x203004
/-- 0x2030.05 WAKE_DELAY_MAX_NS. -/
def oWakeDelayMaxNs : Nat := 0x203005
/-- 0x2040 + n, 0x01 ASYMMETRY_PS. -/
def oAsymmetryPs (n : Nat) : Nat := objKey (0x2040 + n) 0x01
/-- 0x2040 + n, 0x02 PORT_OFFSET_PS. -/
def oPortOffsetPs (n : Nat) : Nat := objKey (0x2040 + n) 0x02
/-- 0x2080.01 COOLANT_INLET_C. -/
def oCoolantInletC : Nat := 0x208001
/-- 0x2080.02 COOLANT_FLOW_LPM. -/
def oCoolantFlowLpm : Nat := 0x208002
/-- 0x2080.03 COOLANT_STATED. -/
def oCoolantStated : Nat := 0x208003
/-- 0x2080.04 POWER_ALLOWED_W. -/
def oPowerAllowedW : Nat := 0x208004
/-- 0x3000.01 ENGINES_EXPOSED. -/
def oEnginesExposed : Nat := 0x300001
/-- 0x3000.02 SPARE_S_LEFT_D0. -/
def oSpareSLeftD0 : Nat := 0x300002
/-- 0x3000.03 SPARE_N_LEFT_D0. -/
def oSpareNLeftD0 : Nat := 0x300003
/-- 0x3000.04 SPARE_S_LEFT_D1. -/
def oSpareSLeftD1 : Nat := 0x300004
/-- 0x3000.05 SPARE_N_LEFT_D1. -/
def oSpareNLeftD1 : Nat := 0x300005
/-- 0x3000.06 DEGRADED. -/
def oDegraded : Nat := 0x300006
/-- 0x3000.07 FENCE_COUNT. -/
def oFenceCount : Nat := 0x300007
/-- 0x3000.08 LAST_FENCE. -/
def oLastFence : Nat := 0x300008
/-- 0x3000.09 CMD_INVALID_COUNT. -/
def oCmdInvalidCount : Nat := 0x300009
/-- 0x3000.0A LAST_CMD_INVALID. -/
def oLastCmdInvalid : Nat := 0x30000A
/-- 0x3000.0B STALL_CYCLES. -/
def oStallCycles : Nat := 0x30000B
/-- 0x3001.01 to 60 SLOT_MAP_D0, entry n counted from 0. -/
def oSlotMapD0 (n : Nat) : Nat := objKey 0x3001 (0x01 + n)
/-- 0x3002.01 to 60 SLOT_MAP_D1, entry n counted from 0. -/
def oSlotMapD1 (n : Nat) : Nat := objKey 0x3002 (0x01 + n)
/-- 0x3003.01 to 64 PHYS_STATE_D0, entry n counted from 0. -/
def oPhysStateD0 (n : Nat) : Nat := objKey 0x3003 (0x01 + n)
/-- 0x3004.01 to 64 PHYS_STATE_D1, entry n counted from 0. -/
def oPhysStateD1 (n : Nat) : Nat := objKey 0x3004 (0x01 + n)
/-- 0x3005.01 to 60 STRIKES_D0, entry n counted from 0. -/
def oStrikesD0 (n : Nat) : Nat := objKey 0x3005 (0x01 + n)
/-- 0x3006.01 to 60 STRIKES_D1, entry n counted from 0. -/
def oStrikesD1 (n : Nat) : Nat := objKey 0x3006 (0x01 + n)
/-- 0x3007.01 to C0 TILE_STATUS_D0, entry n counted from 0. -/
def oTileStatusD0 (n : Nat) : Nat := objKey 0x3007 (0x01 + n)
/-- 0x3008.01 to C0 TILE_STATUS_D1, entry n counted from 0. -/
def oTileStatusD1 (n : Nat) : Nat := objKey 0x3008 (0x01 + n)
/-- 0x3009.01 DISABLE_D0. -/
def oDisableD0 : Nat := 0x300901
/-- 0x3009.02 DISABLE_D1. -/
def oDisableD1 : Nat := 0x300902
/-- 0x3040.01 VEC_CMD_INVALID_COUNT. -/
def oVecCmdInvalidCount : Nat := 0x304001
/-- 0x3040.02 LAST_VEC_CMD_INVALID. -/
def oLastVecCmdInvalid : Nat := 0x304002
/-- 0x3040.03 VEC_STALL_CYCLES. -/
def oVecStallCycles : Nat := 0x304003
/-- 0x3040.04 CHECKER_MISMATCH_COUNT. -/
def oCheckerMismatchCount : Nat := 0x304004
/-- 0x3040.05 LAST_CHECKER_MISMATCH. -/
def oLastCheckerMismatch : Nat := 0x304005
/-- 0x3040.06 ISSUE_REFUSED_COUNT. -/
def oIssueRefusedCount : Nat := 0x304006
/-- 0x3040.07 LAST_ISSUE_REFUSED. -/
def oLastIssueRefused : Nat := 0x304007
/-- 0x3041.01 LOCKSTEP_COUNT. -/
def oLockstepCount : Nat := 0x304101
/-- 0x3041.02 LAST_LOCKSTEP. -/
def oLastLockstep : Nat := 0x304102
/-- 0x3041.03 CORE_TRAP_COUNT. -/
def oCoreTrapCount : Nat := 0x304103
/-- 0x3041.04 LAST_TRAP. -/
def oLastTrap : Nat := 0x304104
/-- 0x3041.05 CORE_NOTE_COUNT. -/
def oCoreNoteCount : Nat := 0x304105
/-- 0x3041.06 LAST_NOTE_TAG. -/
def oLastNoteTag : Nat := 0x304106
/-- 0x3041.07 LAST_NOTE_VALUE. -/
def oLastNoteValue : Nat := 0x304107
/-- 0x3042.01 to 10 CORE_STATE, entry n counted from 0. -/
def oCoreState (n : Nat) : Nat := objKey 0x3042 (0x01 + n)
/-- 0x3100.01 SEED_DIGEST. -/
def oSeedDigest : Nat := 0x310001
/-- 0x3100.02 GEN_FAULT_COUNT. -/
def oGenFaultCount : Nat := 0x310002
/-- 0x3100.03 LAST_GEN_FAULT. -/
def oLastGenFault : Nat := 0x310003
/-- 0x3110.01 LS_EXP. -/
def oLsExp : Nat := 0x311001
/-- 0x3110.02 LS_RUN. -/
def oLsRun : Nat := 0x311002
/-- 0x3110.03 LS_START_EXP. -/
def oLsStartExp : Nat := 0x311003
/-- 0x3110.04 LS_START_RUN. -/
def oLsStartRun : Nat := 0x311004
/-- 0x3110.05 LS_CHANGE_COUNT. -/
def oLsChangeCount : Nat := 0x311005
/-- 0x3110.06 OVERFLOW_REPLAYS. -/
def oOverflowReplays : Nat := 0x311006
/-- 0x3110.07 LS_LIMITS. -/
def oLsLimits : Nat := 0x311007
/-- 0x3120.01 STEP_OVERFLOW. -/
def oStepOverflow : Nat := 0x312001
/-- 0x3120.02 OVERFLOW_STEP_COUNT. -/
def oOverflowStepCount : Nat := 0x312002
/-- 0x3120.03 FIRST_OVERFLOW. -/
def oFirstOverflow : Nat := 0x312003
/-- 0x3120.04 FIRST_OVERFLOW_STEP. -/
def oFirstOverflowStep : Nat := 0x312004
/-- 0x3130.01 RECIPE_KINDS. -/
def oRecipeKinds : Nat := 0x313001
/-- 0x3130.02 TENSOR_COUNT. -/
def oTensorCount : Nat := 0x313002
/-- 0x3130.03 LOSS_SOURCE. -/
def oLossSource : Nat := 0x313003
/-- 0x3140.01 GROUP_RECORDS. -/
def oGroupRecords : Nat := 0x314001
/-- 0x3140.02 RATIO_EVENT_COUNT. -/
def oRatioEventCount : Nat := 0x314002
/-- 0x3140.03 LAST_RATIO_EVENT. -/
def oLastRatioEvent : Nat := 0x314003
/-- 0x3160.01 HISTORY_FILL. -/
def oHistoryFill : Nat := 0x316001
/-- 0x3160.02 to 41 LOSS_ENTRY, entry n counted from 0. -/
def oLossEntry (n : Nat) : Nat := objKey 0x3160 (0x02 + n)
/-- 0x3200.01 GRANARY_UNITS. -/
def oGranaryUnits : Nat := 0x320001
/-- 0x3200.02 SLOTS_PER_DIE. -/
def oSlotsPerDie : Nat := 0x320002
/-- 0x3200.03 WINDOWS_OWNED. -/
def oWindowsOwned : Nat := 0x320003
/-- 0x3200.04 LATE_COUNT. -/
def oLateCount : Nat := 0x320004
/-- 0x3200.05 LAST_LATE. -/
def oLastLate : Nat := 0x320005
/-- 0x3200.06 STALE_COUNT. -/
def oStaleCount : Nat := 0x320006
/-- 0x3200.07 STRAY_COUNT. -/
def oStrayCount : Nat := 0x320007
/-- 0x3200.08 LAST_STRAY. -/
def oLastStray : Nat := 0x320008
/-- 0x3200.09 OVERDUE_COUNT. -/
def oOverdueCount : Nat := 0x320009
/-- 0x3200.0A LAST_OVERDUE. -/
def oLastOverdue : Nat := 0x32000A
/-- 0x3200.0B RESIDUE_FAIL_COUNT. -/
def oResidueFailCount : Nat := 0x32000B
/-- 0x3200.0C LAST_RESIDUE_FAIL. -/
def oLastResidueFail : Nat := 0x32000C
/-- 0x3210.01 WINDOW_SELECT. -/
def oWindowSelect : Nat := 0x321001
/-- 0x3210.02 W_STATE. -/
def oWState : Nat := 0x321002
/-- 0x3210.03 W_STEP. -/
def oWStep : Nat := 0x321003
/-- 0x3210.04 W_ATTEMPT. -/
def oWAttempt : Nat := 0x321004
/-- 0x3210.05 W_CHUNKS_DONE. -/
def oWChunksDone : Nat := 0x321005
/-- 0x3210.06 W_CONTRIBUTIONS. -/
def oWContributions : Nat := 0x321006
/-- 0x3210.07 W_BW_COUNT. -/
def oWBwCount : Nat := 0x321007
/-- 0x3210.08 W_OVF_ELEMENTS. -/
def oWOvfElements : Nat := 0x321008
/-- 0x3210.09 W_TOUCHED_ROWS. -/
def oWTouchedRows : Nat := 0x321009
/-- 0x3210.0A W_DONE_AT. -/
def oWDoneAt : Nat := 0x32100A
/-- 0x3210.0B W_MARKERS. -/
def oWMarkers : Nat := 0x32100B
/-- 0x3220.01 to 20 UNIT_ADDS, entry n counted from 0. -/
def oUnitAdds (n : Nat) : Nat := objKey 0x3220 (0x01 + n)
/-- 0x3300.01 UPDATE_ENGINES. -/
def oUpdateEngines : Nat := 0x330001
/-- 0x3300.02 SHARDS_SERVED. -/
def oShardsServed : Nat := 0x330002
/-- 0x3300.03 ELEMENTS_COMMITTED. -/
def oElementsCommitted : Nat := 0x330003
/-- 0x3300.04 BORROW_REFUSED_COUNT. -/
def oBorrowRefusedCount : Nat := 0x330004
/-- 0x3300.05 UPDATE_CHECK_FAIL_COUNT. -/
def oUpdateCheckFailCount : Nat := 0x330005
/-- 0x3310.01 GROUP_T. -/
def oGroupT : Nat := 0x331001
/-- 0x3310.02 GROUP_T_START. -/
def oGroupTStart : Nat := 0x331002
/-- 0x3320.01 ETA_NOW. -/
def oEtaNow : Nat := 0x332001
/-- 0x3330.01 SHARD_SELECT. -/
def oShardSelect : Nat := 0x333001
/-- 0x3330.02 SH_STATE. -/
def oShState : Nat := 0x333002
/-- 0x3330.03 SH_ITERATION. -/
def oShIteration : Nat := 0x333003
/-- 0x3330.04 SH_ROWS_DONE. -/
def oShRowsDone : Nat := 0x333004
/-- 0x4000.01 MEM_CAPACITY. -/
def oMemCapacity : Nat := 0x400001
/-- 0x4000.02 MEM_STATE. -/
def oMemState : Nat := 0x400002
/-- 0x4000.03 MEM_CHANNELS. -/
def oMemChannels : Nat := 0x400003
/-- 0x4001.01 MEM_VERIFIED. -/
def oMemVerified : Nat := 0x400101
/-- 0x4010.01 CORRECTED_COUNT. -/
def oCorrectedCount : Nat := 0x401001
/-- 0x4010.02 UNCORRECTABLE_COUNT. -/
def oUncorrectableCount : Nat := 0x401002
/-- 0x4010.03 LAST_UNCORRECTABLE. -/
def oLastUncorrectable : Nat := 0x401003
/-- 0x4010.04 PAGES_RETIRED. -/
def oPagesRetired : Nat := 0x401004
/-- 0x4010.05 SPARES_LEFT_MIN. -/
def oSparesLeftMin : Nat := 0x401005
/-- 0x4010.06 POISON_LINES. -/
def oPoisonLines : Nat := 0x401006
/-- 0x4020.01 SCRUB_POSITION. -/
def oScrubPosition : Nat := 0x402001
/-- 0x4020.02 SCRUB_PASSES. -/
def oScrubPasses : Nat := 0x402002
/-- 0x4020.03 LAST_PASS_END. -/
def oLastPassEnd : Nat := 0x402003
/-- 0x4030.01 REGION_SELECT. -/
def oRegionSelect : Nat := 0x403001
/-- 0x4030.02 R_KIND. -/
def oRKind : Nat := 0x403002
/-- 0x4030.03 R_BASE. -/
def oRBase : Nat := 0x403003
/-- 0x4030.04 R_LENGTH. -/
def oRLength : Nat := 0x403004
/-- 0x4030.05 R_COMMITTED. -/
def oRCommitted : Nat := 0x403005
/-- 0x4030.06 REGION_COUNT. -/
def oRegionCount : Nat := 0x403006
/-- 0x4040.01 DENIED_COUNT. -/
def oDeniedCount : Nat := 0x404001
/-- 0x4040.02 LAST_DENIED. -/
def oLastDenied : Nat := 0x404002
/-- 0x4040.03 LAST_DENIED_STEP. -/
def oLastDeniedStep : Nat := 0x404003
/-- 0x4040.04 SNAP_VALID. -/
def oSnapValid : Nat := 0x404004
/-- 0x5000.01 D0_MHZ. -/
def oD0Mhz : Nat := 0x500001
/-- 0x5000.02 SPACING_MHZ. -/
def oSpacingMhz : Nat := 0x500002
/-- 0x5000.03 CONTROL_MHZ. -/
def oControlMhz : Nat := 0x500003
/-- 0x5000.04 HEATER_TOTAL_MW. -/
def oHeaterTotalMw : Nat := 0x500004
/-- 0x5000.05 HEATER_CAP_MW. -/
def oHeaterCapMw : Nat := 0x500005
/-- 0x5000.06 FIBRE_CAP_UW. -/
def oFibreCapUw : Nat := 0x500006
/-- 0x5000.07 LIMIT_HIT_COUNT. -/
def oLimitHitCount : Nat := 0x500007
/-- 0x5000.08 LAST_LIMIT. -/
def oLastLimit : Nat := 0x500008
/-- 0x5000.09 MISMATCH_COUNT. -/
def oMismatchCount : Nat := 0x500009
/-- 0x5000.0A LAST_MISMATCH. -/
def oLastMismatch : Nat := 0x50000A
/-- 0x5010 + n, 0x01 STATED_PRESENT. -/
def oStatedPresent (n : Nat) : Nat := objKey (0x5010 + n) 0x01
/-- 0x5010 + n, 0x02 STATED_D0_MHZ. -/
def oStatedD0Mhz (n : Nat) : Nat := objKey (0x5010 + n) 0x02
/-- 0x5010 + n, 0x03 STATED_TWIN_D0_MHZ. -/
def oStatedTwinD0Mhz (n : Nat) : Nat := objKey (0x5010 + n) 0x03
/-- 0x5010 + n, 0x04 IN_SERVICE. -/
def oInService (n : Nat) : Nat := objKey (0x5010 + n) 0x04
/-- 0x5010 + n, 0x05 VERIFIED. -/
def oVerified (n : Nat) : Nat := objKey (0x5010 + n) 0x05
/-- 0x5010 + n, 0x06 LINE_POWER. -/
def oLinePower (n : Nat) : Nat := objKey (0x5010 + n) 0x06
/-- 0x5010 + n, 0x07 LEVELS. -/
def oLevels (n : Nat) : Nat := objKey (0x5010 + n) 0x07
/-- 0x5010 + n, 0x08 MARGIN_MIN_CDB. -/
def oMarginMinCdb (n : Nat) : Nat := objKey (0x5010 + n) 0x08
/-- 0x5010 + n, 0x09 SWITCHOVER_COUNT. -/
def oSwitchoverCount (n : Nat) : Nat := objKey (0x5010 + n) 0x09
/-- 0x5010 + n, 0x0A LAST_SWITCHOVER. -/
def oLastSwitchover (n : Nat) : Nat := objKey (0x5010 + n) 0x0A
/-- 0x5010 + n, 0x0B SELECT. -/
def oSelect (n : Nat) : Nat := objKey (0x5010 + n) 0x0B
/-- 0x5020.01 LSC_PRIMARY_ADDR. -/
def oLscPrimaryAddr : Nat := 0x502001
/-- 0x5020.02 LSC_TWIN_ADDR. -/
def oLscTwinAddr : Nat := 0x502002
/-- 0x5020.03 LSC_ERROR_COUNT. -/
def oLscErrorCount : Nat := 0x502003
/-- 0x5040 + n, 0x01 TX_RING_STATE. -/
def oTxRingState (n : Nat) : Nat := objKey (0x5040 + n) 0x01
/-- 0x5040 + n, 0x02 TX_POWER. -/
def oTxPower (n : Nat) : Nat := objKey (0x5040 + n) 0x02
/-- 0x5040 + n, 0x03 MARGIN. -/
def oMargin (n : Nat) : Nat := objKey (0x5040 + n) 0x03
/-- 0x5040 + n, 0x04 DATA_GATE. -/
def oDataGate (n : Nat) : Nat := objKey (0x5040 + n) 0x04
/-- 0x5040 + n, 0x05 GATE_CLOSE_COUNT. -/
def oGateCloseCount (n : Nat) : Nat := objKey (0x5040 + n) 0x05
/-- 0x5080 + n, 0x01 RX_OMA. -/
def oRxOma (n : Nat) : Nat := objKey (0x5080 + n) 0x01
/-- 0x5080 + n, 0x02 LANE_IDENTITY. -/
def oLaneIdentity (n : Nat) : Nat := objKey (0x5080 + n) 0x02
/-- 0x5080 + n, 0x03 CTRL_RX_PRESENT. -/
def oCtrlRxPresent (n : Nat) : Nat := objKey (0x5080 + n) 0x03
/-- 0x50C0 + n, 0x01 CL_STATE. -/
def oClState (n : Nat) : Nat := objKey (0x50C0 + n) 0x01
/-- 0x50C0 + n, 0x02 CL_BIAS_UA. -/
def oClBiasUa (n : Nat) : Nat := objKey (0x50C0 + n) 0x02
/-- 0x50C0 + n, 0x03 CL_LAUNCH_CDBM. -/
def oClLaunchCdbm (n : Nat) : Nat := objKey (0x50C0 + n) 0x03
/-- 0x5100 + n, 0x01 XR_ROUTE. -/
def oXrRoute (n : Nat) : Nat := objKey (0x5100 + n) 0x01
/-- 0x5100 + n, 0x02 XR_RING_STATE. -/
def oXrRingState (n : Nat) : Nat := objKey (0x5100 + n) 0x02
/-- 0x5200.01 MAP_COUNT. -/
def oMapCount : Nat := 0x520001
/-- 0x5200.02 MAP_NOW. -/
def oMapNow : Nat := 0x520002
/-- 0x5200.03 MAP_CHANGE_COUNT. -/
def oMapChangeCount : Nat := 0x520003
/-- 0x5200.04 PREPARE. -/
def oPrepare : Nat := 0x520004
/-- 0x5200.05 PREPARE_STATE. -/
def oPrepareState : Nat := 0x520005
/-- 0x5200.06 PREPARE_RESULT. -/
def oPrepareResult : Nat := 0x520006
/-- 0x5200.07 XR_CLEAR. -/
def oXrClear : Nat := 0x520007
/-- 0x5400.01 LINK_FEATURES_OFFERED. -/
def oLinkFeaturesOffered : Nat := 0x540001
/-- 0x5400.02 LINK_FEATURE_MASK. -/
def oLinkFeatureMask : Nat := 0x540002
/-- 0x5400.03 ESCAPE_WAIT_CYCLES. -/
def oEscapeWaitCycles : Nat := 0x540003
/-- 0x5400.04 RESERVE_EXCEEDED_COUNT. -/
def oReserveExceededCount : Nat := 0x540004
/-- 0x5400.05 LAST_RESERVE_EXCEEDED. -/
def oLastReserveExceeded : Nat := 0x540005
/-- 0x5410 + n, 0x01 LINK_STATE. -/
def oLinkState (n : Nat) : Nat := objKey (0x5410 + n) 0x01
/-- 0x5410 + n, 0x02 LINK_CLASS. -/
def oLinkClass (n : Nat) : Nat := objKey (0x5410 + n) 0x02
/-- 0x5410 + n, 0x03 LINK_LANE_MASK. -/
def oLinkLaneMask (n : Nat) : Nat := objKey (0x5410 + n) 0x03
/-- 0x5410 + n, 0x04 LINK_FEATURES_AGREED. -/
def oLinkFeaturesAgreed (n : Nat) : Nat := objKey (0x5410 + n) 0x04
/-- 0x5410 + n, 0x05 RTT_NS. -/
def oRttNs (n : Nat) : Nat := objKey (0x5410 + n) 0x05
/-- 0x5410 + n, 0x06 ACCEPT. -/
def oAccept (n : Nat) : Nat := objKey (0x5410 + n) 0x06
/-- 0x5410 + n, 0x07 LANES_LOST_TX. -/
def oLanesLostTx (n : Nat) : Nat := objKey (0x5410 + n) 0x07
/-- 0x5410 + n, 0x08 LANES_LOST_RX. -/
def oLanesLostRx (n : Nat) : Nat := objKey (0x5410 + n) 0x08
/-- 0x5430 + n, 0x01 PEER_PLACE. -/
def oPeerPlace (n : Nat) : Nat := objKey (0x5430 + n) 0x01
/-- 0x5430 + n, 0x02 PEER_PORT. -/
def oPeerPort (n : Nat) : Nat := objKey (0x5430 + n) 0x02
/-- 0x5430 + n, 0x03 PEER_DIGEST. -/
def oPeerDigest (n : Nat) : Nat := objKey (0x5430 + n) 0x03
/-- 0x5450 + n, 0x01 HELLO_SEEN. -/
def oHelloSeen (n : Nat) : Nat := objKey (0x5450 + n) 0x01
/-- 0x5450 + n, 0x02 HELLO_AGE_US. -/
def oHelloAgeUs (n : Nat) : Nat := objKey (0x5450 + n) 0x02
/-- 0x5470 + n, 0x01 GROUPS. -/
def oGroups (n : Nat) : Nat := objKey (0x5470 + n) 0x01
/-- 0x5470 + n, 0x02 GROUP_ERRORS. -/
def oGroupErrors (n : Nat) : Nat := objKey (0x5470 + n) 0x02
/-- 0x5470 + n, 0x03 REPLAYS. -/
def oReplays (n : Nat) : Nat := objKey (0x5470 + n) 0x03
/-- 0x5470 + n, 0x04 REPLAY_FULL_CYCLES. -/
def oReplayFullCycles (n : Nat) : Nat := objKey (0x5470 + n) 0x04
/-- 0x5470 + n, 0x05 FEC_CORRECTED. -/
def oFecCorrected (n : Nat) : Nat := objKey (0x5470 + n) 0x05
/-- 0x5470 + n, 0x06 FEC_UNCORRECTABLE. -/
def oFecUncorrectable (n : Nat) : Nat := objKey (0x5470 + n) 0x06
/-- 0x5500 + n, 0x01 RT_PACKETS_TX. -/
def oRtPacketsTx (n : Nat) : Nat := objKey (0x5500 + n) 0x01
/-- 0x5500 + n, 0x02 RT_PACKETS_RX. -/
def oRtPacketsRx (n : Nat) : Nat := objKey (0x5500 + n) 0x02
/-- 0x5500 + n, 0x03 RT_FLITS_TX. -/
def oRtFlitsTx (n : Nat) : Nat := objKey (0x5500 + n) 0x03
/-- 0x5500 + n, 0x04 RT_FLITS_RX. -/
def oRtFlitsRx (n : Nat) : Nat := objKey (0x5500 + n) 0x04
/-- 0x5500 + n, 0x05 RT_QUEUE_HWM. -/
def oRtQueueHwm (n : Nat) : Nat := objKey (0x5500 + n) 0x05
/-- 0x5500 + n, 0x06 RT_STALL_CYCLES. -/
def oRtStallCycles (n : Nat) : Nat := objKey (0x5500 + n) 0x06
/-- 0x5500 + n, 0x07 RT_BAD_PLACE. -/
def oRtBadPlace (n : Nat) : Nat := objKey (0x5500 + n) 0x07
/-- 0x5500 + n, 0x08 RT_ESCAPE_PACKETS. -/
def oRtEscapePackets (n : Nat) : Nat := objKey (0x5500 + n) 0x08
/-- 0x5540.01 RT_MAP_TABLES. -/
def oRtMapTables : Nat := 0x554001
/-- 0x5540.02 RT_UNROUTABLE. -/
def oRtUnroutable : Nat := 0x554002
/-- 0x5540.03 RT_TELEMETRY_CLEAR. -/
def oRtTelemetryClear : Nat := 0x554003
/-- 0x5600.01 FLOWS_OPEN. -/
def oFlowsOpen : Nat := 0x560001
/-- 0x5600.02 RTO_BASE_US. -/
def oRtoBaseUs : Nat := 0x560002
/-- 0x5600.03 FLOW_FAILED_COUNT. -/
def oFlowFailedCount : Nat := 0x560003
/-- 0x5600.04 RESENDS. -/
def oResends : Nat := 0x560004
/-- 0x5600.05 DUPLICATES. -/
def oDuplicates : Nat := 0x560005
/-- 0x5600.06 BAD_HEAD_COUNT. -/
def oBadHeadCount : Nat := 0x560006
/-- 0x5600.07 CRC_FAIL_COUNT. -/
def oCrcFailCount : Nat := 0x560007
/-- 0x5610.01 FLOW_SELECT. -/
def oFlowSelect : Nat := 0x561001
/-- 0x5610.02 F_PEER. -/
def oFPeer : Nat := 0x561002
/-- 0x5610.03 F_STATE. -/
def oFState : Nat := 0x561003
/-- 0x5610.04 F_TX. -/
def oFTx : Nat := 0x561004
/-- 0x5610.05 F_RX. -/
def oFRx : Nat := 0x561005
/-- 0x5610.06 F_LAST_FAIL. -/
def oFLastFail : Nat := 0x561006
/-- 0x6000.01 QUEUES_DECLARED. -/
def oQueuesDeclared : Nat := 0x600001
/-- 0x6000.02 DOORBELL_INVALID_COUNT. -/
def oDoorbellInvalidCount : Nat := 0x600002
/-- 0x6000.03 LAST_DOORBELL_INVALID. -/
def oLastDoorbellInvalid : Nat := 0x600003
/-- 0x6000.04 RECORDS_LOST_COUNT. -/
def oRecordsLostCount : Nat := 0x600004
/-- 0x6000.05 QUEUE_FULL_COUNT. -/
def oQueueFullCount : Nat := 0x600005
/-- 0x6010.01 QUEUE_SELECT. -/
def oQueueSelect : Nat := 0x601001
/-- 0x6010.02 Q_KIND. -/
def oQKind : Nat := 0x601002
/-- 0x6010.03 Q_PI. -/
def oQPi : Nat := 0x601003
/-- 0x6010.04 Q_CI. -/
def oQCi : Nat := 0x601004
/-- 0x6020.01 EVENT_SEQ. -/
def oEventSeq : Nat := 0x602001
/-- 0x6020.02 EVENT_RING. -/
def oEventRing : Nat := 0x602002
/-- 0x6020.03 EVENT_QUEUE. -/
def oEventQueue : Nat := 0x602003
/-- 0x6040.01 BRIDGE_ROLE. -/
def oBridgeRole : Nat := 0x604001
/-- 0x6040.02 HOST_PORTS. -/
def oHostPorts : Nat := 0x604002
/-- 0x6040.03 BRIDGE_PLACE. -/
def oBridgePlace : Nat := 0x604003
/-- 0x6040.04 HOST_PACKETS. -/
def oHostPackets : Nat := 0x604004
/-- 0x6040.05 HOST_MISROUTED. -/
def oHostMisrouted : Nat := 0x604005
/-- 0x6060.01 MB_TIMEOUT_MS. -/
def oMbTimeoutMs : Nat := 0x606001
/-- 0x6060.02 MB_TIMEOUT_COUNT. -/
def oMbTimeoutCount : Nat := 0x606002
/-- 0x6060.03 MB_STATES. -/
def oMbStates : Nat := 0x606003
/-- 0x7000.01 CHECK_FAIL_COUNT. -/
def oCheckFailCount : Nat := 0x700001
/-- 0x7000.02 LAST_CHECK_FAIL. -/
def oLastCheckFail : Nat := 0x700002
/-- 0x7000.03 LAST_VERDICT. -/
def oLastVerdict : Nat := 0x700003
/-- 0x7000.04 POISONED_COUNT. -/
def oPoisonedCount : Nat := 0x700004
/-- 0x7000.05 CLEAN_COUNT. -/
def oCleanCount : Nat := 0x700005
/-- 0x7000.06 STALE_FRAMES. -/
def oStaleFrames : Nat := 0x700006
/-- 0x7000.07 BUDGET_FIT. -/
def oBudgetFit : Nat := 0x700007
/-- 0x7000.08 VERDICT_LATENCY_MAX_NS. -/
def oVerdictLatencyMaxNs : Nat := 0x700008
/-- 0x7010.01 TREE_ROOT. -/
def oTreeRoot : Nat := 0x701001
/-- 0x7010.02 TREE_PARENT_PORT. -/
def oTreeParentPort : Nat := 0x701002
/-- 0x7010.03 TREE_CHILDREN. -/
def oTreeChildren : Nat := 0x701003
/-- 0x7010.04 TREE_DEPTH. -/
def oTreeDepth : Nat := 0x701004
/-- 0x7010.05 TREE_COUNT. -/
def oTreeCount : Nat := 0x701005
/-- 0x7020.01 EVIDENCE_STAGED_D0. -/
def oEvidenceStagedD0 : Nat := 0x702001
/-- 0x7020.02 EVIDENCE_STAGED_D1. -/
def oEvidenceStagedD1 : Nat := 0x702002
/-- 0x7020.03 EVIDENCE_COUNT. -/
def oEvidenceCount : Nat := 0x702003
/-- 0x7020.04 EVIDENCE_NEXT_SLOT. -/
def oEvidenceNextSlot : Nat := 0x702004
/-- 0x7020.05 EVIDENCE_DROPPED. -/
def oEvidenceDropped : Nat := 0x702005
/-- 0x7020.06 EVIDENCE_RESET. -/
def oEvidenceReset : Nat := 0x702006
/-- 0x7100.01 PACK_LOAD. -/
def oPackLoad : Nat := 0x710001
/-- 0x7100.02 PACK_COUNT. -/
def oPackCount : Nat := 0x710002
/-- 0x7100.03 PACK_LIST. -/
def oPackList : Nat := 0x710003
/-- 0x7100.04 PACK_REMOVE. -/
def oPackRemove : Nat := 0x710004
/-- 0x7100.05 PACK_CASE_FAIL_COUNT. -/
def oPackCaseFailCount : Nat := 0x710005
/-- 0x7100.06 LAST_PACK_CASE_FAIL. -/
def oLastPackCaseFail : Nat := 0x710006
/-- 0x7100.07 IDLE_CASES_RUN. -/
def oIdleCasesRun : Nat := 0x710007
/-- 0x7110.01 ST_RESULT. -/
def oStResult : Nat := 0x711001
/-- 0x7110.02 ST_REPORT. -/
def oStReport : Nat := 0x711002
/-- 0x7110.03 ST_WHEN. -/
def oStWhen : Nat := 0x711003
/-- 0x7110.04 ST_DURATION_MS. -/
def oStDurationMs : Nat := 0x711004
/-- 0x7110.05 ST_RUN. -/
def oStRun : Nat := 0x711005
/-- 0x7110.06 SAFE. -/
def oSafe : Nat := 0x711006
/-- 0x7110.07 ST_SKIPPED. -/
def oStSkipped : Nat := 0x711007
/-- 0x7120.01 STE_PROGRAM. -/
def oSteProgram : Nat := 0x712001
/-- 0x7120.02 STE_START. -/
def oSteStart : Nat := 0x712002
/-- 0x7120.03 STE_OUTPUT. -/
def oSteOutput : Nat := 0x712003
/-- 0x7200.01 REPLAY_LIMIT. -/
def oReplayLimit : Nat := 0x720001
/-- 0x7200.02 LAST_REPLAY. -/
def oLastReplay : Nat := 0x720002
/-- 0x7200.03 FAULT_REPLAYS. -/
def oFaultReplays : Nat := 0x720003
/-- 0x7200.04 REPLAY_COUNT. -/
def oReplayCount : Nat := 0x720004
/-- 0x7200.05 LAST_UNIT_FENCE. -/
def oLastUnitFence : Nat := 0x720005
/-- 0x7200.06 FENCED_UNITS. -/
def oFencedUnits : Nat := 0x720006
/-- 0x7210.01 SNAP_STATE. -/
def oSnapState : Nat := 0x721001
/-- 0x7210.02 LAST_SNAPSHOT. -/
def oLastSnapshot : Nat := 0x721002
/-- 0x7210.03 SNAP_RECEIVED. -/
def oSnapReceived : Nat := 0x721003
/-- 0x7210.04 DIGEST_REGION. -/
def oDigestRegion : Nat := 0x721004
/-- 0x7210.05 LAST_VERIFY. -/
def oLastVerify : Nat := 0x721005
/-- 0x7210.06 REGION_DIGEST. -/
def oRegionDigest : Nat := 0x721006
/-- 0x7210.07 VERIFY_COUNT. -/
def oVerifyCount : Nat := 0x721007
/-- 0x7220.01 REINIT. -/
def oReinit : Nat := 0x722001
/-- 0x7220.02 LAST_REINIT. -/
def oLastReinit : Nat := 0x722002
/-- 0x7220.03 REINIT_COUNT. -/
def oReinitCount : Nat := 0x722003
/-- 0x7230.01 LEDGER_FLASH. -/
def oLedgerFlash : Nat := 0x723001
/-- 0x7230.02 LEDGER_RING. -/
def oLedgerRing : Nat := 0x723002
/-- 0x7230.03 LEDGER_FILL. -/
def oLedgerFill : Nat := 0x723003
/-- 0x7230.04 LEDGER_SUPPRESSED. -/
def oLedgerSuppressed : Nat := 0x723004
/-- 0x7230.05 LEDGER_CLEAR. -/
def oLedgerClear : Nat := 0x723005
/-- 0x7230.06 POWER_ON_COUNT. -/
def oPowerOnCount : Nat := 0x723006
/-- 0x1100.01 LC_STATE. -/
def oLcState : Nat := 0x110001
/-- 0x1100.02 LC_NONCE. -/
def oLcNonce : Nat := 0x110002
/-- 0x1100.03 LC_REQUEST. -/
def oLcRequest : Nat := 0x110003
/-- 0x1100.04 LC_DIAG_SIGNERS. -/
def oLcDiagSigners : Nat := 0x110004
/-- 0x1100.05 LC_ADVANCE. -/
def oLcAdvance : Nat := 0x110005
/-- 0x1110.01 FW_STAGE. -/
def oFwStage : Nat := 0x111001
/-- 0x1110.02 FW_STAGED_VERSION. -/
def oFwStagedVersion : Nat := 0x111002
/-- 0x1110.03 FW_ACTIVATE. -/
def oFwActivate : Nat := 0x111003
/-- 0x1110.04 FW_SVN_FUSE. -/
def oFwSvnFuse : Nat := 0x111004
/-- 0x1110.05 FW_BOOT. -/
def oFwBoot : Nat := 0x111005
/-- 0x1110.06 FW_DIGEST. -/
def oFwDigest : Nat := 0x111006
/-- 0x1110.07 FW_RUNNING_DIGEST. -/
def oFwRunningDigest : Nat := 0x111007
/-- 0x1200.01 ID_PUBLIC_KEY. -/
def oIdPublicKey : Nat := 0x120001
/-- 0x1200.02 ID_CERT_CHAIN. -/
def oIdCertChain : Nat := 0x120002
/-- 0x1200.03 FLEET_KEY. -/
def oFleetKey : Nat := 0x120003
/-- 0x1200.04 FLEET_KEY_DIGEST. -/
def oFleetKeyDigest : Nat := 0x120004
/-- 0x1200.05 VENDOR_KEY_DIGEST. -/
def oVendorKeyDigest : Nat := 0x120005
/-- 0x1300.01 MEASUREMENTS. -/
def oMeasurements : Nat := 0x130001
/-- 0x1300.02 SPDM_REQUESTS. -/
def oSpdmRequests : Nat := 0x130002
/-- 0x1310.01 VIOLATION_COUNT. -/
def oViolationCount : Nat := 0x131001
/-- 0x1310.02 LAST_VIOLATION. -/
def oLastViolation : Nat := 0x131002
/-- 0x8000.01 POWER_STATE. -/
def oPowerState : Nat := 0x800001
/-- 0x8000.02 POWER_REQUEST. -/
def oPowerRequest : Nat := 0x800002
/-- 0x8000.03 INPUT_MV. -/
def oInputMv : Nat := 0x800003
/-- 0x8000.04 INPUT_POWER_W. -/
def oInputPowerW : Nat := 0x800004
/-- 0x8000.05 POWER_PEAK_W. -/
def oPowerPeakW : Nat := 0x800005
/-- 0x8000.06 INPUT_ALERTS. -/
def oInputAlerts : Nat := 0x800006
/-- 0x8010.01 TJ_MAX_C. -/
def oTjMaxC : Nat := 0x801001
/-- 0x8010.02 TJ_PEAK_C. -/
def oTjPeakC : Nat := 0x801002
/-- 0x8010.03 THERMAL_STATE. -/
def oThermalState : Nat := 0x801003
/-- 0x8010.04 NOTICE_C. -/
def oNoticeC : Nat := 0x801004
/-- 0x8010.05 STOP_C. -/
def oStopC : Nat := 0x801005
/-- 0x8010.06 TRIP_C. -/
def oTripC : Nat := 0x801006
/-- 0x8010.07 LAST_THERMAL. -/
def oLastThermal : Nat := 0x801007
/-- 0x8010.08 STOP_COUNT. -/
def oStopCount : Nat := 0x801008
/-- 0x8010.09 TRIP_COUNT. -/
def oTripCount : Nat := 0x801009
/-- 0x8020.01 to 32 DOMAIN_STATE, entry n counted from 0. -/
def oDomainState (n : Nat) : Nat := objKey 0x8020 (0x01 + n)
/-- 0x8021.01 to 32 WAKE_TOKENS, entry n counted from 0. -/
def oWakeTokens (n : Nat) : Nat := objKey 0x8021 (0x01 + n)
/-- 0x8022.01 to 32 WAKE_LATENCY_NS, entry n counted from 0. -/
def oWakeLatencyNs (n : Nat) : Nat := objKey 0x8022 (0x01 + n)
/-- 0x8023.01 to 32 DOMAIN_CURRENT_MA, entry n counted from 0. -/
def oDomainCurrentMa (n : Nat) : Nat := objKey 0x8023 (0x01 + n)
/-- 0x8030.01 WARM_RESET. -/
def oWarmReset : Nat := 0x803001
/-- 0x8030.02 SHUTDOWN. -/
def oShutdown : Nat := 0x803002
/-- 0x8030.03 LAST_RESET. -/
def oLastReset : Nat := 0x803003
/-- 0x8030.04 RESET_COUNT. -/
def oResetCount : Nat := 0x803004
/-- 0x8030.05 LAST_SHUTDOWN_ORDERLY. -/
def oLastShutdownOrderly : Nat := 0x803005
/-- 0x8030.06 WATCHDOG_MS. -/
def oWatchdogMs : Nat := 0x803006
/-- 0x8030.07 ORDERLY_AT_START. -/
def oOrderlyAtStart : Nat := 0x803007
/-- 0x8040.01 CURRENT_LIMIT_COUNT. -/
def oCurrentLimitCount : Nat := 0x804001
/-- 0x8040.02 LAST_CURRENT_LIMIT. -/
def oLastCurrentLimit : Nat := 0x804002
/-- 0x8040.03 WAKE_BUDGET. -/
def oWakeBudget : Nat := 0x804003

end Sys2Proof.Machine
end

