-- ==== Sys2Proof/Machine/State.lean ====
section
/-! DEFINITION. The state of the block as plain data: the object dictionary's values, and beside them
every register, buffer, queue, counter, mode and pin that the manual gives the module and that no
object holds; the state after reset; the reasons a command can stop. -/

namespace Sys2Proof.Machine


/-! ### The events -/

/-- The events of Table 16-4. -/
inductive Ev where
  | stepReplayed | replayLimit | verdictTimeout | unitFenced | snapshotDone | snapshotInvalid
  | restartVerified | restartMismatch | functionReinit | ledgerSuppressed | bellLocked | bellHoldover
  | bellUnlocked | overrun | overrunFault | boundExceeded | wakeDelayed | matrixCmdInvalid
  | engineFenced | degraded | vectorCmdInvalid | coreLockstep | coreTrap | coreNote
  | generatorFault | stepOverflow | lossScaleChanged | overflowPersists | updateRatioLow | updateRatioHigh
  | lateContribution | strayContribution | windowOverdue | memoryUncorrectable | memoryAccessDenied | memorySparesOut
  | wavelengthMismatch | ringUnlock | ringRelocked | laserRequestCeiling | laserMarginLow | laserSwitchover
  | laserEmergencySwitchover | laserTwinUnavailable | controlLaserSpare | controlLaserFailed | dataGateClosed | opticsLimit
  | linkDown | linkClassChanged | cablingAccepted | laneRemoved | laneReadded | linkReserveExceeded
  | linkRetryExhausted | packetUnroutable | flowFailed | flowCrcFail | doorbellInvalid | recordsLost
  | mailboxTimeout | cmdDone | bridgeRoleChanged | checkFailed | stepPoisoned | evidenceCaptured
  | packAccepted | packRejected | packCaseFailed | safeEntered | thermalNotice | thermalStop
  | thermalTrip | securityViolation | powerStateChanged | warmResetDone | currentLimit
deriving DecidableEq, Repr

/-- The code of an event (Table 16-4). -/
def Ev.code : Ev → Nat
  | .stepReplayed => 0x0101
  | .replayLimit => 0x0102
  | .verdictTimeout => 0x0103
  | .unitFenced => 0x0104
  | .snapshotDone => 0x0105
  | .snapshotInvalid => 0x0106
  | .restartVerified => 0x0107
  | .restartMismatch => 0x0108
  | .functionReinit => 0x0109
  | .ledgerSuppressed => 0x010A
  | .bellLocked => 0x0201
  | .bellHoldover => 0x0202
  | .bellUnlocked => 0x0203
  | .overrun => 0x0204
  | .overrunFault => 0x0205
  | .boundExceeded => 0x0206
  | .wakeDelayed => 0x0207
  | .matrixCmdInvalid => 0x0301
  | .engineFenced => 0x0302
  | .degraded => 0x0303
  | .vectorCmdInvalid => 0x0304
  | .coreLockstep => 0x0305
  | .coreTrap => 0x0306
  | .coreNote => 0x0307
  | .generatorFault => 0x0401
  | .stepOverflow => 0x0402
  | .lossScaleChanged => 0x0403
  | .overflowPersists => 0x0404
  | .updateRatioLow => 0x0405
  | .updateRatioHigh => 0x0406
  | .lateContribution => 0x0501
  | .strayContribution => 0x0502
  | .windowOverdue => 0x0503
  | .memoryUncorrectable => 0x0601
  | .memoryAccessDenied => 0x0602
  | .memorySparesOut => 0x0603
  | .wavelengthMismatch => 0x0701
  | .ringUnlock => 0x0702
  | .ringRelocked => 0x0703
  | .laserRequestCeiling => 0x0704
  | .laserMarginLow => 0x0705
  | .laserSwitchover => 0x0706
  | .laserEmergencySwitchover => 0x0707
  | .laserTwinUnavailable => 0x0708
  | .controlLaserSpare => 0x0709
  | .controlLaserFailed => 0x070A
  | .dataGateClosed => 0x070B
  | .opticsLimit => 0x070C
  | .linkDown => 0x0801
  | .linkClassChanged => 0x0802
  | .cablingAccepted => 0x0803
  | .laneRemoved => 0x0804
  | .laneReadded => 0x0805
  | .linkReserveExceeded => 0x0806
  | .linkRetryExhausted => 0x0807
  | .packetUnroutable => 0x0808
  | .flowFailed => 0x0901
  | .flowCrcFail => 0x0902
  | .doorbellInvalid => 0x0903
  | .recordsLost => 0x0904
  | .mailboxTimeout => 0x0905
  | .cmdDone => 0x0906
  | .bridgeRoleChanged => 0x0907
  | .checkFailed => 0x0A01
  | .stepPoisoned => 0x0A02
  | .evidenceCaptured => 0x0A03
  | .packAccepted => 0x0A04
  | .packRejected => 0x0A05
  | .packCaseFailed => 0x0A06
  | .safeEntered => 0x0A07
  | .thermalNotice => 0x0B01
  | .thermalStop => 0x0B02
  | .thermalTrip => 0x0B03
  | .securityViolation => 0x0B04
  | .powerStateChanged => 0x0B05
  | .warmResetDone => 0x0B06
  | .currentLimit => 0x0B07

/-- The class of an event where Table 16-4 gives one class (0 report, 1 to 4 for A to D); an event with
several gives its lowest here, and the raising rule names the class that applies. -/
def Ev.cls : Ev → Nat
  | .stepReplayed => 0
  | .replayLimit => 2
  | .verdictTimeout => 3
  | .unitFenced => 2
  | .snapshotDone => 0
  | .snapshotInvalid => 0
  | .restartVerified => 0
  | .restartMismatch => 3
  | .functionReinit => 0
  | .ledgerSuppressed => 0
  | .bellLocked => 0
  | .bellHoldover => 0
  | .bellUnlocked => 0
  | .overrun => 0
  | .overrunFault => 1
  | .boundExceeded => 2
  | .wakeDelayed => 0
  | .matrixCmdInvalid => 2
  | .engineFenced => 2
  | .degraded => 2
  | .vectorCmdInvalid => 2
  | .coreLockstep => 1
  | .coreTrap => 2
  | .coreNote => 0
  | .generatorFault => 1
  | .stepOverflow => 1
  | .lossScaleChanged => 0
  | .overflowPersists => 2
  | .updateRatioLow => 0
  | .updateRatioHigh => 0
  | .lateContribution => 1
  | .strayContribution => 1
  | .windowOverdue => 0
  | .memoryUncorrectable => 1
  | .memoryAccessDenied => 0
  | .memorySparesOut => 0
  | .wavelengthMismatch => 0
  | .ringUnlock => 0
  | .ringRelocked => 0
  | .laserRequestCeiling => 0
  | .laserMarginLow => 0
  | .laserSwitchover => 0
  | .laserEmergencySwitchover => 0
  | .laserTwinUnavailable => 0
  | .controlLaserSpare => 0
  | .controlLaserFailed => 0
  | .dataGateClosed => 0
  | .opticsLimit => 0
  | .linkDown => 0
  | .linkClassChanged => 0
  | .cablingAccepted => 0
  | .laneRemoved => 0
  | .laneReadded => 0
  | .linkReserveExceeded => 2
  | .linkRetryExhausted => 0
  | .packetUnroutable => 0
  | .flowFailed => 0
  | .flowCrcFail => 1
  | .doorbellInvalid => 0
  | .recordsLost => 0
  | .mailboxTimeout => 0
  | .cmdDone => 0
  | .bridgeRoleChanged => 0
  | .checkFailed => 1
  | .stepPoisoned => 0
  | .evidenceCaptured => 0
  | .packAccepted => 0
  | .packRejected => 0
  | .packCaseFailed => 1
  | .safeEntered => 4
  | .thermalNotice => 0
  | .thermalStop => 3
  | .thermalTrip => 4
  | .securityViolation => 4
  | .powerStateChanged => 0
  | .warmResetDone => 0
  | .currentLimit => 1

/-- The detail object of an event (Table 16-4, R457), at port or input `n`; none where DETAIL is zero
or its own rule gives it. -/
def Ev.detail (e : Ev) (n : Nat) : Option Nat :=
  match e with
  | .stepReplayed => some 0x720002
  | .replayLimit => some 0x720002
  | .verdictTimeout => some 0x700003
  | .unitFenced => some 0x720005
  | .snapshotDone => some 0x721002
  | .snapshotInvalid => some 0x721003
  | .restartVerified => some 0x721005
  | .restartMismatch => some 0x721005
  | .functionReinit => some 0x722002
  | .ledgerSuppressed => some 0x723004
  | .bellLocked => some 0x200005
  | .bellHoldover => some 0x200003
  | .bellUnlocked => some 0x200006
  | .overrun => some 0x203003
  | .overrunFault => some 0x203003
  | .boundExceeded => none
  | .wakeDelayed => some 0x203005
  | .matrixCmdInvalid => some 0x30000A
  | .engineFenced => some 0x300008
  | .degraded => some 0x300006
  | .vectorCmdInvalid => some 0x304002
  | .coreLockstep => some 0x304102
  | .coreTrap => some 0x304104
  | .coreNote => some 0x304107
  | .generatorFault => some 0x310003
  | .stepOverflow => some 0x312003
  | .lossScaleChanged => some 0x311001
  | .overflowPersists => some 0x311006
  | .updateRatioLow => some 0x314003
  | .updateRatioHigh => some 0x314003
  | .lateContribution => some 0x320005
  | .strayContribution => some 0x320008
  | .windowOverdue => some 0x32000A
  | .memoryUncorrectable => some 0x401003
  | .memoryAccessDenied => some 0x404002
  | .memorySparesOut => some 0x401005
  | .wavelengthMismatch => some 0x50000A
  | .ringUnlock => none
  | .ringRelocked => none
  | .laserRequestCeiling => some (objKey (0x5010 + n) 0x07)
  | .laserMarginLow => some (objKey (0x5010 + n) 0x08)
  | .laserSwitchover => some (objKey (0x5010 + n) 0x0A)
  | .laserEmergencySwitchover => some (objKey (0x5010 + n) 0x0A)
  | .laserTwinUnavailable => some (objKey (0x5010 + n) 0x05)
  | .controlLaserSpare => some (objKey (0x50C0 + n) 0x01)
  | .controlLaserFailed => some (objKey (0x50C0 + n) 0x01)
  | .dataGateClosed => some (objKey (0x5040 + n) 0x04)
  | .opticsLimit => some 0x500008
  | .linkDown => some (objKey (0x5410 + n) 0x01)
  | .linkClassChanged => some (objKey (0x5410 + n) 0x02)
  | .cablingAccepted => some (objKey (0x5410 + n) 0x02)
  | .laneRemoved => some (objKey (0x5410 + n) 0x03)
  | .laneReadded => some (objKey (0x5410 + n) 0x03)
  | .linkReserveExceeded => some 0x540005
  | .linkRetryExhausted => some (objKey (0x5470 + n) 0x03)
  | .packetUnroutable => some 0x554002
  | .flowFailed => some 0x560003
  | .flowCrcFail => some 0x560007
  | .doorbellInvalid => some 0x600003
  | .recordsLost => some 0x600004
  | .mailboxTimeout => some 0x606003
  | .cmdDone => none
  | .bridgeRoleChanged => some 0x604003
  | .checkFailed => some 0x700002
  | .stepPoisoned => some 0x700003
  | .evidenceCaptured => some 0x702003
  | .packAccepted => some 0x710002
  | .packRejected => none
  | .packCaseFailed => some 0x710006
  | .safeEntered => some 0x711006
  | .thermalNotice => some 0x801007
  | .thermalStop => some 0x801007
  | .thermalTrip => some 0x801007
  | .securityViolation => some 0x131002
  | .powerStateChanged => some 0x800001
  | .warmResetDone => some 0x803003
  | .currentLimit => some 0x804002

/-! ### Events and the ledger -/

/-- An EVENT record (R366), kept as its fields. -/
structure EventRec where
  code : Nat
  cls : Nat
  seq : Nat
  beat : Nat
  off : Nat
  step : Nat
  detail : Nat
  detailIndex : Nat
  detailSub : Nat
deriving DecidableEq, Repr

/-- A record of EVENT_RING: an EVENT record, or the MAILBOX record of R371. -/
inductive RingRec where
  | event (r : EventRec)
  | mailbox (number state : Nat)
deriving DecidableEq, Repr

/-- A ledger entry (Table 16-9). -/
structure LedgerEntry where
  ev : EventRec
  flags : Nat
  attempt : Nat
  powerOn : Nat
  planId : Nat
deriving DecidableEq, Repr

/-- The ledger (R428, R429): the volatile ring and the flash, newest first, the flash entries of the
interval and its start. -/
structure Ledger where
  ring : List LedgerEntry
  flash : List LedgerEntry
  inInterval : Nat
  intervalStart : Nat
  suppressedRaised : Bool
deriving DecidableEq, Repr

/-! ### The management paths -/

/-- A response to an OBJECT request (Table 02-5). -/
structure ObjResp where
  opcode : Nat
  tag : Nat
  index : Nat
  sub : Nat
  type : Nat
  length : Nat
  abort : Nat
  data : Bytes
deriving DecidableEq, Repr

/-- A response kept for retries (R45), with the request it answered. -/
structure Kept where
  tag : Nat
  opcode : Nat
  seg : Nat
  inTransfer : Bool
  index : Nat
  sub : Nat
  type : Nat
  length : Nat
  flags : Nat
  abort : Nat
  reserved : Nat
  data : Bytes
  resp : ObjResp
  sentAt : Nat
deriving DecidableEq, Repr

/-- An open segmented transfer (R40, R43): its tag, object, direction and length, the segments
received, or the value fixed for reading, and the moment of its last request. -/
structure Transfer where
  tag : Nat
  index : Nat
  sub : Nat
  isWrite : Bool
  len : Nat
  segs : Bank Bytes
  fixed : Bytes
  lastAt : Nat
deriving DecidableEq, Repr

/-- One management path: the kept responses, newest first, the open transfer, and the tag, object and sub-index of
the last transfer that an ABORT ended (Table 02-8, SEG_CANCELLED). -/
structure PathSt where
  kept : List Kept
  transfer : Option Transfer
  cancelled : Option (Nat × Nat × Nat)
deriving DecidableEq, Repr

/-- MCTP over I3C (R48, R49): the message being reassembled and the SPDM responder's state. -/
structure MctpSt where
  assembling : Option (Nat × Nat × Nat × Bytes)
  spdmVersioned : Bool
  spdmCapable : Bool
  spdmNegotiated : Bool
  nonces : Nat
deriving DecidableEq, Repr

/-! ### The bell count -/

/-- The bell count and the counters of Table 03-1: beat and offset, consecutive exchanges good for
locking, bad while locked and good in holdover, the last valid exchange, the start of holdover, and
whether ROOT_SET was done since TIME_ROLE became root, whether the alternate parent is in use, the
correction still to be steered out and the fraction of a ns of the count, both in ps (R481); and per port when the
last TIME frame came and its receive timestamp (R58); `lastCyc` is the cycle of 0.5 ns to which an engine's event
last moved the time. -/
structure Bell where
  beat : Nat
  off : Nat
  good : Nat
  bad : Nat
  holdGood : Nat
  lastValid : Nat
  altValid : Nat
  holdSince : Nat
  rootSet : Bool
  useAlt : Bool
  steerPs : Int
  fracPs : Int
  lastSend : Nat
  inGuard : Bool
  heard : Bank (Nat × Nat)
  lastCyc : Nat
deriving DecidableEq, Repr

/-! ### The plan (chapter 3 and the sections' owning chapters) -/

/-- The TIMING section (Table 03-6). -/
structure Timing where
  stepBeats : Nat
  trafficEnd : Nat
  deadline : Nat
  snapPeriod : Nat
  flags : Nat
deriving DecidableEq, Repr

/-- A beat program item (Table 03-7): `die` is UNIT [15:8] and `unit` is UNIT [7:0]. -/
structure Item where
  kind : Nat
  flags : Nat
  die : Nat
  unit : Nat
  a : Nat
  b : Nat
  c : Nat
deriving DecidableEq, Repr

/-- A beat program (R70). -/
structure Program where
  power : Nat
  flags : Nat
  items : List Item
deriving DecidableEq, Repr

/-- A region descriptor (Table 11-2). -/
structure Region where
  num : Nat
  kind : Nat
  base : Nat
  len : Nat
deriving DecidableEq, Repr

/-- A window descriptor (Table 09-1), with its count table where COUNT_MODE is TABLE, and its 96
bytes as the plan holds them. -/
structure Window where
  num : Nat
  owner : Nat
  mode : Nat
  out : Nat
  anchor : Int
  die : Nat
  mask : Nat
  group : Nat
  cq : Nat
  elements : Nat
  base : Nat
  count : Nat
  maxPerChunk : Nat
  tensor : Nat
  outTensor : Nat
  openBeat : Nat
  dueBeat : Nat
  rowElements : Nat
  maxTouched : Nat
  bitmapBase : Nat
  outAddr : Nat
  spillAddr : Nat
  touchedAddr : Nat
  counts : List Nat
  raw : Bytes
deriving DecidableEq, Repr

/-- A queue entry (Table 14-9). -/
structure QueueEntry where
  place : Nat
  num : Nat
  kind : Nat
  consumer : Nat
  region : Nat
  offset : Nat
  entries : Nat
  flow : Nat
deriving DecidableEq, Repr

/-- A flow entry (R362). -/
structure FlowEntry where
  place : Nat
  num : Nat
  peer : Nat
  peerFlow : Nat
  cls : Nat
  host : Bool
  window : Nat
deriving DecidableEq, Repr

/-- A core entry (R362). -/
structure CoreEntry where
  place : Nat
  core : Nat
  region : Nat
  offset : Nat
deriving DecidableEq, Repr

/-- A buddy entry (Table 16-2). -/
structure BuddyEntry where
  place : Nat
  buddy : Nat
  flow : Nat
  snap : Nat
  snap2 : Nat
  regions : List Nat
  total : Nat
deriving DecidableEq, Repr

/-- An entry of the CLEAN_TREE or ESCAPE_TREE section (R386, R339). -/
structure TreeEntry where
  place : Nat
  parentPort : Nat
deriving DecidableEq, Repr

/-- A tree section. -/
structure Tree where
  root : Nat
  count : Nat
  depth : Nat
  entries : List TreeEntry
deriving DecidableEq, Repr

/-- A module entry of PLACES (R334). -/
structure PlaceEntry where
  place : Nat
  digest : Nat
deriving DecidableEq, Repr

/-- A fibre entry of PLACES (R334). -/
structure Fibre where
  placeA : Nat
  portA : Nat
  placeB : Nat
  portB : Nat
deriving DecidableEq, Repr

/-- A circuit entry (Table 12-4). -/
structure Circuit where
  map : Nat
  lane : Nat
  hops : Nat
  src : Nat
  srcPort : Nat
  dstPort : Nat
  dst : Nat
  x1 : Nat
  x1in : Nat
  x1out : Nat
  x2 : Nat
  x2in : Nat
  x2out : Nat
  loss : Nat
deriving DecidableEq, Repr

/-- A schedule entry of CIRCUITS (Table 12-5). -/
structure SchedEntry where
  stepBeat : Nat
  map : Nat
deriving DecidableEq, Repr

/-- A LANE_RESERVE entry (R323). -/
structure ReserveEntry where
  place : Nat
  port : Nat
  dir : Nat
  reserve : Nat
deriving DecidableEq, Repr

/-- A group entry (Table 10-3); coefficients and schedule values are binary32 fields. -/
structure Group where
  num : Nat
  shape : Nat
  flags : Nat
  wTensor : Nat
  t0 : Nat
  origin : Nat
  coef : List Nat
  schedKind : Nat
  matFormat : Nat
  points : Nat
  pointFirst : Nat
  etaStart : Nat
  etaPeak : Nat
  etaMin : Nat
  warmup : Nat
  decay : Nat
  cycleMult : Nat
  matPasses : Nat
deriving DecidableEq, Repr

/-- A shard entry (Table 10-4). -/
structure Shard where
  window : Nat
  group : Nat
  unit : Nat
  flags : Nat
  copyFormat : Nat
  copyRound : Nat
  firstElement : Nat
  paramRegion : Nat
  optRegion : Nat
  wOff : Nat
  mOff : Nat
  vOff : Nat
  rowOff : Nat
  copyOff : Nat
  gatherFirst : Nat
  gatherN : Nat
  matRows : Nat
  matCols : Nat
  borrow : Nat
  scratch : Nat
deriving DecidableEq, Repr

/-- A gather entry (R248). -/
structure Gather where
  flow : Nat
  format : Nat
  region : Nat
  offset : Nat
deriving DecidableEq, Repr

/-- A schedule point (R251). -/
structure SchedPoint where
  x : Nat
  eta : Nat
deriving DecidableEq, Repr

/-- A kind entry of the recipe (Table 08-4). -/
structure KindEntry where
  kind : Nat
  format : Nat
  altFormat : Nat
  modes : Nat
  anchor : Int
  lossScale : Int
deriving DecidableEq, Repr

/-- A ratio-watch group entry of the recipe (Table 08-5). -/
structure WatchEntry where
  group : Nat
  lrShift : Nat
  watch : Bool
  low : Nat
  high : Nat
  persist : Nat
deriving DecidableEq, Repr

/-- A tensor entry of the recipe (R195). -/
structure TensorEntry where
  id : Nat
  kind : Nat
deriving DecidableEq, Repr

/-- The RECIPE section (Table 08-3). -/
structure Recipe where
  lossSourceKind : Nat
  startExp : Int
  lsMin : Int
  lsMax : Int
  growthInterval : Nat
  startRun : Nat
  backoff : Nat
  growth : Nat
  overflowLimit : Nat
  lossSource : Nat
  kinds : List KindEntry
  tensors : List TensorEntry
  groups : List WatchEntry
deriving DecidableEq, Repr

/-- A plan as its blob gives it (R68, Table 03-5). -/
structure Plan where
  id : Nat
  beatUs : Nat
  features : Nat
  places : List PlaceEntry
  fibres : List Fibre
  maps : Nat
  circuits : List Circuit
  schedule : List SchedEntry
  reserves : List ReserveEntry
  timing : Timing
  programs : List Program
  stepList : List Nat
  regions : List Region
  groups : List Group
  shards : List Shard
  gathers : List Gather
  points : List SchedPoint
  recipe : Recipe
  seed : Bytes
  clean : Tree
  buddies : List BuddyEntry
  hasEscape : Bool
  escape : Tree
  windows : List Window
  queues : List QueueEntry
  flows : List FlowEntry
  cores : List CoreEntry
deriving DecidableEq, Repr

/-! ### The step in progress -/

/-- A CLEAN frame's judgement (Table 15-3): rising frames wait per port, the global verdict is held. -/
structure CleanFrame where
  step : Nat
  attempt : Nat
  verdict : Nat
  covered : Nat
  firstPlace : Nat
deriving DecidableEq, Repr

/-- A rising frame received from a child's port. -/
structure ChildFrame where
  port : Nat
  frame : CleanFrame
deriving DecidableEq, Repr

/-- The outgoing snapshot of a buddy entry (R416 to R418): the step, the buddy, the flow, which SNAP
region of the buddy it goes to, bytes 0 to 127 of its header area with COMPLETE 0, and the pieces not yet
sent, as the offset in the SNAP region, the physical address in the latched half (R274), the region and the
length. -/
structure SnapSt where
  step : Nat
  buddy : Nat
  flow : Nat
  second : Bool
  dstRegion : Nat
  header : Bytes
  queued : List (Nat × Nat × Nat × Nat)
deriving DecidableEq, Repr

/-- A snapshot arriving at this module as the buddy (R418). -/
structure SnapIn where
  source : Nat
  region : Nat
  step : Nat
  complete : Bool
deriving DecidableEq, Repr

/-- The step engine (chapters 1, 3, 15 and 16): JOB_START's beat, whether a step runs, the attempt,
the causes of POISONED seen so far, the contribution and the frames of R388, the held verdict,
what stops further steps, and the loss scale latched at the step's first beat (R199). -/
structure StepSt where
  jobAt : Option Nat
  releaseWaiting : Bool
  running : Bool
  started : Bool
  attempt : Nat
  nextStep : Nat
  nextAttempt : Nat
  stopped : Bool
  fault : Bool
  overflow : Bool
  hold : Bool
  sent : Bool
  children : List ChildFrame
  verdict : Option CleanFrame
  overruns : List (Nat × Nat)
  overrunStep : Nat
  spill : List Nat
  snapshots : Nat
  snap : Option SnapSt
  snapIn : Option SnapIn
  evidenceTaken : List Nat
  caseUnits : List Nat
  lsExp : Nat
deriving DecidableEq, Repr

/-! ### Memory, queues and flows -/

/-- The DRAM (chapter 11): its bytes as address and byte pairs in canonical form, an unlisted address
reading as zero (R276); the lines marked POISON; the pages retired and those being copied; the
spare pages used per channel; the last corrected event of each page; the bits in error of a stored line's 36 symbols,
16 to a symbol (R265); and the regions whose COMMITTED bit is 1. -/
structure MemSt where
  bytes : List Host.Cell
  poison : List Nat
  retired : List Nat
  copying : List Nat
  sparesUsed : Bank Nat
  corrected : Bank Nat
  errors : Bank Nat
  committed : List Nat
deriving DecidableEq, Repr

/-- A ring's indices (R364), and whether records were lost since the last one posted. -/
structure RingSt where
  pi : Nat
  ci : Nat
  lost : Bool
deriving DecidableEq, Repr

/-- A mailbox (R368 to R370): its sixteen data registers, GO, LENGTH, TAG, TIMEOUT, and the moment GO
was set. -/
structure MailboxSt where
  regs : List Nat
  full : Bool
  length : Nat
  tag : Nat
  timedOut : Bool
  goAt : Nat
deriving DecidableEq, Repr

/-- A packet sent and not yet acknowledged (Table 14-4): its bytes, resend count and send time. -/
structure TxPacket where
  psn : Nat
  msg : Nat
  bytes : Bytes
  resends : Nat
  sentAt : Nat
deriving DecidableEq, Repr

/-- A message record of a flow (Table 14-4): the packets received with their payloads' CRC-64 input,
the status found so far, and for MESSAGE the room reserved. -/
structure RxMessage where
  id : Nat
  count : Nat
  got : List Nat
  payload : Bank Bytes
  crc : Option Nat
  status : Nat
  type : Nat
  queue : Nat
  reserved : Option (Nat × Nat)
deriving DecidableEq, Repr

/-- A doorbell that waits for earlier messages of its flow (R360). -/
structure WaitingBell where
  msg : Nat
  queue : Nat
  index : Nat
deriving DecidableEq, Repr

/-- A message being sent, counted until its status returns (R350). -/
structure TxMessage where
  id : Nat
  count : Nat
  kind : Nat
deriving DecidableEq, Repr

/-- A flow context (Table 14-4). -/
structure FlowSt where
  state : Nat
  peer : Nat
  peerFlow : Nat
  host : Bool
  cls : Nat
  window : Nat
  txPsn : Nat
  txMsg : Nat
  unacked : List TxPacket
  openMsgs : List TxMessage
  waiting : List TxPacket
  rxExpected : Nat
  rxSeen : List Nat
  rxMsgs : List RxMessage
  doneMsg : Nat
  doneAhead : List (Nat × Nat)
  doneStatus : Nat
  sinceAck : Nat
  ackDue : Option Nat
  bells : List WaitingBell
  lastFail : Nat
deriving DecidableEq, Repr

/-! ### Power, reset and security -/

/-- Why a warm reset began (0x8030.03). -/
inductive ResetCause where
  | pin | write | watchdog | exit
deriving DecidableEq, Repr

/-- What the boot ROM runs (R444, R447). -/
inductive Boot where
  | off | verifying | image | recovery
deriving DecidableEq, Repr

/-- A firmware image's header and digest, and whether its bytes are whole and signed (R445). -/
structure FwImage where
  version : Nat
  svn : Nat
  digest : Nat
  good : Bool
deriving DecidableEq, Repr

/-- A domain waking: the moment its wake latency ends (R433). -/
structure Waking where
  domain : Nat
  usableAt : Nat
deriving DecidableEq, Repr

/-- A wake request that waits for the governor (R439), in order of request. -/
structure WakeRequest where
  domain : Nat
  requestedAt : Nat
deriving DecidableEq, Repr

/-- A wake that started: moment, domain (R438). -/
structure WakeStarted where
  at_ : Nat
  domain : Nat
deriving DecidableEq, Repr

/-- A re-initialisation under way (R425). -/
structure Reinit where
  fn : Nat
  startedAt : Nat
deriving DecidableEq, Repr

/-- The pins, supplies, boot, resets, domains, governor and thermal latch (chapters 17 and 18). -/
structure PowerSt where
  pwrEn : Bool
  resetN : Bool
  aux : Bool
  auxSettled : Bool
  mv48 : Nat
  thermTripN : Bool
  presentN : Bool
  boot : Boot
  powerUp : Option Nat
  latchedOff : Bool
  auxSince : Nat
  zeroing : Bool
  selfTestStart : Bool
  warmReset : Option ResetCause
  warmResetAt : Nat
  resetHeld : Option ResetCause
  requests : List WakeRequest
  started : List WakeStarted
  waking : List Waking
  thermalHeld : Bool
  coolSince : Option Nat
  noticeArmed : Bool
  tripLatched : Bool
  reinit : Option Reinit
  shutdown : Bool
  selfTest : Bool
  staged : Option FwImage
  flash : FwImage
  copying : Bool
  identity : Option Nat
  identities : Nat
  nonces : Nat
  coolant : Nat
  vendorKey : Nat × Nat
  spareSlots : Bank Nat
deriving DecidableEq, Repr

/-! ### What the module sends -/

/-- What the module put out in the command just taken: a response on a path, a lane C frame, a flit group,
the contents of an MCTP control or an SPDM response, a laser supply request, a mailbox interrupt, a lane's
training frame, a packet handed to a unit of the module, or an MCTP packet. A group goes out as the bytes of each lane. -/
inductive Out where
  | response (path : Path) (r : ObjResp)
  | frame (port : Nat) (bytes : Bytes)
  | group (port lanes : Nat) (streams : List (Nat × Bytes))
  | control (command : Nat) (data : Bytes)
  | spdm (code : Nat) (data : Bytes)
  | laser (supply : Nat) (op line level : Nat)
  | mailboxInterrupt (number : Nat) (timedOut : Bool)
  | training (port lane : Nat) (frame : Bytes)
  | delivered (bytes : Bytes)
  | mctp (packet : Bytes)
deriving DecidableEq, Repr

/-! ### Contributions on their way to granary windows -/

/-- One contribution of one element, or a completion marker (R221, R358): `form` is 0 FP32, 1 TALLY,
2 MARKER, 3 a MAXIDX and 4 a MINIDX value and index
pair; `value` is the FP32 bits, or a marker's chunk; `aux` is the pair's
index, or a marker's total; `tally` is the 24-byte tally of anchor `anchor`, and `rho` the residue that it carries
(R127); `beat` is the beat in which it came (R65). -/
structure Contribution where
  window : Nat
  step : Nat
  attempt : Nat
  source : Nat
  element : Nat
  form : Nat
  value : Nat
  aux : Nat
  tally : Bytes
  anchor : Int
  rho : Nat
  beat : Nat
deriving DecidableEq, Repr

/-! ### Residue checks (chapter 15) -/

/-- What the check of one k-block in one pass compares (R382): the index b of R116, the pass, the residue that the
checksums predict and the residue of the terms that the product array delivered. -/
structure BlockCheck where
  block : Nat
  pass : Nat
  expect : Nat
  found : Nat
deriving DecidableEq, Repr

/-- What a residue check compares: for a tile the 64 rows and then the 64 columns, predicted and found (R383), and
its k-blocks; for a chunk of a window one sum (R236). -/
structure Checks where
  expect : List Nat
  found : List Nat
  blocks : List BlockCheck
deriving DecidableEq, Repr

/-- Nothing compared by residues. -/
def Checks.none : Checks := ⟨[], [], []⟩

/-! ### Tallies and tiles (chapters 5 and 6) -/

/-- A tally with its hidden state (R105, R106): T, the wrap count W and the flags of Table 05-1. -/
structure Tally where
  t : Int
  w : Int
  above : Bool
  infPos : Bool
  infNeg : Bool
  nan : Bool
deriving DecidableEq, Repr

/-- The empty tally. -/
def Tally.zero : Tally := ⟨0, 0, false, false, false, false⟩

/-- A descriptor accepted by CC.ISSUE and waiting in a FIFO (R183): its 64 bytes, whether it runs void
(R184), its place in the issue order of the pair (R174), the moment before which it does not start, the
beat it belongs to, and its covering item's A. -/
structure Queued where
  bytes : Bytes
  void : Bool
  seq : Nat
  notBefore : Nat
  beat : Nat
  bound : Nat
deriving DecidableEq, Repr

/-- A tally tile (Table 05-5 and the tile states of chapter 6): phase 0 EMPTY, 1 OPEN, 2 DRAINING and
waiting for its destination, 3 DRAINING with the drain begun; the anchor once a term has entered; the
products entered per tally; whether the last slice's K was a multiple of 16; the tallies by element
64 r + c; the residues predicted for its rows, at 0 to 63, and its columns, at 64 to 127, and its k-blocks' checks
(R382, R383); the descriptor that closes the accumulation; and the drain's end in cycles. -/
structure TileSt where
  phase : Nat
  anchor : Option Int
  mode : Nat
  fallback : Bool
  bw : Nat
  aboveSeen : Bool
  products : Nat
  whole : Bool
  cells : Bank Tally
  expect : Bank Nat
  blocks : List BlockCheck
  desc : Bytes
  void : Bool
  beat : Nat
  drainAt : Nat
deriving DecidableEq, Repr

/-- The slice in progress: its descriptor, whether it runs void, the k-blocks done, the first panel of
each operand, and the cycle at which the next k-block may enter. -/
structure SliceSt where
  desc : Bytes
  void : Bool
  done : Nat
  aBase : Nat
  bBase : Nat
  beat : Nat
  cycle : Nat
deriving DecidableEq, Repr

/-- An input plane (Table 07-1): 0 FREE, 1 FILLING, 2 FULL, 3 IN_USE, with its FP32 entries by
element 64 r + c. -/
structure PlaneSt where
  state : Nat
  cells : Bank Nat
deriving DecidableEq, Repr

/-- A broadcast register (R158): 64 FP32 values, 64 indices and the axis tag. -/
structure BcastSt where
  vals : Bank Nat
  idxs : Bank Nat
  colvec : Bool
deriving DecidableEq, Repr

/-- The program in progress: its descriptor, whether it runs void, and its end in cycles. -/
structure RunSt where
  desc : Bytes
  void : Bool
  beat : Nat
  cycle : Nat
deriving DecidableEq, Repr

/-- A matrix and vector engine pair in a slot (R135 to R140, R158, R174). `fillPages` counts the pages
that the first FILL has written; `streams` holds, per LINE, the stream line after the last FILL, and
`panels` the panel after the last one a releasing slice took; `filled` and `taken` are, per page, the lines
written since it became invalid and those read by a releasing slice; `sums` holds per panel, by its first buffer
line, the checksums formed at its FILL (R381); `voidStep` says that the MATRIX and FILL descriptors of the rest of
the step run void (R145, R151), `voidVec` the same of its VECTOR and VLOAD descriptors (R151, R177); `readyAt` is the cycle from which the next slice could have
started. -/
structure EngineSt where
  fills : List Queued
  slices : List Queued
  vectors : List Queued
  vloads : List Queued
  seq : Nat
  fillPages : Nat
  streams : Bank Nat
  panels : Bank Nat
  buf : List Host.Cell
  valid : List Nat
  filled : Bank Nat
  taken : Bank Nat
  sums : Bank (List Nat)
  slice : Option SliceSt
  lastTile : Option Nat
  readyAt : Nat
  t0 : TileSt
  t1 : TileSt
  in0 : PlaneSt
  in1 : PlaneSt
  regs : Bank Nat
  bcasts : Bank BcastSt
  progs : Bank Bytes
  run : Option RunSt
  vecReady : Nat
  vloadReady : Nat
  voidStep : Bool
  voidVec : Bool
deriving DecidableEq, Repr

/-- A summary slot (Table 07-6): the exact sum in units of 2^-149 with what makes it special, the
largest magnitude, the counts, the winner and CONTRIB. -/
structure SumSlot where
  sum : Int
  infPos : Bool
  infNeg : Bool
  nan : Bool
  maxabs : Nat
  nans : Nat
  infs : Nat
  winner : Option (Nat × Nat)
  contrib : Nat
deriving DecidableEq, Repr

/-- A summary on its way to a slot of the cluster's control core (R169). -/
structure Merge where
  die : Nat
  cluster : Nat
  slot : Nat
  value : SumSlot
deriving DecidableEq, Repr

/-- What a control core waits for (Table 07-11): a FIFO of a slot with room, a summary slot's count, the
next boundary, or idle slots. -/
inductive CoreWait where
  | fifo (slot kind : Nat)
  | count (rd slot n : Nat)
  | boundary
  | idle (mask : Nat)
deriving DecidableEq, Repr

/-- A control core pair (R180 to R185): the registers that both cores of the pair hold, the two
memories, what it waits for, whether the wait began before the last boundary, whether it has raised a
note in this beat, and its lockstep disagreements in this plan. -/
structure CoreSt where
  pc : Nat
  xregs : Bank Nat
  fregs : Bank Nat
  csrs : Bank Nat
  imem : List Host.Cell
  dmem : List Host.Cell
  wait : Option CoreWait
  passed : Bool
  noted : Bool
  locksteps : Nat
  slots : Bank SumSlot
deriving DecidableEq, Repr

/-- A verdict still to arrive (Table 15-1): the kind of check, 1 drain, 2 lane, 3 granary or 4 update, its
die and unit, the step and attempt it judges, the moment the work ended, the descriptor, window entry or
shard entry concerned, the window of a granary check, and what a residue check compares. -/
structure VerdictDue where
  kind : Nat
  die : Nat
  unit : Nat
  step : Nat
  attempt : Nat
  madeAt : Nat
  desc : Bytes
  window : Nat
  sums : Checks
deriving DecidableEq, Repr

/-- An EMPTY tile. -/
def TileSt.init : TileSt :=
  { phase := 0, anchor := none, mode := 0, fallback := false, bw := 0,
    aboveSeen := false, products := 0, whole := true, cells := [], expect := [], blocks := [], desc := [], void := false,
    beat := 0, drainAt := 0 }

/-- A FREE input plane with zero contents. -/
def PlaneSt.init : PlaneSt := ⟨0, []⟩

/-- A zero broadcast register tagged ROWVEC. -/
def BcastSt.init : BcastSt := ⟨[], [], false⟩

/-- An engine pair with EMPTY tiles, invalid pages and zero vector state. -/
def EngineSt.init : EngineSt :=
  { fills := [], slices := [], vectors := [], vloads := [], seq := 0, fillPages := 0, streams := [],
    panels := [], buf := [], valid := [], filled := [], taken := [], sums := [], slice := none, lastTile := none, readyAt := 0,
    t0 := TileSt.init, t1 := TileSt.init, in0 := PlaneSt.init, in1 := PlaneSt.init, regs := [],
    bcasts := [], progs := [], run := none, vecReady := 0, vloadReady := 0, voidStep := false, voidVec := false }

/-- A cleared summary slot. -/
def SumSlot.zero : SumSlot := ⟨0, false, false, false, 0, 0, 0, none, 0⟩

/-- A control core in RESET. -/
def CoreSt.init : CoreSt :=
  { pc := 0, xregs := [], fregs := [], csrs := [], imem := [], dmem := [], wait := none,
    passed := false, noted := false, locksteps := 0, slots := [] }

/-! ### Granary windows (chapter 9) -/

/-- A chunk of a window under its current tag (R216, R220, R225): the contributions counted, the markers
and their total, whether it is complete, whether its outputs are delivered, its tallies, the winners
of a MAXIDX or MINIDX window as value and index, the residue that its tallies should add up to (R236), and the beat in
which it completed (R65). `inDram` lists the elements of a spilled window that
hold a tally in DRAM (R230). -/
structure ChunkSt where
  count : Nat
  markers : Nat
  total : Nat
  complete : Bool
  delivered : Bool
  tallies : Bank Tally
  winners : Bank (Option (Nat × Nat))
  inDram : List Nat
  rho : Nat
  beat : Nat
deriving DecidableEq, Repr

/-- An owned window (Table 09-3): 0 IDLE, 1 WAITING, 2 OPEN, 3 COMPLETE, 4 OVERDUE; its step and attempt,
its chunks, its counters, the rows touched, what its tallies have seen, and the completion time. -/
structure WindowSt where
  state : Nat
  step : Nat
  attempt : Nat
  chunks : Bank ChunkSt
  accepted : Nat
  markers : Nat
  bw : Nat
  bwSat : Bool
  ovf : Nat
  infSeen : Bool
  nanSeen : Bool
  rows : List Nat
  touched : Nat
  doneAt : Nat
deriving DecidableEq, Repr

/-- A chunk of gradients on its way to the update engine of the window's die (Table 09-6), and the beat in which it was
delivered (R65). -/
structure Delivered where
  window : Nat
  chunk : Nat
  step : Nat
  values : List Nat
  beat : Nat
deriving DecidableEq, Repr

/-- A chunk under a new tag. -/
def ChunkSt.init : ChunkSt := ⟨0, 0, 0, false, false, [], [], [], 0, 0⟩

/-- An IDLE window. -/
def WindowSt.init : WindowSt :=
  { state := 0, step := 0, attempt := 0, chunks := [], accepted := 0, markers := 0, bw := 0,
    bwSat := false, ovf := 0, infSeen := false, nanSeen := false, rows := [], touched := 0, doneAt := 0 }
/-! ### Update engines (chapter 10) -/

/-- A served shard (Table 10-7): 0 IDLE, 1 WAITING, 2 UPDATING, 3 ITERATING, 4 FINISHING, 5 GATHERING,
6 DONE; SH_ITERATION and SH_ROWS_DONE; the chunks taken; gradients delivered and not yet used; the rows
updated or copied; what was written of w and of the compute copy, by the byte in its array, for the gathers; the exact
w′ of the elements updated, for MX blocks that rows share; for MATRIX the phase within an iteration, and what the beats
since its start left unspent of the items on the borrowed slots: slices by slot at 0 to 11, and port bytes at 12. -/
structure ShardSt where
  state : Nat
  iteration : Nat
  rowsDone : Nat
  taken : List Nat
  grads : Bank Nat
  rows : List Nat
  outW : List Host.Cell
  outC : List Host.Cell
  exacts : Bank (Option FVal)
  phase : Nat
  carry : Bank Nat
deriving DecidableEq, Repr

/-- What a group's updates of this step add up to (R206, R208): the elements updated, the exact sums of
(w′ − w)² and w² in units of 2^-298, whether a NaN or Inf met them, and the underflows. -/
structure GroupSum where
  elements : Nat
  num : Nat
  den : Nat
  bad : Bool
  under : Nat
deriving DecidableEq, Repr

/-- A group's record of R208, and whether its ratio event has been raised since the last ratio inside the
window (R209). -/
structure GroupRec where
  ratio : Nat
  under : Nat
  step : Nat
  run : Nat
  flags : Nat
  raised : Bool
deriving DecidableEq, Repr

/-- An IDLE shard. -/
def ShardSt.init : ShardSt :=
  { state := 0, iteration := 0, rowsDone := 0, taken := [], grads := [], rows := [],
    outW := [], outC := [], exacts := [], phase := 0, carry := [] }

/-- A group without updates. -/
def GroupSum.zero : GroupSum := ⟨0, 0, 0, false, 0⟩

/-- A group record of zeros. -/
def GroupRec.zero : GroupRec := ⟨0, 0, 0, 0, 0, false⟩

/-! ### Evidence and pattern packs (chapter 15) -/

/-- A capture under way (R391): the header fields that the verdict gave (Table 15-5); `sums` holds the k-block, the
pass, and the expected and the actual residue, where a residue check gave them. -/
structure Capture where
  kind : Nat
  die : Nat
  unit : Nat
  phys : Nat
  step : Nat
  attempt : Nat
  element : Nat
  time : Nat
  desc : Bytes
  sums : Option BlockCheck
deriving DecidableEq, Repr

/-- A stored pattern pack (R394): its fields and its bytes. -/
structure Pack where
  id : Nat
  serial : Nat
  target : Nat
  signer : Nat
  cases : Nat
  length : Nat
  bytes : Bytes
deriving DecidableEq, Repr


/-! ### The keeper in the step-clean tree -/

/-- A forwarding-only module's keeper, which takes the module's place in the step-clean tree through a
warm reset (R426): the ports, the modules of the tree, the beats that matter, and the step engine's
position. -/
structure Keeper where
  parent : Nat
  children : Nat
  count : Nat
  stepBeats : Nat
  deadlineBeat : Nat
  step : Nat
  beat : Nat
  firstStep : Nat
  st : StepSt
deriving DecidableEq, Repr
/-! ### Links, lanes and the router (chapter 13) -/

/-- A sequenced lane C frame not yet acknowledged (R326). -/
structure CtlFrame where
  seq : Nat
  type : Nat
  body : Bytes
  sentAt : Option Nat
deriving DecidableEq, Repr

/-- A port's link: when lane C gained or lost lock, when the last valid hello came and whether it is the
one that the port's own hellos state as seen, the peer's MATCH flag, the class that the latest hellos
agree on and how many of them, RESETTING; the data lanes in use, unusable, without signal, and joining at
the end of the guard, per direction; whether LINK_RESERVE_EXCEEDED stands; the sequenced frames of lane
C; the management flits of a packet under assembly; the sinks' OMA reports by lane, as beat × 65,536 +
value; per receive lane the codewords seen and the places of the uncorrectable ones; the ports that an
ACCEPT in progress here still waits for; the round trips measured; the hello content that the keeper holds through a
warm reset (R328); and the management flits freed here and told freed by the far end (R326). -/
structure PortSt where
  litSince : Nat
  lostAt : Option Nat
  helloAt : Nat
  seen : Bool
  peerMatch : Bool
  cand : Option Nat
  agree : Nat
  resetSince : Option Nat
  resetSeen : Bool
  useTx : Nat
  useRx : Nat
  badTx : Nat
  badRx : Nat
  darkRx : Nat
  joinTx : Nat
  joinRx : Nat
  overTx : Bool
  overRx : Bool
  ctlSeq : Nat
  ctlSent : List CtlFrame
  ctlExpect : Nat
  ackDue : Bool
  mgmt : Bytes
  reports : Bank Nat
  codewords : Bank Nat
  uncorrected : Bank (List Nat)
  accepting : List Nat
  rtts : Bank Nat
  helloCopy : Bytes
  mgmtFreed : Nat
  mgmtCredit : Nat
deriving DecidableEq, Repr

/-- A flit with its tag (Table 13-1). -/
structure Flit where
  vc : Nat
  head : Bool
  tail : Bool
  data : Bytes
deriving DecidableEq, Repr

/-- A group kept for replay (R319). -/
structure Group16 where
  seq : Nat
  flits : List Flit
deriving DecidableEq, Repr

/-- The sending end of a data link (R314 to R319, R337): flits waiting, the next SEQ, the groups not
acknowledged, the flits of each VC sent and freed, the resend asked for and the moment from which it may
start, since when a ready flit has waited for credit or for the replay share, the mask that the last trailer
announced, the SEQ last resent with the resends from it that failed, and how many flits of the queue belong to earlier
beats (R65). -/
structure TxLink where
  queue : List Flit
  seq : Nat
  groups : List Group16
  sent : Bank Nat
  freed : Bank Nat
  resend : Option Nat
  resendAt : Nat
  stallSince : Option Nat
  fullSince : Option Nat
  mask : Nat
  failSeq : Nat
  fails : Nat
  backlog : Nat
deriving DecidableEq, Repr

/-- The receiving end of a data link: the SEQ expected, whether a group was received in order, the moment
of the last NAK while no REPLAY has come, failed resends from one SEQ, the lanes that gave uncorrectable
codewords in them, the mask that the next group is decoded under, the packets under assembly and the
flits freed by VC. -/
structure RxLink where
  expect : Nat
  any : Bool
  nak : Option Nat
  fails : Nat
  blame : Nat
  mask : Nat
  partials : Bank Bytes
  freed : Bank Nat
deriving DecidableEq, Repr

/-- A packet at an input of the router: the data link it came by (port × 8 + lowest lane), or none for a local
unit, the VC it came on, its bytes, since when it waits, whether it travels on ESCAPE (R338, R339), the die whose router
holds it, and whether it crossed the bridge port to that router (R335). -/
structure Routed where
  src : Option Nat
  vc : Nat
  data : Bytes
  since : Nat
  escape : Bool
  die : Nat
  crossed : Bool
deriving DecidableEq, Repr

/-! ### Rings and lasers (chapter 12) -/

/-- A microring (Table 12-7): 0 PARKED, 1 SWEEPING, 2 LOCKING, 3 VERIFYING, 4 LOCKED, 5 HOLDING, 6
FAILED; whether it was LOCKED before and has unlocked; the sweep's steps done and its candidates left,
as step numbers 0 to 64; the setting and the tracking correction, MHz from the calibrated target; whether
a heater limit refused a step of the sweep; whether light is missing; the moment and the beat of its last step; the
correction that the next guard's retuning makes a setting, and whether the heater waits for a guard (R298). -/
structure Micro where
  state : Nat
  unlocked : Bool
  steps : Nat
  cands : List Nat
  setting : Int
  track : Int
  limited : Bool
  dark : Bool
  stepAt : Nat
  stepBeat : Nat
  want : Int
  waits : Bool
deriving DecidableEq, Repr

/-- A switchover waiting for the next guard (R304, R306): to the twin, its source ceiling flag, the margin
at the decision, and whether SELECT asked for it. -/
structure Switch where
  twin : Bool
  ceiling : Bool
  margin : Nat
  bySelect : Bool
deriving DecidableEq, Repr

/-- A laser input (R302 to R307): LASER_MARGIN_LOW standing, the beat of the last planned switchover plus
1, the beat plus 1 in which each line was last asked to rise, the lines whose ceiling was raised and those
that STATUS reports at the source's own ceiling (source × 8 + line), LASER_TWIN_UNAVAILABLE standing, a
switchover that waits, the moment of the last emergency switchover, and the faults of each source's supply as STATUS
last read them (R285). -/
structure LaserSt where
  low : Bool
  lastSwitch : Nat
  asked : Bank Nat
  ceilings : List Nat
  atCeiling : List Nat
  twinOut : Bool
  next : Option Switch
  emergAt : Option Nat
  faults : Bank Nat
deriving DecidableEq, Repr

/-- A request to a laser supply (R285): the input, the source, the operation 0 LEVEL, 1 STATUS or 2
OUT_OF_SERVICE, line and level, when it was sent, and whether it waits for the next beat. -/
structure LscReq where
  input : Nat
  twin : Bool
  op : Nat
  line : Nat
  level : Nat
  sentAt : Nat
  again : Bool
deriving DecidableEq, Repr

/-- A rehearsal (R294 to R296): its first beat, the beats of a block, the maps, the map of the block that
runs, the lanes whose identity is verified, as (map × 2 + direction) × 192 + port × 8 + lane, and whether the
blocks are over. -/
structure Prep where
  start : Nat
  block : Nat
  maps : Nat
  map : Nat
  seen : List Nat
  isOver : Bool
deriving DecidableEq, Repr

/-- A port at power-on. -/
def PortSt.init : PortSt :=
  { litSince := 0, lostAt := none, helloAt := 0, seen := false, peerMatch := false, cand := none,
    agree := 0, resetSince := none, resetSeen := false, useTx := 0, useRx := 0, badTx := 0, badRx := 0,
    darkRx := 0, joinTx := 0, joinRx := 0, overTx := false, overRx := false, ctlSeq := 0, ctlSent := [],
    ctlExpect := 0, ackDue := false, mgmt := [], reports := [], codewords := [], uncorrected := [], accepting := [],
    rtts := [], helloCopy := [], mgmtFreed := 0, mgmtCredit := 0 }

/-- A data link's sending end at its start. -/
def TxLink.init : TxLink :=
  { queue := [], seq := 0, groups := [], sent := [], freed := [], resend := none, resendAt := 0,
    stallSince := none, fullSince := none, mask := 0, failSeq := 0, fails := 0, backlog := 0 }

/-- A data link's receiving end at its start. -/
def RxLink.init : RxLink :=
  { expect := 0, any := false, nak := none, fails := 0, blame := 0, mask := 0, partials := [],
    freed := [] }

/-- A PARKED ring. -/
def Micro.init : Micro :=
  { state := 0, unlocked := false, steps := 0, cands := [], setting := 0, track := 0, limited := false, dark := false,
    stepAt := 0, stepBeat := 0, want := 0, waits := false }

/-- A laser input at power-on. -/
def LaserSt.init : LaserSt :=
  { low := false, lastSwitch := 0, asked := [], ceilings := [], atCeiling := [], twinOut := false,
    next := none, emergAt := none, faults := [] }


/-- An admission under way (R79): the moment of the write of ADMIT, and what was found at it: a lane of map 0
not LOCKED (RESOURCE and DETAIL of 0x2021 for it), a port with lanes out of use beyond its reserve, THERMAL_STOP holding
domains off. -/
structure Admitting where
  since : Nat
  unlocked : Option (Nat × Nat)
  beyond : Option Nat
  held : Bool
deriving DecidableEq, Repr

/-! ### The state -/

/-- The state of the block. `od` and `blobs` hold the object dictionary's values that differ from
their defaults (keys index × 256 + sub-index); `now` is the time in ns since the always-on domain had
power; `deferred` holds writes that wait for the next guard (R53); `freeCount` numbers the free values
taken (the model's own field, assumption 3); `pending` is the queue of waiting commands. -/
structure State where
  od : Bank Nat
  blobs : Bank Bytes
  now : Nat
  bell : Bell
  inBand : PathSt
  outOfBand : PathSt
  mctp : MctpSt
  deferred : List (Nat × Nat)
  events : List RingRec
  ledger : Ledger
  plan : Option Plan
  admitting : Option Admitting
  step : StepSt
  mem : MemSt
  rings : Bank RingSt
  mailboxes : Bank MailboxSt
  flows : Bank FlowSt
  power : PowerSt
  contribs : List Contribution
  engines : Bank EngineSt
  cores : Bank CoreSt
  merges : List Merge
  spent : Bank Nat
  verdicts : List VerdictDue
  ovfAt : Nat
  windows : Bank WindowSt
  delivered : List Delivered
  shards : Bank ShardSt
  sums : Bank GroupSum
  groupT : Bank Nat
  eta : Bank Nat
  records : Bank GroupRec
  unitStrikes : Bank Nat
  captures : List Capture
  packs : List Pack
  ports : Bank PortSt
  txLinks : Bank TxLink
  rxLinks : Bank RxLink
  router : List Routed
  micro : Bank Micro
  settings : Bank Nat
  lasers : Bank LaserSt
  lsc : List LscReq
  prep : Option Prep
  xrClear : Bool
  digesting : Option (Nat × Nat × Nat)
  keeper : Option Keeper
  out : List Out
  freeCount : Nat
  pending : List Instr
deriving DecidableEq, Repr

/-- No command faults: the manual gives every command of the table an effect, and an event of the
outside world that cannot happen in a state changes nothing (assumption 2). The one constructor is
raised by nothing; it would be safe. -/
inductive Fault where
  | never
deriving DecidableEq, Repr

/-- Why a command is refused. -/
inductive Refusal where
  /-- Raised by an arm of the dispatch whose command has no meaning in the model; safe. -/
  | notModelled (mnemonic : String)
deriving DecidableEq, Repr

/-- A management path at reset. -/
def PathSt.init : PathSt := ⟨[], none, none⟩

/-- A ring at reset. -/
def RingSt.init : RingSt := ⟨0, 0, false⟩

/-- A mailbox at reset: EMPTY, registers zero (Table 14-10). -/
def MailboxSt.init : MailboxSt := ⟨List.replicate 16 0, false, 0, 0, false, 0⟩

/-- A flow context at reset: CLOSED (Table 14-5). -/
def FlowSt.init : FlowSt :=
  { state := 0, peer := 0, peerFlow := 0, host := false, cls := 0, window := 0, txPsn := 0,
    txMsg := 0, unacked := [], openMsgs := [], waiting := [], rxExpected := 0, rxSeen := [],
    rxMsgs := [], doneMsg := 0xFFFFFFFF, doneAhead := [], doneStatus := 0, sinceAck := 0,
    ackDue := none, bells := [], lastFail := 0 }

/-- The bell count at reset: UNLOCKED at beat 0, offset 0. -/
def Bell.init : Bell :=
  { beat := 0, off := 0, good := 0, bad := 0, holdGood := 0, lastValid := 0, altValid := 0,
    holdSince := 0, rootSet := false, useAlt := false, steerPs := 0, fracPs := 0, lastSend := 0, inGuard := false,
    heard := [], lastCyc := 0 }

/-- No step in progress. -/
def StepSt.init : StepSt :=
  { jobAt := none, releaseWaiting := false, running := false, started := false, attempt := 0,
    nextStep := 0, nextAttempt := 0, stopped := false, fault := false, overflow := false,
    hold := false, sent := false, children := [], verdict := none, overruns := [],
    overrunStep := 0, spill := [], snapshots := 0, snap := none, snapIn := none,
    evidenceTaken := [], caseUnits := [], lsExp := 0 }

/-- The memory before power-on zeroing: nothing listed, so every byte reads as zero (R276). -/
def MemSt.init : MemSt :=
  { bytes := [], poison := [], retired := [], copying := [], sparesUsed := [], corrected := [], errors := [],
    committed := [] }

/-- The module with every supply absent and every pin low. -/
def PowerSt.init : PowerSt :=
  { pwrEn := false, resetN := false, aux := false, auxSettled := false, mv48 := 0,
    thermTripN := false, presentN := true, boot := .off, powerUp := none, latchedOff := false,
    auxSince := 0, zeroing := false, selfTestStart := false, warmReset := none,
    warmResetAt := 0, resetHeld := none, requests := [], started := [], waking := [],
    thermalHeld := false, coolSince := none, noticeArmed := true, tripLatched := false,
    reinit := none, shutdown := false, selfTest := false, staged := none,
    flash := ⟨Config.firmwareVersion.toNat, Config.imageSvn.toNat, Config.imageDigest.toNat, true⟩,
    copying := false, identity := none, identities := 0, nonces := 0,
    coolant := 0, vendorKey := (Config.vendorKeyX.toNat, Config.vendorKeyY.toNat), spareSlots := [] }

/-- An empty ledger. -/
def Ledger.init : Ledger := ⟨[], [], 0, 0, false⟩

/-- The MCTP endpoint and SPDM responder at reset. -/
def MctpSt.init : MctpSt := ⟨none, false, false, false, 0⟩

/-- The module as it comes: every object at its default, every pin low, POWER_STATE OFF, nothing in
memory, no command waiting. -/
def State.reset : State :=
  { od := [], blobs := [], now := 0, bell := Bell.init, inBand := PathSt.init,
    outOfBand := PathSt.init, mctp := MctpSt.init, deferred := [], events := [],
    ledger := Ledger.init, plan := none, admitting := none, step := StepSt.init,
    mem := MemSt.init, rings := [], mailboxes := [], flows := [], power := PowerSt.init,
    contribs := [],
    engines := [],
    cores := [],
    merges := [],
    spent := [],
    verdicts := [],
    ovfAt := 0,
    windows := [],
    delivered := [],
    shards := [],
    sums := [],
    groupT := [],
    eta := [],
    records := [],
    unitStrikes := [],
    captures := [],
    packs := [],
    ports := [],
    txLinks := [],
    rxLinks := [],
    router := [],
    micro := [],
    settings := [],
    lasers := [],
    lsc := [],
    prep := none,
    xrClear := false,
    digesting := none,
    keeper := none,
    out := [], freeCount := 0, pending := [] }

end Sys2Proof.Machine
end

