-- ==== Sys2Proof/Machine/PlanParse.lean ====
section
/-! DEFINITION. Reading a plan blob: its header and directory (R68, R480), and each section's entries
as the owning chapter lays them out. Reading is total: bytes past a section's end read as zero; the
format checks of PlanCheck say whether the blob is well formed. -/

namespace Sys2Proof.Machine

/-- A directory entry (R68). -/
structure DirEntry where
  type : Nat
  flags : Nat
  offset : Nat
  length : Nat
  count : Nat
deriving DecidableEq, Repr

/-- The `n` consecutive pieces of `size` bytes from `off`. -/
def pieces (bs : Bytes) (off size n : Nat) : List Bytes :=
  (upto n).map (fun i => sliceB bs (off + i * size) size)

/-- At most as many entries of `size` bytes as `len` bytes hold. -/
def capCount (n size len : Nat) : Nat := min n (len / size)

/-- The directory of a blob. -/
def directory (bs : Bytes) : List DirEntry :=
  (pieces bs 64 16 (capCount (fieldLe bs 6 2) 16 bs.length)).map (fun e =>
    ⟨fieldLe e 0 2, fieldLe e 2 2, fieldLe e 4 4, fieldLe e 8 4, fieldLe e 12 4⟩)

/-- The directory entry of a section type. -/
def dirOf (bs : Bytes) (ty : Nat) : Option DirEntry := (directory bs).find? (fun e => e.type == ty)

/-- The bytes of a section; empty when absent. -/
def sectionOf (bs : Bytes) (ty : Nat) : Bytes :=
  match dirOf bs ty with
  | some e => (bs.drop e.offset).take e.length
  | none => []

/-- `n` rounded up to a multiple of 8 (entries lie at 8-byte boundaries). -/
def align8 (n : Nat) : Nat := (n + 7) / 8 * 8

def parseTiming (b : Bytes) : Timing :=
  ⟨fieldLe b 0 4, fieldLe b 4 4, fieldLe b 8 4, fieldLe b 12 4, fieldLe b 16 4⟩

def parseItem (e : Bytes) : Item :=
  ⟨fieldLe e 0 1, fieldLe e 1 1, fieldLe e 3 1, fieldLe e 2 1, fieldLe e 4 4, fieldLe e 8 4,
   fieldLe e 12 4⟩

/-- The beat programs of a PROGRAMS section, one after another from its first byte (R70). -/
def parsePrograms : Nat → Bytes → List Program
  | 0, _ => []
  | n + 1, b =>
    let k := capCount (fieldLe b 0 2) 16 (b.length - 8)
    ⟨fieldLe b 2 2, fieldLe b 4 2, (pieces b 8 16 k).map parseItem⟩ ::
      parsePrograms n (b.drop (8 + 16 * k))

def parseRegion (e : Bytes) : Region := ⟨fieldLe e 0 2, fieldLe e 2 1, fieldLe e 8 8, fieldLe e 16 8⟩

/-- A window descriptor (Table 09-1) of the section `sec`, with its count table (COUNT_MODE TABLE). -/
def parseWindow (sec e : Bytes) : Window :=
  let mode := fieldLe e 4 1
  let elements := fieldLe e 16 4
  let count := fieldLe e 24 4
  { num := fieldLe e 0 2, owner := fieldLe e 2 2, mode := mode, out := fieldLe e 5 1,
    anchor := toSigned 16 (fieldLe e 6 2), die := fieldLe e 8 1, mask := fieldLe e 10 2,
    group := fieldLe e 12 2, cq := fieldLe e 14 2, elements := elements, base := fieldLe e 20 4,
    count := count, maxPerChunk := fieldLe e 28 4, tensor := fieldLe e 32 4,
    outTensor := fieldLe e 36 4, openBeat := fieldLe e 40 4, dueBeat := fieldLe e 44 4,
    rowElements := fieldLe e 48 4, maxTouched := fieldLe e 52 4, bitmapBase := fieldLe e 56 4,
    outAddr := fieldLe e 64 8, spillAddr := fieldLe e 72 8, touchedAddr := fieldLe e 80 8,
    counts := if bits mode 4 2 = 1 then
        (pieces sec count 4 (capCount (ceilDiv elements 1024) 4 (sec.length - count))).map leNat
      else [],
    raw := e }

def parseQueue (e : Bytes) : QueueEntry :=
  ⟨fieldLe e 0 2, fieldLe e 2 2, fieldLe e 4 1, fieldLe e 5 1, fieldLe e 6 2, fieldLe e 8 8,
   fieldLe e 16 4, fieldLe e 20 2⟩

def parseFlow (e : Bytes) : FlowEntry :=
  ⟨fieldLe e 0 2, fieldLe e 2 2, fieldLe e 4 2, fieldLe e 6 2, fieldLe e 8 1, bit (fieldLe e 9 1) 0,
   fieldLe e 10 1⟩

def parseCore (e : Bytes) : CoreEntry := ⟨fieldLe e 0 2, fieldLe e 2 1, fieldLe e 4 2, fieldLe e 8 8⟩

def parseBuddy (e : Bytes) : BuddyEntry :=
  ⟨fieldLe e 0 2, fieldLe e 2 2, fieldLe e 4 2, fieldLe e 6 2, fieldLe e 8 2,
   ((pieces e 16 2 8).map leNat).take (fieldLe e 10 1), fieldLe e 32 8⟩

/-- A tree section whose header holds ROOT and COUNT (R386, R339). -/
def parseTree (b : Bytes) : Tree :=
  let n := fieldLe b 2 2
  ⟨fieldLe b 0 2, n, fieldLe b 4 1,
   (pieces b 8 8 (capCount n 8 (b.length - 8))).map (fun e => ⟨fieldLe e 0 2, fieldLe e 2 1⟩)⟩

def parsePlace (e : Bytes) : PlaceEntry := ⟨fieldLe e 0 2, fieldLe e 8 8⟩

def parseFibre (e : Bytes) : Fibre := ⟨fieldLe e 0 2, fieldLe e 2 1, fieldLe e 4 2, fieldLe e 6 1⟩

def parseCircuit (e : Bytes) : Circuit :=
  ⟨fieldLe e 0 1, fieldLe e 1 1, fieldLe e 2 1, fieldLe e 4 2, fieldLe e 6 1, fieldLe e 7 1,
   fieldLe e 8 2, fieldLe e 10 2, fieldLe e 12 1, fieldLe e 13 1, fieldLe e 14 2, fieldLe e 16 1,
   fieldLe e 17 1, fieldLe e 18 2⟩

def parseReserve (e : Bytes) : ReserveEntry :=
  ⟨fieldLe e 0 2, fieldLe e 2 1, fieldLe e 3 1, fieldLe e 4 1⟩

def parseGroup (e : Bytes) : Group :=
  { num := fieldLe e 0 2, shape := fieldLe e 2 1, flags := fieldLe e 3 1, wTensor := fieldLe e 4 4,
    t0 := fieldLe e 8 4, origin := fieldLe e 12 4, coef := (pieces e 16 4 16).map leNat,
    schedKind := fieldLe e 80 1, matFormat := fieldLe e 81 1, points := fieldLe e 82 2,
    pointFirst := fieldLe e 84 4, etaStart := fieldLe e 88 4, etaPeak := fieldLe e 92 4,
    etaMin := fieldLe e 96 4, warmup := fieldLe e 100 4, decay := fieldLe e 104 4,
    cycleMult := fieldLe e 108 4, matPasses := fieldLe e 112 1 }

def parseShard (e : Bytes) : Shard :=
  { window := fieldLe e 0 2, group := fieldLe e 2 2, unit := fieldLe e 4 1, flags := fieldLe e 5 1,
    copyFormat := fieldLe e 6 1, copyRound := fieldLe e 7 1, firstElement := fieldLe e 8 8,
    paramRegion := fieldLe e 16 2, optRegion := fieldLe e 18 2, wOff := fieldLe e 20 4,
    mOff := fieldLe e 24 4, vOff := fieldLe e 28 4, rowOff := fieldLe e 32 4,
    copyOff := fieldLe e 36 4, gatherFirst := fieldLe e 40 2, gatherN := fieldLe e 42 2,
    matRows := fieldLe e 44 2, matCols := fieldLe e 46 2, borrow := fieldLe e 48 2,
    scratch := fieldLe e 56 8 }

def parseGather (e : Bytes) : Gather := ⟨fieldLe e 0 2, fieldLe e 2 1, fieldLe e 4 2, fieldLe e 8 8⟩

def parseKind (e : Bytes) : KindEntry :=
  ⟨fieldLe e 0 1, fieldLe e 1 1, fieldLe e 2 1, fieldLe e 3 1, toSigned 16 (fieldLe e 4 2),
   toSigned 8 (fieldLe e 6 1)⟩

def parseWatch (e : Bytes) : WatchEntry :=
  ⟨fieldLe e 0 2, fieldLe e 2 1, bit (fieldLe e 3 1) 0, fieldLe e 4 4, fieldLe e 8 4, fieldLe e 12 2⟩

/-- The recipe in force when the section is absent (Table 08-3, R195). -/
def defaultRecipe : Recipe :=
  ⟨0, 15, 0, 32, 1000, 0, 1, 1, 8, 0, [], [], []⟩

/-- The RECIPE section (R195): kind, tensor and group entries, each kind of entry from an 8-byte
boundary. -/
def parseRecipe (b : Bytes) : Recipe :=
  if b = [] then defaultRecipe else
    let nk := capCount (fieldLe b 0 1) 8 (b.length - 64)
    let nt := capCount (fieldLe b 4 4) 4 (b.length - 64 - 8 * nk)
    let offG := align8 (64 + 8 * nk + 4 * nt)
    let ng := capCount (fieldLe b 8 2) 16 (b.length - offG)
    { lossSourceKind := fieldLe b 1 1, startExp := toSigned 16 (fieldLe b 10 2),
      lsMin := toSigned 16 (fieldLe b 12 2), lsMax := toSigned 16 (fieldLe b 14 2),
      growthInterval := fieldLe b 16 2, startRun := fieldLe b 18 2, backoff := fieldLe b 20 1,
      growth := fieldLe b 21 1, overflowLimit := fieldLe b 22 1, lossSource := fieldLe b 24 8,
      kinds := (pieces b 64 8 nk).map parseKind,
      tensors := (pieces b (64 + 8 * nk) 4 nt).map (fun e => ⟨fieldLe e 0 3, fieldLe e 3 1⟩),
      groups := (pieces b offG 16 ng).map parseWatch }

/-- A plan from its blob (R68 to R70, Table 03-5). -/
def parsePlan (bs : Bytes) : Plan :=
  let pl := sectionOf bs 0x01
  let nm := capCount (fieldLe pl 0 2) 16 (pl.length - 8)
  let nf := capCount (fieldLe pl 4 4) 8 (pl.length - 8 - 16 * nm)
  let ci := sectionOf bs 0x02
  let nc := capCount (fieldLe ci 4 4) 32 (ci.length - 16)
  let ns := capCount (fieldLe ci 8 4) 8 (ci.length - 16 - 32 * nc)
  let lr := sectionOf bs 0x03
  let sl := sectionOf bs 0x06
  let rg := sectionOf bs 0x07
  let gr := sectionOf bs 0x08
  let ngp := capCount (fieldLe gr 0 2) 128 (gr.length - 16)
  let oSh := 16 + 128 * ngp
  let nsh := capCount (fieldLe gr 2 2) 64 (gr.length - oSh)
  let oGa := oSh + 64 * nsh
  let nga := capCount (fieldLe gr 4 4) 16 (gr.length - oGa)
  let oPt := oGa + 16 * nga
  let npt := capCount (fieldLe gr 8 4) 8 (gr.length - oPt)
  let bu := sectionOf bs 0x0C
  let wi := sectionOf bs 0x0E
  let nw := match dirOf bs 0x0E with | some e => capCount e.count 96 wi.length | none => 0
  let qu := sectionOf bs 0x0F
  let nq := capCount (fieldLe qu 0 4) 32 (qu.length - 8)
  let nfl := capCount (fieldLe qu 4 2) 16 (qu.length - 8 - 32 * nq)
  let nco := capCount (fieldLe qu 6 2) 16 (qu.length - 8 - 32 * nq - 16 * nfl)
  { id := fieldLe bs 16 8, beatUs := fieldLe bs 24 2, features := fieldLe bs 32 16,
    places := (pieces pl 8 16 nm).map parsePlace,
    fibres := (pieces pl (8 + 16 * nm) 8 nf).map parseFibre,
    maps := fieldLe ci 0 1,
    circuits := (pieces ci 16 32 nc).map parseCircuit,
    schedule := (pieces ci (16 + 32 * nc) 8 ns).map (fun e => ⟨fieldLe e 0 4, fieldLe e 4 1⟩),
    reserves := (pieces lr 0 8 (lr.length / 8)).map parseReserve,
    timing := parseTiming (sectionOf bs 0x04),
    programs := parsePrograms
      (match dirOf bs 0x05 with | some e => capCount e.count 8 (sectionOf bs 0x05).length | none => 0)
      (sectionOf bs 0x05),
    stepList := (pieces sl 0 2 (sl.length / 2)).map leNat,
    regions := (pieces rg 0 32 (rg.length / 32)).map parseRegion,
    groups := (pieces gr 16 128 ngp).map parseGroup,
    shards := (pieces gr oSh 64 nsh).map parseShard,
    gathers := (pieces gr oGa 16 nga).map parseGather,
    points := (pieces gr oPt 8 npt).map (fun e => ⟨fieldLe e 0 4, fieldLe e 4 4⟩),
    recipe := parseRecipe (sectionOf bs 0x09),
    seed := sectionOf bs 0x0A,
    clean := parseTree (sectionOf bs 0x0B),
    buddies := (pieces bu 8 40 (capCount (fieldLe bu 0 2) 40 (bu.length - 8))).map parseBuddy,
    hasEscape := (dirOf bs 0x0D).isSome,
    escape := { parseTree (sectionOf bs 0x0D) with depth := 0 },
    windows := (pieces wi 0 96 nw).map (parseWindow wi),
    queues := (pieces qu 8 32 nq).map parseQueue,
    flows := (pieces qu (8 + 32 * nq) 16 nfl).map parseFlow,
    cores := (pieces qu (8 + 32 * nq + 16 * nfl) 16 nco).map parseCore }

end Sys2Proof.Machine
end

