-- ==== Sys2Proof/Machine/LineCode.lean ====
section
/-! DEFINITION. The code of a stored line (R265): a shortened Reed–Solomon code of 36 symbols over GF(2^16), its check
symbols and its decoder (R266). -/

namespace Sys2Proof.Machine

/-! ### The field -/

/-- The product in GF(2^16), reduced by x^16 + x^12 + x^3 + x + 1. -/
def gfTimes (a b : Nat) : Nat :=
  let p := (upto 16).foldl (fun x i => if bit b i then x ^^^ a * 2 ^ i else x) 0
  (upto 15).foldl (fun x i => if bit x (30 - i) then x ^^^ 0x1100B * 2 ^ (14 - i) else x) p

/-- α^n, α being x. -/
def gfAlpha : Nat → Nat
  | 0 => 1
  | n + 1 => gfTimes 2 (gfAlpha n)

/-- The inverse of a nonzero element, a^(2^16 − 2). -/
def gfInv (a : Nat) : Nat :=
  ((upto 15).foldl (fun (x : Nat × Nat) _ =>
    let q := gfTimes x.2 x.2
    (gfTimes x.1 q, q)) (1, a)).1

/-! ### The code -/

/-- The coefficients of the generator polynomial, with roots α^0 to α^3, from the lowest on. -/
def genPoly : List Nat :=
  (upto 4).foldl (fun g i => List.zipWith (fun x y => x ^^^ y) (0 :: g) ((g.map (gfTimes (gfAlpha i))) ++ [0])) [1]

/-- The 32 data symbols of a line's bytes. -/
def dataSymbols (bs : Bytes) : List Nat := (upto 32).map (fun i => fieldLe bs (2 * i) 2)

/-- The bytes of 32 data symbols. -/
def symbolBytes (ws : List Nat) : Bytes := (ws.take 32).flatMap (natLe 2)

/-- The four check symbols of 32 data symbols: the remainder of their polynomial, symbol 0 the highest power
(assumption 93). -/
def checkSymbols (ws : List Nat) : List Nat :=
  (ws.foldl (fun r w =>
    let f := w ^^^ r.headD 0
    List.zipWith (fun x g => x ^^^ gfTimes f g) (r.drop 1 ++ [0]) ((genPoly.take 4).reverse)) [0, 0, 0, 0])

/-- The value of a stored word's polynomial at α^j. -/
def syndrome (w : List Nat) (j : Nat) : Nat := w.foldl (fun s c => gfTimes s (gfAlpha j) ^^^ c) 0

/-- What the decoder finds of a stored word (R266): no error, the word it corrects to, or an error that it only
detects. -/
inductive Decoded where
  | clean
  | corrected (w : List Nat)
  | detected
deriving DecidableEq, Repr

/-- The word with values added at symbol numbers. -/
def fixSymbols (w : List Nat) (es : List (Nat × Nat)) : List Nat :=
  w.zipIdx.map (fun c => es.foldl (fun x e => if e.1 = c.2 then x ^^^ e.2 else x) c.1)

/-- The locator of a symbol number. -/
def locator (i : Nat) : Nat := gfAlpha (35 - i)

/-- A word with one or two symbols in error corrected: their locators are the roots that the four syndromes give. -/
def decodeWord (w : List Nat) : Decoded :=
  let s0 := syndrome w 0
  let s1 := syndrome w 1
  let s2 := syndrome w 2
  let s3 := syndrome w 3
  let det := gfTimes s0 s2 ^^^ gfTimes s1 s1
  if s0 = 0 ∧ s1 = 0 ∧ s2 = 0 ∧ s3 = 0 then .clean
  else if det = 0 then
    match (upto 36).find? (fun i =>
      let x := locator i
      decide (s0 ≠ 0) && gfTimes s0 x == s1 && gfTimes s1 x == s2 && gfTimes s2 x == s3) with
    | some i => .corrected (fixSymbols w [(i, s0)])
    | none => .detected
  else
    let d := gfInv det
    let a := gfTimes (gfTimes s1 s2 ^^^ gfTimes s0 s3) d
    let b := gfTimes (gfTimes s1 s3 ^^^ gfTimes s2 s2) d
    match (upto 36).filter (fun i => let x := locator i; gfTimes x x ^^^ gfTimes a x ^^^ b == 0) with
    | [i, j] =>
      let e := gfTimes (s1 ^^^ gfTimes s0 (locator i)) (gfInv (locator i ^^^ locator j))
      .corrected (fixSymbols w [(i, s0 ^^^ e), (j, e)])
    | _ => .detected

/-- A line as stored: its data and check symbols, with an error pattern of 36 symbols of 16 bits on them. -/
def storedWord (bs : Bytes) (errors : Nat) : List Nat :=
  let d := dataSymbols bs
  (d ++ checkSymbols d).zipIdx.map (fun c => c.1 ^^^ bits errors (16 * c.2) 16)

end Sys2Proof.Machine
end

