-- ==== Sys2Proof/Machine/Ops.lean ====
section
/-! DEFINITION. The shared operations: reading and writing object values, CMD result words, the clock,
free values, packets and messages sent on flows, records posted to rings, events and the ledger, the
causes of a POISONED step. -/

namespace Sys2Proof.Machine

/-! ### Object values -/

/-- The stored numeric value of an object, its default when none is stored. -/
def State.obj (s : State) (k : Nat) : Nat :=
  match s.od.find? (fun e => e.1 == k) with
  | some e => e.2
  | none => objDefault k

/-- An object's value replaced; a value equal to the default is not stored. -/
def State.setObj (s : State) (k v : Nat) : State :=
  { s with od := if v = objDefault k then Bank.erase s.od k else Bank.put s.od k v }

/-- The stored byte value of an object. -/
def State.blob (s : State) (k : Nat) : Bytes :=
  match s.blobs.find? (fun e => e.1 == k) with
  | some e => e.2
  | none => blobDefault k

/-- An object's byte value replaced; a value equal to the default is not stored. -/
def State.setBlob (s : State) (k : Nat) (v : Bytes) : State :=
  { s with blobs := if v = blobDefault k then Bank.erase s.blobs k else Bank.put s.blobs k v }

/-- A counter object one higher, wrapping at its width (assumption 4). -/
def State.addObj (s : State) (k n : Nat) : State := s.setObj k ((s.obj k + n) % 2 ^ objBits k)

/-- A counter object one higher. -/
def State.bump (s : State) (k : Nat) : State := s.addObj k 1

/-- A BOOL object. -/
def State.flag (s : State) (k : Nat) : Bool := s.obj k != 0

/-- The rows of a retention class that belong to a function, or to any when none is named. -/
def lostRow (rets : List Ret) (fns : List Fn) (index : Nat) (r : ObjRow) : Bool :=
  rets.contains r.ret && (match fnOf index with | some f => fns.contains f | none => false)

/-- Whether the object of a key is lost by a retention event (R33). -/
def keyLost (rets : List Ret) (fns : List Fn) (k : Nat) : Bool :=
  match rowOfKey k with
  | some r => lostRow rets fns (k / 256) r
  | none => false

/-- Every object of the classes `rets` of the functions `fns` back at its default (R33), GROUP_T,
ETA_NOW and GROUP_RECORDS, which fields of their own hold, among them. -/
def State.dropObjects (s : State) (rets : List Ret) (fns : List Fn) : State :=
  { s with od := s.od.filter (fun e => !keyLost rets fns e.1),
           blobs := s.blobs.filter (fun e => !keyLost rets fns e.1),
           groupT := if keyLost rets fns oGroupT then [] else s.groupT,
           eta := if keyLost rets fns oEtaNow then [] else s.eta,
           records := if keyLost rets fns oGroupRecords then [] else s.records }

/-- Every function. -/
def allFns : List Fn := [.mgmt, .timebase, .compute, .fabric, .optics, .update, .memory, .selftest]

/-! ### Output and time -/

/-- What the module put out in the last command cleared: every command begins so. -/
def State.quiet (s : State) : State := { s with out := [] }

/-- One thing put out. -/
def State.emit (s : State) (o : Out) : State := { s with out := s.out ++ [o] }

/-- The beat length in ns. -/
def State.beatNs (s : State) : Nat := s.obj oBeatLengthUs * 1000

/-- An integer held within ±`m`. -/
def clampInt (m x : Int) : Int := if x < -m then -m else if m < x then m else x

/-- The bell count after `d` ns: steering removes at most 200 ppm of the time (R481), and the offset
waits at the beat's last ns for BEAT_BOUNDARY (assumption 5). -/
def Bell.after (b : Bell) (beatNs d : Nat) : Bell :=
  let adj := clampInt (Int.ofNat d / 5) b.steerPs
  let ps := b.fracPs + Int.ofNat d * 1000 + adj
  { b with off := min (b.off + (ps / 1000).toNat) (max b.off (beatNs - 1)),
           fracPs := ps % 1000, steerPs := b.steerPs - adj }

/-- Time moved forward by `d` ns. -/
def State.advance (s : State) (d : Nat) : State :=
  { s with now := s.now + d, bell := s.bell.after s.beatNs d }

/-- Time moved forward to `t`, when that lies ahead. -/
def State.advanceTo (s : State) (t : Nat) : State := s.advance (t - s.now)

/-- A fresh free value of 64 bits (assumption 3). -/
def State.fresh (s : State) : Nat × State :=
  ((Config.freeValue s.freeCount).toNat, { s with freeCount := s.freeCount + 1 })

/-- A TIME value as a number: beat in [63:0], offset in [95:64] (Table 02-1). -/
def timeVal (beat off : Nat) : Nat := beat % 2 ^ 64 + (off % 2 ^ 32) * 2 ^ 64

/-- The bell count as a TIME value. -/
def State.timeNow (s : State) : Nat := timeVal s.bell.beat s.bell.off

/-! ### The plan in force -/

/-- PLAN_STATE (Table 03-11). -/
def State.planState (s : State) : Nat := s.obj oPlanState

/-- A plan is admitted: ADMITTED or RUNNING. -/
def State.admitted (s : State) : Bool := s.planState == 3 || s.planState == 4

/-- A plan is admitted or being admitted (R53). -/
def State.planHeld (s : State) : Bool := s.planState == 2 || s.admitted

/-- The admitted plan. -/
def State.activePlan (s : State) : Option Plan := if s.admitted then s.plan else none

/-- The module's place. -/
def State.place (s : State) : Nat := s.obj oPlaceNumber

/-- The step number that events and denials carry (R366, R428): none before the first step. -/
def State.stepTag (s : State) : Nat :=
  if s.step.started && s.admitted then s.obj oStepNow else 0xFFFFFFFF

/-- The queues of the admitted plan here (R362). -/
def State.queues (s : State) : List QueueEntry :=
  match s.activePlan with
  | some p => p.queues.filter (fun q => q.place == s.place)
  | none => []

/-- A queue of the admitted plan here, by number. -/
def State.queue? (s : State) (n : Nat) : Option QueueEntry := s.queues.find? (fun q => q.num == n)

/-- The ring of a queue. -/
def State.ring (s : State) (n : Nat) : RingSt := Bank.get s.rings RingSt.init n

/-- The ring of a queue replaced. -/
def State.setRing (s : State) (n : Nat) (r : RingSt) : State :=
  { s with rings := Bank.set s.rings RingSt.init n r }

/-- A flow context. -/
def State.flow (s : State) (n : Nat) : FlowSt := Bank.get s.flows FlowSt.init n

/-- A flow context replaced. -/
def State.setFlow (s : State) (n : Nat) (f : FlowSt) : State :=
  { s with flows := Bank.set s.flows FlowSt.init n f }

/-! ### The bytes of the DRAM -/

/-- The bytes of `m` from `a`. -/
def memRead (m : List Host.Cell) (a n : Nat) : Bytes :=
  let seg := m.filter (fun c => decide (a ≤ c.1) && decide (c.1 < a + n))
  (upto n).map (fun i => Bank.get seg 0 (a + i))

/-- The cells of `bs` from `a` that an unlisted address would not read as. -/
def cellsOf : Nat → Bytes → List Host.Cell
  | _, [] => []
  | a, b :: bs => if b = 0 then cellsOf (a + 1) bs else (a, b) :: cellsOf (a + 1) bs

/-- `m` with `bs` written from `a`, keeping the canonical form. -/
def memWrite (m : List Host.Cell) (a : Nat) (bs : Bytes) : List Host.Cell :=
  m.filter (fun c => decide (c.1 < a)) ++ cellsOf a bs ++
    m.filter (fun c => decide (a + bs.length ≤ c.1))

/-- The canonical form of the memory. -/
def Memory.wf (m : List Host.Cell) : Bool := Bank.wf m 0

/-- The byte at a physical address. -/
def State.byteAt (s : State) (a : Nat) : Byte := Bank.get s.mem.bytes 0 a

/-- Bytes written at a physical address. -/
def State.poke (s : State) (a : Nat) (bs : Bytes) : State :=
  { s with mem := { s.mem with bytes := memWrite s.mem.bytes a bs } }

/-! ### Packets and messages (chapter 14) -/

/-- The virtual channel of a transaction type (Table 14-2). -/
def typeClass (ty : Nat) : Nat :=
  if ty = 0x01 then 3 else if ty = 0x03 ∨ ty = 0x0A then 1
  else if ty = 0x04 ∨ ty = 0x05 ∨ ty = 0x06 then 2 else if ty = 0x09 then 4 else 0

/-- A packet head (Table 14-1): `fields` are bytes 32 to 55. -/
def packetHead (ty flags epoch dst src flow len psn msg idx cnt step attempt : Nat)
    (fields : Bytes) (crc : Nat) : Bytes :=
  natLe 1 ty ++ natLe 1 flags ++ natLe 1 (typeClass ty) ++ natLe 1 epoch ++ natLe 2 dst ++
  natLe 2 src ++ natLe 2 flow ++ natLe 2 len ++ natLe 4 (psn % 2 ^ 24) ++ natLe 4 msg ++
  natLe 2 idx ++ natLe 2 cnt ++ natLe 4 step ++ natLe 1 attempt ++ zeros 3 ++ padTo 24 fields ++
  natLe 8 crc

/-- Type fields of WRITE and READ (Table 14-3). -/
def rwFields (space region addr readLen : Nat) : Bytes :=
  natLe 1 space ++ zeros 1 ++ natLe 2 region ++ zeros 4 ++ natLe 8 addr ++ natLe 4 readLen ++ zeros 4

/-- One packet's type fields and payload, of a message to be sent. -/
abbrev Piece := Bytes × Bytes

/-- The packets of a message on a flow from `psn` on. -/
def messagePackets (s : State) (f : FlowSt) (ty : Nat) (ps : List Piece) (step attempt : Nat) :
    List TxPacket :=
  let cnt := ps.length
  let crc := crc64 (ps.foldl (fun a p => a ++ p.2) [])
  ps.zipIdx.map (fun e =>
    let last := decide (e.2 + 1 = cnt)
    let head := packetHead ty (b2n last + (if f.host then 4 else 0))
      (match s.plan with | some p => p.id % 256 | none => 0)
      (if f.host then s.obj oBridgePlace else f.peer) s.place f.peerFlow e.1.2.length
      (f.txPsn + e.2) f.txMsg e.2 cnt step attempt e.1.1 (if last then crc else 0)
    { psn := (f.txPsn + e.2) % 2 ^ 24, msg := f.txMsg, bytes := head ++ e.1.2, resends := 0,
      sentAt := 0 })

/-- Whether a waiting packet's message is among the sixteen that may be incomplete (R350). -/
def msgAllowed (f : FlowSt) (m : Nat) : Bool := (f.openMsgs.take 16).any (fun o => o.id == m)

/-- Packets leave a flow while the window and the sixteen open messages allow (R350). -/
def pumpFlow (now : Nat) : Nat → FlowSt → FlowSt × List Bytes
  | 0, f => (f, [])
  | k + 1, f =>
    match f.waiting with
    | [] => (f, [])
    | p :: rest =>
      if f.unacked.length < f.window ∧ msgAllowed f p.msg then
        let r := pumpFlow now k
          { f with waiting := rest, unacked := f.unacked ++ [{ p with sentAt := now }] }
        (r.1, p.bytes :: r.2)
      else (f, [])

/-- A packet of this module's units given to their router by its local port (R335; DESIGN CHOICE, assumption 95: the
flow layer's packets enter the router of die 0). -/
def State.inject (s : State) (b : Bytes) : State :=
  let r : Routed := { src := none, vc := fieldLe b 2 1, data := b, since := s.now, escape := false, die := 0,
                      crossed := false }
  { s with router := s.router ++ [r] }

/-- Every packet that a flow may send now, sent. -/
def State.pump (s : State) (n : Nat) : State :=
  let f := s.flow n
  let r := pumpFlow s.now f.waiting.length f
  r.2.foldl (fun s b => s.inject b) (s.setFlow n r.1)

/-- A message put on a flow (R349, R350); a flow that is not OPEN sends nothing. `kind` says what the
status that returns means to the sender: 0 nothing, 1 a snapshot's message, 2 a gather's. -/
def State.sendMessage (s : State) (n ty : Nat) (ps : List Piece) (step attempt kind : Nat) : State :=
  let f := s.flow n
  if f.state ≠ 1 then s else
    let pk := messagePackets s f ty ps step attempt
    (s.setFlow n { f with waiting := f.waiting ++ pk,
                          openMsgs := f.openMsgs ++ [⟨f.txMsg, ps.length, kind⟩],
                          txPsn := (f.txPsn + pk.length) % 2 ^ 24,
                          txMsg := (f.txMsg + 1) % 2 ^ 32 }).pump n

/-- The pieces of a WRITE of `bs`: 4,096 bytes a packet, one type field for all (R356). -/
def writePieces (space region addr : Nat) (bs : Bytes) : List Piece :=
  (upto (max 1 (ceilDiv bs.length 4096))).map (fun i =>
    (rwFields space region addr 0, (bs.drop (4096 * i)).take 4096))

/-! ### Records, events and the ledger -/

/-- A record of 64 bytes with its descriptor head (Table 14-7) and the bytes from 8 on. -/
def recordBytes (kind : Nat) (overflowed : Bool) (phase : Nat) (body : Bytes) : Bytes :=
  natLe 1 kind ++ natLe 1 (b2n overflowed) ++ natLe 2 phase ++ zeros 4 ++ padTo 56 body

/-- Whether a physical line is marked POISON. -/
def State.marked (s : State) (line : Nat) : Bool := s.mem.poison.contains line

/-- The physical line's mark cleared: the whole line was written (R267). -/
def State.unmark (s : State) (line : Nat) : State :=
  { s with mem := { s.mem with poison := s.mem.poison.filter (fun l => l != line) } }

/-- A stored line without symbols in error. -/
def State.freshLine (s : State) (line : Nat) : State :=
  { s with mem := { s.mem with errors := Bank.set s.mem.errors 0 line 0 } }

/-- A whole line written at its physical address: its check symbols are new and its mark is cleared (R267). -/
def State.writeLine (s : State) (line : Nat) (bs : Bytes) : State := ((s.freshLine line).unmark line).poke line bs

/-- A record posted to a ring (R364, R365): lost and counted when the ring is full; the flag says that
this is the first loss since the last record posted. -/
def State.postRecord (s : State) (q : QueueEntry) (kind : Nat) (body : Bytes) : State × Bool :=
  let r := s.ring q.num
  if q.entries ≤ (r.pi + 2 ^ 32 - r.ci) % 2 ^ 32 then
    ((s.bump oRecordsLostCount).setRing q.num { r with lost := true }, !r.lost)
  else
    let bytes := recordBytes kind r.lost ((r.pi / q.entries + 1) % 2) body
    let off := q.offset + (r.pi % q.entries) * 64
    let s := s.setRing q.num { r with pi := (r.pi + 1) % 2 ^ 32, lost := false }
    let s := if q.region = 0xFFFF then
        s.sendMessage q.flow 0x01 (writePieces 3 0 off bytes) 0xFFFFFFFF 0 0
      else match s.plan.bind (fun p => p.regions.find? (fun g => g.num == q.region)) with
        | some g => s.writeLine (g.base + off) bytes
        | none => s
    (s, false)

/-- The bytes of an EVENT record from offset 8 on (R366). -/
def EventRec.body (e : EventRec) : Bytes :=
  natLe 2 e.code ++ natLe 1 e.cls ++ zeros 1 ++ natLe 4 e.seq ++ natLe 8 e.beat ++ natLe 4 e.off ++
  natLe 4 e.step ++ natLe 8 e.detail ++ natLe 2 e.detailIndex ++ natLe 1 e.detailSub

/-- The bytes of a MAILBOX record from offset 8 on (R371): the TAG is read when it is posted. -/
def mailboxBody (number state tag : Nat) : Bytes := natLe 1 number ++ natLe 1 state ++ natLe 2 tag

/-- A record of EVENT_RING as its 64 bytes; PHASE belongs to a ring and reads zero here. -/
def RingRec.bytes : RingRec → Bytes
  | .event e => recordBytes 0x22 false 0 e.body
  | .mailbox n st => recordBytes 0x23 false 0 (mailboxBody (n % 256) (st % 256) (st / 256))

/-- Whether the admitted plan declares an EVENT queue here, and which. -/
def State.eventQueue (s : State) : Option QueueEntry := s.queues.find? (fun q => q.kind == 2)

/-- The events of class report that are written to flash (R429). -/
def flashReport (e : Ev) : Bool :=
  [Ev.snapshotInvalid, .memorySparesOut, .controlLaserFailed, .laserTwinUnavailable, .thermalNotice,
    .functionReinit, .warmResetDone].contains e

/-- A flash entry written into the full or not yet full flash of 4,096 entries (R429): the oldest
class A entry gives way, else the oldest entry. -/
def flashInsert (fl : List LedgerEntry) (e : LedgerEntry) : List LedgerEntry :=
  if fl.length < 4096 then e :: fl else
    match (fl.zipIdx.filter (fun x => x.1.ev.cls == 1)).getLast? with
    | some x => e :: (fl.eraseIdx x.2)
    | none => e :: fl.dropLast

/-- The record of an event at this moment. -/
def State.eventRec (s : State) (e : Ev) (cls : Nat) (dk : Option Nat) (detail : Nat) : EventRec :=
  { code := e.code, cls := cls, seq := s.obj oEventSeq, beat := s.bell.beat, off := s.bell.off,
    step := s.stepTag, detail := detail % 2 ^ 64,
    detailIndex := (dk.getD 0) / 256, detailSub := (dk.getD 0) % 256 }

/-- An event entered in EVENT_SEQ, EVENT_RING and the ledger (R366, R429); `keeper` marks an entry
raised by the keeper during a reset. -/
def State.logEvent (s : State) (e : Ev) (cls : Nat) (dk : Option Nat) (detail : Nat)
    (keeper : Bool) : State × EventRec :=
  let s := s.bump oEventSeq
  let r := s.eventRec e cls dk detail
  let wantsFlash := decide (cls ≠ 0) || flashReport e
  let fits := decide (s.ledger.inInterval < 16)
  let toFlash := wantsFlash && fits
  let entry : LedgerEntry :=
    { ev := r, flags := b2n toFlash + 2 * b2n keeper, attempt := s.step.attempt,
      powerOn := s.obj oPowerOnCount, planId := if s.admitted then s.obj oPlanId else 0 }
  let led := { s.ledger with
    ring := (entry :: s.ledger.ring).take 1024,
    flash := if toFlash then flashInsert s.ledger.flash entry else s.ledger.flash,
    inInterval := if toFlash then s.ledger.inInterval + 1 else s.ledger.inInterval }
  let s := { s with events := (RingRec.event r :: s.events).take 256, ledger := led }
  let s := if toFlash then s.setObj oLedgerFill led.flash.length else s
  (if wantsFlash && !fits then s.bump oLedgerSuppressed else s, r)

/-- An event logged and posted to the plan's EVENT queue (R366). -/
def State.raiseOnce (s : State) (e : Ev) (cls : Nat) (dk : Option Nat) (detail : Nat) : State × Bool :=
  let r := s.logEvent e cls dk detail (s.power.warmReset.isSome)
  match r.1.eventQueue with
  | some q => r.1.postRecord q 0x22 r.2.body
  | none => (r.1, false)

/-- LEDGER_SUPPRESSED, once in an interval with suppressed entries (R429). -/
def State.noteSuppressed (s : State) (before : Nat) : State :=
  if s.obj oLedgerSuppressed ≠ before ∧ s.ledger.suppressedRaised = false then
    let s := { s with ledger := { s.ledger with suppressedRaised := true } }
    (s.raiseOnce .ledgerSuppressed 0 (Ev.ledgerSuppressed.detail 0) (s.obj oLedgerSuppressed)).1
  else s

/-- An event raised with a detail object and value of its own (R366, R431). -/
def State.raiseWith (s : State) (e : Ev) (cls : Nat) (dk : Option Nat) (detail : Nat) : State :=
  let before := s.obj oLedgerSuppressed
  let r := s.raiseOnce e cls dk detail
  let s := r.1.noteSuppressed before
  if r.2 then (s.raiseOnce .recordsLost 0 (Ev.recordsLost.detail 0) (s.obj oRecordsLostCount)).1 else s

/-- An event raised at class `cls`, its detail object that of Table 16-4 at port or input `n`. -/
def State.raiseAt (s : State) (e : Ev) (n cls : Nat) : State :=
  match e.detail n with
  | some k => s.raiseWith e cls (some k) (s.obj k)
  | none => s.raiseWith e cls none 0

/-- An event raised at its class of Table 16-4. -/
def State.raise (s : State) (e : Ev) : State := s.raiseAt e 0 e.cls

/-- A record posted to a completion queue, RECORDS_LOST raised at the first loss (R364). -/
def State.post (s : State) (q : QueueEntry) (kind : Nat) (body : Bytes) : State :=
  let r := s.postRecord q kind body
  if r.2 then r.1.raise .recordsLost else r.1

/-! ### CMD result words (R52, R367) -/

/-- A CMD object's result word: [31:16] status, [15:0] code. -/
def State.setResult (s : State) (k status code : Nat) : State :=
  s.setObj k (status * 65536 + code % 65536)

/-- The action of a CMD object is in progress. -/
def State.cmdRunning (s : State) (k : Nat) : Bool := s.obj k / 65536 == 1

/-- CMD_DONE, while its feature is agreed (R367). -/
def State.cmdEvent (s : State) (k : Nat) : State :=
  if bit (s.obj oFeaturesAgreed) 2 then
    s.raiseWith .cmdDone 0 none (k / 256 + (k % 256) * 2 ^ 16 + (s.obj k % 2 ^ 32) * 2 ^ 32)
  else s

/-- An action begun. -/
def State.cmdStart (s : State) (k : Nat) : State := s.setResult k 1 0

/-- An action done. -/
def State.cmdDone (s : State) (k : Nat) : State := (s.setResult k 2 0).cmdEvent k

/-- An action failed with a code. -/
def State.cmdFail (s : State) (k code : Nat) : State := (s.setResult k 3 code).cmdEvent k

/-! ### The abort codes of Table 02-8 -/

def abNoObject : Nat := 0x0101
def abNoSubindex : Nat := 0x0102
def abTypeMismatch : Nat := 0x0103
def abValueRange : Nat := 0x0104
def abBadPlace : Nat := 0x0105
def abBadMessage : Nat := 0x0106
def abReadOnly : Nat := 0x0201
def abWriteOnly : Nat := 0x0202
def abPlanAdmitted : Nat := 0x0203
def abNotDiag : Nat := 0x0204
def abLifeCycle : Nat := 0x0205
def abPathDenied : Nat := 0x0206
def abNotNegotiated : Nat := 0x0207
def abFeatureNotOffered : Nat := 0x0208
def abObjectBusy : Nat := 0x0301
def abFunctionDown : Nat := 0x0302
def abCmdInProgress : Nat := 0x0303
def abSegRequired : Nat := 0x0401
def abSegRange : Nat := 0x0402
def abSegIncomplete : Nat := 0x0403
def abSegCrc : Nat := 0x0404
def abBlobTooLarge : Nat := 0x0405
def abNoTransfer : Nat := 0x0406
def abSegCancelled : Nat := 0x0407
/-- Never sent: the model's management complex completes every access (assumption 82). -/
def abInternal : Nat := 0x0601
def abSignature : Nat := 0x0501

/-! ### The causes of a POISONED step (R387) -/

/-- A cause of POISONED with FAULT; `hold` when its rule forbids a replay (R387). -/
def State.poison (s : State) (hold : Bool) : State :=
  if s.admitted then
    { s with step := { s.step with fault := true, hold := s.step.hold || hold } }
  else s

/-- A step overflow (R204). -/
def State.poisonOverflow (s : State) : State :=
  if s.admitted then { s with step := { s.step with overflow := true } } else s

end Sys2Proof.Machine
end

