-- ==== Sys2Proof/Machine/Memory.lean ====
section
/-! DEFINITION. Bonded memory (chapter 11): the address decode, regions and their access rules, the
committed and shadow views, line protection and POISON marks, page retirement, patrol scrub and the
contents state. -/

namespace Sys2Proof.Machine

/-- The agents of Table 11-3 and LAST_DENIED, with the management complex, the integrity block and the
snapshot stream, which access regions of their own. -/
inductive Agent where
  | host | engine | granary | update | core | flow | ring | integrity | snapshot
deriving DecidableEq, Repr

/-- The agent code of 0x4040.02. -/
def Agent.code : Agent → Nat
  | .host => 0 | .engine => 1 | .granary => 2 | .update => 3 | .core => 4 | .flow => 5
  | .ring => 0 | .integrity => 0 | .snapshot => 5

/-- The top of the device address space (R263). -/
def memTop : Nat := 2 ^ 40

/-- The channel of a device address, 64 per stack (R263). -/
def channelOf (a : Nat) : Nat := bits a 39 1 * 64 + (bits a 12 6 ^^^ bits a 18 6)

/-- Whether a region kind has two halves (R272). -/
def twoHalves (kind : Nat) : Bool := kind == 1 || kind == 2

/-- The bytes that a region occupies (Table 11-3). -/
def Region.span (r : Region) : Nat := if twoHalves r.kind then 2 * r.len else r.len

/-- Whether `n` bytes from `a` lie inside the region. -/
def Region.holds (r : Region) (a n : Nat) : Bool :=
  decide (r.base ≤ a) && decide (a + n ≤ r.base + r.span)

/-- Whether an address lies in the shadow view (R272). -/
def Region.inShadow (r : Region) (a : Nat) : Bool := twoHalves r.kind && decide (r.base + r.len ≤ a)

/-- Whether Table 11-3 lets the agent write a region's kind at `a`. -/
def mayWrite (r : Region) (ag : Agent) (a : Nat) : Bool :=
  match r.kind with
  | 1 => r.inShadow a && (ag == .update || ag == .flow)
  | 2 => r.inShadow a && ag == .update
  | 3 => ag == .engine
  | 4 => ag == .engine || ag == .granary || ag == .update
  | 5 => ag == .host
  | 6 => ag == .flow
  | 7 => ag == .host || ag == .ring || ag == .granary
  | 8 => ag == .integrity
  | 9 => ag == .host
  | _ => false

/-- Whether Table 11-3 lets the agent read a region's kind. -/
def mayRead (r : Region) (ag : Agent) : Bool :=
  match r.kind with
  | 6 => ag == .host || ag == .snapshot
  | 8 => ag == .host
  | 9 => ag == .host
  | _ => decide (1 ≤ r.kind) && decide (r.kind ≤ 7)

/-- The regions that govern accesses: the plan's while one is admitted or being admitted (R269). -/
def State.regions (s : State) : List Region :=
  if s.planHeld then (match s.plan with | some p => p.regions | none => []) else []

/-- A region of the plan by number. -/
def State.region? (s : State) (n : Nat) : Option Region := s.regions.find? (fun r => r.num == n)

/-- The region that an address lies in. -/
def State.regionAt (s : State) (a : Nat) : Option Region := s.regions.find? (fun r => r.holds a 1)

/-- A region's COMMITTED bit (R272): 0 while a plan is being admitted, since admission makes H0 the committed
half; after the plan's end it stays as its last commit left it (R421). -/
def State.committedBit (s : State) (r : Region) : Nat :=
  b2n (s.planState != 2 && s.mem.committed.contains r.num)

/-- Whether an access is allowed (R269): every device address while no plan is held; otherwise one
region must hold it and Table 11-3 allow it. -/
def State.accessOk (s : State) (ag : Agent) (write : Bool) (a n : Nat) : Bool :=
  if s.planHeld then
    s.regions.any (fun r => r.holds a n && (if write then mayWrite r ag a else mayRead r ag))
  else decide (a + n ≤ memTop)

/-- The physical address of a device address: the views of a PARAM or OPT region map to its halves by
the COMMITTED bit while a plan is held (R272, R273). -/
def State.physAddr (s : State) (a : Nat) : Nat :=
  match s.regionAt a with
  | some r =>
    if twoHalves r.kind && s.committedBit r == 1 then
      (if r.inShadow a then a - r.len else a + r.len)
    else a
  | none => a

/-- The pieces of `n` bytes from `a` that each lie in one line: device address and length. -/
def linePieces : Nat → Nat → Nat → List (Nat × Nat)
  | 0, _, _ => []
  | k + 1, a, n =>
    if n = 0 then [] else
      let m := min n (64 - a % 64)
      (a, m) :: linePieces k (a + m) (n - m)

/-- The line pieces of an access. -/
def linesOf (a n : Nat) : List (Nat × Nat) := linePieces (n / 64 + 2) a n

/-- The denial of an access (R269): MEMORY_ACCESS_DENIED, class B and a POISONED step without replay,
or a report for a host access; nothing moves. -/
def State.deny (s : State) (ag : Agent) (write : Bool) (a : Nat) : State :=
  let s := s.bump oDeniedCount
  let s := s.setObj oLastDenied (a % 2 ^ 40 / 64 * 64 + b2n write * 2 ^ 40 + ag.code * 2 ^ 41)
  let s := s.setObj oLastDeniedStep s.stepTag
  if ag = .host then s.raiseAt .memoryAccessDenied 0 0
  else (s.poison true).raiseAt .memoryAccessDenied 0 2

/-- A sorted list with `x` in it once. -/
def insertSorted (x : Nat) : List Nat → List Nat
  | [] => [x]
  | y :: ys => if x < y then x :: y :: ys else if x = y then y :: ys else y :: insertSorted x ys

/-- The physical line marked. -/
def State.mark (s : State) (line : Nat) : State :=
  { s with mem := { s.mem with poison := insertSorted line s.mem.poison } }

/-- Bits inverted in the symbols of a stored physical line, 16 to a symbol (R265). The next read of the line meets
them. -/
def State.strikeLine (s : State) (line pattern : Nat) : State :=
  { s with mem := { s.mem with errors := Bank.set s.mem.errors 0 line (Bank.get s.mem.errors 0 line ^^^ pattern) } }

/-- Errors that strike stored lines. -/
def State.strike (s : State) (us : List Upset) : State :=
  us.foldl (fun s u => s.strikeLine (u.line.toNat % memTop / 64 * 64) (u.mask.toNat * 2 ^ (16 * u.symbol.val))) s

/-- A page's retirement (R268): copied to a spare page of its channel, or MEMORY_SPARES_OUT. -/
def State.retirePage (s : State) (page : Nat) : State :=
  if s.mem.copying.contains page then s else
    let ch := channelOf (page * 4096)
    let used := Bank.get s.mem.sparesUsed 0 ch
    if 64 ≤ used then s.raise .memorySparesOut
    else
      let s := { s with mem := { s.mem with copying := s.mem.copying ++ [page],
                                            sparesUsed := Bank.set s.mem.sparesUsed 0 ch (used + 1) } }
      let s := s.setObj oSparesLeftMin (min (s.obj oSparesLeftMin) (63 - used))
      s.bump oPagesRetired

/-- A corrected event (R266): counted; a second on one page within 24 h retires the page (R268). -/
def State.correctedEvent (s : State) (line : Nat) : State :=
  let s := s.bump oCorrectedCount
  let page := line / 4096
  let last := Bank.get s.mem.corrected 0 page
  let s := { s with mem := { s.mem with corrected := Bank.set s.mem.corrected 0 page (s.now + 1) } }
  if last ≠ 0 ∧ s.now + 1 - last ≤ 86400000000000 then s.retirePage page else s

/-- The agents of the first row of Table 11-1. -/
def Agent.worker : Agent → Bool
  | .engine | .granary | .update | .core | .flow => true
  | .host | .ring | .integrity | .snapshot => false

/-- The class and consequence of a marked line met by a reader (Table 11-1): class 0 report, 1 A, 2 B,
and whether SNAP_VALID is lost. -/
def markClass (r : Option Region) (a : Nat) (ag : Agent) : Nat × Bool :=
  match r with
  | none => (0, false)
  | some g =>
    if g.kind = 3 ∨ g.kind = 4 ∨ g.inShadow a then ((if ag.worker then 1 else 0), false)
    else if g.kind = 6 then (0, ag == .snapshot || ag == .host)
    else if g.kind = 8 ∨ g.kind = 9 then (0, false)
    else (2, false)

/-- MEMORY_UNCORRECTABLE at a line for a reader, with its consequence; for no reader (patrol scrub or
page copy) a report (R267). -/
def State.uncorrectable (s : State) (ag : Option Agent) (va line : Nat) : State :=
  let r := s.regionAt va
  let s := s.bump oUncorrectableCount
  let s := s.setObj oLastUncorrectable
    (line % 2 ^ 40 + (match r with | some g => g.num | none => 0xFFFF) * 2 ^ 48)
  match ag with
  | none => s.raiseAt .memoryUncorrectable 0 0
  | some g =>
    let c := markClass r va g
    let s := if c.1 ≠ 0 then s.poison (c.1 == 2) else s
    let s := s.raiseAt .memoryUncorrectable 0 c.1
    if c.2 then (s.setObj oSnapValid 0).raise .snapshotInvalid else s

/-- `n` free bytes (assumption 3). -/
def freeBytes : Nat → State → Bytes × State
  | 0, s => ([], s)
  | n + 1, s =>
    let r := s.fresh
    let t := freeBytes n r.2
    (BitVec.ofNat 8 r.1 :: t.1, t.2)

/-- Table 11-1 gives a consequence for a marked line at a device address and its reader; none for patrol scrub and the
page copy, and none outside the regions. -/
def State.markMatters (s : State) (ag : Option Agent) (va : Nat) : Bool :=
  match ag, s.regionAt va with
  | some g, some r =>
    if r.kind = 3 ∨ r.kind = 4 ∨ r.inShadow va then g.worker || g == .host
    else if r.kind = 6 then g == .snapshot || g == .host
    else if r.kind = 8 ∨ r.kind = 9 then g == .host
    else true
  | _, _ => false

/-- One line met by a read (R266, R267): `va` is its device address, `line` its physical line. A line marked before
is raised again only where Table 11-1 gives a consequence. The line is decoded: one or two symbols in error are
corrected and written back, and a word that only looks so is miscorrected; an error detected marks the line, whose
symbols stay as they are stored, raises at whatever reads it and retires its page. -/
def State.meetLine (s : State) (ag : Option Agent) (va line : Nat) : State :=
  let e := Bank.get s.mem.errors 0 line
  if s.marked line then (if s.markMatters ag va then s.uncorrectable ag va line else s)
  else if e = 0 then s
  else
    let w := storedWord (memRead s.mem.bytes line 64) e
    match decodeWord w with
    | .clean => (s.freshLine line).poke line (symbolBytes w)
    | .corrected w => ((s.freshLine line).poke line (symbolBytes w)).correctedEvent line
    | .detected =>
      let s := ((s.freshLine line).poke line (symbolBytes w)).mark line
      (s.uncorrectable ag va line).retirePage (line / 4096)

/-- The lines of an access met by a reader. -/
def State.meetLines (s : State) (ag : Agent) (ps : List (Nat × Nat)) : State :=
  ps.foldl (fun s p => s.meetLine (some ag) p.1 (s.physAddr p.1 / 64 * 64)) s

/-- Bytes read at physical addresses by an agent: each line decoded and met in the view that shows it (R266, R267). -/
def State.readPhys (s : State) (ag : Agent) (a n : Nat) : State × Bytes :=
  let s := (linesOf a n).foldl (fun (s : State) p => s.meetLine (some ag) (s.physAddr p.1) (p.1 / 64 * 64)) s
  (s, memRead s.mem.bytes a n)

/-- The outcome of a read: the bytes, whether it was denied, whether a line was marked. -/
structure Load where
  data : Bytes
  denied : Bool
  wasMarked : Bool

/-- A read by an agent (R266, R267, R269). -/
def State.load (s : State) (ag : Agent) (a n : Nat) : State × Load :=
  if s.accessOk ag false a n then
    let ps := linesOf a n
    let s := s.meetLines ag ps
    let m := ps.any (fun p => s.marked (s.physAddr p.1 / 64 * 64))
    (s, ⟨ps.foldl (fun acc p => acc ++ memRead s.mem.bytes (s.physAddr p.1) p.2) [], false, m⟩)
  else (s.deny ag false a, ⟨[], true, false⟩)

/-- The bytes of a write put in place, line by line: a part of a line is read, merged and written and
keeps its mark; a whole line clears it (R484, R267). -/
def State.storeLines (s : State) (ag : Agent) (a : Nat) (bs : Bytes) : State :=
  (linesOf a bs.length).foldl (fun s p =>
    let pa := s.physAddr p.1
    let part := (bs.drop (p.1 - a)).take p.2
    if p.2 = 64 then s.writeLine pa part
    else (s.meetLine (some ag) p.1 (pa / 64 * 64)).poke pa part) s

/-- A write by an agent (R269, R484); the flag says that it completes with an error: it was denied, or the host's met a
marked line in part (Table 11-1). -/
def State.store (s : State) (ag : Agent) (a : Nat) (bs : Bytes) : State × Bool :=
  if s.accessOk ag true a bs.length then
    let t := s.storeLines ag a bs
    (t, ag == .host && (linesOf a bs.length).any (fun p => p.2 != 64 && t.marked (t.physAddr p.1 / 64 * 64)))
  else (s.deny ag true a, true)

/-- A write by an agent, its denial already accounted for. -/
def State.storeBy (s : State) (ag : Agent) (a : Nat) (bs : Bytes) : State := (s.store ag a bs).1

/-- The digest of R419 over the little-endian 64-bit words of a view. -/
def regionDigest (bs : Bytes) : Nat :=
  let p := 2 ^ 61 - 1
  ((pieces64 bs).zipIdx.foldl (fun d e => (d + (e.1 % p) * 2 ^ (e.2 % 61)) % p) 0)
where
  /-- The 64-bit words of a byte string. -/
  pieces64 (bs : Bytes) : List Nat := (upto (bs.length / 8)).map (fun i => fieldLe bs (8 * i) 8)

/-- The commit swap of R23 and R273: every PARAM and OPT region's COMMITTED bit flips. -/
def State.swapHalves (s : State) : State :=
  match s.activePlan with
  | some p =>
    let two := (p.regions.filter (fun r => twoHalves r.kind)).map (fun r => r.num)
    { s with mem := { s.mem with committed := two.filter (fun n => !s.mem.committed.contains n) } }
  | none => s

/-! ### The commands of the memory -/

/-- PATROL_SCRUB (R275): in RUN and IDLE, with the memory served, the next line is read and corrected
under R266 unless a write holds it, as `beingWritten` says; the position moves on. A warm reset stops the scrub. -/
def execPatrolScrub (upsets : List Upset) (beingWritten : Bool) (s : State) :
    Host.Outcome State Fault Refusal :=
  let s := s.quiet.strike upsets
  let st := s.obj oPowerState
  if (st = 1 ∨ st = 2) ∧ s.obj oMemState ≠ 0 ∧ s.power.warmReset = none then
    let pos := s.obj oScrubPosition
    let s := if beingWritten then s else s.meetLine none pos pos
    let next := pos + 64
    if memTop ≤ next then
      .next ((((s.setObj oScrubPosition 0).bump oScrubPasses).setObj oLastPassEnd s.timeNow))
    else .next (s.setObj oScrubPosition next)
  else .next s

/-- PAGE_COPY_DONE (R268): the oldest page copy ends; its lines were read under R266, corrected ones
copied corrected and uncorrectable ones marked; the address is redirected to the spare page. -/
def execPageCopyDone (upsets : List Upset) (s : State) : Host.Outcome State Fault Refusal :=
  let s := s.quiet.strike upsets
  match s.mem.copying with
  | [] => .next s
  | page :: rest =>
    let s := (upto 64).foldl (fun s i =>
      let line := page * 4096 + 64 * i
      s.meetLine none line line) s
    .next { s with mem := { s.mem with copying := rest ++ (s.mem.copying.drop (rest.length + 1)),
                                       retired := insertSorted page s.mem.retired,
                                       corrected := Bank.set s.mem.corrected 0 page 0 } }

/-- ZEROING_DONE (R276, R277): every line is written as zero with valid check symbols and MEM_STATE
becomes VALID. -/
def execZeroingDone (s : State) : Host.Outcome State Fault Refusal :=
  let s := s.quiet
  if s.power.zeroing then
    let s := { s with power := { s.power with zeroing := false },
                      mem := { s.mem with bytes := [], poison := [], errors := [] } }
    .next (s.setObj oMemState 1)
  else .next s

/-- The action of MEM_VERIFIED (R277): RETAINED_UNVERIFIED becomes VALID; in any other state nothing
changes and the result shows done. -/
def State.actMemVerified (s : State) : State :=
  (if s.obj oMemState = 2 then s.setObj oMemState 1 else s).cmdDone oMemVerified

end Sys2Proof.Machine
end

