-- ==== Sys2Proof/Machine/Clear.lean ====
section
/-! DEFINITION. What the end of a plan, a class C or D fault, and the loss of a function leave: flows
closed, windows and shards IDLE, the plan LOADED, the step abandoned (R82, R413). -/

namespace Sys2Proof.Machine

/-- Every flow CLOSED (Table 14-5), every ring and its indices gone. -/
def State.closeFlows (s : State) : State :=
  ({ s with flows := [], rings := [] }.setObj oFlowsOpen 0)

/-- Every window IDLE, its contents discarded (Table 09-3). -/
def State.idleWindows (s : State) : State :=
  { s with windows := [], contribs := [], delivered := [] }

/-- Every shard IDLE (Table 10-7). -/
def State.idleShards (s : State) : State :=
  { s with shards := [], sums := [], delivered := [] }

/-- The objects that describe the admitted plan, back at their defaults. -/
def State.dropPlanObjects (s : State) : State :=
  [oPlanId, oQueuesDeclared, oEventQueue, oWindowsOwned, oShardsServed, oRegionCount, oTreeRoot,
    oTreeParentPort, oTreeChildren, oTreeDepth, oTreeCount, oRtMapTables, oMapNow, oStepNow,
    oStepBeatNow].foldl (fun s k => s.setObj k (objDefault k)) (s.setBlob oPlanDigest [])

/-- A JOB_START that waits for its beat fails when the plan ends first (R82). -/
def State.failJob (s : State) : State :=
  match s.step.jobAt with
  | some _ => ({ s with step := { s.step with jobAt := none } }).cmdFail oJobStart abValueRange
  | none => s

/-- A RELEASE that waits for its guard shows done (R82). -/
def State.doneRelease (s : State) : State :=
  if s.step.releaseWaiting then
    ({ s with step := { s.step with releaseWaiting := false } }).cmdDone oRelease
  else s

/-- A snapshot that streams is cut off: COMPLETE stays 0 (R418, R430). -/
def State.cutSnapshot (s : State) : State :=
  match s.step.snap with
  | some _ => { s with step := { s.step with snap := none } }.setObj oSnapState 3
  | none => s

/-- The buddy reports a snapshot that was cut off before it completed (R418). -/
def State.cutSnapIn (s : State) : State :=
  match s.step.snapIn with
  | some i =>
    if i.complete then { s with step := { s.step with snapIn := none } }
    else ({ s with step := { s.step with snapIn := none } }).raise .snapshotInvalid
  | none => s

/-- Every control core back in RESET, a FENCED one apart (Table 07-13). -/
def State.resetCores (s : State) : State :=
  (upto 16).foldl (fun s c => if s.obj (oCoreState c) = 4 then s else s.setObj (oCoreState c) 0)
    { s with cores := [] }

/-- The work of the plan on the engines abandoned (assumption 36). -/
def State.dropWork (s : State) : State :=
  { s with engines := [], merges := [], spent := [], verdicts := [], contribs := [] }.resetCores

/-- The end of the admitted plan: PLAN_STATE LOADED, windows and shards IDLE, flows closed, the step
abandoned; committed halves, the loss history and the memory stay (R82, R413). -/
def State.endPlan (s : State) : State :=
  if s.admitted then
    let s := s.cutSnapshot.cutSnapIn.failJob.doneRelease
    let s := s.idleWindows.idleShards.closeFlows.dropWork
    let s := s.setObj oPlanState 1
    let s := { s with prep := s.prep.map (fun (q : Prep) => { q with map := s.obj oMapNow % 255 }) }
    let s := s.dropPlanObjects
    { s with plan := none, step := StepSt.init,
             ports := Bank.mapAll s.ports PortSt.init (fun _ (p : PortSt) =>
               { p with resetSeen := false, overTx := false, overRx := false }) }
  else s

/-- A fault of class C ends the plan on this module (R413, Table 03-11). -/
def State.classC (s : State) : State := s.endPlan

/-! ### The loss of a function's state -/

/-- The 16 clusters' engines, buffers, tiles, planes and cores lost (R138, R161). -/
def State.clearCompute (s : State) : State :=
  { s with engines := [], merges := [], spent := [],
           verdicts := s.verdicts.filter (fun v => decide (3 ≤ v.kind)) }.resetCores

/-- One cluster's contents lost; cluster `c` counts die × 8 + cluster. -/
def State.clearCluster (s : State) (c : Nat) : State :=
  let s := { s with
    engines := s.engines.filter (fun e => e.1 / 12 != c),
    cores := s.cores.filter (fun e => e.1 != c),
    merges := s.merges.filter (fun m => m.die * 8 + m.cluster != c),
    verdicts := s.verdicts.filter (fun v => decide (3 ≤ v.kind) || v.die * 8 + v.unit / 12 != c) }
  if s.obj (oCoreState c) = 4 then s else s.setObj (oCoreState c) 0

/-- The optical groups outside the keeper lost: every transmit ring PARKED, every local lane out of use,
the requests of the laser control gone (R288, Table 16-8). -/
def State.clearOptics (s : State) : State :=
  { s with
    micro := s.micro.filter (fun e => decide (192 ≤ e.1)),
    ports := Bank.mapAll s.ports PortSt.init (fun _ (p : PortSt) =>
      { p with useTx := 0, useRx := 0, joinTx := 0, joinRx := 0, badTx := 0, badRx := 0 }),
    lasers := Bank.mapAll s.lasers LaserSt.init (fun _ (l : LaserSt) => { l with next := none, low := false }),
    lsc := [] }

/-- The routers, the link layer's queues and buffers emptied. -/
def State.clearRouters (s : State) : State := { s with router := [], txLinks := [], rxLinks := [] }

/-- The routers and link buffers of one die lost: its packets, and the links of its ports (R335). -/
def State.clearRouter (s : State) (die : Nat) : State :=
  { s with router := s.router.filter (fun r => r.die != die), txLinks := s.txLinks.filter (fun e => e.1 / 8 / 12 != die),
           rxLinks := s.rxLinks.filter (fun e => e.1 / 8 / 12 != die) }

/-- The mailboxes whose receiver lies in a function (R370): all of them, registers zero. -/
def State.clearMailboxes (s : State) : State := { s with mailboxes := [] }.setObj oMbStates 0

/-- The volatile state of a function lost (R33, R425, Table 16-8). -/
def State.clearFn (s : State) (f : Fn) : State :=
  let s := s.dropObjects [.v] [f]
  match f with
  | .compute => (((s.setBlob oSteProgram []).setBlob oSteOutput []).setObj oSteStart 0).clearCompute
  | .fabric => s.idleWindows.closeFlows.clearRouters
  | .update => s.idleShards
  | .optics => s.clearOptics
  | .mgmt => s | .timebase => s | .memory => s | .selftest => s

end Sys2Proof.Machine
end

