-- ==== Sys2Proof/Machine/Domains.lean ====
section
/-! DEFINITION. The power domains and their states (R433, R434), which functions they carry (R36), the
current beat program, and the wake governor (R438, R439). -/

namespace Sys2Proof.Machine

/-- DOMAIN_STATE values (0x8020). -/
def domOff : Nat := 0
def domWaking : Nat := 1
def domOn : Nat := 2
def domGated : Nat := 3
def domCapped : Nat := 4

/-- The state of a domain. -/
def State.dom (s : State) (d : Nat) : Nat := s.obj (oDomainState d)

/-- The state of a domain replaced. -/
def State.setDom (s : State) (d v : Nat) : State := s.setObj (oDomainState d) v

/-- Every domain of a list set to one state. -/
def State.setDoms (s : State) (ds : List Nat) (v : Nat) : State := ds.foldl (fun s d => s.setDom d v) s

/-- The engine-cluster domains. -/
def isCluster (d : Nat) : Bool := decide (d < 8) || (decide (12 ≤ d) && decide (d ≤ 19))

/-- The domains that a plan may gate (Table 17-1). -/
def gateable (d : Nat) : Bool := isCluster d || d == 10 || d == 22

/-- The domains on 48 V. -/
def domains48 : List Nat := (upto 50).filter (fun d => d != 39 && d != 40)

/-- The domains that stay on in DOZE (R435). -/
def dozeDomains : List Nat := [36, 37, 38, 39, 40, 41, 45, 46, 47, 48, 49]

/-- The domains that stay on in KEEP and READY_OFF (R435). -/
def keepDomains : List Nat := [36, 37, 38, 39, 40, 46, 47, 48, 49]

/-- The domains that a warm reset leaves on (Table 17-5). -/
def resetDomains : List Nat := [36, 37, 38, 39, 40, 41, 46, 47, 48, 49]

/-- The domains that THERMAL_STOP switches off (Table 17-4). -/
def stopDomains : List Nat := upto 11 ++ (upto 11).map (fun i => i + 12)

/-- The domains that carry a function. -/
def fnDomains : Fn → List Nat
  | .mgmt => [39]
  | .timebase => [38]
  | .compute => [0, 1, 2, 3, 4, 5, 6, 7, 12, 13, 14, 15, 16, 17, 18, 19]
  | .fabric => [11, 23]
  | .optics => (upto 12).map (fun i => i + 24)
  | .update => [10, 22]
  | .memory => [8, 9, 20, 21, 46, 47, 48, 49]
  | .selftest => [44]

/-- The function code of REINIT (R425). -/
def fnOfCode (c : Nat) : Option Fn :=
  match c with
  | 1 => some .compute | 2 => some .fabric | 3 => some .optics | 4 => some .update | _ => none

/-- Whether a function is powered: its domains on, gated by the plan or switched off by their own
current limit where the function goes on without them. -/
def State.fnPowered (s : State) (f : Fn) : Bool :=
  match f with
  | .mgmt => s.power.boot == .image || s.power.boot == .recovery
  | .compute => (fnDomains f).all (fun d => decide (2 ≤ s.dom d))
  | .update => (fnDomains f).all (fun d => decide (2 ≤ s.dom d))
  | .timebase => (fnDomains f).all (fun d => s.dom d == domOn)
  | .fabric => (fnDomains f).all (fun d => s.dom d == domOn)
  | .optics => (fnDomains f).all (fun d => s.dom d == domOn)
  | .memory => (fnDomains f).all (fun d => s.dom d == domOn)
  | .selftest => (fnDomains f).all (fun d => s.dom d == domOn)

/-- Whether a function is powered off, in reset or being re-initialised (R36, R403). -/
def State.fnDown (s : State) (f : Fn) : Bool :=
  !s.fnPowered f ||
  (match s.power.reinit with | some r => fnOfCode r.fn == some f | none => false) ||
  (s.obj oSafe != 0 && (f == .compute || f == .update))

/-- The keeper runs: its domain is on. -/
def State.keeperOn (s : State) : Bool := s.dom 36 == domOn

/-- The beat program at the step's position (R70). -/
def State.program? (s : State) : Option Program :=
  if s.step.running then
    s.activePlan.bind (fun p => (p.stepList[s.obj oStepBeatNow]?).bind (fun i => p.programs[i]?))
  else none

/-- The WAKE items of the current program as wakes yet to come, at their moments. -/
def State.plannedWakes (s : State) : List WakeStarted :=
  match s.program? with
  | some p =>
    ((p.items.filter (fun i => i.kind == 0x09)).map (fun i =>
      (⟨s.now - s.bell.off + 2000 + i.a, i.unit⟩ : WakeStarted))).filter
      (fun w => decide (s.now ≤ w.at_) && !s.power.started.contains w)
  | none => []

/-- Whether both limits of R438 hold for every 1 µs interval that contains `t` when domain `d` starts
to wake then. -/
def wakeFits (ws : List WakeStarted) (d t : Nat) : Bool :=
  let starts := t :: (ws.map (fun w => w.at_)).filter (fun x => decide (x ≤ t) && decide (t < x + 1000))
  starts.all (fun x =>
    let inside := ws.filter (fun w => decide (x ≤ w.at_) && decide (w.at_ < x + 1000))
    decide (inside.foldl (fun a w => a + domTokens w.domain) (domTokens d) ≤ 150) &&
    decide ((inside.filter (fun w => isCluster w.domain)).length + b2n (isCluster d) ≤ 2))

/-- The least of a list of numbers, `d` when it is empty. -/
def leastOr (d : Nat) (xs : List Nat) : Nat :=
  match xs with
  | [] => d
  | x :: rest => rest.foldl min x

/-- The earliest moment from `t` on at which domain `d` may start to wake (R439). -/
def earliestWake (ws : List WakeStarted) (d t : Nat) : Nat :=
  let cands := (t :: ws.map (fun w => w.at_ + 1000)).filter (fun x => decide (t ≤ x))
  leastOr (ws.foldl (fun a w => max a (w.at_ + 1000)) t) (cands.filter (fun x => wakeFits ws d x))

/-- A domain's wake starts now: WAKING until its latency has passed. -/
def State.startWake (s : State) (d : Nat) : State :=
  let s := s.setDom d domWaking
  { s with power := { s.power with
      waking := s.power.waking.filter (fun w => w.domain != d) ++ [⟨d, s.now + domLatency d⟩],
      started := (s.power.started.filter (fun w => decide (s.now ≤ w.at_ + 1000))) ++ [⟨s.now, d⟩] } }

/-- Requests, in order of domain number, for the wake of domains that are not on (R439). -/
def State.requestWakes (s : State) (ds : List Nat) : State :=
  let new := (ds.filter (fun d => s.dom d != domOn && s.dom d != domWaking &&
    !(s.power.requests.any (fun r => r.domain == d)))).map (fun d => WakeRequest.mk d s.now)
  { s with power := { s.power with requests := s.power.requests ++ new } }

/-- RUN or IDLE by whether a gateable domain is gated (Table 17-2): no event. -/
def State.settleIdle (s : State) : State :=
  let st := s.obj oPowerState
  if st = 1 ∨ st = 2 then
    s.setObj oPowerState (if (upto 50).any (fun d => gateable d && s.dom d == domGated) then 2 else 1)
  else s

/-- Domains that a plan left gated are woken when it ends (assumption 10). -/
def State.wakeGated (s : State) : State :=
  (s.requestWakes ((upto 50).filter (fun d => s.dom d == domGated))).settleIdle

end Sys2Proof.Machine
end

