-- ==== Sys2Proof/Machine/Timebase.lean ====
section
/-! DEFINITION. The bell count (R58 to R63, R481): timing exchanges, the states of Table 03-1, steering
and stepping, ROOT_SET, the time role and the beat length change; and the stated coolant (R67). -/

namespace Sys2Proof.Machine

/-- BELL_STATE values (0x2000.02). -/
def bellUnlocked : Nat := 0
def bellAcquiring : Nat := 1
def bellLocked : Nat := 2
def bellHoldover : Nat := 3
def bellRoot : Nat := 4

/-- The bell count is locked in ROOT and LOCKED only (R60). -/
def State.bellIsLocked (s : State) : Bool :=
  s.obj oBellState == bellRoot || s.obj oBellState == bellLocked

/-- The class of a port's link (Table 13-4); 2 is MATCH. -/
def State.linkClass (s : State) (p : Nat) : Nat := bits (s.obj (oLinkClass p)) 0 8

/-- The parent port in use. -/
def State.parentPort (s : State) : Nat :=
  if s.bell.useAlt then s.obj oTimeAltPort else s.obj oTimeParentPort

/-- The bell count left for ACQUIRING: BELL_UNLOCKED, class C with a plan admitted (R60, R61). -/
def State.unlock (s : State) : State :=
  let wasLocked := s.obj oBellState == bellLocked
  let s := if wasLocked then s.bump oLockLossCount else s
  let s := s.setObj oBellState bellAcquiring
  let s := { s with bell := { s.bell with good := 0, bad := 0, holdGood := 0 } }
  if s.admitted then (s.raiseAt .bellUnlocked 0 3).classC else s.raiseAt .bellUnlocked 0 0

/-- LOCKED to HOLDOVER: the parent switches to the alternate port when that port has valid exchanges
(Table 03-1). The table does not say when a port has them: here, when one came within the last 1 ms as HOLDOVER is
entered; and a later loss on the alternate switches back (DESIGN CHOICE: assumption 87). -/
def State.holdover (s : State) : State :=
  let s := (s.bump oLockLossCount).setObj oBellState bellHoldover
  let alt := if s.bell.useAlt then s.obj oTimeParentPort else s.obj oTimeAltPort
  let altOk := decide (alt < 24) && decide (s.bell.altValid ≠ 0) &&
    decide (s.now ≤ s.bell.altValid + 1000000)
  let s := { s with bell := { s.bell with holdSince := s.now, holdGood := 0, bad := 0,
                                          useAlt := if altOk then !s.bell.useAlt else s.bell.useAlt } }
  s.raise .bellHoldover

/-- Twice the offset of an exchange in ps: ((t2 − t1) − (t4 − t3)) − a (R58). -/
def exchangeTwice (x : TimingExchange) (a : Int) : Int :=
  (Int.ofNat x.t2.toNat - Int.ofNat x.t1.toNat) - (Int.ofNat x.t4.toNat - Int.ofNat x.t3.toNat) - a

/-- The offset of an exchange, ps, halves cut toward zero (assumption 7). -/
def exchangeOffset (x : TimingExchange) (a : Int) : Int := Int.tdiv (exchangeTwice x a) 2

/-- The path delay of an exchange, ps (R58). -/
def exchangeDelay (x : TimingExchange) : Int :=
  Int.tdiv ((Int.ofNat x.t2.toNat - Int.ofNat x.t1.toNat) +
    (Int.ofNat x.t4.toNat - Int.ofNat x.t3.toNat)) 2

/-- An integer as the nearest I32 field (assumption 7). -/
def i32Of (x : Int) : Nat := ofSigned 32 (clampInt (2 ^ 31 - 1) x)

/-- The count stepped at once by the whole offset (R481). -/
def State.stepCount (s : State) (offset : Int) : State :=
  let ns := s.beatNs
  let ps := (Int.ofNat (s.bell.beat * ns + s.bell.off)) * 1000 + s.bell.fracPs - offset
  let t := (ps / 1000).toNat
  { s with bell := { s.bell with beat := t / ns, off := t % ns, fracPs := ps % 1000, steerPs := 0 } }

/-- The correction of the count after an exchange (R481): a step only in ACQUIRING with no plan
admitted and |offset| above 100 ns, otherwise steering. -/
def State.correct (s : State) (offset : Int) : State :=
  if s.obj oBellState = bellAcquiring ∧ s.admitted = false ∧ 100000 < offset.natAbs then
    s.stepCount offset
  else { s with bell := { s.bell with steerPs := -offset } }

/-- Whether an exchange is valid (R59): parent depth below 8 and the child's beat length. -/
def exchangeValid (s : State) (x : TimingExchange) : Bool :=
  decide (x.depth.toNat < 8) && x.beatUs.toNat == s.obj oBeatLengthUs

/-- A valid exchange from the parent, after its offset is known: the counters and rows of Table 03-1. The exchange
that leaves UNLOCKED counts as the first of ACQUIRING's 64 (DESIGN CHOICE: assumption 87). -/
def State.validExchange (s : State) (offset : Int) (depth : Nat) : State :=
  let m := offset.natAbs
  let st := s.obj oBellState
  let s := { s with bell := { s.bell with lastValid := s.now } }
  let s := s.setObj oBellDepth (depth + 1)
  if st = bellUnlocked then
    { s.setObj oBellState bellAcquiring with
      bell := { s.bell with good := if m ≤ 2000 then 1 else 0, bad := 0 } }.correct offset
  else if st = bellAcquiring then
    let g := if m ≤ 2000 then s.bell.good + 1 else 0
    let s := ({ s with bell := { s.bell with good := g } }).correct offset
    if 64 ≤ g then
      ({ s.setObj oBellState bellLocked with bell := { s.bell with good := 0, bad := 0 } }).raise
        .bellLocked
    else s
  else if st = bellLocked then
    let b := if 4000 < m then s.bell.bad + 1 else 0
    let s := ({ s with bell := { s.bell with bad := b } }).correct offset
    if 4 ≤ b then s.unlock else s
  else if st = bellHoldover then
    let g := if m ≤ 2000 then s.bell.holdGood + 1 else 0
    let s := ({ s with bell := { s.bell with holdGood := g } }).correct offset
    if 4 ≤ g then
      { s.setObj oBellState bellLocked with bell := { s.bell with holdGood := 0, bad := 0 } }
    else s
  else s

/-- An exchange that R59 makes invalid: LOCKED and HOLDOVER are left at once, ACQUIRING stays. Its offset neither
steps nor steers the count, since an invalid exchange gives no time to follow (DESIGN CHOICE: assumption 87). -/
def State.invalidExchange (s : State) : State :=
  let st := s.obj oBellState
  if st = bellLocked ∨ st = bellHoldover then s.unlock
  else { s with bell := { s.bell with good := 0 } }

/-- A hardware timestamp of the bell count: the TIME value, and above it the tenths of a nanosecond (R58). -/
def State.stamp (s : State) : Nat := s.timeNow + 2 ^ 96 * (s.bell.fracPs / 100).toNat

/-- A TIME frame has come on a port: when, and its receive timestamp, which the next frame sent there carries. -/
def State.hear (s : State) (p : Nat) : State :=
  { s with bell := { s.bell with heard := Bank.put s.bell.heard p (s.now, s.stamp) } }

/-- TIME (R58, R59, R481): an exchange received on a port. The port's measured offset is shown in
0x2040; on the parent port of a follower it drives the bell count. A link in QUARANTINE carries none (R330). -/
def execTimeExchange (port : Port) (x : TimingExchange) (s : State) :
    Host.Outcome State Fault Refusal :=
  let s := s.quiet
  let p := port.val
  if s.linkClass p ≠ 2 then .next s else
  let s := s.hear p
  let off := exchangeOffset x (toSigned 32 (s.obj (oAsymmetryPs p)))
  let s := s.setObj (oPortOffsetPs p) (i32Of off)
  if s.obj oTimeRole = 2 ∧ p = s.parentPort then
    let s := s.setObj oBellOffsetPs (i32Of off)
    let s := s.setObj oBellPathDelayPs (satNat 32 (exchangeDelay x).toNat)
    if exchangeValid s x then .next (s.validExchange off x.depth.toNat) else .next s.invalidExchange
  else if s.obj oTimeRole = 2 ∧ (p = s.obj oTimeAltPort ∨ p = s.obj oTimeParentPort) then
    (if exchangeValid s x then .next { s with bell := { s.bell with altValid := s.now } } else .next s)
  else .next s

/-- The body of a TIME frame that this module sends on a port: its timestamp, the receive timestamp of the last frame
that came there, its depth and its beat length (R58, R59; the manual gives no layout, assumption 8). -/
def timeBody (s : State) (p : Nat) : Bytes :=
  natLe 13 s.stamp ++ natLe 13 (Bank.get s.bell.heard (0, 0) p).2 ++ natLe 1 (s.obj oBellDepth) ++
    natLe 2 (s.obj oBeatLengthUs)

/-- The links on which this module takes part in timing exchanges, both ends sending (R58): a follower's parent port and
its alternate, and every port on which a child's frame came in the last 1 ms; none in QUARANTINE (R330). That a port
with frames of its own has a child is assumption 8. -/
def State.timePorts (s : State) : List Nat :=
  (upto 24).filter (fun p => s.linkClass p == 2 &&
    ((s.obj oTimeRole == 2 && (p == s.obj oTimeParentPort || p == s.obj oTimeAltPort)) ||
      s.bell.heard.any (fun e => e.1 == p && decide (s.now ≤ e.2.1 + 1000000))))

/-- TIME_SEND (R58): every 250 µs a module sends its side of the exchange to its parent and to its children. -/
def execTimeSend (s : State) : Host.Outcome State Fault Refusal :=
  let s := s.quiet
  if s.fnDown .timebase then .next s
  else
    let s := s.advanceTo (s.bell.lastSend + 250000)
    let s := { s with bell := { s.bell with lastSend := s.now } }
    .next { s with out := s.out ++ s.timePorts.map (fun p => .frame p (frameBytes 0x02 none (timeBody s p))) }

/-- BELL_HOLDOVER (R60): no valid exchange from the parent for 1 ms moves LOCKED to HOLDOVER. -/
def execBellHoldover (s : State) : Host.Outcome State Fault Refusal :=
  let s := s.quiet
  if s.obj oBellState = bellLocked then .next (s.advanceTo (s.bell.lastValid + 1000000)).holdover
  else .next s

/-- HOLDOVER_LIMIT (R60, R61): holdover longer than the limit returns the count to ACQUIRING. -/
def execHoldoverLimit (s : State) : Host.Outcome State Fault Refusal :=
  let s := s.quiet
  if s.obj oBellState = bellHoldover then
    .next (s.advanceTo (s.bell.holdSince + s.obj oHoldoverLimitUs * 1000 + 1)).unlock
  else .next s

/-- Loss of lane C on a port: when it is the parent's, LOCKED goes to HOLDOVER (Table 03-1). -/
def State.parentLost (s : State) (p : Nat) : State :=
  if s.obj oBellState = bellLocked ∧ p = s.parentPort then s.holdover else s

/-- A write of TIME_ROLE (R60): a value other than the one in force returns the count to UNLOCKED. -/
def State.actTimeRole (s : State) (v : Nat) : State :=
  if v = s.obj oTimeRole then s else
    let s := if s.obj oBellState = bellLocked then s.bump oLockLossCount else s
    let s := s.setObj oTimeRole v
    let s := (s.setObj oBellState bellUnlocked).setObj oBellDepth (if v = 1 then 0 else 0xFF)
    { s with bell := { s.bell with rootSet := false, good := 0, bad := 0, holdGood := 0,
                                   steerPs := 0, useAlt := false } }

/-- A write of ROOT_SET (R62): sets the root's count at once; PLAN_ADMITTED with a plan admitted,
VALUE_RANGE on a module that is not root. -/
def State.actRootSet (s : State) (v : Nat) : State :=
  if s.admitted then s.cmdFail oRootSet abPlanAdmitted
  else if s.obj oTimeRole ≠ 1 then s.cmdFail oRootSet abValueRange
  else
    let s := { s with bell := { s.bell with beat := bits v 0 64, off := bits v 64 32, fracPs := 0,
                                            steerPs := 0, rootSet := true } }
    let s := if s.obj oBellState = bellUnlocked then s.setObj oBellState bellRoot else s
    s.cmdDone oRootSet

/-- The beat length change of R63, when the boundary just reached is the beat named. -/
def State.changeBeat (s : State) : State :=
  if s.obj oBeatChangeAt ≠ 0 ∧ s.bell.beat = s.obj oBeatChangeAt then
    (s.setObj oBeatLengthUs (s.obj oBeatLengthNext)).setObj oBeatChangeAt 0
  else s

/-! ### The coolant (R67) -/

/-- A rational as binary32, rounded to nearest even. -/
def ratioF32 (neg : Bool) (num den : Nat) : Nat :=
  let m := num * 2 ^ 200 / den
  (fmtFp32.round neg m (-200) (num * 2 ^ 200 % den != 0) .rne 0).bits

/-- An exact value times an integer ratio, as a pair of a signed numerator and a denominator. -/
def exRatio (x : Ex) (num den : Nat) : Int × Nat :=
  if 0 ≤ x.e then (x.n * Int.ofNat (2 ^ x.e.toNat) * Int.ofNat num, den)
  else (x.n * Int.ofNat num, den * 2 ^ (-x.e).toNat)

/-- The sign of a value: 0 for zero and for what is no number. -/
def FVal.sign : FVal → Int
  | .nan => 0
  | .inf neg => if neg then -1 else 1
  | .num neg m _ => if m = 0 then 0 else if neg then -1 else 1

/-- The sign of 44 − T. -/
def coolerSign (inlet : FVal) : Int :=
  match inlet with
  | .num st mt et => (Ex.add ⟨44, 0⟩ (Ex.neg (FVal.toEx (.num st mt et)))).n.sign
  | t => -t.sign

/-- POWER_ALLOWED_W = min(3,000, 69.7 × F × (44 − T)), rounded once to binary32 (R67, assumption 9); an infinite product
is 3,000 or −Inf by its sign; none when a stated value is no number or the product is Inf times 0. -/
def powerAllowed (flow inlet : Nat) : Option Nat :=
  match fmtFp32.decode flow, fmtFp32.decode inlet with
  | .num sf mf ef, .num st mt et =>
    let p := Ex.mul (FVal.toEx (.num sf mf ef)) (Ex.add ⟨44, 0⟩ (Ex.neg (FVal.toEx (.num st mt et))))
    let r := exRatio p 697 10
    if Int.ofNat (3000 * r.2) ≤ r.1 then some (fmtFp32.ofInt 3000)
    else some (ratioF32 (decide (r.1 < 0)) r.1.natAbs r.2)
  | .nan, _ => none
  | _, .nan => none
  | f, t =>
    match f.sign * coolerSign t with
    | 0 => none
    | .ofNat _ => some (fmtFp32.ofInt 3000)
    | .negSucc _ => some 0xFF800000

/-- A stated coolant value (R67): both stated gives COOLANT_STATED and POWER_ALLOWED_W; a stated value
that is no number leaves POWER_ALLOWED_W free (assumption 9). -/
def State.actCoolant (s : State) (isFlow : Bool) (v : Nat) : State :=
  let s := if isFlow then s.setObj oCoolantFlowLpm v else s.setObj oCoolantInletC v
  let c := s.power.coolant ||| (if isFlow then 2 else 1)
  let s := { s with power := { s.power with coolant := c } }
  if c = 3 then
    let s := s.setObj oCoolantStated 1
    match powerAllowed (s.obj oCoolantFlowLpm) (s.obj oCoolantInletC) with
    | some w => s.setObj oPowerAllowedW w
    | none => let r := s.fresh; r.2.setObj oPowerAllowedW (r.1 % 2 ^ 32)
  else s

end Sys2Proof.Machine
end

