-- ==== Sys2Proof/Machine/Power.lean ====
section
/-! DEFINITION. Power states, the wake governor's decisions, junction temperature, resets, power-up and
boot, and the hardware's current limits (chapter 17), with the pins and supplies of chapter 18. -/

namespace Sys2Proof.Machine

/-! ### Pins -/

/-- ALERT_N is asserted (R461). -/
def State.alert (s : State) : Bool :=
  s.obj oPowerState == 5 || s.obj oSafe != 0 || s.obj oThermalState != 0 ||
  decide (s.power.mv48 < 40000) || decide (60000 < s.power.mv48)

/-- The 48 V input is in range (R464). -/
def State.inRange48 (s : State) : Bool := decide (40000 ≤ s.power.mv48) && decide (s.power.mv48 ≤ 60000)

/-! ### Power states -/

/-- POWER_STATE changed, with its event unless the change is between RUN and IDLE (R435). -/
def State.setPowerState (s : State) (v : Nat) : State :=
  let old := s.obj oPowerState
  let s := s.setObj oPowerState v
  if old = v ∨ (old = 1 ∧ v = 2) ∨ (old = 2 ∧ v = 1) then s else s.raise .powerStateChanged

/-- Every data lane out of use. -/
def State.darkLanes (s : State) : State :=
  { s with ports := Bank.mapAll s.ports PortSt.init (fun _ (p : PortSt) =>
      { p with useTx := 0, useRx := 0, joinTx := 0, joinRx := 0 }) }

/-- Entry into SAFE with its cause, once (R403, Table 16-10): compute and update held in reset, every data gate closed. -/
def State.enterSafe (s : State) (cause : Nat) : State :=
  let entered := s.obj oSafe == 0
  let s := if entered then s.setObj oSafe cause else s
  let s := (upto 24).foldl (fun (s : State) p => s.setObj (oDataGate p) 0) s.darkLanes
  if entered then s.raise .safeEntered else s

/-- A class D fault: the plan is lost and the module enters SAFE (R407, R403). -/
def State.classD (s : State) : State := s.endPlan.wakeGated.enterSafe 2

/-- A class C fault: the plan goes to LOADED (R413). -/
def State.faultC (s : State) : State := s.classC.wakeGated

/-- A firmware copy that the always-on domains cut off leaves the image damaged (Tables 17-12, 18-6). -/
def State.cutCopy (s : State) : State :=
  if s.power.copying then
    { s with power := { s.power with copying := false, flash := { s.power.flash with good := false } } }
  else s

/-- A self-test that a power event or a reset cuts off records INCOMPLETE (R400). -/
def State.cutActions (s : State) : State :=
  if s.power.selfTest || s.power.selfTestStart then
    { s.setObj oStResult 4 with power := { s.power with selfTest := false, selfTestStart := false } }
  else s

/-- Every 48 V domain off: retention K, D and V lost, memory lost, circuits dark, the bell count lost,
the plan lost (Table 17-6, power loss row). POWER_STATE becomes OFF. -/
def State.powerOff (s : State) : State :=
  let was := s.obj oPowerState
  let orderly := was == 5
  let s := s.cutActions
  let s := if orderly then s else s.setObj oLastShutdownOrderly 0
  let s := s.endPlan
  let s := ((s.clearFn .compute).clearFn .fabric).clearFn .update
  let s := (s.clearFn .optics).clearMailboxes
  let s := s.dropObjects [.k, .d, .v] allFns
  let s := { s with
    bell := Bell.init, plan := none, admitting := none, deferred := [],
    step := StepSt.init, events := [],
    ledger := { s.ledger with ring := [] },
    mem := { MemSt.init with
      retired := s.mem.copying.foldl (fun xs p => insertSorted p xs) s.mem.retired,
      sparesUsed := s.mem.sparesUsed },
    ports := [], micro := [], settings := [], lasers := [], lsc := [], prep := none, xrClear := false,
    captures := [], digesting := none, keeper := none,
    power := { s.power with
      powerUp := none, zeroing := false, selfTestStart := false, warmReset := none,
      resetHeld := none, requests := [], started := [], waking := [], thermalHeld := false,
      coolSince := none, noticeArmed := true, reinit := none, shutdown := false, selfTest := false,
      staged := if s.power.copying then s.power.staged else none, coolant := 0 } }
  let s := if s.power.aux then (s.setDom 39 domOn).setDom 40 domOn else s
  let s := s.setObj oInputMv s.power.mv48
  if was = 0 then s else s.raise .powerStateChanged

/-- A loss of power that is no orderly shutdown, whatever state it meets (R464, R465, R440). -/
def State.powerLost (s : State) : State := (s.setObj oLastShutdownOrderly 0).powerOff

/-- The management complex starts again: open transfers, kept responses and the MCTP endpoint's state
are gone, and the boot ROM verifies the image (R443, R444). -/
def State.restartMgmt (s : State) : State :=
  let s := s.dropObjects [.v] [.mgmt]
  { s with inBand := PathSt.init, outOfBand := PathSt.init,
           mctp := { MctpSt.init with nonces := s.mctp.nonces },
           power := { s.power with boot := if s.power.aux then .verifying else .off } }

/-- The moments of Table 17-7 at which each domain starts to wake, in ns from the PWR_EN rise. -/
def wakeOffset (d : Nat) : Nat :=
  if d = 41 then 10000000
  else if 36 ≤ d ∧ d ≤ 38 then 12000000
  else if (46 ≤ d ∧ d ≤ 49) ∨ d = 8 ∨ d = 9 ∨ d = 20 ∨ d = 21 ∨ d = 42 ∨ d = 43 then 14000000
  else if isCluster d then 16000000 + (if d < 8 then d else d - 4) / 2 * 1000
  else if d = 10 ∨ d = 22 then 16008000
  else 15000000

/-- The slot binding of one die at power-on or after a DISABLE write (R130): `bad` holds the physical
indices that DISABLE or the self-test names. The spares are 80, 81 (ME-S) and 98, 99 (ME-N). -/
def bindSlots (bad : Nat → Bool) : List Nat :=
  ((upto 96).foldl (fun (acc : List Nat × List Nat) e =>
    let home := homeIndex e
    if !bad home then (acc.1 ++ [home], acc.2)
    else
      let cls := if e % 12 < 10 then [80, 81] else [98, 99]
      match (cls.filter (fun x => !bad x && !acc.2.contains x)) with
      | x :: _ => (acc.1 ++ [x], acc.2 ++ [x])
      | [] => (acc.1 ++ [0xFF], acc.2)) ([], [])).1

/-- Keys of one die's slot map, physical states and spares (Table 06-13). -/
def oSlotMap (die e : Nat) : Nat := if die = 0 then oSlotMapD0 e else oSlotMapD1 e
def oPhysState (die i : Nat) : Nat := if die = 0 then oPhysStateD0 i else oPhysStateD1 i
def oStrikes (die e : Nat) : Nat := if die = 0 then oStrikesD0 e else oStrikesD1 e
def oDisable (die : Nat) : Nat := if die = 0 then oDisableD0 else oDisableD1

/-- Whether the last self-test recorded a physical engine as failing (R399): an ST_REPORT entry of unit
kind 1. -/
def stFailed (report : Bytes) (kind die index : Nat) : Bool :=
  (upto (report.length / 8)).any (fun i =>
    fieldLe report (8 * i + 1) 1 == kind && fieldLe report (8 * i + 2) 1 % 2 == die &&
    fieldLe report (8 * i + 3) 1 == index)

/-- An unbound spare that may take a slot: 1 SPARE, and not among the failures of the last self-test (R130). -/
def State.spareFree (s : State) (die i : Nat) : Bool :=
  s.obj (oPhysState die i) == 1 && !stFailed (s.blob oStReport) 1 die i

/-- The spares of a class left on a die, shown in 0x3000.02 to 05. -/
def State.countSpares (s : State) (die : Nat) : State :=
  let free := fun (xs : List Nat) => (xs.filter (s.spareFree die)).length
  if die = 0 then (s.setObj oSpareSLeftD0 (free [80, 81])).setObj oSpareNLeftD0 (free [98, 99])
  else (s.setObj oSpareSLeftD1 (free [80, 81])).setObj oSpareNLeftD1 (free [98, 99])

/-- DEGRADED shown while some slot has no engine, and raised when one first has none (R130, R153). -/
def State.showDegraded (s : State) : State :=
  let bad := (upto 96).any (fun e => s.obj (oSlotMapD0 e) == 0xFF || s.obj (oSlotMapD1 e) == 0xFF)
  let was := s.flag oDegraded
  let s := s.setObj oDegraded (b2n bad)
  if bad && !was then s.raise .degraded else s

/-- One die's slot map rebuilt by R130 from its DISABLE mask and the last self-test. At power-on no
fence is carried over; a DISABLE write keeps the engines that are FENCED out of use, whatever their bit (Table
06-10). -/
def State.rebuildSlots (s : State) (die : Nat) (powerOn : Bool) : State :=
  let mask := s.obj (oDisable die)
  let rep := s.blob oStReport
  let fenced := fun i => !powerOn && s.obj (oPhysState die i) == 3
  let bad := fun i => bit mask i || stFailed rep 1 die i || fenced i
  let mapped := bindSlots bad
  let s := mapped.zipIdx.foldl (fun (s : State) e =>
    let s := if s.obj (oSlotMap die e.2) = e.1 then s else s.setObj (oStrikes die e.2) 0
    s.setObj (oSlotMap die e.2) e.1) s
  let s := (upto 100).foldl (fun (s : State) i =>
    s.setObj (oPhysState die i)
      (if fenced i then 3 else if bit mask i then 4 else if mapped.contains i then 0
       else if i = 80 ∨ i = 81 ∨ i = 98 ∨ i = 99 then 1 else 3)) s
  s.countSpares die

/-- Whether the start-up self-test must run (R400): the last test did not complete, or the last
shutdown was not orderly. -/
def State.needsStartTest (s : State) : Bool :=
  !((s.obj oStResult == 1 || s.obj oStResult == 2 || s.obj oStResult == 3) && s.flag oOrderlyAtStart)

/-- The control cores and control lasers that the last self-test recorded as failing (R399; their indices
are die and core, and port × 2 + laser: assumption 54). A core that so becomes FENCED raises DEGRADED (Table 15-7). -/
def State.applyReport (s : State) : State :=
  let rep := s.blob oStReport
  let lost := (upto 16).any (fun c => stFailed rep 2 (c / 8) (c % 8) && s.obj (oCoreState c) != 4)
  let s := if lost then s.raise .degraded else s
  let s := (upto 16).foldl (fun (s : State) c =>
    if stFailed rep 2 (c / 8) (c % 8) then s.setObj (oCoreState c) 4
    else if s.obj (oCoreState c) = 4 then s.setObj (oCoreState c) 0 else s) s
  (upto 48).foldl (fun (s : State) j =>
    if stFailed rep 3 0 j || stFailed rep 3 1 j then
      let k := oClState (j / 2)
      let l := j % 2
      let w := s.obj k
      let was := bits w (2 * l) 2
      let w := setBits w (2 * l) 2 2
      s.setObj k (if was = 1 ∧ bits w (2 * (1 - l)) 2 = 0 then setBits w (2 * (1 - l)) 2 1 else w)
    else s) s

/-- The power-up order of Table 17-7 begins: nothing before it was retained; domains wake at their
offsets, the memory is zeroed, and the last self-test's results bind the engines (R130) unless the
start-up self-test runs first. -/
def State.beginPowerUp (s : State) : State :=
  let s := s.bump oPowerOnCount
  let n := s.power.nonces + 1
  let s := { s with power := { s.power with
      powerUp := some s.now, zeroing := true, nonces := n,
      waking := (domains48.map (fun d => ⟨d, s.now + wakeOffset d + domLatency d⟩)) } }
  let s := s.setObj oLcNonce (Config.lcNonce n).toNat
  let s := s.setDoms domains48 domWaking
  let s := (s.setObj oMemState 0)
  let s := { s with power := { s.power with selfTestStart := s.needsStartTest } }
  (((s.applyReport).rebuildSlots 0 true).rebuildSlots 1 true).showDegraded

/-- The power-up goes on when nothing it waits for is missing (R464, R475, R440). -/
def State.tryPowerUp (s : State) : State :=
  if s.power.pwrEn && s.power.auxSettled && s.inRange48 && !s.power.latchedOff &&
      s.power.powerUp.isNone && s.obj oPowerState == 0 && s.power.resetN && !s.power.thermTripN then
    s.beginPowerUp
  else s

/-- The PWR_EN rise as the module samples it (R437): LAST_SHUTDOWN_ORDERLY is copied to
ORDERLY_AT_START and only then cleared; the power-up then starts or waits. -/
def State.sampleRise (s : State) : State :=
  let s := s.setObj oOrderlyAtStart (s.obj oLastShutdownOrderly)
  let s := s.setObj oLastShutdownOrderly 0
  s.tryPowerUp

/-- PWR_EN_RISE (R435, R443, R464). -/
def execPwrEnRise (s : State) : Host.Outcome State Fault Refusal :=
  let s := s.quiet
  if s.power.pwrEn then .next s
  else
    let s := { s with power := { s.power with pwrEn := true, latchedOff := false } }
    if s.power.auxSettled then .next s.sampleRise else .next s

/-- The time of the power-up without a start-up self-test, ns (Table 17-7). -/
def powerUpNs : Nat := 40000000

/-- Every 48 V domain on at the end of the power-up. -/
def State.endPowerUp (s : State) : State :=
  ({ s with power := { s.power with powerUp := none, waking := [] } }).setDoms domains48 domOn

/-- The latch of a thermal trip cleared as SAFE is entered (R403). -/
def State.clearTrip (s : State) : State := { s with power := { s.power with tripLatched := false } }

/-- POWER_UP_DONE (R443): 40 ms after the rise, or at the end of the start-up self-test, POWER_STATE is
RUN; SAFE when the self-test failed or a thermal trip came before (R403, R440). -/
def execPowerUpDone (s : State) : Host.Outcome State Fault Refusal :=
  let s := s.quiet
  match s.power.powerUp with
  | none => .next s
  | some t =>
    if s.power.zeroing || s.power.selfTestStart then .next s
    else
      let s := s.advanceTo (t + powerUpNs)
      let s := s.endPowerUp.setPowerState 1
      if s.obj oStResult = 3 then .next (s.clearTrip.enterSafe 1)
      else if s.power.tripLatched then .next (s.clearTrip.enterSafe 2)
      else .next s

/-- PWR_EN falls, or AUX_3V3 is lost with it high: OFF within 1 ms, domains 39 and 40 reset, and
THERM_TRIP_N released (R435, R440, R443, R465). -/
def State.pwrEnFalls (s : State) : State :=
  let s := { s with power := { s.power with pwrEn := false, thermTripN := false, latchedOff := false } }
  s.cutCopy.powerOff.restartMgmt

/-- PWR_EN_FALL (R435). -/
def execPwrEnFall (s : State) : Host.Outcome State Fault Refusal :=
  let s := s.quiet
  if s.power.pwrEn then .next s.pwrEnFalls else .next s

/-- AUX_3V3_LOSS (R465): with PWR_EN high it acts as PWR_EN falling; the management complex and the
security core lose power. -/
def execAux3v3Loss (s : State) : Host.Outcome State Fault Refusal :=
  let s := s.quiet
  if s.power.aux then
    let high := s.power.pwrEn
    let s := { s with power := { s.power with aux := false, auxSettled := false } }
    let s := if high then
        let t := (s.setObj oLastShutdownOrderly 0).pwrEnFalls
        { t with power := { t.power with pwrEn := true } }
      else s.cutCopy.restartMgmt
    .next ((s.setDom 39 domOff).setDom 40 domOff)
  else .next s

/-- AUX_3V3_RISE (R443): domains 39 and 40 power on and the boot ROM runs. -/
def execAux3v3Rise (s : State) : Host.Outcome State Fault Refusal :=
  let s := s.quiet
  if s.power.aux then .next s
  else
    let s := { s with power := { s.power with aux := true, auxSince := s.now },
                      ledger := { s.ledger with intervalStart := s.now, inInterval := 0,
                                                suppressedRaised := false } }
    .next ((s.restartMgmt.setDom 39 domOn).setDom 40 domOn)

/-- AUX_3V3_SETTLED (R464): AUX_3V3 in range for 200 ms; PWR_EN is sampled. -/
def execAux3v3Settled (s : State) : Host.Outcome State Fault Refusal :=
  let s := s.quiet
  if s.power.aux && !s.power.auxSettled then
    let s := s.advanceTo (s.power.auxSince + 200000000)
    let s := { s with power := { s.power with auxSettled := true } }
    if s.power.pwrEn then .next s.sampleRise else .next s
  else .next s

/-- INPUT_VOLTAGE_CHANGE (R464): the 48 V input now at `millivolts`, held long enough to count. -/
def execInputVoltageChange (millivolts : W32) (s : State) : Host.Outcome State Fault Refusal :=
  let s := s.quiet
  let mv := millivolts.toNat
  let was := s.inRange48
  let s := s.setObj oInputMv mv
  let s : State := { s with power := { s.power with mv48 := mv } }
  if s.obj oPowerState ≠ 0 ∨ s.power.powerUp.isSome = true then
    if mv < 38000 ∨ 62000 < mv then
      let s := s.powerLost
      .next { s with power := { s.power with latchedOff := true } }
    else if was && !s.inRange48 then .next (s.bump oInputAlerts)
    else .next s
  else .next s.tryPowerUp

/-! ### Warm reset -/

/-- The code of a reset's cause (0x8030.03). -/
def ResetCause.code : ResetCause → Nat
  | .pin => 1 | .write => 2 | .watchdog => 3 | .exit => 4

/-- A plan under which the module only forwards: its beat programs hold no item but LINK items. -/
def Plan.forwardingOnly (p : Plan) : Bool :=
  p.programs.all (fun g => g.items.all (fun i => i.kind == 0x08))

/-- The keeper's place in the step-clean tree as a warm reset begins (R426): that of an admitted plan
under which the module only forwards, or the one it already holds. -/
def State.keeperOf (s : State) : Option Keeper :=
  match s.activePlan with
  | some p =>
    if p.forwardingOnly then
      some { parent := s.obj oTreeParentPort, children := s.obj oTreeChildren, count := s.obj oTreeCount,
             stepBeats := p.timing.stepBeats, deadlineBeat := p.timing.trafficEnd + p.timing.deadline,
             step := s.obj oStepNow, beat := s.obj oStepBeatNow, firstStep := s.obj oFirstStep,
             st := s.step }
    else none
  | none => s.keeper

/-- A port's link. -/
def State.portSt (s : State) (p : Nat) : PortSt := Bank.get s.ports PortSt.init p

/-- A port's link replaced. -/
def State.setPort (s : State) (p : Nat) (x : PortSt) : State :=
  { s with ports := Bank.set s.ports PortSt.init p x }

/-- The link features that the module's hellos carry. -/
def State.linkFeatures (s : State) : Nat := s.obj oLinkFeaturesOffered &&& s.obj oLinkFeatureMask

/-- The HELLO body of a port as firmware writes it (Table 13-3, R485), RESETTING clear. -/
def State.helloBody (s : State) (p : Nat) : Bytes :=
  let stated := s.flag oPlaceStated
  let seen := s.blob (oHelloSeen p)
  let valid := (s.portSt p).seen
  natLe 1 1 ++ natLe 1 p ++ natLe 2 (if stated then s.place else 0) ++
  natLe 1 (b2n stated + b2n valid * 2 + b2n (s.linkClass p == 2) * 4) ++
  natLe 1 (if valid then fieldLe seen 1 1 else 0) ++ natLe 2 (if valid then fieldLe seen 2 2 else 0) ++
  natLe 8 (s.obj oSerialDigest) ++ natLe 4 (s.obj oFirmwareVersion) ++ zeros 4 ++
  natLe 8 s.linkFeatures

/-- The content of every port's hellos left in the keeper as firmware last wrote it (R328). -/
def State.storeHellos (s : State) : State :=
  (upto 24).foldl (fun (s : State) p => s.setPort p { s.portSt p with helloCopy := s.helloBody p }) s

/-- A warm reset begins (R441, R442): the plan and retention D and V are lost, the domains but 36 to 41
and 46 to 49 go off, the management complex restarts; a firmware copy is waited for (Table 17-12). -/
def State.startWarmReset (s : State) (c : ResetCause) : State :=
  if s.power.copying then { s with power := { s.power with resetHeld := some c } }
  else
    let s := s.storeHellos.cutActions
    let s : State := { s with keeper := s.keeperOf }
    let s := s.endPlan
    let s := ((s.clearFn .compute).clearFn .fabric).clearFn .update
    let s := (s.clearFn .optics).clearMailboxes
    let s := { s with power := { s.power with
        warmReset := some c, warmResetAt := s.now, requests := [], waking := [], started := [],
        reinit := none, shutdown := false, staged := none, resetHeld := none } }
    let s := s.dropObjects [.d, .v] allFns
    let s := { s with plan := none, admitting := none, deferred := [], prep := none, xrClear := false,
                      digesting := none, step := StepSt.init }
    let s := s.setDoms (domains48.filter (fun d => !resetDomains.contains d)) domOff
    (s.bump oResetCount).restartMgmt

/-- RESET_N (R441): held low for at least 1 µs it starts a warm reset; with POWER_STATE OFF it only
holds a power-up back (R475). -/
def execResetN (heldNs : W32) (s : State) : Host.Outcome State Fault Refusal :=
  let s := s.quiet
  let s := { s with power := { s.power with resetN := false } }
  if 1000 ≤ heldNs.toNat ∧ s.obj oPowerState ≠ 0 then .next (s.startWarmReset .pin) else .next s

/-- RESET_N_RISE (R475): a power-up that waited goes on. -/
def execResetNRise (s : State) : Host.Outcome State Fault Refusal :=
  let s := s.quiet
  .next ({ s with power := { s.power with resetN := true } }).tryPowerUp

/-- WATCHDOG_EXPIRY (R441): 1,000 ms without service of the management watchdog. -/
def execWatchdogExpiry (s : State) : Host.Outcome State Fault Refusal :=
  let s := s.quiet
  if s.power.boot = .image ∧ s.obj oPowerState ≠ 0 then .next (s.startWarmReset .watchdog) else .next s

/-- A warm reset whose image runs asks every 48 V domain that is not on to wake, through the governor (Table 17-5,
R438); with the module OFF there is no 48 V (assumption 98). -/
def State.wakeAfterReset (s : State) : State :=
  if s.power.warmReset.isSome ∧ s.obj oPowerState ≠ 0 then s.requestWakes domains48 else s

/-- The boot ROM's checks (R444, R446, R447): the image runs when its signature and SVN check, burning
fuses up to its SVN at its first run; otherwise the recovery loader runs. -/
def State.bootRom (s : State) : State :=
  let f := s.power.flash
  if f.good && decide (s.obj oFwSvnFuse ≤ f.svn) then
    let s := { s with power := { s.power with boot := .image } }
    let s := (s.setObj oFwBoot 0).setBlob oFwRunningDigest (natLe 48 f.digest)
    let s := (s.setObj oFirmwareVersion f.version).wakeAfterReset
    if s.obj oFwSvnFuse < f.svn then s.setObj oFwSvnFuse f.svn else s
  else
    let s := { s with power := { s.power with boot := .recovery } }
    (s.setObj oFwBoot 1).setBlob oFwRunningDigest (zeros 48)

/-- BOOT_ROM_VERIFY (R444, R447). -/
def execBootRomVerify (s : State) : Host.Outcome State Fault Refusal :=
  let s := s.quiet
  if s.power.boot = .verifying then .next s.bootRom else .next s

/-- The slot's engine is FENCED and the guard that takes it out of service has not come (R150). -/
def State.fencePending (s : State) (die engine : Nat) : Bool :=
  let phys := s.obj (oSlotMap die engine)
  phys != 0xFF && s.obj (oPhysState die phys) == 3

/-- The PENDING spare that the slot's fence chose (R150). -/
def State.chosenSpare (s : State) (die engine : Nat) : Option Nat :=
  [80, 81, 98, 99].find? (fun i =>
    s.obj (oPhysState die i) == 2 && Bank.get s.power.spareSlots 0 (128 * die + i) == engine + 1)

/-- The slot of a fenced engine goes to the spare its fence chose, or has no engine (R15, R153). -/
def State.bindSpare (s : State) (die engine : Nat) : State :=
  match s.chosenSpare die engine with
  | some i => ((s.setObj (oSlotMap die engine) i).setObj (oPhysState die i) 0).setObj (oStrikes die engine) 0
  | none => s.setObj (oSlotMap die engine) 0xFF

/-- A substitution that a warm reset caught between a fence and its guard is completed (R154). -/
def State.finishPending (s : State) : State := (upto 2).foldl (fun (s : State) die =>
  ((upto 96).foldl (fun (s : State) e =>
    if s.fencePending die e then s.bindSpare die e else s) s).countSpares die) s

/-- Whether a domain's wake is refused while THERMAL_STOP holds it off (Table 17-12). -/
def State.heldOff (s : State) (d : Nat) : Bool := s.power.thermalHeld && stopDomains.contains d

/-- The domains of a warm reset are awake, but for those that THERMAL_STOP holds off; with the module OFF there are
none to wake (Table 17-5). -/
def State.resetAwake (s : State) : Bool :=
  s.obj oPowerState == 0 || domains48.all (fun d => s.dom d == domOn || s.heldOff d)

/-- LAST_RESET (0x8030.03): the cause, the duration in ms and the beat. -/
def State.noteReset (s : State) (c : ResetCause) : State :=
  s.setObj oLastReset (c.code + satNat 16 ((s.now - s.power.warmResetAt) / 1000000) * 2 ^ 16 + s.bell.beat % 2 ^ 32 * 2 ^ 32)

/-- A substitution completed, the memory RETAINED_UNVERIFIED and the event, as a warm reset ends. -/
def State.endReset (s : State) (c : ResetCause) : State :=
  let s := s.finishPending
  let s := if s.obj oMemState = 1 then s.setObj oMemState 2 else s
  let s := (s.noteReset c).raise .warmResetDone
  { s with power := { s.power with warmReset := none } }

/-- WARM_RESET_DONE (R441): 0x1000 answers again once the domains are awake; MEM_STATE VALID becomes
RETAINED_UNVERIFIED (R277), RESETTING is cleared, and KEEP and READY_OFF end in RUN. -/
def execWarmResetDone (s : State) : Host.Outcome State Fault Refusal :=
  let s := s.quiet
  match s.power.warmReset with
  | none => .next s
  | some c =>
    if s.power.boot = .image ∧ s.resetAwake = true then
      let s := s.endReset c
      if s.obj oPowerState = 0 then .next s else .next (s.setPowerState 1)
    else .next s

/-! ### Actions of the power objects -/

/-- A POWER_REQUEST to RUN (R435): from DOZE the four functions' domains are woken under the governor;
from KEEP or READY_OFF a warm reset leads to RUN; from another state there is no transition
(assumption 11), and under a plan it fails with PLAN_ADMITTED (Table 17-12). -/
def State.actPowerRun (s : State) : State :=
  let st := s.obj oPowerState
  if st = 3 then
    let s := s.setPowerState 1
    (s.requestWakes domains48).cmdDone oPowerRequest
  else if st = 4 ∨ st = 5 then s.startWarmReset .exit
  else s.cmdFail oPowerRequest (if s.planHeld then abPlanAdmitted else abValueRange)

/-- A POWER_REQUEST to DOZE (R435, R436): V of the four functions is lost, memory goes to
self-refresh. -/
def State.actPowerDoze (s : State) : State :=
  if s.planHeld then s.cmdFail oPowerRequest abPlanAdmitted
  else if s.obj oBridgeRole = 1 then s.cmdFail oPowerRequest abValueRange
  else if s.obj oPowerState = 1 then
    let s := (((s.clearFn .compute).clearFn .fabric).clearFn .update).clearFn .optics
    let s := s.setDoms (domains48.filter (fun d => !dozeDomains.contains d)) domOff
    let s := { s with power := { s.power with waking := [], requests := [] } }
    (s.setPowerState 3).cmdDone oPowerRequest
  else s.cmdFail oPowerRequest abValueRange

/-- A POWER_REQUEST to KEEP (R435, R436): retention D and V is lost. -/
def State.actPowerKeep (s : State) : State :=
  if s.planHeld then s.cmdFail oPowerRequest abPlanAdmitted
  else if s.obj oBridgeRole = 1 then s.cmdFail oPowerRequest abValueRange
  else if s.obj oPowerState = 1 ∨ s.obj oPowerState = 3 then
    let s := (((s.clearFn .compute).clearFn .fabric).clearFn .update).clearFn .optics
    let s := s.dropObjects [.d, .v] allFns
    let s := s.setDoms (domains48.filter (fun d => !keepDomains.contains d)) domOff
    let s := { s with power := { s.power with waking := [], requests := [], staged := none } }
    (s.setPowerState 4).cmdDone oPowerRequest
  else s.cmdFail oPowerRequest abValueRange

/-- A write of POWER_REQUEST. -/
def State.actPowerRequest (s : State) (v : Nat) : State :=
  if v = 1 then s.actPowerRun else if v = 3 then s.actPowerDoze else s.actPowerKeep

/-- A write of WARM_RESET (R441): the reset itself clears the result word. -/
def State.actWarmReset (s : State) : State := (s.cmdStart oWarmReset).startWarmReset .write

/-- A write of SHUTDOWN (R437): the shutdown self-test starts. -/
def State.actShutdown (s : State) : State :=
  if s.planHeld then s.cmdFail oShutdown abPlanAdmitted
  else if s.obj oPowerState ≠ 1 ∨ s.power.selfTest then s.cmdFail oShutdown abValueRange
  else { s.cmdStart oShutdown with power := { s.power with shutdown := true, selfTest := true } }

/-- The end of an orderly shutdown (R437): results in flash, LAST_SHUTDOWN_ORDERLY, READY_OFF with only
the domains of KEEP on, and the result word done. -/
def State.finishShutdown (s : State) : State :=
  let s := s.setObj oLastShutdownOrderly 1
  let s := (((s.clearFn .compute).clearFn .fabric).clearFn .update).clearFn .optics
  let s := s.dropObjects [.d, .v] allFns
  let s := s.setDoms (domains48.filter (fun d => !keepDomains.contains d)) domOff
  let s := { s with power := { s.power with shutdown := false, selfTest := false, waking := [],
                                            requests := [], staged := none } }
  (s.setPowerState 5).cmdDone oShutdown

/-! ### The wake governor's commands -/

/-- A wake that came `delay` ns after its request: WAKE_DELAYED (R439). -/
def State.noteDelay (s : State) (delay : Nat) : State :=
  if delay = 0 then s else
    let s := s.bump oWakeDelayCount
    (s.setObj oWakeDelayMaxNs (max (s.obj oWakeDelayMaxNs) (satNat 32 delay))).raise .wakeDelayed

/-- WAKE_START (R439): the first waiting request that may be granted starts at the earliest moment both
limits allow. -/
def execWakeStart (s : State) : Host.Outcome State Fault Refusal :=
  let s := s.quiet
  match s.power.requests.find? (fun r => !s.heldOff r.domain) with
  | none => .next s
  | some r =>
    let t := earliestWake (s.power.started ++ s.plannedWakes) r.domain s.now
    let s := s.advanceTo t
    let s := { s with power := { s.power with
        requests := s.power.requests.filter (fun x => x.domain != r.domain) } }
    .next ((s.startWake r.domain).noteDelay (s.now - r.requestedAt))

/-- The item `i` of the current beat program. -/
def State.item? (s : State) (i : Nat) : Option Item := s.program?.bind (fun p => p.items[i]?)

/-- Time moved to `off` ns after the guard of this beat. -/
def State.toOffset (s : State) (off : Nat) : State := s.advance (2000 + off - s.bell.off)

/-- WAKE_ITEM (R439, R433): a planned wake of the current program starts at its offset after the
guard. -/
def execWakeItem (item : W16) (s : State) : Host.Outcome State Fault Refusal :=
  let s := s.quiet
  match s.item? item.toNat with
  | some i =>
    if i.kind = 0x09 then
      let s := s.toOffset i.a
      if s.dom i.unit = domGated ∨ s.dom i.unit = domOff then
        (if s.heldOff i.unit then .next s else .next (s.startWake i.unit).settleIdle)
      else .next s
    else .next s
  | none => .next s

/-- GATE_ITEM (R433, R434): a planned gate switches its domain to GATED; a gated cluster loses its
contents. -/
def execGateItem (item : W16) (s : State) : Host.Outcome State Fault Refusal :=
  let s := s.quiet
  match s.item? item.toNat with
  | some i =>
    if i.kind = 0x0A then
      let s := s.toOffset i.a
      if s.dom i.unit = domOn ∨ s.dom i.unit = domWaking then
        let s := s.setDom i.unit domGated
        let s := { s with power := { s.power with
            waking := s.power.waking.filter (fun w => w.domain != i.unit) } }
        let s := if isCluster i.unit then s.clearCluster (if i.unit < 8 then i.unit else i.unit - 4)
          else s
        .next s.settleIdle
      else .next s
    else .next s
  | none => .next s

/-- DOMAIN_WAKE_DONE (R433): the wake latency has passed and the domain is ON. -/
def execDomainWakeDone (domain : Domain) (s : State) : Host.Outcome State Fault Refusal :=
  let s := s.quiet
  match s.power.waking.find? (fun w => w.domain == domain.val) with
  | some w =>
    let s := s.advanceTo w.usableAt
    let s := { s with power := { s.power with
        waking := s.power.waking.filter (fun x => x.domain != domain.val) } }
    .next (s.setDom domain.val domOn)
  | none => .next s

/-! ### Junction temperature (R440) -/

/-- A reading in 0.01 °C. -/
def centi (w : W16) : Int := toSigned 16 w.toNat

/-- The hottest of the readings with its sensor and die: the first in order on a tie. -/
def hottest (d0 d1 op : List W16) : Int × Nat × Nat :=
  let all := d0.zipIdx.map (fun e => (centi e.1, e.2, 0)) ++
    d1.zipIdx.map (fun e => (centi e.1, e.2, 1)) ++ op.zipIdx.map (fun e => (centi e.1, e.2, 2))
  match all with
  | [] => (0, 0, 0)
  | x :: rest => rest.foldl (fun a b => if a.1 < b.1 then b else a) x

/-- A value in 0.01 °C as binary32. -/
def centiF32 (c : Int) : Nat := ratioF32 (decide (c < 0)) c.natAbs 100

/-- The record of a thermal event (0x8010.07). -/
def State.noteThermal (s : State) (tj : Int) (sensor place : Nat) : State :=
  s.setObj oLastThermal (sensor % 64 + place % 4 * 64 + ofSigned 16 tj * 2 ^ 16 +
    s.bell.beat % 2 ^ 32 * 2 ^ 32)

/-- THERMAL_STOP (Table 17-4): the compute, update and memory-side domains go off, the plan to
LOADED. -/
def State.thermalStop (s : State) (tj : Int) (sensor place : Nat) : State :=
  let s := s.noteThermal tj sensor place
  let s := (s.setObj oThermalState 2).bump oStopCount
  let s := s.raise .thermalStop
  let s := s.classC
  let s := ((s.clearFn .compute).clearFn .update).idleWindows
  let s := s.setDoms stopDomains domOff
  ({ s with power := { s.power with
      thermalHeld := true, coolSince := none,
      waking := s.power.waking.filter (fun w => !stopDomains.contains w.domain) } }).settleIdle

/-- THERMAL_TRIP (Table 17-4): THERM_TRIP_N asserted, every 48 V domain off; SAFE at the next power-on. -/
def State.thermalTrip (s : State) (tj : Int) (sensor place : Nat) : State :=
  let s := s.noteThermal tj sensor place
  let s := (s.bump oTripCount).raise .thermalTrip
  let keep := s.obj oLastThermal
  let s := s.powerLost
  let s := { s with power := { s.power with thermTripN := true, tripLatched := true } }
  (s.setObj oThermalState 3).setObj oLastThermal keep

/-- THERMAL_SAMPLE (R440): the 24 sensors of each die and the 8 of the optical layer are read and the
thresholds applied. -/
def execThermalSample (die0 die1 optical : List W16) (s : State) : Host.Outcome State Fault Refusal :=
  let s := s.quiet
  if s.obj oPowerState = 0 ∧ s.power.powerUp.isNone = true then .next s
  else
    let h := hottest die0 die1 optical
    let tj := h.1
    let s := s.setObj oTjMaxC (centiF32 tj)
    let s := if fmtFp32.lt (s.obj oTjPeakC) (centiF32 tj) then s.setObj oTjPeakC (centiF32 tj) else s
    if 12500 ≤ tj then .next (s.thermalTrip tj h.2.1 h.2.2)
    else
      let s := if 10500 < tj ∧ s.power.noticeArmed then
          let s := s.noteThermal tj h.2.1 h.2.2
          let s := s.setObj oThermalState (max 1 (s.obj oThermalState))
          { s with power := { s.power with noticeArmed := false } }.raise .thermalNotice
        else if tj < 10000 ∧ s.power.noticeArmed = false then
          let s := { s with power := { s.power with noticeArmed := true } }
          if s.obj oThermalState = 1 then s.setObj oThermalState 0 else s
        else s
      if 11500 ≤ tj ∧ s.power.thermalHeld = false then .next (s.thermalStop tj h.2.1 h.2.2)
      else if s.power.thermalHeld then
        (if tj < 10000 then
          match s.power.coolSince with
          | none => .next { s with power := { s.power with coolSince := some s.now } }
          | some t =>
            if t + 1000000000 ≤ s.now then
              let s := { s with power := { s.power with thermalHeld := false, coolSince := none } }
              .next ((s.setObj oThermalState 0).requestWakes stopDomains)
            else .next s
        else .next { s with power := { s.power with coolSince := none } })
      else .next s

/-! ### Current limits (R454) -/

/-- The current cap of a domain in mA (Table 17-1). -/
def currentCap (d : Nat) : Nat :=
  if isCluster d then 170000
  else if d = 8 ∨ d = 9 ∨ d = 20 ∨ d = 21 ∨ d = 11 ∨ d = 23 then 85000
  else if d = 10 ∨ d = 22 then 40000
  else if 24 ≤ d ∧ d ≤ 29 then 45000
  else if 30 ≤ d ∧ d ≤ 35 then 30000
  else if d = 36 then 25000 else if d = 37 then 5000 else if d = 38 then 2000
  else if d = 39 then 3000 else if d = 40 then 1000 else if d = 41 then 20000
  else if d = 42 ∨ d = 43 then 60000 else if d = 44 then 20000 else if d = 45 then 10000
  else 25000

end Sys2Proof.Machine
end

