-- ==== Sys2Proof/Machine/Links.lean ====
section
/-! DEFINITION. Links (chapter 13): the planned lanes and data links of a port, the lanes in use against
the reserve, hellos and cabling classes, ACCEPT, RESETTING and LINK_DOWN, the data gate, and the sequenced
frames of lane C. -/

namespace Sys2Proof.Machine

/-! ### Lane masks -/

/-- The lanes of a list as a mask. -/
def laneMask (ns : List Nat) : Nat := ns.foldl (fun a n => a ||| 2 ^ n) 0

/-- The lanes of `a` outside `b`. -/
def maskWithout (a b : Nat) : Nat := laneMask ((setBitsOf 8 a).filter (fun n => !bit b n))

/-- The number of lanes of a mask. -/
def laneCount (m : Nat) : Nat := (setBitsOf 8 m).length

/-! ### Ports, rings and routes -/

/-- The key of a transmit ring, of the crosspoint in use for (i, n), and of a monitor ring. -/
def txKey (p n : Nat) : Nat := 8 * p + n
def xpKey (i n : Nat) : Nat := 192 + 8 * i + n
def monKey (input src n : Nat) : Nat := 384 + 16 * input + 8 * src + n

/-- A ring. -/
def State.ringAt (s : State) (k : Nat) : Micro := Bank.get s.micro Micro.init k

/-- A ring replaced. -/
def State.setRingAt (s : State) (k : Nat) (m : Micro) : State :=
  { s with micro := Bank.set s.micro Micro.init k m }

/-- A ring is LOCKED (Table 12-7). -/
def State.locked (s : State) (k : Nat) : Bool := (s.ringAt k).state == 4

/-- The route of (i, n): an output port, 0xFE LOCAL or 0xFF DARK (R286). -/
def State.route (s : State) (i n : Nat) : Nat := bits (s.obj (oXrRoute i)) (8 * n) 8

/-- The input that passes onto output channel (o, n). -/
def State.passInto (s : State) (o n : Nat) : Option Nat := (upto 24).find? (fun i => s.route i n == o)

/-- A port to the host bridge card (R372). -/
def State.hostPort (s : State) (p : Nat) : Bool := bit (s.obj oHostPorts) p

/-! ### Planned lanes and data links (R291, R314) -/

/-- The plan whose circuits are in force and its map: the admitted plan's, or the loaded blob's from the
first beat of its rehearsal on. -/
def State.linkPlan (s : State) : Option (Plan × Nat) :=
  if s.admitted then s.plan.map (fun p => (p, s.obj oMapNow % 255))
  else if 2 ≤ s.obj oPrepareState then
    s.prep.map (fun q => (parsePlan (s.blob oPlanBlob), q.map))
  else none

/-- Whether a circuit starts (or, received, ends) at a port of a place. -/
def circuitEnds (place p : Nat) (rx : Bool) (c : Circuit) : Bool :=
  if rx then c.dst == place && c.dstPort == p else c.src == place && c.srcPort == p

/-- The circuits that start or end at a port in a map. -/
def endsIn (pl : Plan) (m place p : Nat) (rx : Bool) : List Circuit :=
  pl.circuits.filter (fun c => c.map == m && circuitEnds place p rx c)

/-- The far end of a circuit: the place and the port. -/
def farEnd (rx : Bool) (c : Circuit) : Nat × Nat := if rx then (c.src, c.srcPort) else (c.dst, c.dstPort)

/-- The data links of a port direction in a map: the far end and the lanes. -/
def linksIn (pl : Plan) (m place p : Nat) (rx : Bool) : List ((Nat × Nat) × Nat) :=
  let cs := endsIn pl m place p rx
  ((cs.map (farEnd rx)).eraseDups).map (fun f =>
    (f, laneMask ((cs.filter (fun c => farEnd rx c == f)).map (fun c => c.lane))))

/-- The data links of a port direction now; a host port's one link joins it to the stated peer. -/
def State.dataLinks (s : State) (p : Nat) (rx : Bool) : List ((Nat × Nat) × Nat) :=
  if s.hostPort p then [((s.obj (oPeerPlace p), s.obj (oPeerPort p)), 0xFF)]
  else match s.linkPlan with
    | some q => linksIn q.1 q.2 s.place p rx
    | none => []

/-- The planned lanes of a port direction now. -/
def State.planned (s : State) (p : Nat) (rx : Bool) : Nat :=
  (s.dataLinks p rx).foldl (fun a l => a ||| l.2) 0

/-- The data link of a port direction that holds a lane. -/
def State.linkOf (s : State) (p : Nat) (rx : Bool) (n : Nat) : Option ((Nat × Nat) × Nat) :=
  (s.dataLinks p rx).find? (fun l => bit l.2 n)

/-- The lowest lane of a mask. -/
def lowestLane (m : Nat) : Nat := ((setBitsOf 8 m).head?).getD 0

/-- The places whose hellos carry RESETTING (R325). -/
def State.resettingPlaces (s : State) : List Nat :=
  ((upto 24).filter (fun p => (s.portSt p).resetSince.isSome)).map (fun p =>
    fieldLe (s.blob (oHelloSeen p)) 2 2)

/-- The held lanes of a port direction: those of data links that end at a place that is RESETTING
(R325). -/
def State.heldLanes (s : State) (p : Nat) (rx : Bool) : Nat :=
  let rs := s.resettingPlaces
  ((s.dataLinks p rx).filter (fun l =>
    rs.contains l.1.1 || (s.hostPort p && (s.portSt p).resetSince.isSome))).foldl (fun a l => a ||| l.2) 0

/-- The lanes in use. -/
def PortSt.inUse (x : PortSt) (rx : Bool) : Nat := if rx then x.useRx else x.useTx

/-- The lost lanes of a port direction (R324). -/
def State.lostLanes (s : State) (p : Nat) (rx : Bool) : Nat :=
  maskWithout (maskWithout (s.planned p rx) ((s.portSt p).inUse rx)) (s.heldLanes p rx)

/-- LINK_LANE_MASK (0x5410 + port sub-index 0x03). -/
def State.linkLaneMask (s : State) (p : Nat) : Nat :=
  let x := s.portSt p
  x.useTx + x.useRx * 2 ^ 8 + s.planned p false * 2 ^ 16 + s.planned p true * 2 ^ 24

/-! ### Usable lanes (R300, R321) -/

/-- Data lanes may run on a port: MATCH at both ends (R330), the link not DOWN or held, and the optical
groups up. -/
def State.linkOpen (s : State) (p : Nat) : Bool :=
  s.linkClass p == 2 && (s.portSt p).peerMatch && (s.portSt p).resetSince.isNone &&
  decide (3 ≤ s.obj (oLinkState p)) && s.obj oSafe == 0 && !s.fnDown .optics && s.power.warmReset.isNone

/-- A lane whose transmitter or receiver the last self-test recorded as failing (R399; its index is port × 8 +
lane: assumption 54). -/
def State.laneFailed (s : State) (p n : Nat) : Bool :=
  let rep := s.blob oStReport
  stFailed rep 5 0 (8 * p + n) || stFailed rep 5 1 (8 * p + n)

/-- The causes on this side that keep a transmit lane out of use: its ring, the data gate, the laser line
and a pass-through on its output channel. -/
def State.txClear (s : State) (p n : Nat) : Bool :=
  s.locked (txKey p n) && s.flag (oDataGate p) &&
  s.locked (monKey (p / 4) (s.obj (oInService (p / 4))) n) && (s.passInto p n).isNone && !s.laneFailed p n

/-- A transmit lane that could carry data. -/
def State.txUsable (s : State) (p n : Nat) : Bool := s.txClear p n && !bit (s.portSt p).badTx n

/-- The causes on this side that keep a receive lane out of use, apart from identity and FEC. -/
def State.rxClear (s : State) (p n : Nat) : Bool :=
  s.route p n == 0xFE && s.locked (xpKey p n) && !bit (s.portSt p).darkRx n && !s.laneFailed p n

/-- A receive lane that could carry data. -/
def State.rxUsable (s : State) (p n : Nat) : Bool := s.rxClear p n && !bit (s.portSt p).badRx n

/-! ### Lane C frames -/

/-- The active control laser of a port: 0 laser A, 1 laser B, none when both are FAILED (R284, R308). -/
def State.activeLaser (s : State) (p : Nat) : Option Nat :=
  [0, 1].find? (fun l => bits (s.obj (oClState p)) (2 * l) 2 == 1)

/-- A frame sent on a port's lane C; the keeper's transceiver sends it while it has power and a control
laser. -/
def State.ctlFrame (s : State) (p type : Nat) (seq : Option Nat) (body : Bytes) : State :=
  if s.keeperOn && (s.activeLaser p).isSome then s.emit (.frame p (frameBytes type seq body)) else s

/-- The bytes of sequenced frames that lane C keeps (R326). -/
def ctlBytes (fs : List CtlFrame) : Nat := fs.foldl (fun a f => a + f.body.length + 12) 0

/-- Frames that fit the replay buffer of 64 KiB and are still to be sent, sent. -/
def State.pumpCtl (s : State) (p : Nat) : State :=
  let x := s.portSt p
  let fit := fun (i : Nat) => decide (ctlBytes (x.ctlSent.take (i + 1)) ≤ 65536)
  let new := x.ctlSent.zipIdx.filter (fun e => e.1.sentAt == none && fit e.2)
  let sent := x.ctlSent.zipIdx.map (fun e =>
    if e.1.sentAt == none && fit e.2 then { e.1 with sentAt := some s.now } else e.1)
  new.foldl (fun s e => s.ctlFrame p e.1.type (some e.1.seq) e.1.body)
    (s.setPort p { x with ctlSent := sent })

/-- A sequenced frame put on a port's lane C (R326). -/
def State.sendCtl (s : State) (p type : Nat) (body : Bytes) : State :=
  let x := s.portSt p
  (s.setPort p { x with ctlSeq := (x.ctlSeq + 1) % 4096,
                        ctlSent := x.ctlSent ++ [⟨x.ctlSeq, type, body, none⟩] }).pumpCtl p

/-- The flits of a packet on a VC (R315). -/
def flitsOf (vc : Nat) (b : Bytes) : List Flit :=
  let n := max 1 (ceilDiv b.length 64)
  (upto n).map (fun i => ⟨vc, i == 0, i + 1 == n, sliceB b (64 * i) 64⟩)

/-- A management packet's flits sent on a port's lane C. -/
def State.sendMgmt (s : State) (p : Nat) (b : Bytes) : State :=
  (flitsOf 4 b).foldl (fun (s : State) f => s.sendCtl p 0x08 f.data) s

/-- The body of a LANE_REPORT: unusable lanes, lanes whose identity is verified and failing, and the
received OMA per lane (assumption 8). Lanes that only pass through have no receiver here (R291, R321). -/
def State.reportBody (s : State) (p : Nat) : Bytes :=
  natLe 1 (laneMask ((upto 8).filter (fun n => decide (0xFE ≤ s.route p n) && !s.rxUsable p n))) ++
  natLe 2 (s.obj (oLaneIdentity p)) ++ padTo 16 (s.blob (oRxOma p))

/-- The ports that lead back along a circuit's fibres from its sink, and from the crosspoint at an intermediate's
input: the port that this module sends on, and the output ports of the modules that follow (R326, R341). -/
def backFromSink (c : Circuit) : Nat × List Nat :=
  (c.dstPort, if c.hops = 0 then [] else if c.hops = 1 then [c.x1in] else [c.x2in, c.x1in])
def backFromPass (c : Circuit) (me i : Nat) : Nat × List Nat :=
  (i, if c.x1 = me ∧ c.x1in = i then [] else [c.x1in])

/-- A lane report as a management packet to the source of a circuit (R326): its lanes at the source's port, then the
body of a LANE_REPORT. DESIGN CHOICE (assumption 95): OPCODE 0x10, which Table 02-6 gives no meaning. -/
def State.reportPacket (s : State) (c : Circuit) (route : List Nat) (lanes : Nat) (body : Bytes) : Bytes :=
  let m := natLe 1 0x10 ++ zeros 7 ++ natLe 4 (2 + body.length) ++ zeros 4 ++ natLe 1 c.srcPort ++
    natLe 1 lanes ++ body
  let entries := route.zipIdx.foldl (fun a e => a + e.1 * 2 ^ (8 + 5 * e.2)) route.length
  packetHead 0x09 9 0 c.src s.place 0xFFFF m.length 0 0 0 1 0xFFFFFFFF 0 (natLe 16 entries) (crc64 m) ++ m

/-- The report of a port's lanes to the source of a data link beyond intermediate modules. -/
def State.reportBeyond (s : State) (p lanes : Nat) : State :=
  match s.linkPlan.bind (fun q => (endsIn q.1 q.2 s.place p true).find? (fun c => bit lanes c.lane)) with
  | some c => s.sendMgmt p (s.reportPacket c (backFromSink c).2 lanes (s.reportBody p))
  | none => s

/-- A lane that passes through here has lost its ring: reported to its circuit's source as unusable (R300). -/
def State.reportPass (s : State) (i n : Nat) : State :=
  match s.linkPlan.bind (fun q => q.1.circuits.find? (fun c => c.map == q.2 && c.lane == n &&
      ((decide (1 ≤ c.hops) && c.x1 == s.place && c.x1in == i) ||
        (decide (2 ≤ c.hops) && c.x2 == s.place && c.x2in == i)))) with
  | some c => s.sendMgmt i (s.reportPacket c (backFromPass c s.place i).2 (2 ^ n)
      (natLe 1 (2 ^ n) ++ zeros 2 ++ (List.replicate 8 (natLe 2 0x8000)).flatten))
  | none => s

/-- The receiver's report of a port's lanes: a LANE_REPORT frame to the direct neighbour, and a management packet to
each source that lies beyond intermediate modules (R321, R326). -/
def State.sendReport (s : State) (p : Nat) : State :=
  if s.linkClass p = 2 then
    let near := fieldLe (s.blob (oHelloSeen p)) 2 2
    let s := s.ctlFrame p 0x06 none (s.reportBody p)
    ((s.dataLinks p true).filter (fun l => l.1.1 != near && !s.hostPort p)).foldl
      (fun (s : State) l => s.reportBeyond p l.2) s
  else s

/-- A sequenced frame taken in order (assumption 48): whether it is the one expected, and the state with
an acknowledgement due. -/
def State.takeCtl (s : State) (p seq : Nat) : Bool × State :=
  let x := s.portSt p
  let ok := decide (seq = x.ctlExpect)
  (ok, s.setPort p { x with ackDue := true,
                            ctlExpect := if ok then (x.ctlExpect + 1) % 4096 else x.ctlExpect })

/-! ### The lane reserve (R323, R324) -/

/-- The reserve of a port direction in the admitted plan. -/
def State.reserve (s : State) (p : Nat) (rx : Bool) : Nat :=
  match s.activePlan.bind (fun pl => pl.reserves.find? (fun e =>
      e.place == s.place && e.port == p && e.dir == b2n rx)) with
  | some e => e.reserve
  | none => 0

/-- Whether a port direction is beyond its reserve, or holds a data link without a lane. -/
def State.beyondReserve (s : State) (p : Nat) (rx : Bool) : Bool :=
  let use := (s.portSt p).inUse rx
  let held := s.heldLanes p rx
  decide (s.reserve p rx < laneCount (s.lostLanes p rx)) ||
  (s.dataLinks p rx).any (fun l => l.2 &&& use == 0 && l.2 &&& held == 0)

/-- LINK_RESERVE_EXCEEDED: a class B fault; the plan no longer holds, so no replay (R324, R387). -/
def State.reserveExceeded (s : State) (p : Nat) (rx : Bool) : State :=
  let w := p + b2n rx * 32 + laneCount ((s.portSt p).inUse rx) * 2 ^ 8 +
    laneCount (s.planned p rx) * 2 ^ 16 + s.reserve p rx * 2 ^ 24 + s.obj oStepBeatNow * 2 ^ 32
  ((s.bump oReserveExceededCount).setObj oLastReserveExceeded w).poison true |>.raise .linkReserveExceeded

/-- A port direction judged against its reserve: the fault is raised when it is first exceeded. -/
def State.judgeReserve (s : State) (p : Nat) (rx : Bool) : State :=
  if s.admitted then
    let isOver := s.beyondReserve p rx
    let x := s.portSt p
    let was := if rx then x.overRx else x.overTx
    let s := s.setPort p (if rx then { x with overRx := isOver } else { x with overTx := isOver })
    if isOver && !was then s.reserveExceeded p rx else s
  else s

/-- Every port direction judged: at the end of a guard. -/
def State.judgeReserves (s : State) : State :=
  (upto 24).foldl (fun (s : State) p => (s.judgeReserve p false).judgeReserve p true) s

/-! ### Lanes leaving and joining -/

/-- CONTROL and DATA by whether a data lane is in use (Table 13-5). -/
def State.settleLink (s : State) (p : Nat) : State :=
  let x := s.portSt p
  let st := s.obj (oLinkState p)
  if st = 3 ∧ x.useTx + x.useRx ≠ 0 then s.setObj (oLinkState p) 4
  else if st = 4 ∧ x.useTx + x.useRx = 0 then s.setObj (oLinkState p) 3
  else s

/-- The data lanes of a port removed: the class left MATCH at an end, or the link is DOWN or held. -/
def State.removeLanes (s : State) (p : Nat) : State :=
  (s.setPort p { s.portSt p with useTx := 0, useRx := 0, joinTx := 0, joinRx := 0 }).settleLink p

/-- A lane event, with LINK_LANE_MASK as its detail (R457). -/
def State.raiseLane (s : State) (e : Ev) (p : Nat) : State :=
  s.raiseWith e e.cls (e.detail p) (s.linkLaneMask p)

/-- A lane out of use (R321): LANE_REMOVED when it was in use, a report when it is a receive lane, and the
reserve judged, in a guard at its end. -/
def State.loseLane (s : State) (p : Nat) (rx : Bool) (n : Nat) : State :=
  let x := s.portSt p
  let was := bit (x.inUse rx) n
  let out := 2 ^ n
  let s := s.setPort p (if rx then
      { x with useRx := maskWithout x.useRx out, joinRx := maskWithout x.joinRx out }
    else { x with useTx := maskWithout x.useTx out, joinTx := maskWithout x.joinTx out })
  let s := (if was then s.raiseLane .laneRemoved p else s).settleLink p
  let s := if rx then s.sendReport p else s
  if s.bell.inGuard then s else s.judgeReserve p rx

/-- A lane that passed its training joins: at the end of the guard while a plan is admitted, at once
otherwise (R322). -/
def State.joinLane (s : State) (p : Nat) (rx : Bool) (n : Nat) : State :=
  let x := s.portSt p
  if bit (x.inUse rx) n then s
  else if s.admitted then
    s.setPort p (if rx then { x with joinRx := x.joinRx ||| 2 ^ n }
      else { x with joinTx := x.joinTx ||| 2 ^ n })
  else
    ((s.setPort p (if rx then { x with useRx := x.useRx ||| 2 ^ n }
      else { x with useTx := x.useTx ||| 2 ^ n })).settleLink p).raiseLane .laneReadded p

/-- An emergency switchover of an input came within the 5 µs before this guard (Table 12-9): re-adds of the
lanes it feeds wait for the next guard. -/
def State.emergencyNear (s : State) (input : Nat) : Bool :=
  match (Bank.get s.lasers LaserSt.init input).emergAt with
  | some t => decide (s.now ≤ t + 5000 + s.bell.off)
  | none => false

/-- The lanes of a port that join at the end of a guard, as far as they are still usable. -/
def State.takeJoins (s : State) (p : Nat) (rx : Bool) : State :=
  let x := s.portSt p
  let late := !rx && s.emergencyNear (p / 4)
  let ns := (setBitsOf 8 (if rx then x.joinRx else if late then 0 else x.joinTx)).filter (fun n =>
    s.linkOpen p && bit (s.planned p rx) n && !bit (s.heldLanes p rx) n &&
    (if rx then s.rxUsable p n else s.txUsable p n))
  let s := s.setPort p (if rx then { x with useRx := x.useRx ||| laneMask ns, joinRx := 0 }
    else { x with useTx := x.useTx ||| laneMask ns, joinTx := if late then x.joinTx else 0 })
  ns.foldl (fun s _ => s.raiseLane .laneReadded p) (s.settleLink p)

/-- The end of a guard: lanes join the masks and the reserves are judged (R322, R324). -/
def State.joinLanes (s : State) : State :=
  ((upto 24).foldl (fun (s : State) p => (s.takeJoins p false).takeJoins p true) s).judgeReserves

/-- Lanes in use that the map in force no longer plans leave their masks, without being lost (R293). -/
def State.trimLanes (s : State) : State :=
  (upto 24).foldl (fun (s : State) p =>
    let x := s.portSt p
    (s.setPort p { x with useTx := x.useTx &&& s.planned p false,
                          useRx := x.useRx &&& s.planned p true }).settleLink p) s

/-- Every transmit lane of a port that its own side keeps out of use, removed. -/
def State.dropUnclear (s : State) (p : Nat) : State :=
  ((setBitsOf 8 (s.portSt p).useTx).filter (fun n => !s.txClear p n)).foldl
    (fun s n => s.loseLane p false n) s

/-! ### Hellos and cabling classes (R327 to R333) -/

/-- The HELLO body that a port sends: during a warm reset the keeper's copy with RESETTING set (R328). -/
def State.helloSent (s : State) (p : Nat) : Bytes :=
  if s.power.warmReset.isSome then
    let c := (s.portSt p).helloCopy
    overwrite c 4 (natLe 1 (fieldLe c 4 1 ||| 8))
  else s.helloBody p

/-- A class with its PARTNER and CAUSE. -/
abbrev Classed := Nat × Nat × Nat

/-- The class of a hello: the first row of Table 13-4 that holds. -/
def State.classify (s : State) (p : Nat) (h : Bytes) : Classed :=
  let place := fieldLe h 2 2
  let port := fieldLe h 1 1
  let flags := fieldLe h 4 1
  let stated := s.obj (oPeerPort p)
  if fieldLe h 0 1 ≠ 1 then (1, 0xFF, 3)
  else if bit flags 0 = false then (1, 0xFF, 1)
  else if stated = 0xFF then (1, 0xFF, 2)
  else
    let placeOk := place == s.obj (oPeerPlace p)
    let portOk := port == stated
    let digOk := s.obj (oPeerDigest p) == 0 || s.obj (oPeerDigest p) == fieldLe h 8 8
    let seenOk := bit flags 1 && fieldLe h 5 1 == p && fieldLe h 6 2 == s.place
    let base := bit (fieldLe h 24 8) 0
    if placeOk && portOk && digOk && seenOk && base then (2, 0xFF, 0)
    else match (upto 24).find? (fun q => q != p && s.obj (oPeerPort q) != 0xFF &&
        s.obj (oPeerPort q) == port && s.obj (oPeerPlace q) == place) with
      | some q => (3, q, 0)
      | none => (4, 0xFF, if placeOk == false then 1 else if portOk == false then 2
          else if digOk == false then 3 else if seenOk == false then 4 else 5)

/-- A fibre of PLACES at this module's port: the far end. -/
def fibreAt (pl : Plan) (place p : Nat) : Option (Nat × Nat) :=
  pl.fibres.findSome? (fun f =>
    if f.placeA = place ∧ f.portA = p then some (f.placeB, f.portB)
    else if f.placeB = place ∧ f.portB = p then some (f.placeA, f.portA) else none)

/-- A planned link: a fibre of PLACES or a host port. -/
def State.plannedLink (s : State) (p : Nat) : Bool :=
  s.hostPort p || (match s.activePlan with
    | some pl => (fibreAt pl s.place p).isSome
    | none => false)

/-- Whether the fibre at a port is an edge of a tree. -/
def isEdge (t : Tree) (place p : Nat) (far : Option (Nat × Nat)) : Bool :=
  t.entries.any (fun e => (e.place == place && e.parentPort == p) ||
    (match far with | some f => e.place == f.1 && e.parentPort == f.2 | none => false))

/-- Whether a circuit passes through a place at a port. -/
def passesAt (c : Circuit) (place p : Nat) : Bool :=
  (decide (1 ≤ c.hops) && c.x1 == place && (c.x1in == p || c.x1out == p)) ||
  (decide (2 ≤ c.hops) && c.x2 == place && (c.x2in == p || c.x2out == p))

/-- The features that a plan needs of a planned link (Table 13-6). -/
def State.neededFeatures (s : State) (pl : Plan) (p : Nat) : Nat :=
  let me := s.place
  let far := fibreAt pl me p
  let res := pl.reserves.any (fun e => e.place == me && e.port == p && e.reserve != 0)
  let ends := pl.circuits.any (fun c => circuitEnds me p false c || circuitEnds me p true c)
  let pass := pl.circuits.any (fun c => passesAt c me p ||
    (match far with | some f => passesAt c f.1 f.2 | none => false))
  laneMask ([0, 9] ++ (if res then [1] else []) ++ (if pl.windows.isEmpty then [] else [2]) ++
    (if pl.hasEscape && isEdge pl.escape me p far then [3] else []) ++
    (if 1 < pl.maps then [4] else []) ++ (if ends then [5] else []) ++ (if pass then [6] else []) ++
    (if p = s.obj oTimeParentPort ∨ p = s.obj oTimeAltPort then [7] else []) ++
    (if isEdge pl.clean me p far then [8] else []))

/-- An ACCEPT in progress learns a class (R331): done when every port is MATCH, failed by another. -/
def State.noteAccept (s : State) (p cls : Nat) : State :=
  (upto 24).foldl (fun (s : State) q =>
    let x := s.portSt q
    if x.accepting.contains p then
      if cls = 2 then
        let rest := x.accepting.filter (fun r => r != p)
        let s := s.setPort q { x with accepting := rest }
        if rest.isEmpty then (s.raiseAt .cablingAccepted q 0).cmdDone (oAccept q) else s
      else (s.setPort q { x with accepting := [] }).cmdFail (oAccept q) abValueRange
    else s) s

/-- A port's class decided (R329, R330, R332, Table 13-5). -/
def State.setClass (s : State) (p : Nat) (c : Classed) : State :=
  let old := s.linkClass p
  let st := s.obj (oLinkState p)
  let changed := decide (c.1 ≠ old)
  let lose := changed && s.admitted && old == 2 && s.plannedLink p
  let s := s.setObj (oLinkClass p) (c.1 + c.2.1 * 2 ^ 8 + c.2.2 * 2 ^ 16)
  let s := if changed then s.raiseAt .linkClassChanged p (if lose then 3 else 0) else s
  let s := if st = 1 then s.setObj (oLinkState p) (if c.1 = 2 then 3 else 2)
    else if st = 2 ∧ c.1 = 2 then s.setObj (oLinkState p) 3
    else if 3 ≤ st ∧ c.1 ≠ 2 then (s.removeLanes p).setObj (oLinkState p) 2
    else s
  let s := if lose then s.faultC else s
  s.noteAccept p c.1

/-- A valid hello's class counted: three in a row that agree decide it (R329). -/
def State.voteClass (s : State) (p : Nat) (c : Classed) : State :=
  let x := s.portSt p
  let n := if x.cand = some c.1 then x.agree + 1 else 1
  let s := s.setPort p { x with cand := some c.1, agree := min n 3 }
  if 3 ≤ n then s.setClass p c else s

/-- The count of agreeing hellos begins again: the stated peer or the place changed. -/
def State.restate (s : State) (p : Nat) : State := s.setPort p { s.portSt p with cand := none, agree := 0 }

/-- NO_PEER, at once (R329, R485). -/
def State.noPeer (s : State) (p cause : Nat) : State :=
  (s.setPort p { s.portSt p with seen := false, peerMatch := false, cand := none, agree := 0 }).setClass p
    (0, 0xFF, cause)

/-- The far end's hellos begin to carry RESETTING (R325, R427): the lanes that end there are held. -/
def State.holdFar (s : State) (p : Nat) : State :=
  let s := s.setPort p { s.portSt p with resetSince := some s.now, resetSeen := true }
  let s := (upto 24).foldl (fun (s : State) q =>
    let x := s.portSt q
    (s.setPort q { x with useTx := maskWithout x.useTx (s.heldLanes q false),
                          useRx := maskWithout x.useRx (s.heldLanes q true) })) s
  let s := if s.obj (oLinkState p) = 4 then s.setObj (oLinkState p) 5 else s
  (upto 24).foldl (fun (s : State) q => s.settleLink q) s

/-- RESETTING clears (Table 13-5): a held link is CONTROL again, one that is DOWN with its lane C locked is
classified again (assumption 49). -/
def State.freeFar (s : State) (p : Nat) : State :=
  let s := s.setPort p { s.portSt p with resetSince := none }
  if s.obj (oLinkState p) = 5 then s.setObj (oLinkState p) 3 else s

/-- HELLO (R329, R333, R485): a hello received on a port. -/
def execHelloFrame (port : Port) (body : BitVec 256) (s : State) : Host.Outcome State Fault Refusal :=
  let s := s.quiet
  let p := port.val
  let h := natLe 32 body.toNat
  if s.flag (oCtrlRxPresent p) = false ∨ s.keeperOn = false then .next s
  else if 0x4000 ≤ fieldLe h 2 2 ∨ 0x4000 ≤ fieldLe h 6 2 then .next (s.bump (oRtBadPlace p))
  else
    let flags := fieldLe h 4 1
    let before := s.obj (oLinkFeaturesAgreed p)
    let agreed := (s.linkFeatures &&& fieldLe h 24 8) % 2 ^ 10
    let s := (s.setBlob (oHelloSeen p) h).setObj (oLinkFeaturesAgreed p) agreed
    let x := s.portSt p
    let s := s.setPort p { x with helloAt := s.now, seen := true, peerMatch := bit flags 2 }
    let resetting := bit flags 3
    let s := if s.obj (oLinkState p) = 0 ∧ resetting = false then s.setObj (oLinkState p) 1 else s
    let s := if resetting ∧ x.resetSince = none ∧ s.obj (oLinkState p) ≠ 0 then s.holdFar p
      else if resetting = false ∧ x.resetSince.isSome then s.freeFar p else s
    let s := if x.peerMatch && !bit flags 2 then s.removeLanes p else s
    let s := s.voteClass p (s.classify p h)
    match s.activePlan with
    | some pl =>
      let need := s.neededFeatures pl p
      if s.plannedLink p ∧ s.linkClass p = 2 ∧ before &&& need = need ∧ agreed &&& need ≠ need then
        .next (s.raiseAt .linkClassChanged p 3).faultC
      else .next s
    | none => .next s

/-- HELLO_SEND (R327, R328): the keeper sends a port's hello. -/
def execHelloSend (port : Port) (s : State) : Host.Outcome State Fault Refusal :=
  let s := s.quiet
  .next (s.ctlFrame port.val 0x01 none (s.helloSent port.val))

/-- HELLO_TIMEOUT (R329): no valid hello for 3 ms gives NO_PEER at once. -/
def execHelloTimeout (port : Port) (s : State) : Host.Outcome State Fault Refusal :=
  let s := s.quiet
  let p := port.val
  let x := s.portSt p
  if s.flag (oCtrlRxPresent p) ∧ (s.linkClass p ≠ 0 ∨ s.obj (oLinkState p) = 1) then
    .next ((s.advanceTo (max x.helloAt x.litSince + 3000000)).noPeer p 2)
  else .next s

/-- A write of ACCEPT (R331). -/
def State.actAccept (s : State) (p : Nat) : State :=
  let k := oAccept p
  let h := s.blob (oHelloSeen p)
  if s.planHeld then s.cmdFail k abPlanAdmitted
  else if s.linkClass p = 0 ∨ (s.portSt p).seen = false ∨ bit (fieldLe h 4 1) 0 = false then
    s.cmdFail k abValueRange
  else
    let q := bits (s.obj (oLinkClass p)) 8 8
    let ports := if s.linkClass p = 3 ∧ q < 24 ∧ (s.portSt q).seen then [p, q] else [p]
    let s := ports.foldl (fun (s : State) r =>
      let h := s.blob (oHelloSeen r)
      (((s.setObj (oPeerPlace r) (fieldLe h 2 2)).setObj (oPeerPort r) (fieldLe h 1 1)).setObj
        (oPeerDigest r) (fieldLe h 8 8)).restate r) s
    (s.setPort p { s.portSt p with accepting := ports }).cmdStart k

/-! ### Lane C gained and lost (R310, R325, R332) -/

/-- A hardware limit met (R309): counted, recorded and raised. -/
def State.limitHit (s : State) (code place lane : Nat) : State :=
  let w := code + place * 2 ^ 8 + lane * 2 ^ 16 + (s.bell.beat % 2 ^ 32) * 2 ^ 32
  ((s.bump oLimitHitCount).setObj oLastLimit w).raise .opticsLimit

/-- The data gate of a fibre closes (R310, limit 0x07 of Table 12-8): every data lane on it goes dark. -/
def State.closeGate (s : State) (p : Nat) : State :=
  if s.flag (oDataGate p) then
    let s := ((s.setObj (oDataGate p) 0).bump (oGateCloseCount p)).raiseAt .dataGateClosed p 0
    (s.limitHit 7 p 0).dropUnclear p
  else s

/-- LANE_C_LOCK (R310, Table 13-5): the peer's lane C gains light and signal lock. -/
def execLaneCLock (port : Port) (s : State) : Host.Outcome State Fault Refusal :=
  let s := s.quiet
  let p := port.val
  if s.flag (oCtrlRxPresent p) ∨ s.keeperOn = false then .next s
  else
    let s := s.setObj (oCtrlRxPresent p) 1
    let s := s.setPort p { s.portSt p with litSince := s.now, lostAt := none }
    .next (if s.obj (oLinkState p) = 0 then s.setObj (oLinkState p) 1 else s)

/-- LANE_C_LOSS (R310, R329, Table 03-1): the gate closes, the bell count loses its parent when it was
this one, and the class is NO_PEER. -/
def execLaneCLoss (port : Port) (s : State) : Host.Outcome State Fault Refusal :=
  let s := s.quiet
  let p := port.val
  if s.flag (oCtrlRxPresent p) then
    let s := s.setObj (oCtrlRxPresent p) 0
    let s := s.setPort p { s.portSt p with lostAt := some s.now }
    .next (((s.closeGate p).parentLost p).noPeer p 1)
  else .next s

/-- LINK_DOWN (R325, R332): class C on a planned link while a plan is admitted. -/
def State.linkFalls (s : State) (p : Nat) : State :=
  let lose := s.admitted && s.plannedLink p
  let s := s.setPort p { s.portSt p with lostAt := none, resetSince := none }
  let s := (s.removeLanes p).setObj (oLinkState p) 0
  let s := s.raiseAt .linkDown p (if lose then 3 else 0)
  if lose then s.faultC else s

/-- LINK_DOWN (R332): no signal lock of lane C for 100 µs. -/
def execLinkDown (port : Port) (s : State) : Host.Outcome State Fault Refusal :=
  let s := s.quiet
  let p := port.val
  match (s.portSt p).lostAt with
  | some t => .next ((s.advanceTo (t + 100000)).linkFalls p)
  | none => .next s

/-- RESETTING_TIMEOUT (R325): RESETTING not cleared within 2 s. -/
def execResettingTimeout (port : Port) (s : State) : Host.Outcome State Fault Refusal :=
  let s := s.quiet
  let p := port.val
  match (s.portSt p).resetSince with
  | some t => .next ((s.advanceTo (t + 2000000000)).linkFalls p)
  | none => .next s

/-! ### Receive lanes, training and reports (R301, R321, R322) -/

/-- LANE_SIGNAL_LOSS (R321): a receiver loses signal lock or light. -/
def execLaneSignalLoss (port : Port) (lane : Lane) (s : State) : Host.Outcome State Fault Refusal :=
  let s := s.quiet
  let x := s.portSt port.val
  .next ((s.setPort port.val { x with darkRx := x.darkRx ||| 2 ^ lane.val }).loseLane port.val true lane.val)

/-- LANE_SIGNAL_LOCK (R322): a receiver regains signal lock. -/
def execLaneSignalLock (port : Port) (lane : Lane) (s : State) : Host.Outcome State Fault Refusal :=
  let s := s.quiet
  let x := s.portSt port.val
  .next (s.setPort port.val { x with darkRx := maskWithout x.darkRx (2 ^ lane.val) })

/-- A mismatch recorded and WAVELENGTH_MISMATCH raised (0x5000.09, 0x5000.0A). -/
def State.mismatch (s : State) (word : Nat) : State :=
  ((s.bump oMismatchCount).setObj oLastMismatch (word + (s.bell.beat % 2 ^ 32) * 2 ^ 32)).raise
    .wavelengthMismatch

/-- The first failure of a rehearsal (R296). -/
def State.prepFail (s : State) (map port lane cause : Nat) : State :=
  if s.obj oPrepareState = 2 then
    let w := bits (s.obj oPrepareResult) 0 8 + map * 2 ^ 8 + port * 2 ^ 16 + lane * 2 ^ 24 + cause * 2 ^ 28
    ((s.setObj oPrepareState 4).setObj oPrepareResult w).cmdFail oPrepare 0x0303
  else s

/-- The source that a received lane's training frames are to name: place and port (R301). -/
def State.expectedSource (s : State) (p n : Nat) : Option (Nat × Nat) :=
  (s.linkOf p true n).map (fun l => l.1)

/-- A lane's identity recorded as verified in the rehearsal's map (R296). -/
def State.prepSeen (s : State) (p : Nat) (rx : Bool) (n : Nat) : State :=
  match s.prep with
  | some q =>
    if s.obj oPrepareState = 2 ∨ s.obj oPrepareState = 4 then
      let k := (q.map * 2 + b2n rx) * 192 + 8 * p + n
      let seen := k :: q.seen.filter (fun e => e != k)
      { s with prep := some { q with seen := seen } }
    else s
  | none => s

/-- The credit round trip measured on a received lane of a map at the last rehearsal or since, ns (R337). -/
def State.laneRtt (s : State) (p m n : Nat) : Nat := Bank.get (s.portSt p).rtts 0 (8 * m + n)

/-- A round trip measured on a received lane, in the map that is rehearsed or in force; RTT_NS shows the longest. -/
def State.noteRtt (s : State) (p n rttNs : Nat) : State :=
  let m := match s.prep with
    | some q => if q.isOver then s.obj oMapNow else q.map
    | none => s.obj oMapNow
  let r := Bank.set (s.portSt p).rtts 0 (8 * m + n) rttNs
  (s.setPort p { s.portSt p with rtts := r }).setObj (oRttNs p) ((r.map (fun e => e.2)).foldl max 0)

/-- A training frame of the expected transmitter: the lane's identity matches, its RTT is noted, and the lane is
seen by a preparation, joined and reported (R301, R322). -/
def State.frameMatched (s : State) (p n rttNs : Nat) : State :=
  let s := s.setPort p { s.portSt p with badRx := maskWithout (s.portSt p).badRx (2 ^ n) }
  let id := s.obj (oLaneIdentity p)
  let s := s.setObj (oLaneIdentity p) ((id % 256 ||| 2 ^ n) + maskWithout (bits id 8 8) (2 ^ n) * 256)
  let s := s.noteRtt p n rttNs
  ((s.prepSeen p true n).joinLane p true n).sendReport p

/-- The preparation in progress fails at a lane, if there is one. -/
def State.prepMismatch (s : State) (p n : Nat) : State :=
  match s.prep with
  | some q => s.prepFail q.map p n 2
  | none => s

/-- A training frame of another transmitter: the lane's identity does not match, the mismatch is raised, a
preparation fails and the lane is lost (R301, R322). -/
def State.frameMismatched (s : State) (p n : Nat) : State :=
  let s := s.setPort p { s.portSt p with badRx := (s.portSt p).badRx ||| 2 ^ n }
  let id := s.obj (oLaneIdentity p)
  let s := s.setObj (oLaneIdentity p) (maskWithout (id % 256) (2 ^ n) + (bits id 8 8 ||| 2 ^ n) * 256)
  ((s.mismatch (p + n * 2 ^ 8 + 0xF * 2 ^ 12 + 2 ^ 16)).prepMismatch p n).loseLane p true n

/-- TRAINING_FRAME (R301, R322): the sink checks the identity of a lane to be added. -/
def execTrainingFrame (t : Training) (s : State) : Host.Outcome State Fault Refusal :=
  let s := s.quiet
  let p := t.port.val
  let n := t.lane.val
  match s.expectedSource p n with
  | some src =>
    if s.linkOpen p = false ∨ s.rxClear p n = false ∨ (s.admitted = true ∧ s.bell.inGuard = false) then
      .next s
    else if t.place.toNat = src.1 ∧ t.srcPort.toNat = src.2 ∧ t.srcLane.toNat = n then
      .next (s.frameMatched p n t.rttNs.toNat)
    else .next (s.frameMismatched p n)
  | none => .next s

/-- The lanes that start at a port and end at its direct neighbour. -/
def State.nearLanes (s : State) (p : Nat) : Nat :=
  let near := fieldLe (s.blob (oHelloSeen p)) 2 2
  ((s.dataLinks p false).filter (fun l => l.1.1 == near || s.hostPort p)).foldl (fun a l => a ||| l.2) 0

/-- What the far receiver finds of the lanes `mask` that start at a port (R302, R321, R322): lanes unusable there leave
use, those that passed their training join, and the received OMA is noted with its beat. -/
def State.takeReport (s : State) (p mask : Nat) (r : LaneReport) : State :=
  let x := s.portSt p
  let lost := (r.unusable.toNat ||| r.failed.toNat) &&& mask
  let passed := maskWithout (r.passed.toNat &&& mask) lost
  let seen := (setBitsOf 8 mask).foldl (fun b n =>
    Bank.set b 0 n (s.bell.beat * 65536 + ((r.oma[n]?).getD 0x8000).toNat)) x.reports
  let s := s.setPort p { x with badTx := maskWithout (x.badTx ||| lost) passed, reports := seen }
  let s := (setBitsOf 8 (x.useTx &&& lost)).foldl (fun (s : State) n => s.loseLane p false n) s
  let may := s.linkOpen p && (s.admitted == false || s.bell.inGuard)
  let ns := (setBitsOf 8 passed).filter (fun n =>
    may && bit (s.planned p false) n && !bit (s.heldLanes p false) n && s.txUsable p n)
  ns.foldl (fun (s : State) n => (s.prepSeen p false n).joinLane p false n) s

/-- LANE_REPORT (R302, R321, R322): what the direct neighbour's receiver finds of the lanes that start at a port and end
there. -/
def execLaneReport (port : Port) (r : LaneReport) (s : State) : Host.Outcome State Fault Refusal :=
  let s := s.quiet
  let p := port.val
  if s.linkClass p ≠ 2 ∨ s.flag (oCtrlRxPresent p) = false then .next s
  else .next (s.takeReport p (s.nearLanes p) r)

/-! ### Sequenced frames (R326) -/

/-- CONTROL_ACK (R326): the far end acknowledges sequenced frames cumulatively and tells its management credits. -/
def execControlAck (port : Port) (a : CtlAck) (s : State) : Host.Outcome State Fault Refusal :=
  let s := s.quiet
  let p := port.val
  let x := s.portSt p
  let left := x.ctlSent.filter (fun f =>
    decide (2048 ≤ (a.seq.toNat + 4096 - f.seq) % 4096) || f.sentAt == none)
  .next ((s.setPort p { x with ctlSent := left, mgmtCredit := a.credits.toNat }).pumpCtl p)

/-- CONTROL_ACK_SEND (R326): sent every 1 µs while any sequenced frame is outstanding, with the management credits: the
count of management flits freed, as Table 13-1 counts freed flits (assumption 95). -/
def execControlAckSend (port : Port) (s : State) : Host.Outcome State Fault Refusal :=
  let s := s.quiet
  let p := port.val
  let x := s.portSt p
  if x.ackDue then
    .next ((s.setPort p { x with ackDue := false }).ctlFrame p 0x09 none
      (natLe 2 ((x.ctlExpect + 4095) % 4096) ++ natLe 2 (x.mgmtFreed % 4096)))
  else .next s

/-- LANE_C_RESEND (R326): the oldest sequenced frame not acknowledged 2 µs after it was sent is sent
again. -/
def execLaneCResend (port : Port) (s : State) : Host.Outcome State Fault Refusal :=
  let s := s.quiet
  let p := port.val
  match (s.portSt p).ctlSent with
  | f :: rest =>
    match f.sentAt with
    | some t =>
      let s := s.advanceTo (t + 2000)
      .next ((s.setPort p { s.portSt p with ctlSent := { f with sentAt := some s.now } :: rest }).ctlFrame p
        f.type (some f.seq) f.body)
    | none => .next s
  | [] => .next s

end Sys2Proof.Machine
end

