-- ==== Sys2Proof/Machine/Optics.lean ====
section
/-! DEFINITION. Optical ports, lasers and the crossroads (chapter 12): the routes of a map, ring lock and
identity, margins, supply requests and switchovers, control lasers, the hardware limits and the data
gate, and the rehearsal's blocks. -/

namespace Sys2Proof.Machine

/-! ### Rings -/

/-- The key of a ring. -/
def ringKey : RingId → Nat
  | .tx p n => txKey p.val n.val
  | .xp p n => xpKey p.val n.val
  | .monitor i t n => monKey i.val (b2n t) n.val

/-- The port, input fibre or laser input of a ring key, and its lane or line. -/
def ringPlace (k : Nat) : Nat := if k < 192 then k / 8 else if k < 384 then (k - 192) / 8 else (k - 384) / 16
def ringLane (k : Nat) : Nat := k % 8

/-- The key of a ring's verified setting: a crosspoint's names its output as well. -/
def State.settingKey (s : State) (k : Nat) : Nat :=
  if k < 192 ∨ 384 ≤ k then k
  else
    let i := ringPlace k
    let n := ringLane k
    let r := s.route i n
    1024 + (i * 24 + (if r = 0xFE then i else r)) * 8 + n

/-- The verified setting of a ring, MHz from its target. -/
def State.setting? (s : State) (k : Nat) : Option Int :=
  match Bank.get s.settings 0 (s.settingKey k) with
  | 0 => none
  | v + 1 => some (Int.ofNat v - 400000)

/-- A ring's setting recorded as verified. -/
def State.noteSetting (s : State) (k : Nat) (mhz : Int) : State :=
  { s with settings := Bank.set s.settings 0 (s.settingKey k) ((mhz + 400000).toNat + 1) }

/-- A ring at the start of a sweep. -/
def Micro.sweeping (m : Micro) (s : State) : Micro :=
  { m with state := 1, steps := 0, cands := [], limited := false, track := 0, want := 0, waits := false,
           stepAt := s.now, stepBeat := s.bell.beat }

/-- A PARKED ring given a route, lane or line: LOCKED at its verified setting, else SWEEPING (Table
12-7). -/
def State.giveRing (s : State) (k : Nat) : State :=
  match s.setting? k with
  | some v => s.setRingAt k { Micro.init with
      state := 4, setting := v, stepAt := s.now, stepBeat := s.bell.beat }
  | none => s.setRingAt k (Micro.init.sweeping s)

/-- A ring whose route or lane is withdrawn is PARKED. -/
def State.parkRing (s : State) (k : Nat) : State := s.setRingAt k Micro.init

/-- The lanes through a ring: those of this module leave use, one that passes through is reported (R300, R321). -/
def State.ringLanesLost (s : State) (k : Nat) : State :=
  let n := ringLane k
  if k < 192 then s.loseLane (k / 8) false n
  else if k < 384 then
    (if s.route (ringPlace k) n = 0xFE then s.loseLane (ringPlace k) true n
    else if s.route (ringPlace k) n < 24 then s.reportPass (ringPlace k) n else s)
  else
    let i := ringPlace k
    if (k - 384) / 8 % 2 = s.obj (oInService i) then
      (upto 4).foldl (fun (s : State) j =>
        if bit (s.portSt (4 * i + j)).useTx n then s.loseLane (4 * i + j) false n else s) s
    else s

/-- A ring that leaves LOCKED for SWEEPING: RING_UNLOCK, its lanes out of use (R299, R300). -/
def State.unlockRing (s : State) (k : Nat) : State :=
  let s := s.setRingAt k { (s.ringAt k).sweeping s with unlocked := true }
  (s.raise .ringUnlock).ringLanesLost k

/-- The word of a pilot mismatch (0x5000.0A). -/
def mismatchWord (k : Nat) (seen : Option Tone) : Nat :=
  let kind := if k < 192 then 0 else if k < 384 then 1 else 2
  ringPlace k + (if kind = 2 then (k - 384) / 8 % 2 * 2 ^ 5 else 0) + ringLane k * 2 ^ 8 +
  (match seen with | some t => b2n t.twin * 2 ^ 11 + t.line.val * 2 ^ 12 | none => 0xF * 2 ^ 12) +
  kind * 2 ^ 17

/-- The first tone of a window that is not of the intended line. -/
def wrongTone (n : Nat) (ts : List Tone) : Option Tone := ts.find? (fun t => t.line.val != n)

/-- The candidates of a sweep in order of their distance from the target, the lower step first on a tie. -/
def orderCands (cs : List Nat) : List Nat :=
  (upto 33).flatMap (fun d => cs.filter (fun c => (Int.ofNat c - 32).natAbs == d))

/-- A FAILED ring fails the rehearsal that runs (R296). -/
def State.ringFails (s : State) (k cause : Nat) : State :=
  let m := s.ringAt k
  let s := s.setRingAt k { m with state := 6, cands := [] }
  let s := match s.prep with
    | some q => if k < 384 ∧ q.isOver = false then
        s.prepFail q.map (ringPlace k) (ringLane k) (if m.limited then 4 else cause) else s
    | none => s
  s.ringLanesLost k

/-- The heater of a ring set to its nearest candidate. -/
def State.moveHeater (s : State) (k : Nat) : State :=
  let m := s.ringAt k
  match m.cands with
  | c :: rest =>
    s.setRingAt k { m with state := 2, cands := rest, track := 0, want := 0, waits := false,
                           setting := (Int.ofNat c - 32) * 12500, stepAt := s.now, stepBeat := s.bell.beat }
  | [] => s

/-- LOCKING at the nearest candidate: under a plan the heater moves at the next guard (R298). -/
def State.beginLocking (s : State) (k : Nat) : State :=
  if s.admitted then s.setRingAt k { s.ringAt k with state := 2, waits := true } else s.moveHeater k

/-- A heater's power and all heaters' together as a request would make them (R309, limits 0x04 and 0x05): the limits met
are hit, and HEATER_TOTAL_MW shows the total that stands. -/
def State.heat (s : State) (k ringMw totalMw : Nat) : State :=
  let s := s.setObj oHeaterTotalMw (min 60000 totalMw)
  let s := if 8 < ringMw then s.limitHit 4 (ringPlace k) (ringLane k) else s
  if 60000 < totalMw then s.limitHit 5 (ringPlace k) (ringLane k) else s

/-- RING_SWEEP_STEP (R299, R309): one step of a sweep, under a plan one per guard, otherwise one per 5 µs; after the last
the ring is LOCKING at its nearest candidate. -/
def execRingSweepStep (ring : RingId) (resonance : Bool) (ringMw : Byte) (totalMw : W32) (s : State) :
    Host.Outcome State Fault Refusal :=
  let s := s.quiet
  let k := ringKey ring
  let m := s.ringAt k
  if m.state ≠ 1 ∨ 65 ≤ m.steps then .next s
  else if s.admitted = true ∧ (s.bell.inGuard = false ∨ s.bell.beat ≤ m.stepBeat) then .next s
  else
    let s := if s.admitted then s else s.advanceTo (m.stepAt + 5000)
    let isOver := decide (60000 < totalMw.toNat)
    let s := s.heat k ringMw.toNat totalMw.toNat
    let cands := if resonance && !isOver then m.cands ++ [m.steps] else m.cands
    let limited := m.limited || isOver || decide (8 < ringMw.toNat)
    let s := s.setRingAt k { m with
      steps := m.steps + 1, cands := cands, limited := limited, stepAt := s.now, stepBeat := s.bell.beat }
    if m.steps + 1 < 65 then .next s
    else if cands = [] then
      .next ((if m.unlocked then s.raise .ringUnlock else s).ringFails k 3)
    else
      .next ((s.setRingAt k { s.ringAt k with cands := orderCands cands }).beginLocking k)

/-- RING_LOCK_SETTLED (R299): the lock loop has settled, once the heater has moved. -/
def execRingLockSettled (ring : RingId) (s : State) : Host.Outcome State Fault Refusal :=
  let s := s.quiet
  let k := ringKey ring
  let m := s.ringAt k
  if m.state = 2 ∧ m.waits = false then .next (s.setRingAt k { m with state := 3 }) else .next s

/-- A ring's correction, MHz from its setting (R298, limit 0x06 of Table 12-8): without a plan it makes a new setting;
under one it holds within ±25 GHz and waits for the guard beyond, and a ring more than ±50 GHz off unlocks. -/
def State.trackRing (s : State) (k : Nat) (mhz : Int) : State :=
  let m := s.ringAt k
  let want := clampInt 400000 (m.setting + mhz) - m.setting
  let s := if want = mhz then s else s.limitHit 6 (ringPlace k) (ringLane k)
  if s.admitted = false then s.setRingAt k { m with setting := m.setting + want, track := 0, want := 0 }
  else if 50000 < mhz.natAbs then s.unlockRing k
  else s.setRingAt k { m with track := clampInt 25000 want, want := want }

/-- A ring becomes LOCKED in a window that shows its tone. -/
def State.lockRing (s : State) (k : Nat) : State :=
  let m := s.ringAt k
  let s := (s.setRingAt k { m with state := 4, unlocked := false, dark := false, cands := [] }).noteSetting k
    (m.setting + m.track)
  if m.unlocked then s.raise .ringRelocked else s

/-- A monitor ring's power recorded in LINE_POWER (0x5010 + input sub-index 0x06). -/
def State.notePower (s : State) (k power : Nat) : State :=
  if 384 ≤ k then
    let o := oLinePower (ringPlace k)
    s.setBlob o (overwrite (s.blob o) (2 * ((k - 384) % 16)) (natLe 2 power))
  else s

/-- TONE_WINDOW (R297, R299): a 200 µs window of a ring ends; `tones` lists the tones it shows. -/
def execToneWindow (ring : RingId) (tones : List Tone) (power : W16) (trackMhz : W32) (s : State) :
    Host.Outcome State Fault Refusal :=
  let s := s.quiet
  let k := ringKey ring
  let n := ringLane k
  let m := s.ringAt k
  let wrong := wrongTone n tones
  let right := !tones.isEmpty && wrong.isNone
  let s := s.notePower k power.toNat
  if m.state = 3 then
    if right then .next (s.lockRing k)
    else
      let s := s.mismatch (mismatchWord k wrong)
      match m.cands with
      | _ :: _ => .next (s.beginLocking k)
      | [] => .next (s.ringFails k (if tones.isEmpty then 3 else 1))
  else if m.state = 4 then
    if wrong.isSome then .next ((s.mismatch (mismatchWord k wrong)).unlockRing k)
    else .next (s.trackRing k (toSigned 32 trackMhz.toNat))
  else if m.state = 5 ∧ m.dark = false then
    if right then .next (s.setRingAt k { m with state := 4 })
    else if wrong.isSome then .next ((s.mismatch (mismatchWord k wrong)).unlockRing k)
    else .next s
  else .next s

/-- RING_LIGHT_LOSS (R299): no light for 10 µs puts a LOCKED ring in HOLDING. -/
def execRingLightLoss (ring : RingId) (s : State) : Host.Outcome State Fault Refusal :=
  let s := s.quiet
  let k := ringKey ring
  let m := s.ringAt k
  if m.state = 4 then .next ((s.setRingAt k { m with state := 5, dark := true }).ringLanesLost k)
  else .next s

/-- RING_LIGHT_RETURN (R299): light returns to a HOLDING ring; its next window decides. -/
def execRingLightReturn (ring : RingId) (s : State) : Host.Outcome State Fault Refusal :=
  let s := s.quiet
  let k := ringKey ring
  let m := s.ringAt k
  if m.state = 5 then .next (s.setRingAt k { m with dark := false }) else .next s

/-- RING_DRIFT (R298, R309): a LOCKED ring's resonance has drifted from its setting. The ring unlocks where a heater
limit keeps it from being held, and under a plan beyond ±50 GHz; otherwise it is corrected. -/
def execRingDrift (d : RingDrift) (s : State) : Host.Outcome State Fault Refusal :=
  let s := s.quiet
  let k := ringKey d.ring
  if (s.ringAt k).state ≠ 4 then .next s
  else
    let s := s.heat k d.ringMw.toNat d.totalMw.toNat
    if 8 < d.ringMw.toNat ∨ 60000 < d.totalMw.toNat then .next (s.unlockRing k)
    else .next (s.trackRing k (toSigned 32 d.driftMhz.toNat))

/-- The retuning of a guard (R298): wanted corrections become settings, and heaters that wait move to the nearest
candidate. -/
def State.retune (s : State) : State :=
  s.micro.foldl (fun (s : State) e =>
    let m := e.2
    if m.state = 4 ∧ m.want ≠ 0 then
      s.setRingAt e.1 { m with setting := m.setting + m.want, track := 0, want := 0 }
    else if m.state = 2 ∧ m.waits = true then s.moveHeater e.1
    else s) s

/-! ### Routes (R286, R290, R293) -/

/-- The route of (i, n) at a place in a map of a plan. -/
def routeIn (pl : Plan) (m place i n : Nat) : Nat :=
  match pl.circuits.findSome? (fun c =>
    if c.map ≠ m ∨ c.lane ≠ n then none
    else if c.dst = place ∧ c.dstPort = i then some 0xFE
    else if 1 ≤ c.hops ∧ c.x1 = place ∧ c.x1in = i then some c.x1out
    else if 2 ≤ c.hops ∧ c.x2 = place ∧ c.x2in = i then some c.x2out
    else none) with
  | some r => r
  | none => 0xFF

/-- Whether lane `n` starts at port `p` of a place in a map. -/
def startsIn (pl : Plan) (m place p n : Nat) : Bool :=
  pl.circuits.any (fun c => c.map == m && c.lane == n && circuitEnds place p false c)

/-- A crosspoint route set (R293): parked when it differs, and the ring of the new route set. -/
def State.setRoute (s : State) (i n r : Nat) : State :=
  let k := xpKey i n
  let old := s.route i n
  let st := (s.ringAt k).state
  if r = old ∧ (r = 0xFF ∨ (st ≠ 0 ∧ st ≠ 6)) then s
  else
    let s := s.setObj (oXrRoute i) (setBits (s.obj (oXrRoute i)) (8 * n) 8 r)
    if r = 0xFF then s.parkRing k else s.giveRing k

/-- A transmit lane given to, or withdrawn from, its ring. -/
def State.setTx (s : State) (p n : Nat) (on : Bool) : State :=
  let st := (s.ringAt (txKey p n)).state
  if on then (if st = 0 ∨ st = 6 then s.giveRing (txKey p n) else s)
  else if st = 0 then s else s.parkRing (txKey p n)

/-- Every (port, lane). -/
def allLanes : List (Nat × Nat) := (upto 192).map (fun x => (x / 8, x % 8))

/-- The routes and transmitters of a map set; the lanes that the map no longer plans leave use. -/
def State.setRoutes (s : State) (pl : Plan) (m : Nat) : State :=
  let s := allLanes.foldl (fun (s : State) e =>
    s.setRoute e.1 e.2 (if s.hostPort e.1 then 0xFE else routeIn pl m s.place e.1 e.2)) s
  allLanes.foldl (fun (s : State) e =>
    s.setTx e.1 e.2 (s.hostPort e.1 || startsIn pl m s.place e.1 e.2)) s

/-- The map in force at a step beat (R290). -/
def mapAt (pl : Plan) (b : Nat) : Nat :=
  match (pl.schedule.filter (fun e => decide (e.stepBeat ≤ b))).getLast? with
  | some e => e.map
  | none => 0

/-- A lane of a port direction that the same circuit takes in two maps. -/
def sameLane (pl : Plan) (old new place p : Nat) (rx : Bool) (n : Nat) : Bool :=
  let c := fun (m : Nat) => ((endsIn pl m place p rx).find? (fun c => c.lane == n)).map (fun c => { c with map := 0 })
  c old == c new

/-- The lanes whose circuit a new map does not keep leave use; they are added anew, their identity verified (R293,
R301). -/
def State.dropMovedLanes (s : State) (pl : Plan) (old new : Nat) : State :=
  (upto 24).foldl (fun (s : State) p =>
    if s.hostPort p then s
    else
      let x := s.portSt p
      let keep := fun (rx : Bool) => laneMask ((upto 8).filter (sameLane pl old new s.place p rx))
      s.setPort p { x with useTx := x.useTx &&& keep false, useRx := x.useRx &&& keep true }) s

/-- Data links of this module that two maps join otherwise start anew: their groups are replayed on no link
(Table 13-8). -/
def State.dropChangedLinks (s : State) (pl : Plan) (old new : Nat) : State :=
  let same := fun (rx : Bool) (k : Nat) =>
    s.hostPort (k / 8) ||
    ((linksIn pl old s.place (k / 8) rx).find? (fun l => lowestLane l.2 == k % 8)) ==
      ((linksIn pl new s.place (k / 8) rx).find? (fun l => lowestLane l.2 == k % 8))
  { s with txLinks := s.txLinks.filter (fun e => same false e.1),
           rxLinks := s.rxLinks.filter (fun e => same true e.1) }

/-- The circuits and wavelength reassignment of a guard under a plan (Table 03-2, R293). -/
def State.changeMap (s : State) (pl : Plan) (m : Nat) : State :=
  let old := s.obj oMapNow % 255
  if m = old then s
  else
    let s := (s.setObj oMapNow m).bump oMapChangeCount
    (((s.dropChangedLinks pl old m).dropMovedLanes pl old m).setRoutes pl m).trimLanes

/-! ### Training frames (R322) -/

/-- A training frame: its marker, place, port, lane and map, and PRBS31 from the generator's state, of which the spec
gives no phase (a free value, assumption 96). -/
def State.trainingFrame (s : State) (p n m phase : Nat) : Bytes :=
  natLe 4 0xA5C30F96 ++ natLe 2 s.place ++ natLe 1 p ++ natLe 1 n ++ natLe 1 m ++
    natLe 55 (prbs31 440 (1 + phase % (2 ^ 31 - 1)))

/-- A training frame sent on a lane. -/
def State.emitTraining (s : State) (p n m : Nat) : State :=
  let r := s.fresh
  r.2.emit (.training p n (r.2.trainingFrame p n m r.1))

/-- Training frames sent on every planned transmit lane that is not in use and that its own side leaves
clear; `all` sends them on the lanes in use as well, as a rehearsal does. -/
def State.sendTraining (s : State) (all : Bool) : State :=
  let m := match s.linkPlan with | some q => q.2 | none => 0
  allLanes.foldl (fun (s : State) e =>
    if s.linkOpen e.1 && bit (s.planned e.1 false) e.2 && s.txClear e.1 e.2 &&
      (all || !bit (s.portSt e.1).useTx e.2) && !bit (s.heldLanes e.1 false) e.2 then
      s.emitTraining e.1 e.2 m else s) s

/-! ### Laser sources (R282 to R285, R302 to R307) -/

/-- A laser input. -/
def State.laser (s : State) (i : Nat) : LaserSt := Bank.get s.lasers LaserSt.init i

/-- A laser input replaced. -/
def State.setLaser (s : State) (i : Nat) (l : LaserSt) : State :=
  { s with lasers := Bank.set s.lasers LaserSt.init i l }

/-- Whether a line of a source is stated present with its frequency (R283). -/
def State.stated (s : State) (i src n : Nat) : Bool :=
  bit (s.obj (oStatedPresent i)) (8 * src + n) &&
  s.obj (if src = 0 then oStatedD0Mhz i else oStatedTwinD0Mhz i) != 0

/-- The monitor bank of an input after a statement: a ring begins to sweep for a line newly stated and is
PARKED for one no longer stated. -/
def State.restateLaser (s : State) (i : Nat) : State :=
  (upto 16).foldl (fun (s : State) j =>
    let k := monKey i (j / 8) (j % 8)
    let st := (s.ringAt k).state
    if s.stated i (j / 8) (j % 8) then (if st = 0 ∨ st = 6 then s.giveRing k else s)
    else if st = 0 then s
    else
      let s := { s with settings := Bank.set s.settings 0 k 0 }
      (s.parkRing k).ringLanesLost k) s

/-- VERIFIED (0x5010 + input sub-index 0x05). -/
def State.verifiedLines (s : State) (i : Nat) : Nat :=
  ((upto 16).filter (fun j => s.locked (monKey i (j / 8) (j % 8)))).foldl (fun a j => a + 2 ^ j) 0

/-- The lanes that an input feeds (R302): local in the map in force, or with no plan lit. -/
def State.fed (s : State) (i : Nat) : List (Nat × Nat) :=
  ((upto 32).map (fun x => (4 * i + x / 8, x % 8))).filter (fun e =>
    if s.admitted then bit (s.planned e.1 false) e.2 else s.locked (txKey e.1 e.2))

/-- A signed 16-bit entry of a list of them. -/
def i16At (b : Bytes) (j : Nat) : Int := toSigned 16 (fieldLe b (2 * j) 2)

/-- The declared loss of the circuit that starts at (p, n) in the map in force, 0.01 dB; 3.00 dB where none
is declared (R302). -/
def State.lossOf (s : State) (p n : Nat) : Int :=
  match s.linkPlan.bind (fun q => q.1.circuits.find? (fun c =>
      c.map == q.2 && c.lane == n && circuitEnds s.place p false c)) with
  | some c => Int.ofNat c.loss
  | none => 300

/-- M_tx of a lane, 0.01 dB (R302). -/
def State.marginTx (s : State) (p n : Nat) : Int := i16At (s.blob (oTxPower p)) n - s.lossOf p n + 600

/-- M of a lane, 0.01 dB (R302): a sink's report counts while it is no older than 4 beats and shows
light. -/
def State.marginOf (s : State) (p n : Nat) : Int :=
  let r := Bank.get (s.portSt p).reports 0 n
  let oma := toSigned 16 (r % 65536)
  if r ≠ 0 ∧ s.bell.beat ≤ r / 65536 + 4 ∧ r % 65536 ≠ 0x8000 then min (s.marginTx p n) (oma + 600)
  else s.marginTx p n

/-- The power of a line of a source at the monitors, 0.01 dBm. -/
def State.linePower (s : State) (i src n : Nat) : Int := i16At (s.blob (oLinePower i)) (8 * src + n)

/-- The source in service and the other one. -/
def State.source (s : State) (i : Nat) : Nat := s.obj (oInService i)
def State.standby (s : State) (i : Nat) : Nat := 1 - s.obj (oInService i)

/-- The estimated margin of a lane on the standby source (R306). -/
def State.marginStandby (s : State) (i p n : Nat) : Int :=
  s.marginOf p n + (s.linePower i (s.standby i) n - s.linePower i (s.source i) n)

/-- Whether the standby is verified on every line that feeds a lane, with at least `least` of margin. -/
def State.standbyFit (s : State) (i : Nat) (least : Int) : Bool :=
  (s.fed i).all (fun e => s.stated i (s.standby i) e.2 && s.locked (monKey i (s.standby i) e.2) &&
    decide (least ≤ s.marginStandby i e.1 e.2))

/-- Whether the standby is eligible for a planned switchover (R306). -/
def State.eligible (s : State) (i : Nat) : Bool :=
  s.standbyFit i 200 && (s.fed i).all (fun e =>
    let a := s.ringAt (monKey i (s.source i) e.2)
    let b := s.ringAt (monKey i (s.standby i) e.2)
    decide (((a.setting + a.track) - (b.setting + b.track)).natAbs ≤ 10000))

/-- The address of a source's supply (0x5020). -/
def State.supplyAddr (s : State) (src : Nat) : Nat := s.obj (if src = 0 then oLscPrimaryAddr else oLscTwinAddr)

/-- A request sent to a laser supply (R285), where the supply has an address. -/
def State.askSupply (s : State) (i src op line level : Nat) : State :=
  if s.supplyAddr src = 0 then s
  else
    let r : LscReq := ⟨i, src == 1, op, line, level, s.now, false⟩
    { s with lsc := s.lsc ++ [r] }.emit (.laser (s.supplyAddr src) op line level)

/-- The level of a line of a source (0x5010 + input sub-index 0x07). -/
def State.levelOf (s : State) (i src n : Nat) : Nat := bits (s.obj (oLevels i)) (32 * src + 4 * n) 4

/-- More light asked of a line whose lanes are launched too low (R303). -/
def State.raiseLine (s : State) (i n : Nat) : State :=
  let src := s.source i
  let l := s.laser i
  let lv := s.levelOf i src n
  if 12 ≤ lv then
    (if l.ceilings.contains (8 * src + n) then s
    else (s.setLaser i { l with ceilings := l.ceilings ++ [8 * src + n] }).raiseAt .laserRequestCeiling i 0)
  else if Bank.get l.asked 0 (8 * src + n) = s.bell.beat + 1 then s
  else
    (s.setLaser i { l with asked := Bank.set l.asked 0 (8 * src + n) (s.bell.beat + 1) }).askSupply i src 0 n
      (lv + 1)

/-- LASER_TWIN_UNAVAILABLE, once (R307). -/
def State.twinUnavailable (s : State) (i : Nat) : State :=
  let l := s.laser i
  if l.twinOut then s else (s.setLaser i { l with twinOut := true }).raiseAt .laserTwinUnavailable i 0

/-- An input's source replaced by the other (R304, R305). -/
def State.switchOver (s : State) (i : Nat) (emergency ceiling : Bool) (m : Int) : State :=
  let dst := s.standby i
  let w := dst + b2n emergency * 2 + b2n ceiling * 4 + ofSigned 16 m * 2 ^ 16 +
    (s.bell.beat % 2 ^ 32) * 2 ^ 32
  let s := (((s.setObj (oInService i) dst).bump (oSwitchoverCount i)).setObj (oLastSwitchover i) w)
  let s := s.setLaser i { s.laser i with twinOut := false }
  let s := s.raiseAt (if emergency then .laserEmergencySwitchover else .laserSwitchover) i 0
  (upto 4).foldl (fun (s : State) j => s.dropUnclear (4 * i + j)) s

/-- The least M over the lanes that an input feeds. -/
def State.marginMin (s : State) (i : Nat) : Option Int :=
  (s.fed i).foldl (fun a e => match a with
    | none => some (s.marginOf e.1 e.2)
    | some x => some (min x (s.marginOf e.1 e.2))) none

/-- A planned switchover called for (R304, R307): at the next guard when the standby is eligible and the
last one lies 1,000 beats before that guard. -/
def State.planSwitch (s : State) (i : Nat) (ceiling : Bool) : State :=
  let l := s.laser i
  let m := (s.marginMin i).getD 0x7FFF
  if s.eligible i then
    (if l.next.isSome ∨ (l.lastSwitch ≠ 0 ∧ s.bell.beat + 2 < l.lastSwitch + 1000) then s
    else s.setLaser i { l with next := some ⟨s.standby i == 1, ceiling, ofSigned 16 m, false⟩ })
  else s.twinUnavailable i

/-- An emergency switchover called for (R305, R307): at once, settled within 5 µs. -/
def State.emergency (s : State) (i : Nat) : State :=
  let m := (s.marginMin i).getD 0x7FFF
  if s.standbyFit i 150 then
    let s := s.setLaser i { s.laser i with emergAt := some s.now }
    s.switchOver i true false m
  else s.twinUnavailable i

/-- Whether STATUS last reported the source in service at its own ceiling on a line that feeds a lane (R304). -/
def State.ceilingStands (s : State) (i : Nat) : Bool :=
  (s.fed i).any (fun e => (s.laser i).atCeiling.contains (8 * s.source i + e.2))

/-- The margins of an input judged (R304): LASER_MARGIN_LOW when one first falls below 1.50 dB, standing until
all are 2.00 dB or more. -/
def State.judgeMargins (s : State) (i : Nat) : State :=
  match s.marginMin i with
  | some m =>
    let s := s.setObj (oMarginMinCdb i) (ofSigned 16 m)
    if m < 150 then
      let s := if (s.laser i).low then s
        else (s.setLaser i { s.laser i with low := true }).raiseAt .laserMarginLow i 0
      s.planSwitch i false
    else if 200 ≤ m then
      s.setLaser i { s.laser i with low := false, twinOut := (s.laser i).twinOut && s.ceilingStands i }
    else s
  | none => s.setObj (oMarginMinCdb i) 0x7FFF

/-- TX_MONITOR_SAMPLE (R302 to R307, R309): the launched OMA of a port's lanes, and the fibre's power. -/
def execTxMonitorSample (port : Port) (oma : List W16) (fibreUw : W32) (s : State) :
    Host.Outcome State Fault Refusal :=
  let s := s.quiet
  let p := port.val
  let i := p / 4
  if s.fnDown .optics then .next s
  else
    let s := s.setBlob (oTxPower p) (padTo 16 (oma.flatMap (fun w => natLe 2 w.toNat)))
    let s := if 30000 < fibreUw.toNat then s.limitHit 1 p 0 else s
    let mine := (s.fed i).filter (fun e => e.1 == p)
    let margins := (upto 8).flatMap (fun n =>
      natLe 2 (if mine.contains (p, n) then ofSigned 16 (s.marginOf p n) else 0))
    let s := s.setBlob (oMargin p) margins
    let s := mine.foldl (fun (s : State) e =>
      if i16At (s.blob (oTxPower p)) e.2 < 425 then s.raiseLine i e.2 else s) s
    let worst := (mine.map (fun e => s.marginTx p e.2)).foldl min 0x7FFF
    let s := s.judgeMargins i
    .next (if worst < 50 then s.emergency i else s)

/-- MONITOR_LINE_DROP (R305): a line of the source in service falls by 3 dB or more within 10 µs. -/
def execMonitorLineDrop (input : LaserInput) (line : Lane) (s : State) : Host.Outcome State Fault Refusal :=
  let s := s.quiet
  let i := input.val
  if (s.fed i).any (fun e => e.2 == line.val) then .next (s.emergency i) else .next s

/-- A write of SELECT (R306). -/
def State.actSelect (s : State) (i v : Nat) : State :=
  let k := oSelect i
  if v = s.source i then (s.cmdStart k).cmdDone k
  else if s.eligible i then
    let m := (s.marginMin i).getD 0x7FFF
    (s.setLaser i { s.laser i with next := some ⟨v == 1, false, ofSigned 16 m, true⟩ }).cmdStart k
  else s.cmdFail k abValueRange

/-- The laser switchover place of a guard (R304). -/
def State.switchLasers (s : State) : State :=
  (upto 6).foldl (fun (s : State) i =>
    let l := s.laser i
    match l.next with
    | some sw =>
      let old := s.source i
      let s := s.setLaser i { l with next := none }
      let s := if (old == 1) == sw.twin then s
        else ((s.setLaser i { l with next := none, lastSwitch := s.bell.beat + 1 }).switchOver i false sw.ceiling
          (toSigned 16 sw.margin)).askSupply i old 2 0 0
      if sw.bySelect then s.cmdDone (oSelect i) else s
    | none => s) s

/-- A request not acknowledged in the last beat sent again (R285); a LEVEL counts as its line's request of this beat
(R303). -/
def State.askAgain (s : State) (r : LscReq) : State :=
  let src := b2n r.twin
  let l := s.laser r.input
  let s := if r.op = 0 then
      s.setLaser r.input { l with asked := Bank.set l.asked 0 (8 * src + r.line) (s.bell.beat + 1) }
    else s
  s.askSupply r.input src r.op r.line r.level

/-- Requests not acknowledged in the last beat sent again, and STATUS read of each source, in service or standing by, once
(R285). -/
def State.pollSupplies (s : State) : State :=
  let again := s.lsc.filter (fun r => r.again)
  let s := { s with lsc := s.lsc.filter (fun r => !r.again) }
  let s := again.foldl (fun (s : State) r => s.askAgain r) s
  (upto 12).foldl (fun (s : State) j =>
    if again.any (fun r => r.input == j / 2 && r.twin == (j % 2 == 1) && r.op == 1) then s
    else s.askSupply (j / 2) (j % 2) 1 0 0) s

/-- A STATUS answer of source `src` of input `i` (R285, R303, R307): its lines at their ceiling and its faults noted, and
a switchover planned where the source in service is at its ceiling. -/
def State.supplyStatus (s : State) (i src : Nat) (a : LscStatus) : State :=
  let l := s.laser i
  let at_ := l.atCeiling.filter (fun e => e / 8 != src) ++
    (setBitsOf 8 a.ceilings.toNat).map (fun n => 8 * src + n)
  let s := s.setLaser i { l with atCeiling := at_, faults := Bank.set l.faults 0 src a.faults.toNat,
                                 twinOut := l.twinOut && (decide (src ≠ s.source i) || l.low) }
  if src = s.source i ∧ s.ceilingStands i = true then
    (s.setLaser i { s.laser i with twinOut := l.twinOut }).planSwitch i true
  else s

/-- LSC_RESPONSE (R285, R303, R304): the oldest outstanding request is acknowledged; a STATUS shows the lines
at the supply's own ceiling, and the supply's faults. -/
def execLscResponse (a : LscStatus) (s : State) : Host.Outcome State Fault Refusal :=
  let s := s.quiet
  match s.lsc.find? (fun r => !r.again) with
  | some r =>
    let i := r.input
    let src := b2n r.twin
    let s := { s with lsc := s.lsc.erase r }
    if r.op = 0 then
      .next (s.setObj (oLevels i) (setBits (s.obj (oLevels i)) (32 * src + 4 * r.line) 4 r.level))
    else if r.op = 1 then
      .next (s.supplyStatus i src a)
    else .next s
  | none => .next s

/-- LSC_REQUEST_TIMEOUT (R285): not acknowledged within 1 ms; counted, and sent again in the next beat. -/
def execLscRequestTimeout (s : State) : Host.Outcome State Fault Refusal :=
  let s := s.quiet
  match s.lsc.find? (fun r => !r.again) with
  | some r =>
    let s := s.advanceTo (r.sentAt + 1000000)
    .next ({ s with lsc := s.lsc.erase r ++ [{ r with again := true }] }.bump oLscErrorCount)
  | none => .next s

/-! ### Control lasers (R308) -/

/-- The active control laser of a port is taken out of service: the spare takes over, or lane C is lost. -/
def State.spareLaser (s : State) (p : Nat) : State :=
  match s.activeLaser p with
  | some a =>
    let b := 1 - a
    let w := setBits (s.obj (oClState p)) (2 * a) 2 2
    if bits w (2 * b) 2 = 0 then
      let s := s.setObj (oClState p) (setBits w (2 * b) 2 1)
      (s.setObj (oClBiasUa p) (Config.controlLaserBias (p + 24 * b)).toNat).raiseAt .controlLaserSpare p 0
    else ((s.setObj (oClState p) w).raiseAt .controlLaserFailed p 0).linkFalls p
  | none => s

/-- CONTROL_LASER_DROP (R308): the launch falls by 6 dB or more within 10 µs; no guard is waited for. -/
def execControlLaserDrop (port : Port) (s : State) : Host.Outcome State Fault Refusal :=
  .next (s.quiet.spareLaser port.val)

/-- The control lasers at a beat's start (R308): the launch shown, the bias raised by 0.5 mA up to 90 mA, and
the spare at the guard for a laser at its ceiling below −1.50 dBm. -/
def State.holdControl (s : State) (launch : List W16) : State :=
  launch.zipIdx.foldl (fun (s : State) e =>
    let p := e.2
    let l := toSigned 16 e.1.toNat
    if 24 ≤ p ∨ (s.activeLaser p).isNone then s
    else
      let s := s.setObj (oClLaunchCdbm p) e.1.toNat
      let b := s.obj (oClBiasUa p)
      if 90000 ≤ b ∧ l < -150 then s.spareLaser p
      else if l < -50 ∧ b < 90000 then
        let s := s.setObj (oClBiasUa p) (min 90000 (b + 500))
        if 90000 < b + 500 then s.limitHit 2 p 0 else s
      else s) s

/-- The data gates at a guard (R310): one reopens after lane C was received without a break for 1 ms. -/
def State.openGates (s : State) : State :=
  (upto 24).foldl (fun (s : State) p =>
    if s.obj oSafe == 0 && !s.flag (oDataGate p) && s.flag (oCtrlRxPresent p) &&
      decide ((s.portSt p).litSince + 1000000 ≤ s.now) then s.setObj (oDataGate p) 1 else s) s

/-! ### Rehearsal (R294 to R296) and XR_CLEAR -/

/-- A rehearsal's fields replaced. -/
def State.withPrep (s : State) (q : Prep) : State := { s with prep := some q }

/-- The rings outside the monitor banks and every FAILED ring PARKED, and no setting verified; the monitor banks sweep for
their stated lines again (Table 12-7). -/
def State.forgetRings (s : State) : State :=
  let s : State := { s with settings := [], micro := s.micro.filter (fun e => decide (384 ≤ e.1) && e.2.state != 6) }
  (upto 6).foldl (fun (s : State) i => s.restateLaser i) s

/-- The round trips of a port's data links forgotten, to be measured anew (R337). -/
def State.forgetRtt (s : State) (p : Nat) : State :=
  (s.setPort p { s.portSt p with rtts := [] }).setObj (oRttNs p) 0

/-- A rehearsal begins at its first beat: RUNNING, every crosspoint DARK (R295, R296). -/
def State.beginRehearsal (s : State) : State :=
  let s := (s.forgetRings.setObj oPrepareState 2).setObj oPrepareResult 0xFF00
  (upto 24).foldl (fun (s : State) p => ((s.setObj (oXrRoute p) (2 ^ 64 - 1)).removeLanes p).forgetRtt p) s

/-- A block ends: its map is verified unless the rehearsal has failed. -/
def State.endBlock (s : State) : State :=
  if s.obj oPrepareState = 2 then s.setObj oPrepareResult (s.obj oPrepareResult + 1) else s

/-- The last block ends: DONE unless the rehearsal has failed. -/
def State.endRehearsal (s : State) : State :=
  if s.obj oPrepareState = 2 then (s.setObj oPrepareState 3).cmdDone oPrepare else s

/-- The rehearsal's part of a guard that opens beat `b`. -/
def State.rehearse (s : State) : State :=
  match s.prep with
  | some q =>
    let b := s.bell.beat
    if q.isOver ∨ b < q.start then s
    else
      let pl := parsePlan (s.blob oPlanBlob)
      let j := b - q.start
      let s := if j = 0 then s.beginRehearsal else s
      if j % q.block = 0 then
        let s := if 0 < j then s.endBlock else s
        let m := j / q.block
        if m < q.maps then (((s.withPrep { q with map := m }).dropMovedLanes pl q.map m).setRoutes pl m).trimLanes
        else
          ((((s.withPrep { q with map := 0, isOver := true }).dropMovedLanes pl q.map 0).setRoutes pl 0).trimLanes).endRehearsal
      else if q.block ≤ j % q.block + 4 then s.sendTraining true
      else s
  | none => s

/-- No rehearsal and no verified setting. -/
def State.forgetPrep (s : State) : State := { s with prep := none, settings := [] }

/-- A new PLAN_BLOB discards the rehearsal and the verified settings (R296). -/
def State.dropRehearsal (s : State) : State :=
  let s := if s.cmdRunning oPrepare then s.cmdFail oPrepare 0x0303 else s
  (s.forgetPrep.setObj oPrepareState 0).setObj oPrepareResult 0

/-- A write of XR_CLEAR (R311). -/
def State.actXrClear (s : State) : State :=
  if s.admitted then s.cmdFail oXrClear abPlanAdmitted
  else { s.cmdStart oXrClear with xrClear := true }

/-- XR_CLEAR at the guard: every crosspoint DARK. -/
def State.clearCrossroads (s : State) : State :=
  if s.xrClear then
    let s := { s with xrClear := false }
    if s.admitted then s.cmdFail oXrClear abPlanAdmitted
    else
      (allLanes.foldl (fun (s : State) e =>
        let s := s.setRoute e.1 e.2 0xFF
        if bit (s.portSt e.1).useRx e.2 then s.loseLane e.1 true e.2 else s) s).cmdDone oXrClear
  else s

/-- RELEASE parks every FAILED ring (Table 12-7). -/
def State.parkFailed (s : State) : State :=
  { s with micro := s.micro.filter (fun e => e.2.state != 6) }

end Sys2Proof.Machine
end

