-- ==== Sys2Proof/Machine/Mailbox.lean ====
section
/-! DEFINITION. Mailboxes (R368 to R371): their registers, states, records and interrupts. -/

namespace Sys2Proof.Machine

/-- A mailbox. -/
def State.mailbox (s : State) (n : Nat) : MailboxSt := Bank.get s.mailboxes MailboxSt.init n

/-- A mailbox replaced, with its bit of MB_STATES. -/
def State.setMailbox (s : State) (n : Nat) (m : MailboxSt) : State :=
  let st := s.obj oMbStates
  { s with mailboxes := Bank.set s.mailboxes MailboxSt.init n m }.setObj oMbStates
    (setBits st n 1 (b2n m.full))

/-- A MAILBOX record into EVENT_RING and the plan's EVENT queue (R371): `st` is 1 EMPTY, 2 TIMEOUT or
3 FULL. -/
def State.postMailbox (s : State) (n st tag : Nat) : State :=
  let s := { s with events := (RingRec.mailbox n (st + tag * 256) :: s.events).take 256 }
  match s.eventQueue with
  | some q => s.post q 0x23 (mailboxBody n st tag)
  | none => s

/-- The interrupt that a mailbox gives its sender: a MAILBOX record for the host's mailboxes 0 to 3
(R371), an interrupt otherwise. -/
def State.mailboxInterrupt (s : State) (n : Nat) (m : MailboxSt) (timedOut : Bool) : State :=
  if n < 4 then s.postMailbox n (if timedOut then 2 else 1) m.tag
  else s.emit (.mailboxInterrupt n timedOut)

/-- The sender sets GO (Table 14-10): FULL with LENGTH 8 to 16, unchanged with another LENGTH; a full
mailbox is the receiver's. -/
def State.mailboxGo (s : State) (n : Nat) (regs : List Nat) (length tag : Nat) : State :=
  let m := s.mailbox n
  if m.full then s
  else if 8 ≤ length ∧ length ≤ 16 then
    let s := s.setMailbox n ⟨(regs ++ List.replicate 16 0).take 16, true, length, tag, false, s.now⟩
    if 4 ≤ n ∧ n ≤ 7 then s.postMailbox n 3 tag else s
  else s

/-- A control core's hardware fills its mailbox with a report of CC.NOTE, CORE_TRAP or CORE_LOCKSTEP (R368), whose
layout no rule gives: its registers, LENGTH and TAG are free values (assumption 37). A full mailbox keeps what it
holds. -/
def State.coreReport (s : State) (core : Nat) : State :=
  let v := fun (i : Nat) => (Config.freeValue (s.freeCount + i)).toNat
  ({ s with freeCount := s.freeCount + 18 }).mailboxGo (16 + core) ((upto 16).map v) (8 + v 16 % 9) (v 17 % 65536)

/-- The receiver clears GO (Table 14-10). -/
def State.mailboxClear (s : State) (n : Nat) : State :=
  let m := s.mailbox n
  if m.full then (s.setMailbox n { m with full := false }).mailboxInterrupt n m false else s

/-- The 256 register bytes of a mailbox (R369). -/
def MailboxSt.image (m : MailboxSt) : Bytes :=
  m.regs.foldl (fun a r => a ++ natLe 8 r) [] ++
  natLe 8 (b2n m.full + m.length * 256 + m.tag * 65536) ++
  natLe 8 (b2n (!m.full) + b2n m.timedOut * 2 + b2n m.full * 4) ++ zeros 112

/-- The registers of a mailbox from its bytes 0 to 127. -/
def regsOf (bs : Bytes) : List Nat := (upto 16).map (fun i => fieldLe bs (8 * i) 8)

/-- A host WRITE of `bs` at offset `off` of a mailbox's 256 bytes (R369), whose registers take effect
together, GO last; the flag says that it is refused. The host sends on mailboxes 0 to 3 and receives
on 4 to 7, where clearing GO empties the mailbox (assumption 12). -/
def State.mailboxWrite (s : State) (n off : Nat) (bs : Bytes) : State × Bool :=
  let m := s.mailbox n
  let img := overwrite m.image off bs
  let ctrl := fieldLe img 128 8
  let touchesCtrl := decide (off < 136) && decide (128 < off + bs.length)
  if 8 ≤ n then (s, true)
  else if n < 4 then
    if m.full && decide (off < 136) then (s, true)
    else
      let s := s.setMailbox n { m with regs := regsOf img }
      if touchesCtrl && bit ctrl 0 then
        (s.mailboxGo n (regsOf img) (bits ctrl 8 5) (bits ctrl 16 16), false)
      else if touchesCtrl then
        (s.setMailbox n { m with regs := regsOf img, length := bits ctrl 8 5, tag := bits ctrl 16 16 },
          false)
      else (s, false)
  else if m.full && touchesCtrl && !bit ctrl 0 && decide (128 ≤ off) then (s.mailboxClear n, false)
  else if decide (off < 136) then (s, true)
  else (s, false)

/-- MAILBOX_GO (R370): the sender fills the mailbox and sets GO. -/
def execMailboxGo (mailbox : Mailbox) (regs : List W64) (length : BitVec 5) (tag : W16) (s : State) :
    Host.Outcome State Fault Refusal :=
  .next (s.quiet.mailboxGo mailbox.val (regs.map BitVec.toNat) length.toNat tag.toNat)

/-- MAILBOX_CLEAR (R370): the receiver clears GO. -/
def execMailboxClear (mailbox : Mailbox) (s : State) : Host.Outcome State Fault Refusal :=
  .next (s.quiet.mailboxClear mailbox.val)

/-- MAILBOX_TIMEOUT (R370): not emptied within MB_TIMEOUT_MS of GO; the message is withdrawn. -/
def execMailboxTimeout (mailbox : Mailbox) (s : State) : Host.Outcome State Fault Refusal :=
  let s := s.quiet
  let n := mailbox.val
  let m := s.mailbox n
  if m.full then
    let s := s.advanceTo (m.goAt + s.obj oMbTimeoutMs * 1000000)
    let s := s.setMailbox n { m with full := false, timedOut := true }
    let s := (s.bump oMbTimeoutCount).raise .mailboxTimeout
    .next (s.mailboxInterrupt n m true)
  else .next s

end Sys2Proof.Machine
end

