-- ==== Sys2Proof/Machine/Functions.lean ====
section
/-! DEFINITION. The "fixed" functions of Table 07-5 and R208 (R164): their real values to far more digits than a result
has, and results held within 1 ulp of them. -/

namespace Sys2Proof.Machine

/-! ### Fixed functions within 1 ulp -/

/-- The exponent of one ulp of FP32 at an exact value. -/
def ulpExp (x : Ex) : Int :=
  let b := if x.n = 0 then -126 else expOf x.n.natAbs x.e
  (if b < -126 then -126 else b) - 23

/-- |x − y| is at most 2^u. -/
def within (x y : Ex) (u : Int) : Bool :=
  let d := x.add y.neg
  !(Ex.lt ⟨1, u⟩ ⟨d.n.natAbs, d.e⟩)

/-- An offered FP32 result where it lies within 1 ulp of the value, the correctly rounded one otherwise. -/
def nearUlp (c : Nat) (x : Ex) : Nat :=
  let y := fmtFp32.decode c
  if y.isNum && within y.toEx x (ulpExp x) then c else fmtFp32.rne x false

/-! ### Real values, in units of 2^-512 (assumption 92) -/

/-- Fraction bits of the real values. -/
def realBits : Nat := 512

/-- ln 2. -/
def ln2Fix : Nat :=
  9293584264128987901384440660653081117630633404975079641076009770578364573633075645167623918067512986930843040596952636663673675798576024949780480621393957

/-- log2 e. -/
def log2eFix : Nat :=
  19343378009719902942903021401932455642795157619099781112206266958471486723471885689150254724994041798571814804231958903428740156015579732605690696404202342

/-- 2 / √π. -/
def twoOverRootPi : Nat :=
  15129091144565236318728102021357054465931501868382697344855376898009540746382886124033677943963406588385143660408145906714304807668551155360290336851985570

/-- The product of two values in units of 2^-512. -/
def mulFix (x y : Nat) : Nat := x * y / 2 ^ realBits

/-- The terms y^n / n! from the one given on. -/
def expTerms : Nat → Nat → Nat → Nat → Nat
  | 0, _, _, term => term
  | n + 1, k, y, term => term + expTerms n (k + 1) y (mulFix term y / k)

/-- 2^x for x in units of 2^-512. -/
def exp2Real (x : Int) : Ex :=
  let w : Int := Int.ofNat (2 ^ realBits)
  ⟨Int.ofNat (expTerms 120 1 (mulFix (x % w).toNat ln2Fix) (2 ^ realBits)), x / w - Int.ofNat realBits⟩

/-- x bounded to −2^k to 2^k, in units of 2^-512: beyond the bound a result is decided. -/
def fixBound (x : Ex) (k : Nat) : Int :=
  let w : Int := Int.ofNat (2 ^ (realBits + k))
  let v := x.at (-Int.ofNat realBits)
  max (-w) (min w v)

/-- 2^x. -/
def exp2OfReal (x : Ex) : Ex := exp2Real (fixBound x 9)

/-- e^x. -/
def expOfReal (x : Ex) : Ex := exp2Real (fixBound x 9 * Int.ofNat log2eFix / Int.ofNat (2 ^ realBits))

/-- The terms z^(2n + 1) / (2n + 1) from the one given on, for z² given. -/
def atanhTerms : Nat → Nat → Nat → Nat → Nat
  | 0, _, _, _ => 0
  | n + 1, k, zz, term => term / k + atanhTerms n (k + 2) zz (mulFix term zz)

/-- log2 x of a positive x, from a mantissa between 2/3 and 4/3. -/
def log2Real (m : Nat) (e : Int) : Ex :=
  let b := Nat.log2 m
  let b := if 4 * 2 ^ b < 3 * m then b + 1 else b
  let one := 2 ^ b
  let z := (if m < one then one - m else m - one) * 2 ^ realBits / (m + one)
  let l := 2 * atanhTerms 180 1 (mulFix z z) z * 2 ^ realBits / ln2Fix
  let f : Int := if m < one then -Int.ofNat l else Int.ofNat l
  ⟨f + (e + Int.ofNat b) * Int.ofNat (2 ^ realBits), -Int.ofNat realBits⟩

/-- tanh of a magnitude. -/
def tanhReal (x : Ex) : Ex :=
  let y := expOfReal ⟨2 * fixBound x 6, -Int.ofNat realBits⟩
  let m := y.at (-Int.ofNat realBits)
  let one : Int := Int.ofNat (2 ^ realBits)
  ⟨(m - one) * one / (m + one), -Int.ofNat realBits⟩

/-- The alternating series of erf x / x over y = x². -/
def erfTerms : Nat → Nat → Nat → Nat → Int
  | 0, _, _, _ => 0
  | n + 1, k, y, term => Int.ofNat (term / (2 * k + 1)) - erfTerms n (k + 1) y (mulFix term y / (k + 1))

/-- erf of a magnitude; from 8 on it is 1 but for less than 2^-90. -/
def erfReal (x : Ex) : Ex :=
  let v := fixBound x 3
  if v = Int.ofNat (2 ^ (realBits + 3)) then ⟨1, 0⟩
  else
    let y := mulFix v.toNat v.toNat
    (x.mul ⟨erfTerms 320 0 y (2 ^ realBits), -Int.ofNat realBits⟩).mul ⟨Int.ofNat twoOverRootPi, -Int.ofNat realBits⟩

/-- 1 / √x of a positive x. -/
def rsqrtReal (m : Nat) (e : Int) : Ex :=
  let m' := if e % 2 = 0 then m else 2 * m
  ⟨Int.ofNat (isqrt (2 ^ (2 * realBits) / m')), -Int.ofNat realBits - e / 2⟩

/-- The value of a fixed function of R164 at a finite operand, where it is a real number. -/
def realFn (op : Nat) (x : FVal) : Option Ex :=
  match x with
  | .num neg m e =>
    let v : Ex := ⟨Int.ofNat m, e⟩
    let odd := fun (y : Ex) => some (if neg then y.neg else y)
    match op with
    | 0x0C => if neg = true ∨ m = 0 then none else some (rsqrtReal m e)
    | 0x0D => some (expOfReal (if neg then v.neg else v))
    | 0x0E => some (exp2OfReal (if neg then v.neg else v))
    | 0x0F => if neg = true ∨ m = 0 then none else some (log2Real m e)
    | 0x10 => odd (tanhReal v)
    | 0x11 => odd (erfReal v)
    | _ => none
  | _ => none

/-- A fixed function of R164: canonical on a NaN; within 1 ulp of its value; where its operand gives it no real value,
its one function of the input bits. -/
def fixedFn (op : Nat) (f : BitVec 32 → BitVec 32) (a : Nat) : Nat :=
  let x := fmtFp32.decode a
  let c := fmtFp32.canon (f (BitVec.ofNat 32 a)).toNat
  if x.isNan then fmtFp32.canonNan
  else match realFn op x with
    | some y => nearUlp c y
    | none => c

end Sys2Proof.Machine
end

