-- ==== Sys2Proof/Machine/Tally.lean ====
section
/-! DEFINITION. Tally arithmetic (chapter 5): the entry of a term, the drain outcomes, the layout in
memory, the state word and the residue. -/

namespace Sys2Proof.Machine

/-- 2^191, the bound of the tally's range (R105). -/
def tallyTop : Int := 2 ^ 191

/-- An exact addition of `q` LSBs, its carry out of bit 191 counted in W (R114). -/
def Tally.addInt (x : Tally) (q : Int) : Tally :=
  let s := x.t + q + tallyTop
  { x with t := s % 2 ^ 192 - tallyTop, w := x.w + s / 2 ^ 192 }

/-- The prime of the residues (R127). -/
def residueP : Nat := 2 ^ 61 - 1

/-- The residue of an exact number (R127): every power of two reduces by its exponent modulo 61. -/
def Ex.residue (x : Ex) : Nat := ((x.n * 2 ^ (x.e % 61).toNat) % residueP).toNat

/-- The residue of an operand element (R380): that of its exact value, 0 for an Inf or a NaN. -/
def FVal.residue (x : FVal) : Nat := x.toEx.residue

/-- A sum of residues. -/
def addRes (a b : Nat) : Nat := (a + b) % residueP

/-- A product of residues. -/
def mulRes (a b : Nat) : Nat := (a * b) % residueP

/-- A difference of residues. -/
def subRes (a b : Nat) : Nat := (a + residueP - b % residueP) % residueP

/-- The sum of residues. -/
def sumRes (xs : List Nat) : Nat := xs.foldl addRes 0

/-- The residue of 2^k. -/
def powRes (k : Int) : Nat := 2 ^ (k % 61).toNat % residueP

/-- How a term entered: the tally, whether it was a below-window event or lay above the window, and the residue
of its correction, the entered value minus the exact one in LSBs (R127, R383). -/
structure Entry where
  tally : Tally
  below : Bool
  above : Bool
  kappa : Nat

/-- The entry of a finite term into a tally of anchor `a` with the 24 random bits `v` (R114). -/
def Tally.enter (x : Tally) (a : Int) (term : Ex) (v : Nat) : Entry :=
  let sh := term.e - a + 150
  let m := term.n.natAbs
  let isAbove := if 0 ≤ sh then decide (2 ^ 191 ≤ m * 2 ^ sh.toNat)
    else decide (2 ^ (191 + (-sh).toNat) ≤ m)
  let exact := (Ex.mk term.n sh).residue
  if m = 0 then ⟨x, false, false, 0⟩
  else if isAbove then ⟨{ x with above := true }, false, true, subRes 0 exact⟩
  else if 0 ≤ sh then ⟨x.addInt (term.n * 2 ^ sh.toNat), false, false, 0⟩
  else
    let den : Int := 2 ^ (-sh).toNat
    let n := term.n / den
    let r := term.n % den
    if r = 0 then ⟨x.addInt n, false, false, 0⟩
    else
      let d := (r * 2 ^ 24 / den).toNat
      let entered := if 2 ^ 24 ≤ d + v % 2 ^ 24 then n + 1 else n
      ⟨x.addInt entered, true, false, subRes (Ex.mk entered 0).residue exact⟩

/-- The flags that a special value sets (R115). -/
def Tally.special (x : Tally) (y : FVal) : Tally :=
  match y with
  | .nan => { x with nan := true }
  | .inf neg => if neg then { x with infNeg := true } else { x with infPos := true }
  | .num _ _ _ => x

/-- W ≠ 0 or ABOVE: the tally has overflowed (R118). -/
def Tally.overflowed (x : Tally) : Bool := decide (x.w ≠ 0) || x.above

/-- Row 1 of Table 05-4. -/
def Tally.drainsNan (x : Tally) : Bool := x.nan || (x.infPos && x.infNeg) || x.above

/-- Rows 1 to 4 of Table 05-4 as a value, the drained sum times 2^k: row 3 is an Inf of W's sign, and a
zero sum is +0 (R483). -/
def Tally.value (x : Tally) (a k : Int) : FVal :=
  if x.drainsNan then .nan
  else if x.infPos || x.infNeg then .inf x.infNeg
  else if x.w ≠ 0 then .inf (decide (x.w < 0))
  else .num (decide (x.t < 0)) x.t.natAbs (a - 150 + k)

/-- The drain goes by row 1 or 2 through INF or NAN flags alone (R483). -/
def Tally.flagsOnly (x : Tally) : Bool := (x.nan || x.infPos || x.infNeg) && !x.overflowed

/-- T as sent in a drain to TALLY (Table 05-4). -/
def Tally.sent (x : Tally) : Int :=
  if x.drainsNan || x.infPos || x.infNeg || decide (x.w ≠ 0) then 0 else x.t

/-- T as its 24 bytes (Table 05-2). -/
def tallyBytes (t : Int) : Bytes := natLe 24 (ofSigned 192 t)

/-- The residue of R127 modulo 2^61 − 1. -/
def residueOf (t w : Int) : Nat := ((t + w * 2 ^ 192) % (2 ^ 61 - 1)).toNat

/-- The 48-bit state word of R215. -/
def Tally.word (x : Tally) : Nat :=
  ofSigned 41 x.w + b2n x.above * 2 ^ 41 + b2n x.infPos * 2 ^ 42 + b2n x.infNeg * 2 ^ 43 +
  b2n x.nan * 2 ^ 44

/-- A tally from its 24 bytes and its state word (R215, R230). -/
def Tally.ofBytes (bs : Bytes) (word : Nat) : Tally :=
  { t := toSigned 192 (fieldLe bs 0 24), w := toSigned 41 (bits word 0 41), above := bit word 41,
    infPos := bit word 42, infNeg := bit word 43, nan := bit word 44 }

/-- FP32 bits from a value by a rounding mode (Table 05-4). -/
def toFp32 (x : FVal) (mode : RMode) (v : Nat) : Nat := (fmtFp32.store x mode v).bits

/-- The value times 2^k, exact (R198). -/
def scaleFp32 (b : Nat) (k : Int) : FVal := (fmtFp32.decode b).scale k

end Sys2Proof.Machine
end

