-- ==== Sys2Proof/Machine/Flow.lean ====
section
/-! DEFINITION. Flows, transactions at the target, messages and their completion, acknowledgements and
resends, doorbells and queues (chapter 14). -/

namespace Sys2Proof

/-! ### Packet fields -/

/-- FLAGS [0] LAST, [1] SRC_HOST, [2] DST_HOST, [3] NO_FLOW (Table 14-1). -/
def Packet.srcHost (p : Packet) : Bool := Machine.bit p.flags.toNat 1
def Packet.dstHost (p : Packet) : Bool := Machine.bit p.flags.toNat 2
def Packet.noFlow (p : Packet) : Bool := Machine.bit p.flags.toNat 3

/-- The field of `n` bytes at head offset `off`, 32 to 55. -/
def Packet.field (p : Packet) (off n : Nat) : Nat := Machine.bits p.fields.toNat (8 * (off - 32)) (8 * n)

def Packet.space (p : Packet) : Nat := p.field 32 1
def Packet.region (p : Packet) : Nat := p.field 34 2
def Packet.addr (p : Packet) : Nat := p.field 40 8
def Packet.readLen (p : Packet) : Nat := p.field 48 4
def Packet.window (p : Packet) : Nat := p.field 32 2
def Packet.form (p : Packet) : Nat := p.field 34 1
def Packet.element (p : Packet) : Nat := p.field 36 4

/-- The packet is the one that carries MSG_CRC (R346). -/
def Packet.isLast (p : Packet) : Bool := p.index.toNat + 1 == p.count.toNat

end Sys2Proof

namespace Sys2Proof.Machine

/-- The bits of the type fields that Table 14-3 lists for a type, by its FORM or SPACE; every other bit is zero. -/
def listedFields (ty form space : Nat) : List (Nat × Nat) :=
  match ty with
  | 0x01 => if space = 1 then [(0, 1), (2, 2), (8, 8), (16, 4)] else [(0, 1), (8, 8), (16, 4)]
  | 0x02 => if space = 1 then [(0, 1), (2, 2), (8, 8), (16, 4)] else [(0, 1), (8, 8), (16, 4)]
  | 0x03 => [(0, 4)]
  | 0x04 => if form = 1 then [(0, 2), (2, 1), (4, 4), (8, 2), (16, 8)]
            else if form = 2 then [(0, 2), (2, 1)] else [(0, 2), (2, 1), (4, 4)]
  | 0x05 => [(0, 2), (4, 4)]
  | 0x06 => [(0, 2), (4, 4)]
  | 0x07 => [(0, 2)]
  | 0x08 => [(8, 6)]
  | 0x09 => [(0, 16)]
  | 0x0A => [(0, 3), (4, 4), (8, 1), (16, 8)]
  | _ => []

/-- Every unlisted bit of the type fields is zero. -/
def reservedFieldsZero (p : Packet) (ty : Nat) : Bool :=
  let kept := (listedFields ty p.form p.space).foldl (fun a e =>
    a + bits p.fields.toNat (8 * e.1) (8 * e.2) * 2 ^ (8 * e.1)) 0
  kept == p.fields.toNat

/-- The payload element size of a type (R345): 0 where no payload is allowed, 1 for free bytes. -/
def elementSize (ty form : Nat) : Nat :=
  match ty with
  | 0x01 => 1 | 0x03 => 1 | 0x09 => 1
  | 0x04 => if form = 0 then 4 else if form = 1 then 24 else 8
  | 0x05 => 8 | 0x06 => 8 | 0x07 => 64
  | _ => 0

/-- The most elements of a packet (R358). -/
def elementMax (ty form : Nat) : Nat :=
  match ty with
  | 0x04 => if form = 0 then 1024 else if form = 1 then 170 else 512
  | 0x05 => 512 | 0x06 => 512
  | _ => 4096

/-- A type with a use of the payload, or none at all (Table 14-2). -/
def knownType (ty : Nat) : Bool := decide (1 ≤ ty) && decide (ty ≤ 0x0A)

/-- Whether a packet's head and payload are whole (R345, R353). -/
def headOk (ty : Nat) (p : Packet) : Bool :=
  let len := p.length.toNat
  let es := elementSize ty p.form
  knownType ty && decide (p.flags.toNat < 16) && p.cls.toNat == typeClass ty &&
  p.reserved.toNat == 0 && decide (p.psn.toNat < 2 ^ 24) &&
  (!p.noFlow || p.epoch.toNat == 0) && reservedFieldsZero p ty &&
  (p.isLast || ty == 0x0A || p.msgCrc.toNat == 0) &&
  p.payload.length == len && decide (len ≤ 4096) &&
  (if es = 0 then len == 0 else decide (len % es = 0) && decide (len / es ≤ elementMax ty p.form)) &&
  (ty != 0x01 || p.readLen == 0) &&
  (!p.noFlow ||
    ((ty == 0x01 || ty == 0x02 || ty == 0x03 || ty == 0x09) &&
     (ty == 0x09 || p.count.toNat == 1) && (ty != 0x02 || decide (p.readLen ≤ 4096))))

/-- A packet discarded and counted (R345, R350, R353). -/
def State.badHead (s : State) : State := s.bump oBadHeadCount

/-! ### Acknowledgements -/

/-- An ACK sent on a flow (R351): CUM_PSN, the 128-bit SACK, and the newest message that is complete
with every earlier one. -/
def State.sendAck (s : State) (n : Nat) : State :=
  let f := s.flow n
  let sack := (f.rxSeen.filter (fun x => decide ((x + 2 ^ 24 - f.rxExpected) % 2 ^ 24 < 128))).foldl
    (fun a x => a + 2 ^ ((x + 2 ^ 24 - f.rxExpected) % 2 ^ 24)) 0
  let fields := natLe 4 f.rxExpected ++ natLe 4 f.doneMsg ++ natLe 1 f.doneStatus ++ zeros 7 ++
    natLe 8 sack
  let head := packetHead 0x0A (1 + (if f.host then 4 else 0))
    (match s.plan with | some p => p.id % 256 | none => 0)
    (if f.host then s.obj oBridgePlace else f.peer) s.place f.peerFlow 0 0 0 0 1 0xFFFFFFFF 0 fields
    (sack / 2 ^ 64)
  (s.setFlow n { f with sinceAck := 0, ackDue := none }).inject head

/-- The arrival of a flowed packet counted toward the next ACK (R351), which is due 4 µs after the first not
covered. -/
def State.noteArrival (s : State) (n : Nat) : State :=
  let f := s.flow n
  s.setFlow n { f with sinceAck := f.sinceAck + 1, ackDue := match f.ackDue with
    | some t => some t | none => some (s.now + 4000) }

/-- An ACK sent when 16 packets have arrived since the last (R351). -/
def State.ackSixteen (s : State) (n : Nat) : State :=
  if 16 ≤ (s.flow n).sinceAck then s.sendAck n else s

/-! ### Doorbells -/

/-- The messages complete with every earlier one, moved past those that completed ahead; a status
other than OK is reported at once (R351). -/
def State.settleDone : Nat → State → Nat → State
  | 0, s, _ => s
  | k + 1, s, n =>
    let f := s.flow n
    let next := (f.doneMsg + 1) % 2 ^ 32
    match f.doneAhead.find? (fun e => e.1 == next) with
    | none => s
    | some e =>
      let s := s.setFlow n { f with doneMsg := next, doneStatus := e.2,
                                    doneAhead := f.doneAhead.filter (fun x => x.1 != next) }
      let s := if e.2 ≠ 0 then s.sendAck n else s
      State.settleDone k s n

/-- A message complete with a status (R354, R355). An ACK goes at once for a status other than OK, also where an
earlier message of the flow is still incomplete (R351). -/
def State.completeMsg (s : State) (n id status : Nat) : State :=
  let f := s.flow n
  let s := s.setFlow n { f with doneAhead := f.doneAhead ++ [(id, status)],
                                rxMsgs := f.rxMsgs.filter (fun m => m.id != id) }
  let s := State.settleDone (f.doneAhead.length + 1) s n
  if status ≠ 0 ∧ (s.flow n).doneAhead.any (fun e => e.1 == id) = true then s.sendAck n else s

/-- Whether every message with a lower MSG_ID of the flow has completed (R360). -/
def earlierDone (f : FlowSt) (msg : Nat) : Bool :=
  decide ((f.doneMsg + 1 + 2 ^ 32 - msg) % 2 ^ 32 < 2 ^ 31)

/-- A ring index moved by a valid doorbell, or none (R364). -/
def doorbellIndex (q : QueueEntry) (r : RingSt) (index : Nat) : Option RingSt :=
  let dist := fun (a b : Nat) => (a + 2 ^ 32 - b) % 2 ^ 32
  if q.kind = 0 ∨ q.kind = 3 then
    if dist index r.ci ≤ q.entries ∧ dist r.pi r.ci ≤ dist index r.ci then some { r with pi := index }
    else none
  else if dist r.pi index ≤ q.entries ∧ dist r.pi index ≤ dist r.pi r.ci then
    some { r with ci := index }
  else none

/-- A doorbell takes effect, or is discarded with DOORBELL_INVALID (R364). -/
def State.ringBell (s : State) (queue index : Nat) : State :=
  match (s.queue? queue).bind (fun q => doorbellIndex q (s.ring queue) index) with
  | some r => s.setRing queue r
  | none =>
    let s := s.bump oDoorbellInvalidCount
    (s.setObj oLastDoorbellInvalid (queue + index * 65536)).raise .doorbellInvalid

/-- DOORBELL_APPLY (R360, R364): the first waiting doorbell of the flow whose earlier messages are all
complete takes effect. -/
def execDoorbellApply (flow : BitVec 12) (s : State) : Host.Outcome State Fault Refusal :=
  let s := s.quiet
  let n := flow.toNat
  let f := s.flow n
  match f.bells.find? (fun b => earlierDone f b.msg) with
  | some b =>
    .next ((s.setFlow n { f with bells := f.bells.filter (fun x => x.msg != b.msg) }).ringBell
      b.queue b.index)
  | none => .next s

/-! ### Delivery at the target -/

/-- Whether a packet's step is not the receiver's current one (R356). -/
def staleStep (s : State) (p : Packet) : Bool :=
  p.step.toNat != 0xFFFFFFFF &&
  (!s.step.running || p.step.toNat != s.obj oStepNow || p.attempt.toNat != s.step.attempt)

/-- The device address that a WRITE or READ of SPACE 1 names: a WRITE goes to the shadow view of a
PARAM or OPT region (R356); a READ counts its offset from BASE (assumption 13). -/
def regionTarget (s : State) (num off len : Nat) (write : Bool) : Option Nat :=
  match s.region? num with
  | some r =>
    let base := if write && twoHalves r.kind then r.base + r.len else r.base
    let room := if write then r.len else r.span
    if off + len ≤ room then some (base + off) else none
  | none => none

/-- Whether the plan names `src` as the source of snapshots into this SNAP region (R414, Table
11-3). -/
def State.snapSource (s : State) (region src : Nat) : Bool :=
  match s.activePlan with
  | some p => p.buddies.any (fun b => b.buddy == s.place && b.place == src &&
      (b.snap == region || b.snap2 == region))
  | none => false

/-- A WRITE that may be a gather's (R257): flowed, from a module, to a region by name, with its step and attempt. -/
def gatherWrite (p : Packet) : Bool := !p.noFlow && !p.srcHost && p.space == 1 && p.step.toNat != 0xFFFFFFFF

/-- A write by a packet at a device address; statuses of Table 14-6. Only gather WRITEs reach a PARAM region, only the
buddy's a SNAP region, and no unflowed one a QUEUE region (Table 11-3). -/
def State.packetWrite (s : State) (p : Packet) (a : Nat) : State × Nat :=
  let ag := if p.srcHost then Agent.host else Agent.flow
  let kind := match s.regionAt a with | some r => r.kind | none => 0
  let num := match s.regionAt a with | some r => r.num | none => 0
  if (kind = 7 ∧ p.noFlow = true) ∨ (kind = 6 ∧ s.snapSource num p.src.toNat = false) ∨
      (kind = 1 ∧ gatherWrite p = false) then
    (if s.planHeld then (s.deny ag true a, 1)
     else ((s.store ag a p.payload).1, 0))
  else
    let r := s.store ag a p.payload
    (r.1, if r.2 then 1 else 0)

/-- The payload of a WRITE packet put at its target (R356); mailbox registers wait for the message's
completion (R369). -/
def State.deliverWrite (s : State) (p : Packet) : State × Nat :=
  let off := p.addr + p.index.toNat * 4096
  if staleStep s p then (s, 5)
  else match p.space with
    | 0 => s.packetWrite p off
    | 1 => match regionTarget s p.region off p.payload.length true with
      | some a => s.packetWrite p a
      | none => (s, 4)
    | 2 => if p.srcHost && decide (off + p.payload.length ≤ 32 * 256) then (s, 0)
           else if p.srcHost then (s, 4) else (s, 1)
    | _ => (s, 4)

/-- The bytes that a READ names, with the status of the read (R357, R369). -/
def State.readFor (s : State) (p : Packet) : State × Bytes × Nat :=
  let ag := if p.srcHost then Agent.host else Agent.flow
  let viaMem := fun (a : Nat) =>
    let r := s.load ag a p.readLen
    if r.2.denied || (r.2.wasMarked && p.srcHost) then (r.1, [], 1) else (r.1, r.2.data, 0)
  if staleStep s p then (s, [], 5)
  else match p.space with
    | 0 => viaMem p.addr
    | 1 => match regionTarget s p.region p.addr p.readLen false with
      | some a => viaMem a
      | none => (s, [], 4)
    | 2 =>
      if p.srcHost && decide (p.addr + p.readLen ≤ 8 * 256) then
        (s, sliceB ((upto 8).foldl (fun a n => a ++ (s.mailbox n).image) []) p.addr p.readLen, 0)
      else (s, [], if p.addr + p.readLen ≤ 32 * 256 then 1 else 4)
    | _ => (s, [], 4)

/-- The pieces of a READ_DATA message (R357). -/
def readPieces (reqMsg : Nat) (bs : Bytes) : List Piece :=
  (upto (max 1 (ceilDiv bs.length 4096))).map (fun i =>
    (natLe 4 reqMsg, (bs.drop (4096 * i)).take 4096))

/-- A READ answered by a READ_DATA message on its flow, or by one unflowed packet (R353, R357). -/
def State.answerRead (s : State) (p : Packet) (bs : Bytes) : State :=
  if p.noFlow then
    s.inject ((packetHead 0x03 (1 + 8 + (if p.srcHost then 4 else 0)) 0 p.src.toNat s.place
      0xFFFF bs.length 0 p.msgId.toNat 0 1 p.step.toNat p.attempt.toNat (natLe 4 p.msgId.toNat)
      (crc64 bs) ++ bs))
  else
    s.sendMessage p.flow.toNat 0x03 (readPieces p.msgId.toNat bs) p.step.toNat p.attempt.toNat 0

/-- The window that a contribution packet names is declared here (R358). -/
def State.ownWindow (s : State) (n : Nat) : Option Window :=
  s.activePlan.bind (fun p => p.windows.find? (fun w => w.num == n && w.owner == s.place))

/-- The residues that a packet's tallies carry: their sum is RHO of its head (R127, Table 14-3). -/
def carriedRho (p : Packet) (i n es : Nat) : Nat :=
  let own := fun (j : Nat) => residueOf (toSigned 192 (leNat (sliceB p.payload (j * es) es))) 0
  if i = 0 then subRes (p.field 48 8) (sumRes ((upto (n - 1)).map (fun j => own (j + 1)))) else own i

/-- The contributions of a packet that arrives in a beat, in element order (R358). -/
def packetContribs (beat ty : Nat) (p : Packet) : List Contribution :=
  let es := elementSize ty p.form
  let n := if es = 0 then 0 else p.payload.length / es
  let form := if ty = 0x04 then p.form else if ty = 0x05 then 3 else 4
  (upto n).map (fun i =>
    let b := sliceB p.payload (i * es) es
    { window := p.window, step := p.step.toNat, attempt := p.attempt.toNat, source := p.src.toNat,
      element := if form = 2 then 0 else p.element + i, form := form,
      value := if form = 1 then 0 else fieldLe b 0 4, aux := if 2 ≤ form then fieldLe b 4 4 else 0,
      tally := if form = 1 then b else [], anchor := toSigned 16 (p.field 40 2),
      rho := if form = 1 then carriedRho p i n es else 0, beat := beat })

/-- A TALLY_ADD, MAXIDX or MINIDX packet's contributions handed to its window (R358); those that name no
window owned here are strays for a granary unit to discard (Table 09-4). -/
def State.deliverContribs (s : State) (ty : Nat) (p : Packet) : State × Nat :=
  if ty = 0x04 ∧ 2 < p.form then (s, 4)
  else
    let s := { s with contribs := s.contribs ++ packetContribs s.bell.beat ty p }
    (s, if (s.ownWindow p.window).isNone then 4 else if staleStep s p then 5 else 0)

/-- The room still free in an INBOX, less what open messages have reserved (R359). -/
def State.inboxRoom (s : State) (q : QueueEntry) : Nat :=
  let r := s.ring q.num
  let used := (r.pi + 2 ^ 32 - r.ci) % 2 ^ 32
  let held := s.flows.foldl (fun a e => e.2.rxMsgs.foldl (fun b m =>
    match m.reserved with
    | some h => if h.1 = q.num then b + h.2 else b
    | none => b) a) 0
  q.entries - used - held

/-- The entries a MESSAGE reserves at the first of its packets to arrive (R359). -/
def messageRoom (p : Packet) : Nat :=
  (p.count.toNat - 1) * 64 + (if p.isLast then p.payload.length / 64 else 64)

/-- The entries of a completed MESSAGE appended to its INBOX (R359). -/
def State.appendInbox (s : State) (q : QueueEntry) (bs : Bytes) : State :=
  (upto (bs.length / 64)).foldl (fun (s : State) i =>
    let r := s.ring q.num
    let s := match s.region? q.region with
      | some g => s.writeLine (g.base + q.offset + (r.pi % q.entries) * 64) (sliceB bs (64 * i) 64)
      | none => s
    s.setRing q.num { r with pi := (r.pi + 1) % 2 ^ 32 }) s

/-- A host WRITE of SPACE 2 takes effect at completion, register by register order with GO last
(R369). -/
def State.applyMailbox (s : State) (addr : Nat) (bs : Bytes) : State × Nat :=
  let first := addr / 256
  let last := (addr + bs.length - 1) / 256
  (upto (last + 1 - first)).foldl (fun (acc : State × Nat) i =>
    let n := first + i
    let lo := max addr (n * 256)
    let hi := min (addr + bs.length) ((n + 1) * 256)
    let r := acc.1.mailboxWrite n (lo - n * 256) ((bs.drop (lo - addr)).take (hi - lo))
    (r.1, if r.2 then 1 else acc.2)) (s, 0)

/-- A whole snapshot header written into a SNAP region (R418): COMPLETE 0 begins a snapshot, cutting
off one still open there; COMPLETE 1 ends it as valid, or as invalid where lines are marked. -/
def State.noteSnapshot (s : State) (region src : Nat) : State :=
  match s.region? region with
  | some g =>
    let h := s.readPhys .ring g.base 64
    let s := h.1
    if s.snapSource region src && h.2.take 4 == natLe 4 0x534E4150 then
      let step := fieldLe h.2 4 4
      let complete := fieldLe h.2 19 1 == 1
      let second := match s.activePlan with
        | some p => p.buddies.any (fun b => b.buddy == s.place && b.place == src && b.snap2 == region)
        | none => false
      if complete then
        let s := { s with step := { s.step with snapIn := none } }
        if s.mem.poison.any (fun l => g.holds l 1) then (s.setObj oSnapValid 0).raise .snapshotInvalid
        else (s.setObj oSnapValid 1).setObj oSnapReceived
          (step + src * 2 ^ 32 + b2n second * 2 ^ 48)
      else
        let s := match s.step.snapIn with
          | some _ => s.raise .snapshotInvalid
          | none => s
        { s with step := { s.step with snapIn := some ⟨src, region, step, false⟩ } }.setObj oSnapValid 0
    else s
  | none => s

/-- What remains to be done when every packet of a message has come (R354, R355, R359, R369): the CRC
is compared; a mismatch raises FLOW_CRC_FAIL and, with a plan admitted, poisons the step. -/
def State.finishMessage (s : State) (n : Nat) (m : RxMessage) (p : Packet) : State :=
  let bs := (upto m.count).foldl (fun a i => a ++ Bank.get m.payload [] i) []
  let crcBad := match m.crc with | some c => c != crc64 bs | none => true
  if crcBad then
    let s := s.bump oCrcFailCount
    let s := if s.admitted then (s.poison false).raiseAt .flowCrcFail 0 1
      else s.raiseAt .flowCrcFail 0 0
    s.completeMsg n m.id 3
  else if m.status ≠ 0 then
    let s := if m.status = 2 then s.bump oQueueFullCount else s
    s.completeMsg n m.id m.status
  else if m.type = 0x07 then
    match s.queue? m.queue with
    | some q => (s.appendInbox q bs).completeMsg n m.id 0
    | none => s.completeMsg n m.id 4
  else if m.type = 0x01 ∧ p.space = 2 then
    let r := s.applyMailbox p.addr bs
    r.1.completeMsg n m.id r.2
  else if m.type = 0x01 ∧ p.space = 1 ∧ p.addr = 0 then
    (s.noteSnapshot p.region p.src.toNat).completeMsg n m.id 0
  else s.completeMsg n m.id 0

/-- A flowed packet's own effect at its target: its status, and for MESSAGE the room it reserves. -/
def State.deliver (s : State) (ty : Nat) (p : Packet) (first : Bool) :
    State × Nat × Option (Nat × Nat) :=
  match ty with
  | 0x01 => let r := s.deliverWrite p; (r.1, r.2, none)
  | 0x02 =>
    let r := s.readFor p
    (r.1.answerRead p r.2.1, r.2.2, none)
  | 0x04 => let r := s.deliverContribs ty p; (r.1, r.2, none)
  | 0x05 => let r := s.deliverContribs ty p; (r.1, r.2, none)
  | 0x06 => let r := s.deliverContribs ty p; (r.1, r.2, none)
  | 0x07 =>
    if staleStep s p then (s, 5, none)
    else match s.queue? p.window with
      | some q =>
        if q.kind ≠ 3 then (s, 4, none)
        else if first then
          (if messageRoom p ≤ s.inboxRoom q then (s, 0, some (q.num, messageRoom p)) else (s, 2, none))
        else (s, 0, none)
      | none => (s, 4, none)
  | 0x08 =>
    if staleStep s p then (s, 5, none)
    else
      let n := p.flow.toNat
      let f := s.flow n
      (s.setFlow n { f with bells := f.bells ++
        [⟨p.msgId.toNat, p.field 40 2, p.field 42 4⟩] }, 0, none)
  | _ => (s, if staleStep s p then 5 else 0, none)

/-- A new packet of a flow delivered and entered in its message's record (R350, R354). -/
def State.acceptPacket (s : State) (ty : Nat) (p : Packet) : State :=
  let n := p.flow.toNat
  let id := p.msgId.toNat
  let old := (s.flow n).rxMsgs.find? (fun m => m.id == id)
  let r := s.deliver ty p old.isNone
  let s := r.1
  let m0 : RxMessage := old.getD
    { id := id, count := p.count.toNat, got := [], payload := [], crc := none, status := 0,
      type := ty, queue := p.window, reserved := none }
  let i := p.index.toNat
  let m : RxMessage := { m0 with
    got := if m0.got.contains i then m0.got else m0.got ++ [i],
    payload := Bank.set m0.payload [] i p.payload,
    crc := if p.isLast then some p.msgCrc.toNat else m0.crc,
    status := if m0.status ≠ 0 then m0.status else r.2.1,
    reserved := match m0.reserved with | some h => some h | none => r.2.2 }
  let f := s.flow n
  let s := s.setFlow n { f with rxMsgs := f.rxMsgs.filter (fun x => x.id != id) ++ [m] }
  if m.got.length = m.count then s.finishMessage n m p else s

/-- RX_EXPECTED advanced past every received PSN (R350). -/
def advanceRx : Nat → Nat → List Nat → Nat × List Nat
  | 0, e, seen => (e, seen)
  | k + 1, e, seen =>
    if seen.contains e then advanceRx k ((e + 1) % 2 ^ 24) (seen.filter (fun x => x != e))
    else (e, seen)

/-- A flowed packet at the receiver (R350, R351). -/
def State.receiveFlowed (s : State) (ty : Nat) (p : Packet) : State :=
  let n := p.flow.toNat
  let f := s.flow n
  let epoch := match s.activePlan with | some q => q.id % 256 | none => 256
  let fromPeer := if f.host then p.srcHost else !p.srcHost && f.peer == p.src.toNat
  if p.epoch.toNat ≠ epoch ∨ f.state ≠ 1 ∨ fromPeer = false then s.badHead
  else
    let d := (p.psn.toNat + 2 ^ 24 - f.rxExpected) % 2 ^ 24
    if 2 ^ 23 ≤ d ∨ f.rxSeen.contains p.psn.toNat = true then ((s.bump oDuplicates).noteArrival n).ackSixteen n
    else if f.window ≤ d then s.badHead
    else
      let a := advanceRx (f.rxSeen.length + 1) f.rxExpected (p.psn.toNat :: f.rxSeen)
      let s := s.setFlow n { f with rxExpected := a.1, rxSeen := a.2 }
      ((s.noteArrival n).acceptPacket ty p).ackSixteen n

/-- The memory is out of service: before its zeroing ends (R276), and while a domain of its own is not on, when it is
in self-refresh or has no access (Table 17-4, assumption 94). -/
def State.memOut (s : State) : Bool := s.obj oMemState == 0 || !s.fnPowered .memory

/-- A packet of a type other than ACK and OBJECT at its destination (R345, R353). A WRITE or READ of the memory is not
served while it is out of service (R276, assumption 94). -/
def State.receive (s : State) (ty : Nat) (p : Packet) : State :=
  if headOk ty p = false then s.badHead
  else if s.memOut = true ∧ (ty = 0x01 ∨ ty = 0x02) ∧ p.space ≠ 2 then s
  else if p.noFlow then
    match ty with
    | 0x01 =>
      if crc64 p.payload = p.msgCrc.toNat then
        (if p.space = 2 ∧ p.srcHost = true ∧ p.addr + p.payload.length ≤ 32 * 256 ∧ staleStep s p = false
         then (s.applyMailbox p.addr p.payload).1 else (s.deliverWrite p).1)
      else s
    | 0x02 => let r := s.readFor p; r.1.answerRead p r.2.1
    | _ => s
  else s.receiveFlowed ty p

/-- WRITE_TRANSACTION (R356). -/
def execWriteTransaction (p : Packet) (upsets : List Upset) (s : State) :
    Host.Outcome State Fault Refusal := .next ((s.quiet.strike upsets).receive 0x01 p)

/-- READ_TRANSACTION (R357). -/
def execReadTransaction (p : Packet) (upsets : List Upset) (s : State) :
    Host.Outcome State Fault Refusal := .next ((s.quiet.strike upsets).receive 0x02 p)

/-- READ_DATA (R357): the bytes read are delivered; the message completes at its count. -/
def execReadData (p : Packet) (s : State) : Host.Outcome State Fault Refusal :=
  .next (s.quiet.receive 0x03 p)

/-- TALLY_ADD (R358). -/
def execTallyAdd (p : Packet) (s : State) : Host.Outcome State Fault Refusal :=
  .next (s.quiet.receive 0x04 p)

/-- MAXIDX (R358). -/
def execMaxidx (p : Packet) (s : State) : Host.Outcome State Fault Refusal :=
  .next (s.quiet.receive 0x05 p)

/-- MINIDX (R358). -/
def execMinidx (p : Packet) (s : State) : Host.Outcome State Fault Refusal :=
  .next (s.quiet.receive 0x06 p)

/-- MESSAGE (R359). -/
def execMessage (p : Packet) (s : State) : Host.Outcome State Fault Refusal :=
  .next (s.quiet.receive 0x07 p)

/-- DOORBELL (R360). -/
def execDoorbell (p : Packet) (s : State) : Host.Outcome State Fault Refusal :=
  .next (s.quiet.receive 0x08 p)

/-- Whether a PSN is acknowledged by CUM_PSN and SACK (R351). -/
def acked (cum sack psn : Nat) : Bool :=
  let d := (psn + 2 ^ 24 - cum) % 2 ^ 24
  decide (2 ^ 23 ≤ d) || (decide (d < 128) && bit sack d)

/-- What an ACK does at the sender (R351, R355): acknowledged packets leave the list, completed messages
make room, and a CRC status is FLOW_CRC_FAIL here too (assumption 14). -/
def State.takeAck (s : State) (p : Packet) : State :=
  let n := p.flow.toNat
  let f := s.flow n
  let cum := p.field 32 3
  let sack := p.field 48 8 + p.msgCrc.toNat * 2 ^ 64
  let done := p.field 36 4
  let status := p.field 40 1
  let isDone := fun (id : Nat) => decide ((done + 2 ^ 32 - id) % 2 ^ 32 < 2 ^ 31)
  let named := f.openMsgs.find? (fun o => o.id == done)
  let s := s.setFlow n { f with unacked := f.unacked.filter (fun x => !acked cum sack x.psn),
                                openMsgs := f.openMsgs.filter (fun o => !isDone o.id) }
  let s := if status = 3 ∧ named.isSome = true then
      let s := s.bump oCrcFailCount
      if s.admitted then (s.poison false).raiseAt .flowCrcFail 0 1 else s.raiseAt .flowCrcFail 0 0
    else s
  let s := if status ≠ 0 ∧ (match named with | some o => o.kind == 1 | none => false) = true then
      s.cutSnapshot else s
  s.pump n

/-- ACK_TIMER (R351): 4 µs after the first packet that no ACK covers. -/
def execAckTimer (flow : BitVec 12) (s : State) : Host.Outcome State Fault Refusal :=
  let s := s.quiet
  match (s.flow flow.toNat).ackDue with
  | some t => .next ((s.advanceTo t).sendAck flow.toNat)
  | none => .next s

/-- The destination of a resent host-bound packet is the active bridge (R374). -/
def readdress (s : State) (f : FlowSt) (bs : Bytes) : Bytes :=
  if f.host then overwrite bs 4 (natLe 2 (s.obj oBridgePlace)) else bs

/-- RTO_EXPIRY (R352): the packet is sent again with doubled RTO; when its eighth resend stays
unacknowledged the flow becomes FAILED, class C on a flow of the admitted plan. -/
def execRtoExpiry (flow : BitVec 12) (psn : BitVec 24) (s : State) :
    Host.Outcome State Fault Refusal :=
  let s := s.quiet
  let n := flow.toNat
  let f := s.flow n
  match f.unacked.find? (fun x => x.psn == psn.toNat) with
  | none => .next s
  | some x =>
    if f.state ≠ 1 then .next s else
    let s := s.advanceTo (x.sentAt + s.obj oRtoBaseUs * 1000 * 2 ^ x.resends)
    if 8 ≤ x.resends then
      let fail := x.psn + x.resends * 2 ^ 24 + s.bell.beat % 2 ^ 32 * 2 ^ 32
      let s := s.setFlow n { f with state := 2, lastFail := fail }
      let s := (s.setObj oFlowsOpen (s.obj oFlowsOpen - 1)).bump oFlowFailedCount
      if s.admitted then .next (s.raiseAt .flowFailed 0 3).faultC
      else .next (s.raiseAt .flowFailed 0 0)
    else
      let y := { x with resends := x.resends + 1, sentAt := s.now, bytes := readdress s f x.bytes }
      let s := s.setFlow n { f with
        unacked := f.unacked.map (fun z => if z.psn == x.psn then y else z) }
      .next ((s.bump oResends).inject y.bytes)

end Sys2Proof.Machine
end

