-- ==== Sys2Proof/Machine/Recipe.lean ====
section
/-! DEFINITION. What the arithmetic units share (chapter 8): the draws of the generator, the loss scale
by tensor, and the overflow of a step. -/

namespace Sys2Proof.Machine

/-- STEP_NOW (0x2022.03). -/
def State.stepNow (s : State) : Nat := s.obj oStepNow

/-- The generator output under the admitted plan's seed (R189). -/
def State.draw (s : State) (purpose tensor step index : Nat) : Nat :=
  generator (match s.plan with | some p => p.seed | none => []) purpose tensor step index

/-- Bits [lo + 23 : lo] of a draw in the step in progress (Table 08-2). -/
def State.draw24 (s : State) (purpose tensor index lo : Nat) : Nat :=
  bits (s.draw purpose tensor s.stepNow index) lo 24

/-- The draw of an SR conversion, none drawn in another mode (R93). -/
def State.drawSr (s : State) (mode : RMode) (tensor index : Nat) : Nat :=
  match mode with
  | .sr => s.draw24 0x02 tensor index 0
  | .rne => 0
  | .rtz => 0

/-- The LOSS_SCALE of a kind: its entry, or the default of Table 08-6. -/
def kindScale (r : Recipe) (kind : Nat) : Int :=
  match r.kinds.find? (fun k => k.kind == kind) with
  | some k => k.lossScale
  | none => if kind = 3 then 1 else if kind = 7 then -1 else 0

/-- LOSS_SCALE of a tensor's kind, 0 for an untyped tensor (R196). -/
def tensorScale (r : Recipe) (tensor : Nat) : Int :=
  match r.tensors.find? (fun t => t.id == tensor) with
  | some t => if t.kind = 0 then 0 else kindScale r t.kind
  | none => 0

/-- L in force (0x3110.01). -/
def State.lossExp (s : State) : Int := toSigned 16 (s.obj oLsExp)

/-- The exponent LOSS_SCALE × L that a store path applies to a tensor (R198). -/
def State.scaleOf (s : State) (tensor : Nat) : Int :=
  match s.activePlan with
  | some p => tensorScale p.recipe tensor * toSigned 16 s.step.lsExp
  | none => 0

/-- A report of an overflow by source `src` of Table 08-9 (R203, R204): the first of the step sets
STEP_OVERFLOW and poisons the contribution; of two at one moment the lower source is recorded. `info`
is FIRST_OVERFLOW [31:8]. -/
def State.overflow (s : State) (src info : Nat) : State :=
  let rec1 := src + (info % 2 ^ 24) * 256 + (s.obj oStepBeatNow) * 2 ^ 32
  if s.admitted = false then s
  else if s.flag oStepOverflow then
    if s.ovfAt = s.now + 1 ∧ src < s.obj oFirstOverflow % 256 then s.setObj oFirstOverflow rec1 else s
  else
    let s := { s with ovfAt := s.now + 1 }
    let s := ((s.setObj oStepOverflow 1).setObj oFirstOverflow rec1).setObj oFirstOverflowStep s.stepNow
    ((s.poisonOverflow).bump oOverflowStepCount).raise .stepOverflow

/-- A report made only when the condition holds. -/
def State.overflowIf (s : State) (c : Bool) (src info : Nat) : State :=
  if c then s.overflow src info else s

/-- Cycles of 0.5 ns at the moment: time counts in ns, and an engine's event may fall on the odd cycle before. -/
def State.cyc (s : State) : Nat :=
  if s.bell.lastCyc + 1 = 2 * s.now then s.bell.lastCyc else 2 * s.now

/-- Time moved forward to a cycle. -/
def State.toCycle (s : State) (c : Nat) : State :=
  let c := max s.cyc c
  let t := s.advanceTo ((c + 1) / 2)
  { t with bell := { t.bell with lastCyc := c } }

end Sys2Proof.Machine
end

