-- ==== Sys2Proof/Machine/Collect.lean ====
section
/-! DEFINITION. How the results of a drain, a VECTOR action or a void slice reach a granary window, here
or on another module (R221, R358), and the checks a destination window passes. -/

namespace Sys2Proof.Machine

/-- The lowest-numbered flow of a class to a peer in the admitted plan (R358). -/
def State.flowTo (s : State) (cls peer : Nat) : Option Nat :=
  match s.activePlan with
  | some p =>
    let c := (p.flows.filter (fun f => f.place == s.place && f.cls == cls && f.peer == peer &&
      !f.host)).map (fun f => f.num)
    match c with
    | [] => none
    | x :: rest => some (rest.foldl min x)
  | none => none

/-- The window of a number in the plan's WINDOWS section, reachable from here (R358). -/
def State.knownWindow (s : State) (n : Nat) : Option Window :=
  match s.activePlan.bind (fun p => p.windows.find? (fun w => w.num == n)) with
  | some w => if w.owner = s.place ∨ (s.flowTo 2 w.owner).isSome = true then some w else none
  | none => none

/-- Whether the rectangle of `rows` rows of `cols` elements from `first`, rows `stride` apart, lies in
the window. -/
def inWindow (w : Window) (first stride rows cols : Nat) : Bool :=
  decide (first + (rows - 1) * stride + cols ≤ w.elements)

/-- One run of consecutive elements: the first element, and each value's bytes. -/
abbrev ElemRun := Nat × List Bytes

/-- The contributions of a run (R221): form 0 FP32, form 1 TALLY. -/
def runContribs (s : State) (win form : Nat) (anchor : Int) (r : ElemRun) : List Contribution :=
  r.2.zipIdx.map (fun e =>
    { window := win, step := s.stepNow, attempt := s.step.attempt, source := s.place,
      element := r.1 + e.2, form := form, value := if form = 0 then leNat e.1 else 0, aux := 0,
      tally := if form = 1 then e.1 else [], anchor := anchor,
      rho := if form = 1 then residueOf (toSigned 192 (leNat e.1)) 0 else 0,
      beat := s.bell.beat })

/-- The packet of a run (R358): type fields of TALLY_ADD with RHO over its tallies. -/
def runPiece (win form : Nat) (anchor : Int) (r : ElemRun) : Piece :=
  let rho := sumRes (r.2.map (fun b => residueOf (toSigned 192 (leNat b)) 0))
  (natLe 2 win ++ natLe 1 form ++ zeros 1 ++ natLe 4 r.1 ++
    natLe 2 (if form = 1 then ofSigned 16 anchor else 0) ++ zeros 6 ++
    natLe 8 (if form = 1 then rho else 0),
   r.2.foldl (fun a b => a ++ b) [])

/-- Contributions delivered: across the die fabric to a window owned here, or as one TALLY_ADD message
to its owner (R144, R358). -/
def State.contribute (s : State) (win form : Nat) (anchor : Int) (runs : List ElemRun) : State :=
  match s.knownWindow win with
  | none => s
  | some w =>
    if w.owner = s.place then
      { s with contribs := s.contribs ++
          runs.foldl (fun a r => a ++ runContribs s win form anchor r) [] }
    else match s.flowTo 2 w.owner with
      | some f => s.sendMessage f 0x04 (runs.map (runPiece win form anchor)) s.stepNow s.step.attempt 0
      | none => s

/-- The runs of a void delivery: zeros with clear flags (R152, R178). -/
def zeroRuns (form first stride rows cols : Nat) : List ElemRun :=
  (upto rows).map (fun r =>
    (first + r * stride, List.replicate cols (zeros (if form = 1 then 24 else 4))))

end Sys2Proof.Machine
end

