-- ==== Sys2Proof/Machine/Matrix.lean ====
section
/-! DEFINITION. Matrix engines (chapter 6): the slot map, FILL, MATRIX slices into tally tiles, drains,
the validity of descriptors and void slices. -/

namespace Sys2Proof.Machine

/-! ### Engine pairs and slots -/

/-- The number of an engine pair over both dies. -/
def engKey (die engine : Nat) : Nat := die * 96 + engine

/-- An engine pair. -/
def State.eng (s : State) (k : Nat) : EngineSt := Bank.get s.engines EngineSt.init k

/-- An engine pair replaced. -/
def State.setEng (s : State) (k : Nat) (e : EngineSt) : State :=
  { s with engines := Bank.set s.engines EngineSt.init k e }

/-- The slot map object of an engine (0x3001, 0x3002). -/
def oSlot (k : Nat) : Nat := if k < 96 then oSlotMapD0 k else oSlotMapD1 (k - 96)

/-- The strike count object of an engine (0x3005, 0x3006). -/
def oStrike (k : Nat) : Nat := if k < 96 then oStrikesD0 k else oStrikesD1 (k - 96)

/-- The tile status object of an engine's tile (0x3007, 0x3008). -/
def oTileStatus (k tile : Nat) : Nat :=
  if k < 96 then oTileStatusD0 (k + 96 * tile) else oTileStatusD1 (k - 96 + 96 * tile)

/-- Whether the slot is of class ME-N: slots 10 and 11 of a cluster. -/
def isNarrow (k : Nat) : Bool := decide (10 ≤ k % 12)

/-- Whether a hardware current limit has switched off the cluster of an engine (R454). -/
def State.engCapped (s : State) (k : Nat) : Bool := s.dom (k / 96 * 12 + k % 96 / 12) == domCapped

/-- Whether the whole pair runs void: no engine in the slot (R153), the cluster switched off by a current limit
(R454), or its control core FENCED (R184). -/
def State.pairVoid (s : State) (k : Nat) : Bool :=
  s.obj (oSlot k) == 255 || s.engCapped k || s.obj (oCoreState (k / 96 * 8 + k % 96 / 12)) == 4

/-- Whether a MATRIX or FILL descriptor runs void on the engine: issued void (R184), the rest of the step void (R145,
R151), or the pair void. -/
def State.runsVoid (s : State) (k : Nat) (q : Queued) : Bool := q.void || (s.eng k).voidStep || s.pairVoid k

/-- Whether a VECTOR or VLOAD descriptor runs void on the engine: issued void (R184), the rest of the step void (R151,
R177), or the pair void. -/
def State.runsVoidVec (s : State) (k : Nat) (q : Queued) : Bool := q.void || (s.eng k).voidVec || s.pairVoid k

/-- A tile of an engine. -/
def EngineSt.tile (e : EngineSt) (t : Nat) : TileSt := if t = 0 then e.t0 else e.t1

/-- A tile of an engine replaced. -/
def EngineSt.setTile (e : EngineSt) (t : Nat) (x : TileSt) : EngineSt :=
  if t = 0 then { e with t0 := x } else { e with t1 := x }

/-- An input plane of an engine. -/
def EngineSt.plane (e : EngineSt) (p : Nat) : PlaneSt := if p = 0 then e.in0 else e.in1

/-- An input plane of an engine replaced. -/
def EngineSt.setPlane (e : EngineSt) (p : Nat) (x : PlaneSt) : EngineSt :=
  if p = 0 then { e with in0 := x } else { e with in1 := x }

/-! ### Descriptor fields -/

/-- The fields of a MATRIX descriptor (Table 06-5). -/
structure MatrixD where
  k : Nat
  kb : Nat
  aLine : Nat
  aRing : Nat
  bLine : Nat
  bRing : Nat
  fa : Nat
  fb : Nat
  fo : Nat
  tile : Nat
  cont : Bool
  anchorMode : Nat
  passCode : Nat
  drain : Nat
  round : Nat
  relA : Bool
  relB : Bool
  anchor : Int
  rows : Nat
  cols : Nat
  tensor : Nat
  stride : Nat
  base : Nat
  dest : Nat
  destStride : Nat

/-- A MATRIX descriptor read. -/
def matrixD (d : Bytes) : MatrixD :=
  let f := fieldLe d 24 2
  let c := fieldLe d 26 2
  { k := bits (fieldLe d 8 4) 0 21, kb := fieldLe d 12 4, aLine := bits (fieldLe d 16 2) 0 15,
    aRing := fieldLe d 18 2, bLine := bits (fieldLe d 20 2) 0 15, bRing := fieldLe d 22 2,
    fa := bits f 0 4, fb := bits f 4 4, fo := bits f 8 4, tile := bits c 0 1, cont := bit c 1,
    anchorMode := bits c 2 2, passCode := bits c 4 2, drain := bits c 6 3, round := bits c 9 2,
    relA := bit c 11, relB := bit c 12, anchor := toSigned 16 (fieldLe d 28 2), rows := fieldLe d 30 1,
    cols := fieldLe d 31 1, tensor := fieldLe d 32 3, stride := fieldLe d 36 4,
    base := bits (fieldLe d 40 8) 0 44, dest := fieldLe d 48 8, destStride := fieldLe d 56 4 }

/-- The passes of a slice: 1, 3 or 6. -/
def MatrixD.passes (m : MatrixD) : Nat :=
  if m.passCode = 1 then 3 else if m.passCode = 2 then 6 else 1

/-- An INT8 command (R111). -/
def MatrixD.isInt8 (m : MatrixD) : Bool := m.fa == 6

/-- K-blocks of the slice (R112). -/
def MatrixD.blocks (m : MatrixD) : Nat := ceilDiv m.k 16

/-- The window of a GRANARY drain and its first element. -/
def MatrixD.window (m : MatrixD) : Nat := bits m.dest 0 16
def MatrixD.first (m : MatrixD) : Nat := bits m.dest 16 32

/-- The fields of a FILL descriptor (Table 06-4). -/
structure FillD where
  src : Nat
  stride : Nat
  k : Nat
  line : Nat
  ring : Nat
  scaleStride : Nat
  scaleSrc : Nat
  rows : Nat
  fs : Nat
  fb : Nat
  round : Nat
  cont : Bool

/-- A FILL descriptor read. -/
def fillD (d : Bytes) : FillD :=
  { src := fieldLe d 8 8, stride := fieldLe d 16 4, k := bits (fieldLe d 20 4) 0 21,
    line := bits (fieldLe d 24 2) 0 15, ring := fieldLe d 26 2, scaleStride := fieldLe d 28 4,
    scaleSrc := fieldLe d 32 8, rows := fieldLe d 40 1, fs := bits (fieldLe d 41 1) 0 4,
    fb := bits (fieldLe d 41 1) 4 4, round := bits (fieldLe d 42 1) 0 2,
    cont := bit (fieldLe d 43 1) 0 }

/-- Descriptor head bits [31:8] are zero (Table 14-7). -/
def headClean (d : Bytes) : Bool := fieldLe d 1 3 == 0

/-! ### Panels (Table 06-3) -/

/-- Lines of a panel in a buffer format. -/
def panelLines (c : Nat) : Nat := elemBytes c 16 + b2n (isMx c)

/-- A ring placed by LINE and RING (R136). -/
def ringOk (line ring : Nat) : Bool :=
  decide (line % 64 = 0) && decide (1 ≤ ring) && decide (ring ≤ 512) && decide (line / 64 + ring ≤ 512)

/-- Two rings that share a page. -/
def ringsMeet (l1 r1 l2 r2 : Nat) : Bool :=
  decide (l1 / 64 < l2 / 64 + r2) && decide (l2 / 64 < l1 / 64 + r1)

/-- The buffer line of stream line `n` (R136). -/
def bufLine (line ring n : Nat) : Nat := line + n % (64 * ring)

/-- The buffer lines of panel `j`. -/
def panelSpan (line ring c j : Nat) : List Nat :=
  (upto (panelLines c)).map (fun i => bufLine line ring (j * panelLines c + i))

/-- Every page that holds the panel's lines is valid (R137). -/
def panelReady (e : EngineSt) (line ring c j : Nat) : Bool :=
  (panelSpan line ring c j).all (fun l => e.valid.contains (l / 64))

/-- One line read by a releasing slice: its page becomes invalid once every line filled into it has
been read (R137, assumption 21). -/
def takeLine (e : EngineSt) (l : Nat) : EngineSt :=
  let p := l / 64
  let got := Bank.get e.taken 0 p ||| 2 ^ (l % 64)
  if Bank.get e.filled 0 p &&& got = Bank.get e.filled 0 p then
    { e with valid := e.valid.filter (fun v => v != p), taken := Bank.set e.taken 0 p 0,
             filled := Bank.set e.filled 0 p 0 }
  else { e with taken := Bank.set e.taken 0 p got }

/-- A panel released. -/
def releasePanel (e : EngineSt) (line ring c j : Nat) : EngineSt :=
  (panelSpan line ring c j).foldl takeLine e

/-- Element bits `i` of row `r` of panel `j`, with the row's scale byte. -/
def panelElem (e : EngineSt) (line ring c j r i : Nat) : Nat × Nat :=
  let rb := elemBytes c 16
  let off := r * rb
  let l := bufLine line ring (j * panelLines c + off / 64)
  let row := memRead e.buf (l * 64 + off % 64) rb
  let sl := bufLine line ring (j * panelLines c + rb)
  (elemAt c row i, if isMx c then leNat (memRead e.buf (sl * 64 + r) 1) else 0)

/-- The value of an operand element in a pass: the element, its scale applied (R89), or its BF16 piece
in split mode (R99). -/
def operandVal (e : EngineSt) (line ring c j piece r i : Nat) : FVal :=
  let x := panelElem e line ring c j r i
  if c = 0 then fmtBf16.decode ((splitPieces x.1).getD piece 0)
  else if isMx c then mxVal c x.1 x.2 else elemVal c x.1

/-! ### Products and terms -/

/-- A panel as the product array reads it: the value of index `i` of row or column `r` in a piece, and the 16
checksums of a piece, formed at the FILL (R381). -/
structure Panel where
  val : Nat → Nat → Nat → FVal
  sums : Nat → List Nat

/-- The checksums of a panel: for every piece and index the sum of the residues over the 64 rows (R381). -/
def panelSums (pieces : Nat) (val : Nat → Nat → Nat → FVal) : List Nat :=
  (upto (16 * pieces)).map (fun i => sumRes ((upto 64).map (fun r => (val (i / 16) r (i % 16)).residue)))

/-- Pieces of an operand of a buffer format (R99). -/
def piecesOf (c : Nat) : Nat := if c = 0 then 3 else 1

/-- Panel `j` of an operand in the buffer. -/
def bufPanel (e : EngineSt) (line ring c j : Nat) : Panel :=
  { val := operandVal e line ring c j,
    sums := fun piece => ((Bank.get e.sums [] (bufLine line ring (j * panelLines c))).drop (16 * piece)).take 16 }

/-- The products of one k-block in one pass for one output element: the exact finite sum, the largest
finite product exponent, and the specials (R112, R115, R110). -/
structure Products where
  sum : Ex
  top : Option Int
  specials : List FVal

/-- One product added. The spec names no product of two Infs; it is an Inf of the product's sign (assumption 89). -/
def addProduct (p : Products) (x y : FVal) : Products :=
  match x, y with
  | .num n m e, .num n' m' e' =>
    let v : Int := if n == n' then Int.ofNat (m * m') else -(Int.ofNat (m * m'))
    { p with sum := p.sum.add ⟨v, e + e'⟩,
             top := if m * m' = 0 then p.top else
               let b := expOf (m * m') (e + e')
               match p.top with
               | some t => some (if t < b then b else t)
               | none => some b }
  | .nan, _ => { p with specials := .nan :: p.specials }
  | _, .nan => { p with specials := .nan :: p.specials }
  | .inf n, y =>
    { p with specials := (if y.isZero then .nan else .inf (n != y.isNeg)) :: p.specials }
  | x, .inf n =>
    { p with specials := (if x.isZero then .nan else .inf (n != x.isNeg)) :: p.specials }

/-- The products of a k-block of `n` indices for element (r, c) in pass (pa, pb). -/
def products (a b : Panel) (n r c pa pb : Nat) : Products :=
  (upto n).foldl (fun p i => addProduct p (a.val pa r i) (b.val pb c i)) ⟨Ex.zero, none, []⟩

/-- The 4,096 output elements in row order: row and column. -/
def tileCells : List (Nat × Nat) := (upto 4096).map (fun i => (i / 64, i % 64))

/-- The FIRST-BLOCK anchor of R110: the largest product exponent of the first k-block plus 8, held to
−256 to 255; none when no product is nonzero and finite. -/
def firstBlockAnchor (passes : Nat) (a b : Panel) (n : Nat) : Option Int :=
  let top := tileCells.foldl (fun t rc => (passPairs passes).foldl (fun t pp =>
    match (products a b n rc.1 rc.2 pp.1 pp.2).top, t with
    | some b, some t => some (if t < b then b else t)
    | some b, none => some b
    | none, t => t) t) (none : Option Int)
  top.map (fun t => if t + 8 < -256 then -256 else if 255 < t + 8 then 255 else t + 8)

/-- The tile's anchor for its first term (R108 to R111): the anchor and FALLBACK. -/
def anchorFor (m : MatrixD) (a b : Panel) (n : Nat) : Int × Bool :=
  if m.isInt8 then (150, false)
  else if m.anchorMode = 1 then
    match firstBlockAnchor m.passes a b n with
    | some a => (a, false)
    | none => (m.anchor, true)
  else (m.anchor, false)

/-- A residue added to what a row, or at 64 on a column, should come to. -/
def addExpect (b : Bank Nat) (i v : Nat) : Bank Nat := Bank.set b 0 i (addRes (Bank.get b 0 i) v)

/-- One term of index `kb` entered into the tile at element (r, c) in pass number `p` (R114 to R117); its correction
joins the residues predicted for its row and column (R383). -/
def enterTerm (s : State) (m : MatrixD) (x : TileSt) (a : Int) (pr : Products) (r c kb p : Nat) :
    TileSt :=
  let i := 64 * r + c
  let t0 := pr.specials.foldl Tally.special (Bank.get x.cells Tally.zero i)
  let v := s.draw24 0x03 m.tensor ((m.base + r * m.stride + c) * 2 ^ 20 + kb % 2 ^ 20) (20 * p)
  let en := t0.enter a pr.sum v
  { x with cells := Bank.set x.cells Tally.zero i en.tally,
           expect := if en.kappa = 0 then x.expect else addExpect (addExpect x.expect r en.kappa) (64 + c) en.kappa,
           bw := if en.below then min 65535 (x.bw + 1) else x.bw, aboveSeen := x.aboveSeen || en.above }

/-- What the operands predict for row `r` in a pass, at the tile's anchor (R383): the row's residues times the other
operand's checksums. -/
def rowPredicted (x other : Panel) (n r px py : Nat) (scale : Nat) : Nat :=
  mulRes scale (sumRes ((upto n).map (fun i => mulRes (x.val px r i).residue ((other.sums py).getD i 0))))

/-- One pass of a k-block entered: every element's term, the residues predicted for the rows and columns, and the
k-block's own check (R382). -/
def enterPass (s : State) (m : MatrixD) (an : Int) (a b : Panel) (n kb : Nat) (x : TileSt)
    (pp : (Nat × Nat) × Nat) : TileSt :=
  let scale := powRes (150 - an)
  let y := tileCells.foldl (fun (y : TileSt × Nat) rc =>
    let pr := products a b n rc.1 rc.2 pp.1.1 pp.1.2
    (enterTerm s m y.1 an pr rc.1 rc.2 kb pp.2, addRes y.2 (mulRes scale pr.sum.residue))) (x, 0)
  let expect := (upto 64).foldl (fun e r =>
    addExpect (addExpect e r (rowPredicted a b n r pp.1.1 pp.1.2 scale)) (64 + r)
      (rowPredicted b a n r pp.1.2 pp.1.1 scale)) y.1.expect
  let whole := mulRes scale (sumRes ((upto n).map (fun i =>
    mulRes ((a.sums pp.1.1).getD i 0) ((b.sums pp.1.2).getD i 0))))
  { y.1 with expect := expect, blocks := y.1.blocks ++ [⟨kb, pp.2, whole, y.2⟩] }

/-- One k-block of `n` indices of index `kb` entered: every pass of every element (R134). A tile that holds a term
keeps its anchor (R108), an INT8 command's included (assumption 89). -/
def enterBlock (s : State) (m : MatrixD) (x : TileSt) (a b : Panel) (n kb : Nat) : TileSt :=
  let af := match x.anchor with
    | some a => (a, x.fallback)
    | none => anchorFor m a b n
  (passPairs m.passes).zipIdx.foldl (enterPass s m af.1 a b n kb) { x with anchor := some af.1, fallback := af.2 }

/-- The errors of a product array over a slice: each wrong term in its tally and in its k-block's check. Only the
k-blocks whose check finds a difference are kept for the verdict (R382). -/
def strikeTerms (errors : List TermError) (x : TileSt) : TileSt :=
  let y := errors.foldl (fun (x : TileSt) e =>
    if x.blocks.any (fun b => b.block == e.block.toNat && b.pass == e.pass.val) then
      let d := e.delta.toInt
      let i := 64 * e.row.val + e.column.val
      { x with cells := Bank.set x.cells Tally.zero i ((Bank.get x.cells Tally.zero i).addInt d),
               blocks := x.blocks.map (fun b =>
                 if b.block = e.block.toNat ∧ b.pass = e.pass.val then
                   { b with found := addRes b.found (Ex.mk d 0).residue } else b) }
    else x) x
  { y with blocks := y.blocks.filter (fun b => b.expect != b.found) }

/-- A tally with bits of T wrong. -/
def Tally.strike (t : Tally) (mask : BitVec 192) : Tally :=
  { t with t := (BitVec.ofInt 192 t.t ^^^ mask).toInt }

/-- The errors in a tile's storage at its drain. -/
def strikeTile (errors : List TallyError) (x : TileSt) : TileSt :=
  if x.void then x else
    errors.foldl (fun x e =>
      let t := (Bank.get x.cells Tally.zero e.element.toNat).strike e.mask
      { x with cells := Bank.set x.cells Tally.zero e.element.toNat t }) x

/-- Cycles of k-block `j` over its passes (R133). -/
def blockCycles (k : Nat) (m : MatrixD) (j : Nat) : Nat :=
  ceilDiv (min 16 (m.k - 16 * j)) (kdOf (isNarrow k) m.fa m.fb) * m.passes

/-! ### Validity (Table 06-7) -/

/-- The least code of a list of checks, 0 when all pass. -/
def leastCode (cs : List (Nat × Bool)) : Nat :=
  match cs.find? (fun c => c.2) with
  | some c => c.1
  | none => 0

/-- The output format is one that the drain allows (Table 06-6). -/
def drainFormatOk (m : MatrixD) : Bool :=
  match m.drain with
  | 0 => m.fo == 0
  | 1 => m.fo == 0
  | 2 => decide (m.fo ≤ 9) && (m.fo != 6 || m.isInt8) && (!isMx m.fo || m.cols == 32 || m.cols == 64)
  | 3 => m.fo == 10
  | 4 => m.fo == 0
  | _ => false

/-- The destination window of a GRANARY drain is known and holds every element (R144). -/
def State.windowHolds (s : State) (win first stride rows cols : Nat) : Bool :=
  match s.knownWindow win with
  | some w => inWindow w first stride rows cols
  | none => false

/-- The reason code of a MATRIX descriptor at its start, 0 when it is valid (R145). ROUND names RTZ invalidly where the
drain rounds; with NONE, GRANARY_TALLY and an INT8 store it is not used (Table 06-6, assumption 89). -/
def State.matrixBad (s : State) (k : Nat) (d : Bytes) : Nat :=
  let e := s.eng k
  let m := matrixD d
  let x := e.tile m.tile
  let rounds := m.drain == 1 || (m.drain == 2 && m.fo != 6) || m.drain == 4
  let granary := m.drain == 3 || m.drain == 4
  leastCode [
    (0x01, decide (9 < m.fa) || decide (9 < m.fb) || decide (10 < m.fo)),
    (0x02, !mayPair m.fa m.fb),
    (0x03, m.passCode == 3 || (m.fa == 0) == (m.passCode == 0)),
    (0x04, decide (2 ≤ m.anchorMode) || decide (m.anchor < -256) || decide (255 < m.anchor)),
    (0x05, m.round == 3 || (rounds && m.round == 1)),
    (0x06, m.k == 0 || decide (1048576 < m.k) ||
      decide (2 ^ 40 < (if m.cont then x.products else 0) + m.k * m.passes)),
    (0x07, m.cont && x.phase == 1 && !x.whole),
    (0x08, if m.cont then x.phase != 1 else e.lastTile == some m.tile || x.phase == 1),
    (0x09, !drainFormatOk m ||
      (granary && !s.windowHolds m.window m.first m.destStride m.rows m.cols)),
    (0x0A, m.rows == 0 || decide (64 < m.rows) || m.cols == 0 || decide (64 < m.cols) ||
      !ringOk m.aLine m.aRing || !ringOk m.bLine m.bRing ||
      ringsMeet m.aLine m.aRing m.bLine m.bRing || (m.drain == 2 && m.destStride % 32 != 0)),
    (0x0B, !headClean d || fieldLe d 8 4 / 2 ^ 21 != 0 || bit (fieldLe d 16 2) 15 ||
      bit (fieldLe d 20 2) 15 || fieldLe d 24 2 / 2 ^ 12 != 0 || fieldLe d 26 2 / 2 ^ 13 != 0 ||
      fieldLe d 35 1 != 0 || fieldLe d 40 8 / 2 ^ 44 != 0 || fieldLe d 60 4 != 0 ||
      (granary && m.dest / 2 ^ 48 != 0) ||
      (decide (m.drain ≤ 1) && (m.dest != 0 || m.destStride != 0)))]

/-- The reason code of a FILL descriptor, 0 when it is valid (R141, R145). -/
def fillBad (d : Bytes) : Nat :=
  let f := fillD d
  let narrows := f.fs == 0 && f.fb != 0
  leastCode [
    (0x01, decide (9 < f.fs) || decide (9 < f.fb) || (f.fb != f.fs && !(narrows && decide (f.fb ≤ 5)))),
    (0x05, f.round == 3 || (narrows && f.round == 2)),
    (0x06, f.k == 0 || decide (1048576 < f.k)),
    (0x0A, f.rows == 0 || decide (64 < f.rows) || f.src % 64 != 0 || f.stride % 64 != 0 ||
      !ringOk f.line f.ring),
    (0x0B, !headClean d || fieldLe d 20 4 / 2 ^ 21 != 0 || bit (fieldLe d 24 2) 15 ||
      fieldLe d 42 1 / 4 != 0 || fieldLe d 43 1 / 2 != 0 || fieldLe d 44 20 != 0 ||
      (!isMx f.fs && (f.scaleStride != 0 || f.scaleSrc != 0)))]

/-- MATRIX_CMD_INVALID (R145): recorded, the step POISONED without replay, the rest of the step void. -/
def State.matrixInvalid (s : State) (k code fill : Nat) : State :=
  let s := s.bump oCmdInvalidCount
  let s := s.setObj oLastCmdInvalid
    (code + (k % 96) * 2 ^ 8 + (k / 96) * 2 ^ 16 + fill * 2 ^ 17 + s.obj oStepBeatNow * 2 ^ 32)
  let s := (s.poison true).raise .matrixCmdInvalid
  s.setEng k { s.eng k with voidStep := true }

/-! ### FILL -/

/-- Bytes read by an agent; a denied read moves nothing and the bytes are free (assumption 20). -/
def State.loadData (s : State) (ag : Agent) (a n : Nat) : State × Bytes :=
  let r := s.load ag a n
  if r.2.denied then
    let f := freeBytes n r.1
    (f.2, f.1)
  else (r.1, r.2.data)

/-- The bytes of row `r` of panel `j` of a FILL: read, narrowed where the formats differ (R91), padded
with zeros beyond K and ROWS (R135). An overflow of the narrowing is reported with tensor id 0: the descriptor names no
tensor (assumption 88). -/
def State.fillRow (s : State) (f : FillD) (j r : Nat) : State × Bytes :=
  let rb := elemBytes f.fb 16
  let n := min 16 (f.k - 16 * j)
  if f.rows ≤ r ∨ n = 0 then (s, zeros rb)
  else
    let l := s.loadData .engine (f.src + r * f.stride + elemBytes f.fs (16 * j)) (elemBytes f.fs n)
    if f.fs = f.fb then
      (l.1, padTo rb (packElems f.fb ((upto n).map (fun i => elemAt f.fs l.2 i))))
    else
      let cs := (upto n).map (fun i =>
        storeCode f.fb (elemVal 0 (elemAt 0 l.2 i)) ((RMode.ofCode f.round).getD .rne) 0)
      (l.1.overflowIf (cs.any (fun c => c.ovf)) 0x01 0, padTo rb (packElems f.fb (cs.map (fun c => c.bits))))

/-- The scale line of panel `j` (R135). -/
def State.fillScales (s : State) (f : FillD) (j : Nat) : State × Bytes :=
  (upto 64).foldl (fun (a : State × Bytes) r =>
    if f.rows ≤ r then (a.1, a.2 ++ [0])
    else
      let l := a.1.loadData .engine (f.scaleSrc + r * f.scaleStride + (16 * j) / 32) 1
      (l.1, a.2 ++ l.2)) (s, [])

/-- Line `l` of panel `j` of a FILL. -/
def State.fillLine (s : State) (f : FillD) (j l : Nat) : State × Bytes :=
  let rb := elemBytes f.fb 16
  if rb ≤ l then s.fillScales f j
  else (upto (64 / rb)).foldl (fun (a : State × Bytes) i =>
    let r := a.1.fillRow f j (l * (64 / rb) + i)
    (r.1, a.2 ++ r.2)) (s, [])

/-- The stream line at which a FILL begins (STREAM_AT): 0 too when it continues and no FILL with its LINE came before
it in the step (assumption 88). -/
def fillStart (e : EngineSt) (f : FillD) : Nat := if f.cont then Bank.get e.streams 0 f.line else 0

/-- Stream lines that a FILL writes. -/
def fillTotal (f : FillD) : Nat := ceilDiv f.k 16 * panelLines f.fb

/-- The stream lines of the FILL's page number `p`: from and to. -/
def fillPage (e : EngineSt) (f : FillD) (p : Nat) : Nat × Nat :=
  let n0 := fillStart e f
  (max n0 (64 * (n0 / 64 + p)), min (n0 + fillTotal f) (64 * (n0 / 64 + p + 1)))

/-- The checksums of the panel that a FILL has just completed, `j` counted over the stream (R381). -/
def EngineSt.sumPanel (e : EngineSt) (f : FillD) (j : Nat) : EngineSt :=
  let xs := panelSums (piecesOf f.fb) (operandVal e f.line f.ring f.fb j)
  { e with sums := Bank.set e.sums [] (bufLine f.line f.ring (j * panelLines f.fb)) xs }

/-- One line of a FILL put in the buffer. -/
def State.putLine (s : State) (k : Nat) (f : FillD) (n0 n : Nat) : State :=
  let pl := panelLines f.fb
  let r := s.fillLine f ((n - n0) / pl) ((n - n0) % pl)
  let e := r.1.eng k
  let l := bufLine f.line f.ring n
  let e := { e with buf := memWrite e.buf (l * 64) r.2,
                    filled := Bank.set e.filled 0 (l / 64) (Bank.get e.filled 0 (l / 64) ||| 2 ^ (l % 64)) }
  r.1.setEng k (if (n + 1) % pl = 0 then e.sumPanel f (n / pl) else e)

/-- The next page of the first FILL written and set valid; the FILL leaves its FIFO after its last page. -/
def State.writePage (s : State) (k : Nat) (f : FillD) : State :=
  let e := s.eng k
  let p := e.fillPages
  let n0 := fillStart e f
  let span := fillPage e f p
  let s := ((upto (span.2 - span.1)).map (fun i => span.1 + i)).foldl
    (fun s n => s.putLine k f n0 n) s
  let e := s.eng k
  let page := bufLine f.line f.ring span.1 / 64
  let e := { e with valid := insertSorted page e.valid,
                    panels := if p = 0 ∧ f.cont = false then Bank.set e.panels 0 f.line 0 else e.panels }
  if n0 + fillTotal f ≤ span.2 then
    s.setEng k { e with fills := e.fills.drop 1, fillPages := 0,
                        streams := Bank.set e.streams 0 f.line (n0 + fillTotal f) }
  else s.setEng k { e with fillPages := p + 1 }

/-! ### Slices -/

/-- The slice's next k-block, when it may enter: void blocks take their cycles only; others wait for
their panels' pages and release them (R137, R146). -/
def State.stepBlock (s : State) (k : Nat) : State :=
  let e := s.eng k
  match e.slice with
  | none => s
  | some sl =>
    let m := matrixD sl.desc
    let j := sl.done
    if m.blocks ≤ j then s
    else if sl.void then
      s.setEng k { e with slice := some { sl with done := j + 1, cycle := sl.cycle + blockCycles k m j } }
    else if panelReady e m.aLine m.aRing m.fa (sl.aBase + j) &&
        panelReady e m.bLine m.bRing m.fb (sl.bBase + j) then
      let x := enterBlock s m (e.tile m.tile) (bufPanel e m.aLine m.aRing m.fa (sl.aBase + j))
        (bufPanel e m.bLine m.bRing m.fb (sl.bBase + j)) (min 16 (m.k - 16 * j)) (m.kb + j)
      let e := e.setTile m.tile x
      let e := if m.relA then releasePanel e m.aLine m.aRing m.fa (sl.aBase + j) else e
      let e := if m.relB then releasePanel e m.bLine m.bRing m.fb (sl.bBase + j) else e
      let wait := s.cyc - sl.cycle
      (s.addObj oStallCycles wait).setEng k
        { e with slice := some { sl with done := j + 1, cycle := sl.cycle + wait + blockCycles k m j } }
    else s

/-- Every k-block that may enter now, entered. -/
def State.runBlocks : Nat → State → Nat → State
  | 0, s, _ => s
  | n + 1, s, k =>
    let t := s.stepBlock k
    if (t.eng k).slice = (s.eng k).slice then t else State.runBlocks n t k

/-- K-blocks left in the slice in progress. -/
def blocksLeft (e : EngineSt) : Nat :=
  match e.slice with
  | some sl => (matrixD sl.desc).blocks - sl.done
  | none => 0

/-- The slice in progress run on as far as it may. -/
def State.runSlice (s : State) (k : Nat) : State := State.runBlocks (blocksLeft (s.eng k)) s k

/-- FILL (R137, R266): the first FILL of the engine writes its next page, when that page is invalid; a void
engine's FILLs are skipped. The errors given have struck the memory before it reads. -/
def execFill (die : Die) (engine : Engine) (upsets : List Upset) (s : State) : Host.Outcome State Fault Refusal :=
  let s := s.quiet.strike upsets
  let k := engKey die engine
  let e := s.eng k
  match e.fills with
  | [] => .next s
  | q :: rest =>
    if s.runsVoid k q then .next (s.setEng k { e with fills := rest, fillPages := 0 })
    else
      let s := s.advanceTo q.notBefore
      let f := fillD q.bytes
      let code := fillBad q.bytes
      if e.fillPages = 0 ∧ code ≠ 0 then
        .next ((s.setEng k { e with fills := rest }).matrixInvalid k code 1)
      else if e.valid.contains (bufLine f.line f.ring (fillPage e f e.fillPages).1 / 64) then .next s
      else .next ((s.writePage k f).runSlice k)

/-- A tile at the beginning of an accumulation (R117, R128). -/
def newTile (m : MatrixD) (void : Bool) : TileSt :=
  { TileSt.init with phase := 1, void := void,
                     mode := if m.isInt8 then 0 else m.anchorMode }

/-- The slice of the first MATRIX descriptor begun (Table 06-8). -/
def State.beginSlice (s : State) (k : Nat) (q : Queued) (void : Bool) : State :=
  let e := s.eng k
  let m := matrixD q.bytes
  let eligible := max e.readyAt (2 * q.notBefore)
  let start := max s.cyc eligible
  let a0 := Bank.get e.panels 0 m.aLine
  let b0 := Bank.get e.panels 0 m.bLine
  let x := if m.cont then e.tile m.tile else newTile m void
  let e := e.setTile m.tile { x with products := x.products + m.k * m.passes, void := x.void || void }
  let e := { e with
    slices := e.slices.drop 1, lastTile := some m.tile,
    slice := some ⟨q.bytes, void, 0, a0, b0, q.beat, start + 24⟩ }
  let e := if void then e else
    { e with panels := (fun p => if m.relB then Bank.set p 0 m.bLine (b0 + m.blocks) else p)
               (if m.relA then Bank.set e.panels 0 m.aLine (a0 + m.blocks) else e.panels) }
  let s := (s.addObj oStallCycles (start - eligible)).setEng k e
  let s := if m.cont then s else s.setObj (oTileStatus k m.tile) (2 ^ 33)
  s.runSlice k

/-- SLICE_START (R146): the first MATRIX descriptor begins once the previous slice has ended, the tile of
a new accumulation is EMPTY and the pages of the first panels are valid. An invalid descriptor never
runs (R145). -/
def execSliceStart (die : Die) (engine : Engine) (s : State) : Host.Outcome State Fault Refusal :=
  let s := s.quiet
  let k := engKey die engine
  let e := s.eng k
  match e.slice, e.slices with
  | none, q :: rest =>
    let m := matrixD q.bytes
    let void := s.runsVoid k q
    let s := s.toCycle (max (2 * q.notBefore) e.readyAt)
    let code := if void then 0 else s.matrixBad k q.bytes
    if code ≠ 0 then .next ((s.setEng k { e with slices := rest }).matrixInvalid k code 0)
    else if m.cont = false ∧ 2 ≤ (e.tile m.tile).phase then .next s
    else if void ∨ (panelReady e m.aLine m.aRing m.fa (Bank.get e.panels 0 m.aLine) &&
        panelReady e m.bLine m.bRing m.fb (Bank.get e.panels 0 m.bLine)) = true then
      .next (s.beginSlice k q void)
    else .next s
  | _, _ => .next s

/-- SLICE_END (R146): the last term is in the tile; with a drain action the tile becomes DRAINING. The errors given
have struck the slice's terms. -/
def execSliceEnd (die : Die) (x : SliceEnd) (s : State) : Host.Outcome State Fault Refusal :=
  let s := s.quiet
  let k := engKey die x.engine
  let e := s.eng k
  match e.slice with
  | none => .next s
  | some sl =>
    let m := matrixD sl.desc
    if sl.done < m.blocks then .next s
    else
      let s := s.toCycle sl.cycle
      let y := { strikeTerms x.errors (e.tile m.tile) with whole := m.k % 16 == 0 }
      let y := if m.drain = 0 then y else { y with phase := 2, desc := sl.desc, beat := sl.beat }
      .next (s.setEng k { e.setTile m.tile y with slice := none, readyAt := sl.cycle })

/-! ### Drains -/

/-- DRAIN_START (R160): the drain begins once its destination can take it; a drain to VECTOR needs its
input plane FREE. -/
def execDrainStart (die : Die) (engine : Engine) (tile : Fin 2) (s : State) :
    Host.Outcome State Fault Refusal :=
  let s := s.quiet
  let k := engKey die engine
  let e := s.eng k
  let x := e.tile tile
  let m := matrixD x.desc
  if x.phase ≠ 2 then .next s
  else if m.drain = 1 then
    let p := e.plane tile
    if p.state ≠ 0 then .next s
    else .next (s.setEng k ((e.setTile tile { x with phase := 3, drainAt := s.cyc + 64 }).setPlane tile
      { p with state := 1 }))
  else .next (s.setEng k (e.setTile tile { x with phase := 3, drainAt := s.cyc + 64 }))

/-- A destination whose row of Table 04-5 is marked counted: E4M3, E2M1, INT8 and the MX formats. -/
def countedFormat (c : Nat) : Bool := c == 3 || (decide (5 ≤ c) && decide (c ≤ 9))

/-- The status word of a tile at the end of its drain (Table 05-5). -/
def tileStatus (x : TileSt) : Nat :=
  let ts := x.cells.map (fun e => e.2)
  x.bw + b2n (x.bw == 65535) * 2 ^ 16 + b2n (ts.any (fun t => t.overflowed)) * 2 ^ 17 +
  b2n x.aboveSeen * 2 ^ 18 + b2n (ts.any (fun t => t.infPos || t.infNeg)) * 2 ^ 19 +
  b2n (ts.any (fun t => t.nan)) * 2 ^ 20 + b2n x.fallback * 2 ^ 21 + x.mode * 2 ^ 22 +
  ofSigned 9 (x.anchor.getD 0) * 2 ^ 24 + b2n x.anchor.isNone * 2 ^ 33

/-- A row of `cols` element bits stored at an address; a half byte beside the row keeps its neighbour. -/
def State.storeRow (s : State) (ag : Agent) (c a : Nat) (xs : List Nat) : State :=
  let bs := packElems c xs
  let bs := if elemNibbles c = 1 ∧ xs.length % 2 = 1 then
      let old := (s.byteAt (s.physAddr (a + bs.length - 1))).toNat
      overwrite bs (bs.length - 1) [BitVec.ofNat 8 (xs.getLastD 0 % 16 + old / 16 * 16)]
    else bs
  s.storeBy ag a bs

/-- Chunks of 32. -/
def blocks32 {α : Type} (xs : List α) : List (List α) :=
  (upto (ceilDiv xs.length 32)).map (fun i => (xs.drop (32 * i)).take 32)

/-- A row of values converted to a format (R92 to R98): the element bits, and which of them overflowed
or met a counted special. An MX block's own overflow is charged to its first element. -/
def convRow (c : Nat) (mode : RMode) (xs : List (FVal × Nat)) : List Conv :=
  if isMx c then
    (blocks32 xs).foldl (fun a b =>
      let vals := b.map (fun x => x.1)
      let blk := mxStore c vals mode (b.map (fun x => x.2))
      let isOver := match mxScaleRaw c vals with | some x => decide (127 < x) | none => false
      a ++ (blk.elems.zip vals).zipIdx.map (fun e =>
        ⟨e.1.1, !e.1.2.isNum || (isOver && e.2 == 0)⟩)) []
  else xs.map (fun x => storeCode c x.1 mode x.2)

/-- The scale bytes of a row of values stored in an MX format (R96); none in another. -/
def rowScales (c : Nat) (mode : RMode) (xs : List (FVal × Nat)) : List Nat :=
  if isMx c then
    (blocks32 xs).map (fun b => (mxStore c (b.map (fun x => x.1)) mode (b.map (fun x => x.2))).scale)
  else []

/-- The scale bytes of consecutive blocks whose elements begin at address `a`, stored (R87, R96). The spec gives the
scale array of a result no address: where a block's byte lies is free (assumption 45). -/
def State.storeScales (s : State) (ag : Agent) (c a : Nat) (scales : List Nat) : State :=
  scales.zipIdx.foldl (fun s e =>
    s.storeBy ag (Config.mxScaleAddr c (a + elemBytes c 32 * e.2)) (natLe 1 e.1)) s

/-- The tally at (r, c). -/
def TileSt.cell (x : TileSt) (r c : Nat) : Tally := Bank.get x.cells Tally.zero (64 * r + c)

/-- Row `r` of a tile drained to a format: values scaled by 2^k with their draws (R198, R121). -/
def State.drainRow (s : State) (m : MatrixD) (x : TileSt) (c : Nat) (k : Int) (r : Nat) : List Conv :=
  let mode := (RMode.ofCode m.round).getD .rne
  convRow c mode ((upto m.cols).map (fun i =>
    ((x.cell r i).value (x.anchor.getD 0) k, s.drawSr mode m.tensor (m.base + r * m.stride + i))))

/-- The scale bytes of row `r` of a tile drained to an MX format (R96). -/
def State.drainScales (s : State) (m : MatrixD) (x : TileSt) (k : Int) (r : Nat) : List Nat :=
  let mode := (RMode.ofCode m.round).getD .rne
  rowScales m.fo mode ((upto m.cols).map (fun i =>
    ((x.cell r i).value (x.anchor.getD 0) k, s.drawSr mode m.tensor (m.base + r * m.stride + i))))

/-- The reports of a row's overflows (Table 08-9): source 1 for a conversion, source 2 for a special value that reaches a
counted destination (R483); the tile's overflowed tallies are reported once (R118). -/
def State.drainReports (s : State) (m : MatrixD) (x : TileSt) (cs : List Conv) (r : Nat)
    (counted : Bool) : State :=
  let ts := (upto m.cols).map (fun i => x.cell r i)
  let conv := (cs.zip ts).any (fun e => e.1.ovf && !e.2.overflowed && !e.2.flagsOnly)
  (s.overflowIf conv 0x01 m.tensor).overflowIf (counted && ts.any (fun t => t.flagsOnly)) 0x02 m.tensor

/-- A drain to VECTOR: the active elements as FP32 into the input plane, now FULL (R159). -/
def State.drainVector (s : State) (k tile : Nat) (m : MatrixD) (x : TileSt) : State :=
  let cells := if x.void then [] else
    (upto m.rows).foldl (fun (a : Bank Nat) r =>
      (s.drainRow m x 0 0 r).zipIdx.foldl (fun a e => Bank.set a 0 (64 * r + e.2) e.1.bits) a) []
  let s := if x.void then s else
    (upto m.rows).foldl (fun s r => s.drainReports m x (s.drainRow m x 0 0 r) r false) s
  s.setEng k ((s.eng k).setPlane tile ⟨2, cells⟩)

/-- A drain to MEMORY, row by row (R143, R198). -/
def State.drainMemory (s : State) (m : MatrixD) (x : TileSt) : State :=
  if x.void then s else
    (upto m.rows).foldl (fun s r =>
      let k := s.scaleOf m.tensor
      let cs := s.drainRow m x m.fo k r
      let a := m.dest + r * m.destStride
      ((s.drainReports m x cs r (countedFormat m.fo)).storeRow .engine m.fo a (cs.map (fun c => c.bits))).storeScales
        .engine m.fo a (s.drainScales m x k r)) s

/-- A GRANARY_TALLY drain: T exactly, with the tile's anchor moved by the loss scale (R198). The zeros of a void one
carry the same anchor, the descriptor's where no term has entered (assumption 89). -/
def State.drainTally (s : State) (m : MatrixD) (x : TileSt) : State :=
  let a := x.anchor.getD m.anchor + s.scaleOf m.tensor
  if x.void then s.contribute m.window 1 a (zeroRuns 1 m.first m.destStride m.rows m.cols)
  else
    let s := (upto m.rows).foldl (fun s r => s.drainReports m x [] r true) s
    let s := s.overflowIf (decide (a < -256) || decide (255 < a)) 0x05 m.tensor
    s.contribute m.window 1 a ((upto m.rows).map (fun r =>
      (m.first + r * m.destStride, (upto m.cols).map (fun c => tallyBytes (x.cell r c).sent))))

/-- A GRANARY_FP32 drain: FP32 contributions, scaled and rounded once (R198). -/
def State.drainFp32 (s : State) (m : MatrixD) (x : TileSt) : State :=
  if x.void then s.contribute m.window 0 0 (zeroRuns 0 m.first m.destStride m.rows m.cols)
  else
    let k := s.scaleOf m.tensor
    let runs := (upto m.rows).map (fun r =>
      (m.first + r * m.destStride, (s.drainRow m x 0 k r).map (fun c => natLe 4 c.bits)))
    let s := (upto m.rows).foldl (fun s r => s.drainReports m x (s.drainRow m x 0 k r) r false) s
    s.contribute m.window 0 0 runs

/-- What the residue lane compares at a tile's drain (R383), with the k-blocks that already failed (R382). -/
def tileChecks (x : TileSt) : Checks :=
  let rho := fun (r c : Nat) => let t := x.cell r c; residueOf t.t t.w
  { expect := (upto 128).map (fun i => Bank.get x.expect 0 i),
    found := (upto 128).map (fun i => sumRes ((upto 64).map (fun j => if i < 64 then rho i j else rho j (i - 64)))),
    blocks := x.blocks }

/-- DRAIN_END (R146, R119): the 64 rows are delivered, the tile is EMPTY, its status word final, and the
verdict of the accumulation is due (R148). The errors given have struck the tile's storage. A void accumulation shows
the status of an empty tile, terms entered before its void slice included (assumption 89). -/
def execDrainEnd (die : Die) (engine : Engine) (d : DrainEnd) (s : State) :
    Host.Outcome State Fault Refusal :=
  let s := s.quiet
  let tile := d.tile
  let k := engKey die engine
  let x := strikeTile d.errors ((s.eng k).tile tile)
  let m := matrixD x.desc
  if x.phase ≠ 3 then .next s
  else
    let s := s.toCycle x.drainAt
    let s := s.overflowIf (!x.void && x.cells.any (fun e => e.2.overflowed)) 0x02 m.tensor
    let s := match m.drain with
      | 1 => s.drainVector k tile m x
      | 2 => s.drainMemory m x
      | 3 => s.drainTally m x
      | 4 => s.drainFp32 m x
      | _ => s
    let s := s.setEng k ((s.eng k).setTile tile TileSt.init)
    let s := s.setObj (oTileStatus k tile) (if x.void then 2 ^ 33 else tileStatus x)
    if x.void then .next s
    else .next { s with verdicts := s.verdicts ++
      [⟨1, die, engine, s.stepNow, s.step.attempt, s.now, x.desc, m.window, tileChecks x⟩] }

end Sys2Proof.Machine
end

