-- ==== Sys2Proof/Machine/Vector.lean ====
section
/-! DEFINITION. Vector engines (chapter 7): element programs, reductions, summaries, VECTOR and VLOAD
descriptors, their validity, and void programs. -/

namespace Sys2Proof.Machine

/-! ### Descriptors and program images -/

/-- The fields of a VECTOR descriptor (Table 07-7). -/
structure VectorD where
  prog : Nat
  plane : Nat
  release : Bool
  reg : Nat
  action : Nat
  format : Nat
  round : Nat
  rows : Nat
  cols : Nat
  bReg : Nat
  bStore : Bool
  bIdx : Bool
  tensor : Nat
  stride : Nat
  base : Nat
  dest : Nat
  destStride : Nat
  idxBase : Nat
  bDest : Nat

/-- A VECTOR descriptor read. -/
def vectorD (d : Bytes) : VectorD :=
  let o := fieldLe d 10 2
  let b := fieldLe d 14 1
  { prog := bits (fieldLe d 8 1) 0 4, plane := bits (fieldLe d 9 1) 0 1,
    release := bit (fieldLe d 9 1) 1, reg := bits o 0 4, action := bits o 4 3, format := bits o 7 4,
    round := bits o 11 2, rows := fieldLe d 12 1, cols := fieldLe d 13 1, bReg := bits b 0 2,
    bStore := bit b 2, bIdx := bit b 3, tensor := fieldLe d 16 3, stride := fieldLe d 20 4,
    base := bits (fieldLe d 24 8) 0 44, dest := fieldLe d 32 8, destStride := fieldLe d 40 4,
    idxBase := fieldLe d 44 4, bDest := fieldLe d 48 8 }

/-- The window of a GRANARY_FP32 action and its first element. -/
def VectorD.window (v : VectorD) : Nat := bits v.dest 0 16
def VectorD.first (v : VectorD) : Nat := bits v.dest 16 32

/-- COUNT of a program image (Table 07-2). -/
def progCount (p : Bytes) : Nat := fieldLe p 0 4

/-- Instruction `i` of a program image. -/
def progCode (p : Bytes) (i : Nat) : Nat := fieldLe p (36 + 4 * i) 4

/-- The instructions that a program runs. -/
def progInstrs (p : Bytes) : List Nat := (upto (min 32 (progCount p))).map (progCode p)

/-- Fields of an instruction (Table 07-3). -/
def iOp (w : Nat) : Nat := bits w 26 6
def iRd (w : Nat) : Nat := bits w 22 4
def iA (w : Nat) : Nat := bits w 17 5
def iB (w : Nat) : Nat := bits w 12 5
def iC (w : Nat) : Nat := bits w 7 5
def iFlags (w : Nat) : Nat := bits w 0 7

/-- How many operands an opcode takes; none for a reserved one (Table 07-5). -/
def opArity (op : Nat) : Option Nat :=
  if op = 0 then some 0
  else if op = 0x04 ∨ op = 0x12 then some 3
  else if (1 ≤ op ∧ op ≤ 7) ∨ op = 0x13 ∨ op = 0x14 then some 2
  else if (8 ≤ op ∧ op ≤ 0x11) ∨ op = 0x15 ∨ op = 0x16 then some 1
  else if (0x20 ≤ op ∧ op ≤ 0x24) ∨ op = 0x28 then some 1
  else none

/-- The opcode's FLAGS hold a RAND selector (Table 07-5). -/
def opRand (op : Nat) : Bool :=
  (decide (1 ≤ op) && decide (op ≤ 7)) || op == 0x12 || op == 0x13 || op == 0x14 || op == 0x16

/-- The opcode writes no element register. -/
def opNoRd (op : Nat) : Bool := op == 0 || decide (0x20 ≤ op)

/-- The operand codes of an instruction that are in use. -/
def operandsOf (w : Nat) : List Nat :=
  match opArity (iOp w) with
  | some n => [iA w, iB w, iC w].take n
  | none => []

/-- A field that the opcode leaves unused is nonzero, RAND has no valid selector, or FLAGS hold bits the
opcode does not define (Table 07-10, OPERAND). -/
def operandBad (w : Nat) : Bool :=
  let op := iOp w
  let n := (opArity op).getD 0
  let f := iFlags w
  let rand := (operandsOf w).contains 0x15
  let purpose := bits f 0 5
  (opNoRd op && iRd w != 0) || (decide (n < 1) && iA w != 0) || (decide (n < 2) && iB w != 0) ||
  (decide (n < 3) && iC w != 0) ||
  (if opRand op then (if rand then purpose != 1 && decide (purpose < 0x10) else f != 0)
   else rand ||
    (if op = 0x15 then false
     else if 0x20 ≤ op ∧ op ≤ 0x24 then f / 8 != 0
     else if op = 0x28 then f / 64 != 0
     else f != 0))

/-- The first instruction of a program that meets a condition. -/
def firstInstr (p : Bytes) (f : Nat → Bool) : Option Nat :=
  (progInstrs p).findIdx? f

/-! ### Validity (Table 07-10) -/

/-- A reason code with the instruction concerned: the least code that applies, (0, 0) when valid. -/
def State.vectorBad (s : State) (k : Nat) (d : Bytes) : Nat × Nat :=
  let v := vectorD d
  let p := padTo 192 (Bank.get (s.eng k).progs [] v.prog)
  let n := progCount p
  let code := leastCode [
    (0x01, n == 0 || decide (32 < n) || (upto 32).any (fun i => decide (n ≤ i) && progCode p i != 0)),
    (0x02, (firstInstr p (fun w => (opArity (iOp w)).isNone)).isSome),
    (0x03, (firstInstr p operandBad).isSome),
    (0x04, v.round == 3 || decide (10 < v.format) ||
      (v.action == 1 && (v.format == 10 || (isMx v.format && v.cols != 32 && v.cols != 64))) ||
      (v.action == 2 && v.format != 0)),
    (0x05, decide (3 ≤ v.action) ||
      (v.action == 2 && !s.windowHolds v.window v.first v.destStride v.rows v.cols)),
    (0x06, v.rows == 0 || decide (64 < v.rows) || v.cols == 0 || decide (64 < v.cols) ||
      (v.action == 1 && v.destStride % 32 != 0) || (v.bStore && v.bDest % 64 != 0)),
    (0x08, !headClean d || fieldLe d 8 1 / 16 != 0 || fieldLe d 9 1 / 4 != 0 ||
      fieldLe d 10 2 / 2 ^ 13 != 0 || fieldLe d 14 1 / 16 != 0 || fieldLe d 15 1 != 0 ||
      fieldLe d 19 1 != 0 || fieldLe d 24 8 / 2 ^ 44 != 0 || fieldLe d 56 8 != 0 ||
      fieldLe p 164 28 != 0 || (v.action == 2 && v.dest / 2 ^ 48 != 0) ||
      (v.action == 0 && (v.dest != 0 || v.destStride != 0)))]
  (code, if code = 2 then (firstInstr p (fun w => (opArity (iOp w)).isNone)).getD 0
         else if code = 3 then (firstInstr p operandBad).getD 0 else 0)

/-- The fields of a VLOAD descriptor (Table 07-8). -/
structure VloadD where
  src : Nat
  stride : Nat
  target : Nat
  format : Nat
  colvec : Bool
  rows : Nat
  cols : Nat
  scaleSrc : Nat
  scaleStride : Nat

/-- A VLOAD descriptor read. -/
def vloadD (d : Bytes) : VloadD :=
  { src := fieldLe d 8 8, stride := fieldLe d 16 4, target := fieldLe d 20 1,
    format := bits (fieldLe d 21 1) 0 4, colvec := bit (fieldLe d 21 1) 4, rows := fieldLe d 22 1,
    cols := fieldLe d 23 1, scaleSrc := fieldLe d 24 8, scaleStride := fieldLe d 32 4 }

/-- The target is an input plane, a broadcast register or a program slot. -/
def VloadD.isPlane (v : VloadD) : Bool := decide (v.target ≤ 1)
def VloadD.isBcast (v : VloadD) : Bool := decide (0x10 ≤ v.target) && decide (v.target ≤ 0x13)
def VloadD.isProg (v : VloadD) : Bool := decide (0x20 ≤ v.target) && decide (v.target ≤ 0x2F)

/-- The reason code of a VLOAD descriptor, 0 when valid. -/
def vloadBad (d : Bytes) : Nat :=
  let v := vloadD d
  let within := fun (n : Nat) => decide (1 ≤ n) && decide (n ≤ 64)
  leastCode [
    (0x04, decide (9 < v.format)),
    (0x06, v.src % 64 != 0 || (v.isPlane && (!within v.rows || !within v.cols || v.stride % 64 != 0)) ||
      (v.isBcast && (!within v.rows || v.cols != 0 || v.stride != 0)) ||
      (v.isProg && (v.rows != 0 || v.cols != 0 || v.stride != 0))),
    (0x07, !v.isPlane && !v.isBcast && !v.isProg),
    (0x08, !headClean d || fieldLe d 21 1 / 32 != 0 || fieldLe d 36 28 != 0 ||
      (!isMx v.format && (v.scaleSrc != 0 || v.scaleStride != 0)))]

/-- VECTOR_CMD_INVALID (R177). -/
def State.vectorInvalid (s : State) (k code instr vload : Nat) : State :=
  let s := s.bump oVecCmdInvalidCount
  let s := s.setObj oLastVecCmdInvalid
    (code + (k % 96) * 2 ^ 8 + (k / 96) * 2 ^ 16 + vload * 2 ^ 17 + (instr % 32) * 2 ^ 18 +
      s.obj oStepBeatNow * 2 ^ 32)
  let s := (s.poison true).raise .vectorCmdInvalid
  s.setEng k { s.eng k with voidVec := true }

/-! ### Waits between the FIFOs (R174) -/

/-- The program of a VECTOR descriptor reads a VLOAD target. -/
def vectorReads (e : EngineSt) (d : Bytes) (target : Nat) : Bool :=
  let v := vectorD d
  let used := (progInstrs (padTo 192 (Bank.get e.progs [] v.prog))).foldl
    (fun a w => a ++ operandsOf w) []
  if target ≤ 1 then v.plane == target
  else if target < 0x20 then used.contains (target + 1) || (v.bStore && v.bReg + 0x10 == target)
  else v.prog + 0x20 == target

/-- A VLOAD waits for a VECTOR issued before it that reads its broadcast register or program slot. -/
def vloadWaits (e : EngineSt) (q : Queued) : Bool :=
  let v := vloadD q.bytes
  !v.isPlane &&
  ((e.vectors.any (fun x => decide (x.seq < q.seq) && vectorReads e x.bytes v.target)) ||
   (match e.run with | some r => vectorReads e r.desc v.target | none => false))

/-- A VECTOR waits for a VLOAD issued before it whose target it reads. -/
def vectorWaits (e : EngineSt) (q : Queued) : Bool :=
  e.vloads.any (fun x => decide (x.seq < q.seq) && vectorReads e q.bytes (vloadD x.bytes).target)

/-! ### VLOAD -/

/-- A row of `n` values loaded and widened to FP32 (R90). -/
def State.loadRow (s : State) (v : VloadD) (r n : Nat) : State × List Nat :=
  let l := s.loadData .engine (v.src + r * v.stride) (elemBytes v.format n)
  let sc := if isMx v.format then
      l.1.loadData .engine (v.scaleSrc + r * v.scaleStride) (ceilDiv n 32)
    else (l.1, [])
  (sc.1, (upto n).map (fun i =>
    let x := elemAt v.format l.2 i
    let y := if isMx v.format then mxVal v.format x (fieldLe sc.2 (i / 32) 1) else elemVal v.format x
    toFp32 y .rne 0))

/-- The data of a VLOAD put in its target (R173). -/
def State.runVload (s : State) (k : Nat) (v : VloadD) : State :=
  if v.isPlane then
    let r := (upto v.rows).foldl (fun (a : State × Bank Nat) r =>
      let l := a.1.loadRow v r v.cols
      (l.1, l.2.zipIdx.foldl (fun b e => Bank.set b 0 (64 * r + e.2) e.1) a.2)) (s, [])
    r.1.setEng k ((r.1.eng k).setPlane v.target ⟨2, r.2⟩)
  else if v.isBcast then
    let l := s.loadRow v 0 v.rows
    let e := l.1.eng k
    let vals := l.2.zipIdx.foldl (fun (b : Bank Nat) x => Bank.set b 0 x.2 x.1) []
    l.1.setEng k { e with bcasts := Bank.set e.bcasts BcastSt.init (v.target - 0x10) ⟨vals, [], v.colvec⟩ }
  else
    let l := s.loadData .engine v.src 192
    let e := l.1.eng k
    l.1.setEng k { e with progs := Bank.set e.progs [] (v.target - 0x20) l.2 }

/-- VLOAD (R173, R174): the first VLOAD loads its target once its waits end; an input plane must be
FREE. -/
def execVload (die : Die) (engine : Engine) (s : State) : Host.Outcome State Fault Refusal :=
  let s := s.quiet
  let k := engKey die engine
  let e := s.eng k
  match e.vloads with
  | [] => .next s
  | q :: rest =>
    let v := vloadD q.bytes
    let code := vloadBad q.bytes
    if s.runsVoidVec k q then .next (s.setEng k { e with vloads := rest })
    else
      let s := s.advanceTo q.notBefore
      if code ≠ 0 then .next ((s.setEng k { e with vloads := rest }).vectorInvalid k code 0 1)
      else if vloadWaits e q || (v.isPlane && (e.plane v.target).state != 0) then .next s
      else
        let s := s.addObj oVecStallCycles (s.cyc - max e.vloadReady (2 * q.notBefore))
        .next ((s.setEng k { e with vloads := rest, vloadReady := s.cyc }).runVload k v)

/-! ### Lane arithmetic (Table 07-5) -/

/-- 2^a, exact for an integer a (R164). -/
def laneExp2 (a : Nat) : Nat :=
  match fmtFp32.decode a with
  | .num neg m e =>
    if e < 0 ∧ m % 2 ^ (-e).toNat ≠ 0 then fixedFn 0x0E Config.fnExp2 a
    else
      let n : Int := Int.ofNat (shiftNat m e)
      let n := if neg then -n else n
      if n < -149 then 0 else if 128 ≤ n then fmtFp32.infBits false else fmtFp32.rne ⟨1, n⟩ false
  | _ => fixedFn 0x0E Config.fnExp2 a

/-- 1.0. -/
def fpOne : Nat := 0x3F800000

/-- The result of an element opcode (Table 07-5). -/
def laneOp (op flags a b c : Nat) : Nat :=
  let f := fmtFp32
  match op with
  | 0x01 => f.add a b
  | 0x02 => f.sub a b
  | 0x03 => f.mul a b
  | 0x04 => f.fma a b c
  | 0x05 => f.div a b
  | 0x06 => f.max a b
  | 0x07 => f.min a b
  | 0x08 => f.abs a
  | 0x09 => f.negate a
  | 0x0A => f.sqrt a
  | 0x0B => f.div fpOne a
  | 0x0C => fixedFn 0x0C Config.fnRsqrt a
  | 0x0D => fixedFn 0x0D Config.fnExp a
  | 0x0E => laneExp2 a
  | 0x0F => fixedFn 0x0F Config.fnLog2 a
  | 0x10 => fixedFn 0x10 Config.fnTanh a
  | 0x11 => fixedFn 0x11 Config.fnErf a
  | 0x12 => f.canon (if f.lt 0 a then b else c)
  | 0x13 => if f.lt a b then fpOne else 0
  | 0x14 => if f.eq a b then fpOne else 0
  | 0x15 => f.scl a (toSigned 7 flags)
  | _ => f.canon a

/-- What a running program reads and writes: the registers, the broadcast registers and the summaries
formed so far. -/
structure Lanes where
  regs : Bank Nat
  bcasts : Bank BcastSt
  sums : List (Nat × SumSlot)

/-- The value of an operand select at (r, c) (Table 07-4). -/
def selectVal (s : State) (v : VectorD) (p : Bytes) (inp : Bank Nat) (l : Lanes) (flags code r c : Nat) :
    Nat :=
  if code < 0x10 then Bank.get l.regs 0 (4096 * code + 64 * r + c)
  else if code = 0x10 then Bank.get inp 0 (64 * r + c)
  else if code < 0x15 then
    let b := Bank.get l.bcasts BcastSt.init (code - 0x11)
    Bank.get b.vals 0 (if b.colvec then r else c)
  else if code = 0x15 then
    let d := s.draw24 (bits flags 0 5) v.tensor (v.base + r * v.stride + c) (24 * bits flags 5 2)
    fmtFp32.rne ⟨Int.ofNat d, -24⟩ false
  else if code = 0x16 then fmtFp32.ofInt r
  else if code = 0x17 then fmtFp32.ofInt c
  else fieldLe p (4 + 4 * (code - 0x18)) 4

/-! ### Reductions and summaries -/

/-- The exact sum in units of 2^-149 with what makes it special (R167). -/
def sumExact (xs : List Nat) : SumSlot :=
  xs.foldl (fun a x =>
    match fmtFp32.decode x with
    | .nan => { a with nan := true, nans := a.nans + 1 }
    | .inf n => { a with infNeg := a.infNeg || n, infPos := a.infPos || !n, infs := a.infs + 1 }
    | y => { a with sum := a.sum + y.toEx.at (-149) }) SumSlot.zero

/-- The sum of a slot rounded by RNE (R167). -/
def SumSlot.rounded (a : SumSlot) : Nat :=
  if a.nan || (a.infPos && a.infNeg) then fmtFp32.canonNan
  else if a.infPos || a.infNeg then fmtFp32.infBits a.infNeg
  else fmtFp32.rne ⟨a.sum, -149⟩ false

/-- Whether FP32 value `x` beats `y` under the order of R168; `least` asks for the smaller. -/
def beats (least : Bool) (x y : Nat) : Bool :=
  let a := fmtFp32.decode x
  let b := fmtFp32.decode y
  if least then a.below b else b.below a

/-- The winner among positioned values, NaNs excluded, the earlier of equals: position and value. -/
def winnerOf (least : Bool) (xs : List (Nat × Nat)) : Option (Nat × Nat) :=
  xs.foldl (fun a x =>
    if (fmtFp32.decode x.2).isNan then a else
      match a with
      | none => some x
      | some w => if beats least x.2 w.2 then some x else some w) none

/-- One reduced entry: value and index (R167, R168). -/
def reduceEntry (op idxBase : Nat) (xs : List Nat) : Nat × Nat :=
  if op = 0x20 then ((sumExact xs).rounded, 0)
  else
    let indexed := op == 0x23 || op == 0x24
    match winnerOf (op == 0x22 || op == 0x24) (xs.zipIdx.map (fun e => (e.2, e.1))) with
    | some w => (fmtFp32.canon w.2, if indexed then (idxBase + w.1) % 2 ^ 32 else 0)
    | none => (fmtFp32.canonNan, if indexed then 0xFFFFFFFF else 0)

/-- A reduction over the active set into a broadcast register: AXIS 0 along each row gives a COLVEC
(Table 07-5). -/
def reduceInto (op axis rows cols idxBase : Nat) (at_ : Nat → Nat → Nat) : BcastSt :=
  let es := if axis = 0 then
      (upto rows).map (fun r => reduceEntry op idxBase ((upto cols).map (fun c => at_ r c)))
    else (upto cols).map (fun c => reduceEntry op idxBase ((upto rows).map (fun r => at_ r c)))
  { vals := es.zipIdx.foldl (fun (b : Bank Nat) e => Bank.set b 0 e.2 e.1.1) [],
    idxs := es.zipIdx.foldl (fun (b : Bank Nat) e => Bank.set b 0 e.2 e.1.2) [], colvec := axis == 0 }

/-- The better of two winners: the larger value, the lower index on equal values (R170). -/
def betterWinner (a b : Option (Nat × Nat)) : Option (Nat × Nat) :=
  match a, b with
  | some x, some y =>
    if beats false x.2 y.2 then some x else if beats false y.2 x.2 then some y
    else if x.1 ≤ y.1 then some x else some y
  | some x, none => some x
  | none, y => y

/-- The summary of the active values, each with its element index (R169); one merge. -/
def summaryOf (xs : List (Nat × Nat)) : SumSlot :=
  let a := sumExact (xs.map (fun x => x.2))
  let mags := (xs.filter (fun x => !(fmtFp32.decode x.2).isNan)).map (fun x => x.2 % 2 ^ 31)
  { a with maxabs := mags.foldl max 0, contrib := 1,
           winner := xs.foldl (fun w x =>
             if (fmtFp32.decode x.2).isNan then w else betterWinner w (some x)) none }

/-- A merge into a summary slot (R170). -/
def SumSlot.merge (a b : SumSlot) : SumSlot :=
  { sum := a.sum + b.sum, infPos := a.infPos || b.infPos, infNeg := a.infNeg || b.infNeg,
    nan := a.nan || b.nan, maxabs := max a.maxabs b.maxabs, nans := satNat 32 (a.nans + b.nans),
    infs := satNat 32 (a.infs + b.infs), winner := betterWinner a.winner b.winner,
    contrib := satNat 32 (a.contrib + b.contrib) }

/-! ### Programs -/

/-- One instruction over the whole plane (R158, R166). -/
def runInstr (s : State) (v : VectorD) (p : Bytes) (inp : Bank Nat) (l : Lanes) (w : Nat) : Lanes :=
  let op := iOp w
  let f := iFlags w
  let val := fun (code r c : Nat) => selectVal s v p inp l f code r c
  if op = 0 then l
  else if 0x20 ≤ op ∧ op ≤ 0x24 then
    let b := reduceInto op (bits f 0 1) v.rows v.cols v.idxBase (fun r c => val (iA w) r c)
    { l with bcasts := Bank.set l.bcasts BcastSt.init (bits f 1 2) b }
  else if op = 0x28 then
    let xs := (upto v.rows).foldl (fun a r => a ++ (upto v.cols).map (fun c =>
      (v.base + r * v.stride + c, val (iA w) r c))) []
    { l with sums := l.sums ++ [(bits f 0 6, summaryOf xs)] }
  else
    let regs := tileCells.foldl (fun (b : Bank Nat) rc =>
      Bank.set b 0 (4096 * iRd w + 64 * rc.1 + rc.2)
        (laneOp op f (val (iA w) rc.1 rc.2) (val (iB w) rc.1 rc.2) (val (iC w) rc.1 rc.2))) l.regs
    { l with regs := regs }

/-- BOUND_EXCEEDED raised away from an issue: class B, the step POISONED without replay (R71). -/
def State.boundExceeded (s : State) : State := (s.poison true).raiseWith .boundExceeded 2 none 0

/-- The program of the first VECTOR descriptor begun; void when `void`, or when its COUNT exceeds its
item's A (Table 07-12). -/
def State.beginProgram (s : State) (k : Nat) (q : Queued) (void : Bool) : State :=
  let e := s.eng k
  let v := vectorD q.bytes
  let n := min 32 (progCount (Bank.get e.progs [] v.prog))
  let eligible := max e.vecReady (2 * q.notBefore)
  let start := max s.cyc eligible
  let isOver := !void && decide (q.bound < n)
  let e := if void then e else e.setPlane v.plane { e.plane v.plane with state := 3 }
  let s := (s.addObj oVecStallCycles (start - eligible)).setEng k
    { e with vectors := e.vectors.drop 1,
             run := some ⟨q.bytes, void || isOver, q.beat, start + 64 * n + 8⟩ }
  if isOver then s.boundExceeded else s

/-- PROGRAM_START (R175): the first VECTOR descriptor begins once the previous program has ended, its
input plane is FULL and its waits are over. -/
def execProgramStart (die : Die) (engine : Engine) (s : State) : Host.Outcome State Fault Refusal :=
  let s := s.quiet
  let k := engKey die engine
  let e := s.eng k
  match e.run, e.vectors with
  | none, q :: rest =>
    let v := vectorD q.bytes
    let s := s.toCycle (max (2 * q.notBefore) e.vecReady)
    if s.runsVoidVec k q then .next (s.beginProgram k q true)
    else if (e.plane v.plane).state ≠ 2 ∨ vectorWaits e q = true then .next s
    else
      let bad := s.vectorBad k q.bytes
      if bad.1 ≠ 0 then .next ((s.setEng k { e with vectors := rest }).vectorInvalid k bad.1 bad.2 0)
      else .next (s.beginProgram k q false)
  | _, _ => .next s

/-- Row `r` of the stored register converted (R172, R198). -/
def State.outRow (s : State) (v : VectorD) (regs : Bank Nat) (r : Nat) : List Conv :=
  let mode := (RMode.ofCode v.round).getD .rne
  let k := s.scaleOf v.tensor
  convRow v.format mode ((upto v.cols).map (fun c =>
    (scaleFp32 (Bank.get regs 0 (4096 * v.reg + 64 * r + c)) k,
     s.drawSr mode v.tensor (v.base + r * v.stride + c))))

/-- The scale bytes of row `r` of the stored register in an MX format (R96). -/
def State.outScales (s : State) (v : VectorD) (regs : Bank Nat) (r : Nat) : List Nat :=
  let mode := (RMode.ofCode v.round).getD .rne
  let k := s.scaleOf v.tensor
  rowScales v.format mode ((upto v.cols).map (fun c =>
    (scaleFp32 (Bank.get regs 0 (4096 * v.reg + 64 * r + c)) k,
     s.drawSr mode v.tensor (v.base + r * v.stride + c))))

/-- The store unit's work at a program's end: the OUT register and the broadcast register (R172). -/
def State.storeOut (s : State) (k : Nat) (v : VectorD) : State :=
  let e := s.eng k
  let s := if v.action = 0 then s else
    (upto v.rows).foldl (fun (s : State) r =>
      let cs := s.outRow v e.regs r
      let s := s.overflowIf (cs.any (fun c => c.ovf)) 0x01 v.tensor
      if v.action = 1 then
        let a := v.dest + r * v.destStride
        (s.storeRow .engine v.format a (cs.map (fun c => c.bits))).storeScales .engine v.format a (s.outScales v e.regs r)
      else s.contribute v.window 0 0
        [(v.first + r * v.destStride, cs.map (fun c => natLe 4 c.bits))]) s
  if v.bStore then
    let b := Bank.get e.bcasts BcastSt.init v.bReg
    let words := fun (m : Bank Nat) => (upto 64).foldl (fun a i => a ++ natLe 4 (Bank.get m 0 i)) []
    s.storeBy .engine v.bDest (words b.vals ++ (if v.bIdx then words b.idxs else []))
  else s

/-- Summaries on their way to the cluster's control core (R169): within 32 cycles. -/
def State.sendSums (s : State) (k : Nat) (xs : List (Nat × SumSlot)) : State :=
  { s with merges := s.merges ++
      xs.map (fun x => ⟨k / 96, (k % 96) / 12, x.1, x.2⟩) }

/-- PROGRAM_END (R175, R178): the program's results stand, the input plane is released, the store unit
stores and the summaries leave; a void program delivers zeros and empty summaries. -/
def execProgramEnd (die : Die) (engine : Engine) (s : State) : Host.Outcome State Fault Refusal :=
  let s := s.quiet
  let k := engKey die engine
  let e := s.eng k
  match e.run with
  | none => .next s
  | some r =>
    let s := s.toCycle r.cycle
    let v := vectorD r.desc
    let p := padTo 192 (Bank.get e.progs [] v.prog)
    let pl := e.plane v.plane
    let freed := if pl.state = 2 ∨ pl.state = 3 then
        (if v.release then { pl with state := 0 } else { pl with state := 2 }) else pl
    if r.void then
      let s := s.setEng k { e.setPlane v.plane freed with run := none, vecReady := r.cycle }
      let s := if v.action = 2 then
          s.contribute v.window 0 0 (zeroRuns 0 v.first v.destStride v.rows v.cols) else s
      .next (s.sendSums k (((progInstrs p).filter (fun w => iOp w == 0x28)).map
        (fun w => (bits (iFlags w) 0 6, { SumSlot.zero with contrib := 1 }))))
    else
      let l := (progInstrs p).foldl (runInstr s v p pl.cells) ⟨e.regs, e.bcasts, []⟩
      let s := s.setEng k { e.setPlane v.plane freed with
        run := none, vecReady := r.cycle, regs := l.regs, bcasts := l.bcasts }
      let s := (s.storeOut k v).sendSums k l.sums
      .next { s with verdicts := s.verdicts ++
        [⟨2, die, engine, s.stepNow, s.step.attempt, s.now, r.desc, v.window, Checks.none⟩] }

end Sys2Proof.Machine
end

