-- ==== Sys2Proof/Machine/Cores.lean ====
section
/-! DEFINITION. Control cores (chapter 7): the device-access instructions, the check of descriptors
against the items of the beat's program, lockstep and traps, summary slots, reloading. -/

namespace Sys2Proof.Machine

/-! ### Cores and their registers -/

/-- The number of a core: die × 8 + cluster. -/
def coreKey (die cluster : Nat) : Nat := die * 8 + cluster

/-- A control core. -/
def State.core (s : State) (k : Nat) : CoreSt := Bank.get s.cores CoreSt.init k

/-- A control core replaced. -/
def State.setCore (s : State) (k : Nat) (c : CoreSt) : State :=
  { s with cores := Bank.set s.cores CoreSt.init k c }

/-- CORE_STATE of a core (Table 07-13). -/
def State.coreState (s : State) (k : Nat) : Nat := s.obj (oCoreState k)

/-- A core that executes instructions: RUNNING, VOID or FENCED, and not stalled. -/
def State.coreRuns (s : State) (k : Nat) : Bool :=
  (s.coreState k == 1 || s.coreState k == 3 || s.coreState k == 4) && (s.core k).wait.isNone

/-- Register x`r` of a core; x0 reads as zero. -/
def CoreSt.x (c : CoreSt) (r : Nat) : Nat := if r = 0 then 0 else Bank.get c.xregs 0 r

/-- Register x`r` written; x0 discards. -/
def CoreSt.setX (c : CoreSt) (r v : Nat) : CoreSt :=
  if r = 0 then c else { c with xregs := Bank.set c.xregs 0 r (v % 2 ^ 64) }

/-- The next instruction of a core. -/
def CoreSt.stepPc (c : CoreSt) : CoreSt := { c with pc := c.pc + 4 }

/-- Register x`r` written and the next instruction reached. -/
def State.coreRet (s : State) (k rd v : Nat) : State := s.setCore k ((s.core k).setX rd v).stepPc

/-- A core stalls (Table 07-13): WAITING, or still VOID or FENCED. -/
def State.coreStall (s : State) (k : Nat) (w : CoreWait) : State :=
  let s := s.setCore k { s.core k with wait := some w, passed := false }
  if s.coreState k = 1 then s.setObj (oCoreState k) 2 else s

/-- The core becomes VOID, unless it is FENCED (R184). -/
def State.coreVoid (s : State) (k : Nat) : State :=
  if s.coreState k = 4 then s else s.setObj (oCoreState k) 3

/-- CORE_LOCKSTEP (R184): class A and VOID the first time in a plan; the second fences the core. -/
def State.coreLockstep (s : State) (k : Nat) : State :=
  let s := (s.bump oLockstepCount).setObj oLastLockstep (k + s.stepNow * 2 ^ 32)
  let c := s.core k
  let s := (s.setCore k { c with locksteps := c.locksteps + 1 }).coreReport k
  if c.locksteps = 0 then ((s.coreVoid k).poison false).raiseAt .coreLockstep 0 1
  else (((s.setObj (oCoreState k) 4).poison true).raiseAt .coreLockstep 0 2).raise .degraded

/-- A trap (R185): CORE_TRAP, VOID, the step POISONED without replay; the core goes on at its trap
vector (assumption 31). -/
def State.coreTrap (s : State) (k cause : Nat) : State :=
  let c := s.core k
  let s := (s.bump oCoreTrapCount).setObj oLastTrap
    (cause % 256 + k * 2 ^ 8 + (c.pc % 2 ^ 16) * 2 ^ 12 + s.obj oStepBeatNow * 2 ^ 32)
  let csrs := Bank.set (Bank.set c.csrs 0 0x341 c.pc) 0 0x342 (cause % 256)
  let s := s.setCore k { c with csrs := csrs, pc := Bank.get csrs 0 0x305 / 4 * 4 }
  (((s.coreVoid k).poison true).coreReport k).raise .coreTrap

/-- What every device-access instruction does first (R182, R184): a core that does not run changes
nothing; a fetch outside instruction memory traps (R180), and another funct7; a disagreement voids the core before the request is released. -/
def State.coreAccess (s : State) (r : CoreReq) (f : State → State) : State :=
  let s := s.quiet
  let k := coreKey r.die r.cluster
  if s.coreRuns k = false then s
  else if 0x10000 ≤ (s.core k).pc then s.coreTrap k 1
  else if r.funct7 ≠ 0 then s.coreTrap k 2
  else f (if r.agree then s else s.coreLockstep k)

/-- `n` bytes from `a` lie in data memory (R180). -/
def inDmem (a n : Nat) : Bool := decide (0x10000 ≤ a) && decide (a + n ≤ 0x20000)

/-! ### Items covering descriptors (Table 07-12) -/

/-- Bytes of an array of `n` elements with its scales. -/
def rowSource (c n : Nat) : Nat := elemBytes c n + (if isMx c then ceilDiv n 32 else 0)

/-- Source bytes of a FILL or VLOAD, scale bytes included (R141, R183). -/
def sourceBytes (kind : Nat) (d : Bytes) : Nat :=
  if kind = 0x11 then (fillD d).rows * rowSource (fillD d).fs (fillD d).k
  else
    let v := vloadD d
    if v.isPlane then v.rows * rowSource v.format v.cols
    else if v.isBcast then rowSource v.format v.rows else 192

/-- What a descriptor takes from its item: slices, bytes or tiles. -/
def issueCost (kind : Nat) (d : Bytes) : Nat :=
  if kind = 0x11 ∨ kind = 0x12 then sourceBytes kind d else 1

/-- The item is of the kind and unit that covers the descriptor. -/
def itemFor (it : Item) (kind die engine : Nat) : Bool :=
  match kind with
  | 0x01 => it.kind == 0x01 && it.die == die && it.unit == engine
  | 0x02 => it.kind == 0x02 && it.die == die && it.unit == engine
  | _ => it.kind == 0x07 && it.die == die && it.unit == engine / 12 && bit it.flags 2

/-- The item, with `used` of it spent, covers the descriptor. -/
def itemCovers (it : Item) (used kind : Nat) (d : Bytes) : Bool :=
  match kind with
  | 0x01 =>
    let m := matrixD d
    decide (used < it.c) && decide (m.k ≤ it.a) && it.b % 256 == costClass m.fa m.fb &&
    bits it.b 8 8 == m.passes
  | 0x02 => decide (used < it.b)
  | _ => decide (used + sourceBytes kind d ≤ it.a)

/-- The items of the current beat program with their indices. -/
def State.beatItems (s : State) : List (Item × Nat) :=
  match s.program? with
  | some p => p.items.zipIdx
  | none => []

/-- The first item with budget left that covers the descriptor (R183). -/
def State.coverItem (s : State) (kind die engine : Nat) (d : Bytes) : Option (Item × Nat) :=
  s.beatItems.find? (fun e => itemFor e.1 kind die engine && itemCovers e.1 (Bank.get s.spent 0 e.2) kind d)

/-- Room in the engine's FIFO for a descriptor kind (R139, R174). -/
def fifoRoom (e : EngineSt) (kind : Nat) : Bool :=
  match kind with
  | 0x01 => decide (e.slices.length < 4)
  | 0x11 => decide (e.fills.length < 4)
  | 0x02 => decide (e.vectors.length < 8)
  | _ => decide (e.vloads.length < 4)

/-- A descriptor entered in its FIFO. -/
def enqueue (e : EngineSt) (kind : Nat) (q : Queued) : EngineSt :=
  let e := { e with seq := e.seq + 1 }
  match kind with
  | 0x01 => { e with slices := e.slices ++ [q] }
  | 0x11 => { e with fills := e.fills ++ [q] }
  | 0x02 => { e with vectors := e.vectors ++ [q] }
  | _ => { e with vloads := e.vloads ++ [q] }

/-- A refused descriptor (R71, R183): BOUND_EXCEEDED, the step POISONED without replay. -/
def State.refuseIssue (s : State) (core kind slot engine : Nat) : State :=
  let i := match s.beatItems.find? (fun e => itemFor e.1 kind (core / 8) engine) with
    | some e => e.2
    | none => 0xFFFF
  let s := (s.bump oIssueRefusedCount).setObj oLastIssueRefused
    (kind + slot * 2 ^ 8 + core * 2 ^ 12 + i * 2 ^ 16 + s.obj oStepBeatNow * 2 ^ 32)
  (s.poison true).raise .boundExceeded

/-- The moment from which a descriptor accepted now may start: 2,000 ns in a guard (R183). -/
def State.startFrom (s : State) : Nat := s.now + (2000 - s.bell.off)

/-- A descriptor checked and queued (R183). -/
def State.issue (s : State) (core rd slot : Nat) (d : Bytes) (agree : Bool) : State :=
  let kind := fieldLe d 0 1
  let engine := (core % 8) * 12 + slot
  let k := engKey (core / 8) engine
  match s.coverItem kind (core / 8) engine d with
  | none => (s.refuseIssue core kind slot engine).coreRet core rd 1
  | some it =>
    let e := s.eng k
    let q : Queued :=
      { bytes := d, void := !agree || s.coreState core == 3 || s.coreState core == 4, seq := e.seq,
        notBefore := s.startFrom, beat := s.bell.beat, bound := it.1.a }
    let spent := Bank.set s.spent 0 it.2 (Bank.get s.spent 0 it.2 + issueCost kind d)
    ({ s with spent := spent }.setEng k (enqueue e kind q)).coreRet core rd 0

/-- The slot is borrowed now: a MATRIX shard that this module serves names it, and the step beat lies
from its window's OPEN_BEAT to its DUE_BEAT (R244). -/
def State.borrowed (s : State) (core slot : Nat) : Bool :=
  match s.activePlan with
  | none => false
  | some p => p.shards.any (fun x =>
      bit x.borrow slot && bits x.borrow 12 3 == core % 8 &&
      p.groups.any (fun g => g.num == x.group && g.shape == 3) &&
      p.windows.any (fun w => w.num == x.window && w.owner == s.place && w.die % 2 == core / 8 &&
        decide (w.openBeat ≤ s.obj oStepBeatNow) && decide (s.obj oStepBeatNow ≤ w.dueBeat)))

/-- CC_ISSUE (R182, R183, R244). -/
def execCcIssue (r : CoreReq) (s : State) : Host.Outcome State Fault Refusal :=
  .next (s.coreAccess r (fun s =>
    let k := coreKey r.die r.cluster
    let c := s.core k
    let a := c.x r.rs1
    let slot := c.x r.rs2
    let d := memRead c.dmem a 64
    let kind := fieldLe d 0 1
    if 11 < slot then s.coreTrap k 2
    else if a % 64 ≠ 0 then s.coreTrap k 4
    else if inDmem a 64 = false then s.coreTrap k 5
    else if kind ≠ 0x01 ∧ kind ≠ 0x02 ∧ kind ≠ 0x11 ∧ kind ≠ 0x12 then s.coreTrap k 2
    else if (kind = 0x01 ∨ kind = 0x11) ∧ s.borrowed k slot = true then
      ((s.bump oBorrowRefusedCount).refuseIssue k kind slot (r.cluster * 12 + slot)).coreRet k r.rd 1
    else if fifoRoom (s.eng (engKey r.die (r.cluster * 12 + slot))) kind = false then
      s.coreStall k (.fifo slot kind)
    else s.issue k r.rd slot d r.agree))

/-- CC_QTAKE (R182, R364): the next descriptor of a queue assigned to the core goes to data memory. -/
def execCcQtake (r : CoreReq) (s : State) : Host.Outcome State Fault Refusal :=
  .next (s.coreAccess r (fun s =>
    let k := coreKey r.die r.cluster
    let c := s.core k
    let n := c.x r.rs1
    let a := c.x r.rs2
    match s.queue? n with
    | none => s.coreTrap k 2
    | some q =>
      if (q.kind ≠ 0 ∧ q.kind ≠ 3) ∨ q.consumer ≠ k then s.coreTrap k 2
      else if inDmem a 64 = false then s.coreTrap k 7
      else
        let g := s.ring n
        if g.pi = g.ci then s.coreRet k r.rd 0
        else
          let base := match s.region? q.region with | some x => x.base | none => 0
          let l := s.loadData .core (base + q.offset + (g.ci % q.entries) * 64) 64
          let s := l.1.setRing n { l.1.ring n with ci := (g.ci + 1) % 2 ^ 32 }
          let c := s.core k
          (s.setCore k { c with dmem := memWrite c.dmem a l.2 }).coreRet k r.rd 1))

/-! ### Summary slots -/

/-- A summary slot of a core. -/
def CoreSt.slot (c : CoreSt) (n : Nat) : SumSlot := Bank.get c.slots SumSlot.zero n

/-- A field of a summary slot (Table 07-6), none for an unlisted code. -/
def SumSlot.field (a : SumSlot) (code : Nat) : Option Nat :=
  match code with
  | 0 => some a.rounded
  | 1 => some a.maxabs
  | 2 => some a.nans
  | 3 => some a.infs
  | 4 => some (match a.winner with | some w => w.1 | none => 2 ^ 64 - 1)
  | 5 => some (match a.winner with | some w => w.2 | none => fmtFp32.canonNan)
  | 6 => some a.contrib
  | _ => none

/-- CC_SUMRD (R182): one field of a summary slot; a slot above 63 or an unlisted field code reads as a
free value (assumption 3). -/
def execCcSumrd (r : CoreReq) (s : State) : Host.Outcome State Fault Refusal :=
  .next (s.coreAccess r (fun s =>
    let k := coreKey r.die r.cluster
    let c := s.core k
    let n := c.x r.rs1
    match (if n < 64 then (c.slot n).field (c.x r.rs2) else none) with
    | some v => s.coreRet k r.rd v
    | none => s.fresh.2.coreRet k r.rd s.fresh.1))

/-- CC_SUMWAIT (R182): CONTRIB once it has reached the count; a stall until then or the next boundary. -/
def execCcSumwait (r : CoreReq) (s : State) : Host.Outcome State Fault Refusal :=
  .next (s.coreAccess r (fun s =>
    let k := coreKey r.die r.cluster
    let c := s.core k
    let n := c.x r.rs1
    if c.x r.rs2 ≤ (c.slot n).contrib then s.coreRet k r.rd (c.slot n).contrib
    else s.coreStall k (.count r.rd n (c.x r.rs2))))

/-- CC_SUMCLR (R182). -/
def execCcSumclr (r : CoreReq) (s : State) : Host.Outcome State Fault Refusal :=
  .next (s.coreAccess r (fun s =>
    let k := coreKey r.die r.cluster
    let c := s.core k
    (s.setCore k { c with slots := Bank.set c.slots SumSlot.zero (c.x r.rs1) SumSlot.zero }).coreRet k 0 0))

/-- CC_BEAT (R182): the beat, the step, the position in STEP_LIST or the offset in the beat. -/
def execCcBeat (r : CoreReq) (s : State) : Host.Outcome State Fault Refusal :=
  .next (s.coreAccess r (fun s =>
    let k := coreKey r.die r.cluster
    match (s.core k).x r.rs1 with
    | 0 => s.coreRet k r.rd s.bell.beat
    | 1 => s.coreRet k r.rd s.stepNow
    | 2 => s.coreRet k r.rd (s.obj oStepBeatNow)
    | 3 => s.coreRet k r.rd s.bell.off
    | _ => s.fresh.2.coreRet k r.rd s.fresh.1))

/-- CC_WAIT_BOUNDARY (R182): a stall until the next boundary. -/
def execCcWaitBoundary (r : CoreReq) (s : State) : Host.Outcome State Fault Refusal :=
  .next (s.coreAccess r (fun s => s.coreStall (coreKey r.die r.cluster) .boundary))

/-- The slot's FIFOs are empty and its engines idle. -/
def EngineSt.idle (e : EngineSt) : Bool :=
  e.fills.isEmpty && e.slices.isEmpty && e.vectors.isEmpty && e.vloads.isEmpty && e.slice.isNone &&
  e.run.isNone && decide (e.t0.phase < 2) && decide (e.t1.phase < 2)

/-- Every slot of a mask is idle. -/
def State.slotsIdle (s : State) (core mask : Nat) : Bool :=
  (setBitsOf 12 mask).all (fun i => (s.eng (engKey (core / 8) ((core % 8) * 12 + i))).idle)

/-- CC_WAIT_IDLE (R182): a stall until every masked slot is idle. -/
def execCcWaitIdle (r : CoreReq) (s : State) : Host.Outcome State Fault Refusal :=
  .next (s.coreAccess r (fun s =>
    let k := coreKey r.die r.cluster
    let mask := (s.core k).x r.rs2 % 2 ^ 12
    if s.slotsIdle k mask then s.coreRet k 0 0 else s.coreStall k (.idle mask)))

/-- CC_NOTE (R182): CORE_NOTE with tag and value, at most once per core in a beat. -/
def execCcNote (r : CoreReq) (s : State) : Host.Outcome State Fault Refusal :=
  .next (s.coreAccess r (fun s =>
    let k := coreKey r.die r.cluster
    let c := s.core k
    let s := s.coreRet k 0 0
    if c.noted then s
    else
      let s := s.setCore k { s.core k with noted := true }
      let s := ((s.bump oCoreNoteCount).setObj oLastNoteTag (c.x r.rs1 % 2 ^ 16 + k * 2 ^ 16)).setObj
        oLastNoteValue (c.x r.rs2)
      (s.coreReport k).raise .coreNote))

/-- Whether a core's wait is over (Table 07-11). -/
def State.waitMet (s : State) (k : Nat) (w : CoreWait) : Bool :=
  match w with
  | .fifo slot kind => fifoRoom (s.eng (engKey (k / 8) ((k % 8) * 12 + slot))) kind
  | .count _ slot n => decide (n ≤ ((s.core k).slot slot).contrib) || (s.core k).passed
  | .boundary => (s.core k).passed
  | .idle mask => s.slotsIdle k mask

/-- CORE_RESUME (R182): a stalled core goes on when its condition is met; an ISSUE to a full FIFO is
executed again, the other instructions end. -/
def execCoreResume (die : Die) (cluster : Cluster) (s : State) : Host.Outcome State Fault Refusal :=
  let s := s.quiet
  let k := coreKey die cluster
  match (s.core k).wait with
  | none => .next s
  | some w =>
    if s.waitMet k w = false then .next s
    else
      let s := s.setCore k { s.core k with wait := none, passed := false }
      let s := if s.coreState k = 2 then s.setObj (oCoreState k) 1 else s
      match w with
      | .fifo _ _ => .next s
      | .count rd slot _ => .next (s.coreRet k rd ((s.core k).slot slot).contrib)
      | .boundary => .next (s.coreRet k 0 0)
      | .idle _ => .next (s.coreRet k 0 0)

/-- The results of a retired instruction released (assumption 30). -/
def retireInto (c : CoreSt) (i : Retire) (value : Nat) : CoreSt :=
  let c := c.setX i.rd value
  let c := match i.fp with
    | some f => { c with fregs := Bank.set c.fregs 0 f.1 f.2.toNat }
    | none => c
  let c := match i.csr with
    | some f => { c with csrs := Bank.set c.csrs 0 f.1.toNat f.2.toNat }
    | none => c
  let c := match i.storeAt with
    | some f => { c with dmem := memWrite c.dmem f.1.toNat f.2 }
    | none => c
  { c with pc := i.nextPc.toNat }

/-- CORE_INSTRUCTION (R184, R185): the pair retires an instruction. A fetch outside instruction memory
or an access outside data memory traps (R180); a disagreement is CORE_LOCKSTEP, and the value that the
register then holds is free. -/
def execCoreInstruction (i : Retire) (s : State) : Host.Outcome State Fault Refusal :=
  let s := s.quiet
  let k := coreKey i.die i.cluster
  let c := s.core k
  if s.coreRuns k = false then .next s
  else if 0x10000 ≤ c.pc then .next (s.coreTrap k 1)
  else match i.trap with
    | some cause => .next (s.coreTrap k cause.toNat)
    | none =>
      if (match i.loadAt with | some l => !inDmem l.1.toNat l.2 | none => false) = true then
        .next (s.coreTrap k 5)
      else if (match i.storeAt with | some l => !inDmem l.1.toNat l.2.length | none => false) = true then
        .next (s.coreTrap k 7)
      else if i.agree then .next (s.setCore k (retireInto c i i.value.toNat))
      else
        let s := s.coreLockstep k
        .next (s.fresh.2.setCore k (retireInto (s.core k) i s.fresh.1))

/-- SUMMARY_MERGE (R170): the first summary on its way to the cluster's core merges into its slot. -/
def execSummaryMerge (die : Die) (cluster : Cluster) (s : State) : Host.Outcome State Fault Refusal :=
  let s := s.quiet
  let mine := fun (m : Merge) => m.die == die.val && m.cluster == cluster.val
  match s.merges.findIdx? mine with
  | none => .next s
  | some i =>
    match s.merges[i]? with
    | none => .next s
    | some m =>
      let k := coreKey die cluster
      let c := s.core k
      let s := { s with merges := s.merges.eraseIdx i }
      .next (s.setCore k { c with
        slots := Bank.set c.slots SumSlot.zero m.slot ((c.slot m.slot).merge m.value) })

/-! ### The step's first boundary and the guard's end -/

/-- A core reloaded from its image and restarted at ENTRY (R181). -/
def State.reloadCore (s : State) (e : CoreEntry) : State :=
  let base := match s.region? e.region with | some x => x.base + e.offset | none => e.offset
  let h := s.loadData .core base 16
  let im := h.1.loadData .core (base + 16) (fieldLe h.2 0 4)
  let dm := im.1.loadData .core (base + 16 + fieldLe h.2 0 4) (fieldLe h.2 4 4)
  let old := dm.1.core e.core
  let s := dm.1.setCore e.core { CoreSt.init with
    pc := fieldLe h.2 8 4, imem := memWrite [] 0 im.2, dmem := memWrite [] 0x10000 dm.2,
    locksteps := old.locksteps, slots := old.slots }
  if s.coreState e.core = 4 then s else s.setObj (oCoreState e.core) 1

/-- CORE_RELOAD at a step's first boundary (R181). -/
def State.reloadCores (s : State) : State :=
  match s.activePlan with
  | some p => (p.cores.filter (fun e => e.place == s.place && decide (e.core < 16))).foldl
      (fun s e => s.reloadCore e) s
  | none => s

/-- A pair at the end of the guard of a step's first beat: pages invalid, planes FREE, vector state and
open accumulations cleared (R138, R160, R161, assumption 25). -/
def clearPair (e : EngineSt) : EngineSt :=
  { e with buf := [], valid := [], filled := [], taken := [], sums := [], streams := [], panels := [],
           fillPages := 0, lastTile := none, voidStep := false, voidVec := false, in0 := PlaneSt.init,
           in1 := PlaneSt.init, regs := [], bcasts := [], progs := [],
           t0 := if e.t0.phase = 1 then TileSt.init else e.t0,
           t1 := if e.t1.phase = 1 then TileSt.init else e.t1 }

/-- Every pair cleared and every summary slot zero. -/
def State.clearPairs (s : State) : State :=
  { s with engines := Bank.mapAll s.engines EngineSt.init (fun _ e => clearPair e),
           cores := Bank.mapAll s.cores CoreSt.init (fun _ c => { c with slots := [] }), merges := [] }

end Sys2Proof.Machine
end

