-- ==== Sys2Proof/Machine/Granary.lean ====
section
/-! DEFINITION. Granary units and windows (chapter 9): contributions and their checks, counting, output
of a completed chunk, completion of a window, touched rows and spill. -/

namespace Sys2Proof.Machine

/-! ### Windows -/

/-- The state of an owned window. -/
def State.win (s : State) (n : Nat) : WindowSt := Bank.get s.windows WindowSt.init n

/-- The state of an owned window replaced. -/
def State.setWin (s : State) (n : Nat) (w : WindowSt) : State :=
  { s with windows := Bank.set s.windows WindowSt.init n w }

/-- The windows of the admitted plan that this module owns (R218). -/
def State.ownedWindows (s : State) : List Window :=
  match s.activePlan with
  | some p => p.windows.filter (fun w => w.owner == s.place)
  | none => []

/-- MODE fields (Table 09-1). -/
def Window.sumMode (w : Window) : Nat := bits w.mode 0 2
def Window.countMode (w : Window) : Nat := bits w.mode 4 2
def Window.spill (w : Window) : Bool := bit w.mode 6
def Window.touched (w : Window) : Bool := bit w.mode 7

/-- OUT fields (Table 09-1). -/
def Window.outAction (w : Window) : Nat := bits w.out 0 2
def Window.outFormat (w : Window) : Nat := bits w.out 2 4
def Window.outMode (w : Window) : RMode := if bit w.out 6 then .sr else .rne

/-- Chunks of a window (R216). -/
def Window.chunkCount (w : Window) : Nat := ceilDiv w.elements 1024

/-- Elements of chunk `n`. -/
def Window.chunkSize (w : Window) (n : Nat) : Nat := min 1024 (w.elements - 1024 * n)

/-- The unit that serves chunk `n` (R216): the (n mod m)-th set bit of UNIT_MASK. -/
def Window.unitOf (w : Window) (n : Nat) : Nat :=
  let us := setBitsOf 16 w.mask
  us.getD (n % max 1 us.length) 0

/-- A chunk of a window. -/
def WindowSt.chunk (w : WindowSt) (n : Nat) : ChunkSt := Bank.get w.chunks ChunkSt.init n

/-- A chunk of a window replaced. -/
def WindowSt.setChunk (w : WindowSt) (n : Nat) (c : ChunkSt) : WindowSt :=
  { w with chunks := Bank.set w.chunks ChunkSt.init n c }

/-- The expected count of a chunk under UNIFORM or TABLE (Table 09-5). -/
def Window.expected (w : Window) (n : Nat) : Nat :=
  if w.countMode = 1 then w.counts.getD n 0 else w.count * w.chunkSize n

/-- Whether a chunk's counts make it complete (Table 09-5). -/
def Window.isComplete (w : Window) (n : Nat) (c : ChunkSt) : Bool :=
  if w.countMode = 2 then c.markers == w.count && c.count == c.total else c.count == w.expected n

/-! ### The check of a contribution (R222, Table 09-4) -/

/-- The chunk that a contribution concerns. -/
def Contribution.chunk (c : Contribution) : Nat := if c.form = 2 then c.value else c.element / 1024

/-- The form is allowed in the window's mode (R221). -/
def formOk (w : Window) (form : Nat) : Bool :=
  if form = 2 then w.countMode == 2
  else if form = 3 then w.sumMode == 1
  else if form = 4 then w.sumMode == 2 else w.sumMode == 0

/-- The step or attempt `a` is earlier than `b`. -/
def earlier (s1 a1 s2 a2 : Nat) : Bool := decide (s1 < s2) || (s1 == s2 && decide (a1 < a2))

/-- COUNT_EXCESS: all markers in, and the contributions exceed their total. -/
def countExcess (w : Window) (ch : ChunkSt) (c : Contribution) : Bool :=
  w.countMode == 2 &&
  (if c.form = 2 then ch.markers + 1 == w.count && decide (ch.total + c.aux < ch.count)
   else ch.markers == w.count && decide (ch.total < ch.count + 1))

/-- The reason of a stray contribution (Table 09-4), 0 when it is none. -/
def strayReason (w : Window) (st : WindowSt) (c : Contribution) : Nat :=
  let ch := st.chunk c.chunk
  let now := c.step == st.step && c.attempt == st.attempt
  leastCode [
    (0x02, if c.form = 2 then decide (w.chunkCount ≤ c.value) else decide (w.elements ≤ c.element)),
    (0x03, !formOk w c.form),
    (0x04, now && st.state != 2 && st.state != 3),
    (0x05, earlier st.step st.attempt c.step c.attempt),
    (0x06, c.form == 2 && decide (w.count ≤ ch.markers)),
    (0x07, countExcess w ch c)]

/-- LATE_CONTRIBUTION (R25): discarded, class A against the step in progress. -/
def State.late (s : State) (c : Contribution) : State :=
  let s := (s.bump oLateCount).setObj oLastLate
    (c.window + (c.source % 2 ^ 14) * 2 ^ 16 + s.stepNow * 2 ^ 32)
  (s.poison false).raise .lateContribution

/-- STRAY_CONTRIBUTION (R222). -/
def State.stray (s : State) (c : Contribution) (reason : Nat) : State :=
  let s := (s.bump oStrayCount).setObj oLastStray
    (reason + c.window * 2 ^ 8 + (c.source % 2 ^ 14) * 2 ^ 24)
  (s.poison false).raise .strayContribution

/-! ### Entry -/

/-- The tally of an element before a contribution enters: a slot of SRAM, or for a spilled window the
32 bytes in DRAM once the element holds one under the current tag (R220, R230). -/
def State.elementTally (s : State) (w : Window) (ch : ChunkSt) (e : Nat) : State × Tally :=
  if w.spill then
    let l := s.loadData .granary (w.spillAddr + 32 * e) 32
    (l.1, if ch.inDram.contains e then Tally.ofBytes l.2 (fieldLe l.2 24 6) else Tally.zero)
  else (s, Bank.get ch.tallies Tally.zero e)

/-- A SUM contribution entered as one term (R223, R126). -/
def sumEntry (s : State) (w : Window) (t : Tally) (c : Contribution) : Entry :=
  let v := bits (s.draw 0x04 w.tensor c.step (c.source * 2 ^ 50 + c.element)) 0 24
  if c.form = 1 then t.enter w.anchor ⟨toSigned 192 (leNat c.tally), c.anchor - 150⟩ v
  else
    match fmtFp32.decode c.value with
    | .num n m e => t.enter w.anchor (FVal.toEx (.num n m e)) v
    | y => ⟨t.special y, false, false, 0⟩

/-- The residue of a contribution's term in LSBs of its window: formed of an FP32 value, carried by a tally (R127,
R236). -/
def termRho (w : Window) (c : Contribution) : Nat :=
  if c.form = 1 then mulRes c.rho (powRes (c.anchor - w.anchor))
  else mulRes (fmtFp32.decode c.value).residue (powRes (150 - w.anchor))

/-- The better of two value and index pairs in a MAXIDX or MINIDX window (R224). -/
def betterPair (least : Bool) (a : Option (Nat × Nat)) (x : Nat × Nat) : Option (Nat × Nat) :=
  if (fmtFp32.decode x.1).isNan then a else
    match a with
    | none => some x
    | some y =>
      if beats least x.1 y.1 then some x else if beats least y.1 x.1 then some y
      else if x.2 ≤ y.2 then some x else some y

/-- A value entered into its element and its row marked; the chunk not yet counted. -/
def State.enterValue (s : State) (w : Window) (c : Contribution) : State :=
  let n := c.chunk
  let e := c.element
  if w.sumMode ≠ 0 then
    let st := s.win w.num
    let ch := st.chunk n
    let best := betterPair (w.sumMode == 2) (Bank.get ch.winners none e) (c.value, c.aux)
    let y := fmtFp32.decode c.value
    s.setWin w.num { st.setChunk n { ch with winners := Bank.set ch.winners none e best } with
      infSeen := st.infSeen || y.isInf, nanSeen := st.nanSeen || y.isNan }
  else
    let r := s.elementTally w ((s.win w.num).chunk n) e
    let s := r.1
    let x := sumEntry s w r.2 c
    let s := if w.spill then
        s.storeBy .granary (w.spillAddr + 32 * e) (tallyBytes x.tally.t ++ natLe 8 x.tally.word) else s
    let st := s.win w.num
    let ch := st.chunk n
    let ch := if w.spill then { ch with inDram := insertSorted e ch.inDram }
      else { ch with tallies := Bank.set ch.tallies Tally.zero e x.tally }
    let ch := { ch with rho := addRes ch.rho (addRes (termRho w c) x.kappa) }
    let row := e / max 1 w.rowElements
    s.setWin w.num { st.setChunk n ch with
      bw := satNat 32 (st.bw + b2n x.below), bwSat := st.bwSat || decide (2 ^ 32 - 1 ≤ st.bw + b2n x.below),
      infSeen := st.infSeen || x.tally.infPos || x.tally.infNeg, nanSeen := st.nanSeen || x.tally.nan,
      rows := if w.touched then insertSorted row st.rows else st.rows }

/-- The counts after a contribution: a value counts in its chunk, a marker adds its total; the chunk may
complete (R225). -/
def countIn (w : Window) (st : WindowSt) (c : Contribution) : WindowSt :=
  let n := c.chunk
  let ch := st.chunk n
  let ch := if c.form = 2 then { ch with markers := ch.markers + 1, total := ch.total + c.aux }
    else { ch with count := ch.count + 1 }
  let st := st.setChunk n { ch with complete := w.isComplete n ch, beat := c.beat }
  if c.form = 2 then { st with markers := satNat 32 (st.markers + 1) }
  else { st with accepted := st.accepted + 1 }

/-- A value beyond the bound of a DECLARED chunk: the excess is not processed and the step faults (R12). -/
def beyondBound (w : Window) (st : WindowSt) (c : Contribution) : Bool :=
  w.countMode == 2 && c.form != 2 && decide (w.maxPerChunk ≤ (st.chunk c.chunk).count)

/-- A contribution accepted by a unit: entered, counted, and a DECLARED chunk held to MAX_PER_CHUNK
(R12, R225). -/
def State.accept (s : State) (w : Window) (unit : Nat) (c : Contribution) : State :=
  if beyondBound w (s.win w.num) c then s.boundExceeded else
  let s := if c.form = 2 then s else (s.enterValue w c).bump (oUnitAdds unit)
  let before := ((s.win w.num).chunk c.chunk).total
  let s := s.setWin w.num (countIn w (s.win w.num) c)
  let after := ((s.win w.num).chunk c.chunk).total
  if w.countMode = 2 ∧ before ≤ w.maxPerChunk ∧ w.maxPerChunk < after then s.boundExceeded else s

/-- The unit, die × 16 + unit, that a contribution reaches; one that names no owned window reaches unit
0. -/
def State.unitFor (s : State) (c : Contribution) : Nat :=
  match s.ownWindow c.window with
  | some w => (w.die % 2) * 16 + w.unitOf c.chunk
  | none => 0

/-- What a unit does with a contribution (R222). -/
def State.takeContribution (s : State) (unit : Nat) (c : Contribution) : State :=
  match s.ownWindow c.window with
  | none => s.stray c 0x01
  | some w =>
    let st := s.win w.num
    if earlier c.step c.attempt st.step st.attempt then s.bump oStaleCount
    else if c.step = st.step ∧ c.attempt = st.attempt ∧
        (st.state = 3 ∨ (st.state = 2 ∧ (st.chunk c.chunk).complete = true)) then s.late c
    else
      let r := strayReason w st c
      if r ≠ 0 then s.stray c r else s.accept w unit c

/-- GRANARY_CONTRIBUTION (R222): the first contribution that waits for the unit. -/
def execGranaryContribution (die : Die) (unit : GranUnit) (s : State) :
    Host.Outcome State Fault Refusal :=
  let s := s.quiet
  let u := die.val * 16 + unit.val
  match s.contribs.findIdx? (fun c => s.unitFor c == u) with
  | none => .next s
  | some i =>
    match s.contribs[i]? with
    | none => .next s
    | some c => .next ({ s with contribs := s.contribs.eraseIdx i }.takeContribution u c)

/-! ### Output (R227, R228) -/

/-- The tally of an element at output. -/
def State.outTally (s : State) (w : Window) (ch : ChunkSt) (e : Nat) : State × Tally :=
  if w.spill ∧ ch.inDram.contains e = false then (s, Tally.zero) else s.elementTally w ch e

/-- A SUM element rounded to the output format (R228). -/
def State.outConv (s : State) (w : Window) (st : WindowSt) (t : Tally) (e : Nat) : Conv :=
  let v := match w.outMode with
    | .sr => bits (s.draw 0x02 w.outTensor st.step e) 0 24
    | .rne => 0
    | .rtz => 0
  storeCode w.outFormat (t.value w.anchor 0) w.outMode v

/-- The reports of one output element: source 3 for an overflowed tally, source 1 for a conversion,
source 2 for flags drained as TALLY (Table 08-9). -/
def State.outReports (s : State) (w : Window) (unit : Nat) (t : Tally) (cv : Conv) : State :=
  let s := s.overflowIf (w.outFormat != 10 && cv.ovf && !t.overflowed && !t.flagsOnly) 0x01 w.outTensor
  let s := s.overflowIf (w.outFormat == 10 && t.flagsOnly) 0x02 w.outTensor
  s.overflowIf t.overflowed 0x03 (unit % 16 + (unit / 16) * 2 ^ 8)

/-- The error in the storage of an element's tally, none where the list names none. -/
def tallyMask (errors : List TallyError) (i : Nat) : BitVec 192 :=
  (errors.filter (fun e => e.element.toNat == i)).foldl (fun m e => m ^^^ e.mask) 0

/-- One SUM element of a chunk at the output stage: its bits in the output format, its bytes as a memory output holds
them, and the residue of its tally. -/
def State.outElement (s : State) (w : Window) (unit e : Nat) (errors : List TallyError) :
    State × Nat × Bytes × Nat :=
  let st := s.win w.num
  let r := s.outTally w (st.chunk (e / 1024)) e
  let t := r.2.strike (tallyMask errors (e % 1024))
  let cv := r.1.outConv w st t e
  let s := r.1.outReports w unit t cv
  let st := s.win w.num
  let s := s.setWin w.num { st with ovf := satNat 32 (st.ovf + b2n t.overflowed) }
  (s, cv.bits, if w.outFormat = 10 then tallyBytes t.sent else natLe (elemBytes w.outFormat 1) cv.bits,
    residueOf t.t t.w)

/-- The 8 bytes of a MAXIDX or MINIDX element (R224, Table 09-6). -/
def pairBytes (p : Option (Nat × Nat)) : Bytes :=
  let q := p.getD (fmtFp32.canonNan, 0xFFFFFFFF)
  natLe 4 (fmtFp32.canon q.1) ++ natLe 4 q.2

/-- Every element of a chunk delivered: written to the window's output in whole lines, or kept for the update engine;
and the sum of its tallies' residues (R227, R236). The errors given have struck the unit's tallies. -/
def State.outChunk (s : State) (w : Window) (unit n : Nat) (errors : List TallyError) : State × Nat :=
  let es := (upto (w.chunkSize n)).map (fun i => 1024 * n + i)
  if w.sumMode ≠ 0 then
    (s.storeBy .granary (w.outAddr + 8 * 1024 * n)
      (es.flatMap (fun e => pairBytes (Bank.get ((s.win w.num).chunk n).winners none e))), 0)
  else
    let r := es.foldl (fun (a : State × List Nat × Bytes × Nat) e =>
      let x := a.1.outElement w unit e errors
      (x.1, a.2.1 ++ [x.2.1], a.2.2.1 ++ x.2.2.1, addRes a.2.2.2 x.2.2.2)) (s, [], [], 0)
    if w.outAction = 1 then
      ({ r.1 with delivered := r.1.delivered ++ [⟨w.num, n, (s.win w.num).step, r.2.1, s.bell.beat⟩] }, r.2.2.2)
    else
      (r.1.storeBy .granary (w.outAddr + (if w.outFormat = 10 then 24 else elemBytes w.outFormat 1) * 1024 * n) r.2.2.1,
       r.2.2.2)

/-- The bitmap of the touched rows as bytes, least significant bit first (R231). -/
def bitmapBytes (w : Window) (rows : List Nat) : Bytes :=
  (upto (ceilDiv (w.elements / max 1 w.rowElements) 8)).map (fun i =>
    BitVec.ofNat 8 ((upto 8).foldl (fun a j => a + b2n (rows.contains (8 * i + j)) * 2 ^ j) 0))

/-- The WINDOW_DONE record from offset 8 on (Table 09-7). -/
def doneBody (w : Window) (st : WindowSt) : Bytes :=
  natLe 2 w.num ++ natLe 1 st.attempt ++
  natLe 1 (b2n (decide (0 < st.ovf)) + 2 * b2n (decide (0 < st.bw)) + 4 * b2n st.bwSat +
    8 * b2n st.infSeen + 16 * b2n st.nanSeen) ++
  natLe 4 st.step ++ natLe 12 st.doneAt ++ natLe 2 (ofSigned 16 w.anchor) ++ zeros 2 ++
  natLe 4 st.bw ++ natLe 4 st.ovf ++ natLe 4 st.touched

/-- A window complete (R219, R229, R231): the bitmap copied and counted, the record posted. -/
def State.completeWindow (s : State) (w : Window) : State :=
  let st := s.win w.num
  let s := if w.touched then s.storeBy .granary w.touchedAddr (bitmapBytes w st.rows) else s
  let n := if w.touched then st.rows.length else 0
  let st := { st with state := 3, doneAt := s.timeNow, touched := n }
  let s := s.setWin w.num st
  let s := if w.touched ∧ w.maxTouched < n then s.boundExceeded else s
  match s.queue? w.cq with
  | some q => s.post q 0x21 (doneBody w st)
  | none => s

/-- Every chunk complete and delivered. -/
def windowFinished (w : Window) (st : WindowSt) : Bool :=
  (upto w.chunkCount).all (fun n => (st.chunk n).delivered)

/-- Whether a shard of the plan is fed by the window. -/
def State.feedsShard (s : State) (win : Nat) : Bool :=
  match s.activePlan with
  | some p => p.shards.any (fun x => x.window == win)
  | none => false

/-- CHUNK_OUTPUT_DONE (R227): the outputs of a complete chunk are delivered and its slots empty; the
verdict of its adds is due (R236); after the last chunk the window is COMPLETE, one that feeds a shard
once the shard is DONE (R256). The errors given have struck the unit's tallies before the output. -/
def execChunkOutputDone (window : W16) (c : ChunkOut) (s : State) : Host.Outcome State Fault Refusal :=
  let s := s.quiet
  let n := c.chunk.toNat
  match s.ownWindow window.toNat with
  | none => .next s
  | some w =>
    let ch := (s.win w.num).chunk n
    if (s.win w.num).state ≠ 2 ∨ w.chunkCount ≤ n ∨ ch.complete = false ∨ ch.delivered = true then .next s
    else
      let unit := (w.die % 2) * 16 + w.unitOf n
      let r := s.outChunk w unit n c.errors
      let s := r.1
      let st := s.win w.num
      let s := s.setWin w.num (st.setChunk n
        { st.chunk n with delivered := true, tallies := [], winners := [], inDram := [] })
      let s := { s with verdicts := s.verdicts ++
        [⟨3, w.die % 2, w.unitOf n, s.stepNow, s.step.attempt, s.now, w.raw, w.num,
          ⟨[ch.rho], [r.2], []⟩⟩] }
      if w.outAction = 1 ∧ s.feedsShard w.num = true then .next s
      else if windowFinished w (s.win w.num) then .next (s.completeWindow w) else .next s

/-! ### The life of a window at guards (Table 09-3) -/

/-- Every owned window WAITING for a step and attempt, its counters zero (Table 09-3). -/
def State.windowsWait (s : State) (step attempt : Nat) : State :=
  s.ownedWindows.foldl (fun s w =>
    s.setWin w.num { WindowSt.init with state := 1, step := step, attempt := attempt }) s

/-- A window open for contributions in a beat: a TABLE chunk that expects none is complete at once (R231). -/
def openWindow (w : Window) (now : Nat) (st : WindowSt) : WindowSt :=
  let st := { st with state := 2 }
  if w.countMode = 1 then
    (upto w.chunkCount).foldl (fun (st : WindowSt) n =>
      if w.expected n = 0 then st.setChunk n { ChunkSt.init with complete := true, beat := now } else st) st
  else st

/-- Windows whose OPEN_BEAT is the step beat that the guard opens. -/
def State.windowsOpen (s : State) (beat : Nat) : State :=
  s.ownedWindows.foldl (fun s w =>
    let st := s.win w.num
    if st.state = 1 ∧ w.openBeat = beat then s.setWin w.num (openWindow w s.bell.beat st) else s) s

/-- Windows still OPEN at the end of their DUE_BEAT (Table 09-3). -/
def State.windowsOverdue (s : State) (beat : Nat) : State :=
  s.ownedWindows.foldl (fun s w =>
    let st := s.win w.num
    if st.state = 2 ∧ w.dueBeat = beat then
      let left := ((upto w.chunkCount).filter (fun n => !(st.chunk n).complete)).length
      let s := s.setWin w.num { st with state := 4 }
      ((s.bump oOverdueCount).setObj oLastOverdue
        (w.num + satNat 16 left * 2 ^ 16 + st.step * 2 ^ 32)).raise .windowOverdue
    else s) s

/-- Every window discarded to IDLE at a POISONED verdict's guard, its step and attempt kept so that what
is still in flight is judged (Table 09-3, R220). -/
def State.windowsDiscard (s : State) : State :=
  s.ownedWindows.foldl (fun s w =>
    let st := s.win w.num
    s.setWin w.num { WindowSt.init with step := st.step, attempt := st.attempt }) s

/-- Every owned window of the step is COMPLETE (R22). -/
def State.windowsAllDone (s : State) : Bool := s.ownedWindows.all (fun w => (s.win w.num).state == 3)

end Sys2Proof.Machine
end

