-- ==== Sys2Proof/Machine/Snapshot.lean ====
section
/-! DEFINITION. Buddy snapshots as their source (R414 to R418): the latched halves streamed to the
buddy, and the header that completes them. -/

namespace Sys2Proof.Machine

/-- The buddy entry of the admitted plan whose source is this module. -/
def State.buddy? (s : State) : Option BuddyEntry :=
  s.activePlan.bind (fun p => p.buddies.find? (fun b => b.place == s.place))

/-- The physical address of the half that a region's committed view maps to now. -/
def State.committedBase (s : State) (g : Region) : Nat :=
  if twoHalves g.kind && s.committedBit g == 1 then g.base + g.len else g.base

/-- Bytes of one message of the stream (DESIGN CHOICE, assumption 55). -/
def snapMessage : Nat := 65536

/-- The pieces of the stream from byte 8,192 on: each region's half in turn. -/
def snapPieces : Nat → List (Region × Nat) → List (Nat × Nat × Nat × Nat)
  | _, [] => []
  | off, (g, pa) :: rest =>
    (upto (ceilDiv g.len snapMessage)).map (fun i =>
      (off + i * snapMessage, pa + i * snapMessage, g.num, min snapMessage (g.len - i * snapMessage))) ++
    snapPieces (off + g.len) rest

/-- Bytes 0 to 127 of a snapshot with COMPLETE 0 (Table 16-3). -/
def snapHeader (step plan place count lsExp lsRun : Nat) (digests : List Nat) : Bytes :=
  natLe 4 0x534E4150 ++ natLe 4 step ++ natLe 8 plan ++ natLe 2 place ++ natLe 1 count ++ zeros 1 ++
  natLe 2 lsExp ++ zeros 2 ++ natLe 4 lsRun ++ zeros 36 ++
  padTo 64 (digests.foldl (fun a d => a ++ natLe 8 d) [])

/-- LAST_SNAPSHOT (0x7210.02). -/
def SnapSt.word (x : SnapSt) (complete : Bool) : Nat :=
  x.step + x.buddy * 2 ^ 32 + b2n x.second * 2 ^ 48 + b2n complete * 2 ^ 49

/-- One piece read from its latched half and sent; a marked line has its consequence (Table 11-1). -/
def State.sendPiece (s : State) (x : SnapSt) (e : Nat × Nat × Nat × Nat) : State :=
  match s.region? e.2.2.1 with
  | some _ =>
    let l := s.readPhys .snapshot e.2.1 e.2.2.2
    l.1.sendMessage x.flow 0x01 (writePieces 1 x.dstRegion e.1 l.2) 0xFFFFFFFF 0 1
  | none => s

/-- Pieces of the stream sent while the flow has nothing waiting and fewer than sixteen messages open. -/
def State.streamPieces : Nat → State → State
  | 0, s => s
  | k + 1, s =>
    match s.step.snap with
    | some x =>
      match x.queued with
      | e :: rest =>
        let f := s.flow x.flow
        if f.state = 1 ∧ f.waiting.isEmpty = true ∧ f.openMsgs.length < 16 then
          let s : State := { s with step := { s.step with snap := some { x with queued := rest } } }
          State.streamPieces k (s.sendPiece x e)
        else s
      | [] => s
    | none => s

/-- The stream goes on as far as its flow allows. -/
def State.pumpSnapshot (s : State) : State := s.streamPieces 16

/-- Whether a snapshot is due at the commit of step `n` (R416). -/
def State.snapshotDue (s : State) (n : Nat) : Bool :=
  match s.activePlan with
  | some p => decide (p.timing.snapPeriod ≠ 0) && n % p.timing.snapPeriod == p.timing.snapPeriod - 1
  | none => false

/-- The header area of 8 KiB: the header, and GROUP_T from byte 4,096 (R417). -/
def State.snapArea (s : State) (header : Bytes) : Bytes :=
  padTo 4096 header ++ (upto 1024).foldl (fun a g => a ++ natLe 4 (Bank.get s.groupT 0 g)) []

/-- SNAPSHOT_START: the snapshot of the state committed at step `n` begins; one that still streams is cut
off (R416, R418). -/
def State.startSnapshot (s : State) (n : Nat) : State :=
  match s.buddy? with
  | some b =>
    if s.snapshotDue n then
      let s := s.cutSnapshot
      let second := s.step.snapshots % 2 == 1 && b.snap2 != 0xFFFF
      let gs := (b.regions.filterMap s.region?).map (fun g => (g, s.committedBase g))
      let ds := gs.foldl (fun (a : State × List Nat) e =>
        let l := a.1.readPhys .snapshot e.2 e.1.len
        (l.1, a.2 ++ [regionDigest l.2])) (s, [])
      let s := ds.1
      let header := snapHeader n (s.obj oPlanId) s.place gs.length (s.obj oLsExp) (s.obj oLsRun) ds.2
      let x : SnapSt :=
        { step := n, buddy := b.buddy, flow := b.flow, second := second,
          dstRegion := if second then b.snap2 else b.snap, header := header,
          queued := snapPieces 8192 gs }
      let count := s.step.snapshots + 1
      let s : State := { s with step := { s.step with snap := some x, snapshots := count } }
      let s := (s.setObj oSnapState 1).setObj oLastSnapshot (x.word false)
      (s.sendMessage x.flow 0x01 (writePieces 1 x.dstRegion 0 (s.snapArea header)) 0xFFFFFFFF 0 1).pumpSnapshot
    else s
  | none => s

/-- Whether every message of the stream has been acknowledged. -/
def State.snapAcked (s : State) (x : SnapSt) : Bool :=
  x.queued.isEmpty && !((s.flow x.flow).openMsgs.any (fun o => o.kind == 1))

/-- SNAPSHOT_DONE (R418): with every earlier message acknowledged, bytes 0 to 127 are written again with
COMPLETE 1, and the source raises the event. -/
def execSnapshotDone (s : State) : Host.Outcome State Fault Refusal :=
  let s := s.quiet
  match s.step.snap with
  | some x =>
    if s.snapAcked x then
      let s : State := { s with step := { s.step with snap := none } }
      let s := s.sendMessage x.flow 0x01 (writePieces 1 x.dstRegion 0 (overwrite x.header 19 [1]))
        0xFFFFFFFF 0 0
      .next (((s.setObj oSnapState 2).setObj oLastSnapshot (x.word true)).raise .snapshotDone)
    else .next s
  | none => .next s

end Sys2Proof.Machine
end

