-- ==== Sys2Proof/Machine/Update.lean ====
section
/-! DEFINITION. Update engines (chapter 10): schedules, the recurrence with its exact adder, the shapes,
embedding rows, whole-layer matrix shaping, shadow writes, gathers, the ratio watch and the commit. -/

namespace Sys2Proof.Machine

/-! ### Shards of the plan -/

/-- A served shard with its group and its window. -/
structure Job where
  sh : Shard
  g : Group
  w : Window
deriving DecidableEq, Repr

/-- The shards that this module serves: those whose windows it owns (R249). -/
def State.jobs (s : State) : List Job :=
  match s.activePlan with
  | none => []
  | some p => p.shards.filterMap (fun sh =>
      match s.ownedWindows.find? (fun w => w.num == sh.window), p.groups.find? (fun g => g.num == sh.group) with
      | some w, some g => some ⟨sh, g, w⟩
      | _, _ => none)

/-- The served shard of a window. -/
def State.job? (s : State) (win : Nat) : Option Job := s.jobs.find? (fun j => j.w.num == win)

/-- The state of a shard. -/
def State.shard (s : State) (n : Nat) : ShardSt := Bank.get s.shards ShardSt.init n

/-- The state of a shard replaced. -/
def State.setShard (s : State) (n : Nat) (x : ShardSt) : State :=
  { s with shards := Bank.set s.shards ShardSt.init n x }

/-- The sums of a group in this step. -/
def State.sum (s : State) (g : Nat) : GroupSum := Bank.get s.sums GroupSum.zero g

/-- The sums of a group replaced. -/
def State.setSum (s : State) (g : Nat) (x : GroupSum) : State :=
  { s with sums := Bank.set s.sums GroupSum.zero g x }

/-- A group takes part in the embedding rule (Table 10-3, FLAGS [2]). -/
def Group.touched (g : Group) : Bool := bit g.flags 2

/-- The rounding mode of a group (Table 10-3, FLAGS [1]). -/
def Group.mode (g : Group) : RMode := if bit g.flags 1 then .sr else .rne

/-- Coefficient `i` of Table 10-1 as FP32 bits. -/
def Group.c (g : Group) (i : Nat) : Nat := g.coef.getD i 0

/-- The iteration count NS_K, an integer held as FP32. -/
def Group.iterations (g : Group) : Nat := ((fmtFp32.decode (g.c 12)).toEx.at 0).toNat

/-- The group's ratio-watch entry of the recipe (Table 08-5). -/
def State.watchOf (s : State) (g : Nat) : Option WatchEntry :=
  s.activePlan.bind (fun p => p.recipe.groups.find? (fun e => e.group == g))

/-- The 64 bytes of a shard entry (Table 10-4). -/
def Shard.bytes (x : Shard) : Bytes :=
  natLe 2 x.window ++ natLe 2 x.group ++ natLe 1 x.unit ++ natLe 1 x.flags ++ natLe 1 x.copyFormat ++
  natLe 1 x.copyRound ++ natLe 8 x.firstElement ++ natLe 2 x.paramRegion ++ natLe 2 x.optRegion ++
  natLe 4 x.wOff ++ natLe 4 x.mOff ++ natLe 4 x.vOff ++ natLe 4 x.rowOff ++ natLe 4 x.copyOff ++
  natLe 2 x.gatherFirst ++ natLe 2 x.gatherN ++ natLe 2 x.matRows ++ natLe 2 x.matCols ++
  natLe 2 x.borrow ++ zeros 6 ++ natLe 8 x.scratch

/-! ### Schedules (R250 to R252) -/

/-- A binary32 value in binary64. -/
def wide (b : Nat) : Nat := fmtFp32.conv fmtFp64 b

/-- An integer in binary64. -/
def wideInt (i : Int) : Nat := fmtFp64.ofInt i

/-- A power by the schedule engine's fixed function. -/
def powWide (a b : Nat) : Nat := (Config.fnPow (BitVec.ofNat 64 a) (BitVec.ofNat 64 b)).toNat

/-- The table schedule of R251 at position `x`. -/
def etaTable (pts : List SchedPoint) (x : Int) : Nat :=
  match pts with
  | [] => 0
  | p0 :: _ =>
    let last := pts.getLastD p0
    if x ≤ Int.ofNat p0.x then p0.eta
    else if Int.ofNat last.x ≤ x then last.eta
    else match (pts.zip (pts.drop 1)).find? (fun e => decide (x < Int.ofNat e.2.x)) with
      | some e =>
        let dn := fmtFp64.sub (wide e.2.eta) (wide e.1.eta)
        let dx := wideInt (x - Int.ofNat e.1.x)
        let span := wideInt (Int.ofNat e.2.x - Int.ofNat e.1.x)
        fmtFp64.conv fmtFp32 (fmtFp64.add (wide e.1.eta) (fmtFp64.div (fmtFp64.mul dn dx) span))
      | none => last.eta

/-- floor of a binary64 value as a cycle length of at least 1; an infinite one is endless. -/
def cycleLen (b : Nat) : Option Nat :=
  match fmtFp64.decode b with
  | .num neg m e =>
    some (if neg then 1 else max 1 (if 0 ≤ e then m * 2 ^ e.toNat else m / 2 ^ (-e).toNat))
  | _ => none

/-- The position in its cycle, and the cycle's length, of `y` steps after warm-up with restarts (R252). -/
def cycleAt (g : Group) : Nat → Nat → Nat → Nat × Nat
  | 0, _, y => (y, max 1 g.decay)
  | fuel + 1, j, y =>
    let factor := if j = 0 then wideInt 1 else powWide (wide g.cycleMult) (wideInt j)
    match cycleLen (fmtFp64.mul (wideInt g.decay) factor) with
    | none => (0, 1)
    | some l => if y < l then (y, l) else cycleAt g fuel (j + 1) (y - l)

/-- The decay position u of Table 10-6, at most 1. -/
def decayU (g : Group) (y : Nat) : Nat :=
  let one := wideInt 1
  if bit g.schedKind 4 then
    let c := cycleAt g (y + 1) 0 y
    fmtFp64.div (wideInt c.1) (wideInt c.2)
  else if g.decay ≤ y then one
  else fmtFp64.div (wideInt y) (wideInt g.decay)

/-- The steps of warm-up: none when the schedule has none (Table 10-3). -/
def Group.warm (g : Group) : Nat := if g.schedKind % 4 = 0 then 0 else g.warmup

/-- The schedule engine's η at position `x` (Table 10-6). -/
def etaEngine (g : Group) (x : Nat) : Nat :=
  let start := wide g.etaStart
  let peak := wide g.etaPeak
  let least := wide g.etaMin
  let span := fmtFp64.sub peak least
  let one := wideInt 1
  let y := x - g.warm
  let v :=
    if x < g.warm then
      if g.schedKind % 4 = 2 then
        fmtFp64.mul start (powWide (fmtFp64.div peak start)
          (fmtFp64.div (wideInt (x + 1)) (wideInt g.warm)))
      else
        fmtFp64.add start
          (fmtFp64.div (fmtFp64.mul (fmtFp64.sub peak start) (wideInt (x + 1))) (wideInt g.warm))
    else if bits g.schedKind 2 2 = 1 then fmtFp64.sub peak (fmtFp64.mul span (decayU g y))
    else if bits g.schedKind 2 2 = 2 then
      let cos := (Config.fnCosPi (BitVec.ofNat 64 (decayU g y))).toNat
      fmtFp64.add least
        (fmtFp64.div (fmtFp64.mul span (fmtFp64.add one cos)) (wideInt 2))
    else if bits g.schedKind 2 2 = 3 then
      fmtFp64.max least (fmtFp64.div peak
        (fmtFp64.sqrt (fmtFp64.add one (fmtFp64.div (wideInt y) (wideInt (max g.warm 1))))))
    else peak
  fmtFp64.conv fmtFp32 v

/-- η of a group for step `n` (R250): a negative x is taken as 0 by the schedule engine. -/
def etaOf (p : Plan) (g : Group) (n : Nat) : Nat :=
  let x := Int.ofNat n - Int.ofNat g.origin
  if bit g.flags 0 then etaEngine g x.toNat
  else etaTable ((p.points.drop g.pointFirst).take g.points) x

/-- ETA_NOW of every group for the step that begins (R250). -/
def State.setEtas (s : State) : State :=
  match s.activePlan with
  | some p => { s with eta := p.groups.foldl (fun b g => Bank.set b 0 g.num (etaOf p g s.stepNow)) [] }
  | none => s

/-! ### Fixed functions within 1 ulp -/

/-- β^t exactly. -/
def powEx (b t : Nat) : Ex :=
  let x := (fmtFp32.decode b).toEx
  ⟨x.n ^ t, x.e * Int.ofNat t⟩

/-- POWT (R241): the fixed function's value where it lies within 1 ulp of β^t, the correctly rounded
value otherwise. -/
def powT (b t : Nat) : Nat :=
  nearUlp (Config.fnPowT (BitVec.ofNat 32 b) (BitVec.ofNat 32 t)).toNat (powEx b t)

/-- num / den lies within 1 ulp of the square of a candidate ratio's neighbours. -/
def ratioWithin (c : Nat) (num den : Nat) : Bool :=
  match fmtFp32.decode c with
  | .num false m e =>
    let x : Ex := ⟨m, e⟩
    let u : Ex := ⟨1, ulpExp x⟩
    let lo := x.add u.neg
    let lo := if lo.n < 0 then Ex.zero else lo
    let hi := x.add u
    let n : Ex := ⟨num, 0⟩
    let d : Ex := ⟨den, 0⟩
    !(Ex.lt n ((lo.mul lo).mul d)) && !(Ex.lt ((hi.mul hi).mul d) n)
  | _ => false

/-- r of R208 from the two exact sums. -/
def ratioOf (x : GroupSum) : Nat :=
  if x.bad then fmtFp32.canonNan
  else if x.num = 0 ∧ x.den = 0 then 0
  else if x.den = 0 then fmtFp32.infBits false
  else
    let c := (Config.fnRatio x.num x.den).toNat
    if ratioWithin c x.num x.den then c
    else (fmtFp32.round false (2 * isqrt (x.num * 2 ^ 400 / x.den) + 1) (-201) false .rne 0).bits

/-! ### The update adder (R239) -/

/-- The exact product of two values; an Inf times zero is a NaN. -/
def FVal.times (x y : FVal) : FVal :=
  match x, y with
  | .nan, _ => .nan
  | _, .nan => .nan
  | .num a m e, .num b n k => .num (a != b) (m * n) (e + k)
  | .inf a, y => if y.isZero then .nan else .inf (a != y.isNeg)
  | x, .inf b => if x.isZero then .nan else .inf (x.isNeg != b)

/-- The value with its sign changed. -/
def FVal.minus (x : FVal) : FVal :=
  match x with
  | .num n m e => .num (!n) m e
  | .inf n => .inf (!n)
  | .nan => .nan

/-- One term of the update adder: its bits below the window truncated toward minus infinity into the
sticky bit. -/
def adderTerm (a : Int) (t : Tally × Bool) (x : FVal) : Tally × Bool :=
  match x with
  | .num n m e =>
    let v : Int := if n then -(Int.ofNat m) else Int.ofNat m
    let sh := e - a + 150
    if 0 ≤ sh then
      (if 2 ^ 191 ≤ m * 2 ^ sh.toNat then ({ t.1 with above := true }, t.2)
       else (t.1.addInt (v * 2 ^ sh.toNat), t.2))
    else
      let den : Int := 2 ^ (-sh).toNat
      if 2 ^ 191 * den ≤ Int.ofNat m then ({ t.1 with above := true }, t.2)
      else (t.1.addInt (v / den), t.2 || decide (v % den ≠ 0))
  | y => (t.1.special y, t.2)

/-- The update adder's sum before its rounding. The sticky bit stands as 2^-64 of an LSB, a nonzero
fraction below it (assumption 40). -/
def adderSum (xs : List FVal) : FVal :=
  let a := match blockExp xs with
    | some e => if e + 2 < -256 then -256 else if 255 < e + 2 then 255 else e + 2
    | none => 0
  let r := xs.foldl (adderTerm a) (Tally.zero, false)
  match r.1.value a 0 with
  | .num n m e =>
    if r.2 then
      let v := r.1.t * 2 ^ 64 + 1
      .num (decide (v < 0)) v.natAbs (e - 64)
    else .num n m e
  | y => y

/-- A result of the adder: the FP32 bits, the sum, and whether it overflows (R240). -/
structure Added where
  bits : Nat
  exact : FVal
  bad : Bool

/-- A sum rounded once. -/
def added (xs : List FVal) (mode : RMode) (v : Nat) : Added :=
  let x := adderSum xs
  let c := fmtFp32.store x mode v
  ⟨c.bits, x, !x.isNum || c.ovf⟩

/-! ### The recurrence (R238 to R241) -/

/-- The inputs of an element. -/
structure ElemIn where
  g : Nat
  w : Nat
  m : Nat
  v : Nat

/-- The results of an element: w′, m′, v′, the exact w′, whether it overflowed, whether p underflowed. -/
structure ElemOut where
  w : Nat
  m : Nat
  v : Nat
  exact : FVal
  bad : Bool
  under : Bool

/-- A product of FP32 bits, exact. -/
def prod (a b : Nat) : FVal := (fmtFp32.decode a).times (fmtFp32.decode b)

/-- m′ of an element. -/
def momentOne (g : Group) (x : ElemIn) (v : Nat) : Added :=
  added [prod (g.c 0) x.m, prod (g.c 2) x.g, prod (g.c 3) x.w] g.mode v

/-- v′ of an element; formed by shape RATIO only. -/
def momentTwo (g : Group) (x : ElemIn) (v : Nat) : Added :=
  added [prod (g.c 1) x.v, (prod (g.c 4) x.g).times (fmtFp32.decode x.g)] g.mode v

/-- d of shape RATIO with the intermediates that Table 10-2 names. -/
def ratioShape (g : Group) (t m v : Nat) : List Nat :=
  let one := fmtFp32.ofInt 1
  let b1 := fmtFp32.sub one (powT (g.c 0) t)
  let b2 := fmtFp32.sub one (powT (g.c 1) t)
  let h := fmtFp32.add (fmtFp32.sqrt (fmtFp32.div v b2)) (g.c 7)
  [fmtFp32.div (fmtFp32.div m b1) h, h, b2, b1]

/-- d of shape SIGN: the sign of the exact sum c4·m + c5·g. -/
def signShape (g : Group) (x : ElemIn) : Nat :=
  match prod (g.c 5) x.m, prod (g.c 6) x.g with
  | .num a m e, .num b n k =>
    let sum := (FVal.toEx (.num a m e)).add (FVal.toEx (.num b n k))
    if sum.n = 0 then 0 else fmtFp32.ofInt (if sum.n < 0 then -1 else 1)
  | .inf a, .num _ _ _ => fmtFp32.ofInt (if a then -1 else 1)
  | .num _ _ _, .inf b => fmtFp32.ofInt (if b then -1 else 1)
  | .inf a, .inf b => if a = b then fmtFp32.ofInt (if a then -1 else 1) else fmtFp32.canonNan
  | _, _ => fmtFp32.canonNan

/-- d and the shape's intermediates; `mat` is X_k's element for shape MATRIX. -/
def shapeOf (g : Group) (t : Nat) (x : ElemIn) (m v mat : Nat) : List Nat :=
  if g.shape = 1 then ratioShape g t m v
  else if g.shape = 2 then [signShape g x]
  else if g.shape = 3 then [mat]
  else [m]

/-- p underflows (R206). -/
def underflows (eta d p : Nat) : Bool :=
  match fmtFp32.decode p with
  | .num _ m e =>
    if m = 0 then
      (fmtFp32.decode eta).isNum && !(fmtFp32.decode eta).isZero && (fmtFp32.decode d).isNum &&
        !(fmtFp32.decode d).isZero
    else decide (expOf m e < -126)
  | _ => false

/-- One element of the recurrence: `r` is the draw of purpose 0x05. -/
def updateElement (g : Group) (t eta shift r : Nat) (x : ElemIn) (mat : Nat) : ElemOut :=
  let m := momentOne g x (bits r 24 24)
  let v := momentTwo g x (bits r 48 24)
  let ds := shapeOf g t x m.bits v.bits mat
  let d := ds.headD 0
  let q := fmtFp32.mul eta (g.c 8)
  let p := fmtFp32.mul eta d
  let w := added [fmtFp32.decode x.w, (prod q x.w).minus,
    ((fmtFp32.decode p).scale (-(Int.ofNat shift))).minus] g.mode (bits r 0 24)
  let ins := [x.g, x.w, x.m, x.v].any (fun b => !(fmtFp32.decode b).isNum)
  { w := w.bits, m := m.bits, v := v.bits, exact := w.exact,
    bad := ins || m.bad || w.bad || (g.shape == 1 && v.bad) || ds.any (fun b => (fmtFp32.decode b).isNan),
    under := underflows eta d p }

/-! ### Elements in memory (R247, R256) -/

/-- No array (Table 10-4). -/
def noOffset : Nat := 0xFFFFFFFF

/-- The device address of byte `b` of an array at `off` in a region's committed or shadow view. -/
def State.viewAddr (s : State) (reg off b : Nat) (shadow : Bool) : Nat :=
  match s.region? reg with
  | some r => r.base + (if shadow then r.len else 0) + 64 * off + b
  | none => 64 * off + b

/-- FP32 elements of an array from `first` on in the committed half; +0 where the shard has no such array. -/
def State.updRead (s : State) (reg off first n : Nat) : State × List Nat :=
  if off = noOffset then (s, List.replicate n 0)
  else
    let r := s.loadData .update (s.viewAddr reg off (4 * first) false) (4 * n)
    (r.1, (upto n).map (fun i => fieldLe r.2 (4 * i) 4))

/-- FP32 elements of an array from `first` on in the shadow half, written as one run. -/
def State.updWrite (s : State) (reg off first : Nat) (xs : List Nat) : State :=
  if off = noOffset then s
  else s.storeBy .update (s.viewAddr reg off (4 * first) true) (xs.flatMap (natLe 4))

/-- Bytes of w or of the compute copy written in the shadow half, and kept for the gathers. -/
def State.putArray (s : State) (j : Job) (isCopy : Bool) (b : Nat) (bs : Bytes) : State :=
  let off := if isCopy then j.sh.copyOff else j.sh.wOff
  let s := s.storeBy .update (s.viewAddr j.sh.paramRegion off b true) bs
  let x := s.shard j.w.num
  s.setShard j.w.num
    (if isCopy then { x with outC := memWrite x.outC b bs } else { x with outW := memWrite x.outW b bs })

/-- The byte of the copy that holds half a byte of a row beside the elements written: as written in this step when that
row was handled, the committed one otherwise. -/
def State.neighbour (s : State) (j : Job) (b row : Nat) : State × Nat :=
  if (s.shard j.w.num).rows.contains row then (s, leNat (memRead (s.shard j.w.num).outC b 1))
  else
    let l := s.loadData .update (s.viewAddr j.sh.paramRegion j.sh.copyOff b false) 1
    (l.1, leNat l.2)

/-- Elements of the compute copy from `first` on, written; a half byte beside them keeps its neighbour's element. -/
def State.putCopy (s : State) (j : Job) (first : Nat) (xs : List Nat) : State :=
  let c := j.sh.copyFormat
  let re := max 1 j.w.rowElements
  let halves := elemNibbles c == 1
  let lead := halves && first % 2 == 1
  let l := if lead then s.neighbour j (first / 2) ((first - 1) / re) else (s, 0)
  let stop := first + xs.length
  let tail := halves && stop % 2 == 1 && decide (stop < j.w.elements)
  let r := if tail then l.1.neighbour j (stop / 2) (stop / re) else (l.1, 0)
  let ys := (if lead then [l.2 % 16] else []) ++ xs ++ (if tail then [r.2 / 16] else [])
  r.1.putArray j true (elemBytes c (first - b2n lead)) (packElems c ys)

/-- The draw of an element's conversion to the compute copy (R93, R247). -/
def State.copyDraw (s : State) (j : Job) (e : Nat) : Nat :=
  s.drawSr ((RMode.ofCode j.sh.copyRound).getD .rne) j.g.wTensor (j.sh.firstElement + e)

/-- The compute copy of elements from `first` on, `xs` their exact values: each w′ rounded once (R247), an MX block's
scale with it. -/
def State.copyRun (s : State) (j : Job) (first : Nat) (xs : List FVal) : State :=
  let c := j.sh.copyFormat
  let mode := (RMode.ofCode j.sh.copyRound).getD .rne
  let vs := xs.zipIdx.map (fun e => (e.1, s.copyDraw j (first + e.2)))
  let cs := convRow c mode vs
  let s := s.overflowIf (cs.any (fun c => c.ovf)) 0x01 j.g.wTensor
  (s.putCopy j first (cs.map (fun c => c.bits))).storeScales .update c
    (s.viewAddr j.sh.paramRegion j.sh.copyOff (elemBytes c first) true) (rowScales c mode vs)

/-- The value of element `e` in an MX block that rows share: the exact w′ where this step updated it, the committed w
elsewhere (assumption 45). -/
def State.blockValue (s : State) (j : Job) (e : Nat) : State × FVal :=
  match Bank.get (s.shard j.w.num).exacts none e with
  | some y => (s, y)
  | none =>
    let r := s.updRead j.sh.paramRegion j.sh.wOff e 1
    (r.1, fmtFp32.decode (r.2.headD 0))

/-- Block `b` of an MX copy, elements 32 b to 32 b + 31 of the array (R87), formed anew. -/
def State.copyBlock (s : State) (j : Job) (b : Nat) : State :=
  let r := (upto (min 32 (j.w.elements - 32 * b))).foldl (fun (a : State × List FVal) i =>
    let y := a.1.blockValue j (32 * b + i)
    (y.1, a.2 ++ [y.2])) (s, [])
  r.1.copyRun j (32 * b) r.2

/-- A TOUCHED shard's copy whose MX blocks may hold elements of several rows. -/
def Job.sharesBlocks (j : Job) : Bool :=
  j.g.touched && isMx j.sh.copyFormat && decide (j.w.rowElements % 32 ≠ 0)

/-- The shard has a compute copy. -/
def Job.hasCopy (j : Job) : Bool := bit j.sh.flags 0 && j.sh.copyOff != noOffset

/-- The compute copy of a run updated from `first` on. -/
def State.updCopy (s : State) (j : Job) (first : Nat) (xs : List FVal) : State :=
  if j.hasCopy = false then s
  else if j.sharesBlocks then
    let x := s.shard j.w.num
    let s := s.setShard j.w.num
      { x with exacts := xs.zipIdx.foldl (fun b e => Bank.set b none (first + e.2) (some e.1)) x.exacts }
    ((upto (ceilDiv (first + xs.length) 32 - first / 32)).map (fun i => first / 32 + i)).foldl
      (fun s b => s.copyBlock j b) s
  else s.copyRun j first xs

/-- (w′ − w)² and w² added to a group's sums (R208), an underflow counted (R206). -/
def addSums (x : GroupSum) (w w' : Nat) (under : Bool) : GroupSum :=
  let x := { x with elements := x.elements + 1, under := satNat 32 (x.under + b2n under) }
  match fmtFp32.decode w, fmtFp32.decode w' with
  | .num a m e, .num b n k =>
    let p := (FVal.toEx (.num a m e)).at (-149)
    let q := (FVal.toEx (.num b n k)).at (-149)
    { x with num := x.num + ((q - p) * (q - p)).toNat, den := x.den + (p * p).toNat }
  | _, _ => { x with bad := true }

/-- The inputs of `n` elements from `first` on, read from the committed half, in one run per array. -/
def State.elemsIn (s : State) (j : Job) (first : Nat) (grads : List Nat) : State × List ElemIn :=
  let n := grads.length
  let w := s.updRead j.sh.paramRegion j.sh.wOff first n
  let m := w.1.updRead j.sh.optRegion j.sh.mOff first n
  let v := if j.g.shape = 1 then m.1.updRead j.sh.optRegion j.sh.vOff first n else (m.1, List.replicate n 0)
  (v.1, grads.zipIdx.map (fun e => ⟨e.1, w.2.getD e.2 0, m.2.getD e.2 0, v.2.getD e.2 0⟩))

/-- The draw of an element's update (Table 08-2, purpose 0x05). -/
def State.updDraw (s : State) (j : Job) (e : Nat) : Nat :=
  match j.g.mode with
  | .sr => s.draw 0x05 j.g.wTensor s.stepNow (j.sh.firstElement + e)
  | .rne => 0
  | .rtz => 0

/-- The FIRST_OVERFLOW fields of source 0x04 for a shard's unit. -/
def Job.info (j : Job) : Nat := j.sh.unit % 2 + (j.w.die % 2) * 2 ^ 8

/-- A run of elements from `first` on, each with its gradient and its X_k: the inputs read, the recurrence of each, the
shadow values written in whole runs, the sums counted, and the compute copy. -/
def State.updRun (s : State) (j : Job) (t first : Nat) (xs : List (Nat × Nat)) : State :=
  let r := s.elemsIn j first (xs.map (fun x => x.1))
  let s := r.1
  let shift := match s.watchOf j.g.num with | some x => x.lrShift | none => 0
  let os := (r.2.zip xs).zipIdx.map (fun e =>
    updateElement j.g t (Bank.get s.eta 0 j.g.num) shift (s.updDraw j (first + e.2)) e.1.1 e.1.2.2)
  let s := s.putArray j false (4 * first) (os.flatMap (fun o => natLe 4 o.w))
  let s := s.updWrite j.sh.optRegion j.sh.mOff first (os.map (fun o => o.m))
  let s := if j.g.shape = 1 then s.updWrite j.sh.optRegion j.sh.vOff first (os.map (fun o => o.v)) else s
  let s := s.setSum j.g.num ((r.2.zip os).foldl (fun x e => addSums x e.1.w e.2.w e.2.under) (s.sum j.g.num))
  (s.overflowIf (os.any (fun o => o.bad)) 0x04 j.info).updCopy j first (os.map (fun o => o.exact))

/-- The step count t of a group without TOUCHED (R242). -/
def State.groupCount (s : State) (g : Nat) : Nat := Bank.get s.groupT 0 g + 1

/-! ### Embedding rows (R253, R254) -/

/-- Rows of a TOUCHED window. -/
def Window.rowCount (w : Window) : Nat := w.elements / max 1 w.rowElements

/-- A row's lag bit in the committed half: the bitmap follows the row counts. -/
def State.lagBit (s : State) (j : Job) (r : Nat) : State × Bool :=
  let l := s.loadData .update (s.viewAddr j.sh.optRegion j.sh.rowOff (4 * j.w.rowCount + r / 8) false) 1
  (l.1, bit (leNat l.2) (r % 8))

/-- FP32 elements of an OPT array copied from the committed to the shadow half. -/
def State.carryRun (s : State) (j : Job) (off first n : Nat) : State :=
  let r := s.updRead j.sh.optRegion off first n
  r.1.updWrite j.sh.optRegion off first r.2

/-- Elements of the compute copy from `first` on copied unchanged, the scale bytes of their MX blocks with them. -/
def State.carryElems (s : State) (j : Job) (first n : Nat) : State :=
  let c := j.sh.copyFormat
  let view := fun (e : Nat) (shadow : Bool) => s.viewAddr j.sh.paramRegion j.sh.copyOff (elemBytes c e) shadow
  let e0 := first - (if elemNibbles c = 1 then first % 2 else 0)
  let l := s.loadData .update (view e0 false) (elemBytes c (first + n - e0))
  let s := l.1.putCopy j first ((upto n).map (fun i => elemAt c l.2 (first - e0 + i)))
  if isMx c then
    ((upto (ceilDiv (first + n) 32 - first / 32)).map (fun i => first / 32 + i)).foldl (fun (s : State) b =>
      let l := s.loadData .update (Config.mxScaleAddr c (view (32 * b) false)) 1
      l.1.storeScales .update c (view (32 * b) true) [leNat l.2]) s
  else s

/-- A row that is in the lag bitmap only, copied unchanged; an MX block that it shares with a touched row is formed with
that row. -/
def State.carryRow (s : State) (j : Job) (r : Nat) : State :=
  let n := j.w.rowElements
  let w := s.updRead j.sh.paramRegion j.sh.wOff (n * r) n
  let s := w.1.putArray j false (4 * n * r) (w.2.flatMap (natLe 4))
  let s := s.carryRun j j.sh.mOff (n * r) n
  let s := s.carryRun j j.sh.vOff (n * r) n
  let touched := (s.win j.w.num).rows
  let s := if j.hasCopy = false then s
    else if j.sharesBlocks then
      ((upto (ceilDiv (n * r + n) 32 - n * r / 32)).map (fun i => n * r / 32 + i)).foldl (fun (s : State) b =>
        let size := min 32 (j.w.elements - 32 * b)
        if (upto size).any (fun i => touched.contains ((32 * b + i) / max 1 n)) then s.copyBlock j b
        else s.carryElems j (32 * b) size) s
    else s.carryElems j (n * r) n
  s.carryRun j j.sh.rowOff r 1

/-- One row handled: updated when touched, copied when only in the lag bitmap. Of the rows touched beyond MAX_TOUCHED
none is processed (R12): the last ones to be ready (assumption 91). -/
def State.updRow (s : State) (j : Job) (r : Nat) : State :=
  let n := j.w.rowElements
  let mark := fun (s : State) =>
    let x := s.shard j.w.num
    s.setShard j.w.num { x with rowsDone := x.rowsDone + 1, rows := insertSorted r x.rows }
  let touched := (s.win j.w.num).rows
  let done := ((s.shard j.w.num).rows.filter (fun q => touched.contains q)).length
  if touched.contains r ∧ done < j.w.maxTouched then
    let c := s.updRead j.sh.optRegion j.sh.rowOff r 1
    let s := c.1
    let t := c.2.headD 0 + 1
    let gs := (upto n).map (fun i => (Bank.get (s.shard j.w.num).grads 0 (n * r + i), 0))
    let s := s.updRun j t (n * r) gs
    mark (s.updWrite j.sh.optRegion j.sh.rowOff r [satNat 32 t])
  else
    let l := s.lagBit j r
    if l.2 then mark (l.1.carryRow j r) else l.1

/-- The rows of a chunk whose chunks have all been taken. -/
def rowsReady (w : Window) (taken : List Nat) (n : Nat) : List Nat :=
  let re := max 1 w.rowElements
  let r0 := 1024 * n / re
  let r1 := (1024 * n + w.chunkSize n - 1) / re
  ((upto (r1 + 1 - r0)).map (fun i => r0 + i)).filter (fun r =>
    (upto w.chunkCount).all (fun c =>
      decide (c < re * r / 1024) || decide ((re * r + re - 1) / 1024 < c) || taken.contains c))

/-- The rows that a TOUCHED chunk completes, handled, with their used gradients dropped. -/
def State.updRows (s : State) (j : Job) (n : Nat) : State :=
  let ready := rowsReady j.w (s.shard j.w.num).taken n
  let s := ready.foldl (fun s r => s.updRow j r) s
  let x := s.shard j.w.num
  s.setShard j.w.num { x with
    grads := x.grads.filter (fun e => !ready.contains (e.1 / max 1 j.w.rowElements)) }

/-! ### Gather and completion (R256, R257) -/

/-- The kind that marks the messages of a window's gathers. -/
def gatherKind (win : Nat) : Nat := 2 + win

/-- Whether a gather WRITE of the window is unacknowledged. -/
def State.gatherPending (s : State) (win : Nat) : Bool :=
  s.flows.any (fun f => f.2.openMsgs.any (fun m => m.kind == gatherKind win))

/-- Byte spans of an array of format `f` that a gather sends, each one message: the whole shard, in
messages of at most 65,535 packets, or the rows handled. -/
def gatherSpans (j : Job) (rows : List Nat) (f : Nat) : List (Nat × Nat) :=
  if j.g.touched then
    rows.map (fun r =>
      let a := r * j.w.rowElements * elemNibbles f / 2
      (a, ceilDiv ((r + 1) * j.w.rowElements * elemNibbles f) 2 - a))
  else
    let all := elemBytes f j.w.elements
    let most := 4096 * 4096
    (upto (ceilDiv all most)).map (fun i => (i * most, min most (all - i * most)))

/-- The WRITEs of one gather entry sent (R257, R248), of the values that the engine wrote: it reads no shadow half
(R256). -/
def State.sendGather (s : State) (j : Job) (x : Gather) : State :=
  let y := s.shard j.w.num
  let cells := if x.format = 0 then y.outW else y.outC
  (gatherSpans j y.rows x.format).foldl (fun s sp =>
    s.sendMessage x.flow 0x01 (writePieces 1 x.region (x.offset + sp.1) (memRead cells sp.1 sp.2)) s.stepNow
      s.step.attempt (gatherKind j.w.num)) s

/-- A shard whose gathers are all acknowledged is DONE, and its window's output is written (R256). -/
def State.settleShard (s : State) (j : Job) : State :=
  let x := s.shard j.w.num
  if x.state = 5 ∧ s.gatherPending j.w.num = false then
    let s := s.setShard j.w.num { x with state := 6 }
    if (s.win j.w.num).state = 2 ∧ windowFinished j.w (s.win j.w.num) = true then s.completeWindow j.w
    else s
  else s

/-- Every shard whose gathers are now acknowledged, DONE. -/
def State.settleShards (s : State) : State := s.jobs.foldl State.settleShard s

/-- Every element of the shard is written: the lag bitmap written, the gathers sent. -/
def State.shardWritten (s : State) (j : Job) : State :=
  let s := if j.g.touched then
      s.storeBy .update (s.viewAddr j.sh.optRegion j.sh.rowOff (4 * j.w.rowCount) true)
        (bitmapBytes j.w (s.win j.w.num).rows)
    else s
  let s := s.setShard j.w.num { s.shard j.w.num with state := 5, grads := [] }
  let gs := match s.activePlan with
    | some p => (p.gathers.drop j.sh.gatherFirst).take j.sh.gatherN
    | none => []
  let s := gs.foldl (fun s g => s.sendGather j g) s
  (s.setShard j.w.num { s.shard j.w.num with outW := [], outC := [], exacts := [] }).settleShard j

/-- A verdict still to arrive for a shard's unit (Table 15-1). -/
def State.expectUpdate (s : State) (j : Job) : State :=
  let v : VerdictDue := ⟨4, j.w.die % 2, j.sh.unit % 2, s.stepNow, s.step.attempt, s.now, j.sh.bytes, j.w.num,
    Checks.none⟩
  { s with verdicts := s.verdicts ++ [v] }

/-! ### UPDATE_CHUNK (R237) -/

/-- A chunk's gradients kept. -/
def ShardSt.keep (x : ShardSt) (n : Nat) (gs : List Nat) : ShardSt :=
  { x with taken := insertSorted n x.taken,
           grads := gs.zipIdx.foldl (fun b e => Bank.set b 0 (1024 * n + e.2) e.1) x.grads }

/-- A chunk taken by its shard's update engine. -/
def State.takeChunk (s : State) (j : Job) (d : Delivered) : State :=
  let x := s.shard j.w.num
  if x.state ≠ 1 ∧ x.state ≠ 2 then s
  else
    let x := { x with taken := insertSorted d.chunk x.taken }
    let all := decide (j.w.chunkCount ≤ x.taken.length)
    if j.g.shape = 3 then
      s.setShard j.w.num { x.keep d.chunk d.values with state := if all then 2 else 1 }
    else
      let s := if j.g.touched then
          (s.setShard j.w.num { x.keep d.chunk d.values with state := 2 }).updRows j d.chunk
        else (s.setShard j.w.num { x with state := 2 }).updRun j (s.groupCount j.g.num) (1024 * d.chunk)
            (d.values.map (fun g => (g, 0)))
      let s := s.expectUpdate j
      if all then s.shardWritten j else s

/-- UPDATE_CHUNK (R237 to R242, R253 to R257): the unit takes the first chunk delivered to it. -/
def execUpdateChunk (die : Die) (unit : UpdUnit) (s : State) : Host.Outcome State Fault Refusal :=
  let s := s.quiet
  let mine := fun (d : Delivered) => match s.job? d.window with
    | some j => j.w.die % 2 == die.val && j.sh.unit % 2 == unit.val
    | none => false
  match s.delivered.findIdx? mine with
  | none => .next s
  | some i =>
    match s.delivered[i]? with
    | none => .next s
    | some d =>
      let s := { s with delivered := s.delivered.eraseIdx i }
      match s.job? d.window with
      | some j => .next (s.takeChunk j d)
      | none => .next s

/-! ### Whole-layer matrix shaping (R243, R244) -/

/-- The rows of the iterated matrix: X, or its transpose when r > c. -/
def Job.n (j : Job) : Nat := min j.sh.matRows j.sh.matCols

/-- The columns of the iterated matrix. -/
def Job.k (j : Job) : Nat := max j.sh.matRows j.sh.matCols

/-- The element of the layer in row order at (i, k) of the iterated matrix. -/
def Job.place (j : Job) (i k : Nat) : Nat :=
  if j.sh.matCols < j.sh.matRows then k * j.sh.matCols + i else i * j.sh.matCols + k

/-- Bytes of the arrays of a MATRIX shard's scratch, each at a line: two of the layer for X, one being read while the
other is drained, then A, A2 and P, in row order (assumption 42). -/
def Job.layerBytes (j : Job) : Nat := wholeLines (4 * j.w.elements)
def Job.squareBytes (j : Job) : Nat := wholeLines (4 * j.n * j.n)

/-- Where X of an iteration lies, and A, A2 and P. -/
def Job.xAddr (j : Job) (iteration : Nat) : Nat := j.sh.scratch + iteration % 2 * j.layerBytes
def Job.squareAddr (j : Job) (i : Nat) : Nat := j.sh.scratch + 2 * j.layerBytes + i * j.squareBytes

/-- `n` FP32 values of a scratch array, read by an agent. -/
def State.loadWords (s : State) (ag : Agent) (a n : Nat) : State × List Nat :=
  let r := s.loadData ag a (4 * n)
  (r.1, (upto n).map (fun i => fieldLe r.2 (4 * i) 4))

/-- An operand piece after the narrowing of a FILL to MATRIX_FORMAT (R243, R99): by RNE (assumption 42). -/
def matOperand (g : Group) (piece b : Nat) : FVal :=
  if g.matFormat = 1 then fmtBf16.decode (fmtBf16.store (fmtFp32.decode b) .rne 0).bits
  else fmtBf16.decode ((splitPieces b).getD piece 0)

/-- The narrowing of an operand overflows (R91, R94). -/
def matOverflow (g : Group) (b : Nat) : Bool :=
  g.matFormat == 1 && (fmtBf16.store (fmtFp32.decode b) .rne 0).ovf

/-- A product of the sequencer: its rows and columns, the contraction length, element (r, c) of its operands, and where
it drains to: the address, and the place of an element of the product in the array there. -/
structure Product where
  rows : Nat
  cols : Nat
  len : Nat
  fa : Nat → Nat → Nat
  fb : Nat → Nat → Nat
  addr : Nat
  place : Nat → Nat → Nat

/-- A panel of an operand of the sequencer: 64 rows from `r0`, 16 indices from `k0`, zero beyond the operand (R135). -/
def seqPanel (g : Group) (f : Nat → Nat → Nat) (rows len r0 k0 : Nat) : Panel :=
  let val := fun (piece r i : Nat) =>
    if r0 + r < rows ∧ k0 + i < len then matOperand g piece (f (r0 + r) (k0 + i)) else .num false 0 0
  let sums := panelSums (if g.matFormat = 1 then 1 else 3) val
  { val := val, sums := fun piece => (sums.drop (16 * piece)).take 16 }

/-- The slot that tile number `i` of a product runs on: the borrowed slots in turn (R244). -/
def Job.slotIndex (j : Job) (i : Nat) : Nat :=
  let us := setBitsOf 12 j.sh.borrow
  us.getD (i % max 1 us.length) 0

/-- The engine of a borrowed slot. -/
def Job.slotEngine (j : Job) (slot : Nat) : Nat := bits j.sh.borrow 12 3 * 12 + slot

/-- The MATRIX descriptor of tile number `i` of a product (R244): one whole contraction, FIRST-BLOCK with fallback 0,
drained by RNE to FP32. The lines of the buffer and the stride of the drain are not shown (assumption 42). -/
def Job.matrixBytes (j : Job) (p : Product) (tile i : Nat) : Bytes :=
  let tc := max 1 (ceilDiv p.cols 64)
  let r0 := 64 * (i / tc)
  let c0 := 64 * (i % tc)
  natLe 8 0x01 ++ natLe 4 p.len ++ natLe 4 0 ++ zeros 8 ++ natLe 2 (j.g.matFormat + 16 * j.g.matFormat) ++
  natLe 2 (tile + 2 ^ 2 + (if j.g.matPasses = 6 then 2 else if j.g.matPasses = 3 then 1 else 0) * 2 ^ 4 + 2 * 2 ^ 6) ++
  natLe 2 0 ++ natLe 1 (min 64 (p.rows - r0)) ++ natLe 1 (min 64 (p.cols - c0)) ++ natLe 4 j.g.wTensor ++
  natLe 4 p.cols ++ natLe 8 (r0 * p.cols + c0) ++ natLe 8 (p.addr + 4 * p.place r0 c0) ++ zeros 8

/-- The FILL descriptor of `n` rows of an operand of contraction length `len`, read from FP32. -/
def Job.fillBytes (j : Job) (n len : Nat) : Bytes :=
  natLe 8 0x11 ++ zeros 8 ++ zeros 4 ++ natLe 4 len ++ zeros 16 ++ natLe 1 n ++ natLe 1 (16 * j.g.matFormat) ++ zeros 22

/-- What is left of the items of the current program that cover a descriptor on a slot: slices or bytes (R183). -/
def State.unspent (s : State) (kind die engine : Nat) (d : Bytes) : Nat :=
  ((s.beatItems.filter (fun e => itemFor e.1 kind die engine &&
    (kind != 1 || itemCovers { e.1 with c := 1 } 0 kind d))).map (fun e =>
      (if kind = 1 then e.1.c else e.1.a) - Bank.get s.spent 0 e.2)).sum

/-- `n` units of what covers a descriptor taken: first of what earlier beats of the phase left, then of the current
items, the first with budget left first; nothing, and the flag unset, when they do not suffice (R183, assumption
42). -/
def State.drawBudget (s : State) (j : Job) (key kind engine : Nat) (d : Bytes) (n : Nat) : State × Bool :=
  let x := s.shard j.w.num
  let kept := Bank.get x.carry 0 key
  if kept + s.unspent kind (j.w.die % 2) engine d < n then (s, false)
  else
    let s := s.setShard j.w.num { x with carry := Bank.set x.carry 0 key (kept - n) }
    let es := s.beatItems.filter (fun e => itemFor e.1 kind (j.w.die % 2) engine &&
      (kind != 1 || itemCovers { e.1 with c := 1 } 0 kind d))
    let r := es.foldl (fun (a : Bank Nat × Nat) e =>
      let used := Bank.get a.1 0 e.2
      let m := min a.2 ((if kind = 1 then e.1.c else e.1.a) - used)
      (Bank.set a.1 0 e.2 (used + m), a.2 - m)) (s.spent, n - kept)
    ({ s with spent := r.1 }, true)

/-- One tile of a product: its descriptors taken from the items on its slot, the slice run on the slot's other tile,
drained to FP32 by RNE, its status shown and its verdict due (R244, R128, R148). A slot that runs void gives nothing;
work beyond the items is not issued, BOUND_EXCEEDED (R71). -/
def State.matTile (s : State) (j : Job) (p : Product) (acc : Bank (Option Nat)) (i : Nat) : State × Bank (Option Nat) :=
  let slot := j.slotIndex i
  let engine := j.slotEngine slot
  let k := engKey (j.w.die % 2) engine
  let e := s.eng k
  let tile := if e.lastTile = some 0 then 1 else 0
  let d := j.matrixBytes p tile i
  let m := matrixD d
  let fill := j.fillBytes (m.rows + m.cols) p.len
  let one := s.drawBudget j slot 0x01 engine d 1
  let two := one.1.drawBudget j 12 0x11 engine fill (sourceBytes 0x11 fill)
  if (one.2 && two.2) = false then (s.boundExceeded, acc)
  else
    let s := two.1
    let s := s.setEng k { s.eng k with lastTile := some tile }
    if s.runsVoid k ⟨d, false, 0, 0, 0, 0⟩ then (s.setObj (oTileStatus k tile) (2 ^ 33), acc)
    else
      let tc := max 1 (ceilDiv p.cols 64)
      let x := (upto m.blocks).foldl (fun x b =>
        enterBlock s m x (seqPanel j.g p.fa p.rows p.len (64 * (i / tc)) (16 * b))
          (seqPanel j.g p.fb p.cols p.len (64 * (i % tc)) (16 * b)) (min 16 (p.len - 16 * b)) b)
        (newTile m false)
      let s := s.overflowIf (x.cells.any (fun e => e.2.overflowed)) 0x02 m.tensor
      let r := (upto m.rows).foldl (fun (a : State × Bank (Option Nat)) r =>
        let cs := a.1.drainRow m x 0 (a.1.scaleOf m.tensor) r
        (a.1.drainReports m x cs r false,
         cs.zipIdx.foldl (fun b c => Bank.set b none (p.place (64 * (i / tc) + r) (64 * (i % tc) + c.2)) (some c.1.bits))
           a.2)) (s, acc)
      let s := r.1.setObj (oTileStatus k tile) (tileStatus x)
      let v : VerdictDue := ⟨1, k / 96, k % 96, s.stepNow, s.step.attempt, s.now, d, 0xFFFF,
        { tileChecks x with blocks := (strikeTerms [] x).blocks }⟩
      ({ s with verdicts := s.verdicts ++ [v] }, r.2)

/-- A product drained into its array: in whole lines when every tile gave its elements, element by element past the
tiles that gave nothing. -/
def State.drainProduct (s : State) (p : Product) (xs : Bank (Option Nat)) : State :=
  let ys := (upto (p.rows * p.cols)).map (fun i => Bank.get xs none i)
  if ys.all (fun y => y.isSome) then s.storeBy .engine p.addr (ys.flatMap (fun y => natLe 4 (y.getD 0)))
  else xs.foldl (fun s e => match e.2 with
    | some v => s.storeBy .engine (p.addr + 4 * e.1) (natLe 4 v)
    | none => s) s

/-- A product run tile by tile and drained. -/
def State.matMul (s : State) (j : Job) (p : Product) : State :=
  let narrow := fun (f : Nat → Nat → Nat) (n : Nat) =>
    (upto n).any (fun r => (upto p.len).any (fun k => matOverflow j.g (f r k)))
  let s := s.overflowIf (narrow p.fa p.rows || narrow p.fb p.cols) 0x01 0
  let r := (upto (ceilDiv p.rows 64 * ceilDiv p.cols 64)).foldl (fun x i => x.1.matTile j p x.2 i) (s, [])
  r.1.drainProduct p r.2

/-- Pass 1 (R243): m′ into the shadow half, ν, and X0 into SCRATCH_ADDR. -/
def State.passOne (s : State) (j : Job) : State :=
  let x := s.shard j.w.num
  let r := s.elemsIn j 0 ((upto j.w.elements).map (fun e => Bank.get x.grads 0 e))
  let ms := r.2.zipIdx.map (fun e => momentOne j.g e.1 (bits (r.1.updDraw j e.2) 24 24))
  let s := r.1.updWrite j.sh.optRegion j.sh.mOff 0 (ms.map (fun m => m.bits))
  let vs := ms.map (fun m => fmtFp32.decode m.bits)
  let sum := vs.foldl (fun (a : Ex) v => a.add (v.toEx.mul v.toEx)) Ex.zero
  let total := if vs.all (fun v => v.isNum) then fmtFp32.rne sum false
    else if vs.any (fun v => v.isNan) then fmtFp32.canonNan else fmtFp32.infBits false
  let nu := fmtFp32.add (fmtFp32.sqrt total) (j.g.c 7)
  let x0 := ms.map (fun m => fmtFp32.div m.bits nu)
  let bad := ms.any (fun m => m.bad) || (nu :: x0).any (fun b => (fmtFp32.decode b).isNan)
  let s := (s.overflowIf bad 0x04 j.info).storeBy .update (j.xAddr 0) (x0.flatMap (natLe 4))
  s.setShard j.w.num { s.shard j.w.num with state := 3, iteration := 0, phase := 0, carry := [] }

/-- P = a·I + b·A + c·A2, each element by the update adder, rounded once by RNE, into the scratch area (R243). -/
def State.passP (s : State) (j : Job) : State :=
  let n := j.n
  let a := s.loadWords .update (j.squareAddr 0) (n * n)
  let a2 := a.1.loadWords .update (j.squareAddr 1) (n * n)
  let ys := (a.2.zip a2.2).zipIdx.map (fun e =>
    let diag := if e.2 / n = e.2 % n then fmtFp32.decode (j.g.c 9) else .num false 0 0
    added [diag, prod (j.g.c 10) e.1.1, prod (j.g.c 11) e.1.2] .rne 0)
  let s := (a2.1.overflowIf (ys.any (fun y => y.bad)) 0x04 j.info).storeBy .update (j.squareAddr 2)
    (ys.flatMap (fun y => natLe 4 y.bits))
  s.setShard j.w.num { s.shard j.w.num with phase := 3, carry := [] }

/-- The product of a phase of an iteration, its operands still to be read: A, A2 or X. -/
def Job.phaseShape (j : Job) (phase iteration : Nat) : Product :=
  let none_ := fun (_ _ : Nat) => 0
  let n := j.n
  if phase = 0 then ⟨n, n, j.k, none_, none_, j.squareAddr 0, fun i k => i * n + k⟩
  else if phase = 1 then ⟨n, n, n, none_, none_, j.squareAddr 1, fun i k => i * n + k⟩
  else ⟨n, j.k, n, none_, none_, j.xAddr (iteration + 1), j.place⟩

/-- The product that a phase of an iteration runs, its operands read from the scratch area (R243): A = X·Xᵀ, A2 = A·A
and X ← P·X, on Xᵀ when r > c. -/
def State.phaseProduct (s : State) (j : Job) : State × Product :=
  let x := s.shard j.w.num
  let n := j.n
  let square := fun (xs : List Nat) (i k : Nat) => xs.getD (i * n + k) 0
  let shape := j.phaseShape x.phase x.iteration
  if x.phase = 0 then
    let l := s.loadWords .engine (j.xAddr x.iteration) j.w.elements
    let f := fun i k => l.2.getD (j.place i k) 0
    (l.1, { shape with fa := f, fb := f })
  else if x.phase = 1 then
    let l := s.loadWords .engine (j.squareAddr 0) (n * n)
    (l.1, { shape with fa := square l.2, fb := fun c k => square l.2 k c })
  else
    let l := s.loadWords .engine (j.squareAddr 2) (n * n)
    let y := l.1.loadWords .engine (j.xAddr x.iteration) j.w.elements
    (y.1, { shape with fa := square l.2, fb := fun c k => y.2.getD (j.place k c) 0 })

/-- One phase of the iteration: A, A2, P, X ← P·X, each after every drain of the one before it; after NS_K iterations
pass 2 follows (R243, R244). -/
def State.iterate (s : State) (j : Job) : State :=
  let x := s.shard j.w.num
  if x.phase = 2 then s.passP j
  else
    let p := s.phaseProduct j
    let s := p.1.matMul j p.2
    let y := s.shard j.w.num
    let it := x.iteration + 1
    s.setShard j.w.num (if x.phase < 2 then { y with phase := x.phase + 1, carry := [] }
      else { y with phase := 0, carry := [], iteration := it, state := if j.g.iterations ≤ it then 4 else 3 })

/-- What the beat that ends leaves unspent of the items on a shard's borrowed slots, kept for the rest of the phase: the
sequencer issues over the beats of the phase (assumption 42). -/
def State.bankShard (s : State) (j : Job) : State :=
  let x := s.shard j.w.num
  if j.g.shape ≠ 3 ∨ x.state ≠ 3 then s
  else
    let p := j.phaseShape x.phase x.iteration
    let die := j.w.die % 2
    let slots := setBitsOf 12 j.sh.borrow
    let d := j.matrixBytes p 0 0
    let carry := slots.foldl (fun b u => Bank.set b 0 u (Bank.get b 0 u + s.unspent 0x01 die (j.slotEngine u) d)) x.carry
    let port := s.unspent 0x11 die (j.slotEngine 0) []
    s.setShard j.w.num { x with carry := Bank.set carry 0 12 (Bank.get carry 0 12 + port) }

/-- Every iterating shard's budget kept at a boundary. -/
def State.bankShards (s : State) : State := s.jobs.foldl State.bankShard s

/-- Pass 2: w′ with d = X_k, then the gathers. -/
def State.passTwo (s : State) (j : Job) : State :=
  let x := s.shard j.w.num
  let l := s.loadWords .update (j.xAddr x.iteration) j.w.elements
  let s := l.1.updRun j (l.1.groupCount j.g.num) 0
    (l.2.zipIdx.map (fun e => (Bank.get x.grads 0 e.2, e.1)))
  (s.expectUpdate j).shardWritten j

/-- SHARD_PHASE_DONE (R243, R244): a phase of a MATRIX shard's update ends. -/
def execShardPhaseDone (window : W16) (s : State) : Host.Outcome State Fault Refusal :=
  let s := s.quiet
  match s.job? window.toNat with
  | none => .next s
  | some j =>
    let st := (s.shard j.w.num).state
    if j.g.shape ≠ 3 then .next s
    else if st = 2 then .next (s.passOne j)
    else if st = 3 then .next (s.iterate j)
    else if st = 4 then .next (s.passTwo j)
    else .next s

/-! ### Guards (R258, Table 10-7) -/

/-- Every shard WAITING at the guard that opens a step's first beat. -/
def State.shardsWait (s : State) : State :=
  s.jobs.foldl (fun s j => s.setShard j.w.num { ShardSt.init with state := 1 })
    { s with sums := [], delivered := [] }

/-- Every shard IDLE after a POISONED verdict, nothing counted. -/
def State.shardsDiscard (s : State) : State := { s with shards := [], sums := [], delivered := [] }

/-- The record of a group at a commit, and its ratio event (R208, R209). -/
def State.publishGroup (s : State) (g : Nat) : State :=
  let x := s.sum g
  let old := Bank.get s.records GroupRec.zero g
  match s.watchOf g with
  | some w =>
    if w.watch then
      let r := ratioOf x
      let low := fmtFp32.lt r w.low
      let high := fmtFp32.lt w.high r || (fmtFp32.decode r).isNan
      let run := if low || high then satNat 16 (old.run + 1) else 0
      let due := (low || high) && decide (w.persist ≤ run) && !old.raised
      let rec1 : GroupRec :=
        ⟨r, x.under, s.stepNow, run, b2n low + 2 * b2n high + 4, (low || high) && (old.raised || due)⟩
      let s := { s with records := Bank.set s.records GroupRec.zero g rec1 }
      if due then
        let s := (s.bump oRatioEventCount).setObj oLastRatioEvent
          (g + b2n high * 2 ^ 16 + s.stepNow * 2 ^ 32)
        s.raise (if high then .updateRatioHigh else .updateRatioLow)
      else s
    else { s with records := Bank.set s.records GroupRec.zero g ⟨0, x.under, s.stepNow, 0, 0, false⟩ }
  | none => { s with records := Bank.set s.records GroupRec.zero g ⟨0, x.under, s.stepNow, 0, 0, false⟩ }

/-- The groups that the served shards of the plan update. -/
def State.servedGroups (s : State) : List Nat :=
  s.jobs.foldl (fun a j => insertSorted j.g.num a) []

/-- The commit of the update engines (R258): GROUP_T one higher, records published, elements counted. -/
def State.groupsCommit (s : State) : State :=
  let gs := s.servedGroups
  let n := gs.foldl (fun a g => a + (s.sum g).elements) 0
  let s := gs.foldl (fun s g =>
    ({ s with groupT := Bank.set s.groupT 0 g ((Bank.get s.groupT 0 g + 1) % 2 ^ 32) }).publishGroup g) s
  { s.addObj oElementsCommitted n with sums := [] }

/-! ### Acknowledgements -/

/-- ACK (R351): what it acknowledges may be the last gather WRITE of a shard (R256). -/
def execAck (p : Packet) (s : State) : Host.Outcome State Fault Refusal :=
  let s := s.quiet
  let f := s.flow p.flow.toNat
  let epoch := match s.activePlan with | some q => q.id % 256 | none => 256
  if headOk 0x0A p = false ∨ p.noFlow = true then .next s.badHead
  else if p.epoch.toNat ≠ epoch ∨ f.state ≠ 1 ∨
      (if f.host then p.srcHost else !p.srcHost && f.peer == p.src.toNat) = false then .next s.badHead
  else .next (s.takeAck p).settleShards.pumpSnapshot

end Sys2Proof.Machine
end

