-- ==== Sys2Proof/Machine/PlanFormat.lean ====
section
/-! DEFINITION. The first checks of admission: the form of the plan blob and of each of its sections
(PLAN_FORMAT), the counts (PLAN_LIMIT) and the place fields (BAD_PLACE_FIELD), in the order of
Table 03-10 and within one code in the order of the sections. -/

namespace Sys2Proof.Machine

/-- Why a plan is refused: REASON and the other fields of 0x2021 (R81, R482). -/
structure PlanFault where
  reason : Nat
  stepBeat : Nat
  program : Nat
  resource : Nat
  excess : Nat
  detail : Nat
deriving DecidableEq, Repr

/-- A check's outcome: nothing found, or the fault. -/
abbrev Check := Option PlanFault

/-- A fault that names a section and an entry. -/
def faultAt (reason section_ entry : Nat) : PlanFault :=
  ⟨reason, 0xFFFFFFFF, 0xFFFF, 0, 0, section_ * 65536 + entry % 65536⟩

/-- A fault that names nothing. -/
def faultOnly (reason : Nat) : PlanFault := ⟨reason, 0xFFFFFFFF, 0xFFFF, 0, 0, 0⟩

/-- The fault `f` unless the condition holds. -/
def need (ok : Bool) (f : PlanFault) : Check := if ok then none else some f

/-- The first entry of a list that fails `ok`, as a fault of a section. -/
def needAll {α : Type} (reason section_ : Nat) (xs : List α) (ok : α → Bool) : Check :=
  xs.zipIdx.findSome? (fun e => need (ok e.1) (faultAt reason section_ e.2))

/-- The first entry of a list that does not go with an earlier one, as a fault of a section; entries carry their
indices in the section. -/
def needPairs {α : Type} (reason section_ : Nat) (xs : List (α × Nat)) (ok : α → α → Bool) : Check :=
  xs.zipIdx.findSome? (fun e => need ((xs.take e.2).all (fun y => ok y.1 e.1.1)) (faultAt reason section_ e.1.2))

/-- No number stands twice in a list. -/
def needDistinct (reason section_ : Nat) (xs : List Nat) : Check :=
  needPairs reason section_ xs.zipIdx (fun x y => x != y)

/-- The numbers of a list rise strictly. -/
def needRising (reason section_ : Nat) (xs : List Nat) : Check :=
  needPairs reason section_ xs.zipIdx (fun x y => decide (x < y))

/-- The first check that finds a fault. -/
def firstFault : List Check → Check
  | [] => none
  | some f :: _ => some f
  | none :: cs => firstFault cs

/-- The reason codes of Table 03-10 that several checks give. -/
def planFormat : Nat := 0x0201
def planLimit : Nat := 0x0202
def featureNotAgreed : Nat := 0x0104
def linkNotMatch : Nat := 0x0301
def circuitInvalid : Nat := 0x0304
def laneReserveExceeded : Nat := 0x0305
def regionInvalid : Nat := 0x0306
def capacityExceeded : Nat := 0x0307
def engineUnavailable : Nat := 0x0308
def treeInvalid : Nat := 0x0309
def resourceOver : Nat := 0x0401
def deadlineInvalid : Nat := 0x0407

/-- `n` bytes at `off` are zero. -/
def zeroAt (e : Bytes) (off n : Nat) : Bool := fieldLe e off n == 0

/-- A number between two bounds. -/
def between (lo x hi : Nat) : Bool := decide (lo ≤ x) && decide (x ≤ hi)

/-- No number stands twice in a list. -/
def noRepeat (xs : List Nat) : Bool := xs.eraseDups.length == xs.length

/-- The numbers of a list rise strictly. -/
def rising : List Nat → Bool
  | [] => true
  | [_] => true
  | x :: y :: r => decide (x < y) && rising (y :: r)

/-! ### Header and directory (R68, R69, R480) -/

/-- The header (Table 03-4). -/
def headerOk (bs : Bytes) : Bool :=
  decide (64 ≤ bs.length) && fieldLe bs 0 4 == 0x0960504C && fieldLe bs 4 2 == 1 &&
  fieldLe bs 8 4 == bs.length && zeroAt bs 12 4 && zeroAt bs 26 6 && zeroAt bs 48 16 &&
  decide (64 + 16 * fieldLe bs 6 2 ≤ bs.length)

/-- A directory entry: a known type, 8-byte aligned, after the directory and inside the blob. -/
def dirEntryOk (bs : Bytes) (e : DirEntry) : Bool :=
  between 1 e.type 0x0F && e.flags == 0 && e.offset % 8 == 0 &&
  decide (64 + 16 * fieldLe bs 6 2 ≤ e.offset) && decide (e.offset + e.length ≤ bs.length)

/-- Two directory entries of different types that do not overlap. -/
def apart (a b : DirEntry) : Bool :=
  a.type != b.type && (decide (a.offset + a.length ≤ b.offset) || decide (b.offset + b.length ≤ a.offset))

/-- Every entry is apart from every later one. -/
def allApart : List DirEntry → Bool
  | [] => true
  | e :: es => es.all (apart e) && allApart es

/-- The sections that every plan holds (Table 03-5). -/
def requiredSections : List Nat := [0x01, 0x04, 0x05, 0x06, 0x07, 0x0A, 0x0B]

/-- The COUNT of a directory entry (R480): a count of entries of fixed size agrees with LENGTH, and the
sections with a header of their own, TIMING and SEED count 1; the counts of PROGRAMS and WINDOWS are held
against their entries. -/
def countOk (e : DirEntry) : Bool :=
  if e.type = 0x05 then true
  else if e.type = 0x06 then e.length == 2 * e.count
  else if e.type = 0x07 then e.length == 32 * e.count
  else if e.type = 0x03 then e.length == 8 * e.count
  else if e.type = 0x0E then decide (96 * e.count ≤ e.length)
  else e.count == 1

/-- The directory as a whole. -/
def directoryFault (bs : Bytes) : Check :=
  let d := directory bs
  firstFault [
    need (d.all (dirEntryOk bs) && allApart d) (faultOnly planFormat),
    need (requiredSections.all (fun t => d.any (fun e => e.type == t))) (faultOnly planFormat),
    d.findSome? (fun e => need (countOk e) (faultAt planFormat e.type 0))]

/-! ### The sections' forms -/

/-- TIMING (Table 03-6). -/
def timingOk (b : Bytes) (beats : Nat) : Bool :=
  b.length == 32 && fieldLe b 0 4 == beats && decide (1 ≤ fieldLe b 8 4) &&
  fieldLe b 16 4 / 2 == 0 && zeroAt b 20 12

/-- The bytes that `n` beat programs take, none where they run past the section (R70). -/
def programsLength : Nat → Bytes → Option Nat
  | 0, _ => some 0
  | n + 1, b =>
    let k := 8 + 16 * fieldLe b 0 2
    if b.length < k ∨ b.length < 8 then none else (programsLength n (b.drop k)).map (fun r => k + r)

/-- A number of a unit that an item kind names (Table 03-8): the die, stack or direction, and the unit. -/
def itemUnitOk (i : Item) : Bool :=
  if i.kind = 1 ∨ i.kind = 2 then decide (i.die < 2) && decide (i.unit < 96)
  else if i.kind = 3 then decide (i.die < 2) && decide (i.unit < 16)
  else if i.kind = 4 then decide (i.die < 2) && decide (i.unit < 2)
  else if i.kind = 5 ∨ i.kind = 6 then decide (i.die < 2) && i.unit == 0
  else if i.kind = 7 then decide (i.die < 2) && decide (i.unit < 8)
  else if i.kind = 8 then i.die == 0 && decide (i.unit < 24)
  else i.die == 0 && gateable i.unit

/-- The fields A, B and C of an item (Table 03-8). -/
def itemFieldsOk (i : Item) : Bool :=
  if i.kind = 1 then
    let f := i.b % 256
    let p := i.b / 256
    decide (f ≤ 4) && (if f = 4 then p == 3 || p == 6 else p == 1)
  else if i.kind = 2 then between 1 i.a 32 && i.c == 0
  else if i.kind = 3 ∨ i.kind = 4 then i.c == 0
  else if i.kind = 8 then i.c / 2 ^ 25 == 0 && (!bit i.c 24 || i.c % 2 ^ 24 == 0)
  else i.b == 0 && i.c == 0

/-- A beat program item (Tables 03-7 and 03-8; WAKE and GATE name a domain that a plan may gate, R434). -/
def itemOk (i : Item) : Bool :=
  between 1 i.kind 10 && decide (i.flags < 8) && itemUnitOk i && itemFieldsOk i

/-- The reserved parts of each program's header. -/
def programHeadsOk : Nat → Bytes → Bool
  | 0, _ => true
  | n + 1, b => decide (fieldLe b 4 2 < 4) && zeroAt b 6 2 &&
      programHeadsOk n (b.drop (8 + 16 * fieldLe b 0 2))

/-- PROGRAMS: the programs' lengths make up the section, and every item is well formed (R69, R70). -/
def programsFault (bs : Bytes) (pl : Plan) : Check :=
  match dirOf bs 0x05 with
  | none => none
  | some e =>
    let b := sectionOf bs 0x05
    firstFault [
      need (decide (e.count * 8 ≤ b.length) && programsLength e.count b == some b.length &&
        programHeadsOk e.count b) (faultAt planFormat 0x05 0),
      pl.programs.zipIdx.findSome? (fun p => p.1.items.zipIdx.findSome? (fun i =>
        need (itemOk i.1)
          { faultAt planFormat 0x05 i.2 with program := p.2 % 65536 }))]

/-- STEP_LIST: at least one beat, and programs that exist (R69). -/
def stepListFault (pl : Plan) : Check :=
  firstFault [
    need (decide (1 ≤ pl.stepList.length)) (faultAt planFormat 0x06 0),
    needAll planFormat 0x06 pl.stepList (fun i => decide (i < pl.programs.length))]

/-- PLACES (R334). -/
def placesFault (b : Bytes) (pl : Plan) : Check :=
  let n := fieldLe b 0 2
  let f := fieldLe b 4 4
  let ends := fun (x : Fibre) => [x.placeA * 256 + x.portA, x.placeB * 256 + x.portB]
  let known := fun (x : Nat) => pl.places.any (fun e => e.place == x)
  firstFault [
    need (decide (8 ≤ b.length) && decide (1 ≤ n) && zeroAt b 2 2 &&
      decide (8 + 16 * n + 8 * f ≤ b.length)) (faultAt planFormat 0x01 0),
    needAll planFormat 0x01 (pieces b 8 16 pl.places.length) (fun e => zeroAt e 2 6),
    needAll planFormat 0x01 (pieces b (8 + 16 * n) 8 pl.fibres.length) (fun e =>
      zeroAt e 3 1 && zeroAt e 7 1 && decide (fieldLe e 2 1 < 24) && decide (fieldLe e 6 1 < 24)),
    needDistinct planFormat 0x01 (pl.places.map (fun e => e.place)),
    needDistinct planFormat 0x01 (pl.places.map (fun e => e.digest)),
    needAll planFormat 0x01 pl.fibres (fun x => noRepeat (ends x)),
    needPairs planFormat 0x01 pl.fibres.zipIdx (fun x y => (ends x).all (fun p => !(ends y).contains p)),
    needAll planFormat 0x01 pl.fibres (fun x => known x.placeA && known x.placeB)]

/-- A circuit entry names a module as source, sink or intermediate. -/
def circuitNames (me : Nat) (c : Circuit) : Bool :=
  c.src == me || c.dst == me || (decide (1 ≤ c.hops) && c.x1 == me) || (decide (2 ≤ c.hops) && c.x2 == me)

/-- The fields of a circuit entry, its hops apart (Table 12-4). -/
def circuitFormOk (maps : Nat) (e : Bytes) (c : Circuit) : Bool :=
  decide (c.map < maps) && decide (c.lane < 8) && zeroAt e 3 1 && zeroAt e 20 12 &&
  decide (c.srcPort < 24) && decide (c.dstPort < 24) && decide (c.x1in < 24) && decide (c.x1out < 24) &&
  decide (c.x2in < 24) && decide (c.x2out < 24) && (c.hops != 0 || c.x1 == 0) &&
  (decide (2 ≤ c.hops) || c.x2 == 0)

/-- CIRCUITS (R289, Table 12-6 first row). -/
def circuitsFault (b : Bytes) (present : Bool) (pl : Plan) (me : Nat) : Check :=
  if present then
    let nc := fieldLe b 4 4
    let ns := fieldLe b 8 4
    firstFault [
      need (decide (16 ≤ b.length) && between 1 (fieldLe b 0 1) 16 && zeroAt b 1 3 && zeroAt b 12 4 &&
        between 1 nc 262144 && decide (ns ≤ 4096) && decide (16 + 32 * nc + 8 * ns ≤ b.length))
        (faultAt planFormat 0x02 0),
      needAll planFormat 0x02 ((pieces b 16 32 pl.circuits.length).zip pl.circuits) (fun e =>
        !circuitNames me e.2 || circuitFormOk pl.maps e.1 e.2),
      needAll planFormat 0x02 ((pieces b (16 + 32 * nc) 8 pl.schedule.length).zip pl.schedule) (fun e =>
        zeroAt e.1 5 3 && decide (e.2.map < pl.maps) && decide (e.2.stepBeat < pl.timing.stepBeats)),
      needRising planFormat 0x02 (pl.schedule.map (fun e => e.stepBeat))]
  else none

/-- LANE_RESERVE (R323 first row). -/
def reservesFault (b : Bytes) (pl : Plan) : Check :=
  firstFault [
    needAll planFormat 0x03 (pieces b 0 8 pl.reserves.length) (fun e =>
      decide (fieldLe e 2 1 < 24) && decide (fieldLe e 3 1 < 2) && decide (fieldLe e 4 1 < 8) && zeroAt e 5 3),
    needDistinct planFormat 0x03 (pl.reserves.map (fun e => (e.place * 256 + e.port) * 2 + e.dir))]

/-- REGIONS: reserved fields (R69). -/
def regionsFormFault (b : Bytes) (pl : Plan) : Check :=
  needAll planFormat 0x07 (pieces b 0 32 pl.regions.length) (fun e => zeroAt e 3 5 && zeroAt e 24 8)

/-! ### GROUPS (R245 to R249) -/

/-- FP32 bits that are a number. -/
def f32Finite (b : Nat) : Bool := bits b 23 8 != 255

/-- FP32 bits of a value in [0, 1). -/
def inUnit (b : Nat) : Bool := b == 0x80000000 || decide (b < 0x3F800000)

/-- FP32 bits of a value of at least 1. -/
def atLeastOne (b : Nat) : Bool := between 0x3F800000 b 0x7F800000

/-- FP32 bits of a value above 0. -/
def aboveZero (b : Nat) : Bool := between 1 b 0x7F800000

/-- The bits of the integers 1 to 16 in FP32. -/
def nsCounts : List Nat := (upto 16).map (fun i => fmtFp32.ofInt (Int.ofNat (i + 1)))

/-- A group entry's fields (Table 10-3, Table 10-5 first row). -/
def groupOk (points : List SchedPoint) (e : Bytes) (g : Group) : Bool :=
  let isMatrix := g.shape == 3
  let engine := bit g.flags 0
  let pts := (points.drop g.pointFirst).take g.points
  decide (g.num < 1024) && decide (g.shape < 4) && decide (g.flags < 8) && g.wTensor / 2 ^ 24 == 0 &&
  g.coef.all f32Finite && (g.coef.drop 13).all (fun c => c == 0) &&
  decide (g.schedKind < 32) && decide (g.schedKind % 4 < 3) &&
  (if isMatrix then decide (g.matFormat < 2) && (if g.matFormat = 1 then g.matPasses == 1
      else g.matPasses == 3 || g.matPasses == 6) else g.matFormat == 0 && g.matPasses == 0) &&
  (!isMatrix || nsCounts.contains (g.coef.getD 12 0)) &&
  (g.shape != 1 || (inUnit (g.coef.getD 0 0) && inUnit (g.coef.getD 1 0))) &&
  (if engine then g.points == 0 else between 1 g.points 4096 && decide (g.pointFirst + g.points ≤ points.length) &&
      rising (pts.map (fun p => p.x))) &&
  (g.schedKind % 4 != 2 || aboveZero g.etaStart) && decide (1 ≤ g.decay) && atLeastOne g.cycleMult &&
  zeroAt e 113 15

/-- The shards that a place serves: those whose windows it owns (R249). -/
def servedShards (pl : Plan) (me : Nat) : List Shard :=
  pl.shards.filter (fun x => pl.windows.any (fun w => w.num == x.window && w.owner == me))

/-- The window that feeds a shard. -/
def windowOfShard (pl : Plan) (x : Shard) : Option Window := pl.windows.find? (fun w => w.num == x.window)

/-- The group of a number. -/
def groupOf (pl : Plan) (n : Nat) : Option Group := pl.groups.find? (fun g => g.num == n)

/-- A shard entry's fields (Table 10-4, Table 10-5 first row). -/
def shardOk (gathers : Nat) (e : Bytes) (g : Option Group) (x : Shard) : Bool :=
  let shape := (g.map (fun g => g.shape)).getD 0
  let none32 := 0xFFFFFFFF
  let copy := bit x.flags 0
  decide (x.unit < 2) && decide (x.flags < 2) && (if copy then between 1 x.copyFormat 9 else x.copyFormat == 0) &&
  (x.copyRound == 0 || x.copyRound == 2) && x.firstElement / 2 ^ 44 == 0 && zeroAt e 50 6 &&
  decide (x.gatherN ≤ 64) && decide (x.gatherFirst + x.gatherN ≤ gathers) &&
  (copy || x.copyOff == none32) && (!copy || x.copyOff != none32) &&
  (match g with
   | some g => (if g.touched then x.rowOff != none32 else x.rowOff == none32)
   | none => true) &&
  (if shape = 3 then x.borrow / 2 ^ 15 == 0 && x.scratch % 64 == 0 else x.scratch == 0) &&
  (shape != 1 || (x.mOff != none32 && x.vOff != none32)) &&
  (decide (shape < 2) || x.mOff != none32)

/-- A gather entry's fields: FORMAT is FP32 or the shard's copy format (R248). -/
def gatherOk (e : Bytes) (x : Shard) (g : Gather) : Bool :=
  zeroAt e 3 1 && zeroAt e 6 2 && (g.format == 0 || (bit x.flags 0 && g.format == x.copyFormat))

/-- GROUPS (Table 10-5, PLAN_FORMAT). -/
def groupsFault (b : Bytes) (present : Bool) (pl : Plan) (me : Nat) : Check :=
  if present then
    let ng := fieldLe b 0 2
    let ns := fieldLe b 2 2
    let na := fieldLe b 4 4
    let np := fieldLe b 8 4
    let oSh := 16 + 128 * ng
    let oGa := oSh + 64 * ns
    let served := servedShards pl me
    firstFault [
      need (decide (16 ≤ b.length) && decide (1 ≤ ng) && zeroAt b 12 4 &&
        decide (oGa + 16 * na + 8 * np ≤ b.length)) (faultAt planFormat 0x08 0),
      needAll planFormat 0x08 ((pieces b 16 128 pl.groups.length).zip pl.groups) (fun e =>
        groupOk pl.points e.1 e.2),
      needDistinct planFormat 0x08 (pl.groups.map (fun g => g.num)),
      needAll planFormat 0x08 ((pieces b oSh 64 pl.shards.length).zip pl.shards) (fun e =>
        !served.contains e.2 || shardOk pl.gathers.length e.1 (groupOf pl e.2.group) e.2),
      needAll planFormat 0x08 ((pieces b oGa 16 pl.gathers.length).zip pl.gathers.zipIdx) (fun e =>
        served.all (fun x => !(decide (x.gatherFirst ≤ e.2.2) && decide (e.2.2 < x.gatherFirst + x.gatherN)) ||
          gatherOk e.1 x e.2.1))]
  else none

/-! ### RECIPE (R195, R197) -/

/-- A kind entry (Table 08-4): a format that Table 04-3 allows as a store result; LOSS_SCALE on a float
format only. -/
def kindOk (e : Bytes) (k : KindEntry) : Bool :=
  let formatOk := fun (f : Nat) => decide (f ≤ 9)
  between 1 k.kind 7 && formatOk k.format && (k.altFormat == 0xFF || formatOk k.altFormat) &&
  decide (k.modes < 16) && decide (k.modes % 4 < 3) && decide (k.modes / 4 < 2) &&
  decide (-256 ≤ k.anchor) && decide (k.anchor ≤ 255) && decide (-1 ≤ k.lossScale) && decide (k.lossScale ≤ 1) &&
  (k.lossScale == 0 || (fmtOfCode k.format).isSome) && zeroAt e 7 1

/-- A ratio-watch group entry (Table 08-5). -/
def watchOk (e : Bytes) (w : WatchEntry) : Bool :=
  decide (w.group < 1024) && decide (w.lrShift ≤ 64) && decide (fieldLe e 3 1 < 2) &&
  decide (w.low < 0x7F800000) && between 1 w.high 0x7F800000 && between 1 w.persist 1000 && zeroAt e 14 2

/-- The header's fields (Table 08-3). -/
def recipeHeadOk (b : Bytes) (r : Recipe) : Bool :=
  decide (64 ≤ b.length) && decide (fieldLe b 0 1 ≤ 8) && decide (r.lossSourceKind ≤ 2) && zeroAt b 2 2 &&
  decide (fieldLe b 4 4 ≤ 65536) && decide (fieldLe b 8 2 ≤ 1024) &&
  decide (-32 ≤ r.lsMin) && decide (r.lsMin ≤ 64) && decide (r.lsMin ≤ r.lsMax) && decide (r.lsMax ≤ 64) &&
  decide (r.lsMin ≤ r.startExp) && decide (r.startExp ≤ r.lsMax) && decide (1 ≤ r.growthInterval) &&
  decide (r.startRun < r.growthInterval) && between 1 r.backoff 8 && between 1 r.growth 8 &&
  between 1 r.overflowLimit 64 && zeroAt b 23 1 && zeroAt b 32 32 &&
  (r.lossSourceKind == 0 || decide (r.lossSource < 2 ^ 48)) && (r.lossSourceKind != 2 || r.lossSource % 4 == 0)

/-- RECIPE. -/
def recipeFault (b : Bytes) (present : Bool) (r : Recipe) : Check :=
  if present then
    let nk := fieldLe b 0 1
    let nt := fieldLe b 4 4
    let ng := fieldLe b 8 2
    let offG := align8 (64 + 8 * nk + 4 * nt)
    firstFault [
      need (recipeHeadOk b r && decide ((if ng = 0 then 64 + 8 * nk + 4 * nt else offG + 16 * ng) ≤ b.length))
        (faultAt planFormat 0x09 0),
      needAll planFormat 0x09 ((pieces b 64 8 r.kinds.length).zip r.kinds) (fun e => kindOk e.1 e.2),
      needAll planFormat 0x09 ((pieces b offG 16 r.groups.length).zip r.groups) (fun e => watchOk e.1 e.2),
      needAll planFormat 0x09 r.tensors (fun t => decide (t.kind ≤ 7)),
      needDistinct planFormat 0x09 (r.kinds.map (fun k => k.kind)),
      needDistinct planFormat 0x09 (r.tensors.map (fun t => t.id)),
      needDistinct planFormat 0x09 (r.groups.map (fun g => g.group))]
  else none

/-! ### Trees, buddies, windows and queues -/

/-- CLEAN_TREE's header and entries (R386). -/
def cleanFormFault (b : Bytes) (t : Tree) : Check :=
  firstFault [
    need (decide (8 + 8 * t.count ≤ b.length) && zeroAt b 5 3) (faultAt planFormat 0x0B 0),
    needAll planFormat 0x0B (pieces b 8 8 t.entries.length) (fun e =>
      zeroAt e 3 5 && (decide (fieldLe e 2 1 < 24) || fieldLe e 2 1 == 0xFF))]

/-- ESCAPE_TREE's header and entries (R339, R69). -/
def escapeFormFault (b : Bytes) (present : Bool) (t : Tree) : Check :=
  if present then firstFault [
    need (decide (8 + 8 * t.count ≤ b.length) && zeroAt b 4 4) (faultAt planFormat 0x0D 0),
    needAll planFormat 0x0D (pieces b 8 8 t.entries.length) (fun e =>
      zeroAt e 3 5 && (decide (fieldLe e 2 1 < 24) || fieldLe e 2 1 == 0xFF))]
  else none

/-- A buddy entry's fields (Table 16-2): unused region entries read 0xFFFF. -/
def buddyFormOk (e : Bytes) : Bool :=
  between 1 (fieldLe e 10 1) 8 && zeroAt e 11 5 &&
  ((pieces e 16 2 8).drop (fieldLe e 10 1)).all (fun x => leNat x == 0xFFFF) &&
  ((pieces e 16 2 8).take (fieldLe e 10 1)).all (fun x => decide (leNat x < 4096)) &&
  decide (fieldLe e 6 2 < 4096) && (decide (fieldLe e 8 2 < 4096) || fieldLe e 8 2 == 0xFFFF)

/-- BUDDY (R414, R415 first row): the entries in which the module is the source or the buddy. -/
def buddyFault (b : Bytes) (present : Bool) (pl : Plan) (me : Nat) : Check :=
  if present then
    let n := fieldLe b 0 2
    firstFault [
      need (decide (n ≤ 16384) && zeroAt b 2 6 && decide (8 + 40 * n ≤ b.length)) (faultAt planFormat 0x0C 0),
      needAll planFormat 0x0C ((pieces b 8 40 pl.buddies.length).zip pl.buddies) (fun e =>
        !(e.2.place == me || e.2.buddy == me) || buddyFormOk e.1),
      needAll planFormat 0x0C pl.buddies (fun e =>
        !(e.place == me || e.buddy == me) || (pl.buddies.filter (fun x => x.place == e.place)).length == 1)]
  else none

/-- The formats that Table 09-6 allows for a window. -/
def outFormatOk (w : Window) : Bool :=
  if w.sumMode = 0 then
    if w.outAction = 0 then [0, 1, 2, 0xA].contains w.outFormat else w.outFormat == 0
  else w.outAction == 0 && w.outFormat == 0

/-- What COUNT and MAX_PER_CHUNK hold (Table 09-1): a count table lies inside the section. -/
def windowCountOk (sectionLen : Nat) (w : Window) : Bool :=
  if w.countMode = 0 then between 1 w.count 65535 && w.maxPerChunk == 0
  else if w.countMode = 1 then decide (w.count + 4 * w.chunkCount ≤ sectionLen) && w.maxPerChunk == 0
  else between 1 w.count 16384

/-- The TOUCHED fields of a window. -/
def windowTouchedOk (w : Window) : Bool :=
  if w.touched then
    between 1 w.rowElements 65536 && w.elements % w.rowElements == 0 && w.touchedAddr % 64 == 0 && w.countMode != 0
  else w.rowElements == 0 && w.maxTouched == 0 && w.bitmapBase == 0 && w.touchedAddr == 0

/-- A window descriptor's fields (Tables 09-1 and 09-2, the rows of PLAN_FORMAT). -/
def windowOk (sectionLen : Nat) (e : Bytes) (w : Window) : Bool :=
  decide (w.sumMode < 3) && bits w.mode 2 2 == 2 && decide (w.countMode < 3) &&
  decide (w.outAction < 2) && decide (w.out < 128) && outFormatOk w && (w.sumMode == 0 || !(w.spill || w.touched)) &&
  decide (-256 ≤ w.anchor) && decide (w.anchor ≤ 255) && decide (w.die < 2) && zeroAt e 9 1 && w.mask != 0 &&
  (w.outAction == 1 || w.group == 0) &&
  between 1 w.elements (if w.spill then 268435456 else 5592405) && (!w.spill || w.base == 0) &&
  windowCountOk sectionLen w && decide (w.tensor < 2 ^ 24) && decide (w.outTensor < 2 ^ 24) &&
  windowTouchedOk w && zeroAt e 60 4 && zeroAt e 88 8 &&
  (if w.outAction = 0 then w.outAddr % 64 == 0 else w.outAddr == 0) &&
  (if w.spill then w.spillAddr % 64 == 0 else w.spillAddr == 0)

/-- WINDOWS. -/
def windowsFault (b : Bytes) (pl : Plan) : Check :=
  firstFault [
    needAll planFormat 0x0E ((pieces b 0 96 pl.windows.length).zip pl.windows) (fun e =>
      windowOk b.length e.1 e.2),
    needRising planFormat 0x0E (pl.windows.map (fun w => w.num))]

/-- A queue entry's fields (Table 14-9). -/
def queueOk (e : Bytes) (q : QueueEntry) : Bool :=
  let host := q.consumer == 0xFF
  decide (q.kind < 4) && (if q.kind = 0 then decide (q.consumer < 16) else host || decide (q.consumer < 16)) &&
  q.offset % 64 == 0 && between 16 q.entries 1048576 && q.entries == 2 ^ Nat.log2 q.entries &&
  (if host then q.region == 0xFFFF else q.flow == 0xFFFF) && zeroAt e 22 10

/-- A flow entry's fields (R362). -/
def flowOk (e : Bytes) (f : FlowEntry) : Bool :=
  decide (f.num < 4096) && decide (f.peerFlow < 4096) && decide (f.cls < 4) && decide (fieldLe e 9 1 < 2) &&
  [16, 32, 64, 128].contains f.window && (!f.host || f.peer == 0) && zeroAt e 11 5

/-- A core entry's fields (R362). -/
def coreOk (e : Bytes) (c : CoreEntry) : Bool := decide (c.core < 16) && zeroAt e 3 1 && zeroAt e 6 2

/-- QUEUES (R363 first row). -/
def queuesFault (b : Bytes) (present : Bool) (pl : Plan) : Check :=
  if present then
    let nq := fieldLe b 0 4
    let nf := fieldLe b 4 2
    let nc := fieldLe b 6 2
    firstFault [
      need (decide (8 + 32 * nq + 16 * nf + 16 * nc ≤ b.length)) (faultAt planFormat 0x0F 0),
      needAll planFormat 0x0F ((pieces b 8 32 pl.queues.length).zip pl.queues) (fun e => queueOk e.1 e.2),
      needAll planFormat 0x0F ((pieces b (8 + 32 * nq) 16 pl.flows.length).zip pl.flows) (fun e => flowOk e.1 e.2),
      needAll planFormat 0x0F ((pieces b (8 + 32 * nq + 16 * nf) 16 pl.cores.length).zip pl.cores) (fun e =>
        coreOk e.1 e.2),
      needDistinct planFormat 0x0F (pl.queues.map (fun q => q.place * 65536 + q.num)),
      needDistinct planFormat 0x0F (pl.flows.map (fun f => f.place * 65536 + f.num)),
      needDistinct planFormat 0x0F (pl.cores.map (fun c => c.place * 256 + c.core)),
      needPairs planFormat 0x0F (pl.queues.zipIdx.filter (fun e => e.1.kind == 2)) (fun p q => p.place != q.place)]
  else none

/-- LS_START_EXP and LS_START_RUN, where the host has set them, against the recipe (0x3110.03,
0x3110.04). -/
def State.lossStartOk (s : State) (r : Recipe) : Bool :=
  let e := s.obj oLsStartExp
  let n := s.obj oLsStartRun
  (e == 0x7FFF || (decide (r.lsMin ≤ toSigned 16 e) && decide (toSigned 16 e ≤ r.lsMax))) &&
  (n == 0xFFFFFFFF || decide (n < r.growthInterval))

/-! ### The three codes -/

/-- Every check whose reason is PLAN_FORMAT. -/
def State.formatFault (s : State) (bs : Bytes) (pl : Plan) : Check :=
  let me := s.place
  if headerOk bs then
    firstFault [
      directoryFault bs,
      placesFault (sectionOf bs 0x01) pl,
      circuitsFault (sectionOf bs 0x02) (dirOf bs 0x02).isSome pl me,
      reservesFault (sectionOf bs 0x03) pl,
      need (timingOk (sectionOf bs 0x04) pl.stepList.length) (faultAt planFormat 0x04 0),
      programsFault bs pl,
      stepListFault pl,
      regionsFormFault (sectionOf bs 0x07) pl,
      groupsFault (sectionOf bs 0x08) (dirOf bs 0x08).isSome pl me,
      recipeFault (sectionOf bs 0x09) (dirOf bs 0x09).isSome pl.recipe,
      need ((sectionOf bs 0x0A).length == 16) (faultAt planFormat 0x0A 0),
      cleanFormFault (sectionOf bs 0x0B) pl.clean,
      buddyFault (sectionOf bs 0x0C) (dirOf bs 0x0C).isSome pl me,
      escapeFormFault (sectionOf bs 0x0D) pl.hasEscape pl.escape,
      windowsFault (sectionOf bs 0x0E) pl,
      queuesFault (sectionOf bs 0x0F) (dirOf bs 0x0F).isSome pl,
      need (s.lossStartOk pl.recipe) (faultAt planFormat 0x09 0)]
  else some (faultOnly planFormat)

/-- Every check whose reason is PLAN_LIMIT: counts beyond a device limit. -/
def limitFault (bs : Bytes) (pl : Plan) : Check :=
  let gr := sectionOf bs 0x08
  let pc := sectionOf bs 0x01
  firstFault [
    need (decide (fieldLe pc 0 2 ≤ 16384) && decide (fieldLe pc 4 4 ≤ 196608)) (faultAt planLimit 0x01 0),
    need (decide (pl.programs.length ≤ 65536)) (faultAt planLimit 0x05 0),
    pl.programs.zipIdx.findSome? (fun p => need (decide (p.1.items.length ≤ 4096))
      { faultAt planLimit 0x05 0 with program := p.2 % 65536 }),
    need (decide (pl.stepList.length ≤ 1048576)) (faultAt planLimit 0x06 0),
    need (decide (fieldLe gr 0 2 ≤ 1024) && decide (fieldLe gr 2 2 ≤ 4096) && decide (fieldLe gr 4 4 ≤ 16384) &&
      decide (fieldLe gr 8 4 ≤ 262144)) (faultAt planLimit 0x08 0)]

/-- A place field with [15:14] zero (R14); 0xFFFF is no place where a field allows it. -/
def placeOk (x : Nat) : Bool := decide (x < 2 ^ 14)

/-- Every check whose reason is BAD_PLACE_FIELD. -/
def badPlaceFault (pl : Plan) : Check :=
  let r := 0x0203
  firstFault [
    needAll r 0x01 pl.places (fun e => placeOk e.place),
    needAll r 0x01 pl.fibres (fun f => placeOk f.placeA && placeOk f.placeB),
    needAll r 0x02 pl.circuits (fun c => placeOk c.src && placeOk c.dst && placeOk c.x1 && placeOk c.x2),
    needAll r 0x03 pl.reserves (fun e => placeOk e.place),
    pl.programs.zipIdx.findSome? (fun p => p.1.items.zipIdx.findSome? (fun i =>
      need (i.1.kind != 8 || placeOk (i.1.c % 65536)) { faultAt r 0x05 i.2 with program := p.2 % 65536 })),
    need (placeOk pl.clean.root) (faultAt r 0x0B 0),
    needAll r 0x0B pl.clean.entries (fun e => placeOk e.place),
    needAll r 0x0C pl.buddies (fun e => placeOk e.place && placeOk e.buddy),
    need (!pl.hasEscape || placeOk pl.escape.root) (faultAt r 0x0D 0),
    needAll r 0x0D pl.escape.entries (fun e => placeOk e.place),
    needAll r 0x0E pl.windows (fun w => placeOk w.owner),
    needAll r 0x0F pl.queues (fun q => placeOk q.place),
    needAll r 0x0F pl.flows (fun f => placeOk f.place && placeOk f.peer),
    needAll r 0x0F pl.cores (fun c => placeOk c.place)]

end Sys2Proof.Machine
end

