-- ==== Sys2Proof/Machine/Router.lean ====
section
/-! DEFINITION. Flit groups, retry and replay (R315 to R320), the routers (R335 to R340), the relay of lane C
frames, and management packets (R341, R347). -/

namespace Sys2Proof.Machine

/-! ### The ends of a data link -/

/-- The sending end of a data link, by port × 8 + lowest lane. -/
def State.txLink (s : State) (k : Nat) : TxLink := Bank.get s.txLinks TxLink.init k

/-- The sending end replaced. -/
def State.setTxLink (s : State) (k : Nat) (t : TxLink) : State :=
  { s with txLinks := Bank.set s.txLinks TxLink.init k t }

/-- The receiving end of a data link. -/
def State.rxLink (s : State) (k : Nat) : RxLink := Bank.get s.rxLinks RxLink.init k

/-- The receiving end replaced. -/
def State.setRxLink (s : State) (k : Nat) (r : RxLink) : State :=
  { s with rxLinks := Bank.set s.rxLinks RxLink.init k r }

/-- The key of the data link of a port direction that holds a lane. -/
def State.linkKey (s : State) (p : Nat) (rx : Bool) (n : Nat) : Option Nat :=
  (s.linkOf p rx n).map (fun l => 8 * p + lowestLane l.2)

/-- The key of the data link of the same port that joins the same far end in the other direction. -/
def State.reverseKey (s : State) (k : Nat) (rx : Bool) : Option Nat :=
  (s.linkOf (k / 8) rx (k % 8)).bind (fun l =>
    ((s.dataLinks (k / 8) (!rx)).find? (fun r => r.1 == l.1)).map (fun r => k / 8 * 8 + lowestLane r.2))

/-- The lanes of a data link: planned, and in use. -/
def State.linkLanes (s : State) (k : Nat) (rx : Bool) : Nat :=
  match s.linkOf (k / 8) rx (k % 8) with | some l => l.2 | none => 0
def State.lanesInUse (s : State) (k : Nat) (rx : Bool) : Nat :=
  s.linkLanes k rx &&& (s.portSt (k / 8)).inUse rx

/-! ### Credits (R337) -/

/-- The virtual channels on data lanes. -/
def dataVcs : List Nat := [0, 1, 2, 3, 5]

/-- Flits of a VC in the far end's buffer: sent and not freed. -/
def TxLink.occupied (t : TxLink) (v : Nat) : Nat := Bank.get t.sent 0 v - Bank.get t.freed 0 v

/-- The flits of VC `v` that credit allows, `occ` being the occupancy by VC and `k` the lanes. -/
def creditFor (k : Nat) (occ : Nat → Nat) (v : Nat) : Nat :=
  let total := dataVcs.foldl (fun a u => a + occ u) 0
  let unused := (dataVcs.filter (fun u => u != v)).foldl (fun a u => a + (64 * k - occ u)) 0
  min (1024 * k - total) (max (64 * k - occ v) (1024 * k - total - unused))

/-- The credit of a data link for a VC, flits that wait counted as sent. -/
def State.creditOf (s : State) (k v : Nat) : Nat :=
  let t := s.txLink k
  creditFor (laneCount (s.linkLanes k false))
    (fun u => t.occupied u + (t.queue.filter (fun f => f.vc == u)).length) v

/-! ### Packets as flits (R315) -/

/-- The fields of a packet head that the router reads (Table 14-1). -/
def pkFlags (b : Bytes) : Nat := fieldLe b 1 1
def pkDst (b : Bytes) : Nat := fieldLe b 4 2
def pkSrc (b : Bytes) : Nat := fieldLe b 6 2
def pkLength (b : Bytes) : Nat := fieldLe b 10 2

/-- The flits that a packet fills. -/
def flitCount (b : Bytes) : Nat := max 1 (ceilDiv b.length 64)

/-! ### Routes of packets (R338, R339) -/

/-- The places that reach `seen` by one data link of a map, beyond those already found. -/
def layerBefore (pl : Plan) (m : Nat) (known layer : List Nat) : List Nat :=
  ((pl.circuits.filter (fun c => c.map == m && layer.contains c.dst && !known.contains c.src)).map
    (fun c => c.src)).eraseDups

/-- The layer of places from which `me` takes its next hop toward the destination, none when no path leads
there. -/
def nextLayer (pl : Plan) (m me : Nat) : Nat → List Nat → List Nat → Option (List Nat)
  | 0, _, _ => none
  | fuel + 1, known, layer =>
    let before := layerBefore pl m known layer
    if before.contains me then some layer
    else if before.isEmpty then none
    else nextLayer pl m me fuel (known ++ before) before

/-- The minimal ports of a destination place in a map (R338). -/
def minimalPorts (pl : Plan) (m me dst : Nat) : List Nat :=
  match nextLayer pl m me (pl.places.length + 1) [dst] [dst] with
  | some layer => (upto 24).filter (fun p => pl.circuits.any (fun c =>
      c.map == m && circuitEnds me p false c && layer.contains c.dst))
  | none => []

/-- The places that have shown RESETTING since this module's plan (R427). -/
def State.shunned (s : State) : List Nat :=
  ((upto 24).filter (fun p => (s.portSt p).resetSeen || (s.portSt p).resetSince.isSome)).map (fun p =>
    fieldLe (s.blob (oHelloSeen p)) 2 2)

/-- The sending data links of a port whose far end lies at one of the places, none that has shown RESETTING (R427): port
× 8 + lowest lane. -/
def State.portLinks (s : State) (p : Nat) (places : List Nat) : List Nat :=
  ((s.dataLinks p false).filter (fun l => places.contains l.1.1 && !s.shunned.contains l.1.1)).map
    (fun l => 8 * p + lowestLane l.2)

/-- The data links now that begin a path of fewest hops to a place (R338). -/
def State.minimal (s : State) (dst : Nat) : List Nat :=
  match s.linkPlan with
  | some q =>
    (match nextLayer q.1 q.2 s.place (q.1.places.length + 1) [dst] [dst] with
    | some layer => ((upto 24).filter (fun p => !s.hostPort p)).flatMap (fun p => s.portLinks p layer)
    | none => [])
  | none => []

/-- The data links of the host ports (R372). -/
def State.hostLinks (s : State) : List Nat := ((upto 24).filter s.hostPort).map (fun p => 8 * p)

/-- The data link of several with the most credit for a packet, the lowest on a tie, that can take it
whole (R338; assumption 51). -/
def State.bestLink (s : State) (links : List Nat) (vc : Nat) (b : Bytes) : Option Nat :=
  let ks := links.filter (fun k => s.lanesInUse k false != 0 && decide (flitCount b ≤ s.creditOf k vc))
  ks.foldl (fun a k => match a with
    | none => some k
    | some j => if s.creditOf j vc < s.creditOf k vc then some k else some j) none

/-- The parent of a place in a tree. -/
def treeParent (pl : Plan) (t : Tree) (x : Nat) : Option Nat :=
  (t.entries.find? (fun e => e.place == x)).bind (fun e =>
    if e.parentPort = 0xFF then none else (fibreAt pl x e.parentPort).map (fun f => f.1))

/-- A place and its ancestors in a tree. -/
def treeChain (pl : Plan) (t : Tree) : Nat → Nat → List Nat
  | 0, x => [x]
  | fuel + 1, x => match treeParent pl t x with
    | some y => x :: treeChain pl t fuel y
    | none => [x]

/-- The far end of the fibre at a port, as a list of places. -/
def treeSides (pl : Plan) (me p : Nat) : List Nat :=
  match fibreAt pl me p with | some f => [f.1] | none => []

/-- The ESCAPE port toward a place: down when it lies below this module, else up (R339, R427). -/
def State.escapePort (s : State) (dst : Nat) : Option Nat :=
  match s.linkPlan with
  | some q =>
    let pl := q.1
    if pl.hasEscape then
      let chain := treeChain pl pl.escape pl.escape.entries.length dst
      let below := chain.takeWhile (fun x => x != s.place)
      let port := if chain.contains s.place then
          (match below.getLast? with
          | some child => (pl.escape.entries.find? (fun e => e.place == child)).bind (fun e =>
              (fibreAt pl child e.parentPort).map (fun f => f.2))
          | none => none)
        else (pl.escape.entries.find? (fun e => e.place == s.place)).map (fun e => e.parentPort)
      port.filter (fun p => decide (p < 24) && !(s.portLinks p (treeSides pl s.place p)).isEmpty)
    else none
  | none => none

/-- What becomes of a packet at a router: `cross` takes it over the bridge port to the other die's router (R335). -/
inductive Fate where
  | deliver | drop | misrouted | unroutable | wait | cross
  | send (key vc : Nat)
deriving DecidableEq, Repr

/-- The data links that a packet may take: once it has crossed the bridge port, those of the die that it crossed to, if
there are any (R335). -/
def Routed.reach (r : Routed) (links : List Nat) : List Nat :=
  let own := links.filter (fun k => k / 96 == r.die)
  if r.crossed && !own.isEmpty then own else links

/-- The fate of a packet now (R335, R338, R339, R373). The router of die 0 serves ports 0 to 11, that of die 1 ports 12
to 23. -/
def State.fate (s : State) (r : Routed) : Fate :=
  let b := r.data
  let vc := if r.escape then 5 else fieldLe b 2 1
  let bridge := s.obj oBridgeRole == 1
  let here := pkDst b == s.place
  let fromHost := match r.src with | some k => s.hostPort (k / 8) | none => false
  let via := fun (links : List Nat) => match s.bestLink (r.reach links) vc b with
    | some k => if k / 96 = r.die then Fate.send k vc else Fate.cross
    | none => Fate.wait
  if bit (pkFlags b) 2 && here then (if bridge then via s.hostLinks else .misrouted)
  else if here then .deliver
  else if fromHost && !bridge then .drop
  else if r.escape then
    (match s.escapePort (pkDst b) with
    | some p => (match s.linkPlan with
      | some q => via (s.portLinks p (treeSides q.1 s.place p))
      | none => .unroutable)
    | none => .unroutable)
  else
    let links := s.minimal (pkDst b)
    if links.isEmpty then .unroutable else via links

/-- A packet leaves the router's input: its flits of the port's buffer are freed (R337), unless it left the buffer when it
crossed the bridge port. -/
def State.leaveRouter (s : State) (r : Routed) : State :=
  let s := { s with router := s.router.erase r }
  match if r.crossed then none else r.src with
  | some k =>
    let x := s.rxLink k
    s.setRxLink k { x with freed := Bank.set x.freed 0 r.vc (Bank.get x.freed 0 r.vc + flitCount r.data) }
  | none => s

/-- A packet counted that crosses between the host ports and the hamlet (0x6040.04). -/
def State.noteHost (s : State) (r : Routed) (out : Option Nat) : State :=
  let inHost := match r.src with | some k => s.hostPort (k / 8) | none => false
  let outHost := match out with | some k => s.hostPort (k / 8) | none => false
  if inHost || outHost then s.bump oHostPackets else s

/-- PACKET_ROUTE (R338, R339, R373): the first packet that can leave its input does. -/
def execPacketRoute (s : State) : Host.Outcome State Fault Refusal :=
  let s := s.quiet
  match s.router.find? (fun r => s.fate r != .wait) with
  | some r =>
    let f := s.fate r
    let s := s.leaveRouter r
    match f with
    | .deliver => .next ((s.noteHost r none).emit (.delivered r.data))
    | .drop => .next s
    | .misrouted => .next (s.bump oHostMisrouted)
    | .unroutable => .next ((s.bump oRtUnroutable).raise .packetUnroutable)
    | .wait => .next s
    | .cross =>
      let x : Routed := { r with die := 1 - r.die, crossed := true, since := s.now }
      .next { s with router := s.router ++ [x] }
    | .send k vc =>
      let t := s.txLink k
      .next ((s.setTxLink k { t with queue := t.queue ++ flitsOf vc r.data }).noteHost r (some k))
  | none => .next s

/-- ESCAPE_TIMEOUT (R339): after 2,048 cycles of waiting a packet moves to ESCAPE, when no minimal port can
take it; it is counted at its ESCAPE port. -/
def execEscapeTimeout (s : State) : Host.Outcome State Fault Refusal :=
  let s := s.quiet
  match s.router.find? (fun r => !r.escape && s.fate r == .wait && (s.escapePort (pkDst r.data)).isSome) with
  | some r =>
    let s := s.advanceTo (r.since + 1024)
    let moved := s.router.map (fun x => if x = r then { r with escape := true } else x)
    let s := { s with router := moved }
    match s.escapePort (pkDst r.data) with
    | some p => .next (s.bump (oRtEscapePackets p))
    | none => .next s
  | none => .next s

/-! ### Groups (R316 to R319) -/

/-- A counter of which one half counts groups sent and the other groups received, both saturating. -/
def State.countGroup (s : State) (p : Nat) (received : Bool) : State :=
  let lo := if received then 32 else 0
  let w := s.obj (oGroups p)
  s.setObj (oGroups p) (setBits w lo 32 (satNat 32 (bits w lo 32 + 1)))

/-- The flits that may be sent now, at most `room`, in order within each VC; a VC without credit waits. -/
def takeFlits (k : Nat) : Nat → List Flit → TxLink → List Nat → List Flit × TxLink
  | _, [], t, _ => ([], { t with queue := [] })
  | 0, q, t, _ => ([], { t with queue := q })
  | room + 1, f :: rest, t, stopped =>
    if !stopped.contains f.vc && decide (0 < creditFor k t.occupied f.vc) then
      let r := takeFlits k room rest { t with sent := Bank.set t.sent 0 f.vc (Bank.get t.sent 0 f.vc + 1) }
        stopped
      (f :: r.1, r.2)
    else
      let r := takeFlits k (room + 1) rest t (f.vc :: stopped)
      (r.1, { r.2 with queue := f :: r.2.queue })

/-- The tag of a flit (Table 13-1); an idle flit's VC is 0b111. -/
def Flit.tag (f : Flit) : Nat := f.vc + b2n f.head * 8 + b2n f.tail * 16

/-- The 16 flits of a group, idle flits filling it. -/
def fillGroup (fs : List Flit) : List Flit :=
  fs ++ List.replicate (16 - fs.length) ⟨7, false, false, zeros 64⟩

/-- A group's trailer (Table 13-1): its SEQ, IDLE, the next group's lanes, the tags, and the credits and
acknowledgement of the reverse direction. -/
def trailerBytes (seq : Nat) (idle : Bool) (next : Nat) (fs : List Flit) (back : Option RxLink) : Bytes :=
  let tags := fs.zipIdx.foldl (fun a f => a + f.1.tag * 2 ^ (32 + 5 * f.2)) 0
  let credits := match back with
    | some r => dataVcs.zipIdx.foldl (fun a v =>
        a + Bank.get r.freed 0 v.1 % 4096 * 2 ^ (112 + 12 * v.2)) 0
    | none => 0
  let ack := match back with
    | some r => if r.any then ((r.expect + 4095) % 4096) * 2 ^ 176 + 2 ^ 188 else 0
    | none => 0
  let body := natLe 28 (seq + b2n idle * 2 ^ 12 + next * 2 ^ 16 + tags + credits + ack)
  body ++ natLe 4 (crc32 (fs.flatMap (fun f => f.data) ++ body))

/-- Units of a group striped over the lanes of a mask (R316): unit i on its (i mod k)-th lane, k being their number. -/
def stripe (mask : Nat) (units : List Bytes) : List (Nat × Bytes) :=
  let lanes := setBitsOf 8 mask
  lanes.zipIdx.map (fun e =>
    (e.1, ((units.zipIdx.filter (fun u => u.2 % lanes.length == e.2)).map (fun u => u.1)).flatten))

/-- A group striped over the lanes announced for it, its trailer like a flit after its flits; the trailer announces the
lanes in use now (R316, R321). -/
def State.sendGroup (s : State) (k seq : Nat) (idle : Bool) (fs : List Flit) : State :=
  let t := s.txLink k
  let lanes := s.lanesInUse k false
  let full := fillGroup fs
  let back := (s.reverseKey k false).map s.rxLink
  let s := s.setTxLink k { t with mask := lanes }
  let mask := if t.mask = 0 then lanes else t.mask
  (s.emit (.group (k / 8) mask (stripe mask (full.map (fun f => f.data) ++ [trailerBytes seq idle lanes full back])))).countGroup
    (k / 8) false

/-- The cycles that a ready flit waited since the last group, counted (cycles of 0.5 ns). -/
def State.countWait (s : State) (key : Nat) (since : Option Nat) : State :=
  match since with
  | some t => s.addObj key (2 * (s.now - t))
  | none => s

/-- GROUP_SEND (R316 to R319, R337): a data link sends its next group: a resent one, a new one as the replay
share and the credits allow, or an idle one. -/
def execGroupSend (port : Port) (lane : Lane) (s : State) : Host.Outcome State Fault Refusal :=
  let s := s.quiet
  let p := port.val
  match s.linkKey p false lane.val with
  | some k =>
    let t := s.txLink k
    let n := laneCount (s.linkLanes k false)
    if s.lanesInUse k false = 0 then .next s
    else
      match t.resend.bind (fun q => t.groups.find? (fun g => g.seq == q)) with
      | some g =>
        let s := s.advanceTo t.resendAt
        let last := (g.seq + 1) % 4096 == t.seq
        let s := s.setTxLink k { t with resend := if last then none else some ((g.seq + 1) % 4096) }
        .next (s.sendGroup k g.seq false g.flits)
      | none =>
        let s := (s.countWait (oReplayFullCycles p) t.fullSince).countWait (oRtStallCycles p) t.stallSince
        let t := { t with resend := none, fullSince := none, stallSince := none }
        if 62 * n ≤ t.groups.length then
          let s := s.setTxLink k { t with fullSince := if t.queue.isEmpty then none else some s.now }
          .next (s.sendGroup k t.seq true [])
        else
          let r := takeFlits n 16 t.queue t []
          let stall := if r.2.queue.isEmpty || r.1.length == 16 then none else some s.now
          let old := (takeFlits n 16 (t.queue.take t.backlog) t []).2.queue.length
          let t2 := { r.2 with stallSince := stall, backlog := old }
          if r.1.isEmpty then .next ((s.setTxLink k t2).sendGroup k t.seq true [])
          else
            let g : Group16 := ⟨t.seq, r.1⟩
            let s := s.setTxLink k { t2 with groups := t.groups ++ [g], seq := (t.seq + 1) % 4096 }
            let s := s.addObj (oRtFlitsTx p) r.1.length
            let s := s.addObj (oRtPacketsTx p) (r.1.filter (fun f => f.tail)).length
            .next (s.sendGroup k t.seq false r.1)
  | none => .next s

/-- Groups acknowledged up to `ack`, and the far end's cumulative counts of freed flits (R318, R337). -/
def State.takeReturn (s : State) (k : Nat) (ack : Option Nat) (credits : List Nat) : State :=
  let t := s.txLink k
  let groups := match ack with
    | some a => t.groups.filter (fun g => decide (2048 ≤ (a + 4096 - g.seq) % 4096))
    | none => t.groups
  let freed := (dataVcs.zip credits).foldl (fun b e =>
    let old := Bank.get b 0 e.1
    Bank.set b 0 e.1 (old + (e.2 + 4096 - old % 4096) % 4096)) t.freed
  s.setTxLink k { t with groups := groups, freed := freed }

/-! ### NAK, REPLAY and RETURN (R318, R326) -/

/-- The circuit that a lane C frame names, in the map in force. -/
def State.circuitOf (s : State) (l : LinkName) : Option Circuit :=
  s.linkPlan.bind (fun q => q.1.circuits.find? (fun c => c.map == q.2 && c.lane == l.lane.val &&
    c.src == l.place.toNat && c.srcPort == l.port.toNat))

/-- The port on which an intermediate module relays a frame of a circuit, up toward its source or down toward
its sink. -/
def relayPort (c : Circuit) (me : Nat) (up : Bool) : Option Nat :=
  if 1 ≤ c.hops ∧ c.x1 = me then some (if up then c.x1in else c.x1out)
  else if 2 ≤ c.hops ∧ c.x2 = me then some (if up then c.x2in else c.x2out)
  else none

/-- The bytes that name a data link in a lane C frame: the transmitter's place and port, and a lane
(assumption 8). -/
def linkBytes (l : LinkName) : Bytes := natLe 2 l.place.toNat ++ natLe 1 l.port.toNat ++ natLe 1 l.lane.val

/-- A frame relayed hop by hop along its circuit's fibres (R326). -/
def State.relay (s : State) (l : LinkName) (up : Bool) (type : Nat) (rest : Bytes) : State :=
  match (s.circuitOf l).bind (fun c => relayPort c s.place up) with
  | some p => s.ctlFrame p type none (linkBytes l ++ rest)
  | none => s

/-- The name of the data link received under a key: that of its far end and lowest lane. -/
def State.rxName (s : State) (k : Nat) : LinkName :=
  let far := match s.linkOf (k / 8) true (k % 8) with | some l => l.1 | none => (0, 0)
  ⟨BitVec.ofNat 16 far.1, BitVec.ofNat 8 far.2, Fin.ofNat 8 (k % 8)⟩

/-- A NAK sent with the SEQ expected (R318). -/
def State.sendNak (s : State) (k : Nat) : State :=
  let r := s.rxLink k
  (s.setRxLink k { r with nak := some s.now }).ctlFrame (k / 8) 0x04 none
    (linkBytes (s.rxName k) ++ natLe 2 r.expect)

/-- NAK (R318, R320): the transmitter answers with REPLAY and resends from the SEQ no earlier than 128 ns
later; four failed resends from one SEQ raise LINK_RETRY_EXHAUSTED, a resend having failed when the SEQ was sent again since
the last NAK of it. Another module's NAK is relayed. -/
def execNakFrame (_port : Port) (l : LinkName) (seq : BitVec 12) (s : State) :
    Host.Outcome State Fault Refusal :=
  let s := s.quiet
  if l.place.toNat = s.place ∧ l.port.toNat < 24 then
    match s.linkKey l.port.toNat false l.lane.val with
    | some k =>
      let t := s.txLink k
      let again := decide (t.failSeq = seq.toNat) && t.resend != some seq.toNat && decide (t.fails ≠ 0)
      let fails := if again then t.fails + 1 else if t.failSeq = seq.toNat ∧ t.fails ≠ 0 then t.fails else 1
      let lanes := s.lanesInUse k false
      let s := s.setTxLink k { t with
        resend := some seq.toNat, resendAt := s.now + 128, mask := lanes, failSeq := seq.toNat,
        fails := if 5 ≤ fails then 0 else fails }
      let s := (s.bump (oReplays (k / 8))).ctlFrame (k / 8) 0x05 none
        (linkBytes l ++ natLe 2 seq.toNat ++ natLe 1 lanes)
      .next (if 5 ≤ fails then s.raiseAt .linkRetryExhausted (k / 8) 0 else s)
    | none => .next s
  else .next (s.relay l true 0x04 (natLe 2 seq.toNat))

/-- NAK_REPEAT (R318): every 2 µs until a REPLAY arrives. -/
def execNakRepeat (port : Port) (lane : Lane) (s : State) : Host.Outcome State Fault Refusal :=
  let s := s.quiet
  match s.linkKey port.val true lane.val with
  | some k =>
    match (s.rxLink k).nak with
    | some t => .next ((s.advanceTo (t + 2000)).sendNak k)
    | none => .next s
  | none => .next s

/-- REPLAY (R318): the groups resent from the SEQ are decoded under its mask. -/
def execReplayFrame (port : Port) (l : LinkName) (seq : BitVec 12) (mask : Byte) (s : State) :
    Host.Outcome State Fault Refusal :=
  let s := s.quiet
  match s.linkKey port.val true l.lane.val with
  | some k =>
    let name := s.rxName k
    if name.place = l.place ∧ name.port = l.port then
      let r := s.rxLink k
      .next (if seq.toNat = r.expect then s.setRxLink k { r with nak := none, mask := mask.toNat } else s)
    else .next (s.relay l false 0x05 (natLe 2 seq.toNat ++ natLe 1 mask.toNat))
  | none => .next (s.relay l false 0x05 (natLe 2 seq.toNat ++ natLe 1 mask.toNat))

/-- The bytes of a RETURN after the link's name. -/
def returnRest (ack : Option Nat) (credits : List Nat) : Bytes :=
  natLe 2 (match ack with | some a => a + 4096 | none => 0) ++ credits.flatMap (fun c => natLe 2 (c % 4096))

/-- RETURN (R326): acknowledgement and credits for a data link that starts here; another's is relayed. -/
def execReturnFrame (_port : Port) (l : LinkName) (ackSeq : Option (BitVec 12)) (credits : List (BitVec 12))
    (s : State) : Host.Outcome State Fault Refusal :=
  let s := s.quiet
  let ack := ackSeq.map (fun a => a.toNat)
  let cs := credits.map (fun c => c.toNat)
  if l.place.toNat = s.place ∧ l.port.toNat < 24 then
    match s.linkKey l.port.toNat false l.lane.val with
    | some k => .next (s.takeReturn k ack cs)
    | none => .next s
  else .next (s.relay l true 0x0A (returnRest ack cs))

/-- RETURN_SEND (R326): every 64 ns for a data link received here whose reverse direction has no lane in
use. -/
def execReturnSend (port : Port) (lane : Lane) (s : State) : Host.Outcome State Fault Refusal :=
  let s := s.quiet
  match s.linkKey port.val true lane.val with
  | some k =>
    let idle := match s.reverseKey k true with
      | some j => s.lanesInUse j false == 0
      | none => true
    if idle then
      let r := s.rxLink k
      let ack := if r.any then some ((r.expect + 4095) % 4096) else none
      .next (s.ctlFrame (k / 8) 0x0A none
        (linkBytes (s.rxName k) ++ returnRest ack (dataVcs.map (fun v => Bank.get r.freed 0 v))))
    else .next s
  | none => .next s

/-! ### Receiving groups -/

/-- The codewords that carried a group: corrected and uncorrectable ones counted; a lane that gives 4
uncorrectable ones within 1,024 consecutive codewords leaves use (R317, R321). -/
def State.takeCodeword (s : State) (p : Nat) (c : Codeword) : State :=
  let n := c.lane.val
  let s := if c.corrected then s.bump (oFecCorrected p) else s
  let x := s.portSt p
  let count := Bank.get x.codewords 0 n + 1
  let x := { x with codewords := Bank.set x.codewords 0 n count }
  if c.uncorrectable then
    let s := s.bump (oFecUncorrectable p)
    let recent := count :: (Bank.get x.uncorrected [] n).filter (fun i => decide (count < i + 1024))
    let x := { x with uncorrected := Bank.set x.uncorrected [] n recent }
    if 4 ≤ recent.length then
      (s.setPort p { x with
        badRx := x.badRx ||| 2 ^ n, uncorrected := Bank.set x.uncorrected [] n [] }).loseLane p true n
    else s.setPort p x
  else s.setPort p x

/-- The occupancy of a port's input buffer by a VC, in flits. -/
def State.inputOccupancy (s : State) (p v : Nat) : Nat :=
  (s.router.filter (fun r => !r.crossed && r.src.map (fun k => k / 8) == some p && r.vc == v)).foldl
    (fun a r => a + flitCount r.data) 0 +
  (s.rxLinks.filter (fun e => e.1 / 8 == p)).foldl (fun a e => a + (Bank.get e.2.partials [] v).length / 64) 0

/-- RT_QUEUE_HWM after an arrival. -/
def State.noteHwm (s : State) (p v : Nat) : State :=
  let b := s.blob (oRtQueueHwm p)
  if fieldLe b (2 * v) 2 < s.inputOccupancy p v then
    s.setBlob (oRtQueueHwm p) (overwrite b (2 * v) (natLe 2 (satNat 16 (s.inputOccupancy p v))))
  else s

/-- A flit delivered to the router's input; the packet whose tail it is waits there, unless a place field of
its head has bits [15:14] set (R14). -/
def State.takeFlit (s : State) (k : Nat) (f : FlitIn) : State :=
  let p := k / 8
  let v := f.vc.val
  if v = 7 then s
  else
    let r := s.rxLink k
    let got := (if f.head then [] else Bank.get r.partials [] v) ++ natLe 64 f.data.toNat
    let s := s.bump (oRtFlitsRx p)
    if f.tail then
      let b := got.take (64 + pkLength got)
      let s := (s.setRxLink k { r with partials := Bank.set r.partials [] v [] }).bump (oRtPacketsRx p)
      let x : Routed :=
        { src := some k, vc := v, data := b, since := s.now, escape := v == 5, die := p / 12, crossed := false }
      let s := ({ s with router := s.router ++ [x] }).noteHwm p v
      if 0x4000 ≤ pkDst b ∨ 0x4000 ≤ pkSrc b then (s.leaveRouter x).bump (oRtBadPlace p) else s
    else (s.setRxLink k { r with partials := Bank.set r.partials [] v got }).noteHwm p v

/-- A group refused (R318, R320): a NAK unless one stands; after four failed resends from one SEQ the lanes to
blame, or all lanes of the data link, leave use. -/
def State.refuseGroup (s : State) (k : Nat) (g : GroupIn) : State :=
  let r := s.rxLink k
  let blame := r.blame ||| laneMask ((g.codewords.filter (fun c => c.uncorrectable)).map (fun c => c.lane.val))
  if r.nak.isSome then s.setRxLink k { r with blame := blame }
  else
    let fails := r.fails + 1
    if 5 ≤ fails then
      let s := (s.setRxLink k { r with fails := 0, blame := 0 }).sendNak k
      let s := s.raiseAt .linkRetryExhausted (k / 8) 0
      let link := s.linkLanes k true
      let out := if blame &&& link = 0 then link else blame &&& link
      let x := s.portSt (k / 8)
      (setBitsOf 8 out).foldl (fun s n => s.loseLane (k / 8) true n)
        (s.setPort (k / 8) { x with badRx := x.badRx ||| out })
    else (s.setRxLink k { r with fails := fails, blame := blame }).sendNak k

/-- The lanes that the next group is put together from: those announced by NEXT_MASK or REPLAY, at first those in use
(R316, R318). -/
def State.rxMask (s : State) (k : Nat) : Nat :=
  let m := (s.rxLink k).mask
  if m = 0 then s.lanesInUse k true else m

/-- GROUP_RECEIVE (R316 to R320): a received group put together from the lanes of its mask and checked by its CRC, its tags
and its SEQ, delivered or refused. While a NAK stands every group is discarded. A group striped otherwise than the
receiver decodes it fails its CRC (DEDUCED, assumption 97). -/
def execGroupReceive (g : GroupIn) (s : State) : Host.Outcome State Fault Refusal :=
  let s := s.quiet
  let p := g.port.val
  match s.linkKey p true g.lane.val with
  | some k =>
    if s.lanesInUse k true = 0 then .next s
    else
      let s := g.codewords.foldl (fun s c => s.takeCodeword p c) s
      let s := s.countGroup p true
      let bad := !g.crcOk || g.mask.toNat != s.rxMask k || g.flits.any (fun f => f.vc.val == 4 || f.vc.val == 6)
      if bad then .next ((s.bump (oGroupErrors p)).refuseGroup k g)
      else if (s.rxLink k).nak.isSome then .next (s.refuseGroup k g)
      else
        let s := match s.reverseKey k true with
          | some j => s.takeReturn j (g.ackSeq.map (fun (a : BitVec 12) => a.toNat))
              (g.credits.map (fun (c : BitVec 12) => c.toNat))
          | none => s
        let r := s.rxLink k
        if g.seq.toNat ≠ r.expect then .next (s.refuseGroup k g)
        else if g.idle then .next (s.setRxLink k { r with mask := g.nextMask.toNat })
        else
          let s := s.setRxLink k { r with
            expect := (r.expect + 1) % 4096, any := true, fails := 0, blame := 0, mask := g.nextMask.toNat }
          .next (g.flits.foldl (fun s f => s.takeFlit k f) s)
  | none => .next s

/-! ### Management packets (R341, R347) -/

/-- Entry `j` of a management packet's ROUTE. -/
def routeEntry (b : Bytes) (j : Nat) : Nat := bits (fieldLe b 32 16) (8 + 5 * j) 5

/-- The packet after a hop: the entry used holds the port of arrival, NEXT is one higher. -/
def hopped (b : Bytes) (next arrival : Nat) : Bytes :=
  let w := setBits (setBits (fieldLe b 32 16) (8 + 5 * next) 5 arrival) 4 4 (next + 1)
  overwrite b 32 (natLe 16 w)

/-- A whole management packet that arrived on a port: delivered at its destination, or sent on by its route;
across a link in QUARANTINE only to one of the link's two ends (R330, R341, R347). -/
def State.routeMgmt (s : State) (p : Nat) (b : Bytes) : State :=
  let w := fieldLe b 32 16
  let hops := bits w 0 4
  let next := bits w 4 4
  if 0x4000 ≤ pkDst b ∨ 0x4000 ≤ pkSrc b then s.bump (oRtBadPlace p)
  else if hops ≤ next then
    (if pkDst b = s.place ∧ fieldLe b 0 1 = 9 ∧ fieldLe b 2 1 = 4 then s.emit (.delivered b)
    else s.badHead)
  else
    let out := routeEntry b next
    let open_ := s.linkClass p == 2 && (s.linkClass out == 2 || next + 1 == hops)
    if 24 ≤ out then s.badHead
    else if open_ then s.sendMgmt out (hopped b next p)
    else s

/-- One flit of a management packet received on a port and taken in order (R326); a whole packet is delivered
or sent on. -/
def State.takeMgmt (s : State) (p seq : Nat) (flit : Bytes) : State :=
  if s.flag (oCtrlRxPresent p) = false then s
  else
    let r := s.takeCtl p seq
    let s := r.2
    if r.1 then
      let x := s.portSt p
      let got := x.mgmt ++ flit
      let whole := 64 * (1 + ceilDiv (pkLength got) 64)
      if got.length < whole then s.setPort p { x with mgmt := got }
      else (s.setPort p { x with mgmt := [], mgmtFreed := x.mgmtFreed + whole / 64 }).routeMgmt p
        (got.take (64 + pkLength got))
    else s

/-- A write of RT_TELEMETRY_CLEAR: every counter of 0x5470 and 0x5500 zero. -/
def State.actTelemetryClear (s : State) : State :=
  let s := (upto 24).foldl (fun (s : State) p =>
    let s := (upto 6).foldl (fun (s : State) j => s.setObj (objKey (0x5470 + p) (1 + j)) 0) s
    let s := [1, 2, 3, 4, 6, 7, 8].foldl (fun (s : State) j => s.setObj (objKey (0x5500 + p) j) 0) s
    s.setBlob (oRtQueueHwm p) (zeros 12)) s
  s.cmdDone oRtTelemetryClear

end Sys2Proof.Machine
end

