-- ==== Sys2Proof/Machine/PlanCheck.lean ====
section
/-! DEFINITION. The checks of admission on what surrounds the plan and on the structures its sections
declare: features, places, links, wavelengths, circuits, reserves, regions, capacity, engines and trees
(Table 03-10, codes 0x0104 to 0x0309, 0x0406 and 0x0407). -/

namespace Sys2Proof.Machine

/-! ### Items and the maps under which they run -/

/-- The first position of STEP_LIST that uses a program (R79), 0xFFFFFFFF for none. -/
def firstUse (pl : Plan) (prog : Nat) : Nat :=
  match pl.stepList.findIdx? (fun i => i == prog) with
  | some b => b
  | none => 0xFFFFFFFF

/-- The maps in force at the positions that use a program. -/
def mapsOf (pl : Plan) (prog : Nat) : List Nat :=
  ((pl.stepList.zipIdx.filter (fun e => e.1 == prog)).map (fun e => mapAt pl e.2)).eraseDups

/-- A fault of one beat program (R482). -/
def faultIn (pl : Plan) (reason prog resource excess item : Nat) : PlanFault :=
  ⟨reason, firstUse pl prog, prog % 65536, resource, excess, 0x05 * 65536 + item % 65536⟩

/-- Every item with its program and its index. -/
def allItems (pl : Plan) : List (Item × Nat × Nat) :=
  pl.programs.zipIdx.flatMap (fun p => p.1.items.zipIdx.map (fun i => (i.1, p.2, i.2)))

/-- The resource that an item charges (R81). -/
def Item.resource (i : Item) : Nat :=
  i.kind * 2 ^ 24 + (if i.kind = 8 then b2n (bit i.flags 2) else i.die) * 2 ^ 16 + i.unit

/-- The first item that fails `ok`, as a fault of its program and its resource. -/
def needItems (pl : Plan) (reason : Nat) (ok : Item → Bool) : Check :=
  (allItems pl).findSome? (fun e => need (ok e.1) (faultIn pl reason e.2.1 e.1.resource 0 e.2.2))

/-- The first LINK item that fails `ok` in a map in force at a position that uses its program, the fault naming that
position. No map is in force for a program that no position uses: its LINK items are to pass in some map (assumption
64). -/
def needLinks (pl : Plan) (reason : Nat) (ok : Item → Nat → Bool) : Check :=
  (allItems pl).findSome? (fun e =>
    let f := faultIn pl reason e.2.1 e.1.resource 0 e.2.2
    if e.1.kind ≠ 8 then none
    else if firstUse pl e.2.1 = 0xFFFFFFFF then need ((upto (max 1 pl.maps)).any (ok e.1)) f
    else (pl.stepList.zipIdx.find? (fun b => b.1 == e.2.1 && !ok e.1 (mapAt pl b.2))).map (fun b =>
      { f with stepBeat := b.2 }))

/-- A LINK item's direction: received or transmitted (Table 03-7). -/
def Item.rx (i : Item) : Bool := bit i.flags 2

/-- An item with its direction turned round. -/
def Item.turned (i : Item) : Item := { i with flags := if i.rx then i.flags - 4 else i.flags + 4 }

/-- A LINK item to the host bridge card. -/
def Item.host (i : Item) : Bool := bit i.c 24

/-- The planned lanes of the data link that a LINK item charges in a map (R75), 0 when it names none. -/
def State.itemLanes (s : State) (pl : Plan) (m : Nat) (i : Item) : Nat :=
  if i.host then (if s.hostPort i.unit then 0xFF else 0)
  else if s.hostPort i.unit then 0
  else match (linksIn pl m s.place i.unit i.rx).find? (fun l =>
      l.1 == (i.c % 65536, bits i.c 16 8)) with
    | some l => l.2
    | none => 0

/-- The credit round trip of the data link that a LINK item charges in a map, as the rehearsal measured it, ns (R337): the
longest over the lanes by which this module receives from the link's far end. -/
def State.itemRtt (s : State) (pl : Plan) (m : Nat) (i : Item) : Nat :=
  let map := if i.host then 0 else m
  ((setBitsOf 8 (s.itemLanes pl m (if i.rx then i else i.turned))).map (fun n => s.laneRtt i.unit map n)).foldl max 0

/-- The reserve of a port direction in a plan (R323). -/
def reserveOf (pl : Plan) (place p dir : Nat) : Nat :=
  match pl.reserves.find? (fun e => e.place == place && e.port == p && e.dir == dir) with
  | some e => e.reserve
  | none => 0

/-! ### The module and the features (codes 0x0101 to 0x0106, 0x0204, 0x0205) -/

/-- The feature bits that an item's behaviour needs. -/
def itemFeatures (i : Item) : Nat :=
  if i.kind = 1 then
    let f := i.b % 256
    if f = 3 then 2 ^ 3 else if f = 4 then 2 ^ 5 else if f = 2 then 2 ^ 6 else 0
  else 0

/-- The feature bits that a compute copy's format needs. -/
def copyFeatures (x : Shard) : Nat :=
  (if isMx x.copyFormat then 2 ^ 4 else 0) ||| (if x.copyFormat = 5 ∨ x.copyFormat = 9 then 2 ^ 6 else 0)

/-- The feature bits that a plan's behaviours need (R57, Table 02-12), BASE among them (R56). -/
def behaviours (pl : Plan) (me : Nat) : Nat :=
  let any := fun (b : Bool) (n : Nat) => if b then 2 ^ n else 0
  (allItems pl).foldl (fun a e => a ||| itemFeatures e.1)
    ((servedShards pl me).foldl (fun a x => a ||| copyFeatures x)
      (1 ||| any (pl.groups.any (fun g => g.shape == 3)) 7 |||
        any (pl.groups.any (fun g => g.shape == 3 && g.matFormat == 0)) 5 |||
        any (pl.groups.any (fun g => g.touched) || pl.windows.any (fun w => w.touched)) 8 |||
        any (pl.groups.any (fun g => bit g.flags 0)) 9 ||| any (decide (1 < pl.maps)) 10 |||
        any (pl.timing.snapPeriod != 0) 11 ||| any (bit pl.timing.flags 0) 12 |||
        any (pl.windows.any (fun w => w.spill)) 13))

/-- FEATURE_NOT_AGREED. -/
def State.featureFault (s : State) (pl : Plan) : Check :=
  let agreed := s.obj oFeaturesAgreed
  need ((pl.features ||| behaviours pl s.place) &&& agreed == (pl.features ||| behaviours pl s.place))
    (faultOnly featureNotAgreed)

/-- The stated coolant is within the bounds of R67: at most 40 °C, at least 2.0 L/min. -/
def State.coolantOk (s : State) : Bool :=
  let le := fun (a b : Nat) =>
    match fmtFp32.decode a, fmtFp32.decode b with
    | .num n m e, .num n2 m2 e2 =>
      let lo := min e e2
      let v := fun (n : Bool) (m : Nat) (e : Int) =>
        (if n then -1 else 1) * (Int.ofNat m * 2 ^ (e - lo).toNat)
      decide (v n m e ≤ v n2 m2 e2)
    | .inf n, .num _ _ _ => n
    | .num _ _ _, .inf n => !n
    | .inf n, .inf n2 => n || !n2
    | _, _ => false
  le (s.obj oCoolantInletC) 0x42200000 && le 0x40000000 (s.obj oCoolantFlowLpm)

/-- What stands before the blob is looked at (codes 0x0101 to 0x0103, 0x0105, 0x0106). -/
def State.surroundFault (s : State) (pl : Plan) : Check :=
  firstFault [
    need ((s.obj oLcState == 2 || s.obj oLcState == 3) && s.obj oSafe == 0) (faultOnly 0x0101),
    need s.bellIsLocked (faultOnly 0x0102),
    need (s.flag oPlaceStated) (faultOnly 0x0103),
    s.featureFault pl,
    need (s.flag oCoolantStated) (faultOnly 0x0105),
    need s.coolantOk (faultOnly 0x0106)]

/-- BEAT_LENGTH_MISMATCH and PLACE_MISMATCH (Table 03-4, R334). -/
def State.ownFault (s : State) (pl : Plan) : Check :=
  firstFault [
    need (pl.beatUs == s.obj oBeatLengthUs && s.obj oBeatChangeAt == 0) (faultOnly 0x0204),
    match pl.places.zipIdx.find? (fun e => e.1.digest == s.obj oSerialDigest) with
    | some e => need (e.1.place == s.place) (faultAt 0x0205 0x01 e.2)
    | none => some (faultAt 0x0205 0x01 0)]

/-! ### Links, wavelengths and circuits (codes 0x0301 to 0x0305) -/

/-- The planned links of a plan at this module: fibres of PLACES and host ports. -/
def State.plannedPorts (s : State) (pl : Plan) : List Nat :=
  (upto 24).filter (fun p => s.hostPort p || (fibreAt pl s.place p).isSome)

/-- A link fault at a port. -/
def linkFault (reason p : Nat) : PlanFault := { faultOnly reason with resource := 0x08000000 + p }

/-- LINK_NOT_MATCH: a planned link in another class, a fibre to another peer than the stated one, a data
link of a LINK item with a round trip above 983 ns (R19, R334). -/
def State.matchFault (s : State) (pl : Plan) : Check :=
  firstFault [
    (s.plannedPorts pl).findSome? (fun p => need (s.linkClass p == 2) (linkFault linkNotMatch p)),
    (upto 24).findSome? (fun p => match fibreAt pl s.place p with
      | some f => need (f == (s.obj (oPeerPlace p), s.obj (oPeerPort p))) (linkFault linkNotMatch p)
      | none => none),
    needLinks pl linkNotMatch (fun i m => decide (s.itemRtt pl m i ≤ 983))]

/-- LINK_FEATURE_MISSING (R333, Table 13-6, R323). -/
def State.linkFeatureFault (s : State) (pl : Plan) : Check :=
  (s.plannedPorts pl).findSome? (fun p =>
    let needed := s.neededFeatures pl p
    need (needed &&& s.obj (oLinkFeaturesAgreed p) == needed) (linkFault 0x0302 p))

/-- The link of a port as 0x2021.04 names it: [23:16] 1 receive, 0 transmit. -/
def linkResource (p : Nat) (rx : Bool) : Nat := 0x08000000 + b2n rx * 2 ^ 16 + p

/-- The port directions of this module whose rings a circuit uses, and the route that each crosspoint has for it. -/
def ringsHere (me : Nat) (c : Circuit) : List (Nat × Bool × Nat) :=
  (if c.src = me then [(c.srcPort, false, 0)] else []) ++ (if c.dst = me then [(c.dstPort, true, 0xFE)] else []) ++
  (if 1 ≤ c.hops ∧ c.x1 = me then [(c.x1in, true, c.x1out)] else []) ++
  (if 2 ≤ c.hops ∧ c.x2 = me then [(c.x2in, true, c.x2out)] else [])

/-- A ring of lane `n` is LOCKED on the route named: a modulator, or a crosspoint whose route it is. -/
def State.lockedFor (s : State) (p n : Nat) (rx : Bool) (route : Nat) : Bool :=
  if rx then s.route p n == route && s.locked (xpKey p n) else s.locked (txKey p n)

/-- A lane of map 0 that starts, ends or passes through here with a ring that is not LOCKED: the link and the circuit
entry. -/
def State.laneNotLocked (s : State) (pl : Plan) : Option (Nat × Nat) :=
  let circuit := pl.circuits.zipIdx.findSome? (fun e =>
    if e.1.map ≠ 0 then none
    else ((ringsHere s.place e.1).find? (fun r => !s.lockedFor r.1 e.1.lane r.2.1 r.2.2)).map (fun r =>
      (linkResource r.1 r.2.1, 0x02 * 65536 + e.2 % 65536)))
  let host := (upto 24).findSome? (fun p => if s.hostPort p then
      [false, true].findSome? (fun rx => if (upto 8).all (fun n => s.lockedFor p n rx 0xFE) then none
        else some (linkResource p rx, 0))
    else none)
  circuit.orElse (fun _ => host)

/-- The lines of an input that feed a local lane of any map. -/
def State.linesUsed (s : State) (pl : Plan) (i : Nat) : Nat :=
  (upto 4).foldl (fun a x =>
    let p := 4 * i + x
    if s.hostPort p then a ||| 0xFF
    else a ||| laneMask ((pl.circuits.filter (circuitEnds s.place p false)).map (fun c => c.lane))) 0

/-- An input has a source stated for lines `m`, and one of them verified on them. -/
def State.inputReady (s : State) (i m : Nat) : Bool :=
  let sp := s.obj (oStatedPresent i)
  let src := fun (lo d0 : Nat) =>
    bits sp lo 8 &&& m == m && s.obj d0 != 0 && (s.verifiedLines i / 2 ^ lo) % 256 &&& m == m
  src 0 (oStatedD0Mhz i) || src 8 (oStatedTwinD0Mhz i)

/-- The circuit entry by which an input's lines are used, as DETAIL names it; 0 for a host port's lanes. -/
def State.inputDetail (s : State) (pl : Plan) (i : Nat) : Nat :=
  match pl.circuits.findIdx? (fun c => c.src == s.place && c.srcPort / 4 == i) with
  | some k => 0x02 * 65536 + k % 65536
  | none => 0

/-- WAVELENGTH_UNVERIFIED (Table 12-6, last row): `unlocked` is what the write of ADMIT found. -/
def State.wavelengthFault (s : State) (bs : Bytes) (pl : Plan) (unlocked : Option (Nat × Nat)) : Check :=
  let here := (dirOf bs 0x02).isSome
  firstFault [
    unlocked.map (fun u => { faultOnly 0x0303 with resource := u.1, detail := u.2 }),
    need (!here || s.obj oPrepareState == 3) (faultAt 0x0303 0x02 0),
    (upto 6).findSome? (fun i =>
      let m := s.linesUsed pl i
      need (m == 0 || s.inputReady i m) { faultOnly 0x0303 with detail := s.inputDetail pl i })]

/-- A fibre joins two ports. -/
def joined (pl : Plan) (a pa b pb : Nat) : Bool := fibreAt pl a pa == some (b, pb)

/-- The input and output channels that a circuit takes at a place. -/
def channelsIn (me : Nat) (c : Circuit) : List Nat :=
  (if c.dst = me then [c.dstPort] else []) ++ (if 1 ≤ c.hops ∧ c.x1 = me then [c.x1in] else []) ++
  (if 2 ≤ c.hops ∧ c.x2 = me then [c.x2in] else [])
def channelsOut (me : Nat) (c : Circuit) : List Nat :=
  (if c.src = me then [c.srcPort] else []) ++ (if 1 ≤ c.hops ∧ c.x1 = me then [c.x1out] else []) ++
  (if 2 ≤ c.hops ∧ c.x2 = me then [c.x2out] else [])

/-- One circuit's hops, loss and fibres (Table 12-6), and no host port (R372). -/
def State.circuitOk (s : State) (pl : Plan) (c : Circuit) : Bool :=
  decide (c.hops ≤ 2) && decide (c.loss ≤ 300 + 250 * c.hops) &&
  (if c.hops = 0 then joined pl c.src c.srcPort c.dst c.dstPort
    else joined pl c.src c.srcPort c.x1 c.x1in && c.x1in != c.x1out &&
      (if c.hops = 1 then joined pl c.x1 c.x1out c.dst c.dstPort
        else joined pl c.x1 c.x1out c.x2 c.x2in && c.x2in != c.x2out &&
          joined pl c.x2 c.x2out c.dst c.dstPort)) &&
  (channelsIn s.place c ++ channelsOut s.place c).all (fun p => !s.hostPort p)

/-- The modules of a circuit. -/
def circuitPlaces (c : Circuit) : List Nat :=
  c.src :: c.dst :: (if 1 ≤ c.hops then [c.x1] else []) ++ (if 2 ≤ c.hops then [c.x2] else [])

/-- Two circuits of one map share no input channel and no output channel on any module. -/
def channelsApart (c d : Circuit) : Bool :=
  c.map != d.map || c.lane != d.lane || (circuitPlaces c).all (fun x =>
    (channelsIn x c).all (fun p => !(channelsIn x d).contains p) &&
    (channelsOut x c).all (fun p => !(channelsOut x d).contains p))

/-- CIRCUIT_INVALID (Table 12-6, R75). An entry that names this module is held against every other entry. -/
def State.circuitFault (s : State) (pl : Plan) : Check :=
  let me := s.place
  let mine := pl.circuits.zipIdx.filter (fun e => circuitNames me e.1)
  firstFault [
    mine.findSome? (fun e => need (s.circuitOk pl e.1) (faultAt circuitInvalid 0x02 e.2)),
    needPairs circuitInvalid 0x02 pl.circuits.zipIdx (fun c d =>
      !(circuitNames me c || circuitNames me d) || channelsApart c d),
    needLinks pl circuitInvalid (fun i m => s.itemLanes pl m i != 0 && (!i.host || s.hostPort i.unit))]

/-- The lanes of a port direction of this module in a map beyond use at this moment: unusable (R321), or not
verified by the rehearsal of the map (R323). In another map than the one set, a ring that is PARKED awaits its setting. -/
def State.lanesBad (s : State) (pl : Plan) (m p : Nat) (rx : Bool) : Nat :=
  let lanes := if s.hostPort p then 0xFF
    else (linksIn pl m s.place p rx).foldl (fun a l => a ||| l.2) 0
  let seen := fun (n : Nat) => match s.prep with
    | some q => q.seen.contains ((m * 2 + b2n rx) * 192 + 8 * p + n)
    | none => false
  let x := s.portSt p
  let usable := fun (n : Nat) =>
    if m = 0 ∨ s.hostPort p then (if rx then s.rxUsable p n else s.txUsable p n)
    else !s.laneFailed p n && (if rx then !bit x.badRx n && (s.route p n != 0xFE || (s.locked (xpKey p n) && !bit x.darkRx n))
      else !bit x.badTx n && s.flag (oDataGate p) && (s.ringAt (txKey p n)).state % 4 == 0 &&
        s.locked (monKey (p / 4) (s.obj (oInService (p / 4))) n))
  ((setBitsOf 8 lanes).filter (fun n => !(usable n && (s.hostPort p || seen n)))).length

/-- The first port of this module with more lanes out of use than its reserve, in some map and direction. -/
def State.portBeyond (s : State) (pl : Plan) : Option Nat :=
  (upto 24).find? (fun p => [false, true].any (fun rx => (upto (max 1 pl.maps)).any (fun m =>
    decide (reserveOf pl s.place p (b2n rx) < s.lanesBad pl m p rx))))

/-- LANE_RESERVE_EXCEEDED (R323, R75): `beyond` is what the write of ADMIT found. -/
def State.reserveFault (s : State) (pl : Plan) (beyond : Option Nat) : Check :=
  let planned := fun (e : ReserveEntry) (m : Nat) =>
    if e.place == s.place && s.hostPort e.port then 8
    else laneCount ((linksIn pl m e.place e.port (e.dir == 1)).foldl (fun a l => a ||| l.2) 0)
  firstFault [
    needAll laneReserveExceeded 0x03 pl.reserves (fun e => (upto (max 1 pl.maps)).all (fun m =>
      planned e m == 0 || decide (e.reserve < planned e m))),
    beyond.map (fun p => linkFault laneReserveExceeded p),
    needLinks pl laneReserveExceeded (fun i m =>
      decide (reserveOf pl s.place i.unit (b2n i.rx) < laneCount (s.itemLanes pl m i)))]

/-! ### Regions and capacity (codes 0x0306 and 0x0307) -/

/-- The region of a number in a plan. -/
def regionOf (pl : Plan) (n : Nat) : Option Region := pl.regions.find? (fun r => r.num == n)

/-- A region of a number is of one of the kinds. -/
def regionIs (pl : Plan) (n : Nat) (kinds : List Nat) : Bool :=
  match regionOf pl n with
  | some r => kinds.contains r.kind
  | none => false

/-- A region descriptor (R270, R271). -/
def regionOk (r : Region) : Bool :=
  decide (r.num < 4096) && between 1 r.kind 9 && r.base % 4096 == 0 && r.len != 0 && r.len % 4096 == 0 &&
  decide (r.base + r.span ≤ 2 ^ 40) && r.base / 2 ^ 39 == (r.base + r.span - 1) / 2 ^ 39

/-- An area: its first address and its bytes. -/
abbrev Area := Nat × Nat

/-- Two areas share no byte. -/
def areasApart (a b : Area) : Bool :=
  decide (a.1 + a.2 ≤ b.1) || decide (b.1 + b.2 ≤ a.1) || a.2 == 0 || b.2 == 0

/-- Whether an area lies in a GRAD region of a stack. -/
def inGrad (pl : Plan) (die : Nat) (a : Area) : Bool :=
  pl.regions.any (fun r => r.kind == 4 && r.base / 2 ^ 39 == die && r.holds a.1 a.2)

/-- The bytes of one element that a window delivers to memory (Table 09-6). -/
def outSize (w : Window) : Nat := if w.sumMode = 0 then elemBytes w.outFormat 1 else 8

/-- The bytes of a touched bitmap (R231). -/
def touchedBytes (w : Window) : Nat := if w.touched then ceilDiv (w.elements / w.rowElements) 8 else 0

/-- The areas that a window addresses. -/
def windowAreas (w : Window) : List Area :=
  (if w.outAction = 0 then [(w.outAddr, w.elements * outSize w)] else []) ++
  (if w.spill then [(w.spillAddr, w.elements * 32)] else []) ++
  (if w.touched then [(w.touchedAddr, touchedBytes w)] else [])

/-- The windows that a place owns. -/
def windowsAt (pl : Plan) (me : Nat) : List Window := pl.windows.filter (fun w => w.owner == me)

/-- Areas of a shard as offsets in its regions: region, first byte, bytes. -/
def shardAreas (pl : Plan) (x : Shard) : List (Nat × Area) :=
  match windowOfShard pl x with
  | none => []
  | some w =>
    let none32 := 0xFFFFFFFF
    let rows := if w.rowElements = 0 then 0 else w.elements / w.rowElements
    let at64 := fun (reg off n : Nat) => if off = none32 then [] else [(reg, (64 * off, n))]
    at64 x.paramRegion x.wOff (4 * w.elements) ++ at64 x.paramRegion x.copyOff (elemBytes x.copyFormat w.elements) ++
    at64 x.optRegion x.mOff (4 * w.elements) ++ at64 x.optRegion x.vOff (4 * w.elements) ++
    at64 x.optRegion x.rowOff (4 * rows + ceilDiv rows 8)

/-- The bytes of a MATRIX shard's scratch: two arrays of ELEMENTS for X, and three square ones, each in whole lines
(assumption 42). -/
def scratchBytes (x : Shard) (elements : Nat) : Nat :=
  2 * wholeLines (4 * elements) + 3 * wholeLines (4 * (min x.matRows x.matCols) ^ 2)

/-- A shard's areas lie in a PARAM and an OPT region, and a MATRIX shard's scratch in GRAD (Table 10-5). -/
def shardRegionsOk (pl : Plan) (x : Shard) : Bool :=
  regionIs pl x.paramRegion [1] &&
  (shardAreas pl x).all (fun a => match regionOf pl a.1 with
    | some r => (r.num == x.paramRegion && r.kind == 1 || r.num == x.optRegion && r.kind == 2) &&
        decide (a.2.1 + a.2.2 ≤ r.len)
    | none => false) &&
  (match windowOfShard pl x, groupOf pl x.group with
   | some w, some g => g.shape != 3 || inGrad pl w.die (x.scratch, scratchBytes x w.elements)
   | _, _ => true)

/-- REGION_INVALID (R271, Tables 09-2 and 10-5, R363, R415). A count of regions above 4,096 is not for this code but for
CAPACITY_EXCEEDED, although numbers must then repeat (R271). -/
def regionFault (pl : Plan) (me : Nat) : Check :=
  let served := servedShards pl me
  let areas := fun (x : Shard) => (shardAreas pl x).map (fun a => (a.1 * 2 ^ 44 + a.2.1, a.2.2))
  let disjoint := fun (xs ys : List Area) => xs.all (fun a => ys.all (areasApart a))
  if 4096 < pl.regions.length then none else firstFault [
    needAll regionInvalid 0x07 pl.regions regionOk,
    needDistinct regionInvalid 0x07 (pl.regions.map (fun r => r.num)),
    needPairs regionInvalid 0x07 pl.regions.zipIdx (fun r q => areasApart (r.base, r.span) (q.base, q.span)),
    needAll regionInvalid 0x08 pl.shards (fun x => !served.contains x || shardRegionsOk pl x),
    needPairs regionInvalid 0x08 (pl.shards.zipIdx.filter (fun e => served.contains e.1)) (fun x y =>
      disjoint (areas x) (areas y)),
    needAll regionInvalid 0x0C pl.buddies (fun e =>
      (e.place != me || (e.regions.all (fun r => regionIs pl r [1, 2]) &&
        e.total == 8192 + (e.regions.map (fun r => ((regionOf pl r).map (fun g => g.len)).getD 0)).sum)) &&
      (e.buddy != me || (regionIs pl e.snap [6] && (e.snap2 == 0xFFFF || regionIs pl e.snap2 [6])))),
    needAll regionInvalid 0x0E pl.windows (fun w => w.owner != me ||
      ((w.spill || decide (w.base + w.elements ≤ 5592405)) && (windowAreas w).all (inGrad pl w.die))),
    needPairs regionInvalid 0x0E (pl.windows.zipIdx.filter (fun e => e.1.owner == me)) (fun v w =>
      disjoint (windowAreas v) (windowAreas w)),
    needAll regionInvalid 0x0F pl.queues (fun q => q.place != me || q.region == 0xFFFF || regionIs pl q.region [7]),
    needAll regionInvalid 0x0F pl.cores (fun c => c.place != me || regionIs pl c.region [7])]

/-- Two windows of one die with overlapping [OPEN_BEAT, DUE_BEAT] share no slot and no bitmap bit. -/
def windowsShareNothing (a b : Window) : Bool :=
  a.die != b.die || decide (a.dueBeat < b.openBeat) || decide (b.dueBeat < a.openBeat) ||
  ((a.spill || b.spill || areasApart (a.base, a.elements) (b.base, b.elements)) &&
    (!(a.touched && b.touched) || areasApart (a.bitmapBase, a.elements / a.rowElements)
      (b.bitmapBase, b.elements / b.rowElements)))

/-- The first of more entries than a limit allows, as a fault of a section. -/
def needAtMost {α : Type} (reason section_ limit : Nat) (xs : List (α × Nat)) : Check :=
  (xs[limit]?).map (fun e => faultAt reason section_ e.2)

/-- The windows of one die fit its chunk table and bitmap memory (R215). -/
def dieCapacityFault (ws : List (Window × Nat)) : Check :=
  ws.zipIdx.findSome? (fun e => need
    (decide (((ws.take (e.2 + 1)).map (fun w => w.1.chunkCount)).sum ≤ 262144) &&
      (!e.1.1.touched || decide (e.1.1.bitmapBase + e.1.1.elements / e.1.1.rowElements ≤ 8388608)))
    (faultAt capacityExceeded 0x0E e.1.2))

/-- A core image's header is within the limits of R181 and its image inside its region. -/
def State.imageOk (s : State) (pl : Plan) (c : CoreEntry) : Bool :=
  match regionOf pl c.region with
  | some r =>
    let h := memRead s.mem.bytes (r.base + c.offset) 16
    decide (c.offset + 16 ≤ r.len) && decide (fieldLe h 0 4 ≤ 65536) && decide (fieldLe h 4 4 ≤ 65536) &&
    decide (fieldLe h 8 4 < 65536) && zeroAt h 12 4 &&
    decide (c.offset + 16 + fieldLe h 0 4 + fieldLe h 4 4 ≤ r.len)
  | none => false

/-- CAPACITY_EXCEEDED (R271, Table 09-2, R363, R181, R415). -/
def State.capacityFault (s : State) (pl : Plan) : Check :=
  let me := s.place
  let own := pl.windows.zipIdx.filter (fun e => e.1.owner == me)
  let r := capacityExceeded
  firstFault [
    needAtMost r 0x07 4096 pl.regions.zipIdx,
    needAll r 0x0C pl.buddies (fun e => e.buddy != me || [e.snap, e.snap2].all (fun n =>
      match regionOf pl n with
      | some g => decide (e.total ≤ g.len)
      | none => true)),
    needAtMost r 0x0E 4096 own,
    needPairs r 0x0E own windowsShareNothing,
    [0, 1].findSome? (fun d => dieCapacityFault (own.filter (fun e => e.1.die == d))),
    needAtMost r 0x0F 65536 (pl.queues.zipIdx.filter (fun e => e.1.place == me)),
    needAtMost r 0x0F 4096 (pl.flows.zipIdx.filter (fun e => e.1.place == me)),
    needAll r 0x0F pl.queues (fun q => q.place != me || (match regionOf pl q.region with
      | some g => decide (q.offset + 64 * q.entries ≤ g.len)
      | none => true)),
    needAll r 0x0F pl.cores (fun c => c.place != me || s.imageOk pl c)]

/-! ### Engines and structures (codes 0x0308 and 0x0309) -/

/-- A granary unit (or an update engine) is fenced (0x7200.06). -/
def State.unitFenced (s : State) (update : Bool) (die unit : Nat) : Bool :=
  bit (s.obj oFencedUnits) (if update then 32 + 2 * die + unit else 16 * die + unit)

/-- The unit that an item names is there. -/
def State.itemServed (s : State) (i : Item) : Bool :=
  if i.kind = 1 ∨ i.kind = 2 then
    s.obj (oSlot (96 * i.die + i.unit)) != 255 && s.obj (oCoreState (8 * i.die + i.unit / 12)) != 4
  else if i.kind = 3 then !s.unitFenced false i.die i.unit
  else if i.kind = 4 then !s.unitFenced true i.die i.unit
  else if i.kind = 7 then s.obj (oCoreState (8 * i.die + i.unit)) != 4
  else true

/-- ENGINE_UNAVAILABLE (R153, R184, R412). A plan names a cluster by an item of its engines or its port, by an entry of
its core, by a queue that the core consumes and by a borrow of its slots. -/
def State.engineFault (s : State) (pl : Plan) : Check :=
  let me := s.place
  let r := engineUnavailable
  let coreUp := fun (c : Nat) => s.obj (oCoreState c) != 4
  firstFault [
    needItems pl r s.itemServed,
    needAll r 0x0F pl.cores (fun c => c.place != me || coreUp c.core),
    needAll r 0x0F pl.queues (fun q => q.place != me || q.consumer == 0xFF || coreUp q.consumer),
    needAll r 0x08 pl.shards (fun x => !(servedShards pl me).contains x ||
      (match windowOfShard pl x, groupOf pl x.group with
       | some w, some g => g.shape != 3 || coreUp (8 * w.die + bits x.borrow 12 3)
       | _, _ => true)),
    needAll r 0x0E pl.windows (fun w => w.owner != me ||
      (setBitsOf 16 w.mask).all (fun u => !s.unitFenced false w.die u)),
    needAll r 0x08 pl.shards (fun x => !(servedShards pl me).contains x ||
      (match windowOfShard pl x with | some w => !s.unitFenced true w.die x.unit | none => true))]

/-- A tree spans the places: each named once, one root, every parent edge a fibre, no cycle. -/
def spanFault (section_ : Nat) (pl : Plan) (t : Tree) : Check :=
  let names := t.entries.map (fun e => e.place)
  firstFault [
    needDistinct treeInvalid section_ names,
    needAll treeInvalid section_ t.entries (fun e => (e.parentPort == 0xFF) == (e.place == t.root) &&
      (e.parentPort == 0xFF || (fibreAt pl e.place e.parentPort).isSome)),
    needAll treeInvalid section_ t.entries (fun e => (treeChain pl t t.count e.place).contains t.root),
    need (names.length == pl.places.length && t.count == names.length &&
      pl.places.all (fun e => names.contains e.place)) (faultAt treeInvalid section_ 0)]

/-- The edges from the root to a place. -/
def depthOf (pl : Plan) (t : Tree) (x : Nat) : Nat :=
  ((treeChain pl t t.count x).takeWhile (fun y => y != t.root)).length

/-- CLEAN_TREE (R386). -/
def cleanFault (pl : Plan) (beatNs : Nat) : Check :=
  let t := pl.clean
  firstFault [
    spanFault 0x0B pl t,
    needAll treeInvalid 0x0B t.entries (fun e => decide (depthOf pl t e.place ≤ t.depth)),
    need (t.depth == (t.entries.map (fun e => depthOf pl t e.place)).foldl max 0 && decide (t.depth ≤ 16) &&
      decide (10000 + 6000 * t.depth ≤ pl.timing.deadline * beatNs)) (faultAt treeInvalid 0x0B 0)]

/-- The active planned lanes of one direction of an edge in a map (R339). -/
def activeLanes (pl : Plan) (m a pa b pb : Nat) : Nat :=
  let lanes := match (linksIn pl m a pa false).find? (fun l => l.1 == (b, pb)) with
    | some l => laneCount l.2
    | none => 0
  lanes - max (reserveOf pl a pa 0) (reserveOf pl b pb 1)

/-- ESCAPE_TREE (R339): with the section absent, no minimal path may cross an intermediate module. -/
def escapeFault (pl : Plan) : Check :=
  if pl.hasEscape then firstFault [
    spanFault 0x0D pl pl.escape,
    needAll treeInvalid 0x0D pl.escape.entries (fun e => e.parentPort == 0xFF ||
      (match fibreAt pl e.place e.parentPort with
       | some f => (upto (max 1 pl.maps)).all (fun m =>
           decide (1 ≤ activeLanes pl m e.place e.parentPort f.1 f.2) &&
           decide (1 ≤ activeLanes pl m f.1 f.2 e.place e.parentPort))
       | none => false))]
  else
    needAll treeInvalid 0x02 pl.circuits (fun c => pl.circuits.all (fun d =>
      c.map != d.map || c.dst != d.src || c.src == d.dst ||
      pl.circuits.any (fun x => x.map == c.map && x.src == c.src && x.dst == d.dst)))

/-- A place of PLACES. -/
def isPlace (pl : Plan) (x : Nat) : Bool := pl.places.any (fun e => e.place == x)

/-- A flow of a place by number. -/
def flowOf (pl : Plan) (place n : Nat) : Option FlowEntry :=
  pl.flows.find? (fun f => f.place == place && f.num == n)

/-- BUDDY (R415). -/
def buddyOk (pl : Plan) (e : BuddyEntry) : Bool :=
  isPlace pl e.buddy && e.buddy != e.place && (match flowOf pl e.place e.flow with
    | some f => f.cls == 3 && f.peer == e.buddy && !f.host
    | none => false)

/-- A shard against its window, its group and QUEUES (Table 10-5). -/
def shardTreeOk (pl : Plan) (me : Nat) (x : Shard) : Bool :=
  match windowOfShard pl x, groupOf pl x.group with
  | some w, some g =>
    w.outAction == 1 && w.group == x.group && w.touched == g.touched &&
    (g.shape != 3 || (x.matRows * x.matCols == w.elements && x.borrow % 4096 != 0)) &&
    ((pl.gathers.drop x.gatherFirst).take x.gatherN).all (fun h => (flowOf pl me h.flow).isSome)
  | _, _ => false

/-- A flow pair names each other, with one CLASS and WINDOW (R363). -/
def flowPairOk (pl : Plan) (f : FlowEntry) : Bool :=
  f.host || (isPlace pl f.peer && (match flowOf pl f.peer f.peerFlow with
    | some g => g.peer == f.place && g.peerFlow == f.num && g.cls == f.cls && g.window == f.window && !g.host
    | none => false))

/-- A ring's flow and consumer (R363): a host ring names a HOST flow, a core has a core entry. -/
def queueTreeOk (pl : Plan) (q : QueueEntry) : Bool :=
  if q.consumer = 0xFF then
    match flowOf pl q.place q.flow with
    | some f => f.host
    | none => false
  else pl.cores.any (fun c => c.place == q.place && c.core == q.consumer)

/-- TREE_INVALID (R386, R339, R415, R249, R197, Table 09-2, R363). -/
def treeFault (pl : Plan) (me beatNs : Nat) : Check :=
  let r := treeInvalid
  firstFault [
    needItems pl r (fun i => i.kind != 4 || (groupOf pl i.b).isSome),
    needAll r 0x08 pl.shards (fun x => (windowOfShard pl x).isSome &&
      (!(servedShards pl me).contains x || shardTreeOk pl me x)),
    needAll r 0x09 pl.recipe.groups (fun w => (groupOf pl w.group).isSome),
    cleanFault pl beatNs,
    needAll r 0x0C pl.buddies (fun e => !(e.place == me || e.buddy == me) || buddyOk pl e),
    escapeFault pl,
    needAll r 0x0E pl.windows (fun w => isPlace pl w.owner && (w.outAction != 1 || (groupOf pl w.group).isSome) &&
      (w.owner != me || w.cq == 0xFFFF || pl.queues.any (fun q => q.place == me && q.num == w.cq))),
    needAll r 0x0F pl.queues (queueTreeOk pl),
    needAll r 0x0F pl.flows (flowPairOk pl)]

/-! ### Snapshots and deadlines (codes 0x0406 and 0x0407) -/

/-- The bytes that the LINK items of a position declare toward a place, on the ports of its minimal paths. -/
def bytesToward (pl : Plan) (me dst b : Nat) : Nat :=
  match (pl.stepList[b]?).bind (fun i => pl.programs[i]?) with
  | some p =>
    let ports := minimalPorts pl (mapAt pl b) me dst
    ((p.items.filter (fun i => i.kind == 8 && !i.rx && !i.host && ports.contains i.unit)).map (fun i => i.a)).sum
  | none => 0

/-- The first position with an UPDATE item. -/
def firstUpdate (pl : Plan) : Option Nat :=
  pl.stepList.findIdx? (fun i => match pl.programs[i]? with
    | some p => p.items.any (fun i => i.kind == 4)
    | none => false)

/-- SNAPSHOT_LATE (R27, R80): the LINK items toward the buddy from the commit guard of step s to the first
UPDATE beat of step s + 2 declare at least TOTAL bytes. -/
def snapshotFault (pl : Plan) (me : Nat) : Check :=
  if pl.timing.snapPeriod = 0 then none else
    pl.buddies.zipIdx.findSome? (fun e =>
      match e.1.place == me, firstUpdate pl with
      | true, some u =>
        let n := pl.timing.stepBeats
        let sum := fun (lo hi : Nat) => (((upto hi).drop lo).map (bytesToward pl me e.1.buddy)).sum
        let d := pl.timing.trafficEnd + pl.timing.deadline
        need (decide (e.1.total ≤ sum d n + sum 0 n + sum 0 u)) (faultAt 0x0406 0x0C e.2)
      | _, _ => none)

/-- DEADLINE_INVALID (R80, Table 09-2). -/
def deadlineFault (pl : Plan) : Check :=
  firstFault [
    need (decide (pl.timing.trafficEnd + pl.timing.deadline < pl.timing.stepBeats)) (faultAt deadlineInvalid 0x04 0),
    needAll deadlineInvalid 0x0E pl.windows (fun w =>
      decide (w.openBeat ≤ w.dueBeat) && decide (w.dueBeat ≤ pl.timing.trafficEnd))]

end Sys2Proof.Machine
end

