-- ==== Sys2Proof/Machine/PlanCost.lean ====
section
/-! DEFINITION. The cost model of admission (R72 to R77, R232, R259, R434): charges in exact units of time,
the limits of Table 03-9, chains, wakes, gating and power. -/

namespace Sys2Proof.Machine

/-! ### Charges

One ns is 168,000 units of time, so that a cycle of 0.5 ns and a byte at every rate of Table 03-9 are whole
numbers of units. -/

/-- One ns, one cycle, one byte at 24 TB/s, 12 TB/s and 3.0 TB/s, one packet's 40 ns. -/
def unitsNs : Nat := 168000
def unitsCycle : Nat := 84000
def unitsDram : Nat := 7
def unitsBridge : Nat := 14
def unitsPort : Nat := 56
def unitsPacket : Nat := 40 * 168000

/-- The multiply lanes kd of an engine for an item's format (Table 03-9): slots 10 and 11 of a cluster are
ME-N. -/
def lanesK (engine fmt : Nat) : Nat :=
  if engine % 12 < 10 then 4 else if fmt = 1 ∨ fmt = 3 then 8 else if fmt = 2 then 16 else 4

/-- The cycles of one slice, its drain apart. -/
def sliceCycles (engine k fmt passes : Nat) : Nat := 24 + ceilDiv k (lanesK engine fmt) * passes

/-- The cycles of one slice of a MATRIX item. -/
def Item.slice (i : Item) : Nat := sliceCycles i.unit i.a (i.b % 256) (i.b / 256)

/-- Drain cycles of `n` slices of `c` cycles each that another slice of the same item follows. -/
def innerDrains (n c : Nat) : Nat := if c < 64 then 64 * (n - 1) else 0

/-- The cycles of an engine's MATRIX items in order: a drain is hidden when the slice that follows it takes at
least 64 cycles, and the last slice's drain is charged. -/
def matrixCycles : List Item → Nat
  | [] => 0
  | i :: rest =>
    if i.c = 0 then matrixCycles rest else
      let next := rest.find? (fun j => j.c != 0)
      let drain := match next with
        | some j => if 64 ≤ j.slice then 0 else 64
        | none => 64
      i.c * i.slice + innerDrains i.c i.slice + drain + matrixCycles rest

/-- The cycles per 256 elements of a shape (R259). -/
def shapeCycles (shape : Nat) : Nat :=
  if shape = 0 then 2 else if shape = 1 then 6 else if shape = 2 then 3 else 4

/-- The first UPDATE item for a group on a unit, as position's program and item index. -/
def firstUpdateItem (pl : Plan) (die unit group : Nat) : Option (Nat × Nat) :=
  pl.stepList.findSome? (fun p => (pl.programs[p]?).bind (fun q =>
    (q.items.findIdx? (fun i => i.kind == 4 && i.die == die && i.unit == unit && i.b == group)).map (fun k => (p, k))))

/-- The bitmap scans charged to an item: those of the TOUCHED shards whose first UPDATE item it is. -/
def scanCycles (pl : Plan) (me prog item : Nat) : Nat :=
  ((servedShards pl me).map (fun x => match windowOfShard pl x with
    | some w =>
      if w.touched ∧ firstUpdateItem pl w.die x.unit x.group = some (prog, item) then
        ceilDiv (w.elements / w.rowElements) 2048
      else 0
    | none => 0)).sum

/-- The charge of a LINK item in a map, in units (R75). -/
def State.linkCharge (s : State) (pl : Plan) (m : Nat) (i : Item) : Nat :=
  let k := laneCount (s.itemLanes pl m i) - reserveOf pl s.place i.unit (b2n i.rx)
  i.a * (3360 / k) + i.b * unitsPacket

/-- The work time W of a beat, ns. -/
def workNs (pl : Plan) : Nat := pl.beatUs * 1000 - 2000

/-- What a LINK item charges its reverse data link in a map for ACKs, in units (R375): nothing where there is no
such link, or no active planned lane of it. -/
def State.ackCharge (s : State) (pl : Plan) (m : Nat) (i : Item) : Nat :=
  let k := laneCount (s.itemLanes pl m i.turned) - reserveOf pl s.place i.unit (b2n i.turned.rx)
  if k = 0 then 0
  else min i.b (ceilDiv i.b 16 + ceilDiv (workNs pl) 4000) * (64 * (3360 / k) + unitsPacket)

/-- The largest charge of a LINK item's ACKs over the maps under which its program runs. -/
def State.ackChargeMost (s : State) (pl : Plan) (prog : Nat) (i : Item) : Nat :=
  ((mapsOf pl prog).map (fun m => s.ackCharge pl m i)).foldl max 0

/-- The largest charge of a LINK item over the maps under which its program runs. -/
def State.linkChargeMost (s : State) (pl : Plan) (prog : Nat) (i : Item) : Nat :=
  ((mapsOf pl prog).map (fun m => s.linkCharge pl m i)).foldl max 0

/-- The charge of one item by itself, in units (Table 03-9). -/
def State.itemCharge (s : State) (pl : Plan) (prog idx : Nat) (i : Item) : Nat :=
  if i.kind = 1 then unitsCycle * matrixCycles [i]
  else if i.kind = 2 then unitsCycle * ((64 * i.a + 8) * i.b)
  else if i.kind = 3 then unitsCycle * (ceilDiv i.a 64 + 24 * i.b)
  else if i.kind = 4 then
    unitsCycle * (32 + ceilDiv i.a 256 * shapeCycles (((groupOf pl i.b).map (fun g => g.shape)).getD 3) +
      scanCycles pl s.place prog idx)
  else if i.kind = 5 then unitsDram * wholeLines i.a
  else if i.kind = 6 then unitsBridge * i.a
  else if i.kind = 7 then unitsPort * i.a
  else if i.kind = 8 then s.linkChargeMost pl prog i
  else 0

/-- The items of a program with their indices that charge a resource. -/
def onResource (p : Program) (r : Nat) : List (Item × Nat) :=
  p.items.zipIdx.filter (fun e => decide (e.1.kind ≤ 8) && e.1.resource == r)

/-- The charge of a resource in a program, as the largest over what is held to a limit of its own: the data
links of a port direction, the two ways of a cluster port. -/
def State.resourceCharge (s : State) (pl : Plan) (prog : Nat) (p : Program) (r : Nat) : Nat :=
  let es := onResource p r
  let sum := fun (es : List (Item × Nat)) => (es.map (fun e => s.itemCharge pl prog e.2 e.1)).sum
  if r / 2 ^ 24 = 1 then unitsCycle * matrixCycles (es.map (fun e => e.1))
  else if r / 2 ^ 24 = 7 then
    max (sum (es.filter (fun e => e.1.rx))) (sum (es.filter (fun e => !e.1.rx)))
  else if r / 2 ^ 24 = 8 then
    let back := p.items.filter (fun i => i.kind == 8 && i.turned.resource == r)
    ((es.map (fun e => e.1.c) ++ back.map (fun i => i.c)).eraseDups.map (fun c =>
      ((mapsOf pl prog).map (fun m =>
        ((es.filter (fun e => e.1.c == c)).map (fun e => s.linkCharge pl m e.1)).sum +
        ((back.filter (fun i => i.c == c)).map (fun i => s.ackCharge pl m i)).sum)).foldl max 0)).foldl max 0
  else sum es

/-- The limit of a resource, in units (Table 03-9). -/
def limitUnits (pl : Plan) (r : Nat) : Nat :=
  let w := workNs pl * unitsNs
  if r / 2 ^ 24 = 5 then w * 92 / 100 else if r / 2 ^ 24 = 8 then w * 97 / 100 else w

/-- Units of time as ns, rounded up, in a U32. -/
def excessNs (u : Nat) : Nat := min (ceilDiv u unitsNs) (2 ^ 32 - 1)

/-- The resources of a program in increasing code, the reverse direction of its LINK items among them. -/
def resourcesOf (p : Program) : List Nat :=
  (p.items.filter (fun i => decide (i.kind ≤ 8))).foldl (fun a i =>
    insertSorted i.resource (if i.kind = 8 then insertSorted i.turned.resource a else a)) []

/-- RESOURCE_OVER of one program (R72). -/
def State.programOver (s : State) (pl : Plan) : Check :=
  pl.programs.zipIdx.findSome? (fun p => (resourcesOf p.1).findSome? (fun r =>
    let c := s.resourceCharge pl p.2 p.1 r
    let l := limitUnits pl r
    need (decide (c ≤ l)) (faultIn pl resourceOver p.2 r (excessNs (c - l))
      ((((onResource p.1 r).head?).map (fun e => e.2)).getD 0))))

/-! ### Charges recomputed over the whole step (R74, R232, R259) -/

/-- What a section's entry needs of a resource: an amount of bytes or of units of work. -/
structure Need where
  resource : Nat
  amount : Nat
  section_ : Nat
  entry : Nat
deriving DecidableEq, Repr

/-- Every item of every step beat. -/
def stepItems (pl : Plan) : List Item :=
  pl.stepList.flatMap (fun p => match pl.programs[p]? with | some q => q.items | none => [])

/-- The first entry whose need the declared amount does not cover, with what is missing in all. -/
def shortOf (have_ : Nat) (ns : List Need) : Option (Need × Nat) :=
  let total := (ns.map (fun n => n.amount)).sum
  if total ≤ have_ then none
  else (ns.foldl (fun (a : Nat × Option Need) n =>
      (a.1 + n.amount, match a.2 with
        | some x => some x
        | none => if have_ < a.1 + n.amount then some n else none)) (0, none)).2.map (fun n => (n, total - have_))

/-- A shortfall as the fault that R482 gives: `rate` is the units of time that a missing amount takes. -/
def shortFault (have_ : Nat) (ns : List Need) (rate : Nat → Nat) : Check :=
  (shortOf have_ ns).map (fun e =>
    { faultAt resourceOver e.1.section_ e.1.entry with resource := e.1.resource, excess := excessNs (rate e.2) })

/-- The contributions and markers that a window expects in a chunk (R232). -/
def chunkCharge (w : Window) (n : Nat) : Nat :=
  if w.countMode = 0 then w.chunkSize n * w.count
  else if w.countMode = 1 then w.expected n
  else w.maxPerChunk + w.count

/-- The contributions of a window alone. -/
def contribCount (w : Window) : Nat :=
  ((upto w.chunkCount).map (fun n => if w.countMode = 2 then w.maxPerChunk else chunkCharge w n)).sum

/-- The owned windows with their entry indices. -/
def windowsHere (pl : Plan) (me : Nat) : List (Window × Nat) :=
  pl.windows.zipIdx.filter (fun e => e.1.owner == me)

/-- The served shards with their entry indices, windows and groups. -/
def shardsHere (pl : Plan) (me : Nat) : List (Shard × Nat × Window × Group) :=
  (pl.shards.zipIdx.filter (fun e => (servedShards pl me).contains e.1)).filterMap (fun e =>
    match windowOfShard pl e.1, groupOf pl e.1.group with
    | some w, some g => some (e.1, e.2, w, g)
    | _, _ => none)

/-- GRANARY items short of the contributions, markers and completions of a unit (R232). -/
def granaryShort (pl : Plan) (me die unit : Nat) : Check :=
  let r := 0x03000000 + die * 2 ^ 16 + unit
  let items := (stepItems pl).filter (fun i => i.resource == r)
  let ws := (windowsHere pl me).filter (fun e => e.1.die == die && bit e.1.mask unit)
  firstFault [
    shortFault ((items.map (fun i => i.a)).sum)
      (ws.map (fun e => ⟨r, (((upto e.1.chunkCount).filter (fun n => e.1.unitOf n == unit)).map (chunkCharge e.1)).sum,
        0x0E, e.2⟩)) (fun m => unitsCycle * ceilDiv m 64),
    shortFault ((items.map (fun i => i.b)).sum) (ws.map (fun e => ⟨r, 1, 0x0E, e.2⟩)) (fun m => unitsCycle * (24 * m))]

/-- The elements that a shard's UPDATE items are to cover (R259). -/
def requiredElements (x : Shard) (w : Window) (g : Group) : Nat :=
  if g.touched then 2 * w.maxTouched * w.rowElements
  else if g.shape = 3 then w.elements + g.iterations * x.matRows ^ 2
  else w.elements

/-- UPDATE items short of a group's elements on a unit (R259). -/
def updateShort (pl : Plan) (me die unit : Nat) : Check :=
  let r := 0x04000000 + die * 2 ^ 16 + unit
  pl.groups.findSome? (fun g =>
    let have_ := (((stepItems pl).filter (fun i => i.resource == r && i.b == g.num)).map (fun i => i.a)).sum
    let ns := ((shardsHere pl me).filter (fun e => e.2.2.1.die == die && e.1.unit == unit && e.2.2.2.num == g.num)).map
      (fun e => Need.mk r (requiredElements e.1 e.2.2.1 g) 0x08 e.2.1)
    shortFault have_ ns (fun m => unitsCycle * (ceilDiv m 256 * shapeCycles g.shape)))

/-- Accesses of one kind: the stack, how many, and the bytes that each reads and writes. -/
structure Traffic where
  stack : Nat
  times : Nat
  reads : Nat
  writes : Nat
deriving DecidableEq, Repr

/-- The DRAM bytes of accesses, each counted in whole lines (R264). -/
def Traffic.dram (t : Traffic) : Nat := t.times * (wholeLines t.reads + wholeLines t.writes)

/-- What a shard moves to and from its regions (R259): a TOUCHED shard's rows one by one, another's arrays whole. The r
of R259 is MAT_ROWS, also where the iteration runs on the transpose (assumption 64). -/
def shardTraffic (pl : Plan) (x : Shard) (w : Window) (g : Group) : List Traffic :=
  let stack := fun (n : Nat) => ((regionOf pl n).map (fun r => r.base / 2 ^ 39)).getD w.die
  let k := if g.touched then 2 * w.maxTouched else 1
  let n := if g.touched then w.rowElements else w.elements
  let rows := if w.rowElements = 0 then 0 else w.elements / w.rowElements
  let none32 := 0xFFFFFFFF
  let pr := stack x.paramRegion
  let op := stack x.optRegion
  let sc := x.scratch / 2 ^ 39
  [⟨pr, k, 4 * n, 4 * n⟩, ⟨pr, k, 0, if bit x.flags 0 then elemBytes x.copyFormat n else 0⟩] ++
  (if x.mOff = none32 then [] else [⟨op, k, 4 * n, 4 * n⟩]) ++
  (if x.vOff = none32 then [] else [⟨op, k, 4 * n, 4 * n⟩]) ++
  (if g.touched then [⟨op, 1, 4 * rows, 4 * rows⟩, ⟨op, 1, ceilDiv rows 8, ceilDiv rows 8⟩] else []) ++
  (if g.shape = 3 then [⟨sc, 1, 4 * n, 4 * n⟩, ⟨sc, g.iterations, 8 * x.matRows ^ 2, 4 * x.matRows ^ 2⟩] else [])

/-- The bytes of each core image that a step reloads: stack, bytes and entry (R181). -/
def State.reloads (s : State) (pl : Plan) : List (Nat × Nat × Nat × Nat) :=
  (pl.cores.zipIdx.filter (fun e => e.1.place == s.place)).filterMap (fun e =>
    (regionOf pl e.1.region).map (fun r =>
      let h := memRead s.mem.bytes (r.base + e.1.offset) 16
      (r.base / 2 ^ 39, e.1.core / 8, 16 + fieldLe h 0 4 + fieldLe h 4 4, e.2)))

/-- The entries of BUDDY by which this module sends snapshots, or keeps another's, with their indices. -/
def snapsHere (pl : Plan) (me : Nat) (keeps : Bool) : List (BuddyEntry × Nat) :=
  if pl.timing.snapPeriod = 0 then []
  else pl.buddies.zipIdx.filter (fun e => (if keeps then e.1.buddy else e.1.place) == me)

/-- A snapshot's share of one step: it is spread over the steps of its period (R74, R416). -/
def perStep (pl : Plan) (n : Nat) : Nat := ceilDiv n (max 1 pl.timing.snapPeriod)

/-- What snapshots read from the source's regions and write into the buddy's in a stack (R74). -/
def snapNeeds (pl : Plan) (me stack r : Nat) : List Need :=
  let inStack := fun (n : Nat) => match regionOf pl n with
    | some g => if g.base / 2 ^ 39 = stack then g.len else 0
    | none => 0
  (snapsHere pl me false).map (fun e => Need.mk r (perStep pl (e.1.regions.map inStack).sum) 0x0C e.2) ++
  (snapsHere pl me true).map (fun e =>
    Need.mk r (if [e.1.snap, e.1.snap2].any (fun n => inStack n != 0) then perStep pl (wholeLines e.1.total) else 0) 0x0C e.2)

/-- DRAM items short of what windows, shards, snapshots and core reloads read and write in a stack. -/
def State.dramShort (s : State) (pl : Plan) (stack : Nat) : Check :=
  let me := s.place
  let r := 0x05000000 + stack * 2 ^ 16
  let have_ := (((stepItems pl).filter (fun i => i.resource == r)).map (fun i => wholeLines i.a)).sum
  let ws := ((windowsHere pl me).filter (fun e => e.1.die == stack)).map (fun e =>
    Need.mk r ((if e.1.outAction = 0 then wholeLines (e.1.elements * outSize e.1) else 0) +
      wholeLines (touchedBytes e.1) + (if e.1.spill then 64 * contribCount e.1 else 0)) 0x0E e.2)
  let us := (shardsHere pl me).map (fun e =>
    Need.mk r (((shardTraffic pl e.1 e.2.2.1 e.2.2.2).filter (fun t => t.stack == stack)).map
      Traffic.dram).sum 0x08 e.2.1)
  let cs := ((s.reloads pl).filter (fun e => e.1 == stack)).map (fun e => Need.mk r (wholeLines e.2.2.1) 0x0F e.2.2.2)
  let qs := (pl.queues.zipIdx.filter (fun e => e.1.place == me && e.1.consumer != 0xFF &&
      ((regionOf pl e.1.region).map (fun g => g.base / 2 ^ 39)) == some stack)).map (fun e =>
    Need.mk r (64 * Config.queueReads e.1.num) 0x0F e.2)
  shortFault have_ (us ++ snapNeeds pl me stack r ++ ws ++ qs ++ cs) (fun m => unitsDram * m)

/-- The most bridge bytes that one contribution to a window takes (R232): a tally's, or an indexed value's. -/
def contribBytes (w : Window) : Nat := if w.sumMode = 0 then 24 else 8

/-- BRIDGE items short of what shards, core reloads and the contributions that arrive on a port of the other die move
from one die to the other (R17, R232, R259). What a window's contributions that arrive there take, by their number and
forms, no section states: a free value within what all of them can take (assumption 64). -/
def State.bridgeShort (s : State) (pl : Plan) (dir : Nat) : Check :=
  let me := s.place
  let r := 0x06000000 + dir * 2 ^ 16
  let have_ := (((stepItems pl).filter (fun i => i.resource == r)).map (fun i => i.a)).sum
  let us := (shardsHere pl me).map (fun e =>
    Need.mk r (((shardTraffic pl e.1 e.2.2.1 e.2.2.2).filter (fun t => t.stack != e.2.2.1.die)).map
      (fun t => t.times * (if t.stack = dir then t.reads else t.writes))).sum 0x08 e.2.1)
  let cs := ((s.reloads pl).filter (fun e => e.1 != e.2.1 && e.1 == dir)).map (fun e =>
    Need.mk r e.2.2.1 0x0F e.2.2.2)
  let ws := ((windowsHere pl me).filter (fun e => e.1.die != dir)).map (fun e =>
    Need.mk r (min (Config.crossBytes e.1.num) (contribBytes e.1 * contribCount e.1)) 0x0E e.2)
  shortFault have_ (us ++ ws ++ cs) (fun m => unitsBridge * m)

/-- The tiles, the contraction length and the elements that the FILLs of all tiles read, of each phase of one iteration
(R259): `r` rows and `c` columns of tiles, both operands filled for every slice. -/
def iterationPhases (r c : Nat) : List (Nat × Nat × Nat) :=
  let a := ceilDiv r 64
  let b := ceilDiv c 64
  [(a * a, c, 2 * a * r * c), (a * a, r, 2 * a * r * r), (a * b, r, (b * r + a * c) * r)]

/-- The cycles of `n` slices of `c` cycles each on one engine, whose last drain nothing hides (Table 03-9, R244). -/
def phaseCycles (n c : Nat) : Nat := if n = 0 then 0 else n * c + innerDrains n c + 64

/-- MATRIX items short of the borrowed slices of a slot (R243, R244): tiles go round-robin over the slots in
each phase. -/
def matrixShort (pl : Plan) (me engine die : Nat) : Check :=
  let r := 0x01000000 + die * 2 ^ 16 + engine
  let have_ := (pl.stepList.map (fun p => match pl.programs[p]? with
    | some q => matrixCycles (q.items.filter (fun i => i.resource == r))
    | none => 0)).sum
  let ns := ((shardsHere pl me).filter (fun e => e.2.2.2.shape == 3 && e.2.2.1.die == die &&
      bits e.1.borrow 12 3 == engine / 12 && bit e.1.borrow (engine % 12))).map (fun e =>
    let slots := setBitsOf 12 e.1.borrow
    let j := (slots.findIdx? (fun x => x == engine % 12)).getD 0
    let fmt := if e.2.2.2.matFormat = 1 then 0 else 4
    let per := ((iterationPhases e.1.matRows e.1.matCols).map (fun ph =>
      phaseCycles (ceilDiv (ph.1 - j) slots.length) (sliceCycles engine ph.2.1 fmt e.2.2.2.matPasses))).sum
    Need.mk r (e.2.2.2.iterations * per) 0x08 e.2.1)
  shortFault have_ ns (fun m => unitsCycle * m)

/-- CLUSTER_PORT items short of the FILL bytes of the borrowed slices: two FP32 operands for each slice. -/
def portShort (pl : Plan) (me die cluster : Nat) : Check :=
  let r := 0x07000000 + die * 2 ^ 16 + cluster
  let have_ := (((stepItems pl).filter (fun i => i.resource == r && i.rx)).map (fun i => i.a)).sum
  let ns := ((shardsHere pl me).filter (fun e => e.2.2.2.shape == 3 && e.2.2.1.die == die &&
      bits e.1.borrow 12 3 == cluster)).map (fun e =>
    let per := ((iterationPhases e.1.matRows e.1.matCols).map (fun ph => 4 * ph.2.2)).sum
    Need.mk r (e.2.2.2.iterations * per) 0x08 e.2.1)
  shortFault have_ ns (fun m => unitsPort * m)

/-- The bytes and the packets of gather WRITEs through one entry: one WRITE per row of a TOUCHED group. -/
def gatherCharge (w : Window) (g : Group) (h : Gather) : Nat × Nat :=
  let k := if g.touched then 2 * w.maxTouched else 1
  let n := elemBytes h.format (if g.touched then w.rowElements else w.elements)
  (k * n, k * ceilDiv n 4096)

/-- LINK items toward a peer short of the gather WRITEs and the snapshots to it (R74, R259). -/
def State.linkShort (s : State) (pl : Plan) (peer : Nat) : Check :=
  let me := s.place
  let items := pl.stepList.zipIdx.flatMap (fun e => match pl.programs[e.1]? with
    | some q =>
      let ports := minimalPorts pl (mapAt pl e.2) me peer
      q.items.filter (fun i => i.kind == 8 && !i.rx && !i.host && ports.contains i.unit)
    | none => [])
  let port := ((minimalPorts pl 0 me peer).head?).getD 0
  let r := 0x08000000 + port
  let ns := (shardsHere pl me).map (fun e => (e.2.1,
    (((pl.gathers.drop e.1.gatherFirst).take e.1.gatherN).filter (fun h =>
      (flowOf pl me h.flow).map (fun f => f.peer) == some peer)).map (gatherCharge e.2.2.1 e.2.2.2)))
  let k := laneCount ((linksIn pl 0 me port false).foldl (fun a l => a ||| l.2) 0) - reserveOf pl me port 0
  let snaps := (snapsHere pl me false).filter (fun e => e.1.buddy == peer)
  firstFault [
    shortFault ((items.map (fun i => i.a)).sum) (ns.map (fun e => ⟨r, (e.2.map (fun b => b.1)).sum, 0x08, e.1⟩) ++
      snaps.map (fun e => ⟨r, perStep pl e.1.total, 0x0C, e.2⟩)) (fun m => m * (3360 / max 1 k)),
    shortFault ((items.map (fun i => i.b)).sum) (ns.map (fun e => ⟨r, (e.2.map (fun b => b.2)).sum, 0x08, e.1⟩) ++
      snaps.map (fun e => ⟨r, perStep pl (ceilDiv e.1.total 4096), 0x0C, e.2⟩)) (fun m => m * unitsPacket)]

/-- RESOURCE_OVER over the whole step. -/
def State.stepOver (s : State) (pl : Plan) : Check :=
  let me := s.place
  let peers := ((pl.flows.filter (fun f => f.place == me && !f.host)).map (fun f => f.peer)).eraseDups
  firstFault [
    [0, 1].findSome? (fun d => (upto 96).findSome? (fun e => matrixShort pl me e d)),
    [0, 1].findSome? (fun d => (upto 16).findSome? (fun u => granaryShort pl me d u)),
    [0, 1].findSome? (fun d => (upto 2).findSome? (fun u => updateShort pl me d u)),
    [0, 1].findSome? (fun d => s.dramShort pl d),
    [0, 1].findSome? (fun d => s.bridgeShort pl d),
    [0, 1].findSome? (fun d => (upto 8).findSome? (fun c => portShort pl me d c)),
    peers.findSome? (fun p => s.linkShort pl p)]

/-! ### Chains (R73) -/

/-- An item in its place: its program, index, start and end in units after the guard, and the index of its
chain's first item. -/
structure Placed where
  item : Item
  index : Nat
  head : Nat
  start : Nat
  stop : Nat
deriving DecidableEq, Repr

/-- The items of a program in their places (R70, R73): an item with AFTER starts when the previous one ends,
every other at the guard's end; a WAKE or GATE stands at its offset. -/
def State.placeItems (s : State) (pl : Plan) (prog : Nat) : List (Item × Nat) → Nat → Nat → List Placed
  | [], _, _ => []
  | e :: es, head, t =>
    let after := bit e.1.flags 1 && decide (0 < e.2)
    let start := if after then t else 0
    let h := if after then head else e.2
    let stop := if 9 ≤ e.1.kind then max start (e.1.a * unitsNs)
      else start + s.itemCharge pl prog e.2 e.1
    ⟨e.1, e.2, h, start, stop⟩ :: s.placeItems pl prog es h stop

/-- The items of program `prog` in their places. -/
def State.placedItems (s : State) (pl : Plan) (prog : Nat) (p : Program) : List Placed :=
  s.placeItems pl prog p.items.zipIdx 0 0

/-- CHAIN_OVER (R73). -/
def State.chainFault (s : State) (pl : Plan) : Check :=
  let w := workNs pl * unitsNs
  pl.programs.zipIdx.findSome? (fun p => (s.placedItems pl p.2 p.1).findSome? (fun x =>
    need (decide (x.stop ≤ w)) (faultIn pl 0x0402 p.2 (0x0B000000 + x.head)
      (excessNs ((((s.placedItems pl p.2 p.1).filter (fun y => y.head == x.head)).map (fun y => y.stop)).foldl max 0 - w))
      x.head)))

/-! ### Wakes and gating (R77, R434, R438) -/

/-- A wake before another, by offset and then by domain. -/
def wakeBefore (a b : WakeStarted) : Bool :=
  decide (a.at_ < b.at_) || (a.at_ == b.at_ && decide (a.domain < b.domain))

/-- Wakes in order of offset and domain. -/
def insertWake (w : WakeStarted) : List WakeStarted → List WakeStarted
  | [] => [w]
  | x :: xs => if wakeBefore w x then w :: x :: xs else x :: insertWake w xs

/-- The wakes of a program in order. -/
def wakesOf (p : Program) : List WakeStarted :=
  (p.items.filter (fun i => i.kind == 9)).foldl (fun a i => insertWake ⟨i.a, i.unit⟩ a) []

/-- The first wake that breaks a limit against those before it. -/
def firstBreak (before : List WakeStarted) : List WakeStarted → Option (List WakeStarted × WakeStarted)
  | [] => none
  | w :: ws =>
    if wakeFits (before.filter (fun x => decide (x.at_ ≤ w.at_))) w.domain w.at_ then firstBreak (before ++ [w]) ws
    else some (before, w)

/-- WAKE_OVER (R77, R482). -/
def wakeFault (pl : Plan) : Check :=
  pl.programs.zipIdx.findSome? (fun p =>
    let ws := wakesOf p.1
    (firstBreak [] ws).map (fun b =>
      let inside := b.1.filter (fun x => decide (b.2.at_ < x.at_ + 1000))
      let first := (inside.head?).getD b.2
      faultIn pl 0x0403 p.2 (0x09000000 + first.domain)
        (earliestWake (ws.erase b.2) b.2.domain b.2.at_ - b.2.at_)
        ((p.1.items.findIdx? (fun i => i.kind == 9 && i.a == b.2.at_ && i.unit == b.2.domain)).getD 0)))

/-- The gateable domain that an item uses. -/
def Item.domain (i : Item) : Option Nat :=
  if i.kind = 1 ∨ i.kind = 2 then some (12 * i.die + i.unit / 12)
  else if i.kind = 7 then some (12 * i.die + i.unit)
  else if i.kind = 4 then some (12 * i.die + 10)
  else none

/-- A domain's gating as admission follows it, times in units from the start of the walk: on, gated, or waking
since its WAKE. -/
inductive Gating where
  | on
  | gated
  | waking (since : Nat)
deriving DecidableEq, Repr

/-- A domain after a WAKE or GATE item at a moment. -/
def Gating.after (g : Gating) (wake : Bool) (t : Nat) : Gating :=
  if wake then (match g with | .gated => .waking t | other => other) else .gated

/-- The WAKE and GATE items of a domain in a program, in order of offset: the offset and whether it wakes. -/
def gatesOf (p : Program) (d : Nat) : List (Nat × Bool) :=
  ((p.items.filter (fun i => decide (9 ≤ i.kind) && i.unit == d)).foldl
    (fun (a : List (Nat × Bool)) i =>
      a.filter (fun e => decide (e.1 ≤ i.a)) ++ [(i.a, i.kind == 9)] ++ a.filter (fun e => decide (i.a < e.1))) [])

/-- How late an item comes for its domain, in units; 0 when it is in time. `t0` is the moment of the guard's
end. -/
def itemLate (g : Gating) (gates : List (Nat × Bool)) (d t0 : Nat) (x : Placed) : Nat :=
  let lat := domLatency d * unitsNs
  let before := gates.filter (fun e => decide (e.1 * unitsNs ≤ x.start))
  let g := before.foldl (fun g e => g.after e.2 (t0 + e.1 * unitsNs)) g
  match g with
  | .gated => lat
  | .waking since => if t0 + x.start < since + lat then since + lat - (t0 + x.start) else
      (match gates.find? (fun e => !e.2 && decide (x.start < e.1 * unitsNs) && decide (e.1 * unitsNs < x.stop)) with
       | some e => x.stop - e.1 * unitsNs
       | none => 0)
  | .on =>
      (match gates.find? (fun e => !e.2 && decide (x.start < e.1 * unitsNs) && decide (e.1 * unitsNs < x.stop)) with
       | some e => x.stop - e.1 * unitsNs
       | none => 0)

/-- The walk through STEP_LIST (R434): the domains' gating, and the late item of the lowest program index
found so far. -/
structure Walk where
  gating : Bank Gating
  found : Option (Nat × Nat × Nat × Nat)
deriving DecidableEq, Repr

/-- One position of the walk; `found` holds program, item, domain and lateness. -/
def State.walkBeat (s : State) (pl : Plan) (w : Walk) (pos prog : Nat) : Walk :=
  match pl.programs[prog]? with
  | none => w
  | some p =>
    let t0 := (pos * pl.beatUs * 1000 + 2000) * unitsNs
    let late := (s.placedItems pl prog p).findSome? (fun x => match x.item.domain with
      | some d =>
        let l := itemLate (Bank.get w.gating .on d) (gatesOf p d) d t0 x
        if l = 0 then none else some (prog, x.index, d, l)
      | none => none)
    let lower := match w.found with
      | some f => decide (prog < f.1)
      | none => true
    { gating := (domains48.filter gateable).foldl (fun b d =>
        Bank.set b .on d ((gatesOf p d).foldl (fun g e => g.after e.2 (t0 + e.1 * unitsNs)) (Bank.get b .on d))) w.gating,
      found := if lower && late.isSome then late else w.found }

/-- WAKE_LATE (R77, R434): STEP_LIST from position 0, and once more around. -/
def State.lateFault (s : State) (pl : Plan) : Check :=
  let walk := (pl.stepList ++ pl.stepList).zipIdx.foldl (fun w e => s.walkBeat pl w e.2 e.1) ⟨[], none⟩
  walk.found.map (fun f => faultIn pl 0x0404 f.1 (0x09000000 + f.2.2.1) (excessNs f.2.2.2) f.2.1)

/-! ### Power (R76, R486) -/

/-- The units of some kinds that have an item in a program. -/
def busyUnits (p : Program) (ks : List Nat) : Nat :=
  ((resourcesOf p).filter (fun r => ks.contains (r / 2 ^ 24))).length

/-- A program in whose beats pattern cases may run: its idle flag, the plan's flag and the agreed feature (R486). -/
def State.mayIdle (s : State) (pl : Plan) (p : Program) : Bool :=
  bit p.flags 0 && bit pl.timing.flags 0 && bit (s.obj oFeaturesAgreed) 12

/-- 9,408 times what the units without an item add to the estimate when each runs a case for the whole of W, by
kind of unit (R486, assumption 15). -/
def idlePower (p : Program) : Nat :=
  1400 * 49 * (192 - busyUnits p [1]) + 200 * 48 * (196 - busyUnits p [2, 4]) + 200 * 294 * (32 - busyUnits p [3])

/-- 9,408 × W times the estimated power of a program, in watts (R76, R486). -/
def State.powerScaled (s : State) (pl : Plan) (prog : Nat) (p : Program) : Nat :=
  let sum := fun (ks : List Nat) =>
    (((p.items.zipIdx.filter (fun e => ks.contains e.1.kind && e.1.kind != 1)).map (fun e =>
      s.itemCharge pl prog e.2 e.1)).sum)
  let matrix := ((resourcesOf p).filter (fun r => r / 2 ^ 24 == 1)).map (fun r => s.resourceCharge pl prog p r)
  let w := workNs pl * unitsNs
  300 * 9408 * w + 1400 * 49 * matrix.sum + 200 * 48 * sum [2, 4] + 200 * 294 * sum [3] +
    320 * 4704 * sum [5] +
    410 * 196 * (sum [8] + ((p.items.filter (fun i => i.kind == 8)).map (fun i => s.ackChargeMost pl prog i)).sum) +
    (if s.mayIdle pl p then w * idlePower p else 0)

/-- The watts, rounded up, by which a / b exceeds the FP32 value of POWER_ALLOWED_W; 0 when it does not. -/
def wattsOver (a b allowed : Nat) : Nat :=
  match fmtFp32.decode allowed with
  | .num neg m e =>
    let m := if neg then 0 else m
    let num := if 0 ≤ e then m * 2 ^ e.toNat else m
    let den := if 0 ≤ e then 1 else 2 ^ (-e).toNat
    ceilDiv (a * den - num * b) (b * den)
  | .inf _ => 0
  | .nan => ceilDiv a b

/-- POWER_OVER (R76, R482): `held` says that ADMIT was written while THERMAL_STOP held domains off. -/
def State.powerFault (s : State) (pl : Plan) (held : Bool) : Check :=
  firstFault [
    need (!held) { faultOnly 0x0405 with resource := 0x0A000000 },
    pl.programs.zipIdx.findSome? (fun p =>
      let unit := 9408 * (workNs pl * unitsNs)
      let excess := wattsOver (max (p.1.power * unit) (s.powerScaled pl p.2 p.1)) unit (s.obj oPowerAllowedW)
      need (excess == 0) { faultIn pl 0x0405 p.2 0x0A000000 0 0 with detail := min excess 65535 })]

end Sys2Proof.Machine
end

