-- ==== Sys2Proof/Machine/Admission.lean ====
section
/-! DEFINITION. Admission (R79 to R82): ADMIT and its result, what an admitted plan sets, PREPARE, JOB_START,
JOB_STOP and RELEASE. -/

namespace Sys2Proof.Machine

/-- The first failure of the checks in the order of Table 03-10 (R79). -/
def State.planFault (s : State) (bs : Bytes) (pl : Plan) (a : Admitting) : Check :=
  firstFault [
    s.surroundFault pl, s.formatFault bs pl, limitFault bs pl, badPlaceFault pl, s.ownFault pl,
    s.matchFault pl, s.linkFeatureFault pl, s.wavelengthFault bs pl a.unlocked, s.circuitFault pl,
    s.reserveFault pl a.beyond, regionFault pl s.place, s.capacityFault pl, s.engineFault pl,
    treeFault pl s.place s.beatNs, s.programOver pl, s.stepOver pl, s.chainFault pl, wakeFault pl, s.lateFault pl,
    s.powerFault pl a.held, snapshotFault pl s.place, deadlineFault pl]

/-- A write of ADMIT (R79): the loaded plan is being admitted from here on. -/
def State.actAdmit (s : State) : State :=
  if s.planState = 1 then
    let pl := parsePlan (s.blob oPlanBlob)
    let a : Admitting :=
      { since := s.now, unlocked := s.laneNotLocked pl, beyond := s.portBeyond pl, held := s.power.thermalHeld }
    { (s.cmdStart oAdmit).setObj oPlanState 2 with plan := some pl, admitting := some a }
  else s.cmdFail oAdmit abPlanAdmitted

/-- The result of 0x2021 (R81, R482). -/
def State.setPlanResult (s : State) (f : PlanFault) : State :=
  (((((s.setObj oReason f.reason).setObj oStepBeat f.stepBeat).setObj oProgram f.program).setObj
    oResource f.resource).setObj oExcessNs f.excess).setObj oDetail f.detail

/-- The groups' update counts at admission: each T0, or GROUP_T_START where it is set (Table 10-3,
0x3310.02). -/
def State.startCounts (s : State) (pl : Plan) : Bank Nat :=
  let b := s.blob oGroupTStart
  let b := if b = [] then pl.groups.foldl (fun (m : Bank Nat) g => Bank.set m 0 g.num g.t0) []
    else (upto 1024).foldl (fun (m : Bank Nat) g => Bank.set m 0 g (fieldLe b (4 * g) 4)) []
  b

/-- A kind entry as its 8 bytes (Table 08-4). -/
def KindEntry.bytes (k : KindEntry) : Bytes :=
  natLe 1 k.kind ++ natLe 1 k.format ++ natLe 1 k.altFormat ++ natLe 1 k.modes ++ natLe 2 (ofSigned 16 k.anchor) ++
  natLe 1 (ofSigned 8 k.lossScale) ++ [0]

/-- The recipe's objects (R199, R212). -/
def State.setRecipe (s : State) (r : Recipe) : State :=
  let e := s.obj oLsStartExp
  let n := s.obj oLsStartRun
  let kinds := r.kinds.foldl (fun b k => overwrite b (8 * k.kind) k.bytes) (blobDefault oRecipeKinds)
  let limits := ofSigned 16 r.lsMin + ofSigned 16 r.lsMax * 2 ^ 16 + r.growthInterval * 2 ^ 32 + r.backoff * 2 ^ 48 +
    r.growth * 2 ^ 56
  (((((s.setObj oLsExp (if e = 0x7FFF then ofSigned 16 r.startExp else e)).setObj oLsRun
    (if n = 0xFFFFFFFF then r.startRun else n)).setObj oLsLimits limits).setBlob oRecipeKinds kinds).setObj
    oTensorCount r.tensors.length).setObj oLossSource (r.lossSourceKind * 2 ^ 56 + r.lossSource)

/-- The step-clean tree's objects (0x7010). -/
def State.setTree (s : State) (pl : Plan) : State :=
  let me := s.place
  let t := pl.clean
  let parent := match t.entries.find? (fun e => e.place == me) with
    | some e => e.parentPort
    | none => 0xFF
  let kids := (upto 24).filter (fun p => match fibreAt pl me p with
    | some f => t.entries.any (fun e => e.place == f.1 && e.parentPort == f.2)
    | none => false)
  ((((s.setObj oTreeRoot t.root).setObj oTreeParentPort parent).setObj oTreeChildren (laneMask kids)).setObj
    oTreeDepth t.depth).setObj oTreeCount t.count

/-- The flows of the plan here, OPEN (Table 14-5). -/
def State.openFlows (s : State) (pl : Plan) : State :=
  let fs := pl.flows.filter (fun f => f.place == s.place)
  let s := fs.foldl (fun (s : State) f => s.setFlow f.num
    { FlowSt.init with state := 1, peer := f.peer, peerFlow := f.peerFlow, host := f.host, cls := f.cls,
                       window := f.window }) { s with flows := [], rings := [] }
  s.setObj oFlowsOpen fs.length

/-- The counts of the admitted plan, its queues and its maps. -/
def State.setPlanCounts (s : State) (pl : Plan) : State :=
  let me := s.place
  let qs := pl.queues.filter (fun q => q.place == me)
  let ev := match qs.find? (fun q => q.kind == 2) with
    | some q => q.num
    | none => 0xFFFFFFFF
  let s := ((s.setObj oQueuesDeclared qs.length).setObj oEventQueue ev).setObj oWindowsOwned (windowsAt pl me).length
  ((((s.setObj oShardsServed (servedShards pl me).length).setObj oRegionCount pl.regions.length).setObj
    oRtMapTables pl.maps).setObj oMapNow 0).setObj oPowerPeakW 0

/-- Strikes against units and slots and the cores' disagreements counted from 0 (R149, R184, R412). -/
def State.clearStrikes (s : State) : State :=
  let s : State := { s with unitStrikes := [],
                            cores := Bank.mapAll s.cores CoreSt.init (fun _ (c : CoreSt) => { c with locksteps := 0 }) }
  (upto 192).foldl (fun (s : State) k => s.setObj (oStrike k) 0) s

/-- The blob's digest, and its identifier and seed as the objects show them (0x2020.05, 0x2020.06, R192). -/
def State.setPlanDigest (s : State) (bs : Bytes) (pl : Plan) : State :=
  ((s.setBlob oPlanDigest (sha384 bs)).setObj oPlanId pl.id).setObj oSeedDigest (fieldLe (sha384 pl.seed) 0 8)

/-- A plan becomes ADMITTED. -/
def State.admitPlan (s : State) (bs : Bytes) (pl : Plan) : State :=
  let s := (s.setObj oPlanState 3).setPlanDigest bs pl
  let s := (((s.setPlanCounts pl).setTree pl).setRecipe pl.recipe).openFlows pl
  let s := (s.clearStrikes.setObj oFaultReplays 0).setObj oOverflowReplays 0
  { s with plan := some pl, admitting := none, keeper := none, groupT := s.startCounts pl, step := StepSt.init,
           mem := { s.mem with committed := [] } }

/-- ADMISSION_RESULT (R79, R81): the result of the checks, within 2 s of the write of ADMIT. -/
def execAdmissionResult (s : State) : Host.Outcome State Fault Refusal :=
  let s := s.quiet
  match s.admitting with
  | none => .next s
  | some a =>
    let bs := s.blob oPlanBlob
    let pl := parsePlan bs
    match s.planFault bs pl a with
    | none => .next (((s.setPlanResult (faultOnly 0)).admitPlan bs pl).cmdDone oAdmit)
    | some f =>
      let s : State := { s with plan := none, admitting := none }
      .next (((s.setPlanResult f).setObj oPlanState 1).cmdFail oAdmit f.reason)

/-! ### PREPARE (R294) -/

/-- The ports that a section's circuits name here. -/
def circuitPorts (pl : Plan) (me : Nat) : List Nat :=
  (upto 24).filter (fun p => pl.circuits.any (fun c => (channelsIn me c ++ channelsOut me c).contains p))

/-- The code with which a write of PREPARE fails, in the order of R294. -/
def State.prepareFault (s : State) (beat : Nat) : Option Nat :=
  let bs := s.blob oPlanBlob
  let pl := parsePlan bs
  if s.planState ≠ 1 then some (if s.planHeld then abPlanAdmitted else abValueRange)
  else if beat < s.bell.beat + 2 then some abValueRange
  else if s.bellIsLocked = false then some 0x0102
  else if (circuitPorts pl s.place).any (fun p => s.linkClass p != 2) then some linkNotMatch
  else (firstFault [
    circuitsFault (sectionOf bs 0x02) (dirOf bs 0x02).isSome pl s.place,
    need (decide (pl.maps ≤ 1) || bit (s.obj oFeaturesAgreed) 10) (faultOnly featureNotAgreed),
    s.circuitFault pl]).map (fun f => f.reason)

/-- A write of PREPARE: the rehearsal of the loaded blob is scheduled (R294, R295). -/
def State.actPrepare (s : State) (beat : Nat) : State :=
  match s.prepareFault beat with
  | some c => s.cmdFail oPrepare c
  | none =>
    let pl := parsePlan (s.blob oPlanBlob)
    let p : Prep := { start := beat, block := max 16 (ceilDiv 2000 (s.obj oBeatLengthUs)), maps := pl.maps, map := 0,
                      seen := [], isOver := false }
    { (s.cmdStart oPrepare).setObj oPrepareState 1 with prep := some p }

/-! ### JOB_START, JOB_STOP and RELEASE (R82) -/

/-- A write of JOB_START. -/
def State.actJobStart (s : State) (beat : Nat) : State :=
  if s.planState ≠ 3 ∨ beat < s.bell.beat + 2 then s.cmdFail oJobStart abValueRange
  else { s.cmdStart oJobStart with step := { s.step with jobAt := some beat, stopped := false } }

/-- A write of JOB_STOP: no further step begins. -/
def State.actJobStop (s : State) : State :=
  (if s.admitted then { s with step := { s.step with stopped := true } } else s).cmdDone oJobStop

/-- A write of RELEASE: it takes effect at the next guard. -/
def State.actRelease (s : State) : State :=
  if s.admitted then { s.cmdStart oRelease with step := { s.step with releaseWaiting := true } }
  else if s.planState = 2 then s.cmdFail oRelease abPlanAdmitted
  else s.cmdDone oRelease

end Sys2Proof.Machine
end

