-- ==== Sys2Proof/Machine/Integrity.lean ====
section
/-! DEFINITION. Silent-error defence (chapter 15): verdicts and strikes, fences, evidence, and pattern
cases in idle beats. -/

namespace Sys2Proof.Machine

/-! ### Strikes against engines (R149 to R153) -/

/-- The spares of a slot's class on its die. -/
def spareClass (engine : Nat) : List Nat := if engine % 12 < 10 then [80, 81] else [98, 99]

/-- The lowest unbound spare of a slot's class (R150). -/
def State.pickSpare (s : State) (die engine : Nat) : Option Nat := (spareClass engine).find? (s.spareFree die)

/-- The second strike in a plan (R150, R153): ENGINE_FENCED, a spare PENDING, or no engine, DEGRADED and
HOLD. -/
def State.fenceEngine (s : State) (die engine : Nat) : State :=
  let phys := s.obj (oSlotMap die engine)
  let spare := s.pickSpare die engine
  let s := s.bump oFenceCount
  let s := s.setObj oLastFence (engine + die * 2 ^ 8 + phys * 2 ^ 16 + spare.getD 0xFF * 2 ^ 24 +
    s.stepNow * 2 ^ 32)
  let s := if 100 ≤ phys then s else s.setObj (oPhysState die phys) 3
  match spare with
  | some i =>
    let s := { s with power := { s.power with
                 spareSlots := Bank.set s.power.spareSlots 0 (128 * die + i) (engine + 1) } }
    ((((s.setObj (oPhysState die i) 2).countSpares die).poison false).raise .engineFenced)
  | none =>
    let s := ((s.setObj oDegraded 1).poison true).raise .engineFenced
    s.raise .degraded

/-- A failing verdict against a slot's engine is a strike (R149); a third while the fence is pending is
only counted (Table 06-11). -/
def State.strikeEngine (s : State) (die engine : Nat) : State :=
  let n := s.obj (oStrikes die engine) + 1
  let s := (s.setObj (oStrikes die engine) (min n 255)).poison false
  if n = 2 then s.fenceEngine die engine else s

/-- The slot of every FENCED engine goes to the spare its fence chose, the whole pair with its tiles EMPTY and its
buffer invalid, and its cluster's summary slots become zero; without a spare the slot has no engine. The rest of
the step runs void (R15, R150, R151, R153, R161). -/
def State.substitute (s : State) : State :=
  (upto 2).foldl (fun (s : State) die =>
    ((upto 96).foldl (fun (s : State) e =>
      if s.fencePending die e then
        let s := s.setEng (engKey die e) { EngineSt.init with voidStep := true, voidVec := true }
        let c := coreKey die (e / 12)
        (s.setCore c { s.core c with slots := [] }).bindSpare die e
      else s) s).countSpares die) s

/-! ### Strikes against granary units and update engines (R412) -/

/-- The number of a unit among those of R412, as FENCED_UNITS numbers them. -/
def unitBit (update : Bool) (die unit : Nat) : Nat :=
  if update then 32 + 2 * die + unit else 16 * die + unit

/-- A strike against a granary unit or an update engine: the second in a plan fences it with HOLD. -/
def State.strikeUnit (s : State) (update : Bool) (die unit : Nat) : State :=
  let b := unitBit update die unit
  let n := Bank.get s.unitStrikes 0 b + 1
  let s := ({ s with unitStrikes := Bank.set s.unitStrikes 0 b n }).poison false
  if n = 2 then
    let s := s.setObj oFencedUnits (s.obj oFencedUnits ||| 2 ^ b)
    let s := s.setObj oLastUnitFence (unit + die * 2 ^ 4 + b2n update * 2 ^ 5 + s.stepNow * 2 ^ 32)
    (((s.poison true).raise .unitFenced).raise .degraded)
  else s

/-! ### Verdicts (R379, R384) -/

/-- The verdict waited for that an arriving one answers. -/
def dueMatches (v : Verdict) (d : VerdictDue) : Bool :=
  d.die == v.die.val && d.unit == v.unit.toNat && d.kind == max 1 v.kind.val

/-- The verdict is one of residues, of a tile or of a granary chunk; the others compare lanes. -/
def verdictOfSums (v : Verdict) : Bool := v.kind.val != 2 && v.kind.val != 4

/-- The comparison finds a difference: in a k-block, in a row or column, in a chunk (R382, R383, R236), or between
a lane and its checker (R179, R262). -/
def verdictFails (v : Verdict) (d : VerdictDue) : Bool :=
  if verdictOfSums v then d.sums.blocks != [] || d.sums.expect != d.sums.found else v.differs

/-- The kind that a verdict shows: of an accumulation 0 when a k-block failed, else 1 (assumption 83). -/
def verdictKind (v : Verdict) (d : VerdictDue) : Nat :=
  if v.kind.val ≤ 1 then (if d.sums.blocks = [] then 1 else 0) else v.kind.val

/-- The sums of a check that differ, by number. -/
def Checks.differ (c : Checks) : List Nat :=
  (upto c.expect.length).filter (fun i => c.expect.getD i 0 != c.found.getD i 0)

/-- Row, column and whether the failure is localised, as ELEMENT of Table 15-5 lays them out: of a tile the element
where exactly one row and one column differ (R383), of lanes the element compared (assumption 83). -/
def verdictElement (v : Verdict) (d : VerdictDue) : Nat :=
  if verdictOfSums v then
    match d.sums.differ with
    | [r, c] => if v.kind.val ≤ 1 ∧ r < 64 ∧ 64 ≤ c then r + (c - 64) * 2 ^ 6 + 2 ^ 12 else 0
    | _ => 0
  else v.row.val + v.column.val * 2 ^ 6 + 2 ^ 12

/-- LAST_CHECK_FAIL (0x7000.02). -/
def checkFailWord (v : Verdict) (d : VerdictDue) : Nat :=
  v.unit.toNat + v.die.val * 2 ^ 8 + verdictKind v d * 2 ^ 9 + verdictElement v d * 2 ^ 16 + d.step * 2 ^ 32

/-- The failing sum that evidence shows (Table 15-5): the first failing k-block, else the first sum that differs; of
lanes none. -/
def failingSum (v : Verdict) (d : VerdictDue) : Option BlockCheck :=
  if verdictOfSums v then
    match d.sums.blocks with
    | b :: _ => some b
    | [] => d.sums.differ.head?.map (fun i => ⟨0, 0, d.sums.expect.getD i 0, d.sums.found.getD i 0⟩)
  else none

/-- The counters of the failing unit's own chapter (R179, R236, R262). -/
def State.countFailing (s : State) (v : Verdict) (d : VerdictDue) : State :=
  if v.kind.val = 2 then
    (s.bump oCheckerMismatchCount).setObj oLastCheckerMismatch
      (v.unit.toNat + v.die.val * 2 ^ 8 + v.lane.val * 2 ^ 9 + v.opcode.val * 2 ^ 16 + d.step * 2 ^ 32)
  else if v.kind.val = 3 then
    (s.bump oResidueFailCount).setObj oLastResidueFail
      (v.unit.toNat % 16 + v.die.val * 2 ^ 4 + d.window * 2 ^ 16 + d.step * 2 ^ 32)
  else if v.kind.val = 4 then s.bump oUpdateCheckFailCount
  else s

/-- The descriptor that evidence carries: that of the MATRIX or VECTOR, or the window's. -/
def State.evidenceDesc (s : State) (d : VerdictDue) : Bytes :=
  if d.kind ≤ 2 then padTo 64 d.desc
  else match s.ownWindow d.window with
    | some w => padTo 64 w.raw
    | none => zeros 64

/-- The first failing verdict of the step and attempt on the die begins a capture (R391). -/
def State.beginCapture (s : State) (v : Verdict) (d : VerdictDue) : State :=
  if s.step.evidenceTaken.contains v.die.val then s
  else
    let c : Capture :=
      { kind := verdictKind v d + 1, die := v.die.val, unit := v.unit.toNat,
        phys := if v.kind.val ≤ 2 then s.obj (oSlotMap v.die.val v.unit.toNat) else 0xFF,
        step := d.step, attempt := d.attempt,
        element := verdictElement v d, time := s.timeNow, desc := s.evidenceDesc d, sums := failingSum v d }
    { s with captures := s.captures.filter (fun x => x.die != v.die.val) ++ [c],
             step := { s.step with evidenceTaken := s.step.evidenceTaken ++ [v.die.val] } }

/-- A failing verdict: counted and recorded, CHECK_FAILED, a strike (R384, R412). -/
def State.failVerdict (s : State) (v : Verdict) (d : VerdictDue) : State :=
  let s := ((s.bump oCheckFailCount).setObj oLastCheckFail (checkFailWord v d)).countFailing v d
  let s := (s.beginCapture v d).raise .checkFailed
  if v.kind.val ≤ 2 then s.strikeEngine v.die.val v.unit.toNat
  else s.strikeUnit (v.kind.val == 4) v.die.val (v.unit.toNat % 16)

/-! ### Generators (R193) -/

/-- A generator unit that fails its check: GENERATOR_FAULT, and a failing verdict against the unit it
serves. -/
def State.generatorFails (s : State) (g : GenFailure) : State :=
  let s := (s.bump oGenFaultCount).setObj oLastGenFault
    (g.unit.toNat + g.die.val * 2 ^ 8 + g.kind.val * 2 ^ 9 + b2n g.duplicate * 2 ^ 11 + s.stepNow * 2 ^ 32)
  let s := (s.poison false).raise .generatorFault
  if g.kind.val = 0 then s.strikeEngine g.die.val g.unit.toNat
  else s.strikeUnit (g.kind.val == 2) g.die.val (g.unit.toNat % 16)

/-- The first verdict due that an arriving one answers, judged. -/
def State.takeVerdict (s : State) (v : Verdict) : State :=
  match s.verdicts.findIdx? (dueMatches v) with
  | none => s
  | some i =>
    match s.verdicts[i]? with
    | none => s
    | some d =>
      let s := { s with verdicts := s.verdicts.eraseIdx i }
      let s := s.setObj oVerdictLatencyMaxNs (max (s.obj oVerdictLatencyMaxNs) (satNat 32 (s.now - d.madeAt)))
      if verdictFails v d then s.failVerdict v d else s

/-- VERDICT_ARRIVAL (R384, R22, R193): the first verdict due of the unit and kind arrives, or that of a generator at a
draw of the step. -/
def execVerdictArrival (v : Verdict) (s : State) : Host.Outcome State Fault Refusal :=
  let s := s.quiet
  match v.gen with
  | some g => .next (if s.step.running then s.generatorFails g else s)
  | none => .next (s.takeVerdict v)

/-! ### Evidence (R391 to R393) -/

/-- Bytes of an EVIDENCE slot. -/
def evidenceSlot : Nat := 266240

/-- The 4 KiB header of a capture (Table 15-5): the failing sum of a residue check, and of lanes what the capture
gives. -/
def State.evidenceHeader (s : State) (c : Capture) (e : EvidenceData) : Bytes :=
  let b := c.sums.getD ⟨0, 0, e.expected.toNat, e.actual.toNat⟩
  padTo 4096 (natLe 4 0x45564931 ++ natLe 1 c.kind ++ natLe 1 c.die ++ natLe 1 c.unit ++ natLe 1 c.phys ++
    natLe 4 c.step ++ natLe 1 c.attempt ++ natLe 1 b.pass ++
    natLe 2 c.element ++ natLe 12 c.time ++ natLe 4 b.block ++
    padTo 64 c.desc ++ natLe 8 b.expect ++ natLe 8 b.found ++
    natLe 8 (s.obj oSeedDigest) ++ zeros 8 ++ natLe 4 (min e.payload.length 262144) ++
    sha384 (e.payload.take 262144))

/-- The capture copied to the next free slot of the EVIDENCE region, or counted as dropped (R393). -/
def State.slotCapture (s : State) (bs : Bytes) : State :=
  match s.regions.find? (fun r => r.kind == 8) with
  | none => s
  | some r =>
    let n := s.obj oEvidenceNextSlot
    if n < r.len / evidenceSlot then
      (s.storeBy .integrity (r.base + n * evidenceSlot) bs).setObj oEvidenceNextSlot (n + 1)
    else s.bump oEvidenceDropped

/-- EVIDENCE_CAPTURED (R391, R393): the die's capture is complete. -/
def execEvidenceCaptured (e : EvidenceData) (s : State) : Host.Outcome State Fault Refusal :=
  let s := s.quiet
  match s.captures.find? (fun c => c.die == e.die.val) with
  | none => .next s
  | some c =>
    let s := { s with captures := s.captures.filter (fun x => x.die != e.die.val) }
    let bs := s.evidenceHeader c e ++ e.payload.take 262144
    let s := s.setBlob (if e.die.val = 0 then oEvidenceStagedD0 else oEvidenceStagedD1) bs
    .next (((s.bump oEvidenceCount).slotCapture bs).raise .evidenceCaptured)

/-- The action of EVIDENCE_RESET (R393). -/
def State.actEvidenceReset (s : State) : State :=
  (s.setObj oEvidenceNextSlot 0).cmdDone oEvidenceReset

/-! ### Pattern cases in idle beats (R396, R397) -/

/-- The current beat may run cases: the plan's flag, the feature, and the program's idle flag. -/
def State.idleCases (s : State) : Bool :=
  match s.activePlan, s.program? with
  | some p, some g => bit p.timing.flags 0 && bit (s.obj oFeaturesAgreed) 12 && bit g.flags 0
  | _, _ => false

/-- The unit is of the pack's class and has no item in the program. -/
def caseUnitFree (p : Pack) (g : Program) (die unit : Nat) : Bool :=
  let has := fun (k : Nat) => g.items.any (fun i => i.kind == k && i.die == die && i.unit == unit)
  match p.target with
  | 1 => decide (unit < 96) && !isNarrow unit && !has 1 && !has 2
  | 2 => decide (unit < 96) && isNarrow unit && !has 1 && !has 2
  | 3 => decide (unit < 96) && !has 1 && !has 2
  | 4 => decide (unit < 16) && !has 3
  | 5 => decide (unit < 2) && !has 4
  | _ => false

/-- The power domain of a unit of a pack's class (Table 17-1). -/
def caseDomain (p : Pack) (die unit : Nat) : Nat :=
  12 * die + (if p.target ≤ 3 then unit / 12 else if p.target = 4 then 8 + unit / 8 else 10)

/-- A unit of a pack's class by number: engine pairs, granary units and update engines apart. -/
def caseKey (p : Pack) (die unit : Nat) : Nat := (if p.target ≤ 3 then 0 else p.target) * 2 ^ 16 + die * 2 ^ 8 + unit

/-- The unit is awake and has run no case in this beat (R396). -/
def State.caseMayRun (s : State) (p : Pack) (die unit : Nat) : Bool :=
  s.dom (caseDomain p die unit) == domOn && !s.step.caseUnits.contains (caseKey p die unit)

/-- A case that the unit has run in this beat. -/
def State.noteCase (s : State) (p : Pack) (die unit : Nat) : State :=
  { s with step := { s.step with caseUnits := caseKey p die unit :: s.step.caseUnits } }

/-- A failing case (R397): PACK_CASE_FAILED, the step POISONED, a strike against the unit. -/
def State.failCase (s : State) (p : Pack) (c : CaseDone) : State :=
  let die := c.die.val
  let unit := c.unit.toNat
  let phys := if p.target ≤ 3 then s.obj (oSlotMap die unit) else unit
  let s := (s.bump oPackCaseFailCount).setObj oLastPackCaseFail
    (p.id + c.index.toNat * 2 ^ 32 + phys * 2 ^ 40 + die * 2 ^ 48)
  let s := (s.poison false).raise .packCaseFailed
  if p.target ≤ 3 then s.strikeEngine die unit else s.strikeUnit (p.target == 5) die unit

/-- PATTERN_CASE_DONE (R396, R397): a case that ran in an idle beat has ended. -/
def execPatternCaseDone (c : CaseDone) (s : State) : Host.Outcome State Fault Refusal :=
  let s := s.quiet
  match s.packs.find? (fun p => p.id == c.pack.toNat), s.program? with
  | some p, some g =>
    if s.idleCases && decide (c.index.toNat < p.cases) && caseUnitFree p g c.die.val c.unit.toNat &&
        s.caseMayRun p c.die.val c.unit.toNat then
      let s := (s.bump oIdleCasesRun).noteCase p c.die.val c.unit.toNat
      if c.passed then .next s else .next (s.failCase p c)
    else .next s
  | _, _ => .next s

end Sys2Proof.Machine
end

