-- ==== Sys2Proof/Machine/Clean.lean ====
section
/-! DEFINITION. The step-clean tree (R386 to R390): a module's contribution, the rising frames, the global
verdict and its way down. -/

namespace Sys2Proof.Machine

/-- The bytes of a CLEAN frame's body (Table 15-3). -/
def CleanFrame.bytes (c : CleanFrame) : Bytes :=
  natLe 4 c.step ++ natLe 1 c.attempt ++ natLe 1 c.verdict ++ natLe 2 c.covered ++ natLe 2 c.firstPlace ++
  zeros 6

/-- The ports of the module's children in the tree. -/
def State.childPorts (s : State) : List Nat := setBitsOf 24 (s.obj oTreeChildren)

/-- The module's own VERDICT bits (R387): POISONED with its causes. -/
def StepSt.verdictBits (x : StepSt) : Nat :=
  b2n (x.fault || x.overflow || x.hold) + b2n x.overflow * 2 + b2n (x.fault || x.hold) * 4 + b2n x.hold * 8

/-- Work of the step on the engine pairs that has yet to bring a verdict: a slice, an accumulation that drains, a
VECTOR; that of granaries and shards holds their windows open. -/
def State.verdictsToCome (s : State) : Bool :=
  let tile := fun (t : TileSt) => decide (2 ≤ t.phase) && !t.void
  s.engines.any (fun e =>
    e.2.slices.any (fun q => !s.runsVoid e.1 q) || tile e.2.t0 || tile e.2.t1 ||
    (match e.2.slice with | some x => !x.void | none => false) ||
    e.2.vectors.any (fun q => !s.runsVoidVec e.1 q) ||
    (match e.2.run with | some x => !x.void | none => false))

/-- The conditions of R22 for the step in progress: its residue verdicts have arrived, its windows are
complete, and the beat that ends its traffic has passed. -/
def State.traffic (s : State) : Bool :=
  match s.activePlan with
  | some p =>
    s.step.running && s.windowsAllDone && decide (p.timing.trafficEnd < s.obj oStepBeatNow) &&
    !(s.verdicts.any (fun v => v.step == s.obj oStepNow && v.attempt == s.step.attempt)) && !s.verdictsToCome
  | none => false

/-- Whether the rising frame of every child is in. -/
def State.childrenIn (s : State) : Bool :=
  s.childPorts.all (fun p => s.step.children.any (fun c => c.port == p))

/-- The frame that combines the module's contribution with its children's (R388). -/
def State.combined (s : State) : CleanFrame :=
  let own := s.step.verdictBits
  let start : CleanFrame :=
    { step := s.obj oStepNow, attempt := s.step.attempt, verdict := own, covered := 1,
      firstPlace := if own = 0 then 0xFFFF else s.place }
  s.step.children.foldl (fun a c =>
    { a with verdict := a.verdict ||| c.frame.verdict, covered := a.covered + c.frame.covered,
             firstPlace := min a.firstPlace c.frame.firstPlace }) start

/-- A global verdict sent to every child (R389). -/
def State.sendDown (s : State) (c : CleanFrame) : State :=
  s.childPorts.foldl (fun (s : State) p => s.sendCtl p 0x07 c.bytes) s

/-- The root's global verdict from its combined frame (R389). -/
def State.globalOf (s : State) (c : CleanFrame) : CleanFrame :=
  { c with verdict := (if c.covered = s.obj oTreeCount then c.verdict else c.verdict ||| 5) + 128,
           covered := s.obj oTreeCount }

/-! ### The keeper of a forwarding-only module (R426) -/

/-- The keeper's step engine replaced. -/
def State.setKeeper (s : State) (k : Keeper) : State := { s with keeper := some k }

/-- The children's frames combined with a CLEAN contribution of the keeper's own. -/
def Keeper.combined (k : Keeper) : CleanFrame :=
  k.st.children.foldl (fun (a : CleanFrame) c =>
    { a with verdict := a.verdict ||| c.frame.verdict, covered := a.covered + c.frame.covered,
             firstPlace := min a.firstPlace c.frame.firstPlace })
    { step := k.step, attempt := k.st.attempt, verdict := 0, covered := 1, firstPlace := 0xFFFF }

/-- A verdict forwarded to the keeper's children. -/
def State.keeperDown (s : State) (k : Keeper) (c : CleanFrame) : State :=
  (setBitsOf 24 k.children).foldl (fun (s : State) p => s.sendCtl p 0x07 c.bytes) s

/-- The keeper's rising frame, once every child's is in; at the root, the global verdict. -/
def State.keeperSend (s : State) (k : Keeper) : State :=
  if k.st.running && !k.st.sent &&
      (setBitsOf 24 k.children).all (fun p => k.st.children.any (fun c => c.port == p)) then
    let c := k.combined
    if k.parent = 0xFF then
      let g : CleanFrame :=
        { c with verdict := (if c.covered = k.count then c.verdict else c.verdict ||| 5) + 128,
                 covered := k.count }
      (s.setKeeper { k with st := { k.st with sent := true, verdict := some g } }).keeperDown k g
    else (s.setKeeper { k with st := { k.st with sent := true } }).sendCtl k.parent 0x07 c.bytes
  else s

/-- A CLEAN frame that the keeper receives: a verdict is forwarded, a child's frame waits. -/
def State.keeperFrame (s : State) (k : Keeper) (p : Nat) (c : CleanFrame) : State :=
  if !(k.st.running && c.step == k.step && c.attempt == k.st.attempt && decide (k.beat < k.deadlineBeat)) then
    s.bump oStaleFrames
  else if bit c.verdict 7 then
    (if p = k.parent ∧ k.st.verdict.isNone then
      (s.setKeeper { k with st := { k.st with verdict := some c } }).keeperDown k c
    else s)
  else if bit k.children p then
    let kids := k.st.children.filter (fun x => x.port != p) ++ [ChildFrame.mk p c]
    s.setKeeper { k with st := { k.st with children := kids } }
  else s

/-- The step beat of the deadline (R389). -/
def Plan.deadlineBeat (p : Plan) : Nat := p.timing.trafficEnd + p.timing.deadline

/-- CLEAN_SEND (R22, R388, R389): the module's rising frame, or at the root the global verdict. -/
def execCleanSend (s : State) : Host.Outcome State Fault Refusal :=
  let s := s.quiet
  if s.keeper.isSome && !s.admitted then .next (s.keeper.elim s s.keeperSend)
  else if s.traffic && s.childrenIn && !s.step.sent then
    let c := s.combined
    let port := s.obj oTreeParentPort
    if port = 0xFF then
      let g := s.globalOf c
      .next ({ s with step := { s.step with sent := true, verdict := some g } }.sendDown g)
    else .next ({ s with step := { s.step with sent := true } }.sendCtl port 0x07 c.bytes)
  else .next s

/-- Whether a CLEAN frame names the step and attempt in progress, before the deadline beat. -/
def State.frameFresh (s : State) (f : CleanFrame) : Bool :=
  match s.activePlan with
  | some p => s.step.running && f.step == s.obj oStepNow && f.attempt == s.step.attempt &&
      decide (s.obj oStepBeatNow < p.deadlineBeat)
  | none => false

/-- CLEAN (R388, R389): a rising frame of a child waits to be combined; the global verdict is held and
forwarded; a frame of another step or attempt, or too late, is discarded and counted. -/
def execCleanFrame (port : Port) (seq : BitVec 12) (f : CleanBody) (s : State) :
    Host.Outcome State Fault Refusal :=
  let s := s.quiet
  let p := port.val
  if s.flag (oCtrlRxPresent p) = false ∨ s.linkClass p ≠ 2 then .next s
  else
    let r := s.takeCtl p seq.toNat
    let s := r.2
    let c : CleanFrame := { step := f.step.toNat, attempt := f.attempt.toNat, verdict := f.verdict.toNat,
                            covered := f.covered.toNat, firstPlace := f.firstPlace.toNat }
    if r.1 = false then .next s
    else if s.keeper.isSome && !s.admitted then .next (s.keeper.elim s (fun k => s.keeperFrame k p c))
    else if s.frameFresh c = false then .next (s.bump oStaleFrames)
    else if bit c.verdict 7 then
      (if p = s.obj oTreeParentPort ∧ s.step.verdict.isNone then
        .next ({ s with step := { s.step with verdict := some c } }.sendDown c)
      else .next s)
    else if s.childPorts.contains p then
      let kids := s.step.children.filter (fun k => k.port != p) ++ [ChildFrame.mk p c]
      .next { s with step := { s.step with children := kids } }
    else .next s

end Sys2Proof.Machine
end

