-- ==== Sys2Proof/Machine/P384.lean ====
section
/-! DEFINITION. ECDSA over the curve P-384 (FIPS 186), with which the manual signs firmware, packs and
life-cycle tokens (R394, R444, R445, R449). -/

namespace Sys2Proof.Machine

/-- The field prime of P-384. -/
def p384P : Nat := 2 ^ 384 - 2 ^ 128 - 2 ^ 96 + 2 ^ 32 - 1

/-- The order of the base point. -/
def p384N : Nat := 0xFFFFFFFFFFFFFFFFFFFFFFFFFFFFFFFFFFFFFFFFFFFFFFFFC7634D81F4372DDF581A0DB248B0A77AECEC196ACCC52973

/-- The coefficient b of the curve y² = x³ − 3x + b. -/
def p384B : Nat := 0xB3312FA7E23EE7E4988E056BE3F82D19181D9C6EFE8141120314088F5013875AC656398D8A2ED19D2A85C8EDD3EC2AEF

/-- A point: none is the point at infinity. -/
abbrev Point := Option (Nat × Nat)

/-- The base point. -/
def p384G : Point :=
  some (0xAA87CA22BE8B05378EB1C71EF320AD746E1D3B628BA79B9859F741E082542A385502F25DBF55296C3A545E3872760AB7,
    0x3617DE4A96262C6F5D9E98BF9292DC29F8F41DBD289A147CE9DA3113B5F0B8C00A60B1CE1D7E819D7A431D7C90EA0E5F)

/-- The bits of a 384-bit number, most significant first. -/
def bits384 (e : Nat) : List Bool := (upto 384).map (fun i => bit e (383 - i))

/-- `b` to the power `e` modulo `m`. -/
def powMod (b e m : Nat) : Nat :=
  (bits384 e).foldl (fun a x => let q := a * a % m; if x then q * b % m else q) 1

/-- The inverse modulo a prime. -/
def invMod (x m : Nat) : Nat := powMod (x % m) (m - 2) m

/-- Subtraction modulo `m`. -/
def subMod (a b m : Nat) : Nat := (a + (m - b % m)) % m

/-- The third point of the line of slope `l` through two points. -/
def chord (l : Nat) (a b : Nat × Nat) : Point :=
  let x := subMod (subMod (l * l % p384P) a.1 p384P) b.1 p384P
  some (x, subMod (l * subMod a.1 x p384P % p384P) a.2 p384P)

/-- The sum of two points. -/
def addPoint (a b : Point) : Point :=
  match a, b with
  | none, q => q
  | some p, none => some p
  | some p, some q =>
    if p.1 = q.1 then
      (if p.2 = q.2 ∧ p.2 ≠ 0 then
        chord ((3 * (p.1 * p.1) + (p384P - 3)) * invMod (2 * p.2) p384P % p384P) p q
      else none)
    else chord (subMod q.2 p.2 p384P * invMod (subMod q.1 p.1 p384P) p384P % p384P) p q

/-- A multiple of a point. -/
def mulPoint (k : Nat) (a : Point) : Point :=
  (bits384 k).foldl (fun r x => let d := addPoint r r; if x then addPoint d a else d) none

/-- Whether coordinates lie on the curve. -/
def onCurve (x y : Nat) : Bool :=
  decide (x < p384P) && decide (y < p384P) &&
  y * y % p384P == (x * x * x + (p384P - 3) * x + p384B) % p384P

/-- ECDSA verification of the signature (r, s) of a digest by a public key. -/
def verifyP384 (x y digest r s : Nat) : Bool :=
  onCurve x y && decide (0 < r) && decide (r < p384N) && decide (0 < s) && decide (s < p384N) &&
  (let w := invMod s p384N
   match addPoint (mulPoint (digest * w % p384N) p384G) (mulPoint (r * w % p384N) (some (x, y))) with
   | some q => q.1 % p384N == r
   | none => false)

/-- The public key that a SIGNER names (R394, R449): 0 the vendor's, 1 the enrolled fleet key, a 97-byte
uncompressed point; none when it is not enrolled. -/
def signerKey (vendor : Nat × Nat) (signer : Nat) (fleet : Bytes) : Option (Nat × Nat) :=
  if signer = 0 then some vendor
  else if signer = 1 ∧ fleet.length = 97 ∧ fieldLe fleet 0 1 = 4 then
    some (beNat (sliceB fleet 1 48), beNat (sliceB fleet 49 48))
  else none

/-- Whether the 96 bytes `sig`, r and then s most significant byte first (assumption 53), sign `body` with
the key. -/
def signedBy (key : Option (Nat × Nat)) (body sig : Bytes) : Bool :=
  match key with
  | some k => decide (sig.length = 96) &&
      verifyP384 k.1 k.2 (beNat (sha384 body)) (beNat (sliceB sig 0 48)) (beNat (sliceB sig 48 48))
  | none => false

end Sys2Proof.Machine
end

