-- ==== Sys2Proof/Machine/SelfTest.lean ====
section
/-! DEFINITION. Pattern packs and self-test (R394, R395, R398 to R402): the pack store, the self-tests'
results and what they bind, and the raw programs of the self-test engine. -/

namespace Sys2Proof.Machine

/-! ### Pattern packs -/

/-- A pack's format (R394): header, counts and lengths. -/
def packFormOk (bs : Bytes) : Bool :=
  fieldLe bs 0 4 == 0x50414331 && decide (1 ≤ fieldLe bs 12 1) && decide (fieldLe bs 12 1 ≤ 5) &&
  decide (fieldLe bs 13 1 ≤ 1) && decide (1 ≤ fieldLe bs 14 2) && decide (fieldLe bs 14 2 ≤ 256) &&
  fieldLe bs 16 4 + 96 == bs.length && decide (64 + 64 * fieldLe bs 14 2 ≤ fieldLe bs 16 4) &&
  fieldLe bs 36 28 == 0

/-- The pack that well-formed bytes hold. -/
def packOf (bs : Bytes) : Pack :=
  { id := fieldLe bs 4 4, serial := fieldLe bs 8 4, target := fieldLe bs 12 1, signer := fieldLe bs 13 1,
    cases := fieldLe bs 14 2, length := fieldLe bs 16 4, bytes := bs }

/-- The store with a pack in place of one of its PACK_ID, in increasing PACK_ID. -/
def storePack (ps : List Pack) (p : Pack) : List Pack :=
  ps.filter (fun q => decide (q.id < p.id)) ++ [p] ++ ps.filter (fun q => decide (p.id < q.id))

/-- PACK_COUNT and PACK_LIST shown (0x7100.02, 0x7100.03). -/
def State.showPacks (s : State) : State :=
  (s.setObj oPackCount s.packs.length).setBlob oPackList (s.packs.flatMap (fun p =>
    natLe 4 p.id ++ natLe 4 p.serial ++ natLe 4 p.length ++ natLe 1 p.target ++ natLe 1 p.signer ++
    natLe 2 p.cases))

/-- The checks of a pack at SEG_END, in the order of R395: the abort code of the first that fails. -/
def State.packFault (s : State) (bs : Bytes) : Option Nat :=
  let len := fieldLe bs 16 4
  let key := signerKey s.power.vendorKey (fieldLe bs 13 1) (s.blob oFleetKey)
  let p := packOf bs
  let after := storePack s.packs p
  if signedBy key (bs.take len) ((bs.drop len).take 96) = false then some abSignature
  else if packFormOk bs = false then some abValueRange
  else if s.packs.any (fun q => q.id == p.id && decide (p.serial ≤ q.serial)) then some abValueRange
  else if 64 < after.length ∨ 33554432 < after.foldl (fun a q => a + q.bytes.length) 0 then
    some abBlobTooLarge
  else none

/-- A write of PACK_LOAD (R395): stored with PACK_ACCEPTED, or aborted with PACK_REJECTED. -/
def State.takePack (s : State) (bs : Bytes) : State × Option Nat :=
  if s.planHeld then (s, some abPlanAdmitted)
  else match s.packFault bs with
    | some a => (s.raise .packRejected, some a)
    | none => ({ s with packs := storePack s.packs (packOf bs) }.showPacks.raise .packAccepted, none)

/-- A write of PACK_REMOVE (0x7100.04): a PACK_ID that is not stored fails with VALUE_RANGE. -/
def State.actPackRemove (s : State) (id : Nat) : State :=
  if s.admitted then s.cmdFail oPackRemove abPlanAdmitted
  else if s.packs.any (fun q => q.id == id) then
    ({ s with packs := s.packs.filter (fun q => q.id != id) }.showPacks).cmdDone oPackRemove
  else s.cmdFail oPackRemove abValueRange

/-! ### Self-tests -/

/-- The outcome of a unit kind (Table 15-7): 2 PASS_SPARED, 3 FAIL. -/
def kindOutcome (kind : Nat) : Nat := if 1 ≤ kind ∧ kind ≤ 5 then 2 else 3

/-- ST_REPORT's entries (R399). -/
def reportBytes (fs : List StFailing) : Bytes :=
  fs.flatMap (fun f => natLe 1 f.phase.toNat ++ natLe 1 f.kind.toNat ++ natLe 1 f.die.val ++
    natLe 1 f.index.toNat ++ natLe 4 f.check.toNat)

/-- A self-test's results stored in flash; the pages it found are retired (R398, R399). -/
def State.storeTest (s : State) (r : StDone) : State :=
  let outcome := r.failing.foldl (fun a f => max a (kindOutcome f.kind.toNat)) 1
  let s := ((s.setObj oStResult outcome).setBlob oStReport (reportBytes r.failing)).setObj oStWhen s.timeNow
  let s := (s.setObj oStDurationMs r.durationMs.toNat).setObj oStSkipped r.skipped.toNat
  r.pages.foldl (fun (s : State) a => s.retirePage (a.toNat / 4096)) s

/-- What the results leave out of use from now on: engines, control cores, control lasers (Table
15-7). -/
def State.applyTest (s : State) (start : Bool) : State :=
  ((s.applyReport.rebuildSlots 0 start).rebuildSlots 1 start).showDegraded

/-- SAFE ends with a self-test run in it whose outcome is not FAIL, once the class D cause has cleared; a FAIL
enters it (R403). -/
def State.judgeSafe (s : State) : State :=
  if s.obj oStResult = 3 then (if s.obj oSafe = 0 then s.endPlan.enterSafe 1 else s)
  else if s.power.tripLatched then s
  else s.setObj oSafe 0

/-- A write of ST_RUN (R401): the full self-test starts. -/
def State.actStRun (s : State) : State :=
  if s.planHeld then s.cmdFail oStRun abPlanAdmitted
  else if s.power.selfTest ∨ s.dom 44 ≠ domOn then s.cmdFail oStRun abValueRange
  else { s.cmdStart oStRun with power := { s.power with selfTest := true } }

/-- The self-test flags cleared. -/
def State.testOver (s : State) : State :=
  { s with power := { s.power with selfTest := false, selfTestStart := false } }

/-- SELF_TEST_DONE (R398 to R401, R437): the start-up test lets the power-up end, the shutdown test ends the
shutdown, and ST_RUN's outcome applies at once. -/
def execSelfTestDone (r : StDone) (s : State) : Host.Outcome State Fault Refusal :=
  let s := s.quiet
  let s := s.advance (r.durationMs.toNat * 1000000)
  if s.power.selfTestStart then .next (((s.storeTest r).applyTest true).testOver)
  else if s.power.selfTest ∧ s.power.shutdown then .next (s.storeTest r).finishShutdown
  else if s.power.selfTest then
    let s := ((s.storeTest r).applyTest false).testOver.judgeSafe
    .next ((s.setResult oStRun 2 (s.obj oStResult)).cmdEvent oStRun)
  else .next s

/-- A raw program may be written and run in BLANK and DIAG only (R402). -/
def State.rawAllowed (s : State) : Bool := s.obj oLcState == 0 || s.obj oLcState == 3

/-- A write of STE_START (R402). -/
def State.actSteStart (s : State) : State := s.cmdStart oSteStart

/-- STE_PROGRAM_DONE (R402): the raw program's output. -/
def execSteProgramDone (output : Bytes) (s : State) : Host.Outcome State Fault Refusal :=
  let s := s.quiet
  if s.cmdRunning oSteStart then .next ((s.setBlob oSteOutput output).cmdDone oSteStart) else .next s

end Sys2Proof.Machine
end

