-- ==== Sys2Proof/Machine/Recovery.lean ====
section
/-! DEFINITION. Recovery (chapter 16): region digests, re-initialisation of a function, the ledger's
interval and clearing, and the hardware's current limits (R454). -/

namespace Sys2Proof.Machine

/-! ### Region digests (R419) -/

/-- The time of a digest: 1 ms per 24 GiB. -/
def digestNs (len : Nat) : Nat := ceilDiv (len * 1000000) (24 * 2 ^ 30)

/-- A write of DIGEST_REGION. -/
def State.actDigest (s : State) (n : Nat) : State :=
  if s.planHeld then s.cmdFail oDigestRegion abPlanAdmitted
  else if s.planState = 0 then s.cmdFail oDigestRegion abValueRange
  else match (parsePlan (s.blob oPlanBlob)).regions.find? (fun r => r.num == n) with
    | some r => { s.cmdStart oDigestRegion with digesting := some (r.base, r.len, s.now + digestNs r.len) }
    | none => s.cmdFail oDigestRegion abValueRange

/-- REGION_DIGEST_DONE (R419): the digest of the bytes at BASE goes to REGION_DIGEST. -/
def execRegionDigestDone (s : State) : Host.Outcome State Fault Refusal :=
  let s := s.quiet
  match s.digesting with
  | some (base, len, t) =>
    let s := s.advanceTo t
    let s : State := { s with digesting := none }
    let l := s.readPhys .ring base len
    .next ((l.1.setObj oRegionDigest (regionDigest l.2)).cmdDone oDigestRegion)
  | none => .next s

/-! ### Re-initialisation (R425, Table 16-8) -/

/-- Every data lane in use leaves use, and the reserves are judged. -/
def State.loseAllLanes (s : State) : State :=
  allLanes.foldl (fun (s : State) e =>
    let s := if bit (s.portSt e.1).useTx e.2 then s.loseLane e.1 false e.2 else s
    if bit (s.portSt e.1).useRx e.2 then s.loseLane e.1 true e.2 else s) s

/-- What a re-initialisation resets, with its outcome for the job. -/
def State.resetFn (s : State) (f : Fn) : State :=
  match f with
  | .compute => (s.clearFn .compute).poison false
  | .update => (s.clearFn .update).poison false
  | .fabric => (s.clearFn .fabric).faultC
  | .optics => (s.loseAllLanes.clearFn .optics).judgeReserves
  | .mgmt => s | .timebase => s | .memory => s | .selftest => s

/-- The state of a re-initialisation that starts. -/
def State.beginReinit (s : State) (v : Nat) : State :=
  { s.cmdStart oReinit with power := { s.power with reinit := some ⟨v, s.now⟩ } }

/-- A write of REINIT: in RUN and IDLE, the function is reset and those of its domains that a current
limit switched off are woken again (assumption 56). -/
def State.actReinit (s : State) (v : Nat) : State :=
  match fnOfCode v with
  | some f =>
    if s.obj oPowerState = 1 ∨ s.obj oPowerState = 2 then
      ((s.beginReinit v).resetFn f).requestWakes ((fnDomains f).filter (fun d => s.dom d == domCapped))
    else s.cmdFail oReinit abFunctionDown
  | none => s.cmdFail oReinit abValueRange

/-- No re-initialisation under way. -/
def State.endReinit (s : State) : State := { s with power := { s.power with reinit := none } }

/-- FUNCTION_REINIT (R425): its end, with the event; a domain that still wakes holds it back. -/
def execFunctionReinit (s : State) : Host.Outcome State Fault Refusal :=
  let s := s.quiet
  match s.power.reinit with
  | some r =>
    let ds := match fnOfCode r.fn with | some f => fnDomains f | none => []
    if ds.any (fun d => s.dom d == domCapped || s.dom d == domWaking) then .next s
    else
      let us := satNat 16 ((s.now - r.startedAt) / 1000)
      let s := s.endReinit.setObj oLastReinit (r.fn + us * 2 ^ 16 + s.bell.beat % 2 ^ 32 * 2 ^ 32)
      .next (((s.bump oReinitCount).raise .functionReinit).cmdDone oReinit)
  | none => .next s

/-! ### The ledger (R429, R432) -/

/-- A write of LEDGER_CLEAR: 1 clears the ring, 2 clears flash in DIAG only. -/
def State.actLedgerClear (s : State) (v : Nat) : State :=
  if v = 1 then { s with ledger := { s.ledger with ring := [] } }.cmdDone oLedgerClear
  else if s.obj oLcState = 3 then
    ({ s with ledger := { s.ledger with flash := [] } }.setObj oLedgerFill 0).cmdDone oLedgerClear
  else s.cmdFail oLedgerClear abLifeCycle

/-- LEDGER_INTERVAL (R429): the next boundary of the intervals of 1,000 ms, timed from the last power-on
of the always-on domain; the count of flash entries starts again. -/
def execLedgerInterval (s : State) : Host.Outcome State Fault Refusal :=
  let s := s.quiet
  if s.power.aux then
    let t := s.ledger.intervalStart + 1000000000
    let s := s.advanceTo t
    let start := s.ledger.intervalStart + (s.now - s.ledger.intervalStart) / 1000000000 * 1000000000
    .next { s with ledger := { s.ledger with
              intervalStart := start, inInterval := 0, suppressedRaised := false } }
  else .next s

/-! ### Current limits (R454) -/

/-- An engine pair whose cluster was switched off: what it works on runs void, its buffer is gone. -/
def cutPair (e : EngineSt) : EngineSt :=
  { e with voidStep := true, voidVec := true, buf := [], valid := [],
           slice := e.slice.map (fun (x : SliceSt) => { x with void := true }),
           t0 := { e.t0 with void := true }, t1 := { e.t1 with void := true },
           run := e.run.map (fun (x : RunSt) => { x with void := true }) }

/-- The engines and the core of a cluster, by its domain, as the limit leaves them. -/
def State.cutCluster (s : State) (d : Nat) : State :=
  let c := if d < 8 then d else d - 4
  let s := (upto 12).foldl (fun (s : State) i =>
    s.setEng (c * 12 + i) (cutPair (s.eng (c * 12 + i)))) s
  s.coreVoid c

/-- The function a domain carries. -/
def fnOfDomain (d : Nat) : Option Fn := allFns.find? (fun f => (fnDomains f).contains d)

/-- What the loss of a domain other than 0 to 23 takes with it (assumption 57). -/
def State.dropDomain (s : State) (d : Nat) : State :=
  match fnOfDomain d with
  | some .optics => s.loseAllLanes.clearFn .optics
  | some .timebase => s.unlock
  | some f => s.clearFn f
  | none => s

/-- CURRENT_LIMIT (R454): a domain above its cap for 10 µs is switched off; on domains 0 to 23 the step
is POISONED and what their units work on runs void. -/
def execCurrentLimit (domain : Domain) (milliamps : W32) (s : State) : Host.Outcome State Fault Refusal :=
  let s := s.quiet
  let d := domain.val
  if s.dom d = domOff ∨ s.dom d = domCapped ∨ milliamps.toNat ≤ currentCap d then .next s
  else
    let s := s.setObj (oDomainCurrentMa d) 0
    let s := s.setDom d domCapped
    let s : State := { s with power := { s.power with
        waking := s.power.waking.filter (fun w => w.domain != d),
        requests := s.power.requests.filter (fun w => w.domain != d) } }
    let s := (s.bump oCurrentLimitCount).setObj oLastCurrentLimit (d + s.bell.beat % 2 ^ 32 * 2 ^ 32)
    if d < 24 then
      let s := (s.raiseAt .currentLimit 0 1).poison false
      if isCluster d then .next (s.cutCluster d)
      else if d = 11 ∨ d = 23 then .next (s.clearRouter (d / 12))
      else .next s
    else .next ((s.raiseAt .currentLimit 0 0).dropDomain d)

end Sys2Proof.Machine
end

