-- ==== Sys2Proof/Machine/Beat.lean ====
section
/-! DEFINITION. The beat (R63 to R66, Table 03-2): the boundary with its guard actions in order, the step's
beginning, its verdict, commit or replay, and the close of the guard. -/

namespace Sys2Proof.Machine

/-! ### The loss scale and the loss history (R200, R201, R210, R423) -/

/-- L and the run count replaced. -/
def State.setLoss (s : State) (l : Int) (run : Nat) : State :=
  (s.setObj oLsExp (ofSigned 16 l)).setObj oLsRun run

/-- L changed, with its event. -/
def State.changeLoss (s : State) (l : Int) : State :=
  ((s.setLoss l 0).bump oLsChangeCount).raise .lossScaleChanged

/-- The loss scale after a commit (Table 08-7, first two rows). -/
def State.lossAfterClean (s : State) (r : Recipe) : State :=
  let l := s.lossExp
  let run := s.obj oLsRun
  if run + 1 < r.growthInterval ∨ r.lsMax ≤ l then s.setObj oLsRun (min (run + 1) r.growthInterval)
  else s.changeLoss (min (l + Int.ofNat r.growth) r.lsMax)

/-- No further step begins. -/
def State.stopSteps (s : State) : State := { s with step := { s.step with stopped := true } }

/-- OVERFLOW_PERSISTS (R202). -/
def State.overflowPersists (s : State) : State := s.stopSteps.raise .overflowPersists

/-- The loss scale after a POISONED verdict with OVERFLOW alone (Table 08-7, R201). -/
def State.lossAfterOverflow (s : State) (r : Recipe) : State :=
  let l := s.lossExp
  let n := s.obj oOverflowReplays + 1
  let s := s.setObj oOverflowReplays (satNat 8 n)
  if l ≤ r.lsMin then (s.setObj oLsRun 0).overflowPersists
  else
    let s := s.changeLoss (max (l - Int.ofNat r.backoff) r.lsMin)
    if r.overflowLimit ≤ n then s.overflowPersists else s

/-- The loss of the step at its commit guard (R210). -/
def State.lossBits (s : State) (r : Recipe) : State × Nat :=
  if r.lossSourceKind = 1 then
    let c := s.core (bits r.lossSource 9 1 * 8 + bits r.lossSource 6 3)
    (s, (c.slot (r.lossSource % 64)).rounded)
  else if r.lossSourceKind = 2 then
    let l := s.readPhys .ring (s.physAddr r.lossSource) 4
    (l.1, leNat l.2)
  else (s, fmtFp32.canonNan)

/-- The valid entries of the history, newest first. -/
def State.history (s : State) : List Nat := (upto (s.obj oHistoryFill)).map (fun i => s.obj (oLossEntry i))

/-- The history replaced. -/
def State.setHistory (s : State) (es : List Nat) : State :=
  (upto 64).foldl (fun (s : State) i => s.setObj (oLossEntry i) (es.getD i 0)) (s.setObj oHistoryFill es.length)

/-- The new entry of step `n` pushed (R210), after an entry of that step is checked against it and every entry of step
`n` or later discarded; the flag says that the two differ (R423). -/
def State.pushHistory (s : State) (n loss l : Nat) : State × Bool :=
  let old := s.history.find? (fun e => e % 2 ^ 32 == n)
  let bad := match old with
    | some e => bits e 32 32 != loss || bits e 64 16 != l
    | none => false
  let entry := n + loss * 2 ^ 32 + l * 2 ^ 64 + (s.obj oLsRun % 2 ^ 16) * 2 ^ 80
  let s := if old.isSome then
      let s := s.setObj oLastVerify (n + b2n (!bad) * 2 ^ 32)
      if bad then s.raise .restartMismatch else (s.bump oVerifyCount).raise .restartVerified
    else s
  let kept := if old.isSome then s.history.filter (fun e => decide (e % 2 ^ 32 < n)) else s.history
  (s.setHistory ((entry :: kept).take 64), bad)

/-! ### The verdict in the deadline beat's guard (R23, R24, R389, R390, R409 to R411) -/

/-- A verdict as LAST_VERDICT shows it. -/
def CleanFrame.word (c : CleanFrame) : Nat :=
  c.step + c.attempt * 2 ^ 32 + c.verdict * 2 ^ 40 + c.firstPlace * 2 ^ 48

/-- What the next step or replay is, with the flags of the one just judged cleared. -/
def State.judged (s : State) (step attempt : Nat) : State :=
  { s with step := { s.step with nextStep := step % 2 ^ 32, nextAttempt := attempt % 256, fault := false, overflow := false,
                                 hold := false } }

/-- The commit of the step in progress (R23). -/
def State.commit (s : State) (r : Recipe) : State :=
  let n := s.obj oStepNow
  let x := s.lossBits r
  let s := x.1
  let l := s.step.lsExp
  let s := (s.swapHalves.groupsCommit).lossAfterClean r
  let h := s.pushHistory n x.2 l
  let s := ((h.1.setObj oFaultReplays 0).setObj oOverflowReplays 0).bump oCleanCount
  let s := (s.judged (n + 1) 0).startSnapshot n
  if h.2 then s.faultC else s

/-- A global POISONED applied (R24, R390, R410); one with FAULT, or without OVERFLOW, ends a run of overflow verdicts
(R201), one without FAULT a run of FAULT verdicts (R410). -/
def State.applyPoisoned (s : State) (r : Recipe) (c : CleanFrame) : State :=
  let s := (s.windowsDiscard.shardsDiscard.bump oPoisonedCount).raise .stepPoisoned
  let s := s.judged (s.obj oStepNow) (s.step.attempt + 1)
  let s := if bit c.verdict 1 && !bit c.verdict 2 then s else s.setObj oOverflowReplays 0
  let s := if bit c.verdict 2 then s else s.setObj oFaultReplays 0
  if bit c.verdict 3 then s.stopSteps
  else if bit c.verdict 2 then
    let n := s.obj oFaultReplays + 1
    let s := s.setObj oFaultReplays (satNat 8 n)
    if s.obj oReplayLimit ≤ n then s.stopSteps.raise .replayLimit else s
  else if bit c.verdict 1 then s.lossAfterOverflow r
  else s

/-- The held verdict released at the deadline boundary; none held is VERDICT_TIMEOUT, class C. -/
def State.releaseVerdict (s : State) (pl : Plan) : State :=
  match s.step.verdict with
  | none => (s.raise .verdictTimeout).faultC
  | some c =>
    let s := s.setObj oLastVerdict c.word
    let s : State := { s with step := { s.step with verdict := none } }
    if bit c.verdict 0 then s.applyPoisoned pl.recipe c else s.commit pl.recipe

/-! ### The beginning of a step -/

/-- Compute or update domains that a current limit switched off. -/
def State.cappedDomains (s : State) : List Nat := (upto 24).filter (fun d => s.dom d == domCapped)

/-- What a step that begins finds missing: a re-initialisation under way, or domains switched off by their
limit, which a replay asks to wake (R425, R454). -/
def State.stepMissing (s : State) (replay : Bool) : State :=
  let s := match s.power.reinit with
    | some r => if r.fn = 1 ∨ r.fn = 4 then s.poison false else s
    | none => s
  if s.cappedDomains.isEmpty then s
  else if replay then s.requestWakes s.cappedDomains
  else s.poison false

/-- STEP_REPLAYED (R409): LAST_REPLAY holds the verdict that brought it and the attempt that begins. -/
def State.noteReplay (s : State) (attempt : Nat) : State :=
  ((s.setObj oLastReplay (setBits (s.obj oLastVerdict) 32 8 attempt)).bump oReplayCount).raise .stepReplayed

/-- The fields of a step that begins. -/
def StepSt.begin (x : StepSt) (attempt : Nat) : StepSt :=
  { x with running := true, started := true, attempt := attempt, sent := false, children := [], verdict := none,
           fault := false, overflow := false, hold := false, evidenceTaken := [] }

/-- A step or replay begins at STEP_LIST position 0 (R219, R250, R258, R181, R193, R203, R409). -/
def State.beginStep (s : State) (n attempt : Nat) (gens : List GenFailure) : State :=
  let s := (s.setObj oStepNow n).setObj oStepBeatNow 0
  let s : State := { s with step := { s.step.begin attempt with lsExp := s.obj oLsExp }, ovfAt := 0 }
  let s := s.setObj oStepOverflow 0
  let s := if 0 < attempt then s.noteReplay attempt else s
  let s := (((s.windowsWait n attempt).setEtas).shardsWait).reloadCores
  let s := gens.foldl (fun (s : State) g => s.generatorFails g) s
  s.stepMissing (decide (0 < attempt))

/-- No step runs from here on. -/
def State.endSteps (s : State) : State := { s with step := { s.step with running := false } }

/-- The step's place at a boundary: the next position, the next step or replay, or the step of a JOB_START
whose beat is reached. -/
def State.stepBoundary (s : State) (pl : Plan) (gens : List GenFailure) : State :=
  if s.step.running then
    let pos := s.obj oStepBeatNow + 1
    if pos < pl.timing.stepBeats then
      let s := s.setObj oStepBeatNow pos
      if pos = pl.deadlineBeat then s.releaseVerdict pl else s
    else if s.step.stopped ∨ s.step.releaseWaiting then s.endSteps
    else s.beginStep s.step.nextStep s.step.nextAttempt gens
  else match s.step.jobAt with
    | some b =>
      if b ≤ s.bell.beat then
        let s : State := { s with step := { s.step with jobAt := none } }
        let s := (s.setObj oPlanState 4).cmdDone oJobStart
        if s.step.stopped ∨ s.step.releaseWaiting then s else s.beginStep (s.obj oFirstStep) 0 gens
      else s
    | none => s

/-- RELEASE takes effect in the guard, after any commit due in it (R82, Table 12-7). -/
def State.releasePlan (s : State) : State :=
  if s.step.releaseWaiting then s.parkFailed.endPlan else s

/-! ### Spilled work (R65, R66) -/

/-- A FILL or VLOAD of an earlier beat still waits for its pair's cluster port. -/
def portSpill (e : EngineSt) (b : Nat) : Bool :=
  let old := fun (q : Queued) => decide (q.beat < b)
  e.fills.any old || e.vloads.any old

/-- Work of an earlier beat still on a pair's matrix engine: descriptors, a slice, a tile that drains. -/
def matrixSpill (e : EngineSt) (b : Nat) : Bool :=
  let old := fun (q : Queued) => decide (q.beat < b)
  let tile := fun (t : TileSt) => decide (2 ≤ t.phase) && decide (t.beat < b)
  e.slices.any old || (match e.slice with | some x => decide (x.beat < b) | none => false) ||
  tile e.t0 || tile e.t1

/-- Work of an earlier beat still on a pair's vector engine. -/
def vectorSpill (e : EngineSt) (b : Nat) : Bool :=
  let old := fun (q : Queued) => decide (q.beat < b)
  e.vectors.any old || (match e.run with | some x => decide (x.beat < b) | none => false)

/-- A resource code (R81): its kind, its die or direction, and its unit. -/
def resourceCode (kind die unit : Nat) : Nat := kind * 2 ^ 24 + die * 2 ^ 16 + unit

/-- The update engines whose chunks no item of the rest of the step will take (assumption 68). -/
def State.lateChunk (s : State) (d : Delivered) : Option (Nat × Nat) :=
  match s.job? d.window, s.activePlan with
  | some j, some p =>
    let die := j.w.die % 2
    let unit := j.sh.unit % 2
    let later := (p.stepList.drop (s.obj oStepBeatNow)).any (fun n =>
      match p.programs[n]? with
      | some g => g.items.any (fun i => i.kind == 4 && i.die == die && i.unit == unit && i.b == j.g.num)
      | none => false)
    if d.beat < s.bell.beat ∧ later = false then some (die, unit) else none
  | _, _ => none

/-- The resources that carry spilled work: pairs, cluster ports, granary units, update engines and data links. -/
def State.spills (s : State) : List Nat :=
  let b := s.bell.beat
  let pairs := s.engines.flatMap (fun e =>
    (if matrixSpill e.2 b then [resourceCode 1 (e.1 / 96) (e.1 % 96)] else []) ++
    (if vectorSpill e.2 b then [resourceCode 2 (e.1 / 96) (e.1 % 96)] else []) ++
    (if portSpill e.2 b then [resourceCode 7 (e.1 / 96) (e.1 % 96 / 12)] else []))
  let adds := (s.contribs.filter (fun c => decide (c.beat < b))).map (fun c =>
    resourceCode 3 (s.unitFor c / 16) (s.unitFor c % 16))
  let outs := s.ownedWindows.flatMap (fun w =>
    if (s.win w.num).state ≠ 2 then []
    else ((s.win w.num).chunks.filter (fun e => e.2.complete && !e.2.delivered && decide (e.2.beat < b))).map
      (fun e => resourceCode 3 (w.die % 2) (w.unitOf e.1)))
  let updates := s.delivered.filterMap (fun d => (s.lateChunk d).map (fun u => resourceCode 4 u.1 u.2))
  let links := (s.txLinks.filter (fun e => decide (e.2.backlog ≠ 0))).map (fun e => resourceCode 8 0 (e.1 / 8))
  (pairs ++ adds ++ outs ++ updates ++ links).eraseDups

/-- What a guard action can change of a resource (assumption 68): of an engine its slot's binding, of a cluster port
those of its cluster, of a link its port's transmit lanes in use, their circuits, and the laser source that feeds
them. -/
def State.resourceView (s : State) (c : Nat) : List Nat :=
  let k := bits c 16 8 * 96
  let u := c % 2 ^ 16
  match c / 2 ^ 24 with
  | 1 | 2 => [s.obj (oSlot (k + u))]
  | 7 => (upto 12).map (fun i => s.obj (oSlot (k + 12 * u + i)))
  | 8 => [(s.portSt u).useTx, s.obj (oInService (u / 4))] ++
      ((s.dataLinks u false).flatMap (fun l => [l.1.1, l.1.2, l.2]))
  | _ => []

/-- A data link's queue without the packets of earlier beats of which no flit has gone. -/
def TxLink.abandon (t : TxLink) : TxLink :=
  let kept := (t.queue.take t.backlog).foldl (fun (acc : List Nat × List Flit) f =>
    if acc.1.contains f.vc ∨ f.head = true then (f.vc :: acc.1, acc.2) else (acc.1, acc.2 ++ [f])) ([], [])
  { t with queue := kept.2 ++ t.queue.drop t.backlog, backlog := 0 }

/-- The work of earlier beats of a pair's matrix engine abandoned. -/
def EngineSt.abandonMatrix (e : EngineSt) (b : Nat) : EngineSt :=
  let gone := fun (t : TileSt) => decide (2 ≤ t.phase) && decide (t.beat < b)
  let plane := fun (p : PlaneSt) => if p.state = 1 ∧ (gone e.t0 || gone e.t1) = true then PlaneSt.init else p
  { e with slices := e.slices.filter (fun q => decide (b ≤ q.beat)),
           slice := e.slice.filter (fun x => decide (b ≤ x.beat)),
           t0 := if gone e.t0 then TileSt.init else e.t0,
           t1 := if gone e.t1 then TileSt.init else e.t1, in0 := plane e.in0, in1 := plane e.in1 }

/-- The work of earlier beats of a pair's vector engine abandoned. -/
def EngineSt.abandonVector (e : EngineSt) (b : Nat) : EngineSt :=
  let gone := match e.run with | some x => decide (x.beat < b) | none => false
  let plane := fun (p : PlaneSt) => if p.state = 3 ∧ gone = true then PlaneSt.init else p
  { e with vectors := e.vectors.filter (fun q => decide (b ≤ q.beat)),
           run := e.run.filter (fun x => decide (b ≤ x.beat)), in0 := plane e.in0, in1 := plane e.in1 }

/-- A pair's FILLs and VLOADs of earlier beats abandoned; the next FILL starts at its own first page. -/
def EngineSt.abandonPort (e : EngineSt) (b : Nat) : EngineSt :=
  let keep := fun (q : Queued) => decide (b ≤ q.beat)
  { e with fillPages := if (e.fills.head?.map keep).getD true then e.fillPages else 0,
           fills := e.fills.filter keep, vloads := e.vloads.filter keep }

/-- The step beat whose work spilled: that of the beat before the boundary. -/
def State.spillBeat (s : State) : Nat :=
  match s.activePlan with
  | some p => if s.step.running = true ∧ s.obj oStepBeatNow = 0 then p.timing.stepBeats - 1 else s.obj oStepBeatNow - 1
  | none => 0

/-- OVERRUN_FAULT at a resource: class A with a replay, class B without one when the replay of the step meets it
at the same step beat and resource again (R65, R66). -/
def State.overrunFault (s : State) (code : Nat) : State :=
  let b := s.spillBeat
  let past := if s.step.overrunStep = s.obj oStepNow then s.step.overruns else []
  let again := past.any (fun e => e.2 == code && e.1 / 256 == b && decide (e.1 % 256 < s.step.attempt))
  let s : State := { s with step := { s.step with overruns := past ++ [(b * 256 + s.step.attempt, code)],
                                                  overrunStep := s.obj oStepNow } }
  let s := (s.bump oOverrunFaultCount).setObj oLastOverrun (code + b * 2 ^ 32)
  (s.poison again).raiseAt .overrunFault 0 (if again then 2 else 1)

/-- OVERRUN: all spilled work ended within the guard. -/
def State.overrun (s : State) (code : Nat) : State :=
  ((s.bump oOverrunCount).setObj oLastOverrun (code + s.spillBeat * 2 ^ 32)).raise .overrun

/-- Spilled work abandoned at a resource. -/
def State.abandonAt (s : State) (c : Nat) : State :=
  let b := s.bell.beat
  let k := bits c 16 8
  let u := c % 2 ^ 16
  match c / 2 ^ 24 with
  | 1 => s.setEng (k * 96 + u) ((s.eng (k * 96 + u)).abandonMatrix b)
  | 2 => s.setEng (k * 96 + u) ((s.eng (k * 96 + u)).abandonVector b)
  | 7 => (upto 12).foldl (fun (s : State) i =>
      s.setEng (k * 96 + 12 * u + i) ((s.eng (k * 96 + 12 * u + i)).abandonPort b)) s
  | 3 =>
    let s : State := { s with contribs := s.contribs.filter (fun x =>
      !(decide (x.beat < b) && s.unitFor x == 16 * k + u)) }
    s.ownedWindows.foldl (fun (s : State) w =>
      let st := s.win w.num
      s.setWin w.num { st with chunks := st.chunks.filter (fun e =>
        !(w.die % 2 == k && w.unitOf e.1 == u && e.2.complete && !e.2.delivered && decide (e.2.beat < b))) }) s
  | 4 => { s with delivered := s.delivered.filter (fun d => s.lateChunk d != some (k, u)) }
  | 8 => { s with txLinks := Bank.mapAll s.txLinks TxLink.init (fun k t => if k / 8 = u then t.abandon else t) }
  | _ => s

/-- Spilled work that guard actions touched, against the state before them (R65): abandoned, with its fault. -/
def State.judgeTouched (s before : State) : State :=
  let hit := before.step.spill.filter (fun c =>
    !s.spills.contains c || before.resourceView c != s.resourceView c)
  let s : State := { s with step := { s.step with spill := s.step.spill.filter (fun c => !hit.contains c) } }
  hit.foldl (fun (s : State) c => (s.abandonAt c).overrunFault c) s

/-- Spilled work judged at the guard's close. -/
def State.judgeSpill (s : State) : State :=
  let left := s.spills
  let first := s.step.spill
  let s : State := { s with step := { s.step with spill := [] } }
  if left.isEmpty then
    match first with
    | c :: _ => s.overrun c
    | [] => s
  else left.foldl (fun (s : State) c => (s.abandonAt c).overrunFault c) s

/-! ### The boundary -/

/-- Time moved to the boundary, where the beat number rises and the guard opens (Table 03-2). -/
def State.toBoundary (s : State) : State :=
  let d := s.beatNs - s.bell.off
  let b := s.bell.after s.beatNs d
  { s with now := s.now + d, bell := { b with beat := (b.beat + 1) % 2 ^ 64, off := 0, inGuard := true } }

/-- The control cores at a boundary: a wait has outlived it, a note may be raised again, the items' budgets
are whole, and every unit may run a case again (R71, R182, R396). -/
def State.coresBoundary (s : State) : State :=
  let s := s.bankShards
  { s with cores := Bank.mapAll s.cores CoreSt.init (fun _ (c : CoreSt) =>
             { c with passed := c.wait.isSome, noted := false }),
           spent := [], step := { s.step with caseUnits := [] } }

/-- Writes that waited for this guard take effect (R53, R374): a bridge role or place raises
BRIDGE_ROLE_CHANGED. -/
def State.applyDeferred (s : State) : State :=
  let ds := s.deferred
  let s : State := { s with deferred := [] }
  let s := ds.foldl (fun (s : State) e => s.setObj e.1 e.2) s
  if ds.any (fun e => e.1 == oBridgeRole || e.1 == oBridgePlace) then s.raise .bridgeRoleChanged else s

/-- The keeper's position one beat on (R426): it releases a verdict at the deadline beat, and begins the next step
or replay after the last beat. -/
def Keeper.boundary (k : Keeper) (beat : Nat) : Keeper :=
  let x := k.st
  if x.running then
    if k.beat + 1 < k.stepBeats then
      let k := { k with beat := k.beat + 1 }
      if k.beat = k.deadlineBeat then
        match x.verdict with
        | none => { k with st := { x with stopped := true } }
        | some c =>
          let x := { x with verdict := none }
          if bit c.verdict 3 then { k with st := { x with stopped := true } }
          else if bit c.verdict 0 then
            { k with st := { x with nextStep := k.step, nextAttempt := (x.attempt + 1) % 256 } }
          else { k with st := { x with nextStep := (k.step + 1) % 2 ^ 32, nextAttempt := 0 } }
      else k
    else if x.stopped then { k with st := { x with running := false } }
    else { k with beat := 0, step := x.nextStep, st := x.begin x.nextAttempt }
  else match x.jobAt with
    | some b =>
      if b ≤ beat ∧ x.stopped = false then
        { k with beat := 0, step := k.firstStep, st := { x.begin 0 with jobAt := none } }
      else k
    | none => k

/-- The keeper at a boundary. -/
def State.keeperBoundary (s : State) : State :=
  match s.keeper with
  | some k => if s.admitted then s else s.setKeeper (k.boundary s.bell.beat)
  | none => s

/-- Circuit changes of the guard (Table 03-2, R293, R295, R311). -/
def State.circuitsGuard (s : State) : State :=
  let s := s.rehearse.clearCrossroads
  match s.activePlan with
  | some pl => if s.step.running then s.changeMap pl (mapAt pl (s.obj oStepBeatNow)) else s
  | none => s

/-- Receive lanes whose error ratio over the beat was too high leave use (R321). -/
def State.noisyLanes (s : State) (ls : List LaneId) : State :=
  ls.foldl (fun (s : State) l =>
    let p := l.port.val
    let x := s.portSt p
    (s.setPort p { x with badRx := x.badRx ||| 2 ^ l.lane.val }).loseLane p true l.lane.val) s

/-- The OMA received on each local lane as a sink measures it (R302), 0x8000 where there is no light. -/
def State.noteOma (s : State) (oma : List W16) : State :=
  (upto 24).foldl (fun (s : State) p =>
    let x := s.portSt p
    s.setBlob (oRxOma p) ((upto 8).flatMap (fun n => natLe 2
      (if s.route p n = 0xFE ∧ bit x.darkRx n = false then ((oma[8 * p + n]?).getD 0x8000).toNat else 0x8000)))) s

/-- The links' part of a boundary: the control lasers and the data gates, which lie in the keeper (R308, R310), and while the
optical groups are up noisy lanes, the received light, the supplies and the receivers' reports (R285, R302, R321). -/
def State.linksBoundary (s : State) (env : BoundaryEnv) : State :=
  let s := (s.holdControl env.ctlLaunch).openGates
  if s.fnDown .optics then s
  else
    let s := ((s.noisyLanes env.noisy).noteOma env.rxOma).pollSupplies
    ((upto 24).filter (fun p => s.linkClass p == 2)).foldl (fun (s : State) p => s.sendReport p) s

/-- Windows still open at the end of their DUE_BEAT (Table 09-3). -/
def State.dueBoundary (s : State) : State :=
  if s.step.running then s.windowsOverdue (s.obj oStepBeatNow) else s

/-- The plan's part of a boundary: the step, its verdict and commit, RELEASE, the windows that open. -/
def State.planBoundary (s : State) (gens : List GenFailure) : State :=
  match s.activePlan with
  | some pl =>
    let s : State := { s with txLinks := Bank.mapAll s.txLinks TxLink.init (fun _ (t : TxLink) =>
                         { t with backlog := t.queue.length }) }
    let s : State := { s with step := { s.step with spill := s.spills } }
    let s := (s.stepBoundary pl gens).releasePlan
    if s.step.running then s.windowsOpen (s.obj oStepBeatNow) else s
  | none => s

/-- BEAT_BOUNDARY (R64, Table 03-2): the beat number rises and the guard actions run in order. -/
def execBeatBoundary (env : BoundaryEnv) (s : State) : Host.Outcome State Fault Refusal :=
  let s := s.quiet
  if s.dom 38 ≠ domOn then .next s
  else
    let s := s.dueBoundary.toBoundary.changeBeat
    let s := (s.applyDeferred.keeperBoundary).coresBoundary
    let s := s.planBoundary env.genFailures
    let t := (((s.substitute.circuitsGuard).retune).sendTraining false).switchLasers
    .next ((t.judgeTouched s).linksBoundary env)

/-- GUARD_CLOSE (R64, R65): at 2,000 ns spilled work is judged, the pairs are cleared at a step's first beat
(R138, R161), lanes join and the reserves are judged (R322, R324), and scheduled work starts. -/
def execGuardClose (s : State) : Host.Outcome State Fault Refusal :=
  let s := s.quiet
  if s.bell.inGuard then
    let s := s.advance (2000 - s.bell.off)
    let s : State := { s with bell := { s.bell with inGuard := false } }
    let s := if s.admitted then s.judgeSpill else s
    let s := if s.step.running = true ∧ s.obj oStepBeatNow = 0 then s.clearPairs else s
    .next s.joinLanes
  else .next s

end Sys2Proof.Machine
end

