-- ==== Sys2Proof/Machine/Security.lean ====
section
/-! DEFINITION. Firmware, life cycle, identity and attestation (R444 to R452): what the objects of
0x1100 to 0x13FF do, SPDM and MCTP control requests, and security violations. -/

namespace Sys2Proof.Machine

/-! ### The firmware image (R445, R446) -/

/-- The form of an image: MAGIC, SVN 1 to 64, reserved bytes zero, LENGTH that of the code. -/
def imageFormOk (bs : Bytes) : Bool :=
  decide (160 ≤ bs.length) && fieldLe bs 0 4 == 0x46574931 && decide (1 ≤ fieldLe bs 8 1) &&
  decide (fieldLe bs 8 1 ≤ 64) && fieldLe bs 9 3 == 0 && fieldLe bs 16 48 == 0 &&
  fieldLe bs 12 4 + 160 == bs.length

/-- The bytes that an image's signature covers: its header and code. -/
def imageBody (bs : Bytes) : Bytes := bs.take (64 + fieldLe bs 12 4)

/-- The checks of an image at SEG_END, in the order of R446. -/
def State.imageFault (s : State) (bs : Bytes) : Option Nat :=
  let len := 64 + fieldLe bs 12 4
  if signedBy (signerKey s.power.vendorKey 0 []) (imageBody bs) ((bs.drop len).take 96) = false then some abSignature
  else if fieldLe bs 8 1 < s.obj oFwSvnFuse ∨ imageFormOk bs = false then some abValueRange
  else none

/-- A write of FW_STAGE: the image is staged, its version shown; or the abort code. -/
def State.takeImage (s : State) (bs : Bytes) : State × Option Nat :=
  match s.imageFault bs with
  | some a => (s, some a)
  | none =>
    let img : FwImage :=
      { version := fieldLe bs 4 4, svn := fieldLe bs 8 1, digest := leNat (sha384 (imageBody bs)), good := true }
    ({ s with power := { s.power with staged := some img } }.setObj oFwStagedVersion img.version, none)

/-- A write of FW_ACTIVATE. -/
def State.actFwActivate (s : State) : State :=
  if s.planHeld then s.cmdFail oFwActivate abPlanAdmitted
  else if s.power.staged.isNone then s.cmdFail oFwActivate abValueRange
  else { s.cmdStart oFwActivate with power := { s.power with copying := true } }

/-- The staged image in flash; one whose version a power loss has cleared is staged no longer. -/
def State.putImage (s : State) (img : FwImage) : State :=
  let left := if s.obj oFwStagedVersion = 0 then none else s.power.staged
  { s with power := { s.power with flash := img, copying := false, staged := left } }.setBlob oFwDigest (natLe 48 img.digest)

/-- FW_IMAGE_COPIED (R446): the copy ends, within 10 s; the recovery loader runs the new image at once
(R447), and a warm reset that waited begins (Table 17-12). -/
def execFwImageCopied (s : State) : Host.Outcome State Fault Refusal :=
  let s := s.quiet
  if s.power.copying then
    match s.power.staged with
    | some img =>
      let s := (s.putImage img).cmdDone oFwActivate
      match s.power.resetHeld with
      | some c => .next (s.startWarmReset c)
      | none => if s.power.boot = .recovery then .next s.bootRom else .next s
    | none => .next s
  else .next s

/-! ### Security violations (R452) -/

/-- SECURITY_VIOLATION, class D, with its cause. -/
def State.violation (s : State) (cause : Nat) : State :=
  let s := (s.bump oViolationCount).setObj oLastViolation (cause + s.bell.beat % 2 ^ 32 * 2 ^ 32)
  (s.raise .securityViolation).classD

/-- SECURITY_CHECK (R452): the digest of the firmware's code memory, recomputed while an image runs. -/
def execSecurityCheck (digest : BitVec 384) (s : State) : Host.Outcome State Fault Refusal :=
  let s := s.quiet
  if s.power.boot = .image ∧ natLe 48 digest.toNat ≠ s.blob oFwRunningDigest then .next (s.violation 1)
  else .next s

/-- SECURITY_CORE_ACCESS (R452): cause 2. -/
def execSecurityCoreAccess (s : State) : Host.Outcome State Fault Refusal :=
  let s := s.quiet
  if s.power.aux then .next (s.violation 2) else .next s

/-- DEBUG_ACCESS (R452): cause 3 in DEPLOYED and RETIRED. -/
def execDebugAccess (s : State) : Host.Outcome State Fault Refusal :=
  let s := s.quiet
  if s.power.aux = true ∧ (s.obj oLcState = 2 ∨ s.obj oLcState = 4) then .next (s.violation 3) else .next s

/-! ### Life cycle (R448 to R450) -/

/-- The public point of an identity key, uncompressed (0x1200.01). -/
def identityPoint (n : Nat) : Bytes :=
  natLe 1 4 ++ natBe 48 (Config.identityKeyX n).toNat ++ natBe 48 (Config.identityKeyY n).toNat

/-- A new identity key. -/
def State.newIdentity (s : State) : State :=
  let n := s.power.identities
  { s with power := { s.power with identity := some n, identities := n + 1 } }.setBlob oIdPublicKey
    (identityPoint n)

/-- The identity key zeroised. -/
def State.dropIdentity (s : State) : State :=
  { s with power := { s.power with identity := none } }.setBlob oIdPublicKey []

/-- A write of LC_ADVANCE (Table 17-8). -/
def State.actLcAdvance (s : State) (v : Nat) : State :=
  if s.planHeld then s.cmdFail oLcAdvance abPlanAdmitted
  else if v = 1 ∧ s.obj oLcState = 0 then (s.newIdentity.setObj oLcState 1).cmdDone oLcAdvance
  else if v = 2 ∧ s.obj oLcState = 1 ∧ (s.blob oIdCertChain).isEmpty = false then
    (s.setObj oLcState 2).cmdDone oLcAdvance
  else s.cmdFail oLcAdvance abLifeCycle

/-- The nonce for the next token (0x1100.02, R449). -/
def State.nextNonce (s : State) : State :=
  let n := s.power.nonces + 1
  { s with power := { s.power with nonces := n } }.setObj oLcNonce (Config.lcNonce n).toNat

/-- A token is valid (R449): its fields match, its SIGNER is permitted for its TARGET, its signature
verifies. -/
def State.tokenValid (s : State) (t : Bytes) : Bool :=
  let signer := fieldLe t 5 1
  t.length == 120 && fieldLe t 0 4 == 0x4C435431 && fieldLe t 6 2 == 0 &&
  fieldLe t 8 8 == s.obj oSerialDigest && fieldLe t 16 8 == s.obj oLcNonce &&
  (if fieldLe t 4 1 = 3 then decide (signer < 2) && bit (s.obj oLcDiagSigners) signer else signer == 0) &&
  signedBy (signerKey s.power.vendorKey signer (s.blob oFleetKey)) (t.take 24) (t.drop 24)

/-- RETIRED (Table 17-8): the plan, if any, released, the identity key zeroised. -/
def State.retire (s : State) : State :=
  ((s.endPlan.wakeGated).dropIdentity).setObj oLcState 4

/-- The objects of 0x7120 cleared. -/
def State.clearRaw (s : State) : State :=
  ((s.setBlob oSteProgram []).setBlob oSteOutput []).setObj oSteStart 0

/-- A write of LC_REQUEST (Table 17-8, R449). -/
def State.actLcRequest (s : State) (t : Bytes) : State :=
  let target := fieldLe t 4 1
  let st := s.obj oLcState
  if target ≠ 4 ∧ s.planHeld = true then s.cmdFail oLcRequest abPlanAdmitted
  else if target = 3 ∧ st = 2 then
    (if s.tokenValid t then (s.nextNonce.setObj oLcState 3).cmdDone oLcRequest
     else s.cmdFail oLcRequest abSignature)
  else if target = 2 ∧ st = 3 then (s.nextNonce.clearRaw.setObj oLcState 2).cmdDone oLcRequest
  else if target = 4 ∧ 1 ≤ st ∧ st ≤ 3 then
    (if s.tokenValid t then s.nextNonce.retire.cmdDone oLcRequest else s.cmdFail oLcRequest abSignature)
  else s.cmdFail oLcRequest abLifeCycle

/-- A fleet key enrolled, with the first 64 bits of its digest (0x1200.03, 0x1200.04). -/
def State.setFleetKey (s : State) (bs : Bytes) : State :=
  (s.setBlob oFleetKey bs).setObj oFleetKeyDigest (fieldLe (sha384 bs) 0 8)

/-! ### Measurements and SPDM (R451) -/

/-- The digest as its 48 bytes. -/
def digestBytes (d : BitVec 384) : Bytes := natLe 48 d.toNat

/-- A measurement block (Table 17-10). -/
def State.measurement (s : State) (index : Nat) : Bytes :=
  if index = 1 then digestBytes Config.bootRomDigest
  else if index = 2 then s.blob oFwRunningDigest
  else if index = 3 then sha384 (s.blob oPackList ++ s.packs.flatMap (fun p => p.bytes))
  else if index = 4 then (if s.admitted then padTo 48 (s.blob oPlanDigest) else zeros 48)
  else if index = 5 then natLe 1 (s.obj oLcState) ++ natLe 1 (s.obj oFwSvnFuse) ++ zeros 6
  else if index = 6 then (if (s.blob oFleetKey).isEmpty then zeros 48 else sha384 (s.blob oFleetKey))
  else []

/-- MEASUREMENTS as a read assembles it (0x1300.01). -/
def State.measurements (s : State) : Bytes := [1, 2, 3, 4, 5, 6].flatMap s.measurement

/-- SPDM requests are served while an image runs. -/
def State.spdmServed (s : State) : Bool := s.power.boot == .image

/-- The code of an SPDM response or error (assumption 58). -/
def spdmError : Nat := 0x7F

/-- An SPDM request counted and answered. -/
def State.spdmAnswer (s : State) (code : Nat) (data : Bytes) : State :=
  (s.bump oSpdmRequests).emit (.spdm code data)

/-- ERROR with its code: 0x04 UnexpectedRequest, 0x05 Unspecified, 0x07 UnsupportedRequest. -/
def State.spdmFail (s : State) (code : Nat) : State := s.spdmAnswer spdmError (natLe 1 code)

/-- GET_VERSION: 1.3 only; the responder starts again. -/
def State.spdmVersion (s : State) : State :=
  ({ s with mctp := { s.mctp with spdmVersioned := true, spdmCapable := false, spdmNegotiated := false } }).spdmAnswer
    0x04 (natLe 2 0x1300)

/-- GET_CAPABILITIES: CERT_CAP, CHAL_CAP and MEAS_CAP with signature. -/
def State.spdmCapabilities (s : State) : State :=
  if s.mctp.spdmVersioned then
    ({ s with mctp := { s.mctp with spdmCapable := true } }).spdmAnswer 0x61 (natLe 4 0x16)
  else s.spdmFail 0x04

/-- NEGOTIATE_ALGORITHMS: ECDSA P-384 (0x80) and SHA-384 (0x02), when both are offered. -/
def State.spdmAlgorithms (s : State) (asym hash : Nat) : State :=
  if s.mctp.spdmCapable then
    let ok := bit asym 7 && bit hash 1
    ({ s with mctp := { s.mctp with spdmNegotiated := ok } }).spdmAnswer 0x63
      (natLe 4 (b2n (bit asym 7) * 0x80) ++ natLe 4 (b2n (bit hash 1) * 0x02))
  else s.spdmFail 0x04

/-- GET_DIGESTS: the digest of the chain of slot 0. -/
def State.spdmDigests (s : State) : State :=
  if s.mctp.spdmNegotiated = false then s.spdmFail 0x04
  else if (s.blob oIdCertChain).isEmpty then s.spdmFail 0x05
  else s.spdmAnswer 0x01 (sha384 (s.blob oIdCertChain))

/-- GET_CERTIFICATE: a portion of the chain of slot 0. -/
def State.spdmCertificate (s : State) (offset length : Nat) : State :=
  if s.mctp.spdmNegotiated = false then s.spdmFail 0x04
  else s.spdmAnswer 0x02 (((s.blob oIdCertChain).drop offset).take length)

/-- What an identity key signs: a response's data under a fresh nonce. -/
def State.signedData (s : State) (key : Nat) (bs : Bytes) : Bytes :=
  let digest : BitVec 384 := BitVec.ofNat 384 (leNat (sha384 bs))
  bs ++ natBe 96 (Config.identitySign key digest s.mctp.nonces).toNat

/-- A request answered with data signed by the identity key, under a fresh nonce of the responder. -/
def State.spdmSigned (s : State) (code : Nat) (nonce : BitVec 256) (bs : Bytes) : State :=
  if s.mctp.spdmNegotiated = false then s.spdmFail 0x04
  else match s.power.identity with
    | none => s.spdmFail 0x05
    | some key =>
      let own := natLe 32 (Config.spdmNonce s.mctp.nonces).toNat
      let data := s.signedData key (bs ++ own ++ natLe 32 nonce.toNat)
      ({ s with mctp := { s.mctp with nonces := s.mctp.nonces + 1 } }).spdmAnswer code data

/-- CHALLENGE, over the digest of the chain. -/
def State.spdmChallenge (s : State) (nonce : BitVec 256) : State :=
  s.spdmSigned 0x03 nonce (sha384 (s.blob oIdCertChain))

/-- GET_MEASUREMENTS: one block, or with 0xFF all of them. -/
def State.spdmMeasurements (s : State) (index : Nat) (nonce : BitVec 256) : State :=
  s.spdmSigned 0x60 nonce (if index = 0xFF then s.measurements else s.measurement index)

/-- GET_VERSION (R451). -/
def execGetVersion (s : State) : Host.Outcome State Fault Refusal :=
  let s := s.quiet
  if s.spdmServed then .next s.spdmVersion else .next s

/-- GET_CAPABILITIES (R451). -/
def execGetCapabilities (s : State) : Host.Outcome State Fault Refusal :=
  let s := s.quiet
  if s.spdmServed then .next s.spdmCapabilities else .next s

/-- NEGOTIATE_ALGORITHMS (R451). -/
def execNegotiateAlgorithms (asym hash : W32) (s : State) : Host.Outcome State Fault Refusal :=
  let s := s.quiet
  if s.spdmServed then .next (s.spdmAlgorithms asym.toNat hash.toNat) else .next s

/-- GET_DIGESTS (R451). -/
def execGetDigests (s : State) : Host.Outcome State Fault Refusal :=
  let s := s.quiet
  if s.spdmServed then .next s.spdmDigests else .next s

/-- GET_CERTIFICATE (R451). -/
def execGetCertificate (offset length : W16) (s : State) : Host.Outcome State Fault Refusal :=
  let s := s.quiet
  if s.spdmServed then .next (s.spdmCertificate offset.toNat length.toNat) else .next s

/-- CHALLENGE (R451). -/
def execChallenge (nonce : BitVec 256) (s : State) : Host.Outcome State Fault Refusal :=
  let s := s.quiet
  if s.spdmServed then .next (s.spdmChallenge nonce) else .next s

/-- GET_MEASUREMENTS (R451). -/
def execGetMeasurements (index : Byte) (nonce : BitVec 256) (s : State) : Host.Outcome State Fault Refusal :=
  let s := s.quiet
  if s.spdmServed then .next (s.spdmMeasurements index.toNat nonce) else .next s

/-! ### MCTP control (R48, R49) -/

/-- The management complex runs the image: it serves MCTP control messages. -/
def State.controlServed (s : State) : Bool := s.power.boot == .image || s.power.boot == .recovery

/-- Set Endpoint ID: 0x00 and 0xFF are no endpoint's (assumption 58). -/
def State.setEid (s : State) (eid : Nat) : State :=
  if eid = 0 ∨ eid = 0xFF then s.emit (.control 1 (natLe 1 2))
  else (s.setObj oMctpEid eid).emit (.control 1 (natLe 1 0 ++ natLe 1 eid))

/-- Get Endpoint ID. -/
def State.getEid (s : State) : State := s.emit (.control 2 (natLe 1 (s.obj oMctpEid)))

/-- Get MCTP Version Support. -/
def State.mctpVersions (s : State) : State := s.emit (.control 4 (natLe 1 1))

/-- Get Message Type Support: control, SPDM and vendor defined (IANA). -/
def State.mctpTypes (s : State) : State := s.emit (.control 5 [0x00, 0x05, 0x7F])

/-- SET_ENDPOINT_ID (R49). -/
def execSetEndpointId (eid : Byte) (s : State) : Host.Outcome State Fault Refusal :=
  let s := s.quiet
  if s.controlServed then .next (s.setEid eid.toNat) else .next s

/-- GET_ENDPOINT_ID (R49). -/
def execGetEndpointId (s : State) : Host.Outcome State Fault Refusal :=
  let s := s.quiet
  if s.controlServed then .next s.getEid else .next s

/-- GET_MCTP_VERSION_SUPPORT (R49). -/
def execGetMctpVersionSupport (s : State) : Host.Outcome State Fault Refusal :=
  let s := s.quiet
  if s.controlServed then .next s.mctpVersions else .next s

/-- GET_MESSAGE_TYPE_SUPPORT (R49). -/
def execGetMessageTypeSupport (s : State) : Host.Outcome State Fault Refusal :=
  let s := s.quiet
  if s.controlServed then .next s.mctpTypes else .next s

/-- DYNAMIC_ADDRESS_ASSIGNMENT (R48): the bus owner's address is shown in 0x1020.03. -/
def execDynamicAddressAssignment (addr : BitVec 7) (s : State) : Host.Outcome State Fault Refusal :=
  let s := s.quiet
  if s.controlServed then .next (s.setObj oI3cDynamicAddr addr.toNat) else .next s

end Sys2Proof.Machine
end

