-- ==== Sys2Proof/Machine/Mgmt.lean ====
section
/-! DEFINITION. The object dictionary's service (chapter 2): what a read shows, the checks of a request in the
order of R479, what a write does, expedited and segmented transfers, the kept responses. -/

namespace Sys2Proof.Machine

/-! ### What a read shows -/

/-- A value held per group, 1,024 of them in 4 bytes each. -/
def groupWords (m : Bank Nat) : Bytes := (upto 1024).flatMap (fun g => natLe 4 (Bank.get m 0 g))

/-- A group record's 16 bytes (R208). -/
def GroupRec.bytes (r : GroupRec) : Bytes :=
  natLe 4 r.ratio ++ natLe 4 r.under ++ natLe 4 r.step ++ natLe 2 r.run ++ natLe 1 r.flags ++ [0]

/-- A ledger entry's 48 bytes (Table 16-9). -/
def LedgerEntry.bytes (e : LedgerEntry) : Bytes :=
  natLe 4 e.ev.seq ++ natLe 2 e.ev.code ++ natLe 1 e.ev.cls ++ natLe 1 e.flags ++ natLe 8 e.ev.beat ++
  natLe 4 e.ev.off ++ natLe 4 e.ev.step ++ natLe 1 e.attempt ++ natLe 1 e.ev.detailSub ++ natLe 2 e.ev.detailIndex ++
  natLe 4 e.powerOn ++ natLe 8 e.ev.detail ++ natLe 8 e.planId

/-- EVENT_RING: the newest 256 records, newest first (R366). -/
def State.eventRing (s : State) : Bytes := padTo 16384 (s.events.flatMap RingRec.bytes)

/-- The window that WINDOW_SELECT names, by sub-index of 0x3210. -/
def State.windowView (s : State) (sub : Nat) : Nat :=
  let w := s.win (s.obj oWindowSelect)
  match sub with
  | 2 => w.state
  | 3 => w.step
  | 4 => w.attempt
  | 5 => (w.chunks.filter (fun e => e.2.complete)).length
  | 6 => w.accepted
  | 7 => satNat 32 w.bw
  | 8 => w.ovf
  | 9 => w.touched
  | 10 => w.doneAt
  | _ => w.markers

/-- The shard that SHARD_SELECT names, by sub-index of 0x3330. -/
def State.shardView (s : State) (sub : Nat) : Nat :=
  let h := s.shard (s.obj oShardSelect)
  if sub = 2 then h.state else if sub = 3 then h.iteration else h.rowsDone

/-- The regions shown at 0x4030: those of the plan held, else of the loaded blob (R278, R421). -/
def State.shownRegions (s : State) : List Region :=
  match s.plan with
  | some p => p.regions
  | none => (parsePlan (s.blob oPlanBlob)).regions

/-- The region that REGION_SELECT names, by sub-index of 0x4030; zero when it names none (R278). -/
def State.regionView (s : State) (sub : Nat) : Nat :=
  match s.shownRegions.find? (fun g => g.num == s.obj oRegionSelect) with
  | some g => if sub = 2 then g.kind else if sub = 3 then g.base else if sub = 4 then g.len else s.committedBit g
  | none => 0

/-- The flow context that FLOW_SELECT names, by sub-index of 0x5610. -/
def State.flowView (s : State) (sub : Nat) : Nat :=
  let f := s.flow (s.obj oFlowSelect)
  match sub with
  | 2 => f.peer % 2 ^ 16 + f.peerFlow % 2 ^ 12 * 2 ^ 16 + b2n f.host * 2 ^ 28 + f.cls % 8 * 2 ^ 29
  | 3 => f.state
  | 4 => f.txPsn + satNat 8 f.unacked.length * 2 ^ 24 + f.txMsg * 2 ^ 32
  | 5 => f.rxExpected
  | _ => f.lastFail

/-- The queue that QUEUE_SELECT names, by sub-index of 0x6010; zero when none is declared. -/
def State.queueView (s : State) (sub : Nat) : Nat :=
  let n := s.obj oQueueSelect
  match s.queue? n with
  | some q => if sub = 2 then q.kind else if sub = 3 then (s.ring n).pi else (s.ring n).ci
  | none => 0

/-- Eight ring states of four bits, from the ring of key `k` on (Table 12-7). -/
def State.ringStates (s : State) (k : Nat) : Nat :=
  (upto 8).foldl (fun a n => a + (s.ringAt (k + n)).state * 16 ^ n) 0

/-- HELLO_AGE_US of a port (0x5450 + port sub-index 0x02). -/
def State.helloAge (s : State) (p : Nat) : Nat :=
  if (s.blob (oHelloSeen p)).isEmpty then 0xFFFFFFFF else satNat 32 ((s.now - (s.portSt p).helloAt) / 1000)

/-- A numeric object's value as a read shows it: what other state holds is assembled from there. -/
def State.viewNat (s : State) (index sub : Nat) : Nat :=
  let k := objKey index sub
  let port := fun (base : Nat) => decide (base ≤ index) && decide (index < base + 24)
  if sub = 0 then s.obj k
  else if k = oBellNow then s.timeNow
  else if k = oPoisonLines then s.mem.poison.length
  else if index = 0x3210 ∧ 2 ≤ sub then s.windowView sub
  else if index = 0x3330 ∧ 2 ≤ sub then s.shardView sub
  else if index = 0x4030 ∧ 2 ≤ sub ∧ sub ≤ 5 then s.regionView sub
  else if index = 0x5610 ∧ 2 ≤ sub then s.flowView sub
  else if index = 0x6010 ∧ 2 ≤ sub then s.queueView sub
  else if 0x5010 ≤ index ∧ index ≤ 0x5015 ∧ sub = 5 then s.verifiedLines (index - 0x5010)
  else if port 0x5040 ∧ sub = 1 then s.ringStates (txKey (index - 0x5040) 0)
  else if port 0x5100 ∧ sub = 2 then s.ringStates (xpKey (index - 0x5100) 0)
  else if port 0x5410 ∧ sub = 3 then s.linkLaneMask (index - 0x5410)
  else if port 0x5410 ∧ sub = 7 then s.lostLanes (index - 0x5410) false
  else if port 0x5410 ∧ sub = 8 then s.lostLanes (index - 0x5410) true
  else if port 0x5450 ∧ sub = 2 then s.helloAge (index - 0x5450)
  else s.obj k

/-- An object held as bytes, as a read shows it. -/
def State.viewBytes (s : State) (k : Nat) : Bytes :=
  if k = oEventRing then s.eventRing
  else if k = oLedgerFlash then s.ledger.flash.flatMap LedgerEntry.bytes
  else if k = oLedgerRing then s.ledger.ring.flatMap LedgerEntry.bytes
  else if k = oMeasurements then s.measurements
  else if k = oGroupRecords then (upto 1024).flatMap (fun g => (Bank.get s.records GroupRec.zero g).bytes)
  else if k = oGroupT then groupWords s.groupT
  else if k = oEtaNow then groupWords s.eta
  else s.blob k

/-- Readings of sensors that no command of the table sets: power, its peak and the domains' currents. Their
values are free (assumption 3). -/
def sensed (k : Nat) : Bool := k == oInputPowerW || k == oPowerPeakW || k / 256 == 0x8023 && k % 256 != 0

/-- The value that a read returns, as its bytes: a CMD object's result word (R52), else the object's value. -/
def State.readValue (s : State) (row : ObjRow) (index sub : Nat) : Bytes × State :=
  let k := objKey index sub
  if row.acc = .cmd then (natLe 4 (s.obj k), s)
  else if row.ty.isBytes then (s.viewBytes k, s)
  else if sensed k then let r := s.fresh; (natLe row.ty.len r.1, r.2)
  else (natLe row.ty.len (s.viewNat index sub), s)

/-- The type of the value that a read returns (R30, R52). -/
def readType (row : ObjRow) : Nat := if row.acc = .cmd then OTy.code .u32 else row.ty.code

/-! ### The checks of R479 -/

/-- What the recovery loader serves (R447). -/
def recoveryServes (index sub : Nat) : Bool :=
  index == 0x1000 || index == 0x1110 || (index == 0x1100 && sub == 1) || (index == 0x8000 && sub == 1)

/-- An object's function is down (R36, R403, R447): the granaries also need their memory-side domains, and SAFE
holds them in reset. -/
def State.objDown (s : State) (index sub : Nat) : Bool :=
  if s.power.boot = .recovery then !recoveryServes index sub
  else
    (match fnOf index with | some f => s.fnDown f | none => true) ||
    (decide (0x3200 ≤ index ∧ index ≤ 0x32FF) &&
      (s.obj oSafe != 0 || [8, 9, 20, 21].any (fun d => s.dom d != domOn)))

/-- The objects whose writes are served before the feature word is agreed (Table 02-13). -/
def beforeAgreement (index sub : Nat) : Bool :=
  let within := fun (a b : Nat) => decide (a ≤ index) && decide (index ≤ b)
  within 0x1000 0x13FF || (index == 0x2001 && (sub == 2 || sub == 3)) || index == 0x2010 || within 0x2040 0x2057 ||
  index == 0x2080 || within 0x5010 0x5015 || index == 0x5020 || (index == 0x5400 && sub == 2) ||
  (within 0x5410 0x5427 && sub == 6) || within 0x5430 0x5447 || index == 0x6040 || within 0x8000 0x81FF

/-- The number of a path: its bit of WRITE_PATHS (R50). -/
def pathBit : Path → Nat
  | .inBand => 0
  | .outOfBand => 1

/-- PATH_DENIED (R50, R55, Table 17-8): the path barred, or barred by the object's own rule. -/
def State.pathDenied (s : State) (path : Path) (k : Nat) (bs : Bytes) : Bool :=
  (!bit (s.obj oWritePaths) (pathBit path) && !(k == oWritePaths && path == .outOfBand)) ||
  (k == oFeaturesAccepted && path == .outOfBand) || (k == oLcAdvance && bs == [1] && path == .inBand)

/-- LIFE_CYCLE (R402, R450): the state forbids the write. -/
def State.lifeCycleDenied (s : State) (k : Nat) : Bool :=
  let st := s.obj oLcState
  ((k == oSteProgram || k == oSteStart) && !s.rawAllowed) || (k == oIdCertChain && decide (1 < st)) ||
  (k == oFleetKey && st != 1)

/-- The access checks of a write, but for those of its function (R32, R41, R479 items 5 and 6). -/
def State.writeDenied (s : State) (path : Path) (row : ObjRow) (index sub : Nat) (bs : Bytes) : Option Nat :=
  let k := objKey index sub
  if row.acc = .ro then some abReadOnly
  else if s.pathDenied path k bs then some abPathDenied
  else if bit (s.obj oFeaturesAgreed) 0 = false ∧ beforeAgreement index sub = false then some abNotNegotiated
  else if s.lifeCycleDenied k then some abLifeCycle
  else if (row.acc = .rwa ∨ k = oPackLoad) ∧ s.planHeld = true then some abPlanAdmitted
  else if row.acc = .rwd ∧ s.obj oLcState ≠ 3 then some abNotDiag
  else if row.acc = .cmd ∧ s.cmdRunning k = true then some abCmdInProgress
  else none

/-- Type, length and size of a value written (R30, R39, R46). -/
def typeFault (row : ObjRow) (type : Nat) (bs : Bytes) : Option Nat :=
  if type ≠ row.ty.code then some abTypeMismatch
  else if row.ty.isBytes = false ∧ bs.length ≠ row.ty.len then some abTypeMismatch
  else if row.ty = .str ∧ 64 < bs.length then some abTypeMismatch
  else if row.ty = .blob ∧ row.maxLen < bs.length then some abBlobTooLarge
  else none

/-- A numeric value by its type's encoding. -/
def signedOf (ty : OTy) (v : Nat) : Int :=
  match ty with
  | .i16 => toSigned 16 v
  | .i32 => toSigned 32 v
  | .i64 => toSigned 64 v
  | .bool => v | .u8 => v | .u16 => v | .u32 => v | .u64 => v | .f32 => v | .f64 => v | .bits32 => v
  | .bits64 => v | .bits128 => v | .str => v | .blob => v | .time => v | .place => v

/-- BAD_PLACE and VALUE_RANGE (R14, R30): the encoding and the object's stated range. -/
def State.rangeFault (s : State) (row : ObjRow) (k : Nat) (bs : Bytes) : Option Nat :=
  let v := leNat bs
  if row.ty = .place ∧ 0x4000 ≤ v then some abBadPlace
  else if row.ty = .bool ∧ 1 < v then some abValueRange
  else if row.ty = .time ∧ s.beatNs ≤ bits v 64 32 then some abValueRange
  else if row.ty = .str ∧ utf8Valid bs = false then some abValueRange
  else if k = oGroupTStart ∧ bs.length ≠ 0 ∧ bs.length ≠ 4096 then some abValueRange
  else if k = oFleetKey ∧ bs.length ≠ 97 then some abValueRange
  else if row.ty.isBytes = false ∧ row.rng.isEmpty = false ∧
      row.rng.any (fun i => decide (i.1 ≤ signedOf row.ty v) && decide (signedOf row.ty v ≤ i.2)) = false then
    some abValueRange
  else none

/-! ### What a write does -/

/-- A write of PLAN_BLOB (Table 03-11, R296): LOADED, or EMPTY for an empty value. -/
def State.setPlanBlob (s : State) (bs : Bytes) : State :=
  let s := (s.setBlob oPlanBlob bs).dropRehearsal
  let s := (s.setObj oPlanState (if bs.isEmpty then 0 else 1)).setObj oMapCount ((parsePlan bs).maps % 256)
  { s with mem := { s.mem with committed := [] } }

/-- A write of FEATURES_ACCEPTED (R55): checked against the offer and echoed. -/
def State.setFeatures (s : State) (v : Nat) : State × Option Nat :=
  if v &&& s.obj oFeaturesOffered ≠ v ∨ bit v 0 = false then (s, some abFeatureNotOffered)
  else ((s.setObj oFeaturesAccepted v).setObj oFeaturesAgreed v, none)

/-- A write that takes effect at the next guard (R53, R374). -/
def State.defer (s : State) (k v : Nat) : State :=
  { s with deferred := s.deferred.filter (fun e => e.1 != k) ++ [(k, v)] }

/-- Every port classes its link again: the module's place changed (R329). -/
def State.restateAll (s : State) : State := (upto 24).foldl (fun (s : State) p => s.restate p) s

/-- A stated D0 frequency that R283 takes: none, or within 20,000 MHz of the grid. -/
def d0Fits (v : Nat) : Bool := v == 0 || (decide (228000000 ≤ v + 20000) && decide (v ≤ 228020000))

/-- A laser statement written (R283). -/
def State.stateLaser (s : State) (index sub v : Nat) : State × Option Nat :=
  if sub ≠ 1 ∧ d0Fits v = false then (s, some abValueRange)
  else ((s.setObj (objKey index sub) v).restateLaser (index - 0x5010), none)

/-- A DISABLE mask written (R131): the die's slot map is rebuilt at once. -/
def State.setDisable (s : State) (die v : Nat) : State :=
  ((s.setObj (oDisable die) v).rebuildSlots die false).showDegraded

/-- The action of a CMD object that a value starts (R52). -/
def State.act (s : State) (index sub v : Nat) : State :=
  let k := objKey index sub
  if k = oAdmit then s.actAdmit
  else if k = oRelease then s.actRelease
  else if k = oJobStart then s.actJobStart v
  else if k = oJobStop then s.actJobStop
  else if k = oPrepare then s.actPrepare v
  else if k = oXrClear then s.actXrClear
  else if k = oRootSet then s.actRootSet v
  else if k = oMemVerified then s.actMemVerified
  else if k = oRtTelemetryClear then s.actTelemetryClear
  else if k = oEvidenceReset then s.actEvidenceReset
  else if k = oPackRemove then s.actPackRemove v
  else if k = oStRun then s.actStRun
  else if k = oSteStart then s.actSteStart
  else if k = oDigestRegion then s.actDigest v
  else if k = oReinit then s.actReinit v
  else if k = oLedgerClear then s.actLedgerClear v
  else if k = oLcAdvance then s.actLcAdvance v
  else if k = oFwActivate then s.actFwActivate
  else if k = oPowerRequest then s.actPowerRequest v
  else if k = oWarmReset then s.actWarmReset
  else if k = oShutdown then s.actShutdown
  else if 0x5010 ≤ index ∧ index ≤ 0x5015 then s.actSelect (index - 0x5010) v
  else s.actAccept (index - 0x5410)

/-- What a BLOB written does, with the object's own checks (R395, R446, R449, R450). -/
def State.putBytes (s : State) (k : Nat) (bs : Bytes) : State × Option Nat :=
  if k = oPlanBlob then (s.setPlanBlob bs, none)
  else if k = oFwStage then s.takeImage bs
  else if k = oPackLoad then s.takePack bs
  else if k = oLcRequest then (s.actLcRequest bs, none)
  else if k = oFleetKey then (s.setFleetKey bs, none)
  else (s.setBlob k bs, none)

/-- What a number written does, with the object's own checks. -/
def State.putNat (s : State) (index sub v : Nat) : State × Option Nat :=
  let k := objKey index sub
  let port := fun (base : Nat) => decide (base ≤ index) && decide (index < base + 24)
  if k = oFeaturesAccepted then s.setFeatures v
  else if k = oPlaceNumber then (((s.setObj k v).setObj oPlaceStated 1).restateAll, none)
  else if k = oBeatChangeAt then
    if v ≤ s.bell.beat then (s, some abValueRange) else (s.setObj k v, none)
  else if k = oTimeRole then (s.actTimeRole v, none)
  else if k = oCoolantInletC then (s.actCoolant false v, none)
  else if k = oCoolantFlowLpm then (s.actCoolant true v, none)
  else if k = oDisableD0 then (s.setDisable 0 v, none)
  else if k = oDisableD1 then (s.setDisable 1 v, none)
  else if 0x5010 ≤ index ∧ index ≤ 0x5015 then s.stateLaser index sub v
  else if port 0x5430 then ((s.setObj k v).restate (index - 0x5430), none)
  else if k = oBridgeRole ∨ k = oBridgePlace then (s.defer k v, none)
  else if k = oHoldoverLimitUs ∧ s.planHeld = true then (s.defer k v, none)
  else (s.setObj k v, none)

/-- A value written: the action of a CMD object, a byte string, or a number. -/
def State.putValue (s : State) (row : ObjRow) (index sub : Nat) (bs : Bytes) : State × Option Nat :=
  if row.ty.isBytes then s.putBytes (objKey index sub) bs
  else if row.acc = .cmd then (s.act index sub (leNat bs), none)
  else s.putNat index sub (leNat bs)

/-- A whole value checked and written (R479 items 8 to 10). -/
def State.writeValue (s : State) (row : ObjRow) (index sub type : Nat) (bs : Bytes) : State × Option Nat :=
  match typeFault row type bs with
  | some a => (s, some a)
  | none => match s.rangeFault row (objKey index sub) bs with
    | some a => (s, some a)
    | none => s.putValue row index sub bs

end Sys2Proof.Machine
end

