-- ==== Sys2Proof/Machine/Requests.lean ====
section
/-! DEFINITION. The OBJECT requests of both paths (R35 to R49, R479): service, kept responses, segmented
transfers, the writes of objects with a row of their own, and their carriage over MCTP and lane C. -/

namespace Sys2Proof.Machine

/-! ### Paths -/

/-- A path's state. -/
def State.pathSt (s : State) : Path → PathSt
  | .inBand => s.inBand
  | .outOfBand => s.outOfBand

/-- A path's state replaced. -/
def State.setPath (s : State) (p : Path) (x : PathSt) : State :=
  match p with
  | .inBand => { s with inBand := x }
  | .outOfBand => { s with outOfBand := x }

/-- The other path. -/
def otherPath : Path → Path
  | .inBand => .outOfBand
  | .outOfBand => .inBand

/-- A path's open transfer replaced. -/
def State.setTransfer (s : State) (p : Path) (t : Option Transfer) : State :=
  s.setPath p { s.pathSt p with transfer := t }

/-- A transfer opened on a path; the one cancelled before it is named no more. -/
def State.openTransfer (s : State) (p : Path) (t : Transfer) : State :=
  s.setPath p { s.pathSt p with transfer := some t, cancelled := none }

/-- A path's transfer ended by an ABORT from the requester: a later request that names it is SEG_CANCELLED (R47;
DEDUCED from Table 02-8: assumption 82). -/
def State.cancelTransfer (s : State) (p : Path) (t : Transfer) : State :=
  s.setPath p { s.pathSt p with transfer := none, cancelled := some (t.tag, t.index, t.sub) }

/-- Requests of a path reach a management complex that runs the image or the recovery loader; in band lane C
must run, and the loader is reached there only when the place number survived (R36, R447). -/
def State.answers (s : State) (p : Path) : Bool :=
  match p with
  | .outOfBand => s.power.boot == .image || s.power.boot == .recovery
  | .inBand => s.keeperOn && (s.power.boot == .image || (s.power.boot == .recovery && s.flag oPlaceStated))

/-! ### Responses -/

/-- What serving a request gives: the state after it, the abort code or 0, and the response's TYPE, LENGTH and
data. -/
structure Reply where
  s : State
  abort : Nat
  type : Nat
  length : Nat
  data : Bytes
deriving DecidableEq, Repr

/-- A request aborted: the response echoes its TYPE (R30). -/
def aborted (s : State) (r : ObjReq) (a : Nat) : Reply := ⟨s, a, r.type.toNat, 0, []⟩

/-- A request done, with nothing to return. -/
def doneReply (s : State) (r : ObjReq) : Reply := ⟨s, 0, r.type.toNat, 0, []⟩

/-- The code of a request that names no open transfer: SEG_CANCELLED where an ABORT ended it, else NO_TRANSFER. -/
def State.noTransfer (s : State) (r : ObjReq) : Nat :=
  if (s.pathSt r.path).cancelled = some (r.tag.toNat, r.index.toNat, r.sub.toNat) then abSegCancelled else abNoTransfer

/-- The opcodes of a segmented transfer. -/
def segOp (op : Nat) : Bool := decide (3 ≤ op) && decide (op ≤ 7)

/-- The segment number that LENGTH holds (Table 02-5). -/
def segOf (r : ObjReq) : Nat := r.length.toNat % 2 ^ 14

/-- Whether a response is kept for retries: each is, while the management complex that sent it still answers
(R45). -/
def State.keeps (s : State) (r : ObjReq) : Bool := s.answers r.path

/-- A request counted, with its abort (0x1020.07 to 0x1020.09). -/
def State.countRequest (s : State) (r : ObjReq) (op a : Nat) : State :=
  let s := s.bump oRequestCount
  if a = 0 then s
  else (s.bump oAbortCount).setObj oLastAbort (a + r.index.toNat * 2 ^ 16 + r.sub.toNat * 2 ^ 32 + op * 2 ^ 40 +
    pathBit r.path * 2 ^ 48)

/-- A reply as the response's header and data (Table 02-5). -/
def respOf (op : Nat) (r : ObjReq) (x : Reply) : ObjResp :=
  { opcode := op % 128 + 128, tag := r.tag.toNat, index := r.index.toNat, sub := r.sub.toNat, type := x.type,
    length := x.length, abort := x.abort, data := x.data }

/-- A response kept, the newest 256 of its path (R45). -/
def State.keep (s : State) (op : Nat) (r : ObjReq) (resp : ObjResp) : State :=
  let k : Kept :=
    { tag := r.tag.toNat, opcode := op, seg := segOf r, inTransfer := segOp op, index := r.index.toNat,
      sub := r.sub.toNat, type := r.type.toNat, length := r.length.toNat, flags := r.flags.toNat,
      abort := r.abort.toNat, reserved := r.reserved.toNat, data := r.data, resp := resp,
      sentAt := s.now }
  s.setPath r.path { s.pathSt r.path with kept := (k :: (s.pathSt r.path).kept).take 256 }

/-- The response sent: counted and kept. -/
def Reply.send (x : Reply) (op : Nat) (r : ObjReq) : State :=
  let resp := respOf op r x
  let s := x.s.countRequest r op x.abort
  let s := if s.keeps r then s.keep op r resp else s
  s.emit (.response r.path resp)

/-! ### Retries (R45) -/

/-- Whether a kept response concerns a request: its TAG, and among requests of transfers the same opcode and
segment. -/
def Kept.concerns (k : Kept) (op : Nat) (r : ObjReq) : Bool :=
  k.tag == r.tag.toNat && (!(k.inTransfer && segOp op) || (k.opcode == op && (op != 5 || k.seg == segOf r)))

/-- Whether the kept request and this one are the same. -/
def Kept.same (k : Kept) (op : Nat) (r : ObjReq) : Bool :=
  k.opcode == op && k.index == r.index.toNat && k.sub == r.sub.toNat && k.type == r.type.toNat &&
  k.length == r.length.toNat && k.flags == r.flags.toNat && k.abort == r.abort.toNat &&
  k.reserved == r.reserved.toNat && k.data == r.data

/-- The responses of a path that are still kept for requests of this one's TAG, within their 1,000 ms. -/
def State.keptAll (s : State) (op : Nat) (r : ObjReq) : List Kept :=
  (s.pathSt r.path).kept.filter (fun k => decide (s.now ≤ k.sentAt + 1000000000) && k.concerns op r)

/-- The kept response that concerns a request: that of the same request where there is one. -/
def State.keptFor (s : State) (op : Nat) (r : ObjReq) : Option Kept :=
  ((s.keptAll op r).find? (fun k => k.same op r)).or (s.keptAll op r).head?

/-! ### The form of a request (R37) -/

/-- Whether a request carries the data bytes that its opcode takes. -/
def State.dataFits (s : State) (op : Nat) (r : ObjReq) : Bool :=
  let n := r.data.length
  let mine := match (s.pathSt r.path).transfer with
    | some t => if t.tag = r.tag.toNat then some t.isWrite else none
    | none => none
  match op with
  | 2 => n == r.length.toNat
  | 5 => (match mine with
    | some true => decide (1 ≤ n) && decide (n ≤ 1024)
    | some false => n == 0
    | none => decide (n ≤ 1024))
  | 6 => (match mine with
    | some true => n == 4
    | some false => n == 0
    | none => n == 0 || n == 4)
  | _ => n == 0

/-- BAD_MESSAGE (R37). -/
def State.badMessage (s : State) (op : Nat) (r : ObjReq) : Bool :=
  r.flags != 0 || r.reserved != 0 || !(decide (1 ≤ op) && decide (op ≤ 7)) || !s.dataFits op r

/-! ### Expedited transfer (R39) -/

/-- The open transfer of a path on an object, write ones only when asked. -/
def State.conflicts (s : State) (p : Path) (index sub : Nat) (writesOnly : Bool) : Bool :=
  match (s.pathSt p).transfer with
  | some t => t.index == index && t.sub == sub && (!writesOnly || t.isWrite)
  | none => false

/-- READ (R39). -/
def State.serveRead (s : State) (r : ObjReq) (row : ObjRow) : Reply :=
  let index := r.index.toNat
  let sub := r.sub.toNat
  if row.acc = .wo then aborted s r abWriteOnly
  else
    let v := s.readValue row index sub
    if row.ty = .blob ∧ 1024 < v.1.length then aborted s r abSegRequired
    else if r.type.toNat ≠ readType row then aborted s r abTypeMismatch
    else ⟨v.2, 0, readType row, v.1.length, v.1⟩

/-- WRITE (R39). -/
def State.serveWrite (s : State) (r : ObjReq) (row : ObjRow) : Reply :=
  let index := r.index.toNat
  let sub := r.sub.toNat
  match s.writeDenied r.path row index sub r.data with
  | some a => aborted s r a
  | none =>
    if s.conflicts .inBand index sub false || s.conflicts .outOfBand index sub false then aborted s r abObjectBusy
    else if 1024 < r.length.toNat then aborted s r abSegRequired
    else
      let w := s.writeValue row index sub r.type.toNat r.data
      match w.2 with
      | some a => aborted w.1 r a
      | none => doneReply w.1 r

/-! ### Segmented transfer (R40 to R46) -/

/-- An INIT meets the transfer that its path holds, or one on its object (Table 02-7, R44, R46): none when a
new transfer may open, else whether it repeats the INIT of the open one. -/
def State.initMeets (s : State) (r : ObjReq) (isWrite : Bool) : Option Bool :=
  match (s.pathSt r.path).transfer with
  | some t =>
    some (t.tag == r.tag.toNat && t.index == r.index.toNat && t.sub == r.sub.toNat && t.isWrite == isWrite &&
      (!isWrite || t.len == r.length.toNat))
  | none => if s.conflicts (otherPath r.path) r.index.toNat r.sub.toNat (!isWrite) then some false else none

/-- SEG_WRITE_INIT (R40, R41, R46). The response echoes the stated length in LENGTH, which R40 does not give (DESIGN
CHOICE: assumption 71). -/
def State.serveWriteInit (s : State) (r : ObjReq) (row : ObjRow) : Reply :=
  let index := r.index.toNat
  let sub := r.sub.toNat
  match s.writeDenied r.path row index sub [] with
  | some a => aborted s r a
  | none =>
    match s.initMeets r true with
    | some false => aborted s r abObjectBusy
    | some true => { doneReply s r with length := r.length.toNat }
    | none =>
      if row.ty ≠ .blob ∨ r.type.toNat ≠ OTy.code .blob then aborted s r abTypeMismatch
      else if 16777216 < r.length.toNat ∨ row.maxLen < r.length.toNat then aborted s r abBlobTooLarge
      else
        let t : Transfer :=
          { tag := r.tag.toNat, index := index, sub := sub, isWrite := true, len := r.length.toNat, segs := [],
            fixed := [], lastAt := s.now }
        { doneReply (s.openTransfer r.path t) r with length := r.length.toNat }

/-- SEG_READ_INIT (R41, R43): the value being read is fixed here. -/
def State.serveReadInit (s : State) (r : ObjReq) (row : ObjRow) : Reply :=
  let index := r.index.toNat
  let sub := r.sub.toNat
  if row.acc = .wo then aborted s r abWriteOnly
  else
    match s.initMeets r false with
    | some false => aborted s r abObjectBusy
    | some true =>
      let len := match (s.pathSt r.path).transfer with | some t => t.len | none => 0
      { doneReply s r with length := len }
    | none =>
      if row.ty ≠ .blob ∨ row.acc = .cmd ∨ r.type.toNat ≠ OTy.code .blob then aborted s r abTypeMismatch
      else
        let v := s.readValue row index sub
        let t : Transfer :=
          { tag := r.tag.toNat, index := index, sub := sub, isWrite := false, len := v.1.length, segs := [],
            fixed := v.1, lastAt := s.now }
        { doneReply (v.2.openTransfer r.path t) r with length := v.1.length }

/-- The open transfer that a request names. -/
def State.named (s : State) (r : ObjReq) : Option Transfer :=
  match (s.pathSt r.path).transfer with
  | some t => if t.tag = r.tag.toNat ∧ t.index = r.index.toNat ∧ t.sub = r.sub.toNat then some t else none
  | none => none

/-- The SEG_DATA requests of one transfer that may be outstanding (R40). -/
def State.segWindow (s : State) : Nat := if bit (s.obj oFeaturesAgreed) 1 then 8 else 1

/-- SEG_DATA of a write stores a segment, of a read returns one (R40, R43, R44). The response carries the segment number
in LENGTH, as the request does; for a write R40 does not give it (DESIGN CHOICE: assumption 71). -/
def State.serveData (s : State) (r : ObjReq) : Reply :=
  match s.named r with
  | none => aborted s r (s.noTransfer r)
  | some t =>
    let n := segOf r
    if s.segWindow ≤ r.segOutstanding then aborted s r abObjectBusy
    else if r.type.toNat ≠ OTy.code .blob then aborted s r abTypeMismatch
    else if ceilDiv t.len 1024 ≤ n then aborted s r abSegRange
    else if t.isWrite then
      if r.data.length ≠ min 1024 (t.len - n * 1024) then aborted s r abTypeMismatch
      else
        { doneReply (s.setTransfer r.path (some { t with segs := Bank.put t.segs n r.data })) r with length := n }
    else ⟨s, 0, r.type.toNat, n, (t.fixed.drop (n * 1024)).take 1024⟩

/-- The bytes of a transfer's segments in order. -/
def Transfer.value (t : Transfer) : Bytes := (upto (ceilDiv t.len 1024)).flatMap (fun n => Bank.get t.segs [] n)

/-- Segments and CRC-32 of a write's end (R41). -/
def Transfer.endFault (t : Transfer) (data : Bytes) : Option Nat :=
  if (upto (ceilDiv t.len 1024)).any (fun n => !(t.segs.any (fun e => e.1 == n))) || t.value.length != t.len then
    some abSegIncomplete
  else if crc32 t.value ≠ leNat data then some abSegCrc
  else none

/-- The end of a segmented write whose access checks have passed: the transfer ends, and the value stands or the
request aborts (R41). -/
def State.finishWrite (s : State) (r : ObjReq) (row : ObjRow) (t : Transfer) : Reply :=
  let s := s.setTransfer r.path none
  match t.endFault r.data with
  | some a => aborted s r a
  | none =>
    let w := s.writeValue row r.index.toNat r.sub.toNat (OTy.code .blob) t.value
    match w.2 with
    | some a => aborted w.1 r a
    | none => doneReply w.1 r

/-- SEG_END (R41, R43): of a write, the access checks are made again, and one that fails ends the transfer. -/
def State.serveEnd (s : State) (r : ObjReq) (row : ObjRow) : Reply :=
  match s.named r with
  | some t =>
    if t.isWrite then
      let down := s.objDown r.index.toNat r.sub.toNat
      match (if down then some abFunctionDown else s.writeDenied r.path row r.index.toNat r.sub.toNat t.value) with
      | some a => aborted (s.setTransfer r.path none) r a
      | none =>
        if r.type.toNat ≠ OTy.code .blob then aborted s r abTypeMismatch
        else s.finishWrite r row t
    else if r.type.toNat ≠ OTy.code .blob then aborted s r abTypeMismatch
    else doneReply (s.setTransfer r.path none) r
  | none =>
    match (if r.data.isEmpty then none else s.writeDenied r.path row r.index.toNat r.sub.toNat []) with
    | some a => aborted s r a
    | none => aborted s r (s.noTransfer r)

/-- The open transfer of a path that an ABORT names by its TAG (Table 02-6). -/
def State.tagged (s : State) (r : ObjReq) : Option Transfer :=
  (s.pathSt r.path).transfer.filter (fun t => t.tag == r.tag.toNat)

/-- ABORT (R39, R47): of a BLOB and with its TYPE, the named transfer is cancelled; one no longer held gives success. -/
def State.serveAbort (s : State) (r : ObjReq) (row : ObjRow) : Reply :=
  if row.ty ≠ .blob ∨ r.type.toNat ≠ OTy.code .blob then aborted s r abTypeMismatch
  else match s.tagged r with
  | some t => doneReply (s.cancelTransfer r.path t) r
  | none => doneReply s r

/-! ### One request -/

/-- A request whose form and TAG are good: the object, its function, and the opcode's own rules in the order of
R479. -/
def State.handle (s : State) (op : Nat) (r : ObjReq) : Reply :=
  let index := r.index.toNat
  let sub := r.sub.toNat
  if hasObject index = false then aborted s r abNoObject
  else match objRow? index sub with
    | none => aborted s r abNoSubindex
    | some row =>
      match op with
      | 5 => if (s.named r).isNone && s.objDown index sub then aborted s r abFunctionDown else s.serveData r
      | 6 => if (s.named r).isNone && s.objDown index sub then aborted s r abFunctionDown else s.serveEnd r row
      | 7 => if (s.tagged r).isNone && s.objDown index sub then aborted s r abFunctionDown else s.serveAbort r row
      | 1 => if s.objDown index sub then aborted s r abFunctionDown else s.serveRead r row
      | 2 => if s.objDown index sub then aborted s r abFunctionDown else s.serveWrite r row
      | 3 => if s.objDown index sub then aborted s r abFunctionDown else s.serveReadInit r row
      | _ => if s.objDown index sub then aborted s r abFunctionDown else s.serveWriteInit r row

/-- A request that names its path's open transfer starts its idle time anew (R46). -/
def State.touch (s : State) (op : Nat) (r : ObjReq) : State :=
  match s.named r with
  | some t => if segOp op then s.setTransfer r.path (some { t with lastAt := s.now }) else s
  | none => s

/-- An OBJECT request served (R35, R38, R45, R479): BAD_MESSAGE, a retry answered again, a TAG conflict or a 17th
request, then the rest. A request that reaches no management complex is answered by nothing. -/
def State.serve (s : State) (op : Nat) (r : ObjReq) : State :=
  if s.answers r.path = false then s
  else if s.badMessage op r then (aborted s r abBadMessage).send op r
  else
    let s := s.touch op r
    match s.keptFor op r with
    | some k =>
      if k.same op r then s.emit (.response r.path k.resp) else (aborted s r abObjectBusy).send op r
    | none =>
      if 16 ≤ r.outstanding then (aborted s r abObjectBusy).send op r
      else (s.handle op r).send op r

/-! ### The rows of the request opcodes -/

/-- READ (R39). -/
def execReadObject (r : ObjReq) (s : State) : Host.Outcome State Fault Refusal := .next (s.quiet.serve 1 r)

/-- WRITE (R39). -/
def execWriteObject (r : ObjReq) (s : State) : Host.Outcome State Fault Refusal := .next (s.quiet.serve 2 r)

/-- SEG_READ_INIT (R43). -/
def execSegReadInit (r : ObjReq) (s : State) : Host.Outcome State Fault Refusal := .next (s.quiet.serve 3 r)

/-- SEG_WRITE_INIT (R40). -/
def execSegWriteInit (r : ObjReq) (s : State) : Host.Outcome State Fault Refusal := .next (s.quiet.serve 4 r)

/-- SEG_DATA of a write (R40, R44). -/
def execSegDataWrite (r : ObjReq) (s : State) : Host.Outcome State Fault Refusal := .next (s.quiet.serve 5 r)

/-- SEG_DATA of a read (R43). -/
def execSegDataRead (r : ObjReq) (s : State) : Host.Outcome State Fault Refusal := .next (s.quiet.serve 5 r)

/-- SEG_END of a write (R41). -/
def execSegEndWrite (r : ObjReq) (s : State) : Host.Outcome State Fault Refusal := .next (s.quiet.serve 6 r)

/-- SEG_END of a read (R43). -/
def execSegEndRead (r : ObjReq) (s : State) : Host.Outcome State Fault Refusal := .next (s.quiet.serve 6 r)

/-- ABORT (R47). -/
def execAbortTransfer (r : ObjReq) (s : State) : Host.Outcome State Fault Refusal := .next (s.quiet.serve 7 r)

/-- SEG_IDLE_TIMEOUT (R46): the path's transfer, idle for SEG_IDLE_TIMEOUT_MS, ends. -/
def execSegIdleTimeout (path : Path) (s : State) : Host.Outcome State Fault Refusal :=
  let s := s.quiet
  match (s.pathSt path).transfer with
  | some t => .next ((s.advanceTo (t.lastAt + s.obj oSegIdleTimeoutMs * 1000000)).setTransfer path none)
  | none => .next s

/-- KEPT_RESPONSE_EXPIRY (R45): the oldest kept response reaches its 1,000 ms, and with it every response as
old. -/
def execKeptResponseExpiry (path : Path) (s : State) : Host.Outcome State Fault Refusal :=
  let s := s.quiet
  match (s.pathSt path).kept.getLast? with
  | some k =>
    let s := s.advanceTo (k.sentAt + 1000000000)
    .next (s.setPath path { s.pathSt path with
      kept := (s.pathSt path).kept.filter (fun k => decide (s.now < k.sentAt + 1000000000)) })
  | none => .next s

/-! ### Writes of objects with a row of their own -/

/-- The request that writes a value to an object. -/
def reqFor (q : WReq) (k : Nat) (bs : Bytes) : ObjReq :=
  { path := q.path, outstanding := q.outstanding, segOutstanding := 0, flags := 0, tag := q.tag,
    index := BitVec.ofNat 16 (k / 256), sub := BitVec.ofNat 8 (k % 256),
    type := match rowOfKey k with | some row => BitVec.ofNat 8 row.ty.code | none => 0,
    length := BitVec.ofNat 32 bs.length, abort := 0, reserved := 0, data := bs }

/-- The transfer of a value whose segments have all arrived. -/
def wholeTransfer (s : State) (q : WReq) (k : Nat) (bs : Bytes) : Transfer :=
  { tag := q.tag.toNat, index := k / 256, sub := k % 256, isWrite := true, len := bs.length,
    segs := (upto (ceilDiv bs.length 1024)).map (fun n => (n, (bs.drop (1024 * n)).take 1024)), fixed := [],
    lastAt := s.now }

/-- A value written by one WRITE, or when it is longer than 1,024 bytes by the SEG_END of a transfer whose
segments have all arrived. -/
def State.write (s : State) (q : WReq) (k : Nat) (bs : Bytes) : State :=
  if bs.length ≤ 1024 then s.serve 2 (reqFor q k bs)
  else
    let r : ObjReq := { reqFor q k (natLe 4 (crc32 bs)) with length := 4 }
    if s.answers q.path = false then s
    else if (s.keptFor 6 r).isSome || decide (16 ≤ q.outstanding) then s.serve 6 r
    else if (s.pathSt q.path).transfer.isSome || s.conflicts (otherPath q.path) (k / 256) (k % 256) false then
      (aborted s r abObjectBusy).send 6 r
    else (s.setTransfer q.path (some (wholeTransfer s q k bs))).serve 6 r

/-- FEATURES_ACCEPTED (R55). -/
def execFeaturesAccepted (q : WReq) (v : BitVec 128) (s : State) : Host.Outcome State Fault Refusal :=
  .next (s.quiet.write q oFeaturesAccepted (natLe 16 v.toNat))

/-- PLACE_NUMBER (R51). -/
def execPlaceNumber (q : WReq) (v : W16) (s : State) : Host.Outcome State Fault Refusal :=
  .next (s.quiet.write q oPlaceNumber (natLe 2 v.toNat))

/-- WRITE_PATHS (R50). -/
def execWritePaths (q : WReq) (v : W32) (s : State) : Host.Outcome State Fault Refusal :=
  .next (s.quiet.write q oWritePaths (natLe 4 v.toNat))

/-- TIME_ROLE (R60). -/
def execTimeRole (q : WReq) (v : Byte) (s : State) : Host.Outcome State Fault Refusal :=
  .next (s.quiet.write q oTimeRole (natLe 1 v.toNat))

/-- ROOT_SET (R62). -/
def execRootSet (q : WReq) (beat : W64) (off : W32) (s : State) : Host.Outcome State Fault Refusal :=
  .next (s.quiet.write q oRootSet (natLe 8 beat.toNat ++ natLe 4 off.toNat))

/-- PLAN_BLOB (R82). -/
def execPlanBlob (q : WReq) (value : Bytes) (s : State) : Host.Outcome State Fault Refusal :=
  .next (s.quiet.write q oPlanBlob value)

/-- ADMIT (R79). -/
def execAdmitPlan (q : WReq) (v : Byte) (s : State) : Host.Outcome State Fault Refusal :=
  .next (s.quiet.write q oAdmit (natLe 1 v.toNat))

/-- RELEASE (R82). -/
def execReleasePlan (q : WReq) (v : Byte) (s : State) : Host.Outcome State Fault Refusal :=
  .next (s.quiet.write q oRelease (natLe 1 v.toNat))

/-- JOB_START (R82). -/
def execJobStart (q : WReq) (v : W64) (s : State) : Host.Outcome State Fault Refusal :=
  .next (s.quiet.write q oJobStart (natLe 8 v.toNat))

/-- JOB_STOP (R82). -/
def execJobStop (q : WReq) (v : Byte) (s : State) : Host.Outcome State Fault Refusal :=
  .next (s.quiet.write q oJobStop (natLe 1 v.toNat))

/-- DISABLE (R131). -/
def execDisable (q : WReq) (die : Die) (v : BitVec 128) (s : State) : Host.Outcome State Fault Refusal :=
  .next (s.quiet.write q (oDisable die.val) (natLe 16 v.toNat))

/-- PREPARE (R294). -/
def execPrepare (q : WReq) (v : W64) (s : State) : Host.Outcome State Fault Refusal :=
  .next (s.quiet.write q oPrepare (natLe 8 v.toNat))

/-- XR_CLEAR (R311). -/
def execXrClear (q : WReq) (v : Byte) (s : State) : Host.Outcome State Fault Refusal :=
  .next (s.quiet.write q oXrClear (natLe 1 v.toNat))

/-- SELECT (R306). -/
def execSelectSource (q : WReq) (input : LaserInput) (v : Byte) (s : State) : Host.Outcome State Fault Refusal :=
  .next (s.quiet.write q (oSelect input.val) (natLe 1 v.toNat))

/-- ACCEPT (R331). -/
def execAccept (q : WReq) (port : Port) (v : Byte) (s : State) : Host.Outcome State Fault Refusal :=
  .next (s.quiet.write q (oAccept port.val) (natLe 1 v.toNat))

/-- RT_TELEMETRY_CLEAR (R343). -/
def execRtTelemetryClear (q : WReq) (v : Byte) (s : State) : Host.Outcome State Fault Refusal :=
  .next (s.quiet.write q oRtTelemetryClear (natLe 1 v.toNat))

/-- MEM_VERIFIED (R277). -/
def execMemVerified (q : WReq) (v : Byte) (s : State) : Host.Outcome State Fault Refusal :=
  .next (s.quiet.write q oMemVerified (natLe 1 v.toNat))

/-- EVIDENCE_RESET (R393). -/
def execEvidenceReset (q : WReq) (v : Byte) (s : State) : Host.Outcome State Fault Refusal :=
  .next (s.quiet.write q oEvidenceReset (natLe 1 v.toNat))

/-- PACK_LOAD (R395). -/
def execPackLoad (q : WReq) (value : Bytes) (s : State) : Host.Outcome State Fault Refusal :=
  .next (s.quiet.write q oPackLoad value)

/-- PACK_REMOVE (R405). -/
def execPackRemove (q : WReq) (v : W32) (s : State) : Host.Outcome State Fault Refusal :=
  .next (s.quiet.write q oPackRemove (natLe 4 v.toNat))

/-- ST_RUN (R401). -/
def execStRun (q : WReq) (v : Byte) (s : State) : Host.Outcome State Fault Refusal :=
  .next (s.quiet.write q oStRun (natLe 1 v.toNat))

/-- STE_START (R402). -/
def execSteStart (q : WReq) (v : Byte) (s : State) : Host.Outcome State Fault Refusal :=
  .next (s.quiet.write q oSteStart (natLe 1 v.toNat))

/-- DIGEST_REGION (R419). -/
def execDigestRegion (q : WReq) (v : W16) (s : State) : Host.Outcome State Fault Refusal :=
  .next (s.quiet.write q oDigestRegion (natLe 2 v.toNat))

/-- REINIT 1, COMPUTE (R425). -/
def execReinitCompute (q : WReq) (s : State) : Host.Outcome State Fault Refusal :=
  .next (s.quiet.write q oReinit [1])

/-- REINIT 2, FABRIC (R425). -/
def execReinitFabric (q : WReq) (s : State) : Host.Outcome State Fault Refusal :=
  .next (s.quiet.write q oReinit [2])

/-- REINIT 3, OPTICS (R425). -/
def execReinitOptics (q : WReq) (s : State) : Host.Outcome State Fault Refusal :=
  .next (s.quiet.write q oReinit [3])

/-- REINIT 4, UPDATE (R425). -/
def execReinitUpdate (q : WReq) (s : State) : Host.Outcome State Fault Refusal :=
  .next (s.quiet.write q oReinit [4])

/-- LEDGER_CLEAR 0x01 (R432). -/
def execLedgerClearRing (q : WReq) (s : State) : Host.Outcome State Fault Refusal :=
  .next (s.quiet.write q oLedgerClear [1])

/-- LEDGER_CLEAR 0x02 (R432). -/
def execLedgerClearFlash (q : WReq) (s : State) : Host.Outcome State Fault Refusal :=
  .next (s.quiet.write q oLedgerClear [2])

/-- LC_ADVANCE 0x01 (R448). -/
def execLcAdvanceProvision (q : WReq) (s : State) : Host.Outcome State Fault Refusal :=
  .next (s.quiet.write q oLcAdvance [1])

/-- LC_ADVANCE 0x02 (R448). -/
def execLcAdvanceDeploy (q : WReq) (s : State) : Host.Outcome State Fault Refusal :=
  .next (s.quiet.write q oLcAdvance [2])

/-- LC_REQUEST of TARGET 3 (R448, R449). -/
def execLcRequestDiag (q : WReq) (token : Bytes) (s : State) : Host.Outcome State Fault Refusal :=
  .next (s.quiet.write q oLcRequest token)

/-- LC_REQUEST of TARGET 2 (R448). -/
def execLcRequestDeployed (q : WReq) (token : Bytes) (s : State) : Host.Outcome State Fault Refusal :=
  .next (s.quiet.write q oLcRequest token)

/-- LC_REQUEST of TARGET 4 (R448, R449). -/
def execLcRequestRetire (q : WReq) (token : Bytes) (s : State) : Host.Outcome State Fault Refusal :=
  .next (s.quiet.write q oLcRequest token)

/-- FW_STAGE (R446). -/
def execFwStage (q : WReq) (value : Bytes) (s : State) : Host.Outcome State Fault Refusal :=
  .next (s.quiet.write q oFwStage value)

/-- FW_ACTIVATE (R446). -/
def execFwActivate (q : WReq) (v : Byte) (s : State) : Host.Outcome State Fault Refusal :=
  .next (s.quiet.write q oFwActivate (natLe 1 v.toNat))

/-- BRIDGE_ROLE (R374). -/
def execBridgeRole (q : WReq) (v : Byte) (s : State) : Host.Outcome State Fault Refusal :=
  .next (s.quiet.write q oBridgeRole (natLe 1 v.toNat))

/-- BRIDGE_PLACE (R374). -/
def execBridgePlace (q : WReq) (v : W16) (s : State) : Host.Outcome State Fault Refusal :=
  .next (s.quiet.write q oBridgePlace (natLe 2 v.toNat))

/-- POWER_REQUEST 1, RUN (R435). -/
def execPowerRequestRun (q : WReq) (s : State) : Host.Outcome State Fault Refusal :=
  .next (s.quiet.write q oPowerRequest [1])

/-- POWER_REQUEST 3, DOZE (R436). -/
def execPowerRequestDoze (q : WReq) (s : State) : Host.Outcome State Fault Refusal :=
  .next (s.quiet.write q oPowerRequest [3])

/-- POWER_REQUEST 4, KEEP (R436). -/
def execPowerRequestKeep (q : WReq) (s : State) : Host.Outcome State Fault Refusal :=
  .next (s.quiet.write q oPowerRequest [4])

/-- WARM_RESET (R441). -/
def execWarmReset (q : WReq) (v : Byte) (s : State) : Host.Outcome State Fault Refusal :=
  .next (s.quiet.write q oWarmReset (natLe 1 v.toNat))

/-- SHUTDOWN (R437). -/
def execShutdown (q : WReq) (v : Byte) (s : State) : Host.Outcome State Fault Refusal :=
  .next (s.quiet.write q oShutdown (natLe 1 v.toNat))

/-- BEAT_CHANGE_AT (R63): the beat of the change, or the length after it. -/
def execBeatChangeAt (q : WReq) (isAt : Bool) (v : W64) (s : State) : Host.Outcome State Fault Refusal :=
  if isAt then .next (s.quiet.write q oBeatChangeAt (natLe 8 v.toNat))
  else .next (s.quiet.write q oBeatLengthNext (natLe 2 v.toNat))

/-- COOLANT_STATEMENT (R67): the stated flow or inlet temperature. -/
def execCoolantStatement (q : WReq) (flow : Bool) (v : W32) (s : State) : Host.Outcome State Fault Refusal :=
  if flow then .next (s.quiet.write q oCoolantFlowLpm (natLe 4 v.toNat))
  else .next (s.quiet.write q oCoolantInletC (natLe 4 v.toNat))

end Sys2Proof.Machine
end

