-- ==== Sys2Proof/Machine/Carriage.lean ====
section
/-! DEFINITION. How OBJECT messages travel (R48, R49, R341, R347): MCTP packets over I3C with their reassembly,
and management packets over lane C. -/

namespace Sys2Proof.Machine

/-- An OBJECT message's header and data as a request's opcode and fields (Table 02-5). -/
def parseObject (path : Path) (m : Bytes) : Nat × ObjReq :=
  (fieldLe m 0 1,
   { path := path, outstanding := 0, segOutstanding := 0, flags := BitVec.ofNat 8 (fieldLe m 1 1),
     tag := BitVec.ofNat 16 (fieldLe m 2 2), index := BitVec.ofNat 16 (fieldLe m 4 2),
     sub := BitVec.ofNat 8 (fieldLe m 6 1), type := BitVec.ofNat 8 (fieldLe m 7 1),
     length := BitVec.ofNat 32 (fieldLe m 8 4), abort := BitVec.ofNat 16 (fieldLe m 12 2),
     reserved := BitVec.ofNat 16 (fieldLe m 14 2), data := m.drop 16 })

/-- A response as its OBJECT message. -/
def ObjResp.bytes (r : ObjResp) : Bytes :=
  natLe 1 r.opcode ++ [0] ++ natLe 2 r.tag ++ natLe 2 r.index ++ natLe 1 r.sub ++ natLe 1 r.type ++ natLe 4 r.length ++
  natLe 2 r.abort ++ [0, 0] ++ r.data

/-- An OBJECT message served; one shorter than its header is a bad message. -/
def State.serveMessage (s : State) (path : Path) (m : Bytes) : State :=
  let q := parseObject path m
  if m.length < 16 then
    (if s.answers path then (aborted s q.2 abBadMessage).send q.1 q.2 else s)
  else s.serve q.1 q.2

/-! ### MCTP (R48, R49; PRESUMED where the manual names a DMTF document: assumption 58) -/

/-- An MCTP control request: Set and Get Endpoint ID, Get Version Support and Get Message Type Support; others
are not served. -/
def State.serveControl (s : State) (m : Bytes) : State :=
  if bit (fieldLe m 0 1) 7 = false then s
  else
    match fieldLe m 1 1 with
    | 1 => s.setEid (fieldLe m 3 1)
    | 2 => s.getEid
    | 4 => s.mctpVersions
    | 5 => s.mctpTypes
    | _ => s

/-- An SPDM request (R451). -/
def State.serveSpdm (s : State) (m : Bytes) : State :=
  if s.spdmServed = false then s
  else
    match fieldLe m 1 1 with
    | 0x84 => s.spdmVersion
    | 0xE1 => s.spdmCapabilities
    | 0xE3 => s.spdmAlgorithms (fieldLe m 8 4) (fieldLe m 12 4)
    | 0x81 => s.spdmDigests
    | 0x82 => s.spdmCertificate (fieldLe m 4 2) (fieldLe m 6 2)
    | 0x83 => s.spdmChallenge (BitVec.ofNat 256 (fieldLe m 4 32))
    | 0xE0 => s.spdmMeasurements (fieldLe m 3 1) (BitVec.ofNat 256 (fieldLe m 4 32))
    | _ => s.spdmFail 0x07

/-- A whole MCTP message by its type (R49): other types, a set integrity check bit and another PEN are
dropped. -/
def State.mctpMessage (s : State) (m : Bytes) : State :=
  match fieldLe m 0 1 with
  | 0x7F => if beNat (sliceB m 1 4) = s.obj oMctpVendorPen then s.serveMessage .outOfBand (m.drop 5) else s
  | 0x00 => s.serveControl (m.drop 1)
  | 0x05 => s.serveSpdm (m.drop 1)
  | _ => s

/-- What the device answers, as the MCTP message that carries it (R49): an OBJECT response behind its type and the PEN
in big-endian order, a control response behind its instance and completion code, an SPDM response. -/
def State.mctpBytes (s : State) (inst : Nat) (o : Out) : Option Bytes :=
  match o with
  | .response _ r => some (natLe 1 0x7F ++ natBe 4 (s.obj oMctpVendorPen) ++ r.bytes)
  | .control c d => some (natLe 1 0 ++ natLe 1 (inst % 32) ++ natLe 1 c ++ (if c = 1 then d else natLe 1 0 ++ d))
  | .spdm c d => some (natLe 1 5 ++ natLe 1 0x13 ++ natLe 1 c ++
      (if c = spdmError then d ++ natLe 1 0 else zeros 2 ++ d))
  | .frame _ _ => none | .group _ _ _ => none | .laser _ _ _ _ => none | .mailboxInterrupt _ _ => none
  | .training _ _ _ => none | .delivered _ => none | .mctp _ => none

/-- A message as MCTP packets to an endpoint (R48, R49): 64 bytes at most in each, numbered modulo 4, the first and
the last marked, with the PEC byte at the end. -/
def mctpPackets (dst src tag : Nat) (m : Bytes) : List Bytes :=
  let n := ceilDiv m.length 64
  (upto n).map (fun i =>
    let p := natLe 1 1 ++ natLe 1 dst ++ natLe 1 src ++
      natLe 1 (b2n (i == 0) * 128 + b2n (i + 1 == n) * 64 + i % 4 * 16 + tag % 8) ++ (m.drop (64 * i)).take 64
    p ++ natLe 1 (pec p))

/-- The answers to a message sent to its requester as MCTP packets (R48). -/
def State.sendPackets (s : State) (dst tag inst : Nat) : State :=
  ((s.out.filterMap (s.mctpBytes inst)).flatMap (mctpPackets dst (s.obj oMctpEid) tag)).foldl
    (fun (s : State) p => s.emit (.mctp p)) s

/-- What is being reassembled, replaced. -/
def State.setAssembling (s : State) (a : Option (Nat × Nat × Nat × Bytes)) : State :=
  { s with mctp := { s.mctp with assembling := a } }

/-- A packet's payload put to the message being reassembled from its source: the first packet begins one, a
packet out of its sequence abandons it, the last hands it on. -/
def State.assemble (s : State) (src flags : Nat) (payload : Bytes) : State :=
  let tag := flags % 16
  let seq := bits flags 4 2
  let have_ :=
    if bit flags 7 then some payload
    else match s.mctp.assembling with
      | some (a, t, n, bs) => if a = src ∧ t = tag ∧ n = seq then some (bs ++ payload) else none
      | none => none
  match have_ with
  | none => s.setAssembling none
  | some bs =>
    if bit flags 6 then ((s.setAssembling none).mctpMessage bs).sendPackets src flags (fieldLe bs 1 1)
    else s.setAssembling (some (src, tag, (seq + 1) % 4, bs))

/-- Whether an MCTP packet is for this endpoint: its PEC holds, its header version is 1, its destination is this
endpoint, the null one or all, and it lies within the baseline transmission unit of 64 bytes. -/
def State.mctpFits (s : State) (b : Bytes) : Bool :=
  decide (6 ≤ b.length) && decide (b.length ≤ 69) && pec b.dropLast == fieldLe b (b.length - 1) 1 &&
  fieldLe b 0 1 % 16 == 1 && [0, 0xFF, s.obj oMctpEid].contains (fieldLe b 1 1)

/-- MCTP_PACKET (R48): a packet whose PEC fails is dropped. -/
def execMctpPacket (packet : Bytes) (s : State) : Host.Outcome State Fault Refusal :=
  let s := s.quiet
  if s.controlServed && s.mctpFits packet then
    .next (s.assemble (fieldLe packet 2 1) (fieldLe packet 3 1) ((packet.drop 4).dropLast))
  else .next s

/-! ### Management packets over lane C (R341, R347) -/

/-- The route back of a delivered management packet: its entries in reverse order, from the first (R347). -/
def routeBack (w : Nat) : Nat :=
  let hops := bits w 0 4
  (upto hops).foldl (fun a j => a + bits w (8 + 5 * (hops - 1 - j)) 5 * 2 ^ (8 + 5 * j)) hops

/-- The OBJECT packet that carries a response back to where a request came from. -/
def State.replyPacket (s : State) (b : Bytes) (resp : Bytes) : Bytes :=
  let flags := 1 + (if bit (fieldLe b 1 1) 1 then 4 else 0) + 8
  packetHead 0x09 flags 0 (pkSrc b) s.place 0xFFFF resp.length 0 0 0 1 0xFFFFFFFF 0
    (natLe 16 (routeBack (fieldLe b 32 16))) (crc64 resp) ++ resp

/-- The body of a lane report (assumption 8). -/
def parseReport (b : Bytes) : LaneReport :=
  { unusable := BitVec.ofNat 8 (fieldLe b 0 1), passed := BitVec.ofNat 8 (fieldLe b 1 1),
    failed := BitVec.ofNat 8 (fieldLe b 2 1),
    oma := (upto 8).map (fun n => BitVec.ofNat 16 (fieldLe b (3 + 2 * n) 2)) }

/-- A management packet delivered on a port: a lane report of a circuit that starts here is taken (R326), an OBJECT request is
served and its response goes back out of that port; a packet bound for the host is the host's. -/
def State.serveDelivered (s : State) (p : Nat) (b : Bytes) : State :=
  if bit (fieldLe b 1 1) 2 then s
  else if fieldLe b 64 1 = 0x10 then
    (if fieldLe b 80 1 < 24 then
      s.takeReport (fieldLe b 80 1) (fieldLe b 81 1 &&& s.planned (fieldLe b 80 1) false) (parseReport (b.drop 82))
    else s)
  else
    let s := s.serveMessage .inBand (b.drop 64)
    match s.out.getLast? with
    | some (.response _ r) => s.sendMgmt p (s.replyPacket b r.bytes)
    | _ => s

/-- MGMT (R326, R341, R347): a flit of a management packet; a packet that ends here is served as an OBJECT
message. -/
def execMgmtFlit (port : Port) (seq : BitVec 12) (flit : BitVec 512) (s : State) :
    Host.Outcome State Fault Refusal :=
  let s := s.quiet.takeMgmt port.val seq.toNat (natLe 64 flit.toNat)
  match s.out.getLast? with
  | some (.delivered b) => .next (s.serveDelivered port.val b)
  | _ => .next s

end Sys2Proof.Machine
end

