-- ==== Sys2Proof/Machine/Dispatch.lean ====
section
/-! DEFINITION. The dispatch: one arm per command of the operation table, each a direct call of the
command's meaning. -/

namespace Sys2Proof.Machine

def exec (i : Instr) (s : State) : Host.Outcome State Fault Refusal :=
  match i with
  | .readObject r => Sys2Proof.Machine.execReadObject r s
  | .writeObject r => Sys2Proof.Machine.execWriteObject r s
  | .segWriteInit r => Sys2Proof.Machine.execSegWriteInit r s
  | .segReadInit r => Sys2Proof.Machine.execSegReadInit r s
  | .segDataWrite r => Sys2Proof.Machine.execSegDataWrite r s
  | .segDataRead r => Sys2Proof.Machine.execSegDataRead r s
  | .segEndWrite r => Sys2Proof.Machine.execSegEndWrite r s
  | .segEndRead r => Sys2Proof.Machine.execSegEndRead r s
  | .abortTransfer r => Sys2Proof.Machine.execAbortTransfer r s
  | .segIdleTimeout path => Sys2Proof.Machine.execSegIdleTimeout path s
  | .keptResponseExpiry path => Sys2Proof.Machine.execKeptResponseExpiry path s
  | .featuresAccepted q v => Sys2Proof.Machine.execFeaturesAccepted q v s
  | .placeNumber q v => Sys2Proof.Machine.execPlaceNumber q v s
  | .writePaths q v => Sys2Proof.Machine.execWritePaths q v s
  | .beatChangeAt q isAt v => Sys2Proof.Machine.execBeatChangeAt q isAt v s
  | .timeRole q v => Sys2Proof.Machine.execTimeRole q v s
  | .rootSet q beat off => Sys2Proof.Machine.execRootSet q beat off s
  | .coolantStatement q flow v => Sys2Proof.Machine.execCoolantStatement q flow v s
  | .planBlob q value => Sys2Proof.Machine.execPlanBlob q value s
  | .admitPlan q v => Sys2Proof.Machine.execAdmitPlan q v s
  | .admissionResult => Sys2Proof.Machine.execAdmissionResult s
  | .releasePlan q v => Sys2Proof.Machine.execReleasePlan q v s
  | .jobStart q v => Sys2Proof.Machine.execJobStart q v s
  | .jobStop q v => Sys2Proof.Machine.execJobStop q v s
  | .disable q die v => Sys2Proof.Machine.execDisable q die v s
  | .prepare q v => Sys2Proof.Machine.execPrepare q v s
  | .xrClear q v => Sys2Proof.Machine.execXrClear q v s
  | .selectSource q input v => Sys2Proof.Machine.execSelectSource q input v s
  | .accept q port v => Sys2Proof.Machine.execAccept q port v s
  | .rtTelemetryClear q v => Sys2Proof.Machine.execRtTelemetryClear q v s
  | .memVerified q v => Sys2Proof.Machine.execMemVerified q v s
  | .evidenceReset q v => Sys2Proof.Machine.execEvidenceReset q v s
  | .packLoad q value => Sys2Proof.Machine.execPackLoad q value s
  | .packRemove q v => Sys2Proof.Machine.execPackRemove q v s
  | .stRun q v => Sys2Proof.Machine.execStRun q v s
  | .steStart q v => Sys2Proof.Machine.execSteStart q v s
  | .digestRegion q v => Sys2Proof.Machine.execDigestRegion q v s
  | .regionDigestDone => Sys2Proof.Machine.execRegionDigestDone s
  | .reinitCompute q => Sys2Proof.Machine.execReinitCompute q s
  | .reinitFabric q => Sys2Proof.Machine.execReinitFabric q s
  | .reinitOptics q => Sys2Proof.Machine.execReinitOptics q s
  | .reinitUpdate q => Sys2Proof.Machine.execReinitUpdate q s
  | .functionReinit => Sys2Proof.Machine.execFunctionReinit s
  | .ledgerClearRing q => Sys2Proof.Machine.execLedgerClearRing q s
  | .ledgerClearFlash q => Sys2Proof.Machine.execLedgerClearFlash q s
  | .lcAdvanceProvision q => Sys2Proof.Machine.execLcAdvanceProvision q s
  | .lcAdvanceDeploy q => Sys2Proof.Machine.execLcAdvanceDeploy q s
  | .lcRequestDiag q token => Sys2Proof.Machine.execLcRequestDiag q token s
  | .lcRequestDeployed q token => Sys2Proof.Machine.execLcRequestDeployed q token s
  | .lcRequestRetire q token => Sys2Proof.Machine.execLcRequestRetire q token s
  | .fwStage q value => Sys2Proof.Machine.execFwStage q value s
  | .fwActivate q v => Sys2Proof.Machine.execFwActivate q v s
  | .fwImageCopied => Sys2Proof.Machine.execFwImageCopied s
  | .bridgeRole q v => Sys2Proof.Machine.execBridgeRole q v s
  | .bridgePlace q v => Sys2Proof.Machine.execBridgePlace q v s
  | .powerRequestRun q => Sys2Proof.Machine.execPowerRequestRun q s
  | .powerRequestDoze q => Sys2Proof.Machine.execPowerRequestDoze q s
  | .powerRequestKeep q => Sys2Proof.Machine.execPowerRequestKeep q s
  | .warmReset q v => Sys2Proof.Machine.execWarmReset q v s
  | .shutdown q v => Sys2Proof.Machine.execShutdown q v s
  | .mctpPacket packet => Sys2Proof.Machine.execMctpPacket packet s
  | .setEndpointId eid => Sys2Proof.Machine.execSetEndpointId eid s
  | .getEndpointId => Sys2Proof.Machine.execGetEndpointId s
  | .getMctpVersionSupport => Sys2Proof.Machine.execGetMctpVersionSupport s
  | .getMessageTypeSupport => Sys2Proof.Machine.execGetMessageTypeSupport s
  | .getVersion => Sys2Proof.Machine.execGetVersion s
  | .getCapabilities => Sys2Proof.Machine.execGetCapabilities s
  | .negotiateAlgorithms asym hash => Sys2Proof.Machine.execNegotiateAlgorithms asym hash s
  | .getDigests => Sys2Proof.Machine.execGetDigests s
  | .getCertificate offset length => Sys2Proof.Machine.execGetCertificate offset length s
  | .challenge nonce => Sys2Proof.Machine.execChallenge nonce s
  | .getMeasurements index nonce => Sys2Proof.Machine.execGetMeasurements index nonce s
  | .beatBoundary env => Sys2Proof.Machine.execBeatBoundary env s
  | .guardClose => Sys2Proof.Machine.execGuardClose s
  | .timeSend => Sys2Proof.Machine.execTimeSend s
  | .timeExchange port x => Sys2Proof.Machine.execTimeExchange port x s
  | .bellHoldover => Sys2Proof.Machine.execBellHoldover s
  | .holdoverLimit => Sys2Proof.Machine.execHoldoverLimit s
  | .wakeStart => Sys2Proof.Machine.execWakeStart s
  | .ccIssue r => Sys2Proof.Machine.execCcIssue r s
  | .ccQtake r => Sys2Proof.Machine.execCcQtake r s
  | .ccSumrd r => Sys2Proof.Machine.execCcSumrd r s
  | .ccSumwait r => Sys2Proof.Machine.execCcSumwait r s
  | .ccSumclr r => Sys2Proof.Machine.execCcSumclr r s
  | .ccBeat r => Sys2Proof.Machine.execCcBeat r s
  | .ccWaitBoundary r => Sys2Proof.Machine.execCcWaitBoundary r s
  | .ccWaitIdle r => Sys2Proof.Machine.execCcWaitIdle r s
  | .ccNote r => Sys2Proof.Machine.execCcNote r s
  | .coreResume die cluster => Sys2Proof.Machine.execCoreResume die cluster s
  | .coreInstruction w => Sys2Proof.Machine.execCoreInstruction w s
  | .fill die engine upsets => Sys2Proof.Machine.execFill die engine upsets s
  | .vload die engine => Sys2Proof.Machine.execVload die engine s
  | .sliceStart die engine => Sys2Proof.Machine.execSliceStart die engine s
  | .sliceEnd die e => Sys2Proof.Machine.execSliceEnd die e s
  | .drainStart die engine tile => Sys2Proof.Machine.execDrainStart die engine tile s
  | .drainEnd die engine d => Sys2Proof.Machine.execDrainEnd die engine d s
  | .programStart die engine => Sys2Proof.Machine.execProgramStart die engine s
  | .programEnd die engine => Sys2Proof.Machine.execProgramEnd die engine s
  | .summaryMerge die cluster => Sys2Proof.Machine.execSummaryMerge die cluster s
  | .verdictArrival v => Sys2Proof.Machine.execVerdictArrival v s
  | .evidenceCaptured e => Sys2Proof.Machine.execEvidenceCaptured e s
  | .granaryContribution die unit => Sys2Proof.Machine.execGranaryContribution die unit s
  | .chunkOutputDone window c => Sys2Proof.Machine.execChunkOutputDone window c s
  | .updateChunk die unit => Sys2Proof.Machine.execUpdateChunk die unit s
  | .shardPhaseDone window => Sys2Proof.Machine.execShardPhaseDone window s
  | .writeTransaction p upsets => Sys2Proof.Machine.execWriteTransaction p upsets s
  | .readTransaction p upsets => Sys2Proof.Machine.execReadTransaction p upsets s
  | .readData p => Sys2Proof.Machine.execReadData p s
  | .tallyAdd p => Sys2Proof.Machine.execTallyAdd p s
  | .maxidx p => Sys2Proof.Machine.execMaxidx p s
  | .minidx p => Sys2Proof.Machine.execMinidx p s
  | .message p => Sys2Proof.Machine.execMessage p s
  | .doorbell p => Sys2Proof.Machine.execDoorbell p s
  | .doorbellApply flow => Sys2Proof.Machine.execDoorbellApply flow s
  | .ack p => Sys2Proof.Machine.execAck p s
  | .ackTimer flow => Sys2Proof.Machine.execAckTimer flow s
  | .rtoExpiry flow psn => Sys2Proof.Machine.execRtoExpiry flow psn s
  | .mailboxGo mailbox regs length tag => Sys2Proof.Machine.execMailboxGo mailbox regs length tag s
  | .mailboxClear mailbox => Sys2Proof.Machine.execMailboxClear mailbox s
  | .mailboxTimeout mailbox => Sys2Proof.Machine.execMailboxTimeout mailbox s
  | .packetRoute => Sys2Proof.Machine.execPacketRoute s
  | .escapeTimeout => Sys2Proof.Machine.execEscapeTimeout s
  | .groupSend port lane => Sys2Proof.Machine.execGroupSend port lane s
  | .groupReceive g => Sys2Proof.Machine.execGroupReceive g s
  | .nakFrame port l seq => Sys2Proof.Machine.execNakFrame port l seq s
  | .nakRepeat port lane => Sys2Proof.Machine.execNakRepeat port lane s
  | .replayFrame port l seq mask => Sys2Proof.Machine.execReplayFrame port l seq mask s
  | .returnFrame port l ackSeq credits => Sys2Proof.Machine.execReturnFrame port l ackSeq credits s
  | .laneReport port r => Sys2Proof.Machine.execLaneReport port r s
  | .cleanSend => Sys2Proof.Machine.execCleanSend s
  | .cleanFrame port seq f => Sys2Proof.Machine.execCleanFrame port seq f s
  | .controlAck port a => Sys2Proof.Machine.execControlAck port a s
  | .laneCResend port => Sys2Proof.Machine.execLaneCResend port s
  | .mgmtFlit port seq flit => Sys2Proof.Machine.execMgmtFlit port seq flit s
  | .helloSend port => Sys2Proof.Machine.execHelloSend port s
  | .helloFrame port body => Sys2Proof.Machine.execHelloFrame port body s
  | .helloTimeout port => Sys2Proof.Machine.execHelloTimeout port s
  | .trainingFrame t => Sys2Proof.Machine.execTrainingFrame t s
  | .laneCLock port => Sys2Proof.Machine.execLaneCLock port s
  | .laneCLoss port => Sys2Proof.Machine.execLaneCLoss port s
  | .linkDown port => Sys2Proof.Machine.execLinkDown port s
  | .resettingTimeout port => Sys2Proof.Machine.execResettingTimeout port s
  | .laneSignalLoss port lane => Sys2Proof.Machine.execLaneSignalLoss port lane s
  | .ringSweepStep ring resonance ringMw totalMw => Sys2Proof.Machine.execRingSweepStep ring resonance ringMw totalMw s
  | .ringLockSettled ring => Sys2Proof.Machine.execRingLockSettled ring s
  | .toneWindow ring tones power trackMhz => Sys2Proof.Machine.execToneWindow ring tones power trackMhz s
  | .ringLightLoss ring => Sys2Proof.Machine.execRingLightLoss ring s
  | .ringLightReturn ring => Sys2Proof.Machine.execRingLightReturn ring s
  | .txMonitorSample port oma fibreUw => Sys2Proof.Machine.execTxMonitorSample port oma fibreUw s
  | .monitorLineDrop input line => Sys2Proof.Machine.execMonitorLineDrop input line s
  | .controlLaserDrop port => Sys2Proof.Machine.execControlLaserDrop port s
  | .lscRequestTimeout => Sys2Proof.Machine.execLscRequestTimeout s
  | .patrolScrub upsets beingWritten => Sys2Proof.Machine.execPatrolScrub upsets beingWritten s
  | .pageCopyDone upsets => Sys2Proof.Machine.execPageCopyDone upsets s
  | .zeroingDone => Sys2Proof.Machine.execZeroingDone s
  | .patternCaseDone c => Sys2Proof.Machine.execPatternCaseDone c s
  | .selfTestDone r => Sys2Proof.Machine.execSelfTestDone r s
  | .snapshotDone => Sys2Proof.Machine.execSnapshotDone s
  | .ledgerInterval => Sys2Proof.Machine.execLedgerInterval s
  | .pwrEnRise => Sys2Proof.Machine.execPwrEnRise s
  | .powerUpDone => Sys2Proof.Machine.execPowerUpDone s
  | .pwrEnFall => Sys2Proof.Machine.execPwrEnFall s
  | .aux3v3Loss => Sys2Proof.Machine.execAux3v3Loss s
  | .inputVoltageChange millivolts => Sys2Proof.Machine.execInputVoltageChange millivolts s
  | .resetN heldNs => Sys2Proof.Machine.execResetN heldNs s
  | .watchdogExpiry => Sys2Proof.Machine.execWatchdogExpiry s
  | .bootRomVerify => Sys2Proof.Machine.execBootRomVerify s
  | .warmResetDone => Sys2Proof.Machine.execWarmResetDone s
  | .thermalSample die0 die1 optical => Sys2Proof.Machine.execThermalSample die0 die1 optical s
  | .currentLimit domain milliamps => Sys2Proof.Machine.execCurrentLimit domain milliamps s
  | .securityCheck digest => Sys2Proof.Machine.execSecurityCheck digest s
  | .debugAccess => Sys2Proof.Machine.execDebugAccess s
  | .returnSend port lane => Sys2Proof.Machine.execReturnSend port lane s
  | .controlAckSend port => Sys2Proof.Machine.execControlAckSend port s
  | .laneSignalLock port lane => Sys2Proof.Machine.execLaneSignalLock port lane s
  | .ringDrift d => Sys2Proof.Machine.execRingDrift d s
  | .lscResponse r => Sys2Proof.Machine.execLscResponse r s
  | .wakeItem item => Sys2Proof.Machine.execWakeItem item s
  | .gateItem item => Sys2Proof.Machine.execGateItem item s
  | .domainWakeDone domain => Sys2Proof.Machine.execDomainWakeDone domain s
  | .aux3v3Rise => Sys2Proof.Machine.execAux3v3Rise s
  | .aux3v3Settled => Sys2Proof.Machine.execAux3v3Settled s
  | .resetNRise => Sys2Proof.Machine.execResetNRise s
  | .dynamicAddressAssignment addr => Sys2Proof.Machine.execDynamicAddressAssignment addr s
  | .securityCoreAccess => Sys2Proof.Machine.execSecurityCoreAccess s
  | .steProgramDone output => Sys2Proof.Machine.execSteProgramDone output s

end Sys2Proof.Machine
end

