-- ==== Sys2Proof/Machine/Step.lean ====
section
/-! DEFINITION. One step of the block: the command at the front of the queue, or with none waiting the passing
of time. -/

namespace Sys2Proof.Machine

/-- One nanosecond passes with no command (assumption 5). -/
def State.tick (s : State) : State := s.quiet.advance 1

/-- One step: the command at the front of the queue acts on the state with the queue's rest; on an empty queue
one nanosecond passes. -/
def step (s : State) : Host.Outcome State Fault Refusal :=
  match s.pending with
  | [] => .next s.tick
  | c :: rest => exec c { s with pending := rest }

/-- `s` with the command that a word of the table's bits spells at the front of its queue; unchanged where the
word spells none. -/
def State.withFetchWord (s : State) (nbits w : Nat) : State :=
  match decodeTableWord nbits w with
  | some c => { s with pending := c :: s.pending }
  | none => s

end Sys2Proof.Machine
end

