-- ==== Sys2Proof/Safety.lean ====
section
/-! DEFINITION. What a sound state is and what a step keeps: the canonical form of the banks and the memory, and
the bounds of the manual's rings and caches. -/

namespace Sys2Proof.Machine

/-- The keys of a bank rise. -/
def Bank.rising {α : Type} : Bank α → Bool
  | [] => true
  | [_] => true
  | (j, _) :: (k, v) :: rest => decide (j < k) && Bank.rising ((k, v) :: rest)

/-- Stored numeric objects in canonical form: keys rising, none at its default. -/
def State.odWf (s : State) : Bool := Bank.rising s.od && s.od.all (fun e => decide (e.2 ≠ objDefault e.1))

/-- Stored byte objects in canonical form. -/
def State.blobsWf (s : State) : Bool := Bank.rising s.blobs && s.blobs.all (fun e => decide (e.2 ≠ blobDefault e.1))

/-- The bounds of the manual's rings and caches: EVENT_RING's 256 records (R366), the ledger's 1,024 entries and its
4,096 in flash (R429), and 256 kept responses on each path (R45). -/
def State.bounded (s : State) : Bool :=
  decide (s.events.length ≤ 256) && decide (s.ledger.ring.length ≤ 1024) && decide (s.ledger.flash.length ≤ 4096) &&
  decide (s.inBand.kept.length ≤ 256) && decide (s.outOfBand.kept.length ≤ 256)

/-- The invariant of every state: the DRAM and the object store in canonical form, and the rings and caches within
the manual's bounds. -/
def State.sound (s : State) : Bool := Memory.wf s.mem.bytes && s.odWf && s.blobsWf && s.bounded

/-- A safe step: it goes on, keeps the state sound, never takes the time back, and leaves the rest of the queue as
it stood. -/
def StepSafe (s : State) : Prop :=
  ∃ t, step s = .next t ∧ t.sound = true ∧ s.now ≤ t.now ∧ t.pending = s.pending.tail

/-! ### The terms in which statements about commands are written -/

/-- The command answers a next state that holds `P`. -/
def Gives (c : Instr) (s : State) (P : State → Prop) : Prop := ∃ t, exec c s = .next t ∧ P t

/-- Every numeric object but those of `ks` stands. -/
def SameObj (s t : State) (ks : List Nat) : Prop := ∀ k, k ∉ ks → t.obj k = s.obj k

/-- Every byte of the DRAM reads as before. -/
def SameMem (s t : State) : Prop := ∀ a, t.byteAt a = s.byteAt a

/-- The objects that raising an event may change: EVENT_SEQ, FILL and SUPPRESSED of the ledger, and the count of
records lost (R366, R429). -/
def eventKeys : List Nat := [oEventSeq, oLedgerFill, oLedgerSuppressed, oRecordsLostCount]

/-- A request is taken up: it reaches a management complex, its form is good, no response is kept for its TAG, and at
most 16 requests of its path are outstanding (R36 to R38, R45). -/
def State.taken (s : State) (op : Nat) (r : ObjReq) : Bool :=
  s.answers r.path && !s.badMessage op r && ((s.touch op r).keptFor op r).isNone && decide (r.outstanding < 16)

/-- The request that completes a WRITE of `bs` with its opcode: WRITE itself, or for more than 1,024 bytes the
SEG_END whose segments have all arrived. -/
def sentAs (q : WReq) (k : Nat) (bs : Bytes) : Nat × ObjReq :=
  if bs.length ≤ 1024 then (2, reqFor q k bs)
  else (6, { reqFor q k (natLe 4 (crc32 bs)) with length := 4 })

/-- A WRITE of `bs` to the object of key `k` is served: the management complex answers on the path, no response is
kept for the TAG, at most 16 requests are outstanding, the object's function is up, no transfer is open on it (on the
path at all for a segmented value), and every check of R479 passes. -/
def State.writeServed (s : State) (q : WReq) (k : Nat) (bs : Bytes) : Bool :=
  s.answers q.path && (s.keptFor (sentAs q k bs).1 (sentAs q k bs).2).isNone && decide (q.outstanding < 16) &&
  (decide (bs.length ≤ 1024) || (s.pathSt q.path).transfer.isNone) && !s.objDown (k / 256) (k % 256) &&
  !s.conflicts .inBand (k / 256) (k % 256) false && !s.conflicts .outOfBand (k / 256) (k % 256) false &&
  (match rowOfKey k with
   | some row => (s.writeDenied q.path row (k / 256) (k % 256) bs).isNone && (typeFault row row.ty.code bs).isNone &&
       (s.rangeFault row k bs).isNone && (decide (bs.length ≤ 1024) || row.ty == .blob)
   | none => false)

/-- The success response of a WRITE sent from a state. -/
def State.accepted (s : State) (q : WReq) (k : Nat) (bs : Bytes) : State :=
  (doneReply s (sentAs q k bs).2).send (sentAs q k bs).1 (sentAs q k bs).2

/-- A flowed packet of type `ty` is the next of its open flow: its head is good, its epoch and its sender are the
flow's, its PSN is the one expected and nothing came ahead of it (R345, R350). -/
def State.inOrder (s : State) (ty : Nat) (p : Packet) : Bool :=
  let f := s.flow p.flow.toNat
  headOk ty p && !p.noFlow && (match s.activePlan with | some q => q.id % 256 == p.epoch.toNat | none => false) &&
  f.state == 1 && (if f.host then p.srcHost else !p.srcHost && f.peer == p.src.toNat) &&
  p.psn.toNat == f.rxExpected && f.rxSeen.isEmpty && decide (0 < f.window)

/-- Such a packet is a whole message with the right CRC, the one after those complete (R354). -/
def State.wholeMessage (s : State) (ty : Nat) (p : Packet) : Bool :=
  let f := s.flow p.flow.toNat
  s.inOrder ty p && p.index.toNat == 0 && p.count.toNat == 1 && crc64 p.payload == p.msgCrc.toNat &&
  (f.rxMsgs.find? (fun m => m.id == p.msgId.toNat)).isNone && f.doneAhead.isEmpty &&
  (f.doneMsg + 1) % 2 ^ 32 == p.msgId.toNat

/-- The state in which such a packet takes effect: nothing waits to be shown and the next PSN is expected (R350). -/
def State.counted (s : State) (p : Packet) : State :=
  let f := s.flow p.flow.toNat
  s.quiet.setFlow p.flow.toNat { f with rxExpected := (f.rxExpected + 1) % 2 ^ 24, rxSeen := [] }

/-- The flow of a packet after it: the next PSN expected, the message complete with a status of Table 14-6. -/
def TookAs (s t : State) (p : Packet) (status : Nat) : Prop :=
  (t.flow p.flow.toNat).rxExpected = ((s.flow p.flow.toNat).rxExpected + 1) % 2 ^ 24 ∧
  (t.flow p.flow.toNat).rxSeen = [] ∧ (t.flow p.flow.toNat).doneMsg = p.msgId.toNat ∧
  (t.flow p.flow.toNat).doneStatus = status

/-- The agent of Table 11-3 that a packet's sender is. -/
def agentOf (p : Packet) : Agent := if p.srcHost then .host else .flow

/-- The device address that a WRITE or READ names by SPACE 0 or 1 (R356, R357). -/
def State.target (s : State) (p : Packet) (off len : Nat) (write : Bool) : Option Nat :=
  if p.space = 0 then some off else if p.space = 1 then regionTarget s p.region off len write else none

/-- Table 11-3 lets a WRITE packet put its payload at an address: the agent may write there, no unflowed WRITE goes to
a QUEUE region, only the buddy's to a SNAP region and only a gather's to a PARAM region. -/
def State.mayPut (s : State) (p : Packet) (a : Nat) : Bool :=
  s.accessOk (agentOf p) true a p.payload.length &&
  (!s.planHeld || (s.regionAt a).all (fun r => (r.kind != 7 || !p.noFlow) &&
    (r.kind != 6 || s.snapSource r.num p.src.toNat) && (r.kind != 1 || gatherWrite p)))

/-- A port's lane C can send: its keeper has power and a control laser is active (R308). -/
def State.canSend (s : State) (p : Nat) : Bool := s.keeperOn && (s.activeLaser p).isSome

/-- The fields of a CLEAN frame's body as the step-clean tree holds them (Table 15-3). -/
def frameOf (f : CleanBody) : CleanFrame :=
  { step := f.step.toNat, attempt := f.attempt.toNat, verdict := f.verdict.toNat, covered := f.covered.toNat,
    firstPlace := f.firstPlace.toNat }

/-- The core of a device-access request runs its instruction: it runs, its pc lies in instruction memory, FUNCT7 is 0
and its two copies agree (R180, R182, R184). -/
def State.coreReady (s : State) (r : CoreReq) : Bool :=
  s.coreRuns (coreKey r.die r.cluster) && decide ((s.core (coreKey r.die r.cluster)).pc < 0x10000) &&
  decide (r.funct7 = 0) && r.agree

/-- The instruction that a core's pair retires accesses only its data memory, and its pc lies in instruction memory
(R180). -/
def State.retires (s : State) (i : Retire) : Bool :=
  s.coreRuns (coreKey i.die i.cluster) && decide ((s.core (coreKey i.die i.cluster)).pc < 0x10000) && i.trap.isNone &&
  i.loadAt.all (fun l => inDmem l.1.toNat l.2) && i.storeAt.all (fun l => inDmem l.1.toNat l.2.length)

/-- The core's instruction ends with `v` in its destination register, and nothing else changes. -/
def Returns (c : Instr) (s : State) (k rd v : Nat) : Prop :=
  Gives c s (fun t => t.core k = ((s.core k).setX rd v).stepPc ∧ (∀ j, j ≠ k → t.core j = s.core j) ∧ t.od = s.od ∧
    t.blobs = s.blobs ∧ t.mem = s.mem ∧ t.engines = s.engines ∧ t.rings = s.rings)

/-- A WRITE of `bs` to the object of key `k`, where it is served, is carried out as `P` says and answered with
success. -/
def Does (c : Instr) (s : State) (q : WReq) (k : Nat) (bs : Bytes) (P : State → Prop) : Prop :=
  s.quiet.writeServed q k bs = true → ∃ u, exec c s = .next (u.accepted q k bs) ∧ P u

/-- The response of a WRITE that aborts. -/
def State.turnedAway (s : State) (q : WReq) (k : Nat) (bs : Bytes) (code : Nat) : State :=
  (aborted s (sentAs q k bs).2 code).send (sentAs q k bs).1 (sentAs q k bs).2

end Sys2Proof.Machine
end

