-- ==== Sys2Proof/Certificates/Slice0/Obligations.lean ====
section
/-! DEFINITION. The statements about the block, by the chapters of its manual. -/

open Sys2Proof Sys2Proof.Machine

/-! ### Steps and whole-machine rules -/

/-- A step takes the command at the front of the queue, first in, first out, and runs it with the queue's rest. -/
def Obligations.StepRunsFrontCommand : Prop :=
  ∀ (s : State) (c : Instr) (rest : List Instr), s.pending = c :: rest →
    step s = exec c { s with pending := rest }

/-- With no command waiting one nanosecond passes and nothing else but the clock and the cleared output changes (the
model's choice: assumption 5). -/
def Obligations.IdleStepPassesOneNanosecond : Prop :=
  ∀ s : State, s.pending = [] → ∃ t, step s = .next t ∧ t.now = s.now + 1 ∧ t.bell = s.bell.after s.beatNs 1 ∧
    t.out = [] ∧ t.pending = [] ∧ t = { s with now := t.now, bell := t.bell, out := [] }

/-- Every command answers a next state in every state, and the rest of the queue stands and the time never goes back. -/
def Obligations.EveryCommandAnswers : Prop :=
  ∀ (c : Instr) (s : State), Gives c s (fun t => t.pending = s.pending ∧ s.now ≤ t.now)

/-- Every step from a sound state is safe: it answers a sound state (the DRAM, the stored objects and the rings in
their canonical form and bounds), takes no time back and takes exactly the front command off the queue. -/
def Obligations.StepKeepsSound : Prop := ∀ s : State, s.sound = true → StepSafe s

/-- The state at reset is sound. -/
def Obligations.ResetIsSound : Prop := State.reset.sound = true ∧ Memory.wf State.reset.mem.bytes = true

/-- At reset the power is OFF, the bell count UNLOCKED, the plan EMPTY, the life cycle BLANK, no place stated, both
write paths open, no time role stated, no line of the DRAM is marked, every DRAM byte reads as zero and no command
waits. -/
def Obligations.ResetValues : Prop :=
  State.reset.obj oPowerState = 0 ∧ State.reset.obj oBellState = 0 ∧ State.reset.obj oPlanState = 0 ∧
  State.reset.obj oLcState = 0 ∧ State.reset.obj oPlaceStated = 0 ∧ State.reset.obj oMemState = 0 ∧
  State.reset.obj oFeaturesAgreed = 0 ∧ State.reset.obj oWritePaths = 3 ∧ State.reset.obj oTimeRole = 0 ∧
  State.reset.mem.poison = [] ∧ State.reset.blob oPlanBlob = [] ∧
  (∀ a, State.reset.byteAt a = 0) ∧ (∀ d : Domain, State.reset.dom d.val = 0) ∧ State.reset.pending = []

/-! ### Requests -/

/-- READ (R39): a request that is taken up, for an object that may be read, returns the object's whole value in the
response; nothing but the request count, the kept response and a free reading changes. -/
def Obligations.ReadReturnsValue : Prop :=
  ∀ (r : ObjReq) (row : ObjRow) (s : State), s.quiet.taken 1 r = true →
    objRow? r.index.toNat r.sub.toNat = some row → s.quiet.objDown r.index.toNat r.sub.toNat = false →
    row.acc ≠ .wo → (row.ty = .blob → (s.quiet.readValue row r.index.toNat r.sub.toNat).1.length ≤ 1024) →
    r.type.toNat = readType row →
    Gives (.readObject r) s (fun t =>
      t.out = [.response r.path (respOf 1 r ⟨s, 0, readType row,
        (s.quiet.readValue row r.index.toNat r.sub.toNat).1.length,
        (s.quiet.readValue row r.index.toNat r.sub.toNat).1⟩)] ∧
      t.obj oRequestCount = (s.obj oRequestCount + 1) % 2 ^ 64 ∧ SameObj s t [oRequestCount] ∧ SameMem s t ∧
      t.blobs = s.blobs)

/-- WRITE of an object without a row of its own (R39, R479): taken up, allowed and in range, it does what the object's
own rule says and is answered with success; for objects that only hold a number the value stands as written and
every other object as it was. -/
def Obligations.WriteStoresValue : Prop :=
  (∀ (r : ObjReq) (row : ObjRow) (s : State), s.quiet.taken 2 r = true →
    objRow? r.index.toNat r.sub.toNat = some row → s.quiet.objDown r.index.toNat r.sub.toNat = false →
    s.quiet.writeDenied r.path row r.index.toNat r.sub.toNat r.data = none →
    s.conflicts .inBand r.index.toNat r.sub.toNat false = false →
    s.conflicts .outOfBand r.index.toNat r.sub.toNat false = false → r.length.toNat ≤ 1024 →
    typeFault row r.type.toNat r.data = none →
    s.quiet.rangeFault row (objKey r.index.toNat r.sub.toNat) r.data = none →
    (s.quiet.putValue row r.index.toNat r.sub.toNat r.data).2 = none →
    exec (.writeObject r) s =
      .next ((doneReply (s.quiet.putValue row r.index.toNat r.sub.toNat r.data).1 r).send 2 r)) ∧
  (∀ (s : State) (row : ObjRow) (bs : Bytes) (k : Nat),
    k ∈ [oSegIdleTimeoutMs, oMbTimeoutMs, oRtoBaseUs, oWindowSelect, oShardSelect, oRegionSelect, oFlowSelect,
      oQueueSelect] → rowOfKey k = some row →
    s.putValue row (k / 256) (k % 256) bs = (s.setObj k (leNat bs), none))

/-- An access check that refuses a WRITE (R32, R479): the abort code goes back, and no object but the three request
counters, no byte object and no byte of memory changes. -/
def Obligations.RefusedWriteChangesNothing : Prop :=
  ∀ (r : ObjReq) (row : ObjRow) (a : Nat) (s : State), s.quiet.taken 2 r = true →
    objRow? r.index.toNat r.sub.toNat = some row → s.quiet.objDown r.index.toNat r.sub.toNat = false →
    s.quiet.writeDenied r.path row r.index.toNat r.sub.toNat r.data = some a →
    Gives (.writeObject r) s (fun t =>
      t.out = [.response r.path (respOf 2 r (aborted s r a))] ∧
      SameObj s t [oRequestCount, oAbortCount, oLastAbort] ∧ SameMem s t ∧ t.blobs = s.blobs ∧
      t.obj oAbortCount = (s.obj oAbortCount + 1) % 2 ^ 64)

/-- R45: a request that repeats one whose response is kept is answered by that response again; beyond the idle time of
the transfer it names, nothing else changes.
The ends of a transfer (R46, R47) and of a kept response (R45): ABORT of a BLOB object cancels the open transfer of its
TAG, whose later requests are SEG_CANCELLED (DEDUCED: assumption 86), and of one no longer held succeeds; of another
object or TYPE it is TYPE_MISMATCH (R39); a transfer idle for SEG_IDLE_TIMEOUT_MS ends; a response is dropped 1,000 ms
after it was sent. -/
def Obligations.RetriesAndEnds : Prop :=
  (∀ (r : ObjReq) (k : Kept) (s : State) (op : Nat) (c : Instr),
     (op, c) ∈ [(1, Instr.readObject r), (2, .writeObject r), (3, .segReadInit r), (4, .segWriteInit r),
       (5, .segDataWrite r), (5, .segDataRead r), (6, .segEndWrite r), (6, .segEndRead r), (7, .abortTransfer r)] →
     s.answers r.path = true → s.badMessage op r = false → (s.touch op r).keptFor op r = some k → k.same op r = true →
     exec c s = .next ((s.quiet.touch op r).emit (.response r.path k.resp)) ∧
     (s.quiet.touch op r).od = s.od ∧ (s.quiet.touch op r).blobs = s.blobs ∧ (s.quiet.touch op r).mem = s.mem ∧
     ∀ p, ((s.quiet.touch op r).pathSt p).kept = (s.pathSt p).kept) ∧
  ((∀ (r : ObjReq) (row : ObjRow) (s : State), s.quiet.taken 7 r = true →
     objRow? r.index.toNat r.sub.toNat = some row →
     (∀ t0 : Transfer, (s.pathSt r.path).transfer = some t0 → t0.tag = r.tag.toNat → row.ty = .blob →
       r.type.toNat = 15 →
       Gives (.abortTransfer r) s (fun t =>
         (t.pathSt r.path).transfer = none ∧ (t.pathSt r.path).cancelled = some (t0.tag, t0.index, t0.sub) ∧
         t.out = [.response r.path (respOf 7 r (doneReply s r))] ∧
         SameObj s t [oRequestCount] ∧ t.blobs = s.blobs ∧ SameMem s t)) ∧
     (s.tagged r = none → s.objDown r.index.toNat r.sub.toNat = false →
       exec (.abortTransfer r) s = .next ((if row.ty = .blob ∧ r.type.toNat = 15 then doneReply s.quiet r
         else aborted s.quiet r abTypeMismatch).send 7 r))) ∧
   (∀ (r : ObjReq) (row : ObjRow) (s : State) (op : Nat) (c : Instr),
     (op, c) ∈ [(5, Instr.segDataWrite r), (5, .segDataRead r), (6, .segEndWrite r), (6, .segEndRead r)] →
     s.quiet.taken op r = true → objRow? r.index.toNat r.sub.toNat = some row →
     s.objDown r.index.toNat r.sub.toNat = false → (s.pathSt r.path).transfer = none →
     (s.pathSt r.path).cancelled = some (r.tag.toNat, r.index.toNat, r.sub.toNat) →
     (op = 6 → r.data = [] ∨ s.writeDenied r.path row r.index.toNat r.sub.toNat [] = none) →
     exec c s = .next ((aborted s.quiet r abSegCancelled).send op r)) ∧
   (∀ (p : Path) (t0 : Transfer) (s : State), (s.pathSt p).transfer = some t0 →
     exec (.segIdleTimeout p) s =
       .next ((s.quiet.advanceTo (t0.lastAt + s.obj oSegIdleTimeoutMs * 1000000)).setTransfer p none)) ∧
   (∀ (p : Path) (k : Kept) (s : State), (s.pathSt p).kept.getLast? = some k → s.now ≤ k.sentAt + 1000000000 →
     Gives (.keptResponseExpiry p) s (fun t =>
       t.now = k.sentAt + 1000000000 ∧ k ∉ (t.pathSt p).kept ∧ (t.pathSt p).transfer = (s.pathSt p).transfer ∧
       t.od = s.od ∧ t.blobs = s.blobs ∧ SameMem s t)))

/-- A segmented write (R40, R41): SEG_WRITE_INIT opens the transfer with the stated length; SEG_DATA stores its
segment; SEG_END with every segment there, the right CRC-32, access and a size the object takes ends the transfer and
replaces the value, which for the objects that only hold bytes then stands as written.
A segmented read (R43): SEG_READ_INIT fixes the value and returns its length; SEG_DATA returns 1,024 bytes of it
by number; SEG_END ends the transfer. LENGTH in the responses to SEG_WRITE_INIT and to SEG_DATA of a write is the
model's choice (assumption 71). -/
def Obligations.SegmentedTransfers : Prop :=
  ((∀ (r : ObjReq) (row : ObjRow) (s : State), s.quiet.taken 4 r = true →
     objRow? r.index.toNat r.sub.toNat = some row → s.quiet.objDown r.index.toNat r.sub.toNat = false →
     s.quiet.writeDenied r.path row r.index.toNat r.sub.toNat [] = none → s.quiet.initMeets r true = none →
     row.ty = .blob → r.type.toNat = 15 → r.length.toNat ≤ 16777216 → r.length.toNat ≤ row.maxLen →
     Gives (.segWriteInit r) s (fun t =>
       (t.pathSt r.path).transfer = some ⟨r.tag.toNat, r.index.toNat, r.sub.toNat, true, r.length.toNat, [], [], s.now⟩ ∧
       t.out = [.response r.path (respOf 4 r ⟨s, 0, 15, r.length.toNat, []⟩)] ∧
       SameObj s t [oRequestCount] ∧ t.blobs = s.blobs ∧ SameMem s t)) ∧
   (∀ (r : ObjReq) (t0 : Transfer) (s : State), s.quiet.taken 5 r = true →
     (objRow? r.index.toNat r.sub.toNat).isSome = true → s.named r = some t0 → t0.isWrite = true →
     r.segOutstanding < s.segWindow → r.type.toNat = 15 → segOf r < ceilDiv t0.len 1024 →
     r.data.length = min 1024 (t0.len - segOf r * 1024) →
     Gives (.segDataWrite r) s (fun t =>
       (t.pathSt r.path).transfer = some { t0 with lastAt := s.now, segs := Bank.put t0.segs (segOf r) r.data } ∧
       t.out = [.response r.path (respOf 5 r ⟨s, 0, 15, segOf r, []⟩)] ∧
       SameObj s t [oRequestCount] ∧ t.blobs = s.blobs ∧ SameMem s t)) ∧
   (∀ (r : ObjReq) (row : ObjRow) (t0 : Transfer) (s : State), s.quiet.taken 6 r = true →
     objRow? r.index.toNat r.sub.toNat = some row → s.named r = some t0 → t0.isWrite = true →
     s.objDown r.index.toNat r.sub.toNat = false →
     s.writeDenied r.path row r.index.toNat r.sub.toNat t0.value = none → r.type.toNat = 15 →
     t0.endFault r.data = none →
     exec (.segEndWrite r) s =
       .next (let w := (s.quiet.setTransfer r.path none).writeValue row r.index.toNat r.sub.toNat 15 t0.value
         (w.2.elim (doneReply w.1 r) (aborted w.1 r)).send 6 r) ∧
       (r.index.toNat * 256 + r.sub.toNat ∈ [oSteProgram, oIdCertChain, oGroupTStart] → row.ty = .blob →
         t0.len ≤ row.maxLen → (r.index.toNat * 256 + r.sub.toNat = oGroupTStart → t0.len = 0 ∨ t0.len = 4096) →
         Gives (.segEndWrite r) s (fun t => (t.pathSt r.path).transfer = none ∧
           t.blob (r.index.toNat * 256 + r.sub.toNat) = t0.value ∧
           t.out = [.response r.path (respOf 6 r ⟨s, 0, 15, 0, []⟩)] ∧
           (∀ k, k ≠ r.index.toNat * 256 + r.sub.toNat → t.blob k = s.blob k) ∧
           SameObj s t [oRequestCount] ∧ SameMem s t)))) ∧
  ((∀ (r : ObjReq) (row : ObjRow) (s : State), s.quiet.taken 3 r = true →
     objRow? r.index.toNat r.sub.toNat = some row → s.quiet.objDown r.index.toNat r.sub.toNat = false →
     row.acc ≠ .wo → row.acc ≠ .cmd → s.quiet.initMeets r false = none → row.ty = .blob → r.type.toNat = 15 →
     Gives (.segReadInit r) s (fun t =>
       (t.pathSt r.path).transfer = some ⟨r.tag.toNat, r.index.toNat, r.sub.toNat, false,
         (s.quiet.readValue row r.index.toNat r.sub.toNat).1.length, [],
         (s.quiet.readValue row r.index.toNat r.sub.toNat).1, s.now⟩ ∧
       t.out = [.response r.path (respOf 3 r ⟨s, 0, 15, (s.quiet.readValue row r.index.toNat r.sub.toNat).1.length, []⟩)] ∧
       SameObj s t [oRequestCount] ∧ t.blobs = s.blobs ∧ SameMem s t)) ∧
   (∀ (r : ObjReq) (t0 : Transfer) (s : State), s.quiet.taken 5 r = true →
     (objRow? r.index.toNat r.sub.toNat).isSome = true → s.named r = some t0 → t0.isWrite = false →
     r.segOutstanding < s.segWindow → r.type.toNat = 15 → segOf r < ceilDiv t0.len 1024 →
     Gives (.segDataRead r) s (fun t =>
       t.out = [.response r.path (respOf 5 r ⟨s, 0, 15, segOf r, (t0.fixed.drop (segOf r * 1024)).take 1024⟩)] ∧
       (t.pathSt r.path).transfer = some { t0 with lastAt := s.now } ∧
       SameObj s t [oRequestCount] ∧ t.blobs = s.blobs ∧ SameMem s t)) ∧
   (∀ (r : ObjReq) (t0 : Transfer) (s : State), s.quiet.taken 6 r = true →
     (objRow? r.index.toNat r.sub.toNat).isSome = true → s.named r = some t0 → t0.isWrite = false →
     r.type.toNat = 15 →
     Gives (.segEndRead r) s (fun t =>
       (t.pathSt r.path).transfer = none ∧ t.out = [.response r.path (respOf 6 r ⟨s, 0, 15, 0, []⟩)] ∧ SameObj s t [oRequestCount] ∧ t.blobs = s.blobs ∧ SameMem s t)))

/-! ### Writes of objects with a row of their own -/

/-- What answering a WRITE does beside the write itself (R38, R45): the response goes out on the path it came in, the
request counts (and on an abort the abort, with its code) and the response is kept for its TAG; no other object and no
memory changes.
The result word of a CMD object (R52): running, done and failed with the code in [15:0]. Reading it shows it. -/
def Obligations.AnswersAndResults : Prop :=
  (∀ (s : State) (q : WReq) (k code : Nat) (bs : Bytes),
     (s.accepted q k bs).obj oRequestCount = (s.obj oRequestCount + 1) % 2 ^ 64 ∧
     SameObj s (s.accepted q k bs) [oRequestCount] ∧ SameMem s (s.accepted q k bs) ∧
     (s.accepted q k bs).blobs = s.blobs ∧ (s.accepted q k bs).power = s.power ∧
     (s.accepted q k bs).out = s.out ++
       [.response q.path (respOf (sentAs q k bs).1 (sentAs q k bs).2 (doneReply s (sentAs q k bs).2))] ∧
     (s.answers q.path = true → ((s.accepted q k bs).pathSt q.path).kept.head?.map (fun x => (x.tag, x.opcode, x.resp)) =
       some (q.tag.toNat, (sentAs q k bs).1,
         respOf (sentAs q k bs).1 (sentAs q k bs).2 (doneReply s (sentAs q k bs).2))) ∧
     (s.turnedAway q k bs code).obj oRequestCount = (s.obj oRequestCount + 1) % 2 ^ 64 ∧
     (code ≠ 0 → (s.turnedAway q k bs code).obj oAbortCount = (s.obj oAbortCount + 1) % 2 ^ 64 ∧
       (s.turnedAway q k bs code).obj oLastAbort = code + (sentAs q k bs).2.index.toNat * 2 ^ 16 +
         (sentAs q k bs).2.sub.toNat * 2 ^ 32 + (sentAs q k bs).1 * 2 ^ 40 + pathBit q.path * 2 ^ 48) ∧
     (s.answers q.path = true →
       ((s.turnedAway q k bs code).pathSt q.path).kept.head?.map (fun x => (x.tag, x.opcode, x.resp)) =
         some (q.tag.toNat, (sentAs q k bs).1,
           respOf (sentAs q k bs).1 (sentAs q k bs).2 (aborted s (sentAs q k bs).2 code))) ∧
     SameObj s (s.turnedAway q k bs code) [oRequestCount, oAbortCount, oLastAbort] ∧
     SameMem s (s.turnedAway q k bs code) ∧ (s.turnedAway q k bs code).blobs = s.blobs ∧
     (s.turnedAway q k bs code).out = s.out ++
       [.response q.path (respOf (sentAs q k bs).1 (sentAs q k bs).2 (aborted s (sentAs q k bs).2 code))]) ∧
  (∀ (s : State) (k code : Nat), k ∉ eventKeys → code < 2 ^ 16 →
     (s.cmdStart k).obj k = 0x00010000 ∧ (s.cmdDone k).obj k = 0x00020000 ∧
     (s.cmdFail k code).obj k = 0x00030000 + code ∧ SameObj s (s.cmdStart k) [k] ∧
     SameObj s (s.cmdDone k) (k :: eventKeys) ∧ SameObj s (s.cmdFail k code) (k :: eventKeys) ∧
     (bit (s.obj oFeaturesAgreed) 2 = false → s.cmdDone k = s.setObj k 0x00020000)) ∧
  (∀ (s : State) (row : ObjRow) (index sub : Nat), row.acc = .cmd →
     s.readValue row index sub = (natLe 4 (s.obj (objKey index sub)), s) ∧ readType row = OTy.code .u32)

/-- An event (R366, R429): EVENT_SEQ counts it, its record with that number enters EVENT_RING, and it enters the
ledger's ring; no object outside the event's own counters changes, and where the plan declares no EVENT queue no other
unit does. -/
def Obligations.EventsAreLogged : Prop :=
  (∀ (s : State) (e : Ev) (cls d : Nat) (dk : Option Nat) (keeper : Bool),
    let r := s.logEvent e cls dk d keeper
    r.1.obj oEventSeq = (s.obj oEventSeq + 1) % 2 ^ 32 ∧ r.2.seq = r.1.obj oEventSeq ∧ r.2.code = e.code ∧
    r.2.cls = cls ∧ r.2.beat = s.bell.beat ∧ r.1.events = (RingRec.event r.2 :: s.events).take 256 ∧
    (r.1.ledger.ring.map LedgerEntry.ev).head? = some r.2 ∧ r.1.mem = s.mem) ∧
  (∀ (s : State) (e : Ev) (n cls : Nat), SameObj s (s.raiseAt e n cls) eventKeys ∧
    (s.raiseAt e n cls).blobs = s.blobs ∧ (s.raiseAt e n cls).power = s.power ∧
    (s.raiseAt e n cls).step = s.step ∧ (s.raiseAt e n cls).out = s.out ∧
    (s.eventQueue = none → let t := s.raiseAt e n cls
      t = { s with od := t.od, events := t.events, ledger := t.ledger }))

/-- FEATURES_ACCEPTED, PLACE_NUMBER and WRITE_PATHS (R50, R51, R55): the value stands as written; the feature word is
agreed, and one with a bit that is not offered or without bit 0 is refused; a new place is stated and every link is to
be classed anew (R329).
BRIDGE_ROLE and BRIDGE_PLACE (R374): the write waits for the next guard and the object reads as before. -/
def Obligations.IdentityAndBridgeWrites : Prop :=
  ((∀ (q : WReq) (v : BitVec 128) (s : State), v.toNat &&& s.obj oFeaturesOffered = v.toNat → v.getLsbD 0 = true →
     Does (.featuresAccepted q v) s q oFeaturesAccepted (natLe 16 v.toNat)
       (fun u => u = (s.quiet.setObj oFeaturesAccepted v.toNat).setObj oFeaturesAgreed v.toNat)) ∧
   (∀ (q : WReq) (v : BitVec 128) (s : State),
     s.quiet.writeServed q oFeaturesAccepted (natLe 16 v.toNat) = true →
     (v.toNat &&& s.obj oFeaturesOffered ≠ v.toNat ∨ v.getLsbD 0 = false) →
     exec (.featuresAccepted q v) s =
       .next (s.quiet.turnedAway q oFeaturesAccepted (natLe 16 v.toNat) abFeatureNotOffered)) ∧
   (∀ (q : WReq) (v : W16) (s : State), Does (.placeNumber q v) s q oPlaceNumber (natLe 2 v.toNat)
     (fun u => u.obj oPlaceNumber = v.toNat ∧ u.obj oPlaceStated = 1 ∧
       SameObj s u [oPlaceNumber, oPlaceStated] ∧ SameMem s u ∧ ∀ p < 24, (u.portSt p).agree = 0)) ∧
   (∀ (q : WReq) (v : W32) (s : State), Does (.writePaths q v) s q oWritePaths (natLe 4 v.toNat)
     (fun u => u = s.quiet.setObj oWritePaths v.toNat))) ∧
  ((∀ (q : WReq) (v : Byte) (s : State), Does (.bridgeRole q v) s q oBridgeRole (natLe 1 v.toNat)
     (fun u => (oBridgeRole, v.toNat) ∈ u.deferred ∧ u.od = s.od ∧ SameMem s u)) ∧
   (∀ (q : WReq) (v : W16) (s : State), Does (.bridgePlace q v) s q oBridgePlace (natLe 2 v.toNat)
     (fun u => (oBridgePlace, v.toNat) ∈ u.deferred ∧ u.od = s.od ∧ SameMem s u)))

/-- The bell count's own objects (R60, R63, R67): the beat length change stands for its beat; a new time role
returns the count to UNLOCKED; a stated coolant value stands. -/
def Obligations.TimeWrites : Prop :=
  (∀ (q : WReq) (v : W64) (s : State), s.bell.beat < v.toNat →
    Does (.beatChangeAt q true v) s q oBeatChangeAt (natLe 8 v.toNat)
      (fun u => u = s.quiet.setObj oBeatChangeAt v.toNat)) ∧
  (∀ (q : WReq) (v : W64) (s : State), Does (.beatChangeAt q false v) s q oBeatLengthNext (natLe 2 v.toNat)
    (fun u => u = s.quiet.setObj oBeatLengthNext (v.toNat % 2 ^ 16))) ∧
  (∀ (q : WReq) (v : Byte) (s : State), v.toNat = s.obj oTimeRole →
    Does (.timeRole q v) s q oTimeRole (natLe 1 v.toNat) (fun u => u = s.quiet)) ∧
  (∀ (q : WReq) (v : Byte) (s : State), v.toNat ≠ s.obj oTimeRole →
    Does (.timeRole q v) s q oTimeRole (natLe 1 v.toNat)
      (fun u => u.obj oTimeRole = v.toNat ∧ u.obj oBellState = 0 ∧ u.obj oBellDepth = (if v.toNat = 1 then 0 else 0xFF) ∧
        u.bell.beat = s.bell.beat ∧ u.bell.off = s.bell.off ∧
        SameObj s u [oTimeRole, oBellState, oBellDepth, oLockLossCount] ∧ SameMem s u)) ∧
  (∀ (q : WReq) (v : W32) (s : State), Does (.coolantStatement q true v) s q oCoolantFlowLpm (natLe 4 v.toNat)
    (fun u => u.obj oCoolantFlowLpm = v.toNat ∧
      SameObj s u [oCoolantFlowLpm, oCoolantStated, oPowerAllowedW] ∧ SameMem s u)) ∧
  (∀ (q : WReq) (v : W32) (s : State), Does (.coolantStatement q false v) s q oCoolantInletC (natLe 4 v.toNat)
    (fun u => u.obj oCoolantInletC = v.toNat ∧
      SameObj s u [oCoolantInletC, oCoolantStated, oPowerAllowedW] ∧ SameMem s u))

/-- R62: a write to ROOT_SET sets the root's count at once; with a plan admitted it fails with PLAN_ADMITTED in its
result word, and on a module whose TIME_ROLE is not root with VALUE_RANGE. -/
def Obligations.RootSet : Prop :=
  (∀ (q : WReq) (b : W64) (o : W32) (s : State), s.admitted = false → s.obj oTimeRole = 1 →
    Does (.rootSet q b o) s q oRootSet (natLe 8 b.toNat ++ natLe 4 o.toNat)
      (fun u => u.bell.beat = b.toNat ∧ u.bell.off = o.toNat ∧ u.obj oRootSet = 0x20000 ∧
        (s.obj oBellState = 0 → u.obj oBellState = bellRoot) ∧
        SameObj s u ([oRootSet, oBellState] ++ eventKeys))) ∧
  (∀ (q : WReq) (b : W64) (o : W32) (s : State), s.admitted = true →
    Does (.rootSet q b o) s q oRootSet (natLe 8 b.toNat ++ natLe 4 o.toNat)
      (fun u => u = s.quiet.cmdFail oRootSet abPlanAdmitted)) ∧
  (∀ (q : WReq) (b : W64) (o : W32) (s : State), s.admitted = false → s.obj oTimeRole ≠ 1 →
    Does (.rootSet q b o) s q oRootSet (natLe 8 b.toNat ++ natLe 4 o.toNat)
      (fun u => u = s.quiet.cmdFail oRootSet abValueRange))

/-- The plan's objects (R79, R82, R294): PLAN_BLOB is LOADED, or EMPTY when it is empty; ADMIT of a loaded plan starts
its admission; RELEASE waits for the guard, or shows done with no plan; JOB_START waits for its beat; JOB_STOP stops
further steps; PREPARE schedules its rehearsal.
The CMD objects that refuse by their own rule (R52, R79, R82, R294): ADMIT without a loaded plan, RELEASE during an
admission, JOB_START out of ADMITTED or too near, PREPARE of a plan that cannot be rehearsed, a flash clear outside
DIAG, a pack that is not stored and a shutdown under a plan fail with their code in the result word. -/
def Obligations.PlanActions : Prop :=
  ((∀ (q : WReq) (value : Bytes) (s : State), Does (.planBlob q value) s q oPlanBlob value
     (fun u => u.blob oPlanBlob = value ∧ u.obj oPlanState = (if value.isEmpty then 0 else 1) ∧
       u.mem.committed = [] ∧ u.obj oPrepareState = 0 ∧
       SameObj s u ([oPlanState, oMapCount, oPrepare, oPrepareState, oPrepareResult] ++ eventKeys))) ∧
   (∀ (q : WReq) (v : Byte) (s : State), s.planState = 1 → Does (.admitPlan q v) s q oAdmit (natLe 1 v.toNat)
     (fun u => u.planState = 2 ∧ u.obj oAdmit = 0x10000 ∧ u.plan = some (parsePlan (s.blob oPlanBlob)) ∧
       u.admitting.isSome = true ∧ SameObj s u [oAdmit, oPlanState] ∧ SameMem s u ∧ u.blobs = s.blobs)) ∧
   (∀ (q : WReq) (v : Byte) (s : State), s.admitted = true → Does (.releasePlan q v) s q oRelease (natLe 1 v.toNat)
     (fun u => u.step.releaseWaiting = true ∧ u.obj oRelease = 0x10000 ∧ SameObj s u [oRelease] ∧ SameMem s u)) ∧
   (∀ (q : WReq) (v : Byte) (s : State), s.planHeld = false → Does (.releasePlan q v) s q oRelease (natLe 1 v.toNat)
     (fun u => u = s.quiet.cmdDone oRelease)) ∧
   (∀ (q : WReq) (v : W64) (s : State), s.planState = 3 → s.bell.beat + 2 ≤ v.toNat →
     Does (.jobStart q v) s q oJobStart (natLe 8 v.toNat)
       (fun u => u.step.jobAt = some v.toNat ∧ u.obj oJobStart = 0x10000 ∧ SameObj s u [oJobStart] ∧ SameMem s u)) ∧
   (∀ (q : WReq) (v : Byte) (s : State), Does (.jobStop q v) s q oJobStop (natLe 1 v.toNat)
     (fun u => (s.admitted = true → u.step.stopped = true) ∧ (s.admitted = false → u.step = s.step) ∧
       u.obj oJobStop = 0x20000 ∧ SameObj s u (oJobStop :: eventKeys))) ∧
   (∀ (q : WReq) (v : W64) (s : State), s.quiet.prepareFault v.toNat = none →
     Does (.prepare q v) s q oPrepare (natLe 8 v.toNat)
       (fun u => u.prep.map (fun p => p.start) = some v.toNat ∧ u.obj oPrepare = 0x10000 ∧ u.obj oPrepareState = 1 ∧
         SameObj s u [oPrepare, oPrepareState] ∧ SameMem s u))) ∧
  ((∀ (q : WReq) (v : Byte) (s : State), s.planState ≠ 1 → Does (.admitPlan q v) s q oAdmit (natLe 1 v.toNat)
     (fun u => u = s.quiet.cmdFail oAdmit abPlanAdmitted)) ∧
   (∀ (q : WReq) (v : Byte) (s : State), s.planState = 2 → Does (.releasePlan q v) s q oRelease (natLe 1 v.toNat)
     (fun u => u = s.quiet.cmdFail oRelease abPlanAdmitted)) ∧
   (∀ (q : WReq) (v : W64) (c : Nat) (s : State), s.quiet.prepareFault v.toNat = some c →
     Does (.prepare q v) s q oPrepare (natLe 8 v.toNat) (fun u => u = s.quiet.cmdFail oPrepare c)) ∧
   (∀ (q : WReq) (v : W64) (s : State), s.planState ≠ 3 ∨ v.toNat < s.bell.beat + 2 →
     Does (.jobStart q v) s q oJobStart (natLe 8 v.toNat) (fun u => u = s.quiet.cmdFail oJobStart abValueRange)) ∧
   (∀ (q : WReq) (s : State), s.obj oLcState ≠ 3 → Does (.ledgerClearFlash q) s q oLedgerClear [2]
     (fun u => u = s.quiet.cmdFail oLedgerClear abLifeCycle)) ∧
   (∀ (q : WReq) (v : W32) (s : State), s.admitted = false → s.packs.all (fun p => p.id != v.toNat) = true →
     Does (.packRemove q v) s q oPackRemove (natLe 4 v.toNat)
       (fun u => u = s.quiet.cmdFail oPackRemove abValueRange)) ∧
   (∀ (q : WReq) (v : Byte) (s : State), s.planHeld = true → Does (.shutdown q v) s q oShutdown (natLe 1 v.toNat)
     (fun u => u = s.quiet.cmdFail oShutdown abPlanAdmitted)))

/-- The optics', links' and engines' own objects (R131, R306, R311, R331, R343): XR_CLEAR waits for the guard, and
fails under a plan; SELECT of the source in use is done, of an eligible other one waits and of another fails; ACCEPT
adopts the identity that the peer's hellos name, at both ports of a crossed pair, and fails under a plan or without a
peer that states its place; the router's telemetry returns to zero; DISABLE stands and the die's slots are bound
anew. -/
def Obligations.OpticsWrites : Prop :=
  (∀ (q : WReq) (v : Byte) (s : State), s.admitted = false → Does (.xrClear q v) s q oXrClear (natLe 1 v.toNat)
    (fun u => u.xrClear = true ∧ u.obj oXrClear = 0x10000 ∧ SameObj s u [oXrClear] ∧ SameMem s u)) ∧
  (∀ (q : WReq) (v : Byte) (s : State), s.admitted = true → Does (.xrClear q v) s q oXrClear (natLe 1 v.toNat)
    (fun u => u = s.quiet.cmdFail oXrClear abPlanAdmitted)) ∧
  (∀ (q : WReq) (i : LaserInput) (v : Byte) (s : State), v.toNat ≠ s.source i.val → s.quiet.eligible i.val = true →
    Does (.selectSource q i v) s q (oSelect i.val) (natLe 1 v.toNat)
      (fun u => u.obj (oSelect i.val) = 0x10000 ∧ SameObj s u [oSelect i.val] ∧ SameMem s u ∧
        ((u.laser i.val).next.map (fun w => w.twin)) = some (v.toNat == 1))) ∧
  (∀ (q : WReq) (i : LaserInput) (v : Byte) (s : State), v.toNat = s.source i.val →
    Does (.selectSource q i v) s q (oSelect i.val) (natLe 1 v.toNat)
      (fun u => u.obj (oSelect i.val) = 0x20000 ∧ SameObj s u (oSelect i.val :: eventKeys))) ∧
  (∀ (q : WReq) (i : LaserInput) (v : Byte) (s : State), v.toNat ≠ s.source i.val → s.quiet.eligible i.val = false →
    Does (.selectSource q i v) s q (oSelect i.val) (natLe 1 v.toNat)
      (fun u => u = s.quiet.cmdFail (oSelect i.val) abValueRange)) ∧
  (∀ (q : WReq) (p : Port) (v : Byte) (s : State), s.planHeld = false → s.linkClass p.val ≠ 0 →
    (s.portSt p.val).seen = true → bit (fieldLe (s.blob (oHelloSeen p.val)) 4 1) 0 = true →
    let far := bits (s.obj (oLinkClass p.val)) 8 8
    let ports := if s.linkClass p.val = 3 ∧ far < 24 ∧ (s.portSt far).seen = true then [p.val, far] else [p.val]
    Does (.accept q p v) s q (oAccept p.val) (natLe 1 v.toNat)
      (fun u => u.obj (oAccept p.val) = 0x10000 ∧ (u.portSt p.val).accepting = ports ∧
        (∀ r ∈ ports, u.obj (oPeerPlace r) = fieldLe (s.blob (oHelloSeen r)) 2 2 ∧
          u.obj (oPeerPort r) = fieldLe (s.blob (oHelloSeen r)) 1 1 ∧
          u.obj (oPeerDigest r) = fieldLe (s.blob (oHelloSeen r)) 8 8) ∧
        SameObj s u (oAccept p.val :: ports.flatMap (fun r => [oPeerPlace r, oPeerPort r, oPeerDigest r])) ∧
        SameMem s u)) ∧
  (∀ (q : WReq) (p : Port) (v : Byte) (s : State),
    let none_ := s.linkClass p.val = 0 ∨ (s.portSt p.val).seen = false ∨
      bit (fieldLe (s.blob (oHelloSeen p.val)) 4 1) 0 = false
    s.planHeld = true ∨ none_ →
    Does (.accept q p v) s q (oAccept p.val) (natLe 1 v.toNat)
      (fun u => u = s.quiet.cmdFail (oAccept p.val) (if s.planHeld = true then abPlanAdmitted else abValueRange))) ∧
  (∀ (q : WReq) (v : Byte) (s : State), Does (.rtTelemetryClear q v) s q oRtTelemetryClear (natLe 1 v.toNat)
    (fun u => u.obj oRtTelemetryClear = 0x20000 ∧
      (∀ p < 24, ∀ j ∈ [1, 2, 3, 4, 6, 7, 8], u.obj (objKey (0x5500 + p) j) = 0) ∧
      (∀ p < 24, ∀ j < 6, u.obj (objKey (0x5470 + p) (1 + j)) = 0) ∧ (∀ p < 24, u.blob (oRtQueueHwm p) = zeros 12) ∧
      SameMem s u)) ∧
  (∀ (q : WReq) (d : Die) (v : BitVec 128) (s : State), Does (.disable q d v) s q (oDisable d.val) (natLe 16 v.toNat)
    (fun u => u = ((s.quiet.setObj (oDisable d.val) v.toNat).rebuildSlots d.val false).showDegraded))

/-- Memory, evidence, packs and self-test (R277, R393, R395, R401, R402, R405, R419, R432): MEM_VERIFIED makes
RETAINED_UNVERIFIED VALID; EVIDENCE_RESET starts again at slot 0; a pack that passes its checks is stored, one that
fails aborts with PACK_REJECTED, and one named leaves the store; ST_RUN and STE_START start, ST_RUN not under a plan,
during a test or with its domain off; the ledger's parts clear; DIGEST_REGION of a loaded plan's region starts its
digest, and fails otherwise. -/
def Obligations.MemoryAndTestWrites : Prop :=
  (∀ (q : WReq) (v : Byte) (s : State), Does (.memVerified q v) s q oMemVerified (natLe 1 v.toNat)
    (fun u => u = ((if s.obj oMemState = 2 then s.quiet.setObj oMemState 1 else s.quiet).cmdDone oMemVerified))) ∧
  (∀ (q : WReq) (v : Byte) (s : State), Does (.evidenceReset q v) s q oEvidenceReset (natLe 1 v.toNat)
    (fun u => u = (s.quiet.setObj oEvidenceNextSlot 0).cmdDone oEvidenceReset)) ∧
  (∀ (q : WReq) (bs : Bytes) (s : State), s.packFault bs = none → Does (.packLoad q bs) s q oPackLoad bs
    (fun u => u.packs = storePack s.packs (packOf bs) ∧ u.obj oPackCount = (storePack s.packs (packOf bs)).length ∧
      SameObj s u (oPackCount :: eventKeys))) ∧
  (∀ (q : WReq) (bs : Bytes) (a : Nat) (s : State), s.quiet.writeServed q oPackLoad bs = true → s.packFault bs = some a →
    exec (.packLoad q bs) s = .next ((s.quiet.raise .packRejected).turnedAway q oPackLoad bs a)) ∧
  (∀ (q : WReq) (v : W32) (s : State), s.admitted = false → s.packs.any (fun p => p.id == v.toNat) = true →
    Does (.packRemove q v) s q oPackRemove (natLe 4 v.toNat)
      (fun u => u.packs = s.packs.filter (fun p => p.id != v.toNat) ∧ u.obj oPackRemove = 0x20000 ∧
        SameObj s u ([oPackCount, oPackRemove] ++ eventKeys))) ∧
  (∀ (q : WReq) (v : Byte) (s : State), s.planHeld = false → s.power.selfTest = false → s.dom 44 = domOn →
    Does (.stRun q v) s q oStRun (natLe 1 v.toNat)
      (fun u => u.power.selfTest = true ∧ u.obj oStRun = 0x10000 ∧ SameObj s u [oStRun] ∧ SameMem s u)) ∧
  (∀ (q : WReq) (v : Byte) (s : State), s.planHeld = true ∨ s.power.selfTest = true ∨ s.dom 44 ≠ domOn →
    Does (.stRun q v) s q oStRun (natLe 1 v.toNat)
      (fun u => u = s.quiet.cmdFail oStRun (if s.planHeld = true then abPlanAdmitted else abValueRange))) ∧
  (∀ (q : WReq) (v : Byte) (s : State), Does (.steStart q v) s q oSteStart (natLe 1 v.toNat)
    (fun u => u = s.quiet.setObj oSteStart 0x10000)) ∧
  (∀ (q : WReq) (s : State), Does (.ledgerClearRing q) s q oLedgerClear [1]
    (fun u => u = ({ s.quiet with ledger := { s.ledger with ring := [] } }.cmdDone oLedgerClear))) ∧
  (∀ (q : WReq) (s : State), s.obj oLcState = 3 → Does (.ledgerClearFlash q) s q oLedgerClear [2]
    (fun u => u = (({ s.quiet with ledger := { s.ledger with flash := [] } }.setObj oLedgerFill 0).cmdDone
      oLedgerClear))) ∧
  (∀ (q : WReq) (v : W16) (r : Region) (s : State), s.planState = 1 →
    (parsePlan (s.blob oPlanBlob)).regions.find? (fun g => g.num == v.toNat) = some r →
    Does (.digestRegion q v) s q oDigestRegion (natLe 2 v.toNat)
      (fun u => u.digesting = some (r.base, r.len, s.now + digestNs r.len) ∧ u.obj oDigestRegion = 0x10000 ∧
        SameObj s u [oDigestRegion] ∧ SameMem s u)) ∧
  (∀ (q : WReq) (v : W16) (s : State), s.planHeld = true ∨ s.planState = 0 ∨
    (parsePlan (s.blob oPlanBlob)).regions.find? (fun g => g.num == v.toNat) = none →
    Does (.digestRegion q v) s q oDigestRegion (natLe 2 v.toNat)
      (fun u => u = s.quiet.cmdFail oDigestRegion (if s.planHeld = true then abPlanAdmitted else abValueRange)))

/-- REINIT (R425) in RUN and IDLE: the function's objects of retention V are at their defaults and its units' work is
lost (compute and update poison the step, fabric ends the plan, optics loses its lanes), and the re-initialisation is
under way from this moment; in another state it fails with FUNCTION_DOWN. FUNCTION_REINIT ends it with its event once
no domain of the function is capped or waking, and changes nothing before. -/
def Obligations.Reinitialisation : Prop :=
  (∀ (q : WReq) (s : State), s.obj oPowerState = 1 ∨ s.obj oPowerState = 2 →
    Does (.reinitCompute q) s q oReinit [1] (fun u => u.power.reinit = some ⟨1, s.now⟩ ∧ u.obj oReinit = 0x10000 ∧
      u.engines = [] ∧ u.cores = [] ∧ u.merges = [] ∧ (∀ k, keyLost [.v] [.compute] k = true → u.obj k = objDefault k) ∧
      (s.admitted = true → u.step.fault = true) ∧ SameMem s u)) ∧
  (∀ (q : WReq) (s : State), s.obj oPowerState = 1 ∨ s.obj oPowerState = 2 →
    Does (.reinitUpdate q) s q oReinit [4] (fun u => u.power.reinit = some ⟨4, s.now⟩ ∧ u.obj oReinit = 0x10000 ∧
      u.shards = [] ∧ u.sums = [] ∧ (∀ k, keyLost [.v] [.update] k = true → u.obj k = objDefault k) ∧ (s.admitted = true → u.step.fault = true) ∧ SameMem s u)) ∧
  (∀ (q : WReq) (s : State), s.obj oPowerState = 1 ∨ s.obj oPowerState = 2 →
    Does (.reinitFabric q) s q oReinit [2] (fun u => u.power.reinit = some ⟨2, s.now⟩ ∧ u.obj oReinit = 0x10000 ∧
      u.windows = [] ∧ u.flows = [] ∧ u.txLinks = [] ∧ u.rxLinks = [] ∧ u.admitted = false ∧
      (∀ k, keyLost [.v] [.fabric] k = true → u.obj k = objDefault k))) ∧
  (∀ (q : WReq) (s : State), s.obj oPowerState = 1 ∨ s.obj oPowerState = 2 →
    Does (.reinitOptics q) s q oReinit [3] (fun u => u.power.reinit = some ⟨3, s.now⟩ ∧ u.obj oReinit = 0x10000 ∧
      (∀ p, (u.portSt p).useTx = 0 ∧ (u.portSt p).useRx = 0) ∧
      (∀ k, keyLost [.v] [.optics] k = true → u.obj k = objDefault k))) ∧
  (∀ (q : WReq) (s : State), s.obj oPowerState ≠ 1 → s.obj oPowerState ≠ 2 →
    Does (.reinitCompute q) s q oReinit [1] (fun u => u = s.quiet.cmdFail oReinit abFunctionDown) ∧
    Does (.reinitFabric q) s q oReinit [2] (fun u => u = s.quiet.cmdFail oReinit abFunctionDown) ∧
    Does (.reinitOptics q) s q oReinit [3] (fun u => u = s.quiet.cmdFail oReinit abFunctionDown) ∧
    Does (.reinitUpdate q) s q oReinit [4] (fun u => u = s.quiet.cmdFail oReinit abFunctionDown)) ∧
  (∀ (r : Reinit) (s : State), s.power.reinit = some r →
    ((match fnOfCode r.fn with | some f => fnDomains f | none => []).all
      (fun d => s.dom d != domCapped && s.dom d != domWaking)) = true →
    Gives .functionReinit s (fun t => t.power.reinit = none ∧ t.obj oReinit = 0x20000 ∧
      t.obj oReinitCount = (s.obj oReinitCount + 1) % 2 ^ 32 ∧
      SameObj s t ([oReinit, oReinitCount, oLastReinit] ++ eventKeys))) ∧
  (∀ s : State, (∀ r, s.power.reinit = some r →
      ((match fnOfCode r.fn with | some f => fnDomains f | none => []).all
        (fun d => s.dom d != domCapped && s.dom d != domWaking)) = false) →
    exec .functionReinit s = .next s.quiet)

/-- The life cycle (R448 to R450, Table 17-8): BLANK to PROVISIONED makes an identity key, PROVISIONED to DEPLOYED
needs a chain, a valid token of TARGET 3 opens DIAG, TARGET 2 closes it and clears the raw program, a valid token of
TARGET 4 retires the module and zeroises its key; every token accepted renews the nonce.
An advance that does not fit the state, and a token that does not fit its TARGET's state, does not verify or meets a
plan (but for TARGET 4), change nothing but their result word (R448, R449, Table 17-8). -/
def Obligations.LifeCycle : Prop :=
  ((∀ (q : WReq) (s : State), s.planHeld = false → s.obj oLcState = 0 →
     Does (.lcAdvanceProvision q) s q oLcAdvance [1] (fun u => u.obj oLcState = 1 ∧ u.obj oLcAdvance = 0x20000 ∧
       u.power.identity = some s.power.identities ∧ u.blob oIdPublicKey = identityPoint s.power.identities ∧
       SameObj s u ([oLcState, oLcAdvance] ++ eventKeys))) ∧
   (∀ (q : WReq) (s : State), s.planHeld = false → s.obj oLcState = 1 → (s.blob oIdCertChain).isEmpty = false →
     Does (.lcAdvanceDeploy q) s q oLcAdvance [2] (fun u => u = (s.quiet.setObj oLcState 2).cmdDone oLcAdvance)) ∧
   (∀ (q : WReq) (t : Bytes) (s : State), fieldLe t 4 1 = 3 → s.planHeld = false → s.obj oLcState = 2 →
     s.tokenValid t = true →
     Does (.lcRequestDiag q t) s q oLcRequest t (fun u => u.obj oLcState = 3 ∧ u.obj oLcRequest = 0x20000 ∧
       u.power.nonces = s.power.nonces + 1 ∧ u.obj oLcNonce = (Config.lcNonce (s.power.nonces + 1)).toNat ∧
       SameObj s u ([oLcState, oLcRequest, oLcNonce] ++ eventKeys))) ∧
   (∀ (q : WReq) (t : Bytes) (s : State), fieldLe t 4 1 = 2 → s.planHeld = false → s.obj oLcState = 3 →
     Does (.lcRequestDeployed q t) s q oLcRequest t (fun u => u.obj oLcState = 2 ∧ u.obj oLcRequest = 0x20000 ∧
       u.blob oSteProgram = [] ∧ u.blob oSteOutput = [] ∧ u.power.nonces = s.power.nonces + 1 ∧
       u.obj oLcNonce = (Config.lcNonce (s.power.nonces + 1)).toNat ∧
       SameObj s u ([oLcState, oLcRequest, oLcNonce, oSteStart] ++ eventKeys))) ∧
   (∀ (q : WReq) (t : Bytes) (s : State), fieldLe t 4 1 = 4 → 1 ≤ s.obj oLcState → s.obj oLcState ≤ 3 →
     s.tokenValid t = true →
     Does (.lcRequestRetire q t) s q oLcRequest t (fun u => u.obj oLcState = 4 ∧ u.obj oLcRequest = 0x20000 ∧
       u.power.identity = none ∧ u.blob oIdPublicKey = [] ∧ u.admitted = false ∧
       u.power.nonces = s.power.nonces + 1 ∧ u.obj oLcNonce = (Config.lcNonce (s.power.nonces + 1)).toNat))) ∧
  ((∀ (q : WReq) (s : State), s.planHeld = true ∨ s.obj oLcState ≠ 0 →
     Does (.lcAdvanceProvision q) s q oLcAdvance [1] (fun u => u = s.quiet.cmdFail oLcAdvance
       (if s.planHeld = true then abPlanAdmitted else abLifeCycle))) ∧
   (∀ (q : WReq) (s : State), s.planHeld = true ∨ s.obj oLcState ≠ 1 ∨ (s.blob oIdCertChain).isEmpty = true →
     Does (.lcAdvanceDeploy q) s q oLcAdvance [2] (fun u => u = s.quiet.cmdFail oLcAdvance
       (if s.planHeld = true then abPlanAdmitted else abLifeCycle))) ∧
   (∀ (q : WReq) (t : Bytes) (c : Instr) (s : State),
     c ∈ [Instr.lcRequestDiag q t, .lcRequestDeployed q t, .lcRequestRetire q t] →
     let target := fieldLe t 4 1
     let st := s.obj oLcState
     (target ≠ 4 → s.planHeld = true →
       Does c s q oLcRequest t (fun u => u = s.quiet.cmdFail oLcRequest abPlanAdmitted)) ∧
     (target = 4 ∨ s.planHeld = false → ¬(target = 3 ∧ st = 2 ∨ target = 2 ∧ st = 3 ∨ target = 4 ∧ 1 ≤ st ∧ st ≤ 3) →
       Does c s q oLcRequest t (fun u => u = s.quiet.cmdFail oLcRequest abLifeCycle)) ∧
     (target = 3 ∧ st = 2 ∧ s.planHeld = false ∨ target = 4 ∧ 1 ≤ st ∧ st ≤ 3 → s.tokenValid t = false →
       Does c s q oLcRequest t (fun u => u = s.quiet.cmdFail oLcRequest abSignature))))

/-- Firmware (R444, R446, R447): an image that passes its checks is staged and its version shown, one that fails
aborts and changes nothing; FW_ACTIVATE copies it, and fails under a plan or without a staged image; the copy replaces
the image in flash, a warm reset that waited for it begins, and the recovery loader runs the boot ROM's checks at once;
the boot ROM runs an image that is good and not older than the fuses, and burns the fuses up to it, else the recovery
loader. -/
def Obligations.FirmwareCommands : Prop :=
  (∀ (q : WReq) (bs : Bytes) (s : State), s.imageFault bs = none → Does (.fwStage q bs) s q oFwStage bs
    (fun u => u.obj oFwStagedVersion = fieldLe bs 4 4 ∧ u.power.staged.map (fun i => i.svn) = some (fieldLe bs 8 1) ∧
      SameObj s u [oFwStagedVersion] ∧ SameMem s u)) ∧
  (∀ (q : WReq) (bs : Bytes) (a : Nat) (s : State), s.quiet.writeServed q oFwStage bs = true →
    s.imageFault bs = some a → exec (.fwStage q bs) s = .next (s.quiet.turnedAway q oFwStage bs a)) ∧
  (∀ (q : WReq) (v : Byte) (s : State), s.planHeld = false → s.power.staged.isSome = true →
    Does (.fwActivate q v) s q oFwActivate (natLe 1 v.toNat)
      (fun u => u.power.copying = true ∧ u.obj oFwActivate = 0x10000 ∧ SameObj s u [oFwActivate] ∧ SameMem s u)) ∧
  (∀ (q : WReq) (v : Byte) (s : State), s.planHeld = true ∨ s.power.staged = none →
    Does (.fwActivate q v) s q oFwActivate (natLe 1 v.toNat)
      (fun u => u = s.quiet.cmdFail oFwActivate (if s.planHeld = true then abPlanAdmitted else abValueRange))) ∧
  (∀ (i : FwImage) (s : State), s.power.copying = true → s.power.staged = some i →
    Gives .fwImageCopied s (fun t => t.power.flash = i ∧ t.power.copying = false ∧
      (s.power.resetHeld = none → t.obj oFwActivate = 0x20000 ∧ t.blob oFwDigest = natLe 48 i.digest) ∧
      (s.power.resetHeld = none → s.power.boot ≠ .recovery → SameObj s t (oFwActivate :: eventKeys)) ∧
      (s.power.resetHeld = none → s.power.boot = .recovery → i.good = true → s.obj oFwSvnFuse ≤ i.svn →
        t.power.boot = .image ∧ t.obj oFwSvnFuse = i.svn) ∧
      (∀ c, s.power.resetHeld = some c → t.power.warmReset = some c))) ∧
  (∀ s : State, s.power.boot = .verifying → s.power.flash.good = true → s.obj oFwSvnFuse ≤ s.power.flash.svn →
    Gives .bootRomVerify s (fun t => t.power.boot = .image ∧ t.obj oFwBoot = 0 ∧
      t.obj oFwSvnFuse = s.power.flash.svn ∧ t.obj oFirmwareVersion = s.power.flash.version ∧
      SameObj s t [oFwBoot, oFwSvnFuse, oFirmwareVersion] ∧ SameMem s t)) ∧
  (∀ s : State, s.power.boot = .verifying → (s.power.flash.good = false ∨ s.power.flash.svn < s.obj oFwSvnFuse) →
    Gives .bootRomVerify s (fun t => t.power.boot = .recovery ∧ t.obj oFwBoot = 1 ∧ SameObj s t [oFwBoot] ∧
      SameMem s t))

/-- Power requests (R435 to R437, R441): DOZE from RUN and KEEP from RUN or DOZE, with no plan held and off the
bridge, leave on only the domains of their state, and fail otherwise; RUN from DOZE asks the other domains to wake,
from KEEP and READY_OFF begins a warm reset, and fails from another state (assumption 11); SHUTDOWN starts its
self-test in RUN with none under way; WARM_RESET ends the plan, counts and restarts the management complex, and waits
for a firmware copy. -/
def Obligations.PowerWrites : Prop :=
  (∀ (q : WReq) (s : State), s.obj oPowerState = 3 → Does (.powerRequestRun q) s q oPowerRequest [1]
    (fun u => u.obj oPowerState = 1 ∧ u.obj oPowerRequest = 0x20000 ∧
      (∀ d ∈ domains48, s.dom d ≠ domOn → s.dom d ≠ domWaking → ∃ r ∈ u.power.requests, r.domain = d) ∧
      SameObj s u ([oPowerState, oPowerRequest] ++ eventKeys))) ∧
  (∀ (q : WReq) (s : State), s.obj oPowerState = 4 ∨ s.obj oPowerState = 5 → s.power.copying = false →
    Does (.powerRequestRun q) s q oPowerRequest [1]
      (fun u => u.power.warmReset = some .exit ∧ u.obj oResetCount = (s.obj oResetCount + 1) % 2 ^ 32)) ∧
  (∀ (q : WReq) (s : State), s.obj oPowerState < 3 ∨ 5 < s.obj oPowerState →
    Does (.powerRequestRun q) s q oPowerRequest [1] (fun u => u = s.quiet.cmdFail oPowerRequest
      (if s.planHeld = true then abPlanAdmitted else abValueRange))) ∧
  (∀ (q : WReq) (s : State), s.planHeld = true ∨ s.obj oBridgeRole = 1 ∨ s.obj oPowerState ≠ 1 →
    Does (.powerRequestDoze q) s q oPowerRequest [3] (fun u => u = s.quiet.cmdFail oPowerRequest
      (if s.planHeld = true then abPlanAdmitted else abValueRange))) ∧
  (∀ (q : WReq) (s : State), s.planHeld = true ∨ s.obj oBridgeRole = 1 ∨
      s.obj oPowerState ≠ 1 ∧ s.obj oPowerState ≠ 3 →
    Does (.powerRequestKeep q) s q oPowerRequest [4] (fun u => u = s.quiet.cmdFail oPowerRequest
      (if s.planHeld = true then abPlanAdmitted else abValueRange))) ∧
  (∀ (q : WReq) (s : State), s.planHeld = false → s.obj oBridgeRole ≠ 1 → s.obj oPowerState = 1 →
    Does (.powerRequestDoze q) s q oPowerRequest [3]
      (fun u => u.obj oPowerState = 3 ∧ u.obj oPowerRequest = 0x20000 ∧ SameMem s u ∧
        (∀ d ∈ domains48, dozeDomains.contains d = false → u.dom d = domOff) ∧
        (∀ d ∈ dozeDomains, u.dom d = s.dom d))) ∧
  (∀ (q : WReq) (s : State), s.planHeld = false → s.obj oBridgeRole ≠ 1 →
    s.obj oPowerState = 1 ∨ s.obj oPowerState = 3 →
    Does (.powerRequestKeep q) s q oPowerRequest [4]
      (fun u => u.obj oPowerState = 4 ∧ u.obj oPowerRequest = 0x20000 ∧ SameMem s u ∧
        (∀ d ∈ domains48, keepDomains.contains d = false → u.dom d = domOff) ∧
        (∀ d ∈ keepDomains, u.dom d = s.dom d))) ∧
  (∀ (q : WReq) (v : Byte) (s : State), s.planHeld = false → s.obj oPowerState = 1 → s.power.selfTest = false →
    Does (.shutdown q v) s q oShutdown (natLe 1 v.toNat)
      (fun u => u.power.shutdown = true ∧ u.power.selfTest = true ∧ u.obj oShutdown = 0x10000 ∧
        SameObj s u [oShutdown] ∧ SameMem s u)) ∧
  (∀ (q : WReq) (v : Byte) (s : State), s.planHeld = false → s.obj oPowerState ≠ 1 ∨ s.power.selfTest = true →
    Does (.shutdown q v) s q oShutdown (natLe 1 v.toNat)
      (fun u => u = s.quiet.cmdFail oShutdown abValueRange)) ∧
  (∀ (q : WReq) (v : Byte) (s : State), s.power.copying = false →
    Does (.warmReset q v) s q oWarmReset (natLe 1 v.toNat)
      (fun u => u.power.warmReset = some .write ∧ u.power.boot = (if s.power.aux then .verifying else .off) ∧
        u.admitted = false ∧ u.plan = none ∧ u.obj oResetCount = (s.obj oResetCount + 1) % 2 ^ 32)) ∧
  (∀ (q : WReq) (v : Byte) (s : State), s.power.copying = true →
    Does (.warmReset q v) s q oWarmReset (natLe 1 v.toNat)
      (fun u => u.power.resetHeld = some .write ∧ u.obj oWarmReset = 0x10000 ∧ SameObj s u [oWarmReset] ∧ SameMem s u))

/-! ### Control cores -/

/-- A core's registers (R180): x0 reads as zero and discards what is written; another register holds the value
written, at 64 bits, and every other register stands. -/
def Obligations.CoreRegisters : Prop :=
  ∀ (c : CoreSt) (r v : Nat), c.x 0 = 0 ∧ c.setX 0 v = c ∧ (r ≠ 0 → (c.setX r v).x r = v % 2 ^ 64) ∧
    (∀ j, j ≠ r → (c.setX r v).x j = c.x j) ∧ (c.setX r v).pc = c.pc ∧ (c.setX r v).slots = c.slots ∧
    (c.setX r v).dmem = c.dmem

/-- The device-access instructions that read (R182): BEAT gives the beat, the step, the position and the offset;
SUMRD a field of a summary slot (another selector, slot or field code a free value: assumption 3); SUMWAIT the count
that was waited for; WAIT_IDLE and SUMCLR give nothing.
A core that must wait (R182): WAIT_BOUNDARY, WAIT_IDLE while a slot works, SUMWAIT before its count and ISSUE to
a full FIFO stall it, its instruction not ended; RUNNING becomes WAITING.
A stalled core goes on when its condition is met and not before (R182), WAITING becoming RUNNING: an ISSUE is executed
again, a SUMWAIT ends with the count, the others end; an instruction of the pair retires with its results, a store in
data memory among them (R180, R184; what it computes is an operand: assumption 30). -/
def Obligations.CoreAccesses : Prop :=
  (∀ (r : CoreReq) (s : State), s.coreReady r = true →
     let k := coreKey r.die r.cluster
     let c := s.core k
     (c.x r.rs1 = 0 → Returns (.ccBeat r) s k r.rd s.bell.beat) ∧
     (c.x r.rs1 = 1 → Returns (.ccBeat r) s k r.rd (s.obj oStepNow)) ∧
     (c.x r.rs1 = 2 → Returns (.ccBeat r) s k r.rd (s.obj oStepBeatNow)) ∧
     (c.x r.rs1 = 3 → Returns (.ccBeat r) s k r.rd s.bell.off) ∧
     (3 < c.x r.rs1 → Returns (.ccBeat r) s k r.rd (Config.freeValue s.freeCount).toNat) ∧
     (64 ≤ c.x r.rs1 ∨ (c.slot (c.x r.rs1)).field (c.x r.rs2) = none →
       Returns (.ccSumrd r) s k r.rd (Config.freeValue s.freeCount).toNat) ∧
     (∀ v, c.x r.rs1 < 64 → (c.slot (c.x r.rs1)).field (c.x r.rs2) = some v → Returns (.ccSumrd r) s k r.rd v) ∧
     (c.x r.rs2 ≤ (c.slot (c.x r.rs1)).contrib →
       Returns (.ccSumwait r) s k r.rd (c.slot (c.x r.rs1)).contrib) ∧
     (s.slotsIdle k (c.x r.rs2 % 2 ^ 12) = true → Returns (.ccWaitIdle r) s k 0 0) ∧
     Gives (.ccSumclr r) s (fun t => (t.core k).slot (c.x r.rs1) = SumSlot.zero ∧ (t.core k).pc = c.pc + 4 ∧
       (∀ n, n ≠ c.x r.rs1 → (t.core k).slot n = c.slot n) ∧ (t.core k).xregs = c.xregs ∧
       (∀ j, j ≠ k → t.core j = s.core j) ∧ t.od = s.od ∧ t.mem = s.mem)) ∧
  (∀ (r : CoreReq) (s : State), s.coreReady r = true →
     let k := coreKey r.die r.cluster
     let c := s.core k
     let waits := fun (w : CoreWait) (t : State) => (t.core k).wait = some w ∧ (t.core k).pc = c.pc ∧
       (s.coreState k = 1 → t.coreState k = 2) ∧ SameObj s t [oCoreState k] ∧ t.mem = s.mem ∧ t.engines = s.engines
     Gives (.ccWaitBoundary r) s (waits .boundary) ∧
     (s.slotsIdle k (c.x r.rs2 % 2 ^ 12) = false → Gives (.ccWaitIdle r) s (waits (.idle (c.x r.rs2 % 2 ^ 12)))) ∧
     ((c.slot (c.x r.rs1)).contrib < c.x r.rs2 →
       Gives (.ccSumwait r) s (waits (.count r.rd (c.x r.rs1) (c.x r.rs2)))) ∧
     (∀ kind, kind ∈ [0x01, 0x02, 0x11, 0x12] → fieldLe (memRead c.dmem (c.x r.rs1) 64) 0 1 = kind → c.x r.rs2 ≤ 11 →
       c.x r.rs1 % 64 = 0 → inDmem (c.x r.rs1) 64 = true →
       (kind = 0x01 ∨ kind = 0x11 → s.borrowed k (c.x r.rs2) = false) →
       fifoRoom (s.eng (engKey r.die (r.cluster * 12 + c.x r.rs2))) kind = false →
       Gives (.ccIssue r) s (waits (.fifo (c.x r.rs2) kind)))) ∧
  ((∀ (die : Die) (cluster : Cluster) (w : CoreWait) (s : State),
     let k := coreKey die cluster
     (s.core k).wait = some w → s.waitMet k w = true →
     Gives (.coreResume die cluster) s (fun t => (t.core k).wait = none ∧ (s.coreState k = 2 → t.coreState k = 1) ∧
       (∀ a b, w = .fifo a b → (t.core k).pc = (s.core k).pc ∧ (t.core k).xregs = (s.core k).xregs) ∧
       (∀ rd n m, w = .count rd n m → (t.core k).pc = (s.core k).pc + 4 ∧
         (rd ≠ 0 → (t.core k).x rd = ((s.core k).slot n).contrib % 2 ^ 64)) ∧
       (w = .boundary ∨ (∃ m, w = .idle m) → (t.core k).pc = (s.core k).pc + 4 ∧ (t.core k).xregs = (s.core k).xregs) ∧
       SameObj s t [oCoreState k] ∧ (∀ j, j ≠ k → t.core j = s.core j) ∧ t.mem = s.mem ∧ t.engines = s.engines)) ∧
   (∀ (die : Die) (cluster : Cluster) (s : State),
     (∀ w, (s.core (coreKey die cluster)).wait = some w → s.waitMet (coreKey die cluster) w = false) →
     exec (.coreResume die cluster) s = .next s.quiet) ∧
   (∀ (i : Retire) (s : State), s.retires i = true → i.agree = true →
     let k := coreKey i.die i.cluster
     Gives (.coreInstruction i) s (fun t => (t.core k).pc = i.nextPc.toNat ∧
       (i.rd.val ≠ 0 → (t.core k).x i.rd = i.value.toNat) ∧
       (∀ j, j ≠ i.rd.val → (t.core k).x j = (s.core k).x j) ∧
       (∀ f, i.fp = some f → Bank.get (t.core k).fregs 0 f.1 = f.2.toNat) ∧
       (∀ f, i.csr = some f → Bank.get (t.core k).csrs 0 f.1.toNat = f.2.toNat) ∧
       (t.core k).dmem = (match i.storeAt with
         | some x => memWrite (s.core k).dmem x.1.toNat x.2 | none => (s.core k).dmem) ∧
       (∀ j, j ≠ k → t.core j = s.core j) ∧ t.od = s.od ∧ t.mem = s.mem)))

/-- ISSUE (R183, R139): a descriptor of data memory that an item of the beat covers enters its slot's FIFO with its
beat, takes its cost from the item and returns 0; one that no item covers is refused with BOUND_EXCEEDED, poisons the
step without a replay and returns 1, and so is a matrix descriptor for a borrowed slot (R244), which is counted. -/
def Obligations.IssueEntersFifo : Prop :=
  ∀ (r : CoreReq) (s : State), s.coreReady r = true →
    let k := coreKey r.die r.cluster
    let c := s.core k
    let slot := c.x r.rs2
    let d := memRead c.dmem (c.x r.rs1) 64
    let kind := fieldLe d 0 1
    let engine := r.cluster.val * 12 + slot
    let e := engKey r.die engine
    slot ≤ 11 → c.x r.rs1 % 64 = 0 → inDmem (c.x r.rs1) 64 = true → kind ∈ [0x01, 0x02, 0x11, 0x12] →
    ((kind = 0x01 ∨ kind = 0x11) → s.borrowed k slot = true →
      Gives (.ccIssue r) s (fun t => t.core k = (c.setX r.rd 1).stepPc ∧ t.engines = s.engines ∧
        (s.admitted = true → t.step.fault = true ∧ t.step.hold = true) ∧
        t.obj oBorrowRefusedCount = (s.obj oBorrowRefusedCount + 1) % 2 ^ objBits oBorrowRefusedCount ∧
        SameObj s t ([oBorrowRefusedCount, oIssueRefusedCount, oLastIssueRefused] ++ eventKeys))) ∧
    ((kind = 0x01 ∨ kind = 0x11 → s.borrowed k slot = false) → fifoRoom (s.eng e) kind = true →
    (∀ it, s.coverItem kind r.die engine d = some it →
      Gives (.ccIssue r) s (fun t => t.core k = (c.setX r.rd 0).stepPc ∧
        t.eng e = enqueue (s.eng e) kind
          ⟨d, s.coreState k == 3 || s.coreState k == 4, (s.eng e).seq, s.startFrom, s.bell.beat, it.1.a⟩ ∧
        (∀ j, j ≠ e → t.eng j = s.eng j) ∧
        Bank.get t.spent 0 it.2 = Bank.get s.spent 0 it.2 + issueCost kind d ∧ t.od = s.od ∧ t.mem = s.mem)) ∧
    (s.coverItem kind r.die engine d = none →
      Gives (.ccIssue r) s (fun t => t.core k = (c.setX r.rd 1).stepPc ∧
        (s.admitted = true → t.step.fault = true ∧ t.step.hold = true) ∧
        t.engines = s.engines ∧ t.obj oIssueRefusedCount = (s.obj oIssueRefusedCount + 1) % 2 ^ objBits oIssueRefusedCount ∧
        SameObj s t ([oIssueRefusedCount, oLastIssueRefused] ++ eventKeys))))

/-- QTAKE (R182, R364): from an empty queue it returns 0; from one that holds a descriptor it returns 1, puts the 64
bytes of the ring's entry in data memory and the consumer index moves on by one.
NOTE (R182) raises CORE_NOTE once per core in a beat, with its tag and value, and fills the core's mailbox (R368); a
second NOTE of the beat only ends. A summary on its way (R170) merges into its slot and no other slot changes. -/
def Obligations.CoreQueuesAndNotes : Prop :=
  (∀ (r : CoreReq) (q : QueueEntry) (s : State), s.coreReady r = true →
     let k := coreKey r.die r.cluster
     let c := s.core k
     let n := c.x r.rs1
     let base := match s.region? q.region with | some x => x.base | none => 0
     let entry := s.quiet.loadData .core (base + q.offset + ((s.ring n).ci % q.entries) * 64) 64
     s.queue? n = some q → q.kind = 0 ∨ q.kind = 3 → q.consumer = k → inDmem (c.x r.rs2) 64 = true →
     ((s.ring n).pi = (s.ring n).ci → Returns (.ccQtake r) s k r.rd 0) ∧
     ((s.ring n).pi ≠ (s.ring n).ci →
       Gives (.ccQtake r) s (fun t => (t.ring n).ci = ((s.ring n).ci + 1) % 2 ^ 32 ∧ (t.core k).pc = c.pc + 4 ∧
         (r.rd.val ≠ 0 → (t.core k).x r.rd = 1) ∧ (t.core k).dmem = memWrite c.dmem (c.x r.rs2) entry.2 ∧
         t.mem = entry.1.mem ∧ t.od = entry.1.od ∧ (∀ j, j ≠ k → t.core j = s.core j)))) ∧
  ((∀ (r : CoreReq) (s : State), s.coreReady r = true →
     let k := coreKey r.die r.cluster
     ((s.core k).noted = true → Returns (.ccNote r) s k 0 0) ∧
     ((s.core k).noted = false → Gives (.ccNote r) s (fun t => (t.core k).noted = true ∧ (t.core k).pc = (s.core k).pc + 4 ∧
       (t.mailbox (16 + k)).full = true ∧ t.obj oLastNoteValue = (s.core k).x r.rs2 ∧ t.obj oLastNoteTag = (s.core k).x r.rs1 % 2 ^ 16 + k * 2 ^ 16 ∧
       SameObj s t ([oCoreNoteCount, oLastNoteTag, oLastNoteValue, oMbStates] ++ eventKeys)))) ∧
   (∀ (die : Die) (cluster : Cluster) (m : Merge) (s : State),
     s.merges.find? (fun x => x.die == die.val && x.cluster == cluster.val) = some m →
     let k := coreKey die cluster
     Gives (.summaryMerge die cluster) s (fun t => t.merges = s.merges.erase m ∧
       (t.core k).slot m.slot = ((s.core k).slot m.slot).merge m.value ∧
       (∀ n, n ≠ m.slot → (t.core k).slot n = (s.core k).slot n) ∧ (∀ j, j ≠ k → t.core j = s.core j) ∧ t.od = s.od ∧
       t.mem = s.mem)))

/-- R185: a trap halts neither the pair nor the beat: the core raises CORE_TRAP, of class B, enters VOID (a fenced one
stays fenced), counts the trap, saves the cause and the pc and makes the step POISONED without a replay. So traps another
FUNCT7, a fetch outside instruction memory, a descriptor that is misplaced, of another kind or for another slot, a queue
that is not the core's, an access outside data memory and a trap of the pair's own (the cause numbers are the family's:
assumption 31). Two copies that disagree (R184) void the core the first time in a plan, before its request is released,
and the value that a retired instruction then leaves is free. -/
def Obligations.CoreTraps : Prop :=
  (∀ (k cause : Nat) (s : State), k < 16 → s.admitted = true → s.coreState k ≠ 4 → cause < 256 →
    let t := s.coreTrap k cause
    t.coreState k = 3 ∧ t.step.fault = true ∧ t.step.hold = true ∧ Bank.get (t.core k).csrs 0 0x341 = (s.core k).pc ∧
      Bank.get (t.core k).csrs 0 0x342 = cause ∧ t.obj oCoreTrapCount = (s.obj oCoreTrapCount + 1) % 2 ^ 32 ∧
      (∃ r, t.events.head? = some (.event r) ∧ r.code = 0x0306 ∧ r.cls = 2) ∧ t.bell = s.bell ∧
      (t.core k).wait = (s.core k).wait ∧
      SameObj s t ([oCoreTrapCount, oLastTrap, oCoreState k, oMbStates] ++ eventKeys)) ∧
  (∀ (r : CoreReq) (s : State), s.coreRuns (coreKey r.die r.cluster) = true →
    ∀ c ∈ [Instr.ccIssue r, .ccQtake r, .ccSumrd r, .ccSumwait r, .ccSumclr r, .ccBeat r, .ccWaitBoundary r,
      .ccWaitIdle r, .ccNote r],
      (0x10000 ≤ (s.core (coreKey r.die r.cluster)).pc →
        exec c s = .next (s.quiet.coreTrap (coreKey r.die r.cluster) 1)) ∧
      ((s.core (coreKey r.die r.cluster)).pc < 0x10000 → r.funct7 ≠ 0 →
        exec c s = .next (s.quiet.coreTrap (coreKey r.die r.cluster) 2)) ∧
      ((s.core (coreKey r.die r.cluster)).pc < 0x10000 → r.funct7 = 0 → r.agree = false →
        Gives c s (fun t => t.obj oLockstepCount = (s.obj oLockstepCount + 1) % 2 ^ objBits oLockstepCount ∧
          t.coreState (coreKey r.die r.cluster) ≠ 1 ∧ (s.admitted = true → t.step.fault = true)))) ∧
  (∀ (r : CoreReq) (s : State), s.coreReady r = true →
    let k := coreKey r.die r.cluster
    let c := s.core k
    let kind := fieldLe (memRead c.dmem (c.x r.rs1) 64) 0 1
    (11 < c.x r.rs2 → exec (.ccIssue r) s = .next (s.quiet.coreTrap k 2)) ∧
    (c.x r.rs2 ≤ 11 → c.x r.rs1 % 64 ≠ 0 → exec (.ccIssue r) s = .next (s.quiet.coreTrap k 4)) ∧
    (c.x r.rs2 ≤ 11 → c.x r.rs1 % 64 = 0 → inDmem (c.x r.rs1) 64 = false →
      exec (.ccIssue r) s = .next (s.quiet.coreTrap k 5)) ∧
    (c.x r.rs2 ≤ 11 → c.x r.rs1 % 64 = 0 → inDmem (c.x r.rs1) 64 = true → kind ∉ [0x01, 0x02, 0x11, 0x12] →
      exec (.ccIssue r) s = .next (s.quiet.coreTrap k 2)) ∧
    ((∀ q, s.queue? (c.x r.rs1) = some q → q.kind ≠ 0 ∧ q.kind ≠ 3 ∨ q.consumer ≠ k) →
      exec (.ccQtake r) s = .next (s.quiet.coreTrap k 2)) ∧
    (∀ q, s.queue? (c.x r.rs1) = some q → q.kind = 0 ∨ q.kind = 3 → q.consumer = k → inDmem (c.x r.rs2) 64 = false →
      exec (.ccQtake r) s = .next (s.quiet.coreTrap k 7))) ∧
  (∀ (i : Retire) (s : State), s.coreRuns (coreKey i.die i.cluster) = true →
    let k := coreKey i.die i.cluster
    (0x10000 ≤ (s.core k).pc → exec (.coreInstruction i) s = .next (s.quiet.coreTrap k 1)) ∧
    ((s.core k).pc < 0x10000 → ∀ cause, i.trap = some cause →
      exec (.coreInstruction i) s = .next (s.quiet.coreTrap k cause.toNat)) ∧
    ((s.core k).pc < 0x10000 → i.trap = none → i.loadAt.any (fun l => !inDmem l.1.toNat l.2) = true →
      exec (.coreInstruction i) s = .next (s.quiet.coreTrap k 5)) ∧
    ((s.core k).pc < 0x10000 → i.trap = none → i.loadAt.all (fun l => inDmem l.1.toNat l.2) = true →
      i.storeAt.any (fun l => !inDmem l.1.toNat l.2.length) = true →
      exec (.coreInstruction i) s = .next (s.quiet.coreTrap k 7)) ∧
    (s.retires i = true → i.agree = false →
      exec (.coreInstruction i) s = .next (let u := s.quiet.coreLockstep k
        u.fresh.2.setCore k (retireInto (u.core k) i u.fresh.1)))) ∧
  (∀ (k : Nat) (s : State), k < 16 → s.admitted = true → s.coreState k ≠ 4 → (s.core k).locksteps = 0 →
    let t := s.coreLockstep k
    t.coreState k = 3 ∧ t.step.fault = true ∧ t.step.hold = s.step.hold ∧ (t.core k).locksteps = 1 ∧
      SameObj s t ([oLockstepCount, oLastLockstep, oCoreState k, oMbStates] ++ eventKeys))

/-! ### Matrix and vector engines -/

/-- FILL (R137): the first FILL's next page is written, line by line, and valid; a page still valid is waited for; a
void engine's FILL is skipped; an invalid descriptor (R145) is counted, voids the rest of the engine's step and poisons
the step without a replay.
MATRIX slices (R146): the first descriptor begins when the engine is free, the tile of a new accumulation is EMPTY and
its first panels are valid, void without its panels, and an invalid one never; its end, when every k-block has entered,
frees the engine and, with a drain action, sets the tile DRAINING. The errors that struck the array are operands (R382:
assumption 83). -/
def Obligations.FillsAndSlices : Prop :=
  (∀ (die : Die) (engine : Engine) (us : List Upset) (s : State), (s.eng (engKey die engine)).fills = [] →
     exec (.fill die engine us) s = .next (s.quiet.strike us)) ∧
  (∀ (die : Die) (engine : Engine) (us : List Upset) (q : Queued) (rest : List Queued) (s : State),
     let k := engKey die engine
     let e := s.eng k
     let f := fillD q.bytes
     let page := bufLine f.line f.ring (fillPage e f e.fillPages).1 / 64
     let u := (s.quiet.strike us).advanceTo q.notBefore
     e.fills = q :: rest →
     (s.runsVoid k q = true →
       exec (.fill die engine us) s = .next ((s.quiet.strike us).setEng k { e with fills := rest, fillPages := 0 })) ∧
     (s.runsVoid k q = false → e.fillPages = 0 → fillBad q.bytes ≠ 0 →
       Gives (.fill die engine us) s (fun t => (t.eng k).voidStep = true ∧ (t.eng k).fills = rest ∧
         (s.admitted = true → t.step.fault = true ∧ t.step.hold = true) ∧
         t.obj oCmdInvalidCount = (s.obj oCmdInvalidCount + 1) % 2 ^ objBits oCmdInvalidCount ∧
         SameObj s t ([oCmdInvalidCount, oLastCmdInvalid] ++ eventKeys))) ∧
     (s.runsVoid k q = false → e.fillPages ≠ 0 ∨ fillBad q.bytes = 0 → page ∈ e.valid →
       exec (.fill die engine us) s = .next u) ∧
     (s.runsVoid k q = false → e.fillPages ≠ 0 ∨ fillBad q.bytes = 0 → page ∉ e.valid →
       let span := fillPage e f e.fillPages
       let w := u.writePage k f
       exec (.fill die engine us) s = .next (w.runSlice k) ∧ page ∈ (w.eng k).valid ∧
         (w.eng k).buf = (((upto (span.2 - span.1)).foldl
           (fun (x : State) i => x.putLine k f (fillStart e f) (span.1 + i)) u).eng k).buf ∧
         ((w.eng k).fills = rest ∨ (w.eng k).fills = e.fills) ∧ (∀ j, j ≠ k → w.eng j = s.eng j))) ∧
  ((∀ (die : Die) (engine : Engine) (q : Queued) (rest : List Queued) (s : State),
     let k := engKey die engine
     let e := s.eng k
     let m := matrixD q.bytes
     let ready := panelReady e m.aLine m.aRing m.fa (Bank.get e.panels 0 m.aLine) &&
       panelReady e m.bLine m.bRing m.fb (Bank.get e.panels 0 m.bLine)
     let begun := fun (void : Bool) (t : State) => (t.eng k).slices = rest ∧
       (t.eng k).slice.map (fun x => (x.desc, x.void)) = some (q.bytes, void) ∧
       (m.cont = false → ((t.eng k).tile m.tile).phase = 1 ∧
         ((t.eng k).tile m.tile).products = m.k * m.passes) ∧ (∀ j, j ≠ k → t.eng j = s.eng j) ∧ t.mem = s.mem
     e.slice = none → e.slices = q :: rest →
     (s.runsVoid k q = false → s.matrixBad k q.bytes = 0 → m.cont = true ∨ (e.tile m.tile).phase < 2 → ready = true →
       Gives (.sliceStart die engine) s (begun false)) ∧
     (s.runsVoid k q = true → m.cont = true ∨ (e.tile m.tile).phase < 2 →
       Gives (.sliceStart die engine) s (begun true)) ∧
     (s.runsVoid k q = false → s.matrixBad k q.bytes ≠ 0 →
       Gives (.sliceStart die engine) s (fun t => (t.eng k).voidStep = true ∧ (t.eng k).slices = rest ∧
         (t.eng k).slice = none ∧ (s.admitted = true → t.step.fault = true ∧ t.step.hold = true) ∧
         t.obj oCmdInvalidCount = (s.obj oCmdInvalidCount + 1) % 2 ^ objBits oCmdInvalidCount ∧
         SameObj s t ([oCmdInvalidCount, oLastCmdInvalid] ++ eventKeys))) ∧
     (s.runsVoid k q = true ∨ s.matrixBad k q.bytes = 0 →
       m.cont = false ∧ 2 ≤ (e.tile m.tile).phase ∨ s.runsVoid k q = false ∧ ready = false →
       exec (.sliceStart die engine) s = .next (s.quiet.toCycle (max (2 * q.notBefore) e.readyAt)))) ∧
   (∀ (die : Die) (engine : Engine) (s : State),
     (s.eng (engKey die engine)).slice ≠ none ∨ (s.eng (engKey die engine)).slices = [] →
     exec (.sliceStart die engine) s = .next s.quiet) ∧
   (∀ (die : Die) (x : SliceEnd) (sl : SliceSt) (s : State),
     let k := engKey die x.engine
     let e := s.eng k
     let m := matrixD sl.desc
     e.slice = some sl →
     (m.blocks ≤ sl.done →
       Gives (.sliceEnd die x) s (fun t => (t.eng k).slice = none ∧ (t.eng k).readyAt = sl.cycle ∧
         sl.cycle ≤ 2 * t.now ∧
         ((t.eng k).tile m.tile).phase = (if m.drain = 0 then (e.tile m.tile).phase else 2) ∧
         (m.drain ≠ 0 → ((t.eng k).tile m.tile).desc = sl.desc) ∧
         ((t.eng k).tile m.tile).cells = (strikeTerms x.errors (e.tile m.tile)).cells ∧
         (x.errors = [] → ((t.eng k).tile m.tile).cells = (e.tile m.tile).cells) ∧
         (∀ j, j ≠ k → t.eng j = s.eng j) ∧ t.od = s.od ∧ t.mem = s.mem ∧ s.now ≤ t.now)) ∧
     (sl.done < m.blocks → exec (.sliceEnd die x) s = .next s.quiet)) ∧
   (∀ (die : Die) (x : SliceEnd) (s : State), (s.eng (engKey die x.engine)).slice = none →
     exec (.sliceEnd die x) s = .next s.quiet))

/-- Drains (R119, R146, R148, R160): a drain to VECTOR begins when its input plane is FREE and the others at once; 64
cycles later at its end the tile is EMPTY, its status word final (0x0002_0000_0000 for a void one), a plane drained to is
FULL, and the verdict of an accumulation that was not void is due with the residues to compare (R383). -/
def Obligations.DrainCommands : Prop :=
  (∀ (die : Die) (engine : Engine) (tile : Fin 2) (s : State),
    let k := engKey die engine
    let e := s.eng k
    let m := matrixD (e.tile tile).desc
    ((e.tile tile).phase = 2 → (m.drain = 1 → (e.plane tile).state = 0) →
      Gives (.drainStart die engine tile) s (fun t => ((t.eng k).tile tile).phase = 3 ∧
        ((t.eng k).tile tile).drainAt = s.cyc + 64 ∧ (m.drain = 1 → ((t.eng k).plane tile).state = 1) ∧
        (∀ j, j ≠ k → t.eng j = s.eng j) ∧ t.od = s.od ∧ t.mem = s.mem)) ∧
    ((e.tile tile).phase ≠ 2 ∨ m.drain = 1 ∧ (e.plane tile).state ≠ 0 →
      exec (.drainStart die engine tile) s = .next s.quiet)) ∧
  (∀ (die : Die) (engine : Engine) (d : DrainEnd) (s : State),
    let k := engKey die engine
    let x := strikeTile d.errors ((s.eng k).tile d.tile)
    (x.phase = 3 →
      Gives (.drainEnd die engine d) s (fun t => (t.eng k).tile d.tile = TileSt.init ∧ x.drainAt ≤ 2 * t.now ∧
        t.obj (oTileStatus k d.tile) = (if x.void then 2 ^ 33 else tileStatus x) ∧
        ((matrixD x.desc).drain = 1 → ((t.eng k).plane d.tile).state = 2) ∧
        (∀ j, j ≠ k → t.eng j = s.eng j) ∧
        t.verdicts = s.verdicts ++ (if x.void then [] else
          [⟨1, die, engine, s.obj oStepNow, s.step.attempt, t.now, x.desc, (matrixD x.desc).window, tileChecks x⟩]))) ∧
    (x.phase ≠ 3 → exec (.drainEnd die engine d) s = .next s.quiet))

/-- VLOAD (R173, R174): a valid one fills its input plane, its broadcast register or its program slot from the source, when
no program that reads the target still waits and the plane is FREE; a void engine's is skipped; an invalid one (R177) is
counted, voids the engine's remaining VECTORs of the step and poisons the step without a replay.
VECTOR programs (R175, R177, R178): the first descriptor begins when the engine is free, its input plane FULL and its
waits over, runs void where its count exceeds its item's bound or its engine is void, and an invalid one never begins; at
its end the engine is free, the plane released or FULL again, its registers hold the program's results, its summaries
are on their way, and its verdict is due unless it ran void. -/
def Obligations.VloadsAndPrograms : Prop :=
  (∀ (die : Die) (engine : Engine) (q : Queued) (rest : List Queued) (s : State),
     let k := engKey die engine
     let e := s.eng k
     let v := vloadD q.bytes
     let a := s.quiet.advanceTo q.notBefore
     let b := a.addObj oVecStallCycles (a.cyc - max e.vloadReady (2 * q.notBefore))
     let w := b.setEng k { e with vloads := rest, vloadReady := b.cyc }
     e.vloads = q :: rest →
     (s.runsVoidVec k q = true → exec (.vload die engine) s = .next (s.quiet.setEng k { e with vloads := rest })) ∧
     (s.runsVoidVec k q = false → vloadBad q.bytes ≠ 0 →
       Gives (.vload die engine) s (fun t => (t.eng k).vloads = rest ∧ (t.eng k).voidVec = true ∧
         (s.admitted = true → t.step.fault = true ∧ t.step.hold = true) ∧
         t.obj oVecCmdInvalidCount = (s.obj oVecCmdInvalidCount + 1) % 2 ^ objBits oVecCmdInvalidCount ∧
         SameObj s t ([oVecCmdInvalidCount, oLastVecCmdInvalid] ++ eventKeys))) ∧
     (s.runsVoidVec k q = false → vloadBad q.bytes = 0 →
       vloadWaits e q = true ∨ v.isPlane = true ∧ (e.plane v.target).state ≠ 0 →
       exec (.vload die engine) s = .next a) ∧
     (s.runsVoidVec k q = false → vloadBad q.bytes = 0 → vloadWaits e q = false →
       (v.isPlane = true → (e.plane v.target).state = 0) →
       exec (.vload die engine) s = .next (w.runVload k v) ∧
       Gives (.vload die engine) s (fun t => (t.eng k).vloads = rest ∧
         (v.isPlane = true → ((t.eng k).plane v.target).state = 2) ∧
         (v.isBcast = true → (Bank.get (t.eng k).bcasts BcastSt.init (v.target - 0x10)).colvec = v.colvec ∧
           ∀ i < v.rows, Bank.get (Bank.get (t.eng k).bcasts BcastSt.init (v.target - 0x10)).vals 0 i =
             (w.loadRow v 0 v.rows).2.getD i 0) ∧
         (v.isProg = true → Bank.get (t.eng k).progs [] (v.target - 0x20) = (w.loadData .engine v.src 192).2) ∧
         (t.eng k).vectors = e.vectors ∧ (∀ j, j ≠ k → t.eng j = s.eng j)))) ∧
  (∀ (die : Die) (engine : Engine) (s : State), (s.eng (engKey die engine)).vloads = [] →
     exec (.vload die engine) s = .next s.quiet) ∧
  ((∀ (die : Die) (engine : Engine) (q : Queued) (rest : List Queued) (s : State),
     let k := engKey die engine
     let e := s.eng k
     let v := vectorD q.bytes
     let n := min 32 (progCount (Bank.get e.progs [] v.prog))
     e.run = none → e.vectors = q :: rest →
     (s.runsVoidVec k q = false → (e.plane v.plane).state = 2 → vectorWaits e q = false →
       (s.vectorBad k q.bytes).1 = 0 →
       Gives (.programStart die engine) s (fun t => (t.eng k).vectors = rest ∧
         (t.eng k).run.map (fun x => (x.desc, x.void, x.beat)) = some (q.bytes, decide (q.bound < n), q.beat) ∧
         ((t.eng k).plane v.plane).state = 3 ∧ (∀ j, j ≠ k → t.eng j = s.eng j) ∧
         SameObj s t (oVecStallCycles :: eventKeys) ∧
         (n ≤ q.bound → SameObj s t [oVecStallCycles] ∧ t.mem = s.mem) ∧
         (q.bound < n → s.admitted = true → t.step.fault = true ∧ t.step.hold = true))) ∧
     (s.runsVoidVec k q = true → Gives (.programStart die engine) s (fun t => (t.eng k).vectors = rest ∧
       (t.eng k).run.map (fun x => (x.desc, x.void, x.beat)) = some (q.bytes, true, q.beat) ∧
       (t.eng k).plane v.plane = e.plane v.plane ∧ (∀ j, j ≠ k → t.eng j = s.eng j) ∧
       SameObj s t [oVecStallCycles] ∧ t.mem = s.mem)) ∧
     (s.runsVoidVec k q = false → (e.plane v.plane).state = 2 → vectorWaits e q = false →
       (s.vectorBad k q.bytes).1 ≠ 0 →
       Gives (.programStart die engine) s (fun t => (t.eng k).vectors = rest ∧ (t.eng k).run = none ∧
         (t.eng k).voidVec = true ∧ (s.admitted = true → t.step.fault = true ∧ t.step.hold = true) ∧
         t.obj oVecCmdInvalidCount = (s.obj oVecCmdInvalidCount + 1) % 2 ^ objBits oVecCmdInvalidCount ∧
         SameObj s t ([oVecCmdInvalidCount, oLastVecCmdInvalid] ++ eventKeys))) ∧
     (s.runsVoidVec k q = false → (e.plane v.plane).state ≠ 2 ∨ vectorWaits e q = true →
       exec (.programStart die engine) s = .next (s.quiet.toCycle (max (2 * q.notBefore) e.vecReady)))) ∧
   (∀ (die : Die) (engine : Engine) (s : State),
     (s.eng (engKey die engine)).run ≠ none ∨ (s.eng (engKey die engine)).vectors = [] →
     exec (.programStart die engine) s = .next s.quiet) ∧
   (∀ (die : Die) (engine : Engine) (r : RunSt) (s : State),
     let k := engKey die engine
     let e := s.eng k
     let v := vectorD r.desc
     let p := padTo 192 (Bank.get e.progs [] v.prog)
     let l := (progInstrs p).foldl (runInstr (s.quiet.toCycle r.cycle) v p (e.plane v.plane).cells) ⟨e.regs, e.bcasts, []⟩
     let sums := if r.void then ((progInstrs p).filter (fun w => iOp w == 0x28)).map
       (fun w => (bits (iFlags w) 0 6, { SumSlot.zero with contrib := 1 })) else l.sums
     e.run = some r →
     Gives (.programEnd die engine) s (fun t => (t.eng k).run = none ∧ (t.eng k).vecReady = r.cycle ∧
       r.cycle ≤ 2 * t.now ∧
       ((e.plane v.plane).state = 2 ∨ (e.plane v.plane).state = 3 →
         ((t.eng k).plane v.plane).state = (if v.release then 0 else 2)) ∧
       (r.void = false → (t.eng k).regs = l.regs ∧ (t.eng k).bcasts = l.bcasts) ∧
       (r.void = true → (t.eng k).regs = e.regs ∧ (t.eng k).bcasts = e.bcasts ∧ t.mem = s.mem) ∧
       t.merges = s.merges ++ sums.map (fun x => ⟨k / 96, (k % 96) / 12, x.1, x.2⟩) ∧
       (∀ j, j ≠ k → t.eng j = s.eng j) ∧
       t.verdicts = s.verdicts ++ (if r.void then [] else
         [⟨2, die, engine, s.obj oStepNow, s.step.attempt, t.now, r.desc, v.window, Checks.none⟩]))) ∧
   (∀ (die : Die) (engine : Engine) (s : State), (s.eng (engKey die engine)).run = none →
     exec (.programEnd die engine) s = .next s.quiet))

/-! ### Verdicts, evidence and pattern cases -/

/-- A verdict that passes (R384) is taken from those due and changes nothing but the greatest latency; one that
fails (R382, R383, R236, R179) counts, is recorded, raises CHECK_FAILED, strikes its engine and poisons the step; a
generator that fails its check in a step (R193) counts and poisons the step. A completed capture (R393) is staged and
counted. A pattern case that passes in an idle beat (R396) counts, and its unit runs no other in that beat; one that
fails (R397) poisons the step too. -/
def Obligations.VerdictsAndEvidence : Prop :=
  (∀ (v : Verdict) (s : State), v.gen = none → s.verdicts.find? (dueMatches v) = none →
    exec (.verdictArrival v) s = .next s.quiet) ∧
  (∀ (v : Verdict) (d : VerdictDue) (s : State), v.gen = none → s.verdicts.find? (dueMatches v) = some d →
    verdictFails v d = false →
    Gives (.verdictArrival v) s (fun t => t.verdicts = s.verdicts.erase d ∧ SameObj s t [oVerdictLatencyMaxNs] ∧
      t.obj oVerdictLatencyMaxNs = max (s.obj oVerdictLatencyMaxNs) (satNat 32 (s.now - d.madeAt)) ∧
      t.step = s.step ∧ t.mem = s.mem)) ∧
  (∀ (v : Verdict) (d : VerdictDue) (s : State), v.gen = none → s.verdicts.find? (dueMatches v) = some d →
    verdictFails v d = true →
    Gives (.verdictArrival v) s (fun t => t.verdicts = s.verdicts.erase d ∧
      (s.admitted = true → t.step.fault = true) ∧
      t.obj oCheckFailCount = (s.obj oCheckFailCount + 1) % 2 ^ objBits oCheckFailCount ∧
      t.obj oLastCheckFail = checkFailWord v d ∧
      (∃ r, RingRec.event r ∈ t.events ∧ r.code = Ev.checkFailed.code) ∧
      (v.kind.val ≤ 2 → v.unit.toNat < 96 →
        t.obj (oStrikes v.die v.unit.toNat) = min (s.obj (oStrikes v.die v.unit.toNat) + 1) 255))) ∧
  (∀ (v : Verdict) (g : GenFailure) (s : State), v.gen = some g →
    (s.step.running = false → exec (.verdictArrival v) s = .next s.quiet) ∧
    (s.step.running = true → Gives (.verdictArrival v) s (fun t => t.verdicts = s.verdicts ∧
      (s.admitted = true → t.step.fault = true) ∧
      t.obj oGenFaultCount = (s.obj oGenFaultCount + 1) % 2 ^ objBits oGenFaultCount))) ∧
  (∀ (e : EvidenceData) (c : Capture) (s : State), s.captures.find? (fun x => x.die == e.die.val) = some c →
    Gives (.evidenceCaptured e) s (fun t =>
      t.obj oEvidenceCount = (s.obj oEvidenceCount + 1) % 2 ^ objBits oEvidenceCount ∧
      t.blob (if e.die.val = 0 then oEvidenceStagedD0 else oEvidenceStagedD1) =
        s.evidenceHeader c e ++ e.payload.take 262144 ∧
      t.captures.all (fun x => x.die != e.die.val) = true)) ∧
  (∀ (e : EvidenceData) (s : State), s.captures.find? (fun x => x.die == e.die.val) = none →
    exec (.evidenceCaptured e) s = .next s.quiet) ∧
  (∀ (c : CaseDone) (s : State),
    let may := fun (p : Pack) (g : Program) => s.idleCases && decide (c.index.toNat < p.cases) &&
      caseUnitFree p g c.die.val c.unit.toNat && s.caseMayRun p c.die.val c.unit.toNat
    ((∀ p g, s.packs.find? (fun x => x.id == c.pack.toNat) = some p → s.program? = some g → may p g = false) →
      exec (.patternCaseDone c) s = .next s.quiet) ∧
    (∀ p g, s.packs.find? (fun x => x.id == c.pack.toNat) = some p → s.program? = some g → may p g = true →
      let u := (s.quiet.bump oIdleCasesRun).noteCase p c.die.val c.unit.toNat
      u.caseMayRun p c.die.val c.unit.toNat = false ∧
      (c.passed = true → exec (.patternCaseDone c) s = .next u) ∧
      (c.passed = false → exec (.patternCaseDone c) s = .next (u.failCase p c) ∧
        (s.admitted = true → (u.failCase p c).step.fault = true) ∧
        (u.failCase p c).obj oPackCaseFailCount =
          (s.obj oPackCaseFailCount + 1) % 2 ^ objBits oPackCaseFailCount)))

/-! ### Flows, rings and mailboxes -/

/-- WRITE (R350, R356): a whole message at a device address or region that its sender may write (Table 11-3) is put
there line by line, a snapshot's header is noted (R418), and the flow moves on; the host's that meets a marked line in
part completes with status 1 (Table 11-1). One that Table 11-3 denies changes no byte and completes with status 1; one
to no region's view with status 4; one of another step with status 5; the host's to the mailboxes takes effect in them
(R369). An unflowed WRITE does the same, or nothing where its CRC is wrong.
READ (R357): its bytes, read line by line, go back in a READ_DATA message on its flow or in one unflowed packet; none
where the read is denied or the host meets a mark. READ_DATA completes its message, one of another step with
status 5. While the memory is out of service, before its zeroing ends or with a domain of its own not on, a WRITE or READ of it has no effect (DESIGN
CHOICE: assumption 94). -/
def Obligations.ReadsAndWrites : Prop :=
  (∀ (p : Packet) (us : List Upset) (s : State), s.wholeMessage 0x01 p = true → s.memOut = false →
     let n := p.payload.length
     (∀ a, staleStep s p = false → s.target p p.addr n true = some a → s.mayPut p a = true →
       let r := ((s.counted p).strike us).store (agentOf p) a p.payload
       Gives (.writeTransaction p us) s (fun t => TookAs s t p (b2n r.2) ∧
         t.mem = (if p.space = 1 ∧ p.addr = 0 ∧ r.2 = false then r.1.noteSnapshot p.region p.src.toNat else r.1).mem)) ∧
     (∀ a, staleStep s p = false → s.target p p.addr n true = some a → s.mayPut p a = false →
       Gives (.writeTransaction p us) s (fun t => TookAs s t p 1 ∧
         (s.eventQueue = none → t.mem = (s.strike us).mem) ∧
         t.obj oDeniedCount = (s.obj oDeniedCount + 1) % 2 ^ objBits oDeniedCount)) ∧
     (staleStep s p = false → s.target p p.addr n true = none → p.space ≠ 2 →
       Gives (.writeTransaction p us) s (fun t => TookAs s t p 4 ∧ t.mem = (s.strike us).mem ∧ SameObj s t [])) ∧
     (staleStep s p = false → p.space = 2 → p.srcHost = true → p.addr + n ≤ 8192 →
       Gives (.writeTransaction p us) s (fun t =>
         TookAs s t p ((s.counted p).applyMailbox p.addr p.payload).2 ∧
         ∀ m, t.mailbox m = ((s.counted p).applyMailbox p.addr p.payload).1.mailbox m)) ∧
     (staleStep s p = true →
       Gives (.writeTransaction p us) s (fun t => TookAs s t p 5 ∧ t.mem = (s.strike us).mem ∧ SameObj s t []))) ∧
  (∀ (p : Packet) (us : List Upset) (s : State), headOk 0x01 p = true → p.noFlow = true → s.memOut = false →
     p.space ≠ 2 →
     (crc64 p.payload ≠ p.msgCrc.toNat → exec (.writeTransaction p us) s = .next (s.quiet.strike us)) ∧
     (∀ a, crc64 p.payload = p.msgCrc.toNat → staleStep s p = false →
       s.target p (p.addr + p.index.toNat * 4096) p.payload.length true = some a → s.mayPut p a = true →
       exec (.writeTransaction p us) s = .next ((s.quiet.strike us).store (agentOf p) a p.payload).1)) ∧
  (∀ (p : Packet) (us : List Upset) (a : Nat) (s : State), s.memOut = false → staleStep s p = false →
     s.target p p.addr p.readLen false = some a →
     let answer := fun (u : State) =>
       let r := (u.strike us).load (agentOf p) a p.readLen
       let bad := r.2.denied || (r.2.wasMarked && p.srcHost)
       (r.1.answerRead p (if bad then [] else r.2.data), bad)
     (s.wholeMessage 0x02 p = true → Gives (.readTransaction p us) s (fun t =>
       TookAs s t p (b2n (answer (s.counted p)).2) ∧ t.mem = (answer (s.counted p)).1.mem ∧
       (answer (s.counted p)).1.router <+: t.router ∧
       (t.flow p.flow.toNat).txMsg = ((s.flow p.flow.toNat).txMsg + 1) % 2 ^ 32)) ∧
     (headOk 0x02 p = true → p.noFlow = true →
       exec (.readTransaction p us) s = .next (answer s.quiet).1) ∧
     (s.accessOk (agentOf p) false a p.readLen = true → s.mem.poison = [] → s.mem.errors = [] →
       s.load (agentOf p) a p.readLen = (s, ⟨(linesOf a p.readLen).foldl
         (fun acc l => acc ++ memRead s.mem.bytes (s.physAddr l.1) l.2) [], false, false⟩))) ∧
  (∀ (p : Packet) (s : State), s.wholeMessage 0x03 p = true →
     Gives (.readData p) s (fun t => TookAs s t p (if staleStep s p then 5 else 0) ∧ t.mem = s.mem ∧ SameObj s t [])) ∧
  (∀ (p : Packet) (us : List Upset) (s : State), s.memOut = true → p.space ≠ 2 →
     (headOk 0x01 p = true → exec (.writeTransaction p us) s = .next (s.quiet.strike us)) ∧
     (headOk 0x02 p = true → exec (.readTransaction p us) s = .next (s.quiet.strike us)))

/-- TALLY_ADD, MAXIDX and MINIDX (R358): the contributions of a packet go to the granary units in element order, the
message complete with status OK where their window is owned here and the step is the current one, with status 4 or 5
elsewhere; those of a TALLY_ADD of no form are discarded. -/
def Obligations.ContributionPackets : Prop :=
  ∀ (p : Packet) (s : State),
    let st := if (s.ownWindow p.window).isNone then 4 else if staleStep s p then 5 else 0
    (s.wholeMessage 0x04 p = true → p.form ≤ 2 → Gives (.tallyAdd p) s (fun t => TookAs s t p st ∧
      t.contribs = s.contribs ++ packetContribs s.bell.beat 0x04 p ∧ t.mem = s.mem ∧ SameObj s t [])) ∧
    (s.wholeMessage 0x04 p = true → 2 < p.form → Gives (.tallyAdd p) s (fun t => TookAs s t p 4 ∧
      t.contribs = s.contribs ∧ t.mem = s.mem ∧ SameObj s t [])) ∧
    (s.wholeMessage 0x05 p = true → Gives (.maxidx p) s (fun t => TookAs s t p st ∧
      t.contribs = s.contribs ++ packetContribs s.bell.beat 0x05 p ∧ t.mem = s.mem ∧ SameObj s t [])) ∧
    (s.wholeMessage 0x06 p = true → Gives (.minidx p) s (fun t => TookAs s t p st ∧
      t.contribs = s.contribs ++ packetContribs s.bell.beat 0x06 p ∧ t.mem = s.mem ∧ SameObj s t []))

/-- MESSAGE (R359) with room in its INBOX appends its entries and the producer index moves on; without room it
completes with status 2 and counts in QUEUE_FULL_COUNT, without an INBOX with status 4, of another step with status 5,
and no ring moves. DOORBELL (R360) waits on its flow and, once every earlier message is complete, moves its ring's
index or is discarded with DOORBELL_INVALID (R364). -/
def Obligations.MessagesAndDoorbells : Prop :=
  (∀ (p : Packet) (s : State), s.wholeMessage 0x07 p = true →
    (∀ q, staleStep s p = false → s.queue? p.window = some q → q.kind = 3 →
      (messageRoom p ≤ (s.counted p).inboxRoom q → Gives (.message p) s (fun t => TookAs s t p 0 ∧ SameObj s t [] ∧
        t.mem = (s.appendInbox q p.payload).mem ∧ (∀ n, t.ring n = (s.appendInbox q p.payload).ring n) ∧
        (64 ≤ p.payload.length →
          (t.ring q.num).pi = ((s.ring q.num).pi + p.payload.length / 64) % 2 ^ 32 ∧
          (t.ring q.num).ci = (s.ring q.num).ci))) ∧
      ((s.counted p).inboxRoom q < messageRoom p → Gives (.message p) s (fun t => TookAs s t p 2 ∧
        SameObj s t [oQueueFullCount] ∧ t.mem = s.mem ∧ t.rings = s.rings ∧
        t.obj oQueueFullCount = (s.obj oQueueFullCount + 1) % 2 ^ objBits oQueueFullCount))) ∧
    (staleStep s p = false → (s.queue? p.window).all (fun q => q.kind != 3) = true → Gives (.message p) s (fun t =>
      TookAs s t p 4 ∧ SameObj s t [] ∧ t.mem = s.mem ∧ t.rings = s.rings)) ∧
    (staleStep s p = true → Gives (.message p) s (fun t =>
      TookAs s t p 5 ∧ SameObj s t [] ∧ t.mem = s.mem ∧ t.rings = s.rings))) ∧
  (∀ (p : Packet) (s : State), s.wholeMessage 0x08 p = true →
    Gives (.doorbell p) s (fun t => TookAs s t p (if staleStep s p then 5 else 0) ∧ t.mem = s.mem ∧ SameObj s t [] ∧
      (t.flow p.flow.toNat).bells = (if staleStep s p then (s.flow p.flow.toNat).bells
        else (s.flow p.flow.toNat).bells ++ [⟨p.msgId.toNat, p.field 40 2, p.field 42 4⟩]))) ∧
  (∀ (flow : BitVec 12) (s : State),
    let first := (s.flow flow.toNat).bells.find? (fun b => earlierDone (s.flow flow.toNat) b.msg)
    (∀ b r, first = some b →
      (s.queue? b.queue).bind (fun q => doorbellIndex q (s.ring b.queue) b.index) = some r →
      Gives (.doorbellApply flow) s (fun t => t.ring b.queue = r ∧ (∀ n, n ≠ b.queue → t.ring n = s.ring n) ∧
        (t.flow flow.toNat).bells = (s.flow flow.toNat).bells.filter (fun x => x.msg != b.msg) ∧
        SameObj s t [] ∧ t.mem = s.mem)) ∧
    (∀ b, first = some b →
      (s.queue? b.queue).bind (fun q => doorbellIndex q (s.ring b.queue) b.index) = none →
      Gives (.doorbellApply flow) s (fun t => t.obj oLastDoorbellInvalid = b.queue + b.index * 65536 ∧
        t.obj oDoorbellInvalidCount = (s.obj oDoorbellInvalidCount + 1) % 2 ^ objBits oDoorbellInvalidCount ∧
        (t.flow flow.toNat).bells = (s.flow flow.toNat).bells.filter (fun x => x.msg != b.msg) ∧
        SameObj s t ([oDoorbellInvalidCount, oLastDoorbellInvalid] ++ eventKeys))) ∧
    (first = none → exec (.doorbellApply flow) s = .next s.quiet))

/-- Acknowledgements (R351, R352): an ACK of the flow's peer takes the packets that it covers off its flow; one that
reports a failed CRC raises FLOW_CRC_FAIL here too (R355) and poisons the step; another ACK is discarded and counted.
The ACK timer sends one when it is due. An RTO sends its packet again, and after the eighth resend the flow is FAILED,
which ends an admitted plan (R413). -/
def Obligations.AcksAndTimeouts : Prop :=
  (∀ (p : Packet) (s : State),
    let f := s.flow p.flow.toNat
    let g := f.unacked.filter (fun x => !acked (p.field 32 3) (p.field 48 8 + p.msgCrc.toNat * 2 ^ 64) x.psn)
    let good := headOk 0x0A p && !p.noFlow &&
      (match s.activePlan with | some q => q.id % 256 == p.epoch.toNat | none => false) && f.state == 1 &&
      (if f.host then p.srcHost else !p.srcHost && f.peer == p.src.toNat)
    (good = false → exec (.ack p) s = .next s.quiet.badHead) ∧
    (good = true → Gives (.ack p) s (fun t => g <+: (t.flow p.flow.toNat).unacked) ∧
      (f.waiting = [] → p.field 40 1 = 0 → s.step.snap = none → s.shards = [] →
        Gives (.ack p) s (fun t => SameObj s t [] ∧ t.mem = s.mem ∧ (t.flow p.flow.toNat).unacked = g)) ∧
      (p.field 40 1 = 3 → (f.openMsgs.find? (fun o => o.id == p.field 36 4)).isSome = true →
        Gives (.ack p) s (fun t => t.step.fault = true ∧
          t.obj oCrcFailCount = (s.obj oCrcFailCount + 1) % 2 ^ objBits oCrcFailCount)))) ∧
  (∀ (flow : BitVec 12) (s : State),
    (∀ d, (s.flow flow.toNat).ackDue = some d →
      Gives (.ackTimer flow) s (fun t => d ≤ t.now ∧ (t.flow flow.toNat).ackDue = none ∧
        (t.flow flow.toNat).sinceAck = 0 ∧ t.router.length = s.router.length + 1 ∧ t.od = s.od ∧ t.mem = s.mem)) ∧
    ((s.flow flow.toNat).ackDue = none → exec (.ackTimer flow) s = .next s.quiet)) ∧
  (∀ (flow : BitVec 12) (psn : BitVec 24) (s : State),
    let f := s.flow flow.toNat
    let named := f.unacked.find? (fun y => y.psn == psn.toNat)
    (∀ x, f.state = 1 → named = some x → x.resends < 8 →
      Gives (.rtoExpiry flow psn) s (fun t => (t.flow flow.toNat).state = 1 ∧
        x.sentAt + s.obj oRtoBaseUs * 1000 * 2 ^ x.resends ≤ t.now ∧
        t.router.map (fun r => r.data) = s.router.map (fun r => r.data) ++ [readdress s f x.bytes] ∧
        ((t.flow flow.toNat).unacked.find? (fun y => y.psn == psn.toNat)).map (fun y => y.resends) =
          some (x.resends + 1) ∧
        SameObj s t [oResends] ∧ t.mem = s.mem)) ∧
    (∀ x, f.state = 1 → named = some x → 8 ≤ x.resends →
      Gives (.rtoExpiry flow psn) s (fun t =>
        t.obj oFlowFailedCount = (s.obj oFlowFailedCount + 1) % 2 ^ 32 ∧
        (s.admitted = false → (t.flow flow.toNat).state = 2 ∧
          SameObj s t ([oFlowsOpen, oFlowFailedCount] ++ eventKeys)) ∧
        (s.admitted = true → t.planState = 1))) ∧
    (f.state ≠ 1 ∨ named = none → exec (.rtoExpiry flow psn) s = .next s.quiet))

/-- Mailboxes (R370, Table 14-10): GO with LENGTH 8 to 16 fills an empty mailbox, with a record for the host on
mailboxes 4 to 7 (R371), and with another LENGTH changes nothing; the receiver's clearing empties it; one not emptied
in time is withdrawn and MAILBOX_TIMEOUT is raised. Its sender gets a record on mailboxes 0 to 3, an interrupt on the
others. -/
def Obligations.MailboxCommands : Prop :=
  (∀ (m : Mailbox) (regs : List W64) (len : BitVec 5) (tag : W16) (s : State),
    ((s.mailbox m.val).full = false → 8 ≤ len.toNat → len.toNat ≤ 16 →
      Gives (.mailboxGo m regs len tag) s (fun t => t.mailbox m.val =
          ⟨(regs.map BitVec.toNat ++ List.replicate 16 0).take 16, true, len.toNat, tag.toNat, false, s.now⟩ ∧
        (∀ n, n ≠ m.val → t.mailbox n = s.mailbox n) ∧ bit (t.obj oMbStates) m.val = true ∧
        SameObj s t (oMbStates :: eventKeys) ∧
        (4 ≤ m.val → m.val ≤ 7 → RingRec.mailbox m.val (3 + tag.toNat * 256) ∈ t.events))) ∧
    ((s.mailbox m.val).full = true ∨ len.toNat < 8 ∨ 16 < len.toNat →
      exec (.mailboxGo m regs len tag) s = .next s.quiet)) ∧
  (∀ (m : Mailbox) (s : State),
    ((s.mailbox m.val).full = true →
      Gives (.mailboxClear m) s (fun t => t.mailbox m.val = { s.mailbox m.val with full := false } ∧
        (∀ n, n ≠ m.val → t.mailbox n = s.mailbox n) ∧ bit (t.obj oMbStates) m.val = false ∧
        SameObj s t (oMbStates :: eventKeys) ∧
        (4 ≤ m.val → t.out = [.mailboxInterrupt m.val false]) ∧
        (m.val < 4 → RingRec.mailbox m.val (1 + (s.mailbox m.val).tag * 256) ∈ t.events)) ∧
      Gives (.mailboxTimeout m) s (fun t =>
        t.mailbox m.val = { s.mailbox m.val with full := false, timedOut := true } ∧
        (∀ n, n ≠ m.val → t.mailbox n = s.mailbox n) ∧ bit (t.obj oMbStates) m.val = false ∧
        (s.mailbox m.val).goAt + s.obj oMbTimeoutMs * 1000000 ≤ t.now ∧
        t.obj oMbTimeoutCount = (s.obj oMbTimeoutCount + 1) % 2 ^ 32 ∧
        SameObj s t ([oMbStates, oMbTimeoutCount] ++ eventKeys) ∧
        (4 ≤ m.val → t.out = [.mailboxInterrupt m.val true]) ∧
        (m.val < 4 → RingRec.mailbox m.val (2 + (s.mailbox m.val).tag * 256) ∈ t.events))) ∧
    ((s.mailbox m.val).full = false →
      exec (.mailboxClear m) s = .next s.quiet ∧ exec (.mailboxTimeout m) s = .next s.quiet))

/-! ### Granaries and update engines -/

/-- A contribution at its granary unit (R220 to R225): one of an earlier step only counts in STALE_COUNT; one for a
chunk already complete is late (R25) and one that Table 09-4 lists a stray, both counted and a fault of the step; every
other of the step in progress counts in its chunk, which is complete when its counts say so: a SUM value enters its
element's tally and residue, a spilled one in DRAM (R230), a MAXIDX or MINIDX pair its element's winner, a marker adds
its total; a value beyond MAX_PER_CHUNK is not processed (R12).
CHUNK_OUTPUT_DONE (R227, R236): the outputs of a complete chunk are written or delivered, its slots empty and its
verdict due; the last of a window that feeds no shard completes it. -/
def Obligations.GranaryWork : Prop :=
  (∀ (die : Die) (unit : GranUnit) (s : State),
     let u := die.val * 16 + unit.val
     let at? := s.contribs.findIdx? (fun c => s.unitFor c == u)
     (at? = none → exec (.granaryContribution die unit) s = .next s.quiet) ∧
     (∀ i c, at? = some i → s.contribs[i]? = some c →
       let base : State := { s.quiet with contribs := s.contribs.eraseIdx i }
       let strays := fun (r : Nat) => Gives (.granaryContribution die unit) s (fun t => t.contribs = base.contribs ∧
         t.obj oStrayCount = (s.obj oStrayCount + 1) % 2 ^ objBits oStrayCount ∧
         t.obj oLastStray = r + c.window * 2 ^ 8 + (c.source % 2 ^ 14) * 2 ^ 24 ∧
         (s.admitted = true → t.step.fault = true) ∧ t.windows = s.windows)
       (s.ownWindow c.window = none → strays 0x01) ∧
       (∀ w, s.ownWindow c.window = some w →
         let st := s.win w.num
         let ch := st.chunk c.chunk
         let late := c.step = st.step ∧ c.attempt = st.attempt ∧ (st.state = 3 ∨ (st.state = 2 ∧ ch.complete = true))
         let stale := earlier c.step c.attempt st.step st.attempt
         let enters := ¬ late ∧ stale = false ∧ strayReason w st c = 0
         (stale = true → exec (.granaryContribution die unit) s = .next (base.bump oStaleCount)) ∧
         (stale = false → late → Gives (.granaryContribution die unit) s (fun t => t.contribs = base.contribs ∧
           t.obj oLateCount = (s.obj oLateCount + 1) % 2 ^ objBits oLateCount ∧
           (s.admitted = true → t.step.fault = true) ∧ t.windows = s.windows)) ∧
         (stale = false → ¬ late → strayReason w st c ≠ 0 → strays (strayReason w st c)) ∧
         (enters → beyondBound w st c = true → Gives (.granaryContribution die unit) s (fun t =>
           t.contribs = base.contribs ∧ t.windows = s.windows ∧ (s.admitted = true → t.step.fault = true))) ∧
         (enters → c.form = 2 → Gives (.granaryContribution die unit) s (fun t => t.contribs = base.contribs ∧
           let dh := (t.win w.num).chunk c.chunk
           dh.markers = ch.markers + 1 ∧ dh.total = ch.total + c.aux ∧ dh.count = ch.count ∧
           dh.complete = w.isComplete c.chunk dh ∧ dh.tallies = ch.tallies)) ∧
         (enters → c.form ≠ 2 → beyondBound w st c = false →
           let old := base.elementTally w ch c.element
           let x := sumEntry old.1 w old.2 c
           Gives (.granaryContribution die unit) s (fun t => t.contribs = base.contribs ∧
             let dh := (t.win w.num).chunk c.chunk
             (t.win w.num).accepted = st.accepted + 1 ∧ dh.count = ch.count + 1 ∧
             dh.complete = w.isComplete c.chunk dh ∧ (∀ n, n ≠ w.num → t.win n = s.win n) ∧
             (w.sumMode = 0 → w.spill = false → Bank.get dh.tallies Tally.zero c.element = x.tally ∧ t.mem = s.mem ∧
               dh.rho = addRes ch.rho (addRes (termRho w c) x.kappa)) ∧
             (w.sumMode = 0 → w.spill = true → c.element ∈ dh.inDram ∧
               t.mem = (old.1.storeBy .granary (w.spillAddr + 32 * c.element)
                 (tallyBytes x.tally.t ++ natLe 8 x.tally.word)).mem) ∧
             (w.sumMode ≠ 0 → t.mem = s.mem ∧ Bank.get dh.winners none c.element =
               betterPair (w.sumMode == 2) (Bank.get ch.winners none c.element) (c.value, c.aux)) ∧
             (w.spill = false → SameObj s t [oUnitAdds u])))))) ∧
  (∀ (window : W16) (c : ChunkOut) (s : State),
     let due := fun (w : Window) => (s.win w.num).state = 2 ∧ c.chunk.toNat < w.chunkCount ∧
       ((s.win w.num).chunk c.chunk.toNat).complete = true ∧ ((s.win w.num).chunk c.chunk.toNat).delivered = false
     ((∀ w, s.ownWindow window.toNat = some w → ¬ due w) → exec (.chunkOutputDone window c) s = .next s.quiet) ∧
     (∀ w, s.ownWindow window.toNat = some w → due w →
       let unit := (w.die % 2) * 16 + w.unitOf c.chunk.toNat
       let o := s.quiet.outChunk w unit c.chunk.toNat c.errors
       let open_ := w.outAction = 1 ∧ s.feedsShard w.num = true
       Gives (.chunkOutputDone window c) s (fun t =>
         let ch := (t.win w.num).chunk c.chunk.toNat
         ch.delivered = true ∧ ch.tallies = [] ∧ ch.winners = [] ∧ ch.inDram = [] ∧ t.delivered = o.1.delivered ∧
         t.verdicts = s.verdicts ++ [⟨3, w.die % 2, w.unitOf c.chunk.toNat, s.obj oStepNow, s.step.attempt, s.now,
           w.raw, w.num, ⟨[((s.win w.num).chunk c.chunk.toNat).rho], [o.2], []⟩⟩] ∧
         (open_ ∨ windowFinished w (t.win w.num) = false → (t.win w.num).state = 2 ∧ t.mem = o.1.mem) ∧
         (¬ open_ → windowFinished w (t.win w.num) = true → (t.win w.num).state = 3))))

/-- UPDATE_CHUNK (R237, R253, R256): the engine takes the first chunk delivered to it. A MATRIX shard keeps its
gradients until all have come; another shard's elements, or the rows that a TOUCHED chunk completes, are updated at
once and the verdict is due; after the last chunk its gathers go out, and it is DONE once they are acknowledged.
SHARD_PHASE_DONE (R243, R244): pass 1 leads to the first iteration; its phases follow one another; after the last
the iteration counts, and NS_K of them lead to pass 2, which updates every element. -/
def Obligations.UpdateWork : Prop :=
  (∀ (die : Die) (unit : UpdUnit) (s : State),
     let mine := fun (d : Delivered) => match s.job? d.window with
       | some j => j.w.die % 2 == die.val && j.sh.unit % 2 == unit.val
       | none => false
     (s.delivered.findIdx? mine = none → exec (.updateChunk die unit) s = .next s.quiet) ∧
     (∀ i d j, s.delivered.findIdx? mine = some i → s.delivered[i]? = some d → s.job? d.window = some j →
       let base : State := { s.quiet with delivered := s.delivered.eraseIdx i }
       let x := s.shard j.w.num
       let y : ShardSt := { x with taken := insertSorted d.chunk x.taken }
       let last := decide (j.w.chunkCount ≤ y.taken.length)
       (x.state ≠ 1 → x.state ≠ 2 → exec (.updateChunk die unit) s = .next base) ∧
       (x.state = 1 ∨ x.state = 2 → j.g.shape = 3 → Gives (.updateChunk die unit) s (fun t =>
         t.delivered = base.delivered ∧ (t.shard j.w.num).taken = y.taken ∧ t.mem = s.mem ∧ SameObj s t [] ∧
         (∀ n v, d.values[n]? = some v → Bank.get (t.shard j.w.num).grads 0 (1024 * d.chunk + n) = v) ∧
         (t.shard j.w.num).state = (if last then 2 else 1))) ∧
       (x.state = 1 ∨ x.state = 2 → j.g.shape ≠ 3 →
         let u := if j.g.touched then (base.setShard j.w.num { y.keep d.chunk d.values with state := 2 }).updRows j d.chunk
           else (base.setShard j.w.num { y with state := 2 }).updRun j (s.groupCount j.g.num) (1024 * d.chunk)
             (d.values.map (fun g => (g, 0)))
         Gives (.updateChunk die unit) s (fun t => t.delivered = base.delivered ∧
           (t.shard j.w.num).taken = y.taken ∧ t.verdicts = s.verdicts ++
             [⟨4, j.w.die % 2, j.sh.unit % 2, s.obj oStepNow, s.step.attempt, s.now, j.sh.bytes, j.w.num, Checks.none⟩] ∧
           (last = false → (t.shard j.w.num).state = 2 ∧ t.mem = u.mem) ∧
           (last = true → t = (u.expectUpdate j).shardWritten j ∧
             (t.shard j.w.num).state = (if t.gatherPending j.w.num then 5 else 6)))))) ∧
  (∀ (window : W16) (s : State),
     ((s.job? window.toNat).all (fun j => j.g.shape != 3 || [2, 3, 4].contains (s.shard j.w.num).state == false) = true →
       exec (.shardPhaseDone window) s = .next s.quiet) ∧
     (∀ j, s.job? window.toNat = some j → j.g.shape = 3 →
       let x := s.shard j.w.num
       let next := fun (st it ph : Nat) => Gives (.shardPhaseDone window) s (fun t => (t.shard j.w.num).state = st ∧
         (t.shard j.w.num).iteration = it ∧ (t.shard j.w.num).phase = ph ∧ (t.shard j.w.num).grads = x.grads)
       (x.state = 2 → next 3 0 0) ∧
       (x.state = 3 → x.phase < 3 → next 3 x.iteration (x.phase + 1)) ∧
       (x.state = 3 → 3 ≤ x.phase → next (if j.g.iterations ≤ x.iteration + 1 then 4 else 3) (x.iteration + 1) 0) ∧
       (x.state = 4 → Gives (.shardPhaseDone window) s (fun t =>
         (t.shard j.w.num).state = (if t.gatherPending j.w.num then 5 else 6) ∧
         (s.verdicts.length + 1 = t.verdicts.length)))))

/-! ### Router and data links -/

/-- PACKET_ROUTE (R335, R338, R373): the first packet that can leave its input leaves it and frees its buffer: delivered
here, dropped, counted as misrouted or unroutable, moved over the bridge port to the other die's router, or its flits
queued on the data link chosen; with none, nothing changes.
ESCAPE_TIMEOUT (R339): the first packet that waits and has an ESCAPE port moves to ESCAPE, 2,048 cycles (1,024 ns) after
it began to wait, and is counted there. -/
def Obligations.PacketsRouted : Prop :=
  (∀ (r : Routed) (s : State), s.router.find? (fun x => s.fate x != .wait) = some r →
     let leaves := fun (P : State → Prop) => Gives .packetRoute s (fun t => t.mem = s.mem ∧
       (∀ k, r.src = some k → r.crossed = false →
         Bank.get (t.rxLink k).freed 0 r.vc = Bank.get (s.rxLink k).freed 0 r.vc + flitCount r.data) ∧ P t)
     (s.fate r = .deliver → leaves (fun t => t.out = [.delivered r.data] ∧ t.router = s.router.erase r ∧
       SameObj s t [oHostPackets])) ∧
     (s.fate r = .drop → leaves (fun t => t.out = [] ∧ t.router = s.router.erase r ∧ SameObj s t [])) ∧
     (s.fate r = .misrouted → leaves (fun t => t.router = s.router.erase r ∧
       t.obj oHostMisrouted = (s.obj oHostMisrouted + 1) % 2 ^ 32 ∧ SameObj s t [oHostMisrouted])) ∧
     (s.fate r = .unroutable → Gives .packetRoute s (fun t => t.router = s.router.erase r ∧
       t.obj oRtUnroutable = (s.obj oRtUnroutable + 1) % 2 ^ 32 ∧ SameObj s t (oRtUnroutable :: eventKeys))) ∧
     (s.fate r = .cross → leaves (fun t =>
       t.router = s.router.erase r ++ [{ r with die := 1 - r.die, crossed := true, since := s.now }] ∧
       SameObj s t [])) ∧
     (∀ k vc, s.fate r = .send k vc → leaves (fun t => t.router = s.router.erase r ∧
       (t.txLink k).queue = (s.txLink k).queue ++ flitsOf vc r.data ∧ (∀ j, j ≠ k → t.txLink j = s.txLink j) ∧
       SameObj s t [oHostPackets]))) ∧
  (∀ s : State, s.router.all (fun x => s.fate x == .wait) = true → exec .packetRoute s = .next s.quiet) ∧
  (∀ s : State,
     let first := s.router.find? (fun r => !r.escape && s.fate r == .wait && (s.escapePort (pkDst r.data)).isSome)
     (first = none → exec .escapeTimeout s = .next s.quiet) ∧
     (∀ r p, first = some r → s.escapePort (pkDst r.data) = some p →
       Gives .escapeTimeout s (fun t => r.since + 1024 ≤ t.now ∧
         t.router = s.router.map (fun x => if x = r then { r with escape := true } else x) ∧
         t.obj (oRtEscapePackets p) = (s.obj (oRtEscapePackets p) + 1) % 2 ^ objBits (oRtEscapePackets p) ∧
         SameObj s t [oRtEscapePackets p] ∧ t.mem = s.mem)))

/-- GROUP_SEND (R316, R318, R319): a data link sends its next group striped over the lanes announced for it, the trailer
announcing the lanes in use: with no flit that the replay share and the credits allow an idle group that takes no SEQ,
else the flits as its next SEQ, kept for replay; after a NAK the groups again in order.
GROUP_RECEIVE (R316 to R318): a group put together from the right lanes, with its CRC and no VC 4 or 6, of the SEQ
expected is taken, flit by flit, and the next one expected; an idle one only announces its mask; one that is bad or out
of order is refused with a NAK and the SEQ expected stands; while a NAK stands every group is discarded. A group striped
otherwise than the receiver decodes it counts as bad (DEDUCED, assumption 97). -/
def Obligations.FlitGroups : Prop :=
  (∀ (port : Port) (lane : Lane) (s : State),
     ((s.linkKey port.val false lane.val).all (fun k => s.lanesInUse k false == 0) = true →
       exec (.groupSend port lane) s = .next s.quiet) ∧
     (∀ k, s.linkKey port.val false lane.val = some k → s.lanesInUse k false ≠ 0 →
       let x := s.txLink k
       let n := laneCount (s.linkLanes k false)
       let y : TxLink := { x with resend := none, fullSince := none, stallSince := none }
       let taken := takeFlits n 16 x.queue y []
       let lanes := s.lanesInUse k false
       let again := x.resend.bind (fun q => x.groups.find? (fun g => g.seq == q))
       let sends := fun (seq : Nat) (idle : Bool) (fs : List Flit) (P : State → Prop) =>
         Gives (.groupSend port lane) s (fun t =>
           let mask := if x.mask = 0 then lanes else x.mask
           t.out = [.group port.val mask (stripe mask ((fillGroup fs).map (fun f => f.data) ++
             [trailerBytes seq idle lanes (fillGroup fs) ((s.reverseKey k false).map s.rxLink)]))] ∧
           (t.txLink k).mask = lanes ∧ (∀ j, j ≠ k → t.txLink j = s.txLink j) ∧ t.mem = s.mem ∧ P t)
       (again = none → 62 * n ≤ x.groups.length → sends x.seq true [] (fun t => (t.txLink k).seq = x.seq ∧
         (t.txLink k).groups = x.groups ∧ (t.txLink k).queue = x.queue)) ∧
       (again = none → x.groups.length < 62 * n → taken.1 = [] → sends x.seq true [] (fun t =>
         (t.txLink k).seq = x.seq ∧ (t.txLink k).groups = x.groups ∧ (t.txLink k).queue = taken.2.queue)) ∧
       (again = none → x.groups.length < 62 * n → taken.1 ≠ [] → sends x.seq false taken.1 (fun t =>
         (t.txLink k).seq = (x.seq + 1) % 4096 ∧ (t.txLink k).groups = x.groups ++ [⟨x.seq, taken.1⟩] ∧
         (t.txLink k).queue = taken.2.queue)) ∧
       (∀ g, again = some g → sends g.seq false g.flits (fun t => x.resendAt ≤ t.now ∧
         (t.txLink k).groups = x.groups ∧ (t.txLink k).seq = x.seq ∧
         (t.txLink k).resend = (if (g.seq + 1) % 4096 = x.seq then none else some ((g.seq + 1) % 4096)))))) ∧
  (∀ (g : GroupIn) (s : State),
     ((s.linkKey g.port.val true g.lane.val).all (fun k => s.lanesInUse k true == 0) = true →
       exec (.groupReceive g) s = .next s.quiet) ∧
     (∀ k, s.linkKey g.port.val true g.lane.val = some k → s.lanesInUse k true ≠ 0 →
       let u := (g.codewords.foldl (fun (s : State) c => s.takeCodeword g.port.val c) s.quiet).countGroup g.port.val true
       let good := g.crcOk && g.mask.toNat == u.rxMask k && g.flits.all (fun f => f.vc.val != 4 && f.vc.val != 6)
       let x := s.rxLink k
       let w := match u.reverseKey k true with
         | some j => u.takeReturn j (g.ackSeq.map BitVec.toNat) (g.credits.map BitVec.toNat)
         | none => u
       (good = true → x.nak = none → g.seq.toNat = x.expect → g.idle = false →
         exec (.groupReceive g) s = .next (g.flits.foldl (fun (s : State) f => s.takeFlit k f)
           (w.setRxLink k { x with expect := (x.expect + 1) % 4096, any := true, fails := 0, blame := 0,
                                   mask := g.nextMask.toNat })) ∧
         Gives (.groupReceive g) s (fun t => (t.rxLink k).expect = (x.expect + 1) % 4096 ∧ (t.rxLink k).nak = none ∧
           (t.rxLink k).any = true ∧ (t.rxLink k).mask = g.nextMask.toNat)) ∧
       (good = true → x.nak = none → g.seq.toNat = x.expect → g.idle = true →
         exec (.groupReceive g) s = .next (w.setRxLink k { x with mask := g.nextMask.toNat })) ∧
       (good = false ∨ g.seq.toNat ≠ x.expect → x.nak = none →
         Gives (.groupReceive g) s (fun t => (t.rxLink k).expect = x.expect ∧ (t.rxLink k).nak = some t.now ∧
           t.router = s.router)) ∧
       (x.nak ≠ none → Gives (.groupReceive g) s (fun t => (t.rxLink k).expect = x.expect ∧ (t.rxLink k).nak = x.nak ∧
         (t.rxLink k).mask = x.mask ∧ t.router = s.router))))

/-- NAK, REPLAY and RETURN (R318, R326): a NAK of a link that starts here is answered with REPLAY and sets it to resend
from its SEQ, 128 ns later at the earliest; the receiver repeats its NAK every 2 µs until the REPLAY of the SEQ it
expects; a RETURN frees the groups acknowledged and the flits counted; the receiver sends one while its reverse
direction has no lane in use. Another module's frames are relayed along their circuit. -/
def Obligations.ReplayFrames : Prop :=
  (∀ (port : Port) (l : LinkName) (s : State),
    let here := l.place.toNat = s.place ∧ l.port.toNat < 24
    let key := s.linkKey l.port.toNat false l.lane.val
    (∀ (seq : BitVec 12) k, here → key = some k →
      Gives (.nakFrame port l seq) s (fun t => (t.txLink k).resend = some seq.toNat ∧
        (t.txLink k).resendAt = s.now + 128 ∧ (t.txLink k).groups = (s.txLink k).groups ∧
        (∀ j, j ≠ k → t.txLink j = s.txLink j) ∧ SameObj s t (oReplays (k / 8) :: eventKeys) ∧
        (s.canSend (k / 8) = true → t.out = [.frame (k / 8) (frameBytes 0x05 none
          (linkBytes l ++ natLe 2 seq.toNat ++ natLe 1 (s.lanesInUse k false)))]))) ∧
    (∀ seq : BitVec 12, ¬ here →
      exec (.nakFrame port l seq) s = .next (s.quiet.relay l true 0x04 (natLe 2 seq.toNat))) ∧
    (∀ (a : Option (BitVec 12)) (cs : List (BitVec 12)) k, here → key = some k →
      Gives (.returnFrame port l a cs) s (fun t =>
        (t.txLink k).groups = (match a with
          | some a => (s.txLink k).groups.filter (fun g => decide (2048 ≤ (a.toNat + 4096 - g.seq) % 4096))
          | none => (s.txLink k).groups) ∧
        (∀ e ∈ dataVcs.zip cs, Bank.get (t.txLink k).freed 0 e.1 % 4096 = e.2.toNat ∧
          Bank.get (s.txLink k).freed 0 e.1 ≤ Bank.get (t.txLink k).freed 0 e.1) ∧
        (t.txLink k).queue = (s.txLink k).queue ∧ (∀ j, j ≠ k → t.txLink j = s.txLink j) ∧ t.od = s.od ∧
        t.mem = s.mem)) ∧
    (∀ (a : Option (BitVec 12)) (cs : List (BitVec 12)), ¬ here → exec (.returnFrame port l a cs) s =
      .next (s.quiet.relay l true 0x0A (returnRest (a.map (fun a => a.toNat)) (cs.map (fun c => c.toNat))))) ∧
    (∀ (seq : BitVec 12) (a : Option (BitVec 12)) (cs : List (BitVec 12)), here → key = none →
      exec (.nakFrame port l seq) s = .next s.quiet ∧ exec (.returnFrame port l a cs) s = .next s.quiet)) ∧
  (∀ (port : Port) (lane : Lane) (s : State),
    (∀ k n, s.linkKey port.val true lane.val = some k → (s.rxLink k).nak = some n →
      Gives (.nakRepeat port lane) s (fun t => n + 2000 ≤ t.now ∧ (t.rxLink k).nak = some t.now ∧
        (t.rxLink k).expect = (s.rxLink k).expect ∧ t.od = s.od ∧ t.mem = s.mem ∧
        (s.canSend (k / 8) = true → t.out = [.frame (k / 8) (frameBytes 0x04 none
          (linkBytes (s.rxName k) ++ natLe 2 (s.rxLink k).expect))]))) ∧
    ((s.linkKey port.val true lane.val).all (fun k => (s.rxLink k).nak.isNone) = true →
      exec (.nakRepeat port lane) s = .next s.quiet) ∧
    (∀ k, s.linkKey port.val true lane.val = some k →
      (s.reverseKey k true).all (fun j => s.lanesInUse j false == 0) = true → s.canSend (k / 8) = true →
      Gives (.returnSend port lane) s (fun t => t.od = s.od ∧ t.mem = s.mem ∧ t.rxLinks = s.rxLinks ∧
        t.out = [.frame (k / 8) (frameBytes 0x0A none (linkBytes (s.rxName k) ++
          returnRest (if (s.rxLink k).any then some (((s.rxLink k).expect + 4095) % 4096) else none)
            (dataVcs.map (fun v => Bank.get (s.rxLink k).freed 0 v))))])) ∧
    ((s.linkKey port.val true lane.val).all (fun k => !(s.reverseKey k true).all (fun j => s.lanesInUse j false == 0) ||
        !s.canSend (k / 8)) = true →
      exec (.returnSend port lane) s = .next s.quiet)) ∧
  (∀ (port : Port) (l : LinkName) (seq : BitVec 12) (mask : Byte) (s : State),
    let mine := fun (k : Nat) => s.linkKey port.val true l.lane.val = some k ∧ (s.rxName k).place = l.place ∧
      (s.rxName k).port = l.port
    (∀ k, mine k → seq.toNat = (s.rxLink k).expect →
      Gives (.replayFrame port l seq mask) s (fun t => (t.rxLink k).nak = none ∧ (t.rxLink k).mask = mask.toNat ∧
        (∀ j, j ≠ k → t.rxLink j = s.rxLink j) ∧ t.od = s.od ∧ t.mem = s.mem)) ∧
    (∀ k, mine k → seq.toNat ≠ (s.rxLink k).expect → exec (.replayFrame port l seq mask) s = .next s.quiet) ∧
    ((∀ k, ¬ mine k) → exec (.replayFrame port l seq mask) s =
      .next (s.quiet.relay l false 0x05 (natLe 2 seq.toNat ++ natLe 1 mask.toNat))))

/-! ### Lane C -/

/-- HELLO (R327 to R329): a port's hello goes out while its lane C can send, with its CRC; a valid one received is shown
and its class voted, the third in a row that agrees deciding it; one with a place number out of range is counted; one
that no lane C brought has no effect. None for 3 ms gives NO_PEER. -/
def Obligations.Hellos : Prop :=
  (∀ (p : Port) (s : State),
    (s.canSend p.val = true →
      exec (.helloSend p) s = .next (s.quiet.emit (.frame p.val (frameBytes 0x01 none (s.helloSent p.val))))) ∧
    (s.canSend p.val = false → exec (.helloSend p) s = .next s.quiet) ∧
    (s.flag (oCtrlRxPresent p.val) = true → s.linkClass p.val ≠ 0 ∨ s.obj (oLinkState p.val) = 1 →
      Gives (.helloTimeout p) s (fun t => t.linkClass p.val = 0 ∧ (t.portSt p.val).seen = false ∧
        max (s.portSt p.val).helloAt (s.portSt p.val).litSince + 3000000 ≤ t.now)) ∧
    (s.flag (oCtrlRxPresent p.val) = false ∨ (s.linkClass p.val = 0 ∧ s.obj (oLinkState p.val) ≠ 1) →
      exec (.helloTimeout p) s = .next s.quiet)) ∧
  (∀ (p : Port) (body : BitVec 256) (s : State),
    let h := natLe 32 body.toNat
    let lit := s.flag (oCtrlRxPresent p.val) = true ∧ s.keeperOn = true
    let places := fieldLe h 2 2 < 0x4000 ∧ fieldLe h 6 2 < 0x4000
    let c := (s.classify p.val h).1
    let third := (s.portSt p.val).cand = some c ∧ 2 ≤ (s.portSt p.val).agree
    (lit → places → Gives (.helloFrame p body) s (fun t => t.blob (oHelloSeen p.val) = h ∧
      (t.portSt p.val).seen = true ∧ (t.portSt p.val).helloAt = s.now ∧
      t.linkClass p.val = (if third then c else s.linkClass p.val))) ∧
    (lit → ¬ places → exec (.helloFrame p body) s = .next (s.quiet.bump (oRtBadPlace p.val))) ∧
    (¬ lit → exec (.helloFrame p body) s = .next s.quiet))

/-- Lane C gained and lost (R310, R325, R329, R332, Table 13-5): its light counts as present and a link that was DOWN
waits for hellos; its loss closes the data gate and gives NO_PEER; 100 µs without lock, or RESETTING for 2 s, bring
the link DOWN with no lane in use, which ends the plan that uses it.
Receive lanes (R301, R302, R321, R322): a lane that loses its signal leaves use and one that regains it may be
trained; a training frame of the expected transmitter verifies its identity, another raises WAVELENGTH_MISMATCH and
keeps the lane out, and one that the lane cannot take now has no effect; of the lanes that end at the direct neighbour
those that it reports unusable or failed leave use and its received OMA is noted. -/
def Obligations.LanesAndSignals : Prop :=
  (∀ (p : Port) (s : State),
     (s.flag (oCtrlRxPresent p.val) = false → s.keeperOn = true →
       Gives (.laneCLock p) s (fun t => t.obj (oCtrlRxPresent p.val) = 1 ∧ (t.portSt p.val).litSince = s.now ∧
         (t.portSt p.val).lostAt = none ∧
         t.obj (oLinkState p.val) = (if s.obj (oLinkState p.val) = 0 then 1 else s.obj (oLinkState p.val)) ∧
         SameObj s t [oCtrlRxPresent p.val, oLinkState p.val] ∧ t.mem = s.mem)) ∧
     (s.flag (oCtrlRxPresent p.val) = true ∨ s.keeperOn = false → exec (.laneCLock p) s = .next s.quiet) ∧
     (s.flag (oCtrlRxPresent p.val) = true →
       Gives (.laneCLoss p) s (fun t => t.obj (oCtrlRxPresent p.val) = 0 ∧ t.obj (oDataGate p.val) = 0 ∧
         t.linkClass p.val = 0 ∧ (t.portSt p.val).seen = false ∧ (t.portSt p.val).lostAt = some s.now)) ∧
     (s.flag (oCtrlRxPresent p.val) = false → exec (.laneCLoss p) s = .next s.quiet) ∧
     (∀ n, (s.portSt p.val).lostAt = some n →
       Gives (.linkDown p) s (fun t => t.obj (oLinkState p.val) = 0 ∧ n + 100000 ≤ t.now ∧
         (t.portSt p.val).useTx = 0 ∧ (t.portSt p.val).useRx = 0 ∧ (t.portSt p.val).lostAt = none ∧
         (s.admitted = true → s.plannedLink p.val = true → t.admitted = false))) ∧
     ((s.portSt p.val).lostAt = none → exec (.linkDown p) s = .next s.quiet) ∧
     (∀ n, (s.portSt p.val).resetSince = some n →
       Gives (.resettingTimeout p) s (fun t => t.obj (oLinkState p.val) = 0 ∧ n + 2000000000 ≤ t.now ∧
         (t.portSt p.val).useTx = 0 ∧ (t.portSt p.val).useRx = 0 ∧ (t.portSt p.val).resetSince = none ∧
         (s.admitted = true → s.plannedLink p.val = true → t.admitted = false))) ∧
     ((s.portSt p.val).resetSince = none → exec (.resettingTimeout p) s = .next s.quiet)) ∧
  (∀ (p : Port) (n : Lane) (s : State),
     Gives (.laneSignalLoss p n) s (fun t =>
       bit (t.portSt p.val).darkRx n.val = true ∧ bit (t.portSt p.val).useRx n.val = false) ∧
     Gives (.laneSignalLock p n) s (fun t =>
       bit (t.portSt p.val).darkRx n.val = false ∧ (∀ q, q ≠ p.val → t.portSt q = s.portSt q) ∧ t.od = s.od ∧
       t.mem = s.mem)) ∧
  (∀ (f : Training) (s : State),
     let open_ := s.linkOpen f.port.val && s.rxClear f.port.val f.lane.val && (!s.admitted || s.bell.inGuard)
     let p := f.port.val
     let n := f.lane.val
     (∀ src, s.expectedSource p n = some src → open_ = true →
       (f.place.toNat = src.1 ∧ f.srcPort.toNat = src.2 ∧ f.srcLane.toNat = n →
         Gives (.trainingFrame f) s (fun t => bit (t.obj (oLaneIdentity p)) n = true ∧
           bit (t.portSt p).badRx n = false)) ∧
       (¬(f.place.toNat = src.1 ∧ f.srcPort.toNat = src.2 ∧ f.srcLane.toNat = n) →
         Gives (.trainingFrame f) s (fun t => t.obj oMismatchCount = (s.obj oMismatchCount + 1) % 2 ^ 32 ∧
           bit (t.portSt p).badRx n = true ∧ bit (t.portSt p).useRx n = false))) ∧
     (s.expectedSource p n = none ∨ open_ = false → exec (.trainingFrame f) s = .next s.quiet)) ∧
  (∀ (p : Port) (r : LaneReport) (s : State),
     let lit := s.linkClass p.val = 2 ∧ s.flag (oCtrlRxPresent p.val) = true
     (lit → Gives (.laneReport p r) s (fun t => ∀ n < 8,
       (bit (s.nearLanes p.val) n = true →
         (bit r.unusable.toNat n = true ∨ bit r.failed.toNat n = true →
           bit (t.portSt p.val).useTx n = false ∧ bit (t.portSt p.val).badTx n = true) ∧
         Bank.get (t.portSt p.val).reports 0 n = s.bell.beat * 65536 + ((r.oma[n]?).getD 0x8000).toNat) ∧
       (bit (s.nearLanes p.val) n = false → bit (t.portSt p.val).useTx n = bit (s.portSt p.val).useTx n ∧
         bit (t.portSt p.val).badTx n = bit (s.portSt p.val).badTx n))) ∧
     (¬ lit → exec (.laneReport p r) s = .next s.quiet))

/-- Sequenced frames (R326, R341, R347): an acknowledgement drops the frames it covers and its credits are kept; one due
is sent; the oldest frame not acknowledged goes out again 2 µs after it was sent; a management flit in order joins its
packet, and a whole packet is served where it is for this place or sent on by its route; one out of order is only
acknowledged. The credits count the management flits freed (assumption 95). -/
def Obligations.SequencedFrames : Prop :=
  (∀ (p : Port) (a : CtlAck) (s : State), Gives (.controlAck p a) s (fun t =>
    (t.portSt p.val).ctlSent.map (fun f => f.seq) = ((s.portSt p.val).ctlSent.filter (fun f =>
      decide (2048 ≤ (a.seq.toNat + 4096 - f.seq) % 4096) || f.sentAt == none)).map (fun f => f.seq) ∧
    (t.portSt p.val).mgmtCredit = a.credits.toNat ∧
    (∀ q, q ≠ p.val → t.portSt q = s.portSt q) ∧ t.od = s.od ∧ t.mem = s.mem)) ∧
  (∀ (p : Port) (s : State),
    ((s.portSt p.val).ackDue = true → Gives (.controlAckSend p) s (fun t => (t.portSt p.val).ackDue = false ∧
      t.od = s.od ∧ t.mem = s.mem ∧ t.out = (if s.canSend p.val then [.frame p.val (frameBytes 0x09 none
        (natLe 2 (((s.portSt p.val).ctlExpect + 4095) % 4096) ++ natLe 2 ((s.portSt p.val).mgmtFreed % 4096)))]
        else []))) ∧
    ((s.portSt p.val).ackDue = false → exec (.controlAckSend p) s = .next s.quiet) ∧
    (∀ f rest n, (s.portSt p.val).ctlSent = f :: rest → f.sentAt = some n →
      Gives (.laneCResend p) s (fun t => n + 2000 ≤ t.now ∧
        (t.portSt p.val).ctlSent = { f with sentAt := some t.now } :: rest ∧ t.od = s.od ∧ t.mem = s.mem ∧
        t.out = (if s.canSend p.val then [.frame p.val (frameBytes f.type (some f.seq) f.body)] else []))) ∧
    ((s.portSt p.val).ctlSent.head?.bind (fun f => f.sentAt) = none → exec (.laneCResend p) s = .next s.quiet)) ∧
  (∀ (p : Port) (seq : BitVec 12) (flit : BitVec 512) (s : State),
    let x := s.portSt p.val
    let got := x.mgmt ++ natLe 64 flit.toNat
    let size := 64 * (1 + ceilDiv (pkLength got) 64)
    let b := got.take (64 + pkLength got)
    let y : PortSt := { x with ackDue := true, ctlExpect := (x.ctlExpect + 1) % 4096 }
    let v := (s.quiet.setPort p.val y).setPort p.val { y with mgmt := [], mgmtFreed := x.mgmtFreed + size / 64 }
    let mine := pkDst b < 0x4000 ∧ pkSrc b < 0x4000 ∧ bits (fieldLe b 32 16) 0 4 ≤ bits (fieldLe b 32 16) 4 4 ∧
      pkDst b = s.place ∧ fieldLe b 0 1 = 9 ∧ fieldLe b 2 1 = 4
    (s.flag (oCtrlRxPresent p.val) = false → exec (.mgmtFlit p seq flit) s = .next s.quiet) ∧
    (s.flag (oCtrlRxPresent p.val) = true →
      (seq.toNat ≠ x.ctlExpect →
        exec (.mgmtFlit p seq flit) s = .next (s.quiet.setPort p.val { x with ackDue := true })) ∧
      (seq.toNat = x.ctlExpect → got.length < size →
        exec (.mgmtFlit p seq flit) s = .next ((s.quiet.setPort p.val y).setPort p.val { y with mgmt := got })) ∧
      (seq.toNat = x.ctlExpect → size ≤ got.length → mine →
        exec (.mgmtFlit p seq flit) s = .next ((v.emit (.delivered b)).serveDelivered p.val b)) ∧
      (seq.toNat = x.ctlExpect → size ≤ got.length → ¬ mine →
        exec (.mgmtFlit p seq flit) s = .next (v.routeMgmt p.val b))))

/-! ### The step-clean tree -/

/-- CLEAN_SEND (R22, R388, R389): once the step's own conditions hold and every child's frame is in, the combined
frame goes to the parent, once; at the root it is the global verdict, held here and sent to every child.
CLEAN (R388, R389): a child's rising frame waits to be combined; the global verdict from the parent is held for
the deadline and sent on; a frame of another step or attempt, or too late, is only counted stale; one out of its order
or from elsewhere is only acknowledged. The keeper of a forwarding-only module does the same for its step, with a CLEAN
contribution of its own (R426). -/
def Obligations.CleanTree : Prop :=
  (∀ s : State,
     let own := s.keeper = none ∨ s.admitted = true
     let ready := s.traffic && s.childrenIn && !s.step.sent
     (own → ready = true → s.obj oTreeParentPort ≠ 0xFF →
       Gives .cleanSend s (fun t => t.step.sent = true ∧ t.step.verdict = s.step.verdict ∧ t.od = s.od ∧ t.mem = s.mem ∧
         (t.portSt (s.obj oTreeParentPort)).ctlSent.getLast?.map (fun f => (f.type, f.body)) =
           some (0x07, s.combined.bytes))) ∧
     (own → ready = true → s.obj oTreeParentPort = 0xFF →
       Gives .cleanSend s (fun t => t.step.sent = true ∧ t.step.verdict = some (s.globalOf s.combined) ∧ t.od = s.od ∧
         t.mem = s.mem ∧ ∀ q ∈ s.childPorts, (t.portSt q).ctlSent.getLast?.map (fun f => (f.type, f.body)) =
           some (0x07, (s.globalOf s.combined).bytes))) ∧
     (own → ready = false → exec .cleanSend s = .next s.quiet) ∧
     (∀ k, s.keeper = some k → s.admitted = false →
       let kready := k.st.running && !k.st.sent &&
         (setBitsOf 24 k.children).all (fun p => k.st.children.any (fun c => c.port == p))
       (kready = true → k.parent ≠ 0xFF → Gives .cleanSend s (fun t =>
         t.keeper = some { k with st := { k.st with sent := true } } ∧ t.od = s.od ∧ t.mem = s.mem ∧
         (t.portSt k.parent).ctlSent.getLast?.map (fun f => (f.type, f.body)) = some (0x07, k.combined.bytes))) ∧
       (kready = true → k.parent = 0xFF →
         let v := k.combined.verdict
         let g : CleanFrame := { k.combined with
           verdict := (if k.combined.covered = k.count then v else v ||| 5) + 128, covered := k.count }
         Gives .cleanSend s (fun t => t.od = s.od ∧ t.mem = s.mem ∧
           t.keeper = some { k with st := { k.st with sent := true, verdict := some g } })) ∧
       (kready = false → exec .cleanSend s = .next s.quiet))) ∧
  (∀ (p : Port) (seq : BitVec 12) (f : CleanBody) (s : State),
     let c := frameOf f
     let lit := s.flag (oCtrlRxPresent p.val) = true ∧ s.linkClass p.val = 2
     let inOrder := lit ∧ seq.toNat = (s.portSt p.val).ctlExpect
     let v := (s.quiet.takeCtl p.val seq.toNat).2
     (¬ lit → exec (.cleanFrame p seq f) s = .next s.quiet) ∧
     (lit → ¬ inOrder → exec (.cleanFrame p seq f) s = .next v) ∧
     (inOrder → s.keeper = none ∨ s.admitted = true →
       (s.frameFresh c = true → f.verdict.getLsbD 7 = true → p.val = s.obj oTreeParentPort → s.step.verdict = none →
         Gives (.cleanFrame p seq f) s (fun t => t.step.verdict = some c ∧ t.od = s.od ∧ t.mem = s.mem ∧
           ∀ q ∈ s.childPorts, (t.portSt q).ctlSent.getLast?.map (fun f => (f.type, f.body)) = some (0x07, c.bytes))) ∧
       (s.frameFresh c = true → f.verdict.getLsbD 7 = true → p.val ≠ s.obj oTreeParentPort ∨ s.step.verdict ≠ none →
         exec (.cleanFrame p seq f) s = .next v) ∧
       (s.frameFresh c = true → f.verdict.getLsbD 7 = false → s.childPorts.contains p.val = true →
         Gives (.cleanFrame p seq f) s (fun t => ChildFrame.mk p.val c ∈ t.step.children ∧
           t.step.verdict = s.step.verdict ∧ t.od = s.od ∧ t.mem = s.mem)) ∧
       (s.frameFresh c = true → f.verdict.getLsbD 7 = false → s.childPorts.contains p.val = false →
         exec (.cleanFrame p seq f) s = .next v) ∧
       (s.frameFresh c = false →
         Gives (.cleanFrame p seq f) s (fun t => t.obj oStaleFrames = (s.obj oStaleFrames + 1) % 2 ^ 32 ∧
           t.step = s.step ∧ SameObj s t [oStaleFrames] ∧ t.mem = s.mem))) ∧
     (∀ k, inOrder → s.keeper = some k → s.admitted = false →
       let fresh := k.st.running && c.step == k.step && c.attempt == k.st.attempt && decide (k.beat < k.deadlineBeat)
       (fresh = false → Gives (.cleanFrame p seq f) s (fun t => t.keeper = s.keeper ∧
         t.obj oStaleFrames = (s.obj oStaleFrames + 1) % 2 ^ 32)) ∧
       (fresh = true → f.verdict.getLsbD 7 = true → p.val = k.parent → k.st.verdict = none →
         Gives (.cleanFrame p seq f) s (fun t => t.keeper = some { k with st := { k.st with verdict := some c } } ∧
           t.od = s.od)) ∧
       (fresh = true → f.verdict.getLsbD 7 = true → p.val ≠ k.parent ∨ k.st.verdict ≠ none →
         exec (.cleanFrame p seq f) s = .next v) ∧
       (fresh = true → f.verdict.getLsbD 7 = false → bit k.children p.val = true →
         Gives (.cleanFrame p seq f) s (fun t => t.od = s.od ∧ t.keeper = some { k with st := { k.st with
           children := k.st.children.filter (fun x => x.port != p.val) ++ [ChildFrame.mk p.val c] } })) ∧
       (fresh = true → f.verdict.getLsbD 7 = false → bit k.children p.val = false →
         exec (.cleanFrame p seq f) s = .next v)))

/-! ### Admission and deferred actions -/

/-- ADMISSION_RESULT (R79 to R81): a plan whose checks all pass is ADMITTED, its identifier and digest shown and its
replays counted from 0; one whose first failing check is `f` is LOADED again, and its result stands in 0x2021.
Actions that end later (R402, R418, R419): a region's digest is that of its bytes, read under R266, at its time; the raw
program's output stands; a snapshot whose messages are acknowledged is complete. With nothing in progress each changes
nothing. -/
def Obligations.AdmissionAndActions : Prop :=
  ((∀ (a : Admitting) (s : State), s.admitting = some a →
     s.quiet.planFault (s.blob oPlanBlob) (parsePlan (s.blob oPlanBlob)) a = none →
     Gives .admissionResult s (fun t => t.obj oPlanState = 3 ∧ t.obj oAdmit = 0x20000 ∧
       t.plan = some (parsePlan (s.blob oPlanBlob)) ∧ t.admitting = none ∧ t.obj oReason = 0 ∧
       t.obj oPlanId = (parsePlan (s.blob oPlanBlob)).id ∧ t.blob oPlanDigest = sha384 (s.blob oPlanBlob) ∧
       t.obj oFaultReplays = 0 ∧ t.obj oOverflowReplays = 0 ∧ t.step.running = false)) ∧
   (∀ (a : Admitting) (f : PlanFault) (s : State), s.admitting = some a →
     s.quiet.planFault (s.blob oPlanBlob) (parsePlan (s.blob oPlanBlob)) a = some f →
     Gives .admissionResult s (fun t => t.obj oPlanState = 1 ∧ t.obj oAdmit = 0x30000 + f.reason % 2 ^ 16 ∧
       t.plan = none ∧ t.admitting = none ∧ t.obj oReason = f.reason ∧ t.obj oStepBeat = f.stepBeat ∧
       t.obj oProgram = f.program ∧ t.obj oResource = f.resource ∧ t.obj oExcessNs = f.excess ∧
       t.obj oDetail = f.detail ∧ t.blobs = s.blobs ∧
       SameObj s t ([oPlanState, oAdmit, oReason, oStepBeat, oProgram, oResource, oExcessNs, oDetail] ++ eventKeys)))) ∧
  (∀ (b n d : Nat) (s : State), s.digesting = some (b, n, d) →
     let v : State := { s.quiet.advanceTo d with digesting := none }
     Gives .regionDigestDone s (fun t => t.obj oRegionDigest = regionDigest (v.readPhys .ring b n).2 ∧
       t.obj oDigestRegion = 0x20000 ∧ d ≤ t.now ∧ t.digesting = none ∧
       (s.mem.errors = [] → s.mem.poison = [] → t.obj oRegionDigest = regionDigest (memRead s.mem.bytes b n) ∧
         SameObj s t ([oRegionDigest, oDigestRegion] ++ eventKeys)))) ∧
  (∀ (output : Bytes) (s : State), s.cmdRunning oSteStart = true →
     Gives (.steProgramDone output) s (fun t => t.blob oSteOutput = output ∧ t.obj oSteStart = 0x20000 ∧
       SameObj s t (oSteStart :: eventKeys))) ∧
  (∀ (x : SnapSt) (s : State), s.step.snap = some x → s.snapAcked x = true →
     Gives .snapshotDone s (fun t => t.step.snap = none ∧ t.obj oSnapState = 2 ∧ t.obj oLastSnapshot = x.word true ∧
       SameObj s t ([oSnapState, oLastSnapshot] ++ eventKeys))) ∧
  (∀ (output : Bytes) (s : State),
     (s.admitting = none → exec .admissionResult s = .next s.quiet) ∧
     (s.digesting = none → exec .regionDigestDone s = .next s.quiet) ∧
     (s.cmdRunning oSteStart = false → exec (.steProgramDone output) s = .next s.quiet) ∧
     (s.step.snap.all (fun x => !s.snapAcked x) = true → exec .snapshotDone s = .next s.quiet))

/-- SELF_TEST_DONE (R398 to R401, R437): the results stand in their objects; the start-up test lets the power-up end;
the shutdown test ends in READY_OFF; ST_RUN's outcome is its result word, a FAIL enters SAFE, and another outcome ends
it once the cause has cleared (R403). With no test running only its time passes. -/
def Obligations.SelfTestsEnd : Prop :=
  ∀ (r : StDone) (s : State),
    let outcome := r.failing.foldl (fun a f => max a (kindOutcome f.kind.toNat)) 1
    (s.power.selfTestStart = true →
      Gives (.selfTestDone r) s (fun t => t.power.selfTestStart = false ∧ t.obj oStResult = outcome ∧
        t.blob oStReport = reportBytes r.failing ∧ t.obj oStDurationMs = r.durationMs.toNat ∧
        t.now = s.now + r.durationMs.toNat * 1000000)) ∧
    (s.power.selfTestStart = false → s.power.selfTest = true → s.power.shutdown = true →
      Gives (.selfTestDone r) s (fun t => t.obj oPowerState = 5 ∧ t.obj oShutdown = 0x20000 ∧
        t.obj oLastShutdownOrderly = 1 ∧ t.power.selfTest = false ∧ t.power.shutdown = false ∧
        t.obj oStResult = outcome ∧ (∀ d ∈ domains48, keepDomains.contains d = false → t.dom d = domOff))) ∧
    (s.power.selfTestStart = false → s.power.selfTest = true → s.power.shutdown = false →
      Gives (.selfTestDone r) s (fun t => t.obj oStResult = outcome ∧ t.obj oStRun = 0x20000 + outcome ∧
        t.power.selfTest = false ∧ (outcome = 3 → t.obj oSafe ≠ 0) ∧
        (outcome ≠ 3 → s.power.tripLatched = false → t.obj oSafe = 0))) ∧
    (s.power.selfTestStart = false → s.power.selfTest = false →
      exec (.selfTestDone r) s = .next (s.quiet.advance (r.durationMs.toNat * 1000000)))

/-! ### MCTP and SPDM -/

/-- MCTP control (R48, R49): while the management complex serves, the endpoint identifier and the dynamic address are
taken, and the identifier, the versions and the message types are answered; a packet that does not fit is dropped, one
of a longer message is held, one out of its sequence abandons it, and the last hands the whole on and its answers go
back as packets (the contents are the family's: assumption 58).
SPDM (R451): while an image runs, version, capabilities and algorithms are agreed in that order; then the
digest of the chain, portions of it, and signed challenges and measurements under fresh nonces are answered; a request
out of that order is an error, and so is one for a chain or an identity that is not there; without an image nothing
answers (the codes are the family's: assumption 58). -/
def Obligations.MctpAndSpdm : Prop :=
  (∀ s : State, s.controlServed = true →
     (∀ eid : Byte, eid.toNat ≠ 0 → eid.toNat ≠ 0xFF → Gives (.setEndpointId eid) s (fun t =>
       t.obj oMctpEid = eid.toNat ∧ SameObj s t [oMctpEid] ∧ t.out = [.control 1 [0, eid]] ∧ t.mem = s.mem)) ∧
     (∀ eid : Byte, eid.toNat = 0 ∨ eid.toNat = 0xFF → Gives (.setEndpointId eid) s (fun t =>
       t.od = s.od ∧ t.out = [.control 1 [2]])) ∧
     exec .getEndpointId s = .next (s.quiet.emit (.control 2 (natLe 1 (s.obj oMctpEid)))) ∧
     exec .getMctpVersionSupport s = .next (s.quiet.emit (.control 4 [1])) ∧
     exec .getMessageTypeSupport s = .next (s.quiet.emit (.control 5 [0, 5, 0x7F])) ∧
     (∀ a : BitVec 7, Gives (.dynamicAddressAssignment a) s (fun t => t.obj oI3cDynamicAddr = a.toNat ∧
       SameObj s t [oI3cDynamicAddr] ∧ t.out = [] ∧ t.mem = s.mem)) ∧
     (∀ b : Bytes, s.mctpFits b = false → exec (.mctpPacket b) s = .next s.quiet) ∧
     (∀ b : Bytes, s.mctpFits b = true →
       let src := fieldLe b 2 1
       let flags := fieldLe b 3 1
       let held := if bit flags 7 then some (b.drop 4).dropLast else match s.mctp.assembling with
         | some (a, g, n, bs) =>
           if a = src ∧ g = flags % 16 ∧ n = bits flags 4 2 then some (bs ++ (b.drop 4).dropLast) else none
         | none => none
       (held = none → Gives (.mctpPacket b) s (fun t => t.od = s.od ∧ t.mem = s.mem ∧ t.out = [] ∧
         t.mctp.assembling = none)) ∧
       (∀ bs, held = some bs → bit flags 6 = false → Gives (.mctpPacket b) s (fun t => t.od = s.od ∧ t.mem = s.mem ∧
         t.out = [] ∧ t.mctp.assembling = some (src, flags % 16, (bits flags 4 2 + 1) % 4, bs))) ∧
       (∀ bs, held = some bs → bit flags 6 = true → exec (.mctpPacket b) s =
         .next (((s.quiet.setAssembling none).mctpMessage bs).sendPackets src flags (fieldLe bs 1 1))))) ∧
  (∀ s : State, s.controlServed = false → ∀ (eid : Byte) (a : BitVec 7) (b : Bytes),
     ∀ c ∈ [Instr.setEndpointId eid, .getEndpointId, .getMctpVersionSupport, .getMessageTypeSupport,
       .dynamicAddressAssignment a, .mctpPacket b], exec c s = .next s.quiet) ∧
  ((∀ s : State, s.power.boot = .image →
     let answers := fun (c : Instr) (code : Nat) (data : Bytes) (m : MctpSt) => Gives c s (fun t =>
       t.out = [.spdm code data] ∧ t.obj oSpdmRequests = (s.obj oSpdmRequests + 1) % 2 ^ objBits oSpdmRequests ∧
       SameObj s t [oSpdmRequests] ∧ t.blobs = s.blobs ∧ t.mem = s.mem ∧ t.power = s.power ∧ t.mctp = m)
     answers .getVersion 0x04 (natLe 2 0x1300)
       { s.mctp with spdmVersioned := true, spdmCapable := false, spdmNegotiated := false } ∧
     (s.mctp.spdmVersioned = true → answers .getCapabilities 0x61 (natLe 4 0x16)
       { s.mctp with spdmCapable := true }) ∧
     (s.mctp.spdmVersioned = false → answers .getCapabilities 0x7F [4] s.mctp) ∧
     (∀ a h : W32, s.mctp.spdmCapable = true → answers (.negotiateAlgorithms a h) 0x63
       (natLe 4 (b2n (bit a.toNat 7) * 0x80) ++ natLe 4 (b2n (bit h.toNat 1) * 0x02))
       { s.mctp with spdmNegotiated := bit a.toNat 7 && bit h.toNat 1 }) ∧
     (∀ a h : W32, s.mctp.spdmCapable = false → answers (.negotiateAlgorithms a h) 0x7F [4] s.mctp) ∧
     (∀ (o l : W16) (n : BitVec 256) (i : Byte), s.mctp.spdmNegotiated = false →
       ∀ c ∈ [Instr.getDigests, .getCertificate o l, .challenge n, .getMeasurements i n], answers c 0x7F [4] s.mctp) ∧
     (s.mctp.spdmNegotiated = true →
       ((s.blob oIdCertChain).isEmpty = false → answers .getDigests 0x01 (sha384 (s.blob oIdCertChain)) s.mctp) ∧
       ((s.blob oIdCertChain).isEmpty = true → answers .getDigests 0x7F [5] s.mctp) ∧
       (∀ o l : W16, answers (.getCertificate o l) 0x02 (((s.blob oIdCertChain).drop o.toNat).take l.toNat) s.mctp) ∧
       (∀ (i : Byte) (n : BitVec 256),
         let signed := { s.mctp with nonces := s.mctp.nonces + 1 }
         let nonces := natLe 32 (Config.spdmNonce s.mctp.nonces).toNat ++ natLe 32 n.toNat
         (∀ key, s.power.identity = some key →
           answers (.challenge n) 0x03 (s.signedData key (sha384 (s.blob oIdCertChain) ++ nonces)) signed ∧
           answers (.getMeasurements i n) 0x60 (s.signedData key
             ((if i.toNat = 0xFF then s.measurements else s.measurement i.toNat) ++ nonces)) signed) ∧
         (s.power.identity = none →
           answers (.challenge n) 0x7F [5] s.mctp ∧ answers (.getMeasurements i n) 0x7F [5] s.mctp)))) ∧
   (∀ (s : State) (a h : W32) (o l : W16) (n : BitVec 256) (i : Byte), s.power.boot ≠ .image →
     ∀ c ∈ [Instr.getVersion, .getCapabilities, .negotiateAlgorithms a h, .getDigests, .getCertificate o l, .challenge n,
       .getMeasurements i n], exec c s = .next s.quiet))

/-! ### The bell count -/

/-- TIME (R58 to R60, R481): an exchange on the parent port of a follower shows its offset and drives the count by
Table 03-1: UNLOCKED begins to acquire; 64 good exchanges in a row lock, and while acquiring with no plan admitted an
offset above 100 ns is stepped at once; 4 bad ones in a row, or an invalid one, unlock; 4 good ones end a holdover;
every other offset is steered out; on another port only its own offset is shown; a link in QUARANTINE is never a parent
(R330). That the exchange that leaves UNLOCKED counts and an invalid one corrects nothing is the model's choice
(assumption 87).
The bell count's own timers (R58, R60, R61): every 250 µs a module sends its side of the exchange to its parent and
wherever else exchanges run; 1 ms without a valid exchange leads from LOCKED to HOLDOVER; a holdover past its limit
unlocks and ends the plan. -/
def Obligations.BellCount : Prop :=
  (∀ (port : Port) (x : TimingExchange) (s : State),
     let p := port.val
     let off := exchangeOffset x (toSigned 32 (s.obj (oAsymmetryPs p)))
     let m := off.natAbs
     let shown := [oPortOffsetPs p, oBellOffsetPs, oBellPathDelayPs, oBellDepth]
     let drives := s.linkClass p = 2 ∧ s.obj oTimeRole = 2 ∧ p = s.parentPort
     let stepped := s.admitted = false ∧ 100000 < m
     let moved := fun (t : State) => t.bell.steerPs = (if stepped then 0 else -off) ∧
       t.bell.beat = (if stepped then s.stepCount off else s).bell.beat ∧
       t.bell.off = (if stepped then s.stepCount off else s).bell.off
     let steered := fun (t : State) => t.bell.steerPs = -off ∧ t.bell.beat = s.bell.beat ∧ t.bell.off = s.bell.off
     let read := fun (P : State → Prop) => Gives (.timeExchange port x) s (fun t =>
       t.obj (oPortOffsetPs p) = i32Of off ∧ t.obj oBellOffsetPs = i32Of off ∧ P t)
     (s.linkClass p ≠ 2 → exec (.timeExchange port x) s = .next s.quiet) ∧
     (s.linkClass p = 2 → s.obj oTimeRole ≠ 2 →
       exec (.timeExchange port x) s = .next ((s.quiet.hear p).setObj (oPortOffsetPs p) (i32Of off))) ∧
     (s.linkClass p = 2 → s.obj oTimeRole = 2 → p ≠ s.parentPort → Gives (.timeExchange port x) s (fun t =>
       t.obj (oPortOffsetPs p) = i32Of off ∧ SameObj s t [oPortOffsetPs p] ∧ t.mem = s.mem ∧
       t.bell.beat = s.bell.beat ∧ t.bell.steerPs = s.bell.steerPs ∧ t.bell.useAlt = s.bell.useAlt)) ∧
     (drives → exchangeValid s x = true →
       (s.obj oBellState = bellUnlocked → read (fun t => t.obj oBellState = bellAcquiring ∧
         t.obj oBellDepth = x.depth.toNat + 1 ∧ t.bell.good = (if m ≤ 2000 then 1 else 0) ∧ moved t ∧
         SameObj s t (oBellState :: shown))) ∧
       (s.obj oBellState = bellAcquiring →
         let g := if m ≤ 2000 then s.bell.good + 1 else 0
         read (fun t => t.obj oBellState = (if 64 ≤ g then bellLocked else bellAcquiring) ∧
           t.bell.good = (if 64 ≤ g then 0 else g) ∧ moved t ∧ SameObj s t (oBellState :: shown ++ eventKeys))) ∧
       (s.obj oBellState = bellLocked →
         let b := if 4000 < m then s.bell.bad + 1 else 0
         (b < 4 → read (fun t => t.obj oBellState = bellLocked ∧ t.bell.bad = b ∧ t.bell.lastValid = s.now ∧
           steered t ∧ SameObj s t shown ∧ t.mem = s.mem)) ∧
         (4 ≤ b → read (fun t => t.obj oBellState = bellAcquiring ∧ t.admitted = false ∧
           t.obj oLockLossCount = (s.obj oLockLossCount + 1) % 2 ^ objBits oLockLossCount ∧
           (s.admitted = false → SameObj s t ([oBellState, oLockLossCount] ++ shown ++ eventKeys))))) ∧
       (s.obj oBellState = bellHoldover →
         let g := if m ≤ 2000 then s.bell.holdGood + 1 else 0
         read (fun t => t.obj oBellState = (if 4 ≤ g then bellLocked else bellHoldover) ∧
           t.bell.holdGood = (if 4 ≤ g then 0 else g) ∧ steered t ∧ SameObj s t (oBellState :: shown) ∧
           t.mem = s.mem))) ∧
     (drives → exchangeValid s x = false →
       (s.obj oBellState = bellLocked ∨ s.obj oBellState = bellHoldover → read (fun t =>
         t.obj oBellState = bellAcquiring ∧ t.admitted = false)) ∧
       (s.obj oBellState ≠ bellLocked → s.obj oBellState ≠ bellHoldover → read (fun t =>
         t.bell.good = 0 ∧ t.bell.steerPs = s.bell.steerPs ∧ t.bell.beat = s.bell.beat ∧ SameObj s t shown ∧
         t.mem = s.mem)))) ∧
  (∀ s : State,
     (s.fnDown .timebase = false →
       Gives .timeSend s (fun t => s.bell.lastSend + 250000 ≤ t.now ∧ t.bell.lastSend = t.now ∧
         t.out = t.timePorts.map (fun p => .frame p (frameBytes 0x02 none (timeBody t p))) ∧
         (s.obj oTimeRole = 2 → s.parentPort < 24 → s.linkClass s.parentPort = 2 → s.parentPort ∈ t.timePorts) ∧
         t.od = s.od ∧ t.mem = s.mem)) ∧
     (s.fnDown .timebase = true → exec .timeSend s = .next s.quiet) ∧
     (s.obj oBellState = bellLocked →
       Gives .bellHoldover s (fun t => t.obj oBellState = bellHoldover ∧ s.bell.lastValid + 1000000 ≤ t.now ∧
         t.bell.holdSince = t.now ∧ t.obj oLockLossCount = (s.obj oLockLossCount + 1) % 2 ^ objBits oLockLossCount ∧
         SameObj s t ([oBellState, oLockLossCount] ++ eventKeys))) ∧
     (s.obj oBellState ≠ bellLocked → exec .bellHoldover s = .next s.quiet) ∧
     (s.obj oBellState = bellHoldover →
       Gives .holdoverLimit s (fun t => t.obj oBellState = bellAcquiring ∧ t.admitted = false ∧
         s.bell.holdSince + s.obj oHoldoverLimitUs * 1000 < t.now ∧
         (s.admitted = false → SameObj s t (oBellState :: eventKeys)))) ∧
     (s.obj oBellState ≠ bellHoldover → exec .holdoverLimit s = .next s.quiet))

/-! ### Beats and steps -/

/-- BEAT_BOUNDARY (R64, Table 03-2): time moves to the boundary, the beat number rises by one, the guard opens and no
deferred write waits on; GUARD_CLOSE ends the guard 2,000 ns later. With domain 38 off there is no beat, and outside
a guard there is none to close.
What a boundary does to the step (R23, R24, R65, R82, R389, R409, R410, R423): positions follow one another; JOB_START's
step begins at its beat; no verdict at the deadline is class C; a clean verdict commits, so that both halves of
every region change places and the next step follows; a commit whose loss history holds another result of the step
is class C; a POISONED one discards and the same step is replayed. -/
def Obligations.BeatsAndSteps : Prop :=
  ((∀ (env : BoundaryEnv) (s : State), s.dom 38 = domOn →
     Gives (.beatBoundary env) s (fun t => t.now = s.now + (s.beatNs - s.bell.off) ∧
       t.bell.beat = (s.bell.beat + 1) % 2 ^ 64 ∧ t.bell.off = 0 ∧ t.bell.inGuard = true ∧ t.deferred = [])) ∧
   (∀ (env : BoundaryEnv) (s : State), s.dom 38 ≠ domOn → exec (.beatBoundary env) s = .next s.quiet) ∧
   (∀ s : State, s.bell.inGuard = true →
     Gives .guardClose s (fun t => t.now = s.now + (2000 - s.bell.off) ∧ t.bell.inGuard = false ∧
       t.bell.beat = s.bell.beat)) ∧
   (∀ s : State, s.bell.inGuard = false → exec .guardClose s = .next s.quiet)) ∧
  ((∀ (pl : Plan) (g : List GenFailure) (s : State), s.step.running = true →
     s.obj oStepBeatNow + 1 < pl.timing.stepBeats → s.obj oStepBeatNow + 1 ≠ pl.deadlineBeat →
     s.stepBoundary pl g = s.setObj oStepBeatNow (s.obj oStepBeatNow + 1)) ∧
   (∀ (pl : Plan) (g : List GenFailure) (b : Nat) (s : State), s.step.running = false → s.step.jobAt = some b →
     b ≤ s.bell.beat → s.step.stopped = false → s.step.releaseWaiting = false →
     let t := s.stepBoundary pl g
     t.planState = 4 ∧ t.step.running = true ∧ t.step.attempt = 0 ∧ t.obj oJobStart = 0x20000 ∧
       t.obj oStepNow = s.obj oFirstStep ∧ t.obj oStepBeatNow = 0) ∧
   (∀ (pl : Plan) (s : State), s.step.verdict = none → (s.releaseVerdict pl).admitted = false) ∧
   (∀ (pl : Plan) (c : CleanFrame) (s : State), s.step.verdict = some c → bit c.verdict 0 = true →
     let t := s.releaseVerdict pl
     t.obj oPoisonedCount = (s.obj oPoisonedCount + 1) % 2 ^ objBits oPoisonedCount ∧
       t.step.nextStep = s.obj oStepNow % 2 ^ 32 ∧ t.step.nextAttempt = (s.step.attempt + 1) % 256 ∧
       t.step.verdict = none ∧ t.mem.committed = s.mem.committed ∧ (bit c.verdict 3 = true → t.step.stopped = true)) ∧
   (∀ (r : Recipe) (s : State),
     let t := s.commit r
     let differs := match s.history.find? (fun e => e % 2 ^ 32 == s.obj oStepNow) with
       | some e => bits e 32 32 != (s.lossBits r).2 || bits e 64 16 != s.step.lsExp
       | none => false
     (differs = false → t.obj oCleanCount = (s.obj oCleanCount + 1) % 2 ^ objBits oCleanCount ∧
       t.step.nextStep = (s.obj oStepNow + 1) % 2 ^ 32 ∧ t.step.nextAttempt = 0 ∧ t.obj oFaultReplays = 0 ∧
       t.obj oOverflowReplays = 0 ∧ t.mem.committed = s.swapHalves.mem.committed) ∧
     (differs = true → t.admitted = false ∧ t.obj oCleanCount = (s.obj oCleanCount + 1) % 2 ^ objBits oCleanCount)))

/-! ### Power domains -/

/-- Wakes and gates (R433, R438, R439): the first request that may be granted wakes its domain at the earliest moment
both limits allow; planned wakes and gates take place at their item's offset after the guard, and do nothing to a
domain that is not gated or off, is held off, or is not on; a domain is ON once its latency has passed. Without a
request, an item of that kind or a wake under way nothing happens. -/
def Obligations.DomainWakes : Prop :=
  (∀ s : State,
    (∀ r : WakeRequest, s.power.requests.find? (fun r => !s.heldOff r.domain) = some r → r.domain < 50 →
      Gives .wakeStart s (fun t => t.dom r.domain = domWaking ∧
        earliestWake (s.power.started ++ s.plannedWakes) r.domain s.now ≤ t.now ∧
        (∀ x ∈ t.power.requests, x.domain ≠ r.domain) ∧
        Waking.mk r.domain (t.now + domLatency r.domain) ∈ t.power.waking ∧
        SameObj s t ([oDomainState r.domain, oWakeDelayCount, oWakeDelayMaxNs] ++ eventKeys))) ∧
    (s.power.requests.find? (fun r => !s.heldOff r.domain) = none → exec .wakeStart s = .next s.quiet)) ∧
  (∀ (n : W16) (i : Item) (s : State), s.item? n.toNat = some i → i.kind = 0x09 → i.unit < 50 →
    let gone := s.dom i.unit = domGated ∨ s.dom i.unit = domOff
    (gone → s.heldOff i.unit = false →
      Gives (.wakeItem n) s (fun t => t.dom i.unit = domWaking ∧ t.now = s.now + (2000 + i.a - s.bell.off) ∧
        SameObj s t [oDomainState i.unit, oPowerState] ∧ t.mem = s.mem)) ∧
    (¬ gone ∨ s.heldOff i.unit = true → exec (.wakeItem n) s = .next (s.quiet.toOffset i.a))) ∧
  (∀ (n : W16) (i : Item) (s : State), s.item? n.toNat = some i → i.kind = 0x0A → i.unit < 50 →
    let up := s.dom i.unit = domOn ∨ s.dom i.unit = domWaking
    (up → Gives (.gateItem n) s (fun t => t.dom i.unit = domGated ∧ t.now = s.now + (2000 + i.a - s.bell.off) ∧
      (gateable i.unit = true → s.obj oPowerState = 1 ∨ s.obj oPowerState = 2 → t.obj oPowerState = 2) ∧
      (isCluster i.unit = false → SameObj s t [oDomainState i.unit, oPowerState]) ∧ t.mem = s.mem)) ∧
    (¬ up → exec (.gateItem n) s = .next (s.quiet.toOffset i.a))) ∧
  (∀ (n : W16) (s : State), (s.item? n.toNat).all (fun i => i.kind != 0x09) = true →
    exec (.wakeItem n) s = .next s.quiet) ∧
  (∀ (n : W16) (s : State), (s.item? n.toNat).all (fun i => i.kind != 0x0A) = true →
    exec (.gateItem n) s = .next s.quiet) ∧
  (∀ (d : Domain) (s : State),
    (∀ w : Waking, s.power.waking.find? (fun w => w.domain == d.val) = some w →
      Gives (.domainWakeDone d) s (fun t => t.dom d.val = domOn ∧ w.usableAt ≤ t.now ∧
        (∀ x ∈ t.power.waking, x.domain ≠ d.val) ∧ SameObj s t [oDomainState d.val] ∧ t.mem = s.mem)) ∧
    (s.power.waking.find? (fun w => w.domain == d.val) = none → exec (.domainWakeDone d) s = .next s.quiet))

/-! ### Rings, lasers and supplies -/

/-- Sweeps and locks (R297 to R299, R309): a sweep goes one step every 5 µs, under a plan one per guard; a heater above
8 mW and all above 60 W are limits met, and a step that would pass the latter finds no candidate; the 65th step
ends it, LOCKING at the candidate nearest the target, or FAILED without one; under a plan the heater moves at the next
guard. A settled lock verifies its tone and locks with it, or tries the next candidate; at a LOCKED ring another
tone counts as a mismatch and unlocks, and a correction stays within its bounds.
Light at a ring (R298, R299): its loss puts a LOCKED ring in HOLDING and its return lets the next window decide;
a drift that no heater can follow, or beyond its bounds under a plan, unlocks the ring; another is corrected. -/
def Obligations.RingTuning : Prop :=
  (∀ (ring : RingId) (s : State),
     let k := ringKey ring
     let m := s.ringAt k
     let alone := fun (t : State) => ∀ j, j ≠ k → t.ringAt j = s.ringAt j
     let unlocked := fun (t : State) => (t.ringAt k).state = 1 ∧ (t.ringAt k).steps = 0 ∧ (t.ringAt k).cands = [] ∧
       (t.ringAt k).unlocked = true ∧ alone t
     let tracked := fun (mhz : Int) (t : State) =>
       let want := clampInt 400000 (m.setting + mhz) - m.setting
       (s.admitted = false → (t.ringAt k).state = 4 ∧ (t.ringAt k).setting = m.setting + want ∧
         (t.ringAt k).track = 0 ∧ (t.ringAt k).want = 0 ∧ alone t) ∧
       (s.admitted = true → mhz.natAbs ≤ 50000 → (t.ringAt k).state = 4 ∧ (t.ringAt k).setting = m.setting ∧
         (t.ringAt k).track = clampInt 25000 want ∧ (t.ringAt k).want = want ∧ alone t) ∧
       (s.admitted = true → 50000 < mhz.natAbs → unlocked t)
     (∀ (res : Bool) (mw : Byte) (total : W32),
       let sweep := Instr.ringSweepStep ring res mw total
       let free := s.admitted = false ∨ (s.bell.inGuard = true ∧ m.stepBeat < s.bell.beat)
       let cands := if res = true ∧ total.toNat ≤ 60000 then m.cands ++ [m.steps] else m.cands
       let hits := b2n (decide (8 < mw.toNat)) + b2n (decide (60000 < total.toNat))
       (m.state ≠ 1 ∨ 65 ≤ m.steps ∨ ¬ free → exec sweep s = .next s.quiet) ∧
       (m.state = 1 → free → m.steps < 64 → Gives sweep s (fun t =>
         (s.admitted = false → m.stepAt + 5000 ≤ t.now) ∧ (s.admitted = true → t.now = s.now) ∧
         (t.ringAt k).state = 1 ∧ (t.ringAt k).steps = m.steps + 1 ∧ (t.ringAt k).cands = cands ∧
         (t.ringAt k).limited = (m.limited || decide (0 < hits)) ∧ alone t ∧
         t.obj oHeaterTotalMw = min 60000 total.toNat ∧
         (hits = 0 → SameObj s t [oHeaterTotalMw] ∧ t.mem = s.mem) ∧
         (0 < hits → t.obj oLimitHitCount = (s.obj oLimitHitCount + hits) % 2 ^ objBits oLimitHitCount))) ∧
       (m.state = 1 → free → m.steps = 64 → Gives sweep s (fun t => t.obj oHeaterTotalMw = min 60000 total.toNat ∧
         (cands = [] → (t.ringAt k).state = 6) ∧
         (cands ≠ [] → (∀ c ∈ m.cands, c ≤ 64) →
           let cs := orderCands cands
           (t.ringAt k).state = 2 ∧
           (s.admitted = false → (t.ringAt k).waits = false ∧ (t.ringAt k).cands = cs.tail ∧
             (t.ringAt k).setting = (Int.ofNat (cs.headD 0) - 32) * 12500) ∧
           (s.admitted = true → (t.ringAt k).waits = true ∧ (t.ringAt k).cands = cs ∧
             (t.ringAt k).setting = m.setting))))) ∧
     (m.state = 2 ∧ m.waits = false → Gives (.ringLockSettled ring) s (fun t => (t.ringAt k).state = 3 ∧
       (t.ringAt k).setting = m.setting ∧ alone t ∧ t.od = s.od ∧ t.mem = s.mem)) ∧
     (m.state ≠ 2 ∨ m.waits = true → exec (.ringLockSettled ring) s = .next s.quiet) ∧
     (∀ (ts : List Tone) (w : W16) (mhz : W32),
       let window := Instr.toneWindow ring ts w mhz
       let wrong := wrongTone (ringLane k) ts
       let mismatched := fun (t : State) => t.obj oMismatchCount = (s.obj oMismatchCount + 1) % 2 ^ objBits oMismatchCount
       (m.state = 3 → ts ≠ [] → wrong = none → Gives window s (fun t => (t.ringAt k).state = 4 ∧
         (t.ringAt k).unlocked = false ∧ (t.ringAt k).setting = m.setting ∧ alone t ∧ SameObj s t eventKeys)) ∧
       (m.state = 3 → ts = [] ∨ wrong ≠ none → m.cands = [] → Gives window s (fun t =>
         (t.ringAt k).state = 6 ∧ mismatched t)) ∧
       (m.state = 3 → ts = [] ∨ wrong ≠ none → m.cands ≠ [] → Gives window s (fun t => (t.ringAt k).state = 2 ∧
         mismatched t ∧ alone t ∧
         (s.admitted = false → (t.ringAt k).cands = m.cands.tail ∧
           (t.ringAt k).setting = (Int.ofNat (m.cands.headD 0) - 32) * 12500) ∧
         (s.admitted = true → (t.ringAt k).waits = true ∧ (t.ringAt k).cands = m.cands))) ∧
       (m.state = 4 → wrong ≠ none → Gives window s (fun t => unlocked t ∧ mismatched t)) ∧
       (m.state = 4 → wrong = none → Gives window s (tracked (toSigned 32 mhz.toNat))) ∧
       (m.state = 5 → m.dark = false → ts ≠ [] → wrong = none → Gives window s (fun t => (t.ringAt k).state = 4 ∧
         (t.ringAt k).setting = m.setting ∧ alone t ∧ t.od = s.od)) ∧
       (m.state = 5 → m.dark = false → wrong ≠ none → Gives window s (fun t => unlocked t ∧ mismatched t)) ∧
       (m.state = 5 ∧ m.dark = false ∧ ts = [] ∨ m.state = 5 ∧ m.dark = true ∨ m.state < 3 ∨ 5 < m.state →
         exec window s = .next (s.quiet.notePower k w.toNat))) ∧
     (m.state = 4 → Gives (.ringLightLoss ring) s (fun t => (t.ringAt k).state = 5 ∧ (t.ringAt k).dark = true ∧
       (t.ringAt k).setting = m.setting ∧ alone t)) ∧
     (m.state ≠ 4 → exec (.ringLightLoss ring) s = .next s.quiet) ∧
     (m.state = 5 → Gives (.ringLightReturn ring) s (fun t => (t.ringAt k).state = 5 ∧ (t.ringAt k).dark = false ∧
       alone t ∧ t.od = s.od ∧ t.mem = s.mem)) ∧
     (m.state ≠ 5 → exec (.ringLightReturn ring) s = .next s.quiet) ∧
     (∀ d : RingDrift, d.ring = ring →
       let high := 8 < d.ringMw.toNat ∨ 60000 < d.totalMw.toNat
       (m.state ≠ 4 → exec (.ringDrift d) s = .next s.quiet) ∧
       (m.state = 4 → high → Gives (.ringDrift d) s (fun t => unlocked t ∧
         t.obj oHeaterTotalMw = min 60000 d.totalMw.toNat)) ∧
       (m.state = 4 → ¬ high → Gives (.ringDrift d) s (fun t => tracked (toSigned 32 d.driftMhz.toNat) t ∧
         t.obj oHeaterTotalMw = d.totalMw.toNat))))

/-- Launch and lasers (R285, R302 to R305, R307 to R309): the launched OMA is shown, a line launched too low is asked for
one level more, and a fibre above 30 mW is a limit met; a margin below 1.50 dB stands as low until all are 2.00 dB, and
one below 0.50 dB switches at once to a standby that fits; a line that drops does the same, and without such a
standby the twin is shown unavailable; a control laser that drops gives way to its spare, or lane C is lost; a supply's
acknowledgement sets the level it was asked for, a STATUS shows its ceilings and faults and may plan a switchover, and a
request without an answer is counted and sent again. -/
def Obligations.LasersAndSupplies : Prop :=
  (∀ (p : Port) (oma : List W16) (f : W32) (s : State),
    let i := p.val / 4
    let s1 := s.quiet.setBlob (oTxPower p.val) (padTo 16 (oma.flatMap (fun w => natLe 2 w.toNat)))
    let mine := (s1.fed i).filter (fun e => e.1 == p.val)
    let urgent := (mine.map (fun e => s1.marginTx p.val e.2)).foldl min 0x7FFF < 50
    (s.fnDown .optics = true → exec (.txMonitorSample p oma f) s = .next s.quiet) ∧
    (s.fnDown .optics = false → Gives (.txMonitorSample p oma f) s (fun t =>
      t.blob (oTxPower p.val) = padTo 16 (oma.flatMap (fun w => natLe 2 w.toNat)) ∧
      t.obj (oMarginMinCdb i) = (match s1.marginMin i with | some m => ofSigned 16 m | none => 0x7FFF) ∧
      (30000 < f.toNat → t.obj oLimitHitCount = (s.obj oLimitHitCount + 1) % 2 ^ objBits oLimitHitCount) ∧
      (urgent → s1.standbyFit i 150 = true → t.obj (oInService i) = 1 - s.obj (oInService i)) ∧
      (¬ urgent ∨ s1.standbyFit i 150 = false → t.obj (oInService i) = s.obj (oInService i)) ∧
      (∀ e ∈ mine, i16At (s1.blob (oTxPower p.val)) e.2 < 425 → s.levelOf i (s.source i) e.2 < 12 →
        Bank.get (s.laser i).asked 0 (8 * s.source i + e.2) ≠ s.bell.beat + 1 →
        s.supplyAddr (s.source i) ≠ 0 →
        LscReq.mk i (s.source i == 1) 0 e.2 (s.levelOf i (s.source i) e.2 + 1) s.now false ∈ t.lsc) ∧
      (s.fed i = [] → f.toNat ≤ 30000 → SameObj s t [oMarginMinCdb i])))) ∧
  (∀ (i : Nat) (m : Int) (s : State), i < 6 → s.marginMin i = some m →
    (s.judgeMargins i).obj (oMarginMinCdb i) = ofSigned 16 m ∧
    (m < 150 → ((s.judgeMargins i).laser i).low = true) ∧
    (200 ≤ m → ((s.judgeMargins i).laser i).low = false) ∧
    (150 ≤ m → m < 200 → ((s.judgeMargins i).laser i).low = (s.laser i).low)) ∧
  (∀ (i : LaserInput) (n : Lane) (s : State),
    let feeds := (s.fed i.val).any (fun e => e.2 == n.val)
    (feeds = true → s.standbyFit i.val 150 = true →
      Gives (.monitorLineDrop i n) s (fun t => t.obj (oInService i.val) = 1 - s.obj (oInService i.val) ∧
        t.obj (oSwitchoverCount i.val) = (s.obj (oSwitchoverCount i.val) + 1) % 2 ^ objBits (oSwitchoverCount i.val) ∧
        (t.laser i.val).emergAt = some s.now)) ∧
    (feeds = true → s.standbyFit i.val 150 = false →
      Gives (.monitorLineDrop i n) s (fun t => (t.laser i.val).twinOut = true ∧ SameObj s t eventKeys)) ∧
    (feeds = false → exec (.monitorLineDrop i n) s = .next s.quiet)) ∧
  (∀ (p : Port) (s : State),
    (s.activeLaser p.val = none → exec (.controlLaserDrop p) s = .next s.quiet) ∧
    (∀ a : Nat, s.activeLaser p.val = some a → bits (s.obj (oClState p.val)) (2 * (1 - a)) 2 = 0 →
      Gives (.controlLaserDrop p) s (fun t => bits (t.obj (oClState p.val)) (2 * a) 2 = 2 ∧
        bits (t.obj (oClState p.val)) (2 * (1 - a)) 2 = 1 ∧
        t.obj (oClBiasUa p.val) = (Config.controlLaserBias (p.val + 24 * (1 - a))).toNat ∧
        SameObj s t ([oClState p.val, oClBiasUa p.val] ++ eventKeys))) ∧
    (∀ a : Nat, s.activeLaser p.val = some a → bits (s.obj (oClState p.val)) (2 * (1 - a)) 2 ≠ 0 →
      Gives (.controlLaserDrop p) s (fun t => bits (t.obj (oClState p.val)) (2 * a) 2 = 2 ∧
        t.obj (oLinkState p.val) = 0 ∧ (t.portSt p.val).useTx = 0 ∧ (t.portSt p.val).useRx = 0))) ∧
  (∀ s : State,
    let first := s.lsc.find? (fun r => !r.again)
    (first = none → exec .lscRequestTimeout s = .next s.quiet ∧ ∀ a, exec (.lscResponse a) s = .next s.quiet) ∧
    (∀ r : LscReq, first = some r →
      Gives .lscRequestTimeout s (fun t => r.sentAt + 1000000 ≤ t.now ∧
        t.lsc = s.lsc.erase r ++ [{ r with again := true }] ∧
        t.obj oLscErrorCount = (s.obj oLscErrorCount + 1) % 2 ^ objBits oLscErrorCount ∧
        SameObj s t [oLscErrorCount] ∧ t.mem = s.mem))) ∧
  (∀ (a : LscStatus) (r : LscReq) (s : State), s.lsc.find? (fun r => !r.again) = some r → r.input < 6 →
    let i := r.input
    let src := b2n r.twin
    let stands := src = s.source i ∧ (s.fed i).any (fun e => bit a.ceilings.toNat e.2) = true
    (r.op = 0 → Gives (.lscResponse a) s (fun t => t.lsc = s.lsc.erase r ∧
      t.obj (oLevels i) = setBits (s.obj (oLevels i)) (32 * src + 4 * r.line) 4 r.level ∧
      SameObj s t [oLevels i] ∧ t.mem = s.mem)) ∧
    (r.op = 1 → Gives (.lscResponse a) s (fun t => t.lsc = s.lsc.erase r ∧
      Bank.get (t.laser i).faults 0 src = a.faults.toNat ∧
      (∀ n < 8, (t.laser i).atCeiling.contains (8 * src + n) = bit a.ceilings.toNat n) ∧
      (¬ stands → SameObj s t [] ∧ t.mem = s.mem ∧ (t.laser i).next = (s.laser i).next) ∧
      (stands → s.eligible i = true → (s.laser i).next = none →
        (s.laser i).lastSwitch = 0 ∨ (s.laser i).lastSwitch + 1000 ≤ s.bell.beat + 2 →
        ∃ x, (t.laser i).next = some x ∧ x.ceiling = true ∧ x.twin = (s.standby i == 1)) ∧
      (stands → s.eligible i = false → (t.laser i).twinOut = true))) ∧
    (1 < r.op → exec (.lscResponse a) s = .next { s.quiet with lsc := s.lsc.erase r }))

/-! ### Memory and ledger -/

/-- The memory's upkeep (R266 to R268, R275 to R277) and the ledger's interval (R429): patrol scrub decodes the next
line and moves on, from the top to 0 with its pass counted; one or two symbols in error are corrected in the line and
counted, and more mark the line; it rests while the memory is not served, in another power state and in a warm reset; a page
copied is retired to its spare, its lines corrected or marked; zeroing leaves every byte zero and the memory VALID; the
ledger's count of flash entries starts again. -/
def Obligations.MemoryUpkeep : Prop :=
  (∀ (us : List Upset) (w : Bool) (s : State),
    let u := s.quiet.strike us
    let pos := s.obj oScrubPosition
    let e := Bank.get u.mem.errors 0 pos
    let word := storedWord (memRead s.mem.bytes pos 64) e
    let runs := (s.obj oPowerState = 1 ∨ s.obj oPowerState = 2) ∧ s.obj oMemState ≠ 0 ∧ s.power.warmReset = none
    let meets := w = false ∧ s.marked pos = false ∧ e ≠ 0
    let moved := fun (t : State) =>
      (pos + 64 < memTop → t.obj oScrubPosition = pos + 64 ∧ t.obj oScrubPasses = s.obj oScrubPasses) ∧
      (memTop ≤ pos + 64 → t.obj oScrubPosition = 0 ∧ t.obj oLastPassEnd = s.timeNow ∧
        t.obj oScrubPasses = (s.obj oScrubPasses + 1) % 2 ^ objBits oScrubPasses)
    (¬ runs → exec (.patrolScrub us w) s = .next u) ∧
    (runs → ¬ meets → Gives (.patrolScrub us w) s (fun t => moved t ∧ t.mem = u.mem ∧
      SameObj s t [oScrubPosition, oScrubPasses, oLastPassEnd])) ∧
    (runs → meets → decodeWord word = .clean → Gives (.patrolScrub us w) s (fun t => moved t ∧
      Bank.get t.mem.errors 0 pos = 0 ∧ t.mem.poison = s.mem.poison ∧
      SameObj s t [oScrubPosition, oScrubPasses, oLastPassEnd])) ∧
    (∀ c, runs → meets → decodeWord word = .corrected c → Gives (.patrolScrub us w) s (fun t => moved t ∧
      t.obj oCorrectedCount = (s.obj oCorrectedCount + 1) % 2 ^ objBits oCorrectedCount ∧
      Bank.get t.mem.errors 0 pos = 0 ∧
      (s.eventQueue = none → t.mem.poison = s.mem.poison ∧ memRead t.mem.bytes pos 64 = symbolBytes c))) ∧
    (runs → meets → decodeWord word = .detected → Gives (.patrolScrub us w) s (fun t => moved t ∧
      t.obj oUncorrectableCount = (s.obj oUncorrectableCount + 1) % 2 ^ objBits oUncorrectableCount ∧
      Bank.get t.mem.errors 0 pos = 0 ∧ (s.eventQueue = none → t.marked pos = true)))) ∧
  (∀ (us : List Upset) (s : State),
    let u := s.quiet.strike us
    (s.mem.copying = [] → exec (.pageCopyDone us) s = .next u) ∧
    (∀ (page : Nat) (rest : List Nat), s.mem.copying = page :: rest →
      let sound := fun (i : Nat) => s.marked (page * 4096 + 64 * i) = true ∨
        Bank.get u.mem.errors 0 (page * 4096 + 64 * i) = 0
      Gives (.pageCopyDone us) s (fun t => page ∈ t.mem.retired ∧ (∀ q ∈ rest, q ∈ t.mem.copying) ∧
        ((∀ i < 64, sound i) → t.mem.copying = rest ∧ SameMem s t ∧ t.od = s.od) ∧
        (∀ i < 64, s.marked (page * 4096 + 64 * i) = false →
          Bank.get t.mem.errors 0 (page * 4096 + 64 * i) = 0)))) ∧
  (∀ s : State,
    (s.power.zeroing = true → Gives .zeroingDone s (fun t => (∀ a, t.byteAt a = 0) ∧ t.mem.poison = [] ∧
      t.mem.errors = [] ∧ t.obj oMemState = 1 ∧ t.power.zeroing = false ∧ SameObj s t [oMemState])) ∧
    (s.power.zeroing = false → exec .zeroingDone s = .next s.quiet)) ∧
  (∀ s : State,
    (s.power.aux = true → Gives .ledgerInterval s (fun t => t.ledger.inInterval = 0 ∧
      t.ledger.suppressedRaised = false ∧ t.ledger.ring = s.ledger.ring ∧ t.ledger.flash = s.ledger.flash ∧
      s.ledger.intervalStart + 1000000000 ≤ t.now ∧ t.od = s.od ∧ t.mem = s.mem)) ∧
    (s.power.aux = false → exec .ledgerInterval s = .next s.quiet))

/-! ### Power, resets, temperature and security -/

/-- The power pins and supplies (R435, R437, R443, R464, R465): PWR_EN with its supplies good begins the power-up, which
ends in RUN with every domain on; with one missing the power-up waits for it; its fall, and an input far out of range,
switch every 48 V domain off and clear the memory; AUX_3V3 carries the always-on domains and starts the boot ROM. -/
def Obligations.PowerPins : Prop :=
  let up := fun (s t : State) => t.power.powerUp = some t.now ∧ t.power.zeroing = true ∧
    (∀ d ∈ domains48, t.dom d = domWaking) ∧ t.obj oMemState = 0 ∧
    t.obj oPowerOnCount = (s.obj oPowerOnCount + 1) % 2 ^ objBits oPowerOnCount
  let sampled := fun (s t : State) => t.obj oOrderlyAtStart = s.obj oLastShutdownOrderly ∧ t.obj oLastShutdownOrderly = 0
  let off := fun (t : State) => t.obj oPowerState = 0 ∧ t.admitted = false ∧ ∀ d ∈ domains48, t.dom d = domOff
  let free := fun (s : State) => s.power.powerUp.isNone && s.obj oPowerState == 0 && s.power.resetN && !s.power.thermTripN
  (∀ s : State,
    (s.power.pwrEn = true → exec .pwrEnRise s = .next s.quiet) ∧
    (s.power.pwrEn = false → s.power.auxSettled = true → (s.inRange48 && free s) = true →
      Gives .pwrEnRise s (fun t => t.power.pwrEn = true ∧ t.now = s.now ∧ up s t ∧ sampled s t)) ∧
    (s.power.pwrEn = false → s.power.auxSettled = true → (s.inRange48 && free s) = false →
      Gives .pwrEnRise s (fun t => t.power.pwrEn = true ∧ t.power.powerUp = s.power.powerUp ∧ sampled s t ∧
        SameObj s t [oOrderlyAtStart, oLastShutdownOrderly] ∧ t.mem = s.mem)) ∧
    (s.power.pwrEn = false → s.power.auxSettled = false → Gives .pwrEnRise s (fun t =>
      t.power.pwrEn = true ∧ t.power.powerUp = s.power.powerUp ∧ t.od = s.od ∧ t.mem = s.mem))) ∧
  (∀ s : State,
    let ready := s.power.powerUp.isSome && !s.power.zeroing && !s.power.selfTestStart
    (ready = false → exec .powerUpDone s = .next s.quiet) ∧
    (∀ n : Nat, ready = true → s.power.powerUp = some n →
      Gives .powerUpDone s (fun t => t.obj oPowerState = 1 ∧ (∀ d ∈ domains48, t.dom d = domOn) ∧
        t.power.powerUp = none ∧ n + 40000000 ≤ t.now ∧
        (s.obj oStResult = 3 → t.obj oSafe ≠ 0 ∧ (s.obj oSafe = 0 → t.obj oSafe = 1)) ∧
        (s.obj oStResult ≠ 3 → s.power.tripLatched = true →
          t.obj oSafe ≠ 0 ∧ (s.obj oSafe = 0 → t.obj oSafe = 2) ∧ t.power.tripLatched = false) ∧
        (s.obj oStResult ≠ 3 → s.power.tripLatched = false → t.obj oSafe = s.obj oSafe)))) ∧
  (∀ s : State,
    (s.power.pwrEn = true → Gives .pwrEnFall s (fun t => t.power.pwrEn = false ∧ off t ∧ (∀ a, t.byteAt a = 0) ∧
      (s.power.aux = true → t.dom 39 = domOn ∧ t.dom 40 = domOn ∧ t.power.boot = .verifying))) ∧
    (s.power.pwrEn = false → exec .pwrEnFall s = .next s.quiet)) ∧
  (∀ s : State,
    (s.power.aux = true → Gives .aux3v3Loss s (fun t => t.power.aux = false ∧ t.power.auxSettled = false ∧
      t.dom 39 = domOff ∧ t.dom 40 = domOff ∧ t.power.boot = .off ∧ t.power.pwrEn = s.power.pwrEn ∧
      (s.power.pwrEn = true → t.obj oPowerState = 0 ∧ t.obj oLastShutdownOrderly = 0 ∧
        ∀ d ∈ domains48, t.dom d = domOff))) ∧
    (s.power.aux = false → exec .aux3v3Loss s = .next s.quiet) ∧
    (s.power.aux = false → Gives .aux3v3Rise s (fun t => t.power.aux = true ∧ t.power.auxSince = s.now ∧
      t.dom 39 = domOn ∧ t.dom 40 = domOn ∧ t.power.boot = .verifying)) ∧
    (s.power.aux = true → exec .aux3v3Rise s = .next s.quiet)) ∧
  (∀ s : State,
    let settles := s.power.aux && !s.power.auxSettled
    let settled := fun (t : State) => t.power.auxSettled = true ∧ s.power.auxSince + 200000000 ≤ t.now
    let goes := s.inRange48 && !s.power.latchedOff && free s
    (settles = false → exec .aux3v3Settled s = .next s.quiet) ∧
    (settles = true → s.power.pwrEn = false → Gives .aux3v3Settled s (fun t => settled t ∧ t.od = s.od ∧
      t.mem = s.mem)) ∧
    (settles = true → s.power.pwrEn = true → goes = true → Gives .aux3v3Settled s (fun t => settled t ∧ up s t ∧
      sampled s t)) ∧
    (settles = true → s.power.pwrEn = true → goes = false → Gives .aux3v3Settled s (fun t => settled t ∧
      sampled s t ∧ t.power.powerUp = s.power.powerUp ∧ SameObj s t [oOrderlyAtStart, oLastShutdownOrderly]))) ∧
  (∀ (mv : W32) (s : State),
    let on := s.obj oPowerState ≠ 0 ∨ s.power.powerUp.isSome = true
    let far := mv.toNat < 38000 ∨ 62000 < mv.toNat
    let alarm := s.inRange48 = true ∧ (mv.toNat < 40000 ∨ 60000 < mv.toNat)
    let goes := s.power.pwrEn && s.power.auxSettled && !s.power.latchedOff && s.power.resetN && !s.power.thermTripN &&
      decide (40000 ≤ mv.toNat) && decide (mv.toNat ≤ 60000)
    (on → far → Gives (.inputVoltageChange mv) s (fun t => off t ∧ t.power.latchedOff = true ∧
      t.obj oLastShutdownOrderly = 0)) ∧
    (on → ¬ far → alarm → Gives (.inputVoltageChange mv) s (fun t => t.obj oInputMv = mv.toNat ∧ t.alert = true ∧
      t.obj oInputAlerts = (s.obj oInputAlerts + 1) % 2 ^ objBits oInputAlerts ∧
      SameObj s t [oInputMv, oInputAlerts] ∧ t.mem = s.mem)) ∧
    (on ∧ ¬ far ∧ ¬ alarm ∨ ¬ on ∧ goes = false → Gives (.inputVoltageChange mv) s (fun t =>
      t.power.mv48 = mv.toNat ∧ t.obj oInputMv = mv.toNat ∧ SameObj s t [oInputMv] ∧ t.mem = s.mem ∧
      t.power.powerUp = s.power.powerUp)) ∧
    (¬ on → goes = true → Gives (.inputVoltageChange mv) s (fun t => t.obj oInputMv = mv.toNat ∧ up s t)))

/-- R461: ALERT_N is asserted while POWER_STATE is READY_OFF, SAFE or THERMAL_STATE is nonzero or the 48 V input is
outside 40 to 60 V, and released when none of these holds. -/
def Obligations.AlertPin : Prop :=
  ∀ s : State, s.alert = true ↔ (s.obj oPowerState = 5 ∨ s.obj oSafe ≠ 0 ∨ s.obj oThermalState ≠ 0 ∨
    s.power.mv48 < 40000 ∨ 60000 < s.power.mv48)

/-- Resets (R441, R475): RESET_N held for 1 µs and a watchdog that expires each begin a warm reset, which ends the plan
and restarts the management complex, and waits while a firmware copy runs; a shorter pulse, or one with the module
OFF, resets nothing; RESET_N's rise lets a power-up go on that waited for it; once the image runs again and
the domains are awake, but for those that THERMAL_STOP holds off, the reset ends in RUN with its cause shown; with the
module OFF it ends there (DESIGN CHOICE: assumption 98). -/
def Obligations.Resets : Prop :=
  let resets := fun (c : Instr) (cause : ResetCause) (s : State) =>
    (s.power.copying = false → Gives c s (fun t => t.power.warmReset = some cause ∧
      t.power.boot = (if s.power.aux then .verifying else .off) ∧ t.admitted = false ∧ t.plan = none ∧
      t.obj oResetCount = (s.obj oResetCount + 1) % 2 ^ 32)) ∧
    (s.power.copying = true → Gives c s (fun t => t.power.resetHeld = some cause ∧
      t.power.warmReset = s.power.warmReset ∧ t.power.copying = true ∧ t.od = s.od ∧ t.mem = s.mem))
  (∀ (ns : W32) (s : State),
    (Gives (.resetN ns) s (fun t => t.power.resetN = false)) ∧
    (1000 ≤ ns.toNat → s.obj oPowerState ≠ 0 → resets (.resetN ns) .pin s) ∧
    (ns.toNat < 1000 ∨ s.obj oPowerState = 0 → Gives (.resetN ns) s (fun t => t.power.resetN = false ∧
      t.power.warmReset = s.power.warmReset ∧ t.od = s.od ∧ t.mem = s.mem))) ∧
  (∀ s : State,
    let goes := s.power.pwrEn && s.power.auxSettled && s.inRange48 && !s.power.latchedOff && s.power.powerUp.isNone &&
      s.obj oPowerState == 0 && !s.power.thermTripN
    (goes = false → Gives .resetNRise s (fun t => t.power.resetN = true ∧
      t.power.warmReset = s.power.warmReset ∧ t.od = s.od ∧ t.mem = s.mem)) ∧
    (goes = true → Gives .resetNRise s (fun t => t.power.resetN = true ∧ t.power.powerUp = some s.now ∧
      t.power.zeroing = true ∧ ∀ d ∈ domains48, t.dom d = domWaking))) ∧
  (∀ s : State,
    (s.power.boot = .image → s.obj oPowerState ≠ 0 → resets .watchdogExpiry .watchdog s) ∧
    (s.power.boot ≠ .image ∨ s.obj oPowerState = 0 → exec .watchdogExpiry s = .next s.quiet)) ∧
  (∀ s : State,
    (∀ c : ResetCause, s.power.warmReset = some c → s.power.boot = .image → s.resetAwake = true →
      Gives .warmResetDone s (fun t => t.power.warmReset = none ∧
        t.obj oPowerState = (if s.obj oPowerState = 0 then 0 else 1) ∧
        (∀ d ∈ domains48, t.dom d = s.dom d) ∧ t.obj oLastReset % 2 ^ 16 = c.code ∧
        (s.obj oMemState = 1 → t.obj oMemState = 2) ∧ (s.eventQueue = none → t.mem.bytes = s.mem.bytes))) ∧
    (s.power.warmReset = none ∨ s.power.boot ≠ .image ∨ s.resetAwake = false → exec .warmResetDone s = .next s.quiet))

/-- Temperature (R440, Table 17-4) and current (R454): the hottest reading is shown; above 105 °C it is a notice, armed
again below 100 °C; from 115 °C the compute, update and memory-side domains go off and the plan ends, until 1 s below
100 °C asks for them again; from 125 °C every 48 V domain goes off; a domain above its cap is switched off and
counted, and on domains 0 to 23 the step is POISONED. -/
def Obligations.TemperatureAndCurrent : Prop :=
  (∀ (a b c : List W16) (s : State),
    let tj := (hottest a b c).1
    let on := s.obj oPowerState ≠ 0 ∨ s.power.powerUp.isSome = true
    let held := s.power.thermalHeld
    let old := s.obj oThermalState
    let notice := decide (10500 < tj) && s.power.noticeArmed
    let rearm := decide (tj < 10000) && !s.power.noticeArmed
    let cooled := held && decide (tj < 10000) && s.power.coolSince.any (fun x => decide (x + 1000000000 ≤ s.now))
    (¬ on → exec (.thermalSample a b c) s = .next s.quiet) ∧
    (on → tj < 12500 → (tj < 11500 ∨ held = true) →
      Gives (.thermalSample a b c) s (fun t => t.obj oTjMaxC = centiF32 tj ∧
        t.power.noticeArmed = (if notice then false else if rearm then true else s.power.noticeArmed) ∧
        t.obj oThermalState = (if cooled then 0 else if notice then max 1 old
          else if rearm = true ∧ old = 1 then 0 else old) ∧
        t.power.thermalHeld = (held && !cooled) ∧
        (held = true → 10000 ≤ tj → t.power.coolSince = none) ∧
        (held = true → tj < 10000 → s.power.coolSince = none → t.power.coolSince = some s.now) ∧
        (cooled = true → ∀ d ∈ stopDomains, t.dom d ≠ domOn → t.dom d ≠ domWaking →
          t.power.requests.any (fun r => r.domain == d) = true) ∧
        SameObj s t ([oTjMaxC, oTjPeakC, oLastThermal, oThermalState] ++ eventKeys) ∧
        (notice = false → t.mem = s.mem))) ∧
    (on → 11500 ≤ tj → tj < 12500 → held = false →
      Gives (.thermalSample a b c) s (fun t => t.obj oThermalState = 2 ∧ t.power.thermalHeld = true ∧
        t.obj oStopCount = (s.obj oStopCount + 1) % 2 ^ objBits oStopCount ∧ t.admitted = false ∧
        ∀ d ∈ stopDomains, t.dom d = domOff)) ∧
    (on → 12500 ≤ tj → Gives (.thermalSample a b c) s (fun t => t.obj oThermalState = 3 ∧
      t.power.thermTripN = true ∧ t.power.tripLatched = true ∧ t.obj oPowerState = 0 ∧ t.admitted = false ∧
      ∀ d ∈ domains48, t.dom d = domOff))) ∧
  (∀ (d : Domain) (ma : W32) (s : State),
    let dark := s.dom d.val = domOff ∨ s.dom d.val = domCapped
    (¬ dark → currentCap d.val < ma.toNat →
      Gives (.currentLimit d ma) s (fun t => t.dom d.val = domCapped ∧
        t.obj oCurrentLimitCount = (s.obj oCurrentLimitCount + 1) % 2 ^ objBits oCurrentLimitCount ∧
        (d.val < 24 → s.admitted = true → t.step.fault = true) ∧
        (d.val = 11 ∨ d.val = 23 → t.router = [] ∧ t.txLinks = [] ∧ t.rxLinks = []))) ∧
    (dark ∨ ma.toNat ≤ currentCap d.val → exec (.currentLimit d ma) s = .next s.quiet))

/-- Security violations (R403, R452): a digest of the code that differs from the running image's, a core that reaches
for the security core, and debug access in DEPLOYED or RETIRED are counted, end the plan and enter SAFE; the same
digest, or debug access in another state, changes nothing; nor does any of them while no image runs, or without
AUX_3V3. -/
def Obligations.SecurityViolations : Prop :=
  let violates := fun (c : Instr) (s : State) => Gives c s (fun t =>
    t.obj oViolationCount = (s.obj oViolationCount + 1) % 2 ^ objBits oViolationCount ∧ t.obj oSafe ≠ 0 ∧
    (s.obj oSafe = 0 → t.obj oSafe = 2) ∧ t.admitted = false ∧ (∀ p < 24, t.obj (oDataGate p) = 0) ∧
    ∀ p, (t.portSt p).useTx = 0 ∧ (t.portSt p).useRx = 0)
  (∀ (d : BitVec 384) (s : State),
    let same := natLe 48 d.toNat = s.blob oFwRunningDigest
    (s.power.boot = .image → ¬ same → violates (.securityCheck d) s) ∧
    (s.power.boot ≠ .image ∨ same → exec (.securityCheck d) s = .next s.quiet)) ∧
  (∀ s : State,
    (s.power.aux = true → violates .securityCoreAccess s) ∧
    (s.power.aux = false → exec .securityCoreAccess s = .next s.quiet)) ∧
  (∀ s : State,
    let guarded := s.obj oLcState = 2 ∨ s.obj oLcState = 4
    (s.power.aux = true → guarded → violates .debugAccess s) ∧
    (s.power.aux = false ∨ ¬ guarded → exec .debugAccess s = .next s.quiet))
end

