-- ==== Sys2Proof/Laws/State.lean ====
section
/-! SUPPORT. What the named operations on the state read and leave: the value read after a write, and one lemma per
field and operation. -/

namespace Sys2Proof.Machine

/-! ### Values in a bank -/

theorem Bank.find_put {α : Type} (m : Bank α) (k : Nat) (v : α) (j : Nat) :
    (Bank.put m k v).find? (fun e => e.1 == j) = if j = k then some (k, v) else m.find? (fun e => e.1 == j) := by
  induction m with
  | nil =>
    by_cases h : j = k
    · subst h; simp [Bank.put]
    · simp [Bank.put, h, Ne.symm h]
  | cons g m ih =>
    obtain ⟨i, w⟩ := g
    simp only [Bank.put]
    split
    · by_cases h : j = k
      · subst h; simp
      · simp [h, Ne.symm h]
    · split
      · next q =>
        subst q
        by_cases h : j = k
        · subst h; simp
        · simp [h, Ne.symm h]
      · next q =>
        by_cases h : j = k
        · subst h
          simp only [List.find?_cons, ih, if_pos]
          have : (i == j) = false := by simp; omega
          simp [this]
        · simp only [List.find?_cons, ih, if_neg h]

theorem Bank.find_erase {α : Type} (m : Bank α) (k j : Nat) :
    (Bank.erase m k).find? (fun e => e.1 == j) = if j = k then none else m.find? (fun e => e.1 == j) := by
  induction m with
  | nil => simp [Bank.erase]
  | cons g m ih =>
    obtain ⟨i, w⟩ := g
    simp only [Bank.erase] at ih ⊢
    by_cases q : i = k
    · subst q
      by_cases h : j = i
      · subst h; simp
      · simpa [h, Ne.symm h] using ih
    · by_cases h : j = k
      · subst h
        simp [q]
      · by_cases r : i = j
        · subst r; simp [q]
        · simpa [q, r, h] using ih

/-- A bank read after a write. -/
theorem Bank.get_set {α : Type} [DecidableEq α] (m : Bank α) (d : α) (k : Nat) (v : α) (j : Nat) :
    Bank.get (Bank.set m d k v) d j = if j = k then v else Bank.get m d j := by
  have gf : ∀ m : Bank α, Bank.get m d j = ((m.find? (fun e => e.1 == j)).map (fun e => e.2)).getD d := by
    intro m
    induction m with
    | nil => rfl
    | cons e m ih =>
      obtain ⟨i, w⟩ := e
      simp only [Bank.get, List.find?_cons, ih]
      by_cases h : i = j
      · simp [h]
      · have q : (i == j) = false := by simp [h]
        simp [h, q]
  by_cases q : v = d
  · simp only [Bank.set, if_pos q, gf, Bank.find_erase]
    by_cases h : j = k
    · simp [h, q]
    · simp [h]
  · simp only [Bank.set, if_neg q, gf, Bank.find_put]
    by_cases h : j = k
    · simp [h]
    · simp [h]

/-! ### Objects -/

/-- An object read after a write. -/
theorem State.obj_setObj (s : State) (k v j : Nat) : (s.setObj k v).obj j = if j = k then v else s.obj j := by
  by_cases q : v = objDefault k
  · simp only [State.obj, State.setObj, if_pos q, Bank.find_erase]
    by_cases h : j = k
    · simp [h, q]
    · simp [h]
  · simp only [State.obj, State.setObj, if_neg q, Bank.find_put]
    by_cases h : j = k
    · simp [h]
    · simp [h]

@[simp] theorem State.obj_setObj_self (s : State) (k v : Nat) : (s.setObj k v).obj k = v := by
  simp [State.obj_setObj]

theorem State.obj_setObj_ne (s : State) {k j : Nat} (v : Nat) (h : j ≠ k) : (s.setObj k v).obj j = s.obj j := by
  simp [State.obj_setObj, h]

/-- A byte object read after a write. -/
theorem State.blob_setBlob (s : State) (k : Nat) (v : Bytes) (j : Nat) : (s.setBlob k v).blob j = if j = k then v else s.blob j := by
  by_cases q : v = blobDefault k
  · simp only [State.blob, State.setBlob, if_pos q, Bank.find_erase]
    by_cases h : j = k
    · simp [h, q]
    · simp [h]
  · simp only [State.blob, State.setBlob, if_neg q, Bank.find_put]
    by_cases h : j = k
    · simp [h]
    · simp [h]

/-- Objects depend on nothing but where they are stored. -/
theorem State.obj_of_od {s t : State} (h : t.od = s.od) (k : Nat) : t.obj k = s.obj k := by
  simp only [State.obj, h]

theorem State.blob_of_blobs {s t : State} (h : t.blobs = s.blobs) (k : Nat) : t.blob k = s.blob k := by
  simp only [State.blob, h]

theorem State.flow_setFlow (s : State) (n : Nat) (f : FlowSt) (j : Nat) :
    (s.setFlow n f).flow j = if j = n then f else s.flow j := Bank.get_set ..

theorem State.ring_setRing (s : State) (n : Nat) (r : RingSt) (j : Nat) :
    (s.setRing n r).ring j = if j = n then r else s.ring j := Bank.get_set ..

/-! ### One lemma per operation and field -/

@[simp] theorem State.setObj_blobs (s : State) (k v : Nat) : (s.setObj k v).blobs = s.blobs := rfl
@[simp] theorem State.setObj_now (s : State) (k v : Nat) : (s.setObj k v).now = s.now := rfl
@[simp] theorem State.setObj_bell (s : State) (k v : Nat) : (s.setObj k v).bell = s.bell := rfl
@[simp] theorem State.setObj_inBand (s : State) (k v : Nat) : (s.setObj k v).inBand = s.inBand := rfl
@[simp] theorem State.setObj_outOfBand (s : State) (k v : Nat) : (s.setObj k v).outOfBand = s.outOfBand := rfl
@[simp] theorem State.setObj_mctp (s : State) (k v : Nat) : (s.setObj k v).mctp = s.mctp := rfl
@[simp] theorem State.setObj_deferred (s : State) (k v : Nat) : (s.setObj k v).deferred = s.deferred := rfl
@[simp] theorem State.setObj_events (s : State) (k v : Nat) : (s.setObj k v).events = s.events := rfl
@[simp] theorem State.setObj_ledger (s : State) (k v : Nat) : (s.setObj k v).ledger = s.ledger := rfl
@[simp] theorem State.setObj_plan (s : State) (k v : Nat) : (s.setObj k v).plan = s.plan := rfl
@[simp] theorem State.setObj_admitting (s : State) (k v : Nat) : (s.setObj k v).admitting = s.admitting := rfl
@[simp] theorem State.setObj_step (s : State) (k v : Nat) : (s.setObj k v).step = s.step := rfl
@[simp] theorem State.setObj_mem (s : State) (k v : Nat) : (s.setObj k v).mem = s.mem := rfl
@[simp] theorem State.setObj_rings (s : State) (k v : Nat) : (s.setObj k v).rings = s.rings := rfl
@[simp] theorem State.setObj_mailboxes (s : State) (k v : Nat) : (s.setObj k v).mailboxes = s.mailboxes := rfl
@[simp] theorem State.setObj_flows (s : State) (k v : Nat) : (s.setObj k v).flows = s.flows := rfl
@[simp] theorem State.setObj_power (s : State) (k v : Nat) : (s.setObj k v).power = s.power := rfl
@[simp] theorem State.setObj_contribs (s : State) (k v : Nat) : (s.setObj k v).contribs = s.contribs := rfl
@[simp] theorem State.setObj_engines (s : State) (k v : Nat) : (s.setObj k v).engines = s.engines := rfl
@[simp] theorem State.setObj_cores (s : State) (k v : Nat) : (s.setObj k v).cores = s.cores := rfl
@[simp] theorem State.setObj_merges (s : State) (k v : Nat) : (s.setObj k v).merges = s.merges := rfl
@[simp] theorem State.setObj_spent (s : State) (k v : Nat) : (s.setObj k v).spent = s.spent := rfl
@[simp] theorem State.setObj_verdicts (s : State) (k v : Nat) : (s.setObj k v).verdicts = s.verdicts := rfl
@[simp] theorem State.setObj_ovfAt (s : State) (k v : Nat) : (s.setObj k v).ovfAt = s.ovfAt := rfl
@[simp] theorem State.setObj_windows (s : State) (k v : Nat) : (s.setObj k v).windows = s.windows := rfl
@[simp] theorem State.setObj_delivered (s : State) (k v : Nat) : (s.setObj k v).delivered = s.delivered := rfl
@[simp] theorem State.setObj_shards (s : State) (k v : Nat) : (s.setObj k v).shards = s.shards := rfl
@[simp] theorem State.setObj_sums (s : State) (k v : Nat) : (s.setObj k v).sums = s.sums := rfl
@[simp] theorem State.setObj_groupT (s : State) (k v : Nat) : (s.setObj k v).groupT = s.groupT := rfl
@[simp] theorem State.setObj_eta (s : State) (k v : Nat) : (s.setObj k v).eta = s.eta := rfl
@[simp] theorem State.setObj_records (s : State) (k v : Nat) : (s.setObj k v).records = s.records := rfl
@[simp] theorem State.setObj_unitStrikes (s : State) (k v : Nat) : (s.setObj k v).unitStrikes = s.unitStrikes := rfl
@[simp] theorem State.setObj_captures (s : State) (k v : Nat) : (s.setObj k v).captures = s.captures := rfl
@[simp] theorem State.setObj_packs (s : State) (k v : Nat) : (s.setObj k v).packs = s.packs := rfl
@[simp] theorem State.setObj_ports (s : State) (k v : Nat) : (s.setObj k v).ports = s.ports := rfl
@[simp] theorem State.setObj_txLinks (s : State) (k v : Nat) : (s.setObj k v).txLinks = s.txLinks := rfl
@[simp] theorem State.setObj_rxLinks (s : State) (k v : Nat) : (s.setObj k v).rxLinks = s.rxLinks := rfl
@[simp] theorem State.setObj_router (s : State) (k v : Nat) : (s.setObj k v).router = s.router := rfl
@[simp] theorem State.setObj_micro (s : State) (k v : Nat) : (s.setObj k v).micro = s.micro := rfl
@[simp] theorem State.setObj_settings (s : State) (k v : Nat) : (s.setObj k v).settings = s.settings := rfl
@[simp] theorem State.setObj_lasers (s : State) (k v : Nat) : (s.setObj k v).lasers = s.lasers := rfl
@[simp] theorem State.setObj_lsc (s : State) (k v : Nat) : (s.setObj k v).lsc = s.lsc := rfl
@[simp] theorem State.setObj_prep (s : State) (k v : Nat) : (s.setObj k v).prep = s.prep := rfl
@[simp] theorem State.setObj_xrClear (s : State) (k v : Nat) : (s.setObj k v).xrClear = s.xrClear := rfl
@[simp] theorem State.setObj_digesting (s : State) (k v : Nat) : (s.setObj k v).digesting = s.digesting := rfl
@[simp] theorem State.setObj_keeper (s : State) (k v : Nat) : (s.setObj k v).keeper = s.keeper := rfl
@[simp] theorem State.setObj_out (s : State) (k v : Nat) : (s.setObj k v).out = s.out := rfl
@[simp] theorem State.setObj_freeCount (s : State) (k v : Nat) : (s.setObj k v).freeCount = s.freeCount := rfl
@[simp] theorem State.setObj_pending (s : State) (k v : Nat) : (s.setObj k v).pending = s.pending := rfl
@[simp] theorem State.setObj_blob (s : State) (k v : Nat) (j : Nat) : (s.setObj k v).blob j = s.blob j := rfl

@[simp] theorem State.setBlob_od (s : State) (k : Nat) (v : Bytes) : (s.setBlob k v).od = s.od := rfl
@[simp] theorem State.setBlob_now (s : State) (k : Nat) (v : Bytes) : (s.setBlob k v).now = s.now := rfl
@[simp] theorem State.setBlob_bell (s : State) (k : Nat) (v : Bytes) : (s.setBlob k v).bell = s.bell := rfl
@[simp] theorem State.setBlob_inBand (s : State) (k : Nat) (v : Bytes) : (s.setBlob k v).inBand = s.inBand := rfl
@[simp] theorem State.setBlob_outOfBand (s : State) (k : Nat) (v : Bytes) : (s.setBlob k v).outOfBand = s.outOfBand := rfl
@[simp] theorem State.setBlob_mctp (s : State) (k : Nat) (v : Bytes) : (s.setBlob k v).mctp = s.mctp := rfl
@[simp] theorem State.setBlob_deferred (s : State) (k : Nat) (v : Bytes) : (s.setBlob k v).deferred = s.deferred := rfl
@[simp] theorem State.setBlob_events (s : State) (k : Nat) (v : Bytes) : (s.setBlob k v).events = s.events := rfl
@[simp] theorem State.setBlob_ledger (s : State) (k : Nat) (v : Bytes) : (s.setBlob k v).ledger = s.ledger := rfl
@[simp] theorem State.setBlob_plan (s : State) (k : Nat) (v : Bytes) : (s.setBlob k v).plan = s.plan := rfl
@[simp] theorem State.setBlob_admitting (s : State) (k : Nat) (v : Bytes) : (s.setBlob k v).admitting = s.admitting := rfl
@[simp] theorem State.setBlob_step (s : State) (k : Nat) (v : Bytes) : (s.setBlob k v).step = s.step := rfl
@[simp] theorem State.setBlob_mem (s : State) (k : Nat) (v : Bytes) : (s.setBlob k v).mem = s.mem := rfl
@[simp] theorem State.setBlob_rings (s : State) (k : Nat) (v : Bytes) : (s.setBlob k v).rings = s.rings := rfl
@[simp] theorem State.setBlob_mailboxes (s : State) (k : Nat) (v : Bytes) : (s.setBlob k v).mailboxes = s.mailboxes := rfl
@[simp] theorem State.setBlob_flows (s : State) (k : Nat) (v : Bytes) : (s.setBlob k v).flows = s.flows := rfl
@[simp] theorem State.setBlob_power (s : State) (k : Nat) (v : Bytes) : (s.setBlob k v).power = s.power := rfl
@[simp] theorem State.setBlob_contribs (s : State) (k : Nat) (v : Bytes) : (s.setBlob k v).contribs = s.contribs := rfl
@[simp] theorem State.setBlob_engines (s : State) (k : Nat) (v : Bytes) : (s.setBlob k v).engines = s.engines := rfl
@[simp] theorem State.setBlob_cores (s : State) (k : Nat) (v : Bytes) : (s.setBlob k v).cores = s.cores := rfl
@[simp] theorem State.setBlob_merges (s : State) (k : Nat) (v : Bytes) : (s.setBlob k v).merges = s.merges := rfl
@[simp] theorem State.setBlob_spent (s : State) (k : Nat) (v : Bytes) : (s.setBlob k v).spent = s.spent := rfl
@[simp] theorem State.setBlob_verdicts (s : State) (k : Nat) (v : Bytes) : (s.setBlob k v).verdicts = s.verdicts := rfl
@[simp] theorem State.setBlob_ovfAt (s : State) (k : Nat) (v : Bytes) : (s.setBlob k v).ovfAt = s.ovfAt := rfl
@[simp] theorem State.setBlob_windows (s : State) (k : Nat) (v : Bytes) : (s.setBlob k v).windows = s.windows := rfl
@[simp] theorem State.setBlob_delivered (s : State) (k : Nat) (v : Bytes) : (s.setBlob k v).delivered = s.delivered := rfl
@[simp] theorem State.setBlob_shards (s : State) (k : Nat) (v : Bytes) : (s.setBlob k v).shards = s.shards := rfl
@[simp] theorem State.setBlob_sums (s : State) (k : Nat) (v : Bytes) : (s.setBlob k v).sums = s.sums := rfl
@[simp] theorem State.setBlob_groupT (s : State) (k : Nat) (v : Bytes) : (s.setBlob k v).groupT = s.groupT := rfl
@[simp] theorem State.setBlob_eta (s : State) (k : Nat) (v : Bytes) : (s.setBlob k v).eta = s.eta := rfl
@[simp] theorem State.setBlob_records (s : State) (k : Nat) (v : Bytes) : (s.setBlob k v).records = s.records := rfl
@[simp] theorem State.setBlob_unitStrikes (s : State) (k : Nat) (v : Bytes) : (s.setBlob k v).unitStrikes = s.unitStrikes := rfl
@[simp] theorem State.setBlob_captures (s : State) (k : Nat) (v : Bytes) : (s.setBlob k v).captures = s.captures := rfl
@[simp] theorem State.setBlob_packs (s : State) (k : Nat) (v : Bytes) : (s.setBlob k v).packs = s.packs := rfl
@[simp] theorem State.setBlob_ports (s : State) (k : Nat) (v : Bytes) : (s.setBlob k v).ports = s.ports := rfl
@[simp] theorem State.setBlob_txLinks (s : State) (k : Nat) (v : Bytes) : (s.setBlob k v).txLinks = s.txLinks := rfl
@[simp] theorem State.setBlob_rxLinks (s : State) (k : Nat) (v : Bytes) : (s.setBlob k v).rxLinks = s.rxLinks := rfl
@[simp] theorem State.setBlob_router (s : State) (k : Nat) (v : Bytes) : (s.setBlob k v).router = s.router := rfl
@[simp] theorem State.setBlob_micro (s : State) (k : Nat) (v : Bytes) : (s.setBlob k v).micro = s.micro := rfl
@[simp] theorem State.setBlob_settings (s : State) (k : Nat) (v : Bytes) : (s.setBlob k v).settings = s.settings := rfl
@[simp] theorem State.setBlob_lasers (s : State) (k : Nat) (v : Bytes) : (s.setBlob k v).lasers = s.lasers := rfl
@[simp] theorem State.setBlob_lsc (s : State) (k : Nat) (v : Bytes) : (s.setBlob k v).lsc = s.lsc := rfl
@[simp] theorem State.setBlob_prep (s : State) (k : Nat) (v : Bytes) : (s.setBlob k v).prep = s.prep := rfl
@[simp] theorem State.setBlob_xrClear (s : State) (k : Nat) (v : Bytes) : (s.setBlob k v).xrClear = s.xrClear := rfl
@[simp] theorem State.setBlob_digesting (s : State) (k : Nat) (v : Bytes) : (s.setBlob k v).digesting = s.digesting := rfl
@[simp] theorem State.setBlob_keeper (s : State) (k : Nat) (v : Bytes) : (s.setBlob k v).keeper = s.keeper := rfl
@[simp] theorem State.setBlob_out (s : State) (k : Nat) (v : Bytes) : (s.setBlob k v).out = s.out := rfl
@[simp] theorem State.setBlob_freeCount (s : State) (k : Nat) (v : Bytes) : (s.setBlob k v).freeCount = s.freeCount := rfl
@[simp] theorem State.setBlob_pending (s : State) (k : Nat) (v : Bytes) : (s.setBlob k v).pending = s.pending := rfl
@[simp] theorem State.setBlob_obj (s : State) (k : Nat) (v : Bytes) (j : Nat) : (s.setBlob k v).obj j = s.obj j := rfl

@[simp] theorem State.quiet_od (s : State) : (s.quiet).od = s.od := rfl
@[simp] theorem State.quiet_blobs (s : State) : (s.quiet).blobs = s.blobs := rfl
@[simp] theorem State.quiet_now (s : State) : (s.quiet).now = s.now := rfl
@[simp] theorem State.quiet_bell (s : State) : (s.quiet).bell = s.bell := rfl
@[simp] theorem State.quiet_inBand (s : State) : (s.quiet).inBand = s.inBand := rfl
@[simp] theorem State.quiet_outOfBand (s : State) : (s.quiet).outOfBand = s.outOfBand := rfl
@[simp] theorem State.quiet_mctp (s : State) : (s.quiet).mctp = s.mctp := rfl
@[simp] theorem State.quiet_deferred (s : State) : (s.quiet).deferred = s.deferred := rfl
@[simp] theorem State.quiet_events (s : State) : (s.quiet).events = s.events := rfl
@[simp] theorem State.quiet_ledger (s : State) : (s.quiet).ledger = s.ledger := rfl
@[simp] theorem State.quiet_plan (s : State) : (s.quiet).plan = s.plan := rfl
@[simp] theorem State.quiet_admitting (s : State) : (s.quiet).admitting = s.admitting := rfl
@[simp] theorem State.quiet_step (s : State) : (s.quiet).step = s.step := rfl
@[simp] theorem State.quiet_mem (s : State) : (s.quiet).mem = s.mem := rfl
@[simp] theorem State.quiet_rings (s : State) : (s.quiet).rings = s.rings := rfl
@[simp] theorem State.quiet_mailboxes (s : State) : (s.quiet).mailboxes = s.mailboxes := rfl
@[simp] theorem State.quiet_flows (s : State) : (s.quiet).flows = s.flows := rfl
@[simp] theorem State.quiet_power (s : State) : (s.quiet).power = s.power := rfl
@[simp] theorem State.quiet_contribs (s : State) : (s.quiet).contribs = s.contribs := rfl
@[simp] theorem State.quiet_engines (s : State) : (s.quiet).engines = s.engines := rfl
@[simp] theorem State.quiet_cores (s : State) : (s.quiet).cores = s.cores := rfl
@[simp] theorem State.quiet_merges (s : State) : (s.quiet).merges = s.merges := rfl
@[simp] theorem State.quiet_spent (s : State) : (s.quiet).spent = s.spent := rfl
@[simp] theorem State.quiet_verdicts (s : State) : (s.quiet).verdicts = s.verdicts := rfl
@[simp] theorem State.quiet_ovfAt (s : State) : (s.quiet).ovfAt = s.ovfAt := rfl
@[simp] theorem State.quiet_windows (s : State) : (s.quiet).windows = s.windows := rfl
@[simp] theorem State.quiet_delivered (s : State) : (s.quiet).delivered = s.delivered := rfl
@[simp] theorem State.quiet_shards (s : State) : (s.quiet).shards = s.shards := rfl
@[simp] theorem State.quiet_sums (s : State) : (s.quiet).sums = s.sums := rfl
@[simp] theorem State.quiet_groupT (s : State) : (s.quiet).groupT = s.groupT := rfl
@[simp] theorem State.quiet_eta (s : State) : (s.quiet).eta = s.eta := rfl
@[simp] theorem State.quiet_records (s : State) : (s.quiet).records = s.records := rfl
@[simp] theorem State.quiet_unitStrikes (s : State) : (s.quiet).unitStrikes = s.unitStrikes := rfl
@[simp] theorem State.quiet_captures (s : State) : (s.quiet).captures = s.captures := rfl
@[simp] theorem State.quiet_packs (s : State) : (s.quiet).packs = s.packs := rfl
@[simp] theorem State.quiet_ports (s : State) : (s.quiet).ports = s.ports := rfl
@[simp] theorem State.quiet_txLinks (s : State) : (s.quiet).txLinks = s.txLinks := rfl
@[simp] theorem State.quiet_rxLinks (s : State) : (s.quiet).rxLinks = s.rxLinks := rfl
@[simp] theorem State.quiet_router (s : State) : (s.quiet).router = s.router := rfl
@[simp] theorem State.quiet_micro (s : State) : (s.quiet).micro = s.micro := rfl
@[simp] theorem State.quiet_settings (s : State) : (s.quiet).settings = s.settings := rfl
@[simp] theorem State.quiet_lasers (s : State) : (s.quiet).lasers = s.lasers := rfl
@[simp] theorem State.quiet_lsc (s : State) : (s.quiet).lsc = s.lsc := rfl
@[simp] theorem State.quiet_prep (s : State) : (s.quiet).prep = s.prep := rfl
@[simp] theorem State.quiet_xrClear (s : State) : (s.quiet).xrClear = s.xrClear := rfl
@[simp] theorem State.quiet_digesting (s : State) : (s.quiet).digesting = s.digesting := rfl
@[simp] theorem State.quiet_keeper (s : State) : (s.quiet).keeper = s.keeper := rfl
@[simp] theorem State.quiet_freeCount (s : State) : (s.quiet).freeCount = s.freeCount := rfl
@[simp] theorem State.quiet_pending (s : State) : (s.quiet).pending = s.pending := rfl
@[simp] theorem State.quiet_obj (s : State) (j : Nat) : (s.quiet).obj j = s.obj j := rfl
@[simp] theorem State.quiet_blob (s : State) (j : Nat) : (s.quiet).blob j = s.blob j := rfl

@[simp] theorem State.emit_od (s : State) (o : Out) : (s.emit o).od = s.od := rfl
@[simp] theorem State.emit_blobs (s : State) (o : Out) : (s.emit o).blobs = s.blobs := rfl
@[simp] theorem State.emit_now (s : State) (o : Out) : (s.emit o).now = s.now := rfl
@[simp] theorem State.emit_bell (s : State) (o : Out) : (s.emit o).bell = s.bell := rfl
@[simp] theorem State.emit_inBand (s : State) (o : Out) : (s.emit o).inBand = s.inBand := rfl
@[simp] theorem State.emit_outOfBand (s : State) (o : Out) : (s.emit o).outOfBand = s.outOfBand := rfl
@[simp] theorem State.emit_mctp (s : State) (o : Out) : (s.emit o).mctp = s.mctp := rfl
@[simp] theorem State.emit_deferred (s : State) (o : Out) : (s.emit o).deferred = s.deferred := rfl
@[simp] theorem State.emit_events (s : State) (o : Out) : (s.emit o).events = s.events := rfl
@[simp] theorem State.emit_ledger (s : State) (o : Out) : (s.emit o).ledger = s.ledger := rfl
@[simp] theorem State.emit_plan (s : State) (o : Out) : (s.emit o).plan = s.plan := rfl
@[simp] theorem State.emit_admitting (s : State) (o : Out) : (s.emit o).admitting = s.admitting := rfl
@[simp] theorem State.emit_step (s : State) (o : Out) : (s.emit o).step = s.step := rfl
@[simp] theorem State.emit_mem (s : State) (o : Out) : (s.emit o).mem = s.mem := rfl
@[simp] theorem State.emit_rings (s : State) (o : Out) : (s.emit o).rings = s.rings := rfl
@[simp] theorem State.emit_mailboxes (s : State) (o : Out) : (s.emit o).mailboxes = s.mailboxes := rfl
@[simp] theorem State.emit_flows (s : State) (o : Out) : (s.emit o).flows = s.flows := rfl
@[simp] theorem State.emit_power (s : State) (o : Out) : (s.emit o).power = s.power := rfl
@[simp] theorem State.emit_contribs (s : State) (o : Out) : (s.emit o).contribs = s.contribs := rfl
@[simp] theorem State.emit_engines (s : State) (o : Out) : (s.emit o).engines = s.engines := rfl
@[simp] theorem State.emit_cores (s : State) (o : Out) : (s.emit o).cores = s.cores := rfl
@[simp] theorem State.emit_merges (s : State) (o : Out) : (s.emit o).merges = s.merges := rfl
@[simp] theorem State.emit_spent (s : State) (o : Out) : (s.emit o).spent = s.spent := rfl
@[simp] theorem State.emit_verdicts (s : State) (o : Out) : (s.emit o).verdicts = s.verdicts := rfl
@[simp] theorem State.emit_ovfAt (s : State) (o : Out) : (s.emit o).ovfAt = s.ovfAt := rfl
@[simp] theorem State.emit_windows (s : State) (o : Out) : (s.emit o).windows = s.windows := rfl
@[simp] theorem State.emit_delivered (s : State) (o : Out) : (s.emit o).delivered = s.delivered := rfl
@[simp] theorem State.emit_shards (s : State) (o : Out) : (s.emit o).shards = s.shards := rfl
@[simp] theorem State.emit_sums (s : State) (o : Out) : (s.emit o).sums = s.sums := rfl
@[simp] theorem State.emit_groupT (s : State) (o : Out) : (s.emit o).groupT = s.groupT := rfl
@[simp] theorem State.emit_eta (s : State) (o : Out) : (s.emit o).eta = s.eta := rfl
@[simp] theorem State.emit_records (s : State) (o : Out) : (s.emit o).records = s.records := rfl
@[simp] theorem State.emit_unitStrikes (s : State) (o : Out) : (s.emit o).unitStrikes = s.unitStrikes := rfl
@[simp] theorem State.emit_captures (s : State) (o : Out) : (s.emit o).captures = s.captures := rfl
@[simp] theorem State.emit_packs (s : State) (o : Out) : (s.emit o).packs = s.packs := rfl
@[simp] theorem State.emit_ports (s : State) (o : Out) : (s.emit o).ports = s.ports := rfl
@[simp] theorem State.emit_txLinks (s : State) (o : Out) : (s.emit o).txLinks = s.txLinks := rfl
@[simp] theorem State.emit_rxLinks (s : State) (o : Out) : (s.emit o).rxLinks = s.rxLinks := rfl
@[simp] theorem State.emit_router (s : State) (o : Out) : (s.emit o).router = s.router := rfl
@[simp] theorem State.emit_micro (s : State) (o : Out) : (s.emit o).micro = s.micro := rfl
@[simp] theorem State.emit_settings (s : State) (o : Out) : (s.emit o).settings = s.settings := rfl
@[simp] theorem State.emit_lasers (s : State) (o : Out) : (s.emit o).lasers = s.lasers := rfl
@[simp] theorem State.emit_lsc (s : State) (o : Out) : (s.emit o).lsc = s.lsc := rfl
@[simp] theorem State.emit_prep (s : State) (o : Out) : (s.emit o).prep = s.prep := rfl
@[simp] theorem State.emit_xrClear (s : State) (o : Out) : (s.emit o).xrClear = s.xrClear := rfl
@[simp] theorem State.emit_digesting (s : State) (o : Out) : (s.emit o).digesting = s.digesting := rfl
@[simp] theorem State.emit_keeper (s : State) (o : Out) : (s.emit o).keeper = s.keeper := rfl
@[simp] theorem State.emit_freeCount (s : State) (o : Out) : (s.emit o).freeCount = s.freeCount := rfl
@[simp] theorem State.emit_pending (s : State) (o : Out) : (s.emit o).pending = s.pending := rfl
@[simp] theorem State.emit_obj (s : State) (o : Out) (j : Nat) : (s.emit o).obj j = s.obj j := rfl
@[simp] theorem State.emit_blob (s : State) (o : Out) (j : Nat) : (s.emit o).blob j = s.blob j := rfl

@[simp] theorem State.advance_od (s : State) (d : Nat) : (s.advance d).od = s.od := rfl
@[simp] theorem State.advance_blobs (s : State) (d : Nat) : (s.advance d).blobs = s.blobs := rfl
@[simp] theorem State.advance_inBand (s : State) (d : Nat) : (s.advance d).inBand = s.inBand := rfl
@[simp] theorem State.advance_outOfBand (s : State) (d : Nat) : (s.advance d).outOfBand = s.outOfBand := rfl
@[simp] theorem State.advance_mctp (s : State) (d : Nat) : (s.advance d).mctp = s.mctp := rfl
@[simp] theorem State.advance_deferred (s : State) (d : Nat) : (s.advance d).deferred = s.deferred := rfl
@[simp] theorem State.advance_events (s : State) (d : Nat) : (s.advance d).events = s.events := rfl
@[simp] theorem State.advance_ledger (s : State) (d : Nat) : (s.advance d).ledger = s.ledger := rfl
@[simp] theorem State.advance_plan (s : State) (d : Nat) : (s.advance d).plan = s.plan := rfl
@[simp] theorem State.advance_admitting (s : State) (d : Nat) : (s.advance d).admitting = s.admitting := rfl
@[simp] theorem State.advance_step (s : State) (d : Nat) : (s.advance d).step = s.step := rfl
@[simp] theorem State.advance_mem (s : State) (d : Nat) : (s.advance d).mem = s.mem := rfl
@[simp] theorem State.advance_rings (s : State) (d : Nat) : (s.advance d).rings = s.rings := rfl
@[simp] theorem State.advance_mailboxes (s : State) (d : Nat) : (s.advance d).mailboxes = s.mailboxes := rfl
@[simp] theorem State.advance_flows (s : State) (d : Nat) : (s.advance d).flows = s.flows := rfl
@[simp] theorem State.advance_power (s : State) (d : Nat) : (s.advance d).power = s.power := rfl
@[simp] theorem State.advance_contribs (s : State) (d : Nat) : (s.advance d).contribs = s.contribs := rfl
@[simp] theorem State.advance_engines (s : State) (d : Nat) : (s.advance d).engines = s.engines := rfl
@[simp] theorem State.advance_cores (s : State) (d : Nat) : (s.advance d).cores = s.cores := rfl
@[simp] theorem State.advance_merges (s : State) (d : Nat) : (s.advance d).merges = s.merges := rfl
@[simp] theorem State.advance_spent (s : State) (d : Nat) : (s.advance d).spent = s.spent := rfl
@[simp] theorem State.advance_verdicts (s : State) (d : Nat) : (s.advance d).verdicts = s.verdicts := rfl
@[simp] theorem State.advance_ovfAt (s : State) (d : Nat) : (s.advance d).ovfAt = s.ovfAt := rfl
@[simp] theorem State.advance_windows (s : State) (d : Nat) : (s.advance d).windows = s.windows := rfl
@[simp] theorem State.advance_delivered (s : State) (d : Nat) : (s.advance d).delivered = s.delivered := rfl
@[simp] theorem State.advance_shards (s : State) (d : Nat) : (s.advance d).shards = s.shards := rfl
@[simp] theorem State.advance_sums (s : State) (d : Nat) : (s.advance d).sums = s.sums := rfl
@[simp] theorem State.advance_groupT (s : State) (d : Nat) : (s.advance d).groupT = s.groupT := rfl
@[simp] theorem State.advance_eta (s : State) (d : Nat) : (s.advance d).eta = s.eta := rfl
@[simp] theorem State.advance_records (s : State) (d : Nat) : (s.advance d).records = s.records := rfl
@[simp] theorem State.advance_unitStrikes (s : State) (d : Nat) : (s.advance d).unitStrikes = s.unitStrikes := rfl
@[simp] theorem State.advance_captures (s : State) (d : Nat) : (s.advance d).captures = s.captures := rfl
@[simp] theorem State.advance_packs (s : State) (d : Nat) : (s.advance d).packs = s.packs := rfl
@[simp] theorem State.advance_ports (s : State) (d : Nat) : (s.advance d).ports = s.ports := rfl
@[simp] theorem State.advance_txLinks (s : State) (d : Nat) : (s.advance d).txLinks = s.txLinks := rfl
@[simp] theorem State.advance_rxLinks (s : State) (d : Nat) : (s.advance d).rxLinks = s.rxLinks := rfl
@[simp] theorem State.advance_router (s : State) (d : Nat) : (s.advance d).router = s.router := rfl
@[simp] theorem State.advance_micro (s : State) (d : Nat) : (s.advance d).micro = s.micro := rfl
@[simp] theorem State.advance_settings (s : State) (d : Nat) : (s.advance d).settings = s.settings := rfl
@[simp] theorem State.advance_lasers (s : State) (d : Nat) : (s.advance d).lasers = s.lasers := rfl
@[simp] theorem State.advance_lsc (s : State) (d : Nat) : (s.advance d).lsc = s.lsc := rfl
@[simp] theorem State.advance_prep (s : State) (d : Nat) : (s.advance d).prep = s.prep := rfl
@[simp] theorem State.advance_xrClear (s : State) (d : Nat) : (s.advance d).xrClear = s.xrClear := rfl
@[simp] theorem State.advance_digesting (s : State) (d : Nat) : (s.advance d).digesting = s.digesting := rfl
@[simp] theorem State.advance_keeper (s : State) (d : Nat) : (s.advance d).keeper = s.keeper := rfl
@[simp] theorem State.advance_out (s : State) (d : Nat) : (s.advance d).out = s.out := rfl
@[simp] theorem State.advance_freeCount (s : State) (d : Nat) : (s.advance d).freeCount = s.freeCount := rfl
@[simp] theorem State.advance_pending (s : State) (d : Nat) : (s.advance d).pending = s.pending := rfl
@[simp] theorem State.advance_obj (s : State) (d : Nat) (j : Nat) : (s.advance d).obj j = s.obj j := rfl
@[simp] theorem State.advance_blob (s : State) (d : Nat) (j : Nat) : (s.advance d).blob j = s.blob j := rfl

@[simp] theorem State.poke_od (s : State) (a : Nat) (bs : Bytes) : (s.poke a bs).od = s.od := rfl
@[simp] theorem State.poke_blobs (s : State) (a : Nat) (bs : Bytes) : (s.poke a bs).blobs = s.blobs := rfl
@[simp] theorem State.poke_now (s : State) (a : Nat) (bs : Bytes) : (s.poke a bs).now = s.now := rfl
@[simp] theorem State.poke_bell (s : State) (a : Nat) (bs : Bytes) : (s.poke a bs).bell = s.bell := rfl
@[simp] theorem State.poke_inBand (s : State) (a : Nat) (bs : Bytes) : (s.poke a bs).inBand = s.inBand := rfl
@[simp] theorem State.poke_outOfBand (s : State) (a : Nat) (bs : Bytes) : (s.poke a bs).outOfBand = s.outOfBand := rfl
@[simp] theorem State.poke_mctp (s : State) (a : Nat) (bs : Bytes) : (s.poke a bs).mctp = s.mctp := rfl
@[simp] theorem State.poke_deferred (s : State) (a : Nat) (bs : Bytes) : (s.poke a bs).deferred = s.deferred := rfl
@[simp] theorem State.poke_events (s : State) (a : Nat) (bs : Bytes) : (s.poke a bs).events = s.events := rfl
@[simp] theorem State.poke_ledger (s : State) (a : Nat) (bs : Bytes) : (s.poke a bs).ledger = s.ledger := rfl
@[simp] theorem State.poke_plan (s : State) (a : Nat) (bs : Bytes) : (s.poke a bs).plan = s.plan := rfl
@[simp] theorem State.poke_admitting (s : State) (a : Nat) (bs : Bytes) : (s.poke a bs).admitting = s.admitting := rfl
@[simp] theorem State.poke_step (s : State) (a : Nat) (bs : Bytes) : (s.poke a bs).step = s.step := rfl
@[simp] theorem State.poke_rings (s : State) (a : Nat) (bs : Bytes) : (s.poke a bs).rings = s.rings := rfl
@[simp] theorem State.poke_mailboxes (s : State) (a : Nat) (bs : Bytes) : (s.poke a bs).mailboxes = s.mailboxes := rfl
@[simp] theorem State.poke_flows (s : State) (a : Nat) (bs : Bytes) : (s.poke a bs).flows = s.flows := rfl
@[simp] theorem State.poke_power (s : State) (a : Nat) (bs : Bytes) : (s.poke a bs).power = s.power := rfl
@[simp] theorem State.poke_contribs (s : State) (a : Nat) (bs : Bytes) : (s.poke a bs).contribs = s.contribs := rfl
@[simp] theorem State.poke_engines (s : State) (a : Nat) (bs : Bytes) : (s.poke a bs).engines = s.engines := rfl
@[simp] theorem State.poke_cores (s : State) (a : Nat) (bs : Bytes) : (s.poke a bs).cores = s.cores := rfl
@[simp] theorem State.poke_merges (s : State) (a : Nat) (bs : Bytes) : (s.poke a bs).merges = s.merges := rfl
@[simp] theorem State.poke_spent (s : State) (a : Nat) (bs : Bytes) : (s.poke a bs).spent = s.spent := rfl
@[simp] theorem State.poke_verdicts (s : State) (a : Nat) (bs : Bytes) : (s.poke a bs).verdicts = s.verdicts := rfl
@[simp] theorem State.poke_ovfAt (s : State) (a : Nat) (bs : Bytes) : (s.poke a bs).ovfAt = s.ovfAt := rfl
@[simp] theorem State.poke_windows (s : State) (a : Nat) (bs : Bytes) : (s.poke a bs).windows = s.windows := rfl
@[simp] theorem State.poke_delivered (s : State) (a : Nat) (bs : Bytes) : (s.poke a bs).delivered = s.delivered := rfl
@[simp] theorem State.poke_shards (s : State) (a : Nat) (bs : Bytes) : (s.poke a bs).shards = s.shards := rfl
@[simp] theorem State.poke_sums (s : State) (a : Nat) (bs : Bytes) : (s.poke a bs).sums = s.sums := rfl
@[simp] theorem State.poke_groupT (s : State) (a : Nat) (bs : Bytes) : (s.poke a bs).groupT = s.groupT := rfl
@[simp] theorem State.poke_eta (s : State) (a : Nat) (bs : Bytes) : (s.poke a bs).eta = s.eta := rfl
@[simp] theorem State.poke_records (s : State) (a : Nat) (bs : Bytes) : (s.poke a bs).records = s.records := rfl
@[simp] theorem State.poke_unitStrikes (s : State) (a : Nat) (bs : Bytes) : (s.poke a bs).unitStrikes = s.unitStrikes := rfl
@[simp] theorem State.poke_captures (s : State) (a : Nat) (bs : Bytes) : (s.poke a bs).captures = s.captures := rfl
@[simp] theorem State.poke_packs (s : State) (a : Nat) (bs : Bytes) : (s.poke a bs).packs = s.packs := rfl
@[simp] theorem State.poke_ports (s : State) (a : Nat) (bs : Bytes) : (s.poke a bs).ports = s.ports := rfl
@[simp] theorem State.poke_txLinks (s : State) (a : Nat) (bs : Bytes) : (s.poke a bs).txLinks = s.txLinks := rfl
@[simp] theorem State.poke_rxLinks (s : State) (a : Nat) (bs : Bytes) : (s.poke a bs).rxLinks = s.rxLinks := rfl
@[simp] theorem State.poke_router (s : State) (a : Nat) (bs : Bytes) : (s.poke a bs).router = s.router := rfl
@[simp] theorem State.poke_micro (s : State) (a : Nat) (bs : Bytes) : (s.poke a bs).micro = s.micro := rfl
@[simp] theorem State.poke_settings (s : State) (a : Nat) (bs : Bytes) : (s.poke a bs).settings = s.settings := rfl
@[simp] theorem State.poke_lasers (s : State) (a : Nat) (bs : Bytes) : (s.poke a bs).lasers = s.lasers := rfl
@[simp] theorem State.poke_lsc (s : State) (a : Nat) (bs : Bytes) : (s.poke a bs).lsc = s.lsc := rfl
@[simp] theorem State.poke_prep (s : State) (a : Nat) (bs : Bytes) : (s.poke a bs).prep = s.prep := rfl
@[simp] theorem State.poke_xrClear (s : State) (a : Nat) (bs : Bytes) : (s.poke a bs).xrClear = s.xrClear := rfl
@[simp] theorem State.poke_digesting (s : State) (a : Nat) (bs : Bytes) : (s.poke a bs).digesting = s.digesting := rfl
@[simp] theorem State.poke_keeper (s : State) (a : Nat) (bs : Bytes) : (s.poke a bs).keeper = s.keeper := rfl
@[simp] theorem State.poke_out (s : State) (a : Nat) (bs : Bytes) : (s.poke a bs).out = s.out := rfl
@[simp] theorem State.poke_freeCount (s : State) (a : Nat) (bs : Bytes) : (s.poke a bs).freeCount = s.freeCount := rfl
@[simp] theorem State.poke_pending (s : State) (a : Nat) (bs : Bytes) : (s.poke a bs).pending = s.pending := rfl
@[simp] theorem State.poke_obj (s : State) (a : Nat) (bs : Bytes) (j : Nat) : (s.poke a bs).obj j = s.obj j := rfl
@[simp] theorem State.poke_blob (s : State) (a : Nat) (bs : Bytes) (j : Nat) : (s.poke a bs).blob j = s.blob j := rfl

@[simp] theorem State.setFlow_od (s : State) (n : Nat) (f : FlowSt) : (s.setFlow n f).od = s.od := rfl
@[simp] theorem State.setFlow_blobs (s : State) (n : Nat) (f : FlowSt) : (s.setFlow n f).blobs = s.blobs := rfl
@[simp] theorem State.setFlow_now (s : State) (n : Nat) (f : FlowSt) : (s.setFlow n f).now = s.now := rfl
@[simp] theorem State.setFlow_bell (s : State) (n : Nat) (f : FlowSt) : (s.setFlow n f).bell = s.bell := rfl
@[simp] theorem State.setFlow_inBand (s : State) (n : Nat) (f : FlowSt) : (s.setFlow n f).inBand = s.inBand := rfl
@[simp] theorem State.setFlow_outOfBand (s : State) (n : Nat) (f : FlowSt) : (s.setFlow n f).outOfBand = s.outOfBand := rfl
@[simp] theorem State.setFlow_mctp (s : State) (n : Nat) (f : FlowSt) : (s.setFlow n f).mctp = s.mctp := rfl
@[simp] theorem State.setFlow_deferred (s : State) (n : Nat) (f : FlowSt) : (s.setFlow n f).deferred = s.deferred := rfl
@[simp] theorem State.setFlow_events (s : State) (n : Nat) (f : FlowSt) : (s.setFlow n f).events = s.events := rfl
@[simp] theorem State.setFlow_ledger (s : State) (n : Nat) (f : FlowSt) : (s.setFlow n f).ledger = s.ledger := rfl
@[simp] theorem State.setFlow_plan (s : State) (n : Nat) (f : FlowSt) : (s.setFlow n f).plan = s.plan := rfl
@[simp] theorem State.setFlow_admitting (s : State) (n : Nat) (f : FlowSt) : (s.setFlow n f).admitting = s.admitting := rfl
@[simp] theorem State.setFlow_step (s : State) (n : Nat) (f : FlowSt) : (s.setFlow n f).step = s.step := rfl
@[simp] theorem State.setFlow_mem (s : State) (n : Nat) (f : FlowSt) : (s.setFlow n f).mem = s.mem := rfl
@[simp] theorem State.setFlow_rings (s : State) (n : Nat) (f : FlowSt) : (s.setFlow n f).rings = s.rings := rfl
@[simp] theorem State.setFlow_mailboxes (s : State) (n : Nat) (f : FlowSt) : (s.setFlow n f).mailboxes = s.mailboxes := rfl
@[simp] theorem State.setFlow_power (s : State) (n : Nat) (f : FlowSt) : (s.setFlow n f).power = s.power := rfl
@[simp] theorem State.setFlow_contribs (s : State) (n : Nat) (f : FlowSt) : (s.setFlow n f).contribs = s.contribs := rfl
@[simp] theorem State.setFlow_engines (s : State) (n : Nat) (f : FlowSt) : (s.setFlow n f).engines = s.engines := rfl
@[simp] theorem State.setFlow_cores (s : State) (n : Nat) (f : FlowSt) : (s.setFlow n f).cores = s.cores := rfl
@[simp] theorem State.setFlow_merges (s : State) (n : Nat) (f : FlowSt) : (s.setFlow n f).merges = s.merges := rfl
@[simp] theorem State.setFlow_spent (s : State) (n : Nat) (f : FlowSt) : (s.setFlow n f).spent = s.spent := rfl
@[simp] theorem State.setFlow_verdicts (s : State) (n : Nat) (f : FlowSt) : (s.setFlow n f).verdicts = s.verdicts := rfl
@[simp] theorem State.setFlow_ovfAt (s : State) (n : Nat) (f : FlowSt) : (s.setFlow n f).ovfAt = s.ovfAt := rfl
@[simp] theorem State.setFlow_windows (s : State) (n : Nat) (f : FlowSt) : (s.setFlow n f).windows = s.windows := rfl
@[simp] theorem State.setFlow_delivered (s : State) (n : Nat) (f : FlowSt) : (s.setFlow n f).delivered = s.delivered := rfl
@[simp] theorem State.setFlow_shards (s : State) (n : Nat) (f : FlowSt) : (s.setFlow n f).shards = s.shards := rfl
@[simp] theorem State.setFlow_sums (s : State) (n : Nat) (f : FlowSt) : (s.setFlow n f).sums = s.sums := rfl
@[simp] theorem State.setFlow_groupT (s : State) (n : Nat) (f : FlowSt) : (s.setFlow n f).groupT = s.groupT := rfl
@[simp] theorem State.setFlow_eta (s : State) (n : Nat) (f : FlowSt) : (s.setFlow n f).eta = s.eta := rfl
@[simp] theorem State.setFlow_records (s : State) (n : Nat) (f : FlowSt) : (s.setFlow n f).records = s.records := rfl
@[simp] theorem State.setFlow_unitStrikes (s : State) (n : Nat) (f : FlowSt) : (s.setFlow n f).unitStrikes = s.unitStrikes := rfl
@[simp] theorem State.setFlow_captures (s : State) (n : Nat) (f : FlowSt) : (s.setFlow n f).captures = s.captures := rfl
@[simp] theorem State.setFlow_packs (s : State) (n : Nat) (f : FlowSt) : (s.setFlow n f).packs = s.packs := rfl
@[simp] theorem State.setFlow_ports (s : State) (n : Nat) (f : FlowSt) : (s.setFlow n f).ports = s.ports := rfl
@[simp] theorem State.setFlow_txLinks (s : State) (n : Nat) (f : FlowSt) : (s.setFlow n f).txLinks = s.txLinks := rfl
@[simp] theorem State.setFlow_rxLinks (s : State) (n : Nat) (f : FlowSt) : (s.setFlow n f).rxLinks = s.rxLinks := rfl
@[simp] theorem State.setFlow_router (s : State) (n : Nat) (f : FlowSt) : (s.setFlow n f).router = s.router := rfl
@[simp] theorem State.setFlow_micro (s : State) (n : Nat) (f : FlowSt) : (s.setFlow n f).micro = s.micro := rfl
@[simp] theorem State.setFlow_settings (s : State) (n : Nat) (f : FlowSt) : (s.setFlow n f).settings = s.settings := rfl
@[simp] theorem State.setFlow_lasers (s : State) (n : Nat) (f : FlowSt) : (s.setFlow n f).lasers = s.lasers := rfl
@[simp] theorem State.setFlow_lsc (s : State) (n : Nat) (f : FlowSt) : (s.setFlow n f).lsc = s.lsc := rfl
@[simp] theorem State.setFlow_prep (s : State) (n : Nat) (f : FlowSt) : (s.setFlow n f).prep = s.prep := rfl
@[simp] theorem State.setFlow_xrClear (s : State) (n : Nat) (f : FlowSt) : (s.setFlow n f).xrClear = s.xrClear := rfl
@[simp] theorem State.setFlow_digesting (s : State) (n : Nat) (f : FlowSt) : (s.setFlow n f).digesting = s.digesting := rfl
@[simp] theorem State.setFlow_keeper (s : State) (n : Nat) (f : FlowSt) : (s.setFlow n f).keeper = s.keeper := rfl
@[simp] theorem State.setFlow_out (s : State) (n : Nat) (f : FlowSt) : (s.setFlow n f).out = s.out := rfl
@[simp] theorem State.setFlow_freeCount (s : State) (n : Nat) (f : FlowSt) : (s.setFlow n f).freeCount = s.freeCount := rfl
@[simp] theorem State.setFlow_pending (s : State) (n : Nat) (f : FlowSt) : (s.setFlow n f).pending = s.pending := rfl
@[simp] theorem State.setFlow_obj (s : State) (n : Nat) (f : FlowSt) (j : Nat) : (s.setFlow n f).obj j = s.obj j := rfl
@[simp] theorem State.setFlow_blob (s : State) (n : Nat) (f : FlowSt) (j : Nat) : (s.setFlow n f).blob j = s.blob j := rfl

@[simp] theorem State.setRing_od (s : State) (n : Nat) (r : RingSt) : (s.setRing n r).od = s.od := rfl
@[simp] theorem State.setRing_blobs (s : State) (n : Nat) (r : RingSt) : (s.setRing n r).blobs = s.blobs := rfl
@[simp] theorem State.setRing_now (s : State) (n : Nat) (r : RingSt) : (s.setRing n r).now = s.now := rfl
@[simp] theorem State.setRing_bell (s : State) (n : Nat) (r : RingSt) : (s.setRing n r).bell = s.bell := rfl
@[simp] theorem State.setRing_inBand (s : State) (n : Nat) (r : RingSt) : (s.setRing n r).inBand = s.inBand := rfl
@[simp] theorem State.setRing_outOfBand (s : State) (n : Nat) (r : RingSt) : (s.setRing n r).outOfBand = s.outOfBand := rfl
@[simp] theorem State.setRing_mctp (s : State) (n : Nat) (r : RingSt) : (s.setRing n r).mctp = s.mctp := rfl
@[simp] theorem State.setRing_deferred (s : State) (n : Nat) (r : RingSt) : (s.setRing n r).deferred = s.deferred := rfl
@[simp] theorem State.setRing_events (s : State) (n : Nat) (r : RingSt) : (s.setRing n r).events = s.events := rfl
@[simp] theorem State.setRing_ledger (s : State) (n : Nat) (r : RingSt) : (s.setRing n r).ledger = s.ledger := rfl
@[simp] theorem State.setRing_plan (s : State) (n : Nat) (r : RingSt) : (s.setRing n r).plan = s.plan := rfl
@[simp] theorem State.setRing_admitting (s : State) (n : Nat) (r : RingSt) : (s.setRing n r).admitting = s.admitting := rfl
@[simp] theorem State.setRing_step (s : State) (n : Nat) (r : RingSt) : (s.setRing n r).step = s.step := rfl
@[simp] theorem State.setRing_mem (s : State) (n : Nat) (r : RingSt) : (s.setRing n r).mem = s.mem := rfl
@[simp] theorem State.setRing_mailboxes (s : State) (n : Nat) (r : RingSt) : (s.setRing n r).mailboxes = s.mailboxes := rfl
@[simp] theorem State.setRing_flows (s : State) (n : Nat) (r : RingSt) : (s.setRing n r).flows = s.flows := rfl
@[simp] theorem State.setRing_power (s : State) (n : Nat) (r : RingSt) : (s.setRing n r).power = s.power := rfl
@[simp] theorem State.setRing_contribs (s : State) (n : Nat) (r : RingSt) : (s.setRing n r).contribs = s.contribs := rfl
@[simp] theorem State.setRing_engines (s : State) (n : Nat) (r : RingSt) : (s.setRing n r).engines = s.engines := rfl
@[simp] theorem State.setRing_cores (s : State) (n : Nat) (r : RingSt) : (s.setRing n r).cores = s.cores := rfl
@[simp] theorem State.setRing_merges (s : State) (n : Nat) (r : RingSt) : (s.setRing n r).merges = s.merges := rfl
@[simp] theorem State.setRing_spent (s : State) (n : Nat) (r : RingSt) : (s.setRing n r).spent = s.spent := rfl
@[simp] theorem State.setRing_verdicts (s : State) (n : Nat) (r : RingSt) : (s.setRing n r).verdicts = s.verdicts := rfl
@[simp] theorem State.setRing_ovfAt (s : State) (n : Nat) (r : RingSt) : (s.setRing n r).ovfAt = s.ovfAt := rfl
@[simp] theorem State.setRing_windows (s : State) (n : Nat) (r : RingSt) : (s.setRing n r).windows = s.windows := rfl
@[simp] theorem State.setRing_delivered (s : State) (n : Nat) (r : RingSt) : (s.setRing n r).delivered = s.delivered := rfl
@[simp] theorem State.setRing_shards (s : State) (n : Nat) (r : RingSt) : (s.setRing n r).shards = s.shards := rfl
@[simp] theorem State.setRing_sums (s : State) (n : Nat) (r : RingSt) : (s.setRing n r).sums = s.sums := rfl
@[simp] theorem State.setRing_groupT (s : State) (n : Nat) (r : RingSt) : (s.setRing n r).groupT = s.groupT := rfl
@[simp] theorem State.setRing_eta (s : State) (n : Nat) (r : RingSt) : (s.setRing n r).eta = s.eta := rfl
@[simp] theorem State.setRing_records (s : State) (n : Nat) (r : RingSt) : (s.setRing n r).records = s.records := rfl
@[simp] theorem State.setRing_unitStrikes (s : State) (n : Nat) (r : RingSt) : (s.setRing n r).unitStrikes = s.unitStrikes := rfl
@[simp] theorem State.setRing_captures (s : State) (n : Nat) (r : RingSt) : (s.setRing n r).captures = s.captures := rfl
@[simp] theorem State.setRing_packs (s : State) (n : Nat) (r : RingSt) : (s.setRing n r).packs = s.packs := rfl
@[simp] theorem State.setRing_ports (s : State) (n : Nat) (r : RingSt) : (s.setRing n r).ports = s.ports := rfl
@[simp] theorem State.setRing_txLinks (s : State) (n : Nat) (r : RingSt) : (s.setRing n r).txLinks = s.txLinks := rfl
@[simp] theorem State.setRing_rxLinks (s : State) (n : Nat) (r : RingSt) : (s.setRing n r).rxLinks = s.rxLinks := rfl
@[simp] theorem State.setRing_router (s : State) (n : Nat) (r : RingSt) : (s.setRing n r).router = s.router := rfl
@[simp] theorem State.setRing_micro (s : State) (n : Nat) (r : RingSt) : (s.setRing n r).micro = s.micro := rfl
@[simp] theorem State.setRing_settings (s : State) (n : Nat) (r : RingSt) : (s.setRing n r).settings = s.settings := rfl
@[simp] theorem State.setRing_lasers (s : State) (n : Nat) (r : RingSt) : (s.setRing n r).lasers = s.lasers := rfl
@[simp] theorem State.setRing_lsc (s : State) (n : Nat) (r : RingSt) : (s.setRing n r).lsc = s.lsc := rfl
@[simp] theorem State.setRing_prep (s : State) (n : Nat) (r : RingSt) : (s.setRing n r).prep = s.prep := rfl
@[simp] theorem State.setRing_xrClear (s : State) (n : Nat) (r : RingSt) : (s.setRing n r).xrClear = s.xrClear := rfl
@[simp] theorem State.setRing_digesting (s : State) (n : Nat) (r : RingSt) : (s.setRing n r).digesting = s.digesting := rfl
@[simp] theorem State.setRing_keeper (s : State) (n : Nat) (r : RingSt) : (s.setRing n r).keeper = s.keeper := rfl
@[simp] theorem State.setRing_out (s : State) (n : Nat) (r : RingSt) : (s.setRing n r).out = s.out := rfl
@[simp] theorem State.setRing_freeCount (s : State) (n : Nat) (r : RingSt) : (s.setRing n r).freeCount = s.freeCount := rfl
@[simp] theorem State.setRing_pending (s : State) (n : Nat) (r : RingSt) : (s.setRing n r).pending = s.pending := rfl
@[simp] theorem State.setRing_obj (s : State) (n : Nat) (r : RingSt) (j : Nat) : (s.setRing n r).obj j = s.obj j := rfl
@[simp] theorem State.setRing_blob (s : State) (n : Nat) (r : RingSt) (j : Nat) : (s.setRing n r).blob j = s.blob j := rfl

@[simp] theorem State.quiet_out (s : State) : s.quiet.out = [] := rfl
@[simp] theorem State.emit_out (s : State) (o : Out) : (s.emit o).out = s.out ++ [o] := rfl
@[simp] theorem State.advance_now (s : State) (d : Nat) : (s.advance d).now = s.now + d := rfl

end Sys2Proof.Machine
end

