-- ==== Sys2Proof/Laws/Events.lean ====
section
/-! SUPPORT. What raising an event can do: it counts and logs itself and may post one record; everything else
stands. -/

namespace Sys2Proof.Machine

/-- The parts of the state that an event may change, replaced. -/
def State.relog (s : State) (od : Bank Nat) (events : List RingRec) (ledger : Ledger) (rings : Bank RingSt) (mem : MemSt)
    (flows : Bank FlowSt) (router : List Routed) : State :=
  { s with od := od, events := events, ledger := ledger, rings := rings, mem := mem, flows := flows, router := router }

/-- `t` is `s` after events: only the event objects, the rings of events, the ledger, and where the plan declares an
EVENT queue that queue, differ. -/
structure Logs (s t : State) : Prop where
  shape : ∃ od events ledger rings mem flows router, t = s.relog od events ledger rings mem flows router
  obj : ∀ k, k ∉ eventKeys → t.obj k = s.obj k
  quiet : s.eventQueue = none → t.mem = s.mem ∧ t.rings = s.rings ∧ t.flows = s.flows ∧ t.router = s.router
  queue : t.eventQueue = s.eventQueue

theorem Logs.refl (s : State) : Logs s s :=
  ⟨⟨_, _, _, _, _, _, _, rfl⟩, fun _ _ => rfl, fun _ => ⟨rfl, rfl, rfl, rfl⟩, rfl⟩

theorem Logs.trans {s t u : State} (h : Logs s t) (k : Logs t u) : Logs s u := by
  refine ⟨?_, fun j hj => (k.obj j hj).trans (h.obj j hj), fun q => ?_, k.queue.trans h.queue⟩
  · obtain ⟨_, _, _, _, _, _, _, e⟩ := h.shape
    obtain ⟨a, b, c, d, f, g, i, e'⟩ := k.shape
    exact ⟨a, b, c, d, f, g, i, by rw [e', e]; rfl⟩
  · obtain ⟨a, b, c, d⟩ := h.quiet q
    obtain ⟨a', b', c', d'⟩ := k.quiet (h.queue.trans q)
    exact ⟨a'.trans a, b'.trans b, c'.trans c, d'.trans d⟩

/-- The EVENT queue depends on the plan, PLAN_STATE and the place only. -/
theorem eventQueue_congr {s t : State} (h1 : t.plan = s.plan) (h2 : t.obj oPlanState = s.obj oPlanState)
    (h3 : t.obj oPlaceNumber = s.obj oPlaceNumber) : t.eventQueue = s.eventQueue := by
  simp only [State.eventQueue, State.queues, State.activePlan, State.admitted, State.planState, State.place, h1, h2, h3]
  rfl

theorem Logs.of_shape {s t : State}
    (shape : ∃ od events ledger rings mem flows router, t = s.relog od events ledger rings mem flows router)
    (obj : ∀ k, k ∉ eventKeys → t.obj k = s.obj k)
    (quiet : s.eventQueue = none → t.mem = s.mem ∧ t.rings = s.rings ∧ t.flows = s.flows ∧ t.router = s.router) :
    Logs s t := by
  refine ⟨shape, obj, quiet, eventQueue_congr ?_ (obj _ (by decide)) (obj _ (by decide))⟩
  obtain ⟨_, _, _, _, _, _, _, e⟩ := shape
  rw [e]; rfl

theorem Logs.setObj {s t : State} (h : Logs s t) {k : Nat} (v : Nat) (hk : k ∈ eventKeys) : Logs s (t.setObj k v) := by
  refine h.trans (Logs.of_shape ⟨_, _, _, _, _, _, _, rfl⟩ (fun j hj => ?_) (fun _ => ⟨rfl, rfl, rfl, rfl⟩))
  exact State.obj_setObj_ne t v (fun e => hj (e ▸ hk))

theorem Logs.bump {s t : State} (h : Logs s t) {k : Nat} (hk : k ∈ eventKeys) : Logs s (t.bump k) := h.setObj _ hk

theorem State.logEvent_logs (s : State) (e : Ev) (cls : Nat) (dk : Option Nat) (detail : Nat) (keeper : Bool) :
    Logs s (s.logEvent e cls dk detail keeper).1 := by
  unfold State.logEvent
  extract_lets s1 r wantsFlash fits toFlash entry src led s2 s3
  have h1 : Logs s s1 := (Logs.refl s).bump (by decide)
  have h2 : Logs s s2 := h1.trans (Logs.of_shape ⟨_, _, _, _, _, _, _, rfl⟩ (fun _ _ => rfl)
    (fun _ => ⟨rfl, rfl, rfl, rfl⟩))
  have h3 : Logs s s3 := by
    simp only [s3]
    split
    · exact h2.setObj _ (by decide)
    · exact h2
  split
  · exact h3.bump (by decide)
  · exact h3

theorem pump_shape (s : State) (n : Nat) : ∃ flows router, s.pump n = s.relog s.od s.events s.ledger s.rings s.mem flows router := by
  unfold State.pump
  extract_lets f r
  have : ∀ (l : List Bytes) (t : State), (∃ flows router, t = s.relog s.od s.events s.ledger s.rings s.mem flows router) →
      ∃ flows router, l.foldl (fun s b => s.inject b) t = s.relog s.od s.events s.ledger s.rings s.mem flows router := by
    intro l
    induction l with
    | nil => intro t h; exact h
    | cons b l ih =>
      intro t ⟨a, c, h⟩
      refine ih _ ⟨a, ?_, ?_⟩
      · exact c ++ [⟨none, fieldLe b 2 1, b, s.now, false, 0, false⟩]
      · rw [h]; rfl
  exact this r.2 (s.setFlow n r.1) ⟨_, _, rfl⟩

theorem pump_setFlow_shape (s : State) (n : Nat) (f : FlowSt) :
    ∃ flows router, (s.setFlow n f).pump n = s.relog s.od s.events s.ledger s.rings s.mem flows router := by
  obtain ⟨a, b, e⟩ := pump_shape (s.setFlow n f) n
  exact ⟨a, b, by rw [e]; rfl⟩

theorem sendMessage_shape (s : State) (n ty : Nat) (ps : List Piece) (step attempt kind : Nat) :
    ∃ flows router, s.sendMessage n ty ps step attempt kind =
      s.relog s.od s.events s.ledger s.rings s.mem flows router := by
  unfold State.sendMessage
  extract_lets f pk
  split
  · exact ⟨_, _, rfl⟩
  · exact pump_setFlow_shape ..

/-- A line written changes the memory alone. -/
theorem State.writeLine_shape (s : State) (a : Nat) (bs : Bytes) :
    s.writeLine a bs = s.relog s.od s.events s.ledger s.rings (s.writeLine a bs).mem s.flows s.router := rfl

/-- A record posted to a queue touches its ring, its bytes or the flow that carries it, and counts one lost. -/
theorem State.postRecord_shape (s : State) (q : QueueEntry) (kind : Nat) (body : Bytes) :
    (∃ od rings mem flows router, (s.postRecord q kind body).1 = s.relog od s.events s.ledger rings mem flows router) ∧
    ∀ k, k ≠ oRecordsLostCount → (s.postRecord q kind body).1.obj k = s.obj k := by
  unfold State.postRecord
  extract_lets r bytes off s1 s2
  split
  · exact ⟨⟨_, _, _, _, _, rfl⟩, fun k hk => State.obj_setObj_ne s _ hk⟩
  · have h2 : ∃ rings mem flows router, s2 = s.relog s.od s.events s.ledger rings mem flows router := by
      simp only [s2]
      split
      · obtain ⟨a, b, e⟩ := sendMessage_shape s1 q.flow 0x01 (writePieces 3 0 off bytes) 0xFFFFFFFF 0 0
        rw [e]
        exact ⟨_, _, _, _, rfl⟩
      · split
        · rw [State.writeLine_shape]
          exact ⟨_, _, _, _, rfl⟩
        · exact ⟨_, _, _, _, rfl⟩
    obtain ⟨a, b, c, d, e⟩ := h2
    exact ⟨⟨_, a, b, c, d, e⟩, fun k _ => by rw [e]; rfl⟩

theorem State.raiseOnce_logs (s : State) (e : Ev) (cls : Nat) (dk : Option Nat) (detail : Nat) :
    Logs s (s.raiseOnce e cls dk detail).1 := by
  unfold State.raiseOnce
  extract_lets r
  have h : Logs s r.1 := State.logEvent_logs ..
  split
  · next q hq =>
    obtain ⟨⟨a, b, c, d, f, e1⟩, e2⟩ := State.postRecord_shape r.1 q 0x22 r.2.body
    refine h.trans (Logs.of_shape ⟨a, _, _, b, c, d, f, e1⟩ (fun k hk => e2 k (fun e => hk (e ▸ by decide))) ?_)
    intro hn
    rw [hn] at hq
    cases hq
  · exact h

theorem State.noteSuppressed_logs (s : State) (before : Nat) : Logs s (s.noteSuppressed before) := by
  unfold State.noteSuppressed
  split
  · extract_lets src s1
    have : Logs s s1 := Logs.of_shape ⟨_, _, _, _, _, _, _, rfl⟩ (fun _ _ => rfl) (fun _ => ⟨rfl, rfl, rfl, rfl⟩)
    exact this.trans (State.raiseOnce_logs ..)
  · exact Logs.refl s

/-- What raising an event can do. -/
theorem State.raiseWith_logs (s : State) (e : Ev) (cls : Nat) (dk : Option Nat) (detail : Nat) :
    Logs s (s.raiseWith e cls dk detail) := by
  unfold State.raiseWith
  extract_lets before r s1
  have h1 : Logs s s1 := (State.raiseOnce_logs s e cls dk detail).trans (State.noteSuppressed_logs ..)
  split
  · exact h1.trans (State.raiseOnce_logs ..)
  · exact h1

theorem State.raiseAt_logs (s : State) (e : Ev) (n cls : Nat) : Logs s (s.raiseAt e n cls) := by
  unfold State.raiseAt
  split
  · exact State.raiseWith_logs ..
  · exact State.raiseWith_logs ..

theorem State.raise_logs (s : State) (e : Ev) : Logs s (s.raise e) := State.raiseAt_logs ..

theorem State.cmdEvent_logs (s : State) (k : Nat) : Logs s (s.cmdEvent k) := by
  unfold State.cmdEvent
  split
  · exact State.raiseWith_logs ..
  · exact Logs.refl s

/-- A result word written, and CMD_DONE where it is agreed: the word itself and what an event leaves. -/
theorem State.cmdDone_obj (s : State) (k : Nat) (hk : k ∉ eventKeys) : (s.cmdDone k).obj k = 0x20000 := by
  rw [State.cmdDone, (State.cmdEvent_logs _ k).obj k hk, State.setResult, State.obj_setObj_self]

theorem State.cmdFail_obj (s : State) (k code : Nat) (hk : k ∉ eventKeys) :
    (s.cmdFail k code).obj k = 3 * 65536 + code % 65536 := by
  rw [State.cmdFail, (State.cmdEvent_logs _ k).obj k hk, State.setResult, State.obj_setObj_self]

theorem State.cmdDone_obj_ne (s : State) {k j : Nat} (h : j ≠ k) (hj : j ∉ eventKeys) :
    (s.cmdDone k).obj j = s.obj j := by
  rw [State.cmdDone, (State.cmdEvent_logs _ k).obj j hj, State.setResult, State.obj_setObj_ne _ _ h]

theorem State.cmdFail_obj_ne (s : State) {k j code : Nat} (h : j ≠ k) (hj : j ∉ eventKeys) :
    (s.cmdFail k code).obj j = s.obj j := by
  rw [State.cmdFail, (State.cmdEvent_logs _ k).obj j hj, State.setResult, State.obj_setObj_ne _ _ h]

/-! ### What an event leaves, field by field -/

theorem Logs.blobs {s t : State} (h : Logs s t) : t.blobs = s.blobs := by
  obtain ⟨_, _, _, _, _, _, _, e⟩ := h.shape
  rw [e]; rfl

theorem Logs.now {s t : State} (h : Logs s t) : t.now = s.now := by
  obtain ⟨_, _, _, _, _, _, _, e⟩ := h.shape
  rw [e]; rfl

theorem Logs.bell {s t : State} (h : Logs s t) : t.bell = s.bell := by
  obtain ⟨_, _, _, _, _, _, _, e⟩ := h.shape
  rw [e]; rfl

theorem Logs.inBand {s t : State} (h : Logs s t) : t.inBand = s.inBand := by
  obtain ⟨_, _, _, _, _, _, _, e⟩ := h.shape
  rw [e]; rfl

theorem Logs.outOfBand {s t : State} (h : Logs s t) : t.outOfBand = s.outOfBand := by
  obtain ⟨_, _, _, _, _, _, _, e⟩ := h.shape
  rw [e]; rfl

theorem Logs.mctp {s t : State} (h : Logs s t) : t.mctp = s.mctp := by
  obtain ⟨_, _, _, _, _, _, _, e⟩ := h.shape
  rw [e]; rfl

theorem Logs.deferred {s t : State} (h : Logs s t) : t.deferred = s.deferred := by
  obtain ⟨_, _, _, _, _, _, _, e⟩ := h.shape
  rw [e]; rfl

theorem Logs.plan {s t : State} (h : Logs s t) : t.plan = s.plan := by
  obtain ⟨_, _, _, _, _, _, _, e⟩ := h.shape
  rw [e]; rfl

theorem Logs.admitting {s t : State} (h : Logs s t) : t.admitting = s.admitting := by
  obtain ⟨_, _, _, _, _, _, _, e⟩ := h.shape
  rw [e]; rfl

theorem Logs.step {s t : State} (h : Logs s t) : t.step = s.step := by
  obtain ⟨_, _, _, _, _, _, _, e⟩ := h.shape
  rw [e]; rfl

theorem Logs.mailboxes {s t : State} (h : Logs s t) : t.mailboxes = s.mailboxes := by
  obtain ⟨_, _, _, _, _, _, _, e⟩ := h.shape
  rw [e]; rfl

theorem Logs.power {s t : State} (h : Logs s t) : t.power = s.power := by
  obtain ⟨_, _, _, _, _, _, _, e⟩ := h.shape
  rw [e]; rfl

theorem Logs.contribs {s t : State} (h : Logs s t) : t.contribs = s.contribs := by
  obtain ⟨_, _, _, _, _, _, _, e⟩ := h.shape
  rw [e]; rfl

theorem Logs.engines {s t : State} (h : Logs s t) : t.engines = s.engines := by
  obtain ⟨_, _, _, _, _, _, _, e⟩ := h.shape
  rw [e]; rfl

theorem Logs.cores {s t : State} (h : Logs s t) : t.cores = s.cores := by
  obtain ⟨_, _, _, _, _, _, _, e⟩ := h.shape
  rw [e]; rfl

theorem Logs.merges {s t : State} (h : Logs s t) : t.merges = s.merges := by
  obtain ⟨_, _, _, _, _, _, _, e⟩ := h.shape
  rw [e]; rfl

theorem Logs.spent {s t : State} (h : Logs s t) : t.spent = s.spent := by
  obtain ⟨_, _, _, _, _, _, _, e⟩ := h.shape
  rw [e]; rfl

theorem Logs.verdicts {s t : State} (h : Logs s t) : t.verdicts = s.verdicts := by
  obtain ⟨_, _, _, _, _, _, _, e⟩ := h.shape
  rw [e]; rfl

theorem Logs.ovfAt {s t : State} (h : Logs s t) : t.ovfAt = s.ovfAt := by
  obtain ⟨_, _, _, _, _, _, _, e⟩ := h.shape
  rw [e]; rfl

theorem Logs.windows {s t : State} (h : Logs s t) : t.windows = s.windows := by
  obtain ⟨_, _, _, _, _, _, _, e⟩ := h.shape
  rw [e]; rfl

theorem Logs.delivered {s t : State} (h : Logs s t) : t.delivered = s.delivered := by
  obtain ⟨_, _, _, _, _, _, _, e⟩ := h.shape
  rw [e]; rfl

theorem Logs.shards {s t : State} (h : Logs s t) : t.shards = s.shards := by
  obtain ⟨_, _, _, _, _, _, _, e⟩ := h.shape
  rw [e]; rfl

theorem Logs.sums {s t : State} (h : Logs s t) : t.sums = s.sums := by
  obtain ⟨_, _, _, _, _, _, _, e⟩ := h.shape
  rw [e]; rfl

theorem Logs.groupT {s t : State} (h : Logs s t) : t.groupT = s.groupT := by
  obtain ⟨_, _, _, _, _, _, _, e⟩ := h.shape
  rw [e]; rfl

theorem Logs.eta {s t : State} (h : Logs s t) : t.eta = s.eta := by
  obtain ⟨_, _, _, _, _, _, _, e⟩ := h.shape
  rw [e]; rfl

theorem Logs.records {s t : State} (h : Logs s t) : t.records = s.records := by
  obtain ⟨_, _, _, _, _, _, _, e⟩ := h.shape
  rw [e]; rfl

theorem Logs.unitStrikes {s t : State} (h : Logs s t) : t.unitStrikes = s.unitStrikes := by
  obtain ⟨_, _, _, _, _, _, _, e⟩ := h.shape
  rw [e]; rfl

theorem Logs.captures {s t : State} (h : Logs s t) : t.captures = s.captures := by
  obtain ⟨_, _, _, _, _, _, _, e⟩ := h.shape
  rw [e]; rfl

theorem Logs.packs {s t : State} (h : Logs s t) : t.packs = s.packs := by
  obtain ⟨_, _, _, _, _, _, _, e⟩ := h.shape
  rw [e]; rfl

theorem Logs.ports {s t : State} (h : Logs s t) : t.ports = s.ports := by
  obtain ⟨_, _, _, _, _, _, _, e⟩ := h.shape
  rw [e]; rfl

theorem Logs.txLinks {s t : State} (h : Logs s t) : t.txLinks = s.txLinks := by
  obtain ⟨_, _, _, _, _, _, _, e⟩ := h.shape
  rw [e]; rfl

theorem Logs.rxLinks {s t : State} (h : Logs s t) : t.rxLinks = s.rxLinks := by
  obtain ⟨_, _, _, _, _, _, _, e⟩ := h.shape
  rw [e]; rfl

theorem Logs.micro {s t : State} (h : Logs s t) : t.micro = s.micro := by
  obtain ⟨_, _, _, _, _, _, _, e⟩ := h.shape
  rw [e]; rfl

theorem Logs.settings {s t : State} (h : Logs s t) : t.settings = s.settings := by
  obtain ⟨_, _, _, _, _, _, _, e⟩ := h.shape
  rw [e]; rfl

theorem Logs.lasers {s t : State} (h : Logs s t) : t.lasers = s.lasers := by
  obtain ⟨_, _, _, _, _, _, _, e⟩ := h.shape
  rw [e]; rfl

theorem Logs.lsc {s t : State} (h : Logs s t) : t.lsc = s.lsc := by
  obtain ⟨_, _, _, _, _, _, _, e⟩ := h.shape
  rw [e]; rfl

theorem Logs.prep {s t : State} (h : Logs s t) : t.prep = s.prep := by
  obtain ⟨_, _, _, _, _, _, _, e⟩ := h.shape
  rw [e]; rfl

theorem Logs.xrClear {s t : State} (h : Logs s t) : t.xrClear = s.xrClear := by
  obtain ⟨_, _, _, _, _, _, _, e⟩ := h.shape
  rw [e]; rfl

theorem Logs.digesting {s t : State} (h : Logs s t) : t.digesting = s.digesting := by
  obtain ⟨_, _, _, _, _, _, _, e⟩ := h.shape
  rw [e]; rfl

theorem Logs.keeper {s t : State} (h : Logs s t) : t.keeper = s.keeper := by
  obtain ⟨_, _, _, _, _, _, _, e⟩ := h.shape
  rw [e]; rfl

theorem Logs.out {s t : State} (h : Logs s t) : t.out = s.out := by
  obtain ⟨_, _, _, _, _, _, _, e⟩ := h.shape
  rw [e]; rfl

theorem Logs.freeCount {s t : State} (h : Logs s t) : t.freeCount = s.freeCount := by
  obtain ⟨_, _, _, _, _, _, _, e⟩ := h.shape
  rw [e]; rfl

theorem Logs.pending {s t : State} (h : Logs s t) : t.pending = s.pending := by
  obtain ⟨_, _, _, _, _, _, _, e⟩ := h.shape
  rw [e]; rfl

@[simp] theorem State.raise_blobs (s : State) (e : Ev) : (s.raise e).blobs = s.blobs := (State.raise_logs s e).blobs
@[simp] theorem State.raise_now (s : State) (e : Ev) : (s.raise e).now = s.now := (State.raise_logs s e).now
@[simp] theorem State.raise_bell (s : State) (e : Ev) : (s.raise e).bell = s.bell := (State.raise_logs s e).bell
@[simp] theorem State.raise_inBand (s : State) (e : Ev) : (s.raise e).inBand = s.inBand := (State.raise_logs s e).inBand
@[simp] theorem State.raise_outOfBand (s : State) (e : Ev) : (s.raise e).outOfBand = s.outOfBand := (State.raise_logs s e).outOfBand
@[simp] theorem State.raise_mctp (s : State) (e : Ev) : (s.raise e).mctp = s.mctp := (State.raise_logs s e).mctp
@[simp] theorem State.raise_deferred (s : State) (e : Ev) : (s.raise e).deferred = s.deferred := (State.raise_logs s e).deferred
@[simp] theorem State.raise_plan (s : State) (e : Ev) : (s.raise e).plan = s.plan := (State.raise_logs s e).plan
@[simp] theorem State.raise_admitting (s : State) (e : Ev) : (s.raise e).admitting = s.admitting := (State.raise_logs s e).admitting
@[simp] theorem State.raise_step (s : State) (e : Ev) : (s.raise e).step = s.step := (State.raise_logs s e).step
@[simp] theorem State.raise_mailboxes (s : State) (e : Ev) : (s.raise e).mailboxes = s.mailboxes := (State.raise_logs s e).mailboxes
@[simp] theorem State.raise_power (s : State) (e : Ev) : (s.raise e).power = s.power := (State.raise_logs s e).power
@[simp] theorem State.raise_contribs (s : State) (e : Ev) : (s.raise e).contribs = s.contribs := (State.raise_logs s e).contribs
@[simp] theorem State.raise_engines (s : State) (e : Ev) : (s.raise e).engines = s.engines := (State.raise_logs s e).engines
@[simp] theorem State.raise_cores (s : State) (e : Ev) : (s.raise e).cores = s.cores := (State.raise_logs s e).cores
@[simp] theorem State.raise_merges (s : State) (e : Ev) : (s.raise e).merges = s.merges := (State.raise_logs s e).merges
@[simp] theorem State.raise_spent (s : State) (e : Ev) : (s.raise e).spent = s.spent := (State.raise_logs s e).spent
@[simp] theorem State.raise_verdicts (s : State) (e : Ev) : (s.raise e).verdicts = s.verdicts := (State.raise_logs s e).verdicts
@[simp] theorem State.raise_ovfAt (s : State) (e : Ev) : (s.raise e).ovfAt = s.ovfAt := (State.raise_logs s e).ovfAt
@[simp] theorem State.raise_windows (s : State) (e : Ev) : (s.raise e).windows = s.windows := (State.raise_logs s e).windows
@[simp] theorem State.raise_delivered (s : State) (e : Ev) : (s.raise e).delivered = s.delivered := (State.raise_logs s e).delivered
@[simp] theorem State.raise_shards (s : State) (e : Ev) : (s.raise e).shards = s.shards := (State.raise_logs s e).shards
@[simp] theorem State.raise_sums (s : State) (e : Ev) : (s.raise e).sums = s.sums := (State.raise_logs s e).sums
@[simp] theorem State.raise_groupT (s : State) (e : Ev) : (s.raise e).groupT = s.groupT := (State.raise_logs s e).groupT
@[simp] theorem State.raise_eta (s : State) (e : Ev) : (s.raise e).eta = s.eta := (State.raise_logs s e).eta
@[simp] theorem State.raise_records (s : State) (e : Ev) : (s.raise e).records = s.records := (State.raise_logs s e).records
@[simp] theorem State.raise_unitStrikes (s : State) (e : Ev) : (s.raise e).unitStrikes = s.unitStrikes := (State.raise_logs s e).unitStrikes
@[simp] theorem State.raise_captures (s : State) (e : Ev) : (s.raise e).captures = s.captures := (State.raise_logs s e).captures
@[simp] theorem State.raise_packs (s : State) (e : Ev) : (s.raise e).packs = s.packs := (State.raise_logs s e).packs
@[simp] theorem State.raise_ports (s : State) (e : Ev) : (s.raise e).ports = s.ports := (State.raise_logs s e).ports
@[simp] theorem State.raise_txLinks (s : State) (e : Ev) : (s.raise e).txLinks = s.txLinks := (State.raise_logs s e).txLinks
@[simp] theorem State.raise_rxLinks (s : State) (e : Ev) : (s.raise e).rxLinks = s.rxLinks := (State.raise_logs s e).rxLinks
@[simp] theorem State.raise_micro (s : State) (e : Ev) : (s.raise e).micro = s.micro := (State.raise_logs s e).micro
@[simp] theorem State.raise_settings (s : State) (e : Ev) : (s.raise e).settings = s.settings := (State.raise_logs s e).settings
@[simp] theorem State.raise_lasers (s : State) (e : Ev) : (s.raise e).lasers = s.lasers := (State.raise_logs s e).lasers
@[simp] theorem State.raise_lsc (s : State) (e : Ev) : (s.raise e).lsc = s.lsc := (State.raise_logs s e).lsc
@[simp] theorem State.raise_prep (s : State) (e : Ev) : (s.raise e).prep = s.prep := (State.raise_logs s e).prep
@[simp] theorem State.raise_xrClear (s : State) (e : Ev) : (s.raise e).xrClear = s.xrClear := (State.raise_logs s e).xrClear
@[simp] theorem State.raise_digesting (s : State) (e : Ev) : (s.raise e).digesting = s.digesting := (State.raise_logs s e).digesting
@[simp] theorem State.raise_keeper (s : State) (e : Ev) : (s.raise e).keeper = s.keeper := (State.raise_logs s e).keeper
@[simp] theorem State.raise_out (s : State) (e : Ev) : (s.raise e).out = s.out := (State.raise_logs s e).out
@[simp] theorem State.raise_freeCount (s : State) (e : Ev) : (s.raise e).freeCount = s.freeCount := (State.raise_logs s e).freeCount
@[simp] theorem State.raise_pending (s : State) (e : Ev) : (s.raise e).pending = s.pending := (State.raise_logs s e).pending

end Sys2Proof.Machine
end

