-- ==== Sys2Proof/Laws/Keeps.lean ====
section
/-! SUPPORT. The relation that every operation of the model keeps between the state before and after it: the queue
stands, time does not go back, and a sound state stays sound. Its rules for the shapes in which the model's
functions are written. -/

namespace Sys2Proof.Machine

/-- What every operation keeps. -/
structure Keeps (s t : State) : Prop where
  pending : t.pending = s.pending
  now : s.now ≤ t.now
  sound : s.sound = true → t.sound = true

/-- The same of an outcome: it is a next state, and that state keeps it. -/
structure KeepsO (s : State) (o : Host.Outcome State Fault Refusal) : Prop where
  next_keeps : ∃ t, o = .next t ∧ Keeps s t

theorem Keeps.refl (s : State) : Keeps s s := ⟨rfl, Nat.le_refl _, id⟩

theorem Keeps.trans {s t u : State} (h : Keeps s t) (k : Keeps t u) : Keeps s u :=
  ⟨k.pending.trans h.pending, Nat.le_trans h.now k.now, fun x => k.sound (h.sound x)⟩

/-- A state that agrees with another in everything that `Keeps` speaks of. -/
theorem Keeps.of_eq {s x y : State} (h : Keeps s x) (e1 : y.pending = x.pending) (e2 : y.now = x.now)
    (e3 : y.mem.bytes = x.mem.bytes) (e4 : y.od = x.od) (e5 : y.blobs = x.blobs) (e6 : y.events = x.events)
    (e7 : y.ledger.ring = x.ledger.ring) (e8 : y.ledger.flash = x.ledger.flash)
    (e9 : y.inBand.kept = x.inBand.kept) (e10 : y.outOfBand.kept = x.outOfBand.kept) : Keeps s y := by
  refine ⟨e1.trans h.pending, e2 ▸ h.now, fun q => ?_⟩
  have := h.sound q
  simpa only [State.sound, State.odWf, State.blobsWf, State.bounded, e3, e4, e5, e6, e7, e8, e9, e10] using this

/-- The same when events are logged within their bounds. -/
theorem Keeps.logged {s x y : State} (h : Keeps s x) (e1 : y.pending = x.pending) (e2 : y.now = x.now)
    (e3 : y.mem.bytes = x.mem.bytes) (e4 : y.od = x.od) (e5 : y.blobs = x.blobs)
    (e9 : y.inBand.kept = x.inBand.kept) (e10 : y.outOfBand.kept = x.outOfBand.kept)
    (b1 : y.events.length ≤ 256) (b2 : y.ledger.ring.length ≤ 1024)
    (b3 : x.ledger.flash.length ≤ 4096 → y.ledger.flash.length ≤ 4096) : Keeps s y := by
  refine ⟨e1.trans h.pending, e2 ▸ h.now, fun q => ?_⟩
  have := h.sound q
  simp only [State.sound, State.odWf, State.blobsWf, State.bounded, Bool.and_eq_true, decide_eq_true_eq, e3, e4, e5,
    e9, e10] at this ⊢
  exact ⟨this.1, ⟨⟨⟨b1, b2⟩, b3 this.2.1.1.2⟩, this.2.1.2⟩, this.2.2⟩

/-- A state whose memory keeps its form and whose rings and caches are no longer than before. -/
theorem Keeps.loose {s x y : State} (h : Keeps s x) (e1 : y.pending = x.pending) (e2 : x.now ≤ y.now)
    (e3 : Memory.wf x.mem.bytes = true → Memory.wf y.mem.bytes = true) (e4 : y.od = x.od) (e5 : y.blobs = x.blobs)
    (b1 : y.events.length ≤ x.events.length) (b2 : y.ledger.ring.length ≤ x.ledger.ring.length)
    (b3 : y.ledger.flash.length ≤ x.ledger.flash.length)
    (b4 : y.inBand.kept.length ≤ x.inBand.kept.length)
    (b5 : y.outOfBand.kept.length ≤ x.outOfBand.kept.length) : Keeps s y := by
  refine ⟨e1.trans h.pending, Nat.le_trans h.now e2, fun q => ?_⟩
  have := h.sound q
  simp only [State.sound, State.odWf, State.blobsWf, State.bounded, Bool.and_eq_true, decide_eq_true_eq, e4, e5]
    at this ⊢
  obtain ⟨⟨⟨m, o⟩, b⟩, ⟨⟨⟨c1, c2⟩, c3⟩, c4⟩, c5⟩ := this
  exact ⟨⟨⟨e3 m, o⟩, b⟩, ⟨⟨⟨Nat.le_trans b1 c1, Nat.le_trans b2 c2⟩, Nat.le_trans b3 c3⟩, Nat.le_trans b4 c4⟩,
    Nat.le_trans b5 c5⟩

theorem flashInsert_le {fl : List LedgerEntry} {e : LedgerEntry} (h : fl.length ≤ 4096) :
    (flashInsert fl e).length ≤ 4096 := by
  unfold flashInsert
  split
  · simp only [List.length_cons]; omega
  · split
    · next x hx =>
      have m := List.mem_of_getLast? hx
      have := (List.mem_filter.1 m).1
      have lt : x.2 < fl.length := by
        have := List.snd_lt_of_mem_zipIdx this
        simpa using this
      simp only [List.length_cons, List.length_eraseIdx_of_lt lt]
      omega
    · simp only [List.length_cons, List.length_dropLast]; omega

/-- `Keeps` of a state written out field by field. -/
def KeepsMk (s : State)
    (v0 : Bank Nat) (v1 : Bank Bytes) (v2 : Nat) (v3 : Bell) (v4 : PathSt) (v5 : PathSt) (v6 : MctpSt) (v7 : List
    (Nat × Nat)) (v8 : List RingRec) (v9 : Ledger) (v10 : Option Plan) (v11 : Option Admitting) (v12 : StepSt)
    (v13 : MemSt) (v14 : Bank RingSt) (v15 : Bank MailboxSt) (v16 : Bank FlowSt) (v17 : PowerSt) (v18 : List
    Contribution) (v19 : Bank EngineSt) (v20 : Bank CoreSt) (v21 : List Merge) (v22 : Bank Nat) (v23 : List
    VerdictDue) (v24 : Nat) (v25 : Bank WindowSt) (v26 : List Delivered) (v27 : Bank ShardSt) (v28 : Bank
    GroupSum) (v29 : Bank Nat) (v30 : Bank Nat) (v31 : Bank GroupRec) (v32 : Bank Nat) (v33 : List Capture) (v34 :
    List Pack) (v35 : Bank PortSt) (v36 : Bank TxLink) (v37 : Bank RxLink) (v38 : List Routed) (v39 : Bank Micro)
    (v40 : Bank Nat) (v41 : Bank LaserSt) (v42 : List LscReq) (v43 : Option Prep) (v44 : Bool) (v45 : Option (Nat
    × Nat × Nat)) (v46 : Option Keeper) (v47 : List Out) (v48 : Nat) (v49 : List Instr) : Prop :=
  Keeps s (State.mk v0 v1 v2 v3 v4 v5 v6 v7 v8 v9 v10 v11 v12 v13 v14 v15 v16 v17 v18 v19 v20 v21 v22 v23 v24 v25 v26
      v27 v28 v29 v30 v31 v32 v33 v34 v35 v36 v37 v38 v39 v40 v41 v42 v43 v44 v45 v46 v47 v48 v49)

theorem Keeps.mk_eq (s : State)
    (v0 : Bank Nat) (v1 : Bank Bytes) (v2 : Nat) (v3 : Bell) (v4 : PathSt) (v5 : PathSt) (v6 : MctpSt) (v7 : List
    (Nat × Nat)) (v8 : List RingRec) (v9 : Ledger) (v10 : Option Plan) (v11 : Option Admitting) (v12 : StepSt)
    (v13 : MemSt) (v14 : Bank RingSt) (v15 : Bank MailboxSt) (v16 : Bank FlowSt) (v17 : PowerSt) (v18 : List
    Contribution) (v19 : Bank EngineSt) (v20 : Bank CoreSt) (v21 : List Merge) (v22 : Bank Nat) (v23 : List
    VerdictDue) (v24 : Nat) (v25 : Bank WindowSt) (v26 : List Delivered) (v27 : Bank ShardSt) (v28 : Bank
    GroupSum) (v29 : Bank Nat) (v30 : Bank Nat) (v31 : Bank GroupRec) (v32 : Bank Nat) (v33 : List Capture) (v34 :
    List Pack) (v35 : Bank PortSt) (v36 : Bank TxLink) (v37 : Bank RxLink) (v38 : List Routed) (v39 : Bank Micro)
    (v40 : Bank Nat) (v41 : Bank LaserSt) (v42 : List LscReq) (v43 : Option Prep) (v44 : Bool) (v45 : Option (Nat
    × Nat × Nat)) (v46 : Option Keeper) (v47 : List Out) (v48 : Nat) (v49 : List Instr) :
    Keeps s (State.mk v0 v1 v2 v3 v4 v5 v6 v7 v8 v9 v10 v11 v12 v13 v14 v15 v16 v17 v18 v19 v20 v21 v22 v23 v24 v25 v26
      v27 v28 v29 v30 v31 v32 v33 v34 v35 v36 v37 v38 v39 v40 v41 v42 v43 v44 v45 v46 v47 v48 v49) =
    KeepsMk s v0 v1 v2 v3 v4 v5 v6 v7 v8 v9 v10 v11 v12 v13 v14 v15 v16 v17 v18 v19 v20 v21 v22 v23 v24 v25 v26
      v27 v28 v29 v30 v31 v32 v33 v34 v35 v36 v37 v38 v39 v40 v41 v42 v43 v44 v45 v46 v47 v48 v49 := rfl

/-- A state built from another by changing only fields that `Keeps` does not speak of. -/
theorem KeepsMk.of {s x : State}
    {v0 : Bank Nat} {v1 : Bank Bytes} {v2 : Nat} {v3 : Bell} {v4 : PathSt} {v5 : PathSt} {v6 : MctpSt} {v7 : List
    (Nat × Nat)} {v8 : List RingRec} {v9 : Ledger} {v10 : Option Plan} {v11 : Option Admitting} {v12 : StepSt}
    {v13 : MemSt} {v14 : Bank RingSt} {v15 : Bank MailboxSt} {v16 : Bank FlowSt} {v17 : PowerSt} {v18 : List
    Contribution} {v19 : Bank EngineSt} {v20 : Bank CoreSt} {v21 : List Merge} {v22 : Bank Nat} {v23 : List
    VerdictDue} {v24 : Nat} {v25 : Bank WindowSt} {v26 : List Delivered} {v27 : Bank ShardSt} {v28 : Bank
    GroupSum} {v29 : Bank Nat} {v30 : Bank Nat} {v31 : Bank GroupRec} {v32 : Bank Nat} {v33 : List Capture} {v34 :
    List Pack} {v35 : Bank PortSt} {v36 : Bank TxLink} {v37 : Bank RxLink} {v38 : List Routed} {v39 : Bank Micro}
    {v40 : Bank Nat} {v41 : Bank LaserSt} {v42 : List LscReq} {v43 : Option Prep} {v44 : Bool} {v45 : Option (Nat
    × Nat × Nat)} {v46 : Option Keeper} {v47 : List Out} {v48 : Nat} {v49 : List Instr}
    (h : Keeps s x) (e1 : v49 = x.pending) (e2 : v2 = x.now) (e3 : v13.bytes = x.mem.bytes)
    (e4 : v0 = x.od) (e5 : v1 = x.blobs) (e6 : v8 = x.events)
    (e7 : v9.ring = x.ledger.ring) (e8 : v9.flash = x.ledger.flash)
    (e9 : v4.kept = x.inBand.kept) (e10 : v5.kept = x.outOfBand.kept) :
    KeepsMk s v0 v1 v2 v3 v4 v5 v6 v7 v8 v9 v10 v11 v12 v13 v14 v15 v16 v17 v18 v19 v20 v21 v22 v23 v24 v25
      v26 v27 v28 v29 v30 v31 v32 v33 v34 v35 v36 v37 v38 v39 v40 v41 v42 v43 v44 v45 v46 v47 v48 v49 :=
  h.of_eq e1 e2 e3 e4 e5 e6 e7 e8 e9 e10

theorem Keeps.ite {s a b : State} {c : Prop} [Decidable c] (hb : Keeps s b) (ha : Keeps s b → Keeps s a) :
    Keeps s (if c then a else b) := by
  split
  · exact ha hb
  · exact hb

theorem Keeps.foldl {α : Type} {s i : State} {f : State → α → State} {l : List α} (h : Keeps s i)
    (hf : ∀ x a, Keeps s x → Keeps s (f x a)) : Keeps s (l.foldl f i) := by
  induction l generalizing i with
  | nil => exact h
  | cons a l ih => exact ih (hf i a h)

theorem Keeps.foldl1 {α β : Type} {s : State} {i : State × β} {f : State × β → α → State × β} {l : List α}
    (h : Keeps s i.1) (hf : ∀ x a, Keeps s x.1 → Keeps s (f x a).1) : Keeps s (l.foldl f i).1 := by
  induction l generalizing i with
  | nil => exact h
  | cons a l ih => exact ih (hf i a h)

theorem Keeps.foldl2 {α β : Type} {s : State} {i : β × State} {f : β × State → α → β × State} {l : List α}
    (h : Keeps s i.2) (hf : ∀ x a, Keeps s x.2 → Keeps s (f x a).2) : Keeps s (l.foldl f i).2 := by
  induction l generalizing i with
  | nil => exact h
  | cons a l ih => exact ih (hf i a h)

theorem Keeps.ite1 {β : Type} {s : State} {a b : State × β} {c : Prop} [Decidable c] (ha : Keeps s a.1)
    (hb : Keeps s b.1) : Keeps s (if c then a else b).1 := by
  split
  · exact ha
  · exact hb

theorem Keeps.ite2 {β : Type} {s : State} {a b : β × State} {c : Prop} [Decidable c] (ha : Keeps s a.2)
    (hb : Keeps s b.2) : Keeps s (if c then a else b).2 := by
  split
  · exact ha
  · exact hb

theorem Keeps.iteR {s : State} {a b : Reply} {c : Prop} [Decidable c] (ha : Keeps s a.s) (hb : Keeps s b.s) :
    Keeps s (if c then a else b).s := by
  split
  · exact ha
  · exact hb

theorem Keeps.elim {α : Type} {s x : State} {o : Option α} {f : α → State} (h : Keeps s x)
    (hf : ∀ a, Keeps s (f a)) : Keeps s (o.elim x f) := by
  cases o with
  | none => exact h
  | some a => exact hf a

theorem KeepsO.next {s t : State} (h : Keeps s t) : KeepsO s (.next t) := ⟨t, rfl, h⟩

theorem KeepsO.ite {s : State} {a b : Host.Outcome State Fault Refusal} {c : Prop} [Decidable c] (ha : KeepsO s a)
    (hb : KeepsO s b) : KeepsO s (if c then a else b) := by
  split
  · exact ha
  · exact hb

theorem Keeps.cut (s x : State) {p : Prop} (h : Keeps s x) (k : Keeps s x → p) : p := k h

theorem Keeps.cut1 {β : Type} (s : State) (x : State × β) {p : Prop} (h : Keeps s x.1) (k : Keeps s x.1 → p) : p := k h

theorem Keeps.cut2 {β : Type} (s : State) (x : β × State) {p : Prop} (h : Keeps s x.2) (k : Keeps s x.2 → p) : p := k h

theorem Keeps.cutR (s : State) (x : Reply) {p : Prop} (h : Keeps s x.s) (k : Keeps s x.s → p) : p := k h

theorem keepLedger {p : Prop} (_ : Ledger) (h : p) : p := h

theorem keepMem {p : Prop} (_ : MemSt) (h : p) : p := h

theorem keepPath {p : Prop} (_ : PathSt) (h : p) : p := h

/-! ### The canonical forms -/

theorem Bank.rising_cons {α : Type} {e : Nat × α} {m : Bank α} :
    Bank.rising (e :: m) = true ↔ (∀ f ∈ m, e.1 < f.1) ∧ Bank.rising m = true := by
  induction m generalizing e with
  | nil => simp [Bank.rising]
  | cons g m ih =>
    obtain ⟨j, v⟩ := e
    obtain ⟨k, w⟩ := g
    simp only [Bank.rising, Bool.and_eq_true, decide_eq_true_eq, List.mem_cons, forall_eq_or_imp]
    constructor
    · rintro ⟨h, r⟩
      exact ⟨⟨h, fun f hf => Nat.lt_trans h ((ih.1 r).1 f hf)⟩, r⟩
    · rintro ⟨⟨h, -⟩, r⟩
      exact ⟨h, r⟩

theorem Bank.rising_filter {α : Type} {p : Nat × α → Bool} {m : Bank α} (h : Bank.rising m = true) :
    Bank.rising (m.filter p) = true := by
  induction m with
  | nil => rfl
  | cons e m ih =>
    obtain ⟨a, b⟩ := Bank.rising_cons.1 h
    by_cases q : p e = true
    · rw [List.filter_cons_of_pos q]
      exact Bank.rising_cons.2 ⟨fun f hf => a f (List.mem_filter.1 hf).1, ih b⟩
    · rw [List.filter_cons_of_neg q]
      exact ih b

theorem Bank.mem_put {α : Type} {m : Bank α} {k : Nat} {v : α} {e : Nat × α} (h : e ∈ Bank.put m k v) :
    e = (k, v) ∨ e ∈ m := by
  induction m with
  | nil => simpa [Bank.put] using h
  | cons g m ih =>
    obtain ⟨j, w⟩ := g
    simp only [Bank.put] at h
    split at h
    · simpa using h
    · split at h
      · rcases List.mem_cons.1 h with h | h
        · exact .inl h
        · exact .inr (List.mem_cons_of_mem _ h)
      · rcases List.mem_cons.1 h with h | h
        · exact .inr (h ▸ List.mem_cons_self ..)
        · rcases ih h with h | h
          · exact .inl h
          · exact .inr (List.mem_cons_of_mem _ h)

theorem Bank.rising_put {α : Type} {m : Bank α} {k : Nat} {v : α} (h : Bank.rising m = true) :
    Bank.rising (Bank.put m k v) = true := by
  induction m with
  | nil => rfl
  | cons g m ih =>
    obtain ⟨j, w⟩ := g
    obtain ⟨a, b⟩ := Bank.rising_cons.1 h
    simp only [Bank.put]
    split
    · next q =>
      refine Bank.rising_cons.2 ⟨fun f hf => ?_, h⟩
      rcases List.mem_cons.1 hf with hf | hf
      · exact hf ▸ q
      · exact Nat.lt_trans q (a f hf)
    · split
      · next q => subst q; exact Bank.rising_cons.2 ⟨a, b⟩
      · next q1 q2 =>
        refine Bank.rising_cons.2 ⟨fun f hf => ?_, ih b⟩
        rcases Bank.mem_put hf with hf | hf
        · subst hf; simp only; omega
        · exact a f hf

theorem Bank.wf_iff {α : Type} [DecidableEq α] {m : Bank α} {d : α} :
    Bank.wf m d = true ↔ Bank.rising m = true ∧ ∀ e ∈ m, e.2 ≠ d := by
  induction m with
  | nil => simp [Bank.wf, Bank.rising]
  | cons g m ih =>
    cases m with
    | nil => simp [Bank.wf, Bank.rising]
    | cons f m =>
      obtain ⟨j, v⟩ := g
      obtain ⟨k, w⟩ := f
      simp only [Bank.wf, Bank.rising, Bool.and_eq_true, decide_eq_true_eq, ih]
      simp only [List.mem_cons, forall_eq_or_imp]
      constructor
      · rintro ⟨⟨a, b⟩, c, d⟩; exact ⟨⟨a, c⟩, b, d⟩
      · rintro ⟨⟨a, c⟩, b, d⟩; exact ⟨⟨a, b⟩, c, d⟩

/-! ### The primitive operations -/

theorem State.setObj_keeps {s0 s : State} {k v : Nat} (h : Keeps s0 s) : Keeps s0 (s.setObj k v) := by
  refine ⟨h.pending, h.now, fun q => ?_⟩
  have w := h.sound q
  simp only [State.sound, Bool.and_eq_true] at w ⊢
  obtain ⟨⟨⟨a, b⟩, c⟩, d⟩ := w
  refine ⟨⟨⟨a, ?_⟩, c⟩, d⟩
  simp only [State.odWf, Bool.and_eq_true, List.all_eq_true, decide_eq_true_eq] at b ⊢
  simp only [State.setObj]
  split
  · exact ⟨Bank.rising_filter b.1, fun e he => b.2 e (List.mem_filter.1 he).1⟩
  · next ne =>
    refine ⟨Bank.rising_put b.1, fun e he => ?_⟩
    rcases Bank.mem_put he with he | he
    · subst he; exact ne
    · exact b.2 e he

theorem State.setBlob_keeps {s0 s : State} {k : Nat} {v : Bytes} (h : Keeps s0 s) : Keeps s0 (s.setBlob k v) := by
  refine ⟨h.pending, h.now, fun q => ?_⟩
  have w := h.sound q
  simp only [State.sound, Bool.and_eq_true] at w ⊢
  obtain ⟨⟨a, b⟩, d⟩ := w
  refine ⟨⟨a, ?_⟩, d⟩
  simp only [State.blobsWf, Bool.and_eq_true, List.all_eq_true, decide_eq_true_eq] at b ⊢
  simp only [State.setBlob]
  split
  · exact ⟨Bank.rising_filter b.1, fun e he => b.2 e (List.mem_filter.1 he).1⟩
  · next ne =>
    refine ⟨Bank.rising_put b.1, fun e he => ?_⟩
    rcases Bank.mem_put he with he | he
    · subst he; exact ne
    · exact b.2 e he

theorem State.dropObjects_keeps {s0 s : State} {rets : List Ret} {fns : List Fn} (h : Keeps s0 s) :
    Keeps s0 (s.dropObjects rets fns) := by
  refine ⟨h.pending, h.now, fun q => ?_⟩
  have w := h.sound q
  simp only [State.sound, Bool.and_eq_true] at w ⊢
  obtain ⟨⟨⟨a, b⟩, c⟩, d⟩ := w
  simp only [State.odWf, State.blobsWf, Bool.and_eq_true, List.all_eq_true, decide_eq_true_eq] at b c ⊢
  exact ⟨⟨⟨a, Bank.rising_filter b.1, fun e he => b.2 e (List.mem_filter.1 he).1⟩, Bank.rising_filter c.1,
    fun e he => c.2 e (List.mem_filter.1 he).1⟩, d⟩

theorem State.advance_keeps {s0 s : State} {d : Nat} (h : Keeps s0 s) : Keeps s0 (s.advance d) :=
  ⟨h.pending, Nat.le_trans h.now (Nat.le_add_right _ _), h.sound⟩

theorem cellsOf_mem {a : Nat} {bs : Bytes} {e : Host.Cell} (h : e ∈ cellsOf a bs) :
    a ≤ e.1 ∧ e.1 < a + bs.length ∧ e.2 ≠ 0 := by
  induction bs generalizing a with
  | nil => simp [cellsOf] at h
  | cons b bs ih =>
    simp only [cellsOf] at h
    simp only [List.length_cons]
    split at h
    · obtain ⟨x, y, z⟩ := ih h
      exact ⟨by omega, by omega, z⟩
    · next ne =>
      rcases List.mem_cons.1 h with h | h
      · subst h; exact ⟨Nat.le_refl _, by simp only; omega, ne⟩
      · obtain ⟨x, y, z⟩ := ih h
        exact ⟨by omega, by omega, z⟩

theorem cellsOf_rising {a : Nat} {bs : Bytes} : Bank.rising (cellsOf a bs) = true := by
  induction bs generalizing a with
  | nil => rfl
  | cons b bs ih =>
    simp only [cellsOf]
    split
    · exact ih
    · exact Bank.rising_cons.2 ⟨fun f hf => by have := (cellsOf_mem hf).1; simp only; omega, ih⟩

theorem Bank.rising_append {α : Type} {m n : Bank α} (hm : Bank.rising m = true) (hn : Bank.rising n = true)
    (h : ∀ e ∈ m, ∀ f ∈ n, e.1 < f.1) : Bank.rising (m ++ n) = true := by
  induction m with
  | nil => exact hn
  | cons e m ih =>
    obtain ⟨a, b⟩ := Bank.rising_cons.1 hm
    refine Bank.rising_cons.2 ⟨fun f hf => ?_, ih b (fun x hx => h x (List.mem_cons_of_mem _ hx))⟩
    rcases List.mem_append.1 hf with hf | hf
    · exact a f hf
    · exact h e (List.mem_cons_self ..) f hf

/-- Every write of the DRAM keeps its canonical form. -/
theorem memWrite_wf {m : List Host.Cell} {a : Nat} {bs : Bytes} (h : Memory.wf m = true) :
    Memory.wf (memWrite m a bs) = true := by
  obtain ⟨r, z⟩ := Bank.wf_iff.1 h
  refine Bank.wf_iff.2 ⟨?_, fun e he => ?_⟩
  · refine Bank.rising_append (Bank.rising_append (Bank.rising_filter r) cellsOf_rising ?_) (Bank.rising_filter r) ?_
    · intro e he f hf
      have := (List.mem_filter.1 he).2
      have := (cellsOf_mem hf).1
      simp only [decide_eq_true_eq] at *
      omega
    · intro e he f hf
      have k := (List.mem_filter.1 hf).2
      simp only [decide_eq_true_eq] at k
      rcases List.mem_append.1 he with he | he
      · have := (List.mem_filter.1 he).2
        simp only [decide_eq_true_eq] at this
        omega
      · have := (cellsOf_mem he).2.1
        omega
  · rcases List.mem_append.1 he with he | he
    · rcases List.mem_append.1 he with he | he
      · exact z e (List.mem_filter.1 he).1
      · exact (cellsOf_mem he).2.2
    · exact z e (List.mem_filter.1 he).1

theorem State.poke_keeps {s0 s : State} {a : Nat} {bs : Bytes} (h : Keeps s0 s) : Keeps s0 (s.poke a bs) := by
  refine ⟨h.pending, h.now, fun q => ?_⟩
  have w := h.sound q
  simp only [State.sound, Bool.and_eq_true] at w ⊢
  obtain ⟨⟨⟨a, b⟩, c⟩, d⟩ := w
  exact ⟨⟨⟨memWrite_wf a, b⟩, c⟩, d⟩

end Sys2Proof.Machine
end

