-- ==== Sys2Proof/Laws/Keeps/Ops.lean ====
section
/-! SUPPORT. Every operation of Machine/Ops.lean keeps what `Keeps` says. -/

namespace Sys2Proof.Machine

theorem State.addObj_keeps {s0 s : State} {a1 a2} (h : Keeps s0 s) :
    Keeps s0 (State.addObj s a1 a2) := by
  unfold State.addObj
  with_reducible repeat' first
    | assumption | apply State.setObj_keeps | apply Keeps.ite | split

theorem State.bump_keeps {s0 s : State} {a1} (h : Keeps s0 s) :
    Keeps s0 (State.bump s a1) := by
  unfold State.bump
  with_reducible repeat' first
    | assumption | apply State.addObj_keeps | apply Keeps.ite | split

theorem State.quiet_keeps {s0 s : State} (h : Keeps s0 s) :
    Keeps s0 (State.quiet s) := by
  unfold State.quiet
  with_reducible repeat' first
    | assumption | apply Keeps.ite | split
    | (simp only [Keeps.mk_eq]; refine KeepsMk.of ?_ rfl rfl rfl rfl rfl rfl rfl rfl rfl rfl)

theorem State.emit_keeps {s0 s : State} {a1} (h : Keeps s0 s) :
    Keeps s0 (State.emit s a1) := by
  unfold State.emit
  with_reducible repeat' first
    | assumption | apply Keeps.ite | split
    | (simp only [Keeps.mk_eq]; refine KeepsMk.of ?_ rfl rfl rfl rfl rfl rfl rfl rfl rfl rfl)

theorem State.advanceTo_keeps {s0 s : State} {a1} (h : Keeps s0 s) :
    Keeps s0 (State.advanceTo s a1) := by
  unfold State.advanceTo
  with_reducible repeat' first
    | assumption | apply State.advance_keeps | apply Keeps.ite | split

theorem State.fresh_keeps {s0 s : State} (h : Keeps s0 s) :
    Keeps s0 (State.fresh s).2 := by
  unfold State.fresh
  with_reducible repeat' first
    | assumption | apply Keeps.ite | split
    | (simp only [Keeps.mk_eq]; refine KeepsMk.of ?_ rfl rfl rfl rfl rfl rfl rfl rfl rfl rfl)

theorem State.setRing_keeps {s0 s : State} {a1 a2} (h : Keeps s0 s) :
    Keeps s0 (State.setRing s a1 a2) := by
  unfold State.setRing
  with_reducible repeat' first
    | assumption | apply Keeps.ite | split
    | (simp only [Keeps.mk_eq]; refine KeepsMk.of ?_ rfl rfl rfl rfl rfl rfl rfl rfl rfl rfl)

theorem State.setFlow_keeps {s0 s : State} {a1 a2} (h : Keeps s0 s) :
    Keeps s0 (State.setFlow s a1 a2) := by
  unfold State.setFlow
  with_reducible repeat' first
    | assumption | apply Keeps.ite | split
    | (simp only [Keeps.mk_eq]; refine KeepsMk.of ?_ rfl rfl rfl rfl rfl rfl rfl rfl rfl rfl)

theorem State.inject_keeps {s0 s : State} {a1} (h : Keeps s0 s) :
    Keeps s0 (State.inject s a1) := by
  unfold State.inject
  with_reducible repeat' first
    | assumption | apply Keeps.ite | split
    | (simp only [Keeps.mk_eq]; refine KeepsMk.of ?_ rfl rfl rfl rfl rfl rfl rfl rfl rfl rfl)

theorem State.pump_keeps {s0 s : State} {a1} (h : Keeps s0 s) :
    Keeps s0 (State.pump s a1) := by
  unfold State.pump
  with_reducible repeat' first
    | assumption | intro _ | apply State.inject_keeps | apply State.setFlow_keeps | apply Keeps.ite
    | apply Keeps.foldl | split
    | (simp only [Keeps.mk_eq]; refine KeepsMk.of ?_ rfl rfl rfl rfl rfl rfl rfl rfl rfl rfl)

theorem State.sendMessage_keeps {s0 s : State} {a1 a2 a3 a4 a5 a6} (h : Keeps s0 s) :
    Keeps s0 (State.sendMessage s a1 a2 a3 a4 a5 a6) := by
  unfold State.sendMessage
  with_reducible repeat' first
    | assumption | intro _ | apply State.pump_keeps | apply State.setFlow_keeps | apply Keeps.ite
    | apply Keeps.foldl | split
    | (simp only [Keeps.mk_eq]; refine KeepsMk.of ?_ rfl rfl rfl rfl rfl rfl rfl rfl rfl rfl)

theorem State.unmark_keeps {s0 s : State} {a1} (h : Keeps s0 s) :
    Keeps s0 (State.unmark s a1) := by
  unfold State.unmark
  with_reducible repeat' first
    | assumption | intro _ | apply State.poison_keeps | apply Keeps.ite | apply Keeps.foldl | split
    | (simp only [Keeps.mk_eq]; refine KeepsMk.of ?_ rfl rfl rfl rfl rfl rfl rfl rfl rfl rfl)

theorem State.freshLine_keeps {s0 s : State} {a1} (h : Keeps s0 s) :
    Keeps s0 (State.freshLine s a1) := by
  unfold State.freshLine
  with_reducible repeat' first
    | assumption | intro _ | apply Keeps.ite | apply Keeps.foldl | split
    | (simp only [Keeps.mk_eq]; refine KeepsMk.of ?_ rfl rfl rfl rfl rfl rfl rfl rfl rfl rfl)

theorem State.writeLine_keeps {s0 s : State} {a1 a2} (h : Keeps s0 s) :
    Keeps s0 (State.writeLine s a1 a2) := by
  unfold State.writeLine
  with_reducible repeat' first
    | assumption | intro _ | apply State.unmark_keeps | apply State.poke_keeps | apply State.freshLine_keeps
    | apply Keeps.ite | apply Keeps.foldl | split
    | (simp only [Keeps.mk_eq]; refine KeepsMk.of ?_ rfl rfl rfl rfl rfl rfl rfl rfl rfl rfl)

theorem State.postRecord_keeps {s0 s : State} {a1 a2 a3} (h : Keeps s0 s) :
    Keeps s0 (State.postRecord s a1 a2 a3).1 := by
  unfold State.postRecord
  with_reducible repeat' first
    | assumption | (intro _; clear_value x1; revert x1) | intro _ | (unfold x1; clear x1)
    | (extract_lets +onlyGivenNames -merge x1; first | refine Keeps.cut s0 x1 ?_ ?_ | (clear_value x1; revert x1))
    | apply State.writeLine_keeps | apply State.setRing_keeps | apply State.bump_keeps | apply State.sendMessage_keeps
    | apply State.poke_keeps | apply Keeps.ite | apply Keeps.foldl | split
    | (simp only [Keeps.mk_eq]; refine KeepsMk.of ?_ rfl rfl rfl rfl rfl rfl rfl rfl rfl rfl)

theorem State.logEvent_keeps {s0 s : State} {a1 a2 a3 a4 a5} (h : Keeps s0 s) :
    Keeps s0 (State.logEvent s a1 a2 a3 a4 a5).1 := by
  unfold State.logEvent
  extract_lets s1 r wantsFlash fits toFlash entry src led s2 s3
  have h1 : Keeps s0 s1 := State.bump_keeps h
  have h2 : Keeps s0 s2 := by
    refine Keeps.logged h1 rfl rfl rfl rfl rfl rfl rfl ?_ ?_ ?_
    · exact List.length_take_le ..
    · exact List.length_take_le ..
    · intro q
      show led.flash.length ≤ 4096
      simp only [led]
      split
      · exact flashInsert_le q
      · exact q
  have h3 : Keeps s0 s3 := by
    simp only [s3]
    split
    · exact State.setObj_keeps h2
    · exact h2
  split
  · exact State.bump_keeps h3
  · exact h3

theorem State.raiseOnce_keeps {s0 s : State} {a1 a2 a3 a4} (h : Keeps s0 s) :
    Keeps s0 (State.raiseOnce s a1 a2 a3 a4).1 := by
  unfold State.raiseOnce
  with_reducible repeat' first
    | assumption | (intro _; first | (clear_value x1; revert x1) | subst x1) | intro _ | (unfold x1; clear x1)
    | (extract_lets +onlyGivenNames -merge x1; first | refine Keeps.cut s0 x1 ?_ ?_ | refine Keeps.cut1 s0 x1 ?_ ?_ | refine Keeps.cut2 s0 x1 ?_ ?_ | refine Keeps.cutR s0 x1 ?_ ?_ | (first | refine keepLedger x1 ?_ | refine keepMem x1 ?_ | refine keepPath x1 ?_; subst x1) | (clear_value x1; revert x1) | subst x1)
    | apply State.logEvent_keeps | apply State.postRecord_keeps | apply Keeps.ite | apply Keeps.foldl
    | apply Keeps.ite1 | apply Keeps.ite2 | apply Keeps.iteR | apply Keeps.elim | apply Keeps.foldl1
    | apply Keeps.foldl2 | split
    | (simp only [Keeps.mk_eq]; refine KeepsMk.of ?_ rfl rfl rfl rfl rfl rfl rfl rfl rfl rfl)

theorem State.noteSuppressed_keeps {s0 s : State} {a1} (h : Keeps s0 s) :
    Keeps s0 (State.noteSuppressed s a1) := by
  unfold State.noteSuppressed
  with_reducible repeat' first
    | assumption | intro _ | apply State.raiseOnce_keeps | apply Keeps.ite | apply Keeps.foldl | split
    | (simp only [Keeps.mk_eq]; refine KeepsMk.of ?_ rfl rfl rfl rfl rfl rfl rfl rfl rfl rfl)

theorem State.raiseWith_keeps {s0 s : State} {a1 a2 a3 a4} (h : Keeps s0 s) :
    Keeps s0 (State.raiseWith s a1 a2 a3 a4) := by
  unfold State.raiseWith
  with_reducible repeat' first
    | assumption | apply State.raiseOnce_keeps | apply State.noteSuppressed_keeps | apply Keeps.ite | split

theorem State.raiseAt_keeps {s0 s : State} {a1 a2 a3} (h : Keeps s0 s) :
    Keeps s0 (State.raiseAt s a1 a2 a3) := by
  unfold State.raiseAt
  with_reducible repeat' first
    | assumption | apply State.raiseWith_keeps | apply Keeps.ite | split

theorem State.raise_keeps {s0 s : State} {a1} (h : Keeps s0 s) :
    Keeps s0 (State.raise s a1) := by
  unfold State.raise
  with_reducible repeat' first
    | assumption | apply State.raiseAt_keeps | apply Keeps.ite | split

theorem State.post_keeps {s0 s : State} {a1 a2 a3} (h : Keeps s0 s) :
    Keeps s0 (State.post s a1 a2 a3) := by
  unfold State.post
  with_reducible repeat' first
    | assumption | apply State.postRecord_keeps | apply State.raise_keeps | apply Keeps.ite | split

theorem State.setResult_keeps {s0 s : State} {a1 a2 a3} (h : Keeps s0 s) :
    Keeps s0 (State.setResult s a1 a2 a3) := by
  unfold State.setResult
  with_reducible repeat' first
    | assumption | apply State.setObj_keeps | apply Keeps.ite | split

theorem State.cmdEvent_keeps {s0 s : State} {a1} (h : Keeps s0 s) :
    Keeps s0 (State.cmdEvent s a1) := by
  unfold State.cmdEvent
  with_reducible repeat' first
    | assumption | apply State.raiseWith_keeps | apply Keeps.ite | split

theorem State.cmdStart_keeps {s0 s : State} {a1} (h : Keeps s0 s) :
    Keeps s0 (State.cmdStart s a1) := by
  unfold State.cmdStart
  with_reducible repeat' first
    | assumption | apply State.setResult_keeps | apply Keeps.ite | split

theorem State.cmdDone_keeps {s0 s : State} {a1} (h : Keeps s0 s) :
    Keeps s0 (State.cmdDone s a1) := by
  unfold State.cmdDone
  with_reducible repeat' first
    | assumption | apply State.cmdEvent_keeps | apply State.setResult_keeps | apply Keeps.ite | split

theorem State.cmdFail_keeps {s0 s : State} {a1 a2} (h : Keeps s0 s) :
    Keeps s0 (State.cmdFail s a1 a2) := by
  unfold State.cmdFail
  with_reducible repeat' first
    | assumption | apply State.cmdEvent_keeps | apply State.setResult_keeps | apply Keeps.ite | split

theorem State.poison_keeps {s0 s : State} {a1} (h : Keeps s0 s) :
    Keeps s0 (State.poison s a1) := by
  unfold State.poison
  with_reducible repeat' first
    | assumption | intro _ | apply Keeps.ite | apply Keeps.foldl | split
    | (simp only [Keeps.mk_eq]; refine KeepsMk.of ?_ rfl rfl rfl rfl rfl rfl rfl rfl rfl rfl)

theorem State.poisonOverflow_keeps {s0 s : State} (h : Keeps s0 s) :
    Keeps s0 (State.poisonOverflow s) := by
  unfold State.poisonOverflow
  with_reducible repeat' first
    | assumption | intro _ | apply Keeps.ite | apply Keeps.foldl | split
    | (simp only [Keeps.mk_eq]; refine KeepsMk.of ?_ rfl rfl rfl rfl rfl rfl rfl rfl rfl rfl)

end Sys2Proof.Machine
end

