-- ==== Sys2Proof/Laws/Keeps/Memory.lean ====
section
/-! SUPPORT. Every operation of Machine/Memory.lean keeps what `Keeps` says. -/

namespace Sys2Proof.Machine

theorem State.deny_keeps {s0 s : State} {a1 a2 a3} (h : Keeps s0 s) :
    Keeps s0 (State.deny s a1 a2 a3) := by
  unfold State.deny
  with_reducible repeat' first
    | assumption | intro _ | apply State.bump_keeps | apply State.setObj_keeps | apply State.raiseAt_keeps
    | apply State.poison_keeps | apply Keeps.ite | apply Keeps.foldl | split
    | (simp only [Keeps.mk_eq]; refine KeepsMk.of ?_ rfl rfl rfl rfl rfl rfl rfl rfl rfl rfl)

theorem State.mark_keeps {s0 s : State} {a1} (h : Keeps s0 s) :
    Keeps s0 (State.mark s a1) := by
  unfold State.mark
  with_reducible repeat' first
    | assumption | intro _ | apply State.poison_keeps | apply Keeps.ite | apply Keeps.foldl | split
    | (simp only [Keeps.mk_eq]; refine KeepsMk.of ?_ rfl rfl rfl rfl rfl rfl rfl rfl rfl rfl)

theorem State.strikeLine_keeps {s0 s : State} {a1 a2} (h : Keeps s0 s) :
    Keeps s0 (State.strikeLine s a1 a2) := by
  unfold State.strikeLine
  simp only [Keeps.mk_eq]; exact KeepsMk.of h rfl rfl rfl rfl rfl rfl rfl rfl rfl rfl

theorem State.strike_keeps {s0 s : State} {a1} (h : Keeps s0 s) :
    Keeps s0 (State.strike s a1) := by
  induction a1 generalizing s with
  | nil => exact h
  | cons u us ih => exact ih (State.strikeLine_keeps h)

theorem State.retirePage_keeps {s0 s : State} {a1} (h : Keeps s0 s) :
    Keeps s0 (State.retirePage s a1) := by
  unfold State.retirePage
  with_reducible repeat' first
    | assumption | intro _ | apply State.raise_keeps | apply State.setObj_keeps | apply State.bump_keeps
    | apply Keeps.ite | apply Keeps.foldl | split
    | (simp only [Keeps.mk_eq]; refine KeepsMk.of ?_ rfl rfl rfl rfl rfl rfl rfl rfl rfl rfl)

theorem State.correctedEvent_keeps {s0 s : State} {a1} (h : Keeps s0 s) :
    Keeps s0 (State.correctedEvent s a1) := by
  unfold State.correctedEvent
  with_reducible repeat' first
    | assumption | apply State.bump_keeps | apply State.retirePage_keeps | apply Keeps.ite | split
    | (simp only [Keeps.mk_eq]; refine KeepsMk.of ?_ rfl rfl rfl rfl rfl rfl rfl rfl rfl rfl)

theorem State.uncorrectable_keeps {s0 s : State} {a1 a2 a3} (h : Keeps s0 s) :
    Keeps s0 (State.uncorrectable s a1 a2 a3) := by
  unfold State.uncorrectable
  with_reducible repeat' first
    | assumption | intro _ | apply State.bump_keeps | apply State.setObj_keeps | apply State.raiseAt_keeps
    | apply State.poison_keeps | apply State.raise_keeps | apply Keeps.ite | apply Keeps.foldl | split
    | (simp only [Keeps.mk_eq]; refine KeepsMk.of ?_ rfl rfl rfl rfl rfl rfl rfl rfl rfl rfl)

theorem freeBytes_keeps {s0 s : State} {a1} (h : Keeps s0 s) :
    Keeps s0 (freeBytes a1 s).2 := by
  induction a1 generalizing s with
  | zero => exact h
  | succ n ih => exact ih (State.fresh_keeps h)

theorem State.meetLine_keeps {s0 s : State} {a1 a2 a3} (h : Keeps s0 s) :
    Keeps s0 (State.meetLine s a1 a2 a3) := by
  unfold State.meetLine
  with_reducible repeat' first
    | assumption | (intro _; first | (clear_value x1; revert x1) | subst x1) | intro _ | (unfold x1; clear x1)
    | (extract_lets +onlyGivenNames -merge x1; first | refine Keeps.cut s0 x1 ?_ ?_ | refine Keeps.cut1 s0 x1 ?_ ?_ | refine Keeps.cut2 s0 x1 ?_ ?_ | refine Keeps.cutR s0 x1 ?_ ?_ | (first | refine keepLedger x1 ?_ | refine keepMem x1 ?_ | refine keepPath x1 ?_; subst x1) | (clear_value x1; revert x1) | subst x1)
    | apply State.mark_keeps | apply State.retirePage_keeps | apply State.correctedEvent_keeps
    | apply State.uncorrectable_keeps | apply State.freshLine_keeps | apply State.poke_keeps | apply Keeps.ite
    | apply Keeps.foldl | apply Keeps.ite1 | apply Keeps.ite2 | apply Keeps.iteR | apply Keeps.elim
    | apply Keeps.foldl1 | apply Keeps.foldl2 | split
    | (simp only [Keeps.mk_eq]; refine KeepsMk.of ?_ rfl rfl rfl rfl rfl rfl rfl rfl rfl rfl)

theorem State.meetLines_keeps {s0 s : State} {a1 a2} (h : Keeps s0 s) :
    Keeps s0 (State.meetLines s a1 a2) := by
  unfold State.meetLines
  with_reducible repeat' first
    | assumption | intro _ | apply State.meetLine_keeps | apply Keeps.ite | apply Keeps.foldl | split
    | (simp only [Keeps.mk_eq]; refine KeepsMk.of ?_ rfl rfl rfl rfl rfl rfl rfl rfl rfl rfl)

theorem State.readPhys_keeps {s0 s : State} {a1 a2 a3} (h : Keeps s0 s) :
    Keeps s0 (State.readPhys s a1 a2 a3).1 := by
  unfold State.readPhys
  with_reducible repeat' first
    | assumption | (intro _; first | (clear_value x1; revert x1) | subst x1) | intro _ | (unfold x1; clear x1)
    | (extract_lets +onlyGivenNames -merge x1; first | refine Keeps.cut s0 x1 ?_ ?_ | refine Keeps.cut1 s0 x1 ?_ ?_ | refine Keeps.cut2 s0 x1 ?_ ?_ | refine Keeps.cutR s0 x1 ?_ ?_ | (first | refine keepLedger x1 ?_ | refine keepMem x1 ?_ | refine keepPath x1 ?_; subst x1) | (clear_value x1; revert x1) | subst x1)
    | apply State.meetLine_keeps | apply Keeps.ite | apply Keeps.foldl | apply Keeps.ite1 | apply Keeps.ite2
    | apply Keeps.iteR | apply Keeps.elim | apply Keeps.foldl1 | apply Keeps.foldl2 | split
    | (simp only [Keeps.mk_eq]; refine KeepsMk.of ?_ rfl rfl rfl rfl rfl rfl rfl rfl rfl rfl)

theorem State.load_keeps {s0 s : State} {a1 a2 a3} (h : Keeps s0 s) :
    Keeps s0 (State.load s a1 a2 a3).1 := by
  unfold State.load
  with_reducible repeat' first
    | assumption | apply State.meetLines_keeps | apply State.deny_keeps | apply Keeps.ite | split

theorem State.storeLines_keeps {s0 s : State} {a1 a2 a3} (h : Keeps s0 s) :
    Keeps s0 (State.storeLines s a1 a2 a3) := by
  unfold State.storeLines
  with_reducible repeat' first
    | assumption | intro _ | apply State.writeLine_keeps | apply State.poke_keeps | apply State.unmark_keeps | apply State.strikeLine_keeps | apply State.meetLine_keeps
    | apply Keeps.ite | apply Keeps.foldl | split
    | (simp only [Keeps.mk_eq]; refine KeepsMk.of ?_ rfl rfl rfl rfl rfl rfl rfl rfl rfl rfl)

theorem State.store_keeps {s0 s : State} {a1 a2 a3} (h : Keeps s0 s) :
    Keeps s0 (State.store s a1 a2 a3).1 := by
  unfold State.store
  with_reducible repeat' first
    | assumption | apply State.storeLines_keeps | apply State.deny_keeps | apply Keeps.ite | split

theorem State.storeBy_keeps {s0 s : State} {a1 a2 a3} (h : Keeps s0 s) :
    Keeps s0 (State.storeBy s a1 a2 a3) := by
  unfold State.storeBy
  with_reducible repeat' first
    | assumption | apply State.store_keeps | apply Keeps.ite | split

theorem State.swapHalves_keeps {s0 s : State} (h : Keeps s0 s) :
    Keeps s0 (State.swapHalves s) := by
  unfold State.swapHalves
  with_reducible repeat' first
    | assumption | apply Keeps.ite | split
    | (simp only [Keeps.mk_eq]; refine KeepsMk.of ?_ rfl rfl rfl rfl rfl rfl rfl rfl rfl rfl)

theorem execPatrolScrub_keeps {s0 s : State} {a1 a2} (h : Keeps s0 s) :
    KeepsO s0 (execPatrolScrub a1 a2 s) := by
  unfold execPatrolScrub
  with_reducible repeat' first
    | assumption | (intro _; first | (clear_value x1; revert x1) | subst x1) | intro _ | (unfold x1; clear x1)
    | (extract_lets +onlyGivenNames -merge x1; first | refine Keeps.cut s0 x1 ?_ ?_ | refine Keeps.cut1 s0 x1 ?_ ?_ | refine Keeps.cut2 s0 x1 ?_ ?_ | refine Keeps.cutR s0 x1 ?_ ?_ | (first | refine keepLedger x1 ?_ | refine keepMem x1 ?_ | refine keepPath x1 ?_; subst x1) | (clear_value x1; revert x1) | subst x1)
    | apply State.strike_keeps | apply State.meetLine_keeps | apply State.bump_keeps | apply State.quiet_keeps
    | apply State.setObj_keeps | apply Keeps.ite | apply Keeps.foldl | apply Keeps.ite1 | apply Keeps.ite2
    | apply Keeps.iteR | apply Keeps.elim | apply Keeps.foldl1 | apply Keeps.foldl2 | apply KeepsO.next
    | apply KeepsO.ite | split
    | (simp only [Keeps.mk_eq]; refine KeepsMk.of ?_ rfl rfl rfl rfl rfl rfl rfl rfl rfl rfl)

theorem execPageCopyDone_keeps {s0 s : State} {a1} (h : Keeps s0 s) :
    KeepsO s0 (execPageCopyDone a1 s) := by
  unfold execPageCopyDone
  with_reducible repeat' first
    | assumption | (intro _; first | (clear_value x1; revert x1) | subst x1) | intro _ | (unfold x1; clear x1)
    | (extract_lets +onlyGivenNames -merge x1; first | refine Keeps.cut s0 x1 ?_ ?_ | refine Keeps.cut1 s0 x1 ?_ ?_ | refine Keeps.cut2 s0 x1 ?_ ?_ | refine Keeps.cutR s0 x1 ?_ ?_ | (first | refine keepLedger x1 ?_ | refine keepMem x1 ?_ | refine keepPath x1 ?_; subst x1) | (clear_value x1; revert x1) | subst x1)
    | apply State.quiet_keeps | apply State.strike_keeps | apply State.meetLine_keeps | apply Keeps.ite | apply Keeps.foldl
    | apply KeepsO.next | apply KeepsO.ite | apply Keeps.ite1 | apply Keeps.ite2 | apply Keeps.iteR
    | apply Keeps.elim | apply Keeps.foldl1 | apply Keeps.foldl2 | split
    | (simp only [Keeps.mk_eq]; refine KeepsMk.of ?_ rfl rfl rfl rfl rfl rfl rfl rfl rfl rfl)

theorem execZeroingDone_keeps {s0 s : State} (h : Keeps s0 s) :
    KeepsO s0 (execZeroingDone s) := by
  unfold execZeroingDone
  extract_lets s1 p m s2
  have h1 : Keeps s0 s1 := State.quiet_keeps h
  split
  · have h2 : Keeps s0 s2 := by
      refine ⟨h1.pending, h1.now, fun q => ?_⟩
      have w := h1.sound q
      simp only [State.sound, Bool.and_eq_true] at w ⊢
      exact ⟨⟨⟨rfl, w.1.1.2⟩, w.1.2⟩, w.2⟩
    exact KeepsO.next (State.setObj_keeps h2)
  · exact KeepsO.next h1

theorem State.actMemVerified_keeps {s0 s : State} (h : Keeps s0 s) :
    Keeps s0 (State.actMemVerified s) := by
  unfold State.actMemVerified
  with_reducible repeat' first
    | assumption | apply State.cmdDone_keeps | apply State.setObj_keeps | apply Keeps.ite | split

end Sys2Proof.Machine
end

