-- ==== Sys2Proof/Laws/Keeps/Clear.lean ====
section
/-! SUPPORT. Every operation of Machine/Clear.lean keeps what `Keeps` says. -/

namespace Sys2Proof.Machine

theorem State.clearOptics_keeps {s0 s : State} (h : Keeps s0 s) :
    Keeps s0 (State.clearOptics s) := by
  unfold State.clearOptics
  with_reducible repeat' first
    | assumption | apply Keeps.ite | split
    | (simp only [Keeps.mk_eq]; refine KeepsMk.of ?_ rfl rfl rfl rfl rfl rfl rfl rfl rfl rfl)

theorem State.doneRelease_keeps {s0 s : State} (h : Keeps s0 s) :
    Keeps s0 (State.doneRelease s) := by
  unfold State.doneRelease
  with_reducible repeat' first
    | assumption | intro _ | apply State.cmdDone_keeps | apply Keeps.ite | apply Keeps.foldl | split
    | (simp only [Keeps.mk_eq]; refine KeepsMk.of ?_ rfl rfl rfl rfl rfl rfl rfl rfl rfl rfl)

theorem State.failJob_keeps {s0 s : State} (h : Keeps s0 s) :
    Keeps s0 (State.failJob s) := by
  unfold State.failJob
  with_reducible repeat' first
    | assumption | apply State.cmdFail_keeps | apply Keeps.ite | split
    | (simp only [Keeps.mk_eq]; refine KeepsMk.of ?_ rfl rfl rfl rfl rfl rfl rfl rfl rfl rfl)

theorem State.cutSnapIn_keeps {s0 s : State} (h : Keeps s0 s) :
    Keeps s0 (State.cutSnapIn s) := by
  unfold State.cutSnapIn
  with_reducible repeat' first
    | assumption | intro _ | apply State.raise_keeps | apply Keeps.ite | apply Keeps.foldl | split
    | (simp only [Keeps.mk_eq]; refine KeepsMk.of ?_ rfl rfl rfl rfl rfl rfl rfl rfl rfl rfl)

theorem State.cutSnapshot_keeps {s0 s : State} (h : Keeps s0 s) :
    Keeps s0 (State.cutSnapshot s) := by
  unfold State.cutSnapshot
  with_reducible repeat' first
    | assumption | apply State.setObj_keeps | apply Keeps.ite | split
    | (simp only [Keeps.mk_eq]; refine KeepsMk.of ?_ rfl rfl rfl rfl rfl rfl rfl rfl rfl rfl)

theorem State.resetCores_keeps {s0 s : State} (h : Keeps s0 s) :
    Keeps s0 (State.resetCores s) := by
  unfold State.resetCores
  with_reducible repeat' first
    | assumption | intro _ | apply State.setObj_keeps | apply Keeps.ite | apply Keeps.foldl | split
    | (simp only [Keeps.mk_eq]; refine KeepsMk.of ?_ rfl rfl rfl rfl rfl rfl rfl rfl rfl rfl)

theorem State.dropWork_keeps {s0 s : State} (h : Keeps s0 s) :
    Keeps s0 (State.dropWork s) := by
  unfold State.dropWork
  with_reducible repeat' first
    | assumption | apply State.resetCores_keeps | apply Keeps.ite | split
    | (simp only [Keeps.mk_eq]; refine KeepsMk.of ?_ rfl rfl rfl rfl rfl rfl rfl rfl rfl rfl)

theorem State.closeFlows_keeps {s0 s : State} (h : Keeps s0 s) :
    Keeps s0 (State.closeFlows s) := by
  unfold State.closeFlows
  with_reducible repeat' first
    | assumption | apply State.setObj_keeps | apply Keeps.ite | split
    | (simp only [Keeps.mk_eq]; refine KeepsMk.of ?_ rfl rfl rfl rfl rfl rfl rfl rfl rfl rfl)

theorem State.idleShards_keeps {s0 s : State} (h : Keeps s0 s) :
    Keeps s0 (State.idleShards s) := by
  unfold State.idleShards
  with_reducible repeat' first
    | assumption | apply Keeps.ite | split
    | (simp only [Keeps.mk_eq]; refine KeepsMk.of ?_ rfl rfl rfl rfl rfl rfl rfl rfl rfl rfl)

theorem State.idleWindows_keeps {s0 s : State} (h : Keeps s0 s) :
    Keeps s0 (State.idleWindows s) := by
  unfold State.idleWindows
  with_reducible repeat' first
    | assumption | apply Keeps.ite | split
    | (simp only [Keeps.mk_eq]; refine KeepsMk.of ?_ rfl rfl rfl rfl rfl rfl rfl rfl rfl rfl)

theorem State.dropPlanObjects_keeps {s0 s : State} (h : Keeps s0 s) :
    Keeps s0 (State.dropPlanObjects s) := by
  unfold State.dropPlanObjects
  with_reducible repeat' first
    | assumption | intro _ | apply State.setObj_keeps | apply State.setBlob_keeps | apply Keeps.ite
    | apply Keeps.foldl | split
    | (simp only [Keeps.mk_eq]; refine KeepsMk.of ?_ rfl rfl rfl rfl rfl rfl rfl rfl rfl rfl)

theorem State.endPlan_keeps {s0 s : State} (h : Keeps s0 s) :
    Keeps s0 (State.endPlan s) := by
  unfold State.endPlan
  with_reducible repeat' first
    | assumption | intro _ | apply State.doneRelease_keeps | apply State.failJob_keeps
    | apply State.cutSnapIn_keeps | apply State.cutSnapshot_keeps | apply State.dropWork_keeps
    | apply State.closeFlows_keeps | apply State.idleShards_keeps | apply State.idleWindows_keeps
    | apply State.setObj_keeps | apply State.dropPlanObjects_keeps | apply Keeps.ite | apply Keeps.foldl | split
    | (simp only [Keeps.mk_eq]; refine KeepsMk.of ?_ rfl rfl rfl rfl rfl rfl rfl rfl rfl rfl)

theorem State.clearCompute_keeps {s0 s : State} (h : Keeps s0 s) :
    Keeps s0 (State.clearCompute s) := by
  unfold State.clearCompute
  with_reducible repeat' first
    | assumption | apply State.resetCores_keeps | apply Keeps.ite | split
    | (simp only [Keeps.mk_eq]; refine KeepsMk.of ?_ rfl rfl rfl rfl rfl rfl rfl rfl rfl rfl)

theorem State.clearRouters_keeps {s0 s : State} (h : Keeps s0 s) :
    Keeps s0 (State.clearRouters s) := by
  unfold State.clearRouters
  with_reducible repeat' first
    | assumption | apply Keeps.ite | split
    | (simp only [Keeps.mk_eq]; refine KeepsMk.of ?_ rfl rfl rfl rfl rfl rfl rfl rfl rfl rfl)

theorem State.clearCluster_keeps {s0 s : State} {a1} (h : Keeps s0 s) :
    Keeps s0 (State.clearCluster s a1) := by
  unfold State.clearCluster
  with_reducible repeat' first
    | assumption | intro _ | apply State.setObj_keeps | apply Keeps.ite | apply Keeps.foldl | split
    | (simp only [Keeps.mk_eq]; refine KeepsMk.of ?_ rfl rfl rfl rfl rfl rfl rfl rfl rfl rfl)

theorem State.clearRouter_keeps {s0 s : State} {a1} (h : Keeps s0 s) :
    Keeps s0 (State.clearRouter s a1) := by
  unfold State.clearRouter
  with_reducible repeat' first
    | assumption | intro _ | apply Keeps.ite | apply Keeps.foldl | split
    | (simp only [Keeps.mk_eq]; refine KeepsMk.of ?_ rfl rfl rfl rfl rfl rfl rfl rfl rfl rfl)

theorem State.clearFn_keeps {s0 s : State} {a1} (h : Keeps s0 s) :
    Keeps s0 (State.clearFn s a1) := by
  unfold State.clearFn
  with_reducible repeat' first
    | assumption | apply State.setObj_keeps | apply State.dropObjects_keeps | apply State.clearCompute_keeps | apply State.setBlob_keeps
    | apply State.clearRouters_keeps | apply State.closeFlows_keeps | apply State.idleWindows_keeps
    | apply State.idleShards_keeps | apply State.clearOptics_keeps | apply Keeps.ite | split

theorem State.classC_keeps {s0 s : State} (h : Keeps s0 s) :
    Keeps s0 (State.classC s) := by
  unfold State.classC
  with_reducible repeat' first
    | assumption | apply State.endPlan_keeps | apply Keeps.ite | split

theorem State.clearMailboxes_keeps {s0 s : State} (h : Keeps s0 s) :
    Keeps s0 (State.clearMailboxes s) := by
  unfold State.clearMailboxes
  with_reducible repeat' first
    | assumption | apply State.setObj_keeps | apply Keeps.ite | split
    | (simp only [Keeps.mk_eq]; refine KeepsMk.of ?_ rfl rfl rfl rfl rfl rfl rfl rfl rfl rfl)

end Sys2Proof.Machine
end

