-- ==== Sys2Proof/Laws/Keeps/Domains.lean ====
section
/-! SUPPORT. Every operation of Machine/Domains.lean keeps what `Keeps` says. -/

namespace Sys2Proof.Machine

theorem State.requestWakes_keeps {s0 s : State} {a1} (h : Keeps s0 s) :
    Keeps s0 (State.requestWakes s a1) := by
  unfold State.requestWakes
  with_reducible repeat' first
    | assumption | apply Keeps.ite | split
    | (simp only [Keeps.mk_eq]; refine KeepsMk.of ?_ rfl rfl rfl rfl rfl rfl rfl rfl rfl rfl)

theorem State.setDom_keeps {s0 s : State} {a1 a2} (h : Keeps s0 s) :
    Keeps s0 (State.setDom s a1 a2) := by
  unfold State.setDom
  with_reducible repeat' first
    | assumption | apply State.setObj_keeps | apply Keeps.ite | split

theorem State.startWake_keeps {s0 s : State} {a1} (h : Keeps s0 s) :
    Keeps s0 (State.startWake s a1) := by
  unfold State.startWake
  with_reducible repeat' first
    | assumption | apply State.setDom_keeps | apply Keeps.ite | split
    | (simp only [Keeps.mk_eq]; refine KeepsMk.of ?_ rfl rfl rfl rfl rfl rfl rfl rfl rfl rfl)

theorem State.settleIdle_keeps {s0 s : State} (h : Keeps s0 s) :
    Keeps s0 (State.settleIdle s) := by
  unfold State.settleIdle
  with_reducible repeat' first
    | assumption | apply State.setObj_keeps | apply Keeps.ite | split

theorem State.wakeGated_keeps {s0 s : State} (h : Keeps s0 s) :
    Keeps s0 (State.wakeGated s) := by
  unfold State.wakeGated
  with_reducible repeat' first
    | assumption | apply State.settleIdle_keeps | apply State.requestWakes_keeps | apply Keeps.ite | split

theorem State.setDoms_keeps {s0 s : State} {a1 a2} (h : Keeps s0 s) :
    Keeps s0 (State.setDoms s a1 a2) := by
  unfold State.setDoms
  with_reducible repeat' first
    | assumption | intro _ | apply State.setDom_keeps | apply Keeps.ite | apply Keeps.foldl | split
    | (simp only [Keeps.mk_eq]; refine KeepsMk.of ?_ rfl rfl rfl rfl rfl rfl rfl rfl rfl rfl)

end Sys2Proof.Machine
end

