-- ==== Sys2Proof/Laws/Keeps/Timebase.lean ====
section
/-! SUPPORT. Every operation of Machine/Timebase.lean keeps what `Keeps` says. -/

namespace Sys2Proof.Machine

theorem State.unlock_keeps {s0 s : State} (h : Keeps s0 s) :
    Keeps s0 (State.unlock s) := by
  unfold State.unlock
  with_reducible repeat' first
    | assumption | intro _ | apply State.bump_keeps | apply State.setObj_keeps | apply State.classC_keeps
    | apply State.raiseAt_keeps | apply Keeps.ite | apply Keeps.foldl | split
    | (simp only [Keeps.mk_eq]; refine KeepsMk.of ?_ rfl rfl rfl rfl rfl rfl rfl rfl rfl rfl)

theorem State.invalidExchange_keeps {s0 s : State} (h : Keeps s0 s) :
    Keeps s0 (State.invalidExchange s) := by
  unfold State.invalidExchange
  with_reducible repeat' first
    | assumption | intro _ | apply State.unlock_keeps | apply Keeps.ite | apply Keeps.foldl | split
    | (simp only [Keeps.mk_eq]; refine KeepsMk.of ?_ rfl rfl rfl rfl rfl rfl rfl rfl rfl rfl)

theorem State.hear_keeps {s0 s : State} {a1} (h : Keeps s0 s) :
    Keeps s0 (State.hear s a1) := by
  unfold State.hear
  with_reducible repeat' first
    | assumption | intro _ | apply Keeps.ite | apply Keeps.foldl | split
    | (simp only [Keeps.mk_eq]; refine KeepsMk.of ?_ rfl rfl rfl rfl rfl rfl rfl rfl rfl rfl)

theorem State.actRootSet_keeps {s0 s : State} {a1} (h : Keeps s0 s) :
    Keeps s0 (State.actRootSet s a1) := by
  unfold State.actRootSet
  with_reducible repeat' first
    | assumption | intro _ | apply State.cmdFail_keeps | apply State.setObj_keeps | apply State.cmdDone_keeps
    | apply Keeps.ite | apply Keeps.foldl | split
    | (simp only [Keeps.mk_eq]; refine KeepsMk.of ?_ rfl rfl rfl rfl rfl rfl rfl rfl rfl rfl)

theorem State.changeBeat_keeps {s0 s : State} (h : Keeps s0 s) :
    Keeps s0 (State.changeBeat s) := by
  unfold State.changeBeat
  with_reducible repeat' first
    | assumption | intro _ | apply State.setObj_keeps | apply Keeps.ite | apply Keeps.foldl | split
    | (simp only [Keeps.mk_eq]; refine KeepsMk.of ?_ rfl rfl rfl rfl rfl rfl rfl rfl rfl rfl)

theorem State.actTimeRole_keeps {s0 s : State} {a1} (h : Keeps s0 s) :
    Keeps s0 (State.actTimeRole s a1) := by
  unfold State.actTimeRole
  with_reducible repeat' first
    | assumption | intro _ | apply State.bump_keeps | apply State.setObj_keeps | apply Keeps.ite
    | apply Keeps.foldl | split
    | (simp only [Keeps.mk_eq]; refine KeepsMk.of ?_ rfl rfl rfl rfl rfl rfl rfl rfl rfl rfl)

theorem State.stepCount_keeps {s0 s : State} {a1} (h : Keeps s0 s) :
    Keeps s0 (State.stepCount s a1) := by
  unfold State.stepCount
  with_reducible repeat' first
    | assumption | apply Keeps.ite | split
    | (simp only [Keeps.mk_eq]; refine KeepsMk.of ?_ rfl rfl rfl rfl rfl rfl rfl rfl rfl rfl)

theorem State.correct_keeps {s0 s : State} {a1} (h : Keeps s0 s) :
    Keeps s0 (State.correct s a1) := by
  unfold State.correct
  with_reducible repeat' first
    | assumption | intro _ | apply State.stepCount_keeps | apply Keeps.ite | apply Keeps.foldl | split
    | (simp only [Keeps.mk_eq]; refine KeepsMk.of ?_ rfl rfl rfl rfl rfl rfl rfl rfl rfl rfl)

theorem State.holdover_keeps {s0 s : State} (h : Keeps s0 s) :
    Keeps s0 (State.holdover s) := by
  unfold State.holdover
  with_reducible repeat' first
    | assumption | apply State.setObj_keeps | apply State.bump_keeps | apply State.raise_keeps | apply Keeps.ite
    | split | (simp only [Keeps.mk_eq]; refine KeepsMk.of ?_ rfl rfl rfl rfl rfl rfl rfl rfl rfl rfl)

theorem execBellHoldover_keeps {s0 s : State} (h : Keeps s0 s) :
    KeepsO s0 (execBellHoldover s) := by
  unfold execBellHoldover
  with_reducible repeat' first
    | assumption | apply State.quiet_keeps | apply State.holdover_keeps | apply State.advanceTo_keeps
    | apply Keeps.ite | apply KeepsO.next | apply KeepsO.ite | split

theorem State.parentLost_keeps {s0 s : State} {a1} (h : Keeps s0 s) :
    Keeps s0 (State.parentLost s a1) := by
  unfold State.parentLost
  with_reducible repeat' first
    | assumption | apply State.holdover_keeps | apply Keeps.ite | split

theorem State.validExchange_keeps {s0 s : State} {a1 a2} (h : Keeps s0 s) :
    Keeps s0 (State.validExchange s a1 a2) := by
  unfold State.validExchange
  with_reducible repeat' first
    | assumption | intro _ | apply State.setObj_keeps | apply State.correct_keeps | apply State.raise_keeps
    | apply State.unlock_keeps | apply Keeps.ite | apply Keeps.foldl | split
    | (simp only [Keeps.mk_eq]; refine KeepsMk.of ?_ rfl rfl rfl rfl rfl rfl rfl rfl rfl rfl)

theorem execHoldoverLimit_keeps {s0 s : State} (h : Keeps s0 s) :
    KeepsO s0 (execHoldoverLimit s) := by
  unfold execHoldoverLimit
  with_reducible repeat' first
    | assumption | apply State.quiet_keeps | apply State.unlock_keeps | apply State.advanceTo_keeps
    | apply Keeps.ite | apply KeepsO.next | apply KeepsO.ite | split

theorem State.actCoolant_keeps {s0 s : State} {a1 a2} (h : Keeps s0 s) :
    Keeps s0 (State.actCoolant s a1 a2) := by
  unfold State.actCoolant
  with_reducible repeat' first
    | assumption | (intro _; first | (clear_value x1; revert x1) | subst x1) | intro _ | (unfold x1; clear x1)
    | (extract_lets +onlyGivenNames -merge x1; first | refine Keeps.cut s0 x1 ?_ ?_ | refine Keeps.cut1 s0 x1 ?_ ?_ | refine Keeps.cut2 s0 x1 ?_ ?_ | refine Keeps.cutR s0 x1 ?_ ?_ | (first | refine keepLedger x1 ?_ | refine keepMem x1 ?_ | refine keepPath x1 ?_; subst x1) | (clear_value x1; revert x1) | subst x1)
    | apply State.setObj_keeps | apply State.fresh_keeps | apply Keeps.ite | apply Keeps.foldl
    | apply Keeps.ite1 | apply Keeps.ite2 | apply Keeps.iteR | apply Keeps.elim | apply Keeps.foldl1
    | apply Keeps.foldl2 | split
    | (simp only [Keeps.mk_eq]; refine KeepsMk.of ?_ rfl rfl rfl rfl rfl rfl rfl rfl rfl rfl)

theorem execTimeExchange_keeps {s0 s : State} {a1 a2} (h : Keeps s0 s) :
    KeepsO s0 (execTimeExchange a1 a2 s) := by
  unfold execTimeExchange
  with_reducible repeat' first
    | assumption | apply State.hear_keeps | apply State.quiet_keeps | apply State.setObj_keeps | apply State.validExchange_keeps
    | apply State.invalidExchange_keeps | apply Keeps.ite | apply KeepsO.next | apply KeepsO.ite | split
    | (simp only [Keeps.mk_eq]; refine KeepsMk.of ?_ rfl rfl rfl rfl rfl rfl rfl rfl rfl rfl)

theorem execTimeSend_keeps {s0 s : State} (h : Keeps s0 s) :
    KeepsO s0 (execTimeSend s) := by
  unfold execTimeSend
  with_reducible repeat' first
    | assumption | apply State.quiet_keeps | apply State.advanceTo_keeps | apply State.emit_keeps
    | apply Keeps.ite | apply KeepsO.next | apply KeepsO.ite | split
    | (simp only [Keeps.mk_eq]; refine KeepsMk.of ?_ rfl rfl rfl rfl rfl rfl rfl rfl rfl rfl)

end Sys2Proof.Machine
end

