-- ==== Sys2Proof/Laws/Keeps/Power.lean ====
section
/-! SUPPORT. Every operation of Machine/Power.lean keeps what `Keeps` says. -/

namespace Sys2Proof.Machine

theorem State.setPowerState_keeps {s0 s : State} {a1} (h : Keeps s0 s) :
    Keeps s0 (State.setPowerState s a1) := by
  unfold State.setPowerState
  with_reducible repeat' first
    | assumption | intro _ | apply State.setObj_keeps | apply State.raise_keeps | apply Keeps.ite
    | apply Keeps.foldl | split
    | (simp only [Keeps.mk_eq]; refine KeepsMk.of ?_ rfl rfl rfl rfl rfl rfl rfl rfl rfl rfl)

theorem State.darkLanes_keeps {s0 s : State} (h : Keeps s0 s) :
    Keeps s0 (State.darkLanes s) := by
  unfold State.darkLanes
  with_reducible repeat' first
    | assumption | apply Keeps.ite | split
    | (simp only [Keeps.mk_eq]; refine KeepsMk.of ?_ rfl rfl rfl rfl rfl rfl rfl rfl rfl rfl)

theorem State.enterSafe_keeps {s0 s : State} {a1} (h : Keeps s0 s) :
    Keeps s0 (State.enterSafe s a1) := by
  unfold State.enterSafe
  with_reducible repeat' first
    | assumption | intro _ | apply State.setObj_keeps | apply State.darkLanes_keeps | apply State.raise_keeps
    | apply Keeps.ite | apply Keeps.foldl | split
    | (simp only [Keeps.mk_eq]; refine KeepsMk.of ?_ rfl rfl rfl rfl rfl rfl rfl rfl rfl rfl)

theorem State.classD_keeps {s0 s : State} (h : Keeps s0 s) :
    Keeps s0 (State.classD s) := by
  unfold State.classD
  with_reducible repeat' first
    | assumption | apply State.enterSafe_keeps | apply State.wakeGated_keeps | apply State.endPlan_keeps
    | apply Keeps.ite | split

theorem State.faultC_keeps {s0 s : State} (h : Keeps s0 s) :
    Keeps s0 (State.faultC s) := by
  unfold State.faultC
  with_reducible repeat' first
    | assumption | apply State.wakeGated_keeps | apply State.classC_keeps | apply Keeps.ite | split

theorem State.cutCopy_keeps {s0 s : State} (h : Keeps s0 s) :
    Keeps s0 (State.cutCopy s) := by
  unfold State.cutCopy
  with_reducible repeat' first
    | assumption | intro _ | apply Keeps.ite | apply Keeps.foldl | split
    | (simp only [Keeps.mk_eq]; refine KeepsMk.of ?_ rfl rfl rfl rfl rfl rfl rfl rfl rfl rfl)

theorem State.cutActions_keeps {s0 s : State} (h : Keeps s0 s) :
    Keeps s0 (State.cutActions s) := by
  unfold State.cutActions
  with_reducible repeat' first
    | assumption | intro _ | apply State.setObj_keeps | apply Keeps.ite | apply Keeps.foldl | split
    | (simp only [Keeps.mk_eq]; refine KeepsMk.of ?_ rfl rfl rfl rfl rfl rfl rfl rfl rfl rfl)

theorem State.powerOff_keeps {s0 s : State} (h : Keeps s0 s) :
    Keeps s0 (State.powerOff s) := by
  unfold State.powerOff
  extract_lets was orderly s1 s2 s3 s4 s5 s6 l m p s7 s8 s9
  have h1 : Keeps s0 s1 := State.cutActions_keeps h
  have h2 : Keeps s0 s2 := Keeps.ite (State.setObj_keeps h1) (fun _ => h1)
  have h3 : Keeps s0 s3 := State.endPlan_keeps h2
  have h4 : Keeps s0 s4 := State.clearFn_keeps (State.clearFn_keeps (State.clearFn_keeps h3))
  have h5 : Keeps s0 s5 := State.clearMailboxes_keeps (State.clearFn_keeps h4)
  have h6 : Keeps s0 s6 := State.dropObjects_keeps h5
  clear_value s6
  have h7 : Keeps s0 s7 := Keeps.loose h6 rfl (Nat.le_refl _) (fun _ => rfl) rfl rfl (Nat.zero_le _) (Nat.zero_le _)
    (Nat.le_refl _) (Nat.le_refl _) (Nat.le_refl _)
  have h8 : Keeps s0 s8 := Keeps.ite h7 (fun k => State.setDom_keeps (State.setDom_keeps k))
  have h9 : Keeps s0 s9 := State.setObj_keeps h8
  exact Keeps.ite (State.raise_keeps h9) (fun _ => h9)

theorem State.powerLost_keeps {s0 s : State} (h : Keeps s0 s) :
    Keeps s0 (State.powerLost s) := by
  unfold State.powerLost
  with_reducible repeat' first
    | assumption | intro _ | apply State.powerOff_keeps | apply State.setObj_keeps | apply Keeps.ite
    | apply Keeps.foldl | split
    | (simp only [Keeps.mk_eq]; refine KeepsMk.of ?_ rfl rfl rfl rfl rfl rfl rfl rfl rfl rfl)

theorem State.restartMgmt_keeps {s0 s : State} (h : Keeps s0 s) :
    Keeps s0 (State.restartMgmt s) := by
  unfold State.restartMgmt
  extract_lets s1
  have h1 : Keeps s0 s1 := State.dropObjects_keeps h
  exact Keeps.loose h1 rfl (Nat.le_refl _) id rfl rfl (Nat.le_refl _) (Nat.le_refl _) (Nat.le_refl _)
    (Nat.zero_le _) (Nat.zero_le _)

theorem State.countSpares_keeps {s0 s : State} {a1} (h : Keeps s0 s) :
    Keeps s0 (State.countSpares s a1) := by
  unfold State.countSpares
  with_reducible repeat' first
    | assumption | intro _ | apply State.setObj_keeps | apply Keeps.ite | apply Keeps.foldl | split
    | (simp only [Keeps.mk_eq]; refine KeepsMk.of ?_ rfl rfl rfl rfl rfl rfl rfl rfl rfl rfl)

theorem State.showDegraded_keeps {s0 s : State} (h : Keeps s0 s) :
    Keeps s0 (State.showDegraded s) := by
  unfold State.showDegraded
  with_reducible repeat' first
    | assumption | apply State.setObj_keeps | apply State.raise_keeps | apply Keeps.ite | split

theorem State.rebuildSlots_keeps {s0 s : State} {a1 a2} (h : Keeps s0 s) :
    Keeps s0 (State.rebuildSlots s a1 a2) := by
  unfold State.rebuildSlots
  with_reducible repeat' first
    | assumption | intro _ | apply State.setObj_keeps | apply State.countSpares_keeps | apply Keeps.ite
    | apply Keeps.foldl | split
    | (simp only [Keeps.mk_eq]; refine KeepsMk.of ?_ rfl rfl rfl rfl rfl rfl rfl rfl rfl rfl)

theorem State.applyReport_keeps {s0 s : State} (h : Keeps s0 s) :
    Keeps s0 (State.applyReport s) := by
  unfold State.applyReport
  with_reducible repeat' first
    | assumption | intro _ | apply State.raise_keeps | apply State.setObj_keeps | apply Keeps.ite | apply Keeps.foldl | split
    | (simp only [Keeps.mk_eq]; refine KeepsMk.of ?_ rfl rfl rfl rfl rfl rfl rfl rfl rfl rfl)

theorem State.beginPowerUp_keeps {s0 s : State} (h : Keeps s0 s) :
    Keeps s0 (State.beginPowerUp s) := by
  unfold State.beginPowerUp
  with_reducible repeat' first
    | assumption | apply State.bump_keeps | apply State.setObj_keeps | apply State.setDoms_keeps
    | apply State.showDegraded_keeps | apply State.rebuildSlots_keeps | apply State.applyReport_keeps
    | apply Keeps.ite | split
    | (simp only [Keeps.mk_eq]; refine KeepsMk.of ?_ rfl rfl rfl rfl rfl rfl rfl rfl rfl rfl)

theorem State.tryPowerUp_keeps {s0 s : State} (h : Keeps s0 s) :
    Keeps s0 (State.tryPowerUp s) := by
  unfold State.tryPowerUp
  with_reducible repeat' first
    | assumption | apply State.beginPowerUp_keeps | apply Keeps.ite | split

theorem State.sampleRise_keeps {s0 s : State} (h : Keeps s0 s) :
    Keeps s0 (State.sampleRise s) := by
  unfold State.sampleRise
  with_reducible repeat' first
    | assumption | apply State.setObj_keeps | apply State.tryPowerUp_keeps | apply Keeps.ite | split

theorem execPwrEnRise_keeps {s0 s : State} (h : Keeps s0 s) :
    KeepsO s0 (execPwrEnRise s) := by
  unfold execPwrEnRise
  with_reducible repeat' first
    | assumption | apply State.quiet_keeps | apply State.sampleRise_keeps | apply Keeps.ite | apply KeepsO.next
    | apply KeepsO.ite | split
    | (simp only [Keeps.mk_eq]; refine KeepsMk.of ?_ rfl rfl rfl rfl rfl rfl rfl rfl rfl rfl)

theorem State.endPowerUp_keeps {s0 s : State} (h : Keeps s0 s) :
    Keeps s0 (State.endPowerUp s) := by
  unfold State.endPowerUp
  with_reducible repeat' first
    | assumption | apply State.setDoms_keeps | apply Keeps.ite | split
    | (simp only [Keeps.mk_eq]; refine KeepsMk.of ?_ rfl rfl rfl rfl rfl rfl rfl rfl rfl rfl)

theorem State.clearTrip_keeps {s0 s : State} (h : Keeps s0 s) :
    Keeps s0 (State.clearTrip s) := by
  unfold State.clearTrip
  with_reducible repeat' first
    | assumption | apply Keeps.ite | split
    | (simp only [Keeps.mk_eq]; refine KeepsMk.of ?_ rfl rfl rfl rfl rfl rfl rfl rfl rfl rfl)

theorem execPowerUpDone_keeps {s0 s : State} (h : Keeps s0 s) :
    KeepsO s0 (execPowerUpDone s) := by
  unfold execPowerUpDone
  with_reducible repeat' first
    | assumption | (intro _; clear_value x1; revert x1) | intro _ | (unfold x1; clear x1)
    | (extract_lets +onlyGivenNames -merge x1; first | refine Keeps.cut s0 x1 ?_ ?_ | (clear_value x1; revert x1))
    | apply State.quiet_keeps | apply State.advanceTo_keeps | apply State.setPowerState_keeps
    | apply State.endPowerUp_keeps | apply State.enterSafe_keeps | apply State.clearTrip_keeps | apply Keeps.ite
    | apply Keeps.foldl | apply KeepsO.next | apply KeepsO.ite | split
    | (simp only [Keeps.mk_eq]; refine KeepsMk.of ?_ rfl rfl rfl rfl rfl rfl rfl rfl rfl rfl)

theorem State.pwrEnFalls_keeps {s0 s : State} (h : Keeps s0 s) :
    Keeps s0 (State.pwrEnFalls s) := by
  unfold State.pwrEnFalls
  with_reducible repeat' first
    | assumption | apply State.cutCopy_keeps | apply State.restartMgmt_keeps | apply State.powerOff_keeps | apply Keeps.ite | split
    | (simp only [Keeps.mk_eq]; refine KeepsMk.of ?_ rfl rfl rfl rfl rfl rfl rfl rfl rfl rfl)

theorem execPwrEnFall_keeps {s0 s : State} (h : Keeps s0 s) :
    KeepsO s0 (execPwrEnFall s) := by
  unfold execPwrEnFall
  with_reducible repeat' first
    | assumption | apply State.quiet_keeps | apply State.pwrEnFalls_keeps | apply Keeps.ite | apply KeepsO.next
    | apply KeepsO.ite | split

theorem execAux3v3Loss_keeps {s0 s : State} (h : Keeps s0 s) :
    KeepsO s0 (execAux3v3Loss s) := by
  unfold execAux3v3Loss
  with_reducible repeat' first
    | assumption | intro _ | apply State.setObj_keeps | apply State.cutCopy_keeps | apply State.quiet_keeps | apply State.pwrEnFalls_keeps
    | apply State.restartMgmt_keeps | apply State.setDom_keeps | apply Keeps.ite | apply Keeps.foldl
    | apply KeepsO.next | apply KeepsO.ite | split
    | (simp only [Keeps.mk_eq]; refine KeepsMk.of ?_ rfl rfl rfl rfl rfl rfl rfl rfl rfl rfl)

theorem execAux3v3Rise_keeps {s0 s : State} (h : Keeps s0 s) :
    KeepsO s0 (execAux3v3Rise s) := by
  unfold execAux3v3Rise
  with_reducible repeat' first
    | assumption | apply State.quiet_keeps | apply State.setDom_keeps | apply State.restartMgmt_keeps
    | apply Keeps.ite | apply KeepsO.next | apply KeepsO.ite | split
    | (simp only [Keeps.mk_eq]; refine KeepsMk.of ?_ rfl rfl rfl rfl rfl rfl rfl rfl rfl rfl)

theorem execAux3v3Settled_keeps {s0 s : State} (h : Keeps s0 s) :
    KeepsO s0 (execAux3v3Settled s) := by
  unfold execAux3v3Settled
  with_reducible repeat' first
    | assumption | apply State.quiet_keeps | apply State.advanceTo_keeps | apply State.sampleRise_keeps
    | apply Keeps.ite | apply KeepsO.next | apply KeepsO.ite | split
    | (simp only [Keeps.mk_eq]; refine KeepsMk.of ?_ rfl rfl rfl rfl rfl rfl rfl rfl rfl rfl)

theorem execInputVoltageChange_keeps {s0 s : State} {a1} (h : Keeps s0 s) :
    KeepsO s0 (execInputVoltageChange a1 s) := by
  unfold execInputVoltageChange
  with_reducible repeat' first
    | assumption | apply State.powerLost_keeps | apply State.quiet_keeps | apply State.setObj_keeps | apply State.powerOff_keeps
    | apply State.bump_keeps | apply State.tryPowerUp_keeps | apply Keeps.ite | apply KeepsO.next
    | apply KeepsO.ite | split
    | (simp only [Keeps.mk_eq]; refine KeepsMk.of ?_ rfl rfl rfl rfl rfl rfl rfl rfl rfl rfl)

theorem State.setPort_keeps {s0 s : State} {a1 a2} (h : Keeps s0 s) :
    Keeps s0 (State.setPort s a1 a2) := by
  unfold State.setPort
  simp only [Keeps.mk_eq]; refine KeepsMk.of ?_ rfl rfl rfl rfl rfl rfl rfl rfl rfl rfl
  simpa only [Keeps.mk_eq] using h

theorem State.storeHellos_keeps {s0 s : State} (h : Keeps s0 s) :
    Keeps s0 (State.storeHellos s) := by
  unfold State.storeHellos
  with_reducible repeat' first
    | assumption | intro _ | apply State.setPort_keeps | apply Keeps.ite | apply Keeps.foldl | split
    | (simp only [Keeps.mk_eq]; refine KeepsMk.of ?_ rfl rfl rfl rfl rfl rfl rfl rfl rfl rfl)

theorem State.startWarmReset_keeps {s0 s : State} {a1} (h : Keeps s0 s) :
    Keeps s0 (State.startWarmReset s a1) := by
  unfold State.startWarmReset
  with_reducible repeat' first
    | assumption | intro _ | apply State.storeHellos_keeps | apply State.cutActions_keeps | apply State.endPlan_keeps
    | apply State.clearFn_keeps | apply State.clearMailboxes_keeps | apply State.dropObjects_keeps
    | apply State.setDoms_keeps | apply State.bump_keeps | apply State.setDom_keeps
    | apply State.restartMgmt_keeps | apply Keeps.ite | apply Keeps.foldl | split
    | (simp only [Keeps.mk_eq]; refine KeepsMk.of ?_ rfl rfl rfl rfl rfl rfl rfl rfl rfl rfl)

theorem execResetN_keeps {s0 s : State} {a1} (h : Keeps s0 s) :
    KeepsO s0 (execResetN a1 s) := by
  unfold execResetN
  extract_lets s1 p s2
  have h1 : Keeps s0 s1 := State.quiet_keeps h
  have h2 : Keeps s0 s2 := KeepsMk.of h1 rfl rfl rfl rfl rfl rfl rfl rfl rfl rfl
  exact KeepsO.ite (KeepsO.next (State.startWarmReset_keeps h2)) (KeepsO.next h2)

theorem execResetNRise_keeps {s0 s : State} (h : Keeps s0 s) :
    KeepsO s0 (execResetNRise s) := by
  unfold execResetNRise
  with_reducible repeat' first
    | assumption | apply State.quiet_keeps | apply State.tryPowerUp_keeps | apply Keeps.ite | apply KeepsO.next
    | apply KeepsO.ite | split
    | (simp only [Keeps.mk_eq]; refine KeepsMk.of ?_ rfl rfl rfl rfl rfl rfl rfl rfl rfl rfl)

theorem execWatchdogExpiry_keeps {s0 s : State} (h : Keeps s0 s) :
    KeepsO s0 (execWatchdogExpiry s) := by
  unfold execWatchdogExpiry
  with_reducible repeat' first
    | assumption | apply State.quiet_keeps | apply State.startWarmReset_keeps | apply Keeps.ite
    | apply KeepsO.next | apply KeepsO.ite | split

theorem State.wakeAfterReset_keeps {s0 s : State} (h : Keeps s0 s) :
    Keeps s0 (State.wakeAfterReset s) := by
  unfold State.wakeAfterReset
  with_reducible repeat' first
    | assumption | intro _ | apply State.requestWakes_keeps | apply Keeps.ite | apply Keeps.foldl | split
    | (simp only [Keeps.mk_eq]; refine KeepsMk.of ?_ rfl rfl rfl rfl rfl rfl rfl rfl rfl rfl)

theorem State.bootRom_keeps {s0 s : State} (h : Keeps s0 s) :
    Keeps s0 (State.bootRom s) := by
  unfold State.bootRom
  with_reducible repeat' first
    | assumption | intro _ | apply State.wakeAfterReset_keeps | apply State.setBlob_keeps | apply State.setObj_keeps | apply Keeps.ite
    | apply Keeps.foldl | split
    | (simp only [Keeps.mk_eq]; refine KeepsMk.of ?_ rfl rfl rfl rfl rfl rfl rfl rfl rfl rfl)

theorem execBootRomVerify_keeps {s0 s : State} (h : Keeps s0 s) :
    KeepsO s0 (execBootRomVerify s) := by
  unfold execBootRomVerify
  with_reducible repeat' first
    | assumption | apply State.quiet_keeps | apply State.bootRom_keeps | apply Keeps.ite | apply KeepsO.next
    | apply KeepsO.ite | split

theorem State.bindSpare_keeps {s0 s : State} {a1 a2} (h : Keeps s0 s) :
    Keeps s0 (State.bindSpare s a1 a2) := by
  unfold State.bindSpare
  with_reducible repeat' first
    | assumption | intro _ | apply State.setObj_keeps | apply Keeps.ite | apply Keeps.foldl | split
    | (simp only [Keeps.mk_eq]; refine KeepsMk.of ?_ rfl rfl rfl rfl rfl rfl rfl rfl rfl rfl)

theorem State.finishPending_keeps {s0 s : State} (h : Keeps s0 s) :
    Keeps s0 (State.finishPending s) := by
  unfold State.finishPending
  with_reducible repeat' first
    | assumption | (intro _; clear_value x1; revert x1) | intro _ | (unfold x1; clear x1)
    | (extract_lets +onlyGivenNames -merge x1; first | refine Keeps.cut s0 x1 ?_ ?_ | (clear_value x1; revert x1))
    | apply State.bindSpare_keeps | apply State.countSpares_keeps | apply State.setObj_keeps | apply Keeps.ite | apply Keeps.foldl | split
    | (simp only [Keeps.mk_eq]; refine KeepsMk.of ?_ rfl rfl rfl rfl rfl rfl rfl rfl rfl rfl)

theorem State.noteReset_keeps {s0 s : State} {a1} (h : Keeps s0 s) :
    Keeps s0 (State.noteReset s a1) := by
  unfold State.noteReset
  with_reducible repeat' first
    | assumption | intro _ | apply State.setObj_keeps | apply Keeps.ite | apply Keeps.foldl | split
    | (simp only [Keeps.mk_eq]; refine KeepsMk.of ?_ rfl rfl rfl rfl rfl rfl rfl rfl rfl rfl)

theorem State.endReset_keeps {s0 s : State} {a1} (h : Keeps s0 s) :
    Keeps s0 (State.endReset s a1) := by
  unfold State.endReset
  with_reducible repeat' first
    | assumption | (intro _; first | (clear_value x1; revert x1) | subst x1) | intro _ | (unfold x1; clear x1)
    | (extract_lets +onlyGivenNames -merge x1; first | refine Keeps.cut s0 x1 ?_ ?_ | refine Keeps.cut1 s0 x1 ?_ ?_ | refine Keeps.cut2 s0 x1 ?_ ?_ | refine Keeps.cutR s0 x1 ?_ ?_ | (first | refine keepLedger x1 ?_ | refine keepMem x1 ?_ | refine keepPath x1 ?_; subst x1) | (clear_value x1; revert x1) | subst x1)
    | apply State.raise_keeps | apply State.finishPending_keeps | apply State.setObj_keeps
    | apply State.noteReset_keeps | apply Keeps.ite | apply Keeps.foldl | apply Keeps.ite1 | apply Keeps.ite2
    | apply Keeps.iteR | apply Keeps.elim | apply Keeps.foldl1 | apply Keeps.foldl2 | split
    | (simp only [Keeps.mk_eq]; refine KeepsMk.of ?_ rfl rfl rfl rfl rfl rfl rfl rfl rfl rfl)

theorem execWarmResetDone_keeps {s0 s : State} (h : Keeps s0 s) :
    KeepsO s0 (execWarmResetDone s) := by
  unfold execWarmResetDone
  with_reducible repeat' first
    | assumption | (intro _; clear_value x1; revert x1) | intro _ | (unfold x1; clear x1)
    | (extract_lets +onlyGivenNames -merge x1; first | refine Keeps.cut s0 x1 ?_ ?_ | (clear_value x1; revert x1))
    | apply State.endReset_keeps | apply State.quiet_keeps | apply State.setDoms_keeps | apply State.finishPending_keeps
    | apply State.setObj_keeps | apply State.raise_keeps | apply State.setPowerState_keeps | apply Keeps.ite
    | apply Keeps.foldl | apply KeepsO.next | apply KeepsO.ite | split
    | (simp only [Keeps.mk_eq]; refine KeepsMk.of ?_ rfl rfl rfl rfl rfl rfl rfl rfl rfl rfl)

theorem State.actPowerRun_keeps {s0 s : State} (h : Keeps s0 s) :
    Keeps s0 (State.actPowerRun s) := by
  unfold State.actPowerRun
  with_reducible repeat' first
    | assumption | intro _ | apply State.setPowerState_keeps | apply State.cmdDone_keeps
    | apply State.requestWakes_keeps | apply State.startWarmReset_keeps | apply State.cmdFail_keeps
    | apply Keeps.ite | apply Keeps.foldl | split
    | (simp only [Keeps.mk_eq]; refine KeepsMk.of ?_ rfl rfl rfl rfl rfl rfl rfl rfl rfl rfl)

theorem State.actPowerDoze_keeps {s0 s : State} (h : Keeps s0 s) :
    Keeps s0 (State.actPowerDoze s) := by
  unfold State.actPowerDoze
  with_reducible repeat' first
    | assumption | intro _ | apply State.cmdFail_keeps | apply State.clearFn_keeps | apply State.setDoms_keeps
    | apply State.cmdDone_keeps | apply State.setPowerState_keeps | apply Keeps.ite | apply Keeps.foldl | split
    | (simp only [Keeps.mk_eq]; refine KeepsMk.of ?_ rfl rfl rfl rfl rfl rfl rfl rfl rfl rfl)

theorem State.actPowerKeep_keeps {s0 s : State} (h : Keeps s0 s) :
    Keeps s0 (State.actPowerKeep s) := by
  unfold State.actPowerKeep
  with_reducible repeat' first
    | assumption | intro _ | apply State.cmdFail_keeps | apply State.clearFn_keeps
    | apply State.dropObjects_keeps | apply State.setDoms_keeps | apply State.cmdDone_keeps
    | apply State.setPowerState_keeps | apply Keeps.ite | apply Keeps.foldl | split
    | (simp only [Keeps.mk_eq]; refine KeepsMk.of ?_ rfl rfl rfl rfl rfl rfl rfl rfl rfl rfl)

theorem State.actPowerRequest_keeps {s0 s : State} {a1} (h : Keeps s0 s) :
    Keeps s0 (State.actPowerRequest s a1) := by
  unfold State.actPowerRequest
  with_reducible repeat' first
    | assumption | intro _ | apply State.actPowerRun_keeps | apply State.actPowerDoze_keeps
    | apply State.actPowerKeep_keeps | apply Keeps.ite | apply Keeps.foldl | split
    | (simp only [Keeps.mk_eq]; refine KeepsMk.of ?_ rfl rfl rfl rfl rfl rfl rfl rfl rfl rfl)

theorem State.actWarmReset_keeps {s0 s : State} (h : Keeps s0 s) :
    Keeps s0 (State.actWarmReset s) := by
  unfold State.actWarmReset
  with_reducible repeat' first
    | assumption | apply State.startWarmReset_keeps | apply State.cmdStart_keeps | apply Keeps.ite | split

theorem State.actShutdown_keeps {s0 s : State} (h : Keeps s0 s) :
    Keeps s0 (State.actShutdown s) := by
  unfold State.actShutdown
  with_reducible repeat' first
    | assumption | intro _ | apply State.cmdFail_keeps | apply State.cmdStart_keeps | apply Keeps.ite
    | apply Keeps.foldl | split
    | (simp only [Keeps.mk_eq]; refine KeepsMk.of ?_ rfl rfl rfl rfl rfl rfl rfl rfl rfl rfl)

theorem State.finishShutdown_keeps {s0 s : State} (h : Keeps s0 s) :
    Keeps s0 (State.finishShutdown s) := by
  unfold State.finishShutdown
  with_reducible repeat' first
    | assumption | apply State.setObj_keeps | apply State.clearFn_keeps | apply State.dropObjects_keeps
    | apply State.setDoms_keeps | apply State.cmdDone_keeps | apply State.setPowerState_keeps | apply Keeps.ite
    | split | (simp only [Keeps.mk_eq]; refine KeepsMk.of ?_ rfl rfl rfl rfl rfl rfl rfl rfl rfl rfl)

theorem State.noteDelay_keeps {s0 s : State} {a1} (h : Keeps s0 s) :
    Keeps s0 (State.noteDelay s a1) := by
  unfold State.noteDelay
  with_reducible repeat' first
    | assumption | intro _ | apply State.bump_keeps | apply State.raise_keeps | apply State.setObj_keeps
    | apply Keeps.ite | apply Keeps.foldl | split
    | (simp only [Keeps.mk_eq]; refine KeepsMk.of ?_ rfl rfl rfl rfl rfl rfl rfl rfl rfl rfl)

theorem execWakeStart_keeps {s0 s : State} (h : Keeps s0 s) :
    KeepsO s0 (execWakeStart s) := by
  unfold execWakeStart
  with_reducible repeat' first
    | assumption | (intro _; clear_value x1; revert x1) | intro _ | (unfold x1; clear x1)
    | (extract_lets +onlyGivenNames -merge x1; first | refine Keeps.cut s0 x1 ?_ ?_ | (clear_value x1; revert x1))
    | apply State.quiet_keeps | apply State.advanceTo_keeps | apply State.noteDelay_keeps
    | apply State.startWake_keeps | apply Keeps.ite | apply Keeps.foldl | apply KeepsO.next | apply KeepsO.ite
    | split | (simp only [Keeps.mk_eq]; refine KeepsMk.of ?_ rfl rfl rfl rfl rfl rfl rfl rfl rfl rfl)

theorem State.toOffset_keeps {s0 s : State} {a1} (h : Keeps s0 s) :
    Keeps s0 (State.toOffset s a1) := by
  unfold State.toOffset
  with_reducible repeat' first
    | assumption | apply State.advance_keeps | apply Keeps.ite | split

theorem execWakeItem_keeps {s0 s : State} {a1} (h : Keeps s0 s) :
    KeepsO s0 (execWakeItem a1 s) := by
  unfold execWakeItem
  with_reducible repeat' first
    | assumption | (intro _; clear_value x1; revert x1) | intro _ | (unfold x1; clear x1)
    | (extract_lets +onlyGivenNames -merge x1; first | refine Keeps.cut s0 x1 ?_ ?_ | (clear_value x1; revert x1))
    | apply State.quiet_keeps | apply State.toOffset_keeps | apply State.settleIdle_keeps
    | apply State.startWake_keeps | apply Keeps.ite | apply Keeps.foldl | apply KeepsO.next | apply KeepsO.ite
    | split | (simp only [Keeps.mk_eq]; refine KeepsMk.of ?_ rfl rfl rfl rfl rfl rfl rfl rfl rfl rfl)

theorem execGateItem_keeps {s0 s : State} {a1} (h : Keeps s0 s) :
    KeepsO s0 (execGateItem a1 s) := by
  unfold execGateItem
  with_reducible repeat' first
    | assumption | (intro _; clear_value x1; revert x1) | intro _ | (unfold x1; clear x1)
    | (extract_lets +onlyGivenNames -merge x1; first | refine Keeps.cut s0 x1 ?_ ?_ | (clear_value x1; revert x1))
    | apply State.quiet_keeps | apply State.toOffset_keeps | apply State.setDom_keeps
    | apply State.clearCluster_keeps | apply State.settleIdle_keeps | apply Keeps.ite | apply Keeps.foldl
    | apply KeepsO.next | apply KeepsO.ite | split
    | (simp only [Keeps.mk_eq]; refine KeepsMk.of ?_ rfl rfl rfl rfl rfl rfl rfl rfl rfl rfl)

theorem execDomainWakeDone_keeps {s0 s : State} {a1} (h : Keeps s0 s) :
    KeepsO s0 (execDomainWakeDone a1 s) := by
  unfold execDomainWakeDone
  with_reducible repeat' first
    | assumption | (intro _; clear_value x1; revert x1) | intro _ | (unfold x1; clear x1)
    | (extract_lets +onlyGivenNames -merge x1; first | refine Keeps.cut s0 x1 ?_ ?_ | (clear_value x1; revert x1))
    | apply State.quiet_keeps | apply State.advanceTo_keeps | apply State.setDom_keeps | apply Keeps.ite
    | apply Keeps.foldl | apply KeepsO.next | apply KeepsO.ite | split
    | (simp only [Keeps.mk_eq]; refine KeepsMk.of ?_ rfl rfl rfl rfl rfl rfl rfl rfl rfl rfl)

theorem State.noteThermal_keeps {s0 s : State} {a1 a2 a3} (h : Keeps s0 s) :
    Keeps s0 (State.noteThermal s a1 a2 a3) := by
  unfold State.noteThermal
  with_reducible repeat' first
    | assumption | apply State.setObj_keeps | apply Keeps.ite | split

theorem State.thermalStop_keeps {s0 s : State} {a1 a2 a3} (h : Keeps s0 s) :
    Keeps s0 (State.thermalStop s a1 a2 a3) := by
  unfold State.thermalStop
  with_reducible repeat' first
    | assumption | apply State.noteThermal_keeps | apply State.bump_keeps | apply State.setObj_keeps
    | apply State.raise_keeps | apply State.classC_keeps | apply State.idleWindows_keeps
    | apply State.settleIdle_keeps | apply State.clearFn_keeps | apply State.setDoms_keeps | apply Keeps.ite | split
    | (simp only [Keeps.mk_eq]; refine KeepsMk.of ?_ rfl rfl rfl rfl rfl rfl rfl rfl rfl rfl)

theorem State.thermalTrip_keeps {s0 s : State} {a1 a2 a3} (h : Keeps s0 s) :
    Keeps s0 (State.thermalTrip s a1 a2 a3) := by
  unfold State.thermalTrip
  with_reducible repeat' first
    | assumption | apply State.powerLost_keeps | apply State.noteThermal_keeps | apply State.raise_keeps | apply State.bump_keeps
    | apply State.powerOff_keeps | apply State.setObj_keeps | apply Keeps.ite | split
    | (simp only [Keeps.mk_eq]; refine KeepsMk.of ?_ rfl rfl rfl rfl rfl rfl rfl rfl rfl rfl)

theorem execThermalSample_keeps {s0 s : State} {a1 a2 a3} (h : Keeps s0 s) :
    KeepsO s0 (execThermalSample a1 a2 a3 s) := by
  unfold execThermalSample
  with_reducible repeat' first
    | assumption | intro _ | apply State.quiet_keeps | apply State.setObj_keeps | apply State.thermalTrip_keeps
    | apply State.noteThermal_keeps | apply State.raise_keeps | apply State.thermalStop_keeps
    | apply State.requestWakes_keeps | apply Keeps.ite | apply Keeps.foldl | apply KeepsO.next
    | apply KeepsO.ite | split
    | (simp only [Keeps.mk_eq]; refine KeepsMk.of ?_ rfl rfl rfl rfl rfl rfl rfl rfl rfl rfl)

end Sys2Proof.Machine
end

