-- ==== Sys2Proof/Laws/Keeps/Recipe.lean ====
section
/-! SUPPORT. Every operation of Machine/Recipe.lean keeps what `Keeps` says. -/

namespace Sys2Proof.Machine

theorem State.overflow_keeps {s0 s : State} {a1 a2} (h : Keeps s0 s) :
    Keeps s0 (State.overflow s a1 a2) := by
  unfold State.overflow
  with_reducible repeat' first
    | assumption | intro _ | apply State.setObj_keeps | apply State.raise_keeps | apply State.bump_keeps
    | apply State.poisonOverflow_keeps | apply Keeps.ite | apply Keeps.foldl | split
    | (simp only [Keeps.mk_eq]; refine KeepsMk.of ?_ rfl rfl rfl rfl rfl rfl rfl rfl rfl rfl)

theorem State.overflowIf_keeps {s0 s : State} {a1 a2 a3} (h : Keeps s0 s) :
    Keeps s0 (State.overflowIf s a1 a2 a3) := by
  unfold State.overflowIf
  with_reducible repeat' first
    | assumption | apply State.overflow_keeps | apply Keeps.ite | split

theorem State.toCycle_keeps {s0 s : State} {a1} (h : Keeps s0 s) :
    Keeps s0 (State.toCycle s a1) := by
  unfold State.toCycle
  exact (State.advanceTo_keeps h).of_eq rfl rfl rfl rfl rfl rfl rfl rfl rfl rfl

end Sys2Proof.Machine
end

