-- ==== Sys2Proof/Laws/Keeps/Mailbox.lean ====
section
/-! SUPPORT. Every operation of Machine/Mailbox.lean keeps what `Keeps` says. -/

namespace Sys2Proof.Machine

theorem State.setMailbox_keeps {s0 s : State} {a1 a2} (h : Keeps s0 s) :
    Keeps s0 (State.setMailbox s a1 a2) := by
  unfold State.setMailbox
  with_reducible repeat' first
    | assumption | apply State.setObj_keeps | apply Keeps.ite | split
    | (simp only [Keeps.mk_eq]; refine KeepsMk.of ?_ rfl rfl rfl rfl rfl rfl rfl rfl rfl rfl)

theorem State.postMailbox_keeps {s0 s : State} {a1 a2 a3} (h : Keeps s0 s) :
    Keeps s0 (State.postMailbox s a1 a2 a3) := by
  unfold State.postMailbox
  extract_lets s1
  have h1 : Keeps s0 s1 := by
    refine ⟨h.pending, h.now, fun q => ?_⟩
    have w := h.sound q
    simp only [State.sound, State.odWf, State.blobsWf, State.bounded, Bool.and_eq_true, decide_eq_true_eq] at w ⊢
    obtain ⟨a, ⟨⟨⟨b, c⟩, d⟩, e⟩, f⟩ := w
    exact ⟨a, ⟨⟨⟨List.length_take_le .., c⟩, d⟩, e⟩, f⟩
  split
  · exact State.post_keeps h1
  · exact h1

theorem State.mailboxGo_keeps {s0 s : State} {a1 a2 a3 a4} (h : Keeps s0 s) :
    Keeps s0 (State.mailboxGo s a1 a2 a3 a4) := by
  unfold State.mailboxGo
  with_reducible repeat' first
    | assumption | intro _ | apply State.setMailbox_keeps | apply State.postMailbox_keeps | apply Keeps.ite
    | apply Keeps.foldl | split
    | (simp only [Keeps.mk_eq]; refine KeepsMk.of ?_ rfl rfl rfl rfl rfl rfl rfl rfl rfl rfl)

theorem State.mailboxInterrupt_keeps {s0 s : State} {a1 a2 a3} (h : Keeps s0 s) :
    Keeps s0 (State.mailboxInterrupt s a1 a2 a3) := by
  unfold State.mailboxInterrupt
  with_reducible repeat' first
    | assumption | intro _ | apply State.postMailbox_keeps | apply State.emit_keeps | apply Keeps.ite
    | apply Keeps.foldl | split
    | (simp only [Keeps.mk_eq]; refine KeepsMk.of ?_ rfl rfl rfl rfl rfl rfl rfl rfl rfl rfl)

theorem State.coreReport_keeps {s0 s : State} {a1} (h : Keeps s0 s) :
    Keeps s0 (State.coreReport s a1) := by
  unfold State.coreReport
  with_reducible repeat' first
    | assumption | (intro _; first | (clear_value x1; revert x1) | subst x1) | intro _ | (unfold x1; clear x1)
    | (extract_lets +onlyGivenNames -merge x1; first | refine Keeps.cut s0 x1 ?_ ?_ | refine Keeps.cut1 s0 x1 ?_ ?_ | refine Keeps.cut2 s0 x1 ?_ ?_ | refine Keeps.cutR s0 x1 ?_ ?_ | (first | refine keepLedger x1 ?_ | refine keepMem x1 ?_ | refine keepPath x1 ?_; subst x1) | (clear_value x1; revert x1) | subst x1)
    | apply State.mailboxGo_keeps | apply Keeps.ite | apply Keeps.foldl | apply Keeps.ite1 | apply Keeps.ite2
    | apply Keeps.iteR | apply Keeps.elim | apply Keeps.foldl1 | apply Keeps.foldl2 | split
    | (simp only [Keeps.mk_eq]; refine KeepsMk.of ?_ rfl rfl rfl rfl rfl rfl rfl rfl rfl rfl)

theorem State.mailboxClear_keeps {s0 s : State} {a1} (h : Keeps s0 s) :
    Keeps s0 (State.mailboxClear s a1) := by
  unfold State.mailboxClear
  with_reducible repeat' first
    | assumption | intro _ | apply State.mailboxInterrupt_keeps | apply State.setMailbox_keeps | apply Keeps.ite
    | apply Keeps.foldl | split
    | (simp only [Keeps.mk_eq]; refine KeepsMk.of ?_ rfl rfl rfl rfl rfl rfl rfl rfl rfl rfl)

theorem execMailboxTimeout_keeps {s0 s : State} {a1} (h : Keeps s0 s) :
    KeepsO s0 (execMailboxTimeout a1 s) := by
  unfold execMailboxTimeout
  with_reducible repeat' first
    | assumption | apply State.quiet_keeps | apply State.advanceTo_keeps | apply State.setMailbox_keeps
    | apply State.raise_keeps | apply State.bump_keeps | apply State.mailboxInterrupt_keeps | apply Keeps.ite
    | apply KeepsO.next | apply KeepsO.ite | split

theorem execMailboxClear_keeps {s0 s : State} {a1} (h : Keeps s0 s) :
    KeepsO s0 (execMailboxClear a1 s) := by
  unfold execMailboxClear
  with_reducible repeat' first
    | assumption | apply State.mailboxClear_keeps | apply State.quiet_keeps | apply Keeps.ite
    | apply KeepsO.next | apply KeepsO.ite | split

theorem State.mailboxWrite_keeps {s0 s : State} {a1 a2 a3} (h : Keeps s0 s) :
    Keeps s0 (State.mailboxWrite s a1 a2 a3).1 := by
  unfold State.mailboxWrite
  with_reducible repeat' first
    | assumption | (intro _; clear_value x1; revert x1) | intro _ | (unfold x1; clear x1)
    | (extract_lets +onlyGivenNames -merge x1; first | refine Keeps.cut s0 x1 ?_ ?_ | (clear_value x1; revert x1))
    | apply State.setMailbox_keeps | apply State.mailboxGo_keeps | apply State.mailboxClear_keeps
    | apply Keeps.ite | apply Keeps.foldl | split
    | (simp only [Keeps.mk_eq]; refine KeepsMk.of ?_ rfl rfl rfl rfl rfl rfl rfl rfl rfl rfl)

theorem execMailboxGo_keeps {s0 s : State} {a1 a2 a3 a4} (h : Keeps s0 s) :
    KeepsO s0 (execMailboxGo a1 a2 a3 a4 s) := by
  unfold execMailboxGo
  with_reducible repeat' first
    | assumption | apply State.mailboxGo_keeps | apply State.quiet_keeps | apply Keeps.ite | apply KeepsO.next
    | apply KeepsO.ite | split

end Sys2Proof.Machine
end

