-- ==== Sys2Proof/Laws/Keeps/Flow.lean ====
section
/-! SUPPORT. Every operation of Machine/Flow.lean keeps what `Keeps` says. -/

namespace Sys2Proof.Machine

theorem State.badHead_keeps {s0 s : State} (h : Keeps s0 s) :
    Keeps s0 (State.badHead s) := by
  unfold State.badHead
  with_reducible repeat' first
    | assumption | apply State.bump_keeps | apply Keeps.ite | split

theorem State.sendAck_keeps {s0 s : State} {a1} (h : Keeps s0 s) :
    Keeps s0 (State.sendAck s a1) := by
  unfold State.sendAck
  with_reducible repeat' first
    | assumption | apply State.inject_keeps | apply State.setFlow_keeps | apply Keeps.ite | split

theorem State.noteArrival_keeps {s0 s : State} {a1} (h : Keeps s0 s) :
    Keeps s0 (State.noteArrival s a1) := by
  unfold State.noteArrival
  with_reducible repeat' first
    | assumption | apply State.setFlow_keeps | apply State.sendAck_keeps | apply Keeps.ite | split

theorem State.ackSixteen_keeps {s0 s : State} {a1} (h : Keeps s0 s) :
    Keeps s0 (State.ackSixteen s a1) := by
  unfold State.ackSixteen
  with_reducible repeat' first
    | assumption | intro _ | apply State.sendAck_keeps | apply Keeps.ite | apply Keeps.foldl | split
    | (simp only [Keeps.mk_eq]; refine KeepsMk.of ?_ rfl rfl rfl rfl rfl rfl rfl rfl rfl rfl)

theorem State.settleDone_keeps {s0 s : State} {a1 a2} (h : Keeps s0 s) :
    Keeps s0 (State.settleDone a1 s a2) := by
  induction a1 generalizing s with
  | zero => exact h
  | succ k ih =>
    unfold State.settleDone
    extract_lets f n
    split
    · exact h
    · exact ih (Keeps.ite (State.setFlow_keeps h) (fun k => State.sendAck_keeps k))

theorem State.completeMsg_keeps {s0 s : State} {a1 a2 a3} (h : Keeps s0 s) :
    Keeps s0 (State.completeMsg s a1 a2 a3) := by
  unfold State.completeMsg
  with_reducible repeat' first
    | assumption | apply State.sendAck_keeps | apply State.setFlow_keeps | apply State.settleDone_keeps | apply Keeps.ite | split

theorem State.ringBell_keeps {s0 s : State} {a1 a2} (h : Keeps s0 s) :
    Keeps s0 (State.ringBell s a1 a2) := by
  unfold State.ringBell
  with_reducible repeat' first
    | assumption | apply State.setRing_keeps | apply State.bump_keeps | apply State.raise_keeps
    | apply State.setObj_keeps | apply Keeps.ite | split

theorem execDoorbellApply_keeps {s0 s : State} {a1} (h : Keeps s0 s) :
    KeepsO s0 (execDoorbellApply a1 s) := by
  unfold execDoorbellApply
  with_reducible repeat' first
    | assumption | (intro _; clear_value x1; revert x1) | intro _ | (unfold x1; clear x1)
    | (extract_lets +onlyGivenNames -merge x1; first | refine Keeps.cut s0 x1 ?_ ?_ | (clear_value x1; revert x1))
    | apply State.quiet_keeps | apply State.ringBell_keeps | apply State.setFlow_keeps | apply Keeps.ite
    | apply Keeps.foldl | apply KeepsO.next | apply KeepsO.ite | split
    | (simp only [Keeps.mk_eq]; refine KeepsMk.of ?_ rfl rfl rfl rfl rfl rfl rfl rfl rfl rfl)

theorem State.packetWrite_keeps {s0 s : State} {a1 a2} (h : Keeps s0 s) :
    Keeps s0 (State.packetWrite s a1 a2).1 := by
  unfold State.packetWrite
  with_reducible repeat' first
    | assumption | (intro _; first | (clear_value x1; revert x1) | subst x1) | intro _ | (unfold x1; clear x1)
    | (extract_lets +onlyGivenNames -merge x1; first | refine Keeps.cut s0 x1 ?_ ?_ | refine Keeps.cut1 s0 x1 ?_ ?_ | refine Keeps.cut2 s0 x1 ?_ ?_ | refine Keeps.cutR s0 x1 ?_ ?_ | (first | refine keepLedger x1 ?_ | refine keepMem x1 ?_ | refine keepPath x1 ?_; subst x1) | (clear_value x1; revert x1) | subst x1)
    | apply State.deny_keeps | apply State.store_keeps | apply Keeps.ite | apply Keeps.foldl | apply Keeps.ite1
    | apply Keeps.ite2 | apply Keeps.iteR | apply Keeps.elim | apply Keeps.foldl1 | apply Keeps.foldl2 | split
    | (simp only [Keeps.mk_eq]; refine KeepsMk.of ?_ rfl rfl rfl rfl rfl rfl rfl rfl rfl rfl)

theorem State.deliverWrite_keeps {s0 s : State} {a1} (h : Keeps s0 s) :
    Keeps s0 (State.deliverWrite s a1).1 := by
  unfold State.deliverWrite
  with_reducible repeat' first
    | assumption | (intro _; clear_value x1; revert x1) | intro _ | (unfold x1; clear x1)
    | (extract_lets +onlyGivenNames -merge x1; first | refine Keeps.cut s0 x1 ?_ ?_ | (clear_value x1; revert x1))
    | apply State.packetWrite_keeps | apply Keeps.ite | apply Keeps.foldl | split
    | (simp only [Keeps.mk_eq]; refine KeepsMk.of ?_ rfl rfl rfl rfl rfl rfl rfl rfl rfl rfl)

theorem State.readFor_keeps {s0 s : State} {a1} (h : Keeps s0 s) :
    Keeps s0 (State.readFor s a1).1 := by
  unfold State.readFor
  extract_lets ag viaMem
  have hv : ∀ a, Keeps s0 (viaMem a).1 := by
    intro a
    simp only [viaMem]
    split <;> exact State.load_keeps h
  split
  · exact h
  · split
    · exact hv _
    · split
      · exact hv _
      · exact h
    · split <;> exact h
    · exact h

theorem State.answerRead_keeps {s0 s : State} {a1 a2} (h : Keeps s0 s) :
    Keeps s0 (State.answerRead s a1 a2) := by
  unfold State.answerRead
  with_reducible repeat' first
    | assumption | intro _ | apply State.inject_keeps | apply State.sendMessage_keeps | apply Keeps.ite
    | apply Keeps.foldl | split
    | (simp only [Keeps.mk_eq]; refine KeepsMk.of ?_ rfl rfl rfl rfl rfl rfl rfl rfl rfl rfl)

theorem State.deliverContribs_keeps {s0 s : State} {a1 a2} (h : Keeps s0 s) :
    Keeps s0 (State.deliverContribs s a1 a2).1 := by
  unfold State.deliverContribs
  with_reducible repeat' first
    | assumption | apply Keeps.ite | split
    | (simp only [Keeps.mk_eq]; refine KeepsMk.of ?_ rfl rfl rfl rfl rfl rfl rfl rfl rfl rfl)

theorem State.appendInbox_keeps {s0 s : State} {a1 a2} (h : Keeps s0 s) :
    Keeps s0 (State.appendInbox s a1 a2) := by
  unfold State.appendInbox
  with_reducible repeat' first
    | assumption | intro _ | apply State.writeLine_keeps | apply State.poke_keeps | apply State.setRing_keeps | apply Keeps.ite
    | apply Keeps.foldl | split
    | (simp only [Keeps.mk_eq]; refine KeepsMk.of ?_ rfl rfl rfl rfl rfl rfl rfl rfl rfl rfl)

theorem State.applyMailbox_keeps {s0 s : State} {a1 a2} (h : Keeps s0 s) :
    Keeps s0 (State.applyMailbox s a1 a2).1 := by
  unfold State.applyMailbox
  with_reducible repeat' first
    | assumption | (intro _; first | (clear_value x1; revert x1) | subst x1) | intro _ | (unfold x1; clear x1)
    | (extract_lets +onlyGivenNames -merge x1; first | refine Keeps.cut s0 x1 ?_ ?_ | refine Keeps.cut1 s0 x1 ?_ ?_ | refine Keeps.cut2 s0 x1 ?_ ?_ | refine Keeps.cutR s0 x1 ?_ ?_ | (first | refine keepLedger x1 ?_ | refine keepMem x1 ?_ | refine keepPath x1 ?_; subst x1) | (clear_value x1; revert x1) | subst x1)
    | apply State.mailboxWrite_keeps | apply Keeps.ite | apply Keeps.foldl | apply Keeps.ite1 | apply Keeps.ite2
    | apply Keeps.iteR | apply Keeps.elim | apply Keeps.foldl1 | apply Keeps.foldl2 | split
    | (simp only [Keeps.mk_eq]; refine KeepsMk.of ?_ rfl rfl rfl rfl rfl rfl rfl rfl rfl rfl)

theorem State.noteSnapshot_keeps {s0 s : State} {a1 a2} (h : Keeps s0 s) :
    Keeps s0 (State.noteSnapshot s a1 a2) := by
  unfold State.noteSnapshot
  with_reducible repeat' first
    | assumption | intro _ | apply State.readPhys_keeps | apply State.raise_keeps | apply State.setObj_keeps | apply Keeps.ite
    | apply Keeps.foldl | split
    | (simp only [Keeps.mk_eq]; refine KeepsMk.of ?_ rfl rfl rfl rfl rfl rfl rfl rfl rfl rfl)

theorem State.finishMessage_keeps {s0 s : State} {a1 a2 a3} (h : Keeps s0 s) :
    Keeps s0 (State.finishMessage s a1 a2 a3) := by
  unfold State.finishMessage
  with_reducible repeat' first
    | assumption | intro _ | apply State.bump_keeps | apply State.raiseAt_keeps | apply State.poison_keeps
    | apply State.completeMsg_keeps | apply State.appendInbox_keeps | apply State.applyMailbox_keeps
    | apply State.noteSnapshot_keeps | apply Keeps.ite | apply Keeps.foldl | split
    | (simp only [Keeps.mk_eq]; refine KeepsMk.of ?_ rfl rfl rfl rfl rfl rfl rfl rfl rfl rfl)

theorem State.deliver_keeps {s0 s : State} {a1 a2 a3} (h : Keeps s0 s) :
    Keeps s0 (State.deliver s a1 a2 a3).1 := by
  unfold State.deliver
  with_reducible repeat' first
    | assumption | apply State.deliverWrite_keeps | apply State.readFor_keeps | apply State.answerRead_keeps
    | apply State.deliverContribs_keeps | apply State.setFlow_keeps | apply Keeps.ite | split

theorem State.acceptPacket_keeps {s0 s : State} {a1 a2} (h : Keeps s0 s) :
    Keeps s0 (State.acceptPacket s a1 a2) := by
  unfold State.acceptPacket
  with_reducible repeat' first
    | assumption | apply State.deliver_keeps | apply State.setFlow_keeps | apply State.finishMessage_keeps
    | apply Keeps.ite | split

theorem State.receiveFlowed_keeps {s0 s : State} {a1 a2} (h : Keeps s0 s) :
    Keeps s0 (State.receiveFlowed s a1 a2) := by
  unfold State.receiveFlowed
  with_reducible repeat' first
    | assumption | intro _ | apply State.ackSixteen_keeps | apply State.badHead_keeps | apply State.noteArrival_keeps | apply State.bump_keeps
    | apply State.setFlow_keeps | apply State.acceptPacket_keeps | apply Keeps.ite | apply Keeps.foldl | split
    | (simp only [Keeps.mk_eq]; refine KeepsMk.of ?_ rfl rfl rfl rfl rfl rfl rfl rfl rfl rfl)

theorem State.receive_keeps {s0 s : State} {a1 a2} (h : Keeps s0 s) :
    Keeps s0 (State.receive s a1 a2) := by
  unfold State.receive
  with_reducible repeat' first
    | assumption | intro _ | apply State.badHead_keeps | apply State.applyMailbox_keeps
    | apply State.deliverWrite_keeps | apply State.readFor_keeps | apply State.answerRead_keeps
    | apply State.receiveFlowed_keeps | apply Keeps.ite | apply Keeps.foldl | split
    | (simp only [Keeps.mk_eq]; refine KeepsMk.of ?_ rfl rfl rfl rfl rfl rfl rfl rfl rfl rfl)

theorem execWriteTransaction_keeps {s0 s : State} {a1 a2} (h : Keeps s0 s) :
    KeepsO s0 (execWriteTransaction a1 a2 s) := by
  unfold execWriteTransaction
  with_reducible repeat' first
    | assumption | apply State.receive_keeps | apply State.strike_keeps | apply State.quiet_keeps | apply Keeps.ite | apply KeepsO.next
    | apply KeepsO.ite | split

theorem execReadTransaction_keeps {s0 s : State} {a1 a2} (h : Keeps s0 s) :
    KeepsO s0 (execReadTransaction a1 a2 s) := by
  unfold execReadTransaction
  with_reducible repeat' first
    | assumption | apply State.receive_keeps | apply State.strike_keeps | apply State.quiet_keeps | apply Keeps.ite | apply KeepsO.next
    | apply KeepsO.ite | split

theorem execReadData_keeps {s0 s : State} {a1} (h : Keeps s0 s) :
    KeepsO s0 (execReadData a1 s) := by
  unfold execReadData
  with_reducible repeat' first
    | assumption | apply State.receive_keeps | apply State.strike_keeps | apply State.quiet_keeps | apply Keeps.ite | apply KeepsO.next
    | apply KeepsO.ite | split

theorem execTallyAdd_keeps {s0 s : State} {a1} (h : Keeps s0 s) :
    KeepsO s0 (execTallyAdd a1 s) := by
  unfold execTallyAdd
  with_reducible repeat' first
    | assumption | apply State.receive_keeps | apply State.strike_keeps | apply State.quiet_keeps | apply Keeps.ite | apply KeepsO.next
    | apply KeepsO.ite | split

theorem execMaxidx_keeps {s0 s : State} {a1} (h : Keeps s0 s) :
    KeepsO s0 (execMaxidx a1 s) := by
  unfold execMaxidx
  with_reducible repeat' first
    | assumption | apply State.receive_keeps | apply State.strike_keeps | apply State.quiet_keeps | apply Keeps.ite | apply KeepsO.next
    | apply KeepsO.ite | split

theorem execMinidx_keeps {s0 s : State} {a1} (h : Keeps s0 s) :
    KeepsO s0 (execMinidx a1 s) := by
  unfold execMinidx
  with_reducible repeat' first
    | assumption | apply State.receive_keeps | apply State.strike_keeps | apply State.quiet_keeps | apply Keeps.ite | apply KeepsO.next
    | apply KeepsO.ite | split

theorem execMessage_keeps {s0 s : State} {a1} (h : Keeps s0 s) :
    KeepsO s0 (execMessage a1 s) := by
  unfold execMessage
  with_reducible repeat' first
    | assumption | apply State.receive_keeps | apply State.strike_keeps | apply State.quiet_keeps | apply Keeps.ite | apply KeepsO.next
    | apply KeepsO.ite | split

theorem execDoorbell_keeps {s0 s : State} {a1} (h : Keeps s0 s) :
    KeepsO s0 (execDoorbell a1 s) := by
  unfold execDoorbell
  with_reducible repeat' first
    | assumption | apply State.receive_keeps | apply State.strike_keeps | apply State.quiet_keeps | apply Keeps.ite | apply KeepsO.next
    | apply KeepsO.ite | split

theorem State.takeAck_keeps {s0 s : State} {a1} (h : Keeps s0 s) :
    Keeps s0 (State.takeAck s a1) := by
  unfold State.takeAck
  with_reducible repeat' first
    | assumption | intro _ | apply State.setFlow_keeps | apply State.bump_keeps | apply State.raiseAt_keeps
    | apply State.poison_keeps | apply State.cutSnapshot_keeps | apply State.pump_keeps | apply Keeps.ite
    | apply Keeps.foldl | split
    | (simp only [Keeps.mk_eq]; refine KeepsMk.of ?_ rfl rfl rfl rfl rfl rfl rfl rfl rfl rfl)

theorem execAckTimer_keeps {s0 s : State} {a1} (h : Keeps s0 s) :
    KeepsO s0 (execAckTimer a1 s) := by
  unfold execAckTimer
  with_reducible repeat' first
    | assumption | (intro _; clear_value x1; revert x1) | intro _ | (unfold x1; clear x1)
    | (extract_lets +onlyGivenNames -merge x1; first | refine Keeps.cut s0 x1 ?_ ?_ | (clear_value x1; revert x1))
    | apply State.quiet_keeps | apply State.sendAck_keeps | apply State.advanceTo_keeps | apply Keeps.ite
    | apply Keeps.foldl | apply KeepsO.next | apply KeepsO.ite | split
    | (simp only [Keeps.mk_eq]; refine KeepsMk.of ?_ rfl rfl rfl rfl rfl rfl rfl rfl rfl rfl)

theorem execRtoExpiry_keeps {s0 s : State} {a1 a2} (h : Keeps s0 s) :
    KeepsO s0 (execRtoExpiry a1 a2 s) := by
  unfold execRtoExpiry
  with_reducible repeat' first
    | assumption | (intro _; clear_value x1; revert x1) | intro _ | (unfold x1; clear x1)
    | (extract_lets +onlyGivenNames -merge x1; first | refine Keeps.cut s0 x1 ?_ ?_ | (clear_value x1; revert x1))
    | apply State.quiet_keeps | apply State.advanceTo_keeps | apply State.setFlow_keeps | apply State.bump_keeps
    | apply State.setObj_keeps | apply State.faultC_keeps | apply State.raiseAt_keeps | apply State.inject_keeps
    | apply Keeps.ite | apply Keeps.foldl | apply KeepsO.next | apply KeepsO.ite | split
    | (simp only [Keeps.mk_eq]; refine KeepsMk.of ?_ rfl rfl rfl rfl rfl rfl rfl rfl rfl rfl)

end Sys2Proof.Machine
end

