-- ==== Sys2Proof/Laws/Keeps/Collect.lean ====
section
/-! SUPPORT. Every operation of Machine/Collect.lean keeps what `Keeps` says. -/

namespace Sys2Proof.Machine

theorem State.contribute_keeps {s0 s : State} {a1 a2 a3 a4} (h : Keeps s0 s) :
    Keeps s0 (State.contribute s a1 a2 a3 a4) := by
  unfold State.contribute
  with_reducible repeat' first
    | assumption | intro _ | apply State.sendMessage_keeps | apply Keeps.ite | apply Keeps.foldl | split
    | (simp only [Keeps.mk_eq]; refine KeepsMk.of ?_ rfl rfl rfl rfl rfl rfl rfl rfl rfl rfl)

end Sys2Proof.Machine
end

