-- ==== Sys2Proof/Laws/Keeps/Matrix.lean ====
section
/-! SUPPORT. Every operation of Machine/Matrix.lean keeps what `Keeps` says. -/

namespace Sys2Proof.Machine

theorem State.loadData_keeps {s0 s : State} {a1 a2 a3} (h : Keeps s0 s) :
    Keeps s0 (State.loadData s a1 a2 a3).1 := by
  unfold State.loadData
  with_reducible repeat' first
    | assumption | (intro _; first | (clear_value x1; revert x1) | subst x1) | intro _ | (unfold x1; clear x1)
    | (extract_lets +onlyGivenNames -merge x1; first | refine Keeps.cut s0 x1 ?_ ?_ | refine Keeps.cut1 s0 x1 ?_ ?_ | refine Keeps.cut2 s0 x1 ?_ ?_ | refine Keeps.cutR s0 x1 ?_ ?_ | (first | refine keepLedger x1 ?_ | refine keepMem x1 ?_ | refine keepPath x1 ?_; subst x1) | (clear_value x1; revert x1) | subst x1)
    | apply State.load_keeps | apply freeBytes_keeps | apply Keeps.ite | apply Keeps.foldl | apply Keeps.ite1
    | apply Keeps.ite2 | apply Keeps.iteR | apply Keeps.elim | apply Keeps.foldl1 | apply Keeps.foldl2 | split
    | (simp only [Keeps.mk_eq]; refine KeepsMk.of ?_ rfl rfl rfl rfl rfl rfl rfl rfl rfl rfl)

theorem State.fillScales_keeps {s0 s : State} {a1 a2} (h : Keeps s0 s) :
    Keeps s0 (State.fillScales s a1 a2).1 := by
  unfold State.fillScales
  with_reducible repeat' first
    | assumption | (intro _; first | (clear_value x1; revert x1) | subst x1) | intro _ | (unfold x1; clear x1)
    | (extract_lets +onlyGivenNames -merge x1; first | refine Keeps.cut s0 x1 ?_ ?_ | refine Keeps.cut1 s0 x1 ?_ ?_ | refine Keeps.cut2 s0 x1 ?_ ?_ | refine Keeps.cutR s0 x1 ?_ ?_ | (first | refine keepLedger x1 ?_ | refine keepMem x1 ?_ | refine keepPath x1 ?_; subst x1) | (clear_value x1; revert x1) | subst x1)
    | apply State.loadData_keeps | apply Keeps.ite | apply Keeps.foldl | apply Keeps.ite1 | apply Keeps.ite2
    | apply Keeps.iteR | apply Keeps.elim | apply Keeps.foldl1 | apply Keeps.foldl2 | split
    | (simp only [Keeps.mk_eq]; refine KeepsMk.of ?_ rfl rfl rfl rfl rfl rfl rfl rfl rfl rfl)

theorem State.fillRow_keeps {s0 s : State} {a1 a2 a3} (h : Keeps s0 s) :
    Keeps s0 (State.fillRow s a1 a2 a3).1 := by
  unfold State.fillRow
  with_reducible repeat' first
    | assumption | (intro _; first | (clear_value x1; revert x1) | subst x1) | intro _ | (unfold x1; clear x1)
    | (extract_lets +onlyGivenNames -merge x1; first | refine Keeps.cut s0 x1 ?_ ?_ | refine Keeps.cut1 s0 x1 ?_ ?_ | refine Keeps.cut2 s0 x1 ?_ ?_ | refine Keeps.cutR s0 x1 ?_ ?_ | (first | refine keepLedger x1 ?_ | refine keepMem x1 ?_ | refine keepPath x1 ?_; subst x1) | (clear_value x1; revert x1) | subst x1)
    | apply State.loadData_keeps | apply State.overflowIf_keeps | apply Keeps.ite | apply Keeps.foldl
    | apply Keeps.ite1 | apply Keeps.ite2 | apply Keeps.iteR | apply Keeps.elim | apply Keeps.foldl1
    | apply Keeps.foldl2 | split
    | (simp only [Keeps.mk_eq]; refine KeepsMk.of ?_ rfl rfl rfl rfl rfl rfl rfl rfl rfl rfl)

theorem State.fillLine_keeps {s0 s : State} {a1 a2 a3} (h : Keeps s0 s) :
    Keeps s0 (State.fillLine s a1 a2 a3).1 := by
  unfold State.fillLine
  with_reducible repeat' first
    | assumption | (intro _; first | (clear_value x1; revert x1) | subst x1) | intro _ | (unfold x1; clear x1)
    | (extract_lets +onlyGivenNames -merge x1; first | refine Keeps.cut s0 x1 ?_ ?_ | refine Keeps.cut1 s0 x1 ?_ ?_ | refine Keeps.cut2 s0 x1 ?_ ?_ | refine Keeps.cutR s0 x1 ?_ ?_ | (first | refine keepLedger x1 ?_ | refine keepMem x1 ?_ | refine keepPath x1 ?_; subst x1) | (clear_value x1; revert x1) | subst x1)
    | apply State.fillScales_keeps | apply State.fillRow_keeps | apply Keeps.ite | apply Keeps.foldl
    | apply Keeps.ite1 | apply Keeps.ite2 | apply Keeps.iteR | apply Keeps.elim | apply Keeps.foldl1
    | apply Keeps.foldl2 | split
    | (simp only [Keeps.mk_eq]; refine KeepsMk.of ?_ rfl rfl rfl rfl rfl rfl rfl rfl rfl rfl)

theorem State.setEng_keeps {s0 s : State} {a1 a2} (h : Keeps s0 s) :
    Keeps s0 (State.setEng s a1 a2) := by
  unfold State.setEng
  with_reducible repeat' first
    | assumption | apply Keeps.ite | split
    | (simp only [Keeps.mk_eq]; refine KeepsMk.of ?_ rfl rfl rfl rfl rfl rfl rfl rfl rfl rfl)

theorem State.putLine_keeps {s0 s : State} {a1 a2 a3 a4} (h : Keeps s0 s) :
    Keeps s0 (State.putLine s a1 a2 a3 a4) := by
  unfold State.putLine
  with_reducible repeat' first
    | assumption | apply State.fillLine_keeps | apply State.setEng_keeps | apply Keeps.ite | split

theorem State.writePage_keeps {s0 s : State} {a1 a2} (h : Keeps s0 s) :
    Keeps s0 (State.writePage s a1 a2) := by
  unfold State.writePage
  with_reducible repeat' first
    | assumption | intro _ | apply State.putLine_keeps | apply State.setEng_keeps | apply Keeps.ite
    | apply Keeps.foldl | split
    | (simp only [Keeps.mk_eq]; refine KeepsMk.of ?_ rfl rfl rfl rfl rfl rfl rfl rfl rfl rfl)

theorem execDrainStart_keeps {s0 s : State} {a1 a2 a3} (h : Keeps s0 s) :
    KeepsO s0 (execDrainStart a1 a2 a3 s) := by
  unfold execDrainStart
  with_reducible repeat' first
    | assumption | apply State.quiet_keeps | apply State.setEng_keeps | apply Keeps.ite | apply KeepsO.next
    | apply KeepsO.ite | split

theorem State.storeScales_keeps {s0 s : State} {a1 a2 a3 a4} (h : Keeps s0 s) :
    Keeps s0 (State.storeScales s a1 a2 a3 a4) := by
  unfold State.storeScales
  with_reducible repeat' first
    | assumption | intro _ | apply State.storeBy_keeps | apply Keeps.ite | apply Keeps.foldl | split
    | (simp only [Keeps.mk_eq]; refine KeepsMk.of ?_ rfl rfl rfl rfl rfl rfl rfl rfl rfl rfl)

theorem State.drainReports_keeps {s0 s : State} {a1 a2 a3 a4 a5} (h : Keeps s0 s) :
    Keeps s0 (State.drainReports s a1 a2 a3 a4 a5) := by
  unfold State.drainReports
  with_reducible repeat' first
    | assumption | apply State.overflowIf_keeps | apply Keeps.ite | split

theorem State.drainVector_keeps {s0 s : State} {a1 a2 a3 a4} (h : Keeps s0 s) :
    Keeps s0 (State.drainVector s a1 a2 a3 a4) := by
  unfold State.drainVector
  with_reducible repeat' first
    | assumption | intro _ | apply State.drainReports_keeps | apply State.setEng_keeps | apply Keeps.ite
    | apply Keeps.foldl | split
    | (simp only [Keeps.mk_eq]; refine KeepsMk.of ?_ rfl rfl rfl rfl rfl rfl rfl rfl rfl rfl)

theorem State.stepBlock_keeps {s0 s : State} {a1} (h : Keeps s0 s) :
    Keeps s0 (State.stepBlock s a1) := by
  unfold State.stepBlock
  with_reducible repeat' first
    | assumption | (intro _; clear_value x1; revert x1) | intro _ | (unfold x1; clear x1)
    | (extract_lets +onlyGivenNames -merge x1; first | refine Keeps.cut s0 x1 ?_ ?_ | (clear_value x1; revert x1))
    | apply State.setEng_keeps | apply State.addObj_keeps | apply Keeps.ite | apply Keeps.foldl | split
    | (simp only [Keeps.mk_eq]; refine KeepsMk.of ?_ rfl rfl rfl rfl rfl rfl rfl rfl rfl rfl)

theorem State.runBlocks_keeps {s0 s : State} {a1 a2} (h : Keeps s0 s) :
    Keeps s0 (State.runBlocks a1 s a2) := by
  induction a1 generalizing s with
  | zero => exact h
  | succ k ih =>
    unfold State.runBlocks
    extract_lets t
    have ht : Keeps s0 t := State.stepBlock_keeps h
    exact Keeps.ite (ih ht) (fun _ => ht)

theorem State.runSlice_keeps {s0 s : State} {a1} (h : Keeps s0 s) :
    Keeps s0 (State.runSlice s a1) := by
  unfold State.runSlice
  with_reducible repeat' first
    | assumption | apply State.runBlocks_keeps | apply Keeps.ite | split

theorem State.beginSlice_keeps {s0 s : State} {a1 a2 a3} (h : Keeps s0 s) :
    Keeps s0 (State.beginSlice s a1 a2 a3) := by
  unfold State.beginSlice
  with_reducible repeat' first
    | assumption | intro _ | apply State.setEng_keeps | apply State.addObj_keeps | apply State.setObj_keeps
    | apply State.runSlice_keeps | apply Keeps.ite | apply Keeps.foldl | split
    | (simp only [Keeps.mk_eq]; refine KeepsMk.of ?_ rfl rfl rfl rfl rfl rfl rfl rfl rfl rfl)

theorem State.drainTally_keeps {s0 s : State} {a1 a2} (h : Keeps s0 s) :
    Keeps s0 (State.drainTally s a1 a2) := by
  unfold State.drainTally
  with_reducible repeat' first
    | assumption | intro _ | apply State.contribute_keeps | apply State.drainReports_keeps
    | apply State.overflowIf_keeps | apply Keeps.ite | apply Keeps.foldl | split
    | (simp only [Keeps.mk_eq]; refine KeepsMk.of ?_ rfl rfl rfl rfl rfl rfl rfl rfl rfl rfl)

theorem State.matrixInvalid_keeps {s0 s : State} {a1 a2 a3} (h : Keeps s0 s) :
    Keeps s0 (State.matrixInvalid s a1 a2 a3) := by
  unfold State.matrixInvalid
  with_reducible repeat' first
    | assumption | apply State.bump_keeps | apply State.setObj_keeps | apply State.raise_keeps
    | apply State.poison_keeps | apply State.setEng_keeps | apply Keeps.ite | split

theorem State.storeRow_keeps {s0 s : State} {a1 a2 a3 a4} (h : Keeps s0 s) :
    Keeps s0 (State.storeRow s a1 a2 a3 a4) := by
  unfold State.storeRow
  with_reducible repeat' first
    | assumption | apply State.storeBy_keeps | apply Keeps.ite | split

theorem State.drainMemory_keeps {s0 s : State} {a1 a2} (h : Keeps s0 s) :
    Keeps s0 (State.drainMemory s a1 a2) := by
  unfold State.drainMemory
  with_reducible repeat' first
    | assumption | intro _ | apply State.storeScales_keeps | apply State.storeRow_keeps | apply State.drainReports_keeps | apply Keeps.ite
    | apply Keeps.foldl | split
    | (simp only [Keeps.mk_eq]; refine KeepsMk.of ?_ rfl rfl rfl rfl rfl rfl rfl rfl rfl rfl)

theorem State.drainFp32_keeps {s0 s : State} {a1 a2} (h : Keeps s0 s) :
    Keeps s0 (State.drainFp32 s a1 a2) := by
  unfold State.drainFp32
  with_reducible repeat' first
    | assumption | intro _ | apply State.contribute_keeps | apply State.drainReports_keeps | apply Keeps.ite
    | apply Keeps.foldl | split
    | (simp only [Keeps.mk_eq]; refine KeepsMk.of ?_ rfl rfl rfl rfl rfl rfl rfl rfl rfl rfl)

theorem execDrainEnd_keeps {s0 s : State} {a1 a2 a3} (h : Keeps s0 s) :
    KeepsO s0 (execDrainEnd a1 a2 a3 s) := by
  unfold execDrainEnd
  with_reducible repeat' first
    | assumption | apply State.overflowIf_keeps | apply State.quiet_keeps | apply State.toCycle_keeps | apply State.drainVector_keeps
    | apply State.drainMemory_keeps | apply State.drainTally_keeps | apply State.drainFp32_keeps
    | apply State.setEng_keeps | apply State.setObj_keeps | apply Keeps.ite | apply KeepsO.next
    | apply KeepsO.ite | split
    | (simp only [Keeps.mk_eq]; refine KeepsMk.of ?_ rfl rfl rfl rfl rfl rfl rfl rfl rfl rfl)

theorem execSliceStart_keeps {s0 s : State} {a1 a2} (h : Keeps s0 s) :
    KeepsO s0 (execSliceStart a1 a2 s) := by
  unfold execSliceStart
  with_reducible repeat' first
    | assumption | (intro _; clear_value x1; revert x1) | intro _ | (unfold x1; clear x1)
    | (extract_lets +onlyGivenNames -merge x1; first | refine Keeps.cut s0 x1 ?_ ?_ | (clear_value x1; revert x1))
    | apply State.toCycle_keeps | apply State.quiet_keeps | apply State.advanceTo_keeps | apply State.matrixInvalid_keeps
    | apply State.setEng_keeps | apply State.beginSlice_keeps | apply Keeps.ite | apply Keeps.foldl
    | apply KeepsO.next | apply KeepsO.ite | split
    | (simp only [Keeps.mk_eq]; refine KeepsMk.of ?_ rfl rfl rfl rfl rfl rfl rfl rfl rfl rfl)

theorem execSliceEnd_keeps {s0 s : State} {a1 a2} (h : Keeps s0 s) :
    KeepsO s0 (execSliceEnd a1 a2 s) := by
  unfold execSliceEnd
  with_reducible repeat' first
    | assumption | (intro _; clear_value x1; revert x1) | intro _ | (unfold x1; clear x1)
    | (extract_lets +onlyGivenNames -merge x1; first | refine Keeps.cut s0 x1 ?_ ?_ | (clear_value x1; revert x1))
    | apply State.quiet_keeps | apply State.toCycle_keeps | apply State.setEng_keeps | apply Keeps.ite
    | apply Keeps.foldl | apply KeepsO.next | apply KeepsO.ite | split
    | (simp only [Keeps.mk_eq]; refine KeepsMk.of ?_ rfl rfl rfl rfl rfl rfl rfl rfl rfl rfl)

theorem execFill_keeps {s0 s : State} {a1 a2 a3} (h : Keeps s0 s) :
    KeepsO s0 (execFill a1 a2 a3 s) := by
  unfold execFill
  with_reducible repeat' first
    | assumption | (intro _; clear_value x1; revert x1) | intro _ | (unfold x1; clear x1)
    | (extract_lets +onlyGivenNames -merge x1; first | refine Keeps.cut s0 x1 ?_ ?_ | (clear_value x1; revert x1))
    | apply State.quiet_keeps | apply State.strike_keeps | apply State.setEng_keeps | apply State.advanceTo_keeps
    | apply State.matrixInvalid_keeps | apply State.runSlice_keeps | apply State.writePage_keeps
    | apply Keeps.ite | apply Keeps.foldl | apply KeepsO.next | apply KeepsO.ite | split
    | (simp only [Keeps.mk_eq]; refine KeepsMk.of ?_ rfl rfl rfl rfl rfl rfl rfl rfl rfl rfl)

end Sys2Proof.Machine
end

