-- ==== Sys2Proof/Laws/Keeps/Vector.lean ====
section
/-! SUPPORT. Every operation of Machine/Vector.lean keeps what `Keeps` says. -/

namespace Sys2Proof.Machine

theorem State.boundExceeded_keeps {s0 s : State} (h : Keeps s0 s) :
    Keeps s0 (State.boundExceeded s) := by
  unfold State.boundExceeded
  with_reducible repeat' first
    | assumption | apply State.raiseWith_keeps | apply State.poison_keeps | apply Keeps.ite | split

theorem State.beginProgram_keeps {s0 s : State} {a1 a2 a3} (h : Keeps s0 s) :
    Keeps s0 (State.beginProgram s a1 a2 a3) := by
  unfold State.beginProgram
  with_reducible repeat' first
    | assumption | apply State.setEng_keeps | apply State.addObj_keeps | apply State.boundExceeded_keeps
    | apply Keeps.ite | split

theorem State.vectorInvalid_keeps {s0 s : State} {a1 a2 a3 a4} (h : Keeps s0 s) :
    Keeps s0 (State.vectorInvalid s a1 a2 a3 a4) := by
  unfold State.vectorInvalid
  with_reducible repeat' first
    | assumption | apply State.bump_keeps | apply State.setObj_keeps | apply State.raise_keeps
    | apply State.poison_keeps | apply State.setEng_keeps | apply Keeps.ite | split

theorem execProgramStart_keeps {s0 s : State} {a1 a2} (h : Keeps s0 s) :
    KeepsO s0 (execProgramStart a1 a2 s) := by
  unfold execProgramStart
  with_reducible repeat' first
    | assumption | (intro _; clear_value x1; revert x1) | intro _ | (unfold x1; clear x1)
    | (extract_lets +onlyGivenNames -merge x1; first | refine Keeps.cut s0 x1 ?_ ?_ | (clear_value x1; revert x1))
    | apply State.toCycle_keeps | apply State.quiet_keeps | apply State.advanceTo_keeps | apply State.beginProgram_keeps
    | apply State.vectorInvalid_keeps | apply State.setEng_keeps | apply Keeps.ite | apply Keeps.foldl
    | apply KeepsO.next | apply KeepsO.ite | split
    | (simp only [Keeps.mk_eq]; refine KeepsMk.of ?_ rfl rfl rfl rfl rfl rfl rfl rfl rfl rfl)

theorem State.sendSums_keeps {s0 s : State} {a1 a2} (h : Keeps s0 s) :
    Keeps s0 (State.sendSums s a1 a2) := by
  unfold State.sendSums
  with_reducible repeat' first
    | assumption | apply Keeps.ite | split
    | (simp only [Keeps.mk_eq]; refine KeepsMk.of ?_ rfl rfl rfl rfl rfl rfl rfl rfl rfl rfl)

theorem State.storeOut_keeps {s0 s : State} {a1 a2} (h : Keeps s0 s) :
    Keeps s0 (State.storeOut s a1 a2) := by
  unfold State.storeOut
  with_reducible repeat' first
    | assumption | intro _ | apply State.storeScales_keeps | apply State.overflowIf_keeps | apply State.storeRow_keeps
    | apply State.contribute_keeps | apply State.storeBy_keeps | apply Keeps.ite | apply Keeps.foldl | split
    | (simp only [Keeps.mk_eq]; refine KeepsMk.of ?_ rfl rfl rfl rfl rfl rfl rfl rfl rfl rfl)

theorem execProgramEnd_keeps {s0 s : State} {a1 a2} (h : Keeps s0 s) :
    KeepsO s0 (execProgramEnd a1 a2 s) := by
  unfold execProgramEnd
  with_reducible repeat' first
    | assumption | (intro _; clear_value x1; revert x1) | intro _ | (unfold x1; clear x1)
    | (extract_lets +onlyGivenNames -merge x1; first | refine Keeps.cut s0 x1 ?_ ?_ | (clear_value x1; revert x1))
    | apply State.quiet_keeps | apply State.toCycle_keeps | apply State.setEng_keeps
    | apply State.contribute_keeps | apply State.sendSums_keeps | apply State.storeOut_keeps | apply Keeps.ite
    | apply Keeps.foldl | apply KeepsO.next | apply KeepsO.ite | split
    | (simp only [Keeps.mk_eq]; refine KeepsMk.of ?_ rfl rfl rfl rfl rfl rfl rfl rfl rfl rfl)

theorem State.loadRow_keeps {s0 s : State} {a1 a2 a3} (h : Keeps s0 s) :
    Keeps s0 (State.loadRow s a1 a2 a3).1 := by
  unfold State.loadRow
  with_reducible repeat' first
    | assumption | apply State.loadData_keeps | apply Keeps.ite | split

theorem State.runVload_keeps {s0 s : State} {a1 a2} (h : Keeps s0 s) :
    Keeps s0 (State.runVload s a1 a2) := by
  unfold State.runVload
  with_reducible repeat' first
    | assumption | (intro _; first | (clear_value x1; revert x1) | subst x1) | intro _ | (unfold x1; clear x1)
    | (extract_lets +onlyGivenNames -merge x1; first | refine Keeps.cut s0 x1 ?_ ?_ | refine Keeps.cut1 s0 x1 ?_ ?_ | refine Keeps.cut2 s0 x1 ?_ ?_ | refine Keeps.cutR s0 x1 ?_ ?_ | (first | refine keepLedger x1 ?_ | refine keepMem x1 ?_ | refine keepPath x1 ?_; subst x1) | (clear_value x1; revert x1) | subst x1)
    | apply State.loadRow_keeps | apply State.setEng_keeps | apply State.loadData_keeps | apply Keeps.ite
    | apply Keeps.foldl | apply Keeps.ite1 | apply Keeps.ite2 | apply Keeps.iteR | apply Keeps.elim
    | apply Keeps.foldl1 | apply Keeps.foldl2 | split
    | (simp only [Keeps.mk_eq]; refine KeepsMk.of ?_ rfl rfl rfl rfl rfl rfl rfl rfl rfl rfl)

theorem execVload_keeps {s0 s : State} {a1 a2} (h : Keeps s0 s) :
    KeepsO s0 (execVload a1 a2 s) := by
  unfold execVload
  with_reducible repeat' first
    | assumption | (intro _; clear_value x1; revert x1) | intro _ | (unfold x1; clear x1)
    | (extract_lets +onlyGivenNames -merge x1; first | refine Keeps.cut s0 x1 ?_ ?_ | (clear_value x1; revert x1))
    | apply State.quiet_keeps | apply State.setEng_keeps | apply State.advanceTo_keeps
    | apply State.vectorInvalid_keeps | apply State.addObj_keeps | apply State.runVload_keeps | apply Keeps.ite
    | apply Keeps.foldl | apply KeepsO.next | apply KeepsO.ite | split
    | (simp only [Keeps.mk_eq]; refine KeepsMk.of ?_ rfl rfl rfl rfl rfl rfl rfl rfl rfl rfl)

end Sys2Proof.Machine
end

