-- ==== Sys2Proof/Laws/Keeps/Granary.lean ====
section
/-! SUPPORT. Every operation of Machine/Granary.lean keeps what `Keeps` says. -/

namespace Sys2Proof.Machine

theorem State.late_keeps {s0 s : State} {a1} (h : Keeps s0 s) :
    Keeps s0 (State.late s a1) := by
  unfold State.late
  with_reducible repeat' first
    | assumption | apply State.setObj_keeps | apply State.bump_keeps | apply State.raise_keeps
    | apply State.poison_keeps | apply Keeps.ite | split

theorem State.setWin_keeps {s0 s : State} {a1 a2} (h : Keeps s0 s) :
    Keeps s0 (State.setWin s a1 a2) := by
  unfold State.setWin
  with_reducible repeat' first
    | assumption | apply Keeps.ite | split
    | (simp only [Keeps.mk_eq]; refine KeepsMk.of ?_ rfl rfl rfl rfl rfl rfl rfl rfl rfl rfl)

theorem State.windowsOverdue_keeps {s0 s : State} {a1} (h : Keeps s0 s) :
    Keeps s0 (State.windowsOverdue s a1) := by
  unfold State.windowsOverdue
  with_reducible repeat' first
    | assumption | intro _ | apply State.setWin_keeps | apply State.raise_keeps | apply State.setObj_keeps
    | apply State.bump_keeps | apply Keeps.ite | apply Keeps.foldl | split
    | (simp only [Keeps.mk_eq]; refine KeepsMk.of ?_ rfl rfl rfl rfl rfl rfl rfl rfl rfl rfl)

theorem State.outReports_keeps {s0 s : State} {a1 a2 a3 a4} (h : Keeps s0 s) :
    Keeps s0 (State.outReports s a1 a2 a3 a4) := by
  unfold State.outReports
  with_reducible repeat' first
    | assumption | apply State.overflowIf_keeps | apply Keeps.ite | split

theorem State.elementTally_keeps {s0 s : State} {a1 a2 a3} (h : Keeps s0 s) :
    Keeps s0 (State.elementTally s a1 a2 a3).1 := by
  unfold State.elementTally
  with_reducible repeat' first
    | assumption | apply State.loadData_keeps | apply Keeps.ite | split

theorem State.outTally_keeps {s0 s : State} {a1 a2 a3} (h : Keeps s0 s) :
    Keeps s0 (State.outTally s a1 a2 a3).1 := by
  unfold State.outTally
  with_reducible repeat' first
    | assumption | apply State.elementTally_keeps | apply Keeps.ite | split

theorem State.windowsDiscard_keeps {s0 s : State} (h : Keeps s0 s) :
    Keeps s0 (State.windowsDiscard s) := by
  unfold State.windowsDiscard
  with_reducible repeat' first
    | assumption | intro _ | apply State.setWin_keeps | apply Keeps.ite | apply Keeps.foldl | split
    | (simp only [Keeps.mk_eq]; refine KeepsMk.of ?_ rfl rfl rfl rfl rfl rfl rfl rfl rfl rfl)

theorem State.completeWindow_keeps {s0 s : State} {a1} (h : Keeps s0 s) :
    Keeps s0 (State.completeWindow s a1) := by
  unfold State.completeWindow
  with_reducible repeat' first
    | assumption | (intro _; clear_value x1; revert x1) | intro _ | (unfold x1; clear x1)
    | (extract_lets +onlyGivenNames -merge x1; first | refine Keeps.cut s0 x1 ?_ ?_ | (clear_value x1; revert x1))
    | apply State.storeBy_keeps | apply State.setWin_keeps | apply State.boundExceeded_keeps
    | apply State.post_keeps | apply Keeps.ite | apply Keeps.foldl | split
    | (simp only [Keeps.mk_eq]; refine KeepsMk.of ?_ rfl rfl rfl rfl rfl rfl rfl rfl rfl rfl)

theorem State.stray_keeps {s0 s : State} {a1 a2} (h : Keeps s0 s) :
    Keeps s0 (State.stray s a1 a2) := by
  unfold State.stray
  with_reducible repeat' first
    | assumption | apply State.setObj_keeps | apply State.bump_keeps | apply State.raise_keeps
    | apply State.poison_keeps | apply Keeps.ite | split

theorem State.enterValue_keeps {s0 s : State} {a1 a2} (h : Keeps s0 s) :
    Keeps s0 (State.enterValue s a1 a2) := by
  unfold State.enterValue
  with_reducible repeat' first
    | assumption | intro _ | apply State.setWin_keeps | apply State.elementTally_keeps
    | apply State.storeBy_keeps | apply Keeps.ite | apply Keeps.foldl | split
    | (simp only [Keeps.mk_eq]; refine KeepsMk.of ?_ rfl rfl rfl rfl rfl rfl rfl rfl rfl rfl)

theorem State.accept_keeps {s0 s : State} {a1 a2 a3} (h : Keeps s0 s) :
    Keeps s0 (State.accept s a1 a2 a3) := by
  unfold State.accept
  with_reducible repeat' first
    | assumption | intro _ | apply State.bump_keeps | apply State.enterValue_keeps | apply State.setWin_keeps
    | apply State.boundExceeded_keeps | apply Keeps.ite | apply Keeps.foldl | split
    | (simp only [Keeps.mk_eq]; refine KeepsMk.of ?_ rfl rfl rfl rfl rfl rfl rfl rfl rfl rfl)

theorem State.takeContribution_keeps {s0 s : State} {a1 a2} (h : Keeps s0 s) :
    Keeps s0 (State.takeContribution s a1 a2) := by
  unfold State.takeContribution
  with_reducible repeat' first
    | assumption | intro _ | apply State.stray_keeps | apply State.bump_keeps | apply State.late_keeps
    | apply State.accept_keeps | apply Keeps.ite | apply Keeps.foldl | split
    | (simp only [Keeps.mk_eq]; refine KeepsMk.of ?_ rfl rfl rfl rfl rfl rfl rfl rfl rfl rfl)

theorem State.windowsWait_keeps {s0 s : State} {a1 a2} (h : Keeps s0 s) :
    Keeps s0 (State.windowsWait s a1 a2) := by
  unfold State.windowsWait
  with_reducible repeat' first
    | assumption | intro _ | apply State.setWin_keeps | apply Keeps.ite | apply Keeps.foldl | split
    | (simp only [Keeps.mk_eq]; refine KeepsMk.of ?_ rfl rfl rfl rfl rfl rfl rfl rfl rfl rfl)

theorem State.windowsOpen_keeps {s0 s : State} {a1} (h : Keeps s0 s) :
    Keeps s0 (State.windowsOpen s a1) := by
  unfold State.windowsOpen
  with_reducible repeat' first
    | assumption | intro _ | apply State.setWin_keeps | apply Keeps.ite | apply Keeps.foldl | split
    | (simp only [Keeps.mk_eq]; refine KeepsMk.of ?_ rfl rfl rfl rfl rfl rfl rfl rfl rfl rfl)

theorem execGranaryContribution_keeps {s0 s : State} {a1 a2} (h : Keeps s0 s) :
    KeepsO s0 (execGranaryContribution a1 a2 s) := by
  unfold execGranaryContribution
  with_reducible repeat' first
    | assumption | (intro _; clear_value x1; revert x1) | intro _ | (unfold x1; clear x1)
    | (extract_lets +onlyGivenNames -merge x1; first | refine Keeps.cut s0 x1 ?_ ?_ | (clear_value x1; revert x1))
    | apply State.quiet_keeps | apply State.takeContribution_keeps | apply Keeps.ite | apply Keeps.foldl
    | apply KeepsO.next | apply KeepsO.ite | split
    | (simp only [Keeps.mk_eq]; refine KeepsMk.of ?_ rfl rfl rfl rfl rfl rfl rfl rfl rfl rfl)

theorem State.outElement_keeps {s0 s : State} {a1 a2 a3 a4} (h : Keeps s0 s) :
    Keeps s0 (State.outElement s a1 a2 a3 a4).1 := by
  unfold State.outElement
  with_reducible repeat' first
    | assumption | apply State.outTally_keeps | apply State.outReports_keeps | apply State.setWin_keeps
    | apply State.storeBy_keeps | apply Keeps.ite | split

theorem State.outChunk_keeps {s0 s : State} {a1 a2 a3 a4} (h : Keeps s0 s) :
    Keeps s0 (State.outChunk s a1 a2 a3 a4).1 := by
  unfold State.outChunk
  with_reducible repeat' first
    | assumption | (intro _; first | (clear_value x1; revert x1) | subst x1) | intro _ | (unfold x1; clear x1)
    | (extract_lets +onlyGivenNames -merge x1; first | refine Keeps.cut s0 x1 ?_ ?_ | refine Keeps.cut1 s0 x1 ?_ ?_ | refine Keeps.cut2 s0 x1 ?_ ?_ | refine Keeps.cutR s0 x1 ?_ ?_ | (first | refine keepLedger x1 ?_ | refine keepMem x1 ?_ | refine keepPath x1 ?_; subst x1) | (clear_value x1; revert x1) | subst x1)
    | apply State.storeBy_keeps | apply State.outElement_keeps | apply Keeps.ite | apply Keeps.foldl
    | apply Keeps.ite1 | apply Keeps.ite2 | apply Keeps.iteR | apply Keeps.elim | apply Keeps.foldl1
    | apply Keeps.foldl2 | split
    | (simp only [Keeps.mk_eq]; refine KeepsMk.of ?_ rfl rfl rfl rfl rfl rfl rfl rfl rfl rfl)

theorem execChunkOutputDone_keeps {s0 s : State} {a1 a2} (h : Keeps s0 s) :
    KeepsO s0 (execChunkOutputDone a1 a2 s) := by
  have hv : ∀ {r : State} (v), Keeps s0 r → Keeps s0 { r with verdicts := r.verdicts ++ v } := by
    intro r v hr
    simp only [Keeps.mk_eq] at hr ⊢
    exact KeepsMk.of hr rfl rfl rfl rfl rfl rfl rfl rfl rfl rfl
  unfold execChunkOutputDone
  extract_lets q n
  have hq : Keeps s0 q := State.quiet_keeps h
  split
  · exact KeepsO.next hq
  · extract_lets ch u r q2 st c q3 q4
    have h2 : Keeps s0 q2 := State.outChunk_keeps hq
    have h3 : Keeps s0 q3 := State.setWin_keeps h2
    have h4 : Keeps s0 q4 := hv _ h3
    split
    · exact KeepsO.next hq
    · split
      · exact KeepsO.next h4
      · split
        · exact KeepsO.next (State.completeWindow_keeps h4)
        · exact KeepsO.next h4

end Sys2Proof.Machine
end

