-- ==== Sys2Proof/Laws/Keeps/Snapshot.lean ====
section
/-! SUPPORT. Every operation of Machine/Snapshot.lean keeps what `Keeps` says. -/

namespace Sys2Proof.Machine

theorem State.sendPiece_keeps {s0 s : State} {a1 a2} (h : Keeps s0 s) :
    Keeps s0 (State.sendPiece s a1 a2) := by
  unfold State.sendPiece
  with_reducible repeat' first
    | assumption | apply State.readPhys_keeps | apply State.meetLines_keeps | apply State.sendMessage_keeps | apply Keeps.ite | split

theorem State.streamPieces_keeps {s0 s : State} {a1} (h : Keeps s0 s) :
    Keeps s0 (State.streamPieces a1 s) := by
  induction a1 generalizing s with
  | zero => exact h
  | succ k ih =>
    unfold State.streamPieces
    split
    · split
      · refine Keeps.ite h (fun _ => ih (State.sendPiece_keeps ?_))
        exact KeepsMk.of h rfl rfl rfl rfl rfl rfl rfl rfl rfl rfl
      · exact h
    · exact h

theorem State.pumpSnapshot_keeps {s0 s : State} (h : Keeps s0 s) :
    Keeps s0 (State.pumpSnapshot s) := by
  unfold State.pumpSnapshot
  with_reducible repeat' first
    | assumption | apply State.streamPieces_keeps | apply Keeps.ite | split

theorem State.startSnapshot_keeps {s0 s : State} {a1} (h : Keeps s0 s) :
    Keeps s0 (State.startSnapshot s a1) := by
  unfold State.startSnapshot
  with_reducible repeat' first
    | assumption | intro _ | apply State.readPhys_keeps | apply State.cutSnapshot_keeps | apply State.setObj_keeps
    | apply State.pumpSnapshot_keeps | apply State.sendMessage_keeps | apply Keeps.ite | apply Keeps.foldl
    | apply Keeps.foldl1 | split | (simp only [Keeps.mk_eq]; refine KeepsMk.of ?_ rfl rfl rfl rfl rfl rfl rfl rfl rfl rfl)

theorem execSnapshotDone_keeps {s0 s : State} (h : Keeps s0 s) :
    KeepsO s0 (execSnapshotDone s) := by
  unfold execSnapshotDone
  with_reducible repeat' first
    | assumption | (intro _; clear_value x1; revert x1) | intro _ | (unfold x1; clear x1)
    | (extract_lets +onlyGivenNames -merge x1; first | refine Keeps.cut s0 x1 ?_ ?_ | (clear_value x1; revert x1))
    | apply State.quiet_keeps | apply State.sendMessage_keeps | apply State.raise_keeps
    | apply State.setObj_keeps | apply Keeps.ite | apply Keeps.foldl | apply KeepsO.next | apply KeepsO.ite
    | split | (simp only [Keeps.mk_eq]; refine KeepsMk.of ?_ rfl rfl rfl rfl rfl rfl rfl rfl rfl rfl)

end Sys2Proof.Machine
end

