-- ==== Sys2Proof/Laws/Keeps/Update.lean ====
section
/-! SUPPORT. Every operation of Machine/Update.lean keeps what `Keeps` says. -/

namespace Sys2Proof.Machine

theorem State.setShard_keeps {s0 s : State} {a1 a2} (h : Keeps s0 s) :
    Keeps s0 (State.setShard s a1 a2) := by
  unfold State.setShard
  with_reducible repeat' first
    | assumption | apply Keeps.ite | split
    | (simp only [Keeps.mk_eq]; refine KeepsMk.of ?_ rfl rfl rfl rfl rfl rfl rfl rfl rfl rfl)

theorem State.setSum_keeps {s0 s : State} {a1 a2} (h : Keeps s0 s) :
    Keeps s0 (State.setSum s a1 a2) := by
  unfold State.setSum
  with_reducible repeat' first
    | assumption | apply Keeps.ite | split
    | (simp only [Keeps.mk_eq]; refine KeepsMk.of ?_ rfl rfl rfl rfl rfl rfl rfl rfl rfl rfl)

theorem State.setEtas_keeps {s0 s : State} (h : Keeps s0 s) :
    Keeps s0 (State.setEtas s) := by
  unfold State.setEtas
  with_reducible repeat' first
    | assumption | apply Keeps.ite | split
    | (simp only [Keeps.mk_eq]; refine KeepsMk.of ?_ rfl rfl rfl rfl rfl rfl rfl rfl rfl rfl)

theorem State.updRead_keeps {s0 s : State} {a1 a2 a3 a4} (h : Keeps s0 s) :
    Keeps s0 (State.updRead s a1 a2 a3 a4).1 := by
  unfold State.updRead
  with_reducible repeat' first
    | assumption | apply State.loadData_keeps | apply Keeps.ite | split

theorem State.updWrite_keeps {s0 s : State} {a1 a2 a3 a4} (h : Keeps s0 s) :
    Keeps s0 (State.updWrite s a1 a2 a3 a4) := by
  unfold State.updWrite
  with_reducible repeat' first
    | assumption | intro _ | apply State.storeBy_keeps | apply Keeps.ite | apply Keeps.foldl | split
    | (simp only [Keeps.mk_eq]; refine KeepsMk.of ?_ rfl rfl rfl rfl rfl rfl rfl rfl rfl rfl)

theorem State.putArray_keeps {s0 s : State} {a1 a2 a3 a4} (h : Keeps s0 s) :
    Keeps s0 (State.putArray s a1 a2 a3 a4) := by
  unfold State.putArray
  with_reducible repeat' first
    | assumption | (intro _; first | (clear_value x1; revert x1) | subst x1) | intro _ | (unfold x1; clear x1)
    | (extract_lets +onlyGivenNames -merge x1; first | refine Keeps.cut s0 x1 ?_ ?_ | refine Keeps.cut1 s0 x1 ?_ ?_ | refine Keeps.cut2 s0 x1 ?_ ?_ | refine Keeps.cutR s0 x1 ?_ ?_ | (first | refine keepLedger x1 ?_ | refine keepMem x1 ?_ | refine keepPath x1 ?_; subst x1) | (clear_value x1; revert x1) | subst x1)
    | apply State.storeBy_keeps | apply State.setShard_keeps | apply Keeps.ite | apply Keeps.foldl
    | apply Keeps.ite1 | apply Keeps.ite2 | apply Keeps.iteR | apply Keeps.elim | apply Keeps.foldl1
    | apply Keeps.foldl2 | split
    | (simp only [Keeps.mk_eq]; refine KeepsMk.of ?_ rfl rfl rfl rfl rfl rfl rfl rfl rfl rfl)

theorem State.neighbour_keeps {s0 s : State} {a1 a2 a3} (h : Keeps s0 s) :
    Keeps s0 (State.neighbour s a1 a2 a3).1 := by
  unfold State.neighbour
  with_reducible repeat' first
    | assumption | (intro _; first | (clear_value x1; revert x1) | subst x1) | intro _ | (unfold x1; clear x1)
    | (extract_lets +onlyGivenNames -merge x1; first | refine Keeps.cut s0 x1 ?_ ?_ | refine Keeps.cut1 s0 x1 ?_ ?_ | refine Keeps.cut2 s0 x1 ?_ ?_ | refine Keeps.cutR s0 x1 ?_ ?_ | (first | refine keepLedger x1 ?_ | refine keepMem x1 ?_ | refine keepPath x1 ?_; subst x1) | (clear_value x1; revert x1) | subst x1)
    | apply State.loadData_keeps | apply Keeps.ite | apply Keeps.foldl | apply Keeps.ite1 | apply Keeps.ite2
    | apply Keeps.iteR | apply Keeps.elim | apply Keeps.foldl1 | apply Keeps.foldl2 | split
    | (simp only [Keeps.mk_eq]; refine KeepsMk.of ?_ rfl rfl rfl rfl rfl rfl rfl rfl rfl rfl)

theorem State.putCopy_keeps {s0 s : State} {a1 a2 a3} (h : Keeps s0 s) :
    Keeps s0 (State.putCopy s a1 a2 a3) := by
  unfold State.putCopy
  with_reducible repeat' first
    | assumption | (intro _; first | (clear_value x1; revert x1) | subst x1) | intro _ | (unfold x1; clear x1)
    | (extract_lets +onlyGivenNames -merge x1; first | refine Keeps.cut s0 x1 ?_ ?_ | refine Keeps.cut1 s0 x1 ?_ ?_ | refine Keeps.cut2 s0 x1 ?_ ?_ | refine Keeps.cutR s0 x1 ?_ ?_ | (first | refine keepLedger x1 ?_ | refine keepMem x1 ?_ | refine keepPath x1 ?_; subst x1) | (clear_value x1; revert x1) | subst x1)
    | apply State.putArray_keeps | apply State.neighbour_keeps | apply Keeps.ite | apply Keeps.foldl
    | apply Keeps.ite1 | apply Keeps.ite2 | apply Keeps.iteR | apply Keeps.elim | apply Keeps.foldl1
    | apply Keeps.foldl2 | split
    | (simp only [Keeps.mk_eq]; refine KeepsMk.of ?_ rfl rfl rfl rfl rfl rfl rfl rfl rfl rfl)

theorem State.copyRun_keeps {s0 s : State} {a1 a2 a3} (h : Keeps s0 s) :
    Keeps s0 (State.copyRun s a1 a2 a3) := by
  unfold State.copyRun
  with_reducible repeat' first
    | assumption | (intro _; first | (clear_value x1; revert x1) | subst x1) | intro _ | (unfold x1; clear x1)
    | (extract_lets +onlyGivenNames -merge x1; first | refine Keeps.cut s0 x1 ?_ ?_ | refine Keeps.cut1 s0 x1 ?_ ?_ | refine Keeps.cut2 s0 x1 ?_ ?_ | refine Keeps.cutR s0 x1 ?_ ?_ | (first | refine keepLedger x1 ?_ | refine keepMem x1 ?_ | refine keepPath x1 ?_; subst x1) | (clear_value x1; revert x1) | subst x1)
    | apply State.overflowIf_keeps | apply State.storeScales_keeps | apply State.putCopy_keeps | apply Keeps.ite
    | apply Keeps.foldl | apply Keeps.ite1 | apply Keeps.ite2 | apply Keeps.iteR | apply Keeps.elim
    | apply Keeps.foldl1 | apply Keeps.foldl2 | split
    | (simp only [Keeps.mk_eq]; refine KeepsMk.of ?_ rfl rfl rfl rfl rfl rfl rfl rfl rfl rfl)

theorem State.blockValue_keeps {s0 s : State} {a1 a2} (h : Keeps s0 s) :
    Keeps s0 (State.blockValue s a1 a2).1 := by
  unfold State.blockValue
  with_reducible repeat' first
    | assumption | (intro _; first | (clear_value x1; revert x1) | subst x1) | intro _ | (unfold x1; clear x1)
    | (extract_lets +onlyGivenNames -merge x1; first | refine Keeps.cut s0 x1 ?_ ?_ | refine Keeps.cut1 s0 x1 ?_ ?_ | refine Keeps.cut2 s0 x1 ?_ ?_ | refine Keeps.cutR s0 x1 ?_ ?_ | (first | refine keepLedger x1 ?_ | refine keepMem x1 ?_ | refine keepPath x1 ?_; subst x1) | (clear_value x1; revert x1) | subst x1)
    | apply State.updRead_keeps | apply Keeps.ite | apply Keeps.foldl | apply Keeps.ite1 | apply Keeps.ite2
    | apply Keeps.iteR | apply Keeps.elim | apply Keeps.foldl1 | apply Keeps.foldl2 | split
    | (simp only [Keeps.mk_eq]; refine KeepsMk.of ?_ rfl rfl rfl rfl rfl rfl rfl rfl rfl rfl)

theorem State.copyBlock_keeps {s0 s : State} {a1 a2} (h : Keeps s0 s) :
    Keeps s0 (State.copyBlock s a1 a2) := by
  unfold State.copyBlock
  with_reducible repeat' first
    | assumption | (intro _; first | (clear_value x1; revert x1) | subst x1) | intro _ | (unfold x1; clear x1)
    | (extract_lets +onlyGivenNames -merge x1; first | refine Keeps.cut s0 x1 ?_ ?_ | refine Keeps.cut1 s0 x1 ?_ ?_ | refine Keeps.cut2 s0 x1 ?_ ?_ | refine Keeps.cutR s0 x1 ?_ ?_ | (first | refine keepLedger x1 ?_ | refine keepMem x1 ?_ | refine keepPath x1 ?_; subst x1) | (clear_value x1; revert x1) | subst x1)
    | apply State.copyRun_keeps | apply State.blockValue_keeps | apply Keeps.ite | apply Keeps.foldl
    | apply Keeps.ite1 | apply Keeps.ite2 | apply Keeps.iteR | apply Keeps.elim | apply Keeps.foldl1
    | apply Keeps.foldl2 | split
    | (simp only [Keeps.mk_eq]; refine KeepsMk.of ?_ rfl rfl rfl rfl rfl rfl rfl rfl rfl rfl)

theorem State.updCopy_keeps {s0 s : State} {a1 a2 a3} (h : Keeps s0 s) :
    Keeps s0 (State.updCopy s a1 a2 a3) := by
  unfold State.updCopy
  with_reducible repeat' first
    | assumption | intro _ | apply State.setShard_keeps | apply State.copyRun_keeps | apply State.copyBlock_keeps | apply State.overflowIf_keeps | apply Keeps.ite
    | apply Keeps.foldl | split
    | (simp only [Keeps.mk_eq]; refine KeepsMk.of ?_ rfl rfl rfl rfl rfl rfl rfl rfl rfl rfl)

theorem State.elemsIn_keeps {s0 s : State} {a1 a2 a3} (h : Keeps s0 s) :
    Keeps s0 (State.elemsIn s a1 a2 a3).1 := by
  unfold State.elemsIn
  with_reducible repeat' first
    | assumption | (intro _; first | (clear_value x1; revert x1) | subst x1) | intro _ | (unfold x1; clear x1)
    | (extract_lets +onlyGivenNames -merge x1; first | refine Keeps.cut s0 x1 ?_ ?_ | refine Keeps.cut1 s0 x1 ?_ ?_ | refine Keeps.cut2 s0 x1 ?_ ?_ | refine Keeps.cutR s0 x1 ?_ ?_ | (first | refine keepLedger x1 ?_ | refine keepMem x1 ?_ | refine keepPath x1 ?_; subst x1) | (clear_value x1; revert x1) | subst x1)
    | apply State.updRead_keeps | apply Keeps.ite | apply Keeps.foldl | apply Keeps.ite1 | apply Keeps.ite2
    | apply Keeps.iteR | apply Keeps.elim | apply Keeps.foldl1 | apply Keeps.foldl2 | split
    | (simp only [Keeps.mk_eq]; refine KeepsMk.of ?_ rfl rfl rfl rfl rfl rfl rfl rfl rfl rfl)

theorem State.updRun_keeps {s0 s : State} {a1 a2 a3 a4} (h : Keeps s0 s) :
    Keeps s0 (State.updRun s a1 a2 a3 a4) := by
  unfold State.updRun
  with_reducible repeat' first
    | assumption | (intro _; first | (clear_value x1; revert x1) | subst x1) | intro _ | (unfold x1; clear x1)
    | (extract_lets +onlyGivenNames -merge x1; first | refine Keeps.cut s0 x1 ?_ ?_ | refine Keeps.cut1 s0 x1 ?_ ?_ | refine Keeps.cut2 s0 x1 ?_ ?_ | refine Keeps.cutR s0 x1 ?_ ?_ | (first | refine keepLedger x1 ?_ | refine keepMem x1 ?_ | refine keepPath x1 ?_; subst x1) | (clear_value x1; revert x1) | subst x1)
    | apply State.overflowIf_keeps | apply State.updWrite_keeps | apply State.setSum_keeps | apply State.putArray_keeps | apply State.elemsIn_keeps | apply State.updElement_keeps | apply State.updCopy_keeps | apply Keeps.ite | apply Keeps.foldl
    | apply Keeps.ite1 | apply Keeps.ite2 | apply Keeps.iteR | apply Keeps.elim | apply Keeps.foldl1
    | apply Keeps.foldl2 | split
    | (simp only [Keeps.mk_eq]; refine KeepsMk.of ?_ rfl rfl rfl rfl rfl rfl rfl rfl rfl rfl)

theorem State.lagBit_keeps {s0 s : State} {a1 a2} (h : Keeps s0 s) :
    Keeps s0 (State.lagBit s a1 a2).1 := by
  unfold State.lagBit
  with_reducible repeat' first
    | assumption | apply State.loadData_keeps | apply Keeps.ite | split

theorem State.carryRun_keeps {s0 s : State} {a1 a2 a3 a4} (h : Keeps s0 s) :
    Keeps s0 (State.carryRun s a1 a2 a3 a4) := by
  unfold State.carryRun
  with_reducible repeat' first
    | assumption | (intro _; first | (clear_value x1; revert x1) | subst x1) | intro _ | (unfold x1; clear x1)
    | (extract_lets +onlyGivenNames -merge x1; first | refine Keeps.cut s0 x1 ?_ ?_ | refine Keeps.cut1 s0 x1 ?_ ?_ | refine Keeps.cut2 s0 x1 ?_ ?_ | refine Keeps.cutR s0 x1 ?_ ?_ | (first | refine keepLedger x1 ?_ | refine keepMem x1 ?_ | refine keepPath x1 ?_; subst x1) | (clear_value x1; revert x1) | subst x1)
    | apply State.updWrite_keeps | apply State.updRead_keeps | apply Keeps.ite | apply Keeps.foldl
    | apply Keeps.ite1 | apply Keeps.ite2 | apply Keeps.iteR | apply Keeps.elim | apply Keeps.foldl1
    | apply Keeps.foldl2 | split
    | (simp only [Keeps.mk_eq]; refine KeepsMk.of ?_ rfl rfl rfl rfl rfl rfl rfl rfl rfl rfl)

theorem State.carryElems_keeps {s0 s : State} {a1 a2 a3} (h : Keeps s0 s) :
    Keeps s0 (State.carryElems s a1 a2 a3) := by
  unfold State.carryElems
  with_reducible repeat' first
    | assumption | (intro _; first | (clear_value x1; revert x1) | subst x1) | intro _ | (unfold x1; clear x1)
    | (extract_lets +onlyGivenNames -merge x1; first | refine Keeps.cut s0 x1 ?_ ?_ | refine Keeps.cut1 s0 x1 ?_ ?_ | refine Keeps.cut2 s0 x1 ?_ ?_ | refine Keeps.cutR s0 x1 ?_ ?_ | (first | refine keepLedger x1 ?_ | refine keepMem x1 ?_ | refine keepPath x1 ?_; subst x1) | (clear_value x1; revert x1) | subst x1)
    | apply State.loadData_keeps | apply State.storeScales_keeps | apply State.putCopy_keeps | apply Keeps.ite
    | apply Keeps.foldl | apply Keeps.ite1 | apply Keeps.ite2 | apply Keeps.iteR | apply Keeps.elim
    | apply Keeps.foldl1 | apply Keeps.foldl2 | split
    | (simp only [Keeps.mk_eq]; refine KeepsMk.of ?_ rfl rfl rfl rfl rfl rfl rfl rfl rfl rfl)

theorem State.carryRow_keeps {s0 s : State} {a1 a2} (h : Keeps s0 s) :
    Keeps s0 (State.carryRow s a1 a2) := by
  unfold State.carryRow
  with_reducible repeat' first
    | assumption | (intro _; first | (clear_value x1; revert x1) | subst x1) | intro _ | (unfold x1; clear x1)
    | (extract_lets +onlyGivenNames -merge x1; first | refine Keeps.cut s0 x1 ?_ ?_ | refine Keeps.cut1 s0 x1 ?_ ?_ | refine Keeps.cut2 s0 x1 ?_ ?_ | refine Keeps.cutR s0 x1 ?_ ?_ | (first | refine keepLedger x1 ?_ | refine keepMem x1 ?_ | refine keepPath x1 ?_; subst x1) | (clear_value x1; revert x1) | subst x1)
    | apply State.updRead_keeps | apply State.putArray_keeps | apply State.copyBlock_keeps
    | apply State.carryRun_keeps | apply State.carryElems_keeps | apply Keeps.ite | apply Keeps.foldl
    | apply Keeps.ite1 | apply Keeps.ite2 | apply Keeps.iteR | apply Keeps.elim | apply Keeps.foldl1
    | apply Keeps.foldl2 | split
    | (simp only [Keeps.mk_eq]; refine KeepsMk.of ?_ rfl rfl rfl rfl rfl rfl rfl rfl rfl rfl)

theorem State.updRow_keeps {s0 s : State} {a1 a2} (h : Keeps s0 s) :
    Keeps s0 (State.updRow s a1 a2) := by
  unfold State.updRow
  extract_lets n mark td dn c s1 t gs s2 l
  have hm : ∀ x, Keeps s0 x → Keeps s0 (mark x) := fun x hx => State.setShard_keeps hx
  have hc : Keeps s0 c.1 := State.updRead_keeps h
  have h2 : Keeps s0 s2 := State.updRun_keeps hc
  have hl : Keeps s0 l.1 := State.lagBit_keeps h
  split
  · exact hm _ (State.updWrite_keeps h2)
  · exact Keeps.ite hl (fun k => hm _ (State.carryRow_keeps k))

theorem State.updRows_keeps {s0 s : State} {a1 a2} (h : Keeps s0 s) :
    Keeps s0 (State.updRows s a1 a2) := by
  unfold State.updRows
  with_reducible repeat' first
    | assumption | intro _ | apply State.updRow_keeps | apply State.setShard_keeps | apply Keeps.ite
    | apply Keeps.foldl | split
    | (simp only [Keeps.mk_eq]; refine KeepsMk.of ?_ rfl rfl rfl rfl rfl rfl rfl rfl rfl rfl)

theorem State.sendGather_keeps {s0 s : State} {a1 a2} (h : Keeps s0 s) :
    Keeps s0 (State.sendGather s a1 a2) := by
  unfold State.sendGather
  with_reducible repeat' first
    | assumption | intro _ | apply State.loadData_keeps | apply State.sendMessage_keeps | apply Keeps.ite
    | apply Keeps.foldl | split
    | (simp only [Keeps.mk_eq]; refine KeepsMk.of ?_ rfl rfl rfl rfl rfl rfl rfl rfl rfl rfl)

theorem State.settleShard_keeps {s0 s : State} {a1} (h : Keeps s0 s) :
    Keeps s0 (State.settleShard s a1) := by
  unfold State.settleShard
  with_reducible repeat' first
    | assumption | intro _ | apply State.setShard_keeps | apply State.completeWindow_keeps | apply Keeps.ite
    | apply Keeps.foldl | split
    | (simp only [Keeps.mk_eq]; refine KeepsMk.of ?_ rfl rfl rfl rfl rfl rfl rfl rfl rfl rfl)

theorem State.settleShards_keeps {s0 s : State} (h : Keeps s0 s) :
    Keeps s0 (State.settleShards s) := by
  unfold State.settleShards
  with_reducible repeat' first
    | assumption | intro _ | apply State.settleShard_keeps | apply Keeps.ite | apply Keeps.foldl | split
    | (simp only [Keeps.mk_eq]; refine KeepsMk.of ?_ rfl rfl rfl rfl rfl rfl rfl rfl rfl rfl)

theorem State.shardWritten_keeps {s0 s : State} {a1} (h : Keeps s0 s) :
    Keeps s0 (State.shardWritten s a1) := by
  unfold State.shardWritten
  with_reducible repeat' first
    | assumption | intro _ | apply State.storeBy_keeps | apply State.setShard_keeps
    | apply State.settleShard_keeps | apply State.sendGather_keeps | apply Keeps.ite | apply Keeps.foldl | split
    | (simp only [Keeps.mk_eq]; refine KeepsMk.of ?_ rfl rfl rfl rfl rfl rfl rfl rfl rfl rfl)

theorem State.expectUpdate_keeps {s0 s : State} {a1} (h : Keeps s0 s) :
    Keeps s0 (State.expectUpdate s a1) := by
  unfold State.expectUpdate
  with_reducible repeat' first
    | assumption | apply Keeps.ite | split
    | (simp only [Keeps.mk_eq]; refine KeepsMk.of ?_ rfl rfl rfl rfl rfl rfl rfl rfl rfl rfl)

theorem State.takeChunk_keeps {s0 s : State} {a1 a2} (h : Keeps s0 s) :
    Keeps s0 (State.takeChunk s a1 a2) := by
  unfold State.takeChunk
  with_reducible repeat' first
    | assumption | intro _ | apply State.setShard_keeps | apply State.updRows_keeps | apply State.updRun_keeps
    | apply State.expectUpdate_keeps | apply State.shardWritten_keeps | apply Keeps.ite | apply Keeps.foldl
    | split | (simp only [Keeps.mk_eq]; refine KeepsMk.of ?_ rfl rfl rfl rfl rfl rfl rfl rfl rfl rfl)

theorem execUpdateChunk_keeps {s0 s : State} {a1 a2} (h : Keeps s0 s) :
    KeepsO s0 (execUpdateChunk a1 a2 s) := by
  unfold execUpdateChunk
  with_reducible repeat' first
    | assumption | (intro _; clear_value x1; revert x1) | intro _ | (unfold x1; clear x1)
    | (extract_lets +onlyGivenNames -merge x1; first | refine Keeps.cut s0 x1 ?_ ?_ | (clear_value x1; revert x1))
    | apply State.quiet_keeps | apply State.takeChunk_keeps | apply Keeps.ite | apply Keeps.foldl
    | apply KeepsO.next | apply KeepsO.ite | split
    | (simp only [Keeps.mk_eq]; refine KeepsMk.of ?_ rfl rfl rfl rfl rfl rfl rfl rfl rfl rfl)

theorem State.loadWords_keeps {s0 s : State} {a1 a2 a3} (h : Keeps s0 s) :
    Keeps s0 (State.loadWords s a1 a2 a3).1 := by
  unfold State.loadWords
  with_reducible repeat' first
    | assumption | (intro _; first | (clear_value x1; revert x1) | subst x1) | intro _ | (unfold x1; clear x1)
    | (extract_lets +onlyGivenNames -merge x1; first | refine Keeps.cut s0 x1 ?_ ?_ | refine Keeps.cut1 s0 x1 ?_ ?_ | refine Keeps.cut2 s0 x1 ?_ ?_ | refine Keeps.cutR s0 x1 ?_ ?_ | (first | refine keepLedger x1 ?_ | refine keepMem x1 ?_ | refine keepPath x1 ?_; subst x1) | (clear_value x1; revert x1) | subst x1)
    | apply State.loadData_keeps | apply Keeps.ite | apply Keeps.foldl | apply Keeps.ite1 | apply Keeps.ite2
    | apply Keeps.iteR | apply Keeps.elim | apply Keeps.foldl1 | apply Keeps.foldl2 | split
    | (simp only [Keeps.mk_eq]; refine KeepsMk.of ?_ rfl rfl rfl rfl rfl rfl rfl rfl rfl rfl)

theorem State.drawBudget_keeps {s0 s : State} {a1 a2 a3 a4 a5 a6} (h : Keeps s0 s) :
    Keeps s0 (State.drawBudget s a1 a2 a3 a4 a5 a6).1 := by
  unfold State.drawBudget
  with_reducible repeat' first
    | assumption | (intro _; first | (clear_value x1; revert x1) | subst x1) | intro _ | (unfold x1; clear x1)
    | (extract_lets +onlyGivenNames -merge x1; first | refine Keeps.cut s0 x1 ?_ ?_ | refine Keeps.cut1 s0 x1 ?_ ?_ | refine Keeps.cut2 s0 x1 ?_ ?_ | refine Keeps.cutR s0 x1 ?_ ?_ | (first | refine keepLedger x1 ?_ | refine keepMem x1 ?_ | refine keepPath x1 ?_; subst x1) | (clear_value x1; revert x1) | subst x1)
    | apply State.setShard_keeps | apply Keeps.ite | apply Keeps.foldl | apply Keeps.ite1 | apply Keeps.ite2
    | apply Keeps.iteR | apply Keeps.elim | apply Keeps.foldl1 | apply Keeps.foldl2 | split
    | (simp only [Keeps.mk_eq]; refine KeepsMk.of ?_ rfl rfl rfl rfl rfl rfl rfl rfl rfl rfl)

theorem State.matTile_keeps {s0 s : State} {a1 a2 a3 a4} (h : Keeps s0 s) :
    Keeps s0 (State.matTile s a1 a2 a3 a4).1 := by
  unfold State.matTile
  with_reducible repeat' first
    | assumption | (intro _; first | (clear_value x1; revert x1) | subst x1) | intro _ | (unfold x1; clear x1)
    | (extract_lets +onlyGivenNames -merge x1; first | refine Keeps.cut s0 x1 ?_ ?_ | refine Keeps.cut1 s0 x1 ?_ ?_ | refine Keeps.cut2 s0 x1 ?_ ?_ | refine Keeps.cutR s0 x1 ?_ ?_ | (first | refine keepLedger x1 ?_ | refine keepMem x1 ?_ | refine keepPath x1 ?_; subst x1) | (clear_value x1; revert x1) | subst x1)
    | apply State.drawBudget_keeps | apply State.boundExceeded_keeps | apply State.setEng_keeps | apply State.drainReports_keeps | apply State.setObj_keeps | apply State.overflowIf_keeps | apply Keeps.ite | apply Keeps.foldl | apply Keeps.ite1 | apply Keeps.ite2
    | apply Keeps.iteR | apply Keeps.elim | apply Keeps.foldl1 | apply Keeps.foldl2 | split
    | (simp only [Keeps.mk_eq]; refine KeepsMk.of ?_ rfl rfl rfl rfl rfl rfl rfl rfl rfl rfl)

theorem State.drainProduct_keeps {s0 s : State} {a1 a2} (h : Keeps s0 s) :
    Keeps s0 (State.drainProduct s a1 a2) := by
  unfold State.drainProduct
  with_reducible repeat' first
    | assumption | (intro _; first | (clear_value x1; revert x1) | subst x1) | intro _ | (unfold x1; clear x1)
    | (extract_lets +onlyGivenNames -merge x1; first | refine Keeps.cut s0 x1 ?_ ?_ | refine Keeps.cut1 s0 x1 ?_ ?_ | refine Keeps.cut2 s0 x1 ?_ ?_ | refine Keeps.cutR s0 x1 ?_ ?_ | (first | refine keepLedger x1 ?_ | refine keepMem x1 ?_ | refine keepPath x1 ?_; subst x1) | (clear_value x1; revert x1) | subst x1)
    | apply State.storeBy_keeps | apply Keeps.ite | apply Keeps.foldl | apply Keeps.ite1 | apply Keeps.ite2
    | apply Keeps.iteR | apply Keeps.elim | apply Keeps.foldl1 | apply Keeps.foldl2 | split
    | (simp only [Keeps.mk_eq]; refine KeepsMk.of ?_ rfl rfl rfl rfl rfl rfl rfl rfl rfl rfl)

theorem State.matMul_keeps {s0 s : State} {a1 a2} (h : Keeps s0 s) :
    Keeps s0 (State.matMul s a1 a2) := by
  unfold State.matMul
  with_reducible repeat' first
    | assumption | (intro _; first | (clear_value x1; revert x1) | subst x1) | intro _ | (unfold x1; clear x1)
    | (extract_lets +onlyGivenNames -merge x1; first | refine Keeps.cut s0 x1 ?_ ?_ | refine Keeps.cut1 s0 x1 ?_ ?_ | refine Keeps.cut2 s0 x1 ?_ ?_ | refine Keeps.cutR s0 x1 ?_ ?_ | (first | refine keepLedger x1 ?_ | refine keepMem x1 ?_ | refine keepPath x1 ?_; subst x1) | (clear_value x1; revert x1) | subst x1)
    | apply State.overflowIf_keeps | apply State.drainProduct_keeps | apply State.matTile_keeps | apply Keeps.ite | apply Keeps.foldl | apply Keeps.ite1 | apply Keeps.ite2
    | apply Keeps.iteR | apply Keeps.elim | apply Keeps.foldl1 | apply Keeps.foldl2 | split
    | (simp only [Keeps.mk_eq]; refine KeepsMk.of ?_ rfl rfl rfl rfl rfl rfl rfl rfl rfl rfl)

theorem State.passOne_keeps {s0 s : State} {a1} (h : Keeps s0 s) :
    Keeps s0 (State.passOne s a1) := by
  unfold State.passOne
  with_reducible repeat' first
    | assumption | (intro _; first | (clear_value x1; revert x1) | subst x1) | intro _ | (unfold x1; clear x1)
    | (extract_lets +onlyGivenNames -merge x1; first | refine Keeps.cut s0 x1 ?_ ?_ | refine Keeps.cut1 s0 x1 ?_ ?_ | refine Keeps.cut2 s0 x1 ?_ ?_ | refine Keeps.cutR s0 x1 ?_ ?_ | (first | refine keepLedger x1 ?_ | refine keepMem x1 ?_ | refine keepPath x1 ?_; subst x1) | (clear_value x1; revert x1) | subst x1)
    | apply State.elemsIn_keeps | apply State.elemIn_keeps | apply State.updWrite_keeps | apply State.storeBy_keeps
    | apply State.overflowIf_keeps | apply State.setShard_keeps | apply Keeps.ite | apply Keeps.foldl
    | apply Keeps.ite1 | apply Keeps.ite2 | apply Keeps.iteR | apply Keeps.elim | apply Keeps.foldl1
    | apply Keeps.foldl2 | split
    | (simp only [Keeps.mk_eq]; refine KeepsMk.of ?_ rfl rfl rfl rfl rfl rfl rfl rfl rfl rfl)

theorem State.passP_keeps {s0 s : State} {a1} (h : Keeps s0 s) :
    Keeps s0 (State.passP s a1) := by
  unfold State.passP
  with_reducible repeat' first
    | assumption | apply State.storeBy_keeps | apply State.loadWords_keeps | apply State.setShard_keeps | apply State.overflowIf_keeps | apply Keeps.ite | split

theorem State.phaseProduct_keeps {s0 s : State} {a1} (h : Keeps s0 s) :
    Keeps s0 (State.phaseProduct s a1).1 := by
  unfold State.phaseProduct
  with_reducible repeat' first
    | assumption | (intro _; first | (clear_value x1; revert x1) | subst x1) | intro _ | (unfold x1; clear x1)
    | (extract_lets +onlyGivenNames -merge x1; first | refine Keeps.cut s0 x1 ?_ ?_ | refine Keeps.cut1 s0 x1 ?_ ?_ | refine Keeps.cut2 s0 x1 ?_ ?_ | refine Keeps.cutR s0 x1 ?_ ?_ | (first | refine keepLedger x1 ?_ | refine keepMem x1 ?_ | refine keepPath x1 ?_; subst x1) | (clear_value x1; revert x1) | subst x1)
    | apply State.loadWords_keeps | apply Keeps.ite | apply Keeps.foldl | apply Keeps.ite1 | apply Keeps.ite2
    | apply Keeps.iteR | apply Keeps.elim | apply Keeps.foldl1 | apply Keeps.foldl2 | split
    | (simp only [Keeps.mk_eq]; refine KeepsMk.of ?_ rfl rfl rfl rfl rfl rfl rfl rfl rfl rfl)

theorem State.iterate_keeps {s0 s : State} {a1} (h : Keeps s0 s) :
    Keeps s0 (State.iterate s a1) := by
  unfold State.iterate
  with_reducible repeat' first
    | assumption | intro _ | apply State.phaseProduct_keeps | apply State.matMul_keeps | apply State.setShard_keeps | apply State.passP_keeps
    | apply Keeps.ite | apply Keeps.foldl | split
    | (simp only [Keeps.mk_eq]; refine KeepsMk.of ?_ rfl rfl rfl rfl rfl rfl rfl rfl rfl rfl)

theorem State.bankShard_keeps {s0 s : State} {a1} (h : Keeps s0 s) :
    Keeps s0 (State.bankShard s a1) := by
  unfold State.bankShard
  with_reducible repeat' first
    | assumption | (intro _; first | (clear_value x1; revert x1) | subst x1) | intro _ | (unfold x1; clear x1)
    | (extract_lets +onlyGivenNames -merge x1; first | refine Keeps.cut s0 x1 ?_ ?_ | refine Keeps.cut1 s0 x1 ?_ ?_ | refine Keeps.cut2 s0 x1 ?_ ?_ | refine Keeps.cutR s0 x1 ?_ ?_ | (first | refine keepLedger x1 ?_ | refine keepMem x1 ?_ | refine keepPath x1 ?_; subst x1) | (clear_value x1; revert x1) | subst x1)
    | apply State.setShard_keeps | apply Keeps.ite | apply Keeps.foldl | apply Keeps.ite1 | apply Keeps.ite2
    | apply Keeps.iteR | apply Keeps.elim | apply Keeps.foldl1 | apply Keeps.foldl2 | split
    | (simp only [Keeps.mk_eq]; refine KeepsMk.of ?_ rfl rfl rfl rfl rfl rfl rfl rfl rfl rfl)

theorem State.bankShards_keeps {s0 s : State} (h : Keeps s0 s) :
    Keeps s0 (State.bankShards s) := by
  unfold State.bankShards
  with_reducible repeat' first
    | assumption | intro _ | apply State.bankShard_keeps | apply Keeps.ite | apply Keeps.foldl | split
    | (simp only [Keeps.mk_eq]; refine KeepsMk.of ?_ rfl rfl rfl rfl rfl rfl rfl rfl rfl rfl)

theorem State.passTwo_keeps {s0 s : State} {a1} (h : Keeps s0 s) :
    Keeps s0 (State.passTwo s a1) := by
  unfold State.passTwo
  with_reducible repeat' first
    | assumption | apply State.loadWords_keeps | apply State.updRun_keeps | apply State.shardWritten_keeps | apply State.expectUpdate_keeps
    | apply Keeps.ite | split

theorem execShardPhaseDone_keeps {s0 s : State} {a1} (h : Keeps s0 s) :
    KeepsO s0 (execShardPhaseDone a1 s) := by
  unfold execShardPhaseDone
  with_reducible repeat' first
    | assumption | (intro _; clear_value x1; revert x1) | intro _ | (unfold x1; clear x1)
    | (extract_lets +onlyGivenNames -merge x1; first | refine Keeps.cut s0 x1 ?_ ?_ | (clear_value x1; revert x1))
    | apply State.quiet_keeps | apply State.passOne_keeps | apply State.iterate_keeps
    | apply State.passTwo_keeps | apply Keeps.ite | apply Keeps.foldl | apply KeepsO.next | apply KeepsO.ite
    | split | (simp only [Keeps.mk_eq]; refine KeepsMk.of ?_ rfl rfl rfl rfl rfl rfl rfl rfl rfl rfl)

theorem State.shardsWait_keeps {s0 s : State} (h : Keeps s0 s) :
    Keeps s0 (State.shardsWait s) := by
  unfold State.shardsWait
  with_reducible repeat' first
    | assumption | intro _ | apply State.setShard_keeps | apply Keeps.ite | apply Keeps.foldl | split
    | (simp only [Keeps.mk_eq]; refine KeepsMk.of ?_ rfl rfl rfl rfl rfl rfl rfl rfl rfl rfl)

theorem State.shardsDiscard_keeps {s0 s : State} (h : Keeps s0 s) :
    Keeps s0 (State.shardsDiscard s) := by
  unfold State.shardsDiscard
  with_reducible repeat' first
    | assumption | apply Keeps.ite | split
    | (simp only [Keeps.mk_eq]; refine KeepsMk.of ?_ rfl rfl rfl rfl rfl rfl rfl rfl rfl rfl)

theorem State.publishGroup_keeps {s0 s : State} {a1} (h : Keeps s0 s) :
    Keeps s0 (State.publishGroup s a1) := by
  unfold State.publishGroup
  with_reducible repeat' first
    | assumption | intro _ | apply State.setObj_keeps | apply State.bump_keeps | apply State.raise_keeps
    | apply Keeps.ite | apply Keeps.foldl | split
    | (simp only [Keeps.mk_eq]; refine KeepsMk.of ?_ rfl rfl rfl rfl rfl rfl rfl rfl rfl rfl)

theorem State.groupsCommit_keeps {s0 s : State} (h : Keeps s0 s) :
    Keeps s0 (State.groupsCommit s) := by
  unfold State.groupsCommit
  with_reducible repeat' first
    | assumption | intro _ | apply State.publishGroup_keeps | apply State.addObj_keeps | apply Keeps.ite
    | apply Keeps.foldl | split
    | (simp only [Keeps.mk_eq]; refine KeepsMk.of ?_ rfl rfl rfl rfl rfl rfl rfl rfl rfl rfl)

theorem execAck_keeps {s0 s : State} {a1} (h : Keeps s0 s) :
    KeepsO s0 (execAck a1 s) := by
  unfold execAck
  with_reducible repeat' first
    | assumption | apply State.quiet_keeps | apply State.badHead_keeps | apply State.pumpSnapshot_keeps
    | apply State.settleShards_keeps | apply State.takeAck_keeps | apply Keeps.ite | apply KeepsO.next
    | apply KeepsO.ite | split

end Sys2Proof.Machine
end

