-- ==== Sys2Proof/Laws/Keeps/Links.lean ====
section
/-! SUPPORT. Every operation of Machine/Links.lean keeps what `Keeps` says. -/

namespace Sys2Proof.Machine

theorem State.setRingAt_keeps {s0 s : State} {a1 a2} (h : Keeps s0 s) :
    Keeps s0 (State.setRingAt s a1 a2) := by
  unfold State.setRingAt
  with_reducible repeat' first
    | assumption | apply Keeps.ite | split
    | (simp only [Keeps.mk_eq]; refine KeepsMk.of ?_ rfl rfl rfl rfl rfl rfl rfl rfl rfl rfl)

theorem State.ctlFrame_keeps {s0 s : State} {a1 a2 a3 a4} (h : Keeps s0 s) :
    Keeps s0 (State.ctlFrame s a1 a2 a3 a4) := by
  unfold State.ctlFrame
  with_reducible repeat' first
    | assumption | apply State.emit_keeps | apply Keeps.ite | split

theorem State.pumpCtl_keeps {s0 s : State} {a1} (h : Keeps s0 s) :
    Keeps s0 (State.pumpCtl s a1) := by
  unfold State.pumpCtl
  with_reducible repeat' first
    | assumption | intro _ | apply State.ctlFrame_keeps | apply State.setPort_keeps | apply Keeps.ite
    | apply Keeps.foldl | split
    | (simp only [Keeps.mk_eq]; refine KeepsMk.of ?_ rfl rfl rfl rfl rfl rfl rfl rfl rfl rfl)

theorem State.sendCtl_keeps {s0 s : State} {a1 a2 a3} (h : Keeps s0 s) :
    Keeps s0 (State.sendCtl s a1 a2 a3) := by
  unfold State.sendCtl
  with_reducible repeat' first
    | assumption | apply State.pumpCtl_keeps | apply State.setPort_keeps | apply Keeps.ite | split

theorem State.sendMgmt_keeps {s0 s : State} {a1 a2} (h : Keeps s0 s) :
    Keeps s0 (State.sendMgmt s a1 a2) := by
  unfold State.sendMgmt
  with_reducible repeat' first
    | assumption | intro _ | apply State.sendCtl_keeps | apply Keeps.ite | apply Keeps.foldl | split
    | (simp only [Keeps.mk_eq]; refine KeepsMk.of ?_ rfl rfl rfl rfl rfl rfl rfl rfl rfl rfl)

theorem State.reportBeyond_keeps {s0 s : State} {a1 a2} (h : Keeps s0 s) :
    Keeps s0 (State.reportBeyond s a1 a2) := by
  unfold State.reportBeyond
  with_reducible repeat' first
    | assumption | intro _ | apply State.sendMgmt_keeps | apply Keeps.ite | apply Keeps.foldl | split
    | (simp only [Keeps.mk_eq]; refine KeepsMk.of ?_ rfl rfl rfl rfl rfl rfl rfl rfl rfl rfl)

theorem State.reportPass_keeps {s0 s : State} {a1 a2} (h : Keeps s0 s) :
    Keeps s0 (State.reportPass s a1 a2) := by
  unfold State.reportPass
  with_reducible repeat' first
    | assumption | intro _ | apply State.sendMgmt_keeps | apply Keeps.ite | apply Keeps.foldl | split
    | (simp only [Keeps.mk_eq]; refine KeepsMk.of ?_ rfl rfl rfl rfl rfl rfl rfl rfl rfl rfl)

theorem State.sendReport_keeps {s0 s : State} {a1} (h : Keeps s0 s) :
    Keeps s0 (State.sendReport s a1) := by
  unfold State.sendReport
  with_reducible repeat' first
    | assumption | intro _ | apply State.reportBeyond_keeps | apply State.ctlFrame_keeps | apply State.emit_keeps | apply Keeps.ite
    | apply Keeps.foldl | split
    | (simp only [Keeps.mk_eq]; refine KeepsMk.of ?_ rfl rfl rfl rfl rfl rfl rfl rfl rfl rfl)

theorem State.takeCtl_keeps {s0 s : State} {a1 a2} (h : Keeps s0 s) :
    Keeps s0 (State.takeCtl s a1 a2).2 := by
  unfold State.takeCtl
  with_reducible repeat' first
    | assumption | apply State.setPort_keeps | apply Keeps.ite | split

theorem State.reserveExceeded_keeps {s0 s : State} {a1 a2} (h : Keeps s0 s) :
    Keeps s0 (State.reserveExceeded s a1 a2) := by
  unfold State.reserveExceeded
  with_reducible repeat' first
    | assumption | apply State.raise_keeps | apply State.poison_keeps | apply State.setObj_keeps
    | apply State.bump_keeps | apply Keeps.ite | split

theorem State.judgeReserve_keeps {s0 s : State} {a1 a2} (h : Keeps s0 s) :
    Keeps s0 (State.judgeReserve s a1 a2) := by
  unfold State.judgeReserve
  with_reducible repeat' first
    | assumption | intro _ | apply State.setPort_keeps | apply State.reserveExceeded_keeps | apply Keeps.ite
    | apply Keeps.foldl | split
    | (simp only [Keeps.mk_eq]; refine KeepsMk.of ?_ rfl rfl rfl rfl rfl rfl rfl rfl rfl rfl)

theorem State.judgeReserves_keeps {s0 s : State} (h : Keeps s0 s) :
    Keeps s0 (State.judgeReserves s) := by
  unfold State.judgeReserves
  with_reducible repeat' first
    | assumption | intro _ | apply State.judgeReserve_keeps | apply Keeps.ite | apply Keeps.foldl | split
    | (simp only [Keeps.mk_eq]; refine KeepsMk.of ?_ rfl rfl rfl rfl rfl rfl rfl rfl rfl rfl)

theorem State.settleLink_keeps {s0 s : State} {a1} (h : Keeps s0 s) :
    Keeps s0 (State.settleLink s a1) := by
  unfold State.settleLink
  with_reducible repeat' first
    | assumption | intro _ | apply State.setObj_keeps | apply Keeps.ite | apply Keeps.foldl | split
    | (simp only [Keeps.mk_eq]; refine KeepsMk.of ?_ rfl rfl rfl rfl rfl rfl rfl rfl rfl rfl)

theorem State.removeLanes_keeps {s0 s : State} {a1} (h : Keeps s0 s) :
    Keeps s0 (State.removeLanes s a1) := by
  unfold State.removeLanes
  with_reducible repeat' first
    | assumption | apply State.settleLink_keeps | apply State.setPort_keeps | apply Keeps.ite | split

theorem State.raiseLane_keeps {s0 s : State} {a1 a2} (h : Keeps s0 s) :
    Keeps s0 (State.raiseLane s a1 a2) := by
  unfold State.raiseLane
  with_reducible repeat' first
    | assumption | apply State.raiseWith_keeps | apply Keeps.ite | split

theorem State.loseLane_keeps {s0 s : State} {a1 a2 a3} (h : Keeps s0 s) :
    Keeps s0 (State.loseLane s a1 a2 a3) := by
  unfold State.loseLane
  with_reducible repeat' first
    | assumption | intro _ | apply State.setPort_keeps | apply State.settleLink_keeps
    | apply State.raiseLane_keeps | apply State.sendReport_keeps | apply State.judgeReserve_keeps
    | apply Keeps.ite | apply Keeps.foldl | split
    | (simp only [Keeps.mk_eq]; refine KeepsMk.of ?_ rfl rfl rfl rfl rfl rfl rfl rfl rfl rfl)

theorem State.joinLane_keeps {s0 s : State} {a1 a2 a3} (h : Keeps s0 s) :
    Keeps s0 (State.joinLane s a1 a2 a3) := by
  unfold State.joinLane
  with_reducible repeat' first
    | assumption | intro _ | apply State.setPort_keeps | apply State.raiseLane_keeps
    | apply State.settleLink_keeps | apply Keeps.ite | apply Keeps.foldl | split
    | (simp only [Keeps.mk_eq]; refine KeepsMk.of ?_ rfl rfl rfl rfl rfl rfl rfl rfl rfl rfl)

theorem State.takeJoins_keeps {s0 s : State} {a1 a2} (h : Keeps s0 s) :
    Keeps s0 (State.takeJoins s a1 a2) := by
  unfold State.takeJoins
  with_reducible repeat' first
    | assumption | intro _ | apply State.setPort_keeps | apply State.raiseLane_keeps
    | apply State.settleLink_keeps | apply Keeps.ite | apply Keeps.foldl | split
    | (simp only [Keeps.mk_eq]; refine KeepsMk.of ?_ rfl rfl rfl rfl rfl rfl rfl rfl rfl rfl)

theorem State.joinLanes_keeps {s0 s : State} (h : Keeps s0 s) :
    Keeps s0 (State.joinLanes s) := by
  unfold State.joinLanes
  with_reducible repeat' first
    | assumption | intro _ | apply State.judgeReserves_keeps | apply State.takeJoins_keeps | apply Keeps.ite
    | apply Keeps.foldl | split
    | (simp only [Keeps.mk_eq]; refine KeepsMk.of ?_ rfl rfl rfl rfl rfl rfl rfl rfl rfl rfl)

theorem State.trimLanes_keeps {s0 s : State} (h : Keeps s0 s) :
    Keeps s0 (State.trimLanes s) := by
  unfold State.trimLanes
  with_reducible repeat' first
    | assumption | intro _ | apply State.settleLink_keeps | apply State.setPort_keeps | apply Keeps.ite
    | apply Keeps.foldl | split
    | (simp only [Keeps.mk_eq]; refine KeepsMk.of ?_ rfl rfl rfl rfl rfl rfl rfl rfl rfl rfl)

theorem State.dropUnclear_keeps {s0 s : State} {a1} (h : Keeps s0 s) :
    Keeps s0 (State.dropUnclear s a1) := by
  unfold State.dropUnclear
  with_reducible repeat' first
    | assumption | intro _ | apply State.loseLane_keeps | apply Keeps.ite | apply Keeps.foldl | split
    | (simp only [Keeps.mk_eq]; refine KeepsMk.of ?_ rfl rfl rfl rfl rfl rfl rfl rfl rfl rfl)

theorem State.noteAccept_keeps {s0 s : State} {a1 a2} (h : Keeps s0 s) :
    Keeps s0 (State.noteAccept s a1 a2) := by
  unfold State.noteAccept
  with_reducible repeat' first
    | assumption | intro _ | apply State.setPort_keeps | apply State.cmdDone_keeps | apply State.raiseAt_keeps
    | apply State.cmdFail_keeps | apply Keeps.ite | apply Keeps.foldl | split
    | (simp only [Keeps.mk_eq]; refine KeepsMk.of ?_ rfl rfl rfl rfl rfl rfl rfl rfl rfl rfl)

theorem State.setClass_keeps {s0 s : State} {a1 a2} (h : Keeps s0 s) :
    Keeps s0 (State.setClass s a1 a2) := by
  unfold State.setClass
  with_reducible repeat' first
    | assumption | intro _ | apply State.setObj_keeps | apply State.raiseAt_keeps
    | apply State.removeLanes_keeps | apply State.faultC_keeps | apply State.noteAccept_keeps | apply Keeps.ite
    | apply Keeps.foldl | split
    | (simp only [Keeps.mk_eq]; refine KeepsMk.of ?_ rfl rfl rfl rfl rfl rfl rfl rfl rfl rfl)

theorem State.voteClass_keeps {s0 s : State} {a1 a2} (h : Keeps s0 s) :
    Keeps s0 (State.voteClass s a1 a2) := by
  unfold State.voteClass
  with_reducible repeat' first
    | assumption | apply State.setPort_keeps | apply State.setClass_keeps | apply Keeps.ite | split

theorem State.restate_keeps {s0 s : State} {a1} (h : Keeps s0 s) :
    Keeps s0 (State.restate s a1) := by
  unfold State.restate
  with_reducible repeat' first
    | assumption | apply State.setPort_keeps | apply Keeps.ite | split

theorem State.noPeer_keeps {s0 s : State} {a1 a2} (h : Keeps s0 s) :
    Keeps s0 (State.noPeer s a1 a2) := by
  unfold State.noPeer
  with_reducible repeat' first
    | assumption | apply State.setClass_keeps | apply State.setPort_keeps | apply Keeps.ite | split

theorem State.holdFar_keeps {s0 s : State} {a1} (h : Keeps s0 s) :
    Keeps s0 (State.holdFar s a1) := by
  unfold State.holdFar
  with_reducible repeat' first
    | assumption | intro _ | apply State.setPort_keeps | apply State.setObj_keeps | apply State.settleLink_keeps
    | apply Keeps.ite | apply Keeps.foldl | split
    | (simp only [Keeps.mk_eq]; refine KeepsMk.of ?_ rfl rfl rfl rfl rfl rfl rfl rfl rfl rfl)

theorem State.freeFar_keeps {s0 s : State} {a1} (h : Keeps s0 s) :
    Keeps s0 (State.freeFar s a1) := by
  unfold State.freeFar
  with_reducible repeat' first
    | assumption | apply State.setPort_keeps | apply State.setObj_keeps | apply Keeps.ite | split

theorem execHelloFrame_keeps {s0 s : State} {a1 a2} (h : Keeps s0 s) :
    KeepsO s0 (execHelloFrame a1 a2 s) := by
  unfold execHelloFrame
  with_reducible repeat' first
    | assumption | (intro _; clear_value x1; revert x1) | intro _ | (unfold x1; clear x1)
    | (extract_lets +onlyGivenNames -merge x1; first | refine Keeps.cut s0 x1 ?_ ?_ | (clear_value x1; revert x1))
    | apply State.quiet_keeps | apply State.bump_keeps | apply State.setObj_keeps | apply State.setBlob_keeps
    | apply State.setPort_keeps | apply State.holdFar_keeps | apply State.freeFar_keeps
    | apply State.removeLanes_keeps | apply State.voteClass_keeps | apply State.faultC_keeps
    | apply State.raiseAt_keeps | apply Keeps.ite | apply Keeps.foldl | apply KeepsO.next | apply KeepsO.ite
    | split | (simp only [Keeps.mk_eq]; refine KeepsMk.of ?_ rfl rfl rfl rfl rfl rfl rfl rfl rfl rfl)

theorem execHelloSend_keeps {s0 s : State} {a1} (h : Keeps s0 s) :
    KeepsO s0 (execHelloSend a1 s) := by
  unfold execHelloSend
  with_reducible repeat' first
    | assumption | apply State.quiet_keeps | apply State.ctlFrame_keeps | apply Keeps.ite | apply KeepsO.next
    | apply KeepsO.ite | split

theorem execHelloTimeout_keeps {s0 s : State} {a1} (h : Keeps s0 s) :
    KeepsO s0 (execHelloTimeout a1 s) := by
  unfold execHelloTimeout
  with_reducible repeat' first
    | assumption | apply State.quiet_keeps | apply State.noPeer_keeps | apply State.advanceTo_keeps
    | apply Keeps.ite | apply KeepsO.next | apply KeepsO.ite | split

theorem State.actAccept_keeps {s0 s : State} {a1} (h : Keeps s0 s) :
    Keeps s0 (State.actAccept s a1) := by
  unfold State.actAccept
  with_reducible repeat' first
    | assumption | intro _ | apply State.cmdFail_keeps | apply State.restate_keeps | apply State.setObj_keeps
    | apply State.cmdStart_keeps | apply State.setPort_keeps | apply Keeps.ite | apply Keeps.foldl | split
    | (simp only [Keeps.mk_eq]; refine KeepsMk.of ?_ rfl rfl rfl rfl rfl rfl rfl rfl rfl rfl)

theorem State.limitHit_keeps {s0 s : State} {a1 a2 a3} (h : Keeps s0 s) :
    Keeps s0 (State.limitHit s a1 a2 a3) := by
  unfold State.limitHit
  with_reducible repeat' first
    | assumption | apply State.raise_keeps | apply State.setObj_keeps | apply State.bump_keeps | apply Keeps.ite
    | split

theorem State.closeGate_keeps {s0 s : State} {a1} (h : Keeps s0 s) :
    Keeps s0 (State.closeGate s a1) := by
  unfold State.closeGate
  with_reducible repeat' first
    | assumption | intro _ | apply State.limitHit_keeps | apply State.raiseAt_keeps | apply State.bump_keeps | apply State.setObj_keeps
    | apply State.dropUnclear_keeps | apply Keeps.ite | apply Keeps.foldl | split
    | (simp only [Keeps.mk_eq]; refine KeepsMk.of ?_ rfl rfl rfl rfl rfl rfl rfl rfl rfl rfl)

theorem execLaneCLock_keeps {s0 s : State} {a1} (h : Keeps s0 s) :
    KeepsO s0 (execLaneCLock a1 s) := by
  unfold execLaneCLock
  with_reducible repeat' first
    | assumption | apply State.quiet_keeps | apply State.setObj_keeps | apply State.setPort_keeps
    | apply Keeps.ite | apply KeepsO.next | apply KeepsO.ite | split

theorem execLaneCLoss_keeps {s0 s : State} {a1} (h : Keeps s0 s) :
    KeepsO s0 (execLaneCLoss a1 s) := by
  unfold execLaneCLoss
  with_reducible repeat' first
    | assumption | apply State.quiet_keeps | apply State.setObj_keeps | apply State.setPort_keeps
    | apply State.noPeer_keeps | apply State.parentLost_keeps | apply State.closeGate_keeps | apply Keeps.ite
    | apply KeepsO.next | apply KeepsO.ite | split

theorem State.linkFalls_keeps {s0 s : State} {a1} (h : Keeps s0 s) :
    Keeps s0 (State.linkFalls s a1) := by
  unfold State.linkFalls
  with_reducible repeat' first
    | assumption | apply State.setPort_keeps | apply State.setObj_keeps | apply State.removeLanes_keeps
    | apply State.raiseAt_keeps | apply State.faultC_keeps | apply Keeps.ite | split

theorem execLinkDown_keeps {s0 s : State} {a1} (h : Keeps s0 s) :
    KeepsO s0 (execLinkDown a1 s) := by
  unfold execLinkDown
  with_reducible repeat' first
    | assumption | (intro _; clear_value x1; revert x1) | intro _ | (unfold x1; clear x1)
    | (extract_lets +onlyGivenNames -merge x1; first | refine Keeps.cut s0 x1 ?_ ?_ | (clear_value x1; revert x1))
    | apply State.quiet_keeps | apply State.linkFalls_keeps | apply State.advanceTo_keeps | apply Keeps.ite
    | apply Keeps.foldl | apply KeepsO.next | apply KeepsO.ite | split
    | (simp only [Keeps.mk_eq]; refine KeepsMk.of ?_ rfl rfl rfl rfl rfl rfl rfl rfl rfl rfl)

theorem execResettingTimeout_keeps {s0 s : State} {a1} (h : Keeps s0 s) :
    KeepsO s0 (execResettingTimeout a1 s) := by
  unfold execResettingTimeout
  with_reducible repeat' first
    | assumption | (intro _; clear_value x1; revert x1) | intro _ | (unfold x1; clear x1)
    | (extract_lets +onlyGivenNames -merge x1; first | refine Keeps.cut s0 x1 ?_ ?_ | (clear_value x1; revert x1))
    | apply State.quiet_keeps | apply State.linkFalls_keeps | apply State.advanceTo_keeps | apply Keeps.ite
    | apply Keeps.foldl | apply KeepsO.next | apply KeepsO.ite | split
    | (simp only [Keeps.mk_eq]; refine KeepsMk.of ?_ rfl rfl rfl rfl rfl rfl rfl rfl rfl rfl)

theorem execLaneSignalLoss_keeps {s0 s : State} {a1 a2} (h : Keeps s0 s) :
    KeepsO s0 (execLaneSignalLoss a1 a2 s) := by
  unfold execLaneSignalLoss
  with_reducible repeat' first
    | assumption | apply State.quiet_keeps | apply State.loseLane_keeps | apply State.setPort_keeps
    | apply Keeps.ite | apply KeepsO.next | apply KeepsO.ite | split

theorem execLaneSignalLock_keeps {s0 s : State} {a1 a2} (h : Keeps s0 s) :
    KeepsO s0 (execLaneSignalLock a1 a2 s) := by
  unfold execLaneSignalLock
  with_reducible repeat' first
    | assumption | apply State.quiet_keeps | apply State.setPort_keeps | apply Keeps.ite | apply KeepsO.next
    | apply KeepsO.ite | split

theorem State.mismatch_keeps {s0 s : State} {a1} (h : Keeps s0 s) :
    Keeps s0 (State.mismatch s a1) := by
  unfold State.mismatch
  with_reducible repeat' first
    | assumption | apply State.raise_keeps | apply State.setObj_keeps | apply State.bump_keeps | apply Keeps.ite
    | split

theorem State.prepFail_keeps {s0 s : State} {a1 a2 a3 a4} (h : Keeps s0 s) :
    Keeps s0 (State.prepFail s a1 a2 a3 a4) := by
  unfold State.prepFail
  with_reducible repeat' first
    | assumption | intro _ | apply State.cmdFail_keeps | apply State.setObj_keeps | apply Keeps.ite
    | apply Keeps.foldl | split
    | (simp only [Keeps.mk_eq]; refine KeepsMk.of ?_ rfl rfl rfl rfl rfl rfl rfl rfl rfl rfl)

theorem State.prepSeen_keeps {s0 s : State} {a1 a2 a3} (h : Keeps s0 s) :
    Keeps s0 (State.prepSeen s a1 a2 a3) := by
  unfold State.prepSeen
  with_reducible repeat' first
    | assumption | intro _ | apply Keeps.ite | apply Keeps.foldl | split
    | (simp only [Keeps.mk_eq]; refine KeepsMk.of ?_ rfl rfl rfl rfl rfl rfl rfl rfl rfl rfl)

theorem State.noteRtt_keeps {s0 s : State} {a1 a2 a3} (h : Keeps s0 s) :
    Keeps s0 (State.noteRtt s a1 a2 a3) := by
  unfold State.noteRtt
  with_reducible repeat' first
    | assumption | (intro _; first | (clear_value x1; revert x1) | subst x1) | intro _ | (unfold x1; clear x1)
    | (extract_lets +onlyGivenNames -merge x1; first | refine Keeps.cut s0 x1 ?_ ?_ | refine Keeps.cut1 s0 x1 ?_ ?_ | refine Keeps.cut2 s0 x1 ?_ ?_ | refine Keeps.cutR s0 x1 ?_ ?_ | (first | refine keepLedger x1 ?_ | refine keepMem x1 ?_ | refine keepPath x1 ?_; subst x1) | (clear_value x1; revert x1) | subst x1)
    | apply State.setPort_keeps | apply State.setObj_keeps | apply Keeps.ite | apply Keeps.foldl
    | apply Keeps.ite1 | apply Keeps.ite2 | apply Keeps.iteR | apply Keeps.elim | apply Keeps.foldl1
    | apply Keeps.foldl2 | split
    | (simp only [Keeps.mk_eq]; refine KeepsMk.of ?_ rfl rfl rfl rfl rfl rfl rfl rfl rfl rfl)

theorem State.frameMatched_keeps {s0 s : State} {a1 a2 a3} (h : Keeps s0 s) :
    Keeps s0 (State.frameMatched s a1 a2 a3) := by
  unfold State.frameMatched
  with_reducible repeat' first
    | assumption | apply State.noteRtt_keeps | apply State.setPort_keeps | apply State.setObj_keeps | apply State.sendReport_keeps
    | apply State.joinLane_keeps | apply State.prepSeen_keeps | apply Keeps.ite | split

theorem State.prepMismatch_keeps {s0 s : State} {a1 a2} (h : Keeps s0 s) :
    Keeps s0 (State.prepMismatch s a1 a2) := by
  unfold State.prepMismatch
  with_reducible repeat' first
    | assumption | apply State.prepFail_keeps | apply Keeps.ite | split

theorem State.frameMismatched_keeps {s0 s : State} {a1 a2} (h : Keeps s0 s) :
    Keeps s0 (State.frameMismatched s a1 a2) := by
  unfold State.frameMismatched
  with_reducible repeat' first
    | assumption | apply State.setPort_keeps | apply State.setObj_keeps | apply State.loseLane_keeps
    | apply State.prepMismatch_keeps | apply State.mismatch_keeps | apply Keeps.ite | split

theorem execTrainingFrame_keeps {s0 s : State} {a1} (h : Keeps s0 s) :
    KeepsO s0 (execTrainingFrame a1 s) := by
  unfold execTrainingFrame
  with_reducible repeat' first
    | assumption | (intro _; clear_value x1; revert x1) | intro _ | (unfold x1; clear x1)
    | (extract_lets +onlyGivenNames -merge x1; first | refine Keeps.cut s0 x1 ?_ ?_ | (clear_value x1; revert x1))
    | apply State.quiet_keeps | apply State.frameMatched_keeps | apply State.frameMismatched_keeps
    | apply Keeps.ite | apply Keeps.foldl | apply KeepsO.next | apply KeepsO.ite | split
    | (simp only [Keeps.mk_eq]; refine KeepsMk.of ?_ rfl rfl rfl rfl rfl rfl rfl rfl rfl rfl)

theorem State.takeReport_keeps {s0 s : State} {a1 a2 a3} (h : Keeps s0 s) :
    Keeps s0 (State.takeReport s a1 a2 a3) := by
  unfold State.takeReport
  with_reducible repeat' first
    | assumption | (intro _; first | (clear_value x1; revert x1) | subst x1) | intro _ | (unfold x1; clear x1)
    | (extract_lets +onlyGivenNames -merge x1; first | refine Keeps.cut s0 x1 ?_ ?_ | refine Keeps.cut1 s0 x1 ?_ ?_ | refine Keeps.cut2 s0 x1 ?_ ?_ | refine Keeps.cutR s0 x1 ?_ ?_ | (first | refine keepLedger x1 ?_ | refine keepMem x1 ?_ | refine keepPath x1 ?_; subst x1) | (clear_value x1; revert x1) | subst x1)
    | apply State.setPort_keeps | apply State.loseLane_keeps | apply State.joinLane_keeps
    | apply State.prepSeen_keeps | apply Keeps.ite | apply Keeps.foldl | apply Keeps.ite1 | apply Keeps.ite2
    | apply Keeps.iteR | apply Keeps.elim | apply Keeps.foldl1 | apply Keeps.foldl2 | split
    | (simp only [Keeps.mk_eq]; refine KeepsMk.of ?_ rfl rfl rfl rfl rfl rfl rfl rfl rfl rfl)

theorem execLaneReport_keeps {s0 s : State} {a1 a2} (h : Keeps s0 s) :
    KeepsO s0 (execLaneReport a1 a2 s) := by
  unfold execLaneReport
  with_reducible repeat' first
    | assumption | intro _ | apply State.takeReport_keeps | apply State.quiet_keeps | apply State.setPort_keeps | apply State.loseLane_keeps
    | apply State.joinLane_keeps | apply State.prepSeen_keeps | apply Keeps.ite | apply Keeps.foldl
    | apply KeepsO.next | apply KeepsO.ite | split
    | (simp only [Keeps.mk_eq]; refine KeepsMk.of ?_ rfl rfl rfl rfl rfl rfl rfl rfl rfl rfl)

theorem execControlAck_keeps {s0 s : State} {a1 a2} (h : Keeps s0 s) :
    KeepsO s0 (execControlAck a1 a2 s) := by
  unfold execControlAck
  with_reducible repeat' first
    | assumption | apply State.quiet_keeps | apply State.pumpCtl_keeps | apply State.setPort_keeps
    | apply Keeps.ite | apply KeepsO.next | apply KeepsO.ite | split

theorem execControlAckSend_keeps {s0 s : State} {a1} (h : Keeps s0 s) :
    KeepsO s0 (execControlAckSend a1 s) := by
  unfold execControlAckSend
  with_reducible repeat' first
    | assumption | apply State.quiet_keeps | apply State.ctlFrame_keeps | apply State.setPort_keeps
    | apply Keeps.ite | apply KeepsO.next | apply KeepsO.ite | split

theorem execLaneCResend_keeps {s0 s : State} {a1} (h : Keeps s0 s) :
    KeepsO s0 (execLaneCResend a1 s) := by
  unfold execLaneCResend
  with_reducible repeat' first
    | assumption | (intro _; clear_value x1; revert x1) | intro _ | (unfold x1; clear x1)
    | (extract_lets +onlyGivenNames -merge x1; first | refine Keeps.cut s0 x1 ?_ ?_ | (clear_value x1; revert x1))
    | apply State.quiet_keeps | apply State.advanceTo_keeps | apply State.ctlFrame_keeps
    | apply State.setPort_keeps | apply Keeps.ite | apply Keeps.foldl | apply KeepsO.next | apply KeepsO.ite
    | split | (simp only [Keeps.mk_eq]; refine KeepsMk.of ?_ rfl rfl rfl rfl rfl rfl rfl rfl rfl rfl)

end Sys2Proof.Machine
end

