-- ==== Sys2Proof/Laws/Keeps/Optics.lean ====
section
/-! SUPPORT. Every operation of Machine/Optics.lean keeps what `Keeps` says. -/

namespace Sys2Proof.Machine

theorem State.noteSetting_keeps {s0 s : State} {a1 a2} (h : Keeps s0 s) :
    Keeps s0 (State.noteSetting s a1 a2) := by
  unfold State.noteSetting
  with_reducible repeat' first
    | assumption | intro _ | apply Keeps.ite | apply Keeps.foldl | split
    | (simp only [Keeps.mk_eq]; refine KeepsMk.of ?_ rfl rfl rfl rfl rfl rfl rfl rfl rfl rfl)

theorem State.giveRing_keeps {s0 s : State} {a1} (h : Keeps s0 s) :
    Keeps s0 (State.giveRing s a1) := by
  unfold State.giveRing
  with_reducible repeat' first
    | assumption | intro _ | apply State.setRingAt_keeps | apply Keeps.ite | apply Keeps.foldl | split
    | (simp only [Keeps.mk_eq]; refine KeepsMk.of ?_ rfl rfl rfl rfl rfl rfl rfl rfl rfl rfl)

theorem State.parkRing_keeps {s0 s : State} {a1} (h : Keeps s0 s) :
    Keeps s0 (State.parkRing s a1) := by
  unfold State.parkRing
  with_reducible repeat' first
    | assumption | apply State.setRingAt_keeps | apply Keeps.ite | split

theorem State.ringLanesLost_keeps {s0 s : State} {a1} (h : Keeps s0 s) :
    Keeps s0 (State.ringLanesLost s a1) := by
  unfold State.ringLanesLost
  with_reducible repeat' first
    | assumption | intro _ | apply State.reportPass_keeps | apply State.loseLane_keeps | apply Keeps.ite | apply Keeps.foldl | split
    | (simp only [Keeps.mk_eq]; refine KeepsMk.of ?_ rfl rfl rfl rfl rfl rfl rfl rfl rfl rfl)

theorem State.unlockRing_keeps {s0 s : State} {a1} (h : Keeps s0 s) :
    Keeps s0 (State.unlockRing s a1) := by
  unfold State.unlockRing
  with_reducible repeat' first
    | assumption | apply State.setRingAt_keeps | apply State.ringLanesLost_keeps | apply State.raise_keeps
    | apply Keeps.ite | split

theorem State.ringFails_keeps {s0 s : State} {a1 a2} (h : Keeps s0 s) :
    Keeps s0 (State.ringFails s a1 a2) := by
  unfold State.ringFails
  with_reducible repeat' first
    | assumption | apply State.setRingAt_keeps | apply State.prepFail_keeps | apply State.ringLanesLost_keeps
    | apply Keeps.ite | split

theorem State.moveHeater_keeps {s0 s : State} {a1} (h : Keeps s0 s) :
    Keeps s0 (State.moveHeater s a1) := by
  unfold State.moveHeater
  with_reducible repeat' first
    | assumption | (intro _; first | (clear_value x1; revert x1) | subst x1) | intro _ | (unfold x1; clear x1)
    | (extract_lets +onlyGivenNames -merge x1; first | refine Keeps.cut s0 x1 ?_ ?_ | refine Keeps.cut1 s0 x1 ?_ ?_ | refine Keeps.cut2 s0 x1 ?_ ?_ | refine Keeps.cutR s0 x1 ?_ ?_ | (first | refine keepLedger x1 ?_ | refine keepMem x1 ?_ | refine keepPath x1 ?_; subst x1) | (clear_value x1; revert x1) | subst x1)
    | apply State.setRingAt_keeps | apply Keeps.ite | apply Keeps.foldl | apply Keeps.ite1 | apply Keeps.ite2
    | apply Keeps.iteR | apply Keeps.elim | apply Keeps.foldl1 | apply Keeps.foldl2 | split
    | (simp only [Keeps.mk_eq]; refine KeepsMk.of ?_ rfl rfl rfl rfl rfl rfl rfl rfl rfl rfl)

theorem State.beginLocking_keeps {s0 s : State} {a1} (h : Keeps s0 s) :
    Keeps s0 (State.beginLocking s a1) := by
  unfold State.beginLocking
  with_reducible repeat' first
    | assumption | (intro _; clear_value x1; revert x1) | intro _ | (unfold x1; clear x1)
    | (extract_lets +onlyGivenNames -merge x1; first | refine Keeps.cut s0 x1 ?_ ?_ | (clear_value x1; revert x1))
    | apply State.moveHeater_keeps | apply State.setRingAt_keeps | apply Keeps.ite | apply Keeps.foldl | split
    | (simp only [Keeps.mk_eq]; refine KeepsMk.of ?_ rfl rfl rfl rfl rfl rfl rfl rfl rfl rfl)

theorem State.heat_keeps {s0 s : State} {a1 a2 a3} (h : Keeps s0 s) :
    Keeps s0 (State.heat s a1 a2 a3) := by
  unfold State.heat
  with_reducible repeat' first
    | assumption | (intro _; first | (clear_value x1; revert x1) | subst x1) | intro _ | (unfold x1; clear x1)
    | (extract_lets +onlyGivenNames -merge x1; first | refine Keeps.cut s0 x1 ?_ ?_ | refine Keeps.cut1 s0 x1 ?_ ?_ | refine Keeps.cut2 s0 x1 ?_ ?_ | refine Keeps.cutR s0 x1 ?_ ?_ | (first | refine keepLedger x1 ?_ | refine keepMem x1 ?_ | refine keepPath x1 ?_; subst x1) | (clear_value x1; revert x1) | subst x1)
    | apply State.limitHit_keeps | apply State.setObj_keeps | apply Keeps.ite | apply Keeps.foldl
    | apply Keeps.ite1 | apply Keeps.ite2 | apply Keeps.iteR | apply Keeps.elim | apply Keeps.foldl1
    | apply Keeps.foldl2 | split
    | (simp only [Keeps.mk_eq]; refine KeepsMk.of ?_ rfl rfl rfl rfl rfl rfl rfl rfl rfl rfl)

theorem execRingSweepStep_keeps {s0 s : State} {a1 a2 a3 a4} (h : Keeps s0 s) :
    KeepsO s0 (execRingSweepStep a1 a2 a3 a4 s) := by
  unfold execRingSweepStep
  with_reducible repeat' first
    | assumption | intro _ | apply State.heat_keeps | apply State.quiet_keeps | apply State.advanceTo_keeps | apply State.setObj_keeps
    | apply State.limitHit_keeps | apply State.setRingAt_keeps | apply State.ringFails_keeps
    | apply State.raise_keeps | apply State.beginLocking_keeps | apply Keeps.ite | apply Keeps.foldl
    | apply KeepsO.next | apply KeepsO.ite | split
    | (simp only [Keeps.mk_eq]; refine KeepsMk.of ?_ rfl rfl rfl rfl rfl rfl rfl rfl rfl rfl)

theorem execRingLockSettled_keeps {s0 s : State} {a1} (h : Keeps s0 s) :
    KeepsO s0 (execRingLockSettled a1 s) := by
  unfold execRingLockSettled
  with_reducible repeat' first
    | assumption | apply State.quiet_keeps | apply State.setRingAt_keeps | apply Keeps.ite | apply KeepsO.next
    | apply KeepsO.ite | split

theorem State.trackRing_keeps {s0 s : State} {a1 a2} (h : Keeps s0 s) :
    Keeps s0 (State.trackRing s a1 a2) := by
  unfold State.trackRing
  with_reducible repeat' first
    | assumption | intro _ | apply State.unlockRing_keeps | apply State.setRingAt_keeps | apply State.limitHit_keeps | apply Keeps.ite
    | apply Keeps.foldl | split
    | (simp only [Keeps.mk_eq]; refine KeepsMk.of ?_ rfl rfl rfl rfl rfl rfl rfl rfl rfl rfl)

theorem State.lockRing_keeps {s0 s : State} {a1} (h : Keeps s0 s) :
    Keeps s0 (State.lockRing s a1) := by
  unfold State.lockRing
  with_reducible repeat' first
    | assumption | apply State.noteSetting_keeps | apply State.setRingAt_keeps | apply State.raise_keeps
    | apply Keeps.ite | split

theorem State.notePower_keeps {s0 s : State} {a1 a2} (h : Keeps s0 s) :
    Keeps s0 (State.notePower s a1 a2) := by
  unfold State.notePower
  with_reducible repeat' first
    | assumption | apply State.setBlob_keeps | apply Keeps.ite | split

theorem execToneWindow_keeps {s0 s : State} {a1 a2 a3 a4} (h : Keeps s0 s) :
    KeepsO s0 (execToneWindow a1 a2 a3 a4 s) := by
  unfold execToneWindow
  with_reducible repeat' first
    | assumption | apply State.quiet_keeps | apply State.notePower_keeps | apply State.lockRing_keeps
    | apply State.mismatch_keeps | apply State.beginLocking_keeps | apply State.ringFails_keeps
    | apply State.unlockRing_keeps | apply State.trackRing_keeps | apply State.setRingAt_keeps | apply Keeps.ite
    | apply KeepsO.next | apply KeepsO.ite | split

theorem execRingLightLoss_keeps {s0 s : State} {a1} (h : Keeps s0 s) :
    KeepsO s0 (execRingLightLoss a1 s) := by
  unfold execRingLightLoss
  with_reducible repeat' first
    | assumption | apply State.quiet_keeps | apply State.ringLanesLost_keeps | apply State.setRingAt_keeps
    | apply Keeps.ite | apply KeepsO.next | apply KeepsO.ite | split

theorem execRingLightReturn_keeps {s0 s : State} {a1} (h : Keeps s0 s) :
    KeepsO s0 (execRingLightReturn a1 s) := by
  unfold execRingLightReturn
  with_reducible repeat' first
    | assumption | apply State.quiet_keeps | apply State.setRingAt_keeps | apply Keeps.ite | apply KeepsO.next
    | apply KeepsO.ite | split

theorem execRingDrift_keeps {s0 s : State} {a1} (h : Keeps s0 s) :
    KeepsO s0 (execRingDrift a1 s) := by
  unfold execRingDrift
  with_reducible repeat' first
    | assumption | apply State.trackRing_keeps | apply State.heat_keeps | apply State.quiet_keeps | apply State.unlockRing_keeps | apply Keeps.ite | apply KeepsO.next
    | apply KeepsO.ite | split

theorem State.retune_keeps {s0 s : State} (h : Keeps s0 s) :
    Keeps s0 (State.retune s) := by
  unfold State.retune
  with_reducible repeat' first
    | assumption | intro _ | apply State.moveHeater_keeps | apply State.setRingAt_keeps | apply State.beginLocking_keeps | apply Keeps.ite
    | apply Keeps.foldl | split
    | (simp only [Keeps.mk_eq]; refine KeepsMk.of ?_ rfl rfl rfl rfl rfl rfl rfl rfl rfl rfl)

theorem State.setRoute_keeps {s0 s : State} {a1 a2 a3} (h : Keeps s0 s) :
    Keeps s0 (State.setRoute s a1 a2 a3) := by
  unfold State.setRoute
  with_reducible repeat' first
    | assumption | intro _ | apply State.setObj_keeps | apply State.parkRing_keeps | apply State.giveRing_keeps
    | apply Keeps.ite | apply Keeps.foldl | split
    | (simp only [Keeps.mk_eq]; refine KeepsMk.of ?_ rfl rfl rfl rfl rfl rfl rfl rfl rfl rfl)

theorem State.setTx_keeps {s0 s : State} {a1 a2 a3} (h : Keeps s0 s) :
    Keeps s0 (State.setTx s a1 a2 a3) := by
  unfold State.setTx
  with_reducible repeat' first
    | assumption | intro _ | apply State.giveRing_keeps | apply State.parkRing_keeps | apply Keeps.ite
    | apply Keeps.foldl | split
    | (simp only [Keeps.mk_eq]; refine KeepsMk.of ?_ rfl rfl rfl rfl rfl rfl rfl rfl rfl rfl)

theorem State.setRoutes_keeps {s0 s : State} {a1 a2} (h : Keeps s0 s) :
    Keeps s0 (State.setRoutes s a1 a2) := by
  unfold State.setRoutes
  with_reducible repeat' first
    | assumption | intro _ | apply State.setRoute_keeps | apply State.setTx_keeps | apply Keeps.ite
    | apply Keeps.foldl | split
    | (simp only [Keeps.mk_eq]; refine KeepsMk.of ?_ rfl rfl rfl rfl rfl rfl rfl rfl rfl rfl)

theorem State.dropMovedLanes_keeps {s0 s : State} {a1 a2 a3} (h : Keeps s0 s) :
    Keeps s0 (State.dropMovedLanes s a1 a2 a3) := by
  unfold State.dropMovedLanes
  with_reducible repeat' first
    | assumption | (intro _; first | (clear_value x1; revert x1) | subst x1) | intro _ | (unfold x1; clear x1)
    | (extract_lets +onlyGivenNames -merge x1; first | refine Keeps.cut s0 x1 ?_ ?_ | refine Keeps.cut1 s0 x1 ?_ ?_ | refine Keeps.cut2 s0 x1 ?_ ?_ | refine Keeps.cutR s0 x1 ?_ ?_ | (first | refine keepLedger x1 ?_ | refine keepMem x1 ?_ | refine keepPath x1 ?_; subst x1) | (clear_value x1; revert x1) | subst x1)
    | apply State.setPort_keeps | apply Keeps.ite | apply Keeps.foldl | apply Keeps.ite1 | apply Keeps.ite2
    | apply Keeps.iteR | apply Keeps.elim | apply Keeps.foldl1 | apply Keeps.foldl2 | split
    | (simp only [Keeps.mk_eq]; refine KeepsMk.of ?_ rfl rfl rfl rfl rfl rfl rfl rfl rfl rfl)

theorem State.dropChangedLinks_keeps {s0 s : State} {a1 a2 a3} (h : Keeps s0 s) :
    Keeps s0 (State.dropChangedLinks s a1 a2 a3) := by
  unfold State.dropChangedLinks
  with_reducible repeat' first
    | assumption | apply Keeps.ite | split
    | (simp only [Keeps.mk_eq]; refine KeepsMk.of ?_ rfl rfl rfl rfl rfl rfl rfl rfl rfl rfl)

theorem State.changeMap_keeps {s0 s : State} {a1 a2} (h : Keeps s0 s) :
    Keeps s0 (State.changeMap s a1 a2) := by
  unfold State.changeMap
  with_reducible repeat' first
    | assumption | intro _ | apply State.dropMovedLanes_keeps | apply State.bump_keeps | apply State.setObj_keeps | apply State.trimLanes_keeps
    | apply State.setRoutes_keeps | apply State.dropChangedLinks_keeps | apply Keeps.ite | apply Keeps.foldl
    | split | (simp only [Keeps.mk_eq]; refine KeepsMk.of ?_ rfl rfl rfl rfl rfl rfl rfl rfl rfl rfl)

theorem State.emitTraining_keeps {s0 s : State} {a1 a2 a3} (h : Keeps s0 s) :
    Keeps s0 (State.emitTraining s a1 a2 a3) := by
  unfold State.emitTraining
  with_reducible repeat' first
    | assumption | (intro _; first | (clear_value x1; revert x1) | subst x1) | intro _ | (unfold x1; clear x1)
    | (extract_lets +onlyGivenNames -merge x1; first | refine Keeps.cut s0 x1 ?_ ?_ | refine Keeps.cut1 s0 x1 ?_ ?_ | refine Keeps.cut2 s0 x1 ?_ ?_ | refine Keeps.cutR s0 x1 ?_ ?_ | (first | refine keepLedger x1 ?_ | refine keepMem x1 ?_ | refine keepPath x1 ?_; subst x1) | (clear_value x1; revert x1) | subst x1)
    | apply State.emit_keeps | apply State.fresh_keeps | apply Keeps.ite | apply Keeps.foldl | apply Keeps.ite1
    | apply Keeps.ite2 | apply Keeps.iteR | apply Keeps.elim | apply Keeps.foldl1 | apply Keeps.foldl2 | split
    | (simp only [Keeps.mk_eq]; refine KeepsMk.of ?_ rfl rfl rfl rfl rfl rfl rfl rfl rfl rfl)

theorem State.sendTraining_keeps {s0 s : State} {a1} (h : Keeps s0 s) :
    Keeps s0 (State.sendTraining s a1) := by
  unfold State.sendTraining
  with_reducible repeat' first
    | assumption | intro _ | apply State.emitTraining_keeps | apply State.emit_keeps | apply Keeps.ite | apply Keeps.foldl | split
    | (simp only [Keeps.mk_eq]; refine KeepsMk.of ?_ rfl rfl rfl rfl rfl rfl rfl rfl rfl rfl)

theorem State.setLaser_keeps {s0 s : State} {a1 a2} (h : Keeps s0 s) :
    Keeps s0 (State.setLaser s a1 a2) := by
  unfold State.setLaser
  with_reducible repeat' first
    | assumption | apply Keeps.ite | split
    | (simp only [Keeps.mk_eq]; refine KeepsMk.of ?_ rfl rfl rfl rfl rfl rfl rfl rfl rfl rfl)

theorem State.restateLaser_keeps {s0 s : State} {a1} (h : Keeps s0 s) :
    Keeps s0 (State.restateLaser s a1) := by
  unfold State.restateLaser
  with_reducible repeat' first
    | assumption | intro _ | apply State.giveRing_keeps | apply State.ringLanesLost_keeps
    | apply State.parkRing_keeps | apply Keeps.ite | apply Keeps.foldl | split
    | (simp only [Keeps.mk_eq]; refine KeepsMk.of ?_ rfl rfl rfl rfl rfl rfl rfl rfl rfl rfl)

theorem State.askSupply_keeps {s0 s : State} {a1 a2 a3 a4 a5} (h : Keeps s0 s) :
    Keeps s0 (State.askSupply s a1 a2 a3 a4 a5) := by
  unfold State.askSupply
  with_reducible repeat' first
    | assumption | intro _ | apply State.emit_keeps | apply Keeps.ite | apply Keeps.foldl | split
    | (simp only [Keeps.mk_eq]; refine KeepsMk.of ?_ rfl rfl rfl rfl rfl rfl rfl rfl rfl rfl)

theorem State.raiseLine_keeps {s0 s : State} {a1 a2} (h : Keeps s0 s) :
    Keeps s0 (State.raiseLine s a1 a2) := by
  unfold State.raiseLine
  with_reducible repeat' first
    | assumption | intro _ | apply State.raiseAt_keeps | apply State.setLaser_keeps
    | apply State.askSupply_keeps | apply Keeps.ite | apply Keeps.foldl | split
    | (simp only [Keeps.mk_eq]; refine KeepsMk.of ?_ rfl rfl rfl rfl rfl rfl rfl rfl rfl rfl)

theorem State.twinUnavailable_keeps {s0 s : State} {a1} (h : Keeps s0 s) :
    Keeps s0 (State.twinUnavailable s a1) := by
  unfold State.twinUnavailable
  with_reducible repeat' first
    | assumption | intro _ | apply State.raiseAt_keeps | apply State.setLaser_keeps | apply Keeps.ite
    | apply Keeps.foldl | split
    | (simp only [Keeps.mk_eq]; refine KeepsMk.of ?_ rfl rfl rfl rfl rfl rfl rfl rfl rfl rfl)

theorem State.switchOver_keeps {s0 s : State} {a1 a2 a3 a4} (h : Keeps s0 s) :
    Keeps s0 (State.switchOver s a1 a2 a3 a4) := by
  unfold State.switchOver
  with_reducible repeat' first
    | assumption | intro _ | apply State.setLaser_keeps | apply State.setObj_keeps | apply State.bump_keeps | apply State.raiseAt_keeps
    | apply State.dropUnclear_keeps | apply Keeps.ite | apply Keeps.foldl | split
    | (simp only [Keeps.mk_eq]; refine KeepsMk.of ?_ rfl rfl rfl rfl rfl rfl rfl rfl rfl rfl)

theorem State.planSwitch_keeps {s0 s : State} {a1 a2} (h : Keeps s0 s) :
    Keeps s0 (State.planSwitch s a1 a2) := by
  unfold State.planSwitch
  with_reducible repeat' first
    | assumption | intro _ | apply State.setLaser_keeps | apply State.twinUnavailable_keeps | apply Keeps.ite
    | apply Keeps.foldl | split
    | (simp only [Keeps.mk_eq]; refine KeepsMk.of ?_ rfl rfl rfl rfl rfl rfl rfl rfl rfl rfl)

theorem State.emergency_keeps {s0 s : State} {a1} (h : Keeps s0 s) :
    Keeps s0 (State.emergency s a1) := by
  unfold State.emergency
  with_reducible repeat' first
    | assumption | intro _ | apply State.setLaser_keeps | apply State.switchOver_keeps
    | apply State.twinUnavailable_keeps | apply Keeps.ite | apply Keeps.foldl | split
    | (simp only [Keeps.mk_eq]; refine KeepsMk.of ?_ rfl rfl rfl rfl rfl rfl rfl rfl rfl rfl)

theorem State.judgeMargins_keeps {s0 s : State} {a1} (h : Keeps s0 s) :
    Keeps s0 (State.judgeMargins s a1) := by
  unfold State.judgeMargins
  with_reducible repeat' first
    | assumption | intro _ | apply State.setObj_keeps | apply State.raiseAt_keeps | apply State.setLaser_keeps
    | apply State.planSwitch_keeps | apply Keeps.ite | apply Keeps.foldl | split
    | (simp only [Keeps.mk_eq]; refine KeepsMk.of ?_ rfl rfl rfl rfl rfl rfl rfl rfl rfl rfl)

theorem execTxMonitorSample_keeps {s0 s : State} {a1 a2 a3} (h : Keeps s0 s) :
    KeepsO s0 (execTxMonitorSample a1 a2 a3 s) := by
  unfold execTxMonitorSample
  with_reducible repeat' first
    | assumption | intro _ | apply State.quiet_keeps | apply State.setBlob_keeps | apply State.limitHit_keeps
    | apply State.raiseLine_keeps | apply State.judgeMargins_keeps | apply State.emergency_keeps
    | apply Keeps.ite | apply Keeps.foldl | apply KeepsO.next | apply KeepsO.ite | split
    | (simp only [Keeps.mk_eq]; refine KeepsMk.of ?_ rfl rfl rfl rfl rfl rfl rfl rfl rfl rfl)

theorem execMonitorLineDrop_keeps {s0 s : State} {a1 a2} (h : Keeps s0 s) :
    KeepsO s0 (execMonitorLineDrop a1 a2 s) := by
  unfold execMonitorLineDrop
  with_reducible repeat' first
    | assumption | apply State.quiet_keeps | apply State.emergency_keeps | apply Keeps.ite | apply KeepsO.next
    | apply KeepsO.ite | split

theorem State.actSelect_keeps {s0 s : State} {a1 a2} (h : Keeps s0 s) :
    Keeps s0 (State.actSelect s a1 a2) := by
  unfold State.actSelect
  with_reducible repeat' first
    | assumption | intro _ | apply State.cmdDone_keeps | apply State.cmdStart_keeps | apply State.setLaser_keeps
    | apply State.cmdFail_keeps | apply Keeps.ite | apply Keeps.foldl | split
    | (simp only [Keeps.mk_eq]; refine KeepsMk.of ?_ rfl rfl rfl rfl rfl rfl rfl rfl rfl rfl)

theorem State.switchLasers_keeps {s0 s : State} (h : Keeps s0 s) :
    Keeps s0 (State.switchLasers s) := by
  unfold State.switchLasers
  with_reducible repeat' first
    | assumption | (intro _; clear_value x1; revert x1) | intro _ | (unfold x1; clear x1)
    | (extract_lets +onlyGivenNames -merge x1; first | refine Keeps.cut s0 x1 ?_ ?_ | (clear_value x1; revert x1))
    | apply State.setLaser_keeps | apply State.askSupply_keeps | apply State.switchOver_keeps
    | apply State.cmdDone_keeps | apply Keeps.ite | apply Keeps.foldl | split
    | (simp only [Keeps.mk_eq]; refine KeepsMk.of ?_ rfl rfl rfl rfl rfl rfl rfl rfl rfl rfl)

theorem State.askAgain_keeps {s0 s : State} {a1} (h : Keeps s0 s) :
    Keeps s0 (State.askAgain s a1) := by
  unfold State.askAgain
  with_reducible repeat' first
    | assumption | (intro _; first | (clear_value x1; revert x1) | subst x1) | intro _ | (unfold x1; clear x1)
    | (extract_lets +onlyGivenNames -merge x1; first | refine Keeps.cut s0 x1 ?_ ?_ | refine Keeps.cut1 s0 x1 ?_ ?_ | refine Keeps.cut2 s0 x1 ?_ ?_ | refine Keeps.cutR s0 x1 ?_ ?_ | (first | refine keepLedger x1 ?_ | refine keepMem x1 ?_ | refine keepPath x1 ?_; subst x1) | (clear_value x1; revert x1) | subst x1)
    | apply State.setLaser_keeps | apply State.askSupply_keeps | apply Keeps.ite | apply Keeps.foldl
    | apply Keeps.ite1 | apply Keeps.ite2 | apply Keeps.iteR | apply Keeps.elim | apply Keeps.foldl1
    | apply Keeps.foldl2 | split
    | (simp only [Keeps.mk_eq]; refine KeepsMk.of ?_ rfl rfl rfl rfl rfl rfl rfl rfl rfl rfl)

theorem State.pollSupplies_keeps {s0 s : State} (h : Keeps s0 s) :
    Keeps s0 (State.pollSupplies s) := by
  unfold State.pollSupplies
  with_reducible repeat' first
    | assumption | intro _ | apply State.askAgain_keeps | apply State.askSupply_keeps | apply Keeps.ite | apply Keeps.foldl | split
    | (simp only [Keeps.mk_eq]; refine KeepsMk.of ?_ rfl rfl rfl rfl rfl rfl rfl rfl rfl rfl)

theorem State.supplyStatus_keeps {s0 s : State} {a1 a2 a3} (h : Keeps s0 s) :
    Keeps s0 (State.supplyStatus s a1 a2 a3) := by
  unfold State.supplyStatus
  with_reducible repeat' first
    | assumption | (intro _; first | (clear_value x1; revert x1) | subst x1) | intro _ | (unfold x1; clear x1)
    | (extract_lets +onlyGivenNames -merge x1; first | refine Keeps.cut s0 x1 ?_ ?_ | refine Keeps.cut1 s0 x1 ?_ ?_ | refine Keeps.cut2 s0 x1 ?_ ?_ | refine Keeps.cutR s0 x1 ?_ ?_ | (first | refine keepLedger x1 ?_ | refine keepMem x1 ?_ | refine keepPath x1 ?_; subst x1) | (clear_value x1; revert x1) | subst x1)
    | apply State.setLaser_keeps | apply State.planSwitch_keeps | apply Keeps.ite | apply Keeps.foldl
    | apply Keeps.ite1 | apply Keeps.ite2 | apply Keeps.iteR | apply Keeps.elim | apply Keeps.foldl1
    | apply Keeps.foldl2 | split
    | (simp only [Keeps.mk_eq]; refine KeepsMk.of ?_ rfl rfl rfl rfl rfl rfl rfl rfl rfl rfl)

theorem execLscResponse_keeps {s0 s : State} {a1} (h : Keeps s0 s) :
    KeepsO s0 (execLscResponse a1 s) := by
  unfold execLscResponse
  with_reducible repeat' first
    | assumption | (intro _; first | (clear_value x1; revert x1) | subst x1) | intro _ | (unfold x1; clear x1)
    | (extract_lets +onlyGivenNames -merge x1; first | refine Keeps.cut s0 x1 ?_ ?_ | refine Keeps.cut1 s0 x1 ?_ ?_ | refine Keeps.cut2 s0 x1 ?_ ?_ | refine Keeps.cutR s0 x1 ?_ ?_ | (first | refine keepLedger x1 ?_ | refine keepMem x1 ?_ | refine keepPath x1 ?_; subst x1) | (clear_value x1; revert x1) | subst x1)
    | apply State.supplyStatus_keeps | apply State.quiet_keeps | apply State.setLaser_keeps | apply State.planSwitch_keeps
    | apply State.setObj_keeps | apply Keeps.ite | apply Keeps.foldl | apply Keeps.ite1 | apply Keeps.ite2
    | apply Keeps.iteR | apply Keeps.elim | apply Keeps.foldl1 | apply Keeps.foldl2 | apply KeepsO.next
    | apply KeepsO.ite | split
    | (simp only [Keeps.mk_eq]; refine KeepsMk.of ?_ rfl rfl rfl rfl rfl rfl rfl rfl rfl rfl)

theorem execLscRequestTimeout_keeps {s0 s : State} (h : Keeps s0 s) :
    KeepsO s0 (execLscRequestTimeout s) := by
  unfold execLscRequestTimeout
  with_reducible repeat' first
    | assumption | (intro _; clear_value x1; revert x1) | intro _ | (unfold x1; clear x1)
    | (extract_lets +onlyGivenNames -merge x1; first | refine Keeps.cut s0 x1 ?_ ?_ | (clear_value x1; revert x1))
    | apply State.quiet_keeps | apply State.advanceTo_keeps | apply State.bump_keeps | apply Keeps.ite
    | apply Keeps.foldl | apply KeepsO.next | apply KeepsO.ite | split
    | (simp only [Keeps.mk_eq]; refine KeepsMk.of ?_ rfl rfl rfl rfl rfl rfl rfl rfl rfl rfl)

theorem State.spareLaser_keeps {s0 s : State} {a1} (h : Keeps s0 s) :
    Keeps s0 (State.spareLaser s a1) := by
  unfold State.spareLaser
  with_reducible repeat' first
    | assumption | intro _ | apply State.setObj_keeps | apply State.raiseAt_keeps | apply State.linkFalls_keeps
    | apply Keeps.ite | apply Keeps.foldl | split
    | (simp only [Keeps.mk_eq]; refine KeepsMk.of ?_ rfl rfl rfl rfl rfl rfl rfl rfl rfl rfl)

theorem execControlLaserDrop_keeps {s0 s : State} {a1} (h : Keeps s0 s) :
    KeepsO s0 (execControlLaserDrop a1 s) := by
  unfold execControlLaserDrop
  with_reducible repeat' first
    | assumption | apply State.spareLaser_keeps | apply State.quiet_keeps | apply Keeps.ite | apply KeepsO.next
    | apply KeepsO.ite | split

theorem State.holdControl_keeps {s0 s : State} {a1} (h : Keeps s0 s) :
    Keeps s0 (State.holdControl s a1) := by
  unfold State.holdControl
  with_reducible repeat' first
    | assumption | intro _ | apply State.setObj_keeps | apply State.spareLaser_keeps
    | apply State.limitHit_keeps | apply Keeps.ite | apply Keeps.foldl | split
    | (simp only [Keeps.mk_eq]; refine KeepsMk.of ?_ rfl rfl rfl rfl rfl rfl rfl rfl rfl rfl)

theorem State.openGates_keeps {s0 s : State} (h : Keeps s0 s) :
    Keeps s0 (State.openGates s) := by
  unfold State.openGates
  with_reducible repeat' first
    | assumption | intro _ | apply State.setObj_keeps | apply Keeps.ite | apply Keeps.foldl | split
    | (simp only [Keeps.mk_eq]; refine KeepsMk.of ?_ rfl rfl rfl rfl rfl rfl rfl rfl rfl rfl)

theorem State.withPrep_keeps {s0 s : State} {a1} (h : Keeps s0 s) :
    Keeps s0 (State.withPrep s a1) := by
  unfold State.withPrep
  with_reducible repeat' first
    | assumption | apply Keeps.ite | split
    | (simp only [Keeps.mk_eq]; refine KeepsMk.of ?_ rfl rfl rfl rfl rfl rfl rfl rfl rfl rfl)

theorem State.forgetRings_keeps {s0 s : State} (h : Keeps s0 s) :
    Keeps s0 (State.forgetRings s) := by
  unfold State.forgetRings
  with_reducible repeat' first
    | assumption | intro _ | apply State.restateLaser_keeps | apply Keeps.foldl | apply Keeps.ite | split
    | (simp only [Keeps.mk_eq]; refine KeepsMk.of ?_ rfl rfl rfl rfl rfl rfl rfl rfl rfl rfl)

theorem State.forgetRtt_keeps {s0 s : State} {a1} (h : Keeps s0 s) :
    Keeps s0 (State.forgetRtt s a1) := by
  unfold State.forgetRtt
  with_reducible repeat' first
    | assumption | intro _ | apply State.setPort_keeps | apply State.setObj_keeps | apply Keeps.ite
    | apply Keeps.foldl | split
    | (simp only [Keeps.mk_eq]; refine KeepsMk.of ?_ rfl rfl rfl rfl rfl rfl rfl rfl rfl rfl)

theorem State.beginRehearsal_keeps {s0 s : State} (h : Keeps s0 s) :
    Keeps s0 (State.beginRehearsal s) := by
  unfold State.beginRehearsal
  with_reducible repeat' first
    | assumption | intro _ | apply State.forgetRtt_keeps | apply State.setObj_keeps | apply State.forgetRings_keeps
    | apply State.removeLanes_keeps | apply Keeps.ite | apply Keeps.foldl | split
    | (simp only [Keeps.mk_eq]; refine KeepsMk.of ?_ rfl rfl rfl rfl rfl rfl rfl rfl rfl rfl)

theorem State.endBlock_keeps {s0 s : State} (h : Keeps s0 s) :
    Keeps s0 (State.endBlock s) := by
  unfold State.endBlock
  with_reducible repeat' first
    | assumption | apply State.setObj_keeps | apply Keeps.ite | split

theorem State.endRehearsal_keeps {s0 s : State} (h : Keeps s0 s) :
    Keeps s0 (State.endRehearsal s) := by
  unfold State.endRehearsal
  with_reducible repeat' first
    | assumption | intro _ | apply State.cmdDone_keeps | apply State.setObj_keeps | apply Keeps.ite
    | apply Keeps.foldl | split
    | (simp only [Keeps.mk_eq]; refine KeepsMk.of ?_ rfl rfl rfl rfl rfl rfl rfl rfl rfl rfl)

theorem State.rehearse_keeps {s0 s : State} (h : Keeps s0 s) :
    Keeps s0 (State.rehearse s) := by
  unfold State.rehearse
  with_reducible repeat' first
    | assumption | intro _ | apply State.dropMovedLanes_keeps | apply State.beginRehearsal_keeps | apply State.endBlock_keeps
    | apply State.trimLanes_keeps | apply State.setRoutes_keeps | apply State.withPrep_keeps
    | apply State.endRehearsal_keeps | apply State.sendTraining_keeps | apply Keeps.ite | apply Keeps.foldl
    | split | (simp only [Keeps.mk_eq]; refine KeepsMk.of ?_ rfl rfl rfl rfl rfl rfl rfl rfl rfl rfl)

theorem State.forgetPrep_keeps {s0 s : State} (h : Keeps s0 s) :
    Keeps s0 (State.forgetPrep s) := by
  unfold State.forgetPrep
  with_reducible repeat' first
    | assumption | apply Keeps.ite | split
    | (simp only [Keeps.mk_eq]; refine KeepsMk.of ?_ rfl rfl rfl rfl rfl rfl rfl rfl rfl rfl)

theorem State.dropRehearsal_keeps {s0 s : State} (h : Keeps s0 s) :
    Keeps s0 (State.dropRehearsal s) := by
  unfold State.dropRehearsal
  with_reducible repeat' first
    | assumption | apply State.cmdFail_keeps | apply State.setObj_keeps | apply State.forgetPrep_keeps
    | apply Keeps.ite | split

theorem State.actXrClear_keeps {s0 s : State} (h : Keeps s0 s) :
    Keeps s0 (State.actXrClear s) := by
  unfold State.actXrClear
  with_reducible repeat' first
    | assumption | intro _ | apply State.cmdFail_keeps | apply State.cmdStart_keeps | apply Keeps.ite
    | apply Keeps.foldl | split
    | (simp only [Keeps.mk_eq]; refine KeepsMk.of ?_ rfl rfl rfl rfl rfl rfl rfl rfl rfl rfl)

theorem State.clearCrossroads_keeps {s0 s : State} (h : Keeps s0 s) :
    Keeps s0 (State.clearCrossroads s) := by
  unfold State.clearCrossroads
  with_reducible repeat' first
    | assumption | intro _ | apply State.cmdFail_keeps | apply State.cmdDone_keeps | apply State.setRoute_keeps
    | apply State.loseLane_keeps | apply Keeps.ite | apply Keeps.foldl | split
    | (simp only [Keeps.mk_eq]; refine KeepsMk.of ?_ rfl rfl rfl rfl rfl rfl rfl rfl rfl rfl)

theorem State.parkFailed_keeps {s0 s : State} (h : Keeps s0 s) :
    Keeps s0 (State.parkFailed s) := by
  unfold State.parkFailed
  with_reducible repeat' first
    | assumption | apply Keeps.ite | split
    | (simp only [Keeps.mk_eq]; refine KeepsMk.of ?_ rfl rfl rfl rfl rfl rfl rfl rfl rfl rfl)

end Sys2Proof.Machine
end

