-- ==== Sys2Proof/Laws/Keeps/Router.lean ====
section
/-! SUPPORT. Every operation of Machine/Router.lean keeps what `Keeps` says. -/

namespace Sys2Proof.Machine

theorem State.setTxLink_keeps {s0 s : State} {a1 a2} (h : Keeps s0 s) :
    Keeps s0 (State.setTxLink s a1 a2) := by
  unfold State.setTxLink
  with_reducible repeat' first
    | assumption | apply Keeps.ite | split
    | (simp only [Keeps.mk_eq]; refine KeepsMk.of ?_ rfl rfl rfl rfl rfl rfl rfl rfl rfl rfl)

theorem State.setRxLink_keeps {s0 s : State} {a1 a2} (h : Keeps s0 s) :
    Keeps s0 (State.setRxLink s a1 a2) := by
  unfold State.setRxLink
  with_reducible repeat' first
    | assumption | apply Keeps.ite | split
    | (simp only [Keeps.mk_eq]; refine KeepsMk.of ?_ rfl rfl rfl rfl rfl rfl rfl rfl rfl rfl)

theorem State.leaveRouter_keeps {s0 s : State} {a1} (h : Keeps s0 s) :
    Keeps s0 (State.leaveRouter s a1) := by
  unfold State.leaveRouter
  with_reducible repeat' first
    | assumption | apply State.setRxLink_keeps | apply Keeps.ite | split
    | (simp only [Keeps.mk_eq]; refine KeepsMk.of ?_ rfl rfl rfl rfl rfl rfl rfl rfl rfl rfl)

theorem State.noteHost_keeps {s0 s : State} {a1 a2} (h : Keeps s0 s) :
    Keeps s0 (State.noteHost s a1 a2) := by
  unfold State.noteHost
  with_reducible repeat' first
    | assumption | apply State.bump_keeps | apply Keeps.ite | split

theorem execPacketRoute_keeps {s0 s : State} (h : Keeps s0 s) :
    KeepsO s0 (execPacketRoute s) := by
  unfold execPacketRoute
  with_reducible repeat' first
    | assumption | (intro _; clear_value x1; revert x1) | intro _ | (unfold x1; clear x1)
    | (extract_lets +onlyGivenNames -merge x1; first | refine Keeps.cut s0 x1 ?_ ?_ | (clear_value x1; revert x1))
    | apply State.quiet_keeps | apply State.leaveRouter_keeps | apply State.emit_keeps
    | apply State.noteHost_keeps | apply State.bump_keeps | apply State.raise_keeps
    | apply State.setTxLink_keeps | apply Keeps.ite | apply Keeps.foldl | apply KeepsO.next | apply KeepsO.ite
    | split | (simp only [Keeps.mk_eq]; refine KeepsMk.of ?_ rfl rfl rfl rfl rfl rfl rfl rfl rfl rfl)

theorem execEscapeTimeout_keeps {s0 s : State} (h : Keeps s0 s) :
    KeepsO s0 (execEscapeTimeout s) := by
  unfold execEscapeTimeout
  with_reducible repeat' first
    | assumption | (intro _; clear_value x1; revert x1) | intro _ | (unfold x1; clear x1)
    | (extract_lets +onlyGivenNames -merge x1; first | refine Keeps.cut s0 x1 ?_ ?_ | (clear_value x1; revert x1))
    | apply State.quiet_keeps | apply State.advanceTo_keeps | apply State.bump_keeps | apply Keeps.ite
    | apply Keeps.foldl | apply KeepsO.next | apply KeepsO.ite | split
    | (simp only [Keeps.mk_eq]; refine KeepsMk.of ?_ rfl rfl rfl rfl rfl rfl rfl rfl rfl rfl)

theorem State.countGroup_keeps {s0 s : State} {a1 a2} (h : Keeps s0 s) :
    Keeps s0 (State.countGroup s a1 a2) := by
  unfold State.countGroup
  with_reducible repeat' first
    | assumption | apply State.setObj_keeps | apply Keeps.ite | split

theorem State.sendGroup_keeps {s0 s : State} {a1 a2 a3 a4} (h : Keeps s0 s) :
    Keeps s0 (State.sendGroup s a1 a2 a3 a4) := by
  unfold State.sendGroup
  with_reducible repeat' first
    | assumption | apply State.setTxLink_keeps | apply State.countGroup_keeps | apply State.emit_keeps
    | apply Keeps.ite | split

theorem State.countWait_keeps {s0 s : State} {a1 a2} (h : Keeps s0 s) :
    Keeps s0 (State.countWait s a1 a2) := by
  unfold State.countWait
  with_reducible repeat' first
    | assumption | apply State.addObj_keeps | apply Keeps.ite | split

theorem execGroupSend_keeps {s0 s : State} {a1 a2} (h : Keeps s0 s) :
    KeepsO s0 (execGroupSend a1 a2 s) := by
  unfold execGroupSend
  with_reducible repeat' first
    | assumption | (intro _; clear_value x1; revert x1) | intro _ | (unfold x1; clear x1)
    | (extract_lets +onlyGivenNames -merge x1; first | refine Keeps.cut s0 x1 ?_ ?_ | (clear_value x1; revert x1))
    | apply State.quiet_keeps | apply State.advanceTo_keeps | apply State.setTxLink_keeps
    | apply State.sendGroup_keeps | apply State.countWait_keeps | apply State.addObj_keeps | apply Keeps.ite
    | apply Keeps.foldl | apply KeepsO.next | apply KeepsO.ite | split
    | (simp only [Keeps.mk_eq]; refine KeepsMk.of ?_ rfl rfl rfl rfl rfl rfl rfl rfl rfl rfl)

theorem State.takeReturn_keeps {s0 s : State} {a1 a2 a3} (h : Keeps s0 s) :
    Keeps s0 (State.takeReturn s a1 a2 a3) := by
  unfold State.takeReturn
  with_reducible repeat' first
    | assumption | apply State.setTxLink_keeps | apply Keeps.ite | split

theorem State.relay_keeps {s0 s : State} {a1 a2 a3 a4} (h : Keeps s0 s) :
    Keeps s0 (State.relay s a1 a2 a3 a4) := by
  unfold State.relay
  with_reducible repeat' first
    | assumption | apply State.ctlFrame_keeps | apply Keeps.ite | split

theorem State.sendNak_keeps {s0 s : State} {a1} (h : Keeps s0 s) :
    Keeps s0 (State.sendNak s a1) := by
  unfold State.sendNak
  with_reducible repeat' first
    | assumption | apply State.ctlFrame_keeps | apply State.setRxLink_keeps | apply Keeps.ite | split

theorem execNakFrame_keeps {s0 s : State} {a1 a2 a3} (h : Keeps s0 s) :
    KeepsO s0 (execNakFrame a1 a2 a3 s) := by
  unfold execNakFrame
  with_reducible repeat' first
    | assumption | apply State.quiet_keeps | apply State.setTxLink_keeps | apply State.ctlFrame_keeps
    | apply State.bump_keeps | apply State.raiseAt_keeps | apply State.relay_keeps | apply Keeps.ite
    | apply KeepsO.next | apply KeepsO.ite | split

theorem execNakRepeat_keeps {s0 s : State} {a1 a2} (h : Keeps s0 s) :
    KeepsO s0 (execNakRepeat a1 a2 s) := by
  unfold execNakRepeat
  with_reducible repeat' first
    | assumption | (intro _; clear_value x1; revert x1) | intro _ | (unfold x1; clear x1)
    | (extract_lets +onlyGivenNames -merge x1; first | refine Keeps.cut s0 x1 ?_ ?_ | (clear_value x1; revert x1))
    | apply State.quiet_keeps | apply State.sendNak_keeps | apply State.advanceTo_keeps | apply Keeps.ite
    | apply Keeps.foldl | apply KeepsO.next | apply KeepsO.ite | split
    | (simp only [Keeps.mk_eq]; refine KeepsMk.of ?_ rfl rfl rfl rfl rfl rfl rfl rfl rfl rfl)

theorem execReplayFrame_keeps {s0 s : State} {a1 a2 a3 a4} (h : Keeps s0 s) :
    KeepsO s0 (execReplayFrame a1 a2 a3 a4 s) := by
  unfold execReplayFrame
  with_reducible repeat' first
    | assumption | (intro _; clear_value x1; revert x1) | intro _ | (unfold x1; clear x1)
    | (extract_lets +onlyGivenNames -merge x1; first | refine Keeps.cut s0 x1 ?_ ?_ | (clear_value x1; revert x1))
    | apply State.quiet_keeps | apply State.setRxLink_keeps | apply State.relay_keeps | apply Keeps.ite
    | apply Keeps.foldl | apply KeepsO.next | apply KeepsO.ite | split
    | (simp only [Keeps.mk_eq]; refine KeepsMk.of ?_ rfl rfl rfl rfl rfl rfl rfl rfl rfl rfl)

theorem execReturnFrame_keeps {s0 s : State} {a1 a2 a3 a4} (h : Keeps s0 s) :
    KeepsO s0 (execReturnFrame a1 a2 a3 a4 s) := by
  unfold execReturnFrame
  with_reducible repeat' first
    | assumption | apply State.quiet_keeps | apply State.takeReturn_keeps | apply State.relay_keeps
    | apply Keeps.ite | apply KeepsO.next | apply KeepsO.ite | split

theorem execReturnSend_keeps {s0 s : State} {a1 a2} (h : Keeps s0 s) :
    KeepsO s0 (execReturnSend a1 a2 s) := by
  unfold execReturnSend
  with_reducible repeat' first
    | assumption | (intro _; clear_value x1; revert x1) | intro _ | (unfold x1; clear x1)
    | (extract_lets +onlyGivenNames -merge x1; first | refine Keeps.cut s0 x1 ?_ ?_ | (clear_value x1; revert x1))
    | apply State.quiet_keeps | apply State.ctlFrame_keeps | apply Keeps.ite | apply Keeps.foldl
    | apply KeepsO.next | apply KeepsO.ite | split
    | (simp only [Keeps.mk_eq]; refine KeepsMk.of ?_ rfl rfl rfl rfl rfl rfl rfl rfl rfl rfl)

theorem State.takeCodeword_keeps {s0 s : State} {a1 a2} (h : Keeps s0 s) :
    Keeps s0 (State.takeCodeword s a1 a2) := by
  unfold State.takeCodeword
  with_reducible repeat' first
    | assumption | intro _ | apply State.bump_keeps | apply State.loseLane_keeps | apply State.setPort_keeps
    | apply Keeps.ite | apply Keeps.foldl | split
    | (simp only [Keeps.mk_eq]; refine KeepsMk.of ?_ rfl rfl rfl rfl rfl rfl rfl rfl rfl rfl)

theorem State.noteHwm_keeps {s0 s : State} {a1 a2} (h : Keeps s0 s) :
    Keeps s0 (State.noteHwm s a1 a2) := by
  unfold State.noteHwm
  with_reducible repeat' first
    | assumption | apply State.setBlob_keeps | apply Keeps.ite | split

theorem State.takeFlit_keeps {s0 s : State} {a1 a2} (h : Keeps s0 s) :
    Keeps s0 (State.takeFlit s a1 a2) := by
  unfold State.takeFlit
  with_reducible repeat' first
    | assumption | intro _ | apply State.bump_keeps | apply State.setRxLink_keeps | apply State.noteHwm_keeps
    | apply State.leaveRouter_keeps | apply Keeps.ite | apply Keeps.foldl | split
    | (simp only [Keeps.mk_eq]; refine KeepsMk.of ?_ rfl rfl rfl rfl rfl rfl rfl rfl rfl rfl)

theorem State.refuseGroup_keeps {s0 s : State} {a1 a2} (h : Keeps s0 s) :
    Keeps s0 (State.refuseGroup s a1 a2) := by
  unfold State.refuseGroup
  with_reducible repeat' first
    | assumption | intro _ | apply State.setRxLink_keeps | apply State.sendNak_keeps | apply State.raiseAt_keeps
    | apply State.loseLane_keeps | apply State.setPort_keeps | apply Keeps.ite | apply Keeps.foldl | split
    | (simp only [Keeps.mk_eq]; refine KeepsMk.of ?_ rfl rfl rfl rfl rfl rfl rfl rfl rfl rfl)

theorem execGroupReceive_keeps {s0 s : State} {a1} (h : Keeps s0 s) :
    KeepsO s0 (execGroupReceive a1 s) := by
  unfold execGroupReceive
  with_reducible repeat' first
    | assumption | (intro _; clear_value x1; revert x1) | intro _ | (unfold x1; clear x1)
    | (extract_lets +onlyGivenNames -merge x1; first | refine Keeps.cut s0 x1 ?_ ?_ | (clear_value x1; revert x1))
    | apply State.quiet_keeps | apply State.takeCodeword_keeps | apply State.countGroup_keeps
    | apply State.refuseGroup_keeps | apply State.bump_keeps | apply State.takeReturn_keeps
    | apply State.setRxLink_keeps | apply State.takeFlit_keeps | apply Keeps.ite | apply Keeps.foldl
    | apply KeepsO.next | apply KeepsO.ite | split
    | (simp only [Keeps.mk_eq]; refine KeepsMk.of ?_ rfl rfl rfl rfl rfl rfl rfl rfl rfl rfl)

theorem State.routeMgmt_keeps {s0 s : State} {a1 a2} (h : Keeps s0 s) :
    Keeps s0 (State.routeMgmt s a1 a2) := by
  unfold State.routeMgmt
  with_reducible repeat' first
    | assumption | intro _ | apply State.bump_keeps | apply State.emit_keeps | apply State.badHead_keeps
    | apply State.sendMgmt_keeps | apply Keeps.ite | apply Keeps.foldl | split
    | (simp only [Keeps.mk_eq]; refine KeepsMk.of ?_ rfl rfl rfl rfl rfl rfl rfl rfl rfl rfl)

theorem State.takeMgmt_keeps {s0 s : State} {a1 a2 a3} (h : Keeps s0 s) :
    Keeps s0 (State.takeMgmt s a1 a2 a3) := by
  unfold State.takeMgmt
  with_reducible repeat' first
    | assumption | intro _ | apply State.takeCtl_keeps | apply State.setPort_keeps | apply State.routeMgmt_keeps
    | apply Keeps.ite | apply Keeps.foldl | split
    | (simp only [Keeps.mk_eq]; refine KeepsMk.of ?_ rfl rfl rfl rfl rfl rfl rfl rfl rfl rfl)

theorem State.actTelemetryClear_keeps {s0 s : State} (h : Keeps s0 s) :
    Keeps s0 (State.actTelemetryClear s) := by
  unfold State.actTelemetryClear
  with_reducible repeat' first
    | assumption | intro _ | apply State.setObj_keeps | apply State.setBlob_keeps | apply State.cmdDone_keeps
    | apply Keeps.ite | apply Keeps.foldl | split
    | (simp only [Keeps.mk_eq]; refine KeepsMk.of ?_ rfl rfl rfl rfl rfl rfl rfl rfl rfl rfl)

end Sys2Proof.Machine
end

