-- ==== Sys2Proof/Laws/Keeps/Admission.lean ====
section
/-! SUPPORT. Every operation of Machine/Admission.lean keeps what `Keeps` says. -/

namespace Sys2Proof.Machine

theorem State.setTree_keeps {s0 s : State} {a1} (h : Keeps s0 s) :
    Keeps s0 (State.setTree s a1) := by
  unfold State.setTree
  with_reducible repeat' first
    | assumption | apply State.setObj_keeps | apply Keeps.ite | split

theorem State.actRelease_keeps {s0 s : State} (h : Keeps s0 s) :
    Keeps s0 (State.actRelease s) := by
  unfold State.actRelease
  with_reducible repeat' first
    | assumption | intro _ | apply State.cmdStart_keeps | apply State.cmdFail_keeps | apply State.cmdDone_keeps
    | apply Keeps.ite | apply Keeps.foldl | split
    | (simp only [Keeps.mk_eq]; refine KeepsMk.of ?_ rfl rfl rfl rfl rfl rfl rfl rfl rfl rfl)

theorem State.actPrepare_keeps {s0 s : State} {a1} (h : Keeps s0 s) :
    Keeps s0 (State.actPrepare s a1) := by
  unfold State.actPrepare
  with_reducible repeat' first
    | assumption | apply State.cmdFail_keeps | apply State.setObj_keeps | apply State.cmdStart_keeps
    | apply Keeps.ite | split
    | (simp only [Keeps.mk_eq]; refine KeepsMk.of ?_ rfl rfl rfl rfl rfl rfl rfl rfl rfl rfl)

theorem State.actJobStop_keeps {s0 s : State} (h : Keeps s0 s) :
    Keeps s0 (State.actJobStop s) := by
  unfold State.actJobStop
  with_reducible repeat' first
    | assumption | intro _ | apply State.cmdDone_keeps | apply Keeps.ite | apply Keeps.foldl | split
    | (simp only [Keeps.mk_eq]; refine KeepsMk.of ?_ rfl rfl rfl rfl rfl rfl rfl rfl rfl rfl)

theorem State.setRecipe_keeps {s0 s : State} {a1} (h : Keeps s0 s) :
    Keeps s0 (State.setRecipe s a1) := by
  unfold State.setRecipe
  with_reducible repeat' first
    | assumption | apply State.setObj_keeps | apply State.setBlob_keeps | apply Keeps.ite | split

theorem State.setPlanDigest_keeps {s0 s : State} {a1 a2} (h : Keeps s0 s) :
    Keeps s0 (State.setPlanDigest s a1 a2) := by
  unfold State.setPlanDigest
  with_reducible repeat' first
    | assumption | apply State.setObj_keeps | apply State.setBlob_keeps | apply Keeps.ite | split

theorem State.openFlows_keeps {s0 s : State} {a1} (h : Keeps s0 s) :
    Keeps s0 (State.openFlows s a1) := by
  unfold State.openFlows
  with_reducible repeat' first
    | assumption | intro _ | apply State.setFlow_keeps | apply State.setObj_keeps | apply Keeps.ite
    | apply Keeps.foldl | split
    | (simp only [Keeps.mk_eq]; refine KeepsMk.of ?_ rfl rfl rfl rfl rfl rfl rfl rfl rfl rfl)

theorem State.setPlanCounts_keeps {s0 s : State} {a1} (h : Keeps s0 s) :
    Keeps s0 (State.setPlanCounts s a1) := by
  unfold State.setPlanCounts
  with_reducible repeat' first
    | assumption | apply State.setObj_keeps | apply Keeps.ite | split

theorem State.clearStrikes_keeps {s0 s : State} (h : Keeps s0 s) :
    Keeps s0 (State.clearStrikes s) := by
  unfold State.clearStrikes
  with_reducible repeat' first
    | assumption | intro _ | apply State.setObj_keeps | apply Keeps.ite | apply Keeps.foldl | split
    | (simp only [Keeps.mk_eq]; refine KeepsMk.of ?_ rfl rfl rfl rfl rfl rfl rfl rfl rfl rfl)

theorem State.admitPlan_keeps {s0 s : State} {a1 a2} (h : Keeps s0 s) :
    Keeps s0 (State.admitPlan s a1 a2) := by
  unfold State.admitPlan
  with_reducible repeat' first
    | assumption | apply State.setPlanDigest_keeps | apply State.setObj_keeps | apply State.openFlows_keeps
    | apply State.setRecipe_keeps | apply State.setTree_keeps | apply State.setPlanCounts_keeps
    | apply State.clearStrikes_keeps | apply Keeps.ite | split
    | (simp only [Keeps.mk_eq]; refine KeepsMk.of ?_ rfl rfl rfl rfl rfl rfl rfl rfl rfl rfl)

theorem State.actAdmit_keeps {s0 s : State} (h : Keeps s0 s) :
    Keeps s0 (State.actAdmit s) := by
  unfold State.actAdmit
  with_reducible repeat' first
    | assumption | intro _ | apply State.setObj_keeps | apply State.cmdStart_keeps | apply State.cmdFail_keeps
    | apply Keeps.ite | apply Keeps.foldl | split
    | (simp only [Keeps.mk_eq]; refine KeepsMk.of ?_ rfl rfl rfl rfl rfl rfl rfl rfl rfl rfl)

theorem State.actJobStart_keeps {s0 s : State} {a1} (h : Keeps s0 s) :
    Keeps s0 (State.actJobStart s a1) := by
  unfold State.actJobStart
  with_reducible repeat' first
    | assumption | intro _ | apply State.cmdFail_keeps | apply State.cmdStart_keeps | apply Keeps.ite
    | apply Keeps.foldl | split
    | (simp only [Keeps.mk_eq]; refine KeepsMk.of ?_ rfl rfl rfl rfl rfl rfl rfl rfl rfl rfl)

theorem State.setPlanResult_keeps {s0 s : State} {a1} (h : Keeps s0 s) :
    Keeps s0 (State.setPlanResult s a1) := by
  unfold State.setPlanResult
  with_reducible repeat' first
    | assumption | apply State.setObj_keeps | apply Keeps.ite | split

theorem execAdmissionResult_keeps {s0 s : State} (h : Keeps s0 s) :
    KeepsO s0 (execAdmissionResult s) := by
  unfold execAdmissionResult
  with_reducible repeat' first
    | assumption | (intro _; clear_value x1; revert x1) | intro _ | (unfold x1; clear x1)
    | (extract_lets +onlyGivenNames -merge x1; first | refine Keeps.cut s0 x1 ?_ ?_ | (clear_value x1; revert x1))
    | apply State.quiet_keeps | apply State.cmdDone_keeps | apply State.admitPlan_keeps
    | apply State.setPlanResult_keeps | apply State.cmdFail_keeps | apply State.setObj_keeps | apply Keeps.ite
    | apply Keeps.foldl | apply KeepsO.next | apply KeepsO.ite | split
    | (simp only [Keeps.mk_eq]; refine KeepsMk.of ?_ rfl rfl rfl rfl rfl rfl rfl rfl rfl rfl)

end Sys2Proof.Machine
end

