-- ==== Sys2Proof/Laws/Keeps/Integrity.lean ====
section
/-! SUPPORT. Every operation of Machine/Integrity.lean keeps what `Keeps` says. -/

namespace Sys2Proof.Machine

theorem State.setCore_keeps {s0 s : State} {a1 a2} (h : Keeps s0 s) :
    Keeps s0 (State.setCore s a1 a2) := by
  unfold State.setCore
  with_reducible repeat' first
    | assumption | apply Keeps.ite | split
    | (simp only [Keeps.mk_eq]; refine KeepsMk.of ?_ rfl rfl rfl rfl rfl rfl rfl rfl rfl rfl)

theorem State.fenceEngine_keeps {s0 s : State} {a1 a2} (h : Keeps s0 s) :
    Keeps s0 (State.fenceEngine s a1 a2) := by
  unfold State.fenceEngine
  with_reducible repeat' first
    | assumption | (intro _; clear_value x1; revert x1) | intro _ | (unfold x1; clear x1)
    | (extract_lets +onlyGivenNames -merge x1; first | refine Keeps.cut s0 x1 ?_ ?_ | (clear_value x1; revert x1))
    | apply State.bump_keeps | apply State.setObj_keeps | apply State.raise_keeps | apply State.poison_keeps
    | apply State.countSpares_keeps | apply Keeps.ite | apply Keeps.foldl | split
    | (simp only [Keeps.mk_eq]; refine KeepsMk.of ?_ rfl rfl rfl rfl rfl rfl rfl rfl rfl rfl)

theorem State.strikeEngine_keeps {s0 s : State} {a1 a2} (h : Keeps s0 s) :
    Keeps s0 (State.strikeEngine s a1 a2) := by
  unfold State.strikeEngine
  with_reducible repeat' first
    | assumption | apply State.poison_keeps | apply State.setObj_keeps | apply State.fenceEngine_keeps
    | apply Keeps.ite | split

theorem State.substitute_keeps {s0 s : State} (h : Keeps s0 s) :
    Keeps s0 (State.substitute s) := by
  unfold State.substitute
  with_reducible repeat' first
    | assumption | (intro _; clear_value x1; revert x1) | intro _ | (unfold x1; clear x1)
    | (extract_lets +onlyGivenNames -merge x1; first | refine Keeps.cut s0 x1 ?_ ?_ | (clear_value x1; revert x1))
    | apply State.setCore_keeps | apply State.setEng_keeps | refine State.setCore_keeps ?_ | apply State.bindSpare_keeps | apply State.countSpares_keeps | apply State.setEng_keeps | apply State.setObj_keeps | apply Keeps.ite
    | apply Keeps.foldl | split
    | (simp only [Keeps.mk_eq]; refine KeepsMk.of ?_ rfl rfl rfl rfl rfl rfl rfl rfl rfl rfl)

theorem State.strikeUnit_keeps {s0 s : State} {a1 a2 a3} (h : Keeps s0 s) :
    Keeps s0 (State.strikeUnit s a1 a2 a3) := by
  unfold State.strikeUnit
  with_reducible repeat' first
    | assumption | intro _ | apply State.poison_keeps | apply State.setObj_keeps | apply State.raise_keeps
    | apply Keeps.ite | apply Keeps.foldl | split
    | (simp only [Keeps.mk_eq]; refine KeepsMk.of ?_ rfl rfl rfl rfl rfl rfl rfl rfl rfl rfl)

theorem State.countFailing_keeps {s0 s : State} {a1 a2} (h : Keeps s0 s) :
    Keeps s0 (State.countFailing s a1 a2) := by
  unfold State.countFailing
  with_reducible repeat' first
    | assumption | intro _ | apply State.setObj_keeps | apply State.bump_keeps | apply Keeps.ite
    | apply Keeps.foldl | split
    | (simp only [Keeps.mk_eq]; refine KeepsMk.of ?_ rfl rfl rfl rfl rfl rfl rfl rfl rfl rfl)

theorem State.beginCapture_keeps {s0 s : State} {a1 a2} (h : Keeps s0 s) :
    Keeps s0 (State.beginCapture s a1 a2) := by
  unfold State.beginCapture
  with_reducible repeat' first
    | assumption | intro _ | apply Keeps.ite | apply Keeps.foldl | split
    | (simp only [Keeps.mk_eq]; refine KeepsMk.of ?_ rfl rfl rfl rfl rfl rfl rfl rfl rfl rfl)

theorem State.failVerdict_keeps {s0 s : State} {a1 a2} (h : Keeps s0 s) :
    Keeps s0 (State.failVerdict s a1 a2) := by
  unfold State.failVerdict
  with_reducible repeat' first
    | assumption | intro _ | apply State.countFailing_keeps | apply State.setObj_keeps | apply State.bump_keeps
    | apply State.raise_keeps | apply State.beginCapture_keeps | apply State.strikeEngine_keeps
    | apply State.strikeUnit_keeps | apply Keeps.ite | apply Keeps.foldl | split
    | (simp only [Keeps.mk_eq]; refine KeepsMk.of ?_ rfl rfl rfl rfl rfl rfl rfl rfl rfl rfl)

theorem State.generatorFails_keeps {s0 s : State} {a1} (h : Keeps s0 s) :
    Keeps s0 (State.generatorFails s a1) := by
  unfold State.generatorFails
  with_reducible repeat' first
    | assumption | intro _ | apply State.setObj_keeps | apply State.bump_keeps | apply State.raise_keeps
    | apply State.poison_keeps | apply State.strikeEngine_keeps | apply State.strikeUnit_keeps | apply Keeps.ite
    | apply Keeps.foldl | split
    | (simp only [Keeps.mk_eq]; refine KeepsMk.of ?_ rfl rfl rfl rfl rfl rfl rfl rfl rfl rfl)

theorem State.takeVerdict_keeps {s0 s : State} {a1} (h : Keeps s0 s) :
    Keeps s0 (State.takeVerdict s a1) := by
  unfold State.takeVerdict
  with_reducible repeat' first
    | assumption | (intro _; first | (clear_value x1; revert x1) | subst x1) | intro _ | (unfold x1; clear x1)
    | (extract_lets +onlyGivenNames -merge x1; first | refine Keeps.cut s0 x1 ?_ ?_ | refine Keeps.cut1 s0 x1 ?_ ?_ | refine Keeps.cut2 s0 x1 ?_ ?_ | refine Keeps.cutR s0 x1 ?_ ?_ | (first | refine keepLedger x1 ?_ | refine keepMem x1 ?_ | refine keepPath x1 ?_; subst x1) | (clear_value x1; revert x1) | subst x1)
    | apply State.failVerdict_keeps | apply State.setObj_keeps | apply Keeps.ite | apply Keeps.foldl
    | apply Keeps.ite1 | apply Keeps.ite2 | apply Keeps.iteR | apply Keeps.elim | apply Keeps.foldl1
    | apply Keeps.foldl2 | split
    | (simp only [Keeps.mk_eq]; refine KeepsMk.of ?_ rfl rfl rfl rfl rfl rfl rfl rfl rfl rfl)

theorem execVerdictArrival_keeps {s0 s : State} {a1} (h : Keeps s0 s) :
    KeepsO s0 (execVerdictArrival a1 s) := by
  unfold execVerdictArrival
  with_reducible repeat' first
    | assumption | (intro _; clear_value x1; revert x1) | intro _ | (unfold x1; clear x1)
    | (extract_lets +onlyGivenNames -merge x1; first | refine Keeps.cut s0 x1 ?_ ?_ | (clear_value x1; revert x1))
    | apply State.generatorFails_keeps | apply State.takeVerdict_keeps | apply State.quiet_keeps | apply State.setObj_keeps | apply State.failVerdict_keeps | apply Keeps.ite
    | apply Keeps.foldl | apply KeepsO.next | apply KeepsO.ite | split
    | (simp only [Keeps.mk_eq]; refine KeepsMk.of ?_ rfl rfl rfl rfl rfl rfl rfl rfl rfl rfl)

theorem State.slotCapture_keeps {s0 s : State} {a1} (h : Keeps s0 s) :
    Keeps s0 (State.slotCapture s a1) := by
  unfold State.slotCapture
  with_reducible repeat' first
    | assumption | intro _ | apply State.setObj_keeps | apply State.storeBy_keeps | apply State.bump_keeps
    | apply Keeps.ite | apply Keeps.foldl | split
    | (simp only [Keeps.mk_eq]; refine KeepsMk.of ?_ rfl rfl rfl rfl rfl rfl rfl rfl rfl rfl)

theorem execEvidenceCaptured_keeps {s0 s : State} {a1} (h : Keeps s0 s) :
    KeepsO s0 (execEvidenceCaptured a1 s) := by
  unfold execEvidenceCaptured
  with_reducible repeat' first
    | assumption | (intro _; clear_value x1; revert x1) | intro _ | (unfold x1; clear x1)
    | (extract_lets +onlyGivenNames -merge x1; first | refine Keeps.cut s0 x1 ?_ ?_ | (clear_value x1; revert x1))
    | apply State.quiet_keeps | apply State.setBlob_keeps | apply State.raise_keeps
    | apply State.slotCapture_keeps | apply State.bump_keeps | apply Keeps.ite | apply Keeps.foldl
    | apply KeepsO.next | apply KeepsO.ite | split
    | (simp only [Keeps.mk_eq]; refine KeepsMk.of ?_ rfl rfl rfl rfl rfl rfl rfl rfl rfl rfl)

theorem State.actEvidenceReset_keeps {s0 s : State} (h : Keeps s0 s) :
    Keeps s0 (State.actEvidenceReset s) := by
  unfold State.actEvidenceReset
  with_reducible repeat' first
    | assumption | apply State.cmdDone_keeps | apply State.setObj_keeps | apply Keeps.ite | split

theorem State.noteCase_keeps {s0 s : State} {a1 a2 a3} (h : Keeps s0 s) :
    Keeps s0 (State.noteCase s a1 a2 a3) := by
  unfold State.noteCase
  with_reducible repeat' first
    | assumption | (simp only [Keeps.mk_eq]; refine KeepsMk.of ?_ rfl rfl rfl rfl rfl rfl rfl rfl rfl rfl)

theorem State.failCase_keeps {s0 s : State} {a1 a2} (h : Keeps s0 s) :
    Keeps s0 (State.failCase s a1 a2) := by
  unfold State.failCase
  with_reducible repeat' first
    | assumption | intro _ | apply State.setObj_keeps | apply State.bump_keeps | apply State.raise_keeps
    | apply State.poison_keeps | apply State.strikeEngine_keeps | apply State.strikeUnit_keeps | apply Keeps.ite
    | apply Keeps.foldl | split
    | (simp only [Keeps.mk_eq]; refine KeepsMk.of ?_ rfl rfl rfl rfl rfl rfl rfl rfl rfl rfl)

theorem execPatternCaseDone_keeps {s0 s : State} {a1} (h : Keeps s0 s) :
    KeepsO s0 (execPatternCaseDone a1 s) := by
  unfold execPatternCaseDone
  with_reducible repeat' first
    | assumption | (intro _; clear_value x1; revert x1) | intro _ | (unfold x1; clear x1)
    | (extract_lets +onlyGivenNames -merge x1; first | refine Keeps.cut s0 x1 ?_ ?_ | (clear_value x1; revert x1))
    | apply State.quiet_keeps | apply State.bump_keeps | apply State.noteCase_keeps | apply State.failCase_keeps
    | apply Keeps.ite | apply Keeps.foldl | apply KeepsO.next | apply KeepsO.ite | split
    | (simp only [Keeps.mk_eq]; refine KeepsMk.of ?_ rfl rfl rfl rfl rfl rfl rfl rfl rfl rfl)

end Sys2Proof.Machine
end

