-- ==== Sys2Proof/Laws/Keeps/Clean.lean ====
section
/-! SUPPORT. Every operation of Machine/Clean.lean keeps what `Keeps` says. -/

namespace Sys2Proof.Machine

theorem State.keeperDown_keeps {s0 s : State} {a1 a2} (h : Keeps s0 s) :
    Keeps s0 (State.keeperDown s a1 a2) := by
  unfold State.keeperDown
  with_reducible repeat' first
    | assumption | intro _ | apply State.sendCtl_keeps | apply Keeps.ite | apply Keeps.foldl | split
    | (simp only [Keeps.mk_eq]; refine KeepsMk.of ?_ rfl rfl rfl rfl rfl rfl rfl rfl rfl rfl)

theorem State.setKeeper_keeps {s0 s : State} {a1} (h : Keeps s0 s) :
    Keeps s0 (State.setKeeper s a1) := by
  unfold State.setKeeper
  with_reducible repeat' first
    | assumption | apply Keeps.ite | split
    | (simp only [Keeps.mk_eq]; refine KeepsMk.of ?_ rfl rfl rfl rfl rfl rfl rfl rfl rfl rfl)

theorem State.keeperSend_keeps {s0 s : State} {a1} (h : Keeps s0 s) :
    Keeps s0 (State.keeperSend s a1) := by
  unfold State.keeperSend
  with_reducible repeat' first
    | assumption | intro _ | apply State.keeperDown_keeps | apply State.setKeeper_keeps
    | apply State.sendCtl_keeps | apply Keeps.ite | apply Keeps.foldl | split
    | (simp only [Keeps.mk_eq]; refine KeepsMk.of ?_ rfl rfl rfl rfl rfl rfl rfl rfl rfl rfl)

theorem State.sendDown_keeps {s0 s : State} {a1} (h : Keeps s0 s) :
    Keeps s0 (State.sendDown s a1) := by
  unfold State.sendDown
  with_reducible repeat' first
    | assumption | intro _ | apply State.sendCtl_keeps | apply Keeps.ite | apply Keeps.foldl | split
    | (simp only [Keeps.mk_eq]; refine KeepsMk.of ?_ rfl rfl rfl rfl rfl rfl rfl rfl rfl rfl)

theorem execCleanSend_keeps {s0 s : State} (h : Keeps s0 s) :
    KeepsO s0 (execCleanSend s) := by
  unfold execCleanSend
  with_reducible repeat' first
    | assumption | (intro _; first | (clear_value x1; revert x1) | subst x1) | intro _ | (unfold x1; clear x1)
    | (extract_lets +onlyGivenNames -merge x1; first | refine Keeps.cut s0 x1 ?_ ?_ | refine Keeps.cut1 s0 x1 ?_ ?_ | refine Keeps.cut2 s0 x1 ?_ ?_ | refine Keeps.cutR s0 x1 ?_ ?_ | (first | refine keepLedger x1 ?_ | refine keepMem x1 ?_ | refine keepPath x1 ?_; subst x1) | (clear_value x1; revert x1) | subst x1)
    | apply State.quiet_keeps | apply State.keeperSend_keeps | apply State.sendDown_keeps
    | apply State.sendCtl_keeps | apply Keeps.ite | apply Keeps.foldl | apply KeepsO.next | apply KeepsO.ite
    | apply Keeps.ite1 | apply Keeps.ite2 | apply Keeps.iteR | apply Keeps.elim | apply Keeps.foldl1
    | apply Keeps.foldl2 | split
    | (simp only [Keeps.mk_eq]; refine KeepsMk.of ?_ rfl rfl rfl rfl rfl rfl rfl rfl rfl rfl)

theorem State.keeperFrame_keeps {s0 s : State} {a1 a2 a3} (h : Keeps s0 s) :
    Keeps s0 (State.keeperFrame s a1 a2 a3) := by
  unfold State.keeperFrame
  with_reducible repeat' first
    | assumption | intro _ | apply State.bump_keeps | apply State.keeperDown_keeps | apply State.setKeeper_keeps
    | apply Keeps.ite | apply Keeps.foldl | split
    | (simp only [Keeps.mk_eq]; refine KeepsMk.of ?_ rfl rfl rfl rfl rfl rfl rfl rfl rfl rfl)

theorem execCleanFrame_keeps {s0 s : State} {a1 a2 a3} (h : Keeps s0 s) :
    KeepsO s0 (execCleanFrame a1 a2 a3 s) := by
  unfold execCleanFrame
  with_reducible repeat' first
    | assumption | (intro _; first | (clear_value x1; revert x1) | subst x1) | intro _ | (unfold x1; clear x1)
    | (extract_lets +onlyGivenNames -merge x1; first | refine Keeps.cut s0 x1 ?_ ?_ | refine Keeps.cut1 s0 x1 ?_ ?_ | refine Keeps.cut2 s0 x1 ?_ ?_ | refine Keeps.cutR s0 x1 ?_ ?_ | (first | refine keepLedger x1 ?_ | refine keepMem x1 ?_ | refine keepPath x1 ?_; subst x1) | (clear_value x1; revert x1) | subst x1)
    | apply State.quiet_keeps | apply State.takeCtl_keeps | apply State.keeperFrame_keeps
    | apply State.bump_keeps | apply State.sendDown_keeps | apply Keeps.ite | apply Keeps.foldl
    | apply KeepsO.next | apply KeepsO.ite | apply Keeps.ite1 | apply Keeps.ite2 | apply Keeps.iteR
    | apply Keeps.elim | apply Keeps.foldl1 | apply Keeps.foldl2 | split
    | (simp only [Keeps.mk_eq]; refine KeepsMk.of ?_ rfl rfl rfl rfl rfl rfl rfl rfl rfl rfl)

end Sys2Proof.Machine
end

