-- ==== Sys2Proof/Laws/Keeps/SelfTest.lean ====
section
/-! SUPPORT. Every operation of Machine/SelfTest.lean keeps what `Keeps` says. -/

namespace Sys2Proof.Machine

theorem State.actSteStart_keeps {s0 s : State} (h : Keeps s0 s) :
    Keeps s0 (State.actSteStart s) := by
  unfold State.actSteStart
  with_reducible repeat' first
    | assumption | apply State.cmdStart_keeps | apply Keeps.ite | split

theorem State.judgeSafe_keeps {s0 s : State} (h : Keeps s0 s) :
    Keeps s0 (State.judgeSafe s) := by
  unfold State.judgeSafe
  with_reducible repeat' first
    | assumption | intro _ | apply State.enterSafe_keeps | apply State.endPlan_keeps | apply State.setObj_keeps
    | apply Keeps.ite | apply Keeps.foldl | split
    | (simp only [Keeps.mk_eq]; refine KeepsMk.of ?_ rfl rfl rfl rfl rfl rfl rfl rfl rfl rfl)

theorem State.testOver_keeps {s0 s : State} (h : Keeps s0 s) :
    Keeps s0 (State.testOver s) := by
  unfold State.testOver
  with_reducible repeat' first
    | assumption | apply Keeps.ite | split
    | (simp only [Keeps.mk_eq]; refine KeepsMk.of ?_ rfl rfl rfl rfl rfl rfl rfl rfl rfl rfl)

theorem State.applyTest_keeps {s0 s : State} {a1} (h : Keeps s0 s) :
    Keeps s0 (State.applyTest s a1) := by
  unfold State.applyTest
  with_reducible repeat' first
    | assumption | apply State.showDegraded_keeps | apply State.rebuildSlots_keeps
    | apply State.applyReport_keeps | apply Keeps.ite | split

theorem State.storeTest_keeps {s0 s : State} {a1} (h : Keeps s0 s) :
    Keeps s0 (State.storeTest s a1) := by
  unfold State.storeTest
  with_reducible repeat' first
    | assumption | intro _ | apply State.setObj_keeps | apply State.setBlob_keeps | apply State.retirePage_keeps
    | apply Keeps.ite | apply Keeps.foldl | split
    | (simp only [Keeps.mk_eq]; refine KeepsMk.of ?_ rfl rfl rfl rfl rfl rfl rfl rfl rfl rfl)

theorem execSelfTestDone_keeps {s0 s : State} {a1} (h : Keeps s0 s) :
    KeepsO s0 (execSelfTestDone a1 s) := by
  unfold execSelfTestDone
  with_reducible repeat' first
    | assumption | apply State.quiet_keeps | apply State.advance_keeps | apply State.testOver_keeps
    | apply State.applyTest_keeps | apply State.storeTest_keeps | apply State.finishShutdown_keeps
    | apply State.judgeSafe_keeps | apply State.cmdEvent_keeps | apply State.setResult_keeps | apply Keeps.ite
    | apply KeepsO.next | apply KeepsO.ite | split

theorem State.showPacks_keeps {s0 s : State} (h : Keeps s0 s) :
    Keeps s0 (State.showPacks s) := by
  unfold State.showPacks
  with_reducible repeat' first
    | assumption | apply State.setBlob_keeps | apply State.setObj_keeps | apply Keeps.ite | split

theorem State.actPackRemove_keeps {s0 s : State} {a1} (h : Keeps s0 s) :
    Keeps s0 (State.actPackRemove s a1) := by
  unfold State.actPackRemove
  with_reducible repeat' first
    | assumption | intro _ | apply State.cmdFail_keeps | apply State.cmdDone_keeps | apply State.showPacks_keeps
    | apply Keeps.ite | apply Keeps.foldl | split
    | (simp only [Keeps.mk_eq]; refine KeepsMk.of ?_ rfl rfl rfl rfl rfl rfl rfl rfl rfl rfl)

theorem execSteProgramDone_keeps {s0 s : State} {a1} (h : Keeps s0 s) :
    KeepsO s0 (execSteProgramDone a1 s) := by
  unfold execSteProgramDone
  with_reducible repeat' first
    | assumption | apply State.quiet_keeps | apply State.cmdDone_keeps | apply State.setBlob_keeps
    | apply Keeps.ite | apply KeepsO.next | apply KeepsO.ite | split

theorem State.actStRun_keeps {s0 s : State} (h : Keeps s0 s) :
    Keeps s0 (State.actStRun s) := by
  unfold State.actStRun
  with_reducible repeat' first
    | assumption | intro _ | apply State.cmdFail_keeps | apply State.cmdStart_keeps | apply Keeps.ite
    | apply Keeps.foldl | split
    | (simp only [Keeps.mk_eq]; refine KeepsMk.of ?_ rfl rfl rfl rfl rfl rfl rfl rfl rfl rfl)

theorem State.takePack_keeps {s0 s : State} {a1} (h : Keeps s0 s) :
    Keeps s0 (State.takePack s a1).1 := by
  unfold State.takePack
  with_reducible repeat' first
    | assumption | apply State.raise_keeps | apply State.showPacks_keeps | apply Keeps.ite | split
    | (simp only [Keeps.mk_eq]; refine KeepsMk.of ?_ rfl rfl rfl rfl rfl rfl rfl rfl rfl rfl)

end Sys2Proof.Machine
end

