-- ==== Sys2Proof/Laws/Keeps/Cores.lean ====
section
/-! SUPPORT. Every operation of Machine/Cores.lean keeps what `Keeps` says. -/

namespace Sys2Proof.Machine

theorem State.coreRet_keeps {s0 s : State} {a1 a2 a3} (h : Keeps s0 s) :
    Keeps s0 (State.coreRet s a1 a2 a3) := by
  unfold State.coreRet
  with_reducible repeat' first
    | assumption | apply State.setCore_keeps | apply Keeps.ite | split

theorem execCoreResume_keeps {s0 s : State} {a1 a2} (h : Keeps s0 s) :
    KeepsO s0 (execCoreResume a1 a2 s) := by
  unfold execCoreResume
  with_reducible repeat' first
    | assumption | (intro _; clear_value x1; revert x1) | intro _ | (unfold x1; clear x1)
    | (extract_lets +onlyGivenNames -merge x1; first | refine Keeps.cut s0 x1 ?_ ?_ | (clear_value x1; revert x1))
    | apply State.quiet_keeps | apply State.setCore_keeps | apply State.setObj_keeps | apply State.coreRet_keeps
    | apply Keeps.ite | apply Keeps.foldl | apply KeepsO.next | apply KeepsO.ite | split
    | (simp only [Keeps.mk_eq]; refine KeepsMk.of ?_ rfl rfl rfl rfl rfl rfl rfl rfl rfl rfl)

theorem State.coreStall_keeps {s0 s : State} {a1 a2} (h : Keeps s0 s) :
    Keeps s0 (State.coreStall s a1 a2) := by
  unfold State.coreStall
  with_reducible repeat' first
    | assumption | apply State.setCore_keeps | apply State.setObj_keeps | apply Keeps.ite | split

theorem execSummaryMerge_keeps {s0 s : State} {a1 a2} (h : Keeps s0 s) :
    KeepsO s0 (execSummaryMerge a1 a2 s) := by
  unfold execSummaryMerge
  with_reducible repeat' first
    | assumption | (intro _; clear_value x1; revert x1) | intro _ | (unfold x1; clear x1)
    | (extract_lets +onlyGivenNames -merge x1; first | refine Keeps.cut s0 x1 ?_ ?_ | (clear_value x1; revert x1))
    | apply State.quiet_keeps | apply State.setCore_keeps | apply Keeps.ite | apply Keeps.foldl
    | apply KeepsO.next | apply KeepsO.ite | split
    | (simp only [Keeps.mk_eq]; refine KeepsMk.of ?_ rfl rfl rfl rfl rfl rfl rfl rfl rfl rfl)

theorem State.coreVoid_keeps {s0 s : State} {a1} (h : Keeps s0 s) :
    Keeps s0 (State.coreVoid s a1) := by
  unfold State.coreVoid
  with_reducible repeat' first
    | assumption | intro _ | apply State.setObj_keeps | apply Keeps.ite | apply Keeps.foldl | split
    | (simp only [Keeps.mk_eq]; refine KeepsMk.of ?_ rfl rfl rfl rfl rfl rfl rfl rfl rfl rfl)

theorem State.coreTrap_keeps {s0 s : State} {a1 a2} (h : Keeps s0 s) :
    Keeps s0 (State.coreTrap s a1 a2) := by
  unfold State.coreTrap
  with_reducible repeat' first
    | assumption | apply State.coreReport_keeps | apply State.setObj_keeps | apply State.bump_keeps | apply State.setCore_keeps
    | apply State.raise_keeps | apply State.poison_keeps | apply State.coreVoid_keeps | apply Keeps.ite | split

theorem State.coreLockstep_keeps {s0 s : State} {a1} (h : Keeps s0 s) :
    Keeps s0 (State.coreLockstep s a1) := by
  unfold State.coreLockstep
  with_reducible repeat' first
    | assumption | intro _ | apply State.coreReport_keeps | apply State.setObj_keeps | apply State.bump_keeps | apply State.setCore_keeps
    | apply State.raiseAt_keeps | apply State.poison_keeps | apply State.coreVoid_keeps
    | apply State.raise_keeps | apply Keeps.ite | apply Keeps.foldl | split
    | (simp only [Keeps.mk_eq]; refine KeepsMk.of ?_ rfl rfl rfl rfl rfl rfl rfl rfl rfl rfl)

theorem State.coreAccess_keeps {s0 s : State} {a1 a2} (h : Keeps s0 s)
    (hf : ∀ x, Keeps s0 x → Keeps s0 (a2 x)) : Keeps s0 (State.coreAccess s a1 a2) := by
  unfold State.coreAccess
  extract_lets s1 k
  have h1 : Keeps s0 s1 := State.quiet_keeps h
  clear_value s1 k
  split
  · exact h1
  · split
    · exact State.coreTrap_keeps h1
    · split
      · exact State.coreTrap_keeps h1
      · refine hf _ ?_
        split
        · exact h1
        · exact State.coreLockstep_keeps h1

theorem execCcBeat_keeps {s0 s : State} {a1} (h : Keeps s0 s) :
    KeepsO s0 (execCcBeat a1 s) := by
  unfold execCcBeat
  with_reducible repeat' first
    | assumption | (intro _; clear_value x1; revert x1) | intro _ | (unfold x1; clear x1)
    | (extract_lets +onlyGivenNames -merge x1; first | refine Keeps.cut s0 x1 ?_ ?_ | (clear_value x1; revert x1))
    | apply State.coreAccess_keeps | apply State.coreRet_keeps | apply State.fresh_keeps | apply Keeps.ite
    | apply Keeps.foldl | apply KeepsO.next | apply KeepsO.ite | split
    | (simp only [Keeps.mk_eq]; refine KeepsMk.of ?_ rfl rfl rfl rfl rfl rfl rfl rfl rfl rfl)

theorem State.reloadCore_keeps {s0 s : State} {a1} (h : Keeps s0 s) :
    Keeps s0 (State.reloadCore s a1) := by
  unfold State.reloadCore
  with_reducible repeat' first
    | assumption | intro _ | apply State.loadData_keeps | apply State.setCore_keeps | apply State.setObj_keeps
    | apply Keeps.ite | apply Keeps.foldl | split
    | (simp only [Keeps.mk_eq]; refine KeepsMk.of ?_ rfl rfl rfl rfl rfl rfl rfl rfl rfl rfl)

theorem State.reloadCores_keeps {s0 s : State} (h : Keeps s0 s) :
    Keeps s0 (State.reloadCores s) := by
  unfold State.reloadCores
  with_reducible repeat' first
    | assumption | intro _ | apply State.reloadCore_keeps | apply Keeps.ite | apply Keeps.foldl | split
    | (simp only [Keeps.mk_eq]; refine KeepsMk.of ?_ rfl rfl rfl rfl rfl rfl rfl rfl rfl rfl)

theorem execCcNote_keeps {s0 s : State} {a1} (h : Keeps s0 s) :
    KeepsO s0 (execCcNote a1 s) := by
  unfold execCcNote
  with_reducible repeat' first
    | assumption | intro _ | apply State.coreReport_keeps | apply State.coreAccess_keeps | apply State.coreRet_keeps
    | apply State.setCore_keeps | apply State.setObj_keeps | apply State.bump_keeps | apply State.raise_keeps
    | apply Keeps.ite | apply Keeps.foldl | apply KeepsO.next | apply KeepsO.ite | split
    | (simp only [Keeps.mk_eq]; refine KeepsMk.of ?_ rfl rfl rfl rfl rfl rfl rfl rfl rfl rfl)

theorem execCcWaitBoundary_keeps {s0 s : State} {a1} (h : Keeps s0 s) :
    KeepsO s0 (execCcWaitBoundary a1 s) := by
  unfold execCcWaitBoundary
  with_reducible repeat' first
    | assumption | intro _ | apply State.coreAccess_keeps | apply State.coreStall_keeps | apply Keeps.ite
    | apply Keeps.foldl | apply KeepsO.next | apply KeepsO.ite | split
    | (simp only [Keeps.mk_eq]; refine KeepsMk.of ?_ rfl rfl rfl rfl rfl rfl rfl rfl rfl rfl)

theorem execCcSumrd_keeps {s0 s : State} {a1} (h : Keeps s0 s) :
    KeepsO s0 (execCcSumrd a1 s) := by
  unfold execCcSumrd
  with_reducible repeat' first
    | assumption | (intro _; clear_value x1; revert x1) | intro _ | (unfold x1; clear x1)
    | (extract_lets +onlyGivenNames -merge x1; first | refine Keeps.cut s0 x1 ?_ ?_ | (clear_value x1; revert x1))
    | apply State.coreAccess_keeps | apply State.coreRet_keeps | apply State.fresh_keeps | apply Keeps.ite
    | apply Keeps.foldl | apply KeepsO.next | apply KeepsO.ite | split
    | (simp only [Keeps.mk_eq]; refine KeepsMk.of ?_ rfl rfl rfl rfl rfl rfl rfl rfl rfl rfl)

theorem execCcQtake_keeps {s0 s : State} {a1} (h : Keeps s0 s) :
    KeepsO s0 (execCcQtake a1 s) := by
  unfold execCcQtake
  with_reducible repeat' first
    | assumption | (intro _; first | (clear_value x1; revert x1) | subst x1) | intro _ | (unfold x1; clear x1)
    | (extract_lets +onlyGivenNames -merge x1; first | refine Keeps.cut s0 x1 ?_ ?_ | refine Keeps.cut1 s0 x1 ?_ ?_ | refine Keeps.cut2 s0 x1 ?_ ?_ | refine Keeps.cutR s0 x1 ?_ ?_ | (first | refine keepLedger x1 ?_ | refine keepMem x1 ?_ | refine keepPath x1 ?_; subst x1) | (clear_value x1; revert x1) | subst x1)
    | apply State.coreAccess_keeps | apply State.coreTrap_keeps | apply State.coreRet_keeps
    | apply State.loadData_keeps | apply State.setRing_keeps | apply State.setCore_keeps | apply Keeps.ite
    | apply Keeps.foldl | apply KeepsO.next | apply KeepsO.ite | apply Keeps.ite1 | apply Keeps.ite2
    | apply Keeps.iteR | apply Keeps.elim | apply Keeps.foldl1 | apply Keeps.foldl2 | split
    | (simp only [Keeps.mk_eq]; refine KeepsMk.of ?_ rfl rfl rfl rfl rfl rfl rfl rfl rfl rfl)

theorem execCcSumwait_keeps {s0 s : State} {a1} (h : Keeps s0 s) :
    KeepsO s0 (execCcSumwait a1 s) := by
  unfold execCcSumwait
  with_reducible repeat' first
    | assumption | intro _ | apply State.coreAccess_keeps | apply State.coreRet_keeps
    | apply State.coreStall_keeps | apply Keeps.ite | apply Keeps.foldl | apply KeepsO.next | apply KeepsO.ite
    | split | (simp only [Keeps.mk_eq]; refine KeepsMk.of ?_ rfl rfl rfl rfl rfl rfl rfl rfl rfl rfl)

theorem State.refuseIssue_keeps {s0 s : State} {a1 a2 a3 a4} (h : Keeps s0 s) :
    Keeps s0 (State.refuseIssue s a1 a2 a3 a4) := by
  unfold State.refuseIssue
  with_reducible repeat' first
    | assumption | apply State.setObj_keeps | apply State.bump_keeps | apply State.raise_keeps
    | apply State.poison_keeps | apply Keeps.ite | split

theorem State.issue_keeps {s0 s : State} {a1 a2 a3 a4 a5} (h : Keeps s0 s) :
    Keeps s0 (State.issue s a1 a2 a3 a4 a5) := by
  unfold State.issue
  with_reducible repeat' first
    | assumption | (intro _; clear_value x1; revert x1) | intro _ | (unfold x1; clear x1)
    | (extract_lets +onlyGivenNames -merge x1; first | refine Keeps.cut s0 x1 ?_ ?_ | (clear_value x1; revert x1))
    | apply State.coreRet_keeps | apply State.refuseIssue_keeps | apply State.setEng_keeps | apply Keeps.ite
    | apply Keeps.foldl | split
    | (simp only [Keeps.mk_eq]; refine KeepsMk.of ?_ rfl rfl rfl rfl rfl rfl rfl rfl rfl rfl)

theorem execCcIssue_keeps {s0 s : State} {a1} (h : Keeps s0 s) :
    KeepsO s0 (execCcIssue a1 s) := by
  unfold execCcIssue
  with_reducible repeat' first
    | assumption | intro _ | apply State.coreAccess_keeps | apply State.coreTrap_keeps
    | apply State.coreRet_keeps | apply State.refuseIssue_keeps | apply State.bump_keeps
    | apply State.coreStall_keeps | apply State.issue_keeps | apply Keeps.ite | apply Keeps.foldl
    | apply KeepsO.next | apply KeepsO.ite | split
    | (simp only [Keeps.mk_eq]; refine KeepsMk.of ?_ rfl rfl rfl rfl rfl rfl rfl rfl rfl rfl)

theorem execCcWaitIdle_keeps {s0 s : State} {a1} (h : Keeps s0 s) :
    KeepsO s0 (execCcWaitIdle a1 s) := by
  unfold execCcWaitIdle
  with_reducible repeat' first
    | assumption | intro _ | apply State.coreAccess_keeps | apply State.coreRet_keeps
    | apply State.coreStall_keeps | apply Keeps.ite | apply Keeps.foldl | apply KeepsO.next | apply KeepsO.ite
    | split | (simp only [Keeps.mk_eq]; refine KeepsMk.of ?_ rfl rfl rfl rfl rfl rfl rfl rfl rfl rfl)

theorem State.clearPairs_keeps {s0 s : State} (h : Keeps s0 s) :
    Keeps s0 (State.clearPairs s) := by
  unfold State.clearPairs
  with_reducible repeat' first
    | assumption | apply Keeps.ite | split
    | (simp only [Keeps.mk_eq]; refine KeepsMk.of ?_ rfl rfl rfl rfl rfl rfl rfl rfl rfl rfl)

theorem execCcSumclr_keeps {s0 s : State} {a1} (h : Keeps s0 s) :
    KeepsO s0 (execCcSumclr a1 s) := by
  unfold execCcSumclr
  with_reducible repeat' first
    | assumption | intro _ | apply State.coreAccess_keeps | apply State.coreRet_keeps
    | apply State.setCore_keeps | apply Keeps.ite | apply Keeps.foldl | apply KeepsO.next | apply KeepsO.ite
    | split | (simp only [Keeps.mk_eq]; refine KeepsMk.of ?_ rfl rfl rfl rfl rfl rfl rfl rfl rfl rfl)

theorem execCoreInstruction_keeps {s0 s : State} {a1} (h : Keeps s0 s) :
    KeepsO s0 (execCoreInstruction a1 s) := by
  unfold execCoreInstruction
  with_reducible repeat' first
    | assumption | apply State.quiet_keeps | apply State.coreTrap_keeps | apply State.setCore_keeps
    | apply State.coreLockstep_keeps | apply State.fresh_keeps | apply Keeps.ite | apply KeepsO.next
    | apply KeepsO.ite | split

end Sys2Proof.Machine
end

