-- ==== Sys2Proof/Laws/Keeps/Recovery.lean ====
section
/-! SUPPORT. Every operation of Machine/Recovery.lean keeps what `Keeps` says. -/

namespace Sys2Proof.Machine

theorem State.endReinit_keeps {s0 s : State} (h : Keeps s0 s) :
    Keeps s0 (State.endReinit s) := by
  unfold State.endReinit
  with_reducible repeat' first
    | assumption | apply Keeps.ite | split
    | (simp only [Keeps.mk_eq]; refine KeepsMk.of ?_ rfl rfl rfl rfl rfl rfl rfl rfl rfl rfl)

theorem State.actDigest_keeps {s0 s : State} {a1} (h : Keeps s0 s) :
    Keeps s0 (State.actDigest s a1) := by
  unfold State.actDigest
  with_reducible repeat' first
    | assumption | intro _ | apply State.cmdFail_keeps | apply State.cmdStart_keeps | apply Keeps.ite
    | apply Keeps.foldl | split
    | (simp only [Keeps.mk_eq]; refine KeepsMk.of ?_ rfl rfl rfl rfl rfl rfl rfl rfl rfl rfl)

theorem execRegionDigestDone_keeps {s0 s : State} (h : Keeps s0 s) :
    KeepsO s0 (execRegionDigestDone s) := by
  unfold execRegionDigestDone
  with_reducible repeat' first
    | assumption | (intro _; first | (clear_value x1; revert x1) | subst x1) | intro _ | (unfold x1; clear x1)
    | (extract_lets +onlyGivenNames -merge x1; first | refine Keeps.cut s0 x1 ?_ ?_ | refine Keeps.cut1 s0 x1 ?_ ?_ | refine Keeps.cut2 s0 x1 ?_ ?_ | refine Keeps.cutR s0 x1 ?_ ?_ | (first | refine keepLedger x1 ?_ | refine keepMem x1 ?_ | refine keepPath x1 ?_; subst x1) | (clear_value x1; revert x1) | subst x1)
    | apply State.readPhys_keeps | apply State.quiet_keeps | apply State.advanceTo_keeps
    | apply State.cmdDone_keeps | apply State.setObj_keeps | apply Keeps.ite | apply Keeps.foldl
    | apply Keeps.ite1 | apply Keeps.ite2 | apply Keeps.iteR | apply Keeps.elim | apply Keeps.foldl1
    | apply Keeps.foldl2 | apply KeepsO.next | apply KeepsO.ite | split
    | (simp only [Keeps.mk_eq]; refine KeepsMk.of ?_ rfl rfl rfl rfl rfl rfl rfl rfl rfl rfl)

theorem State.loseAllLanes_keeps {s0 s : State} (h : Keeps s0 s) :
    Keeps s0 (State.loseAllLanes s) := by
  unfold State.loseAllLanes
  with_reducible repeat' first
    | assumption | intro _ | apply State.loseLane_keeps | apply Keeps.ite | apply Keeps.foldl | split
    | (simp only [Keeps.mk_eq]; refine KeepsMk.of ?_ rfl rfl rfl rfl rfl rfl rfl rfl rfl rfl)

theorem State.resetFn_keeps {s0 s : State} {a1} (h : Keeps s0 s) :
    Keeps s0 (State.resetFn s a1) := by
  unfold State.resetFn
  with_reducible repeat' first
    | assumption | apply State.poison_keeps | apply State.clearFn_keeps | apply State.faultC_keeps
    | apply State.judgeReserves_keeps | apply State.loseAllLanes_keeps | apply Keeps.ite | split

theorem State.beginReinit_keeps {s0 s : State} {a1} (h : Keeps s0 s) :
    Keeps s0 (State.beginReinit s a1) := by
  unfold State.beginReinit
  with_reducible repeat' first
    | assumption | apply State.cmdStart_keeps | apply Keeps.ite | split
    | (simp only [Keeps.mk_eq]; refine KeepsMk.of ?_ rfl rfl rfl rfl rfl rfl rfl rfl rfl rfl)

theorem State.actReinit_keeps {s0 s : State} {a1} (h : Keeps s0 s) :
    Keeps s0 (State.actReinit s a1) := by
  unfold State.actReinit
  with_reducible repeat' first
    | assumption | intro _ | apply State.requestWakes_keeps | apply State.resetFn_keeps
    | apply State.beginReinit_keeps | apply State.cmdFail_keeps | apply Keeps.ite | apply Keeps.foldl | split
    | (simp only [Keeps.mk_eq]; refine KeepsMk.of ?_ rfl rfl rfl rfl rfl rfl rfl rfl rfl rfl)

theorem State.cutCluster_keeps {s0 s : State} {a1} (h : Keeps s0 s) :
    Keeps s0 (State.cutCluster s a1) := by
  unfold State.cutCluster
  with_reducible repeat' first
    | assumption | intro _ | apply State.setEng_keeps | apply State.coreVoid_keeps | apply Keeps.ite
    | apply Keeps.foldl | split
    | (simp only [Keeps.mk_eq]; refine KeepsMk.of ?_ rfl rfl rfl rfl rfl rfl rfl rfl rfl rfl)

theorem State.actLedgerClear_keeps {s0 s : State} {a1} (h : Keeps s0 s) :
    Keeps s0 (State.actLedgerClear s a1) := by
  unfold State.actLedgerClear
  split
  · refine State.cmdDone_keeps (Keeps.loose h rfl (Nat.le_refl _) id rfl rfl (Nat.le_refl _) ?_ (Nat.le_refl _)
      (Nat.le_refl _) (Nat.le_refl _))
    exact Nat.zero_le _
  · split
    · refine State.cmdDone_keeps (State.setObj_keeps (Keeps.loose h rfl (Nat.le_refl _) id rfl rfl (Nat.le_refl _)
        (Nat.le_refl _) ?_ (Nat.le_refl _) (Nat.le_refl _)))
      exact Nat.zero_le _
    · exact State.cmdFail_keeps h

theorem State.dropDomain_keeps {s0 s : State} {a1} (h : Keeps s0 s) :
    Keeps s0 (State.dropDomain s a1) := by
  unfold State.dropDomain
  with_reducible repeat' first
    | assumption | apply State.clearFn_keeps | apply State.loseAllLanes_keeps | apply State.unlock_keeps
    | apply Keeps.ite | split

theorem execCurrentLimit_keeps {s0 s : State} {a1 a2} (h : Keeps s0 s) :
    KeepsO s0 (execCurrentLimit a1 a2 s) := by
  unfold execCurrentLimit
  with_reducible repeat' first
    | assumption | apply State.clearRouter_keeps | apply State.quiet_keeps | apply State.setObj_keeps | apply State.setDom_keeps
    | apply State.bump_keeps | apply State.poison_keeps | apply State.raiseAt_keeps
    | apply State.cutCluster_keeps | apply State.clearRouters_keeps | apply State.dropDomain_keeps
    | apply Keeps.ite | apply KeepsO.next | apply KeepsO.ite | split
    | (simp only [Keeps.mk_eq]; refine KeepsMk.of ?_ rfl rfl rfl rfl rfl rfl rfl rfl rfl rfl)

theorem execLedgerInterval_keeps {s0 s : State} (h : Keeps s0 s) :
    KeepsO s0 (execLedgerInterval s) := by
  unfold execLedgerInterval
  with_reducible repeat' first
    | assumption | apply State.quiet_keeps | apply State.advanceTo_keeps | apply Keeps.ite | apply KeepsO.next
    | apply KeepsO.ite | split
    | (simp only [Keeps.mk_eq]; refine KeepsMk.of ?_ rfl rfl rfl rfl rfl rfl rfl rfl rfl rfl)

theorem execFunctionReinit_keeps {s0 s : State} (h : Keeps s0 s) :
    KeepsO s0 (execFunctionReinit s) := by
  unfold execFunctionReinit
  with_reducible repeat' first
    | assumption | (intro _; clear_value x1; revert x1) | intro _ | (unfold x1; clear x1)
    | (extract_lets +onlyGivenNames -merge x1; first | refine Keeps.cut s0 x1 ?_ ?_ | (clear_value x1; revert x1))
    | apply State.quiet_keeps | apply State.setObj_keeps | apply State.endReinit_keeps
    | apply State.cmdDone_keeps | apply State.raise_keeps | apply State.bump_keeps | apply Keeps.ite
    | apply Keeps.foldl | apply KeepsO.next | apply KeepsO.ite | split
    | (simp only [Keeps.mk_eq]; refine KeepsMk.of ?_ rfl rfl rfl rfl rfl rfl rfl rfl rfl rfl)

end Sys2Proof.Machine
end

