-- ==== Sys2Proof/Laws/Keeps/Beat.lean ====
section
/-! SUPPORT. Every operation of Machine/Beat.lean keeps what `Keeps` says. -/

namespace Sys2Proof.Machine

theorem State.setLoss_keeps {s0 s : State} {a1 a2} (h : Keeps s0 s) :
    Keeps s0 (State.setLoss s a1 a2) := by
  unfold State.setLoss
  with_reducible repeat' first
    | assumption | apply State.setObj_keeps | apply Keeps.ite | split

theorem State.changeLoss_keeps {s0 s : State} {a1} (h : Keeps s0 s) :
    Keeps s0 (State.changeLoss s a1) := by
  unfold State.changeLoss
  with_reducible repeat' first
    | assumption | apply State.raise_keeps | apply State.bump_keeps | apply State.setLoss_keeps
    | apply Keeps.ite | split

theorem State.lossAfterClean_keeps {s0 s : State} {a1} (h : Keeps s0 s) :
    Keeps s0 (State.lossAfterClean s a1) := by
  unfold State.lossAfterClean
  with_reducible repeat' first
    | assumption | intro _ | apply State.setObj_keeps | apply State.changeLoss_keeps | apply Keeps.ite
    | apply Keeps.foldl | split
    | (simp only [Keeps.mk_eq]; refine KeepsMk.of ?_ rfl rfl rfl rfl rfl rfl rfl rfl rfl rfl)

theorem State.stopSteps_keeps {s0 s : State} (h : Keeps s0 s) :
    Keeps s0 (State.stopSteps s) := by
  unfold State.stopSteps
  with_reducible repeat' first
    | assumption | apply Keeps.ite | split
    | (simp only [Keeps.mk_eq]; refine KeepsMk.of ?_ rfl rfl rfl rfl rfl rfl rfl rfl rfl rfl)

theorem State.overflowPersists_keeps {s0 s : State} (h : Keeps s0 s) :
    Keeps s0 (State.overflowPersists s) := by
  unfold State.overflowPersists
  with_reducible repeat' first
    | assumption | apply State.raise_keeps | apply State.stopSteps_keeps | apply Keeps.ite | split

theorem State.lossAfterOverflow_keeps {s0 s : State} {a1} (h : Keeps s0 s) :
    Keeps s0 (State.lossAfterOverflow s a1) := by
  unfold State.lossAfterOverflow
  with_reducible repeat' first
    | assumption | intro _ | apply State.setObj_keeps | apply State.overflowPersists_keeps
    | apply State.changeLoss_keeps | apply Keeps.ite | apply Keeps.foldl | split
    | (simp only [Keeps.mk_eq]; refine KeepsMk.of ?_ rfl rfl rfl rfl rfl rfl rfl rfl rfl rfl)

theorem State.lossBits_keeps {s0 s : State} {a1} (h : Keeps s0 s) :
    Keeps s0 (State.lossBits s a1).1 := by
  unfold State.lossBits
  with_reducible repeat' first
    | assumption | (intro _; first | (clear_value x1; revert x1) | subst x1) | intro _ | (unfold x1; clear x1)
    | (extract_lets +onlyGivenNames -merge x1; first | refine Keeps.cut s0 x1 ?_ ?_ | refine Keeps.cut1 s0 x1 ?_ ?_ | refine Keeps.cut2 s0 x1 ?_ ?_ | refine Keeps.cutR s0 x1 ?_ ?_ | (first | refine keepLedger x1 ?_ | refine keepMem x1 ?_ | refine keepPath x1 ?_; subst x1) | (clear_value x1; revert x1) | subst x1)
    | apply State.readPhys_keeps | apply Keeps.ite | apply Keeps.foldl | apply Keeps.ite1 | apply Keeps.ite2
    | apply Keeps.iteR | apply Keeps.elim | apply Keeps.foldl1 | apply Keeps.foldl2 | split
    | (simp only [Keeps.mk_eq]; refine KeepsMk.of ?_ rfl rfl rfl rfl rfl rfl rfl rfl rfl rfl)

theorem State.setHistory_keeps {s0 s : State} {a1} (h : Keeps s0 s) :
    Keeps s0 (State.setHistory s a1) := by
  unfold State.setHistory
  with_reducible repeat' first
    | assumption | intro _ | apply State.setObj_keeps | apply Keeps.ite | apply Keeps.foldl | split
    | (simp only [Keeps.mk_eq]; refine KeepsMk.of ?_ rfl rfl rfl rfl rfl rfl rfl rfl rfl rfl)

theorem State.pushHistory_keeps {s0 s : State} {a1 a2 a3} (h : Keeps s0 s) :
    Keeps s0 (State.pushHistory s a1 a2 a3).1 := by
  unfold State.pushHistory
  with_reducible repeat' first
    | assumption | intro _ | apply State.setObj_keeps | apply State.raise_keeps | apply State.bump_keeps
    | apply State.setHistory_keeps | apply Keeps.ite | apply Keeps.foldl | split
    | (simp only [Keeps.mk_eq]; refine KeepsMk.of ?_ rfl rfl rfl rfl rfl rfl rfl rfl rfl rfl)

theorem State.judged_keeps {s0 s : State} {a1 a2} (h : Keeps s0 s) :
    Keeps s0 (State.judged s a1 a2) := by
  unfold State.judged
  with_reducible repeat' first
    | assumption | apply Keeps.ite | split
    | (simp only [Keeps.mk_eq]; refine KeepsMk.of ?_ rfl rfl rfl rfl rfl rfl rfl rfl rfl rfl)

theorem State.commit_keeps {s0 s : State} {a1} (h : Keeps s0 s) :
    Keeps s0 (State.commit s a1) := by
  unfold State.commit
  with_reducible repeat' first
    | assumption | apply State.lossBits_keeps | apply State.lossAfterClean_keeps | apply State.groupsCommit_keeps
    | apply State.swapHalves_keeps | apply State.pushHistory_keeps | apply State.bump_keeps
    | apply State.setObj_keeps | apply State.startSnapshot_keeps | apply State.judged_keeps
    | apply State.faultC_keeps | apply Keeps.ite | split

theorem State.applyPoisoned_keeps {s0 s : State} {a1 a2} (h : Keeps s0 s) :
    Keeps s0 (State.applyPoisoned s a1 a2) := by
  unfold State.applyPoisoned
  with_reducible repeat' first
    | assumption | intro _ | apply State.raise_keeps | apply State.bump_keeps | apply State.shardsDiscard_keeps
    | apply State.windowsDiscard_keeps | apply State.judged_keeps | apply State.stopSteps_keeps
    | apply State.setObj_keeps | apply State.lossAfterOverflow_keeps | apply Keeps.ite | apply Keeps.foldl
    | split | (simp only [Keeps.mk_eq]; refine KeepsMk.of ?_ rfl rfl rfl rfl rfl rfl rfl rfl rfl rfl)

theorem State.releaseVerdict_keeps {s0 s : State} {a1} (h : Keeps s0 s) :
    Keeps s0 (State.releaseVerdict s a1) := by
  unfold State.releaseVerdict
  with_reducible repeat' first
    | assumption | intro _ | apply State.faultC_keeps | apply State.raise_keeps | apply State.setObj_keeps
    | apply State.applyPoisoned_keeps | apply State.commit_keeps | apply Keeps.ite | apply Keeps.foldl | split
    | (simp only [Keeps.mk_eq]; refine KeepsMk.of ?_ rfl rfl rfl rfl rfl rfl rfl rfl rfl rfl)

theorem State.stepMissing_keeps {s0 s : State} {a1} (h : Keeps s0 s) :
    Keeps s0 (State.stepMissing s a1) := by
  unfold State.stepMissing
  with_reducible repeat' first
    | assumption | intro _ | apply State.poison_keeps | apply State.requestWakes_keeps | apply Keeps.ite
    | apply Keeps.foldl | split
    | (simp only [Keeps.mk_eq]; refine KeepsMk.of ?_ rfl rfl rfl rfl rfl rfl rfl rfl rfl rfl)

theorem State.noteReplay_keeps {s0 s : State} {a1} (h : Keeps s0 s) :
    Keeps s0 (State.noteReplay s a1) := by
  unfold State.noteReplay
  with_reducible repeat' first
    | assumption | apply State.raise_keeps | apply State.bump_keeps | apply State.setObj_keeps | apply Keeps.ite
    | split

theorem State.beginStep_keeps {s0 s : State} {a1 a2 a3} (h : Keeps s0 s) :
    Keeps s0 (State.beginStep s a1 a2 a3) := by
  unfold State.beginStep
  with_reducible repeat' first
    | assumption | intro _ | apply State.setObj_keeps | apply State.noteReplay_keeps
    | apply State.reloadCores_keeps | apply State.shardsWait_keeps | apply State.setEtas_keeps
    | apply State.windowsWait_keeps | apply State.generatorFails_keeps | apply State.stepMissing_keeps
    | apply Keeps.ite | apply Keeps.foldl | split
    | (simp only [Keeps.mk_eq]; refine KeepsMk.of ?_ rfl rfl rfl rfl rfl rfl rfl rfl rfl rfl)

theorem State.endSteps_keeps {s0 s : State} (h : Keeps s0 s) :
    Keeps s0 (State.endSteps s) := by
  unfold State.endSteps
  with_reducible repeat' first
    | assumption | apply Keeps.ite | split
    | (simp only [Keeps.mk_eq]; refine KeepsMk.of ?_ rfl rfl rfl rfl rfl rfl rfl rfl rfl rfl)

theorem State.stepBoundary_keeps {s0 s : State} {a1 a2} (h : Keeps s0 s) :
    Keeps s0 (State.stepBoundary s a1 a2) := by
  unfold State.stepBoundary
  with_reducible repeat' first
    | assumption | intro _ | apply State.setObj_keeps | apply State.releaseVerdict_keeps
    | apply State.endSteps_keeps | apply State.beginStep_keeps | apply State.cmdDone_keeps | apply Keeps.ite
    | apply Keeps.foldl | split
    | (simp only [Keeps.mk_eq]; refine KeepsMk.of ?_ rfl rfl rfl rfl rfl rfl rfl rfl rfl rfl)

theorem State.releasePlan_keeps {s0 s : State} (h : Keeps s0 s) :
    Keeps s0 (State.releasePlan s) := by
  unfold State.releasePlan
  with_reducible repeat' first
    | assumption | intro _ | apply State.endPlan_keeps | apply State.parkFailed_keeps | apply Keeps.ite
    | apply Keeps.foldl | split
    | (simp only [Keeps.mk_eq]; refine KeepsMk.of ?_ rfl rfl rfl rfl rfl rfl rfl rfl rfl rfl)

theorem State.overrunFault_keeps {s0 s : State} {a1} (h : Keeps s0 s) :
    Keeps s0 (State.overrunFault s a1) := by
  unfold State.overrunFault
  with_reducible repeat' first
    | assumption | apply State.setObj_keeps | apply State.bump_keeps | apply State.raiseAt_keeps
    | apply State.poison_keeps | apply Keeps.ite | split
    | (simp only [Keeps.mk_eq]; refine KeepsMk.of ?_ rfl rfl rfl rfl rfl rfl rfl rfl rfl rfl)

theorem State.overrun_keeps {s0 s : State} {a1} (h : Keeps s0 s) :
    Keeps s0 (State.overrun s a1) := by
  unfold State.overrun
  with_reducible repeat' first
    | assumption | apply State.raise_keeps | apply State.setObj_keeps | apply State.bump_keeps | apply Keeps.ite
    | split

theorem State.abandonAt_keeps {s0 s : State} {a1} (h : Keeps s0 s) :
    Keeps s0 (State.abandonAt s a1) := by
  unfold State.abandonAt
  with_reducible repeat' first
    | assumption | (intro _; first | (clear_value x1; revert x1) | subst x1) | intro _ | (unfold x1; clear x1)
    | (extract_lets +onlyGivenNames -merge x1; first | refine Keeps.cut s0 x1 ?_ ?_ | refine Keeps.cut1 s0 x1 ?_ ?_ | refine Keeps.cut2 s0 x1 ?_ ?_ | refine Keeps.cutR s0 x1 ?_ ?_ | (first | refine keepLedger x1 ?_ | refine keepMem x1 ?_ | refine keepPath x1 ?_; subst x1) | (clear_value x1; revert x1) | subst x1)
    | apply State.setWin_keeps | apply State.setEng_keeps | apply Keeps.ite | apply Keeps.foldl
    | apply Keeps.ite1 | apply Keeps.ite2 | apply Keeps.iteR | apply Keeps.elim | apply Keeps.foldl1
    | apply Keeps.foldl2 | split
    | (simp only [Keeps.mk_eq]; refine KeepsMk.of ?_ rfl rfl rfl rfl rfl rfl rfl rfl rfl rfl)

theorem State.judgeTouched_keeps {s0 s : State} {a1} (h : Keeps s0 s) :
    Keeps s0 (State.judgeTouched s a1) := by
  unfold State.judgeTouched
  with_reducible repeat' first
    | assumption | (intro _; first | (clear_value x1; revert x1) | subst x1) | intro _ | (unfold x1; clear x1)
    | (extract_lets +onlyGivenNames -merge x1; first | refine Keeps.cut s0 x1 ?_ ?_ | refine Keeps.cut1 s0 x1 ?_ ?_ | refine Keeps.cut2 s0 x1 ?_ ?_ | refine Keeps.cutR s0 x1 ?_ ?_ | (first | refine keepLedger x1 ?_ | refine keepMem x1 ?_ | refine keepPath x1 ?_; subst x1) | (clear_value x1; revert x1) | subst x1)
    | apply State.overrunFault_keeps | apply State.abandonAt_keeps | apply Keeps.ite | apply Keeps.foldl
    | apply Keeps.ite1 | apply Keeps.ite2 | apply Keeps.iteR | apply Keeps.elim | apply Keeps.foldl1
    | apply Keeps.foldl2 | split
    | (simp only [Keeps.mk_eq]; refine KeepsMk.of ?_ rfl rfl rfl rfl rfl rfl rfl rfl rfl rfl)

theorem State.judgeSpill_keeps {s0 s : State} (h : Keeps s0 s) :
    Keeps s0 (State.judgeSpill s) := by
  unfold State.judgeSpill
  with_reducible repeat' first
    | assumption | intro _ | apply State.abandonAt_keeps | apply State.overrun_keeps | apply State.overrunFault_keeps | apply Keeps.ite
    | apply Keeps.foldl | split
    | (simp only [Keeps.mk_eq]; refine KeepsMk.of ?_ rfl rfl rfl rfl rfl rfl rfl rfl rfl rfl)

theorem State.toBoundary_keeps {s0 s : State} (h : Keeps s0 s) :
    Keeps s0 (State.toBoundary s) := by
  unfold State.toBoundary
  exact Keeps.loose h rfl (Nat.le_add_right _ _) id rfl rfl (Nat.le_refl _) (Nat.le_refl _) (Nat.le_refl _)
    (Nat.le_refl _) (Nat.le_refl _)

theorem State.coresBoundary_keeps {s0 s : State} (h : Keeps s0 s) :
    Keeps s0 (State.coresBoundary s) := by
  unfold State.coresBoundary
  with_reducible repeat' first
    | assumption | apply State.bankShards_keeps | apply Keeps.ite | split
    | (simp only [Keeps.mk_eq]; refine KeepsMk.of ?_ rfl rfl rfl rfl rfl rfl rfl rfl rfl rfl)

theorem State.applyDeferred_keeps {s0 s : State} (h : Keeps s0 s) :
    Keeps s0 (State.applyDeferred s) := by
  unfold State.applyDeferred
  with_reducible repeat' first
    | assumption | intro _ | apply State.setObj_keeps | apply State.raise_keeps | apply Keeps.ite
    | apply Keeps.foldl | split
    | (simp only [Keeps.mk_eq]; refine KeepsMk.of ?_ rfl rfl rfl rfl rfl rfl rfl rfl rfl rfl)

theorem State.keeperBoundary_keeps {s0 s : State} (h : Keeps s0 s) :
    Keeps s0 (State.keeperBoundary s) := by
  unfold State.keeperBoundary
  with_reducible repeat' first
    | assumption | intro _ | apply State.setKeeper_keeps | apply Keeps.ite | apply Keeps.foldl | split
    | (simp only [Keeps.mk_eq]; refine KeepsMk.of ?_ rfl rfl rfl rfl rfl rfl rfl rfl rfl rfl)

theorem State.circuitsGuard_keeps {s0 s : State} (h : Keeps s0 s) :
    Keeps s0 (State.circuitsGuard s) := by
  unfold State.circuitsGuard
  with_reducible repeat' first
    | assumption | (intro _; clear_value x1; revert x1) | intro _ | (unfold x1; clear x1)
    | (extract_lets +onlyGivenNames -merge x1; first | refine Keeps.cut s0 x1 ?_ ?_ | (clear_value x1; revert x1))
    | apply State.clearCrossroads_keeps | apply State.rehearse_keeps | apply State.changeMap_keeps
    | apply Keeps.ite | apply Keeps.foldl | split
    | (simp only [Keeps.mk_eq]; refine KeepsMk.of ?_ rfl rfl rfl rfl rfl rfl rfl rfl rfl rfl)

theorem State.noisyLanes_keeps {s0 s : State} {a1} (h : Keeps s0 s) :
    Keeps s0 (State.noisyLanes s a1) := by
  unfold State.noisyLanes
  with_reducible repeat' first
    | assumption | intro _ | apply State.loseLane_keeps | apply State.setPort_keeps | apply Keeps.ite
    | apply Keeps.foldl | split
    | (simp only [Keeps.mk_eq]; refine KeepsMk.of ?_ rfl rfl rfl rfl rfl rfl rfl rfl rfl rfl)

theorem State.noteOma_keeps {s0 s : State} {a1} (h : Keeps s0 s) :
    Keeps s0 (State.noteOma s a1) := by
  unfold State.noteOma
  with_reducible repeat' first
    | assumption | (intro _; first | (clear_value x1; revert x1) | subst x1) | intro _ | (unfold x1; clear x1)
    | (extract_lets +onlyGivenNames -merge x1; first | refine Keeps.cut s0 x1 ?_ ?_ | refine Keeps.cut1 s0 x1 ?_ ?_ | refine Keeps.cut2 s0 x1 ?_ ?_ | refine Keeps.cutR s0 x1 ?_ ?_ | (first | refine keepLedger x1 ?_ | refine keepMem x1 ?_ | refine keepPath x1 ?_; subst x1) | (clear_value x1; revert x1) | subst x1)
    | apply State.setBlob_keeps | apply Keeps.ite | apply Keeps.foldl | apply Keeps.ite1 | apply Keeps.ite2
    | apply Keeps.iteR | apply Keeps.elim | apply Keeps.foldl1 | apply Keeps.foldl2 | split
    | (simp only [Keeps.mk_eq]; refine KeepsMk.of ?_ rfl rfl rfl rfl rfl rfl rfl rfl rfl rfl)

theorem State.linksBoundary_keeps {s0 s : State} {a1} (h : Keeps s0 s) :
    Keeps s0 (State.linksBoundary s a1) := by
  unfold State.linksBoundary
  with_reducible repeat' first
    | assumption | intro _ | apply State.noteOma_keeps | apply State.pollSupplies_keeps | apply State.openGates_keeps
    | apply State.holdControl_keeps | apply State.noisyLanes_keeps | apply State.sendReport_keeps
    | apply Keeps.ite | apply Keeps.foldl | split
    | (simp only [Keeps.mk_eq]; refine KeepsMk.of ?_ rfl rfl rfl rfl rfl rfl rfl rfl rfl rfl)

theorem State.dueBoundary_keeps {s0 s : State} (h : Keeps s0 s) :
    Keeps s0 (State.dueBoundary s) := by
  unfold State.dueBoundary
  with_reducible repeat' first
    | assumption | apply State.windowsOverdue_keeps | apply Keeps.ite | split

theorem State.planBoundary_keeps {s0 s : State} {a1} (h : Keeps s0 s) :
    Keeps s0 (State.planBoundary s a1) := by
  unfold State.planBoundary
  with_reducible repeat' first
    | assumption | apply State.releasePlan_keeps | apply State.stepBoundary_keeps
    | apply State.windowsOpen_keeps | apply Keeps.ite | split
    | (simp only [Keeps.mk_eq]; refine KeepsMk.of ?_ rfl rfl rfl rfl rfl rfl rfl rfl rfl rfl)

theorem execBeatBoundary_keeps {s0 s : State} {a1} (h : Keeps s0 s) :
    KeepsO s0 (execBeatBoundary a1 s) := by
  unfold execBeatBoundary
  with_reducible repeat' first
    | assumption | apply State.substitute_keeps | apply State.judgeTouched_keeps | apply State.quiet_keeps | apply State.changeBeat_keeps | apply State.toBoundary_keeps
    | apply State.dueBoundary_keeps | apply State.coresBoundary_keeps | apply State.keeperBoundary_keeps
    | apply State.applyDeferred_keeps | apply State.planBoundary_keeps | apply State.switchLasers_keeps
    | apply State.sendTraining_keeps | apply State.retune_keeps | apply State.circuitsGuard_keeps
    | apply State.linksBoundary_keeps | apply Keeps.ite | apply KeepsO.next
    | apply KeepsO.ite | split

theorem execGuardClose_keeps {s0 s : State} (h : Keeps s0 s) :
    KeepsO s0 (execGuardClose s) := by
  unfold execGuardClose
  with_reducible repeat' first
    | assumption | apply State.quiet_keeps | apply State.advance_keeps | apply State.judgeSpill_keeps
    | apply State.clearPairs_keeps | apply State.joinLanes_keeps | apply Keeps.ite | apply KeepsO.next
    | apply KeepsO.ite | split
    | (simp only [Keeps.mk_eq]; refine KeepsMk.of ?_ rfl rfl rfl rfl rfl rfl rfl rfl rfl rfl)

end Sys2Proof.Machine
end

