-- ==== Sys2Proof/Laws/Keeps/Security.lean ====
section
/-! SUPPORT. Every operation of Machine/Security.lean keeps what `Keeps` says. -/

namespace Sys2Proof.Machine

theorem State.spdmAnswer_keeps {s0 s : State} {a1 a2} (h : Keeps s0 s) :
    Keeps s0 (State.spdmAnswer s a1 a2) := by
  unfold State.spdmAnswer
  with_reducible repeat' first
    | assumption | apply State.emit_keeps | apply State.bump_keeps | apply Keeps.ite | split

theorem State.spdmFail_keeps {s0 s : State} {a1} (h : Keeps s0 s) :
    Keeps s0 (State.spdmFail s a1) := by
  unfold State.spdmFail
  with_reducible repeat' first
    | assumption | apply State.spdmAnswer_keeps | apply Keeps.ite | split

theorem State.mctpVersions_keeps {s0 s : State} (h : Keeps s0 s) :
    Keeps s0 (State.mctpVersions s) := by
  unfold State.mctpVersions
  with_reducible repeat' first
    | assumption | apply State.emit_keeps | apply Keeps.ite | split

theorem State.spdmVersion_keeps {s0 s : State} (h : Keeps s0 s) :
    Keeps s0 (State.spdmVersion s) := by
  unfold State.spdmVersion
  with_reducible repeat' first
    | assumption | apply State.spdmAnswer_keeps | apply Keeps.ite | split
    | (simp only [Keeps.mk_eq]; refine KeepsMk.of ?_ rfl rfl rfl rfl rfl rfl rfl rfl rfl rfl)

theorem State.spdmSigned_keeps {s0 s : State} {a1 a2 a3} (h : Keeps s0 s) :
    Keeps s0 (State.spdmSigned s a1 a2 a3) := by
  unfold State.spdmSigned
  with_reducible repeat' first
    | assumption | intro _ | apply State.spdmFail_keeps | apply State.spdmAnswer_keeps | apply Keeps.ite
    | apply Keeps.foldl | split
    | (simp only [Keeps.mk_eq]; refine KeepsMk.of ?_ rfl rfl rfl rfl rfl rfl rfl rfl rfl rfl)

theorem State.spdmMeasurements_keeps {s0 s : State} {a1 a2} (h : Keeps s0 s) :
    Keeps s0 (State.spdmMeasurements s a1 a2) := by
  unfold State.spdmMeasurements
  with_reducible repeat' first
    | assumption | apply State.spdmSigned_keeps | apply Keeps.ite | split

theorem execGetMeasurements_keeps {s0 s : State} {a1 a2} (h : Keeps s0 s) :
    KeepsO s0 (execGetMeasurements a1 a2 s) := by
  unfold execGetMeasurements
  with_reducible repeat' first
    | assumption | apply State.quiet_keeps | apply State.spdmMeasurements_keeps | apply Keeps.ite
    | apply KeepsO.next | apply KeepsO.ite | split

theorem State.spdmAlgorithms_keeps {s0 s : State} {a1 a2} (h : Keeps s0 s) :
    Keeps s0 (State.spdmAlgorithms s a1 a2) := by
  unfold State.spdmAlgorithms
  with_reducible repeat' first
    | assumption | intro _ | apply State.spdmAnswer_keeps | apply State.spdmFail_keeps | apply Keeps.ite
    | apply Keeps.foldl | split
    | (simp only [Keeps.mk_eq]; refine KeepsMk.of ?_ rfl rfl rfl rfl rfl rfl rfl rfl rfl rfl)

theorem execNegotiateAlgorithms_keeps {s0 s : State} {a1 a2} (h : Keeps s0 s) :
    KeepsO s0 (execNegotiateAlgorithms a1 a2 s) := by
  unfold execNegotiateAlgorithms
  with_reducible repeat' first
    | assumption | apply State.quiet_keeps | apply State.spdmAlgorithms_keeps | apply Keeps.ite
    | apply KeepsO.next | apply KeepsO.ite | split

theorem State.spdmChallenge_keeps {s0 s : State} {a1} (h : Keeps s0 s) :
    Keeps s0 (State.spdmChallenge s a1) := by
  unfold State.spdmChallenge
  with_reducible repeat' first
    | assumption | apply State.spdmSigned_keeps | apply Keeps.ite | split

theorem execChallenge_keeps {s0 s : State} {a1} (h : Keeps s0 s) :
    KeepsO s0 (execChallenge a1 s) := by
  unfold execChallenge
  with_reducible repeat' first
    | assumption | apply State.quiet_keeps | apply State.spdmChallenge_keeps | apply Keeps.ite
    | apply KeepsO.next | apply KeepsO.ite | split

theorem State.takeImage_keeps {s0 s : State} {a1} (h : Keeps s0 s) :
    Keeps s0 (State.takeImage s a1).1 := by
  unfold State.takeImage
  with_reducible repeat' first
    | assumption | apply State.setObj_keeps | apply Keeps.ite | split
    | (simp only [Keeps.mk_eq]; refine KeepsMk.of ?_ rfl rfl rfl rfl rfl rfl rfl rfl rfl rfl)

theorem State.newIdentity_keeps {s0 s : State} (h : Keeps s0 s) :
    Keeps s0 (State.newIdentity s) := by
  unfold State.newIdentity
  with_reducible repeat' first
    | assumption | apply State.setBlob_keeps | apply Keeps.ite | split
    | (simp only [Keeps.mk_eq]; refine KeepsMk.of ?_ rfl rfl rfl rfl rfl rfl rfl rfl rfl rfl)

theorem State.clearRaw_keeps {s0 s : State} (h : Keeps s0 s) :
    Keeps s0 (State.clearRaw s) := by
  unfold State.clearRaw
  with_reducible repeat' first
    | assumption | apply State.setObj_keeps | apply State.setBlob_keeps | apply Keeps.ite | split

theorem State.actFwActivate_keeps {s0 s : State} (h : Keeps s0 s) :
    Keeps s0 (State.actFwActivate s) := by
  unfold State.actFwActivate
  with_reducible repeat' first
    | assumption | intro _ | apply State.cmdFail_keeps | apply State.cmdStart_keeps | apply Keeps.ite
    | apply Keeps.foldl | split
    | (simp only [Keeps.mk_eq]; refine KeepsMk.of ?_ rfl rfl rfl rfl rfl rfl rfl rfl rfl rfl)

theorem State.dropIdentity_keeps {s0 s : State} (h : Keeps s0 s) :
    Keeps s0 (State.dropIdentity s) := by
  unfold State.dropIdentity
  with_reducible repeat' first
    | assumption | apply State.setBlob_keeps | apply Keeps.ite | split
    | (simp only [Keeps.mk_eq]; refine KeepsMk.of ?_ rfl rfl rfl rfl rfl rfl rfl rfl rfl rfl)

theorem State.retire_keeps {s0 s : State} (h : Keeps s0 s) :
    Keeps s0 (State.retire s) := by
  unfold State.retire
  with_reducible repeat' first
    | assumption | apply State.setObj_keeps | apply State.dropIdentity_keeps | apply State.wakeGated_keeps
    | apply State.endPlan_keeps | apply Keeps.ite | split

theorem State.setEid_keeps {s0 s : State} {a1} (h : Keeps s0 s) :
    Keeps s0 (State.setEid s a1) := by
  unfold State.setEid
  with_reducible repeat' first
    | assumption | intro _ | apply State.emit_keeps | apply State.setObj_keeps | apply Keeps.ite
    | apply Keeps.foldl | split
    | (simp only [Keeps.mk_eq]; refine KeepsMk.of ?_ rfl rfl rfl rfl rfl rfl rfl rfl rfl rfl)

theorem State.spdmCapabilities_keeps {s0 s : State} (h : Keeps s0 s) :
    Keeps s0 (State.spdmCapabilities s) := by
  unfold State.spdmCapabilities
  with_reducible repeat' first
    | assumption | intro _ | apply State.spdmAnswer_keeps | apply State.spdmFail_keeps | apply Keeps.ite
    | apply Keeps.foldl | split
    | (simp only [Keeps.mk_eq]; refine KeepsMk.of ?_ rfl rfl rfl rfl rfl rfl rfl rfl rfl rfl)

theorem execGetCapabilities_keeps {s0 s : State} (h : Keeps s0 s) :
    KeepsO s0 (execGetCapabilities s) := by
  unfold execGetCapabilities
  with_reducible repeat' first
    | assumption | apply State.quiet_keeps | apply State.spdmCapabilities_keeps | apply Keeps.ite
    | apply KeepsO.next | apply KeepsO.ite | split

theorem State.spdmDigests_keeps {s0 s : State} (h : Keeps s0 s) :
    Keeps s0 (State.spdmDigests s) := by
  unfold State.spdmDigests
  with_reducible repeat' first
    | assumption | intro _ | apply State.spdmFail_keeps | apply State.spdmAnswer_keeps | apply Keeps.ite
    | apply Keeps.foldl | split
    | (simp only [Keeps.mk_eq]; refine KeepsMk.of ?_ rfl rfl rfl rfl rfl rfl rfl rfl rfl rfl)

theorem execGetDigests_keeps {s0 s : State} (h : Keeps s0 s) :
    KeepsO s0 (execGetDigests s) := by
  unfold execGetDigests
  with_reducible repeat' first
    | assumption | apply State.quiet_keeps | apply State.spdmDigests_keeps | apply Keeps.ite | apply KeepsO.next
    | apply KeepsO.ite | split

theorem State.violation_keeps {s0 s : State} {a1} (h : Keeps s0 s) :
    Keeps s0 (State.violation s a1) := by
  unfold State.violation
  with_reducible repeat' first
    | assumption | apply State.setObj_keeps | apply State.bump_keeps | apply State.classD_keeps
    | apply State.raise_keeps | apply Keeps.ite | split

theorem execSecurityCoreAccess_keeps {s0 s : State} (h : Keeps s0 s) :
    KeepsO s0 (execSecurityCoreAccess s) := by
  unfold execSecurityCoreAccess
  with_reducible repeat' first
    | assumption | apply State.quiet_keeps | apply State.violation_keeps | apply Keeps.ite | apply KeepsO.next
    | apply KeepsO.ite | split

theorem State.nextNonce_keeps {s0 s : State} (h : Keeps s0 s) :
    Keeps s0 (State.nextNonce s) := by
  unfold State.nextNonce
  with_reducible repeat' first
    | assumption | apply State.setObj_keeps | apply Keeps.ite | split
    | (simp only [Keeps.mk_eq]; refine KeepsMk.of ?_ rfl rfl rfl rfl rfl rfl rfl rfl rfl rfl)

theorem State.mctpTypes_keeps {s0 s : State} (h : Keeps s0 s) :
    Keeps s0 (State.mctpTypes s) := by
  unfold State.mctpTypes
  with_reducible repeat' first
    | assumption | apply State.emit_keeps | apply Keeps.ite | split

theorem execGetMessageTypeSupport_keeps {s0 s : State} (h : Keeps s0 s) :
    KeepsO s0 (execGetMessageTypeSupport s) := by
  unfold execGetMessageTypeSupport
  with_reducible repeat' first
    | assumption | apply State.quiet_keeps | apply State.mctpTypes_keeps | apply Keeps.ite | apply KeepsO.next
    | apply KeepsO.ite | split

theorem State.actLcRequest_keeps {s0 s : State} {a1} (h : Keeps s0 s) :
    Keeps s0 (State.actLcRequest s a1) := by
  unfold State.actLcRequest
  with_reducible repeat' first
    | assumption | intro _ | apply State.cmdFail_keeps | apply State.cmdDone_keeps | apply State.setObj_keeps
    | apply State.nextNonce_keeps | apply State.clearRaw_keeps | apply State.retire_keeps | apply Keeps.ite
    | apply Keeps.foldl | split
    | (simp only [Keeps.mk_eq]; refine KeepsMk.of ?_ rfl rfl rfl rfl rfl rfl rfl rfl rfl rfl)

theorem State.putImage_keeps {s0 s : State} {a1} (h : Keeps s0 s) :
    Keeps s0 (State.putImage s a1) := by
  unfold State.putImage
  with_reducible repeat' first
    | assumption | apply State.setBlob_keeps | apply Keeps.ite | split
    | (simp only [Keeps.mk_eq]; refine KeepsMk.of ?_ rfl rfl rfl rfl rfl rfl rfl rfl rfl rfl)

theorem execFwImageCopied_keeps {s0 s : State} (h : Keeps s0 s) :
    KeepsO s0 (execFwImageCopied s) := by
  unfold execFwImageCopied
  with_reducible repeat' first
    | assumption | (intro _; clear_value x1; revert x1) | intro _ | (unfold x1; clear x1)
    | (extract_lets +onlyGivenNames -merge x1; first | refine Keeps.cut s0 x1 ?_ ?_ | (clear_value x1; revert x1))
    | apply State.quiet_keeps | apply State.cmdDone_keeps | apply State.putImage_keeps
    | apply State.startWarmReset_keeps | apply State.bootRom_keeps | apply Keeps.ite | apply Keeps.foldl
    | apply KeepsO.next | apply KeepsO.ite | split
    | (simp only [Keeps.mk_eq]; refine KeepsMk.of ?_ rfl rfl rfl rfl rfl rfl rfl rfl rfl rfl)

theorem State.getEid_keeps {s0 s : State} (h : Keeps s0 s) :
    Keeps s0 (State.getEid s) := by
  unfold State.getEid
  with_reducible repeat' first
    | assumption | apply State.emit_keeps | apply Keeps.ite | split

theorem execGetEndpointId_keeps {s0 s : State} (h : Keeps s0 s) :
    KeepsO s0 (execGetEndpointId s) := by
  unfold execGetEndpointId
  with_reducible repeat' first
    | assumption | apply State.quiet_keeps | apply State.getEid_keeps | apply Keeps.ite | apply KeepsO.next
    | apply KeepsO.ite | split

theorem execSetEndpointId_keeps {s0 s : State} {a1} (h : Keeps s0 s) :
    KeepsO s0 (execSetEndpointId a1 s) := by
  unfold execSetEndpointId
  with_reducible repeat' first
    | assumption | apply State.quiet_keeps | apply State.setEid_keeps | apply Keeps.ite | apply KeepsO.next
    | apply KeepsO.ite | split

theorem execDynamicAddressAssignment_keeps {s0 s : State} {a1} (h : Keeps s0 s) :
    KeepsO s0 (execDynamicAddressAssignment a1 s) := by
  unfold execDynamicAddressAssignment
  with_reducible repeat' first
    | assumption | apply State.quiet_keeps | apply State.setObj_keeps | apply Keeps.ite | apply KeepsO.next
    | apply KeepsO.ite | split

theorem State.setFleetKey_keeps {s0 s : State} {a1} (h : Keeps s0 s) :
    Keeps s0 (State.setFleetKey s a1) := by
  unfold State.setFleetKey
  with_reducible repeat' first
    | assumption | apply State.setObj_keeps | apply State.setBlob_keeps | apply Keeps.ite | split

theorem State.spdmCertificate_keeps {s0 s : State} {a1 a2} (h : Keeps s0 s) :
    Keeps s0 (State.spdmCertificate s a1 a2) := by
  unfold State.spdmCertificate
  with_reducible repeat' first
    | assumption | intro _ | apply State.spdmFail_keeps | apply State.spdmAnswer_keeps | apply Keeps.ite
    | apply Keeps.foldl | split
    | (simp only [Keeps.mk_eq]; refine KeepsMk.of ?_ rfl rfl rfl rfl rfl rfl rfl rfl rfl rfl)

theorem execGetCertificate_keeps {s0 s : State} {a1 a2} (h : Keeps s0 s) :
    KeepsO s0 (execGetCertificate a1 a2 s) := by
  unfold execGetCertificate
  with_reducible repeat' first
    | assumption | apply State.quiet_keeps | apply State.spdmCertificate_keeps | apply Keeps.ite
    | apply KeepsO.next | apply KeepsO.ite | split

theorem execGetVersion_keeps {s0 s : State} (h : Keeps s0 s) :
    KeepsO s0 (execGetVersion s) := by
  unfold execGetVersion
  with_reducible repeat' first
    | assumption | apply State.quiet_keeps | apply State.spdmVersion_keeps | apply Keeps.ite | apply KeepsO.next
    | apply KeepsO.ite | split

theorem State.actLcAdvance_keeps {s0 s : State} {a1} (h : Keeps s0 s) :
    Keeps s0 (State.actLcAdvance s a1) := by
  unfold State.actLcAdvance
  with_reducible repeat' first
    | assumption | intro _ | apply State.cmdFail_keeps | apply State.cmdDone_keeps | apply State.setObj_keeps
    | apply State.newIdentity_keeps | apply Keeps.ite | apply Keeps.foldl | split
    | (simp only [Keeps.mk_eq]; refine KeepsMk.of ?_ rfl rfl rfl rfl rfl rfl rfl rfl rfl rfl)

theorem execDebugAccess_keeps {s0 s : State} (h : Keeps s0 s) :
    KeepsO s0 (execDebugAccess s) := by
  unfold execDebugAccess
  with_reducible repeat' first
    | assumption | apply State.quiet_keeps | apply State.violation_keeps | apply Keeps.ite | apply KeepsO.next
    | apply KeepsO.ite | split

theorem execSecurityCheck_keeps {s0 s : State} {a1} (h : Keeps s0 s) :
    KeepsO s0 (execSecurityCheck a1 s) := by
  unfold execSecurityCheck
  with_reducible repeat' first
    | assumption | apply State.quiet_keeps | apply State.violation_keeps | apply Keeps.ite | apply KeepsO.next
    | apply KeepsO.ite | split

theorem execGetMctpVersionSupport_keeps {s0 s : State} (h : Keeps s0 s) :
    KeepsO s0 (execGetMctpVersionSupport s) := by
  unfold execGetMctpVersionSupport
  with_reducible repeat' first
    | assumption | apply State.quiet_keeps | apply State.mctpVersions_keeps | apply Keeps.ite
    | apply KeepsO.next | apply KeepsO.ite | split

end Sys2Proof.Machine
end

