-- ==== Sys2Proof/Laws/Keeps/Mgmt.lean ====
section
/-! SUPPORT. Every operation of Machine/Mgmt.lean keeps what `Keeps` says. -/

namespace Sys2Proof.Machine

theorem State.setPlanBlob_keeps {s0 s : State} {a1} (h : Keeps s0 s) :
    Keeps s0 (State.setPlanBlob s a1) := by
  unfold State.setPlanBlob
  with_reducible repeat' first
    | assumption | apply State.dropRehearsal_keeps | apply State.setBlob_keeps | apply State.setObj_keeps
    | apply Keeps.ite | split
    | (simp only [Keeps.mk_eq]; refine KeepsMk.of ?_ rfl rfl rfl rfl rfl rfl rfl rfl rfl rfl)

theorem State.act_keeps {s0 s : State} {a1 a2 a3} (h : Keeps s0 s) :
    Keeps s0 (State.act s a1 a2 a3) := by
  unfold State.act
  with_reducible repeat' first
    | assumption | intro _ | apply State.actAdmit_keeps | apply State.actRelease_keeps
    | apply State.actJobStart_keeps | apply State.actJobStop_keeps | apply State.actPrepare_keeps
    | apply State.actXrClear_keeps | apply State.actRootSet_keeps | apply State.actMemVerified_keeps
    | apply State.actTelemetryClear_keeps | apply State.actEvidenceReset_keeps | apply State.actPackRemove_keeps
    | apply State.actStRun_keeps | apply State.actSteStart_keeps | apply State.actDigest_keeps
    | apply State.actReinit_keeps | apply State.actLedgerClear_keeps | apply State.actLcAdvance_keeps
    | apply State.actFwActivate_keeps | apply State.actPowerRequest_keeps | apply State.actWarmReset_keeps
    | apply State.actShutdown_keeps | apply State.actSelect_keeps | apply State.actAccept_keeps
    | apply Keeps.ite | apply Keeps.foldl | split
    | (simp only [Keeps.mk_eq]; refine KeepsMk.of ?_ rfl rfl rfl rfl rfl rfl rfl rfl rfl rfl)

theorem State.putBytes_keeps {s0 s : State} {a1 a2} (h : Keeps s0 s) :
    Keeps s0 (State.putBytes s a1 a2).1 := by
  unfold State.putBytes
  with_reducible repeat' first
    | assumption | apply State.setPlanBlob_keeps | apply State.takeImage_keeps | apply State.takePack_keeps
    | apply State.actLcRequest_keeps | apply State.setFleetKey_keeps | apply State.setBlob_keeps
    | apply Keeps.ite | split

theorem State.setFeatures_keeps {s0 s : State} {a1} (h : Keeps s0 s) :
    Keeps s0 (State.setFeatures s a1).1 := by
  unfold State.setFeatures
  with_reducible repeat' first
    | assumption | apply State.setObj_keeps | apply Keeps.ite | split

theorem State.restateAll_keeps {s0 s : State} (h : Keeps s0 s) :
    Keeps s0 (State.restateAll s) := by
  unfold State.restateAll
  with_reducible repeat' first
    | assumption | intro _ | apply State.restate_keeps | apply Keeps.ite | apply Keeps.foldl | split
    | (simp only [Keeps.mk_eq]; refine KeepsMk.of ?_ rfl rfl rfl rfl rfl rfl rfl rfl rfl rfl)

theorem State.setDisable_keeps {s0 s : State} {a1 a2} (h : Keeps s0 s) :
    Keeps s0 (State.setDisable s a1 a2) := by
  unfold State.setDisable
  with_reducible repeat' first
    | assumption | apply State.showDegraded_keeps | apply State.rebuildSlots_keeps | apply State.setObj_keeps
    | apply Keeps.ite | split

theorem State.stateLaser_keeps {s0 s : State} {a1 a2 a3} (h : Keeps s0 s) :
    Keeps s0 (State.stateLaser s a1 a2 a3).1 := by
  unfold State.stateLaser
  with_reducible repeat' first
    | assumption | apply State.restateLaser_keeps | apply State.setObj_keeps | apply Keeps.ite | split

theorem State.defer_keeps {s0 s : State} {a1 a2} (h : Keeps s0 s) :
    Keeps s0 (State.defer s a1 a2) := by
  unfold State.defer
  with_reducible repeat' first
    | assumption | apply Keeps.ite | split
    | (simp only [Keeps.mk_eq]; refine KeepsMk.of ?_ rfl rfl rfl rfl rfl rfl rfl rfl rfl rfl)

theorem State.putNat_keeps {s0 s : State} {a1 a2 a3} (h : Keeps s0 s) :
    Keeps s0 (State.putNat s a1 a2 a3).1 := by
  unfold State.putNat
  with_reducible repeat' first
    | assumption | (intro _; first | (clear_value x1; revert x1) | subst x1) | intro _ | (unfold x1; clear x1)
    | (extract_lets +onlyGivenNames -merge x1; first | refine Keeps.cut s0 x1 ?_ ?_ | refine Keeps.cut1 s0 x1 ?_ ?_ | refine Keeps.cut2 s0 x1 ?_ ?_ | refine Keeps.cutR s0 x1 ?_ ?_ | (first | refine keepLedger x1 ?_ | refine keepMem x1 ?_ | refine keepPath x1 ?_; subst x1) | (clear_value x1; revert x1) | subst x1)
    | apply State.setFeatures_keeps | apply State.restateAll_keeps | apply State.setObj_keeps
    | apply State.actTimeRole_keeps | apply State.actCoolant_keeps | apply State.setDisable_keeps
    | apply State.stateLaser_keeps | apply State.restate_keeps | apply State.defer_keeps | apply Keeps.ite
    | apply Keeps.foldl | apply Keeps.ite1 | apply Keeps.ite2 | apply Keeps.iteR | apply Keeps.elim
    | apply Keeps.foldl1 | apply Keeps.foldl2 | split
    | (simp only [Keeps.mk_eq]; refine KeepsMk.of ?_ rfl rfl rfl rfl rfl rfl rfl rfl rfl rfl)

theorem State.putValue_keeps {s0 s : State} {a1 a2 a3 a4} (h : Keeps s0 s) :
    Keeps s0 (State.putValue s a1 a2 a3 a4).1 := by
  unfold State.putValue
  with_reducible repeat' first
    | assumption | apply State.putBytes_keeps | apply State.act_keeps | apply State.putNat_keeps
    | apply Keeps.ite | split
    | (simp only [Keeps.mk_eq]; refine KeepsMk.of ?_ rfl rfl rfl rfl rfl rfl rfl rfl rfl rfl)

theorem State.writeValue_keeps {s0 s : State} {a1 a2 a3 a4 a5} (h : Keeps s0 s) :
    Keeps s0 (State.writeValue s a1 a2 a3 a4 a5).1 := by
  unfold State.writeValue
  with_reducible repeat' first
    | assumption | apply State.putValue_keeps | apply Keeps.ite | split

theorem State.readValue_keeps {s0 s : State} {a1 a2 a3} (h : Keeps s0 s) :
    Keeps s0 (State.readValue s a1 a2 a3).2 := by
  unfold State.readValue
  with_reducible repeat' first
    | assumption | (intro _; first | (clear_value x1; revert x1) | subst x1) | intro _ | (unfold x1; clear x1)
    | (extract_lets +onlyGivenNames -merge x1; first | refine Keeps.cut s0 x1 ?_ ?_ | refine Keeps.cut1 s0 x1 ?_ ?_ | refine Keeps.cut2 s0 x1 ?_ ?_ | refine Keeps.cutR s0 x1 ?_ ?_ | (first | refine keepLedger x1 ?_ | refine keepMem x1 ?_ | refine keepPath x1 ?_; subst x1) | (clear_value x1; revert x1) | subst x1)
    | apply State.fresh_keeps | apply Keeps.ite | apply Keeps.foldl | apply Keeps.ite1 | apply Keeps.ite2
    | apply Keeps.iteR | apply Keeps.elim | apply Keeps.foldl1 | apply Keeps.foldl2 | split
    | (simp only [Keeps.mk_eq]; refine KeepsMk.of ?_ rfl rfl rfl rfl rfl rfl rfl rfl rfl rfl)

end Sys2Proof.Machine
end

