-- ==== Sys2Proof/Laws/Keeps/Requests.lean ====
section
/-! SUPPORT. Every operation of Machine/Requests.lean keeps what `Keeps` says. -/

namespace Sys2Proof.Machine

theorem State.countRequest_keeps {s0 s : State} {a1 a2 a3} (h : Keeps s0 s) :
    Keeps s0 (State.countRequest s a1 a2 a3) := by
  unfold State.countRequest
  with_reducible repeat' first
    | assumption | intro _ | apply State.bump_keeps | apply State.setObj_keeps | apply Keeps.ite
    | apply Keeps.foldl | split
    | (simp only [Keeps.mk_eq]; refine KeepsMk.of ?_ rfl rfl rfl rfl rfl rfl rfl rfl rfl rfl)

theorem State.setPath_keeps {s0 s : State} {a1 a2} (h : Keeps s0 s)
    (b : (s.pathSt a1).kept.length ≤ 256 → a2.kept.length ≤ 256) : Keeps s0 (State.setPath s a1 a2) := by
  refine ⟨?_, ?_, fun q => ?_⟩
  · cases a1 <;> exact h.pending
  · cases a1 <;> exact h.now
  · have w := h.sound q
    simp only [State.sound, State.odWf, State.blobsWf, State.bounded, Bool.and_eq_true, decide_eq_true_eq] at w ⊢
    obtain ⟨a, ⟨⟨⟨c, d⟩, e⟩, f⟩, g⟩ := w
    cases a1
    · exact ⟨a, ⟨⟨⟨c, d⟩, e⟩, b f⟩, g⟩
    · exact ⟨a, ⟨⟨⟨c, d⟩, e⟩, f⟩, b g⟩

theorem State.openTransfer_keeps {s0 s : State} {a1 a2} (h : Keeps s0 s) :
    Keeps s0 (State.openTransfer s a1 a2) := by
  unfold State.openTransfer
  exact State.setPath_keeps h (fun b => b)

theorem State.cancelTransfer_keeps {s0 s : State} {a1 a2} (h : Keeps s0 s) :
    Keeps s0 (State.cancelTransfer s a1 a2) := by
  unfold State.cancelTransfer
  exact State.setPath_keeps h (fun b => b)

theorem State.keep_keeps {s0 s : State} {a1 a2 a3} (h : Keeps s0 s) :
    Keeps s0 (State.keep s a1 a2 a3) := by
  unfold State.keep
  exact State.setPath_keeps h (fun _ => List.length_take_le ..)

theorem Reply.send_keeps {s0 : State} {x : Reply} {a1 a2} (h : Keeps s0 x.s) :
    Keeps s0 (Reply.send x a1 a2) := by
  unfold Reply.send
  with_reducible repeat' first
    | assumption | apply State.countRequest_keeps | apply State.keep_keeps | apply State.emit_keeps
    | apply Keeps.ite | split

theorem aborted_keeps {s0 s : State} {a1 a2} (h : Keeps s0 s) :
    Keeps s0 (aborted s a1 a2).s := by
  unfold aborted
  with_reducible repeat' first
    | assumption | apply Keeps.ite | split

theorem State.setTransfer_keeps {s0 s : State} {a1 a2} (h : Keeps s0 s) :
    Keeps s0 (State.setTransfer s a1 a2) := by
  unfold State.setTransfer
  exact State.setPath_keeps h (fun b => b)

theorem State.touch_keeps {s0 s : State} {a1 a2} (h : Keeps s0 s) :
    Keeps s0 (State.touch s a1 a2) := by
  unfold State.touch
  with_reducible repeat' first
    | assumption | apply State.setTransfer_keeps | apply Keeps.ite | split

theorem doneReply_keeps {s0 s : State} {a1} (h : Keeps s0 s) :
    Keeps s0 (doneReply s a1).s := by
  unfold doneReply
  with_reducible repeat' first
    | assumption | apply Keeps.ite | split

theorem State.serveData_keeps {s0 s : State} {a1} (h : Keeps s0 s) :
    Keeps s0 (State.serveData s a1).s := by
  unfold State.serveData
  with_reducible repeat' first
    | assumption | (intro _; first | (clear_value x1; revert x1) | subst x1) | intro _ | (unfold x1; clear x1)
    | (extract_lets +onlyGivenNames -merge x1; first | refine Keeps.cut s0 x1 ?_ ?_ | refine Keeps.cut1 s0 x1 ?_ ?_ | refine Keeps.cut2 s0 x1 ?_ ?_ | refine Keeps.cutR s0 x1 ?_ ?_ | (first | refine keepLedger x1 ?_ | refine keepMem x1 ?_ | refine keepPath x1 ?_; subst x1) | (clear_value x1; revert x1) | subst x1)
    | apply aborted_keeps | apply doneReply_keeps | apply State.setTransfer_keeps | apply Keeps.ite
    | apply Keeps.foldl | apply Keeps.ite1 | apply Keeps.ite2 | apply Keeps.iteR | apply Keeps.elim
    | apply Keeps.foldl1 | apply Keeps.foldl2 | split
    | (simp only [Keeps.mk_eq]; refine KeepsMk.of ?_ rfl rfl rfl rfl rfl rfl rfl rfl rfl rfl)

theorem State.finishWrite_keeps {s0 s : State} {a1 a2 a3} (h : Keeps s0 s) :
    Keeps s0 (State.finishWrite s a1 a2 a3).s := by
  unfold State.finishWrite
  with_reducible repeat' first
    | assumption | (intro _; first | (clear_value x1; revert x1) | subst x1) | intro _ | (unfold x1; clear x1)
    | (extract_lets +onlyGivenNames -merge x1; first | refine Keeps.cut s0 x1 ?_ ?_ | refine Keeps.cut1 s0 x1 ?_ ?_ | refine Keeps.cut2 s0 x1 ?_ ?_ | refine Keeps.cutR s0 x1 ?_ ?_ | (first | refine keepLedger x1 ?_ | refine keepMem x1 ?_ | refine keepPath x1 ?_; subst x1) | (clear_value x1; revert x1) | subst x1)
    | apply State.setTransfer_keeps | apply aborted_keeps | apply State.writeValue_keeps | apply doneReply_keeps
    | apply Keeps.ite | apply Keeps.foldl | apply Keeps.ite1 | apply Keeps.ite2 | apply Keeps.iteR
    | apply Keeps.elim | apply Keeps.foldl1 | apply Keeps.foldl2 | split
    | (simp only [Keeps.mk_eq]; refine KeepsMk.of ?_ rfl rfl rfl rfl rfl rfl rfl rfl rfl rfl)

theorem State.serveEnd_keeps {s0 s : State} {a1 a2} (h : Keeps s0 s) :
    Keeps s0 (State.serveEnd s a1 a2).s := by
  unfold State.serveEnd
  with_reducible repeat' first
    | assumption | (intro _; clear_value x1; revert x1) | intro _ | (unfold x1; clear x1)
    | (extract_lets +onlyGivenNames -merge x1; first | refine Keeps.cut s0 x1 ?_ ?_ | (clear_value x1; revert x1))
    | apply aborted_keeps | apply State.setTransfer_keeps | apply State.finishWrite_keeps
    | apply doneReply_keeps | apply Keeps.ite | apply Keeps.foldl | split
    | (simp only [Keeps.mk_eq]; refine KeepsMk.of ?_ rfl rfl rfl rfl rfl rfl rfl rfl rfl rfl)

theorem State.serveAbort_keeps {s0 s : State} {a1 a2} (h : Keeps s0 s) :
    Keeps s0 (State.serveAbort s a1 a2).s := by
  unfold State.serveAbort
  with_reducible repeat' first
    | assumption | apply State.cancelTransfer_keeps | apply doneReply_keeps | apply aborted_keeps | apply State.setTransfer_keeps | apply Keeps.ite
    | split

theorem State.serveRead_keeps {s0 s : State} {a1 a2} (h : Keeps s0 s) :
    Keeps s0 (State.serveRead s a1 a2).s := by
  unfold State.serveRead
  with_reducible repeat' first
    | assumption | (intro _; first | (clear_value x1; revert x1) | subst x1) | intro _ | (unfold x1; clear x1)
    | (extract_lets +onlyGivenNames -merge x1; first | refine Keeps.cut s0 x1 ?_ ?_ | refine Keeps.cut1 s0 x1 ?_ ?_ | refine Keeps.cut2 s0 x1 ?_ ?_ | refine Keeps.cutR s0 x1 ?_ ?_ | (first | refine keepLedger x1 ?_ | refine keepMem x1 ?_ | refine keepPath x1 ?_; subst x1) | (clear_value x1; revert x1) | subst x1)
    | apply aborted_keeps | apply State.readValue_keeps | apply Keeps.ite | apply Keeps.foldl | apply Keeps.ite1
    | apply Keeps.ite2 | apply Keeps.iteR | apply Keeps.elim | apply Keeps.foldl1 | apply Keeps.foldl2 | split
    | (simp only [Keeps.mk_eq]; refine KeepsMk.of ?_ rfl rfl rfl rfl rfl rfl rfl rfl rfl rfl)

theorem State.serveWrite_keeps {s0 s : State} {a1 a2} (h : Keeps s0 s) :
    Keeps s0 (State.serveWrite s a1 a2).s := by
  unfold State.serveWrite
  with_reducible repeat' first
    | assumption | (intro _; first | (clear_value x1; revert x1) | subst x1) | intro _ | (unfold x1; clear x1)
    | (extract_lets +onlyGivenNames -merge x1; first | refine Keeps.cut s0 x1 ?_ ?_ | refine Keeps.cut1 s0 x1 ?_ ?_ | refine Keeps.cut2 s0 x1 ?_ ?_ | refine Keeps.cutR s0 x1 ?_ ?_ | (first | refine keepLedger x1 ?_ | refine keepMem x1 ?_ | refine keepPath x1 ?_; subst x1) | (clear_value x1; revert x1) | subst x1)
    | apply aborted_keeps | apply State.writeValue_keeps | apply doneReply_keeps | apply Keeps.ite
    | apply Keeps.foldl | apply Keeps.ite1 | apply Keeps.ite2 | apply Keeps.iteR | apply Keeps.elim
    | apply Keeps.foldl1 | apply Keeps.foldl2 | split
    | (simp only [Keeps.mk_eq]; refine KeepsMk.of ?_ rfl rfl rfl rfl rfl rfl rfl rfl rfl rfl)

theorem State.serveReadInit_keeps {s0 s : State} {a1 a2} (h : Keeps s0 s) :
    Keeps s0 (State.serveReadInit s a1 a2).s := by
  unfold State.serveReadInit
  with_reducible repeat' first
    | assumption | apply State.openTransfer_keeps | apply aborted_keeps | apply doneReply_keeps | apply State.readValue_keeps
    | apply State.setTransfer_keeps | apply Keeps.ite | split

theorem State.serveWriteInit_keeps {s0 s : State} {a1 a2} (h : Keeps s0 s) :
    Keeps s0 (State.serveWriteInit s a1 a2).s := by
  unfold State.serveWriteInit
  with_reducible repeat' first
    | assumption | (intro _; first | (clear_value x1; revert x1) | subst x1) | intro _ | (unfold x1; clear x1)
    | (extract_lets +onlyGivenNames -merge x1; first | refine Keeps.cut s0 x1 ?_ ?_ | refine Keeps.cut1 s0 x1 ?_ ?_ | refine Keeps.cut2 s0 x1 ?_ ?_ | refine Keeps.cutR s0 x1 ?_ ?_ | (first | refine keepLedger x1 ?_ | refine keepMem x1 ?_ | refine keepPath x1 ?_; subst x1) | (clear_value x1; revert x1) | subst x1)
    | apply State.openTransfer_keeps | apply aborted_keeps | apply doneReply_keeps | apply State.setTransfer_keeps | apply Keeps.ite
    | apply Keeps.foldl | apply Keeps.ite1 | apply Keeps.ite2 | apply Keeps.iteR | apply Keeps.elim
    | apply Keeps.foldl1 | apply Keeps.foldl2 | split
    | (simp only [Keeps.mk_eq]; refine KeepsMk.of ?_ rfl rfl rfl rfl rfl rfl rfl rfl rfl rfl)

theorem State.handle_keeps {s0 s : State} {a1 a2} (h : Keeps s0 s) :
    Keeps s0 (State.handle s a1 a2).s := by
  unfold State.handle
  with_reducible repeat' first
    | assumption | (intro _; clear_value x1; revert x1) | intro _ | (unfold x1; clear x1)
    | (extract_lets +onlyGivenNames -merge x1; first | refine Keeps.cut s0 x1 ?_ ?_ | (clear_value x1; revert x1))
    | apply aborted_keeps | apply State.serveData_keeps | apply State.serveEnd_keeps
    | apply State.serveAbort_keeps | apply State.serveRead_keeps | apply State.serveWrite_keeps
    | apply State.serveReadInit_keeps | apply State.serveWriteInit_keeps | apply Keeps.ite | apply Keeps.foldl
    | split | (simp only [Keeps.mk_eq]; refine KeepsMk.of ?_ rfl rfl rfl rfl rfl rfl rfl rfl rfl rfl)

theorem State.serve_keeps {s0 s : State} {a1 a2} (h : Keeps s0 s) :
    Keeps s0 (State.serve s a1 a2) := by
  unfold State.serve
  with_reducible repeat' first
    | assumption | (intro _; clear_value x1; revert x1) | intro _ | (unfold x1; clear x1)
    | (extract_lets +onlyGivenNames -merge x1; first | refine Keeps.cut s0 x1 ?_ ?_ | (clear_value x1; revert x1))
    | apply Reply.send_keeps | apply aborted_keeps | apply State.touch_keeps | apply State.emit_keeps
    | apply State.handle_keeps | apply Keeps.ite | apply Keeps.foldl | split
    | (simp only [Keeps.mk_eq]; refine KeepsMk.of ?_ rfl rfl rfl rfl rfl rfl rfl rfl rfl rfl)

theorem State.write_keeps {s0 s : State} {a1 a2 a3} (h : Keeps s0 s) :
    Keeps s0 (State.write s a1 a2 a3) := by
  unfold State.write
  with_reducible repeat' first
    | assumption | intro _ | apply State.serve_keeps | apply Reply.send_keeps | apply aborted_keeps
    | apply State.setTransfer_keeps | apply Keeps.ite | apply Keeps.foldl | split
    | (simp only [Keeps.mk_eq]; refine KeepsMk.of ?_ rfl rfl rfl rfl rfl rfl rfl rfl rfl rfl)

theorem execDigestRegion_keeps {s0 s : State} {a1 a2} (h : Keeps s0 s) :
    KeepsO s0 (execDigestRegion a1 a2 s) := by
  unfold execDigestRegion
  with_reducible repeat' first
    | assumption | apply State.write_keeps | apply State.quiet_keeps | apply Keeps.ite | apply KeepsO.next
    | apply KeepsO.ite | split

theorem execCoolantStatement_keeps {s0 s : State} {a1 a2 a3} (h : Keeps s0 s) :
    KeepsO s0 (execCoolantStatement a1 a2 a3 s) := by
  unfold execCoolantStatement
  with_reducible repeat' first
    | assumption | apply State.write_keeps | apply State.quiet_keeps | apply Keeps.ite | apply KeepsO.next
    | apply KeepsO.ite | split

theorem execReinitFabric_keeps {s0 s : State} {a1} (h : Keeps s0 s) :
    KeepsO s0 (execReinitFabric a1 s) := by
  unfold execReinitFabric
  with_reducible repeat' first
    | assumption | apply State.write_keeps | apply State.quiet_keeps | apply Keeps.ite | apply KeepsO.next
    | apply KeepsO.ite | split

theorem execReinitUpdate_keeps {s0 s : State} {a1} (h : Keeps s0 s) :
    KeepsO s0 (execReinitUpdate a1 s) := by
  unfold execReinitUpdate
  with_reducible repeat' first
    | assumption | apply State.write_keeps | apply State.quiet_keeps | apply Keeps.ite | apply KeepsO.next
    | apply KeepsO.ite | split

theorem execAccept_keeps {s0 s : State} {a1 a2 a3} (h : Keeps s0 s) :
    KeepsO s0 (execAccept a1 a2 a3 s) := by
  unfold execAccept
  with_reducible repeat' first
    | assumption | apply State.write_keeps | apply State.quiet_keeps | apply Keeps.ite | apply KeepsO.next
    | apply KeepsO.ite | split

theorem execKeptResponseExpiry_keeps {s0 s : State} {a1} (h : Keeps s0 s) :
    KeepsO s0 (execKeptResponseExpiry a1 s) := by
  unfold execKeptResponseExpiry
  extract_lets s1
  have h1 : Keeps s0 s1 := State.quiet_keeps h
  clear_value s1
  split
  · exact KeepsO.next (State.setPath_keeps (State.advanceTo_keeps h1)
      (fun b => Nat.le_trans (List.length_filter_le ..) b))
  · exact KeepsO.next h1

theorem execSegIdleTimeout_keeps {s0 s : State} {a1} (h : Keeps s0 s) :
    KeepsO s0 (execSegIdleTimeout a1 s) := by
  unfold execSegIdleTimeout
  with_reducible repeat' first
    | assumption | (intro _; clear_value x1; revert x1) | intro _ | (unfold x1; clear x1)
    | (extract_lets +onlyGivenNames -merge x1; first | refine Keeps.cut s0 x1 ?_ ?_ | (clear_value x1; revert x1))
    | apply State.quiet_keeps | apply State.setTransfer_keeps | apply State.advanceTo_keeps | apply Keeps.ite
    | apply Keeps.foldl | apply KeepsO.next | apply KeepsO.ite | split
    | (simp only [Keeps.mk_eq]; refine KeepsMk.of ?_ rfl rfl rfl rfl rfl rfl rfl rfl rfl rfl)

theorem execSegWriteInit_keeps {s0 s : State} {a1} (h : Keeps s0 s) :
    KeepsO s0 (execSegWriteInit a1 s) := by
  unfold execSegWriteInit
  with_reducible repeat' first
    | assumption | apply State.serve_keeps | apply State.quiet_keeps | apply Keeps.ite | apply KeepsO.next
    | apply KeepsO.ite | split

theorem execSegEndWrite_keeps {s0 s : State} {a1} (h : Keeps s0 s) :
    KeepsO s0 (execSegEndWrite a1 s) := by
  unfold execSegEndWrite
  with_reducible repeat' first
    | assumption | apply State.serve_keeps | apply State.quiet_keeps | apply Keeps.ite | apply KeepsO.next
    | apply KeepsO.ite | split

theorem execShutdown_keeps {s0 s : State} {a1 a2} (h : Keeps s0 s) :
    KeepsO s0 (execShutdown a1 a2 s) := by
  unfold execShutdown
  with_reducible repeat' first
    | assumption | apply State.write_keeps | apply State.quiet_keeps | apply Keeps.ite | apply KeepsO.next
    | apply KeepsO.ite | split

theorem execJobStop_keeps {s0 s : State} {a1 a2} (h : Keeps s0 s) :
    KeepsO s0 (execJobStop a1 a2 s) := by
  unfold execJobStop
  with_reducible repeat' first
    | assumption | apply State.write_keeps | apply State.quiet_keeps | apply Keeps.ite | apply KeepsO.next
    | apply KeepsO.ite | split

theorem execLedgerClearFlash_keeps {s0 s : State} {a1} (h : Keeps s0 s) :
    KeepsO s0 (execLedgerClearFlash a1 s) := by
  unfold execLedgerClearFlash
  with_reducible repeat' first
    | assumption | apply State.write_keeps | apply State.quiet_keeps | apply Keeps.ite | apply KeepsO.next
    | apply KeepsO.ite | split

theorem execRootSet_keeps {s0 s : State} {a1 a2 a3} (h : Keeps s0 s) :
    KeepsO s0 (execRootSet a1 a2 a3 s) := by
  unfold execRootSet
  with_reducible repeat' first
    | assumption | apply State.write_keeps | apply State.quiet_keeps | apply Keeps.ite | apply KeepsO.next
    | apply KeepsO.ite | split

theorem execAdmitPlan_keeps {s0 s : State} {a1 a2} (h : Keeps s0 s) :
    KeepsO s0 (execAdmitPlan a1 a2 s) := by
  unfold execAdmitPlan
  with_reducible repeat' first
    | assumption | apply State.write_keeps | apply State.quiet_keeps | apply Keeps.ite | apply KeepsO.next
    | apply KeepsO.ite | split

theorem execSelectSource_keeps {s0 s : State} {a1 a2 a3} (h : Keeps s0 s) :
    KeepsO s0 (execSelectSource a1 a2 a3 s) := by
  unfold execSelectSource
  with_reducible repeat' first
    | assumption | apply State.write_keeps | apply State.quiet_keeps | apply Keeps.ite | apply KeepsO.next
    | apply KeepsO.ite | split

theorem execWritePaths_keeps {s0 s : State} {a1 a2} (h : Keeps s0 s) :
    KeepsO s0 (execWritePaths a1 a2 s) := by
  unfold execWritePaths
  with_reducible repeat' first
    | assumption | apply State.write_keeps | apply State.quiet_keeps | apply Keeps.ite | apply KeepsO.next
    | apply KeepsO.ite | split

theorem execTimeRole_keeps {s0 s : State} {a1 a2} (h : Keeps s0 s) :
    KeepsO s0 (execTimeRole a1 a2 s) := by
  unfold execTimeRole
  with_reducible repeat' first
    | assumption | apply State.write_keeps | apply State.quiet_keeps | apply Keeps.ite | apply KeepsO.next
    | apply KeepsO.ite | split

theorem execReleasePlan_keeps {s0 s : State} {a1 a2} (h : Keeps s0 s) :
    KeepsO s0 (execReleasePlan a1 a2 s) := by
  unfold execReleasePlan
  with_reducible repeat' first
    | assumption | apply State.write_keeps | apply State.quiet_keeps | apply Keeps.ite | apply KeepsO.next
    | apply KeepsO.ite | split

theorem execAbortTransfer_keeps {s0 s : State} {a1} (h : Keeps s0 s) :
    KeepsO s0 (execAbortTransfer a1 s) := by
  unfold execAbortTransfer
  with_reducible repeat' first
    | assumption | apply State.serve_keeps | apply State.quiet_keeps | apply Keeps.ite | apply KeepsO.next
    | apply KeepsO.ite | split

theorem execPrepare_keeps {s0 s : State} {a1 a2} (h : Keeps s0 s) :
    KeepsO s0 (execPrepare a1 a2 s) := by
  unfold execPrepare
  with_reducible repeat' first
    | assumption | apply State.write_keeps | apply State.quiet_keeps | apply Keeps.ite | apply KeepsO.next
    | apply KeepsO.ite | split

theorem execWarmReset_keeps {s0 s : State} {a1 a2} (h : Keeps s0 s) :
    KeepsO s0 (execWarmReset a1 a2 s) := by
  unfold execWarmReset
  with_reducible repeat' first
    | assumption | apply State.write_keeps | apply State.quiet_keeps | apply Keeps.ite | apply KeepsO.next
    | apply KeepsO.ite | split

theorem execPlaceNumber_keeps {s0 s : State} {a1 a2} (h : Keeps s0 s) :
    KeepsO s0 (execPlaceNumber a1 a2 s) := by
  unfold execPlaceNumber
  with_reducible repeat' first
    | assumption | apply State.write_keeps | apply State.quiet_keeps | apply Keeps.ite | apply KeepsO.next
    | apply KeepsO.ite | split

theorem execMemVerified_keeps {s0 s : State} {a1 a2} (h : Keeps s0 s) :
    KeepsO s0 (execMemVerified a1 a2 s) := by
  unfold execMemVerified
  with_reducible repeat' first
    | assumption | apply State.write_keeps | apply State.quiet_keeps | apply Keeps.ite | apply KeepsO.next
    | apply KeepsO.ite | split

theorem execEvidenceReset_keeps {s0 s : State} {a1 a2} (h : Keeps s0 s) :
    KeepsO s0 (execEvidenceReset a1 a2 s) := by
  unfold execEvidenceReset
  with_reducible repeat' first
    | assumption | apply State.write_keeps | apply State.quiet_keeps | apply Keeps.ite | apply KeepsO.next
    | apply KeepsO.ite | split

theorem execSegReadInit_keeps {s0 s : State} {a1} (h : Keeps s0 s) :
    KeepsO s0 (execSegReadInit a1 s) := by
  unfold execSegReadInit
  with_reducible repeat' first
    | assumption | apply State.serve_keeps | apply State.quiet_keeps | apply Keeps.ite | apply KeepsO.next
    | apply KeepsO.ite | split

theorem execSegDataWrite_keeps {s0 s : State} {a1} (h : Keeps s0 s) :
    KeepsO s0 (execSegDataWrite a1 s) := by
  unfold execSegDataWrite
  with_reducible repeat' first
    | assumption | apply State.serve_keeps | apply State.quiet_keeps | apply Keeps.ite | apply KeepsO.next
    | apply KeepsO.ite | split

theorem execPlanBlob_keeps {s0 s : State} {a1 a2} (h : Keeps s0 s) :
    KeepsO s0 (execPlanBlob a1 a2 s) := by
  unfold execPlanBlob
  with_reducible repeat' first
    | assumption | apply State.write_keeps | apply State.quiet_keeps | apply Keeps.ite | apply KeepsO.next
    | apply KeepsO.ite | split

theorem execReinitOptics_keeps {s0 s : State} {a1} (h : Keeps s0 s) :
    KeepsO s0 (execReinitOptics a1 s) := by
  unfold execReinitOptics
  with_reducible repeat' first
    | assumption | apply State.write_keeps | apply State.quiet_keeps | apply Keeps.ite | apply KeepsO.next
    | apply KeepsO.ite | split

theorem execPowerRequestRun_keeps {s0 s : State} {a1} (h : Keeps s0 s) :
    KeepsO s0 (execPowerRequestRun a1 s) := by
  unfold execPowerRequestRun
  with_reducible repeat' first
    | assumption | apply State.write_keeps | apply State.quiet_keeps | apply Keeps.ite | apply KeepsO.next
    | apply KeepsO.ite | split

theorem execLcRequestDiag_keeps {s0 s : State} {a1 a2} (h : Keeps s0 s) :
    KeepsO s0 (execLcRequestDiag a1 a2 s) := by
  unfold execLcRequestDiag
  with_reducible repeat' first
    | assumption | apply State.write_keeps | apply State.quiet_keeps | apply Keeps.ite | apply KeepsO.next
    | apply KeepsO.ite | split

theorem execLedgerClearRing_keeps {s0 s : State} {a1} (h : Keeps s0 s) :
    KeepsO s0 (execLedgerClearRing a1 s) := by
  unfold execLedgerClearRing
  with_reducible repeat' first
    | assumption | apply State.write_keeps | apply State.quiet_keeps | apply Keeps.ite | apply KeepsO.next
    | apply KeepsO.ite | split

theorem execRtTelemetryClear_keeps {s0 s : State} {a1 a2} (h : Keeps s0 s) :
    KeepsO s0 (execRtTelemetryClear a1 a2 s) := by
  unfold execRtTelemetryClear
  with_reducible repeat' first
    | assumption | apply State.write_keeps | apply State.quiet_keeps | apply Keeps.ite | apply KeepsO.next
    | apply KeepsO.ite | split

theorem execSegEndRead_keeps {s0 s : State} {a1} (h : Keeps s0 s) :
    KeepsO s0 (execSegEndRead a1 s) := by
  unfold execSegEndRead
  with_reducible repeat' first
    | assumption | apply State.serve_keeps | apply State.quiet_keeps | apply Keeps.ite | apply KeepsO.next
    | apply KeepsO.ite | split

theorem execLcAdvanceDeploy_keeps {s0 s : State} {a1} (h : Keeps s0 s) :
    KeepsO s0 (execLcAdvanceDeploy a1 s) := by
  unfold execLcAdvanceDeploy
  with_reducible repeat' first
    | assumption | apply State.write_keeps | apply State.quiet_keeps | apply Keeps.ite | apply KeepsO.next
    | apply KeepsO.ite | split

theorem execBeatChangeAt_keeps {s0 s : State} {a1 a2 a3} (h : Keeps s0 s) :
    KeepsO s0 (execBeatChangeAt a1 a2 a3 s) := by
  unfold execBeatChangeAt
  with_reducible repeat' first
    | assumption | apply State.write_keeps | apply State.quiet_keeps | apply Keeps.ite | apply KeepsO.next
    | apply KeepsO.ite | split

theorem execPackLoad_keeps {s0 s : State} {a1 a2} (h : Keeps s0 s) :
    KeepsO s0 (execPackLoad a1 a2 s) := by
  unfold execPackLoad
  with_reducible repeat' first
    | assumption | apply State.write_keeps | apply State.quiet_keeps | apply Keeps.ite | apply KeepsO.next
    | apply KeepsO.ite | split

theorem execJobStart_keeps {s0 s : State} {a1 a2} (h : Keeps s0 s) :
    KeepsO s0 (execJobStart a1 a2 s) := by
  unfold execJobStart
  with_reducible repeat' first
    | assumption | apply State.write_keeps | apply State.quiet_keeps | apply Keeps.ite | apply KeepsO.next
    | apply KeepsO.ite | split

theorem execFwActivate_keeps {s0 s : State} {a1 a2} (h : Keeps s0 s) :
    KeepsO s0 (execFwActivate a1 a2 s) := by
  unfold execFwActivate
  with_reducible repeat' first
    | assumption | apply State.write_keeps | apply State.quiet_keeps | apply Keeps.ite | apply KeepsO.next
    | apply KeepsO.ite | split

theorem execFeaturesAccepted_keeps {s0 s : State} {a1 a2} (h : Keeps s0 s) :
    KeepsO s0 (execFeaturesAccepted a1 a2 s) := by
  unfold execFeaturesAccepted
  with_reducible repeat' first
    | assumption | apply State.write_keeps | apply State.quiet_keeps | apply Keeps.ite | apply KeepsO.next
    | apply KeepsO.ite | split

theorem execFwStage_keeps {s0 s : State} {a1 a2} (h : Keeps s0 s) :
    KeepsO s0 (execFwStage a1 a2 s) := by
  unfold execFwStage
  with_reducible repeat' first
    | assumption | apply State.write_keeps | apply State.quiet_keeps | apply Keeps.ite | apply KeepsO.next
    | apply KeepsO.ite | split

theorem execWriteObject_keeps {s0 s : State} {a1} (h : Keeps s0 s) :
    KeepsO s0 (execWriteObject a1 s) := by
  unfold execWriteObject
  with_reducible repeat' first
    | assumption | apply State.serve_keeps | apply State.quiet_keeps | apply Keeps.ite | apply KeepsO.next
    | apply KeepsO.ite | split

theorem execSegDataRead_keeps {s0 s : State} {a1} (h : Keeps s0 s) :
    KeepsO s0 (execSegDataRead a1 s) := by
  unfold execSegDataRead
  with_reducible repeat' first
    | assumption | apply State.serve_keeps | apply State.quiet_keeps | apply Keeps.ite | apply KeepsO.next
    | apply KeepsO.ite | split

theorem execReinitCompute_keeps {s0 s : State} {a1} (h : Keeps s0 s) :
    KeepsO s0 (execReinitCompute a1 s) := by
  unfold execReinitCompute
  with_reducible repeat' first
    | assumption | apply State.write_keeps | apply State.quiet_keeps | apply Keeps.ite | apply KeepsO.next
    | apply KeepsO.ite | split

theorem execLcRequestDeployed_keeps {s0 s : State} {a1 a2} (h : Keeps s0 s) :
    KeepsO s0 (execLcRequestDeployed a1 a2 s) := by
  unfold execLcRequestDeployed
  with_reducible repeat' first
    | assumption | apply State.write_keeps | apply State.quiet_keeps | apply Keeps.ite | apply KeepsO.next
    | apply KeepsO.ite | split

theorem execReadObject_keeps {s0 s : State} {a1} (h : Keeps s0 s) :
    KeepsO s0 (execReadObject a1 s) := by
  unfold execReadObject
  with_reducible repeat' first
    | assumption | apply State.serve_keeps | apply State.quiet_keeps | apply Keeps.ite | apply KeepsO.next
    | apply KeepsO.ite | split

theorem execSteStart_keeps {s0 s : State} {a1 a2} (h : Keeps s0 s) :
    KeepsO s0 (execSteStart a1 a2 s) := by
  unfold execSteStart
  with_reducible repeat' first
    | assumption | apply State.write_keeps | apply State.quiet_keeps | apply Keeps.ite | apply KeepsO.next
    | apply KeepsO.ite | split

theorem execLcRequestRetire_keeps {s0 s : State} {a1 a2} (h : Keeps s0 s) :
    KeepsO s0 (execLcRequestRetire a1 a2 s) := by
  unfold execLcRequestRetire
  with_reducible repeat' first
    | assumption | apply State.write_keeps | apply State.quiet_keeps | apply Keeps.ite | apply KeepsO.next
    | apply KeepsO.ite | split

theorem execBridgePlace_keeps {s0 s : State} {a1 a2} (h : Keeps s0 s) :
    KeepsO s0 (execBridgePlace a1 a2 s) := by
  unfold execBridgePlace
  with_reducible repeat' first
    | assumption | apply State.write_keeps | apply State.quiet_keeps | apply Keeps.ite | apply KeepsO.next
    | apply KeepsO.ite | split

theorem execXrClear_keeps {s0 s : State} {a1 a2} (h : Keeps s0 s) :
    KeepsO s0 (execXrClear a1 a2 s) := by
  unfold execXrClear
  with_reducible repeat' first
    | assumption | apply State.write_keeps | apply State.quiet_keeps | apply Keeps.ite | apply KeepsO.next
    | apply KeepsO.ite | split

theorem execPowerRequestDoze_keeps {s0 s : State} {a1} (h : Keeps s0 s) :
    KeepsO s0 (execPowerRequestDoze a1 s) := by
  unfold execPowerRequestDoze
  with_reducible repeat' first
    | assumption | apply State.write_keeps | apply State.quiet_keeps | apply Keeps.ite | apply KeepsO.next
    | apply KeepsO.ite | split

theorem execDisable_keeps {s0 s : State} {a1 a2 a3} (h : Keeps s0 s) :
    KeepsO s0 (execDisable a1 a2 a3 s) := by
  unfold execDisable
  with_reducible repeat' first
    | assumption | apply State.write_keeps | apply State.quiet_keeps | apply Keeps.ite | apply KeepsO.next
    | apply KeepsO.ite | split

theorem execLcAdvanceProvision_keeps {s0 s : State} {a1} (h : Keeps s0 s) :
    KeepsO s0 (execLcAdvanceProvision a1 s) := by
  unfold execLcAdvanceProvision
  with_reducible repeat' first
    | assumption | apply State.write_keeps | apply State.quiet_keeps | apply Keeps.ite | apply KeepsO.next
    | apply KeepsO.ite | split

theorem execPackRemove_keeps {s0 s : State} {a1 a2} (h : Keeps s0 s) :
    KeepsO s0 (execPackRemove a1 a2 s) := by
  unfold execPackRemove
  with_reducible repeat' first
    | assumption | apply State.write_keeps | apply State.quiet_keeps | apply Keeps.ite | apply KeepsO.next
    | apply KeepsO.ite | split

theorem execStRun_keeps {s0 s : State} {a1 a2} (h : Keeps s0 s) :
    KeepsO s0 (execStRun a1 a2 s) := by
  unfold execStRun
  with_reducible repeat' first
    | assumption | apply State.write_keeps | apply State.quiet_keeps | apply Keeps.ite | apply KeepsO.next
    | apply KeepsO.ite | split

theorem execBridgeRole_keeps {s0 s : State} {a1 a2} (h : Keeps s0 s) :
    KeepsO s0 (execBridgeRole a1 a2 s) := by
  unfold execBridgeRole
  with_reducible repeat' first
    | assumption | apply State.write_keeps | apply State.quiet_keeps | apply Keeps.ite | apply KeepsO.next
    | apply KeepsO.ite | split

theorem execPowerRequestKeep_keeps {s0 s : State} {a1} (h : Keeps s0 s) :
    KeepsO s0 (execPowerRequestKeep a1 s) := by
  unfold execPowerRequestKeep
  with_reducible repeat' first
    | assumption | apply State.write_keeps | apply State.quiet_keeps | apply Keeps.ite | apply KeepsO.next
    | apply KeepsO.ite | split

end Sys2Proof.Machine
end

