-- ==== Sys2Proof/Laws/Keeps/Carriage.lean ====
section
/-! SUPPORT. Every operation of Machine/Carriage.lean keeps what `Keeps` says. -/

namespace Sys2Proof.Machine

theorem State.serveMessage_keeps {s0 s : State} {a1 a2} (h : Keeps s0 s) :
    Keeps s0 (State.serveMessage s a1 a2) := by
  unfold State.serveMessage
  with_reducible repeat' first
    | assumption | intro _ | apply Reply.send_keeps | apply aborted_keeps | apply State.serve_keeps
    | apply Keeps.ite | apply Keeps.foldl | split
    | (simp only [Keeps.mk_eq]; refine KeepsMk.of ?_ rfl rfl rfl rfl rfl rfl rfl rfl rfl rfl)

theorem State.serveControl_keeps {s0 s : State} {a1} (h : Keeps s0 s) :
    Keeps s0 (State.serveControl s a1) := by
  unfold State.serveControl
  with_reducible repeat' first
    | assumption | intro _ | apply State.setEid_keeps | apply State.getEid_keeps
    | apply State.mctpVersions_keeps | apply State.mctpTypes_keeps | apply Keeps.ite | apply Keeps.foldl | split
    | (simp only [Keeps.mk_eq]; refine KeepsMk.of ?_ rfl rfl rfl rfl rfl rfl rfl rfl rfl rfl)

theorem State.serveSpdm_keeps {s0 s : State} {a1} (h : Keeps s0 s) :
    Keeps s0 (State.serveSpdm s a1) := by
  unfold State.serveSpdm
  with_reducible repeat' first
    | assumption | intro _ | apply State.spdmVersion_keeps | apply State.spdmCapabilities_keeps
    | apply State.spdmAlgorithms_keeps | apply State.spdmDigests_keeps | apply State.spdmCertificate_keeps
    | apply State.spdmChallenge_keeps | apply State.spdmMeasurements_keeps | apply State.spdmFail_keeps
    | apply Keeps.ite | apply Keeps.foldl | split
    | (simp only [Keeps.mk_eq]; refine KeepsMk.of ?_ rfl rfl rfl rfl rfl rfl rfl rfl rfl rfl)

theorem State.mctpMessage_keeps {s0 s : State} {a1} (h : Keeps s0 s) :
    Keeps s0 (State.mctpMessage s a1) := by
  unfold State.mctpMessage
  with_reducible repeat' first
    | assumption | apply State.serveMessage_keeps | apply State.serveControl_keeps | apply State.serveSpdm_keeps
    | apply Keeps.ite | split

theorem State.sendPackets_keeps {s0 s : State} {a1 a2 a3} (h : Keeps s0 s) :
    Keeps s0 (State.sendPackets s a1 a2 a3) := by
  unfold State.sendPackets
  with_reducible repeat' first
    | assumption | intro _ | apply State.emit_keeps | apply Keeps.ite | apply Keeps.foldl | split
    | (simp only [Keeps.mk_eq]; refine KeepsMk.of ?_ rfl rfl rfl rfl rfl rfl rfl rfl rfl rfl)

theorem State.setAssembling_keeps {s0 s : State} {a1} (h : Keeps s0 s) :
    Keeps s0 (State.setAssembling s a1) := by
  unfold State.setAssembling
  with_reducible repeat' first
    | assumption | apply Keeps.ite | split
    | (simp only [Keeps.mk_eq]; refine KeepsMk.of ?_ rfl rfl rfl rfl rfl rfl rfl rfl rfl rfl)

theorem State.assemble_keeps {s0 s : State} {a1 a2 a3} (h : Keeps s0 s) :
    Keeps s0 (State.assemble s a1 a2 a3) := by
  unfold State.assemble
  with_reducible repeat' first
    | assumption | (intro _; clear_value x1; revert x1) | intro _ | (unfold x1; clear x1)
    | (extract_lets +onlyGivenNames -merge x1; first | refine Keeps.cut s0 x1 ?_ ?_ | (clear_value x1; revert x1))
    | apply State.sendPackets_keeps | apply State.setAssembling_keeps | apply State.mctpMessage_keeps | apply Keeps.ite | apply Keeps.foldl
    | split | (simp only [Keeps.mk_eq]; refine KeepsMk.of ?_ rfl rfl rfl rfl rfl rfl rfl rfl rfl rfl)

theorem execMctpPacket_keeps {s0 s : State} {a1} (h : Keeps s0 s) :
    KeepsO s0 (execMctpPacket a1 s) := by
  unfold execMctpPacket
  with_reducible repeat' first
    | assumption | apply State.quiet_keeps | apply State.assemble_keeps | apply Keeps.ite | apply KeepsO.next
    | apply KeepsO.ite | split

theorem State.serveDelivered_keeps {s0 s : State} {a1 a2} (h : Keeps s0 s) :
    Keeps s0 (State.serveDelivered s a1 a2) := by
  unfold State.serveDelivered
  with_reducible repeat' first
    | assumption | (intro _; clear_value x1; revert x1) | intro _ | (unfold x1; clear x1)
    | (extract_lets +onlyGivenNames -merge x1; first | refine Keeps.cut s0 x1 ?_ ?_ | (clear_value x1; revert x1))
    | apply State.takeReport_keeps | apply State.serveMessage_keeps | apply State.sendMgmt_keeps | apply Keeps.ite | apply Keeps.foldl | split
    | (simp only [Keeps.mk_eq]; refine KeepsMk.of ?_ rfl rfl rfl rfl rfl rfl rfl rfl rfl rfl)

theorem execMgmtFlit_keeps {s0 s : State} {a1 a2 a3} (h : Keeps s0 s) :
    KeepsO s0 (execMgmtFlit a1 a2 a3 s) := by
  unfold execMgmtFlit
  with_reducible repeat' first
    | assumption | (intro _; clear_value x1; revert x1) | intro _ | (unfold x1; clear x1)
    | (extract_lets +onlyGivenNames -merge x1; first | refine Keeps.cut s0 x1 ?_ ?_ | (clear_value x1; revert x1))
    | apply State.takeMgmt_keeps | apply State.quiet_keeps | apply State.serveDelivered_keeps | apply Keeps.ite
    | apply Keeps.foldl | apply KeepsO.next | apply KeepsO.ite | split
    | (simp only [Keeps.mk_eq]; refine KeepsMk.of ?_ rfl rfl rfl rfl rfl rfl rfl rfl rfl rfl)

end Sys2Proof.Machine
end

