-- ==== Sys2Proof/Laws/Keeps/Dispatch.lean ====
section
/-! SUPPORT. Every operation of Machine/Dispatch.lean keeps what `Keeps` says. -/

namespace Sys2Proof.Machine

theorem exec_keeps {s0 s : State} (i : Instr) (h : Keeps s0 s) : KeepsO s0 (exec i s) := by
  cases i with
  | readObject r => exact execReadObject_keeps h
  | writeObject r => exact execWriteObject_keeps h
  | segWriteInit r => exact execSegWriteInit_keeps h
  | segReadInit r => exact execSegReadInit_keeps h
  | segDataWrite r => exact execSegDataWrite_keeps h
  | segDataRead r => exact execSegDataRead_keeps h
  | segEndWrite r => exact execSegEndWrite_keeps h
  | segEndRead r => exact execSegEndRead_keeps h
  | abortTransfer r => exact execAbortTransfer_keeps h
  | segIdleTimeout path => exact execSegIdleTimeout_keeps h
  | keptResponseExpiry path => exact execKeptResponseExpiry_keeps h
  | featuresAccepted q v => exact execFeaturesAccepted_keeps h
  | placeNumber q v => exact execPlaceNumber_keeps h
  | writePaths q v => exact execWritePaths_keeps h
  | beatChangeAt q isAt v => exact execBeatChangeAt_keeps h
  | timeRole q v => exact execTimeRole_keeps h
  | rootSet q beat off => exact execRootSet_keeps h
  | coolantStatement q flow v => exact execCoolantStatement_keeps h
  | planBlob q value => exact execPlanBlob_keeps h
  | admitPlan q v => exact execAdmitPlan_keeps h
  | admissionResult => exact execAdmissionResult_keeps h
  | releasePlan q v => exact execReleasePlan_keeps h
  | jobStart q v => exact execJobStart_keeps h
  | jobStop q v => exact execJobStop_keeps h
  | disable q die v => exact execDisable_keeps h
  | prepare q v => exact execPrepare_keeps h
  | xrClear q v => exact execXrClear_keeps h
  | selectSource q input v => exact execSelectSource_keeps h
  | accept q port v => exact execAccept_keeps h
  | rtTelemetryClear q v => exact execRtTelemetryClear_keeps h
  | memVerified q v => exact execMemVerified_keeps h
  | evidenceReset q v => exact execEvidenceReset_keeps h
  | packLoad q value => exact execPackLoad_keeps h
  | packRemove q v => exact execPackRemove_keeps h
  | stRun q v => exact execStRun_keeps h
  | steStart q v => exact execSteStart_keeps h
  | digestRegion q v => exact execDigestRegion_keeps h
  | regionDigestDone => exact execRegionDigestDone_keeps h
  | reinitCompute q => exact execReinitCompute_keeps h
  | reinitFabric q => exact execReinitFabric_keeps h
  | reinitOptics q => exact execReinitOptics_keeps h
  | reinitUpdate q => exact execReinitUpdate_keeps h
  | functionReinit => exact execFunctionReinit_keeps h
  | ledgerClearRing q => exact execLedgerClearRing_keeps h
  | ledgerClearFlash q => exact execLedgerClearFlash_keeps h
  | lcAdvanceProvision q => exact execLcAdvanceProvision_keeps h
  | lcAdvanceDeploy q => exact execLcAdvanceDeploy_keeps h
  | lcRequestDiag q token => exact execLcRequestDiag_keeps h
  | lcRequestDeployed q token => exact execLcRequestDeployed_keeps h
  | lcRequestRetire q token => exact execLcRequestRetire_keeps h
  | fwStage q value => exact execFwStage_keeps h
  | fwActivate q v => exact execFwActivate_keeps h
  | fwImageCopied => exact execFwImageCopied_keeps h
  | bridgeRole q v => exact execBridgeRole_keeps h
  | bridgePlace q v => exact execBridgePlace_keeps h
  | powerRequestRun q => exact execPowerRequestRun_keeps h
  | powerRequestDoze q => exact execPowerRequestDoze_keeps h
  | powerRequestKeep q => exact execPowerRequestKeep_keeps h
  | warmReset q v => exact execWarmReset_keeps h
  | shutdown q v => exact execShutdown_keeps h
  | mctpPacket packet => exact execMctpPacket_keeps h
  | setEndpointId eid => exact execSetEndpointId_keeps h
  | getEndpointId => exact execGetEndpointId_keeps h
  | getMctpVersionSupport => exact execGetMctpVersionSupport_keeps h
  | getMessageTypeSupport => exact execGetMessageTypeSupport_keeps h
  | getVersion => exact execGetVersion_keeps h
  | getCapabilities => exact execGetCapabilities_keeps h
  | negotiateAlgorithms asym hash => exact execNegotiateAlgorithms_keeps h
  | getDigests => exact execGetDigests_keeps h
  | getCertificate offset length => exact execGetCertificate_keeps h
  | challenge nonce => exact execChallenge_keeps h
  | getMeasurements index nonce => exact execGetMeasurements_keeps h
  | beatBoundary env => exact execBeatBoundary_keeps h
  | guardClose => exact execGuardClose_keeps h
  | timeSend => exact execTimeSend_keeps h
  | timeExchange port x => exact execTimeExchange_keeps h
  | bellHoldover => exact execBellHoldover_keeps h
  | holdoverLimit => exact execHoldoverLimit_keeps h
  | wakeStart => exact execWakeStart_keeps h
  | ccIssue r => exact execCcIssue_keeps h
  | ccQtake r => exact execCcQtake_keeps h
  | ccSumrd r => exact execCcSumrd_keeps h
  | ccSumwait r => exact execCcSumwait_keeps h
  | ccSumclr r => exact execCcSumclr_keeps h
  | ccBeat r => exact execCcBeat_keeps h
  | ccWaitBoundary r => exact execCcWaitBoundary_keeps h
  | ccWaitIdle r => exact execCcWaitIdle_keeps h
  | ccNote r => exact execCcNote_keeps h
  | coreResume die cluster => exact execCoreResume_keeps h
  | coreInstruction i => exact execCoreInstruction_keeps h
  | fill die engine upsets => exact execFill_keeps h
  | vload die engine => exact execVload_keeps h
  | sliceStart die engine => exact execSliceStart_keeps h
  | sliceEnd die engine => exact execSliceEnd_keeps h
  | drainStart die engine tile => exact execDrainStart_keeps h
  | drainEnd die engine tile => exact execDrainEnd_keeps h
  | programStart die engine => exact execProgramStart_keeps h
  | programEnd die engine => exact execProgramEnd_keeps h
  | summaryMerge die cluster => exact execSummaryMerge_keeps h
  | verdictArrival v => exact execVerdictArrival_keeps h
  | evidenceCaptured e => exact execEvidenceCaptured_keeps h
  | granaryContribution die unit => exact execGranaryContribution_keeps h
  | chunkOutputDone window chunk => exact execChunkOutputDone_keeps h
  | updateChunk die unit => exact execUpdateChunk_keeps h
  | shardPhaseDone window => exact execShardPhaseDone_keeps h
  | writeTransaction p upsets => exact execWriteTransaction_keeps h
  | readTransaction p upsets => exact execReadTransaction_keeps h
  | readData p => exact execReadData_keeps h
  | tallyAdd p => exact execTallyAdd_keeps h
  | maxidx p => exact execMaxidx_keeps h
  | minidx p => exact execMinidx_keeps h
  | message p => exact execMessage_keeps h
  | doorbell p => exact execDoorbell_keeps h
  | doorbellApply flow => exact execDoorbellApply_keeps h
  | ack p => exact execAck_keeps h
  | ackTimer flow => exact execAckTimer_keeps h
  | rtoExpiry flow psn => exact execRtoExpiry_keeps h
  | mailboxGo mailbox regs length tag => exact execMailboxGo_keeps h
  | mailboxClear mailbox => exact execMailboxClear_keeps h
  | mailboxTimeout mailbox => exact execMailboxTimeout_keeps h
  | packetRoute => exact execPacketRoute_keeps h
  | escapeTimeout => exact execEscapeTimeout_keeps h
  | groupSend port lane => exact execGroupSend_keeps h
  | groupReceive g => exact execGroupReceive_keeps h
  | nakFrame port l seq => exact @execNakFrame_keeps s0 s port l seq h
  | nakRepeat port lane => exact execNakRepeat_keeps h
  | replayFrame port l seq mask => exact execReplayFrame_keeps h
  | returnFrame port l ackSeq credits => exact @execReturnFrame_keeps s0 s port l ackSeq credits h
  | laneReport port r => exact execLaneReport_keeps h
  | cleanSend => exact execCleanSend_keeps h
  | cleanFrame port seq f => exact execCleanFrame_keeps h
  | controlAck port seq => exact execControlAck_keeps h
  | laneCResend port => exact execLaneCResend_keeps h
  | mgmtFlit port seq flit => exact execMgmtFlit_keeps h
  | helloSend port => exact execHelloSend_keeps h
  | helloFrame port body => exact execHelloFrame_keeps h
  | helloTimeout port => exact execHelloTimeout_keeps h
  | trainingFrame t => exact execTrainingFrame_keeps h
  | laneCLock port => exact execLaneCLock_keeps h
  | laneCLoss port => exact execLaneCLoss_keeps h
  | linkDown port => exact execLinkDown_keeps h
  | resettingTimeout port => exact execResettingTimeout_keeps h
  | laneSignalLoss port lane => exact execLaneSignalLoss_keeps h
  | ringSweepStep ring resonance ringMw totalMw => exact execRingSweepStep_keeps h
  | ringLockSettled ring => exact execRingLockSettled_keeps h
  | toneWindow ring tones power trackMhz => exact execToneWindow_keeps h
  | ringLightLoss ring => exact execRingLightLoss_keeps h
  | ringLightReturn ring => exact execRingLightReturn_keeps h
  | txMonitorSample port oma fibreUw => exact execTxMonitorSample_keeps h
  | monitorLineDrop input line => exact execMonitorLineDrop_keeps h
  | controlLaserDrop port => exact execControlLaserDrop_keeps h
  | lscRequestTimeout => exact execLscRequestTimeout_keeps h
  | patrolScrub upsets beingWritten => exact execPatrolScrub_keeps h
  | pageCopyDone upsets => exact execPageCopyDone_keeps h
  | zeroingDone => exact execZeroingDone_keeps h
  | patternCaseDone c => exact execPatternCaseDone_keeps h
  | selfTestDone r => exact execSelfTestDone_keeps h
  | snapshotDone => exact execSnapshotDone_keeps h
  | ledgerInterval => exact execLedgerInterval_keeps h
  | pwrEnRise => exact execPwrEnRise_keeps h
  | powerUpDone => exact execPowerUpDone_keeps h
  | pwrEnFall => exact execPwrEnFall_keeps h
  | aux3v3Loss => exact execAux3v3Loss_keeps h
  | inputVoltageChange millivolts => exact execInputVoltageChange_keeps h
  | resetN heldNs => exact execResetN_keeps h
  | watchdogExpiry => exact execWatchdogExpiry_keeps h
  | bootRomVerify => exact execBootRomVerify_keeps h
  | warmResetDone => exact execWarmResetDone_keeps h
  | thermalSample die0 die1 optical => exact execThermalSample_keeps h
  | currentLimit domain milliamps => exact execCurrentLimit_keeps h
  | securityCheck digest => exact execSecurityCheck_keeps h
  | debugAccess => exact execDebugAccess_keeps h
  | returnSend port lane => exact execReturnSend_keeps h
  | controlAckSend port => exact execControlAckSend_keeps h
  | laneSignalLock port lane => exact execLaneSignalLock_keeps h
  | ringDrift ring => exact execRingDrift_keeps h
  | lscResponse ceilings => exact execLscResponse_keeps h
  | wakeItem item => exact execWakeItem_keeps h
  | gateItem item => exact execGateItem_keeps h
  | domainWakeDone domain => exact execDomainWakeDone_keeps h
  | aux3v3Rise => exact execAux3v3Rise_keeps h
  | aux3v3Settled => exact execAux3v3Settled_keeps h
  | resetNRise => exact execResetNRise_keeps h
  | dynamicAddressAssignment addr => exact execDynamicAddressAssignment_keeps h
  | securityCoreAccess => exact execSecurityCoreAccess_keeps h
  | steProgramDone output => exact execSteProgramDone_keeps h

end Sys2Proof.Machine
end

