-- ==== Sys2Proof/Laws/Keeps/Step.lean ====
section
/-! SUPPORT. Every operation of Machine/Step.lean keeps what `Keeps` says. -/

namespace Sys2Proof.Machine

theorem State.tick_keeps {s0 s : State} (h : Keeps s0 s) :
    Keeps s0 (State.tick s) := by
  unfold State.tick
  with_reducible repeat' first
    | assumption | apply State.advance_keeps | apply State.quiet_keeps | apply Keeps.ite | split

end Sys2Proof.Machine
end

