-- ==== Sys2Proof/Laws/Requests.lean ====
section
/-! SUPPORT. What a WRITE that is served does: the object's own write, then its response. -/

namespace Sys2Proof.Machine

theorem natLe_length (n x : Nat) : (natLe n x).length = n := by
  induction n generalizing x with
  | zero => rfl
  | succ n ih => simp [natLe, ih]

theorem leNat_natLe (n x : Nat) : leNat (natLe n x) = x % 2 ^ (8 * n) := by
  induction n generalizing x with
  | zero => simp [natLe, leNat, Nat.mod_one]
  | succ n ih =>
    simp only [natLe, leNat, ih, BitVec.toNat_ofNat]
    rw [Nat.mul_add, Nat.pow_add, Nat.mul_comm (2 ^ (8 * n)), Nat.mod_mul]

theorem hasObject_of_row {index sub : Nat} {row : ObjRow} (h : objRow? index sub = some row) :
    hasObject index = true := by
  unfold objRow? at h
  split at h
  · split at h
    · assumption
    · cases h
  · have m := List.mem_of_find?_eq_some h
    have p := List.find?_some h
    simp only [hasObject, List.any_eq_true]
    simp only [Bool.and_eq_true] at p
    exact ⟨row, m, p.1⟩

/-- A WRITE that is served, of at most 1,024 bytes. -/
theorem State.write_short {s t : State} {q : WReq} {k : Nat} {bs : Bytes} {row : ObjRow} {a : Option Nat}
    (hs : bs.length ≤ 1024)
    (h : s.writeServed q k bs = true) (hk : k < 2 ^ 24) (hr : rowOfKey k = some row)
    (hp : s.putValue row (k / 256) (k % 256) bs = (t, a)) :
    s.write q k bs = a.elim (t.accepted q k bs) (t.turnedAway q k bs) := by
  simp only [State.writeServed, Bool.and_eq_true, Bool.not_eq_true', decide_eq_true_eq, hr, Option.isNone_iff_eq_none,
    sentAs, if_pos hs] at h
  obtain ⟨⟨⟨⟨⟨⟨⟨h1, h2⟩, h3⟩, -⟩, h5⟩, h6⟩, h7⟩, ⟨⟨h8, h9⟩, h10⟩, -⟩ := h
  have i1 : (reqFor q k bs).index.toNat = k / 256 := by
    simp only [reqFor, BitVec.toNat_ofNat]; omega
  have i2 : (reqFor q k bs).sub.toNat = k % 256 := by
    simp only [reqFor, BitVec.toNat_ofNat]; omega
  have i3 : (reqFor q k bs).length.toNat = bs.length := by
    simp only [reqFor, BitVec.toNat_ofNat]; omega
  have i4 : (reqFor q k bs).type.toNat = row.ty.code := by
    simp only [reqFor, hr, BitVec.toNat_ofNat]
    cases row.ty <;> rfl
  have i5 : objRow? (k / 256) (k % 256) = some row := hr
  have i6 : objKey (k / 256) (k % 256) = k := by simp only [objKey]; omega
  have i7 : s.badMessage 2 (reqFor q k bs) = false := by
    simp only [State.badMessage, State.dataFits, i3]
    simp [reqFor]
  have i8 : s.touch 2 (reqFor q k bs) = s := by
    simp only [State.touch]
    split
    · rfl
    · rfl
  have i9 : s.writeValue row (k / 256) (k % 256) row.ty.code bs = (t, a) := by
    simp only [State.writeValue, h9, i6, h10, hp]
  have i10 : s.serveWrite (reqFor q k bs) row = (match a with
      | none => doneReply t (reqFor q k bs) | some c => aborted t (reqFor q k bs) c) := by
    have e1 : (reqFor q k bs).path = q.path := rfl
    have e2 : (reqFor q k bs).data = bs := rfl
    simp only [State.serveWrite, i1, i2, i3, i4, e1, e2, h8, h6, h7, i9]
    simp only [Bool.or_self, Bool.false_eq_true, if_false]
    rw [if_neg (by omega)]
    cases a <;> rfl
  have i11 : (reqFor q k bs).outstanding = q.outstanding := rfl
  have i12 : (reqFor q k bs).path = q.path := rfl
  simp only [State.write, if_pos hs, State.serve, i12, h1, i7, i8, h2, i11, State.handle, i1, i2,
    hasObject_of_row i5, i5, h5, i10]
  rw [if_neg (by decide), if_neg (by decide), if_neg (by omega), if_neg (by decide), if_neg (by decide)]
  cases a <;> simp only [Option.elim, State.accepted, State.turnedAway, sentAs, if_pos hs]

/-- The segments of a value joined are the value. -/
theorem chunks_join (bs : Bytes) (c : Nat) :
    (upto c).flatMap (fun n => (bs.drop (1024 * n)).take 1024) = bs.take (1024 * c) := by
  induction c with
  | zero => simp [upto]
  | succ c ih =>
    simp only [upto] at *
    rw [List.range_succ, List.flatMap_append, ih]
    simp only [List.flatMap_cons, List.flatMap_nil, List.append_nil]
    rw [Nat.mul_succ, List.take_add]

/-- A segment of a list of numbered things. -/
theorem Bank.get_map {α : Type} (f : Nat → α) (d : α) (xs : List Nat) (n : Nat) (h : n ∈ xs) :
    Bank.get (xs.map (fun n => (n, f n))) d n = f n := by
  induction xs with
  | nil => cases h
  | cons x xs ih =>
    simp only [List.map_cons, Bank.get]
    split
    · rename_i e; rw [e]
    · exact ih ((List.mem_cons.mp h).resolve_left (fun e => by simp_all))

/-- The value of a transfer whose segments have all arrived. -/
theorem wholeTransfer_value (s : State) (q : WReq) (k : Nat) (bs : Bytes) :
    (wholeTransfer s q k bs).value = bs := by
  simp only [Transfer.value, wholeTransfer]
  rw [show (upto (ceilDiv bs.length 1024)).flatMap
      (fun n => Bank.get ((upto (ceilDiv bs.length 1024)).map (fun n => (n, (bs.drop (1024 * n)).take 1024))) [] n) =
      (upto (ceilDiv bs.length 1024)).flatMap (fun n => (bs.drop (1024 * n)).take 1024) from ?_]
  · rw [chunks_join]
    refine List.take_of_length_le ?_
    simp only [ceilDiv]
    rw [if_neg (by decide)]
    omega
  · rw [List.flatMap_def, List.flatMap_def]
    congr 1
    refine List.map_congr_left (fun n h => ?_)
    exact Bank.get_map (fun n => (bs.drop (1024 * n)).take 1024) [] _ n h

theorem crcBit_lt {c : Nat} (h : c < 2 ^ 32) : crcBit 0xEDB88320 c < 2 ^ 32 := by
  unfold crcBit
  split
  · exact Nat.xor_lt_two_pow (by omega) (by decide)
  · omega

theorem crcByte_lt {c : Nat} (b : Byte) (h : c < 2 ^ 32) : crcByte 0xEDB88320 c b < 2 ^ 32 := by
  have : ∀ (xs : List Nat) (c : Nat), c < 2 ^ 32 → xs.foldl (fun a _ => crcBit 0xEDB88320 a) c < 2 ^ 32 := by
    intro xs
    induction xs with
    | nil => exact fun c h => h
    | cons x xs ih => exact fun c h => ih _ (crcBit_lt h)
  exact this _ _ (Nat.xor_lt_two_pow h (by omega))

theorem crc32_lt (bs : Bytes) : crc32 bs < 2 ^ 32 := by
  have : ∀ (bs : Bytes) (c : Nat), c < 2 ^ 32 → bs.foldl (crcByte 0xEDB88320) c < 2 ^ 32 := by
    intro bs
    induction bs with
    | nil => exact fun c h => h
    | cons b bs ih => exact fun c h => ih _ (crcByte_lt b h)
  exact Nat.xor_lt_two_pow (this bs _ (by decide)) (by decide)

/-- Nothing is wrong with the end of such a transfer. -/
theorem wholeTransfer_endFault (s : State) (q : WReq) (k : Nat) (bs : Bytes) :
    (wholeTransfer s q k bs).endFault (natLe 4 (crc32 bs)) = none := by
  have h1 : (upto (ceilDiv (wholeTransfer s q k bs).len 1024)).any
      (fun n => !((wholeTransfer s q k bs).segs.any (fun e => e.1 == n))) = false := by
    rw [List.any_eq_false]
    intro n h
    simp only [wholeTransfer] at h ⊢
    simp only [List.any_map, Bool.not_eq_true', Bool.not_eq_false, List.any_eq_true, Function.comp]
    exact ⟨n, h, beq_self_eq_true n⟩
  simp only [Transfer.endFault, h1, wholeTransfer_value, leNat_natLe]
  rw [if_neg (by simp [wholeTransfer]), if_neg]
  exact fun e => e (Nat.mod_eq_of_lt (crc32_lt bs)).symm

/-- A WRITE that is served, of more than 1,024 bytes. -/
theorem State.write_long {s t : State} {q : WReq} {k : Nat} {bs : Bytes} {row : ObjRow} {a : Option Nat}
    (hs : ¬bs.length ≤ 1024)
    (h : s.writeServed q k bs = true) (hk : k < 2 ^ 24) (hr : rowOfKey k = some row)
    (hp : s.putValue row (k / 256) (k % 256) bs = (t, a)) :
    s.write q k bs = a.elim (t.accepted q k bs) (t.turnedAway q k bs) := by
  simp only [State.writeServed, Bool.and_eq_true, Bool.not_eq_true', decide_eq_true_eq, hr, Option.isNone_iff_eq_none,
    sentAs, if_false, Bool.or_eq_true, beq_iff_eq, false_or, hs] at h
  obtain ⟨⟨⟨⟨⟨⟨⟨h1, h2⟩, h3⟩, h4⟩, h5⟩, h6⟩, h7⟩, ⟨⟨h8, h9⟩, h10⟩, h11⟩ := h
  generalize hrq : ({ reqFor q k (natLe 4 (crc32 bs)) with length := 4 } : ObjReq) = r at *
  generalize hw : wholeTransfer s q k bs = w at *
  have j1 : r.path = q.path := by rw [← hrq]; rfl
  have j2 : r.outstanding = q.outstanding := by rw [← hrq]; rfl
  have j3 : r.tag = q.tag := by rw [← hrq]; rfl
  have j4 : r.data = natLe 4 (crc32 bs) := by rw [← hrq]; rfl
  have i1 : r.index.toNat = k / 256 := by
    rw [← hrq]; simp only [reqFor, BitVec.toNat_ofNat]; omega
  have i2 : r.sub.toNat = k % 256 := by
    rw [← hrq]; simp only [reqFor, BitVec.toNat_ofNat]; omega
  have i4 : r.type.toNat = row.ty.code := by
    rw [← hrq]; simp only [reqFor, hr, BitVec.toNat_ofNat]
    cases row.ty <;> rfl
  have i5 : objRow? (k / 256) (k % 256) = some row := hr
  have i6 : objKey (k / 256) (k % 256) = k := by simp only [objKey]; omega
  have w1 : w.tag = q.tag.toNat := by rw [← hw]; rfl
  have w2 : w.index = k / 256 := by rw [← hw]; rfl
  have w3 : w.sub = k % 256 := by rw [← hw]; rfl
  have w4 : w.isWrite = true := by rw [← hw]; rfl
  have w5 : w.lastAt = s.now := by rw [← hw]; rfl
  have w6 : w.value = bs := by rw [← hw]; exact wholeTransfer_value s q k bs
  have w7 : w.endFault r.data = none := by rw [← hw, j4]; exact wholeTransfer_endFault s q k bs
  generalize hs1 : s.setTransfer q.path (some w) = s1 at *
  have p1 : (s1.pathSt r.path).transfer = some w := by rw [← hs1, j1]; cases q.path <;> rfl
  have p2 : (s1.pathSt q.path).kept = (s.pathSt q.path).kept := by rw [← hs1]; cases q.path <;> rfl
  have p3 : s1.answers q.path = s.answers q.path := by rw [← hs1]; cases q.path <;> rfl
  have p4 : s1.now = s.now := by rw [← hs1]; cases q.path <;> rfl
  have p5 : ∀ i u, s1.objDown i u = s.objDown i u := by rw [← hs1]; cases q.path <;> exact fun i u => rfl
  have p6 : ∀ p r i u b, s1.writeDenied p r i u b = s.writeDenied p r i u b := by
    rw [← hs1]; cases q.path <;> exact fun p r i u b => rfl
  have p7 : s1.setTransfer q.path none = s := by
    rw [← hs1]; revert h4; cases q.path <;> (intro h4; simp only [State.setTransfer, State.setPath, State.pathSt] at *; rw [← h4])
  have i7 : s1.badMessage 6 r = false := by
    simp only [State.badMessage, State.dataFits, p1, w1, j3, w4, if_true, j4, natLe_length]
    rw [← hrq]; simp [reqFor]
  have n1 : s1.named r = some w := by
    simp only [State.named, p1, w1, w2, w3, j3, i1, i2, and_self, if_true]
  have i8 : s1.touch 6 r = s1 := by
    simp only [State.touch, n1]
    rw [if_pos (by decide)]
    rw [← hs1, j1, show ({ w with lastAt := (s.setTransfer q.path (some w)).now } : Transfer) = w by
      rw [hs1, p4, ← w5]]
    cases q.path <;> rfl
  have i9 : s1.keptFor 6 r = none := by
    rw [← h2]; simp only [State.keptFor, State.keptAll, p4, j1, p2]
  have i10 : s.writeValue row (k / 256) (k % 256) row.ty.code bs = (t, a) := by
    simp only [State.writeValue, h9, i6, h10, hp]
  have i11 : s1.serveEnd r row = (match a with
      | none => doneReply t r | some c => aborted t r c) := by
    simp only [State.serveEnd, n1, w4, if_true, p5, i1, i2, h5, p6, j1, w6, h8, i4, h11]
    rw [if_neg (by decide)]
    simp only [ne_eq, not_true, if_false]
    simp only [State.finishWrite, w7, j1, p7, i1, i2, w6]
    rw [h11] at i10
    rw [i10]
    cases a <;> rfl
  have c1 : s.conflicts (otherPath q.path) (k / 256) (k % 256) false = false := by
    cases q.path
    · exact h7
    · exact h6
  have x1 : s.write q k bs = s1.serve 6 r := by
    simp only [State.write, if_neg hs, hrq, h1, hw, h4, c1, hs1, h2]
    rw [if_neg (by decide), if_neg (by simp; exact h3), if_neg (by simp)]
  rw [x1]
  simp only [State.serve, j1, p3, h1, i7, i8, i9, j2, State.handle, i1, i2, hasObject_of_row i5, i5, n1, i11]
  rw [if_neg (by decide), if_neg (by decide), if_neg (by omega), if_neg (by decide)]
  simp only [Option.isNone_some, Bool.false_and, Bool.false_eq_true, if_false]
  cases a <;> simp only [Option.elim, State.accepted, State.turnedAway, sentAs, if_neg hs, hrq]

/-- A WRITE that is served does what its object's own rules give, and is answered. -/
theorem State.write_served {s t : State} {q : WReq} {k : Nat} {bs : Bytes} {row : ObjRow} {a : Option Nat}
    (h : s.writeServed q k bs = true) (hk : k < 2 ^ 24) (hr : rowOfKey k = some row)
    (hp : s.putValue row (k / 256) (k % 256) bs = (t, a)) :
    s.write q k bs = a.elim (t.accepted q k bs) (t.turnedAway q k bs) := by
  by_cases hs : bs.length ≤ 1024
  · exact State.write_short hs h hk hr hp
  · exact State.write_long hs h hk hr hp

/-- A served WRITE of a CMD object starts the object's action. -/
theorem State.write_cmd {s : State} {q : WReq} {k : Nat} {bs : Bytes} {row : ObjRow}
    (h : s.writeServed q k bs = true) (hk : k < 2 ^ 24) (hr : rowOfKey k = some row) (h1 : row.acc = .cmd)
    (h2 : row.ty.isBytes = false) :
    s.write q k bs = (s.act (k / 256) (k % 256) (leNat bs)).accepted q k bs := by
  refine State.write_served h hk hr (a := none) ?_
  simp only [State.putValue, h1, h2, Bool.false_eq_true, if_false, if_true]

/-- A served WRITE of another number. -/
theorem State.write_num {s t : State} {q : WReq} {k : Nat} {bs : Bytes} {row : ObjRow}
    (h : s.writeServed q k bs = true) (hk : k < 2 ^ 24) (hr : rowOfKey k = some row) (h1 : row.acc ≠ .cmd)
    (h2 : row.ty.isBytes = false) (hp : s.putNat (k / 256) (k % 256) (leNat bs) = (t, none)) :
    s.write q k bs = t.accepted q k bs := by
  refine State.write_served h hk hr (a := none) ?_
  simp only [State.putValue, h1, h2, Bool.false_eq_true, if_false, hp]

/-- A served WRITE of a BLOB of at most 1,024 bytes. -/
theorem State.write_blob {s t : State} {q : WReq} {k : Nat} {bs : Bytes} {row : ObjRow} {a : Option Nat}
    (h : s.writeServed q k bs = true) (hk : k < 2 ^ 24) (hr : rowOfKey k = some row) (h2 : row.ty.isBytes = true)
    (hp : s.putBytes k bs = (t, a)) :
    s.write q k bs = a.elim (t.accepted q k bs) (t.turnedAway q k bs) := by
  refine State.write_served h hk hr ?_
  have i6 : objKey (k / 256) (k % 256) = k := by simp only [objKey]; omega
  simp only [State.putValue, h2, if_true, i6, hp]

/-- A WRITE of an object with a row of its own does what the object's own rules give. -/
theorem Does.intro {c : Instr} {s t : State} {q : WReq} {k : Nat} {bs : Bytes} {P : State → Prop} {row : ObjRow}
    (he : exec c s = .next (s.quiet.write q k bs)) (hk : k < 2 ^ 24) (hr : rowOfKey k = some row)
    (hp : s.quiet.putValue row (k / 256) (k % 256) bs = (t, none)) (h : P t) : Does c s q k bs P :=
  fun hw => ⟨t, by rw [he, State.write_served hw hk hr hp]; rfl, h⟩

/-- The same for a CMD object. -/
theorem Does.cmd {c : Instr} {s : State} {q : WReq} {k : Nat} {bs : Bytes} {P : State → Prop} {row : ObjRow}
    (he : exec c s = .next (s.quiet.write q k bs)) (hk : k < 2 ^ 24) (hr : rowOfKey k = some row)
    (h1 : row.acc = .cmd) (h2 : row.ty.isBytes = false)
    (h : P (s.quiet.act (k / 256) (k % 256) (leNat bs))) : Does c s q k bs P :=
  fun hw => ⟨_, by rw [he, State.write_cmd hw hk hr h1 h2], h⟩

/-- A request that is taken up is handled and answered. -/
theorem State.serve_taken {s : State} {op : Nat} {r : ObjReq} (h : s.taken op r = true) :
    s.serve op r = ((s.touch op r).handle op r).send op r := by
  simp only [State.taken, Bool.and_eq_true, Bool.not_eq_true', decide_eq_true_eq, Option.isNone_iff_eq_none] at h
  obtain ⟨⟨⟨h1, h2⟩, h3⟩, h4⟩ := h
  simp only [State.serve, h1, h2, h3]
  rw [if_neg (by decide), if_neg (by decide), if_neg (by omega)]

end Sys2Proof.Machine
end

