-- ==== Sys2Proof/WellFormed.lean ====
section
/-! DEFINITION. Well-formed commands: operands of the sizes that the manual gives them, and each object request
under the row of its own opcode and object. -/

namespace Sys2Proof

/-- The objects whose writes have rows of their own, as index × 256 + sub-index (the operation table). -/
def ownRows : List Nat :=
  [0x101901, 0x101001, 0x102001, 0x200102, 0x200103, 0x201001, 0x201004, 0x208001, 0x208002, 0x202001, 0x202002,
   0x202003, 0x202201, 0x202202, 0x300901, 0x300902, 0x520004, 0x520007, 0x554003, 0x400101, 0x702006, 0x710001,
   0x710004, 0x711005, 0x712002, 0x721004, 0x722001, 0x723005, 0x110003, 0x110005, 0x111001, 0x111003, 0x604001,
   0x604003, 0x800002, 0x803001, 0x803002]

/-- Whether writes of an object have a row of their own: those of `ownRows`, SELECT of the six laser inputs and
ACCEPT of the 24 ports. -/
def ownRow (index sub : Nat) : Bool :=
  ownRows.contains (index * 256 + sub) || (sub == 0x0B && decide (0x5010 ≤ index) && decide (index < 0x5016)) ||
  (sub == 0x06 && decide (0x5410 ≤ index) && decide (index < 0x5428))

/-- An OBJECT message has at most 1,024 data bytes. -/
def ObjReq.wf (r : ObjReq) : Bool := decide (r.data.length ≤ 1024)

/-- A packet has at most 4,096 bytes of payload (Table 14-1). -/
def Packet.wf (p : Packet) : Bool := decide (p.payload.length ≤ 4096)

/-- A token of LC_REQUEST with the row's TARGET (R449). -/
def tokenFor (target : Byte) (token : Bytes) : Bool := token.length == 120 && token[4]? == some target

/-- Well-formed commands. -/
def Instr.wf : Instr → Bool
  | .readObject r => r.wf
  | .writeObject r => r.wf && !ownRow r.index.toNat r.sub.toNat
  | .segWriteInit r => r.wf
  | .segReadInit r => r.wf
  | .segDataWrite r => r.wf && !r.data.isEmpty
  | .segDataRead r => r.data.isEmpty
  | .segEndWrite r => r.data.length == 4
  | .segEndRead r => r.data.isEmpty
  | .abortTransfer r => r.wf
  | .beatChangeAt _ isAt v => isAt || decide (v.toNat < 65536)
  | .planBlob _ value => decide (value.length ≤ 16777216)
  | .packLoad _ value => decide (value.length ≤ 4194304)
  | .fwStage _ value => decide (value.length ≤ 16777216)
  | .lcRequestDiag _ token => tokenFor 3 token
  | .lcRequestDeployed _ token => tokenFor 2 token
  | .lcRequestRetire _ token => tokenFor 4 token
  | .mctpPacket packet => decide (packet.length ≤ 69)
  | .beatBoundary env => env.ctlLaunch.length == 24
  | .timeExchange _ x => decide (20 ≤ x.beatUs.toNat) && decide (x.beatUs.toNat ≤ 1000)
  | .evidenceCaptured e => decide (e.payload.length ≤ 262144)
  | .writeTransaction p _ => p.wf
  | .readTransaction p _ => p.wf
  | .readData p => p.wf
  | .tallyAdd p => p.wf
  | .maxidx p => p.wf
  | .minidx p => p.wf
  | .message p => p.wf
  | .doorbell p => p.wf
  | .ack p => p.wf
  | .mailboxGo _ regs _ _ => regs.length == 16
  | .laneReport _ r => r.oma.length == 8
  | .txMonitorSample _ oma _ => oma.length == 8
  | .toneWindow _ tones _ _ => decide (tones.length ≤ 16)
  | .thermalSample a b c => a.length == 24 && b.length == 24 && c.length == 8
  | .segIdleTimeout _ => true | .keptResponseExpiry _ => true | .featuresAccepted _ _ => true
  | .placeNumber _ _ => true | .writePaths _ _ => true | .timeRole _ _ => true | .rootSet _ _ _ => true
  | .coolantStatement _ _ _ => true | .admitPlan _ _ => true | .admissionResult => true | .releasePlan _ _ => true
  | .jobStart _ _ => true | .jobStop _ _ => true | .disable _ _ _ => true | .prepare _ _ => true
  | .xrClear _ _ => true | .selectSource _ _ _ => true | .accept _ _ _ => true | .rtTelemetryClear _ _ => true
  | .memVerified _ _ => true | .evidenceReset _ _ => true | .packRemove _ _ => true | .stRun _ _ => true
  | .steStart _ _ => true | .digestRegion _ _ => true | .regionDigestDone => true | .reinitCompute _ => true
  | .reinitFabric _ => true | .reinitOptics _ => true | .reinitUpdate _ => true | .functionReinit => true
  | .ledgerClearRing _ => true | .ledgerClearFlash _ => true | .lcAdvanceProvision _ => true
  | .lcAdvanceDeploy _ => true | .fwActivate _ _ => true | .fwImageCopied => true | .bridgeRole _ _ => true
  | .bridgePlace _ _ => true | .powerRequestRun _ => true | .powerRequestDoze _ => true | .powerRequestKeep _ => true
  | .warmReset _ _ => true | .shutdown _ _ => true | .setEndpointId _ => true | .getEndpointId => true
  | .getMctpVersionSupport => true | .getMessageTypeSupport => true | .getVersion => true | .getCapabilities => true
  | .negotiateAlgorithms _ _ => true | .getDigests => true | .getCertificate _ _ => true | .challenge _ => true
  | .getMeasurements _ _ => true | .guardClose => true | .timeSend => true | .bellHoldover => true
  | .holdoverLimit => true | .wakeStart => true | .ccIssue _ => true | .ccQtake _ => true | .ccSumrd _ => true
  | .ccSumwait _ => true | .ccSumclr _ => true | .ccBeat _ => true | .ccWaitBoundary _ => true | .ccWaitIdle _ => true
  | .ccNote _ => true | .coreResume _ _ => true | .coreInstruction _ => true | .fill _ _ _ => true | .vload _ _ => true
  | .sliceStart _ _ => true | .sliceEnd _ _ => true | .drainStart _ _ _ => true | .drainEnd _ _ _ => true
  | .programStart _ _ => true | .programEnd _ _ => true | .summaryMerge _ _ => true | .verdictArrival _ => true
  | .granaryContribution _ _ => true | .chunkOutputDone _ _ => true | .updateChunk _ _ => true
  | .shardPhaseDone _ => true | .doorbellApply _ => true | .ackTimer _ => true | .rtoExpiry _ _ => true
  | .mailboxClear _ => true | .mailboxTimeout _ => true | .packetRoute => true | .escapeTimeout => true
  | .groupSend _ _ => true | .groupReceive _ => true | .nakFrame _ _ _ => true | .nakRepeat _ _ => true
  | .replayFrame _ _ _ _ => true | .returnFrame _ _ _ _ => true | .cleanSend => true | .cleanFrame _ _ _ => true
  | .controlAck _ _ => true | .laneCResend _ => true | .mgmtFlit _ _ _ => true | .helloSend _ => true
  | .helloFrame _ _ => true | .helloTimeout _ => true | .trainingFrame _ => true | .laneCLock _ => true
  | .laneCLoss _ => true | .linkDown _ => true | .resettingTimeout _ => true | .laneSignalLoss _ _ => true
  | .ringSweepStep _ _ _ _ => true | .ringLockSettled _ => true | .ringLightLoss _ => true
  | .ringLightReturn _ => true | .monitorLineDrop _ _ => true | .controlLaserDrop _ => true
  | .lscRequestTimeout => true | .patrolScrub _ _ => true | .pageCopyDone _ => true | .zeroingDone => true
  | .patternCaseDone _ => true | .selfTestDone _ => true | .snapshotDone => true | .ledgerInterval => true
  | .pwrEnRise => true | .powerUpDone => true | .pwrEnFall => true | .aux3v3Loss => true
  | .inputVoltageChange _ => true | .resetN _ => true | .watchdogExpiry => true | .bootRomVerify => true
  | .warmResetDone => true | .currentLimit _ _ => true | .securityCheck _ => true | .debugAccess => true
  | .returnSend _ _ => true | .controlAckSend _ => true | .laneSignalLock _ _ => true | .ringDrift _ => true
  | .lscResponse _ => true | .wakeItem _ => true | .gateItem _ => true | .domainWakeDone _ => true
  | .aux3v3Rise => true | .aux3v3Settled => true | .resetNRise => true | .dynamicAddressAssignment _ => true
  | .securityCoreAccess => true | .steProgramDone _ => true

end Sys2Proof
end

