-- ==== Sys2Proof/Tests/Slice0.lean ====
section
/-! SUPPORT. Tests: states and operands that meet the hypotheses of every statement, the checks of well-formed
commands with a term that each refuses, and the manual's worked values. -/

open Sys2Proof Sys2Proof.Machine

namespace Sys2Proof.Tests

set_option Elab.async false

/-- Every domain ON. -/
def domsOn : Bank Nat := (upto 50).map (fun d => (oDomainState d, 2))

/-- A module in RUN with every domain on, its image running and the mandatory feature agreed, and the objects `xs`. -/
def on (xs : Bank Nat) : State :=
  { State.reset with
    od := xs ++ [(oFeaturesAgreed, 1), (oPowerState, 1)] ++ domsOn
    power := { PowerSt.init with
      pwrEn := true, resetN := true, aux := true, auxSettled := true, mv48 := 48000, boot := .image,
      flash := ⟨7, 1, 99, true⟩ } }

/-- A write request of the in-band path. -/
def q : WReq := ⟨.inBand, 0, 5⟩

/-- An OBJECT request with its data. -/
def req (index : W16) (sub type : Byte) (length : W32) (data : Bytes) : ObjReq :=
  ⟨.inBand, 0, 0, 0, 5, index, sub, type, length, 0, 0, data⟩

/-- The row of an object. -/
def rowAt (index sub : Nat) : ObjRow := (objRow? index sub).getD ⟨0, 0, 0, 0, .u8, .ro, .num 0, .v, [], 0⟩

/-- An open segmented write of PLAN_BLOB of one segment. -/
def writing (segs : Bank Bytes) : Transfer := ⟨5, 0x2020, 1, true, 4, segs, [], 0⟩

/-- An open segmented read of PLAN_BLOB. -/
def reading : Transfer := ⟨5, 0x2020, 1, false, 4, [], [1, 2, 3, 4], 0⟩

/-- The path of a transfer. -/
def withTransfer (t : Transfer) : State := { on [] with inBand := ⟨[], some t, none⟩ }

/-- A kept response to a READ of PLACE_NUMBER. -/
def kept : Kept := ⟨5, 1, 0, false, 0x1010, 1, 17, 0, 0, 0, 0, [], ⟨1, 5, 0x1010, 1, 17, 2, 0, [0, 0]⟩, 0⟩

/-- An orderly token of the fleet signer is never needed here: a token's first fields. -/
def token (target : Nat) : Bytes := natLe 4 0x4C435431 ++ natLe 1 target ++ zeros 115

/-- A plan of no section. -/
def plan0 : Plan := parsePlan []

/-- The module with a plan admitted, running step 4 at position 1 when `run` says so. -/
def admittedWith (p : Plan) (run : Bool) (xs : Bank Nat) : State :=
  { on (xs ++ [(oPlanState, if run then 4 else 3)]) with
    plan := some p
    step := { StepSt.init with running := run, started := run } }

/-- A directory entry. -/
def dirEntry (ty off len count : Nat) : Bytes := natLe 2 ty ++ zeros 2 ++ natLe 4 off ++ natLe 4 len ++ natLe 4 count

/-- A plan of one module, place 3, of 8 beats of one empty program, with region 7 of kind 5 of 4 KiB at 0. -/
def blob : Bytes :=
  natLe 4 0x0960504C ++ natLe 2 1 ++ natLe 2 7 ++ natLe 4 320 ++ zeros 4 ++ natLe 8 77 ++ natLe 2 100 ++ zeros 6 ++
  natLe 16 1 ++ zeros 16 ++
  dirEntry 1 176 24 1 ++ dirEntry 4 200 32 1 ++ dirEntry 5 232 8 1 ++ dirEntry 6 240 16 8 ++ dirEntry 7 256 32 1 ++
  dirEntry 10 288 16 1 ++ dirEntry 11 304 16 1 ++
  (natLe 2 1 ++ zeros 6 ++ natLe 2 3 ++ zeros 6 ++ natLe 8 0xABCD) ++
  (natLe 4 8 ++ natLe 4 2 ++ natLe 4 3 ++ zeros 20) ++
  (zeros 2 ++ natLe 2 100 ++ zeros 4) ++
  zeros 16 ++
  (natLe 2 7 ++ natLe 1 5 ++ zeros 5 ++ natLe 8 0 ++ natLe 8 4096 ++ zeros 8) ++
  List.replicate 16 1 ++
  (natLe 2 3 ++ natLe 2 1 ++ natLe 4 0 ++ natLe 2 3 ++ natLe 1 0xFF ++ zeros 5)

/-- A module that may admit it. -/
def ready : State :=
  { on [(oPlanState, 1), (oLcState, 2), (oBellState, 4), (oPlaceStated, 1), (oPlaceNumber, 3), (oCoolantStated, 1),
      (oCoolantFlowLpm, 0x42C80000), (oCoolantInletC, 0x41A00000), (oPowerAllowedW, 0x453B8000),
      (oSerialDigest, 0xABCD), (oFeaturesAgreed, 3)] with
    blobs := [(oPlanBlob, blob)] }

/-- The fleet key under which `token3` verifies. -/
def fleetKey : Bytes :=
  natLe 1 4 ++ natBe 48 0xa7b34a538ef09500473475772645f749e19fa8b625f68a0d4100cbe61b7a91716251f5f39650bf48862a033c100f644e ++
  natBe 48 0x258f6ebad84616588fce7cd3dca7e7a1d0f525d86fc07230e4224c87a9dc11706421282d6645848b1e65dcbd22a1595b

/-- A token of TARGET 3 by the fleet's signer, for the serial digest 1 and the nonce 0x55. -/
def token3 : Bytes :=
  natLe 4 0x4C435431 ++ [3, 1, 0, 0] ++ natLe 8 1 ++ natLe 8 0x55 ++
  natBe 48 0xa2c4f933ae482e00c043432b96cac79e1f287f17d4c9629b5f646487d8735d10f76c53f6d619eb5ab6a4c607cd89c4e0 ++
  natBe 48 0xa2c4f933ae482e00c043432b96cac79e1f287f17d4c9629b5f646487d8735d10f76c53f6d619eb5ab6a4c607cd89c4e0

/-- The fleet key under which `pack2` verifies. -/
def packKey : Bytes :=
  natLe 1 4 ++ natBe 48 0x8087da68de847bcd09e0198e8a7902ff56dc058571536e594635ca756acd4876f071db6743bc54eef56f2eca5b61c639 ++
  natBe 48 0x641766d1e5a2598e2c11dccdc70e4404cf22479e75eb7f15c4936ba3f946c08b488babfe5c56420ef9bf4c078f481412

/-- A pack of one case, PACK_ID 9, PACK_SERIAL 2. -/
def pack2 : Bytes :=
  natLe 4 0x50414331 ++ natLe 4 9 ++ natLe 4 2 ++ [1, 1] ++ natLe 2 1 ++ natLe 4 128 ++ zeros 44 ++ zeros 64 ++
  natBe 48 0xba32446fd46d6e8bdb1cdc54fcc40a7f9a6181dc7aa1a8eb43a1abd704ad882315f850c6dd7a9c9e5f36bf7054664fed ++
  natBe 48 0xba32446fd46d6e8bdb1cdc54fcc40a7f9a6181dc7aa1a8eb43a1abd704ad882315f850c6dd7a9c9e5f36bf7054664fed

/-- A token of TARGET 4 by the vendor's signer, for the serial digest 1 and the nonce 0x55. -/
def token4 : Bytes :=
  natLe 4 0x4C435431 ++ [4, 0, 0, 0] ++ natLe 8 1 ++ natLe 8 0x55 ++
  natBe 48 0x9e4b55d9c4c2370a07e42f8e0e7440300a6e49e7fad146bf39c192d4430088c2ab25788940ae516528d19849ab62bd1d ++
  natBe 48 0x9e4b55d9c4c2370a07e42f8e0e7440300a6e49e7fad146bf39c192d4430088c2ab25788940ae516528d19849ab62bd1d

/-- The vendor's key under which `token4` verifies. -/
def vendor4 : Nat × Nat :=
  (0x57686be610780b1fc11b134cd91252c7cad5cdb77ff83f057f2268b32b2186c2e16bbcd24da8e7ffeca77999e066336b,
   0x95b9c3aca509287b8a58bd7b58fc8fd505a470596e07ce6c8156503ec29e77429772f7abcc7f06704d9feb80654a2933)

/-- An image of no code, of version 8 and SVN 2. -/
def image : Bytes :=
  natLe 4 0x46574931 ++ natLe 4 8 ++ [2, 0, 0, 0] ++ natLe 4 0 ++ zeros 48 ++
  natBe 48 0x6703f1a2d7703abc4ba494b4d67cc7d03d3c12e68e47cc5d2dbf078f9806cb3a28eb877d52de6da046c1ab7dd13659a1 ++
  natBe 48 0x6703f1a2d7703abc4ba494b4d67cc7d03d3c12e68e47cc5d2dbf078f9806cb3a28eb877d52de6da046c1ab7dd13659a1

/-- The vendor's key under which `image` verifies. -/
def vendorImage : Nat × Nat :=
  (0x129218d08502b16735ea637b899790592d98701318f84d6673bd6e2b2d34f15e884c970b521797af35c15e6c718f6d3a,
   0x3de728aaebe5165ff0227768383a320c2b0a5a9a8ae9a7806f4bca9b6ea880812c3958913e93f1b35408d70d5e1a43f4)

/-- The state `s` of a module with the vendor's key `k`. -/
def withVendor (k : Nat × Nat) (s : State) : State :=
  { s with power := { s.power with vendorKey := k } }

/-- A core in state `st` whose x1 and x2 are `a` and `b`. -/
def coreWith (st a b : Nat) (c : CoreSt) : State :=
  { on [(oCoreState 0, st)] with cores := [(0, { c with xregs := [(1, a), (2, b)] })] }

/-- An access by core 0 of die 0 with rd 3, rs1 1 and rs2 2. -/
def acc : CoreReq := ⟨0, 0, 3, 1, 2, 0, true⟩

/-- A FILL of one panel of 16 columns of a 64 by 16 array in format 1 into line 0. -/
def fillDesc : Bytes :=
  natLe 4 0x11 ++ zeros 4 ++ natLe 8 0x1000 ++ natLe 4 64 ++ natLe 4 16 ++ natLe 2 0 ++ natLe 2 1 ++ zeros 12 ++
  natLe 1 64 ++ natLe 1 0x11 ++ zeros 22

/-- A MATRIX descriptor of one block of formats 1 and 1 from lines 0 and 64 into tile 0, drained by `drain`. -/
def matDesc (drain : Nat) : Bytes :=
  natLe 4 1 ++ zeros 4 ++ natLe 4 16 ++ natLe 4 0 ++ natLe 2 0 ++ natLe 2 1 ++ natLe 2 64 ++ natLe 2 1 ++
  natLe 2 0x11 ++ natLe 2 (drain * 64) ++ natLe 2 0 ++ natLe 1 64 ++ natLe 1 64 ++ zeros 32

/-- A VLOAD of an 8 by 8 array of FP32 into plane 0. -/
def vloadDesc : Bytes :=
  natLe 4 0x12 ++ zeros 4 ++ natLe 8 0x1000 ++ natLe 4 64 ++ natLe 1 0 ++ natLe 1 0 ++ natLe 1 8 ++ natLe 1 8 ++ zeros 40

/-- A VECTOR descriptor of program 0 over plane 0 that stores nothing. -/
def vecDesc : Bytes :=
  natLe 4 2 ++ zeros 4 ++ natLe 1 0 ++ natLe 1 2 ++ natLe 2 0 ++ natLe 1 8 ++ natLe 1 8 ++ zeros 50

/-- A program of one instruction, a move. -/
def prog : Bytes := natLe 4 1 ++ zeros 32 ++ natLe 4 0 ++ zeros 152

/-- A descriptor waiting in a FIFO. -/
def queued (d : Bytes) : Queued := ⟨d, false, 0, 0, 0, 32⟩

/-- Engine pair 0 in a state of its own. -/
def engineWith (e : EngineSt) (xs : Bank Nat) : State := { on xs with engines := [(0, e)] }

/-- A plan whose one beat program covers a MATRIX descriptor of engine 0 and a FILL or VLOAD of its cluster. -/
def planItems : Plan :=
  { plan0 with
    timing := ⟨8, 2, 3, 0, 0⟩, stepList := [0], programs := [⟨100, 0, [⟨7, 4, 0, 0, 100000, 0, 0⟩]⟩],
    queues := [⟨0, 5, 0, 0, 7, 0, 4, 0⟩, ⟨0, 6, 3, 0, 7, 256, 4, 0⟩],
    regions := [⟨7, 7, 0x1000, 4096⟩] }

/-- A running core 0 of a plan with `d` at the start of its data memory. -/
def coreOn (p : Plan) (a b : Nat) (d : Bytes) : State :=
  { admittedWith p true [(oCoreState 0, 1)] with
    cores := [(0, { CoreSt.init with xregs := [(1, a), (2, b)], dmem := memWrite [] 0x10000 d })] }

/-- A plan whose one beat allows pattern cases. -/
def planIdle : Plan :=
  { plan0 with timing := ⟨8, 2, 3, 0, 1⟩, stepList := [0], programs := [⟨100, 1, []⟩] }

/-- An owned window of `n` elements that takes one contribution each, its chunks going where `out` says. -/
def win9 (out n : Nat) : Window :=
  { num := 9, owner := 0, mode := 0, out := out, anchor := 0, die := 0, mask := 1, group := 0, cq := 0xFFFF,
    elements := n, base := 0, count := 1, maxPerChunk := 0, tensor := 0, outTensor := 0, openBeat := 0, dueBeat := 1,
    rowElements := 1, maxTouched := 0, bitmapBase := 0, outAddr := 0, spillAddr := 0, touchedAddr := 0, counts := [],
    raw := [] }

/-- The plan of `planItems` with region 1 of kind 1, and `win9`. -/
def planF : Plan :=
  { planItems with regions := [⟨1, 1, 0, 4096⟩, ⟨7, 7, 0x8000, 4096⟩], windows := [win9 0 1] }

/-- An open flow from place 1. -/
def flowOpen : FlowSt := { FlowSt.init with state := 1, peer := 1, window := 64 }

/-- A whole message of one packet of flow 4 from place 1. -/
def pkt (cls : Byte) (fields : BitVec 192) (payload : Bytes) : Packet :=
  ⟨1, cls, 0, 0, 1, 4, BitVec.ofNat 16 payload.length, 0, 0, 0, 1, 0xFFFFFFFF, 0, 0, fields,
    BitVec.ofNat 64 (crc64 payload), payload⟩

/-- A plan in force with the flow 4. -/
def flowing (f : FlowSt) : State := { admittedWith planF false [(oMemState, 1)] with flows := [(4, f)] }

/-- A mailbox with eight registers given and GO set. -/
def fullBox : MailboxSt := ⟨List.replicate 16 0, true, 8, 7, false, 0⟩

/-- A contribution of 1.0 to element 0 of a window. -/
def one (window : Nat) : Contribution := ⟨window, 0, 0, 1, 0, 0, 0x3F800000, 0, [], 0, 0, 0⟩

/-- A group of one coefficient set, ending after one iteration. -/
def grp (shape : Nat) : Group :=
  { num := 2, shape := shape, flags := 0, wTensor := 0, t0 := 0, origin := 0,
    coef := List.replicate 12 0 ++ [0x3F800000], schedKind := 0, matFormat := 1, points := 0, pointFirst := 0,
    etaStart := 0, etaPeak := 0, etaMin := 0, warmup := 0, decay := 0, cycleMult := 0, matPasses := 1 }

/-- The shard of `win9`. -/
def shard9 : Shard :=
  { window := 9, group := 2, unit := 0, flags := 0, copyFormat := 0, copyRound := 0, firstElement := 0,
    paramRegion := 1, optRegion := 2, wOff := 0, mOff := 0, vOff := 0, rowOff := 0, copyOff := 0, gatherFirst := 0,
    gatherN := 0, matRows := 1, matCols := 1, borrow := 1, scratch := 0x20000 }

/-- A plan with that shard, of `n` elements. -/
def planS (shape n : Nat) : Plan :=
  { plan0 with
    timing := ⟨8, 2, 3, 0, 0⟩, stepList := [0], programs := [⟨100, 0, []⟩], regions := [⟨1, 1, 0, 4096⟩, ⟨2, 2, 0x8000, 4096⟩],
    windows := [win9 1 n], groups := [grp shape], shards := [shard9] }

/-- Its step running, with the shard in a state of its own. -/
def shaping (shape n : Nat) (x : ShardSt) (ds : List Delivered) : State :=
  { admittedWith (planS shape n) true [] with shards := [(9, x)], delivered := ds }

/-- The served shard. -/
def job9 (shape n : Nat) : Job := ⟨shard9, grp shape, win9 1 n⟩

/-- Port 0 as a host port in MATCH, with its link. -/
def linked (x : PortSt) (xs : Bank Nat) : State :=
  { on (xs ++ [(oHostPorts, 1), (oCtrlRxPresent 0, 1), (oLinkClass 0, 2), (oLinkState 0, 4), (oPeerPlace 0, 9),
      (oPeerPort 0, 1)]) with
    ports := [(0, x)] }

/-- A link whose lanes are all in use. -/
def lanes : PortSt := { PortSt.init with useTx := 0xFF, useRx := 0xFF, peerMatch := true }

/-- A plan of two modules, joined by the fibre from this module's port 3 to port 2 of place 1. -/
def planE : Plan :=
  { plan0 with
    fibres := [⟨0, 3, 1, 2⟩], circuits := [⟨0, 0, 0, 0, 3, 2, 1, 0, 0, 0, 0, 0, 0, 100⟩], hasEscape := true,
    places := [⟨0, 1⟩, ⟨1, 2⟩], escape := ⟨0, 2, 1, [⟨0, 0xFF⟩, ⟨1, 2⟩]⟩ }

/-- A packet at the router's local input. -/
def routed (data : Bytes) : Routed := ⟨none, 0, data, 100, false, 0, false⟩

/-- A step in its last beats with `x` as its state. -/
def ending (x : StepSt) (xs : Bank Nat) : State :=
  { on (xs ++ [(oPlanState, 4), (oStepBeatNow, 1)]) with
    plan := some { plan0 with timing := ⟨8, 0, 3, 0, 0⟩, clean := ⟨0, 1, 0, []⟩ },
    step := { x with running := true, started := true } }

/-- An empty group that arrives on port 0. -/
def groupIn : GroupIn := ⟨0, 0, 0xFF, true, 0, false, 0xFF, none, [], [], []⟩

/-- A plan whose program wakes and gates domain 10. -/
def planW : Plan :=
  { plan0 with timing := ⟨8, 2, 3, 0, 0⟩, stepList := [0], programs := [⟨100, 0, [⟨9, 0, 0, 10, 50, 0, 0⟩, ⟨10, 0, 0, 10, 50, 0, 0⟩]⟩] }

/-- A module whose power, boot and supplies are `w`. -/
def powered (w : PowerSt) (xs : Bank Nat) : State := { on xs with power := w }

/-- The power of a module in RUN. -/
def up : PowerSt := (on []).power

/-- A ring in a state of its own, transmit ring 0 of port 0. -/
def ringIn (m : Micro) (xs : Bank Nat) : State := { on xs with micro := [(0, m)] }

/-- An admission under way. -/
def adm : Admitting := ⟨0, none, none, false⟩

/-- A follower of the parent port 0 in a state of the bell count. -/
def follower (st : Nat) (b : Bell) : State :=
  { on [(oTimeRole, 2), (oTimeParentPort, 0), (oBellState, st), (oLinkClass 0, 2)] with bell := b }

/-- An exchange of offset `x` ps. -/
def exchange (x : Nat) : TimingExchange := ⟨0, BitVec.ofNat 64 (1000 + 2 * x), 2000, 3000, 1, 100⟩

/-- An input whose line 0 feeds lane 0 of port 0, with a launched power and a verified standby. -/
def feeding (tx : Nat) (xs : Bank Nat) : State :=
  { on (xs ++ [(oStatedPresent 0, 0x101), (oStatedD0Mhz 0, 5), (oStatedTwinD0Mhz 0, 5)]) with
    micro := [(0, { Micro.init with state := 4 }), (384, { Micro.init with state := 4 }), (392, { Micro.init with state := 4 })],
    blobs := [(oTxPower 0, natLe 2 tx ++ zeros 14)] }

/-! ### Cases for the hypotheses of the statements -/

/-- A case of OpticsWrites. -/
def case1 := { on [(oLinkClass 3, 4)] with blobs := [(oHelloSeen 3, [1, 9, 5, 0, 1, 0, 0, 0, 7, 0, 0, 0, 0, 0, 0, 0] ++ zeros 16)], ports := [(3, { PortSt.init with seen := true })] }
/-- A case of MemoryAndTestWrites. -/
def case2 := { on [] with blobs := [(oFleetKey, packKey)] }
/-- A case of MemoryAndTestWrites. -/
def case3 := { on [] with packs := [⟨9, 1, 1, 0, 1, 100, []⟩] }
/-- A case of MemoryAndTestWrites. -/
def case4 : Region := ⟨7, 5, 0, 4096⟩
/-- A case of Reinitialisation. -/
def case5 : Reinit := ⟨4, 0⟩
/-- A case of Reinitialisation. -/
def case6 := { on [] with power := { (on []).power with reinit := some ⟨4, 0⟩ } }
/-- A case of LifeCycle. -/
def case7 : WReq := ⟨.outOfBand, 0, 5⟩
/-- A case of LifeCycle. -/
def case8 := { on [(oLcState, 1)] with blobs := [(oIdCertChain, [1])] }
/-- A case of LifeCycle. -/
def case9 := { on [(oLcState, 2), (oSerialDigest, 1), (oLcNonce, 0x55), (oLcDiagSigners, 3)] with blobs := [(oFleetKey, fleetKey)] }
/-- A case of FirmwareCommands. -/
def case10 := { on [] with power := { (on []).power with staged := some ⟨8, 2, 98, true⟩ } }
/-- A case of FirmwareCommands. -/
def case11 := { on [(oFwSvnFuse, 1)] with power := { (on []).power with boot := .verifying } }
/-- A case of FirmwareCommands. -/
def case12 := { on [(oFwSvnFuse, 2)] with power := { (on []).power with boot := .verifying } }
/-- A case of CoreAccesses. -/
def case13 := { coreWith 1 0x10000 0 { CoreSt.init with dmem := memWrite [] 0x10000 vloadDesc } with engines := [(0, { EngineSt.init with vloads := List.replicate 4 (queued vloadDesc) })] }
/-- A case of CoreAccesses. -/
def case14 := { coreWith 1 0 1 CoreSt.init with engines := [(0, { EngineSt.init with fills := [queued fillDesc] })] }
/-- A case of CoreAccesses. -/
def case15 : Retire := ⟨0, 0, 4, true, none, 3, 77, none, none, none, none⟩
/-- A case of IssueEntersFifo. -/
def case16 : Item × Nat := (⟨7, 4, 0, 0, 100000, 0, 0⟩, 0)
/-- A case of CoreQueuesAndNotes. -/
def case17 : QueueEntry := ⟨0, 5, 0, 0, 7, 0, 4, 0⟩
/-- A case of CoreQueuesAndNotes. -/
def case18 := { coreOn planItems 5 0x10000 [] with rings := [(5, ⟨1, 0, false⟩)] }
/-- A case of CoreQueuesAndNotes. -/
def case19 := coreWith 1 7 8 { CoreSt.init with noted := true }
/-- A case of CoreTraps. -/
def case20 : CoreReq := ⟨0, 0, 3, 1, 2, 1, true⟩
/-- A case of CoreTraps. -/
def case21 := coreWith 1 0 0 { CoreSt.init with pc := 0x10000 }
/-- A case of CoreTraps. -/
def case22 : Instr := .ccBeat ⟨0, 0, 3, 1, 2, 1, true⟩
/-- A case of FillsAndSlices. -/
def case23 := engineWith { EngineSt.init with slices := [queued (matDesc 0)], valid := [0, 1] } []
/-- A case of FillsAndSlices. -/
def case24 := { queued fillDesc with void := true }
/-- A case of FillsAndSlices. -/
def case25 := engineWith { EngineSt.init with fills := [{ queued fillDesc with void := true }] } []
/-- A case of FillsAndSlices. -/
def case26 := { admittedWith plan0 true [] with engines := [(0, { EngineSt.init with fills := [queued (zeros 64)] })] }
/-- A case of FillsAndSlices. -/
def case27 := engineWith { EngineSt.init with fills := [queued fillDesc] } []
/-- A case of DrainCommands. -/
def case28 := engineWith { EngineSt.init with t0 := { TileSt.init with phase := 2, desc := matDesc 1 } } []
/-- A case of DrainCommands. -/
def case29 := engineWith { EngineSt.init with t0 := { TileSt.init with phase := 3, desc := matDesc 1 } } []
/-- A case of VloadsAndPrograms. -/
def case30 := { queued vloadDesc with void := true }
/-- A case of VloadsAndPrograms. -/
def case31 := engineWith { EngineSt.init with vloads := [{ queued vloadDesc with void := true }] } []
/-- A case of VloadsAndPrograms. -/
def case32 := engineWith { EngineSt.init with vloads := [queued vloadDesc] } []
/-- A case of VloadsAndPrograms. -/
def case33 := engineWith { EngineSt.init with vectors := [queued vecDesc], progs := [(0, prog)], in0 := ⟨2, []⟩ } []
/-- A case of VloadsAndPrograms. -/
def case34 : RunSt := ⟨vecDesc, false, 0, 40⟩
/-- A case of VloadsAndPrograms. -/
def case35 := engineWith { EngineSt.init with run := some ⟨vecDesc, false, 0, 40⟩, in0 := ⟨3, []⟩ } []
/-- A case of VerdictsAndEvidence. -/
def case36 : CaseDone := ⟨9, 0, 0, 1, true⟩
/-- A case of VerdictsAndEvidence. -/
def case37 := { admittedWith planIdle true [(oFeaturesAgreed, 0x1001)] with packs := [⟨9, 1, 3, 0, 1, 100, []⟩] }
/-- A case of VerdictsAndEvidence. -/
def case38 : Pack := ⟨9, 1, 3, 0, 1, 100, []⟩
/-- A case of VerdictsAndEvidence. -/
def case39 : Program := ⟨100, 1, []⟩
/-- A case of MessagesAndDoorbells. -/
def case40 : QueueEntry := ⟨0, 6, 3, 0, 7, 256, 4, 0⟩
/-- A case of MessagesAndDoorbells. -/
def case41 := flowing { flowOpen with bells := [⟨0, 5, 1⟩] }
/-- A case of MessagesAndDoorbells. -/
def case42 : WaitingBell := ⟨0, 5, 1⟩
/-- A case of MessagesAndDoorbells. -/
def case43 : RingSt := ⟨1, 0, false⟩
/-- A case of MessagesAndDoorbells. -/
def case44 := flowing { flowOpen with bells := [⟨0, 99, 1⟩] }
/-- A case of MessagesAndDoorbells. -/
def case45 : WaitingBell := ⟨0, 99, 1⟩
/-- A case of AcksAndTimeouts. -/
def case46 := { on [] with flows := [(4, { flowOpen with unacked := [⟨0, 0, [], 8, 0⟩] })] }
/-- A case of AcksAndTimeouts. -/
def case47 := flowing { flowOpen with unacked := [⟨0, 0, [], 0, 0⟩, ⟨1, 0, [], 0, 0⟩] }
/-- A case of AcksAndTimeouts. -/
def case48 := flowing { flowOpen with ackDue := some 10 }
/-- A case of AcksAndTimeouts. -/
def case49 : TxPacket := ⟨0, 0, [], 0, 0⟩
/-- A case of AcksAndTimeouts. -/
def case50 : TxPacket := ⟨0, 0, [], 8, 0⟩
/-- A case of MailboxCommands. -/
def case51 := { on [] with mailboxes := [(3, fullBox)] }
/-- A case of GranaryWork. -/
def case52 := { flowing flowOpen with windows := [(9, { WindowSt.init with state := 2, chunks := [(0, { ChunkSt.init with count := 1, complete := true })] })] }
/-- A case of GranaryWork. -/
def case53 := { flowing flowOpen with contribs := [one 99] }
/-- A case of GranaryWork. -/
def case54 := { flowing flowOpen with contribs := [one 9], windows := [(9, { WindowSt.init with state := 2, step := 5 })] }
/-- A case of GranaryWork. -/
def case55 := { flowing flowOpen with contribs := [one 9], windows := [(9, { WindowSt.init with state := 2 })] }
/-- A case of UpdateWork. -/
def case56 := shaping 3 1 { ShardSt.init with state := 2, taken := [0], grads := [(0, 0x3F800000)] } []
/-- A case of PacketsRouted. -/
def case57 := { on [] with router := [routed (zeros 64)] }
/-- A case of PacketsRouted. -/
def case58 := { on [] with router := [routed ([0, 4] ++ zeros 62)] }
/-- A case of PacketsRouted. -/
def case59 := { on [] with router := [routed ([0, 0, 0, 0, 5] ++ zeros 59)] }
/-- A case of PacketsRouted. -/
def case60 := { linked lanes [(oBridgeRole, 1)] with router := [routed ([0, 4] ++ zeros 62)] }
/-- A case of PacketsRouted. -/
def case61 := { admittedWith planE true [(oMapNow, 0)] with router := [routed ([0, 0, 0, 0, 1] ++ zeros 59)] }
/-- A case of FlitGroups. -/
def case62 := { linked lanes [] with txLinks := [(0, { TxLink.init with queue := [⟨0, true, true, zeros 64⟩] })] }
/-- A case of FlitGroups. -/
def case63 := { linked lanes [] with txLinks := [(0, { TxLink.init with seq := 4, resend := some 3, groups := [⟨3, []⟩] })] }
/-- A case of FlitGroups. -/
def case64 : Group16 := ⟨3, []⟩
/-- A case of FlitGroups. -/
def case65 := { groupIn with idle := true }
/-- A case of FlitGroups. -/
def case66 := { groupIn with crcOk := false }
/-- A case of ReplayFrames. -/
def case67 : LinkName := ⟨0, 0, 0⟩
/-- A case of ReplayFrames. -/
def case68 := { linked lanes [] with txLinks := [(0, { TxLink.init with seq := 4, groups := [⟨3, []⟩] })] }
/-- A case of ReplayFrames. -/
def case69 : LinkName := ⟨9, 1, 0⟩
/-- A case of ReplayFrames. -/
def case70 := { linked lanes [] with rxLinks := [(0, { RxLink.init with nak := some 5 })] }
/-- A case of ReplayFrames. -/
def case71 := linked { lanes with useTx := 0 } []
/-- A case of LanesAndSignals. -/
def case72 := linked { lanes with lostAt := some 7 } []
/-- A case of LanesAndSignals. -/
def case73 := linked { lanes with resetSince := some 7 } []
/-- A case of LanesAndSignals. -/
def case74 : Training := ⟨0, 0, 9, 1, 0, 0, 100⟩
/-- A case of LanesAndSignals. -/
def case75 := { linked lanes [(oXrRoute 0, 0xFE)] with micro := [(192, { Micro.init with state := 4 })] }
/-- A case of LanesAndSignals. -/
def case76 : Training := ⟨0, 0, 9, 2, 0, 0, 100⟩
/-- A case of LanesAndSignals. -/
def case77 : LaneReport := ⟨3, 0, 0, []⟩
/-- A case of SequencedFrames. -/
def case78 := linked { lanes with ackDue := true } []
/-- A case of SequencedFrames. -/
def case79 := linked { lanes with ctlSent := [⟨4, 7, [], some 3⟩, ⟨5, 7, [], some 3⟩] } []
/-- A case of SequencedFrames. -/
def case80 := linked { lanes with ctlSent := [⟨4, 7, [], some 3⟩] } []
/-- A case of SequencedFrames. -/
def case81 : CtlFrame := ⟨4, 7, [], some 3⟩
/-- A case of CleanTree. -/
def case82 : CleanBody := ⟨0, 0, 0x80, 1, 0⟩
/-- A case of CleanTree. -/
def case83 := { ending StepSt.init [(oTreeParentPort, 0), (oCtrlRxPresent 0, 1), (oLinkClass 0, 2)] with ports := [(0, lanes)] }
/-- A case of CleanTree. -/
def case84 := { ending StepSt.init [(oTreeChildren, 1), (oCtrlRxPresent 0, 1), (oLinkClass 0, 2)] with ports := [(0, lanes)] }
/-- A case of CleanTree. -/
def case85 : CleanBody := ⟨0, 0, 0, 1, 0⟩
/-- A case of CleanTree. -/
def case86 : CleanBody := ⟨9, 0, 0, 1, 0⟩
/-- A case of StepRunsFrontCommand. -/
def case87 := { on [] with pending := [.pwrEnRise] }
/-- A case of AdmissionAndActions. -/
def case88 := { ready with admitting := some adm }
/-- A case of AdmissionAndActions. -/
def case89 : PlanFault := ⟨0x101, 0xFFFFFFFF, 0xFFFF, 0, 0, 0⟩
/-- A case of AdmissionAndActions. -/
def case90 := { on [(oPlanState, 2)] with blobs := [(oPlanBlob, zeros 64)], admitting := some adm }
/-- A case of AdmissionAndActions. -/
def case91 := { on [] with digesting := some (0, 64, 5) }
/-- A case of AdmissionAndActions. -/
def case92 : SnapSt := ⟨0, 1, 4, false, 6, zeros 128, []⟩
/-- A case of AdmissionAndActions. -/
def case93 := { admittedWith plan0 true [] with step := { StepSt.init with snap := some ⟨0, 1, 4, false, 6, zeros 128, []⟩ } }
/-- A case of SelfTestsEnd. -/
def case94 : StDone := ⟨[], 0, [], 5⟩
/-- A case of SelfTestsEnd. -/
def case95 := powered { up with selfTestStart := true } []
/-- A case of SelfTestsEnd. -/
def case96 := powered { up with selfTest := true, shutdown := true } []
/-- A case of SelfTestsEnd. -/
def case97 := powered { up with selfTest := true } []
/-- A case of MctpAndSpdm. -/
def case98 := { on [] with mctp := { MctpSt.init with spdmVersioned := true } }
/-- A case of MctpAndSpdm. -/
def case99 := { on [] with mctp := { MctpSt.init with spdmCapable := true } }
/-- A case of MctpAndSpdm. -/
def case100 := { on [] with mctp := { MctpSt.init with spdmNegotiated := true }, blobs := [(oIdCertChain, [1, 2])] }
/-- A case of MctpAndSpdm. -/
def case101 := { powered { up with identity := some 0 } [] with mctp := { MctpSt.init with spdmNegotiated := true } }
/-- A case of BellCount. -/
def case102 := follower bellAcquiring { Bell.init with good := 63 }
/-- A case of BellCount. -/
def case103 := follower bellLocked { Bell.init with bad := 3 }
/-- A case of BellCount. -/
def case104 := follower bellHoldover { Bell.init with holdGood := 3 }
/-- A case of BellCount. -/
def case105 := { exchange 100 with depth := 9 }
/-- A case of BeatsAndSteps. -/
def case106 := { on [] with bell := { Bell.init with inGuard := true } }
/-- A case of BeatsAndSteps. -/
def case107 := { admittedWith (planS 0 1) false [] with step := { StepSt.init with jobAt := some 5 }, bell := { Bell.init with beat := 5 } }
/-- A case of BeatsAndSteps. -/
def case108 : CleanFrame := ⟨0, 0, 13, 1, 0⟩
/-- A case of BeatsAndSteps. -/
def case109 := { admittedWith (planS 0 1) true [] with step := { StepSt.init with running := true, verdict := some ⟨0, 0, 13, 1, 0⟩ } }
/-- A case of DomainWakes. -/
def case110 := powered { up with requests := [⟨10, 0⟩] } [(oDomainState 10, domOff)]
/-- A case of DomainWakes. -/
def case111 : WakeRequest := ⟨10, 0⟩
/-- A case of DomainWakes. -/
def case112 : Item := ⟨9, 0, 0, 10, 50, 0, 0⟩
/-- A case of DomainWakes. -/
def case113 : Item := ⟨10, 0, 0, 10, 50, 0, 0⟩
/-- A case of DomainWakes. -/
def case114 := powered { up with waking := [⟨10, 50⟩] } []
/-- A case of DomainWakes. -/
def case115 : Waking := ⟨10, 50⟩
/-- A case of RingTuning. -/
def case116 := ringIn { Micro.init with state := 2 } []
/-- A case of RingTuning. -/
def case117 := ringIn { Micro.init with state := 1, steps := 5 } []
/-- A case of RingTuning. -/
def case118 := ringIn { Micro.init with state := 1, steps := 64, cands := [3, 30] } []
/-- A case of RingTuning. -/
def case119 := ringIn { Micro.init with state := 3 } []
/-- A case of RingTuning. -/
def case120 : List Tone := [⟨0, false⟩]
/-- A case of RingTuning. -/
def case121 : List Tone := [⟨3, false⟩]
/-- A case of RingTuning. -/
def case122 := ringIn { Micro.init with state := 4 } []
/-- A case of RingTuning. -/
def case123 := ringIn { Micro.init with state := 5, dark := true } []
/-- A case of LasersAndSupplies. -/
def case124 := { on [] with lsc := [⟨0, false, 0, 3, 5, 100, false⟩] }
/-- A case of LasersAndSupplies. -/
def case125 : LscReq := ⟨0, false, 0, 3, 5, 100, false⟩
/-- A case of MemoryUpkeep. -/
def case126 := { on [] with mem := { MemSt.init with copying := [4] } }
/-- A case of MemoryUpkeep. -/
def case127 := powered { up with zeroing := true } []
/-- A case of PowerPins. -/
def case128 := powered { up with powerUp := some 0 } [(oPowerState, 0)]
/-- A case of PowerPins. -/
def case129 := powered { up with pwrEn := false } [(oPowerState, 0)]
/-- A case of PowerPins. -/
def case130 := powered { up with pwrEn := false, auxSettled := false } []
/-- A case of Resets. -/
def case131 := powered { up with warmReset := some .pin } []
/-- A case of SecurityViolations. -/
def case132 := { on [] with blobs := [(oFwRunningDigest, zeros 48)] }
/-- A case of CoreAccesses. -/
def case133 := coreWith 2 0 0 { CoreSt.init with wait := some (.idle 1) }
/-- A case of FirmwareCommands. -/
def case134 : FwImage := ⟨8, 2, 98, true⟩
/-- A case of FirmwareCommands. -/
def case135 := { on [] with power := { (on []).power with staged := some ⟨8, 2, 98, true⟩, copying := true } }
/-- A case of AcksAndTimeouts. -/
def case136 := flowing { flowOpen with openMsgs := [⟨0, 1, 0⟩] }
/-- A case of BeatsAndSteps. -/
def case137 : BoundaryEnv := ⟨[], [], [], []⟩
/-- A case of CleanTree. -/
def case138 := { on [] with keeper := some ⟨3, 0, 2, 8, 6, 4, 1, 4, { StepSt.init with running := true }⟩ }
/-- A case of CleanTree. -/
def case139 : Keeper := ⟨3, 0, 2, 8, 6, 4, 1, 4, { StepSt.init with running := true }⟩
/-- A case of CleanTree. -/
def case140 := { on [] with keeper := some ⟨255, 0, 2, 8, 6, 4, 1, 4, { StepSt.init with running := true }⟩ }
/-- A case of CleanTree. -/
def case141 : Keeper := ⟨255, 0, 2, 8, 6, 4, 1, 4, { StepSt.init with running := true }⟩
/-- A case of CleanTree. -/
def case142 := { on [] with keeper := some ⟨255, 2, 2, 8, 6, 4, 1, 4, { StepSt.init with running := true }⟩ }
/-- A case of CleanTree. -/
def case143 : Keeper := ⟨255, 2, 2, 8, 6, 4, 1, 4, { StepSt.init with running := true }⟩
/-- A case of CleanTree. -/
def case144 : CleanBody := ⟨4, 0, 0x80, 1, 0⟩
/-- A case of CleanTree. -/
def case145 := { on [(oCtrlRxPresent 3, 1), (oLinkClass 3, 2), (oCtrlRxPresent 1, 1), (oLinkClass 1, 2)] with keeper := some ⟨3, 2, 2, 8, 6, 4, 1, 4, { StepSt.init with running := true }⟩ }
/-- A case of CleanTree. -/
def case146 : Keeper := ⟨3, 2, 2, 8, 6, 4, 1, 4, { StepSt.init with running := true }⟩
/-- A case of CleanTree. -/
def case147 : CleanBody := ⟨4, 0, 0, 1, 0⟩
/-- A case of CoreQueuesAndNotes. -/
def case148 : Merge := ⟨0, 0, 2, ⟨5, false, false, false, 5, 0, 0, none, 1⟩⟩
/-- A case of CoreQueuesAndNotes. -/
def case149 := { on [] with merges := [⟨0, 0, 2, ⟨5, false, false, false, 5, 0, 0, none, 1⟩⟩] }
/-- A case of CoreTraps. -/
def case150 : CoreReq := ⟨0, 0, 3, 1, 2, 0, false⟩
/-- A case of CoreTraps. -/
def case151 : Instr := .ccIssue ⟨0, 0, 3, 1, 2, 0, false⟩
/-- A case of CoreTraps. -/
def case152 : Retire := ⟨0, 0, 4, true, some 2, 3, 77, none, none, none, none⟩
/-- A case of CoreTraps. -/
def case153 : Retire := ⟨0, 0, 4, true, none, 3, 77, none, none, some (0, 4), none⟩
/-- A case of CoreTraps. -/
def case154 : Retire := ⟨0, 0, 4, true, none, 3, 77, none, none, none, some (0, [1])⟩
/-- A case of CoreTraps. -/
def case155 : Retire := ⟨0, 0, 4, false, none, 3, 77, none, none, none, none⟩
/-- A case of DrainCommands. -/
def case156 : DrainEnd := ⟨0, []⟩
/-- A case of FillsAndSlices. -/
def case157 := engineWith { EngineSt.init with fills := [queued fillDesc], valid := [0] } []
/-- A case of FillsAndSlices. -/
def case158 := { queued (matDesc 0) with void := true }
/-- A case of FillsAndSlices. -/
def case159 := engineWith { EngineSt.init with slices := [{ queued (matDesc 0) with void := true }] } []
/-- A case of FillsAndSlices. -/
def case160 := { admittedWith plan0 true [] with engines := [(0, { EngineSt.init with slices := [queued (zeros 64)] })] }
/-- A case of FillsAndSlices. -/
def case161 := engineWith { EngineSt.init with slices := [queued (matDesc 0)] } []
/-- A case of FillsAndSlices. -/
def case162 : SliceEnd := ⟨0, []⟩
/-- A case of FillsAndSlices. -/
def case163 : SliceSt := ⟨matDesc 0, false, 1, 0, 0, 0, 0⟩
/-- A case of FillsAndSlices. -/
def case164 := engineWith { EngineSt.init with slice := some ⟨matDesc 0, false, 1, 0, 0, 0, 0⟩ } []
/-- A case of FillsAndSlices. -/
def case165 : SliceSt := ⟨matDesc 0, false, 0, 0, 0, 0, 0⟩
/-- A case of FillsAndSlices. -/
def case166 := engineWith { EngineSt.init with slice := some ⟨matDesc 0, false, 0, 0, 0, 0, 0⟩ } []
/-- A case of FlitGroups. -/
def case167 := { linked lanes [] with txLinks := [(0, { TxLink.init with groups := List.replicate 496 ⟨0, []⟩ })] }
/-- A case of FlitGroups. -/
def case168 := { linked lanes [] with rxLinks := [(0, { RxLink.init with nak := some 0 })] }
/-- A case of GranaryWork. -/
def case169 := { flowing flowOpen with contribs := [one 9], windows := [(9, { WindowSt.init with state := 2, chunks := [(0, { ChunkSt.init with complete := true })] })] }
/-- A case of GranaryWork. -/
def case170 := { flowing flowOpen with contribs := [{ one 9 with form := 3 }], windows := [(9, { WindowSt.init with state := 2 })] }
/-- A case of GranaryWork. -/
def case171 := { one 9 with form := 3 }
/-- A case of GranaryWork. -/
def case172 := { admittedWith { planF with windows := [{ win9 0 1 with mode := 32 }] } false [] with contribs := [one 9], windows := [(9, { WindowSt.init with state := 2 })] }
/-- A case of GranaryWork. -/
def case173 := { win9 0 1 with mode := 32 }
/-- A case of GranaryWork. -/
def case174 : ChunkOut := ⟨0, []⟩
/-- A case of IssueEntersFifo. -/
def case175 := coreOn { planS 3 1 with timing := ⟨8, 2, 3, 0, 0⟩ } 0x10000 0 fillDesc
/-- A case of LasersAndSupplies. -/
def case176 : LscStatus := ⟨3, 1⟩
/-- A case of LasersAndSupplies. -/
def case177 : LscReq := ⟨0, true, 1, 3, 5, 100, false⟩
/-- A case of LasersAndSupplies. -/
def case178 := { on [] with lsc := [⟨0, true, 1, 3, 5, 100, false⟩] }
/-- A case of LasersAndSupplies. -/
def case179 : LscReq := ⟨0, false, 2, 3, 5, 100, false⟩
/-- A case of LasersAndSupplies. -/
def case180 := { on [] with lsc := [⟨0, false, 2, 3, 5, 100, false⟩] }
/-- A case of MemoryUpkeep. -/
def case181 : List Upset := [⟨0, 0, 1⟩, ⟨0, 1, 1⟩, ⟨0, 2, 1⟩]
/-- A case of MessagesAndDoorbells. -/
def case182 := { flowing flowOpen with rings := [(6, ⟨4, 0, false⟩)] }
/-- A case of MessagesAndDoorbells. -/
def case183 := { pkt 0 (BitVec.ofNat 192 6) (zeros 64) with step := 99 }
/-- A case of GranaryWork. -/
def case184 := { admittedWith { planF with windows := [{ win9 0 1 with mode := 32 }] } false [] with contribs := [{ one 9 with form := 2, value := 0 }], windows := [(9, { WindowSt.init with state := 2 })] }
/-- A case of GranaryWork. -/
def case185 := { one 9 with form := 2, value := 0 }
/-- A case of MemoryUpkeep. -/
def case186 : List Upset := [⟨0, 0, 1⟩]
/-- A case of PacketsRouted. -/
def case187 := { routed ([0, 0, 0, 0, 5] ++ zeros 59) with src := some 0 }
/-- A case of PacketsRouted. -/
def case188 := { linked lanes [] with router := [{ routed ([0, 0, 0, 0, 5] ++ zeros 59) with src := some 0 }] }
/-- A case of PowerPins. -/
def case189 := powered { up with pwrEn := false, resetN := false } [(oPowerState, 0)]
/-- A case of PowerPins. -/
def case190 := powered { up with pwrEn := true, auxSettled := false } [(oPowerState, 0)]
/-- A case of PowerPins. -/
def case191 := powered { up with pwrEn := true, auxSettled := false } []
/-- A case of PowerWrites. -/
def case192 := powered { up with copying := true } []
/-- A case of ReadsAndWrites. -/
def case193 := { admittedWith { planF with regions := [⟨7, 5, 0, 0x10000⟩] } false [(oMemState, 1)] with flows := [(4, flowOpen)] }
/-- A case of ReadsAndWrites. -/
def case194 := { pkt 3 (BitVec.ofNat 192 2) [1, 2, 3, 4] with flags := 2 }
/-- A case of ReadsAndWrites. -/
def case195 := flowing { flowOpen with host := true }
/-- A case of ReadsAndWrites. -/
def case196 := { pkt 3 (BitVec.ofNat 192 (4096 * 2 ^ 64)) [1, 2, 3, 4] with step := 99 }
/-- A case of ReadsAndWrites. -/
def case197 := { pkt 3 (BitVec.ofNat 192 (4096 * 2 ^ 64)) [1, 2, 3, 4] with flags := 8, epoch := 0, msgCrc := 0 }
/-- A case of ReadsAndWrites. -/
def case198 := { pkt 3 (BitVec.ofNat 192 (4096 * 2 ^ 64)) [1, 2, 3, 4] with flags := 8, epoch := 0 }
/-- A case of ReadsAndWrites. -/
def case199 := { pkt 0 (BitVec.ofNat 192 (4096 * 2 ^ 64 + 4 * 2 ^ 128)) [] with flags := 8, epoch := 0 }
/-- A case of RetriesAndEnds. -/
def case200 := { on [] with inBand := ⟨[kept], none, none⟩ }
/-- A case of RetriesAndEnds. -/
def case201 := { on [] with inBand := ⟨[], none, some (5, 0x2020, 1)⟩ }
/-- A case of RingTuning. -/
def case202 := ringIn { Micro.init with state := 3, cands := [3] } []
/-- A case of RingTuning. -/
def case203 := ringIn { Micro.init with state := 5 } []
/-- A case of RingTuning. -/
def case204 : RingDrift := ⟨.tx 0 0, 100, 3, 100⟩
/-- A case of RingTuning. -/
def case205 : RingDrift := ⟨.tx 0 0, 100, 9, 100⟩
/-- A case of SequencedFrames. -/
def case206 : CtlAck := ⟨3, 0⟩
/-- A case of SequencedFrames. -/
def case207 := { on [] with ports := [(0, { PortSt.init with ctlSent := [⟨2, 4, [], none⟩, ⟨4, 4, [], none⟩] })] }
/-- A case of UpdateWork. -/
def case208 : Delivered := ⟨9, 0, 0, [0x3F800000], 0⟩
/-- A case of UpdateWork. -/
def case209 := shaping 3 1 { ShardSt.init with state := 1 } [⟨9, 0, 0, [0x3F800000], 0⟩]
/-- A case of UpdateWork. -/
def case210 := shaping 0 1 { ShardSt.init with state := 1 } [⟨9, 0, 0, [0x3F800000], 0⟩]
/-- A case of UpdateWork. -/
def case211 := shaping 3 1 { ShardSt.init with state := 3 } []
/-- A case of UpdateWork. -/
def case212 := shaping 3 1 { ShardSt.init with state := 3, phase := 3 } []
/-- A case of UpdateWork. -/
def case213 := shaping 3 1 { ShardSt.init with state := 4 } []
/-- A case of VerdictsAndEvidence. -/
def case214 : Verdict := ⟨1, 0, 0, false, 0, 0, 0, 0, none⟩
/-- A case of VerdictsAndEvidence. -/
def case215 : VerdictDue := ⟨1, 0, 0, 0, 0, 0, matDesc 1, 0, ⟨[], [], []⟩⟩
/-- A case of VerdictsAndEvidence. -/
def case216 := { admittedWith plan0 true [] with verdicts := [⟨1, 0, 0, 0, 0, 0, matDesc 1, 0, ⟨[], [], []⟩⟩] }
/-- A case of VerdictsAndEvidence. -/
def case217 : Verdict := ⟨1, 0, 0, false, 0, 0, 0, 0, some ⟨1, 0, 0, true⟩⟩
/-- A case of VerdictsAndEvidence. -/
def case218 : GenFailure := ⟨1, 0, 0, true⟩
/-- A case of VerdictsAndEvidence. -/
def case219 : EvidenceData := ⟨0, 5, 6, []⟩
/-- A case of VerdictsAndEvidence. -/
def case220 : Capture := ⟨1, 0, 0, 0, 0, 0, 0, 0, matDesc 1, none⟩
/-- A case of VerdictsAndEvidence. -/
def case221 := { on [] with captures := [⟨1, 0, 0, 0, 0, 0, 0, 0, matDesc 1, none⟩] }
/-- A case of VerdictsAndEvidence. -/
def case222 : CaseDone := ⟨9, 0, 0, 1, false⟩
/-- A case of VloadsAndPrograms. -/
def case223 := { admittedWith plan0 true [] with engines := [(0, { EngineSt.init with vloads := [queued (zeros 64)] })] }
/-- A case of VloadsAndPrograms. -/
def case224 := { admittedWith plan0 true [] with engines := [(0, { EngineSt.init with vloads := [queued vloadDesc], in0 := ⟨2, []⟩ })] }
/-- A case of VloadsAndPrograms. -/
def case225 := { queued vecDesc with void := true }
/-- A case of VloadsAndPrograms. -/
def case226 := { admittedWith plan0 true [] with engines := [(0, { EngineSt.init with vectors := [{ queued vecDesc with void := true }] })] }
/-- A case of VloadsAndPrograms. -/
def case227 := { admittedWith plan0 true [] with engines := [(0, { EngineSt.init with vectors := [queued vecDesc], in0 := ⟨2, []⟩ })] }
/-- A case of VloadsAndPrograms. -/
def case228 := { admittedWith plan0 true [] with engines := [(0, { EngineSt.init with vectors := [queued vecDesc] })] }
/-- A case of MemoryUpkeep. -/
def case229 : List Upset := [⟨0, 31, 1⟩, ⟨0, 32, 15⟩, ⟨0, 33, 54⟩, ⟨0, 34, 120⟩, ⟨0, 35, 64⟩]
/-- A case of OpticsWrites. -/
def case230 := { feeding 100 [] with micro := [(0, { Micro.init with state := 4 }), (384, { Micro.init with state := 4, setting := 20000 }), (392, { Micro.init with state := 4 })] }
/-- A case of PacketsRouted. -/
def case231 := { routed ([0, 0, 0, 0, 1] ++ zeros 59) with die := 1 }
/-- A case of PacketsRouted. -/
def case232 := { admittedWith planE true [(oMapNow, 0), (oLinkClass 3, 2), (oLinkState 3, 4), (oCtrlRxPresent 3, 1), (oPeerPlace 3, 1), (oPeerPort 3, 2)] with router := [{ routed ([0, 0, 0, 0, 1] ++ zeros 59) with die := 1 }], ports := [(3, lanes)] }
/-- A case of ReadsAndWrites. -/
def case233 := { pkt 3 (BitVec.ofNat 192 (4096 * 2 ^ 64)) [1, 2, 3, 4] with flags := 2 }
/-- A case of ReadsAndWrites. -/
def case234 := { admittedWith { planF with regions := [⟨7, 5, 0, 0x10000⟩] } false [(oMemState, 1)] with flows := [(4, { flowOpen with host := true })] }
/-- A case of ReadsAndWrites. -/
def case235 := { admittedWith planF false [] with flows := [(4, flowOpen)] }
/-- A case of SegmentedTransfers. -/
def case236 : Transfer := ⟨5, 0x7120, 1, true, 4, [(0, [1, 2, 3, 4])], [], 0⟩
/-- A case of VerdictsAndEvidence. -/
def case237 : VerdictDue := ⟨1, 0, 0, 0, 0, 0, matDesc 1, 0, ⟨[1], [2], []⟩⟩
/-- A case of VerdictsAndEvidence. -/
def case238 := { admittedWith plan0 true [] with verdicts := [⟨1, 0, 0, 0, 0, 0, matDesc 1, 0, ⟨[1], [2], []⟩⟩] }

/-! ### The hypotheses of each statement, met clause by clause -/

theorem test_met_StepRunsFrontCommand :
  case87.pending = [Instr.pwrEnRise] := by
  decide +kernel

theorem test_met_IdleStepPassesOneNanosecond :
  State.reset.pending = [] := by
  decide +kernel

theorem test_met_StepKeepsSound :
  State.reset.sound = true := by
  decide +kernel

theorem test_met_ReadReturnsValue :
  (on []).quiet.taken 1 (req 4112 1 17 0 []) = true ∧
  objRow? (BitVec.toNat (req 4112 1 17 0 []).index) (BitVec.toNat (req 4112 1 17 0 []).sub) = some (rowAt 4112 1) ∧
  (on []).quiet.objDown (BitVec.toNat (req 4112 1 17 0 []).index) (BitVec.toNat (req 4112 1 17 0 []).sub) = false ∧
  (rowAt 4112 1).acc ≠ Acc.wo ∧
  ((rowAt 4112 1).ty = OTy.blob →
    List.length
        ((on []).quiet.readValue (rowAt 4112 1) (BitVec.toNat (req 4112 1 17 0 []).index)
            (BitVec.toNat (req 4112 1 17 0 []).sub)).fst ≤
      1024) ∧
  BitVec.toNat (req 4112 1 17 0 []).type = readType (rowAt 4112 1) := by
  decide +kernel

theorem test_met_WriteStoresValue :
  (on []).quiet.taken 2 (req 4128 6 3 2 [100, 0]) = true ∧
  objRow? (BitVec.toNat (req 4128 6 3 2 [100, 0]).index) (BitVec.toNat (req 4128 6 3 2 [100, 0]).sub) =
    some (rowAt 4128 6) ∧
  (on []).quiet.objDown (BitVec.toNat (req 4128 6 3 2 [100, 0]).index) (BitVec.toNat (req 4128 6 3 2 [100, 0]).sub) =
    false ∧
  (on []).quiet.writeDenied (req 4128 6 3 2 [100, 0]).path (rowAt 4128 6) (BitVec.toNat (req 4128 6 3 2 [100, 0]).index)
      (BitVec.toNat (req 4128 6 3 2 [100, 0]).sub) (req 4128 6 3 2 [100, 0]).data =
    none ∧
  (on []).conflicts Path.inBand (BitVec.toNat (req 4128 6 3 2 [100, 0]).index)
      (BitVec.toNat (req 4128 6 3 2 [100, 0]).sub) false =
    false ∧
  (on []).conflicts Path.outOfBand (BitVec.toNat (req 4128 6 3 2 [100, 0]).index)
      (BitVec.toNat (req 4128 6 3 2 [100, 0]).sub) false =
    false ∧
  BitVec.toNat (req 4128 6 3 2 [100, 0]).length ≤ 1024 ∧
  typeFault (rowAt 4128 6) (BitVec.toNat (req 4128 6 3 2 [100, 0]).type) (req 4128 6 3 2 [100, 0]).data = none ∧
  (on []).quiet.rangeFault (rowAt 4128 6)
      (objKey (BitVec.toNat (req 4128 6 3 2 [100, 0]).index) (BitVec.toNat (req 4128 6 3 2 [100, 0]).sub))
      (req 4128 6 3 2 [100, 0]).data =
    none ∧
  ((on []).quiet.putValue (rowAt 4128 6) (BitVec.toNat (req 4128 6 3 2 [100, 0]).index)
        (BitVec.toNat (req 4128 6 3 2 [100, 0]).sub) (req 4128 6 3 2 [100, 0]).data).snd =
    none ∧
  (oSegIdleTimeoutMs ∈
    [oSegIdleTimeoutMs, oMbTimeoutMs, oRtoBaseUs, oWindowSelect, oShardSelect, oRegionSelect, oFlowSelect, oQueueSelect]) ∧
  rowOfKey oSegIdleTimeoutMs = some (rowAt 4128 6) := by
  decide +kernel

theorem test_met_RefusedWriteChangesNothing :
  (on []).quiet.taken 2 (req 4112 2 1 1 [1]) = true ∧
  objRow? (BitVec.toNat (req 4112 2 1 1 [1]).index) (BitVec.toNat (req 4112 2 1 1 [1]).sub) = some (rowAt 4112 2) ∧
  (on []).quiet.objDown (BitVec.toNat (req 4112 2 1 1 [1]).index) (BitVec.toNat (req 4112 2 1 1 [1]).sub) = false ∧
  (on []).quiet.writeDenied (req 4112 2 1 1 [1]).path (rowAt 4112 2) (BitVec.toNat (req 4112 2 1 1 [1]).index)
      (BitVec.toNat (req 4112 2 1 1 [1]).sub) (req 4112 2 1 1 [1]).data =
    some abReadOnly := by
  decide +kernel

theorem test_met_RetriesAndEnds :
  ((1, Instr.readObject (req 4112 1 17 0 [])) ∈
    [(1, Instr.readObject (req 4112 1 17 0 [])), (2, Instr.writeObject (req 4112 1 17 0 [])),
      (3, Instr.segReadInit (req 4112 1 17 0 [])), (4, Instr.segWriteInit (req 4112 1 17 0 [])),
      (5, Instr.segDataWrite (req 4112 1 17 0 [])), (5, Instr.segDataRead (req 4112 1 17 0 [])),
      (6, Instr.segEndWrite (req 4112 1 17 0 [])), (6, Instr.segEndRead (req 4112 1 17 0 [])),
      (7, Instr.abortTransfer (req 4112 1 17 0 []))]) ∧
  case200.answers (req 4112 1 17 0 []).path = true ∧ case200.badMessage 1 (req 4112 1 17 0 []) = false ∧
  (case200.touch 1 (req 4112 1 17 0 [])).keptFor 1 (req 4112 1 17 0 []) = some kept ∧
  kept.same 1 (req 4112 1 17 0 []) = true ∧ (withTransfer reading).quiet.taken 7 (req 8224 1 15 0 []) = true ∧
  objRow? (BitVec.toNat (req 8224 1 15 0 []).index) (BitVec.toNat (req 8224 1 15 0 []).sub) = some (rowAt 8224 1) ∧
  ((withTransfer reading).pathSt (req 8224 1 15 0 []).path).transfer = some reading ∧
  reading.tag = BitVec.toNat (req 8224 1 15 0 []).tag ∧ (rowAt 8224 1).ty = OTy.blob ∧
  BitVec.toNat (req 8224 1 15 0 []).type = 15 ∧ (on []).quiet.taken 7 (req 8224 1 15 0 []) = true ∧
  (on []).tagged (req 8224 1 15 0 []) = none ∧
  (on []).objDown (BitVec.toNat (req 8224 1 15 0 []).index) (BitVec.toNat (req 8224 1 15 0 []).sub) = false ∧
  ((5, Instr.segDataRead (req 8224 1 15 0 [])) ∈
    [(5, Instr.segDataWrite (req 8224 1 15 0 [])), (5, Instr.segDataRead (req 8224 1 15 0 [])),
      (6, Instr.segEndWrite (req 8224 1 15 0 [])), (6, Instr.segEndRead (req 8224 1 15 0 []))]) ∧
  case201.quiet.taken 5 (req 8224 1 15 0 []) = true ∧
  case201.objDown (BitVec.toNat (req 8224 1 15 0 []).index) (BitVec.toNat (req 8224 1 15 0 []).sub) = false ∧
  (case201.pathSt (req 8224 1 15 0 []).path).transfer = none ∧
  (case201.pathSt (req 8224 1 15 0 []).path).cancelled =
    some
      (BitVec.toNat (req 8224 1 15 0 []).tag, BitVec.toNat (req 8224 1 15 0 []).index,
        BitVec.toNat (req 8224 1 15 0 []).sub) ∧
  (5 = 6 →
    (req 8224 1 15 0 []).data = [] ∨
      case201.writeDenied (req 8224 1 15 0 []).path (rowAt 8224 1) (BitVec.toNat (req 8224 1 15 0 []).index)
          (BitVec.toNat (req 8224 1 15 0 []).sub) [] =
        none) ∧
  ((withTransfer reading).pathSt Path.inBand).transfer = some reading ∧
  (case200.pathSt Path.inBand).kept.getLast? = some kept ∧ case200.now ≤ kept.sentAt + 1000000000 := by
  decide +kernel

theorem test_met_SegmentedTransfers :
  (on []).quiet.taken 4 (req 8224 1 15 4 []) = true ∧
  objRow? (BitVec.toNat (req 8224 1 15 4 []).index) (BitVec.toNat (req 8224 1 15 4 []).sub) = some (rowAt 8224 1) ∧
  (on []).quiet.objDown (BitVec.toNat (req 8224 1 15 4 []).index) (BitVec.toNat (req 8224 1 15 4 []).sub) = false ∧
  (on []).quiet.writeDenied (req 8224 1 15 4 []).path (rowAt 8224 1) (BitVec.toNat (req 8224 1 15 4 []).index)
      (BitVec.toNat (req 8224 1 15 4 []).sub) [] =
    none ∧
  (on []).quiet.initMeets (req 8224 1 15 4 []) true = none ∧ (rowAt 8224 1).ty = OTy.blob ∧
  BitVec.toNat (req 8224 1 15 4 []).type = 15 ∧ BitVec.toNat (req 8224 1 15 4 []).length ≤ 16777216 ∧
  BitVec.toNat (req 8224 1 15 4 []).length ≤ (rowAt 8224 1).maxLen ∧
  (withTransfer (writing [])).quiet.taken 5 (req 8224 1 15 0 [1, 2, 3, 4]) = true ∧
  (objRow? (BitVec.toNat (req 8224 1 15 0 [1, 2, 3, 4]).index) (BitVec.toNat (req 8224 1 15 0 [1, 2, 3, 4]).sub)).isSome =
    true ∧
  (withTransfer (writing [])).named (req 8224 1 15 0 [1, 2, 3, 4]) = some (writing []) ∧
  (writing []).isWrite = true ∧
  (req 8224 1 15 0 [1, 2, 3, 4]).segOutstanding < (withTransfer (writing [])).segWindow ∧
  BitVec.toNat (req 8224 1 15 0 [1, 2, 3, 4]).type = 15 ∧
  segOf (req 8224 1 15 0 [1, 2, 3, 4]) < ceilDiv (writing []).len 1024 ∧
  List.length (req 8224 1 15 0 [1, 2, 3, 4]).data =
    min 1024 ((writing []).len - segOf (req 8224 1 15 0 [1, 2, 3, 4]) * 1024) ∧
  (withTransfer (writing [(0, [1, 2, 3, 4])])).quiet.taken 6 (req 8224 1 15 4 [205, 251, 60, 182]) = true ∧
  objRow? (BitVec.toNat (req 8224 1 15 4 [205, 251, 60, 182]).index)
      (BitVec.toNat (req 8224 1 15 4 [205, 251, 60, 182]).sub) =
    some (rowAt 8224 1) ∧
  (withTransfer (writing [(0, [1, 2, 3, 4])])).named (req 8224 1 15 4 [205, 251, 60, 182]) =
    some (writing [(0, [1, 2, 3, 4])]) ∧
  (writing [(0, [1, 2, 3, 4])]).isWrite = true ∧
  (withTransfer (writing [(0, [1, 2, 3, 4])])).objDown (BitVec.toNat (req 8224 1 15 4 [205, 251, 60, 182]).index)
      (BitVec.toNat (req 8224 1 15 4 [205, 251, 60, 182]).sub) =
    false ∧
  (withTransfer (writing [(0, [1, 2, 3, 4])])).writeDenied (req 8224 1 15 4 [205, 251, 60, 182]).path (rowAt 8224 1)
      (BitVec.toNat (req 8224 1 15 4 [205, 251, 60, 182]).index) (BitVec.toNat (req 8224 1 15 4 [205, 251, 60, 182]).sub)
      (writing [(0, [1, 2, 3, 4])]).value =
    none ∧
  BitVec.toNat (req 8224 1 15 4 [205, 251, 60, 182]).type = 15 ∧
  (writing [(0, [1, 2, 3, 4])]).endFault (req 8224 1 15 4 [205, 251, 60, 182]).data = none ∧
  (withTransfer
            { tag := 5, index := 28960, sub := 1, isWrite := true, len := 4, segs := [(0, [1, 2, 3, 4])], fixed := [],
              lastAt := 0 }).quiet.taken
      6 (req 28960 1 15 4 [205, 251, 60, 182]) =
    true ∧
  objRow? (BitVec.toNat (req 28960 1 15 4 [205, 251, 60, 182]).index)
      (BitVec.toNat (req 28960 1 15 4 [205, 251, 60, 182]).sub) =
    some (rowAt 28960 1) ∧
  (withTransfer
          { tag := 5, index := 28960, sub := 1, isWrite := true, len := 4, segs := [(0, [1, 2, 3, 4])], fixed := [],
            lastAt := 0 }).named
      (req 28960 1 15 4 [205, 251, 60, 182]) =
    some case236 ∧
  case236.isWrite = true ∧
  (withTransfer
          { tag := 5, index := 28960, sub := 1, isWrite := true, len := 4, segs := [(0, [1, 2, 3, 4])], fixed := [],
            lastAt := 0 }).objDown
      (BitVec.toNat (req 28960 1 15 4 [205, 251, 60, 182]).index)
      (BitVec.toNat (req 28960 1 15 4 [205, 251, 60, 182]).sub) =
    false := by
  decide +kernel

theorem test_met_SegmentedTransfers_2 :
  (withTransfer
          { tag := 5, index := 28960, sub := 1, isWrite := true, len := 4, segs := [(0, [1, 2, 3, 4])], fixed := [],
            lastAt := 0 }).writeDenied
      (req 28960 1 15 4 [205, 251, 60, 182]).path (rowAt 28960 1)
      (BitVec.toNat (req 28960 1 15 4 [205, 251, 60, 182]).index)
      (BitVec.toNat (req 28960 1 15 4 [205, 251, 60, 182]).sub) case236.value =
    none ∧
  BitVec.toNat (req 28960 1 15 4 [205, 251, 60, 182]).type = 15 ∧
  case236.endFault (req 28960 1 15 4 [205, 251, 60, 182]).data = none ∧
  (BitVec.toNat (req 28960 1 15 4 [205, 251, 60, 182]).index * 256 +
      BitVec.toNat (req 28960 1 15 4 [205, 251, 60, 182]).sub ∈
    [oSteProgram, oIdCertChain, oGroupTStart]) ∧
  (rowAt 28960 1).ty = OTy.blob ∧ case236.len ≤ (rowAt 28960 1).maxLen ∧
  (BitVec.toNat (req 28960 1 15 4 [205, 251, 60, 182]).index * 256 +
        BitVec.toNat (req 28960 1 15 4 [205, 251, 60, 182]).sub =
      oGroupTStart →
    case236.len = 0 ∨ case236.len = 4096) ∧
  (on []).quiet.taken 3 (req 8224 1 15 4 []) = true ∧ (rowAt 8224 1).acc ≠ Acc.wo ∧
  (rowAt 8224 1).acc ≠ Acc.cmd ∧ (on []).quiet.initMeets (req 8224 1 15 4 []) false = none ∧
  (withTransfer reading).quiet.taken 5 (req 8224 1 15 0 []) = true ∧
  (objRow? (BitVec.toNat (req 8224 1 15 0 []).index) (BitVec.toNat (req 8224 1 15 0 []).sub)).isSome = true ∧
  (withTransfer reading).named (req 8224 1 15 0 []) = some reading ∧ reading.isWrite = false ∧
  (req 8224 1 15 0 []).segOutstanding < (withTransfer reading).segWindow ∧
  BitVec.toNat (req 8224 1 15 0 []).type = 15 ∧ segOf (req 8224 1 15 0 []) < ceilDiv reading.len 1024 ∧
  (withTransfer reading).quiet.taken 6 (req 8224 1 15 4 []) = true ∧
  (objRow? (BitVec.toNat (req 8224 1 15 4 []).index) (BitVec.toNat (req 8224 1 15 4 []).sub)).isSome = true ∧
  (withTransfer reading).named (req 8224 1 15 4 []) = some reading := by
  decide +kernel

theorem test_met_AnswersAndResults :
  (on []).answers q.path = true ∧ oPlaceNumber ≠ 0 ∧ (¬ oPlaceNumber ∈ eventKeys) ∧ 515 < 2 ^ 16 ∧
  bit ((on []).obj oFeaturesAgreed) 2 = false ∧ (rowAt 8224 2).acc = Acc.cmd := by
  decide +kernel

theorem test_met_EventsAreLogged :
  (on []).eventQueue = none := by
  decide +kernel

theorem test_met_IdentityAndBridgeWrites :
  (3#128).toNat &&& (on []).obj oFeaturesOffered = (3#128).toNat ∧ (3#128).getLsbD 0 = true ∧
  (on []).quiet.writeServed q oFeaturesAccepted (natLe 16 (3#128).toNat) = true ∧
  (on []).quiet.writeServed q oFeaturesAccepted (natLe 16 (2#128).toNat) = true ∧
  ((2#128).toNat &&& (on []).obj oFeaturesOffered ≠ (2#128).toNat ∨ (2#128).getLsbD 0 = false) ∧
  (on []).quiet.writeServed q oPlaceNumber (natLe 2 (3#16).toNat) = true ∧
  (on []).quiet.writeServed q oWritePaths (natLe 4 (3#32).toNat) = true ∧
  (on []).quiet.writeServed q oBridgeRole (natLe 1 (2#8).toNat) = true ∧
  (on []).quiet.writeServed q oBridgePlace (natLe 2 (3#16).toNat) = true := by
  decide +kernel

theorem test_met_TimeWrites :
  (on []).bell.beat < (1#64).toNat ∧ (on []).quiet.writeServed q oBeatChangeAt (natLe 8 (1#64).toNat) = true ∧
  (on []).quiet.writeServed q oBeatLengthNext (natLe 2 (60#64).toNat) = true ∧
  (2#8).toNat = (on [(oTimeRole, 2)]).obj oTimeRole ∧
  (on [(oTimeRole, 2)]).quiet.writeServed q oTimeRole (natLe 1 (2#8).toNat) = true ∧
  (1#8).toNat ≠ (on []).obj oTimeRole ∧ (on []).quiet.writeServed q oTimeRole (natLe 1 (1#8).toNat) = true ∧
  (on []).quiet.writeServed q oCoolantFlowLpm (natLe 4 (1#32).toNat) = true ∧
  ((on []).quiet.writeServed q oCoolantInletC (natLe 4 (1#32).toNat) = true) := by
  decide +kernel

theorem test_met_RootSet :
  (on [(oTimeRole, 1)]).admitted = false ∧ (on [(oTimeRole, 1)]).obj oTimeRole = 1 ∧
  (on [(oTimeRole, 1)]).quiet.writeServed q oRootSet (natLe 8 (5#64).toNat ++ natLe 4 (5#32).toNat) = true ∧
  (admittedWith plan0 false [(oTimeRole, 1)]).admitted = true ∧
  (admittedWith plan0 false [(oTimeRole, 1)]).quiet.writeServed q oRootSet
      (natLe 8 (5#64).toNat ++ natLe 4 (5#32).toNat) =
    true ∧
  (on []).admitted = false ∧ (on []).obj oTimeRole ≠ 1 ∧
  (on []).quiet.writeServed q oRootSet (natLe 8 (5#64).toNat ++ natLe 4 (5#32).toNat) = true := by
  decide +kernel

theorem test_met_PlanActions :
  (on []).quiet.writeServed q oPlanBlob [1, 2, 3] = true ∧ (on [(oPlanState, 1)]).planState = 1 ∧
  (on [(oPlanState, 1)]).quiet.writeServed q oAdmit (natLe 1 (1#8).toNat) = true ∧
  (admittedWith plan0 false []).admitted = true ∧
  (admittedWith plan0 false []).quiet.writeServed q oRelease (natLe 1 (1#8).toNat) = true ∧
  (on []).planHeld = false ∧ (on []).quiet.writeServed q oRelease (natLe 1 (1#8).toNat) = true ∧
  (admittedWith plan0 false []).planState = 3 ∧ (admittedWith plan0 false []).bell.beat + 2 ≤ (2#64).toNat ∧
  (admittedWith plan0 false []).quiet.writeServed q oJobStart (natLe 8 (2#64).toNat) = true ∧
  (on []).quiet.writeServed q oJobStop (natLe 1 (1#8).toNat) = true ∧
  ready.quiet.prepareFault (2#64).toNat = none ∧
  ready.quiet.writeServed q oPrepare (natLe 8 (2#64).toNat) = true ∧ (on []).planState ≠ 1 ∧
  (on []).quiet.writeServed q oAdmit (natLe 1 (1#8).toNat) = true ∧ (on [(oPlanState, 2)]).planState = 2 ∧
  (on [(oPlanState, 2)]).quiet.writeServed q oRelease (natLe 1 (1#8).toNat) = true ∧
  (on []).quiet.prepareFault (1#64).toNat = some abValueRange ∧
  (on []).quiet.writeServed q oPrepare (natLe 8 (1#64).toNat) = true ∧
  ((on []).planState ≠ 3 ∨ (1#64).toNat < (on []).bell.beat + 2) ∧
  (on []).quiet.writeServed q oJobStart (natLe 8 (1#64).toNat) = true ∧ (on []).obj oLcState ≠ 3 ∧
  (on []).quiet.writeServed q oLedgerClear [2] = true ∧ (on []).admitted = false ∧
  (((on []).packs.all fun p => p.id != (1#32).toNat) = true) ∧
  (on []).quiet.writeServed q oPackRemove (natLe 4 (1#32).toNat) = true ∧
  (admittedWith plan0 false []).planHeld = true ∧
  (admittedWith plan0 false []).quiet.writeServed q oShutdown (natLe 1 (1#8).toNat) = true := by
  decide +kernel

theorem test_met_OpticsWrites :
  (on []).admitted = false ∧ (on []).quiet.writeServed q oXrClear (natLe 1 (1#8).toNat) = true ∧
  (admittedWith plan0 true []).admitted = true ∧
  (admittedWith plan0 true []).quiet.writeServed q oXrClear (natLe 1 (1#8).toNat) = true ∧
  (1#8).toNat ≠ (on []).source ↑1 ∧ (on []).quiet.eligible ↑1 = true ∧
  (on []).quiet.writeServed q (oSelect ↑1) (natLe 1 (1#8).toNat) = true ∧ (0#8).toNat = (on []).source ↑1 ∧
  (on []).quiet.writeServed q (oSelect ↑1) (natLe 1 (0#8).toNat) = true ∧ (1#8).toNat ≠ case230.source ↑0 ∧
  case230.quiet.eligible ↑0 = false ∧ case230.quiet.writeServed q (oSelect ↑0) (natLe 1 (1#8).toNat) = true ∧
  case1.planHeld = false ∧ case1.linkClass ↑3 ≠ 0 ∧ (case1.portSt ↑3).seen = true ∧
  bit (fieldLe (case1.blob (oHelloSeen ↑3)) 4 1) 0 = true ∧
  case1.quiet.writeServed q (oAccept ↑3) (natLe 1 (1#8).toNat) = true ∧
  ((on []).planHeld = true ∨
    (on []).linkClass ↑1 = 0 ∨
      ((on []).portSt ↑1).seen = false ∨ bit (fieldLe ((on []).blob (oHelloSeen ↑1)) 4 1) 0 = false) ∧
  (on []).quiet.writeServed q (oAccept ↑1) (natLe 1 (1#8).toNat) = true ∧
  (on []).quiet.writeServed q oRtTelemetryClear (natLe 1 (1#8).toNat) = true ∧
  (on []).quiet.writeServed q (oDisable ↑1) (natLe 16 (1#128).toNat) = true := by
  decide +kernel

theorem test_met_MemoryAndTestWrites :
  (on [(oMemState, 2)]).quiet.writeServed q oMemVerified (natLe 1 (1#8).toNat) = true ∧
  (on [(oMemState, 2)]).quiet.writeServed q oEvidenceReset (natLe 1 (1#8).toNat) = true ∧
  case2.packFault pack2 = none ∧ case2.quiet.writeServed q oPackLoad pack2 = true ∧
  (on []).quiet.writeServed q oPackLoad pack2 = true ∧ (on []).packFault pack2 = some abSignature ∧
  case3.admitted = false ∧ ((case3.packs.any fun p => p.id == (9#32).toNat) = true) ∧
  case3.quiet.writeServed q oPackRemove (natLe 4 (9#32).toNat) = true ∧ (on [(oMemState, 2)]).planHeld = false ∧
  (on [(oMemState, 2)]).power.selfTest = false ∧ (on [(oMemState, 2)]).dom 44 = domOn ∧
  (on [(oMemState, 2)]).quiet.writeServed q oStRun (natLe 1 (1#8).toNat) = true ∧
  ((admittedWith plan0 true []).planHeld = true ∨
    (admittedWith plan0 true []).power.selfTest = true ∨ (admittedWith plan0 true []).dom 44 ≠ domOn) ∧
  (admittedWith plan0 true []).quiet.writeServed q oStRun (natLe 1 (1#8).toNat) = true ∧
  (on [(oMemState, 2)]).quiet.writeServed q oSteStart (natLe 1 (1#8).toNat) = true ∧
  (on [(oMemState, 2)]).quiet.writeServed q oLedgerClear [1] = true ∧ (on [(oLcState, 3)]).obj oLcState = 3 ∧
  (on [(oLcState, 3)]).quiet.writeServed q oLedgerClear [2] = true ∧ ready.planState = 1 ∧
  (List.find? (fun g => g.num == (7#16).toNat) (parsePlan (ready.blob oPlanBlob)).regions = some case4) ∧
  ready.quiet.writeServed q oDigestRegion (natLe 2 (7#16).toNat) = true ∧
  ((on [(oMemState, 2)]).planHeld = true ∨
    (on [(oMemState, 2)]).planState = 0 ∨
      List.find? (fun g => g.num == (1#16).toNat) (parsePlan ((on [(oMemState, 2)]).blob oPlanBlob)).regions = none) ∧
  (on [(oMemState, 2)]).quiet.writeServed q oDigestRegion (natLe 2 (1#16).toNat) = true := by
  decide +kernel

theorem test_met_Reinitialisation :
  ((admittedWith plan0 true []).obj oPowerState = 1 ∨ (admittedWith plan0 true []).obj oPowerState = 2) ∧
  (admittedWith plan0 true []).quiet.writeServed q oReinit [1] = true ∧
  (admittedWith plan0 true []).quiet.writeServed q oReinit [4] = true ∧
  (admittedWith plan0 true []).quiet.writeServed q oReinit [2] = true ∧
  (admittedWith plan0 true []).quiet.writeServed q oReinit [3] = true ∧
  (on [(oPowerState, 3)]).obj oPowerState ≠ 1 ∧ (on [(oPowerState, 3)]).obj oPowerState ≠ 2 ∧
  (on [(oPowerState, 3)]).quiet.writeServed q oReinit [1] = true ∧
  (on [(oPowerState, 3)]).quiet.writeServed q oReinit [2] = true ∧
  (on [(oPowerState, 3)]).quiet.writeServed q oReinit [3] = true ∧
  (on [(oPowerState, 3)]).quiet.writeServed q oReinit [4] = true ∧ case6.power.reinit = some case5 ∧
  (((match fnOfCode case5.fn with
        | some f => fnDomains f
        | none => []).all
      fun d => case6.dom d != domCapped && case6.dom d != domWaking) =
    true) ∧
  (∀ (r : Reinit),
    (admittedWith plan0 true []).power.reinit = some r →
      ((match fnOfCode r.fn with
            | some f => fnDomains f
            | none => []).all
          fun d => (admittedWith plan0 true []).dom d != domCapped && (admittedWith plan0 true []).dom d != domWaking) =
        false) := by
  decide +kernel

theorem test_met_LifeCycle :
  (on []).planHeld = false ∧ (on []).obj oLcState = 0 ∧ (on []).quiet.writeServed case7 oLcAdvance [1] = true ∧
  case8.planHeld = false ∧ case8.obj oLcState = 1 ∧ List.isEmpty (case8.blob oIdCertChain) = false ∧
  case8.quiet.writeServed case7 oLcAdvance [2] = true ∧ fieldLe token3 4 1 = 3 ∧ case9.planHeld = false ∧
  case9.obj oLcState = 2 ∧ case9.tokenValid token3 = true ∧
  case9.quiet.writeServed case7 oLcRequest token3 = true ∧ fieldLe (token 2) 4 1 = 2 ∧
  (on [(oLcState, 3)]).planHeld = false ∧ (on [(oLcState, 3)]).obj oLcState = 3 ∧
  (on [(oLcState, 3)]).quiet.writeServed case7 oLcRequest (token 2) = true ∧ fieldLe token4 4 1 = 4 ∧
  1 ≤ (withVendor vendor4 (on [(oLcState, 3), (oSerialDigest, 1), (oLcNonce, 85)])).obj oLcState ∧
  (withVendor vendor4 (on [(oLcState, 3), (oSerialDigest, 1), (oLcNonce, 85)])).obj oLcState ≤ 3 ∧
  (withVendor vendor4 (on [(oLcState, 3), (oSerialDigest, 1), (oLcNonce, 85)])).tokenValid token4 = true ∧
  (withVendor vendor4 (on [(oLcState, 3), (oSerialDigest, 1), (oLcNonce, 85)])).quiet.writeServed case7 oLcRequest
      token4 =
    true ∧
  (case8.planHeld = true ∨ case8.obj oLcState ≠ 0) ∧ case8.quiet.writeServed case7 oLcAdvance [1] = true ∧
  ((on []).planHeld = true ∨ (on []).obj oLcState ≠ 1 ∨ List.isEmpty ((on []).blob oIdCertChain) = true) ∧
  (on []).quiet.writeServed case7 oLcAdvance [2] = true ∧
  (Instr.lcRequestDiag q (token 3) ∈
    [Instr.lcRequestDiag q (token 3), Instr.lcRequestDeployed q (token 3), Instr.lcRequestRetire q (token 3)]) ∧
  fieldLe (token 3) 4 1 ≠ 4 ∧ (admittedWith plan0 true [(oLcState, 2), (oSerialDigest, 1)]).planHeld = true ∧
  (admittedWith plan0 true [(oLcState, 2), (oSerialDigest, 1)]).quiet.writeServed q oLcRequest (token 3) = true ∧
  (fieldLe (token 3) 4 1 = 4 ∨ (on [(oLcState, 1), (oSerialDigest, 1)]).planHeld = false) ∧
  (¬ (fieldLe (token 3) 4 1 = 3 ∧ (on [(oLcState, 1), (oSerialDigest, 1)]).obj oLcState = 2 ∨
      fieldLe (token 3) 4 1 = 2 ∧ (on [(oLcState, 1), (oSerialDigest, 1)]).obj oLcState = 3 ∨
        fieldLe (token 3) 4 1 = 4 ∧
          1 ≤ (on [(oLcState, 1), (oSerialDigest, 1)]).obj oLcState ∧
            (on [(oLcState, 1), (oSerialDigest, 1)]).obj oLcState ≤ 3)) ∧
  (on [(oLcState, 1), (oSerialDigest, 1)]).quiet.writeServed q oLcRequest (token 3) = true ∧
  (fieldLe (token 3) 4 1 = 3 ∧
      (on [(oLcState, 2), (oSerialDigest, 1)]).obj oLcState = 2 ∧
        (on [(oLcState, 2), (oSerialDigest, 1)]).planHeld = false ∨
    fieldLe (token 3) 4 1 = 4 ∧
      1 ≤ (on [(oLcState, 2), (oSerialDigest, 1)]).obj oLcState ∧
        (on [(oLcState, 2), (oSerialDigest, 1)]).obj oLcState ≤ 3) ∧
  (on [(oLcState, 2), (oSerialDigest, 1)]).tokenValid (token 3) = false ∧
  (on [(oLcState, 2), (oSerialDigest, 1)]).quiet.writeServed q oLcRequest (token 3) = true := by
  decide +kernel

theorem test_met_FirmwareCommands :
  (withVendor vendorImage (on [(oFwSvnFuse, 1)])).imageFault image = none ∧
  (withVendor vendorImage (on [(oFwSvnFuse, 1)])).quiet.writeServed q oFwStage image = true ∧
  (withVendor vendor4 (on [(oFwSvnFuse, 1)])).quiet.writeServed q oFwStage image = true ∧
  (withVendor vendor4 (on [(oFwSvnFuse, 1)])).imageFault image = some abSignature ∧ case10.planHeld = false ∧
  case10.power.staged.isSome = true ∧ case10.quiet.writeServed q oFwActivate (natLe 1 (1#8).toNat) = true ∧
  ((withVendor vendorImage (on [(oFwSvnFuse, 1)])).planHeld = true ∨
    (withVendor vendorImage (on [(oFwSvnFuse, 1)])).power.staged = none) ∧
  (withVendor vendorImage (on [(oFwSvnFuse, 1)])).quiet.writeServed q oFwActivate (natLe 1 (1#8).toNat) = true ∧
  case135.power.copying = true ∧ case135.power.staged = some case134 ∧ case11.power.boot = Boot.verifying ∧
  case11.power.flash.good = true ∧ case11.obj oFwSvnFuse ≤ case11.power.flash.svn ∧
  case12.power.boot = Boot.verifying ∧
  (case12.power.flash.good = false ∨ case12.power.flash.svn < case12.obj oFwSvnFuse) := by
  decide +kernel

theorem test_met_PowerWrites :
  (on [(oDomainState 3, 0), (oPowerState, 3)]).obj oPowerState = 3 ∧
  (on [(oDomainState 3, 0), (oPowerState, 3)]).quiet.writeServed q oPowerRequest [1] = true ∧
  ((on [(oPowerState, 4)]).obj oPowerState = 4 ∨ (on [(oPowerState, 4)]).obj oPowerState = 5) ∧
  (on [(oPowerState, 4)]).power.copying = false ∧
  (on [(oPowerState, 4)]).quiet.writeServed q oPowerRequest [1] = true ∧
  ((on []).obj oPowerState < 3 ∨ 5 < (on []).obj oPowerState) ∧
  (on []).quiet.writeServed q oPowerRequest [1] = true ∧
  ((on [(oDomainState 3, 0), (oPowerState, 3)]).planHeld = true ∨
    (on [(oDomainState 3, 0), (oPowerState, 3)]).obj oBridgeRole = 1 ∨
      (on [(oDomainState 3, 0), (oPowerState, 3)]).obj oPowerState ≠ 1) ∧
  (on [(oDomainState 3, 0), (oPowerState, 3)]).quiet.writeServed q oPowerRequest [3] = true ∧
  ((admittedWith plan0 true []).planHeld = true ∨
    (admittedWith plan0 true []).obj oBridgeRole = 1 ∨
      (admittedWith plan0 true []).obj oPowerState ≠ 1 ∧ (admittedWith plan0 true []).obj oPowerState ≠ 3) ∧
  (admittedWith plan0 true []).quiet.writeServed q oPowerRequest [4] = true ∧ (on []).planHeld = false ∧
  (on []).obj oBridgeRole ≠ 1 ∧ (on []).obj oPowerState = 1 ∧
  (on []).quiet.writeServed q oPowerRequest [3] = true ∧
  (on [(oDomainState 3, 0), (oPowerState, 3)]).planHeld = false ∧
  (on [(oDomainState 3, 0), (oPowerState, 3)]).obj oBridgeRole ≠ 1 ∧
  ((on [(oDomainState 3, 0), (oPowerState, 3)]).obj oPowerState = 1 ∨
    (on [(oDomainState 3, 0), (oPowerState, 3)]).obj oPowerState = 3) ∧
  (on [(oDomainState 3, 0), (oPowerState, 3)]).quiet.writeServed q oPowerRequest [4] = true ∧
  (on []).power.selfTest = false ∧ (on []).quiet.writeServed q oShutdown (natLe 1 (1#8).toNat) = true ∧
  ((on [(oDomainState 3, 0), (oPowerState, 3)]).obj oPowerState ≠ 1 ∨
    (on [(oDomainState 3, 0), (oPowerState, 3)]).power.selfTest = true) ∧
  (on [(oDomainState 3, 0), (oPowerState, 3)]).quiet.writeServed q oShutdown (natLe 1 (1#8).toNat) = true ∧
  (on [(oDomainState 3, 0), (oPowerState, 3)]).power.copying = false ∧
  (on [(oDomainState 3, 0), (oPowerState, 3)]).quiet.writeServed q oWarmReset (natLe 1 (1#8).toNat) = true ∧
  case192.power.copying = true ∧ case192.quiet.writeServed q oWarmReset (natLe 1 (1#8).toNat) = true := by
  decide +kernel

theorem test_met_CoreRegisters :
  3 ≠ 0 ∧ 9 ≠ 3 := by
  decide +kernel

theorem test_met_CoreAccesses :
  (coreWith 1 0 0 CoreSt.init).coreReady acc = true ∧
  ((coreWith 1 0 0 CoreSt.init).core (coreKey ↑acc.die ↑acc.cluster)).x ↑acc.rs1 = 0 ∧
  (coreWith 1 1 0 CoreSt.init).coreReady acc = true ∧
  ((coreWith 1 1 0 CoreSt.init).core (coreKey ↑acc.die ↑acc.cluster)).x ↑acc.rs1 = 1 ∧
  (coreWith 1 2 0 CoreSt.init).coreReady acc = true ∧
  ((coreWith 1 2 0 CoreSt.init).core (coreKey ↑acc.die ↑acc.cluster)).x ↑acc.rs1 = 2 ∧
  (coreWith 1 3 0 CoreSt.init).coreReady acc = true ∧
  ((coreWith 1 3 0 CoreSt.init).core (coreKey ↑acc.die ↑acc.cluster)).x ↑acc.rs1 = 3 ∧
  case13.coreReady acc = true ∧ 3 < (case13.core (coreKey ↑acc.die ↑acc.cluster)).x ↑acc.rs1 ∧
  (64 ≤ (case13.core (coreKey ↑acc.die ↑acc.cluster)).x ↑acc.rs1 ∨
    ((case13.core (coreKey ↑acc.die ↑acc.cluster)).slot ((case13.core (coreKey ↑acc.die ↑acc.cluster)).x ↑acc.rs1)).field
        ((case13.core (coreKey ↑acc.die ↑acc.cluster)).x ↑acc.rs2) =
      none) ∧
  ((coreWith 1 0 0 CoreSt.init).core (coreKey ↑acc.die ↑acc.cluster)).x ↑acc.rs1 < 64 ∧
  (((coreWith 1 0 0 CoreSt.init).core (coreKey ↑acc.die ↑acc.cluster)).slot
          (((coreWith 1 0 0 CoreSt.init).core (coreKey ↑acc.die ↑acc.cluster)).x ↑acc.rs1)).field
      (((coreWith 1 0 0 CoreSt.init).core (coreKey ↑acc.die ↑acc.cluster)).x ↑acc.rs2) =
    some 0 ∧
  ((coreWith 1 0 0 CoreSt.init).core (coreKey ↑acc.die ↑acc.cluster)).x ↑acc.rs2 ≤
    (((coreWith 1 0 0 CoreSt.init).core (coreKey ↑acc.die ↑acc.cluster)).slot
        (((coreWith 1 0 0 CoreSt.init).core (coreKey ↑acc.die ↑acc.cluster)).x ↑acc.rs1)).contrib ∧
  (coreWith 1 0 0 CoreSt.init).slotsIdle (coreKey ↑acc.die ↑acc.cluster)
      (((coreWith 1 0 0 CoreSt.init).core (coreKey ↑acc.die ↑acc.cluster)).x ↑acc.rs2 % 2 ^ 12) =
    true ∧
  case14.coreReady acc = true ∧
  case14.slotsIdle (coreKey ↑acc.die ↑acc.cluster) ((case14.core (coreKey ↑acc.die ↑acc.cluster)).x ↑acc.rs2 % 2 ^ 12) =
    false ∧
  (coreWith 1 0 6 CoreSt.init).coreReady acc = true ∧
  (((coreWith 1 0 6 CoreSt.init).core (coreKey ↑acc.die ↑acc.cluster)).slot
        (((coreWith 1 0 6 CoreSt.init).core (coreKey ↑acc.die ↑acc.cluster)).x ↑acc.rs1)).contrib <
    ((coreWith 1 0 6 CoreSt.init).core (coreKey ↑acc.die ↑acc.cluster)).x ↑acc.rs2 ∧
  (18 ∈ [1, 2, 17, 18]) ∧
  fieldLe
      (memRead (case13.core (coreKey ↑acc.die ↑acc.cluster)).dmem
        ((case13.core (coreKey ↑acc.die ↑acc.cluster)).x ↑acc.rs1) 64)
      0 1 =
    18 ∧
  (case13.core (coreKey ↑acc.die ↑acc.cluster)).x ↑acc.rs2 ≤ 11 ∧
  (case13.core (coreKey ↑acc.die ↑acc.cluster)).x ↑acc.rs1 % 64 = 0 ∧
  inDmem ((case13.core (coreKey ↑acc.die ↑acc.cluster)).x ↑acc.rs1) 64 = true ∧
  (18 = 1 ∨ 18 = 17 →
    case13.borrowed (coreKey ↑acc.die ↑acc.cluster) ((case13.core (coreKey ↑acc.die ↑acc.cluster)).x ↑acc.rs2) = false) ∧
  fifoRoom (case13.eng (engKey (↑acc.die) (↑acc.cluster * 12 + (case13.core (coreKey ↑acc.die ↑acc.cluster)).x ↑acc.rs2)))
      18 =
    false ∧
  (case133.core (coreKey ↑0 ↑0)).wait = some (CoreWait.idle 1) ∧
  case133.waitMet (coreKey ↑0 ↑0) (CoreWait.idle 1) = true ∧
  (∀ (w : CoreWait),
    ((coreWith 1 0 0 CoreSt.init).core (coreKey ↑0 ↑0)).wait = some w →
      (coreWith 1 0 0 CoreSt.init).waitMet (coreKey ↑0 ↑0) w = false) ∧
  (coreWith 1 0 0 CoreSt.init).retires case15 = true ∧ case15.agree = true := by
  decide +kernel

theorem test_met_IssueEntersFifo :
  case175.coreReady acc = true ∧ (case175.core (coreKey ↑acc.die ↑acc.cluster)).x ↑acc.rs2 ≤ 11 ∧
  (case175.core (coreKey ↑acc.die ↑acc.cluster)).x ↑acc.rs1 % 64 = 0 ∧
  inDmem ((case175.core (coreKey ↑acc.die ↑acc.cluster)).x ↑acc.rs1) 64 = true ∧
  (fieldLe
      (memRead (case175.core (coreKey ↑acc.die ↑acc.cluster)).dmem
        ((case175.core (coreKey ↑acc.die ↑acc.cluster)).x ↑acc.rs1) 64)
      0 1 ∈
    [1, 2, 17, 18]) ∧
  (fieldLe
        (memRead (case175.core (coreKey ↑acc.die ↑acc.cluster)).dmem
          ((case175.core (coreKey ↑acc.die ↑acc.cluster)).x ↑acc.rs1) 64)
        0 1 =
      1 ∨
    fieldLe
        (memRead (case175.core (coreKey ↑acc.die ↑acc.cluster)).dmem
          ((case175.core (coreKey ↑acc.die ↑acc.cluster)).x ↑acc.rs1) 64)
        0 1 =
      17) ∧
  case175.borrowed (coreKey ↑acc.die ↑acc.cluster) ((case175.core (coreKey ↑acc.die ↑acc.cluster)).x ↑acc.rs2) = true ∧
  (coreOn planItems 65536 0 fillDesc).coreReady acc = true ∧
  ((coreOn planItems 65536 0 fillDesc).core (coreKey ↑acc.die ↑acc.cluster)).x ↑acc.rs2 ≤ 11 ∧
  ((coreOn planItems 65536 0 fillDesc).core (coreKey ↑acc.die ↑acc.cluster)).x ↑acc.rs1 % 64 = 0 ∧
  inDmem (((coreOn planItems 65536 0 fillDesc).core (coreKey ↑acc.die ↑acc.cluster)).x ↑acc.rs1) 64 = true ∧
  (fieldLe
      (memRead ((coreOn planItems 65536 0 fillDesc).core (coreKey ↑acc.die ↑acc.cluster)).dmem
        (((coreOn planItems 65536 0 fillDesc).core (coreKey ↑acc.die ↑acc.cluster)).x ↑acc.rs1) 64)
      0 1 ∈
    [1, 2, 17, 18]) ∧
  (fieldLe
          (memRead ((coreOn planItems 65536 0 fillDesc).core (coreKey ↑acc.die ↑acc.cluster)).dmem
            (((coreOn planItems 65536 0 fillDesc).core (coreKey ↑acc.die ↑acc.cluster)).x ↑acc.rs1) 64)
          0 1 =
        1 ∨
      fieldLe
          (memRead ((coreOn planItems 65536 0 fillDesc).core (coreKey ↑acc.die ↑acc.cluster)).dmem
            (((coreOn planItems 65536 0 fillDesc).core (coreKey ↑acc.die ↑acc.cluster)).x ↑acc.rs1) 64)
          0 1 =
        17 →
    (coreOn planItems 65536 0 fillDesc).borrowed (coreKey ↑acc.die ↑acc.cluster)
        (((coreOn planItems 65536 0 fillDesc).core (coreKey ↑acc.die ↑acc.cluster)).x ↑acc.rs2) =
      false) ∧
  fifoRoom
      ((coreOn planItems 65536 0 fillDesc).eng
        (engKey (↑acc.die)
          (↑acc.cluster * 12 + ((coreOn planItems 65536 0 fillDesc).core (coreKey ↑acc.die ↑acc.cluster)).x ↑acc.rs2)))
      (fieldLe
        (memRead ((coreOn planItems 65536 0 fillDesc).core (coreKey ↑acc.die ↑acc.cluster)).dmem
          (((coreOn planItems 65536 0 fillDesc).core (coreKey ↑acc.die ↑acc.cluster)).x ↑acc.rs1) 64)
        0 1) =
    true ∧
  (coreOn planItems 65536 0 fillDesc).coverItem
      (fieldLe
        (memRead ((coreOn planItems 65536 0 fillDesc).core (coreKey ↑acc.die ↑acc.cluster)).dmem
          (((coreOn planItems 65536 0 fillDesc).core (coreKey ↑acc.die ↑acc.cluster)).x ↑acc.rs1) 64)
        0 1)
      (↑acc.die)
      (↑acc.cluster * 12 + ((coreOn planItems 65536 0 fillDesc).core (coreKey ↑acc.die ↑acc.cluster)).x ↑acc.rs2)
      (memRead ((coreOn planItems 65536 0 fillDesc).core (coreKey ↑acc.die ↑acc.cluster)).dmem
        (((coreOn planItems 65536 0 fillDesc).core (coreKey ↑acc.die ↑acc.cluster)).x ↑acc.rs1) 64) =
    some case16 ∧
  (coreOn planItems 65536 0 vecDesc).coreReady acc = true ∧
  ((coreOn planItems 65536 0 vecDesc).core (coreKey ↑acc.die ↑acc.cluster)).x ↑acc.rs2 ≤ 11 ∧
  ((coreOn planItems 65536 0 vecDesc).core (coreKey ↑acc.die ↑acc.cluster)).x ↑acc.rs1 % 64 = 0 ∧
  inDmem (((coreOn planItems 65536 0 vecDesc).core (coreKey ↑acc.die ↑acc.cluster)).x ↑acc.rs1) 64 = true ∧
  (fieldLe
      (memRead ((coreOn planItems 65536 0 vecDesc).core (coreKey ↑acc.die ↑acc.cluster)).dmem
        (((coreOn planItems 65536 0 vecDesc).core (coreKey ↑acc.die ↑acc.cluster)).x ↑acc.rs1) 64)
      0 1 ∈
    [1, 2, 17, 18]) ∧
  (fieldLe
          (memRead ((coreOn planItems 65536 0 vecDesc).core (coreKey ↑acc.die ↑acc.cluster)).dmem
            (((coreOn planItems 65536 0 vecDesc).core (coreKey ↑acc.die ↑acc.cluster)).x ↑acc.rs1) 64)
          0 1 =
        1 ∨
      fieldLe
          (memRead ((coreOn planItems 65536 0 vecDesc).core (coreKey ↑acc.die ↑acc.cluster)).dmem
            (((coreOn planItems 65536 0 vecDesc).core (coreKey ↑acc.die ↑acc.cluster)).x ↑acc.rs1) 64)
          0 1 =
        17 →
    (coreOn planItems 65536 0 vecDesc).borrowed (coreKey ↑acc.die ↑acc.cluster)
        (((coreOn planItems 65536 0 vecDesc).core (coreKey ↑acc.die ↑acc.cluster)).x ↑acc.rs2) =
      false) ∧
  fifoRoom
      ((coreOn planItems 65536 0 vecDesc).eng
        (engKey (↑acc.die)
          (↑acc.cluster * 12 + ((coreOn planItems 65536 0 vecDesc).core (coreKey ↑acc.die ↑acc.cluster)).x ↑acc.rs2)))
      (fieldLe
        (memRead ((coreOn planItems 65536 0 vecDesc).core (coreKey ↑acc.die ↑acc.cluster)).dmem
          (((coreOn planItems 65536 0 vecDesc).core (coreKey ↑acc.die ↑acc.cluster)).x ↑acc.rs1) 64)
        0 1) =
    true ∧
  (coreOn planItems 65536 0 vecDesc).coverItem
      (fieldLe
        (memRead ((coreOn planItems 65536 0 vecDesc).core (coreKey ↑acc.die ↑acc.cluster)).dmem
          (((coreOn planItems 65536 0 vecDesc).core (coreKey ↑acc.die ↑acc.cluster)).x ↑acc.rs1) 64)
        0 1)
      (↑acc.die)
      (↑acc.cluster * 12 + ((coreOn planItems 65536 0 vecDesc).core (coreKey ↑acc.die ↑acc.cluster)).x ↑acc.rs2)
      (memRead ((coreOn planItems 65536 0 vecDesc).core (coreKey ↑acc.die ↑acc.cluster)).dmem
        (((coreOn planItems 65536 0 vecDesc).core (coreKey ↑acc.die ↑acc.cluster)).x ↑acc.rs1) 64) =
    none := by
  decide +kernel

theorem test_met_CoreQueuesAndNotes :
  (coreOn planItems 5 65536 []).coreReady acc = true ∧
  (coreOn planItems 5 65536 []).queue? (((coreOn planItems 5 65536 []).core (coreKey ↑acc.die ↑acc.cluster)).x ↑acc.rs1) =
    some case17 ∧
  (case17.kind = 0 ∨ case17.kind = 3) ∧ case17.consumer = coreKey ↑acc.die ↑acc.cluster ∧
  inDmem (((coreOn planItems 5 65536 []).core (coreKey ↑acc.die ↑acc.cluster)).x ↑acc.rs2) 64 = true ∧
  ((coreOn planItems 5 65536 []).ring
        (((coreOn planItems 5 65536 []).core (coreKey ↑acc.die ↑acc.cluster)).x ↑acc.rs1)).pi =
    ((coreOn planItems 5 65536 []).ring
        (((coreOn planItems 5 65536 []).core (coreKey ↑acc.die ↑acc.cluster)).x ↑acc.rs1)).ci ∧
  case18.coreReady acc = true ∧
  case18.queue? ((case18.core (coreKey ↑acc.die ↑acc.cluster)).x ↑acc.rs1) = some case17 ∧
  inDmem ((case18.core (coreKey ↑acc.die ↑acc.cluster)).x ↑acc.rs2) 64 = true ∧
  (case18.ring ((case18.core (coreKey ↑acc.die ↑acc.cluster)).x ↑acc.rs1)).pi ≠
    (case18.ring ((case18.core (coreKey ↑acc.die ↑acc.cluster)).x ↑acc.rs1)).ci ∧
  case19.coreReady acc = true ∧ (case19.core (coreKey ↑acc.die ↑acc.cluster)).noted = true ∧
  ((coreOn planItems 5 65536 []).core (coreKey ↑acc.die ↑acc.cluster)).noted = false ∧
  (List.find? (fun x => x.die == ↑0 && x.cluster == ↑0) case149.merges = some case148) := by
  decide +kernel

theorem test_met_CoreTraps :
  3 < 16 ∧ (admittedWith plan0 true [(oCoreState 3, 1)]).admitted = true ∧
  (admittedWith plan0 true [(oCoreState 3, 1)]).coreState 3 ≠ 4 ∧ 3 < 256 ∧
  case21.coreRuns (coreKey ↑case20.die ↑case20.cluster) = true ∧
  (case22 ∈
    [Instr.ccIssue case20, Instr.ccQtake case20, Instr.ccSumrd case20, Instr.ccSumwait case20, Instr.ccSumclr case20,
      Instr.ccBeat case20, Instr.ccWaitBoundary case20, Instr.ccWaitIdle case20, Instr.ccNote case20]) ∧
  65536 ≤ (case21.core (coreKey ↑case20.die ↑case20.cluster)).pc ∧
  (coreWith 1 0 0 CoreSt.init).coreRuns (coreKey ↑case20.die ↑case20.cluster) = true ∧
  ((coreWith 1 0 0 CoreSt.init).core (coreKey ↑case20.die ↑case20.cluster)).pc < 65536 ∧ (case20.funct7 ≠ 0) ∧
  (coreWith 1 0 12 CoreSt.init).coreRuns (coreKey ↑case150.die ↑case150.cluster) = true ∧
  (case151 ∈
    [Instr.ccIssue case150, Instr.ccQtake case150, Instr.ccSumrd case150, Instr.ccSumwait case150, Instr.ccSumclr case150,
      Instr.ccBeat case150, Instr.ccWaitBoundary case150, Instr.ccWaitIdle case150, Instr.ccNote case150]) ∧
  ((coreWith 1 0 12 CoreSt.init).core (coreKey ↑case150.die ↑case150.cluster)).pc < 65536 ∧
  (case150.funct7 = 0) ∧ case150.agree = false ∧ (coreWith 1 0 12 CoreSt.init).coreReady acc = true ∧
  11 < ((coreWith 1 0 12 CoreSt.init).core (coreKey ↑acc.die ↑acc.cluster)).x ↑acc.rs2 ∧
  (coreWith 1 1 0 CoreSt.init).coreReady acc = true ∧
  ((coreWith 1 1 0 CoreSt.init).core (coreKey ↑acc.die ↑acc.cluster)).x ↑acc.rs2 ≤ 11 ∧
  ((coreWith 1 1 0 CoreSt.init).core (coreKey ↑acc.die ↑acc.cluster)).x ↑acc.rs1 % 64 ≠ 0 ∧
  (coreWith 1 0 0 CoreSt.init).coreReady acc = true ∧
  ((coreWith 1 0 0 CoreSt.init).core (coreKey ↑acc.die ↑acc.cluster)).x ↑acc.rs2 ≤ 11 ∧
  ((coreWith 1 0 0 CoreSt.init).core (coreKey ↑acc.die ↑acc.cluster)).x ↑acc.rs1 % 64 = 0 ∧
  inDmem (((coreWith 1 0 0 CoreSt.init).core (coreKey ↑acc.die ↑acc.cluster)).x ↑acc.rs1) 64 = false ∧
  (coreWith 1 65536 0 CoreSt.init).coreReady acc = true ∧
  ((coreWith 1 65536 0 CoreSt.init).core (coreKey ↑acc.die ↑acc.cluster)).x ↑acc.rs2 ≤ 11 ∧
  ((coreWith 1 65536 0 CoreSt.init).core (coreKey ↑acc.die ↑acc.cluster)).x ↑acc.rs1 % 64 = 0 ∧
  inDmem (((coreWith 1 65536 0 CoreSt.init).core (coreKey ↑acc.die ↑acc.cluster)).x ↑acc.rs1) 64 = true ∧
  (¬ fieldLe
        (memRead ((coreWith 1 65536 0 CoreSt.init).core (coreKey ↑acc.die ↑acc.cluster)).dmem
          (((coreWith 1 65536 0 CoreSt.init).core (coreKey ↑acc.die ↑acc.cluster)).x ↑acc.rs1) 64)
        0 1 ∈
      [1, 2, 17, 18]) ∧
  (coreWith 1 0 12 CoreSt.init).queue?
          (((coreWith 1 0 12 CoreSt.init).core (coreKey ↑acc.die ↑acc.cluster)).x ↑acc.rs1) = none := by
  decide +kernel

theorem test_met_CoreTraps_2 :
  (coreOn planItems 5 0 []).coreReady acc = true ∧
  (coreOn planItems 5 0 []).queue? (((coreOn planItems 5 0 []).core (coreKey ↑acc.die ↑acc.cluster)).x ↑acc.rs1) =
    some case17 ∧
  (case17.kind = 0 ∨ case17.kind = 3) ∧ case17.consumer = coreKey ↑acc.die ↑acc.cluster ∧
  inDmem (((coreOn planItems 5 0 []).core (coreKey ↑acc.die ↑acc.cluster)).x ↑acc.rs2) 64 = false ∧
  case21.coreRuns (coreKey ↑case15.die ↑case15.cluster) = true ∧
  65536 ≤ (case21.core (coreKey ↑case15.die ↑case15.cluster)).pc ∧
  (coreWith 1 0 12 CoreSt.init).coreRuns (coreKey ↑case152.die ↑case152.cluster) = true ∧
  ((coreWith 1 0 12 CoreSt.init).core (coreKey ↑case152.die ↑case152.cluster)).pc < 65536 ∧
  case152.trap = some 2#8 ∧
  (coreWith 1 0 12 CoreSt.init).coreRuns (coreKey ↑case153.die ↑case153.cluster) = true ∧
  ((coreWith 1 0 12 CoreSt.init).core (coreKey ↑case153.die ↑case153.cluster)).pc < 65536 ∧
  case153.trap = none ∧ (Option.any (fun l => !inDmem (BitVec.toNat l.fst) ↑l.snd) case153.loadAt = true) ∧
  (coreWith 1 0 12 CoreSt.init).coreRuns (coreKey ↑case154.die ↑case154.cluster) = true ∧
  ((coreWith 1 0 12 CoreSt.init).core (coreKey ↑case154.die ↑case154.cluster)).pc < 65536 ∧
  case154.trap = none ∧ (Option.all (fun l => inDmem (BitVec.toNat l.fst) ↑l.snd) case154.loadAt = true) ∧
  (Option.any (fun l => !inDmem (BitVec.toNat l.fst) (List.length l.snd)) case154.storeAt = true) ∧
  (coreWith 1 0 12 CoreSt.init).coreRuns (coreKey ↑case155.die ↑case155.cluster) = true ∧
  (coreWith 1 0 12 CoreSt.init).retires case155 = true ∧ case155.agree = false ∧
  ((admittedWith plan0 true [(oCoreState 3, 1)]).core 3).locksteps = 0 := by
  decide +kernel

theorem test_met_FillsAndSlices :
  (case23.eng (engKey ↑0 ↑0)).fills = [] ∧ (case25.eng (engKey ↑0 ↑0)).fills = [case24] ∧
  case25.runsVoid (engKey ↑0 ↑0) case24 = true ∧ (case26.eng (engKey ↑0 ↑0)).fills = [queued (zeros 64)] ∧
  case26.runsVoid (engKey ↑0 ↑0) (queued (zeros 64)) = false ∧ (case26.eng (engKey ↑0 ↑0)).fillPages = 0 ∧
  fillBad (queued (zeros 64)).bytes ≠ 0 ∧ (case157.eng (engKey ↑0 ↑0)).fills = [queued fillDesc] ∧
  case157.runsVoid (engKey ↑0 ↑0) (queued fillDesc) = false ∧
  ((case157.eng (engKey ↑0 ↑0)).fillPages ≠ 0 ∨ fillBad (queued fillDesc).bytes = 0) ∧
  (bufLine (fillD (queued fillDesc).bytes).line (fillD (queued fillDesc).bytes).ring
        (fillPage (case157.eng (engKey ↑0 ↑0)) (fillD (queued fillDesc).bytes)
            (case157.eng (engKey ↑0 ↑0)).fillPages).fst /
      64 ∈
    (case157.eng (engKey ↑0 ↑0)).valid) ∧
  (case27.eng (engKey ↑0 ↑0)).fills = [queued fillDesc] ∧
  case27.runsVoid (engKey ↑0 ↑0) (queued fillDesc) = false ∧
  ((case27.eng (engKey ↑0 ↑0)).fillPages ≠ 0 ∨ fillBad (queued fillDesc).bytes = 0) ∧
  (¬ bufLine (fillD (queued fillDesc).bytes).line (fillD (queued fillDesc).bytes).ring
          (fillPage (case27.eng (engKey ↑0 ↑0)) (fillD (queued fillDesc).bytes)
              (case27.eng (engKey ↑0 ↑0)).fillPages).fst /
        64 ∈
      (case27.eng (engKey ↑0 ↑0)).valid) ∧
  1 ≠ engKey ↑0 ↑0 ∧ (case23.eng (engKey ↑0 ↑0)).slice = none ∧
  (case23.eng (engKey ↑0 ↑0)).slices = [queued (matDesc 0)] ∧
  case23.runsVoid (engKey ↑0 ↑0) (queued (matDesc 0)) = false ∧
  case23.matrixBad (engKey ↑0 ↑0) (queued (matDesc 0)).bytes = 0 ∧
  ((matrixD (queued (matDesc 0)).bytes).cont = true ∨
    ((case23.eng (engKey ↑0 ↑0)).tile (matrixD (queued (matDesc 0)).bytes).tile).phase < 2) ∧
  (panelReady (case23.eng (engKey ↑0 ↑0)) (matrixD (queued (matDesc 0)).bytes).aLine
        (matrixD (queued (matDesc 0)).bytes).aRing (matrixD (queued (matDesc 0)).bytes).fa
        ((case23.eng (engKey ↑0 ↑0)).panels.get 0 (matrixD (queued (matDesc 0)).bytes).aLine) &&
      panelReady (case23.eng (engKey ↑0 ↑0)) (matrixD (queued (matDesc 0)).bytes).bLine
        (matrixD (queued (matDesc 0)).bytes).bRing (matrixD (queued (matDesc 0)).bytes).fb
        ((case23.eng (engKey ↑0 ↑0)).panels.get 0 (matrixD (queued (matDesc 0)).bytes).bLine)) =
    true ∧
  (case159.eng (engKey ↑0 ↑0)).slice = none ∧ (case159.eng (engKey ↑0 ↑0)).slices = [case158] ∧
  case159.runsVoid (engKey ↑0 ↑0) case158 = true ∧
  ((matrixD case158.bytes).cont = true ∨ ((case159.eng (engKey ↑0 ↑0)).tile (matrixD case158.bytes).tile).phase < 2) ∧
  (case160.eng (engKey ↑0 ↑0)).slice = none ∧ (case160.eng (engKey ↑0 ↑0)).slices = [queued (zeros 64)] ∧
  case160.runsVoid (engKey ↑0 ↑0) (queued (zeros 64)) = false ∧
  case160.matrixBad (engKey ↑0 ↑0) (queued (zeros 64)).bytes ≠ 0 := by
  decide +kernel

theorem test_met_FillsAndSlices_2 :
  (case161.eng (engKey ↑0 ↑0)).slice = none ∧ (case161.eng (engKey ↑0 ↑0)).slices = [queued (matDesc 0)] ∧
  (case161.runsVoid (engKey ↑0 ↑0) (queued (matDesc 0)) = true ∨
    case161.matrixBad (engKey ↑0 ↑0) (queued (matDesc 0)).bytes = 0) ∧
  ((matrixD (queued (matDesc 0)).bytes).cont = false ∧
      2 ≤ ((case161.eng (engKey ↑0 ↑0)).tile (matrixD (queued (matDesc 0)).bytes).tile).phase ∨
    case161.runsVoid (engKey ↑0 ↑0) (queued (matDesc 0)) = false ∧
      (panelReady (case161.eng (engKey ↑0 ↑0)) (matrixD (queued (matDesc 0)).bytes).aLine
            (matrixD (queued (matDesc 0)).bytes).aRing (matrixD (queued (matDesc 0)).bytes).fa
            ((case161.eng (engKey ↑0 ↑0)).panels.get 0 (matrixD (queued (matDesc 0)).bytes).aLine) &&
          panelReady (case161.eng (engKey ↑0 ↑0)) (matrixD (queued (matDesc 0)).bytes).bLine
            (matrixD (queued (matDesc 0)).bytes).bRing (matrixD (queued (matDesc 0)).bytes).fb
            ((case161.eng (engKey ↑0 ↑0)).panels.get 0 (matrixD (queued (matDesc 0)).bytes).bLine)) =
        false) ∧
  ((case25.eng (engKey ↑0 ↑0)).slice ≠ none ∨ (case25.eng (engKey ↑0 ↑0)).slices = []) ∧
  (case164.eng (engKey ↑0 ↑case162.engine)).slice = some case163 ∧
  (matrixD case163.desc).blocks ≤ case163.done ∧
  (case166.eng (engKey ↑0 ↑case162.engine)).slice = some case165 ∧
  case165.done < (matrixD case165.desc).blocks ∧ (case157.eng (engKey ↑0 ↑case162.engine)).slice = none := by
  decide +kernel

theorem test_met_DrainCommands :
  ((case28.eng (engKey ↑0 ↑0)).tile ↑0).phase = 2 ∧
  ((matrixD ((case28.eng (engKey ↑0 ↑0)).tile ↑0).desc).drain = 1 → ((case28.eng (engKey ↑0 ↑0)).plane ↑0).state = 0) ∧
  (((case29.eng (engKey ↑0 ↑0)).tile ↑0).phase ≠ 2 ∨
    (matrixD ((case29.eng (engKey ↑0 ↑0)).tile ↑0).desc).drain = 1 ∧ ((case29.eng (engKey ↑0 ↑0)).plane ↑0).state ≠ 0) ∧
  (strikeTile case156.errors ((case29.eng (engKey ↑0 ↑0)).tile ↑case156.tile)).phase = 3 ∧
  (strikeTile case156.errors (((on []).eng (engKey ↑0 ↑0)).tile ↑case156.tile)).phase ≠ 3 := by
  decide +kernel

theorem test_met_VloadsAndPrograms :
  (case31.eng (engKey ↑0 ↑0)).vloads = [case30] ∧ case31.runsVoidVec (engKey ↑0 ↑0) case30 = true ∧
  (case223.eng (engKey ↑0 ↑0)).vloads = [queued (zeros 64)] ∧
  case223.runsVoidVec (engKey ↑0 ↑0) (queued (zeros 64)) = false ∧ vloadBad (queued (zeros 64)).bytes ≠ 0 ∧
  (case224.eng (engKey ↑0 ↑0)).vloads = [queued vloadDesc] ∧
  case224.runsVoidVec (engKey ↑0 ↑0) (queued vloadDesc) = false ∧ vloadBad (queued vloadDesc).bytes = 0 ∧
  (vloadWaits (case224.eng (engKey ↑0 ↑0)) (queued vloadDesc) = true ∨
    (vloadD (queued vloadDesc).bytes).isPlane = true ∧
      ((case224.eng (engKey ↑0 ↑0)).plane (vloadD (queued vloadDesc).bytes).target).state ≠ 0) ∧
  (case32.eng (engKey ↑0 ↑0)).vloads = [queued vloadDesc] ∧
  case32.runsVoidVec (engKey ↑0 ↑0) (queued vloadDesc) = false ∧
  vloadWaits (case32.eng (engKey ↑0 ↑0)) (queued vloadDesc) = false ∧
  ((vloadD (queued vloadDesc).bytes).isPlane = true →
    ((case32.eng (engKey ↑0 ↑0)).plane (vloadD (queued vloadDesc).bytes).target).state = 0) ∧
  (case33.eng (engKey ↑0 ↑0)).vloads = [] ∧ (case33.eng (engKey ↑0 ↑0)).run = none ∧
  (case33.eng (engKey ↑0 ↑0)).vectors = [queued vecDesc] ∧
  case33.runsVoidVec (engKey ↑0 ↑0) (queued vecDesc) = false ∧
  ((case33.eng (engKey ↑0 ↑0)).plane (vectorD (queued vecDesc).bytes).plane).state = 2 ∧
  vectorWaits (case33.eng (engKey ↑0 ↑0)) (queued vecDesc) = false ∧
  (case33.vectorBad (engKey ↑0 ↑0) (queued vecDesc).bytes).fst = 0 ∧ (case226.eng (engKey ↑0 ↑0)).run = none ∧
  (case226.eng (engKey ↑0 ↑0)).vectors = [case225] ∧ case226.runsVoidVec (engKey ↑0 ↑0) case225 = true ∧
  (case227.eng (engKey ↑0 ↑0)).run = none ∧ (case227.eng (engKey ↑0 ↑0)).vectors = [queued vecDesc] ∧
  case227.runsVoidVec (engKey ↑0 ↑0) (queued vecDesc) = false ∧
  ((case227.eng (engKey ↑0 ↑0)).plane (vectorD (queued vecDesc).bytes).plane).state = 2 ∧
  vectorWaits (case227.eng (engKey ↑0 ↑0)) (queued vecDesc) = false ∧
  (case227.vectorBad (engKey ↑0 ↑0) (queued vecDesc).bytes).fst ≠ 0 ∧ (case228.eng (engKey ↑0 ↑0)).run = none := by
  decide +kernel

theorem test_met_VloadsAndPrograms_2 :
  (case228.eng (engKey ↑0 ↑0)).vectors = [queued vecDesc] ∧
  case228.runsVoidVec (engKey ↑0 ↑0) (queued vecDesc) = false ∧
  (((case228.eng (engKey ↑0 ↑0)).plane (vectorD (queued vecDesc).bytes).plane).state ≠ 2 ∨
    vectorWaits (case228.eng (engKey ↑0 ↑0)) (queued vecDesc) = true) ∧
  ((case31.eng (engKey ↑0 ↑0)).run ≠ none ∨ (case31.eng (engKey ↑0 ↑0)).vectors = []) ∧
  (case35.eng (engKey ↑0 ↑0)).run = some case34 ∧ (case31.eng (engKey ↑0 ↑0)).run = none := by
  decide +kernel

theorem test_met_VerdictsAndEvidence :
  case214.gen = none ∧ List.find? (dueMatches case214) (on []).verdicts = none ∧
  List.find? (dueMatches case214) case216.verdicts = some case215 ∧ verdictFails case214 case215 = false ∧
  List.find? (dueMatches case214) case238.verdicts = some case237 ∧ verdictFails case214 case237 = true ∧
  case217.gen = some case218 ∧ (on []).step.running = false ∧ (admittedWith plan0 true []).step.running = true ∧
  (List.find? (fun x => x.die == ↑case219.die) case221.captures = some case220) ∧
  (List.find? (fun x => x.die == ↑case219.die) (on []).captures = none) ∧
  (List.find? (fun x => x.id == BitVec.toNat case222.pack) (on []).packs = none) ∧
  (List.find? (fun x => x.id == BitVec.toNat case36.pack) case37.packs = some case38) ∧
  case37.program? = some case39 ∧
  ((fun p g =>
        case37.idleCases && decide (BitVec.toNat case36.index < p.cases) &&
            caseUnitFree p g (↑case36.die) (BitVec.toNat case36.unit) &&
          case37.caseMayRun p (↑case36.die) (BitVec.toNat case36.unit))
      case38 case39 =
    true) ∧
  case36.passed = true ∧ (List.find? (fun x => x.id == BitVec.toNat case222.pack) case37.packs = some case38) ∧
  ((fun p g =>
        case37.idleCases && decide (BitVec.toNat case222.index < p.cases) &&
            caseUnitFree p g (↑case222.die) (BitVec.toNat case222.unit) &&
          case37.caseMayRun p (↑case222.die) (BitVec.toNat case222.unit))
      case38 case39 =
    true) ∧
  case222.passed = false ∧ case37.admitted = true := by
  decide +kernel

theorem test_met_ReadsAndWrites :
  case234.wholeMessage 1 case233 = true ∧ case234.memOut = false ∧ staleStep case234 case233 = false ∧
  case234.target case233 case233.addr (List.length case233.payload) true = some 4096 ∧
  case234.mayPut case233 4096 = true ∧
  case193.wholeMessage 1 (pkt 3 (BitVec.ofNat 192 (4096 * 2 ^ 64)) [1, 2, 3, 4]) = true ∧
  case193.memOut = false ∧ staleStep case193 (pkt 3 (BitVec.ofNat 192 (4096 * 2 ^ 64)) [1, 2, 3, 4]) = false ∧
  case193.target (pkt 3 (BitVec.ofNat 192 (4096 * 2 ^ 64)) [1, 2, 3, 4])
      (pkt 3 (BitVec.ofNat 192 (4096 * 2 ^ 64)) [1, 2, 3, 4]).addr
      (List.length (pkt 3 (BitVec.ofNat 192 (4096 * 2 ^ 64)) [1, 2, 3, 4]).payload) true =
    some 4096 ∧
  case193.mayPut (pkt 3 (BitVec.ofNat 192 (4096 * 2 ^ 64)) [1, 2, 3, 4]) 4096 = false ∧
  case193.wholeMessage 1 (pkt 3 (BitVec.ofNat 192 (1 + 9 * 2 ^ 16 + 4096 * 2 ^ 64)) [1, 2, 3, 4]) = true ∧
  staleStep case193 (pkt 3 (BitVec.ofNat 192 (1 + 9 * 2 ^ 16 + 4096 * 2 ^ 64)) [1, 2, 3, 4]) = false ∧
  case193.target (pkt 3 (BitVec.ofNat 192 (1 + 9 * 2 ^ 16 + 4096 * 2 ^ 64)) [1, 2, 3, 4])
      (pkt 3 (BitVec.ofNat 192 (1 + 9 * 2 ^ 16 + 4096 * 2 ^ 64)) [1, 2, 3, 4]).addr
      (List.length (pkt 3 (BitVec.ofNat 192 (1 + 9 * 2 ^ 16 + 4096 * 2 ^ 64)) [1, 2, 3, 4]).payload) true =
    none ∧
  (pkt 3 (BitVec.ofNat 192 (1 + 9 * 2 ^ 16 + 4096 * 2 ^ 64)) [1, 2, 3, 4]).space ≠ 2 ∧
  case195.wholeMessage 1 case194 = true ∧ case195.memOut = false ∧ staleStep case195 case194 = false ∧
  case194.space = 2 ∧ case194.srcHost = true ∧ case194.addr + List.length case194.payload ≤ 8192 ∧
  case193.wholeMessage 1 case196 = true ∧ staleStep case193 case196 = true ∧ headOk 1 case197 = true ∧
  case197.noFlow = true ∧ case197.space ≠ 2 ∧ crc64 case197.payload ≠ BitVec.toNat case197.msgCrc ∧
  headOk 1 case198 = true ∧ case198.noFlow = true ∧ (on [(oMemState, 1)]).memOut = false ∧ case198.space ≠ 2 := by
  decide +kernel

theorem test_met_ReadsAndWrites_2 :
  crc64 case198.payload = BitVec.toNat case198.msgCrc ∧ staleStep (on [(oMemState, 1)]) case198 = false ∧
  (on [(oMemState, 1)]).target case198 (case198.addr + BitVec.toNat case198.index * 4096) (List.length case198.payload)
      true =
    some 4096 ∧
  (on [(oMemState, 1)]).mayPut case198 4096 = true ∧
  staleStep case193 (pkt 0 (BitVec.ofNat 192 (4096 * 2 ^ 64 + 4 * 2 ^ 128)) []) = false ∧
  case193.target (pkt 0 (BitVec.ofNat 192 (4096 * 2 ^ 64 + 4 * 2 ^ 128)) [])
      (pkt 0 (BitVec.ofNat 192 (4096 * 2 ^ 64 + 4 * 2 ^ 128)) []).addr
      (pkt 0 (BitVec.ofNat 192 (4096 * 2 ^ 64 + 4 * 2 ^ 128)) []).readLen false =
    some 4096 ∧
  case193.wholeMessage 2 (pkt 0 (BitVec.ofNat 192 (4096 * 2 ^ 64 + 4 * 2 ^ 128)) []) = true ∧
  staleStep case193 case199 = false ∧ case193.target case199 case199.addr case199.readLen false = some 4096 ∧
  headOk 2 case199 = true ∧ case199.noFlow = true ∧
  case193.target (pkt 3 (BitVec.ofNat 192 (4096 * 2 ^ 64)) [1, 2, 3, 4])
      (pkt 3 (BitVec.ofNat 192 (4096 * 2 ^ 64)) [1, 2, 3, 4]).addr
      (pkt 3 (BitVec.ofNat 192 (4096 * 2 ^ 64)) [1, 2, 3, 4]).readLen false =
    some 4096 ∧
  case193.accessOk (agentOf (pkt 3 (BitVec.ofNat 192 (4096 * 2 ^ 64)) [1, 2, 3, 4])) false 4096
      (pkt 3 (BitVec.ofNat 192 (4096 * 2 ^ 64)) [1, 2, 3, 4]).readLen =
    true ∧
  case193.mem.poison = [] ∧ case193.mem.errors = [] ∧
  (flowing flowOpen).wholeMessage 3 (pkt 1 0 [1, 2]) = true ∧ case235.memOut = true ∧ case233.space ≠ 2 ∧
  headOk 1 case233 = true ∧ (pkt 0 (BitVec.ofNat 192 (4096 * 2 ^ 64 + 4 * 2 ^ 128)) []).space ≠ 2 ∧
  headOk 2 (pkt 0 (BitVec.ofNat 192 (4096 * 2 ^ 64 + 4 * 2 ^ 128)) []) = true := by
  decide +kernel

theorem test_met_ContributionPackets :
  (flowing flowOpen).wholeMessage 4 (pkt 2 9 (natLe 4 1065353216)) = true ∧
  (pkt 2 9 (natLe 4 1065353216)).form ≤ 2 ∧
  (flowing flowOpen).wholeMessage 4 (pkt 2 (BitVec.ofNat 192 (9 + 3 * 2 ^ 16)) (zeros 8)) = true ∧
  2 < (pkt 2 (BitVec.ofNat 192 (9 + 3 * 2 ^ 16)) (zeros 8)).form ∧
  (flowing flowOpen).wholeMessage 5 (pkt 2 9 (natLe 4 1065353216 ++ natLe 4 3)) = true ∧
  (flowing flowOpen).wholeMessage 6 (pkt 2 9 (natLe 4 1065353216 ++ natLe 4 3)) = true := by
  decide +kernel

theorem test_met_MessagesAndDoorbells :
  (flowing flowOpen).wholeMessage 7 (pkt 0 6 (zeros 64)) = true ∧
  staleStep (flowing flowOpen) (pkt 0 6 (zeros 64)) = false ∧
  (flowing flowOpen).queue? (pkt 0 6 (zeros 64)).window = some case40 ∧ case40.kind = 3 ∧
  messageRoom (pkt 0 6 (zeros 64)) ≤ ((flowing flowOpen).counted (pkt 0 6 (zeros 64))).inboxRoom case40 ∧
  case182.wholeMessage 7 (pkt 0 (6#192) (zeros 64)) = true ∧
  staleStep case182 (pkt 0 (6#192) (zeros 64)) = false ∧
  case182.queue? (pkt 0 (6#192) (zeros 64)).window = some case40 ∧
  (case182.counted (pkt 0 (6#192) (zeros 64))).inboxRoom case40 < messageRoom (pkt 0 (6#192) (zeros 64)) ∧
  case182.wholeMessage 7 (pkt 0 (99#192) (zeros 64)) = true ∧
  staleStep case182 (pkt 0 (99#192) (zeros 64)) = false ∧
  (Option.all (fun q => q.kind != 3) (case182.queue? (pkt 0 (99#192) (zeros 64)).window) = true) ∧
  case182.wholeMessage 7 case183 = true ∧ staleStep case182 case183 = true ∧
  (flowing flowOpen).wholeMessage 8 (pkt 0 (BitVec.ofNat 192 (5 * 2 ^ 64 + 2 ^ 80)) []) = true ∧
  (List.find? (fun b => earlierDone (case41.flow (4#12).toNat) b.msg) (case41.flow (4#12).toNat).bells = some case42) ∧
  (((case41.queue? case42.queue).bind fun q => doorbellIndex q (case41.ring case42.queue) case42.index) = some case43) ∧
  (List.find? (fun b => earlierDone (case44.flow (4#12).toNat) b.msg) (case44.flow (4#12).toNat).bells = some case45) ∧
  (((case44.queue? case45.queue).bind fun q => doorbellIndex q (case44.ring case45.queue) case45.index) = none) ∧
  (List.find? (fun b => earlierDone ((flowing flowOpen).flow (4#12).toNat) b.msg)
      ((flowing flowOpen).flow (4#12).toNat).bells =
    none) := by
  decide +kernel

theorem test_met_AcksAndTimeouts :
  (((headOk 10 (pkt 1 1 []) && !(pkt 1 1 []).noFlow &&
          match case46.activePlan with
          | some q => q.id % 256 == BitVec.toNat (pkt 1 1 []).epoch
          | none => false) &&
        (case46.flow (BitVec.toNat (pkt 1 1 []).flow)).state == 1 &&
      if (case46.flow (BitVec.toNat (pkt 1 1 []).flow)).host = true then (pkt 1 1 []).srcHost
      else
        !(pkt 1 1 []).srcHost && (case46.flow (BitVec.toNat (pkt 1 1 []).flow)).peer == BitVec.toNat (pkt 1 1 []).src) =
    false) ∧
  (((headOk 10 (pkt 1 1 []) && !(pkt 1 1 []).noFlow &&
          match case47.activePlan with
          | some q => q.id % 256 == BitVec.toNat (pkt 1 1 []).epoch
          | none => false) &&
        (case47.flow (BitVec.toNat (pkt 1 1 []).flow)).state == 1 &&
      if (case47.flow (BitVec.toNat (pkt 1 1 []).flow)).host = true then (pkt 1 1 []).srcHost
      else
        !(pkt 1 1 []).srcHost && (case47.flow (BitVec.toNat (pkt 1 1 []).flow)).peer == BitVec.toNat (pkt 1 1 []).src) =
    true) ∧
  (case47.flow (BitVec.toNat (pkt 1 1 []).flow)).waiting = [] ∧ (pkt 1 1 []).field 40 1 = 0 ∧
  case47.step.snap = none ∧ case47.shards = [] ∧
  (((headOk 10 (pkt 1 (BitVec.ofNat 192 (3 * 2 ^ 64)) []) && !(pkt 1 (BitVec.ofNat 192 (3 * 2 ^ 64)) []).noFlow &&
          match case136.activePlan with
          | some q => q.id % 256 == BitVec.toNat (pkt 1 (BitVec.ofNat 192 (3 * 2 ^ 64)) []).epoch
          | none => false) &&
        (case136.flow (BitVec.toNat (pkt 1 (BitVec.ofNat 192 (3 * 2 ^ 64)) []).flow)).state == 1 &&
      if (case136.flow (BitVec.toNat (pkt 1 (BitVec.ofNat 192 (3 * 2 ^ 64)) []).flow)).host = true then
        (pkt 1 (BitVec.ofNat 192 (3 * 2 ^ 64)) []).srcHost
      else
        !(pkt 1 (BitVec.ofNat 192 (3 * 2 ^ 64)) []).srcHost &&
          (case136.flow (BitVec.toNat (pkt 1 (BitVec.ofNat 192 (3 * 2 ^ 64)) []).flow)).peer ==
            BitVec.toNat (pkt 1 (BitVec.ofNat 192 (3 * 2 ^ 64)) []).src) =
    true) ∧
  (pkt 1 (BitVec.ofNat 192 (3 * 2 ^ 64)) []).field 40 1 = 3 ∧
  ((List.find? (fun o => o.id == (pkt 1 (BitVec.ofNat 192 (3 * 2 ^ 64)) []).field 36 4)
        (case136.flow (BitVec.toNat (pkt 1 (BitVec.ofNat 192 (3 * 2 ^ 64)) []).flow)).openMsgs).isSome =
    true) ∧
  (case48.flow (4#12).toNat).ackDue = some 10 ∧ (case47.flow (4#12).toNat).ackDue = none ∧
  (case47.flow (4#12).toNat).state = 1 ∧
  (List.find? (fun y => y.psn == (0#24).toNat) (case47.flow (4#12).toNat).unacked = some case49) ∧
  case49.resends < 8 ∧ (case46.flow (4#12).toNat).state = 1 ∧
  (List.find? (fun y => y.psn == (0#24).toNat) (case46.flow (4#12).toNat).unacked = some case50) ∧
  8 ≤ case50.resends ∧
  ((case47.flow (4#12).toNat).state ≠ 1 ∨
    List.find? (fun y => y.psn == (4#24).toNat) (case47.flow (4#12).toNat).unacked = none) := by
  decide +kernel

theorem test_met_MailboxCommands :
  ((on []).mailbox ↑3).full = false ∧ 8 ≤ (8#5).toNat ∧ (8#5).toNat ≤ 16 ∧
  (((on []).mailbox ↑3).full = true ∨ (3#5).toNat < 8 ∨ 16 < (3#5).toNat) ∧ (case51.mailbox ↑3).full = true := by
  decide +kernel

theorem test_met_GranaryWork :
  (List.findIdx? (fun c => case52.unitFor c == ↑0 * 16 + ↑0) case52.contribs = none) ∧
  (List.findIdx? (fun c => case53.unitFor c == ↑0 * 16 + ↑0) case53.contribs = some 0) ∧
  case53.contribs[0]? = some (one 99) ∧ case53.ownWindow (one 99).window = none ∧
  (List.findIdx? (fun c => case54.unitFor c == ↑0 * 16 + ↑0) case54.contribs = some 0) ∧
  case54.contribs[0]? = some (one 9) ∧ case54.ownWindow (one 9).window = some (win9 0 1) ∧
  earlier (one 9).step (one 9).attempt (case54.win (win9 0 1).num).step (case54.win (win9 0 1).num).attempt = true ∧
  (List.findIdx? (fun c => case169.unitFor c == ↑0 * 16 + ↑0) case169.contribs = some 0) ∧
  case169.contribs[0]? = some (one 9) ∧ case169.ownWindow (one 9).window = some (win9 0 1) ∧
  earlier (one 9).step (one 9).attempt (case169.win (win9 0 1).num).step (case169.win (win9 0 1).num).attempt = false ∧
  (one 9).step = (case169.win (win9 0 1).num).step ∧ (one 9).attempt = (case169.win (win9 0 1).num).attempt ∧
  ((case169.win (win9 0 1).num).state = 3 ∨
    (case169.win (win9 0 1).num).state = 2 ∧ ((case169.win (win9 0 1).num).chunk (one 9).chunk).complete = true) ∧
  (List.findIdx? (fun c => case170.unitFor c == ↑0 * 16 + ↑0) case170.contribs = some 0) ∧
  case170.contribs[0]? = some case171 ∧ case170.ownWindow case171.window = some (win9 0 1) ∧
  earlier case171.step case171.attempt (case170.win (win9 0 1).num).step (case170.win (win9 0 1).num).attempt = false ∧
  (¬ (case171.step = (case170.win (win9 0 1).num).step ∧
      case171.attempt = (case170.win (win9 0 1).num).attempt ∧
        ((case170.win (win9 0 1).num).state = 3 ∨
          (case170.win (win9 0 1).num).state = 2 ∧ ((case170.win (win9 0 1).num).chunk case171.chunk).complete = true))) ∧
  strayReason (win9 0 1) (case170.win (win9 0 1).num) case171 ≠ 0 ∧
  (List.findIdx? (fun c => case172.unitFor c == ↑0 * 16 + ↑0) case172.contribs = some 0) ∧
  case172.contribs[0]? = some (one 9) ∧ case172.ownWindow (one 9).window = some case173 ∧
  (¬ ((one 9).step = (case172.win case173.num).step ∧
      (one 9).attempt = (case172.win case173.num).attempt ∧
        ((case172.win case173.num).state = 3 ∨
          (case172.win case173.num).state = 2 ∧ ((case172.win case173.num).chunk (one 9).chunk).complete = true))) ∧
  earlier (one 9).step (one 9).attempt (case172.win case173.num).step (case172.win case173.num).attempt = false ∧
  strayReason case173 (case172.win case173.num) (one 9) = 0 ∧
  beyondBound case173 (case172.win case173.num) (one 9) = true ∧
  (List.findIdx? (fun c => case184.unitFor c == ↑0 * 16 + ↑0) case184.contribs = some 0) ∧
  case184.contribs[0]? = some case185 := by
  decide +kernel

theorem test_met_GranaryWork_2 :
  case184.ownWindow case185.window = some case173 ∧
  (¬ (case185.step = (case184.win case173.num).step ∧
      case185.attempt = (case184.win case173.num).attempt ∧
        ((case184.win case173.num).state = 3 ∨
          (case184.win case173.num).state = 2 ∧ ((case184.win case173.num).chunk case185.chunk).complete = true))) ∧
  earlier case185.step case185.attempt (case184.win case173.num).step (case184.win case173.num).attempt = false ∧
  strayReason case173 (case184.win case173.num) case185 = 0 ∧ case185.form = 2 ∧
  (List.findIdx? (fun c => case55.unitFor c == ↑0 * 16 + ↑0) case55.contribs = some 0) ∧
  case55.contribs[0]? = some (one 9) ∧ case55.ownWindow (one 9).window = some (win9 0 1) ∧
  (¬ ((one 9).step = (case55.win (win9 0 1).num).step ∧
      (one 9).attempt = (case55.win (win9 0 1).num).attempt ∧
        ((case55.win (win9 0 1).num).state = 3 ∨
          (case55.win (win9 0 1).num).state = 2 ∧ ((case55.win (win9 0 1).num).chunk (one 9).chunk).complete = true))) ∧
  earlier (one 9).step (one 9).attempt (case55.win (win9 0 1).num).step (case55.win (win9 0 1).num).attempt = false ∧
  strayReason (win9 0 1) (case55.win (win9 0 1).num) (one 9) = 0 ∧ (one 9).form ≠ 2 ∧
  beyondBound (win9 0 1) (case55.win (win9 0 1).num) (one 9) = false ∧ case169.ownWindow (0#16).toNat = none ∧
  case169.ownWindow (9#16).toNat = some (win9 0 1) ∧ (case169.win (win9 0 1).num).state = 2 ∧
  BitVec.toNat case174.chunk < (win9 0 1).chunkCount ∧
  (((case169.win (win9 0 1).num).chunk (BitVec.toNat case174.chunk)).complete = true) ∧
  ((case169.win (win9 0 1).num).chunk (BitVec.toNat case174.chunk)).delivered = false := by
  decide +kernel

theorem test_met_UpdateWork :
  (List.findIdx?
      (fun d =>
        match case56.job? d.window with
        | some j => j.w.die % 2 == ↑0 && j.sh.unit % 2 == ↑0
        | none => false)
      case56.delivered =
    none) ∧
  (List.findIdx?
      (fun d =>
        match
          (shaping 0 1 ShardSt.init [{ window := 9, chunk := 0, step := 0, values := [1065353216], beat := 0 }]).job?
            d.window with
        | some j => j.w.die % 2 == ↑0 && j.sh.unit % 2 == ↑0
        | none => false)
      (shaping 0 1 ShardSt.init [{ window := 9, chunk := 0, step := 0, values := [1065353216], beat := 0 }]).delivered =
    some 0) ∧
  (shaping 0 1 ShardSt.init [{ window := 9, chunk := 0, step := 0, values := [1065353216], beat := 0 }]).delivered[0]? =
    some case208 ∧
  (shaping 0 1 ShardSt.init [{ window := 9, chunk := 0, step := 0, values := [1065353216], beat := 0 }]).job?
      case208.window =
    some (job9 0 1) ∧
  ((shaping 0 1 ShardSt.init [{ window := 9, chunk := 0, step := 0, values := [1065353216], beat := 0 }]).shard
        (job9 0 1).w.num).state ≠
    1 ∧
  ((shaping 0 1 ShardSt.init [{ window := 9, chunk := 0, step := 0, values := [1065353216], beat := 0 }]).shard
        (job9 0 1).w.num).state ≠
    2 ∧
  (List.findIdx?
      (fun d =>
        match case209.job? d.window with
        | some j => j.w.die % 2 == ↑0 && j.sh.unit % 2 == ↑0
        | none => false)
      case209.delivered =
    some 0) ∧
  case209.delivered[0]? = some case208 ∧ case209.job? case208.window = some (job9 3 1) ∧
  ((case209.shard (job9 3 1).w.num).state = 1 ∨ (case209.shard (job9 3 1).w.num).state = 2) ∧
  (job9 3 1).g.shape = 3 ∧
  (List.findIdx?
      (fun d =>
        match case210.job? d.window with
        | some j => j.w.die % 2 == ↑0 && j.sh.unit % 2 == ↑0
        | none => false)
      case210.delivered =
    some 0) ∧
  case210.delivered[0]? = some case208 ∧ case210.job? case208.window = some (job9 0 1) ∧
  ((case210.shard (job9 0 1).w.num).state = 1 ∨ (case210.shard (job9 0 1).w.num).state = 2) ∧
  (job9 0 1).g.shape ≠ 3 ∧
  (Option.all (fun j => j.g.shape != 3 || [2, 3, 4].contains (case56.shard j.w.num).state == false)
      (case56.job? (0#16).toNat) =
    true) ∧
  case56.job? (9#16).toNat = some (job9 3 1) ∧ (case56.shard (job9 3 1).w.num).state = 2 ∧
  case211.job? (9#16).toNat = some (job9 3 1) ∧ (case211.shard (job9 3 1).w.num).state = 3 ∧
  (case211.shard (job9 3 1).w.num).phase < 3 ∧ case212.job? (9#16).toNat = some (job9 3 1) ∧
  (case212.shard (job9 3 1).w.num).state = 3 ∧ 3 ≤ (case212.shard (job9 3 1).w.num).phase ∧
  case213.job? (9#16).toNat = some (job9 3 1) ∧ (case213.shard (job9 3 1).w.num).state = 4 := by
  decide +kernel

theorem test_met_PacketsRouted :
  (List.find? (fun x => case57.fate x != Fate.wait) case57.router = some (routed (zeros 64))) ∧
  case57.fate (routed (zeros 64)) = Fate.deliver ∧
  (List.find? (fun x => case188.fate x != Fate.wait) case188.router = some case187) ∧
  case188.fate case187 = Fate.drop ∧
  (List.find? (fun x => case58.fate x != Fate.wait) case58.router = some (routed ([0, 4] ++ zeros 62))) ∧
  case58.fate (routed ([0, 4] ++ zeros 62)) = Fate.misrouted ∧
  (List.find? (fun x => case59.fate x != Fate.wait) case59.router = some (routed ([0, 0, 0, 0, 5] ++ zeros 59))) ∧
  case59.fate (routed ([0, 0, 0, 0, 5] ++ zeros 59)) = Fate.unroutable ∧
  (List.find? (fun x => case232.fate x != Fate.wait) case232.router = some case231) ∧
  case232.fate case231 = Fate.cross ∧
  (List.find? (fun x => case60.fate x != Fate.wait) case60.router = some (routed ([0, 4] ++ zeros 62))) ∧
  case60.fate (routed ([0, 4] ++ zeros 62)) = Fate.send 0 0 ∧
  (((on []).router.all fun x => (on []).fate x == Fate.wait) = true) ∧
  (List.find? (fun r => !r.escape && case57.fate r == Fate.wait && (case57.escapePort (pkDst r.data)).isSome)
      case57.router =
    none) ∧
  (List.find? (fun r => !r.escape && case61.fate r == Fate.wait && (case61.escapePort (pkDst r.data)).isSome)
      case61.router =
    some (routed ([0, 0, 0, 0, 1] ++ zeros 59))) ∧
  case61.escapePort (pkDst (routed ([0, 0, 0, 0, 1] ++ zeros 59)).data) = some 3 := by
  decide +kernel

theorem test_met_FlitGroups :
  (Option.all (fun k => (linked lanes []).lanesInUse k false == 0) ((linked lanes []).linkKey (↑3) false ↑0) = true) ∧
  case167.linkKey (↑0) false ↑0 = some 0 ∧ case167.lanesInUse 0 false ≠ 0 ∧
  (((case167.txLink 0).resend.bind fun q => List.find? (fun g => g.seq == q) (case167.txLink 0).groups) = none) ∧
  62 * laneCount (case167.linkLanes 0 false) ≤ (case167.txLink 0).groups.length ∧
  (linked lanes []).linkKey (↑0) false ↑0 = some 0 ∧ (linked lanes []).lanesInUse 0 false ≠ 0 ∧
  ((((linked lanes []).txLink 0).resend.bind fun q =>
      List.find? (fun g => g.seq == q) ((linked lanes []).txLink 0).groups) =
    none) ∧
  ((linked lanes []).txLink 0).groups.length < 62 * laneCount ((linked lanes []).linkLanes 0 false) ∧
  (takeFlits (laneCount ((linked lanes []).linkLanes 0 false)) 16 ((linked lanes []).txLink 0).queue
        { queue := ((linked lanes []).txLink 0).queue, seq := ((linked lanes []).txLink 0).seq,
          groups := ((linked lanes []).txLink 0).groups, sent := ((linked lanes []).txLink 0).sent,
          freed := ((linked lanes []).txLink 0).freed, resend := none, resendAt := ((linked lanes []).txLink 0).resendAt,
          stallSince := none, fullSince := none, mask := ((linked lanes []).txLink 0).mask,
          failSeq := ((linked lanes []).txLink 0).failSeq, fails := ((linked lanes []).txLink 0).fails,
          backlog := ((linked lanes []).txLink 0).backlog }
        []).fst =
    [] ∧
  case62.linkKey (↑0) false ↑0 = some 0 ∧ case62.lanesInUse 0 false ≠ 0 ∧
  (((case62.txLink 0).resend.bind fun q => List.find? (fun g => g.seq == q) (case62.txLink 0).groups) = none) ∧
  (case62.txLink 0).groups.length < 62 * laneCount (case62.linkLanes 0 false) ∧
  (takeFlits (laneCount (case62.linkLanes 0 false)) 16 (case62.txLink 0).queue
        { queue := (case62.txLink 0).queue, seq := (case62.txLink 0).seq, groups := (case62.txLink 0).groups,
          sent := (case62.txLink 0).sent, freed := (case62.txLink 0).freed, resend := none,
          resendAt := (case62.txLink 0).resendAt, stallSince := none, fullSince := none, mask := (case62.txLink 0).mask,
          failSeq := (case62.txLink 0).failSeq, fails := (case62.txLink 0).fails, backlog := (case62.txLink 0).backlog }
        []).fst ≠
    [] ∧
  case63.linkKey (↑0) false ↑0 = some 0 ∧ case63.lanesInUse 0 false ≠ 0 ∧
  (((case63.txLink 0).resend.bind fun q => List.find? (fun g => g.seq == q) (case63.txLink 0).groups) = some case64) ∧
  (Option.all (fun k => (on []).lanesInUse k true == 0) ((on []).linkKey (↑groupIn.port) true ↑groupIn.lane) = true) ∧
  (linked lanes []).linkKey (↑groupIn.port) true ↑groupIn.lane = some 0 ∧
  (linked lanes []).lanesInUse 0 true ≠ 0 ∧
  ((groupIn.crcOk &&
        BitVec.toNat groupIn.mask ==
          ((List.foldl (fun s c => s.takeCodeword (↑groupIn.port) c) (linked lanes []).quiet groupIn.codewords).countGroup
                (↑groupIn.port) true).rxMask
            0 &&
      groupIn.flits.all fun f => ↑f.vc != 4 && ↑f.vc != 6) =
    true) ∧
  ((linked lanes []).rxLink 0).nak = none ∧ groupIn.seq.toNat = ((linked lanes []).rxLink 0).expect ∧
  groupIn.idle = false ∧ (linked lanes []).linkKey (↑case65.port) true ↑case65.lane = some 0 ∧
  ((case65.crcOk &&
        BitVec.toNat case65.mask ==
          ((List.foldl (fun s c => s.takeCodeword (↑case65.port) c) (linked lanes []).quiet case65.codewords).countGroup
                (↑case65.port) true).rxMask
            0 &&
      case65.flits.all fun f => ↑f.vc != 4 && ↑f.vc != 6) =
    true) ∧
  case65.seq.toNat = ((linked lanes []).rxLink 0).expect ∧ case65.idle = true ∧
  (linked lanes []).linkKey (↑case66.port) true ↑case66.lane = some 0 ∧
  ((case66.crcOk &&
          BitVec.toNat case66.mask ==
            ((List.foldl (fun s c => s.takeCodeword (↑case66.port) c) (linked lanes []).quiet case66.codewords).countGroup
                  (↑case66.port) true).rxMask
              0 &&
        case66.flits.all fun f => ↑f.vc != 4 && ↑f.vc != 6) =
      false ∨
    case66.seq.toNat ≠ ((linked lanes []).rxLink 0).expect) ∧
  case168.linkKey (↑groupIn.port) true ↑groupIn.lane = some 0 ∧ case168.lanesInUse 0 true ≠ 0 ∧
  (case168.rxLink 0).nak ≠ none := by
  decide +kernel

theorem test_met_ReplayFrames :
  BitVec.toNat case67.place = case68.place ∧ BitVec.toNat case67.port < 24 ∧
  case68.linkKey (BitVec.toNat case67.port) false ↑case67.lane = some 0 ∧
  (¬ (BitVec.toNat case69.place = case68.place ∧ BitVec.toNat case69.port < 24)) ∧
  BitVec.toNat case67.place = (linked lanes []).place ∧
  (linked lanes []).linkKey (BitVec.toNat case67.port) false ↑case67.lane = some 0 ∧
  (¬ (BitVec.toNat case69.place = (linked lanes []).place ∧ BitVec.toNat case69.port < 24)) ∧
  BitVec.toNat case67.place = (on []).place ∧
  (on []).linkKey (BitVec.toNat case67.port) false ↑case67.lane = none ∧ case70.linkKey (↑0) true ↑0 = some 0 ∧
  (case70.rxLink 0).nak = some 5 ∧
  (Option.all (fun k => (case68.rxLink k).nak.isNone) (case68.linkKey (↑0) true ↑0) = true) ∧
  case71.linkKey (↑0) true ↑0 = some 0 ∧
  (Option.all (fun j => case71.lanesInUse j false == 0) (case71.reverseKey 0 true) = true) ∧
  case71.canSend (0 / 8) = true ∧
  (Option.all
      (fun k =>
        !Option.all (fun j => case68.lanesInUse j false == 0) (case68.reverseKey k true) || !case68.canSend (k / 8))
      (case68.linkKey (↑0) true ↑0) =
    true) ∧
  case68.linkKey (↑0) true ↑case69.lane = some 0 ∧ (case68.rxName 0).place = case69.place ∧
  (case68.rxName 0).port = case69.port ∧ (0#12).toNat = (case68.rxLink 0).expect ∧
  (3#12).toNat ≠ (case68.rxLink 0).expect ∧
  (∀ k ∈ (case68.linkKey (↑0) true ↑case67.lane).toList,
    ¬ (fun k =>
          case68.linkKey (↑0) true ↑case67.lane = some k ∧
            (case68.rxName k).place = case67.place ∧ (case68.rxName k).port = case67.port)
        k) := by
  decide +kernel

theorem test_met_Hellos :
  (linked lanes []).canSend ↑0 = true ∧ (on [(oDomainState 36, 0)]).canSend ↑0 = false ∧
  (linked lanes []).flag (oCtrlRxPresent ↑0) = true ∧
  ((linked lanes []).linkClass ↑0 ≠ 0 ∨ (linked lanes []).obj (oLinkState ↑0) = 1) ∧
  ((on []).flag (oCtrlRxPresent ↑0) = false ∨ (on []).linkClass ↑0 = 0 ∧ (on []).obj (oLinkState ↑0) ≠ 1) ∧
  (linked lanes []).keeperOn = true ∧ fieldLe (natLe 32 (0#256).toNat) 2 2 < 16384 ∧
  fieldLe (natLe 32 (0#256).toNat) 6 2 < 16384 ∧
  (¬ (fieldLe (natLe 32 (BitVec.ofNat 256 (16384 * 2 ^ 16)).toNat) 2 2 < 16384 ∧
      fieldLe (natLe 32 (BitVec.ofNat 256 (16384 * 2 ^ 16)).toNat) 6 2 < 16384)) ∧
  (¬ ((on []).flag (oCtrlRxPresent ↑0) = true ∧ (on []).keeperOn = true)) := by
  decide +kernel

theorem test_met_LanesAndSignals :
  (linked lanes [(oCtrlRxPresent 0, 0)]).flag (oCtrlRxPresent ↑0) = false ∧
  (linked lanes [(oCtrlRxPresent 0, 0)]).keeperOn = true ∧
  ((linked lanes []).flag (oCtrlRxPresent ↑0) = true ∨ (linked lanes []).keeperOn = false) ∧
  (linked lanes []).flag (oCtrlRxPresent ↑0) = true ∧ (case72.portSt ↑0).lostAt = some 7 ∧
  ((linked lanes [(oCtrlRxPresent 0, 0)]).portSt ↑0).lostAt = none ∧ (case73.portSt ↑0).resetSince = some 7 ∧
  ((linked lanes [(oCtrlRxPresent 0, 0)]).portSt ↑0).resetSince = none ∧
  case75.expectedSource ↑case74.port ↑case74.lane = some (9, 1) ∧
  (case75.linkOpen ↑case74.port && case75.rxClear ↑case74.port ↑case74.lane &&
      (!case75.admitted || case75.bell.inGuard)) =
    true ∧
  BitVec.toNat case74.place = (9, 1).fst ∧ BitVec.toNat case74.srcPort = (9, 1).snd ∧
  BitVec.toNat case74.srcLane = ↑case74.lane ∧ case75.expectedSource ↑case76.port ↑case76.lane = some (9, 1) ∧
  (case75.linkOpen ↑case76.port && case75.rxClear ↑case76.port ↑case76.lane &&
      (!case75.admitted || case75.bell.inGuard)) =
    true ∧
  (¬ (BitVec.toNat case76.place = (9, 1).fst ∧
      BitVec.toNat case76.srcPort = (9, 1).snd ∧ BitVec.toNat case76.srcLane = ↑case76.lane)) ∧
  ((linked lanes [(oCtrlRxPresent 0, 0)]).expectedSource ↑case74.port ↑case74.lane = none ∨
    ((linked lanes [(oCtrlRxPresent 0, 0)]).linkOpen ↑case74.port &&
          (linked lanes [(oCtrlRxPresent 0, 0)]).rxClear ↑case74.port ↑case74.lane &&
        (!(linked lanes [(oCtrlRxPresent 0, 0)]).admitted || (linked lanes [(oCtrlRxPresent 0, 0)]).bell.inGuard)) =
      false) ∧
  (linked lanes []).linkClass ↑0 = 2 ∧
  (¬ ((linked lanes [(oCtrlRxPresent 0, 0)]).linkClass ↑0 = 2 ∧
      (linked lanes [(oCtrlRxPresent 0, 0)]).flag (oCtrlRxPresent ↑0) = true)) := by
  decide +kernel

theorem test_met_SequencedFrames :
  (case78.portSt ↑0).ackDue = true ∧ (case79.portSt ↑0).ackDue = false ∧ (case80.portSt ↑0).ctlSent = [case81] ∧
  case81.sentAt = some 3 ∧ (((case78.portSt ↑0).ctlSent.head?.bind fun f => f.sentAt) = none) ∧
  case79.flag (oCtrlRxPresent ↑4) = false ∧ case79.flag (oCtrlRxPresent ↑0) = true ∧
  (4#12).toNat ≠ (case79.portSt ↑0).ctlExpect ∧ (0#12).toNat = (case79.portSt ↑0).ctlExpect ∧
  List.length ((case79.portSt ↑0).mgmt ++ natLe 64 (BitVec.ofNat 512 (64 * 2 ^ 80)).toNat) <
    64 * (1 + ceilDiv (pkLength ((case79.portSt ↑0).mgmt ++ natLe 64 (BitVec.ofNat 512 (64 * 2 ^ 80)).toNat)) 64) ∧
  (linked lanes []).flag (oCtrlRxPresent ↑0) = true ∧ (0#12).toNat = ((linked lanes []).portSt ↑0).ctlExpect ∧
  64 *
      (1 +
        ceilDiv (pkLength (((linked lanes []).portSt ↑0).mgmt ++ natLe 64 (BitVec.ofNat 512 (9 + 4 * 2 ^ 16)).toNat))
          64) ≤
    List.length (((linked lanes []).portSt ↑0).mgmt ++ natLe 64 (BitVec.ofNat 512 (9 + 4 * 2 ^ 16)).toNat) ∧
  pkDst
      (List.take
        (64 + pkLength (((linked lanes []).portSt ↑0).mgmt ++ natLe 64 (BitVec.ofNat 512 (9 + 4 * 2 ^ 16)).toNat))
        (((linked lanes []).portSt ↑0).mgmt ++ natLe 64 (BitVec.ofNat 512 (9 + 4 * 2 ^ 16)).toNat)) <
    16384 ∧
  pkSrc
      (List.take
        (64 + pkLength (((linked lanes []).portSt ↑0).mgmt ++ natLe 64 (BitVec.ofNat 512 (9 + 4 * 2 ^ 16)).toNat))
        (((linked lanes []).portSt ↑0).mgmt ++ natLe 64 (BitVec.ofNat 512 (9 + 4 * 2 ^ 16)).toNat)) <
    16384 ∧
  bits
      (fieldLe
        (List.take
          (64 + pkLength (((linked lanes []).portSt ↑0).mgmt ++ natLe 64 (BitVec.ofNat 512 (9 + 4 * 2 ^ 16)).toNat))
          (((linked lanes []).portSt ↑0).mgmt ++ natLe 64 (BitVec.ofNat 512 (9 + 4 * 2 ^ 16)).toNat))
        32 16)
      0 4 ≤
    bits
      (fieldLe
        (List.take
          (64 + pkLength (((linked lanes []).portSt ↑0).mgmt ++ natLe 64 (BitVec.ofNat 512 (9 + 4 * 2 ^ 16)).toNat))
          (((linked lanes []).portSt ↑0).mgmt ++ natLe 64 (BitVec.ofNat 512 (9 + 4 * 2 ^ 16)).toNat))
        32 16)
      4 4 ∧
  pkDst
      (List.take
        (64 + pkLength (((linked lanes []).portSt ↑0).mgmt ++ natLe 64 (BitVec.ofNat 512 (9 + 4 * 2 ^ 16)).toNat))
        (((linked lanes []).portSt ↑0).mgmt ++ natLe 64 (BitVec.ofNat 512 (9 + 4 * 2 ^ 16)).toNat)) =
    (linked lanes []).place ∧
  fieldLe
      (List.take
        (64 + pkLength (((linked lanes []).portSt ↑0).mgmt ++ natLe 64 (BitVec.ofNat 512 (9 + 4 * 2 ^ 16)).toNat))
        (((linked lanes []).portSt ↑0).mgmt ++ natLe 64 (BitVec.ofNat 512 (9 + 4 * 2 ^ 16)).toNat))
      0 1 =
    9 ∧
  fieldLe
      (List.take
        (64 + pkLength (((linked lanes []).portSt ↑0).mgmt ++ natLe 64 (BitVec.ofNat 512 (9 + 4 * 2 ^ 16)).toNat))
        (((linked lanes []).portSt ↑0).mgmt ++ natLe 64 (BitVec.ofNat 512 (9 + 4 * 2 ^ 16)).toNat))
      2 1 =
    4 ∧
  64 * (1 + ceilDiv (pkLength ((case79.portSt ↑0).mgmt ++ natLe 64 (0#512).toNat)) 64) ≤
    List.length ((case79.portSt ↑0).mgmt ++ natLe 64 (0#512).toNat) ∧
  (¬ (pkDst
          (List.take (64 + pkLength ((case79.portSt ↑0).mgmt ++ natLe 64 (0#512).toNat))
            ((case79.portSt ↑0).mgmt ++ natLe 64 (0#512).toNat)) <
        16384 ∧
      pkSrc
            (List.take (64 + pkLength ((case79.portSt ↑0).mgmt ++ natLe 64 (0#512).toNat))
              ((case79.portSt ↑0).mgmt ++ natLe 64 (0#512).toNat)) <
          16384 ∧
        bits
              (fieldLe
                (List.take (64 + pkLength ((case79.portSt ↑0).mgmt ++ natLe 64 (0#512).toNat))
                  ((case79.portSt ↑0).mgmt ++ natLe 64 (0#512).toNat))
                32 16)
              0 4 ≤
            bits
              (fieldLe
                (List.take (64 + pkLength ((case79.portSt ↑0).mgmt ++ natLe 64 (0#512).toNat))
                  ((case79.portSt ↑0).mgmt ++ natLe 64 (0#512).toNat))
                32 16)
              4 4 ∧
          pkDst
                (List.take (64 + pkLength ((case79.portSt ↑0).mgmt ++ natLe 64 (0#512).toNat))
                  ((case79.portSt ↑0).mgmt ++ natLe 64 (0#512).toNat)) =
              case79.place ∧
            fieldLe
                  (List.take (64 + pkLength ((case79.portSt ↑0).mgmt ++ natLe 64 (0#512).toNat))
                    ((case79.portSt ↑0).mgmt ++ natLe 64 (0#512).toNat))
                  0 1 =
                9 ∧
              fieldLe
                  (List.take (64 + pkLength ((case79.portSt ↑0).mgmt ++ natLe 64 (0#512).toNat))
                    ((case79.portSt ↑0).mgmt ++ natLe 64 (0#512).toNat))
                  2 1 =
                4)) := by
  decide +kernel

theorem test_met_CleanTree :
  ((ending StepSt.init [(oTreeParentPort, 3)]).keeper = none ∨ (ending StepSt.init [(oTreeParentPort, 3)]).admitted = true) ∧
  ((ending StepSt.init [(oTreeParentPort, 3)]).traffic && (ending StepSt.init [(oTreeParentPort, 3)]).childrenIn &&
      !(ending StepSt.init [(oTreeParentPort, 3)]).step.sent) =
    true ∧
  (ending StepSt.init [(oTreeParentPort, 3)]).obj oTreeParentPort ≠ 255 ∧
  ((ending StepSt.init []).keeper = none ∨ (ending StepSt.init []).admitted = true) ∧
  ((ending StepSt.init []).traffic && (ending StepSt.init []).childrenIn && !(ending StepSt.init []).step.sent) = true ∧
  (ending StepSt.init []).obj oTreeParentPort = 255 ∧ ((on []).keeper = none ∨ (on []).admitted = true) ∧
  ((on []).traffic && (on []).childrenIn && !(on []).step.sent) = false ∧ case138.keeper = some case139 ∧
  case138.admitted = false ∧
  ((case139.st.running && !case139.st.sent &&
      (setBitsOf 24 case139.children).all fun p => case139.st.children.any fun c => c.port == p) =
    true) ∧
  case139.parent ≠ 255 ∧ case140.keeper = some case141 ∧ case140.admitted = false ∧
  ((case141.st.running && !case141.st.sent &&
      (setBitsOf 24 case141.children).all fun p => case141.st.children.any fun c => c.port == p) =
    true) ∧
  case141.parent = 255 ∧ case142.keeper = some case143 ∧ case142.admitted = false ∧
  ((case143.st.running && !case143.st.sent &&
      (setBitsOf 24 case143.children).all fun p => case143.st.children.any fun c => c.port == p) =
    false) ∧
  (¬ ((ending StepSt.init [(oTreeParentPort, 3)]).flag (oCtrlRxPresent ↑0) = true ∧
      (ending StepSt.init [(oTreeParentPort, 3)]).linkClass ↑0 = 2)) ∧
  case145.flag (oCtrlRxPresent ↑1) = true ∧ case145.linkClass ↑1 = 2 ∧
  (¬ ((case145.flag (oCtrlRxPresent ↑1) = true ∧ case145.linkClass ↑1 = 2) ∧ (1#12).toNat = (case145.portSt ↑1).ctlExpect)) ∧
  case83.flag (oCtrlRxPresent ↑0) = true ∧ case83.linkClass ↑0 = 2 ∧
  (0#12).toNat = (case83.portSt ↑0).ctlExpect ∧ (case83.keeper = none ∨ case83.admitted = true) ∧
  case83.frameFresh (frameOf case82) = true ∧ BitVec.getLsbD case82.verdict 7 = true ∧
  ↑0 = case83.obj oTreeParentPort := by
  decide +kernel

theorem test_met_CleanTree_2 :
  case83.step.verdict = none ∧ case84.flag (oCtrlRxPresent ↑0) = true ∧ case84.linkClass ↑0 = 2 ∧
  (0#12).toNat = (case84.portSt ↑0).ctlExpect ∧ (case84.keeper = none ∨ case84.admitted = true) ∧
  case84.frameFresh (frameOf case82) = true ∧ (↑0 ≠ case84.obj oTreeParentPort ∨ case84.step.verdict ≠ none) ∧
  case84.frameFresh (frameOf case85) = true ∧ BitVec.getLsbD case85.verdict 7 = false ∧
  case84.childPorts.contains ↑0 = true ∧ case83.frameFresh (frameOf case85) = true ∧
  case83.childPorts.contains ↑0 = false ∧ case83.frameFresh (frameOf case86) = false ∧
  (0#12).toNat = (case145.portSt ↑1).ctlExpect ∧ case145.keeper = some case146 ∧ case145.admitted = false ∧
  (case146.st.running && (frameOf case86).step == case146.step && (frameOf case86).attempt == case146.st.attempt &&
      decide (case146.beat < case146.deadlineBeat)) =
    false ∧
  case145.flag (oCtrlRxPresent ↑3) = true ∧ case145.linkClass ↑3 = 2 ∧
  (0#12).toNat = (case145.portSt ↑3).ctlExpect ∧
  (case146.st.running && (frameOf case144).step == case146.step && (frameOf case144).attempt == case146.st.attempt &&
      decide (case146.beat < case146.deadlineBeat)) =
    true ∧
  BitVec.getLsbD case144.verdict 7 = true ∧ ↑3 = case146.parent ∧ case146.st.verdict = none ∧
  (↑1 ≠ case146.parent ∨ case146.st.verdict ≠ none) ∧
  (case146.st.running && (frameOf case147).step == case146.step && (frameOf case147).attempt == case146.st.attempt &&
      decide (case146.beat < case146.deadlineBeat)) =
    true ∧
  BitVec.getLsbD case147.verdict 7 = false ∧ bit case146.children ↑1 = true ∧ bit case146.children ↑3 = false := by
  decide +kernel

theorem test_met_AdmissionAndActions :
  case88.admitting = some adm ∧
  case88.quiet.planFault (case88.blob oPlanBlob) (parsePlan (case88.blob oPlanBlob)) adm = none ∧
  case90.admitting = some adm ∧
  case90.quiet.planFault (case90.blob oPlanBlob) (parsePlan (case90.blob oPlanBlob)) adm = some case89 ∧
  case91.digesting = some (0, 64, 5) ∧ (on [(oSteStart, 65536)]).cmdRunning oSteStart = true ∧
  case93.step.snap = some case92 ∧ case93.snapAcked case92 = true ∧ case91.admitting = none ∧
  case88.digesting = none ∧ case88.cmdRunning oSteStart = false ∧
  (Option.all (fun x => !case88.snapAcked x) case88.step.snap = true) := by
  decide +kernel

theorem test_met_SelfTestsEnd :
  case95.power.selfTestStart = true ∧ case96.power.selfTestStart = false ∧ case96.power.selfTest = true ∧
  case96.power.shutdown = true ∧ case97.power.selfTestStart = false ∧ case97.power.selfTest = true ∧
  case97.power.shutdown = false ∧ (on []).power.selfTestStart = false ∧ (on []).power.selfTest = false := by
  decide +kernel

theorem test_met_MctpAndSpdm :
  (on []).controlServed = true ∧ (9#8).toNat ≠ 0 ∧ (9#8).toNat ≠ 255 ∧ ((0#8).toNat = 0 ∨ (0#8).toNat = 255) ∧
  (on []).mctpFits [] = false ∧ (on []).mctpFits ([1, 0, 8, 0, 5] ++ natLe 1 (pec [1, 0, 8, 0, 5])) = true ∧
  ((if bit (fieldLe ([1, 0, 8, 0, 5] ++ natLe 1 (pec [1, 0, 8, 0, 5])) 3 1) 7 = true then
      some (List.drop 4 ([1, 0, 8, 0, 5] ++ natLe 1 (pec [1, 0, 8, 0, 5]))).dropLast
    else
      match (on []).mctp.assembling with
      | some (a, g, n, bs) =>
        if
            a = fieldLe ([1, 0, 8, 0, 5] ++ natLe 1 (pec [1, 0, 8, 0, 5])) 2 1 ∧
              g = fieldLe ([1, 0, 8, 0, 5] ++ natLe 1 (pec [1, 0, 8, 0, 5])) 3 1 % 16 ∧
                n = bits (fieldLe ([1, 0, 8, 0, 5] ++ natLe 1 (pec [1, 0, 8, 0, 5])) 3 1) 4 2 then
          some (bs ++ (List.drop 4 ([1, 0, 8, 0, 5] ++ natLe 1 (pec [1, 0, 8, 0, 5]))).dropLast)
        else none
      | none => none) =
    none) ∧
  (on []).mctpFits ([1, 0, 8, 128, 5] ++ natLe 1 (pec [1, 0, 8, 128, 5])) = true ∧
  ((if bit (fieldLe ([1, 0, 8, 128, 5] ++ natLe 1 (pec [1, 0, 8, 128, 5])) 3 1) 7 = true then
      some (List.drop 4 ([1, 0, 8, 128, 5] ++ natLe 1 (pec [1, 0, 8, 128, 5]))).dropLast
    else
      match (on []).mctp.assembling with
      | some (a, g, n, bs) =>
        if
            a = fieldLe ([1, 0, 8, 128, 5] ++ natLe 1 (pec [1, 0, 8, 128, 5])) 2 1 ∧
              g = fieldLe ([1, 0, 8, 128, 5] ++ natLe 1 (pec [1, 0, 8, 128, 5])) 3 1 % 16 ∧
                n = bits (fieldLe ([1, 0, 8, 128, 5] ++ natLe 1 (pec [1, 0, 8, 128, 5])) 3 1) 4 2 then
          some (bs ++ (List.drop 4 ([1, 0, 8, 128, 5] ++ natLe 1 (pec [1, 0, 8, 128, 5]))).dropLast)
        else none
      | none => none) =
    some [5]) ∧
  bit (fieldLe ([1, 0, 8, 128, 5] ++ natLe 1 (pec [1, 0, 8, 128, 5])) 3 1) 6 = false ∧
  (on []).mctpFits ([1, 0, 8, 192, 5] ++ natLe 1 (pec [1, 0, 8, 192, 5])) = true ∧
  ((if bit (fieldLe ([1, 0, 8, 192, 5] ++ natLe 1 (pec [1, 0, 8, 192, 5])) 3 1) 7 = true then
      some (List.drop 4 ([1, 0, 8, 192, 5] ++ natLe 1 (pec [1, 0, 8, 192, 5]))).dropLast
    else
      match (on []).mctp.assembling with
      | some (a, g, n, bs) =>
        if
            a = fieldLe ([1, 0, 8, 192, 5] ++ natLe 1 (pec [1, 0, 8, 192, 5])) 2 1 ∧
              g = fieldLe ([1, 0, 8, 192, 5] ++ natLe 1 (pec [1, 0, 8, 192, 5])) 3 1 % 16 ∧
                n = bits (fieldLe ([1, 0, 8, 192, 5] ++ natLe 1 (pec [1, 0, 8, 192, 5])) 3 1) 4 2 then
          some (bs ++ (List.drop 4 ([1, 0, 8, 192, 5] ++ natLe 1 (pec [1, 0, 8, 192, 5]))).dropLast)
        else none
      | none => none) =
    some [5]) ∧
  bit (fieldLe ([1, 0, 8, 192, 5] ++ natLe 1 (pec [1, 0, 8, 192, 5])) 3 1) 6 = true ∧
  State.reset.controlServed = false ∧
  (Instr.getEndpointId ∈
    [Instr.setEndpointId 9#8, Instr.getEndpointId, Instr.getMctpVersionSupport, Instr.getMessageTypeSupport,
      Instr.dynamicAddressAssignment 9#7, Instr.mctpPacket ([1, 0, 8, 0, 5] ++ natLe 1 (pec [1, 0, 8, 0, 5]))]) ∧
  (on []).power.boot = Boot.image ∧ case98.power.boot = Boot.image ∧ case98.mctp.spdmVersioned = true ∧
  (on []).mctp.spdmVersioned = false ∧ case99.power.boot = Boot.image ∧ case99.mctp.spdmCapable = true ∧
  (on []).mctp.spdmCapable = false ∧ (on []).mctp.spdmNegotiated = false ∧
  (Instr.getDigests ∈
    [Instr.getDigests, Instr.getCertificate 9#16 9#16, Instr.challenge 9#256, Instr.getMeasurements 9#8 9#256]) ∧
  case100.power.boot = Boot.image ∧ case100.mctp.spdmNegotiated = true ∧
  List.isEmpty (case100.blob oIdCertChain) = false ∧ case101.power.boot = Boot.image ∧
  case101.mctp.spdmNegotiated = true ∧ List.isEmpty (case101.blob oIdCertChain) = true ∧
  case101.power.identity = some 0 ∧ case100.power.identity = none ∧ State.reset.power.boot ≠ Boot.image ∧
  (Instr.getDigests ∈
    [Instr.getVersion, Instr.getCapabilities, Instr.negotiateAlgorithms 9#32 9#32, Instr.getDigests,
      Instr.getCertificate 9#16 9#16, Instr.challenge 9#256, Instr.getMeasurements 9#8 9#256]) := by
  decide +kernel

theorem test_met_BellCount :
  (on []).linkClass ↑0 ≠ 2 ∧ (on [(oLinkClass 0, 2)]).linkClass ↑0 = 2 ∧
  (on [(oLinkClass 0, 2)]).obj oTimeRole ≠ 2 ∧
  (on [(oTimeRole, 2), (oLinkClass 0, 2), (oTimeParentPort, 1)]).linkClass ↑0 = 2 ∧
  (on [(oTimeRole, 2), (oLinkClass 0, 2), (oTimeParentPort, 1)]).obj oTimeRole = 2 ∧
  ↑0 ≠ (on [(oTimeRole, 2), (oLinkClass 0, 2), (oTimeParentPort, 1)]).parentPort ∧
  (follower 0 Bell.init).linkClass ↑0 = 2 ∧ (follower 0 Bell.init).obj oTimeRole = 2 ∧
  ↑0 = (follower 0 Bell.init).parentPort ∧ exchangeValid (follower 0 Bell.init) (exchange 100) = true ∧
  (follower 0 Bell.init).obj oBellState = bellUnlocked ∧ case102.linkClass ↑0 = 2 ∧ case102.obj oTimeRole = 2 ∧
  ↑0 = case102.parentPort ∧ exchangeValid case102 (exchange 100) = true ∧
  case102.obj oBellState = bellAcquiring ∧ (follower bellLocked Bell.init).linkClass ↑0 = 2 ∧
  (follower bellLocked Bell.init).obj oTimeRole = 2 ∧ ↑0 = (follower bellLocked Bell.init).parentPort ∧
  exchangeValid (follower bellLocked Bell.init) (exchange 100) = true ∧
  (follower bellLocked Bell.init).obj oBellState = bellLocked ∧
  (if
        4000 <
          (exchangeOffset (exchange 100)
              (toSigned 32 ((follower bellLocked Bell.init).obj (oAsymmetryPs ↑0)))).natAbs then
      (follower bellLocked Bell.init).bell.bad + 1
    else 0) <
    4 ∧
  case103.linkClass ↑0 = 2 ∧ case103.obj oTimeRole = 2 ∧ ↑0 = case103.parentPort ∧
  exchangeValid case103 (exchange 9000) = true ∧ case103.obj oBellState = bellLocked ∧
  (4 ≤
    if 4000 < (exchangeOffset (exchange 9000) (toSigned 32 (case103.obj (oAsymmetryPs ↑0)))).natAbs then
      case103.bell.bad + 1
    else 0) ∧
  case104.linkClass ↑0 = 2 ∧ case104.obj oTimeRole = 2 := by
  decide +kernel

theorem test_met_BellCount_2 :
  ↑0 = case104.parentPort ∧ exchangeValid case104 (exchange 100) = true ∧
  case104.obj oBellState = bellHoldover ∧ exchangeValid (follower bellLocked Bell.init) case105 = false ∧
  ((follower bellLocked Bell.init).obj oBellState = bellLocked ∨
    (follower bellLocked Bell.init).obj oBellState = bellHoldover) ∧
  exchangeValid (follower 0 Bell.init) case105 = false ∧ (follower 0 Bell.init).obj oBellState ≠ bellLocked ∧
  (follower 0 Bell.init).obj oBellState ≠ bellHoldover ∧ (on []).fnDown Fn.timebase = false ∧
  (on [(oDomainState 38, 0)]).fnDown Fn.timebase = true ∧ (on []).obj oBellState ≠ bellLocked ∧
  (on []).obj oBellState ≠ bellHoldover := by
  decide +kernel

theorem test_met_BeatsAndSteps :
  (on []).dom 38 = domOn ∧ (on [(oDomainState 38, 0)]).dom 38 ≠ domOn ∧ case106.bell.inGuard = true ∧
  (on []).bell.inGuard = false ∧ (admittedWith (planS 0 1) true []).step.running = true ∧
  (admittedWith (planS 0 1) true []).obj oStepBeatNow + 1 < (planS 0 1).timing.stepBeats ∧
  (admittedWith (planS 0 1) true []).obj oStepBeatNow + 1 ≠ (planS 0 1).deadlineBeat ∧
  case107.step.running = false ∧ case107.step.jobAt = some 5 ∧ 5 ≤ case107.bell.beat ∧
  case107.step.stopped = false ∧ case107.step.releaseWaiting = false ∧ (on []).step.verdict = none ∧
  case109.step.verdict = some case108 ∧ bit case108.verdict 0 = true ∧ bit case108.verdict 3 = true ∧
  ((match List.find? (fun e => e % 2 ^ 32 == (on []).obj oStepNow) (on []).history with
    | some e => bits e 32 32 != ((on []).lossBits plan0.recipe).snd || bits e 64 16 != (on []).step.lsExp
    | none => false) =
    false) ∧
  ((match
      List.find? (fun e => e % 2 ^ 32 == (on [(oHistoryFill, 1), (oLossEntry 0, 5 * 2 ^ 32)]).obj oStepNow)
        (on [(oHistoryFill, 1), (oLossEntry 0, 5 * 2 ^ 32)]).history with
    | some e =>
      bits e 32 32 != ((on [(oHistoryFill, 1), (oLossEntry 0, 5 * 2 ^ 32)]).lossBits plan0.recipe).snd ||
        bits e 64 16 != (on [(oHistoryFill, 1), (oLossEntry 0, 5 * 2 ^ 32)]).step.lsExp
    | none => false) =
    true) := by
  decide +kernel

theorem test_met_DomainWakes :
  (List.find? (fun r => !case110.heldOff r.domain) case110.power.requests = some case111) ∧
  case111.domain < 50 ∧
  (List.find? (fun r => !(admittedWith planW true [(oDomainState 10, domGated)]).heldOff r.domain)
      (admittedWith planW true [(oDomainState 10, domGated)]).power.requests =
    none) ∧
  (admittedWith planW true [(oDomainState 10, domGated)]).item? (0#16).toNat = some case112 ∧ case112.kind = 9 ∧
  case112.unit < 50 ∧
  ((admittedWith planW true [(oDomainState 10, domGated)]).dom case112.unit = domGated ∨
    (admittedWith planW true [(oDomainState 10, domGated)]).dom case112.unit = domOff) ∧
  (admittedWith planW true [(oDomainState 10, domGated)]).heldOff case112.unit = false ∧
  (admittedWith planW true []).item? (0#16).toNat = some case112 ∧
  (¬ ((admittedWith planW true []).dom case112.unit = domGated ∨ (admittedWith planW true []).dom case112.unit = domOff) ∨
    (admittedWith planW true []).heldOff case112.unit = true) ∧
  (admittedWith planW true []).item? (1#16).toNat = some case113 ∧ case113.kind = 10 ∧ case113.unit < 50 ∧
  ((admittedWith planW true []).dom case113.unit = domOn ∨ (admittedWith planW true []).dom case113.unit = domWaking) ∧
  (admittedWith planW true [(oDomainState 10, domGated)]).item? (1#16).toNat = some case113 ∧
  (¬ ((admittedWith planW true [(oDomainState 10, domGated)]).dom case113.unit = domOn ∨
      (admittedWith planW true [(oDomainState 10, domGated)]).dom case113.unit = domWaking)) ∧
  (Option.all (fun i => i.kind != 9) (case110.item? (0#16).toNat) = true) ∧
  (Option.all (fun i => i.kind != 10) (case110.item? (0#16).toNat) = true) ∧
  (List.find? (fun w => w.domain == ↑10) case114.power.waking = some case115) ∧
  (List.find? (fun w => w.domain == ↑0) case110.power.waking = none) := by
  decide +kernel

theorem test_met_RingTuning :
  ((case116.ringAt (ringKey (RingId.tx 0 0))).state ≠ 1 ∨
    65 ≤ (case116.ringAt (ringKey (RingId.tx 0 0))).steps ∨
      ¬ (case116.admitted = false ∨
          case116.bell.inGuard = true ∧ (case116.ringAt (ringKey (RingId.tx 0 0))).stepBeat < case116.bell.beat)) ∧
  (case117.ringAt (ringKey (RingId.tx 0 0))).state = 1 ∧
  (case117.admitted = false ∨
    case117.bell.inGuard = true ∧ (case117.ringAt (ringKey (RingId.tx 0 0))).stepBeat < case117.bell.beat) ∧
  (case117.ringAt (ringKey (RingId.tx 0 0))).steps < 64 ∧ (case118.ringAt (ringKey (RingId.tx 0 0))).state = 1 ∧
  (case118.admitted = false ∨
    case118.bell.inGuard = true ∧ (case118.ringAt (ringKey (RingId.tx 0 0))).stepBeat < case118.bell.beat) ∧
  (case118.ringAt (ringKey (RingId.tx 0 0))).steps = 64 ∧ (case116.ringAt (ringKey (RingId.tx 0 0))).state = 2 ∧
  (case116.ringAt (ringKey (RingId.tx 0 0))).waits = false ∧
  ((case117.ringAt (ringKey (RingId.tx 0 0))).state ≠ 2 ∨ (case117.ringAt (ringKey (RingId.tx 0 0))).waits = true) ∧
  (case119.ringAt (ringKey (RingId.tx 0 0))).state = 3 ∧ case120 ≠ [] ∧
  wrongTone (ringLane (ringKey (RingId.tx 0 0))) case120 = none ∧
  (case121 = [] ∨ wrongTone (ringLane (ringKey (RingId.tx 0 0))) case121 ≠ none) ∧
  (case119.ringAt (ringKey (RingId.tx 0 0))).cands = [] ∧ (case202.ringAt (ringKey (RingId.tx 0 0))).state = 3 ∧
  (case202.ringAt (ringKey (RingId.tx 0 0))).cands ≠ [] ∧ (case122.ringAt (ringKey (RingId.tx 0 0))).state = 4 ∧
  wrongTone (ringLane (ringKey (RingId.tx 0 0))) case121 ≠ none ∧
  (case203.ringAt (ringKey (RingId.tx 0 0))).state = 5 ∧
  (case203.ringAt (ringKey (RingId.tx 0 0))).dark = false ∧
  ((case117.ringAt (ringKey (RingId.tx 0 0))).state = 5 ∧
      (case117.ringAt (ringKey (RingId.tx 0 0))).dark = false ∧ case120 = [] ∨
    (case117.ringAt (ringKey (RingId.tx 0 0))).state = 5 ∧ (case117.ringAt (ringKey (RingId.tx 0 0))).dark = true ∨
      (case117.ringAt (ringKey (RingId.tx 0 0))).state < 3 ∨ 5 < (case117.ringAt (ringKey (RingId.tx 0 0))).state) ∧
  (case117.ringAt (ringKey (RingId.tx 0 0))).state ≠ 4 ∧ (case123.ringAt (ringKey (RingId.tx 0 0))).state = 5 ∧
  (case117.ringAt (ringKey (RingId.tx 0 0))).state ≠ 5 ∧ case204.ring = RingId.tx 0 0 ∧
  (case202.ringAt (ringKey (RingId.tx 0 0))).state ≠ 4 ∧ case205.ring = RingId.tx 0 0 ∧
  (8 < BitVec.toNat case205.ringMw ∨ 60000 < BitVec.toNat case205.totalMw) ∧
  (¬ (8 < BitVec.toNat case204.ringMw ∨ 60000 < BitVec.toNat case204.totalMw)) := by
  decide +kernel

theorem test_met_LasersAndSupplies :
  (on [(oDomainState 24, 0)]).fnDown Fn.optics = true ∧ (on []).fnDown Fn.optics = false ∧ 0 < 6 ∧
  (feeding 65336 []).marginMin 0 = some 100 ∧ 100 < 150 ∧ (feeding 1000 []).marginMin 0 = some 1300 ∧
  200 ≤ 1300 ∧ (feeding 65416 []).marginMin 0 = some 180 ∧ 150 ≤ 180 ∧ 180 < 200 ∧
  ((((feeding 1000 []).fed ↑0).any fun e => e.snd == ↑0) = true) ∧
  (feeding 1000 []).standbyFit (↑0) 150 = true ∧
  ((((feeding 65336 []).fed ↑0).any fun e => e.snd == ↑0) = true) ∧
  (feeding 65336 []).standbyFit (↑0) 150 = false ∧ ((((on []).fed ↑0).any fun e => e.snd == ↑0) = false) ∧
  (on [(oClState 0, 0)]).activeLaser ↑0 = none ∧ (on []).activeLaser ↑0 = some 0 ∧
  bits ((on []).obj (oClState ↑0)) (2 * (1 - 0)) 2 = 0 ∧ (on [(oClState 0, 9)]).activeLaser ↑0 = some 0 ∧
  bits ((on [(oClState 0, 9)]).obj (oClState ↑0)) (2 * (1 - 0)) 2 ≠ 0 ∧
  (List.find? (fun r => !r.again) (on []).lsc = none) ∧
  (List.find? (fun r => !r.again)
      (on
          [(oDomainState 45, 0), (oDomainState 39, 0), (oDomainState 40, 0), (oDomainState 41, 0), (oDomainState 42, 0),
            (oDomainState 43, 0)]).lsc =
    none) ∧
  (List.find? (fun r => !r.again) case124.lsc = some case125) ∧ case125.input < 6 ∧ case125.op = 0 ∧
  (List.find? (fun r => !r.again) case178.lsc = some case177) ∧ case177.input < 6 ∧ case177.op = 1 ∧
  (List.find? (fun r => !r.again) case180.lsc = some case179) ∧ case179.input < 6 ∧ 1 < case179.op := by
  decide +kernel

theorem test_met_MemoryUpkeep :
  (¬ ((case126.obj oPowerState = 1 ∨ case126.obj oPowerState = 2) ∧
      case126.obj oMemState ≠ 0 ∧ case126.power.warmReset = none)) ∧
  ((on [(oMemState, 1)]).obj oPowerState = 1 ∨ (on [(oMemState, 1)]).obj oPowerState = 2) ∧
  (on [(oMemState, 1)]).obj oMemState ≠ 0 ∧ (on [(oMemState, 1)]).power.warmReset = none ∧
  (¬ (false = false ∧
      (on [(oMemState, 1)]).marked ((on [(oMemState, 1)]).obj oScrubPosition) = false ∧
        ((on [(oMemState, 1)]).quiet.strike []).mem.errors.get 0 ((on [(oMemState, 1)]).obj oScrubPosition) ≠ 0)) ∧
  false = false ∧ (on [(oMemState, 1)]).marked ((on [(oMemState, 1)]).obj oScrubPosition) = false ∧
  ((on [(oMemState, 1)]).quiet.strike case229).mem.errors.get 0 ((on [(oMemState, 1)]).obj oScrubPosition) ≠ 0 ∧
  decodeWord
      (storedWord (memRead (on [(oMemState, 1)]).mem.bytes ((on [(oMemState, 1)]).obj oScrubPosition) 64)
        (((on [(oMemState, 1)]).quiet.strike case229).mem.errors.get 0 ((on [(oMemState, 1)]).obj oScrubPosition))) =
    Decoded.clean ∧
  ((on [(oMemState, 1)]).quiet.strike case186).mem.errors.get 0 ((on [(oMemState, 1)]).obj oScrubPosition) ≠ 0 ∧
  decodeWord
      (storedWord (memRead (on [(oMemState, 1)]).mem.bytes ((on [(oMemState, 1)]).obj oScrubPosition) 64)
        (((on [(oMemState, 1)]).quiet.strike case186).mem.errors.get 0 ((on [(oMemState, 1)]).obj oScrubPosition))) =
    Decoded.corrected (List.replicate 36 0) ∧
  ((on [(oMemState, 1)]).quiet.strike case181).mem.errors.get 0 ((on [(oMemState, 1)]).obj oScrubPosition) ≠ 0 ∧
  decodeWord
      (storedWord (memRead (on [(oMemState, 1)]).mem.bytes ((on [(oMemState, 1)]).obj oScrubPosition) 64)
        (((on [(oMemState, 1)]).quiet.strike case181).mem.errors.get 0 ((on [(oMemState, 1)]).obj oScrubPosition))) =
    Decoded.detected ∧
  (on [(oMemState, 1)]).mem.copying = [] ∧ case126.mem.copying = [4] ∧ case127.power.zeroing = true ∧
  (on [(oMemState, 1)]).power.zeroing = false ∧ (on [(oMemState, 1)]).power.aux = true ∧
  State.reset.power.aux = false := by
  decide +kernel

theorem test_met_PowerPins :
  case128.power.pwrEn = true ∧ case129.power.pwrEn = false ∧ case129.power.auxSettled = true ∧
  ((case129.inRange48 &&
      (fun s => s.power.powerUp.isNone && s.obj oPowerState == 0 && s.power.resetN && !s.power.thermTripN) case129) =
    true) ∧
  case189.power.pwrEn = false ∧ case189.power.auxSettled = true ∧
  ((case189.inRange48 &&
      (fun s => s.power.powerUp.isNone && s.obj oPowerState == 0 && s.power.resetN && !s.power.thermTripN) case189) =
    false) ∧
  case130.power.pwrEn = false ∧ case130.power.auxSettled = false ∧
  (case129.power.powerUp.isSome && !case129.power.zeroing && !case129.power.selfTestStart) = false ∧
  (case128.power.powerUp.isSome && !case128.power.zeroing && !case128.power.selfTestStart) = true ∧
  case128.power.powerUp = some 0 ∧ case129.power.aux = true ∧ State.reset.power.aux = false ∧
  (case129.power.aux && !case129.power.auxSettled) = false ∧
  (case130.power.aux && !case130.power.auxSettled) = true ∧
  (case190.power.aux && !case190.power.auxSettled) = true ∧ case190.power.pwrEn = true ∧
  ((case190.inRange48 && !case190.power.latchedOff &&
      (fun s => s.power.powerUp.isNone && s.obj oPowerState == 0 && s.power.resetN && !s.power.thermTripN) case190) =
    true) ∧
  (case191.power.aux && !case191.power.auxSettled) = true ∧ case191.power.pwrEn = true ∧
  ((case191.inRange48 && !case191.power.latchedOff &&
      (fun s => s.power.powerUp.isNone && s.obj oPowerState == 0 && s.power.resetN && !s.power.thermTripN) case191) =
    false) ∧
  (case130.obj oPowerState ≠ 0 ∨ case130.power.powerUp.isSome = true) ∧
  ((0#32).toNat < 38000 ∨ 62000 < (0#32).toNat) ∧ (¬ ((39000#32).toNat < 38000 ∨ 62000 < (39000#32).toNat)) ∧
  case130.inRange48 = true ∧ ((39000#32).toNat < 40000 ∨ 60000 < (39000#32).toNat) ∧
  ((case129.obj oPowerState ≠ 0 ∨ case129.power.powerUp.isSome = true) ∧
      ¬ ((0#32).toNat < 38000 ∨ 62000 < (0#32).toNat) ∧
        ¬ (case129.inRange48 = true ∧ ((0#32).toNat < 40000 ∨ 60000 < (0#32).toNat)) ∨
    ¬ (case129.obj oPowerState ≠ 0 ∨ case129.power.powerUp.isSome = true) ∧
      (case129.power.pwrEn && case129.power.auxSettled && !case129.power.latchedOff && case129.power.resetN &&
              !case129.power.thermTripN &&
            decide (40000 ≤ (0#32).toNat) &&
          decide ((0#32).toNat ≤ 60000)) =
        false) ∧
  (¬ ((powered up [(oPowerState, 0)]).obj oPowerState ≠ 0 ∨ (powered up [(oPowerState, 0)]).power.powerUp.isSome = true)) ∧
  ((powered up [(oPowerState, 0)]).power.pwrEn && (powered up [(oPowerState, 0)]).power.auxSettled &&
              !(powered up [(oPowerState, 0)]).power.latchedOff &&
            (powered up [(oPowerState, 0)]).power.resetN &&
          !(powered up [(oPowerState, 0)]).power.thermTripN &&
        decide (40000 ≤ (48000#32).toNat) &&
      decide ((48000#32).toNat ≤ 60000)) =
    true := by
  decide +kernel

theorem test_met_Resets :
  1000 ≤ (1000#32).toNat ∧ (on []).obj oPowerState ≠ 0 ∧ (on []).power.copying = false ∧
  case192.obj oPowerState ≠ 0 ∧ case192.power.copying = true ∧
  ((10#32).toNat < 1000 ∨ (on []).obj oPowerState = 0) ∧
  ((on []).power.pwrEn && (on []).power.auxSettled && (on []).inRange48 && !(on []).power.latchedOff &&
          (on []).power.powerUp.isNone &&
        (on []).obj oPowerState == 0 &&
      !(on []).power.thermTripN) =
    false ∧
  ((powered up [(oPowerState, 0)]).power.pwrEn && (powered up [(oPowerState, 0)]).power.auxSettled &&
              (powered up [(oPowerState, 0)]).inRange48 &&
            !(powered up [(oPowerState, 0)]).power.latchedOff &&
          (powered up [(oPowerState, 0)]).power.powerUp.isNone &&
        (powered up [(oPowerState, 0)]).obj oPowerState == 0 &&
      !(powered up [(oPowerState, 0)]).power.thermTripN) =
    true ∧
  (on []).power.boot = Boot.image ∧ case192.power.boot = Boot.image ∧
  ((powered up [(oPowerState, 0)]).power.boot ≠ Boot.image ∨ (powered up [(oPowerState, 0)]).obj oPowerState = 0) ∧
  case131.power.warmReset = some ResetCause.pin ∧ case131.power.boot = Boot.image ∧ case131.resetAwake = true ∧
  ((on []).power.warmReset = none ∨ (on []).power.boot ≠ Boot.image ∨ (on []).resetAwake = false) := by
  decide +kernel

theorem test_met_TemperatureAndCurrent :
  (¬ (State.reset.obj oPowerState ≠ 0 ∨ State.reset.power.powerUp.isSome = true)) ∧
  ((on []).obj oPowerState ≠ 0 ∨ (on []).power.powerUp.isSome = true) ∧
  (hottest [5000] [5000] [5000]).fst < 12500 ∧
  ((hottest [5000] [5000] [5000]).fst < 11500 ∨ (on []).power.thermalHeld = true) ∧
  11500 ≤ (hottest [5000] [5000] [11600]).fst ∧ (hottest [5000] [5000] [11600]).fst < 12500 ∧
  (on []).power.thermalHeld = false ∧ 12500 ≤ (hottest [5000] [5000] [12600]).fst ∧
  (¬ ((on []).dom ↑3 = domOff ∨ (on []).dom ↑3 = domCapped)) ∧ currentCap ↑3 < (200000#32).toNat ∧
  (((on []).dom ↑3 = domOff ∨ (on []).dom ↑3 = domCapped) ∨ (3#32).toNat ≤ currentCap ↑3) := by
  decide +kernel

theorem test_met_SecurityViolations :
  case132.power.boot = Boot.image ∧ (¬ natLe 48 (1#384).toNat = case132.blob oFwRunningDigest) ∧
  (case132.power.boot ≠ Boot.image ∨ natLe 48 (0#384).toNat = case132.blob oFwRunningDigest) ∧
  case132.power.aux = true ∧ State.reset.power.aux = false ∧ (on [(oLcState, 2)]).power.aux = true ∧
  ((on [(oLcState, 2)]).obj oLcState = 2 ∨ (on [(oLcState, 2)]).obj oLcState = 4) ∧
  (case132.power.aux = false ∨ ¬ (case132.obj oLcState = 2 ∨ case132.obj oLcState = 4)) := by
  decide +kernel
/-! ### The checks of well-formed commands, each with a term that it refuses -/

theorem test_refused_data : Instr.wf (.readObject (req 0x1018 1 13 0 (zeros 1025))) = false := by decide +kernel

theorem test_refused_own_row : Instr.wf (.writeObject (req 0x1019 1 13 16 (zeros 16))) = false := by decide +kernel

theorem test_accepted_write : Instr.wf (.writeObject (req 0x1020 6 3 2 [100, 0])) = true := by decide +kernel

theorem test_refused_segments :
    Instr.wf (.segDataWrite (req 0x2020 1 15 0 [])) = false ∧ Instr.wf (.segDataRead (req 0x2020 1 15 0 [1])) = false ∧
    Instr.wf (.segEndWrite (req 0x2020 1 15 0 [1])) = false ∧ Instr.wf (.segEndRead (req 0x2020 1 15 0 [1])) = false := by
  decide +kernel

theorem test_refused_token : Instr.wf (.lcRequestDiag q (token 2)) = false ∧ Instr.wf (.lcRequestDiag q []) = false ∧
    Instr.wf (.lcRequestDeployed q (token 3)) = false ∧ Instr.wf (.lcRequestRetire q (token 3)) = false := by
  decide +kernel

theorem test_refused_beat_change : Instr.wf (.beatChangeAt q false 65536) = false := by decide +kernel

theorem test_refused_mctp : Instr.wf (.mctpPacket (zeros 70)) = false := by decide +kernel

theorem test_refused_exchange : Instr.wf (.timeExchange 0 { exchange 0 with beatUs := 19 }) = false := by decide +kernel

theorem test_refused_payload : Instr.wf (.doorbell (pkt 0 0 (zeros 4097))) = false := by decide +kernel

theorem test_refused_mailbox : Instr.wf (.mailboxGo 0 [] 0 0) = false := by decide +kernel

theorem test_refused_samples : Instr.wf (.thermalSample [] [] []) = false ∧ Instr.wf (.txMonitorSample 0 [] 0) = false ∧
    Instr.wf (.toneWindow (.tx 0 0) (List.replicate 17 ⟨0, false⟩) 0 0) = false := by decide +kernel

/-! ### The manual's worked values -/

/-- Chapter 4, 0.3 to E4M3 under each rounding mode. -/
theorem test_e4m3_of_0_3 :
    (fmtE4m3.store (fmtFp32.decode 0x3E99999A) .rne 0).bits = 0x2A ∧
    (fmtE4m3.store (fmtFp32.decode 0x3E99999A) .rtz 0).bits = 0x29 ∧
    (fmtE4m3.store (fmtFp32.decode 0x3E99999A) .sr 0x7F0000).bits = 0x2A ∧
    (fmtE4m3.store (fmtFp32.decode 0x3E99999A) .sr 0x123456).bits = 0x29 ∧
    (fmtE4m3.store (fmtFp32.decode 0x3E99999A) .sr 0x666660).bits = 0x2A ∧
    (fmtE4m3.store (fmtFp32.decode 0x3E99999A) .sr 0x66665F).bits = 0x29 := by decide +kernel

/-- Chapter 4, an MX_E4M3 block of 3.0 and 0.3. -/
theorem test_mx_block :
    mxStore 7 [fmtFp32.decode 0x40400000, fmtFp32.decode 0x3E99999A] .rne [0, 0] = ⟨0x78, [0x7C, 0x62], 0⟩ := by
  decide +kernel

/-- Table 04-6, the pieces of 1/3. -/
theorem test_split_pieces : splitPieces 0x3EAAAAAB = [0x3EAB, 0xBA2B, 0x35AC] := by decide +kernel

/-- Chapter 5, cancellation under the anchor 38. -/
theorem test_tally_cancels :
    let x := (Tally.zero.enter 38 ⟨1, 0⟩ 0).tally
    x.t = 2 ^ 112 ∧ residueOf x.t x.w = 0x0008000000000000 ∧ toFp32 (x.value 38 0) .rne 0 = 0x3F800000 := by decide +kernel

/-- Table 05-9, the drain under two draws: a term of 2^26 + 4.875 units of 2^-130. -/
theorem test_tally_below_window :
    let x := (Tally.zero.enter 20 ⟨2 ^ 29 + 39, -133⟩ 0x3A41C7)
    let y := (Tally.zero.enter 20 ⟨2 ^ 29 + 39, -133⟩ 0x1FFFFF)
    x.tally.t = 0x04000005 ∧ x.below = true ∧ toFp32 (x.tally.value 20 0) .rne 0 = 0x0B800001 ∧
    y.tally.t = 0x04000004 ∧ y.below = true ∧ toFp32 (y.tally.value 20 0) .rne 0 = 0x0B800000 := by decide +kernel

/-- Three terms of 2^40 with the given signs under the anchor 0. -/
def three (a b c : Int) : Tally :=
  (((((Tally.zero.enter 0 ⟨a, 40⟩ 0).tally).enter 0 ⟨b, 40⟩ 0).tally).enter 0 ⟨c, 40⟩ 0).tally

/-- Table 05-10, a wrap and its return, and a sum beyond the range. -/
theorem test_tally_wraps :
    three 1 1 (-1) = three 1 (-1) 1 ∧ (three 1 1 (-1)).t = 2 ^ 190 ∧ (three 1 1 (-1)).w = 0 ∧
    residueOf (three 1 1 (-1)).t 0 = 128 ∧ toFp32 ((three 1 1 (-1)).value 0 0) .rne 0 = 0x53800000 ∧
    (three 1 1 1).w = 1 ∧ (three 1 1 1).overflowed = true ∧ toFp32 ((three 1 1 1).value 0 0) .rne 0 = 0x7F800000 := by
  decide +kernel

/-- Chapter 11, the stack and channel of 0x0080_1234_5678. -/
theorem test_channel : channelOf 0x008012345678 = 64 + 8 := by decide +kernel

/-- Table 17-3: domain 10 starts at its request, domain 22 waits until 3,000 ns. -/
theorem test_wake_governor :
    earliestWake [⟨2000, 0⟩, ⟨2400, 1⟩] 10 2200 = 2200 ∧
    earliestWake [⟨2000, 0⟩, ⟨2200, 10⟩, ⟨2400, 1⟩] 22 2200 = 3000 := by decide +kernel

/-- Table 07-16, the fields of its instructions 1, 5 and 8. -/
theorem test_vector_fields :
    iOp 0x08611000 = 2 ∧ iRd 0x08611000 = 1 ∧ iA 0x08611000 = 0x10 ∧ iB 0x08611000 = 0x11 ∧
    iOp 0x08EB9001 = 2 ∧ iRd 0x08EB9001 = 3 ∧ iA 0x08EB9001 = 0x15 ∧ iB 0x08EB9001 = 0x19 ∧ iFlags 0x08EB9001 = 1 ∧
    iOp 0xA00A0005 = 0x28 ∧ iA 0xA00A0005 = 5 ∧ iFlags 0xA00A0005 = 5 := by decide +kernel

/-- EXP2 of the differences 0, −1, −6 and −8 of chapter 7's softmax is exact. -/
theorem test_exp2_exact :
    laneExp2 0 = 0x3F800000 ∧ laneExp2 0xBF800000 = 0x3F000000 ∧ laneExp2 0xC0C00000 = 0x3C800000 ∧
    laneExp2 0xC1000000 = 0x3B800000 := by decide +kernel

/-- Chapter 2, a read of FEATURES_OFFERED with TAG 0x42: sixteen bytes, bits 13 to 0 set. -/
theorem test_read_features_offered :
    (match exec (.readObject ⟨.inBand, 0, 0, 0, 0x42, 0x1018, 1, 0x0D, 0, 0, 0, []⟩) (on []) with
      | .next t => t.out
      | _ => []) = [.response .inBand ⟨0x81, 0x42, 0x1018, 1, 0x0D, 16, 0, [0xFF, 0x3F] ++ zeros 14⟩] := by decide +kernel

/-- Chapter 11, a line with one data symbol set: its check symbols are the generator's lower coefficients, so the word is
clean, one symbol in error is corrected, and three in error are detected. -/
theorem test_line_code :
    let w := List.replicate 31 0 ++ [1] ++ checkSymbols (List.replicate 31 0 ++ [1])
    genPoly = [64, 120, 54, 15, 1] ∧ decodeWord w = .clean ∧ decodeWord (fixSymbols w [(3, 0x8001)]) = .corrected w ∧
    decodeWord (fixSymbols w [(3, 5), (35, 9)]) = .corrected w ∧
    decodeWord (fixSymbols w [(0, 1), (1, 1), (2, 1)]) = .detected := by decide +kernel

end Sys2Proof.Tests
end

/-! ROOT_SET (R62): the TIME value that the command carries, what its action does in each of its three cases, and
the statement about it. -/

namespace Sys2Proof.Machine

/-! ### A TIME value read from its bytes -/

theorem leNat_append (xs ys : Bytes) : leNat (xs ++ ys) = leNat xs + 256 ^ xs.length * leNat ys := by
  induction xs with
  | nil => rw [List.nil_append, leNat, List.length_nil, Nat.pow_zero, Nat.one_mul, Nat.zero_add]
  | cons x xs ih =>
    have hp : 256 * (256 ^ xs.length * leNat ys) = 256 ^ (xs.length + 1) * leNat ys := by
      rw [← Nat.mul_assoc, Nat.pow_succ, Nat.mul_comm 256]
    rw [List.cons_append, leNat, leNat, ih, Nat.mul_add, hp, List.length_cons, Nat.add_assoc]

/-- The bytes of a TIME value read as one number (Table 02-1). -/
theorem leNat_timeBytes (b : W64) (o : W32) :
    leNat (natLe 8 b.toNat ++ natLe 4 o.toNat) = b.toNat + 2 ^ 64 * o.toNat := by
  have hb : leNat (natLe 8 b.toNat) = b.toNat := by rw [leNat_natLe]; exact Nat.mod_eq_of_lt b.isLt
  have ho : leNat (natLe 4 o.toNat) = o.toNat := by rw [leNat_natLe]; exact Nat.mod_eq_of_lt o.isLt
  rw [leNat_append, natLe_length, hb, ho, show (256 ^ 8 : Nat) = 2 ^ 64 by decide]

theorem bits_timeBytes_beat (b : W64) (o : W32) :
    bits (leNat (natLe 8 b.toNat ++ natLe 4 o.toNat)) 0 64 = b.toNat := by
  have hb := b.isLt
  rw [leNat_timeBytes, bits]
  omega

theorem bits_timeBytes_off (b : W64) (o : W32) :
    bits (leNat (natLe 8 b.toNat ++ natLe 4 o.toNat)) 64 32 = o.toNat := by
  have hb := b.isLt
  have ho := o.isLt
  rw [leNat_timeBytes, bits]
  omega

/-! ### The action of ROOT_SET -/

/-- The state with the root's count set to a TIME value, and BELL_STATE at ROOT where it was UNLOCKED (R62, Table
03-1): what ROOT_SET does before its result word. -/
def State.withRootCount (s : State) (v : Nat) : State :=
  let t := { s with bell := { s.bell with beat := bits v 0 64, off := bits v 64 32, fracPs := 0, steerPs := 0,
                                          rootSet := true } }
  if s.obj oBellState = bellUnlocked then t.setObj oBellState bellRoot else t

theorem State.withRootCount_bell (s : State) (v : Nat) :
    (s.withRootCount v).bell =
      { s.bell with beat := bits v 0 64, off := bits v 64 32, fracPs := 0, steerPs := 0, rootSet := true } := by
  unfold State.withRootCount
  split <;> rfl

theorem State.withRootCount_obj_bellState (s : State) (v : Nat) (h : s.obj oBellState = bellUnlocked) :
    (s.withRootCount v).obj oBellState = bellRoot := by
  rw [State.withRootCount, if_pos h, State.obj_setObj_self]

theorem State.withRootCount_obj_ne (s : State) (v : Nat) {k : Nat} (hk : k ≠ oBellState) :
    (s.withRootCount v).obj k = s.obj k := by
  unfold State.withRootCount
  split
  · exact State.obj_setObj_ne _ _ hk
  · rfl

theorem State.actRootSet_of_admitted {s : State} (v : Nat) (h : s.admitted = true) :
    s.actRootSet v = s.cmdFail oRootSet abPlanAdmitted := by
  rw [State.actRootSet, if_pos h]

theorem State.actRootSet_of_not_root {s : State} (v : Nat) (h : s.admitted = false) (hr : s.obj oTimeRole ≠ 1) :
    s.actRootSet v = s.cmdFail oRootSet abValueRange := by
  rw [State.actRootSet, if_neg (Bool.eq_false_iff.mp h), if_pos hr]

theorem State.actRootSet_of_root {s : State} (v : Nat) (h : s.admitted = false) (hr : s.obj oTimeRole = 1) :
    s.actRootSet v = (s.withRootCount v).cmdDone oRootSet := by
  rw [State.actRootSet, if_neg (Bool.eq_false_iff.mp h), if_neg (fun hn => hn hr)]
  rfl

theorem State.cmdDone_bell (s : State) (k : Nat) : (s.cmdDone k).bell = s.bell := by
  rw [State.cmdDone, (State.cmdEvent_logs _ k).bell, State.setResult, State.setObj_bell]

/-- A served ROOT_SET runs its action on the TIME value written. -/
theorem does_rootSet {q : WReq} {b : W64} {o : W32} {s : State} {P : State → Prop}
    (h : P (s.quiet.actRootSet (leNat (natLe 8 b.toNat ++ natLe 4 o.toNat)))) :
    Does (.rootSet q b o) s q oRootSet (natLe 8 b.toNat ++ natLe 4 o.toNat) P := by
  have hr : rowOfKey oRootSet = some ⟨0x2010, 1, 4, 4, .time, .cmd, (.num 0), .d, [], 0⟩ := by decide
  exact Does.cmd rfl (by decide) hr rfl rfl h

/-- On the root with no plan admitted, ROOT_SET sets the count and answers done (R62). -/
theorem does_rootSet_of_root (q : WReq) (b : W64) (o : W32) (s : State) (h : s.admitted = false)
    (hr : s.obj oTimeRole = 1) :
    Does (.rootSet q b o) s q oRootSet (natLe 8 b.toNat ++ natLe 4 o.toNat)
      (fun u => u.bell.beat = b.toNat ∧ u.bell.off = o.toNat ∧ u.obj oRootSet = 0x20000 ∧
        (s.obj oBellState = 0 → u.obj oBellState = bellRoot) ∧
        SameObj s u ([oRootSet, oBellState] ++ eventKeys)) := by
  refine does_rootSet ?_
  rw [State.actRootSet_of_root (s := s.quiet) _ h hr, State.cmdDone_bell, State.withRootCount_bell]
  refine ⟨bits_timeBytes_beat b o, bits_timeBytes_off b o, State.cmdDone_obj _ _ (by decide), fun hu => ?_,
    fun k hk => ?_⟩
  · rw [State.cmdDone_obj_ne _ (by decide) (by decide)]
    exact State.withRootCount_obj_bellState _ _ hu
  · simp only [List.mem_append, List.mem_cons, List.not_mem_nil, or_false, not_or] at hk
    obtain ⟨⟨hRoot, hBell⟩, hEvent⟩ := hk
    rw [State.cmdDone_obj_ne _ hRoot hEvent, State.withRootCount_obj_ne _ _ hBell, State.quiet_obj]

/-- Settles O16: the three cases of the action of ROOT_SET, each run by a served write of it. -/
theorem rootSet : Obligations.RootSet := by
  unfold Obligations.RootSet
  refine ⟨does_rootSet_of_root, fun q b o s h => does_rootSet ?_, fun q b o s h hr => does_rootSet ?_⟩
  · exact State.actRootSet_of_admitted (s := s.quiet) _ h
  · exact State.actRootSet_of_not_root (s := s.quiet) _ h hr

end Sys2Proof.Machine

/-! ### The alert pin -/

namespace Sys2Proof.Machine

/-- Settles O57: each disjunct of the pin's Boolean decides one of R461's four conditions, the last two of them the two
ends of the 48 V range. -/
theorem alertPin : Obligations.AlertPin := by
  unfold Obligations.AlertPin
  intro s
  simp only [State.alert, Bool.or_eq_true, beq_iff_eq, bne_iff_ne, decide_eq_true_eq, or_assoc]

end Sys2Proof.Machine

namespace Sys2Proof.Machine

/-! ### The steps of the machine -/

/-- Settles O3: what `Keeps` says of every command. -/
theorem everyCommandAnswers : Obligations.EveryCommandAnswers := by
  unfold Obligations.EveryCommandAnswers
  intro c s
  obtain ⟨t, ht, hk⟩ := (exec_keeps c (Keeps.refl s)).next_keeps
  exact ⟨t, ht, hk.pending, hk.now⟩

/-- Soundness does not depend on the queue of commands. -/
theorem State.sound_pending (s : State) (l : List Instr) : ({ s with pending := l } : State).sound = s.sound := rfl

/-- Settles O4: an empty queue lets one nanosecond pass, and every command keeps a sound state sound. -/
theorem stepKeepsSound : Obligations.StepKeepsSound := by
  unfold Obligations.StepKeepsSound StepSafe
  intro s hs
  cases hp : s.pending with
  | nil =>
    have hk := State.tick_keeps (Keeps.refl s)
    exact ⟨s.tick, by rw [step, hp], hk.sound hs, hk.now, hk.pending.trans hp⟩
  | cons c rest =>
    obtain ⟨t, ht, hk⟩ := (exec_keeps c (Keeps.refl { s with pending := rest })).next_keeps
    exact ⟨t, by rw [step, hp, ← ht], hk.sound ((s.sound_pending rest).trans hs), hk.now, hk.pending⟩

/-- Settles O1. -/
theorem stepRunsFrontCommand : Obligations.StepRunsFrontCommand := by
  unfold Obligations.StepRunsFrontCommand
  intro s c rest h
  rw [step, h]

/-- Settles O2: the step is `tick`. -/
theorem idleStepPassesOneNanosecond : Obligations.IdleStepPassesOneNanosecond := by
  unfold Obligations.IdleStepPassesOneNanosecond
  intro s h
  exact ⟨s.tick, by rw [step, h], rfl, rfl, rfl, h, rfl⟩

/-- Settles O5: nothing is stored at reset. -/
theorem resetIsSound : Obligations.ResetIsSound := by
  unfold Obligations.ResetIsSound
  decide

/-- Settles O6: every object reads its default, and no bank holds anything. -/
theorem resetValues : Obligations.ResetValues := by
  unfold Obligations.ResetValues
  refine ⟨?_, ?_, ?_, ?_, ?_, ?_, ?_, ?_, ?_, rfl, ?_, fun a => rfl, ?_, rfl⟩
  all_goals decide +kernel

/-! ### A control core's registers -/

theorem CoreSt.x_zero (c : CoreSt) : c.x 0 = 0 := if_pos rfl

theorem CoreSt.setX_zero (c : CoreSt) (v : Nat) : c.setX 0 v = c := if_pos rfl

theorem CoreSt.x_setX_self (c : CoreSt) {r : Nat} (v : Nat) (hr : r ≠ 0) : (c.setX r v).x r = v % 2 ^ 64 := by
  rw [CoreSt.x, if_neg hr, CoreSt.setX, if_neg hr, Bank.get_set, if_pos rfl]

theorem CoreSt.x_setX_ne (c : CoreSt) {r j : Nat} (v : Nat) (h : j ≠ r) : (c.setX r v).x j = c.x j := by
  unfold CoreSt.setX
  split
  · rfl
  · simp only [CoreSt.x, Bank.get_set, if_neg h]

/-- A register written leaves the rest of the core. -/
theorem CoreSt.setX_frame (c : CoreSt) (r v : Nat) :
    ∃ xs, c.setX r v = { c with xregs := xs } := by
  unfold CoreSt.setX
  split
  · exact ⟨_, rfl⟩
  · exact ⟨_, rfl⟩

/-- Settles O24. -/
theorem coreRegisters : Obligations.CoreRegisters := by
  unfold Obligations.CoreRegisters
  intro c r v
  obtain ⟨xs, h⟩ := c.setX_frame r v
  exact ⟨c.x_zero, c.setX_zero v, c.x_setX_self v, fun j => c.x_setX_ne v, by rw [h], by rw [h], by rw [h]⟩

/-! ### Events -/

theorem State.logEvent_eventSeq (s : State) (e : Ev) (cls : Nat) (dk : Option Nat) (d : Nat) (keeper : Bool) :
    (s.logEvent e cls dk d keeper).1.obj oEventSeq = (s.obj oEventSeq + 1) % 2 ^ 32 := by
  have hself : (s.bump oEventSeq).obj oEventSeq = (s.obj oEventSeq + 1) % 2 ^ 32 := State.obj_setObj_self ..
  unfold State.logEvent
  dsimp only
  split <;> split <;>
    simp only [State.bump, State.addObj, State.obj_setObj, show oEventSeq ≠ oLedgerSuppressed by decide,
      show oEventSeq ≠ oLedgerFill by decide, if_false] <;> exact hself

/-- The record of an event enters EVENT_RING and the ledger's ring at their heads. -/
theorem State.logEvent_rings (s : State) (e : Ev) (cls : Nat) (dk : Option Nat) (d : Nat) (keeper : Bool) :
    let r := s.logEvent e cls dk d keeper
    r.2 = (s.bump oEventSeq).eventRec e cls dk d ∧ r.1.events = (RingRec.event r.2 :: s.events).take 256 ∧
    (r.1.ledger.ring.map LedgerEntry.ev).head? = some r.2 ∧ r.1.mem = s.mem := by
  unfold State.logEvent
  dsimp only
  split <;> split <;> exact ⟨rfl, rfl, rfl, rfl⟩

/-- Where the plan declares no EVENT queue, an event changes its objects, EVENT_RING and the ledger alone. -/
theorem Logs.eq_of_no_queue {s t : State} (h : Logs s t) (hq : s.eventQueue = none) :
    t = { s with od := t.od, events := t.events, ledger := t.ledger } := by
  obtain ⟨hmem, hrings, hflows, hrouter⟩ := h.quiet hq
  obtain ⟨od, events, ledger, rings, mem, flows, router, rfl⟩ := h.shape
  rw [show mem = s.mem from hmem, show rings = s.rings from hrings, show flows = s.flows from hflows,
    show router = s.router from hrouter]
  rfl

/-- Settles O13. -/
theorem eventsAreLogged : Obligations.EventsAreLogged := by
  unfold Obligations.EventsAreLogged
  refine ⟨fun s e cls d dk keeper => ?_, fun s e n cls => ?_⟩
  · obtain ⟨hrec, hev, hled, hmem⟩ := s.logEvent_rings e cls dk d keeper
    have hseq := s.logEvent_eventSeq e cls dk d keeper
    refine ⟨hseq, ?_, ?_, ?_, ?_, hev, hled, hmem⟩
    · rw [hseq, hrec]
      exact State.obj_setObj_self ..
    all_goals rw [hrec]; rfl
  · have h := s.raiseAt_logs e n cls
    exact ⟨h.obj, h.blobs, h.power, h.step, h.out, h.eq_of_no_queue⟩

end Sys2Proof.Machine

namespace Sys2Proof.Machine

/-! ### Objects and bytes that stand -/

theorem SameObj.refl (s : State) (ks : List Nat) : SameObj s s ks := fun _ _ => rfl

theorem SameObj.trans {s t u : State} {ks : List Nat} (h : SameObj s t ks) (k : SameObj t u ks) : SameObj s u ks :=
  fun j hj => (k j hj).trans (h j hj)

theorem SameObj.mono {s t : State} {ks ls : List Nat} (h : SameObj s t ks) (hl : ∀ k ∈ ks, k ∈ ls) : SameObj s t ls :=
  fun j hj => h j (fun hk => hj (hl j hk))

theorem SameObj.of_od {s t : State} {ks : List Nat} (h : t.od = s.od) : SameObj s t ks :=
  fun j _ => State.obj_of_od h j

theorem SameObj.setObj {s t : State} {ks : List Nat} (h : SameObj s t ks) {k : Nat} (v : Nat) (hk : k ∈ ks) :
    SameObj s (t.setObj k v) ks :=
  fun j hj => (State.obj_setObj_ne t v (fun (e : j = k) => hj (e ▸ hk))).trans (h j hj)

theorem SameObj.bump {s t : State} {ks : List Nat} (h : SameObj s t ks) {k : Nat} (hk : k ∈ ks) :
    SameObj s (t.bump k) ks := h.setObj _ hk

theorem Logs.sameObj {s t : State} (h : Logs s t) : SameObj s t eventKeys := h.obj

theorem SameMem.of_mem {s t : State} (h : t.mem = s.mem) : SameMem s t := fun a => by rw [State.byteAt, h]; rfl

theorem State.bump_obj_self (s : State) (k : Nat) : (s.bump k).obj k = (s.obj k + 1) % 2 ^ objBits k :=
  State.obj_setObj_self ..

theorem State.bump_obj_ne (s : State) {k j : Nat} (h : j ≠ k) : (s.bump k).obj j = s.obj j := State.obj_setObj_ne _ _ h

/-! ### The response to a request -/

theorem State.countRequest_shape (s : State) (r : ObjReq) (op a : Nat) :
    ∃ od, s.countRequest r op a = { s with od := od } := by
  unfold State.countRequest
  dsimp only
  split
  · exact ⟨_, rfl⟩
  · exact ⟨_, rfl⟩

theorem State.countRequest_count (s : State) (r : ObjReq) (op a : Nat) :
    (s.countRequest r op a).obj oRequestCount = (s.obj oRequestCount + 1) % 2 ^ 64 := by
  unfold State.countRequest
  dsimp only
  split
  · exact State.bump_obj_self ..
  · rw [State.obj_setObj_ne _ _ (by decide), State.bump_obj_ne _ (by decide)]
    exact State.bump_obj_self ..

theorem State.countRequest_sameObj (s : State) (r : ObjReq) (op : Nat) :
    SameObj s (s.countRequest r op 0) [oRequestCount] := (SameObj.refl s _).bump (by decide)

theorem State.countRequest_sameObj_abort (s : State) (r : ObjReq) (op a : Nat) :
    SameObj s (s.countRequest r op a) [oRequestCount, oAbortCount, oLastAbort] := by
  have h : SameObj s (s.bump oRequestCount) [oRequestCount, oAbortCount, oLastAbort] :=
    (SameObj.refl s _).bump (by decide)
  unfold State.countRequest
  dsimp only
  split
  · exact h
  · exact (h.bump (by decide)).setObj _ (by decide)

theorem State.countRequest_abort (s : State) (r : ObjReq) (op : Nat) {a : Nat} (ha : a ≠ 0) :
    (s.countRequest r op a).obj oAbortCount = (s.obj oAbortCount + 1) % 2 ^ 64 ∧
    (s.countRequest r op a).obj oLastAbort =
      a + r.index.toNat * 2 ^ 16 + r.sub.toNat * 2 ^ 32 + op * 2 ^ 40 + pathBit r.path * 2 ^ 48 := by
  unfold State.countRequest
  rw [if_neg ha]
  refine ⟨?_, State.obj_setObj_self ..⟩
  rw [State.obj_setObj_ne _ _ (by decide), State.bump_obj_self, State.bump_obj_ne _ (by decide)]
  rfl

/-- Whether requests are answered depends on the power and two objects. -/
theorem State.answers_congr {s t : State} (hp : t.power = s.power) (h36 : t.obj (oDomainState 36) = s.obj (oDomainState 36))
    (hs : t.obj oPlaceStated = s.obj oPlaceStated) (p : Path) : t.answers p = s.answers p := by
  simp only [State.answers, State.keeperOn, State.dom, State.flag, hp, h36, hs]

theorem State.countRequest_answers (s : State) (r : ObjReq) (op a : Nat) (p : Path) :
    (s.countRequest r op a).answers p = s.answers p := by
  obtain ⟨od, h⟩ := s.countRequest_shape r op a
  refine State.answers_congr (by rw [h]) ?_ ?_ p
  · exact s.countRequest_sameObj_abort r op a _ (by decide)
  · exact s.countRequest_sameObj_abort r op a _ (by decide)

/-- A response changes the request counters, its path's kept responses and the output alone. -/
theorem Reply.send_shape (x : Reply) (op : Nat) (r : ObjReq) :
    (∃ od ib oob out, x.send op r = { x.s with od := od, inBand := ib, outOfBand := oob, out := out }) ∧
    (x.send op r).od = (x.s.countRequest r op x.abort).od ∧
    ∀ p, ((x.send op r).pathSt p).transfer = (x.s.pathSt p).transfer ∧
      ((x.send op r).pathSt p).cancelled = (x.s.pathSt p).cancelled := by
  obtain ⟨od, h⟩ := x.s.countRequest_shape r op x.abort
  unfold Reply.send
  simp only [h]
  split
  · cases hp : r.path <;>
    · simp only [State.keep, State.setPath, State.emit, hp]
      refine ⟨⟨_, _, _, _, rfl⟩, trivial, fun p => ?_⟩
      cases p <;> exact ⟨rfl, rfl⟩
  · exact ⟨⟨_, _, _, _, rfl⟩, rfl, fun p => by cases p <;> exact ⟨rfl, rfl⟩⟩

theorem Reply.send_obj (x : Reply) (op : Nat) (r : ObjReq) (k : Nat) :
    (x.send op r).obj k = (x.s.countRequest r op x.abort).obj k := State.obj_of_od (x.send_shape op r).2.1 k

theorem Reply.send_transfer (x : Reply) (op : Nat) (r : ObjReq) (p : Path) :
    ((x.send op r).pathSt p).transfer = (x.s.pathSt p).transfer := ((x.send_shape op r).2.2 p).1

theorem Reply.send_cancelled (x : Reply) (op : Nat) (r : ObjReq) (p : Path) :
    ((x.send op r).pathSt p).cancelled = (x.s.pathSt p).cancelled := ((x.send_shape op r).2.2 p).2

theorem Reply.send_mem (x : Reply) (op : Nat) (r : ObjReq) : (x.send op r).mem = x.s.mem := by
  obtain ⟨_, _, _, _, h⟩ := (x.send_shape op r).1
  rw [h]

theorem Reply.send_blobs (x : Reply) (op : Nat) (r : ObjReq) : (x.send op r).blobs = x.s.blobs := by
  obtain ⟨_, _, _, _, h⟩ := (x.send_shape op r).1
  rw [h]

theorem Reply.send_power (x : Reply) (op : Nat) (r : ObjReq) : (x.send op r).power = x.s.power := by
  obtain ⟨_, _, _, _, h⟩ := (x.send_shape op r).1
  rw [h]

theorem Reply.send_out (x : Reply) (op : Nat) (r : ObjReq) :
    (x.send op r).out = x.s.out ++ [.response r.path (respOf op r x)] := by
  obtain ⟨od, h⟩ := x.s.countRequest_shape r op x.abort
  unfold Reply.send
  simp only [h]
  split
  · cases hp : r.path <;> simp only [State.keep, State.setPath, State.emit, hp]
  · rfl

/-- The newest kept response of the path is the one sent, where the management complex answers. -/
theorem Reply.send_kept (x : Reply) (op : Nat) (r : ObjReq) (ha : x.s.answers r.path = true) :
    ((x.send op r).pathSt r.path).kept.head?.map (fun k => (k.tag, k.opcode, k.resp)) =
      some (r.tag.toNat, op, respOf op r x) := by
  have hk : (x.s.countRequest r op x.abort).keeps r = true := (x.s.countRequest_answers r op x.abort r.path).trans ha
  unfold Reply.send
  simp only [hk, if_true]
  cases hp : r.path <;> simp [State.keep, State.setPath, State.emit, State.pathSt, hp]

theorem Reply.send_count (x : Reply) (op : Nat) (r : ObjReq) :
    (x.send op r).obj oRequestCount = (x.s.obj oRequestCount + 1) % 2 ^ 64 :=
  (x.send_obj op r _).trans (State.countRequest_count ..)

theorem Reply.send_sameObj {x : Reply} (op : Nat) (r : ObjReq) (h : x.abort = 0) :
    SameObj x.s (x.send op r) [oRequestCount] := fun k hk => by
  rw [x.send_obj, h]
  exact x.s.countRequest_sameObj r op k hk

theorem Reply.send_sameObj_abort (x : Reply) (op : Nat) (r : ObjReq) :
    SameObj x.s (x.send op r) [oRequestCount, oAbortCount, oLastAbort] := fun k hk => by
  rw [x.send_obj]
  exact x.s.countRequest_sameObj_abort r op x.abort k hk

theorem Reply.send_sameMem (x : Reply) (op : Nat) (r : ObjReq) : SameMem x.s (x.send op r) := .of_mem (x.send_mem op r)

/-! ### Requests taken up -/

theorem State.quiet_touch (s : State) (op : Nat) (r : ObjReq) : s.quiet.touch op r = (s.touch op r).quiet := by
  have hn : s.quiet.named r = s.named r := rfl
  unfold State.touch
  rw [hn]
  split
  · split
    · simp only [State.setTransfer, State.setPath]
      split <;> rfl
    · rfl
  · rfl

/-- A request that names an open transfer restarts its idle time, and nothing else. -/
theorem State.touch_of_named {s : State} {op : Nat} {r : ObjReq} {t : Transfer} (h : s.named r = some t)
    (ho : segOp op = true) : s.touch op r = s.setTransfer r.path (some { t with lastAt := s.now }) := by
  simp only [State.touch, h, ho, if_true]

theorem State.touch_of_not_named {s : State} {op : Nat} {r : ObjReq} (h : s.named r = none) : s.touch op r = s := by
  simp only [State.touch, h]

theorem State.touch_expedited {s : State} {op : Nat} (r : ObjReq) (ho : segOp op = false) : s.touch op r = s := by
  simp only [State.touch, ho, Bool.false_eq_true, if_false]
  split <;> rfl

/-- The rules by which a request for an object that stands is handled, one opcode at a time. -/
theorem State.handle_read {s : State} {r : ObjReq} {row : ObjRow} (hr : objRow? r.index.toNat r.sub.toNat = some row)
    (hd : s.objDown r.index.toNat r.sub.toNat = false) : s.handle 1 r = s.serveRead r row := by
  simp only [State.handle, hasObject_of_row hr, hr, hd]
  rfl

theorem State.handle_write {s : State} {r : ObjReq} {row : ObjRow} (hr : objRow? r.index.toNat r.sub.toNat = some row)
    (hd : s.objDown r.index.toNat r.sub.toNat = false) : s.handle 2 r = s.serveWrite r row := by
  simp only [State.handle, hasObject_of_row hr, hr, hd]
  rfl

theorem State.handle_readInit {s : State} {r : ObjReq} {row : ObjRow}
    (hr : objRow? r.index.toNat r.sub.toNat = some row) (hd : s.objDown r.index.toNat r.sub.toNat = false) :
    s.handle 3 r = s.serveReadInit r row := by
  simp only [State.handle, hasObject_of_row hr, hr, hd]
  rfl

theorem State.handle_writeInit {s : State} {r : ObjReq} {row : ObjRow}
    (hr : objRow? r.index.toNat r.sub.toNat = some row) (hd : s.objDown r.index.toNat r.sub.toNat = false) :
    s.handle 4 r = s.serveWriteInit r row := by
  simp only [State.handle, hasObject_of_row hr, hr, hd]
  rfl

/-- SEG_DATA and SEG_END that name the open transfer, or whose function is up, are served. -/
theorem State.handle_data {s : State} {r : ObjReq} (hr : (objRow? r.index.toNat r.sub.toNat).isSome = true)
    (hd : (s.named r).isSome = true ∨ s.objDown r.index.toNat r.sub.toNat = false) : s.handle 5 r = s.serveData r := by
  obtain ⟨row, hrow⟩ := Option.isSome_iff_exists.mp hr
  have hn : ((s.named r).isNone && s.objDown r.index.toNat r.sub.toNat) = false := by
    rcases hd with hd | hd
    · obtain ⟨t, ht⟩ := Option.isSome_iff_exists.mp hd
      rw [ht]
      rfl
    · rw [hd, Bool.and_false]
  simp only [State.handle, hasObject_of_row hrow, hrow, hn]
  rfl

theorem State.handle_end {s : State} {r : ObjReq} {row : ObjRow} (hr : objRow? r.index.toNat r.sub.toNat = some row)
    (hd : (s.named r).isSome = true ∨ s.objDown r.index.toNat r.sub.toNat = false) :
    s.handle 6 r = s.serveEnd r row := by
  have hn : ((s.named r).isNone && s.objDown r.index.toNat r.sub.toNat) = false := by
    rcases hd with hd | hd
    · obtain ⟨t, ht⟩ := Option.isSome_iff_exists.mp hd
      rw [ht]
      rfl
    · rw [hd, Bool.and_false]
  simp only [State.handle, hasObject_of_row hr, hr, hn]
  rfl

theorem State.handle_abort {s : State} {r : ObjReq} {row : ObjRow} (hr : objRow? r.index.toNat r.sub.toNat = some row)
    (hd : (s.tagged r).isSome = true ∨ s.objDown r.index.toNat r.sub.toNat = false) :
    s.handle 7 r = s.serveAbort r row := by
  have hn : ((s.tagged r).isNone && s.objDown r.index.toNat r.sub.toNat) = false := by
    rcases hd with hd | hd
    · obtain ⟨t, ht⟩ := Option.isSome_iff_exists.mp hd
      rw [ht]
      rfl
    · rw [hd, Bool.and_false]
  simp only [State.handle, hasObject_of_row hr, hr, hn]
  rfl

/-! ### READ and WRITE -/

/-- What a read finds changes nothing but the number of free values used. -/
theorem State.readValue_shape (s : State) (row : ObjRow) (index sub : Nat) :
    ∃ n, (s.readValue row index sub).2 = { s with freeCount := n } := by
  unfold State.readValue
  dsimp only
  split
  · exact ⟨_, rfl⟩
  · split
    · exact ⟨_, rfl⟩
    · split
      · exact ⟨_, rfl⟩
      · exact ⟨_, rfl⟩

/-- Settles O7. -/
theorem readReturnsValue : Obligations.ReadReturnsValue := by
  unfold Obligations.ReadReturnsValue
  intro r row s ht hr hd hwo hlen hty
  obtain ⟨n, hn⟩ := s.quiet.readValue_shape row r.index.toNat r.sub.toNat
  obtain ⟨v, hv⟩ : ∃ v, v = s.quiet.readValue row r.index.toNat r.sub.toNat := ⟨_, rfl⟩
  rw [← hv] at hn hlen ⊢
  have hx : s.quiet.serveRead r row = ⟨v.2, 0, readType row, v.1.length, v.1⟩ := by
    have hb : ¬(row.ty = .blob ∧ 1024 < v.1.length) := fun h => Nat.not_lt.mpr (hlen h.1) h.2
    rw [State.serveRead, if_neg hwo, ← hv, if_neg hb, if_neg (fun h => h hty)]
  refine ⟨_, by rw [exec, execReadObject, State.serve_taken ht, State.touch_expedited r rfl, State.handle_read hr hd, hx],
    ?_, ?_, ?_, ?_, ?_⟩
  · rw [Reply.send_out]
    simp only [hn, State.quiet_out, List.nil_append]
    rfl
  · rw [Reply.send_count]
    simp only [hn]
    rfl
  · refine SameObj.trans (SameObj.of_od ?_) (Reply.send_sameObj 1 r rfl)
    simp only [hn, State.quiet_od]
  · refine SameMem.of_mem ?_
    simp only [Reply.send_mem, hn, State.quiet_mem]
  · simp only [Reply.send_blobs, hn, State.quiet_blobs]

/-- A WRITE that passes every check does what its object's rule says. -/
theorem State.serveWrite_of_checked {s t : State} {r : ObjReq} {row : ObjRow}
    (hw : s.writeDenied r.path row r.index.toNat r.sub.toNat r.data = none)
    (hi : s.conflicts .inBand r.index.toNat r.sub.toNat false = false)
    (ho : s.conflicts .outOfBand r.index.toNat r.sub.toNat false = false) (hl : r.length.toNat ≤ 1024)
    (hty : typeFault row r.type.toNat r.data = none)
    (hrg : s.rangeFault row (objKey r.index.toNat r.sub.toNat) r.data = none)
    (hp : s.putValue row r.index.toNat r.sub.toNat r.data = (t, none)) : s.serveWrite r row = doneReply t r := by
  simp only [State.serveWrite, hw, hi, ho, Bool.or_self, Bool.false_eq_true, if_false, State.writeValue, hty, hrg, hp]
  rw [if_neg (Nat.not_lt.mpr hl)]

/-- The objects that only hold a number: their row is no action and no byte string, and no rule of its own applies. -/
theorem State.putValue_plain (s : State) {row : ObjRow} (bs : Bytes) {k : Nat}
    (hk : k ∈ [oSegIdleTimeoutMs, oMbTimeoutMs, oRtoBaseUs, oWindowSelect, oShardSelect, oRegionSelect, oFlowSelect,
      oQueueSelect]) (hr : rowOfKey k = some row) :
    s.putValue row (k / 256) (k % 256) bs = (s.setObj k (leNat bs), none) := by
  have hrow : row.ty.isBytes = false ∧ row.acc ≠ .cmd := by
    have hall : ∀ k ∈ [oSegIdleTimeoutMs, oMbTimeoutMs, oRtoBaseUs, oWindowSelect, oShardSelect, oRegionSelect,
        oFlowSelect, oQueueSelect], ∀ x ∈ rowOfKey k, x.ty.isBytes = false ∧ x.acc ≠ .cmd := by decide
    exact hall k hk row hr
  simp only [State.putValue, hrow.1, Bool.false_eq_true, if_false, hrow.2]
  simp only [List.mem_cons, List.not_mem_nil, or_false] at hk
  rcases hk with rfl | rfl | rfl | rfl | rfl | rfl | rfl | rfl <;> rfl

/-- Settles O8. -/
theorem writeStoresValue : Obligations.WriteStoresValue := by
  unfold Obligations.WriteStoresValue
  refine ⟨fun r row s ht hr hd hw hi ho hl hty hrg hp => ?_, fun s row bs k hk hr => s.putValue_plain bs hk hr⟩
  have hx := State.serveWrite_of_checked (s := s.quiet) (row := row) hw hi ho hl hty hrg (Prod.ext rfl hp)
  rw [exec, execWriteObject, State.serve_taken ht, State.touch_expedited r rfl, State.handle_write hr hd, hx]

/-- Every access check that refuses has a code. -/
theorem State.writeDenied_ne_zero {s : State} {path : Path} {row : ObjRow} {index sub a : Nat} {bs : Bytes}
    (h : s.writeDenied path row index sub bs = some a) : a ≠ 0 := by
  unfold State.writeDenied at h
  dsimp only at h
  repeat' split at h
  all_goals cases h
  all_goals decide

/-- Settles O9. -/
theorem refusedWriteChangesNothing : Obligations.RefusedWriteChangesNothing := by
  unfold Obligations.RefusedWriteChangesNothing
  intro r row a s ht hr hd hw
  have hx : s.quiet.serveWrite r row = aborted s.quiet r a := by
    simp only [State.serveWrite, hw]
  refine ⟨_, by rw [exec, execWriteObject, State.serve_taken ht, State.touch_expedited r rfl, State.handle_write hr hd, hx],
    Reply.send_out .., Reply.send_sameObj_abort _ _ _, Reply.send_sameMem _ _ _, Reply.send_blobs .., ?_⟩
  rw [Reply.send_obj]
  exact (State.countRequest_abort _ r 2 (State.writeDenied_ne_zero hw)).1

end Sys2Proof.Machine

namespace Sys2Proof.Machine

/-! ### Retries, and the ends of transfers and of kept responses -/

@[simp] theorem State.setPath_od (s : State) (p : Path) (x : PathSt) : (s.setPath p x).od = s.od := by
  cases p <;> rfl

@[simp] theorem State.setPath_blobs (s : State) (p : Path) (x : PathSt) : (s.setPath p x).blobs = s.blobs := by
  cases p <;> rfl

@[simp] theorem State.setPath_now (s : State) (p : Path) (x : PathSt) : (s.setPath p x).now = s.now := by
  cases p <;> rfl

@[simp] theorem State.setPath_mem (s : State) (p : Path) (x : PathSt) : (s.setPath p x).mem = s.mem := by
  cases p <;> rfl

@[simp] theorem State.setPath_out (s : State) (p : Path) (x : PathSt) : (s.setPath p x).out = s.out := by
  cases p <;> rfl

@[simp] theorem State.setPath_power (s : State) (p : Path) (x : PathSt) : (s.setPath p x).power = s.power := by
  cases p <;> rfl

@[simp] theorem State.setPath_bell (s : State) (p : Path) (x : PathSt) : (s.setPath p x).bell = s.bell := by
  cases p <;> rfl

@[simp] theorem State.setTransfer_od (s : State) (p : Path) (x : Option Transfer) :
    (s.setTransfer p x).od = s.od := s.setPath_od p _

@[simp] theorem State.openTransfer_od (s : State) (p : Path) (x : Transfer) :
    (s.openTransfer p x).od = s.od := s.setPath_od p _

@[simp] theorem State.cancelTransfer_od (s : State) (p : Path) (x : Transfer) :
    (s.cancelTransfer p x).od = s.od := s.setPath_od p _

@[simp] theorem State.setTransfer_blobs (s : State) (p : Path) (x : Option Transfer) :
    (s.setTransfer p x).blobs = s.blobs := s.setPath_blobs p _

@[simp] theorem State.openTransfer_blobs (s : State) (p : Path) (x : Transfer) :
    (s.openTransfer p x).blobs = s.blobs := s.setPath_blobs p _

@[simp] theorem State.cancelTransfer_blobs (s : State) (p : Path) (x : Transfer) :
    (s.cancelTransfer p x).blobs = s.blobs := s.setPath_blobs p _

@[simp] theorem State.setTransfer_mem (s : State) (p : Path) (x : Option Transfer) :
    (s.setTransfer p x).mem = s.mem := s.setPath_mem p _

@[simp] theorem State.openTransfer_mem (s : State) (p : Path) (x : Transfer) :
    (s.openTransfer p x).mem = s.mem := s.setPath_mem p _

@[simp] theorem State.cancelTransfer_mem (s : State) (p : Path) (x : Transfer) :
    (s.cancelTransfer p x).mem = s.mem := s.setPath_mem p _

@[simp] theorem State.setTransfer_out (s : State) (p : Path) (x : Option Transfer) :
    (s.setTransfer p x).out = s.out := s.setPath_out p _

@[simp] theorem State.openTransfer_out (s : State) (p : Path) (x : Transfer) :
    (s.openTransfer p x).out = s.out := s.setPath_out p _

@[simp] theorem State.cancelTransfer_out (s : State) (p : Path) (x : Transfer) :
    (s.cancelTransfer p x).out = s.out := s.setPath_out p _

theorem State.pathSt_setPath (s : State) (p q : Path) (x : PathSt) :
    (s.setPath p x).pathSt q = if q = p then x else s.pathSt q := by
  cases p <;> cases q <;> rfl

theorem State.pathSt_setTransfer_self (s : State) (p : Path) (x : Option Transfer) :
    ((s.setTransfer p x).pathSt p).transfer = x := by
  rw [State.setTransfer, State.pathSt_setPath, if_pos rfl]

theorem State.kept_setTransfer (s : State) (p q : Path) (x : Option Transfer) :
    ((s.setTransfer p x).pathSt q).kept = (s.pathSt q).kept := by
  rw [State.setTransfer, State.pathSt_setPath]
  split
  · next h => rw [h]
  · rfl

theorem State.setTransfer_setTransfer (s : State) (p : Path) (x y : Option Transfer) :
    (s.setTransfer p x).setTransfer p y = s.setTransfer p y := by
  cases p <;> rfl

theorem State.setTransfer_transfer (s : State) (p : Path) : s.setTransfer p (s.pathSt p).transfer = s := by
  cases p <;> rfl

/-- A request taken up restarts at most the idle time of the transfer it names. -/
theorem State.touch_shape (s : State) (op : Nat) (r : ObjReq) :
    (∃ x, s.touch op r = s.setTransfer r.path x) := by
  unfold State.touch
  split
  · split
    · exact ⟨_, rfl⟩
    · exact ⟨_, (s.setTransfer_transfer r.path).symm⟩
  · exact ⟨_, (s.setTransfer_transfer r.path).symm⟩

@[simp] theorem State.touch_od (s : State) (op : Nat) (r : ObjReq) : (s.touch op r).od = s.od := by
  obtain ⟨x, h⟩ := s.touch_shape op r
  rw [h, State.setTransfer_od]

@[simp] theorem State.touch_blobs (s : State) (op : Nat) (r : ObjReq) : (s.touch op r).blobs = s.blobs := by
  obtain ⟨x, h⟩ := s.touch_shape op r
  rw [h, State.setTransfer_blobs]

@[simp] theorem State.touch_mem (s : State) (op : Nat) (r : ObjReq) : (s.touch op r).mem = s.mem := by
  obtain ⟨x, h⟩ := s.touch_shape op r
  rw [h, State.setTransfer_mem]

@[simp] theorem State.touch_out (s : State) (op : Nat) (r : ObjReq) : (s.touch op r).out = s.out := by
  obtain ⟨x, h⟩ := s.touch_shape op r
  rw [h, State.setTransfer_out]

theorem State.touch_kept (s : State) (op : Nat) (r : ObjReq) (p : Path) :
    ((s.touch op r).pathSt p).kept = (s.pathSt p).kept := by
  obtain ⟨x, h⟩ := s.touch_shape op r
  rw [h, State.kept_setTransfer]

/-- A request that repeats one whose response is kept is answered by it. -/
theorem State.serve_retry {s : State} {op : Nat} {r : ObjReq} {k : Kept} (ha : s.answers r.path = true)
    (hb : s.badMessage op r = false) (hk : (s.touch op r).keptFor op r = some k) (hs : k.same op r = true) :
    s.serve op r = (s.touch op r).emit (.response r.path k.resp) := by
  simp only [State.serve, ha, hb, hk, hs, Bool.true_eq_false, Bool.false_eq_true, if_false, if_true]

/-- The command of a request opcode serves it. -/
theorem exec_request {r : ObjReq} {op : Nat} {c : Instr} (s : State)
    (h : (op, c) ∈ [(1, Instr.readObject r), (2, .writeObject r), (3, .segReadInit r), (4, .segWriteInit r),
      (5, .segDataWrite r), (5, .segDataRead r), (6, .segEndWrite r), (6, .segEndRead r), (7, .abortTransfer r)]) :
    exec c s = .next (s.quiet.serve op r) := by
  simp only [List.mem_cons, Prod.mk.injEq, List.not_mem_nil, or_false] at h
  rcases h with ⟨rfl, rfl⟩ | ⟨rfl, rfl⟩ | ⟨rfl, rfl⟩ | ⟨rfl, rfl⟩ | ⟨rfl, rfl⟩ | ⟨rfl, rfl⟩ | ⟨rfl, rfl⟩ |
    ⟨rfl, rfl⟩ | ⟨rfl, rfl⟩ <;> rfl

theorem retry_answered (r : ObjReq) (k : Kept) (s : State) (op : Nat) (ha : s.answers r.path = true)
    (hb : s.badMessage op r = false) (hk : (s.touch op r).keptFor op r = some k) (hs : k.same op r = true) :
    s.quiet.serve op r = (s.quiet.touch op r).emit (.response r.path k.resp) ∧
     (s.quiet.touch op r).od = s.od ∧ (s.quiet.touch op r).blobs = s.blobs ∧ (s.quiet.touch op r).mem = s.mem ∧
     ∀ p, ((s.quiet.touch op r).pathSt p).kept = (s.pathSt p).kept := by
  have hq : (s.quiet.touch op r).keptFor op r = some k := by rw [s.quiet_touch]; exact hk
  refine ⟨State.serve_retry (s := s.quiet) ha hb hq hs, State.touch_od .., State.touch_blobs .., State.touch_mem ..,
    fun p => ?_⟩
  rw [State.touch_kept]
  cases p <;> rfl

theorem State.named_eq_some {s : State} {r : ObjReq} {t : Transfer} (h : s.named r = some t) :
    (s.pathSt r.path).transfer = some t ∧ t.tag = r.tag.toNat ∧ t.index = r.index.toNat ∧ t.sub = r.sub.toNat := by
  unfold State.named at h
  split at h
  · next t0 ht =>
    split at h
    · next hc => cases h; exact ⟨ht, hc⟩
    · cases h
  · cases h

theorem State.named_of_transfer {s : State} {r : ObjReq} {t : Transfer} (h : (s.pathSt r.path).transfer = some t)
    (hc : t.tag = r.tag.toNat ∧ t.index = r.index.toNat ∧ t.sub = r.sub.toNat) : s.named r = some t := by
  simp only [State.named, h, hc, and_self, if_true]

theorem State.named_of_no_transfer {s : State} {r : ObjReq} (h : (s.pathSt r.path).transfer = none) :
    s.named r = none := by
  simp only [State.named, h]

/-- The transfer of a request's path after the request restarts its idle time. -/
theorem State.touch_transfer {s : State} {op : Nat} {r : ObjReq} {t : Transfer}
    (h : (s.pathSt r.path).transfer = some t) :
    ∃ n, ((s.touch op r).pathSt r.path).transfer = some { t with lastAt := n } := by
  unfold State.touch
  split
  · next t' ht' =>
    obtain ⟨h', -⟩ := State.named_eq_some ht'
    rw [h] at h'
    cases h'
    split
    · exact ⟨_, s.pathSt_setTransfer_self ..⟩
    · exact ⟨_, h⟩
  · exact ⟨_, h⟩

theorem State.pathSt_cancelTransfer (s : State) (p : Path) (t : Transfer) :
    ((s.cancelTransfer p t).pathSt p).transfer = none ∧
    ((s.cancelTransfer p t).pathSt p).cancelled = some (t.tag, t.index, t.sub) := by
  cases p <;> exact ⟨rfl, rfl⟩

/-- ABORT of a BLOB whose TAG names the open transfer cancels it (R47). -/
theorem abort_cancels {r : ObjReq} {row : ObjRow} {s : State} {t0 : Transfer} (ht : s.quiet.taken 7 r = true)
    (hr : objRow? r.index.toNat r.sub.toNat = some row) (h0 : (s.pathSt r.path).transfer = some t0)
    (htag : t0.tag = r.tag.toNat) (hty : row.ty = .blob) (h15 : r.type.toNat = 15) :
    Gives (.abortTransfer r) s (fun t =>
      (t.pathSt r.path).transfer = none ∧ (t.pathSt r.path).cancelled = some (t0.tag, t0.index, t0.sub) ∧
      t.out = [.response r.path (respOf 7 r (doneReply s r))] ∧
      SameObj s t [oRequestCount] ∧ t.blobs = s.blobs ∧ SameMem s t) := by
  have h0q : (s.quiet.pathSt r.path).transfer = some t0 := by rw [← h0]; cases r.path <;> rfl
  obtain ⟨n, hn⟩ := State.touch_transfer (op := 7) h0q
  obtain ⟨u, hudef⟩ : ∃ u, u = s.quiet.touch 7 r := ⟨_, rfl⟩
  rw [← hudef] at hn
  have htg : u.tagged r = some { t0 with lastAt := n } := by
    simp only [State.tagged, hn, Option.filter, htag, beq_self_eq_true, if_true]
  have hx : u.serveAbort r row = doneReply (u.cancelTransfer r.path { t0 with lastAt := n }) r := by
    simp only [State.serveAbort, htg, hty, h15, OTy.code, ne_eq, not_true, or_self, if_false]
  obtain ⟨hct, hcc⟩ := u.pathSt_cancelTransfer r.path { t0 with lastAt := n }
  refine ⟨_, by rw [exec, execAbortTransfer, State.serve_taken ht, ← hudef,
    State.handle_abort hr (.inl (by rw [htg]; rfl)), hx], ?_, ?_, ?_, ?_, ?_, ?_⟩
  · rw [Reply.send_transfer]; exact hct
  · rw [Reply.send_cancelled]; exact hcc
  · simp [Reply.send_out, doneReply, hudef, respOf]
  · refine SameObj.trans (SameObj.of_od ?_) (Reply.send_sameObj 7 r rfl)
    simp [doneReply, hudef]
  · simp [Reply.send_blobs, doneReply, hudef]
  · exact .of_mem (by simp [Reply.send_mem, doneReply, hudef])

theorem State.named_of_not_tagged {s : State} {r : ObjReq} (h : s.tagged r = none) : s.named r = none := by
  unfold State.named
  split
  · next t ht =>
    simp only [State.tagged, ht, Option.filter, beq_iff_eq] at h
    split at h
    · cases h
    · next hne => exact if_neg (fun hc => hne hc.1)
  · rfl

/-- ABORT of a transfer no longer held succeeds for a BLOB and is TYPE_MISMATCH for anything else (R39, R47). -/
theorem abort_of_no_transfer {r : ObjReq} {row : ObjRow} {s : State} (ht : s.quiet.taken 7 r = true)
    (hr : objRow? r.index.toNat r.sub.toNat = some row) (h : s.tagged r = none)
    (hd : s.objDown r.index.toNat r.sub.toNat = false) :
    exec (.abortTransfer r) s = .next ((if row.ty = .blob ∧ r.type.toNat = 15 then doneReply s.quiet r
      else aborted s.quiet r abTypeMismatch).send 7 r) := by
  have hq : s.quiet.tagged r = none := by rw [← h]; unfold State.tagged; cases r.path <;> rfl
  have hx : s.quiet.serveAbort r row =
      if row.ty = .blob ∧ r.type.toNat = 15 then doneReply s.quiet r else aborted s.quiet r abTypeMismatch := by
    simp only [State.serveAbort, hq, OTy.code, ne_eq]
    by_cases hb : row.ty = .blob ∧ r.type.toNat = 15
    · rw [if_neg (not_or.mpr ⟨Classical.not_not.mpr hb.1, Classical.not_not.mpr hb.2⟩), if_pos hb]
    · rw [if_pos (Classical.not_and_iff_not_or_not.mp hb), if_neg hb]
  rw [exec, execAbortTransfer, State.serve_taken ht, State.touch_of_not_named (State.named_of_not_tagged hq),
    State.handle_abort (s := s.quiet) hr (.inr hd), hx]

/-- A later request that names the cancelled transfer is SEG_CANCELLED. -/
theorem cancelled_answered {r : ObjReq} {row : ObjRow} {s : State} {op : Nat} (hop : op = 5 ∨ op = 6)
    (ht : s.quiet.taken op r = true) (hr : objRow? r.index.toNat r.sub.toNat = some row)
    (hd : s.objDown r.index.toNat r.sub.toNat = false) (h0 : (s.pathSt r.path).transfer = none)
    (hc : (s.pathSt r.path).cancelled = some (r.tag.toNat, r.index.toNat, r.sub.toNat))
    (hw : op = 6 → r.data = [] ∨ s.writeDenied r.path row r.index.toNat r.sub.toNat [] = none) :
    s.quiet.serve op r = (aborted s.quiet r abSegCancelled).send op r := by
  have hp : s.quiet.pathSt r.path = s.pathSt r.path := by cases r.path <;> rfl
  have hn : s.quiet.named r = none := State.named_of_no_transfer (by rw [hp, h0])
  have hno : s.quiet.noTransfer r = abSegCancelled := by
    rw [State.noTransfer, hp, if_pos hc]
  rw [State.serve_taken ht, State.touch_of_not_named hn]
  rcases hop with rfl | rfl
  · rw [State.handle_data (s := s.quiet) (by rw [hr]; rfl) (.inr hd)]
    simp only [State.serveData, hn, hno]
  · rw [State.handle_end (s := s.quiet) hr (.inr hd)]
    have hg : (if r.data.isEmpty then none else s.quiet.writeDenied r.path row r.index.toNat r.sub.toNat []) = none := by
      rcases hw rfl with h | h
      · rw [h]; rfl
      · split
        · rfl
        · exact h
    simp only [State.serveEnd, hn, hno, hg]

theorem State.pathSt_quiet (s : State) (p : Path) : s.quiet.pathSt p = s.pathSt p := by
  cases p <;> rfl

theorem State.pathSt_advanceTo (s : State) (n : Nat) (p : Path) : (s.advanceTo n).pathSt p = s.pathSt p := by
  cases p <;> rfl

/-- The oldest kept response is dropped at its 1,000 ms (R45). -/
theorem kept_expires {p : Path} {k : Kept} {s : State} (hk : (s.pathSt p).kept.getLast? = some k)
    (hn : s.now ≤ k.sentAt + 1000000000) :
    Gives (.keptResponseExpiry p) s (fun t =>
      t.now = k.sentAt + 1000000000 ∧ k ∉ (t.pathSt p).kept ∧ (t.pathSt p).transfer = (s.pathSt p).transfer ∧
      t.od = s.od ∧ t.blobs = s.blobs ∧ SameMem s t) := by
  have hq : (s.quiet.pathSt p).kept.getLast? = some k := by rw [← hk]; cases p <;> rfl
  have hnow : (s.quiet.advanceTo (k.sentAt + 1000000000)).now = k.sentAt + 1000000000 := by
    rw [State.advanceTo, State.advance_now, State.quiet_now]
    omega
  refine ⟨_, by rw [exec, execKeptResponseExpiry, hq], ?_, ?_, ?_, ?_, ?_, ?_⟩
  · exact (State.setPath_now ..).trans hnow
  · rw [State.pathSt_setPath, if_pos rfl]
    simp only [List.mem_filter, hnow, decide_eq_true_eq, Nat.lt_irrefl, and_false, not_false_eq_true]
  · rw [State.pathSt_setPath, if_pos rfl, State.pathSt_advanceTo, State.pathSt_quiet]
  · rw [State.setPath_od, State.advanceTo, State.advance_od, State.quiet_od]
  · rw [State.setPath_blobs, State.advanceTo, State.advance_blobs, State.quiet_blobs]
  · exact .of_mem (by rw [State.setPath_mem, State.advanceTo, State.advance_mem, State.quiet_mem])

/-- Settles O10. -/
theorem retriesAndEnds : Obligations.RetriesAndEnds := by
  unfold Obligations.RetriesAndEnds
  refine ⟨fun r k s op c hc ha hb hk hs => ?_, fun r row s ht hr => ⟨fun t0 h0 htag hty h15 => ?_, fun h hd => ?_⟩,
    fun r row s op c hc ht hr hd h0 hcan hw => ?_, fun p t0 s h => ?_, fun p k s hk hn => kept_expires hk hn⟩
  · obtain ⟨h, hrest⟩ := retry_answered r k s op ha hb hk hs
    exact ⟨by rw [exec_request s hc, h], hrest⟩
  · exact abort_cancels ht hr h0 htag hty h15
  · exact abort_of_no_transfer ht hr h hd
  · have hop : op = 5 ∨ op = 6 := by
      simp only [List.mem_cons, Prod.mk.injEq, List.not_mem_nil, or_false] at hc
      rcases hc with ⟨e, -⟩ | ⟨e, -⟩ | ⟨e, -⟩ | ⟨e, -⟩
      all_goals simp [e]
    rw [exec_request s (List.mem_of_mem_drop (i := 4) (List.mem_append_left [(7, Instr.abortTransfer r)] hc)),
      cancelled_answered hop ht hr hd h0 hcan hw]
  · have hq : (s.quiet.pathSt p).transfer = some t0 := by rw [← h]; cases p <;> rfl
    rw [exec, execSegIdleTimeout, hq]
    rfl

end Sys2Proof.Machine

namespace Sys2Proof.Machine

/-! ### Segmented transfers -/

theorem State.pathSt_openTransfer (s : State) (p : Path) (t : Transfer) :
    ((s.openTransfer p t).pathSt p).transfer = some t := by
  cases p <;> rfl

/-- An INIT that may open a transfer meets none on its path. -/
theorem State.no_transfer_of_initMeets {s : State} {r : ObjReq} {w : Bool} (h : s.initMeets r w = none) :
    (s.pathSt r.path).transfer = none := by
  unfold State.initMeets at h
  split at h
  · cases h
  · next h0 => exact h0

/-- The transfer that a request names, after the request restarts its idle time. -/
theorem State.touch_named {s : State} {op : Nat} {r : ObjReq} {t0 : Transfer} (ho : segOp op = true)
    (h : s.named r = some t0) :
    s.quiet.touch op r = s.quiet.setTransfer r.path (some { t0 with lastAt := s.now }) ∧
    (s.quiet.touch op r).named r = some { t0 with lastAt := s.now } := by
  have hq : s.quiet.named r = some t0 := by
    rw [← h]
    simp only [State.named, State.pathSt_quiet]
  have ht := State.touch_of_named hq ho
  obtain ⟨-, hc⟩ := State.named_eq_some h
  exact ⟨ht, State.named_of_transfer (by rw [ht, State.pathSt_setTransfer_self]; rfl) hc⟩

/-- The state that a successful reply leaves, when the service changed nothing but its path's transfer: the transfer
is the service's, the response is the reply's, and all that counts beside it is the request. -/
structure Served (s t : State) (op : Nat) (r : ObjReq) (x : Reply) : Prop where
  transfer : (t.pathSt r.path).transfer = (x.s.pathSt r.path).transfer
  out : t.out = [.response r.path (respOf op r x)]
  sameObj : SameObj s t [oRequestCount]
  blobs : t.blobs = s.blobs
  sameMem : SameMem s t

theorem Served.of_send {s : State} {op : Nat} {r : ObjReq} {x : Reply} (ha : x.abort = 0) (ho : x.s.out = [])
    (hod : x.s.od = s.od) (hb : x.s.blobs = s.blobs) (hm : x.s.mem = s.mem) : Served s (x.send op r) op r x where
  transfer := x.send_transfer op r r.path
  out := by rw [x.send_out, ho]; rfl
  sameObj := SameObj.trans (SameObj.of_od hod) (x.send_sameObj op r ha)
  blobs := (x.send_blobs op r).trans hb
  sameMem := .of_mem ((x.send_mem op r).trans hm)

/-- A BLOB request passes the type checks of its opcode. -/
theorem blob_typed {row : ObjRow} {r : ObjReq} (hty : row.ty = .blob) (h15 : r.type.toNat = 15) :
    ¬(row.ty ≠ .blob ∨ r.type.toNat ≠ OTy.code .blob) := by
  simp only [hty, h15, OTy.code, ne_eq, not_true, or_self, not_false_eq_true]

/-- SEG_WRITE_INIT opens the transfer with the stated length (R40). -/
theorem segWriteInit_opens {r : ObjReq} {row : ObjRow} {s : State} (ht : s.quiet.taken 4 r = true)
    (hr : objRow? r.index.toNat r.sub.toNat = some row) (hd : s.quiet.objDown r.index.toNat r.sub.toNat = false)
    (hw : s.quiet.writeDenied r.path row r.index.toNat r.sub.toNat [] = none) (hi : s.quiet.initMeets r true = none)
    (hty : row.ty = .blob) (h15 : r.type.toNat = 15) (hl : r.length.toNat ≤ 16777216)
    (hm : r.length.toNat ≤ row.maxLen) :
    Gives (.segWriteInit r) s (fun t =>
      (t.pathSt r.path).transfer = some ⟨r.tag.toNat, r.index.toNat, r.sub.toNat, true, r.length.toNat, [], [], s.now⟩ ∧
      t.out = [.response r.path (respOf 4 r ⟨s, 0, 15, r.length.toNat, []⟩)] ∧
      SameObj s t [oRequestCount] ∧ t.blobs = s.blobs ∧ SameMem s t) := by
  have hx : s.quiet.serveWriteInit r row = { doneReply (s.quiet.openTransfer r.path
      ⟨r.tag.toNat, r.index.toNat, r.sub.toNat, true, r.length.toNat, [], [], s.now⟩) r with
      length := r.length.toNat } := by
    simp only [State.serveWriteInit, hw, hi]
    rw [if_neg (blob_typed hty h15), if_neg (by omega)]
    rfl
  have hn : s.quiet.named r = none := State.named_of_no_transfer (State.no_transfer_of_initMeets hi)
  have hs : Served s _ 4 r (s.quiet.serveWriteInit r row) :=
    .of_send (by rw [hx]; rfl) (by rw [hx]; simp [doneReply]) (by rw [hx]; simp [doneReply]) (by rw [hx]; simp [doneReply])
      (by rw [hx]; simp [doneReply])
  refine ⟨_, by rw [exec, execSegWriteInit, State.serve_taken ht, State.touch_of_not_named hn,
    State.handle_writeInit hr hd], ?_, ?_, hs.sameObj, hs.blobs, hs.sameMem⟩
  · rw [hs.transfer, hx]; exact State.pathSt_openTransfer ..
  · rw [hs.out, hx]; simp only [respOf, doneReply, h15]

/-- SEG_DATA of a write stores its segment (R40). -/
theorem segDataWrite_stores {r : ObjReq} {t0 : Transfer} {s : State} (ht : s.quiet.taken 5 r = true)
    (hr : (objRow? r.index.toNat r.sub.toNat).isSome = true) (h0 : s.named r = some t0) (hw : t0.isWrite = true)
    (ho : r.segOutstanding < s.segWindow) (h15 : r.type.toNat = 15) (hseg : segOf r < ceilDiv t0.len 1024)
    (hl : r.data.length = min 1024 (t0.len - segOf r * 1024)) :
    Gives (.segDataWrite r) s (fun t =>
      (t.pathSt r.path).transfer = some { t0 with lastAt := s.now, segs := Bank.put t0.segs (segOf r) r.data } ∧
      t.out = [.response r.path (respOf 5 r ⟨s, 0, 15, segOf r, []⟩)] ∧
      SameObj s t [oRequestCount] ∧ t.blobs = s.blobs ∧ SameMem s t) := by
  obtain ⟨hu, hn⟩ := State.touch_named (op := 5) rfl h0
  obtain ⟨u, hudef⟩ : ∃ u, u = s.quiet.touch 5 r := ⟨_, rfl⟩
  rw [← hudef] at hu hn
  have hwin : u.segWindow = s.segWindow := by rw [hu]; cases r.path <;> rfl
  have hx : u.serveData r = { doneReply (u.setTransfer r.path
      (some { t0 with lastAt := s.now, segs := Bank.put t0.segs (segOf r) r.data })) r with length := segOf r } := by
    simp only [State.serveData, hn, hwin, h15, OTy.code, ne_eq, not_true, if_false, hw, if_true, hl]
    rw [if_neg (Nat.not_le.mpr ho), if_neg (Nat.not_le.mpr hseg)]
  have hs : Served s _ 5 r (u.serveData r) :=
    .of_send (by rw [hx]; rfl) (by rw [hx]; simp [doneReply, hudef]) (by rw [hx]; simp [doneReply, hudef])
      (by rw [hx]; simp [doneReply, hudef]) (by rw [hx]; simp [doneReply, hudef])
  refine ⟨_, by rw [exec, execSegDataWrite, State.serve_taken ht, ← hudef,
    State.handle_data hr (.inl (by rw [hn]; rfl))], ?_, ?_, hs.sameObj, hs.blobs, hs.sameMem⟩
  · rw [hs.transfer, hx]; exact State.pathSt_setTransfer_self ..
  · rw [hs.out, hx]; simp only [respOf, doneReply, h15]

/-- SEG_DATA of a read returns the segment's bytes of the value fixed at its INIT (R43). -/
theorem segDataRead_returns {r : ObjReq} {t0 : Transfer} {s : State} (ht : s.quiet.taken 5 r = true)
    (hr : (objRow? r.index.toNat r.sub.toNat).isSome = true) (h0 : s.named r = some t0) (hw : t0.isWrite = false)
    (ho : r.segOutstanding < s.segWindow) (h15 : r.type.toNat = 15) (hseg : segOf r < ceilDiv t0.len 1024) :
    Gives (.segDataRead r) s (fun t =>
      t.out = [.response r.path (respOf 5 r ⟨s, 0, 15, segOf r, (t0.fixed.drop (segOf r * 1024)).take 1024⟩)] ∧
      (t.pathSt r.path).transfer = some { t0 with lastAt := s.now } ∧
      SameObj s t [oRequestCount] ∧ t.blobs = s.blobs ∧ SameMem s t) := by
  obtain ⟨hu, hn⟩ := State.touch_named (op := 5) rfl h0
  obtain ⟨u, hudef⟩ : ∃ u, u = s.quiet.touch 5 r := ⟨_, rfl⟩
  rw [← hudef] at hu hn
  have hwin : u.segWindow = s.segWindow := by rw [hu]; cases r.path <;> rfl
  have hx : u.serveData r = ⟨u, 0, 15, segOf r, (t0.fixed.drop (segOf r * 1024)).take 1024⟩ := by
    simp only [State.serveData, hn, hwin, h15, OTy.code, ne_eq, not_true, if_false, hw, Bool.false_eq_true]
    rw [if_neg (Nat.not_le.mpr ho), if_neg (Nat.not_le.mpr hseg)]
  have hs : Served s _ 5 r (u.serveData r) :=
    .of_send (by rw [hx]) (by rw [hx]; simp [hudef]) (by rw [hx]; simp [hudef]) (by rw [hx]; simp [hudef]) (by rw [hx]; simp [hudef])
  refine ⟨_, by rw [exec, execSegDataRead, State.serve_taken ht, ← hudef,
    State.handle_data hr (.inl (by rw [hn]; rfl))], ?_, ?_, hs.sameObj, hs.blobs, hs.sameMem⟩
  · rw [hs.out, hx]; rfl
  · rw [hs.transfer, hx, hu]; exact State.pathSt_setTransfer_self ..

/-- SEG_READ_INIT fixes the value and returns its length (R43). -/
theorem segReadInit_fixes {r : ObjReq} {row : ObjRow} {s : State} (ht : s.quiet.taken 3 r = true)
    (hr : objRow? r.index.toNat r.sub.toNat = some row) (hd : s.quiet.objDown r.index.toNat r.sub.toNat = false)
    (hwo : row.acc ≠ .wo) (hcmd : row.acc ≠ .cmd) (hi : s.quiet.initMeets r false = none) (hty : row.ty = .blob)
    (h15 : r.type.toNat = 15) :
    Gives (.segReadInit r) s (fun t =>
      (t.pathSt r.path).transfer = some ⟨r.tag.toNat, r.index.toNat, r.sub.toNat, false,
        (s.quiet.readValue row r.index.toNat r.sub.toNat).1.length, [],
        (s.quiet.readValue row r.index.toNat r.sub.toNat).1, s.now⟩ ∧
      t.out = [.response r.path (respOf 3 r ⟨s, 0, 15,
        (s.quiet.readValue row r.index.toNat r.sub.toNat).1.length, []⟩)] ∧
      SameObj s t [oRequestCount] ∧ t.blobs = s.blobs ∧ SameMem s t) := by
  have hv : (s.quiet.readValue row r.index.toNat r.sub.toNat).2 = s.quiet := by
    have hbytes : row.ty.isBytes = true := by rw [hty]; rfl
    simp only [State.readValue, hcmd, if_false, hbytes, if_true]
  obtain ⟨v, hvdef⟩ : ∃ v, v = s.quiet.readValue row r.index.toNat r.sub.toNat := ⟨_, rfl⟩
  rw [← hvdef] at hv ⊢
  have hx : s.quiet.serveReadInit r row = { doneReply (s.quiet.openTransfer r.path
      ⟨r.tag.toNat, r.index.toNat, r.sub.toNat, false, v.1.length, [], v.1, s.now⟩) r with length := v.1.length } := by
    simp only [State.serveReadInit, hwo, if_false, hi, ← hvdef, hv]
    rw [if_neg (by simp only [hty, hcmd, h15, OTy.code, ne_eq, not_true, or_self, not_false_eq_true])]
    rfl
  have hn : s.quiet.named r = none := State.named_of_no_transfer (State.no_transfer_of_initMeets hi)
  have hs : Served s _ 3 r (s.quiet.serveReadInit r row) :=
    .of_send (by rw [hx]; rfl) (by rw [hx]; simp [doneReply]) (by rw [hx]; simp [doneReply]) (by rw [hx]; simp [doneReply])
      (by rw [hx]; simp [doneReply])
  refine ⟨_, by rw [exec, execSegReadInit, State.serve_taken ht, State.touch_of_not_named hn,
    State.handle_readInit hr hd], ?_, ?_, hs.sameObj, hs.blobs, hs.sameMem⟩
  · rw [hs.transfer, hx]; exact State.pathSt_openTransfer ..
  · rw [hs.out, hx]; simp only [respOf, doneReply, h15]

/-- SEG_END of a read ends the transfer (R43). -/
theorem segEndRead_ends {r : ObjReq} {t0 : Transfer} {s : State} (ht : s.quiet.taken 6 r = true)
    (hr : (objRow? r.index.toNat r.sub.toNat).isSome = true) (h0 : s.named r = some t0) (hw : t0.isWrite = false)
    (h15 : r.type.toNat = 15) :
    Gives (.segEndRead r) s (fun t => (t.pathSt r.path).transfer = none ∧
      t.out = [.response r.path (respOf 6 r ⟨s, 0, 15, 0, []⟩)] ∧ SameObj s t [oRequestCount] ∧ t.blobs = s.blobs ∧
      SameMem s t) := by
  obtain ⟨row, hrow⟩ := Option.isSome_iff_exists.mp hr
  obtain ⟨hu, hn⟩ := State.touch_named (op := 6) rfl h0
  obtain ⟨u, hudef⟩ : ∃ u, u = s.quiet.touch 6 r := ⟨_, rfl⟩
  rw [← hudef] at hu hn
  have hx : u.serveEnd r row = doneReply (u.setTransfer r.path none) r := by
    simp only [State.serveEnd, hn, hw, h15, OTy.code, ne_eq, not_true, if_false, Bool.false_eq_true]
  have hs : Served s _ 6 r (u.serveEnd r row) :=
    .of_send (by rw [hx]; rfl) (by rw [hx]; simp [doneReply, hudef]) (by rw [hx]; simp [doneReply, hudef])
      (by rw [hx]; simp [doneReply, hudef]) (by rw [hx]; simp [doneReply, hudef])
  refine ⟨_, by rw [exec, execSegEndRead, State.serve_taken ht, ← hudef,
    State.handle_end hrow (.inl (by rw [hn]; rfl))], ?_, ?_, hs.sameObj, hs.blobs, hs.sameMem⟩
  · rw [hs.transfer, hx]; exact State.pathSt_setTransfer_self ..
  · rw [hs.out, hx]; simp only [respOf, doneReply, h15]

/-- SEG_END of a write that passes its checks ends the transfer and writes the whole value (R41). -/
theorem segEndWrite_writes {r : ObjReq} {row : ObjRow} {t0 : Transfer} {s : State} (ht : s.quiet.taken 6 r = true)
    (hr : objRow? r.index.toNat r.sub.toNat = some row) (h0 : s.named r = some t0) (hw : t0.isWrite = true)
    (hd : s.objDown r.index.toNat r.sub.toNat = false)
    (hden : s.writeDenied r.path row r.index.toNat r.sub.toNat t0.value = none) (h15 : r.type.toNat = 15)
    (hend : t0.endFault r.data = none) :
    exec (.segEndWrite r) s =
      .next (let w := (s.quiet.setTransfer r.path none).writeValue row r.index.toNat r.sub.toNat 15 t0.value
        (w.2.elim (doneReply w.1 r) (aborted w.1 r)).send 6 r) := by
  obtain ⟨hu, hn⟩ := State.touch_named (op := 6) rfl h0
  have hset : (s.quiet.touch 6 r).setTransfer r.path none = s.quiet.setTransfer r.path none := by
    rw [hu, State.setTransfer_setTransfer]
  have hdown : (s.quiet.touch 6 r).objDown r.index.toNat r.sub.toNat = false := by
    rw [← hd, hu]; cases r.path <;> rfl
  have hwd : (s.quiet.touch 6 r).writeDenied r.path row r.index.toNat r.sub.toNat t0.value = none := by
    rw [← hden, hu]; cases r.path <;> rfl
  have hval : ∀ b n, ({ t0 with isWrite := b, lastAt := n } : Transfer).value = t0.value := fun _ _ => rfl
  have hfault : ∀ b n, ({ t0 with isWrite := b, lastAt := n } : Transfer).endFault r.data = none := fun _ _ => hend
  rw [exec, execSegEndWrite, State.serve_taken ht, State.handle_end hr (.inl (by rw [hn]; rfl))]
  simp only [State.serveEnd, hn, hw, if_true, hdown, Bool.false_eq_true, if_false, hval, hwd, h15, OTy.code, ne_eq,
    not_true, State.finishWrite, hset, hfault]
  congr 2
  split <;> next h => rw [h]; rfl

/-- The objects that only hold bytes take the written value as it is. -/
theorem State.writeValue_bytes {s : State} {row : ObjRow} {k : Nat} {bs : Bytes}
    (hk : k ∈ [oSteProgram, oIdCertChain, oGroupTStart]) (hty : row.ty = .blob) (hl : bs.length ≤ row.maxLen)
    (hg : k = oGroupTStart → bs.length = 0 ∨ bs.length = 4096) (index sub : Nat) (hks : objKey index sub = k) :
    s.writeValue row index sub 15 bs = (s.setBlob k bs, none) := by
  have h1 : typeFault row 15 bs = none := by
    have : ¬row.maxLen < bs.length := Nat.not_lt.mpr hl
    simp [typeFault, hty, OTy.code, OTy.isBytes, this]
  have hfleet : k ≠ oFleetKey := by
    rintro rfl; revert hk; decide
  have h2 : s.rangeFault row k bs = none := by
    have h3 : k = oGroupTStart → ¬bs = [] → bs.length = 4096 := fun h hne =>
      (hg h).resolve_left (mt List.length_eq_zero_iff.mp hne)
    simpa [State.rangeFault, hty, OTy.isBytes, hfleet] using h3
  have h4 : s.putBytes k bs = (s.setBlob k bs, none) := by
    have hne : k ≠ oPlanBlob ∧ k ≠ oFwStage ∧ k ≠ oPackLoad ∧ k ≠ oLcRequest := by
      refine ⟨?_, ?_, ?_, ?_⟩ <;> (rintro rfl; revert hk; decide)
    simp [State.putBytes, hne, hfleet]
  have hb : row.ty.isBytes = true := by rw [hty]; rfl
  simp only [State.writeValue, h1, hks, h2, State.putValue, hb, if_true, h4]

theorem Transfer.value_length {t : Transfer} {bs : Bytes} (h : t.endFault bs = none) : t.value.length = t.len := by
  unfold Transfer.endFault at h
  split at h
  · cases h
  · next hc =>
    simp only [Bool.or_eq_true, not_or, bne_iff_ne, ne_eq, Classical.not_not] at hc
    exact hc.2

/-- Settles O11. -/
theorem segmentedTransfers : Obligations.SegmentedTransfers := by
  unfold Obligations.SegmentedTransfers
  refine ⟨⟨fun r row s ht hr hd hw hi hty h15 hl hm => segWriteInit_opens ht hr hd hw hi hty h15 hl hm,
      fun r t0 s ht hr h0 hw ho h15 hseg hl => segDataWrite_stores ht hr h0 hw ho h15 hseg hl,
      fun r row t0 s ht hr h0 hw hd hden h15 hend => ?_⟩,
    fun r row s ht hr hd hwo hcmd hi hty h15 => segReadInit_fixes ht hr hd hwo hcmd hi hty h15,
    fun r t0 s ht hr h0 hw ho h15 hseg => segDataRead_returns ht hr h0 hw ho h15 hseg,
    fun r t0 s ht hr h0 hw h15 => segEndRead_ends ht hr h0 hw h15⟩
  have hexec := segEndWrite_writes ht hr h0 hw hd hden h15 hend
  refine ⟨hexec, fun hk hty hl hg => ?_⟩
  have hlen := Transfer.value_length hend
  have hwv := State.writeValue_bytes (s := s.quiet.setTransfer r.path none) hk hty (by rw [hlen]; exact hl)
    (by rw [hlen]; exact hg) r.index.toNat r.sub.toNat rfl
  rw [hwv] at hexec
  refine ⟨_, hexec, ?_, ?_, ?_, fun k hne => ?_, ?_, ?_⟩
  · rw [Reply.send_transfer]
    exact State.pathSt_setTransfer_self s.quiet r.path none
  · rw [State.blob_of_blobs (Reply.send_blobs ..), Option.elim, doneReply, State.blob_setBlob, if_pos rfl]
  · simp [Reply.send_out, doneReply, respOf, h15]
  · rw [State.blob_of_blobs (Reply.send_blobs ..), Option.elim, doneReply, State.blob_setBlob, if_neg hne]
    exact State.blob_of_blobs (by rw [State.setTransfer_blobs]; rfl) k
  · refine SameObj.trans (SameObj.of_od ?_) (Reply.send_sameObj 6 r rfl)
    simp [doneReply]
  · exact .of_mem (by simp [Reply.send_mem, doneReply])

/-! ### Answers and result words -/

theorem State.cmdStart_obj (s : State) (k : Nat) : (s.cmdStart k).obj k = 0x10000 := by
  rw [State.cmdStart, State.setResult, State.obj_setObj_self]

/-- Settles O12. -/
theorem answersAndResults : Obligations.AnswersAndResults := by
  unfold Obligations.AnswersAndResults
  refine ⟨fun s q k code bs => ?_, fun s k code hk hc => ?_, fun s row index sub hc => ?_⟩
  · have hpath : (sentAs q k bs).2.path = q.path := by unfold sentAs; split <;> rfl
    have htag : (sentAs q k bs).2.tag = q.tag := by unfold sentAs; split <;> rfl
    refine ⟨Reply.send_count .., Reply.send_sameObj _ _ rfl, Reply.send_sameMem _ _ _, Reply.send_blobs ..,
      Reply.send_power .., ?_, fun ha => ?_, Reply.send_count .., fun hne => ?_, fun ha => ?_,
      Reply.send_sameObj_abort _ _ _, Reply.send_sameMem _ _ _, Reply.send_blobs .., ?_⟩
    · rw [← hpath]; exact Reply.send_out ..
    · rw [← hpath] at ha ⊢
      rw [← htag]
      exact Reply.send_kept _ _ _ ha
    · rw [← hpath, State.turnedAway, Reply.send_obj, Reply.send_obj]
      exact State.countRequest_abort _ _ _ hne
    · rw [← hpath] at ha ⊢
      rw [← htag]
      exact Reply.send_kept _ _ _ ha
    · rw [← hpath]; exact Reply.send_out ..
  · refine ⟨s.cmdStart_obj k, s.cmdDone_obj k hk, ?_, (SameObj.refl s _).setObj _ (List.mem_cons_self ..),
      fun j hj => ?_, fun j hj => ?_, fun hf => ?_⟩
    · rw [s.cmdFail_obj k code hk, Nat.mod_eq_of_lt (show code < 65536 from hc)]
    · obtain ⟨hjk, hje⟩ := not_or.mp (mt List.mem_cons.mpr hj)
      exact s.cmdDone_obj_ne hjk hje
    · obtain ⟨hjk, hje⟩ := not_or.mp (mt List.mem_cons.mpr hj)
      exact s.cmdFail_obj_ne hjk hje
    · have hb : bit ((s.setObj k 0x20000).obj oFeaturesAgreed) 2 = false := by
        rw [State.obj_setObj]
        split
        · decide
        · exact hf
      rw [State.cmdDone, State.cmdEvent]
      exact if_neg (by rw [State.setResult, hb]; decide)
  · exact ⟨if_pos hc, if_pos hc⟩

end Sys2Proof.Machine

namespace Sys2Proof.Machine

/-! ### Writes of objects with a row of their own -/

/-- A served WRITE of a number that is no CMD object does what `putNat` says. -/
theorem Does.num {c : Instr} {s t : State} {q : WReq} {k : Nat} {bs : Bytes} {P : State → Prop}
    (he : exec c s = .next (s.quiet.write q k bs)) (hk : k < 2 ^ 24)
    (hr : (rowOfKey k).any (fun r => r.acc != .cmd && !r.ty.isBytes) = true)
    (hp : s.quiet.putNat (k / 256) (k % 256) (leNat bs) = (t, none)) (h : P t) : Does c s q k bs P := by
  cases hrow : rowOfKey k with
  | none => rw [hrow] at hr; cases hr
  | some row =>
    rw [hrow, Option.any_some, Bool.and_eq_true, bne_iff_ne, Bool.not_eq_true'] at hr
    exact fun hw => ⟨t, by rw [he, State.write_num hw hk hrow hr.1 hr.2 hp], h⟩

/-- A served WRITE of a CMD object starts its action. -/
theorem Does.action {c : Instr} {s : State} {q : WReq} {k : Nat} {bs : Bytes} {P : State → Prop} {t : State}
    (he : exec c s = .next (s.quiet.write q k bs)) (hk : k < 2 ^ 24)
    (hr : (rowOfKey k).any (fun r => r.acc == .cmd && !r.ty.isBytes) = true)
    (ha : s.quiet.act (k / 256) (k % 256) (leNat bs) = t) (h : P t) : Does c s q k bs P := by
  cases hrow : rowOfKey k with
  | none => rw [hrow] at hr; cases hr
  | some row =>
    rw [hrow, Option.any_some, Bool.and_eq_true, beq_iff_eq, Bool.not_eq_true'] at hr
    exact Does.cmd he hk hrow hr.1 hr.2 (ha ▸ h)

/-- A served WRITE of a byte object does what `putBytes` says. -/
theorem Does.bytes {c : Instr} {s t : State} {q : WReq} {k : Nat} {bs : Bytes} {P : State → Prop}
    (he : exec c s = .next (s.quiet.write q k bs)) (hk : k < 2 ^ 24)
    (hr : (rowOfKey k).any (fun r => r.ty.isBytes) = true) (hp : s.quiet.putBytes k bs = (t, none)) (h : P t) :
    Does c s q k bs P := by
  cases hrow : rowOfKey k with
  | none => rw [hrow] at hr; cases hr
  | some row =>
    rw [hrow, Option.any_some] at hr
    exact fun hw => ⟨t, by rw [he, State.write_blob hw hk hrow hr hp]; rfl, h⟩

theorem leNat_natLe_toNat {w : Nat} (n : Nat) (v : BitVec w) (h : w = 8 * n) : leNat (natLe n v.toNat) = v.toNat := by
  rw [leNat_natLe]
  exact Nat.mod_eq_of_lt (h ▸ v.isLt)

/-! ### Objects of identity, the feature word and the bridge -/

theorem State.setFeatures_of_offered {s : State} {v : Nat} (ho : v &&& s.obj oFeaturesOffered = v)
    (hb : bit v 0 = true) :
    s.setFeatures v = ((s.setObj oFeaturesAccepted v).setObj oFeaturesAgreed v, none) := by
  rw [State.setFeatures, if_neg (by simp [ho, hb])]

theorem State.setFeatures_of_not_offered {s : State} {v : Nat}
    (h : v &&& s.obj oFeaturesOffered ≠ v ∨ bit v 0 = false) : s.setFeatures v = (s, some abFeatureNotOffered) := by
  rw [State.setFeatures, if_pos h]

/-- A port read after a write. -/
theorem State.portSt_setPort (s : State) (p : Nat) (x : PortSt) (j : Nat) :
    (s.setPort p x).portSt j = if j = p then x else s.portSt j := Bank.get_set ..

theorem State.agree_restate (s : State) (a p : Nat) :
    ((s.restate a).portSt p).agree = if p = a then 0 else (s.portSt p).agree := by
  unfold State.restate
  rw [State.portSt_setPort]
  split <;> rfl

theorem State.agree_restate_foldl (ps : List Nat) (s : State) (p : Nat) :
    ((ps.foldl (fun (s : State) p => s.restate p) s).portSt p).agree =
      if p ∈ ps then 0 else (s.portSt p).agree := by
  induction ps generalizing s with
  | nil => simp
  | cons a ps ih =>
    rw [List.foldl_cons, ih, State.agree_restate]
    by_cases hp : p ∈ ps <;> by_cases ha : p = a <;> simp [hp, ha]

theorem State.restate_foldl_frame (ps : List Nat) (s : State) :
    (ps.foldl (fun (s : State) p => s.restate p) s).od = s.od ∧
    (ps.foldl (fun (s : State) p => s.restate p) s).mem = s.mem := by
  induction ps generalizing s with
  | nil => exact ⟨rfl, rfl⟩
  | cons a ps ih => exact ih (s.restate a)

theorem State.mem_defer (s : State) (k v : Nat) : (k, v) ∈ (s.defer k v).deferred :=
  List.mem_append_right _ (List.mem_singleton.mpr rfl)

/-- Settles O14. -/
theorem identityAndBridgeWrites : Obligations.IdentityAndBridgeWrites := by
  unfold Obligations.IdentityAndBridgeWrites
  have hv16 : ∀ v : BitVec 128, leNat (natLe 16 v.toNat) = v.toNat := fun v => leNat_natLe_toNat 16 v rfl
  refine ⟨⟨fun q v s ho hb => ?_, fun q v s hw h => ?_, fun q v s => ?_, fun q v s => ?_⟩, fun q v s => ?_,
    fun q v s => ?_⟩
  · refine Does.num rfl (by decide) (by decide) ?_ rfl
    rw [hv16]
    exact State.setFeatures_of_offered (s := s.quiet) ho hb
  · obtain ⟨row, hrow, hty⟩ : ∃ row, rowOfKey oFeaturesAccepted = some row ∧ row.acc = .rwa ∧ row.ty.isBytes = false :=
      ⟨_, rfl, rfl, rfl⟩
    have hp : s.quiet.putValue row (oFeaturesAccepted / 256) (oFeaturesAccepted % 256) (natLe 16 v.toNat) =
        (s.quiet, some abFeatureNotOffered) := by
      rw [State.putValue, hty.2, hty.1, hv16]
      exact State.setFeatures_of_not_offered (s := s.quiet) h
    rw [exec, execFeaturesAccepted, State.write_served hw (by decide) hrow hp]
    rfl
  · refine Does.num (t := ((s.quiet.setObj oPlaceNumber v.toNat).setObj oPlaceStated 1).restateAll) rfl (by decide)
      (by decide) (by rw [leNat_natLe_toNat 2 v rfl]; rfl) ?_
    obtain ⟨hod, hmem⟩ := State.restate_foldl_frame (upto 24) ((s.quiet.setObj oPlaceNumber v.toNat).setObj oPlaceStated 1)
    refine ⟨?_, ?_, ?_, .of_mem hmem, fun p hp => ?_⟩
    · rw [State.restateAll, State.obj_of_od hod, State.obj_setObj_ne _ _ (by decide), State.obj_setObj_self]
    · rw [State.restateAll, State.obj_of_od hod, State.obj_setObj_self]
    · exact (((SameObj.refl s _).setObj _ (by decide)).setObj _ (by decide)).trans (SameObj.of_od hod)
    · rw [State.restateAll, State.agree_restate_foldl, if_pos (show p ∈ upto 24 from List.mem_range.mpr hp)]
  · refine Does.num rfl (by decide) (by decide) rfl ?_
    rw [leNat_natLe_toNat 4 v rfl]
    rfl
  · refine Does.num rfl (by decide) (by decide) rfl ?_
    rw [leNat_natLe_toNat 1 v rfl]
    exact ⟨State.mem_defer .., rfl, .of_mem rfl⟩
  · refine Does.num rfl (by decide) (by decide) rfl ?_
    rw [leNat_natLe_toNat 2 v rfl]
    exact ⟨State.mem_defer .., rfl, .of_mem rfl⟩

/-! ### The bell count's own objects -/

/-- A new time role returns the count to UNLOCKED (R60). -/
theorem State.actTimeRole_of_ne {s : State} {v : Nat} (h : v ≠ s.obj oTimeRole) :
    (s.actTimeRole v).obj oTimeRole = v ∧ (s.actTimeRole v).obj oBellState = bellUnlocked ∧
    (s.actTimeRole v).obj oBellDepth = (if v = 1 then 0 else 0xFF) ∧ (s.actTimeRole v).bell.beat = s.bell.beat ∧
    (s.actTimeRole v).bell.off = s.bell.off ∧
    SameObj s (s.actTimeRole v) [oTimeRole, oBellState, oBellDepth, oLockLossCount] ∧
    (s.actTimeRole v).mem = s.mem := by
  unfold State.actTimeRole
  rw [if_neg h]
  extract_lets s1 s2 s3
  have hbell : s1.bell = s.bell ∧ s1.mem = s.mem := by
    simp only [s1]
    split <;> exact ⟨rfl, rfl⟩
  have h1 : SameObj s s1 [oTimeRole, oBellState, oBellDepth, oLockLossCount] := by
    simp only [s1]
    split
    · exact (SameObj.refl s _).bump (by decide)
    · exact SameObj.refl s _
  refine ⟨?_, ?_, State.obj_setObj_self .., ?_, ?_, ?_, hbell.2⟩
  · exact (State.obj_setObj_ne _ _ (by decide)).trans ((State.obj_setObj_ne _ _ (by decide)).trans
      (State.obj_setObj_self ..))
  · exact (State.obj_setObj_ne _ _ (by decide)).trans (State.obj_setObj_self ..)
  · show s1.bell.beat = s.bell.beat
    rw [hbell.1]
  · show s1.bell.off = s.bell.off
    rw [hbell.1]
  · exact ((h1.setObj _ (by decide)).setObj _ (by decide)).setObj _ (by decide)

/-- A stated coolant value stands, and at most the coolant objects change (R67). -/
theorem State.actCoolant_keeps_value (s : State) (isFlow : Bool) (v : Nat) :
    let k := if isFlow then oCoolantFlowLpm else oCoolantInletC
    (s.actCoolant isFlow v).obj k = v ∧ SameObj s (s.actCoolant isFlow v) [k, oCoolantStated, oPowerAllowedW] ∧
    (s.actCoolant isFlow v).mem = s.mem := by
  intro k
  have hk : k ≠ oCoolantStated ∧ k ≠ oPowerAllowedW := by
    simp only [k]; split <;> decide
  have h0 : (if isFlow then s.setObj oCoolantFlowLpm v else s.setObj oCoolantInletC v) = s.setObj k v := by
    simp only [k]; split <;> rfl
  have h1 : SameObj s (s.setObj k v) [k, oCoolantStated, oPowerAllowedW] :=
    (SameObj.refl s _).setObj _ (List.mem_cons_self ..)
  unfold State.actCoolant
  rw [h0]
  extract_lets s1 c p s2 s3 r
  have h3 : SameObj s s3 [k, oCoolantStated, oPowerAllowedW] := SameObj.setObj (t := s2) h1 _ (by simp)
  have hv3 : s3.obj k = v := (State.obj_setObj_ne s2 _ hk.1).trans (State.obj_setObj_self s k v)
  split
  · split
    · exact ⟨(State.obj_setObj_ne s3 _ hk.2).trans hv3, h3.setObj _ (by simp), rfl⟩
    · exact ⟨(State.obj_setObj_ne r.2 _ hk.2).trans hv3, SameObj.setObj (t := r.2) h3 _ (by simp), rfl⟩
  · exact ⟨State.obj_setObj_self s k v, h1, rfl⟩

/-- Settles O15. -/
theorem timeWrites : Obligations.TimeWrites := by
  unfold Obligations.TimeWrites
  refine ⟨fun q v s h => ?_, fun q v s => ?_, fun q v s h => ?_, fun q v s h => ?_, fun q v s => ?_, fun q v s => ?_⟩
  · refine Does.num rfl (by decide) (by decide) ?_ rfl
    rw [leNat_natLe_toNat 8 v rfl]
    exact if_neg (Nat.not_le.mpr h)
  · refine Does.num rfl (by decide) (by decide) rfl ?_
    rw [leNat_natLe]
    rfl
  · refine Does.num rfl (by decide) (by decide) rfl ?_
    rw [leNat_natLe_toNat 1 v rfl]
    exact if_pos h
  · refine Does.num rfl (by decide) (by decide) rfl ?_
    rw [leNat_natLe_toNat 1 v rfl]
    obtain ⟨h1, h2, h3, h4, h5, h6, h7⟩ := State.actTimeRole_of_ne (s := s.quiet) h
    exact ⟨h1, h2, h3, h4, h5, h6, .of_mem h7⟩
  · refine Does.num rfl (by decide) (by decide) rfl ?_
    rw [leNat_natLe_toNat 4 v rfl]
    obtain ⟨h1, h2, h3⟩ := s.quiet.actCoolant_keeps_value true v.toNat
    exact ⟨h1, h2, .of_mem h3⟩
  · refine Does.num rfl (by decide) (by decide) rfl ?_
    rw [leNat_natLe_toNat 4 v rfl]
    obtain ⟨h1, h2, h3⟩ := s.quiet.actCoolant_keeps_value false v.toNat
    exact ⟨h1, h2, .of_mem h3⟩

end Sys2Proof.Machine

namespace Sys2Proof.Machine

/-! ### Objects of a state rebuilt around the same banks -/

theorem State.obj_congr {s t : State} (k : Nat) (h : t.od = s.od := by rfl) : t.obj k = s.obj k := State.obj_of_od h k

theorem State.blob_congr {s t : State} (k : Nat) (h : t.blobs = s.blobs := by rfl) : t.blob k = s.blob k :=
  State.blob_of_blobs h k

theorem SameObj.congr {s t u : State} {ks : List Nat} (h : SameObj s t ks) (e : u.od = t.od := by rfl) :
    SameObj s u ks := h.trans (SameObj.of_od e)

theorem SameMem.refl (s : State) : SameMem s s := fun _ => rfl

/-! ### CMD actions that end -/

theorem State.cmdDone_logs (s : State) (k : Nat) : Logs (s.setObj k 0x20000) (s.cmdDone k) := State.cmdEvent_logs _ k

theorem State.cmdFail_logs (s : State) (k code : Nat) :
    Logs (s.setObj k (3 * 65536 + code % 65536)) (s.cmdFail k code) := State.cmdEvent_logs _ k

theorem State.cmdDone_sameObj (s : State) (k : Nat) : SameObj s (s.cmdDone k) (k :: eventKeys) :=
  ((SameObj.refl s _).setObj _ (List.mem_cons_self ..)).trans
    ((s.cmdDone_logs k).sameObj.mono (fun _ h => List.mem_cons_of_mem _ h))

theorem State.cmdFail_sameObj (s : State) (k code : Nat) : SameObj s (s.cmdFail k code) (k :: eventKeys) :=
  ((SameObj.refl s _).setObj _ (List.mem_cons_self ..)).trans
    ((s.cmdFail_logs k code).sameObj.mono (fun _ h => List.mem_cons_of_mem _ h))

theorem State.cmdStart_sameObj (s : State) (k : Nat) : SameObj s (s.cmdStart k) [k] :=
  (SameObj.refl s _).setObj _ (List.mem_cons_self ..)

/-! ### The action of each CMD object -/

theorem State.act_admit (s : State) (v : Nat) : s.act (oAdmit / 256) (oAdmit % 256) v = s.actAdmit := by
  unfold State.act
  rw [if_pos (by decide)]

theorem State.act_release (s : State) (v : Nat) : s.act (oRelease / 256) (oRelease % 256) v = s.actRelease := by
  unfold State.act
  iterate 1 rw [if_neg (by decide)]
  rw [if_pos (by decide)]

theorem State.act_jobStart (s : State) (v : Nat) : s.act (oJobStart / 256) (oJobStart % 256) v = s.actJobStart v := by
  unfold State.act
  iterate 2 rw [if_neg (by decide)]
  rw [if_pos (by decide)]

theorem State.act_jobStop (s : State) (v : Nat) : s.act (oJobStop / 256) (oJobStop % 256) v = s.actJobStop := by
  unfold State.act
  iterate 3 rw [if_neg (by decide)]
  rw [if_pos (by decide)]

theorem State.act_prepare (s : State) (v : Nat) : s.act (oPrepare / 256) (oPrepare % 256) v = s.actPrepare v := by
  unfold State.act
  iterate 4 rw [if_neg (by decide)]
  rw [if_pos (by decide)]

theorem State.act_xrClear (s : State) (v : Nat) : s.act (oXrClear / 256) (oXrClear % 256) v = s.actXrClear := by
  unfold State.act
  iterate 5 rw [if_neg (by decide)]
  rw [if_pos (by decide)]

theorem State.act_memVerified (s : State) (v : Nat) : s.act (oMemVerified / 256) (oMemVerified % 256) v = s.actMemVerified := by
  unfold State.act
  iterate 7 rw [if_neg (by decide)]
  rw [if_pos (by decide)]

theorem State.act_rtTelemetryClear (s : State) (v : Nat) : s.act (oRtTelemetryClear / 256) (oRtTelemetryClear % 256) v = s.actTelemetryClear := by
  unfold State.act
  iterate 8 rw [if_neg (by decide)]
  rw [if_pos (by decide)]

theorem State.act_evidenceReset (s : State) (v : Nat) : s.act (oEvidenceReset / 256) (oEvidenceReset % 256) v = s.actEvidenceReset := by
  unfold State.act
  iterate 9 rw [if_neg (by decide)]
  rw [if_pos (by decide)]

theorem State.act_packRemove (s : State) (v : Nat) : s.act (oPackRemove / 256) (oPackRemove % 256) v = s.actPackRemove v := by
  unfold State.act
  iterate 10 rw [if_neg (by decide)]
  rw [if_pos (by decide)]

theorem State.act_stRun (s : State) (v : Nat) : s.act (oStRun / 256) (oStRun % 256) v = s.actStRun := by
  unfold State.act
  iterate 11 rw [if_neg (by decide)]
  rw [if_pos (by decide)]

theorem State.act_steStart (s : State) (v : Nat) : s.act (oSteStart / 256) (oSteStart % 256) v = s.actSteStart := by
  unfold State.act
  iterate 12 rw [if_neg (by decide)]
  rw [if_pos (by decide)]

theorem State.act_digestRegion (s : State) (v : Nat) : s.act (oDigestRegion / 256) (oDigestRegion % 256) v = s.actDigest v := by
  unfold State.act
  iterate 13 rw [if_neg (by decide)]
  rw [if_pos (by decide)]

theorem State.act_reinit (s : State) (v : Nat) : s.act (oReinit / 256) (oReinit % 256) v = s.actReinit v := by
  unfold State.act
  iterate 14 rw [if_neg (by decide)]
  rw [if_pos (by decide)]

theorem State.act_ledgerClear (s : State) (v : Nat) : s.act (oLedgerClear / 256) (oLedgerClear % 256) v = s.actLedgerClear v := by
  unfold State.act
  iterate 15 rw [if_neg (by decide)]
  rw [if_pos (by decide)]

theorem State.act_lcAdvance (s : State) (v : Nat) : s.act (oLcAdvance / 256) (oLcAdvance % 256) v = s.actLcAdvance v := by
  unfold State.act
  iterate 16 rw [if_neg (by decide)]
  rw [if_pos (by decide)]

theorem State.act_fwActivate (s : State) (v : Nat) : s.act (oFwActivate / 256) (oFwActivate % 256) v = s.actFwActivate := by
  unfold State.act
  iterate 17 rw [if_neg (by decide)]
  rw [if_pos (by decide)]

theorem State.act_powerRequest (s : State) (v : Nat) : s.act (oPowerRequest / 256) (oPowerRequest % 256) v = s.actPowerRequest v := by
  unfold State.act
  iterate 18 rw [if_neg (by decide)]
  rw [if_pos (by decide)]

theorem State.act_warmReset (s : State) (v : Nat) : s.act (oWarmReset / 256) (oWarmReset % 256) v = s.actWarmReset := by
  unfold State.act
  iterate 19 rw [if_neg (by decide)]
  rw [if_pos (by decide)]

theorem State.act_shutdown (s : State) (v : Nat) : s.act (oShutdown / 256) (oShutdown % 256) v = s.actShutdown := by
  unfold State.act
  iterate 20 rw [if_neg (by decide)]
  rw [if_pos (by decide)]

/-! ### The plan's objects -/

/-- A new PLAN_BLOB ends a rehearsal: the events of its failed PREPARE and the objects of the rehearsal change. -/
theorem State.dropRehearsal_frame (s : State) :
    s.dropRehearsal.obj oPrepareState = 0 ∧ s.dropRehearsal.blobs = s.blobs ∧
    SameObj s s.dropRehearsal ([oPrepare, oPrepareState, oPrepareResult] ++ eventKeys) := by
  unfold State.dropRehearsal
  extract_lets s1
  have h1 : s1.blobs = s.blobs ∧ SameObj s s1 ([oPrepare, oPrepareState, oPrepareResult] ++ eventKeys) := by
    simp only [s1]
    split
    · exact ⟨(s.cmdFail_logs oPrepare 0x0303).blobs, (s.cmdFail_sameObj oPrepare 0x0303).mono (by decide)⟩
    · exact ⟨rfl, SameObj.refl s _⟩
  refine ⟨?_, h1.1, ?_⟩
  · rw [State.obj_setObj_ne _ _ (by decide), State.obj_setObj_self]
  · exact SameObj.setObj (SameObj.setObj (t := s1.forgetPrep) h1.2 _ (by decide)) _ (by decide)

/-- A written plan stands, LOADED or EMPTY, and no half of a region is committed (R82). -/
theorem State.setPlanBlob_spec (s : State) (bs : Bytes) :
    (s.setPlanBlob bs).blob oPlanBlob = bs ∧ (s.setPlanBlob bs).obj oPlanState = (if bs.isEmpty then 0 else 1) ∧
    (s.setPlanBlob bs).mem.committed = [] ∧ (s.setPlanBlob bs).obj oPrepareState = 0 ∧
    SameObj s (s.setPlanBlob bs) ([oPlanState, oMapCount, oPrepare, oPrepareState, oPrepareResult] ++ eventKeys) := by
  obtain ⟨hst, hbl, hobj⟩ := (s.setBlob oPlanBlob bs).dropRehearsal_frame
  unfold State.setPlanBlob
  generalize (s.setBlob oPlanBlob bs).dropRehearsal = s1 at *
  dsimp only
  generalize hs2 : (s1.setObj oPlanState (if bs.isEmpty then 0 else 1)).setObj oMapCount ((parsePlan bs).maps % 256) = s2
  have h1 : SameObj s s1 ([oPlanState, oMapCount, oPrepare, oPrepareState, oPrepareResult] ++ eventKeys) :=
    hobj.mono (by decide)
  have h2 : SameObj s s2 ([oPlanState, oMapCount, oPrepare, oPrepareState, oPrepareResult] ++ eventKeys) :=
    hs2 ▸ (h1.setObj _ (by decide)).setObj _ (by decide)
  have hb : s2.blobs = s1.blobs := by rw [← hs2, State.setObj_blobs, State.setObj_blobs]
  refine ⟨?_, ?_, rfl, ?_, h2.congr⟩
  · rw [State.blob_congr (s := s2), State.blob_of_blobs (hb.trans hbl), State.blob_setBlob, if_pos rfl]
  · rw [State.obj_congr (s := s2), ← hs2, State.obj_setObj_ne _ _ (by decide), State.obj_setObj_self]
  · rw [State.obj_congr (s := s2), ← hs2, State.obj_setObj_ne _ _ (by decide), State.obj_setObj_ne _ _ (by decide), hst]

theorem State.not_planState_two {s : State} (h : s.planHeld = false) : s.admitted = false ∧ s.planState ≠ 2 := by
  simp only [State.planHeld, Bool.or_eq_false_iff, beq_eq_false_iff_ne] at h
  exact ⟨h.2, h.1⟩

theorem State.admitted_of_planState {s : State} (h : s.planState = 2) : s.admitted = false := by
  simp only [State.admitted, h]
  decide

/-- Settles O17. -/
theorem planActions : Obligations.PlanActions := by
  unfold Obligations.PlanActions
  refine ⟨⟨fun q value s => ?_, fun q v s h => ?_, fun q v s h => ?_, fun q v s h => ?_, fun q v s h hb => ?_,
    fun q v s => ?_, fun q v s h => ?_⟩, fun q v s h => ?_, fun q v s h => ?_, fun q v c s h => ?_, fun q v s h => ?_,
    fun q s h => ?_, fun q v s h hp => ?_, fun q v s h => ?_⟩
  · obtain ⟨h1, h2, h3, h4, h5⟩ := s.quiet.setPlanBlob_spec value
    exact Does.bytes rfl (by decide) (by decide) rfl ⟨h1, h2, h3, h4, h5⟩
  · refine Does.action (t := s.quiet.actAdmit) rfl (by decide) (by decide) (State.act_admit ..) ?_
    rw [State.actAdmit, if_pos (show s.quiet.planState = 1 from h)]
    have h1 : SameObj s ((s.quiet.cmdStart oAdmit).setObj oPlanState 2) [oAdmit, oPlanState] :=
      ((s.quiet.cmdStart_sameObj oAdmit).mono (by decide)).setObj _ (by decide)
    refine ⟨?_, ?_, rfl, rfl, h1.congr, SameMem.refl s, rfl⟩
    · exact (State.obj_congr (s := (s.quiet.cmdStart oAdmit).setObj oPlanState 2) _).trans (State.obj_setObj_self ..)
    · refine (State.obj_congr (s := (s.quiet.cmdStart oAdmit).setObj oPlanState 2) _).trans ?_
      rw [State.obj_setObj_ne _ _ (by decide), State.cmdStart_obj]
  · refine Does.action (t := s.quiet.actRelease) rfl (by decide) (by decide) (State.act_release ..) ?_
    rw [State.actRelease, if_pos (show s.quiet.admitted = true from h)]
    exact ⟨rfl, (State.obj_congr _).trans (s.quiet.cmdStart_obj oRelease), (s.quiet.cmdStart_sameObj oRelease).congr,
      SameMem.refl s⟩
  · obtain ⟨ha, h2⟩ := State.not_planState_two h
    refine Does.action (t := s.quiet.actRelease) rfl (by decide) (by decide) (State.act_release ..) ?_
    rw [State.actRelease, if_neg (show ¬s.quiet.admitted = true from Bool.eq_false_iff.mp ha),
      if_neg (show ¬s.quiet.planState = 2 from h2)]
  · refine Does.action (t := s.quiet.actJobStart v.toNat) rfl (by decide) (by decide)
      (by rw [leNat_natLe_toNat 8 v rfl, State.act_jobStart]) ?_
    rw [State.actJobStart, if_neg (show ¬(s.quiet.planState ≠ 3 ∨ v.toNat < s.quiet.bell.beat + 2) from
      not_or.mpr ⟨Classical.not_not.mpr h, Nat.not_lt.mpr hb⟩)]
    exact ⟨rfl, (State.obj_congr _).trans (s.quiet.cmdStart_obj oJobStart),
      (s.quiet.cmdStart_sameObj oJobStart).congr, SameMem.refl s⟩
  · refine Does.action (t := s.quiet.actJobStop) rfl (by decide) (by decide) (State.act_jobStop ..) ?_
    rw [State.actJobStop]
    refine ⟨fun ha => ?_, fun ha => ?_, State.cmdDone_obj _ _ (by decide), ?_⟩
    · rw [(State.cmdDone_logs _ _).step, if_pos (show s.quiet.admitted = true from ha)]
      rfl
    · rw [(State.cmdDone_logs _ _).step, if_neg (show ¬s.quiet.admitted = true from Bool.eq_false_iff.mp ha)]
      rfl
    · refine SameObj.trans (SameObj.of_od ?_) (State.cmdDone_sameObj _ oJobStop)
      split <;> rfl
  · refine Does.action (t := s.quiet.actPrepare v.toNat) rfl (by decide) (by decide)
      (by rw [leNat_natLe_toNat 8 v rfl, State.act_prepare]) ?_
    simp only [State.actPrepare, h]
    have h1 : SameObj s ((s.quiet.cmdStart oPrepare).setObj oPrepareState 1) [oPrepare, oPrepareState] :=
      ((s.quiet.cmdStart_sameObj oPrepare).mono (by decide)).setObj _ (by decide)
    refine ⟨rfl, ?_, ?_, h1.congr, SameMem.refl s⟩
    · refine (State.obj_congr (s := (s.quiet.cmdStart oPrepare).setObj oPrepareState 1) _).trans ?_
      rw [State.obj_setObj_ne _ _ (by decide), State.cmdStart_obj]
    · exact (State.obj_congr (s := (s.quiet.cmdStart oPrepare).setObj oPrepareState 1) _).trans
        (State.obj_setObj_self ..)
  · exact Does.action (t := s.quiet.actAdmit) rfl (by decide) (by decide) (State.act_admit ..) (if_neg h)
  · exact Does.action (t := s.quiet.actRelease) rfl (by decide) (by decide) (State.act_release ..)
      ((if_neg (Bool.eq_false_iff.mp (State.admitted_of_planState h))).trans (if_pos h))
  · refine Does.action (t := s.quiet.actPrepare v.toNat) rfl (by decide) (by decide)
      (by rw [leNat_natLe_toNat 8 v rfl, State.act_prepare]) ?_
    simp only [State.actPrepare, h]
  · exact Does.action (t := s.quiet.actJobStart v.toNat) rfl (by decide) (by decide)
      (by rw [leNat_natLe_toNat 8 v rfl, State.act_jobStart]) (if_pos h)
  · exact Does.action (t := s.quiet.actLedgerClear 2) rfl (by decide) (by decide) (State.act_ledgerClear ..)
      ((if_neg (by decide)).trans (if_neg h))
  · refine Does.action (t := s.quiet.actPackRemove v.toNat) rfl (by decide) (by decide)
      (by rw [leNat_natLe_toNat 4 v rfl, State.act_packRemove]) ?_
    have hnone : ¬s.quiet.packs.any (fun p => p.id == v.toNat) = true := by
      rw [Bool.not_eq_true, List.any_eq_false]
      intro p hpm
      simpa using List.all_eq_true.mp hp p hpm
    exact (if_neg (Bool.eq_false_iff.mp h)).trans (if_neg hnone)
  · exact Does.action (t := s.quiet.actShutdown) rfl (by decide) (by decide) (State.act_shutdown ..) (if_pos h)

end Sys2Proof.Machine

namespace Sys2Proof.Machine

/-! ### A state whose events reach memory

The record of an event, that of CMD_DONE among them (R29), goes to the plan's EVENT queue (R397). Where the queue's
ring lies in a region of the memory, raising an event writes a line there. -/

/-- A module in RUN that agrees on the feature of CMD_DONE events and holds a plan whose EVENT queue lies at address 0
of its memory. -/
def eventQueueAtZero : State :=
  { State.reset with
    od := [(oFeaturesAgreed, 5), (oPowerState, 1), (oPlanState, 3)] ++ (upto 50).map (fun d => (oDomainState d, domOn))
    power := { PowerSt.init with
      pwrEn := true, resetN := true, aux := true, auxSettled := true, mv48 := 48000, boot := .image }
    plan := some { parsePlan [] with queues := [⟨0, 0, 2, 0, 1, 0, 4, 0⟩], regions := [⟨1, 7, 0, 4096⟩] } }

theorem State.accepted_mem (u : State) (q : WReq) (k : Nat) (bs : Bytes) : (u.accepted q k bs).mem = u.mem :=
  Reply.send_mem _ _ _

/-- What a served WRITE leaves in memory is what the object's action leaves there. -/
theorem Does.mem_eq {c : Instr} {s : State} {q : WReq} {k : Nat} {bs : Bytes} {P : State → Prop} {t : State}
    (h : Does c s q k bs P) (hw : s.quiet.writeServed q k bs = true) (ht : Does c s q k bs (fun u => u = t)) :
    ∃ u, P u ∧ u.mem = t.mem := by
  obtain ⟨u, hu, hp⟩ := h hw
  obtain ⟨v, hv, rfl⟩ := ht hw
  have hm := congrArg State.mem (Host.Outcome.next.inj (hu.symm.trans hv))
  rw [State.accepted_mem, State.accepted_mem] at hm
  exact ⟨u, hp, hm⟩

/-! ### RT_TELEMETRY_CLEAR -/

theorem rtTelemetryClear_served :
    eventQueueAtZero.quiet.writeServed ⟨.inBand, 0, 5⟩ oRtTelemetryClear (natLe 1 (1 : Byte).toNat) = true := by
  decide +kernel

theorem rtTelemetryClear_posts :
    eventQueueAtZero.quiet.actTelemetryClear.byteAt 0 ≠ eventQueueAtZero.byteAt 0 := by decide +kernel

/-- Refutes O18: the clause of RT_TELEMETRY_CLEAR states that no byte of memory changes, but the CMD_DONE event that
ends the command (R29, with feature bit 2 agreed) is posted to the plan's EVENT queue, whose ring lies in memory. -/
theorem not_opticsWrites : ¬ Obligations.OpticsWrites := by
  unfold Obligations.OpticsWrites
  rintro ⟨-, -, -, -, -, -, -, hclear, -⟩
  have hact : Does (.rtTelemetryClear ⟨.inBand, 0, 5⟩ 1) eventQueueAtZero ⟨.inBand, 0, 5⟩ oRtTelemetryClear
      (natLe 1 (1 : Byte).toNat) (fun u => u = eventQueueAtZero.quiet.actTelemetryClear) :=
    Does.action rfl (by decide) (by decide) (State.act_rtTelemetryClear _ _) rfl
  obtain ⟨u, ⟨-, -, -, -, hmem⟩, hu⟩ := (hclear ⟨.inBand, 0, 5⟩ 1 eventQueueAtZero).mem_eq rtTelemetryClear_served hact
  refine rtTelemetryClear_posts ?_
  rw [← hmem 0]
  simp only [State.byteAt, hu]

end Sys2Proof.Machine

namespace Sys2Proof.Machine

/-- A served WRITE of a byte object that `putBytes` refuses is aborted. -/
theorem State.write_bytes_refused {s t : State} {q : WReq} {k : Nat} {bs : Bytes} {a : Nat}
    (h : s.writeServed q k bs = true) (hk : k < 2 ^ 24) (hr : (rowOfKey k).any (fun r => r.ty.isBytes) = true)
    (hp : s.putBytes k bs = (t, some a)) : s.write q k bs = t.turnedAway q k bs a := by
  cases hrow : rowOfKey k with
  | none => rw [hrow] at hr; cases hr
  | some row =>
    rw [hrow, Option.any_some] at hr
    exact State.write_blob h hk hrow hr hp

/-! ### Pattern packs -/

/-- A served WRITE of PACK_LOAD meets no plan: the access check refuses it under one (R479). -/
theorem State.planHeld_of_packLoad {s : State} {q : WReq} {bs : Bytes} (h : s.writeServed q oPackLoad bs = true) :
    s.planHeld = false := by
  refine Classical.byContradiction fun hp => ?_
  have hp : s.planHeld = true := Bool.of_not_eq_false hp
  have hk : objKey (oPackLoad / 256) (oPackLoad % 256) = oPackLoad := by decide
  have hd (row : ObjRow) : (s.writeDenied q.path row (oPackLoad / 256) (oPackLoad % 256) bs).isNone = false := by
    simp only [State.writeDenied, hk, hp, or_true, and_self, if_true]
    repeat' split
    all_goals rfl
  simp only [State.writeServed, Bool.and_eq_true] at h
  obtain ⟨-, hrow⟩ := h
  split at hrow
  · rw [hd] at hrow
    simp at hrow
  · cases hrow

theorem State.putBytes_packLoad (s : State) (bs : Bytes) : s.putBytes oPackLoad bs = s.takePack bs := by
  unfold State.putBytes
  rw [if_neg (by decide), if_neg (by decide), if_pos rfl]

theorem State.takePack_of_ok {s : State} {bs : Bytes} (hp : s.planHeld = false) (hf : s.packFault bs = none) :
    s.takePack bs = ({ s with packs := storePack s.packs (packOf bs) }.showPacks.raise .packAccepted, none) := by
  rw [State.takePack, if_neg (Bool.eq_false_iff.mp hp), hf]

theorem State.takePack_of_fault {s : State} {bs : Bytes} {a : Nat} (hp : s.planHeld = false)
    (hf : s.packFault bs = some a) : s.takePack bs = (s.raise .packRejected, some a) := by
  rw [State.takePack, if_neg (Bool.eq_false_iff.mp hp), hf]

theorem State.showPacks_obj (s : State) : s.showPacks.obj oPackCount = s.packs.length :=
  (State.obj_congr (s := s.setObj oPackCount s.packs.length) _ (State.setBlob_od ..)).trans (State.obj_setObj_self ..)

theorem State.showPacks_sameObj (s : State) : SameObj s s.showPacks [oPackCount] :=
  ((SameObj.refl s _).setObj _ (List.mem_singleton.mpr rfl)).congr (State.setBlob_od ..)

theorem State.showPacks_packs (s : State) : s.showPacks.packs = s.packs := by
  rw [State.showPacks, State.setBlob_packs, State.setObj_packs]

/-! ### MEM_VERIFIED, EVIDENCE_RESET, packs, self-test, ledger and digests -/

/-- Settles O19. -/
theorem memoryAndTestWrites : Obligations.MemoryAndTestWrites := by
  unfold Obligations.MemoryAndTestWrites
  refine ⟨fun q v s => ?_, fun q v s => ?_, fun q bs s hf hw => ?_, fun q bs a s hw hf => ?_, fun q v s hp ha => ?_,
    fun q v s hp ht hd => ?_, fun q v s h => ?_, fun q v s => ?_, fun q s => ?_, fun q s hl => ?_,
    fun q v r s hst hr => ?_, fun q v s h => ?_⟩
  · exact Does.action (t := s.quiet.actMemVerified) rfl (by decide) (by decide) (State.act_memVerified ..) rfl
  · exact Does.action (t := s.quiet.actEvidenceReset) rfl (by decide) (by decide) (State.act_evidenceReset ..) rfl
  · have hp : s.quiet.planHeld = false := State.planHeld_of_packLoad hw
    refine Does.bytes (t := _) rfl (by decide) (by decide)
      ((State.putBytes_packLoad ..).trans (State.takePack_of_ok hp hf)) ⟨?_, ?_, ?_⟩ hw
    · rw [State.raise_packs, State.showPacks_packs]
      rfl
    · rw [(State.raise_logs ..).obj _ (by decide), State.showPacks_obj]
      rfl
    · exact (SameObj.trans (SameObj.of_od (by rfl)) ((State.showPacks_sameObj _).mono (by decide))).trans
        ((State.raise_logs ..).sameObj.mono (by decide))
  · have hp : s.quiet.planHeld = false := State.planHeld_of_packLoad hw
    exact congrArg Host.Outcome.next (State.write_bytes_refused hw (by decide) (by decide)
      ((State.putBytes_packLoad ..).trans (State.takePack_of_fault hp hf)))
  · refine Does.action (t := s.quiet.actPackRemove v.toNat) rfl (by decide) (by decide)
      (by rw [leNat_natLe_toNat 4 v rfl, State.act_packRemove]) ?_
    rw [State.actPackRemove, if_neg (show ¬s.quiet.admitted = true from Bool.eq_false_iff.mp hp),
      if_pos (show s.quiet.packs.any (fun p => p.id == v.toNat) = true from ha)]
    refine ⟨?_, State.cmdDone_obj _ _ (by decide), ?_⟩
    · rw [(State.cmdDone_logs _ _).packs, State.setObj_packs, State.showPacks_packs]
      rfl
    · exact (SameObj.trans (SameObj.of_od (by rfl)) ((State.showPacks_sameObj _).mono (by decide))).trans
        (SameObj.mono (State.cmdDone_sameObj _ oPackRemove) (by decide))
  · refine Does.action (t := s.quiet.actStRun) rfl (by decide) (by decide) (State.act_stRun ..) ?_
    rw [State.actStRun, if_neg (show ¬s.quiet.planHeld = true from Bool.eq_false_iff.mp hp),
      if_neg (show ¬(s.quiet.power.selfTest = true ∨ s.quiet.dom 44 ≠ domOn) from
        not_or.mpr ⟨Bool.eq_false_iff.mp ht, Classical.not_not.mpr hd⟩)]
    exact ⟨rfl, (State.obj_congr _).trans (s.quiet.cmdStart_obj oStRun), (s.quiet.cmdStart_sameObj oStRun).congr,
      SameMem.refl s⟩
  · refine Does.action (t := s.quiet.actStRun) rfl (by decide) (by decide) (State.act_stRun ..) ?_
    by_cases hp : s.planHeld = true
    · rw [if_pos hp]
      exact if_pos hp
    · rw [if_neg hp]
      exact (if_neg hp).trans (if_pos (h.resolve_left hp))
  · exact Does.action (t := s.quiet.actSteStart) rfl (by decide) (by decide) (State.act_steStart ..) rfl
  · exact Does.action (t := s.quiet.actLedgerClear 1) rfl (by decide) (by decide) (State.act_ledgerClear ..)
      (if_pos rfl)
  · exact Does.action (t := s.quiet.actLedgerClear 2) rfl (by decide) (by decide) (State.act_ledgerClear ..)
      ((if_neg (by decide)).trans (if_pos hl))
  · have hheld : s.quiet.planHeld = false := by
      rw [State.planHeld, State.admitted, show s.quiet.planState = 1 from hst]
      decide
    refine Does.action (t := s.quiet.actDigest v.toNat) rfl (by decide) (by decide)
      (by rw [leNat_natLe_toNat 2 v rfl, State.act_digestRegion]) ?_
    rw [State.actDigest, if_neg (Bool.eq_false_iff.mp hheld), if_neg (show ¬s.quiet.planState = 0 by
      rw [show s.quiet.planState = 1 from hst]; decide), show s.quiet.blob oPlanBlob = s.blob oPlanBlob from rfl, hr]
    exact ⟨rfl, (State.obj_congr _).trans (s.quiet.cmdStart_obj oDigestRegion),
      (s.quiet.cmdStart_sameObj oDigestRegion).congr, SameMem.refl s⟩
  · refine Does.action (t := s.quiet.actDigest v.toNat) rfl (by decide) (by decide)
      (by rw [leNat_natLe_toNat 2 v rfl, State.act_digestRegion]) ?_
    by_cases hp : s.planHeld = true
    · rw [if_pos hp]
      exact if_pos hp
    · rw [if_neg hp]
      refine (if_neg hp).trans ?_
      by_cases h0 : s.planState = 0
      · exact if_pos h0
      · refine (if_neg h0).trans ?_
        rw [show s.quiet.blob oPlanBlob = s.blob oPlanBlob from rfl, (h.resolve_left hp).resolve_left h0]

end Sys2Proof.Machine

namespace Sys2Proof.Machine

/-! ### Statements that a posted event record refutes

A record that the EVENT queue cannot take raises RECORDS_LOST in its turn, and one whose queue lies at another place
or at the host leaves as a message on a flow, through the router. -/

/-- The module with its EVENT queue in memory, its ring full; the mailbox of core 0 is full too. -/
def eventQueueFull : State :=
  { eventQueueAtZero with
    rings := [(0, { RingSt.init with pi := 4 })], mailboxes := [(16, ⟨[], true, 8, 0, false, 0⟩)] }

/-- The event code of a record of EVENT_RING. -/
def RingRec.eventCode : RingRec → Nat
  | .event r => r.code
  | .mailbox .. => 0

/-- A module in RUN whose EVENT queue lies at the host, which flow 0 reaches; it receives a data link on lane 0 of
port 0. -/
def eventQueueAtHost : State :=
  { eventQueueAtZero with
    od := (oMemState, 1) :: eventQueueAtZero.od
    plan := some { parsePlan [] with
      queues := [⟨0, 0, 2, 0, 0xFFFF, 0, 4, 0⟩], circuits := [⟨0, 0, 0, 1, 0, 0, 0, 0, 0, 0, 0, 0, 0, 0⟩] }
    flows := [(0, { FlowSt.init with state := 1, host := true, window := 16 })]
    ports := [(0, { PortSt.init with useRx := 1 })] }

/-- The state that a command leads to. -/
def stateAfter (c : Instr) (s : State) : State :=
  match exec c s with
  | .next t => t
  | _ => s

theorem Gives.stateAfter {c : Instr} {s : State} {P : State → Prop} (h : Gives c s P) : P (stateAfter c s) := by
  obtain ⟨t, ht, hp⟩ := h
  rwa [Machine.stateAfter, ht]

/-! #### CORE_TRAP -/

theorem coreTrap_recordsLost :
    (eventQueueFull.coreTrap 0 0).events.head?.map RingRec.eventCode = some 0x0904 := by decide +kernel

/-- Refutes O28: where the EVENT queue's ring is full, CORE_TRAP's record is lost, and RECORDS_LOST is the newest event
of EVENT_RING. -/
theorem not_coreTraps : ¬ Obligations.CoreTraps := by
  unfold Obligations.CoreTraps
  rintro ⟨htrap, -⟩
  obtain ⟨-, -, -, -, -, -, ⟨r, hr, hcode, -⟩, -⟩ := htrap 0 0 eventQueueFull (by decide) (by decide +kernel)
    (by decide +kernel) (by decide)
  have h := coreTrap_recordsLost
  rw [hr, Option.map_some, RingRec.eventCode, hcode] at h
  exact absurd h (by decide)

/-! #### READ -/

/-- A READ of no bytes at address 0 by the host, on flow 0. -/
def hostRead : Packet := ⟨3, 0, 0, 0, 0, 0, 0, 0, 0, 0, 1, 0xFFFFFFFF, 0, 0, 0, 0, []⟩

theorem hostRead_txMsg : ((stateAfter (.readTransaction hostRead []) eventQueueAtHost).flow 0).txMsg = 2 := by
  decide +kernel

/-- Refutes O33: a READ that no region holds is denied, MEMORY_ACCESS_DENIED goes to the host on the READ's own flow, and
so does READ_DATA: two messages, where the statement counts one. -/
theorem not_readsAndWrites : ¬ Obligations.ReadsAndWrites := by
  unfold Obligations.ReadsAndWrites
  rintro ⟨-, -, hread, -⟩
  obtain ⟨hflowed, -⟩ := hread hostRead [] 0 eventQueueAtHost (by decide +kernel) (by decide +kernel) (by decide +kernel)
  obtain ⟨-, -, -, htx⟩ := (hflowed (by decide +kernel)).stateAfter
  exact absurd (hostRead_txMsg.symm.trans htx) (by decide +kernel)

/-! #### PACKET_ROUTE -/

/-- A packet for place 9, which no data link reaches. -/
def strayPacket : Routed := ⟨none, 0, zeros 4 ++ natLe 2 9 ++ zeros 58, 0, false, 0, false⟩

/-- The module with that packet in its router. -/
def strayInRouter : State := { eventQueueAtHost with router := [strayPacket] }

theorem strayPacket_posts : (stateAfter .packetRoute strayInRouter).router.length = 1 := by decide +kernel

/-- Refutes O40: PACKET_UNROUTABLE is posted to an EVENT queue at the host, so that the router holds its packet where
the statement has it empty. -/
theorem not_packetsRouted : ¬ Obligations.PacketsRouted := by
  unfold Obligations.PacketsRouted
  rintro ⟨hroute, -⟩
  obtain ⟨-, -, -, hunroutable, -⟩ := hroute strayPacket strayInRouter (by decide +kernel)
  obtain ⟨hrouter, -⟩ := (hunroutable (by decide +kernel)).stateAfter
  exact absurd (strayPacket_posts.symm.trans (congrArg List.length hrouter)) (by decide +kernel)

/-! #### GROUP_RECEIVE -/

/-- A bad group whose four codewords of lane 0 were uncorrectable. -/
def badGroup : GroupIn := ⟨0, 0, 0, false, 0, false, 0, none, [], [], List.replicate 4 ⟨0, false, true⟩⟩

theorem badGroup_posts : (stateAfter (.groupReceive badGroup) eventQueueAtHost).router ≠ [] := by decide +kernel

/-- Refutes O41: four uncorrectable codewords take the lane out of use (R317), and LANE_REMOVED is posted to an EVENT
queue at the host: the router does not stand. -/
theorem not_flitGroups : ¬ Obligations.FlitGroups := by
  unfold Obligations.FlitGroups
  rintro ⟨-, hreceive⟩
  obtain ⟨-, hgroup⟩ := hreceive badGroup eventQueueAtHost
  obtain ⟨-, -, hbad, -⟩ := hgroup 0 (by decide +kernel) (by decide +kernel)
  obtain ⟨-, -, hrouter⟩ := (hbad (.inl (by decide)) (by decide +kernel)).stateAfter
  exact badGroup_posts hrouter

/-! ### A statement that the other die's router refutes -/

/-- A module in RUN with a packet in the router of die 1. -/
def packetOnDieOne : State := { eventQueueAtHost with router := [{ strayPacket with die := 1 }] }

theorem currentLimit_keeps_die_one : (stateAfter (.currentLimit 11 1000000000) packetOnDieOne).router ≠ [] := by
  decide +kernel

/-- Refutes O59: domain 11 above its cap empties the router of die 0 only; the statement has every router empty. -/
theorem not_temperatureAndCurrent : ¬ Obligations.TemperatureAndCurrent := by
  unfold Obligations.TemperatureAndCurrent
  rintro ⟨-, hcurrent⟩
  obtain ⟨hcap, -⟩ := hcurrent 11 1000000000 packetOnDieOne
  obtain ⟨-, -, -, hempty⟩ := (hcap (by decide +kernel) (by decide +kernel)).stateAfter
  obtain ⟨hrouter, -⟩ := hempty (.inl (by decide))
  exact currentLimit_keeps_die_one hrouter

end Sys2Proof.Machine

namespace Sys2Proof.Machine

/-! ### Statements that a bank with a port named twice refutes

The end of a plan maps the bank of ports and drops the entries that then stand at their default (`Bank.mapAll`). Where a
bank holds a port twice, the first entry so dropped uncovers the second. No command builds such a bank, but the
statements speak of every state. -/

/-- A module in RUN under a plan, with MATCH on host port 0, whose bank of ports is `ports`. -/
def hostPortTwice (ports : Bank PortSt) : State :=
  { eventQueueAtZero with
    od := [(oHostPorts, 1), (oCtrlRxPresent 0, 1), (oLinkClass 0, 2)] ++ eventQueueAtZero.od
    ports := ports }

/-- Port 0 twice: the far end was RESETTING, and a hello was seen. -/
def seenTwice : State :=
  hostPortTwice [(0, { PortSt.init with resetSeen := true }), (0, { PortSt.init with seen := true })]

theorem seenTwice_seen : ((stateAfter (.helloTimeout 0) seenTwice).portSt 0).seen = true := by decide +kernel

/-- Refutes O43: a planned link that becomes NO_PEER ends the plan, whose end uncovers the second entry of port 0, in
which a hello was seen. -/
theorem not_hellos : ¬ Obligations.Hellos := by
  unfold Obligations.Hellos
  rintro ⟨hhello, -⟩
  obtain ⟨-, -, htimeout, -⟩ := hhello 0 seenTwice
  obtain ⟨-, hseen, -⟩ := (htimeout (by decide +kernel) (by decide +kernel)).stateAfter
  exact absurd (seenTwice_seen.symm.trans hseen) (by decide)

/-- Port 0 twice: its lane C was lost, at different times. -/
def lostTwice : State :=
  hostPortTwice [(0, { PortSt.init with resetSeen := true, lostAt := some 0 }), (0, { PortSt.init with lostAt := some 7 })]

theorem lostTwice_lostAt : ((stateAfter (.linkDown 0) lostTwice).portSt 0).lostAt = some 7 := by decide +kernel

/-- Refutes O44: LINK_DOWN of a planned link ends the plan, whose end uncovers the second entry of port 0, in which
lane C is still lost. -/
theorem not_lanesAndSignals : ¬ Obligations.LanesAndSignals := by
  unfold Obligations.LanesAndSignals
  rintro ⟨hport, -⟩
  obtain ⟨-, -, -, -, hdown, -⟩ := hport 0 lostTwice
  obtain ⟨-, -, -, -, hlost, -⟩ := (hdown 0 (by decide +kernel)).stateAfter
  exact absurd (lostTwice_lostAt.symm.trans hlost) (by decide)

end Sys2Proof.Machine

namespace Sys2Proof.Machine

/-! ### Steps over a list, and operations that change objects alone -/

theorem SameObj.foldl {α : Type} {ks : List Nat} {f : State → α → State} (l : List α)
    (h : ∀ s, ∀ a ∈ l, SameObj s (f s a) ks) (s : State) : SameObj s (l.foldl f s) ks :=
  List.foldlRecOn l f (motive := fun t => SameObj s t ks) (SameObj.refl s ks) (fun t ht a ha => ht.trans (h t a ha))

/-- Nothing but numeric objects differs. -/
def OnlyObj (s t : State) : Prop := ∃ od, t = { s with od := od }

theorem OnlyObj.refl (s : State) : OnlyObj s s := ⟨s.od, rfl⟩

theorem OnlyObj.trans {s t u : State} (h : OnlyObj s t) (k : OnlyObj t u) : OnlyObj s u := by
  obtain ⟨a, rfl⟩ := h
  obtain ⟨b, rfl⟩ := k
  exact ⟨b, rfl⟩

theorem OnlyObj.setObj {s t : State} (h : OnlyObj s t) (k v : Nat) : OnlyObj s (t.setObj k v) := h.trans ⟨_, rfl⟩

theorem OnlyObj.foldl {α : Type} {f : State → α → State} (l : List α) (h : ∀ s a, OnlyObj s (f s a)) (s : State) :
    OnlyObj s (l.foldl f s) :=
  List.foldlRecOn l f (motive := fun t => OnlyObj s t) (OnlyObj.refl s) (fun t ht a _ => ht.trans (h t a))

theorem OnlyObj.mem {s t : State} (h : OnlyObj s t) : t.mem = s.mem := by
  obtain ⟨_, rfl⟩ := h; rfl

theorem OnlyObj.power {s t : State} (h : OnlyObj s t) : t.power = s.power := by
  obtain ⟨_, rfl⟩ := h; rfl

theorem OnlyObj.blobs {s t : State} (h : OnlyObj s t) : t.blobs = s.blobs := by
  obtain ⟨_, rfl⟩ := h; rfl

/-! ### Objects lost -/

/-- An object read after a loss of retention (R33). -/
theorem State.obj_dropObjects (s : State) (rets : List Ret) (fns : List Fn) (k : Nat) :
    (s.dropObjects rets fns).obj k = if keyLost rets fns k then objDefault k else s.obj k := by
  have hfind : (s.od.filter (fun e => !keyLost rets fns e.1)).find? (fun e => e.1 == k) =
      if keyLost rets fns k then none else s.od.find? (fun e => e.1 == k) := by
    induction s.od with
    | nil => simp
    | cons e l ih =>
      by_cases he : e.1 = k
      · by_cases hk : keyLost rets fns k = true
        · simpa [List.filter_cons, he, hk] using ih
        · simp [he, hk]
      · by_cases hl : keyLost rets fns e.1 = true
        · simpa [List.filter_cons, he, hl] using ih
        · simpa [List.filter_cons, he, hl] using ih
  unfold State.obj State.dropObjects
  dsimp only
  rw [hfind]
  by_cases hk : keyLost rets fns k = true
  · rw [if_pos hk, if_pos hk]
  · rw [if_neg hk, if_neg hk]

theorem State.obj_dropObjects_lost {s : State} {rets : List Ret} {fns : List Fn} {k : Nat}
    (h : keyLost rets fns k = true) : (s.dropObjects rets fns).obj k = objDefault k := by
  rw [State.obj_dropObjects, if_pos h]

theorem State.obj_dropObjects_kept {s : State} {rets : List Ret} {fns : List Fn} {k : Nat}
    (h : keyLost rets fns k = false) : (s.dropObjects rets fns).obj k = s.obj k := by
  rw [State.obj_dropObjects, h]
  rfl

/-- An object at its default stays there when another is written, or it with its default. -/
theorem State.setObj_default {s : State} {j k v : Nat} (h : s.obj k = objDefault k) (hv : v = objDefault j) :
    (s.setObj j v).obj k = objDefault k := by
  rw [State.obj_setObj]
  split
  · next he => rw [he, hv]
  · exact h

/-! ### Domains -/

theorem oDomainState_injective {a b : Nat} (h : oDomainState a = oDomainState b) : a = b := by
  simp only [oDomainState, objKey] at h
  omega

theorem State.dom_setDom (s : State) (d v e : Nat) : (s.setDom d v).dom e = if e = d then v else s.dom e := by
  rw [State.dom, State.setDom, State.obj_setObj]
  by_cases h : e = d
  · rw [if_pos h, if_pos (congrArg oDomainState h)]
  · rw [if_neg h, if_neg (fun q => h (oDomainState_injective q))]
    rfl

theorem State.dom_setDoms (s : State) (ds : List Nat) (v e : Nat) :
    (s.setDoms ds v).dom e = if e ∈ ds then v else s.dom e := by
  unfold State.setDoms
  induction ds generalizing s with
  | nil => simp
  | cons d ds ih =>
    rw [List.foldl_cons, ih, State.dom_setDom]
    by_cases h : e = d
    · simp [h]
    · simp [h]

theorem State.setDoms_sameObj (s : State) (ds : List Nat) (v : Nat) : SameObj s (s.setDoms ds v) (ds.map oDomainState) :=
  SameObj.foldl ds (fun _ _ hd => (SameObj.refl _ _).setObj _ (List.mem_map_of_mem hd)) s

theorem State.setDoms_onlyObj (s : State) (ds : List Nat) (v : Nat) : OnlyObj s (s.setDoms ds v) :=
  OnlyObj.foldl ds (fun t _ => (OnlyObj.refl t).setObj _ _) s

theorem State.setPowerState_logs (s : State) (v : Nat) : Logs (s.setObj oPowerState v) (s.setPowerState v) := by
  unfold State.setPowerState
  extract_lets old t
  split
  · exact Logs.refl _
  · exact State.raise_logs ..

theorem State.setPowerState_obj (s : State) (v : Nat) : (s.setPowerState v).obj oPowerState = v := by
  rw [(s.setPowerState_logs v).obj _ (by decide), State.obj_setObj_self]

theorem State.setPowerState_sameObj (s : State) (v : Nat) : SameObj s (s.setPowerState v) (oPowerState :: eventKeys) :=
  ((SameObj.refl s _).setObj _ (List.mem_cons_self ..)).trans
    ((s.setPowerState_logs v).sameObj.mono (fun _ h => List.mem_cons_of_mem _ h))

theorem State.setPowerState_power (s : State) (v : Nat) : (s.setPowerState v).power = s.power := by
  rw [(s.setPowerState_logs v).power]
  rfl

/-! ### A function's state lost -/

/-- The objects that the cores' reset writes. -/
def coreStateKeys : List Nat := (upto 16).map oCoreState

theorem State.resetCores_onlyObj (s : State) : OnlyObj { s with cores := [] } s.resetCores :=
  OnlyObj.foldl _ (fun t c => by
    split
    · exact OnlyObj.refl t
    · exact (OnlyObj.refl t).setObj _ _) _

theorem State.resetCores_sameObj (s : State) : SameObj s s.resetCores coreStateKeys := by
  have h : SameObj { s with cores := [] } s.resetCores coreStateKeys :=
    SameObj.foldl _ (fun t c hc => by
      split
      · exact SameObj.refl t _
      · exact (SameObj.refl t _).setObj _ (List.mem_map_of_mem hc)) _
  exact h

theorem State.resetCores_default {s : State} {k : Nat} (h : s.obj k = objDefault k) :
    s.resetCores.obj k = objDefault k := by
  unfold State.resetCores
  refine List.foldlRecOn (motive := fun (t : State) => t.obj k = objDefault k) (upto 16) _ h (fun t ht c hc => ?_)
  split
  · exact ht
  · refine State.setObj_default ht ?_
    have hz : ∀ c ∈ upto 16, 0 = objDefault (oCoreState c) := by decide +kernel
    exact hz c hc

end Sys2Proof.Machine

namespace Sys2Proof.Machine

/-! ### What the loss of a function leaves -/

/-- The objects that the loss of a function writes beside those that lose their value. -/
def clearKeys : List Nat := oSteStart :: oFlowsOpen :: coreStateKeys

theorem State.clearCompute_shape (s : State) :
    ∃ od, s.clearCompute = { s with
      engines := [], cores := [], merges := [], spent := [],
      verdicts := s.verdicts.filter (fun v => decide (3 ≤ v.kind)), od := od } := by
  obtain ⟨od, h⟩ := State.resetCores_onlyObj { s with
    engines := [], merges := [], spent := [], verdicts := s.verdicts.filter (fun v => decide (3 ≤ v.kind)) }
  exact ⟨od, h⟩

/-- The raw program and its output, which the loss of the compute function takes with it. -/
def State.dropRaw (s : State) : State := ((s.setBlob oSteProgram []).setBlob oSteOutput []).setObj oSteStart 0

theorem State.clearFn_compute (s : State) :
    s.clearFn .compute = (s.dropObjects [.v] [.compute]).dropRaw.clearCompute := rfl

theorem State.clearFn_fabric (s : State) :
    s.clearFn .fabric = (s.dropObjects [.v] [.fabric]).idleWindows.closeFlows.clearRouters := rfl

/-- A field that the loss of a function leaves. -/
theorem State.clearFn_mem (s : State) (f : Fn) : (s.clearFn f).mem = s.mem := by
  cases f
  case compute =>
    obtain ⟨od, h⟩ := State.clearCompute_shape (s.dropObjects [.v] [.compute]).dropRaw
    rw [State.clearFn_compute, h]
    rfl
  all_goals rfl

theorem State.clearFn_power (s : State) (f : Fn) : (s.clearFn f).power = s.power := by
  cases f
  case compute =>
    obtain ⟨od, h⟩ := State.clearCompute_shape (s.dropObjects [.v] [.compute]).dropRaw
    rw [State.clearFn_compute, h]
    rfl
  all_goals rfl

theorem State.clearFn_step (s : State) (f : Fn) : (s.clearFn f).step = s.step := by
  cases f
  case compute =>
    obtain ⟨od, h⟩ := State.clearCompute_shape (s.dropObjects [.v] [.compute]).dropRaw
    rw [State.clearFn_compute, h]
    rfl
  all_goals rfl

theorem State.clearCompute_default {s : State} {k : Nat} (h : s.obj k = objDefault k) :
    s.clearCompute.obj k = objDefault k :=
  State.resetCores_default ((State.obj_congr k (by rfl)).trans h)

theorem State.clearCompute_sameObj (s : State) : SameObj s s.clearCompute coreStateKeys :=
  SameObj.trans (SameObj.of_od (by rfl)) (State.resetCores_sameObj _)

theorem State.dropRaw_obj (s : State) (k : Nat) : s.dropRaw.obj k = if k = oSteStart then 0 else s.obj k := by
  rw [State.dropRaw, State.obj_setObj, State.obj_congr (s := s)]

/-- The objects of a lost function are at their defaults (R33). -/
theorem State.clearFn_obj_lost {s : State} {f : Fn} {k : Nat} (h : keyLost [.v] [f] k = true) :
    (s.clearFn f).obj k = objDefault k := by
  have h1 : (s.dropObjects [.v] [f]).obj k = objDefault k := State.obj_dropObjects_lost h
  cases f
  case compute =>
    rw [State.clearFn_compute]
    refine State.clearCompute_default ?_
    rw [State.dropRaw_obj, h1]
    split
    · next he => rw [he]; decide +kernel
    · rfl
  case fabric =>
    rw [State.clearFn_fabric, State.clearRouters, State.obj_congr (s := (s.dropObjects [.v] [.fabric]).idleWindows.closeFlows),
      State.closeFlows]
    refine State.setObj_default ((State.obj_congr k (by rfl)).trans h1) (by decide +kernel)
  all_goals exact h1

theorem State.clearFn_obj_kept {s : State} {f : Fn} {k : Nat} (h : keyLost [.v] [f] k = false) (hk : k ∉ clearKeys) :
    (s.clearFn f).obj k = s.obj k := by
  have h1 : (s.dropObjects [.v] [f]).obj k = s.obj k := State.obj_dropObjects_kept h
  simp only [clearKeys, List.mem_cons, not_or] at hk
  obtain ⟨hste, hflow, hcore⟩ := hk
  cases f
  case compute =>
    rw [State.clearFn_compute, State.clearCompute_sameObj _ k hcore, State.dropRaw_obj, if_neg hste, h1]
  case fabric =>
    rw [State.clearFn_fabric, State.clearRouters, State.obj_congr (s := (s.dropObjects [.v] [.fabric]).idleWindows.closeFlows),
      State.closeFlows, State.obj_setObj_ne _ _ hflow, State.obj_congr (s := s.dropObjects [.v] [.fabric]), h1]
  all_goals exact h1

/-! ### What the end of a plan leaves -/

/-- The objects that describe the plan, at their defaults after its end. -/
def droppedPlanKeys : List Nat :=
  [oPlanId, oQueuesDeclared, oEventQueue, oWindowsOwned, oShardsServed, oRegionCount, oTreeRoot, oTreeParentPort,
    oTreeChildren, oTreeDepth, oTreeCount, oRtMapTables, oMapNow, oStepNow, oStepBeatNow]

/-- The objects that the end of a plan writes. -/
def planEndKeys : List Nat :=
  [oSnapState, oJobStart, oRelease, oFlowsOpen, oPlanState] ++ coreStateKeys ++ droppedPlanKeys ++ eventKeys

/-- What an event and the end of a plan both leave: the clock, the power, the deferred writes, the link layer's ends,
the rings and lasers, and the output. -/
structure Ended (s t : State) : Prop where
  now : t.now = s.now
  bell : t.bell = s.bell
  power : t.power = s.power
  deferred : t.deferred = s.deferred
  admitting : t.admitting = s.admitting
  mailboxes : t.mailboxes = s.mailboxes
  txLinks : t.txLinks = s.txLinks
  rxLinks : t.rxLinks = s.rxLinks
  micro : t.micro = s.micro
  lasers : t.lasers = s.lasers
  lsc : t.lsc = s.lsc
  packs : t.packs = s.packs
  keeper : t.keeper = s.keeper
  out : t.out = s.out
  blob : ∀ k, k ≠ oPlanDigest → t.blob k = s.blob k

theorem Ended.refl (s : State) : Ended s s :=
  ⟨rfl, rfl, rfl, rfl, rfl, rfl, rfl, rfl, rfl, rfl, rfl, rfl, rfl, rfl, fun _ _ => rfl⟩

theorem Ended.trans {s t u : State} (h : Ended s t) (k : Ended t u) : Ended s u :=
  ⟨k.now.trans h.now, k.bell.trans h.bell, k.power.trans h.power, k.deferred.trans h.deferred,
    k.admitting.trans h.admitting, k.mailboxes.trans h.mailboxes, k.txLinks.trans h.txLinks, k.rxLinks.trans h.rxLinks,
    k.micro.trans h.micro, k.lasers.trans h.lasers, k.lsc.trans h.lsc, k.packs.trans h.packs, k.keeper.trans h.keeper,
    k.out.trans h.out, fun j hj => (k.blob j hj).trans (h.blob j hj)⟩

theorem Logs.ended {s t : State} (h : Logs s t) : Ended s t :=
  ⟨h.now, h.bell, h.power, h.deferred, h.admitting, h.mailboxes, h.txLinks, h.rxLinks, h.micro, h.lasers, h.lsc,
    h.packs, h.keeper, h.out, fun _ _ => State.blob_of_blobs h.blobs _⟩

/-- An operation that leaves those fields alone by its definition. -/
theorem Ended.setObj {s t : State} (h : Ended s t) (k v : Nat) : Ended s (t.setObj k v) :=
  h.trans ⟨rfl, rfl, rfl, rfl, rfl, rfl, rfl, rfl, rfl, rfl, rfl, rfl, rfl, rfl, fun _ _ => rfl⟩

theorem OnlyObj.ended {s t : State} (h : OnlyObj s t) : Ended s t := by
  obtain ⟨od, rfl⟩ := h
  exact ⟨rfl, rfl, rfl, rfl, rfl, rfl, rfl, rfl, rfl, rfl, rfl, rfl, rfl, rfl, fun _ _ => rfl⟩

theorem Ended.setStep {s t : State} (h : Ended s t) (x : StepSt) : Ended s { t with step := x } :=
  h.trans ⟨rfl, rfl, rfl, rfl, rfl, rfl, rfl, rfl, rfl, rfl, rfl, rfl, rfl, rfl, fun _ _ => rfl⟩

theorem State.cutSnapshot_frame (s : State) : Ended s s.cutSnapshot ∧ SameObj s s.cutSnapshot planEndKeys := by
  unfold State.cutSnapshot
  split
  · exact ⟨((Ended.refl s).setStep _).setObj _ _, SameObj.setObj (t := { s with step := _ }) (SameObj.refl s _) _ (by decide)⟩
  · exact ⟨Ended.refl s, SameObj.refl s _⟩

theorem State.cutSnapIn_frame (s : State) : Ended s s.cutSnapIn ∧ SameObj s s.cutSnapIn planEndKeys := by
  unfold State.cutSnapIn
  split
  · split
    · exact ⟨(Ended.refl s).setStep _, SameObj.refl s _⟩
    · exact ⟨((Ended.refl s).setStep _).trans (State.raise_logs ..).ended,
        SameObj.mono (State.raise_logs { s with step := _ } _).sameObj (by decide)⟩
  · exact ⟨Ended.refl s, SameObj.refl s _⟩

theorem State.failJob_frame (s : State) : Ended s s.failJob ∧ SameObj s s.failJob planEndKeys := by
  unfold State.failJob
  split
  · refine ⟨(((Ended.refl s).setStep _).setObj _ _).trans (State.cmdFail_logs ..).ended, ?_⟩
    exact SameObj.trans (SameObj.of_od (by rfl)) ((State.cmdFail_sameObj _ oJobStart _).mono (by decide))
  · exact ⟨Ended.refl s, SameObj.refl s _⟩

theorem State.doneRelease_frame (s : State) : Ended s s.doneRelease ∧ SameObj s s.doneRelease planEndKeys := by
  unfold State.doneRelease
  split
  · refine ⟨(((Ended.refl s).setStep _).setObj _ _).trans (State.cmdDone_logs ..).ended, ?_⟩
    exact SameObj.trans (SameObj.of_od (by rfl)) (SameObj.mono (State.cmdDone_sameObj _ oRelease) (by decide))
  · exact ⟨Ended.refl s, SameObj.refl s _⟩

theorem State.closeFlows_frame (s : State) :
    Ended s s.idleWindows.idleShards.closeFlows ∧ SameObj s s.idleWindows.idleShards.closeFlows planEndKeys := by
  refine ⟨Ended.setObj ?_ _ _, SameObj.setObj (t := { s with od := s.od }) ?_ _ (by decide)⟩
  · exact ⟨rfl, rfl, rfl, rfl, rfl, rfl, rfl, rfl, rfl, rfl, rfl, rfl, rfl, rfl, fun _ _ => rfl⟩
  · exact SameObj.refl s _

theorem State.dropWork_frame (s : State) : Ended s s.dropWork ∧ SameObj s s.dropWork planEndKeys := by
  refine ⟨Ended.trans ?_ (State.resetCores_onlyObj _).ended, ?_⟩
  · exact ⟨rfl, rfl, rfl, rfl, rfl, rfl, rfl, rfl, rfl, rfl, rfl, rfl, rfl, rfl, fun _ _ => rfl⟩
  · exact SameObj.mono (s := { s with engines := [], merges := [], spent := [], verdicts := [], contribs := [] })
      (State.resetCores_sameObj _) (by decide)

theorem State.dropPlanObjects_onlyObj (s : State) : OnlyObj (s.setBlob oPlanDigest []) s.dropPlanObjects :=
  OnlyObj.foldl _ (fun t _ => (OnlyObj.refl t).setObj _ _) _

theorem State.dropPlanObjects_frame (s : State) :
    Ended s s.dropPlanObjects ∧ SameObj s s.dropPlanObjects droppedPlanKeys := by
  refine ⟨Ended.trans ?_ s.dropPlanObjects_onlyObj.ended, ?_⟩
  · refine ⟨rfl, rfl, rfl, rfl, rfl, rfl, rfl, rfl, rfl, rfl, rfl, rfl, rfl, rfl, fun k hk => ?_⟩
    rw [State.blob_setBlob, if_neg hk]
  · exact SameObj.foldl (s := s.setBlob oPlanDigest []) droppedPlanKeys
      (fun _ _ hk => (SameObj.refl _ _).setObj _ hk)

/-- The actions and flows that the end of an admitted plan ends, before its objects go. -/
def State.planWorkEnded (s : State) : State :=
  s.cutSnapshot.cutSnapIn.failJob.doneRelease.idleWindows.idleShards.closeFlows.dropWork

theorem State.planWorkEnded_frame (s : State) : Ended s s.planWorkEnded ∧ SameObj s s.planWorkEnded planEndKeys := by
  obtain ⟨h1, k1⟩ := s.cutSnapshot_frame
  obtain ⟨h2, k2⟩ := s.cutSnapshot.cutSnapIn_frame
  obtain ⟨h3, k3⟩ := s.cutSnapshot.cutSnapIn.failJob_frame
  obtain ⟨h4, k4⟩ := s.cutSnapshot.cutSnapIn.failJob.doneRelease_frame
  obtain ⟨h5, k5⟩ := s.cutSnapshot.cutSnapIn.failJob.doneRelease.closeFlows_frame
  obtain ⟨h6, k6⟩ := s.cutSnapshot.cutSnapIn.failJob.doneRelease.idleWindows.idleShards.closeFlows.dropWork_frame
  exact ⟨((((h1.trans h2).trans h3).trans h4).trans h5).trans h6, ((((k1.trans k2).trans k3).trans k4).trans k5).trans k6⟩

end Sys2Proof.Machine

namespace Sys2Proof.Machine

/-! ### The end of a plan -/

/-- The plan's work ended and its state LOADED, its objects still shown. -/
def State.planLoaded (s : State) : State :=
  let t := s.planWorkEnded.setObj oPlanState 1
  { t with prep := t.prep.map (fun (q : Prep) => { q with map := t.obj oMapNow % 255 }) }

/-- What `Ended` names and the objects, where only the rehearsal changes. -/
theorem Ended.setPrep {s t : State} (h : Ended s t) (x : Option Prep) : Ended s { t with prep := x } :=
  h.trans ⟨rfl, rfl, rfl, rfl, rfl, rfl, rfl, rfl, rfl, rfl, rfl, rfl, rfl, rfl, fun _ _ => rfl⟩

theorem State.obj_setPrep (t : State) (x : Option Prep) (k : Nat) : ({ t with prep := x } : State).obj k = t.obj k := rfl

theorem State.planLoaded_obj (s : State) (k : Nat) :
    s.planLoaded.obj k = (s.planWorkEnded.setObj oPlanState 1).obj k :=
  State.obj_setPrep _ _ k

theorem State.planLoaded_frame (s : State) : Ended s s.planLoaded ∧ SameObj s s.planLoaded planEndKeys := by
  obtain ⟨h, k⟩ := s.planWorkEnded_frame
  refine ⟨(h.setObj oPlanState 1).setPrep _, fun j hj => ?_⟩
  rw [State.planLoaded_obj]
  exact k.setObj (k := oPlanState) 1 (by decide) j hj

theorem State.planLoaded_planState (s : State) : s.planLoaded.obj oPlanState = 1 := by
  rw [State.planLoaded_obj, State.obj_setObj_self]

/-- The lanes' notes of the plan taken off the ports, as the plan's end does. -/
def endedPort (p : PortSt) : PortSt := { p with resetSeen := false, overTx := false, overRx := false }

/-- The plan, its step and the lanes' notes given up. -/
def State.planGone (s : State) : State :=
  { s with plan := none, step := StepSt.init, ports := Bank.mapAll s.ports PortSt.init (fun _ p => endedPort p) }

theorem State.planGone_obj (s : State) (k : Nat) : s.planGone.obj k = s.obj k := rfl

theorem State.planGone_ended (s : State) : Ended s s.planGone :=
  ⟨rfl, rfl, rfl, rfl, rfl, rfl, rfl, rfl, rfl, rfl, rfl, rfl, rfl, rfl, fun _ _ => rfl⟩

theorem State.endPlan_of_admitted {s : State} (h : s.admitted = true) :
    s.endPlan = s.planLoaded.dropPlanObjects.planGone := by
  rw [State.endPlan, if_pos h]
  rfl

theorem State.endPlan_of_not_admitted {s : State} (h : s.admitted = false) : s.endPlan = s := by
  rw [State.endPlan, h]
  rfl

theorem State.endPlan_frame (s : State) : Ended s s.endPlan ∧ SameObj s s.endPlan planEndKeys := by
  cases h : s.admitted with
  | false =>
    rw [State.endPlan_of_not_admitted h]
    exact ⟨Ended.refl s, SameObj.refl s _⟩
  | true =>
    obtain ⟨h1, k1⟩ := s.planLoaded_frame
    obtain ⟨h2, k2⟩ := s.planLoaded.dropPlanObjects_frame
    rw [State.endPlan_of_admitted h]
    refine ⟨(h1.trans h2).trans (State.planGone_ended _), fun j hj => ?_⟩
    rw [State.planGone_obj]
    exact k1.trans (k2.mono (by decide)) j hj

theorem State.endPlan_planState {s : State} (h : s.admitted = true) : s.endPlan.planState = 1 := by
  rw [State.endPlan_of_admitted h, State.planState, State.planGone_obj,
    s.planLoaded.dropPlanObjects_frame.2 _ (by decide), State.planLoaded_planState]

theorem State.endPlan_admitted (s : State) : s.endPlan.admitted = false := by
  cases h : s.admitted with
  | false => rw [State.endPlan_of_not_admitted h, h]
  | true =>
    rw [State.admitted, State.endPlan_planState h]
    decide

theorem State.endPlan_step {s : State} (h : s.admitted = true) : s.endPlan.step = StepSt.init := by
  rw [State.endPlan_of_admitted h, State.planGone]

theorem State.endPlan_plan {s : State} (h : s.admitted = true) : s.endPlan.plan = none := by
  rw [State.endPlan_of_admitted h, State.planGone]

/-- No plan is admitted, so that no EVENT queue takes a record. -/
theorem State.eventQueue_of_not_admitted {s : State} (h : s.admitted = false) : s.eventQueue = none := by
  rw [State.eventQueue, State.queues, State.activePlan, h]
  rfl

/-- What the end of a plan empties, where one is admitted, and leaves elsewhere. -/
theorem State.planWorkEnded_emptied (s : State) :
    s.planWorkEnded.flows = [] ∧ s.planWorkEnded.rings = [] ∧ s.planWorkEnded.windows = [] ∧
    s.planWorkEnded.shards = [] ∧ s.planWorkEnded.obj oFlowsOpen = 0 := by
  generalize hs : s.cutSnapshot.cutSnapIn.failJob.doneRelease = u
  have h1 : s.planWorkEnded = u.idleWindows.idleShards.closeFlows.dropWork := by rw [← hs]; rfl
  obtain ⟨od, h2⟩ := State.resetCores_onlyObj { u.idleWindows.idleShards.closeFlows with
    engines := [], merges := [], spent := [], verdicts := [], contribs := [] }
  have h3 : s.planWorkEnded.obj oFlowsOpen = u.idleWindows.idleShards.closeFlows.obj oFlowsOpen := by
    rw [h1]
    refine (State.resetCores_sameObj _ _ (by decide)).trans (State.obj_congr _)
  rw [h3, State.closeFlows, State.obj_setObj_self, h1, State.dropWork, h2]
  exact ⟨rfl, rfl, rfl, rfl, rfl⟩

theorem State.planLoaded_lists (s : State) :
    s.planLoaded.flows = s.planWorkEnded.flows ∧ s.planLoaded.rings = s.planWorkEnded.rings ∧
    s.planLoaded.windows = s.planWorkEnded.windows ∧ s.planLoaded.shards = s.planWorkEnded.shards := by
  unfold State.planLoaded
  generalize s.planWorkEnded = t
  exact ⟨rfl, rfl, rfl, rfl⟩

theorem State.dropPlanObjects_lists (s : State) :
    s.dropPlanObjects.planGone.flows = s.flows ∧ s.dropPlanObjects.planGone.rings = s.rings ∧
    s.dropPlanObjects.planGone.windows = s.windows ∧ s.dropPlanObjects.planGone.shards = s.shards := by
  obtain ⟨od, h⟩ := s.dropPlanObjects_onlyObj
  rw [h]
  exact ⟨rfl, rfl, rfl, rfl⟩

theorem State.endPlan_emptied {s : State} (h : s.admitted = true) :
    s.endPlan.flows = [] ∧ s.endPlan.rings = [] ∧ s.endPlan.windows = [] ∧ s.endPlan.shards = [] ∧
    s.endPlan.obj oFlowsOpen = 0 := by
  obtain ⟨hf, hr, hw, hs, ho⟩ := s.planWorkEnded_emptied
  obtain ⟨hf1, hr1, hw1, hs1⟩ := s.planLoaded_lists
  obtain ⟨hf2, hr2, hw2, hs2⟩ := s.planLoaded.dropPlanObjects_lists
  rw [State.endPlan_of_admitted h]
  refine ⟨(hf2.trans hf1).trans hf, (hr2.trans hr1).trans hr, (hw2.trans hw1).trans hw, (hs2.trans hs1).trans hs, ?_⟩
  rw [State.planGone_obj, s.planLoaded.dropPlanObjects_frame.2 _ (by decide),
    State.planLoaded_obj, State.obj_setObj_ne _ _ (by decide), ho]

/-! ### Class C: the plan ended, the domains it gated woken -/

theorem State.wakeGated_shape (s : State) :
    ∃ od requests, s.wakeGated = { s with od := od, power := { s.power with requests := requests } } := by
  unfold State.wakeGated State.settleIdle
  extract_lets st
  split
  · exact ⟨_, _, rfl⟩
  · exact ⟨_, _, rfl⟩

theorem State.wakeGated_sameObj (s : State) : SameObj s s.wakeGated [oPowerState] := by
  unfold State.wakeGated State.settleIdle
  extract_lets st
  have h : SameObj s (s.requestWakes ((upto 50).filter (fun d => s.dom d == domGated))) [oPowerState] :=
    SameObj.of_od (by rfl)
  split
  · exact h.setObj _ (by decide)
  · exact h

theorem State.faultC_admitted (s : State) : s.faultC.admitted = false := by
  rw [State.faultC, State.admitted, State.planState, State.wakeGated_sameObj _ _ (by decide)]
  exact s.endPlan_admitted

theorem State.faultC_planState {s : State} (h : s.admitted = true) : s.faultC.planState = 1 := by
  rw [State.faultC, State.planState, State.wakeGated_sameObj _ _ (by decide)]
  exact s.endPlan_planState h

/-- The objects that a class C fault writes. -/
def faultCKeys : List Nat := oPowerState :: planEndKeys

theorem State.faultC_sameObj (s : State) : SameObj s s.faultC faultCKeys :=
  (s.endPlan_frame.2.mono (fun _ h => List.mem_cons_of_mem _ h)).trans
    (s.endPlan.wakeGated_sameObj.mono (fun _ h => List.mem_singleton.mp h ▸ List.mem_cons_self ..))

/-- The fields of `Ended` but the power, in which a class C fault asks for wakes. -/
theorem State.faultC_frame (s : State) :
    s.faultC.now = s.now ∧ s.faultC.bell = s.bell ∧ s.faultC.out = s.out ∧ s.faultC.deferred = s.deferred ∧
    s.faultC.txLinks = s.txLinks ∧ s.faultC.rxLinks = s.rxLinks ∧ s.faultC.micro = s.micro ∧
    (∃ rs, s.faultC.power = { s.power with requests := rs }) ∧ ∀ k, k ≠ oPlanDigest → s.faultC.blob k = s.blob k := by
  have h := s.endPlan_frame.1
  obtain ⟨od, rs, hs⟩ := s.endPlan.wakeGated_shape
  have hf : s.faultC = { s.endPlan with od := od, power := { s.endPlan.power with requests := rs } } := hs
  rw [hf]
  exact ⟨h.now, h.bell, h.out, h.deferred, h.txLinks, h.rxLinks, h.micro, ⟨rs, by rw [h.power]⟩, h.blob⟩

end Sys2Proof.Machine

namespace Sys2Proof.Machine

/-- Port 0 twice: a lane in use behind the far end's reset; control laser 0 of the port is active, laser 1 has failed. -/
def laneTwice : State :=
  let s := hostPortTwice [(0, { PortSt.init with resetSeen := true }), (0, { PortSt.init with useTx := 1 })]
  { s with od := (oClState 0, 9) :: s.od }

theorem laneTwice_useTx : ((stateAfter (.controlLaserDrop 0) laneTwice).portSt 0).useTx = 1 := by decide +kernel

/-- Refutes O54: a control laser without a spare brings its link down, which ends the plan, whose end uncovers the second
entry of port 0, in which a lane is in use. -/
theorem not_lasersAndSupplies : ¬ Obligations.LasersAndSupplies := by
  unfold Obligations.LasersAndSupplies
  rintro ⟨-, -, -, hcontrol, -⟩
  obtain ⟨-, -, hfails⟩ := hcontrol 0 laneTwice
  obtain ⟨-, -, huse, -⟩ := (hfails 0 (by decide +kernel) (by decide +kernel)).stateAfter
  exact absurd (laneTwice_useTx.symm.trans huse) (by decide)

end Sys2Proof.Machine

namespace Sys2Proof.Machine

/-! ### The four functions lost at once -/

/-- The state of all four functions lost, as a power state that keeps none of them loses it (R436, R441). -/
def State.fnsLost (s : State) : State := (((s.clearFn .compute).clearFn .fabric).clearFn .update).clearFn .optics

theorem State.fnsLost_mem (s : State) : s.fnsLost.mem = s.mem := by
  simp only [State.fnsLost, State.clearFn_mem]

theorem State.fnsLost_power (s : State) : s.fnsLost.power = s.power := by
  simp only [State.fnsLost, State.clearFn_power]

/-- An object that no loss of the four functions writes. -/
def keptByFns (k : Nat) : Bool :=
  [Fn.compute, .fabric, .update, .optics].all (fun f => !keyLost [.v] [f] k) && !clearKeys.contains k

theorem State.fnsLost_kept {s : State} {k : Nat} (h : keptByFns k = true) : s.fnsLost.obj k = s.obj k := by
  simp only [keptByFns, Bool.and_eq_true, List.all_eq_true, Bool.not_eq_true', List.contains_eq_mem,
    decide_eq_false_iff_not] at h
  obtain ⟨hf, hk⟩ := h
  simp only [State.fnsLost, State.clearFn_obj_kept (hf .compute (by simp)) hk, State.clearFn_obj_kept (hf .fabric (by simp)) hk,
    State.clearFn_obj_kept (hf .update (by simp)) hk, State.clearFn_obj_kept (hf .optics (by simp)) hk]

theorem keptByFns_oDomainState (d : Nat) (h : d < 64) : keptByFns (oDomainState d) = true := by
  have hall : ∀ d < 64, keptByFns (oDomainState d) = true := by decide +kernel
  exact hall d h

theorem State.dropObjects_power (s : State) (rs : List Ret) (fs : List Fn) : (s.dropObjects rs fs).power = s.power := rfl

theorem State.dropObjects_mem (s : State) (rs : List Ret) (fs : List Fn) : (s.dropObjects rs fs).mem = s.mem := rfl

theorem State.setDoms_power (s : State) (ds : List Nat) (v : Nat) : (s.setDoms ds v).power = s.power :=
  (s.setDoms_onlyObj ds v).power

theorem State.setDoms_mem (s : State) (ds : List Nat) (v : Nat) : (s.setDoms ds v).mem = s.mem :=
  (s.setDoms_onlyObj ds v).mem

theorem State.obj_setDoms (s : State) (ds : List Nat) (v : Nat) {k : Nat} (h : ∀ d ∈ ds, k ≠ oDomainState d) :
    (s.setDoms ds v).obj k = s.obj k :=
  s.setDoms_sameObj ds v k (fun hm => by
    obtain ⟨d, hm, hd⟩ := List.mem_map.mp hm
    exact h d hm hd.symm)

/-! ### Power states that the host asks for -/

/-- No plan is admitted, so that no EVENT queue is served and the result word's event touches no memory. -/
theorem State.cmdDone_mem {s : State} (k : Nat) (h : s.eventQueue = none) (hk : k ≠ oPlanState := by decide)
    (hp : k ≠ oPlaceNumber := by decide) : (s.cmdDone k).mem = s.mem := by
  refine ((s.cmdDone_logs k).quiet ?_).1
  rw [← h]
  exact eventQueue_congr rfl (State.obj_setObj_ne _ _ hk.symm) (State.obj_setObj_ne _ _ hp.symm)

theorem State.setPowerState_mem {s : State} (v : Nat) (h : s.eventQueue = none) : (s.setPowerState v).mem = s.mem := by
  refine ((s.setPowerState_logs v).quiet ?_).1
  rw [← h]
  exact eventQueue_congr rfl (State.obj_setObj_ne _ _ (by decide)) (State.obj_setObj_ne _ _ (by decide))

theorem State.setPowerState_queue (s : State) (v : Nat) : (s.setPowerState v).eventQueue = s.eventQueue := by
  rw [(s.setPowerState_logs v).queue]
  exact eventQueue_congr rfl (State.obj_setObj_ne _ _ (by decide)) (State.obj_setObj_ne _ _ (by decide))

/-- The end of a change of power state: the state shown, and the request's result word done. -/
def State.powerReached (s : State) (v k : Nat) : State := (s.setPowerState v).cmdDone k

theorem State.powerReached_mem {s : State} {v k : Nat} (h : s.admitted = false) (hk : k ≠ oPlanState := by decide)
    (hp : k ≠ oPlaceNumber := by decide) : (s.powerReached v k).mem = s.mem := by
  have hq : s.eventQueue = none := State.eventQueue_of_not_admitted h
  rw [State.powerReached, State.cmdDone_mem k ((s.setPowerState_queue v).trans hq) hk hp, State.setPowerState_mem v hq]

theorem State.powerReached_state (s : State) (v k : Nat) (hk : k ≠ oPowerState) :
    (s.powerReached v k).obj oPowerState = v := by
  rw [State.powerReached, State.cmdDone_sameObj _ k _ (by simp only [List.mem_cons, not_or]; exact ⟨hk.symm, by decide⟩),
    State.setPowerState_obj]

theorem State.powerReached_sameObj (s : State) (v k : Nat) :
    SameObj s (s.powerReached v k) (k :: oPowerState :: eventKeys) := by
  refine SameObj.trans ((s.setPowerState_sameObj v).mono (fun _ h => List.mem_cons_of_mem _ h)) ?_
  refine (State.cmdDone_sameObj _ k).mono (fun _ h => ?_)
  rcases List.mem_cons.mp h with h | h
  · exact h ▸ List.mem_cons_self ..
  · exact List.mem_cons_of_mem _ (List.mem_cons_of_mem _ h)

end Sys2Proof.Machine

namespace Sys2Proof.Machine

/-! ### Power requests -/

/-- The power fields replaced. -/
def State.setPower (s : State) (p : PowerSt) : State := { s with power := p }

theorem State.setPower_obj (s : State) (p : PowerSt) (k : Nat) : (s.setPower p).obj k = s.obj k := rfl

theorem State.setPower_mem (s : State) (p : PowerSt) : (s.setPower p).mem = s.mem := rfl

theorem State.setPower_dom (s : State) (p : PowerSt) (d : Nat) : (s.setPower p).dom d = s.dom d := rfl

/-- What DOZE loses: the four functions, and the domains that it does not keep on (R436). -/
def State.dozed (s : State) : State :=
  let t := s.fnsLost.setDoms (domains48.filter (fun d => !dozeDomains.contains d)) domOff
  t.setPower { t.power with waking := [], requests := [] }

/-- What KEEP and READY_OFF lose: the four functions and retention D and V, and the domains that they do not keep on. -/
def State.kept (s : State) : State :=
  (s.fnsLost.dropObjects [.d, .v] allFns).setDoms (domains48.filter (fun d => !keepDomains.contains d)) domOff

theorem State.dozed_obj {s : State} {k : Nat} (h : keptByFns k = true) (hd : ∀ d ∈ domains48, k ≠ oDomainState d) :
    s.dozed.obj k = s.obj k := by
  rw [State.dozed, State.setPower_obj, State.obj_setDoms _ _ _ (fun d h => hd d (List.mem_filter.mp h).1), State.fnsLost_kept h]

theorem State.dozed_dom (s : State) (d : Nat) (hd : d < 64) :
    s.dozed.dom d = if d ∈ domains48.filter (fun d => !dozeDomains.contains d) then domOff else s.dom d := by
  rw [State.dozed, State.setPower_dom, State.dom_setDoms, State.dom, State.fnsLost_kept (keptByFns_oDomainState d hd)]
  rfl

theorem State.dozed_mem (s : State) : s.dozed.mem = s.mem := by
  rw [State.dozed, State.setPower_mem, State.setDoms_mem, State.fnsLost_mem]

theorem State.kept_obj {s : State} {k : Nat} (h : keptByFns k = true) (hd : ∀ d ∈ domains48, k ≠ oDomainState d) :
    s.kept.obj k = if keyLost [.d, .v] allFns k then objDefault k else s.obj k := by
  rw [State.kept, State.obj_setDoms _ _ _ (fun d h => hd d (List.mem_filter.mp h).1), State.obj_dropObjects, State.fnsLost_kept h]

theorem keyLost_oDomainState {d : Nat} (h : d < 64) : keyLost [.d, .v] allFns (oDomainState d) = false := by
  have hall : ∀ d < 64, keyLost [.d, .v] allFns (oDomainState d) = false := by decide +kernel
  exact hall d h

theorem State.kept_dom (s : State) (d : Nat) (hd : d < 64) :
    s.kept.dom d = if d ∈ domains48.filter (fun d => !keepDomains.contains d) then domOff else s.dom d := by
  rw [State.kept, State.dom_setDoms, State.dom, State.obj_dropObjects_kept (keyLost_oDomainState hd),
    State.fnsLost_kept (keptByFns_oDomainState d hd)]
  rfl

theorem State.kept_mem (s : State) : s.kept.mem = s.mem := by
  rw [State.kept, State.setDoms_mem, State.dropObjects_mem, State.fnsLost_mem]

theorem State.kept_power (s : State) : s.kept.power = s.power := by
  rw [State.kept, State.setDoms_power, State.dropObjects_power, State.fnsLost_power]

theorem State.actPowerDoze_of {s : State} (h : s.planHeld = false) (hb : s.obj oBridgeRole ≠ 1)
    (hp : s.obj oPowerState = 1) : s.actPowerDoze = s.dozed.powerReached 3 oPowerRequest := by
  rw [State.actPowerDoze, if_neg (Bool.eq_false_iff.mp h), if_neg hb, if_pos hp]
  rfl

theorem State.actPowerKeep_of {s : State} (h : s.planHeld = false) (hb : s.obj oBridgeRole ≠ 1)
    (hp : s.obj oPowerState = 1 ∨ s.obj oPowerState = 3) :
    s.actPowerKeep = (s.kept.setPower { s.kept.power with waking := [], requests := [], staged := none }).powerReached 4
      oPowerRequest := by
  rw [State.actPowerKeep, if_neg (Bool.eq_false_iff.mp h), if_neg hb, if_pos hp]
  rfl

theorem State.dom_sameObj {s t : State} {ks : List Nat} (h : SameObj s t ks) (d : Nat) (hk : oDomainState d ∉ ks) :
    t.dom d = s.dom d := h _ hk

theorem oDomainState_not_powerKeys : ∀ d < 64, oDomainState d ∉ oPowerRequest :: oPowerState :: eventKeys := by
  decide +kernel

/-- DOZE and KEEP end with the state shown, the result word done, the memory as it was and only their domains on. -/
theorem State.powerReached_spec {s u : State} {v : Nat} {keep : List Nat} (hm : u.mem = s.mem) (ha : u.admitted = false)
    (hd : ∀ d < 64, u.dom d = if d ∈ domains48.filter (fun d => !keep.contains d) then domOff else s.dom d)
    (hkeep : ∀ d ∈ keep, d < 64) :
    (u.powerReached v oPowerRequest).obj oPowerState = v ∧ (u.powerReached v oPowerRequest).obj oPowerRequest = 0x20000 ∧
    SameMem s (u.powerReached v oPowerRequest) ∧
    (∀ d ∈ domains48, keep.contains d = false → (u.powerReached v oPowerRequest).dom d = domOff) ∧
    (∀ d ∈ keep, (u.powerReached v oPowerRequest).dom d = s.dom d) := by
  have hdom : ∀ d < 64, (u.powerReached v oPowerRequest).dom d = u.dom d := fun d h =>
    State.dom_sameObj (u.powerReached_sameObj v oPowerRequest) d (oDomainState_not_powerKeys d h)
  have h48 : ∀ d ∈ domains48, d < 64 := by decide
  refine ⟨u.powerReached_state v _ (by decide), State.cmdDone_obj _ _ (by decide),
    SameMem.of_mem ((State.powerReached_mem ha).trans hm), fun d h1 h2 => ?_, fun d h => ?_⟩
  · rw [hdom d (h48 d h1), hd d (h48 d h1), if_pos (List.mem_filter.mpr ⟨h1, by rw [h2]; rfl⟩)]
  · rw [hdom d (hkeep d h), hd d (hkeep d h), if_neg]
    rw [List.mem_filter]
    rintro ⟨-, hc⟩
    rw [List.contains_iff_mem.mpr h] at hc
    exact absurd hc (by decide)

theorem State.dozed_admitted {s : State} (h : s.admitted = false) : s.dozed.admitted = false := by
  rw [State.admitted, State.planState, State.dozed_obj (by decide +kernel) (by decide)]
  exact h

theorem State.kept_planState (s : State) : s.kept.obj oPlanState = 0 := by
  rw [State.kept_obj (by decide +kernel) (by decide), if_pos (by decide +kernel)]
  decide +kernel

theorem State.admitted_of_empty {s : State} (h : s.obj oPlanState = 0) : s.admitted = false := by
  rw [State.admitted, State.planState, h]
  decide

end Sys2Proof.Machine

namespace Sys2Proof.Machine

/-! ### Warm reset -/

/-- The content of the ports' hellos kept, the actions cut off, the keeper's place taken and the plan ended, as a warm
reset begins. -/
def State.resetEnded (s : State) : State :=
  let t := s.storeHellos.cutActions
  State.endPlan { t with keeper := t.keeperOf }

/-- Everything that describes a plan or its work given up. -/
def State.planCleared (s : State) : State :=
  { s with plan := none, admitting := none, deferred := [], prep := none, xrClear := false, digesting := none,
           step := StepSt.init }

/-- What a warm reset loses before it counts and restarts the management complex. -/
def State.resetLost (s : State) (c : ResetCause) : State :=
  let t := s.resetEnded.fnsLost.clearMailboxes
  let t := t.setPower { t.power with
    warmReset := some c, warmResetAt := t.now, requests := [], waking := [], started := [],
    reinit := none, shutdown := false, staged := none, resetHeld := none }
  (t.dropObjects [.d, .v] allFns).planCleared.setDoms (domains48.filter (fun d => !resetDomains.contains d)) domOff

theorem State.startWarmReset_of {s : State} (c : ResetCause) (h : s.power.copying = false) :
    s.startWarmReset c = ((s.resetLost c).bump oResetCount).restartMgmt := by
  rw [State.startWarmReset, if_neg (Bool.eq_false_iff.mp h)]
  unfold State.resetLost State.resetEnded State.fnsLost State.planCleared State.setPower
  dsimp only

theorem State.setPower_power (s : State) (p : PowerSt) : (s.setPower p).power = p := rfl

theorem State.storeHellos_shape (s : State) : ∃ ports, s.storeHellos = { s with ports := ports } := by
  unfold State.storeHellos
  refine List.foldlRecOn (motive := fun (t : State) => ∃ ports, t = { s with ports := ports }) (upto 24) _ ⟨_, rfl⟩
    (fun t ht p _ => ?_)
  obtain ⟨ports, rfl⟩ := ht
  exact ⟨_, rfl⟩

theorem State.cutActions_aux (s : State) : s.cutActions.power.aux = s.power.aux := by
  unfold State.cutActions
  split <;> rfl

theorem State.cutActions_sameObj (s : State) : SameObj s s.cutActions [oStResult] := by
  unfold State.cutActions
  split
  · exact SameObj.congr ((SameObj.refl s _).setObj 4 (List.mem_cons_self ..))
  · exact SameObj.refl s _

theorem State.resetEnded_aux (s : State) : s.resetEnded.power.aux = s.power.aux := by
  obtain ⟨ports, h⟩ := s.storeHellos_shape
  rw [State.resetEnded, (State.endPlan_frame _).1.power]
  show s.storeHellos.cutActions.power.aux = _
  rw [State.cutActions_aux, h]

theorem State.resetEnded_sameObj (s : State) : SameObj s s.resetEnded (oStResult :: planEndKeys) := by
  obtain ⟨ports, h⟩ := s.storeHellos_shape
  have h1 : SameObj s s.storeHellos [] := by rw [h]; exact SameObj.refl _ _
  refine ((h1.mono (by simp)).trans (s.storeHellos.cutActions_sameObj.mono (by decide))).trans ?_
  refine SameObj.trans (t := { s.storeHellos.cutActions with keeper := s.storeHellos.cutActions.keeperOf })
    (fun k _ => rfl) ?_
  exact (State.endPlan_frame _).2.mono (fun _ hk => List.mem_cons_of_mem _ hk)

theorem State.planCleared_obj (s : State) (k : Nat) : s.planCleared.obj k = s.obj k := rfl

theorem State.planCleared_power (s : State) : s.planCleared.power = s.power := rfl

theorem State.clearMailboxes_obj {s : State} {k : Nat} (h : k ≠ oMbStates) : s.clearMailboxes.obj k = s.obj k := by
  rw [State.clearMailboxes, State.obj_setObj_ne _ _ h]
  rfl

theorem State.clearMailboxes_power (s : State) : s.clearMailboxes.power = s.power := rfl

theorem State.resetLost_power (s : State) (c : ResetCause) :
    (s.resetLost c).power.warmReset = some c ∧ (s.resetLost c).power.aux = s.power.aux := by
  have h : (s.resetLost c).power = { s.resetEnded.fnsLost.clearMailboxes.power with
      warmReset := some c, warmResetAt := s.resetEnded.fnsLost.clearMailboxes.now, requests := [], waking := [],
      started := [], reinit := none, shutdown := false, staged := none, resetHeld := none } := by
    rw [State.resetLost, State.setDoms_power, State.planCleared_power, State.dropObjects_power, State.setPower_power]
  have ha : s.resetEnded.fnsLost.clearMailboxes.power.aux = s.power.aux := by
    rw [State.clearMailboxes_power, State.fnsLost_power, State.resetEnded_aux]
  rw [h]
  generalize s.resetEnded.fnsLost.clearMailboxes = u at ha ⊢
  exact ⟨rfl, ha⟩

theorem State.resetLost_obj {s : State} {c : ResetCause} {k : Nat} (hf : keptByFns k = true) (hd : ∀ d ∈ domains48, k ≠ oDomainState d)
    (hm : k ≠ oMbStates) :
    (s.resetLost c).obj k = if keyLost [.d, .v] allFns k then objDefault k else s.resetEnded.obj k := by
  rw [State.resetLost, State.obj_setDoms _ _ _ (fun d h => hd d (List.mem_filter.mp h).1), State.planCleared_obj, State.obj_dropObjects, State.setPower_obj,
    State.clearMailboxes_obj hm, State.fnsLost_kept hf]

theorem State.setDoms_plan (s : State) (ds : List Nat) (v : Nat) : (s.setDoms ds v).plan = s.plan := by
  obtain ⟨od, h⟩ := s.setDoms_onlyObj ds v
  rw [h]

theorem State.planCleared_plan (s : State) : s.planCleared.plan = none := rfl

theorem State.resetLost_plan (s : State) (c : ResetCause) : (s.resetLost c).plan = none := by
  rw [State.resetLost, State.setDoms_plan, State.planCleared_plan]

theorem State.restartMgmt_obj (s : State) (k : Nat) :
    s.restartMgmt.obj k = if keyLost [.v] [.mgmt] k then objDefault k else s.obj k := by
  rw [← State.obj_dropObjects]
  rfl

/-- What a warm reset that no firmware copy holds leaves (R441, R442). -/
theorem State.startWarmReset_spec {s : State} (c : ResetCause) (h : s.power.copying = false) :
    (s.startWarmReset c).power.warmReset = some c ∧
    (s.startWarmReset c).power.boot = (if s.power.aux then .verifying else .off) ∧
    (s.startWarmReset c).admitted = false ∧ (s.startWarmReset c).plan = none ∧
    (s.startWarmReset c).obj oResetCount = (s.obj oResetCount + 1) % 2 ^ 32 := by
  obtain ⟨hw, ha⟩ := s.resetLost_power c
  rw [State.startWarmReset_of c h]
  generalize hu : s.resetLost c = u at hw ha
  have hp : u.plan = none := by rw [← hu, State.resetLost_plan]
  have ho : ∀ k, keptByFns k = true → (∀ d ∈ domains48, k ≠ oDomainState d) → k ≠ oMbStates →
      u.obj k = if keyLost [.d, .v] allFns k then objDefault k else s.resetEnded.obj k := by
    intro k hf hd hm
    rw [← hu, State.resetLost_obj hf hd hm]
  refine ⟨hw, ?_, State.admitted_of_empty ?_, hp, ?_⟩
  · rw [← ha]
    rfl
  · rw [State.restartMgmt_obj, if_neg (by decide +kernel), State.bump_obj_ne _ (by decide),
      ho _ (by decide +kernel) (by decide) (by decide), if_pos (by decide +kernel)]
    decide +kernel
  · rw [State.restartMgmt_obj, if_neg (by decide +kernel), State.bump_obj_self,
      ho _ (by decide +kernel) (by decide) (by decide), if_neg (by decide +kernel),
      s.resetEnded_sameObj _ (by decide)]
    rfl

end Sys2Proof.Machine

namespace Sys2Proof.Machine

/-- A wake is waiting for every domain asked for that is neither on nor waking (R438). -/
theorem State.requestWakes_waits (s : State) {ds : List Nat} {d : Nat} (h : d ∈ ds) (h1 : s.dom d ≠ domOn)
    (h2 : s.dom d ≠ domWaking) : ∃ r ∈ (s.requestWakes ds).power.requests, r.domain = d := by
  by_cases hr : s.power.requests.any (fun r => r.domain == d) = true
  · obtain ⟨r, hm, he⟩ := List.any_eq_true.mp hr
    exact ⟨r, List.mem_append_left _ hm, by simpa using he⟩
  · refine ⟨⟨d, s.now⟩, List.mem_append_right _ (List.mem_map_of_mem (List.mem_filter.mpr ⟨h, ?_⟩)), rfl⟩
    simp [h1, h2, Bool.eq_false_iff.mpr hr]

theorem State.requestWakes_sameObj (s : State) (ds : List Nat) (ks : List Nat) : SameObj s (s.requestWakes ds) ks :=
  fun _ _ => rfl

theorem State.actPowerRun_doze (s : State) (h : s.obj oPowerState = 3) :
    s.actPowerRun = ((s.setPowerState 1).requestWakes domains48).cmdDone oPowerRequest := by
  rw [State.actPowerRun, if_pos h]

theorem State.actPowerRun_doze_spec (s : State) (h : s.obj oPowerState = 3) :
    s.actPowerRun.obj oPowerState = 1 ∧ s.actPowerRun.obj oPowerRequest = 0x20000 ∧
    (∀ d ∈ domains48, s.dom d ≠ domOn → s.dom d ≠ domWaking → ∃ r ∈ s.actPowerRun.power.requests, r.domain = d) ∧
    SameObj s s.actPowerRun ([oPowerState, oPowerRequest] ++ eventKeys) := by
  rw [State.actPowerRun_doze s h]
  generalize ht : s.setPowerState 1 = t
  have hsame : SameObj s t (oPowerState :: eventKeys) := ht ▸ s.setPowerState_sameObj 1
  have hdone := (t.requestWakes domains48).cmdDone_sameObj oPowerRequest
  have hdom : ∀ d ∈ domains48, t.dom d = s.dom d := by
    have hk : ∀ d ∈ domains48, oDomainState d ∉ oPowerState :: eventKeys := by decide +kernel
    exact fun d hd => hsame _ (hk d hd)
  refine ⟨?_, State.cmdDone_obj _ _ (by decide), fun d hd h1 h2 => ?_, ?_⟩
  · rw [hdone _ (by decide), State.requestWakes_sameObj t domains48 [] _ (by simp), ← ht, State.setPowerState_obj]
  · rw [((t.requestWakes domains48).cmdDone_logs oPowerRequest).power]
    exact t.requestWakes_waits hd (hdom d hd ▸ h1) (hdom d hd ▸ h2)
  · exact ((hsame.mono (by decide)).trans (State.requestWakes_sameObj t domains48 _)).trans (SameObj.mono hdone (by decide))

theorem State.actPowerRun_reset (s : State) (h : s.obj oPowerState = 4 ∨ s.obj oPowerState = 5) :
    s.actPowerRun = s.startWarmReset .exit := by
  rw [State.actPowerRun, if_neg (by omega), if_pos h]

theorem State.actPowerRun_refused (s : State) (h : s.obj oPowerState < 3 ∨ 5 < s.obj oPowerState) :
    s.actPowerRun = s.cmdFail oPowerRequest (if s.planHeld = true then abPlanAdmitted else abValueRange) := by
  rw [State.actPowerRun, if_neg (by omega), if_neg (by omega)]

theorem State.actPowerDoze_refused (s : State)
    (h : s.planHeld = true ∨ s.obj oBridgeRole = 1 ∨ s.obj oPowerState ≠ 1) :
    s.actPowerDoze = s.cmdFail oPowerRequest (if s.planHeld = true then abPlanAdmitted else abValueRange) := by
  rw [State.actPowerDoze]
  by_cases hp : s.planHeld = true
  · rw [if_pos hp, if_pos hp]
  · rw [if_neg hp, if_neg hp]
    obtain hb | hs := h.resolve_left hp
    · rw [if_pos hb]
    · rw [if_neg hs, ite_self]

theorem State.actPowerKeep_refused (s : State)
    (h : s.planHeld = true ∨ s.obj oBridgeRole = 1 ∨ s.obj oPowerState ≠ 1 ∧ s.obj oPowerState ≠ 3) :
    s.actPowerKeep = s.cmdFail oPowerRequest (if s.planHeld = true then abPlanAdmitted else abValueRange) := by
  rw [State.actPowerKeep]
  by_cases hp : s.planHeld = true
  · rw [if_pos hp, if_pos hp]
  · rw [if_neg hp, if_neg hp]
    obtain hb | hs := h.resolve_left hp
    · rw [if_pos hb]
    · rw [if_neg (not_or.mpr hs), ite_self]

theorem State.actPowerRequest_run (s : State) : s.actPowerRequest 1 = s.actPowerRun := rfl
theorem State.actPowerRequest_doze (s : State) : s.actPowerRequest 3 = s.actPowerDoze := rfl
theorem State.actPowerRequest_keep (s : State) : s.actPowerRequest 4 = s.actPowerKeep := rfl

theorem State.actShutdown_of {s : State} (h : s.planHeld = false) (hp : s.obj oPowerState = 1)
    (ht : s.power.selfTest = false) :
    s.actShutdown = (s.cmdStart oShutdown).setPower { s.power with shutdown := true, selfTest := true } := by
  have hfree : ¬(s.obj oPowerState ≠ 1 ∨ s.power.selfTest = true) := by simp [hp, ht]
  rw [State.actShutdown, if_neg (Bool.eq_false_iff.mp h), if_neg hfree]
  rfl

theorem State.actShutdown_refused {s : State} (h : s.planHeld = false)
    (hp : s.obj oPowerState ≠ 1 ∨ s.power.selfTest = true) : s.actShutdown = s.cmdFail oShutdown abValueRange := by
  rw [State.actShutdown, if_neg (Bool.eq_false_iff.mp h), if_pos hp]

theorem State.startWarmReset_held {s : State} (c : ResetCause) (h : s.power.copying = true) :
    s.startWarmReset c = s.setPower { s.power with resetHeld := some c } := by
  rw [State.startWarmReset, if_pos h]
  rfl

/-- A POWER_REQUEST of value `v`, which the request's action answers. -/
theorem Does.powerRequest {c : Instr} {s : State} {q : WReq} {v : Nat} {P : State → Prop}
    (hc : exec c s = .next (s.quiet.write q oPowerRequest (natLe 1 v))) (hv : v < 256) (h : P (s.quiet.actPowerRequest v)) :
    Does c s q oPowerRequest (natLe 1 v) P :=
  Does.action (t := s.quiet.actPowerRequest v) hc (by decide) (by decide)
    (by rw [leNat_natLe, Nat.mod_eq_of_lt (show v < 2 ^ (8 * 1) from hv), State.act_powerRequest]) h

/-- Settles O23. -/
theorem powerWrites : Obligations.PowerWrites := by
  unfold Obligations.PowerWrites
  refine ⟨fun q s h => ?_, fun q s h hc => ?_, fun q s h => ?_, fun q s h => ?_, fun q s h => ?_, fun q s h hb hp => ?_,
    fun q s h hb hp => ?_, fun q v s h hp ht => ?_, fun q v s h hp => ?_, fun q v s h => ?_, fun q v s h => ?_⟩
  · exact Does.powerRequest (v := 1) rfl (by decide) (s.quiet.actPowerRun_doze_spec h)
  · refine Does.powerRequest (v := 1) rfl (by decide) ?_
    rw [State.actPowerRequest_run, State.actPowerRun_reset s.quiet h]
    obtain ⟨hw, -, -, -, hn⟩ := State.startWarmReset_spec (s := s.quiet) .exit hc
    exact ⟨hw, hn⟩
  · exact Does.powerRequest (v := 1) rfl (by decide) (State.actPowerRun_refused s.quiet h)
  · exact Does.powerRequest (v := 3) rfl (by decide) (State.actPowerDoze_refused s.quiet h)
  · exact Does.powerRequest (v := 4) rfl (by decide) (State.actPowerKeep_refused s.quiet h)
  · refine Does.powerRequest (v := 3) rfl (by decide) ?_
    rw [State.actPowerRequest_doze, State.actPowerDoze_of (s := s.quiet) h hb hp]
    exact State.powerReached_spec (s := s.quiet) (u := s.quiet.dozed) (State.dozed_mem _)
      (State.dozed_admitted (State.not_planState_two h).1) (State.dozed_dom s.quiet) (by decide)
  · refine Does.powerRequest (v := 4) rfl (by decide) ?_
    rw [State.actPowerRequest_keep, State.actPowerKeep_of (s := s.quiet) h hb hp]
    generalize { s.quiet.kept.power with waking := [], requests := [], staged := none } = p
    refine State.powerReached_spec (s := s.quiet) (u := s.quiet.kept.setPower p) ?_ ?_ ?_ (by decide)
    · rw [State.setPower_mem, State.kept_mem]
    · exact State.admitted_of_empty ((State.setPower_obj _ _ _).trans (State.kept_planState _))
    · exact fun d hd => (State.setPower_dom _ _ _).trans (s.quiet.kept_dom d hd)
  · refine Does.action (t := s.quiet.actShutdown) rfl (by decide) (by decide) (State.act_shutdown ..) ?_
    rw [State.actShutdown_of (s := s.quiet) h hp ht]
    refine ⟨rfl, rfl, ?_, fun k hk => ?_, SameMem.refl s⟩
    · rw [State.setPower_obj, State.cmdStart_obj]
    · rw [State.setPower_obj]
      exact s.quiet.cmdStart_sameObj oShutdown k hk
  · exact Does.action (t := s.quiet.actShutdown) rfl (by decide) (by decide) (State.act_shutdown ..)
      (State.actShutdown_refused (s := s.quiet) h hp)
  · refine Does.action (t := s.quiet.actWarmReset) rfl (by decide) (by decide) (State.act_warmReset ..) ?_
    obtain ⟨hw, hb, ha, hp, hn⟩ := State.startWarmReset_spec (s := s.quiet.cmdStart oWarmReset) .write h
    exact ⟨hw, hb, ha, hp, hn.trans (by rw [s.quiet.cmdStart_sameObj oWarmReset _ (by decide)]; rfl)⟩
  · refine Does.action (t := s.quiet.actWarmReset) rfl (by decide) (by decide) (State.act_warmReset ..) ?_
    rw [State.actWarmReset, State.startWarmReset_held (s := s.quiet.cmdStart oWarmReset) .write h]
    refine ⟨rfl, ?_, fun k hk => ?_, SameMem.refl s⟩
    · rw [State.setPower_obj, State.cmdStart_obj]
    · rw [State.setPower_obj]
      exact s.quiet.cmdStart_sameObj oWarmReset k hk

end Sys2Proof.Machine

namespace Sys2Proof.Machine

/-! ### What lane C's sends leave -/

/-- Frames were sent or queued on lane C: nothing but the output and the ports' queues of sequenced frames differs. -/
structure Sends (s t : State) : Prop where
  shape : ∃ ports out, t = { s with ports := ports, out := out }
  port : ∀ j, ∃ seq sent, t.portSt j = { s.portSt j with ctlSeq := seq, ctlSent := sent }

theorem Sends.refl (s : State) : Sends s s := ⟨⟨_, _, rfl⟩, fun _ => ⟨_, _, rfl⟩⟩

theorem Sends.trans {s t u : State} (h : Sends s t) (k : Sends t u) : Sends s u := by
  refine ⟨?_, fun j => ?_⟩
  · obtain ⟨_, _, rfl⟩ := h.shape
    obtain ⟨ports, out, rfl⟩ := k.shape
    exact ⟨ports, out, rfl⟩
  · obtain ⟨_, _, h1⟩ := h.port j
    obtain ⟨seq, sent, h2⟩ := k.port j
    exact ⟨seq, sent, by rw [h2, h1]⟩

theorem Sends.foldl {α : Type} {f : State → α → State} (l : List α) (h : ∀ s a, Sends s (f s a)) (s : State) :
    Sends s (l.foldl f s) :=
  List.foldlRecOn l f (motive := fun t => Sends s t) (Sends.refl s) (fun t ht a _ => ht.trans (h t a))

theorem State.ctlFrame_sends (s : State) (p type : Nat) (seq : Option Nat) (body : Bytes) :
    Sends s (s.ctlFrame p type seq body) := by
  unfold State.ctlFrame
  split
  · exact ⟨⟨_, _, rfl⟩, fun _ => ⟨_, _, rfl⟩⟩
  · exact Sends.refl s

/-- A port's queue of sequenced frames replaced. -/
theorem Sends.setPort (s : State) (p seq : Nat) (sent : List CtlFrame) :
    Sends s (s.setPort p { s.portSt p with ctlSeq := seq, ctlSent := sent }) := by
  refine ⟨⟨_, _, rfl⟩, fun j => ?_⟩
  rw [State.portSt_setPort]
  split
  · next h => rw [h]; exact ⟨_, _, rfl⟩
  · exact ⟨_, _, rfl⟩

theorem State.pumpCtl_sends (s : State) (p : Nat) : Sends s (s.pumpCtl p) :=
  (Sends.setPort s p (s.portSt p).ctlSeq _).trans (Sends.foldl _ (fun t _ => t.ctlFrame_sends ..) _)

theorem State.sendCtl_sends (s : State) (p type : Nat) (body : Bytes) : Sends s (s.sendCtl p type body) :=
  (Sends.setPort s p ..).trans (State.pumpCtl_sends _ p)

theorem State.sendMgmt_sends (s : State) (p : Nat) (b : Bytes) : Sends s (s.sendMgmt p b) :=
  Sends.foldl _ (fun t _ => t.sendCtl_sends ..) s

theorem State.reportBeyond_sends (s : State) (p lanes : Nat) : Sends s (s.reportBeyond p lanes) := by
  unfold State.reportBeyond
  split
  · exact State.sendMgmt_sends ..
  · exact Sends.refl s

theorem State.reportPass_sends (s : State) (i n : Nat) : Sends s (s.reportPass i n) := by
  unfold State.reportPass
  split
  · exact State.sendMgmt_sends ..
  · exact Sends.refl s

theorem State.sendReport_sends (s : State) (p : Nat) : Sends s (s.sendReport p) := by
  unfold State.sendReport
  split
  · exact (s.ctlFrame_sends ..).trans (Sends.foldl _ (fun t l => t.reportBeyond_sends ..) _)
  · exact Sends.refl s

theorem Sends.obj {s t : State} (h : Sends s t) (k : Nat) : t.obj k = s.obj k := by
  obtain ⟨_, _, rfl⟩ := h.shape; rfl

/-! ### What the work on lanes leaves -/

/-- The objects that the loss, gain and judging of lanes write. -/
def laneKeys : List Nat := oReserveExceededCount :: oLastReserveExceeded :: eventKeys

/-- Those and the states of the links. -/
def linkKeys : List Nat := laneKeys ++ (upto 24).map oLinkState

/-- `t` is `s` after lanes left or entered use: only ports, the lanes' own objects, the step's verdict, the output and
what an event writes differ. -/
structure LaneWork (s t : State) : Prop where
  shape : ∃ od events ledger rings mem flows router step ports out,
    t = { s.relog od events ledger rings mem flows router with step := step, ports := ports, out := out }
  obj : SameObj s t linkKeys

theorem LaneWork.refl (s : State) : LaneWork s s := ⟨⟨_, _, _, _, _, _, _, _, _, _, rfl⟩, fun _ _ => rfl⟩

theorem LaneWork.trans {s t u : State} (h : LaneWork s t) (k : LaneWork t u) : LaneWork s u := by
  refine ⟨?_, h.obj.trans k.obj⟩
  obtain ⟨_, _, _, _, _, _, _, _, _, _, rfl⟩ := h.shape
  obtain ⟨a1, a2, a3, a4, a5, a6, a7, a8, a9, a10, rfl⟩ := k.shape
  exact ⟨a1, a2, a3, a4, a5, a6, a7, a8, a9, a10, rfl⟩

theorem LaneWork.foldl {α : Type} {f : State → α → State} (l : List α) (h : ∀ s, ∀ a ∈ l, LaneWork s (f s a)) (s : State) :
    LaneWork s (l.foldl f s) :=
  List.foldlRecOn l f (motive := fun t => LaneWork s t) (LaneWork.refl s) (fun t ht a ha => ht.trans (h t a ha))

theorem Sends.laneWork {s t : State} (h : Sends s t) : LaneWork s t := by
  obtain ⟨_, _, rfl⟩ := h.shape
  exact ⟨⟨_, _, _, _, _, _, _, _, _, _, rfl⟩, fun _ _ => rfl⟩

theorem eventKeys_sub_linkKeys {k : Nat} (h : k ∈ eventKeys) : k ∈ linkKeys :=
  List.mem_append_left _ (List.mem_cons_of_mem _ (List.mem_cons_of_mem _ h))

theorem oLinkState_mem_linkKeys {p : Nat} (h : p < 24) : oLinkState p ∈ linkKeys :=
  List.mem_append_right _ (List.mem_map_of_mem (List.mem_range.mpr h))

theorem Logs.laneWork {s t : State} (h : Logs s t) : LaneWork s t := by
  obtain ⟨_, _, _, _, _, _, _, e⟩ := h.shape
  exact ⟨⟨_, _, _, _, _, _, _, _, _, _, e⟩, h.sameObj.mono (fun _ q => eventKeys_sub_linkKeys q)⟩

theorem State.setPort_laneWork (s : State) (p : Nat) (x : PortSt) : LaneWork s (s.setPort p x) :=
  ⟨⟨_, _, _, _, _, _, _, _, _, _, rfl⟩, fun _ _ => rfl⟩

theorem State.setObj_laneWork (s : State) {k : Nat} (v : Nat) (h : k ∈ linkKeys) : LaneWork s (s.setObj k v) :=
  ⟨⟨_, _, _, _, _, _, _, _, _, _, rfl⟩, (SameObj.refl s _).setObj v h⟩

theorem State.poison_laneWork (s : State) (hold : Bool) : LaneWork s (s.poison hold) := by
  unfold State.poison
  split
  · exact ⟨⟨_, _, _, _, _, _, _, _, _, _, rfl⟩, fun _ _ => rfl⟩
  · exact LaneWork.refl s

theorem State.settleLink_laneWork (s : State) {p : Nat} (h : p < 24) : LaneWork s (s.settleLink p) := by
  unfold State.settleLink
  extract_lets x st
  split
  · exact s.setObj_laneWork _ (oLinkState_mem_linkKeys h)
  · split
    · exact s.setObj_laneWork _ (oLinkState_mem_linkKeys h)
    · exact LaneWork.refl s

theorem State.removeLanes_laneWork (s : State) {p : Nat} (h : p < 24) : LaneWork s (s.removeLanes p) :=
  (s.setPort_laneWork p _).trans (State.settleLink_laneWork _ h)

theorem State.reserveExceeded_laneWork (s : State) (p : Nat) (rx : Bool) : LaneWork s (s.reserveExceeded p rx) :=
  (((s.setObj_laneWork _ (by decide)).trans (State.setObj_laneWork _ _ (by decide))).trans
    (State.poison_laneWork _ true)).trans (State.raise_logs ..).laneWork

theorem State.judgeReserve_laneWork (s : State) (p : Nat) (rx : Bool) : LaneWork s (s.judgeReserve p rx) := by
  unfold State.judgeReserve
  split
  · extract_lets isOver x was t
    split
    · exact (s.setPort_laneWork p _).trans (State.reserveExceeded_laneWork ..)
    · exact s.setPort_laneWork p _
  · exact LaneWork.refl s

theorem State.judgeReserves_laneWork (s : State) : LaneWork s s.judgeReserves :=
  LaneWork.foldl _ (fun t p _ => (t.judgeReserve_laneWork p false).trans (State.judgeReserve_laneWork _ p true)) s

theorem State.loseLane_laneWork (s : State) {p : Nat} (h : p < 24) (rx : Bool) (n : Nat) : LaneWork s (s.loseLane p rx n) := by
  unfold State.loseLane
  extract_lets x was out t u v
  have h1 : LaneWork s t := s.setPort_laneWork p _
  have h2 : LaneWork t u := by
    refine LaneWork.trans ?_ (State.settleLink_laneWork _ h)
    split
    · exact (State.raiseWith_logs ..).laneWork
    · exact LaneWork.refl t
  have h3 : LaneWork u v := by
    show LaneWork u (if rx = true then u.sendReport p else u)
    split
    · exact (u.sendReport_sends p).laneWork
    · exact LaneWork.refl u
  have h4 := (h1.trans h2).trans h3
  split
  · exact h4
  · exact h4.trans (v.judgeReserve_laneWork p rx)

theorem LaneWork.power {s t : State} (h : LaneWork s t) : t.power = s.power := by
  obtain ⟨_, _, _, _, _, _, _, _, _, _, rfl⟩ := h.shape; rfl

end Sys2Proof.Machine

namespace Sys2Proof.Machine

/-! ### Re-initialisation -/

theorem State.requestWakes_obj (s : State) (ds : List Nat) (k : Nat) : (s.requestWakes ds).obj k = s.obj k := rfl

theorem State.requestWakes_portSt (s : State) (ds : List Nat) (p : Nat) : (s.requestWakes ds).portSt p = s.portSt p := rfl

theorem State.requestWakes_reinit (s : State) (ds : List Nat) :
    (s.requestWakes ds).power.reinit = s.power.reinit := rfl

theorem State.actReinit_of {s : State} {v : Nat} {f : Fn} (hf : fnOfCode v = some f)
    (h : s.obj oPowerState = 1 ∨ s.obj oPowerState = 2) :
    s.actReinit v = ((s.beginReinit v).resetFn f).requestWakes ((fnDomains f).filter (fun d => s.dom d == domCapped)) := by
  rw [State.actReinit, hf]
  exact if_pos h

theorem State.actReinit_refused {s : State} {v : Nat} {f : Fn} (hf : fnOfCode v = some f)
    (h1 : s.obj oPowerState ≠ 1) (h2 : s.obj oPowerState ≠ 2) : s.actReinit v = s.cmdFail oReinit abFunctionDown := by
  rw [State.actReinit, hf]
  exact if_neg (not_or.mpr ⟨h1, h2⟩)

theorem State.beginReinit_obj (s : State) (v k : Nat) : (s.beginReinit v).obj k = (s.cmdStart oReinit).obj k := rfl

theorem State.beginReinit_admitted (s : State) (v : Nat) : (s.beginReinit v).admitted = s.admitted := by
  simp only [State.admitted, State.planState, State.beginReinit_obj, s.cmdStart_sameObj oReinit oPlanState (by decide)]

theorem State.poison_obj (s : State) (hold : Bool) (k : Nat) : (s.poison hold).obj k = s.obj k := by
  unfold State.poison
  split <;> rfl

theorem State.poison_power (s : State) (hold : Bool) : (s.poison hold).power = s.power := by
  unfold State.poison
  split <;> rfl

theorem State.poison_shape (s : State) (hold : Bool) : ∃ x, s.poison hold = { s with step := x } := by
  unfold State.poison
  split
  · exact ⟨_, rfl⟩
  · exact ⟨s.step, rfl⟩

theorem State.poison_ports (s : State) (hold : Bool) : (s.poison hold).ports = s.ports := by
  unfold State.poison
  split <;> rfl

theorem State.poison_fault {s : State} (hold : Bool) (h : s.admitted = true) : (s.poison hold).step.fault = true := by
  rw [State.poison, if_pos h]

theorem State.clearFn_admitted (s : State) (f : Fn) (h : keyLost [.v] [f] oPlanState = false) :
    (s.clearFn f).admitted = s.admitted := by
  rw [State.admitted, State.planState, State.clearFn_obj_kept h (by decide)]
  rfl

/-- What a reset of the compute or the update function leaves, before its domains are woken. -/
theorem State.clearPoisoned_spec {s : State} {f : Fn} (h1 : keyLost [.v] [f] oPlanState = false)
    (h2 : keyLost [.v] [f] oReinit = false) (v : Nat) (ds : List Nat) :
    let u := (((s.beginReinit v).clearFn f).poison false).requestWakes ds
    u.power.reinit = some ⟨v, s.now⟩ ∧ u.obj oReinit = 0x10000 ∧
    (∀ k, keyLost [.v] [f] k = true → u.obj k = objDefault k) ∧ (s.admitted = true → u.step.fault = true) ∧ u.mem = s.mem := by
  refine ⟨?_, ?_, fun k hk => ?_, fun ha => ?_, ?_⟩
  · rw [State.requestWakes_reinit, State.poison_power, State.clearFn_power]
    rfl
  · rw [State.requestWakes_obj, State.poison_obj, State.clearFn_obj_kept h2 (by decide), State.beginReinit_obj,
      State.cmdStart_obj]
  · rw [State.requestWakes_obj, State.poison_obj, State.clearFn_obj_lost hk]
  · exact State.poison_fault _ (by rw [State.clearFn_admitted _ _ h1, State.beginReinit_admitted, ha])
  · obtain ⟨x, hx⟩ := ((s.beginReinit v).clearFn f).poison_shape false
    show (((s.beginReinit v).clearFn f).poison false).mem = s.mem
    rw [hx]
    exact (s.beginReinit v).clearFn_mem f

/-- The compute function's units after its reset. -/
theorem State.clearCompute_units (s : State) (ds : List Nat) :
    let u := ((s.clearFn .compute).poison false).requestWakes ds
    u.engines = [] ∧ u.cores = [] ∧ u.merges = [] := by
  obtain ⟨x, hx⟩ := (s.clearFn .compute).poison_shape false
  obtain ⟨od, h⟩ := State.clearCompute_shape (s.dropObjects [.v] [.compute]).dropRaw
  rw [hx, State.clearFn_compute, h]
  exact ⟨rfl, rfl, rfl⟩

theorem State.clearUpdate_units (s : State) (ds : List Nat) :
    let u := ((s.clearFn .update).poison false).requestWakes ds
    u.shards = [] ∧ u.sums = [] := by
  obtain ⟨x, hx⟩ := (s.clearFn .update).poison_shape false
  rw [hx]
  exact ⟨rfl, rfl⟩

/-- Whether a class C fault meets a plan or not, the lists that describe one are empty after it where they were before. -/
theorem State.faultC_lists {s : State} (hw : s.windows = []) (hf : s.flows = []) :
    s.faultC.windows = [] ∧ s.faultC.flows = [] := by
  have h : s.endPlan.windows = [] ∧ s.endPlan.flows = [] := by
    cases ha : s.admitted with
    | true =>
      obtain ⟨h1, -, h3, -, -⟩ := State.endPlan_emptied ha
      exact ⟨h3, h1⟩
    | false => rw [State.endPlan_of_not_admitted ha]; exact ⟨hw, hf⟩
  obtain ⟨od, rs, hs⟩ := s.endPlan.wakeGated_shape
  have hc : s.faultC = { s.endPlan with od := od, power := { s.endPlan.power with requests := rs } } := hs
  rw [hc]
  exact h

/-- An object of the fabric at its default stays there through a class C fault. -/
theorem State.faultC_default {s : State} {k : Nat} (hk : keyLost [.v] [.fabric] k = true) (h : s.obj k = objDefault k) :
    s.faultC.obj k = objDefault k := by
  by_cases hm : k ∈ faultCKeys
  · have honly : ∀ k ∈ faultCKeys, keyLost [.v] [.fabric] k = true → k = oFlowsOpen := by decide +kernel
    cases honly k hm hk
    rw [State.faultC, State.classC, s.endPlan.wakeGated_sameObj _ (by decide)]
    cases ha : s.admitted with
    | true =>
      obtain ⟨-, -, -, -, h5⟩ := State.endPlan_emptied ha
      rw [h5]
      decide +kernel
    | false => rw [State.endPlan_of_not_admitted ha, h]
  · rw [s.faultC_sameObj k hm, h]

theorem State.clearFabric_lists (s : State) :
    (s.clearFn .fabric).windows = [] ∧ (s.clearFn .fabric).flows = [] ∧ (s.clearFn .fabric).txLinks = [] ∧
    (s.clearFn .fabric).rxLinks = [] := ⟨rfl, rfl, rfl, rfl⟩

/-- What the fabric's reset leaves. -/
theorem State.resetFabric_spec (s : State) (v : Nat) (ds : List Nat) :
    let u := ((s.beginReinit v).clearFn .fabric).faultC.requestWakes ds
    u.power.reinit = some ⟨v, s.now⟩ ∧ u.obj oReinit = 0x10000 ∧ u.windows = [] ∧ u.flows = [] ∧ u.txLinks = [] ∧
    u.rxLinks = [] ∧ u.admitted = false ∧ (∀ k, keyLost [.v] [.fabric] k = true → u.obj k = objDefault k) := by
  obtain ⟨hw, hf, ht, hr⟩ := (s.beginReinit v).clearFabric_lists
  have hp : ((s.beginReinit v).clearFn .fabric).power.reinit = some ⟨v, s.now⟩ := by rw [State.clearFn_power]; rfl
  have ho : ((s.beginReinit v).clearFn .fabric).obj oReinit = 0x10000 := by
    rw [State.clearFn_obj_kept (by decide +kernel) (by decide), State.beginReinit_obj, State.cmdStart_obj]
  have hl : ∀ k, keyLost [.v] [.fabric] k = true → ((s.beginReinit v).clearFn .fabric).obj k = objDefault k :=
    fun k hk => State.clearFn_obj_lost hk
  generalize (s.beginReinit v).clearFn .fabric = w at hw hf ht hr hp ho hl
  obtain ⟨hw', hf'⟩ := State.faultC_lists hw hf
  obtain ⟨-, -, -, -, htx, hrx, -, ⟨rs, hpw⟩, -⟩ := w.faultC_frame
  refine ⟨?_, ?_, hw', hf', htx.trans ht, hrx.trans hr, w.faultC_admitted, fun k hk => ?_⟩
  · rw [State.requestWakes_reinit, hpw, hp]
  · rw [State.requestWakes_obj, w.faultC_sameObj _ (by decide), ho]
  · rw [State.requestWakes_obj]
    exact State.faultC_default hk (hl k hk)

/-! ### No lane in use -/

/-- Every entry of the bank of ports has no lane in use. -/
def State.noLanes (s : State) : Prop := ∀ e ∈ s.ports, e.2.useTx = 0 ∧ e.2.useRx = 0

theorem Bank.mem_set {α : Type} [DecidableEq α] {m : Bank α} {d : α} {k : Nat} {v : α} {e : Nat × α}
    (h : e ∈ Bank.set m d k v) : e = (k, v) ∨ e ∈ m := by
  unfold Bank.set at h
  split at h
  · exact .inr (List.mem_filter.mp h).1
  · exact Bank.mem_put h

/-- A value read from a bank is one that it holds, or the default. -/
theorem Bank.get_mem {α : Type} (m : Bank α) (d : α) (k : Nat) : Bank.get m d k = d ∨ ∃ e ∈ m, e.2 = Bank.get m d k := by
  induction m with
  | nil => exact .inl rfl
  | cons e m ih =>
    obtain ⟨j, v⟩ := e
    unfold Bank.get
    split
    · exact .inr ⟨(j, v), List.mem_cons_self .., rfl⟩
    · exact ih.imp id (fun ⟨e, he, h⟩ => ⟨e, List.mem_cons_of_mem _ he, h⟩)

theorem State.noLanes.portSt {s : State} (h : s.noLanes) (p : Nat) : (s.portSt p).useTx = 0 ∧ (s.portSt p).useRx = 0 := by
  obtain hd | ⟨e, he, hv⟩ := Bank.get_mem s.ports PortSt.init p
  · rw [State.portSt, hd]
    exact ⟨rfl, rfl⟩
  · rw [State.portSt, ← hv]
    exact h e he

theorem State.noLanes.setPort {s : State} (h : s.noLanes) (p : Nat) {x : PortSt} (hx : x.useTx = 0 ∧ x.useRx = 0) :
    (s.setPort p x).noLanes := by
  intro e he
  obtain rfl | he := Bank.mem_set he
  · exact hx
  · exact h e he

theorem State.noLanes.of_ports {s t : State} (h : s.noLanes) (hp : t.ports = s.ports) : t.noLanes := by
  intro e he
  rw [hp] at he
  exact h e he

theorem State.clearOptics_noLanes (s : State) : s.clearOptics.noLanes := by
  intro e he
  obtain ⟨e', -, rfl⟩ := List.mem_map.mp (List.mem_filter.mp he).1
  exact ⟨rfl, rfl⟩

theorem State.bump_ports (s : State) (k : Nat) : (s.bump k).ports = s.ports := rfl

theorem State.reserveExceeded_eq (s : State) (p : Nat) (rx : Bool) :
    ∃ w, s.reserveExceeded p rx =
      (((s.bump oReserveExceededCount).setObj oLastReserveExceeded w).poison true).raise .linkReserveExceeded := ⟨_, rfl⟩

theorem State.reserveExceeded_ports (s : State) (p : Nat) (rx : Bool) : (s.reserveExceeded p rx).ports = s.ports := by
  obtain ⟨w, h⟩ := s.reserveExceeded_eq p rx
  rw [h, (State.raise_logs _ _).ports, State.poison_ports, State.setObj_ports, State.bump_ports]

theorem State.judgeReserve_noLanes {s : State} (h : s.noLanes) (p : Nat) (rx : Bool) : (s.judgeReserve p rx).noLanes := by
  unfold State.judgeReserve
  split
  · extract_lets isOver x was t
    have ht : t.noLanes := h.setPort p (by cases rx <;> exact h.portSt p)
    split
    · exact ht.of_ports (State.reserveExceeded_ports ..)
    · exact ht
  · exact h

theorem State.judgeReserves_noLanes {s : State} (h : s.noLanes) : s.judgeReserves.noLanes :=
  List.foldlRecOn (motive := fun (t : State) => t.noLanes) _ _ h
    (fun _ ht p _ => State.judgeReserve_noLanes (State.judgeReserve_noLanes ht p false) p true)

theorem State.judgeReserve_sameObj (s : State) (p : Nat) (rx : Bool) : SameObj s (s.judgeReserve p rx) laneKeys := by
  unfold State.judgeReserve
  split
  · extract_lets isOver x was t
    have ht : SameObj s t laneKeys := fun _ _ => rfl
    split
    · refine ht.trans (SameObj.trans ?_ (SameObj.mono (State.raise_logs ..).sameObj (by decide)))
      intro k hk
      rw [State.poison_obj]
      exact ((SameObj.refl t laneKeys).setObj (k := oReserveExceededCount) _ (by decide)).setObj (k := oLastReserveExceeded)
        _ (by decide) k hk
    · exact ht
  · exact SameObj.refl s _

theorem State.judgeReserves_sameObj (s : State) : SameObj s s.judgeReserves laneKeys :=
  SameObj.foldl _ (fun t p _ => (t.judgeReserve_sameObj p false).trans (State.judgeReserve_sameObj _ p true)) s

theorem State.loseAllLanes_laneWork (s : State) : LaneWork s s.loseAllLanes := by
  refine LaneWork.foldl _ (fun t e he => ?_) s
  have hp : e.1 < 24 := by
    have hall : ∀ e ∈ allLanes, e.1 < 24 := by decide +kernel
    exact hall e he
  extract_lets u
  have h1 : LaneWork t u := by
    show LaneWork t (if _ then _ else _)
    split
    · exact t.loseLane_laneWork hp ..
    · exact LaneWork.refl t
  split
  · exact h1.trans (u.loseLane_laneWork hp ..)
  · exact h1

/-- What the optics' reset leaves. -/
theorem State.resetOptics_spec (s : State) (v : Nat) (ds : List Nat) :
    let u := ((s.beginReinit v).loseAllLanes.clearFn .optics).judgeReserves.requestWakes ds
    u.power.reinit = some ⟨v, s.now⟩ ∧ u.obj oReinit = 0x10000 ∧
    (∀ p, (u.portSt p).useTx = 0 ∧ (u.portSt p).useRx = 0) ∧
    (∀ k, keyLost [.v] [.optics] k = true → u.obj k = objDefault k) := by
  have hw := (s.beginReinit v).loseAllLanes_laneWork
  have hp : ((s.beginReinit v).loseAllLanes.clearFn .optics).power.reinit = some ⟨v, s.now⟩ := by
    rw [State.clearFn_power, hw.power]
    rfl
  have ho : ((s.beginReinit v).loseAllLanes.clearFn .optics).obj oReinit = 0x10000 := by
    rw [State.clearFn_obj_kept (by decide +kernel) (by decide), hw.obj _ (by decide), State.beginReinit_obj,
      State.cmdStart_obj]
  have hl : ∀ k, keyLost [.v] [.optics] k = true →
      ((s.beginReinit v).loseAllLanes.clearFn .optics).obj k = objDefault k := fun k hk => State.clearFn_obj_lost hk
  have hn : ((s.beginReinit v).loseAllLanes.clearFn .optics).noLanes := State.clearOptics_noLanes _
  generalize (s.beginReinit v).loseAllLanes.clearFn .optics = w at hp ho hl hn
  refine ⟨?_, ?_, fun p => ?_, fun k hk => ?_⟩
  · rw [State.requestWakes_reinit, w.judgeReserves_laneWork.power, hp]
  · rw [State.requestWakes_obj, w.judgeReserves_sameObj _ (by decide), ho]
  · rw [State.requestWakes_portSt]
    exact (State.judgeReserves_noLanes hn).portSt p
  · have hkept : ∀ k ∈ laneKeys, keyLost [.v] [.optics] k = false := by decide +kernel
    refine (State.requestWakes_obj _ _ k).trans ((w.judgeReserves_sameObj k (fun hm => ?_)).trans (hl k hk))
    exact Bool.false_ne_true ((hkept k hm).symm.trans hk)

theorem State.resetFn_compute (s : State) : s.resetFn .compute = (s.clearFn .compute).poison false := rfl
theorem State.resetFn_update (s : State) : s.resetFn .update = (s.clearFn .update).poison false := rfl
theorem State.resetFn_fabric (s : State) : s.resetFn .fabric = (s.clearFn .fabric).faultC := rfl
theorem State.resetFn_optics (s : State) : s.resetFn .optics = (s.loseAllLanes.clearFn .optics).judgeReserves := rfl

/-- A REINIT of code `v`, which the action of REINIT answers. -/
theorem Does.reinit {c : Instr} {s : State} {q : WReq} {v : Byte} {n : Nat} {P : State → Prop}
    (hc : exec c s = .next (s.quiet.write q oReinit [v])) (hn : v.toNat = n) (h : P (s.quiet.actReinit n)) :
    Does c s q oReinit [v] P :=
  Does.action (t := s.quiet.actReinit n) hc (by decide) (by decide) (by rw [State.act_reinit, ← hn]; rfl) h

/-- The domains of the function under re-initialisation. -/
def reinitDomains (r : Reinit) : List Nat := match fnOfCode r.fn with | some f => fnDomains f | none => []

/-- No domain of the function is switched off by its current limit or still waking. -/
def State.reinitReady (s : State) (r : Reinit) : Bool :=
  (reinitDomains r).all (fun d => s.dom d != domCapped && s.dom d != domWaking)

theorem State.reinitReady_any (s : State) (r : Reinit) :
    (reinitDomains r).any (fun d => s.dom d == domCapped || s.dom d == domWaking) = !s.reinitReady r := by
  rw [State.reinitReady, List.not_all_eq_any_not]
  exact congrArg _ (funext fun d => by simp only [bne, Bool.not_and, Bool.not_not])

theorem State.functionReinit_ends {s : State} {r : Reinit} (hr : s.power.reinit = some r) (hd : s.reinitReady r = true) :
    Gives .functionReinit s (fun t => t.power.reinit = none ∧ t.obj oReinit = 0x20000 ∧
      t.obj oReinitCount = (s.obj oReinitCount + 1) % 2 ^ 32 ∧
      SameObj s t ([oReinit, oReinitCount, oLastReinit] ++ eventKeys)) := by
  have hany : ¬(reinitDomains r).any (fun d => s.quiet.dom d == domCapped || s.quiet.dom d == domWaking) = true := by
    rw [State.reinitReady_any]
    exact fun h => Bool.false_ne_true ((congrArg (!·) hd).symm.trans h)
  obtain ⟨n, hx⟩ : ∃ n, exec .functionReinit s =
      .next ((((s.quiet.endReinit.setObj oLastReinit n).bump oReinitCount).raise .functionReinit).cmdDone oReinit) := by
    refine ⟨r.fn + satNat 16 ((s.now - r.startedAt) / 1000) * 2 ^ 16 + s.bell.beat % 2 ^ 32 * 2 ^ 32, ?_⟩
    show execFunctionReinit s = _
    rw [execFunctionReinit, show s.quiet.power.reinit = some r from hr]
    exact if_neg hany
  refine ⟨_, hx, ?_⟩
  generalize ht : (s.quiet.endReinit.setObj oLastReinit n).bump oReinitCount = t
  have hraise := t.raise_logs .functionReinit
  have hdone := (t.raise .functionReinit).cmdDone_logs oReinit
  have hsame : SameObj s t [oReinitCount, oLastReinit] := by
    rw [← ht]
    exact SameObj.setObj (SameObj.setObj (t := s.quiet.endReinit) (fun _ _ => rfl) _ (by decide)) _ (by decide)
  refine ⟨?_, State.cmdDone_obj _ _ (by decide), ?_, ?_⟩
  · rw [hdone.power, State.setObj_power, hraise.power, ← ht]
    rfl
  · rw [State.cmdDone_sameObj _ oReinit _ (by decide), hraise.obj _ (by decide), ← ht, State.bump_obj_self,
      State.obj_setObj_ne _ _ (by decide)]
    rfl
  · exact ((hsame.mono (by decide)).trans (SameObj.mono hraise.sameObj (by decide))).trans
      (SameObj.mono (State.cmdDone_sameObj _ oReinit) (by decide))

theorem State.functionReinit_waits {s : State} (hd : ∀ r, s.power.reinit = some r → s.reinitReady r = false) :
    exec .functionReinit s = .next s.quiet := by
  show execFunctionReinit s = _
  unfold execFunctionReinit
  extract_lets t
  split
  · next r hr =>
    refine if_pos ?_
    show (reinitDomains r).any (fun d => s.dom d == domCapped || s.dom d == domWaking) = true
    rw [State.reinitReady_any, hd r hr]
    rfl
  · rfl

/-- Settles O20. -/
theorem reinitialisation : Obligations.Reinitialisation := by
  unfold Obligations.Reinitialisation
  refine ⟨fun q s h => ?_, fun q s h => ?_, fun q s h => ?_, fun q s h => ?_, fun q s h1 h2 => ⟨?_, ?_, ?_, ?_⟩,
    fun r s hr hd => ?_, fun s hd => ?_⟩
  · refine Does.reinit (n := 1) rfl rfl ?_
    rw [State.actReinit_of (s := s.quiet) (f := .compute) rfl h, State.resetFn_compute]
    obtain ⟨hp, ho, hl, ha, hm⟩ := State.clearPoisoned_spec (s := s.quiet) (f := .compute) (by decide +kernel) (by decide +kernel) 1
      ((fnDomains .compute).filter (fun d => s.quiet.dom d == domCapped))
    obtain ⟨he, hc, hg⟩ := (s.quiet.beginReinit 1).clearCompute_units
      ((fnDomains .compute).filter (fun d => s.quiet.dom d == domCapped))
    exact ⟨hp, ho, he, hc, hg, hl, ha, SameMem.of_mem hm⟩
  · refine Does.reinit (n := 4) rfl rfl ?_
    rw [State.actReinit_of (s := s.quiet) (f := .update) rfl h, State.resetFn_update]
    obtain ⟨hp, ho, hl, ha, hm⟩ := State.clearPoisoned_spec (s := s.quiet) (f := .update) (by decide +kernel) (by decide +kernel) 4
      ((fnDomains .update).filter (fun d => s.quiet.dom d == domCapped))
    obtain ⟨hs, hc⟩ := (s.quiet.beginReinit 4).clearUpdate_units
      ((fnDomains .update).filter (fun d => s.quiet.dom d == domCapped))
    exact ⟨hp, ho, hs, hc, hl, ha, SameMem.of_mem hm⟩
  · refine Does.reinit (n := 2) rfl rfl ?_
    rw [State.actReinit_of (s := s.quiet) (f := .fabric) rfl h, State.resetFn_fabric]
    exact State.resetFabric_spec s.quiet 2 _
  · refine Does.reinit (n := 3) rfl rfl ?_
    rw [State.actReinit_of (s := s.quiet) (f := .optics) rfl h, State.resetFn_optics]
    exact State.resetOptics_spec s.quiet 3 _
  · exact Does.reinit (n := 1) rfl rfl (State.actReinit_refused (s := s.quiet) (f := .compute) rfl h1 h2)
  · exact Does.reinit (n := 2) rfl rfl (State.actReinit_refused (s := s.quiet) (f := .fabric) rfl h1 h2)
  · exact Does.reinit (n := 3) rfl rfl (State.actReinit_refused (s := s.quiet) (f := .optics) rfl h1 h2)
  · exact Does.reinit (n := 4) rfl rfl (State.actReinit_refused (s := s.quiet) (f := .update) rfl h1 h2)
  · exact State.functionReinit_ends hr hd
  · exact State.functionReinit_waits hd

end Sys2Proof.Machine

namespace Sys2Proof.Machine

/-! ### The life cycle -/

theorem State.cmdDone_blob (s : State) (k j : Nat) : (s.cmdDone k).blob j = s.blob j :=
  State.blob_of_blobs (s.cmdDone_logs k).blobs j

theorem State.cmdDone_power (s : State) (k : Nat) : (s.cmdDone k).power = s.power := by
  rw [(s.cmdDone_logs k).power, State.setObj_power]

theorem State.newIdentity_obj (s : State) (k : Nat) : s.newIdentity.obj k = s.obj k := rfl

theorem State.actLcAdvance_provision {s : State} (h : s.planHeld = false) (hl : s.obj oLcState = 0) :
    s.actLcAdvance 1 = (s.newIdentity.setObj oLcState 1).cmdDone oLcAdvance := by
  rw [State.actLcAdvance, if_neg (Bool.eq_false_iff.mp h), if_pos ⟨rfl, hl⟩]

theorem State.actLcAdvance_deploy {s : State} (h : s.planHeld = false) (hl : s.obj oLcState = 1)
    (hc : (s.blob oIdCertChain).isEmpty = false) :
    s.actLcAdvance 2 = (s.setObj oLcState 2).cmdDone oLcAdvance := by
  rw [State.actLcAdvance, if_neg (Bool.eq_false_iff.mp h), if_neg (by simp), if_pos ⟨rfl, hl, hc⟩]

theorem State.actLcAdvance_refused {s : State} {v : Nat}
    (h1 : s.planHeld = false → ¬(v = 1 ∧ s.obj oLcState = 0))
    (h2 : s.planHeld = false → ¬(v = 2 ∧ s.obj oLcState = 1 ∧ (s.blob oIdCertChain).isEmpty = false)) :
    s.actLcAdvance v = s.cmdFail oLcAdvance (if s.planHeld = true then abPlanAdmitted else abLifeCycle) := by
  rw [State.actLcAdvance]
  cases h : s.planHeld with
  | true => rfl
  | false =>
    rw [if_neg Bool.false_ne_true, if_neg (h1 h), if_neg (h2 h)]
    rfl

theorem State.newIdentity_spec {s : State} :
    let u := (s.newIdentity.setObj oLcState 1).cmdDone oLcAdvance
    u.obj oLcState = 1 ∧ u.obj oLcAdvance = 0x20000 ∧ u.power.identity = some s.power.identities ∧
    u.blob oIdPublicKey = identityPoint s.power.identities ∧ SameObj s u ([oLcState, oLcAdvance] ++ eventKeys) := by
  have hsame := (s.newIdentity.setObj oLcState 1).cmdDone_sameObj oLcAdvance
  refine ⟨?_, State.cmdDone_obj _ _ (by decide), ?_, ?_, ?_⟩
  · rw [hsame _ (by decide), State.obj_setObj_self]
  · rw [State.cmdDone_power, State.setObj_power]
    rfl
  · rw [State.cmdDone_blob, State.setObj_blob, State.newIdentity, State.blob_setBlob, if_pos rfl]
  · refine SameObj.trans ?_ (hsame.mono (by decide))
    exact SameObj.setObj (t := s.newIdentity) (fun _ _ => rfl) 1 (by decide)

/-- The branches of an LC_REQUEST (Table 17-8). -/
theorem State.actLcRequest_planned {s : State} {t : Bytes} (ht : fieldLe t 4 1 ≠ 4) (h : s.planHeld = true) :
    s.actLcRequest t = s.cmdFail oLcRequest abPlanAdmitted := by
  rw [State.actLcRequest]
  exact if_pos ⟨ht, h⟩

theorem State.actLcRequest_diag {s : State} {t : Bytes} (ht : fieldLe t 4 1 = 3) (h : s.planHeld = false)
    (hl : s.obj oLcState = 2) :
    s.actLcRequest t = if s.tokenValid t then (s.nextNonce.setObj oLcState 3).cmdDone oLcRequest
      else s.cmdFail oLcRequest abSignature := by
  simp only [State.actLcRequest, ht, hl, h]
  rfl

theorem State.actLcRequest_deployed {s : State} {t : Bytes} (ht : fieldLe t 4 1 = 2) (h : s.planHeld = false)
    (hl : s.obj oLcState = 3) :
    s.actLcRequest t = (s.nextNonce.clearRaw.setObj oLcState 2).cmdDone oLcRequest := by
  simp only [State.actLcRequest, ht, hl, h]
  rfl

theorem State.actLcRequest_retire {s : State} {t : Bytes} (ht : fieldLe t 4 1 = 4) (h1 : 1 ≤ s.obj oLcState)
    (h3 : s.obj oLcState ≤ 3) :
    s.actLcRequest t = if s.tokenValid t then s.nextNonce.retire.cmdDone oLcRequest
      else s.cmdFail oLcRequest abSignature := by
  simp only [State.actLcRequest, ht, h1, h3]
  rfl

theorem State.actLcRequest_unfit {s : State} {t : Bytes} (h : fieldLe t 4 1 = 4 ∨ s.planHeld = false)
    (hn : ¬(fieldLe t 4 1 = 3 ∧ s.obj oLcState = 2 ∨ fieldLe t 4 1 = 2 ∧ s.obj oLcState = 3 ∨
      fieldLe t 4 1 = 4 ∧ 1 ≤ s.obj oLcState ∧ s.obj oLcState ≤ 3)) :
    s.actLcRequest t = s.cmdFail oLcRequest abLifeCycle := by
  obtain ⟨h3, h2, h4⟩ : _ ∧ _ ∧ _ := by simpa only [not_or] using hn
  rw [State.actLcRequest]
  refine (if_neg ?_).trans ((if_neg h3).trans ((if_neg h2).trans (if_neg h4)))
  rintro ⟨hne, hp⟩
  rcases h with h | h
  · exact hne h
  · rw [hp] at h
    exact absurd h (by decide)

theorem State.nextNonce_obj (s : State) {k : Nat} (h : k ≠ oLcNonce) : s.nextNonce.obj k = s.obj k := by
  rw [State.nextNonce, State.obj_setObj_ne _ _ h]
  rfl

theorem State.nextNonce_nonce (s : State) : s.nextNonce.obj oLcNonce = (Config.lcNonce (s.power.nonces + 1)).toNat := by
  rw [State.nextNonce, State.obj_setObj_self]

theorem State.nextNonce_nonces (s : State) : s.nextNonce.power.nonces = s.power.nonces + 1 := rfl

theorem State.clearRaw_obj (s : State) {k : Nat} (h : k ≠ oSteStart) : s.clearRaw.obj k = s.obj k := by
  rw [State.clearRaw, State.obj_setObj_ne _ _ h]
  rfl

theorem State.clearRaw_power (s : State) : s.clearRaw.power = s.power := rfl

theorem State.clearRaw_blobs (s : State) : s.clearRaw.blob oSteProgram = [] ∧ s.clearRaw.blob oSteOutput = [] := by
  simp only [State.clearRaw, State.setObj_blob, State.blob_setBlob]
  exact ⟨rfl, rfl⟩

/-- A valid token of TARGET 3 opens DIAG. -/
theorem State.openDiag_spec (s : State) :
    let u := (s.nextNonce.setObj oLcState 3).cmdDone oLcRequest
    u.obj oLcState = 3 ∧ u.obj oLcRequest = 0x20000 ∧ u.power.nonces = s.power.nonces + 1 ∧
    u.obj oLcNonce = (Config.lcNonce (s.power.nonces + 1)).toNat ∧
    SameObj s u ([oLcState, oLcRequest, oLcNonce] ++ eventKeys) := by
  have hsame := (s.nextNonce.setObj oLcState 3).cmdDone_sameObj oLcRequest
  refine ⟨?_, State.cmdDone_obj _ _ (by decide), ?_, ?_, ?_⟩
  · rw [hsame _ (by decide), State.obj_setObj_self]
  · rw [State.cmdDone_power, State.setObj_power, State.nextNonce_nonces]
  · rw [hsame _ (by decide), State.obj_setObj_ne _ _ (by decide), State.nextNonce_nonce]
  · refine SameObj.trans (SameObj.setObj (t := s.nextNonce) (fun k hk => s.nextNonce_obj ?_) 3 (by decide)) (hsame.mono (by decide))
    rintro rfl
    exact hk (by decide)

/-- A token of TARGET 2 closes DIAG and clears the raw program. -/
theorem State.closeDiag_spec (s : State) :
    let u := (s.nextNonce.clearRaw.setObj oLcState 2).cmdDone oLcRequest
    u.obj oLcState = 2 ∧ u.obj oLcRequest = 0x20000 ∧ u.blob oSteProgram = [] ∧ u.blob oSteOutput = [] ∧
    u.power.nonces = s.power.nonces + 1 ∧ u.obj oLcNonce = (Config.lcNonce (s.power.nonces + 1)).toNat ∧
    SameObj s u ([oLcState, oLcRequest, oLcNonce, oSteStart] ++ eventKeys) := by
  have hsame := (s.nextNonce.clearRaw.setObj oLcState 2).cmdDone_sameObj oLcRequest
  obtain ⟨hp, ho⟩ := s.nextNonce.clearRaw_blobs
  refine ⟨?_, State.cmdDone_obj _ _ (by decide), ?_, ?_, ?_, ?_, ?_⟩
  · rw [hsame _ (by decide), State.obj_setObj_self]
  · rw [State.cmdDone_blob, State.setObj_blob, hp]
  · rw [State.cmdDone_blob, State.setObj_blob, ho]
  · rw [State.cmdDone_power, State.setObj_power, State.clearRaw_power, State.nextNonce_nonces]
  · rw [hsame _ (by decide), State.obj_setObj_ne _ _ (by decide), State.clearRaw_obj _ (by decide), State.nextNonce_nonce]
  · refine SameObj.trans (SameObj.setObj (t := s.nextNonce.clearRaw) (fun k hk => ?_) 2 (by decide)) (hsame.mono (by decide))
    have hne : ∀ j ∈ [oLcState, oLcRequest, oLcNonce, oSteStart] ++ eventKeys, k ≠ j := by
      rintro j hj rfl
      exact hk hj
    rw [State.clearRaw_obj _ (hne _ (by decide)), State.nextNonce_obj _ (hne _ (by decide))]

theorem State.endPlan_wakeGated_planState (s : State) : s.endPlan.wakeGated.admitted = false := s.faultC_admitted

theorem State.dropIdentity_obj (s : State) (k : Nat) : s.dropIdentity.obj k = s.obj k := rfl

theorem State.dropIdentity_nonces (s : State) : s.dropIdentity.power.nonces = s.power.nonces := rfl

theorem State.admitted_congr {s t : State} (h : t.obj oPlanState = s.obj oPlanState) : t.admitted = s.admitted := by
  rw [State.admitted, State.planState, h]
  rfl

/-- A valid token of TARGET 4 retires the module. -/
theorem State.retire_spec (s : State) :
    let u := s.nextNonce.retire.cmdDone oLcRequest
    u.obj oLcState = 4 ∧ u.obj oLcRequest = 0x20000 ∧ u.power.identity = none ∧ u.blob oIdPublicKey = [] ∧
    u.admitted = false ∧ u.power.nonces = s.power.nonces + 1 ∧
    u.obj oLcNonce = (Config.lcNonce (s.power.nonces + 1)).toNat := by
  have hsame := s.nextNonce.retire.cmdDone_sameObj oLcRequest
  obtain ⟨-, -, -, -, -, -, -, ⟨rs, hpw⟩, -⟩ := s.nextNonce.faultC_frame
  refine ⟨?_, State.cmdDone_obj _ _ (by decide), ?_, ?_, ?_, ?_, ?_⟩
  · rw [hsame _ (by decide), State.retire, State.obj_setObj_self]
  · rw [State.cmdDone_power, State.retire, State.setObj_power]
    rfl
  · rw [State.cmdDone_blob, State.retire, State.setObj_blob, State.dropIdentity, State.blob_setBlob, if_pos rfl]
  · rw [State.admitted_congr (hsame _ (by decide)), State.retire,
      State.admitted_congr (State.obj_setObj_ne _ _ (by decide)), State.admitted_congr (State.dropIdentity_obj _ _),
      State.endPlan_wakeGated_planState]
  · rw [State.cmdDone_power, State.retire, State.setObj_power, State.dropIdentity_nonces]
    show s.nextNonce.faultC.power.nonces = _
    rw [hpw]
    rfl
  · rw [hsame _ (by decide), State.retire, State.obj_setObj_ne _ _ (by decide), State.dropIdentity_obj]
    show s.nextNonce.faultC.obj oLcNonce = _
    rw [s.nextNonce.faultC_sameObj _ (by decide), State.nextNonce_nonce]

theorem State.putBytes_lcRequest (s : State) (t : Bytes) : s.putBytes oLcRequest t = (s.actLcRequest t, none) := by
  unfold State.putBytes
  rw [if_neg (by decide), if_neg (by decide), if_neg (by decide), if_pos rfl]

/-- An LC_REQUEST, which its action answers. -/
theorem Does.lcRequest {c : Instr} {s : State} {q : WReq} {t : Bytes} {P : State → Prop}
    (hc : exec c s = .next (s.quiet.write q oLcRequest t)) (h : P (s.quiet.actLcRequest t)) : Does c s q oLcRequest t P :=
  Does.bytes hc (by decide) (by decide) (s.quiet.putBytes_lcRequest t) h

/-- An LC_ADVANCE to the value `v`. -/
theorem Does.lcAdvance {c : Instr} {s : State} {q : WReq} {v : Byte} {n : Nat} {P : State → Prop}
    (hc : exec c s = .next (s.quiet.write q oLcAdvance [v])) (hn : v.toNat = n) (h : P (s.quiet.actLcAdvance n)) :
    Does c s q oLcAdvance [v] P :=
  Does.action (t := s.quiet.actLcAdvance n) hc (by decide) (by decide) (by rw [State.act_lcAdvance, ← hn]; rfl) h

/-- Settles O21. -/
theorem lifeCycle : Obligations.LifeCycle := by
  unfold Obligations.LifeCycle
  refine ⟨⟨fun q s h hl => ?_, fun q s h hl hc => ?_, fun q t s ht h hl hv => ?_, fun q t s ht h hl => ?_,
    fun q t s ht h1 h3 hv => ?_⟩, fun q s h => ?_, fun q s h => ?_, fun q t c s hc => ?_⟩
  · refine Does.lcAdvance (n := 1) rfl rfl ?_
    rw [State.actLcAdvance_provision (s := s.quiet) h hl]
    exact State.newIdentity_spec (s := s.quiet)
  · exact Does.lcAdvance (n := 2) rfl rfl (State.actLcAdvance_deploy (s := s.quiet) h hl hc)
  · refine Does.lcRequest rfl ?_
    rw [State.actLcRequest_diag (s := s.quiet) ht h hl, if_pos (show s.quiet.tokenValid t = true from hv)]
    exact s.quiet.openDiag_spec
  · refine Does.lcRequest rfl ?_
    rw [State.actLcRequest_deployed (s := s.quiet) ht h hl]
    exact s.quiet.closeDiag_spec
  · refine Does.lcRequest rfl ?_
    rw [State.actLcRequest_retire (s := s.quiet) ht h1 h3, if_pos (show s.quiet.tokenValid t = true from hv)]
    exact s.quiet.retire_spec
  · refine Does.lcAdvance (n := 1) rfl rfl (State.actLcAdvance_refused (s := s.quiet) (fun hp => ?_) (fun _ => by simp))
    exact fun ⟨_, hl⟩ => (h.resolve_left (Bool.eq_false_iff.mp hp)) hl
  · refine Does.lcAdvance (n := 2) rfl rfl (State.actLcAdvance_refused (s := s.quiet) (fun _ => by simp) (fun hp => ?_))
    rintro ⟨-, hl, hc⟩
    rcases h.resolve_left (Bool.eq_false_iff.mp hp) with h | h
    · exact h hl
    · exact Bool.false_ne_true (hc.symm.trans h)
  · have hx : exec c s = .next (s.quiet.write q oLcRequest t) := by
      simp only [List.mem_cons, List.not_mem_nil, or_false] at hc
      rcases hc with rfl | rfl | rfl <;> rfl
    refine ⟨fun ht hp => Does.lcRequest hx (State.actLcRequest_planned (s := s.quiet) ht hp),
      fun h hn => Does.lcRequest hx (State.actLcRequest_unfit (s := s.quiet) h hn), fun h hv => Does.lcRequest hx ?_⟩
    have hv' : ¬s.quiet.tokenValid t = true := Bool.eq_false_iff.mp hv
    rcases h with ⟨ht, hl, hp⟩ | ⟨ht, h1, h3⟩
    · exact (State.actLcRequest_diag (s := s.quiet) ht hp hl).trans (if_neg hv')
    · exact (State.actLcRequest_retire (s := s.quiet) ht h1 h3).trans (if_neg hv')

end Sys2Proof.Machine

namespace Sys2Proof.Machine

/-! ### The boot ROM -/

theorem State.wakeAfterReset_shape (s : State) :
    ∃ rs, s.wakeAfterReset = s.setPower { s.power with requests := rs } := by
  unfold State.wakeAfterReset
  split
  · exact ⟨_, rfl⟩
  · exact ⟨s.power.requests, rfl⟩

/-- The image runs: its digest and version shown, wakes asked for after a warm reset. -/
def State.imageRuns (s : State) : State :=
  let t := ((s.setPower { s.power with boot := .image }).setObj oFwBoot 0).setBlob oFwRunningDigest
    (natLe 48 s.power.flash.digest)
  (t.setObj oFirmwareVersion s.power.flash.version).wakeAfterReset

/-- The recovery loader runs. -/
def State.recoveryRuns (s : State) : State :=
  ((s.setPower { s.power with boot := .recovery }).setObj oFwBoot 1).setBlob oFwRunningDigest (zeros 48)

theorem State.imageRuns_power (s : State) :
    s.imageRuns.power.boot = .image ∧ s.imageRuns.power.flash = s.power.flash ∧
    s.imageRuns.power.copying = s.power.copying ∧ s.imageRuns.mem = s.mem := by
  obtain ⟨rs, h⟩ := State.wakeAfterReset_shape
    ((((s.setPower { s.power with boot := .image }).setObj oFwBoot 0).setBlob oFwRunningDigest
    (natLe 48 s.power.flash.digest)).setObj oFirmwareVersion s.power.flash.version)
  rw [State.imageRuns, h]
  exact ⟨rfl, rfl, rfl, rfl⟩

theorem State.imageRuns_obj (s : State) (k : Nat) :
    s.imageRuns.obj k = ((s.setObj oFwBoot 0).setObj oFirmwareVersion s.power.flash.version).obj k := by
  obtain ⟨rs, h⟩ := State.wakeAfterReset_shape
    ((((s.setPower { s.power with boot := .image }).setObj oFwBoot 0).setBlob oFwRunningDigest
    (natLe 48 s.power.flash.digest)).setObj oFirmwareVersion s.power.flash.version)
  rw [State.imageRuns, h]
  rfl

theorem State.imageRuns_blob (s : State) {k : Nat} (hk : k ≠ oFwRunningDigest) : s.imageRuns.blob k = s.blob k := by
  obtain ⟨rs, h⟩ := State.wakeAfterReset_shape
    ((((s.setPower { s.power with boot := .image }).setObj oFwBoot 0).setBlob oFwRunningDigest
    (natLe 48 s.power.flash.digest)).setObj oFirmwareVersion s.power.flash.version)
  rw [State.imageRuns, h]
  refine (State.blob_congr (s := ((s.setPower { s.power with boot := .image }).setObj oFwBoot 0).setBlob oFwRunningDigest
    (natLe 48 s.power.flash.digest)) k).trans ?_
  rw [State.blob_setBlob, if_neg hk]
  rfl

theorem State.bootRom_of_good {s : State} (hg : s.power.flash.good = true) (hv : s.obj oFwSvnFuse ≤ s.power.flash.svn) :
    s.bootRom = if s.imageRuns.obj oFwSvnFuse < s.power.flash.svn then
      s.imageRuns.setObj oFwSvnFuse s.power.flash.svn else s.imageRuns := by
  have h : (s.power.flash.good && decide (s.obj oFwSvnFuse ≤ s.power.flash.svn)) = true := by simp [hg, hv]
  rw [State.bootRom]
  exact if_pos h

theorem State.bootRom_of_bad {s : State} (h : s.power.flash.good = false ∨ s.power.flash.svn < s.obj oFwSvnFuse) :
    s.bootRom = s.recoveryRuns := by
  have hn : ¬(s.power.flash.good && decide (s.obj oFwSvnFuse ≤ s.power.flash.svn)) = true := by
    rw [Bool.and_eq_true, decide_eq_true_eq]
    rintro ⟨hg, hv⟩
    rcases h with h | h
    · rw [h] at hg
      exact absurd hg (by decide)
    · exact absurd hv (Nat.not_le.mpr h)
  rw [State.bootRom]
  exact if_neg hn

/-- An image that is good and not older than the fuses runs, and burns the fuses up to it (R444). -/
theorem State.bootRom_image_spec {s : State} (hg : s.power.flash.good = true) (hv : s.obj oFwSvnFuse ≤ s.power.flash.svn) :
    s.bootRom.power.boot = .image ∧ s.bootRom.obj oFwBoot = 0 ∧ s.bootRom.obj oFwSvnFuse = s.power.flash.svn ∧
    s.bootRom.obj oFirmwareVersion = s.power.flash.version ∧
    SameObj s s.bootRom [oFwBoot, oFwSvnFuse, oFirmwareVersion] ∧ s.bootRom.mem = s.mem ∧
    s.bootRom.power.flash = s.power.flash ∧ s.bootRom.power.copying = s.power.copying ∧
    (∀ k, k ≠ oFwRunningDigest → s.bootRom.blob k = s.blob k) := by
  obtain ⟨hb, hf, hc, hm⟩ := s.imageRuns_power
  have hfuse : s.imageRuns.obj oFwSvnFuse = s.obj oFwSvnFuse := by
    rw [State.imageRuns_obj, State.obj_setObj_ne _ _ (by decide), State.obj_setObj_ne _ _ (by decide)]
  have hver : s.imageRuns.obj oFirmwareVersion = s.power.flash.version := by
    rw [State.imageRuns_obj, State.obj_setObj_self]
  have hboot : s.imageRuns.obj oFwBoot = 0 := by
    rw [State.imageRuns_obj, State.obj_setObj_ne _ _ (by decide), State.obj_setObj_self]
  have hsame : SameObj s s.imageRuns [oFwBoot, oFwSvnFuse, oFirmwareVersion] := by
    intro k hk
    rw [State.imageRuns_obj]
    exact (((SameObj.refl s _).setObj (k := oFwBoot) 0 (by decide)).setObj (k := oFirmwareVersion) _ (by decide)) k hk
  have hblob : ∀ k, k ≠ oFwRunningDigest → s.imageRuns.blob k = s.blob k := fun k hk => s.imageRuns_blob hk
  rw [State.bootRom_of_good hg hv, hfuse]
  generalize s.imageRuns = t at *
  split
  · refine ⟨hb, ?_, State.obj_setObj_self .., ?_, hsame.setObj _ (by decide), hm, hf, hc, hblob⟩
    · rw [State.obj_setObj_ne _ _ (by decide), hboot]
    · rw [State.obj_setObj_ne _ _ (by decide), hver]
  · next hlt => exact ⟨hb, hboot, hfuse.trans (Nat.le_antisymm hv (Nat.not_lt.mp hlt)), hver, hsame, hm, hf, hc, hblob⟩

theorem State.recoveryRuns_spec (s : State) :
    s.recoveryRuns.power.boot = .recovery ∧ s.recoveryRuns.obj oFwBoot = 1 ∧ SameObj s s.recoveryRuns [oFwBoot] ∧
    s.recoveryRuns.mem = s.mem ∧ s.recoveryRuns.power.flash = s.power.flash ∧
    s.recoveryRuns.power.copying = s.power.copying ∧
    (∀ k, k ≠ oFwRunningDigest → s.recoveryRuns.blob k = s.blob k) := by
  have ho : ∀ k, s.recoveryRuns.obj k = (s.setObj oFwBoot 1).obj k := fun _ => rfl
  refine ⟨rfl, ?_, fun k hk => ?_, rfl, rfl, rfl, fun k hk => ?_⟩
  · rw [ho, State.obj_setObj_self]
  · rw [ho, State.obj_setObj_ne _ _ (fun h => hk (List.mem_singleton.mpr h))]
  · rw [State.recoveryRuns, State.blob_setBlob, if_neg hk]
    rfl

/-! ### A copy that ends -/

theorem State.cutActions_power (s : State) :
    ∃ a b, s.cutActions.power = { s.power with selfTest := a, selfTestStart := b } := by
  unfold State.cutActions
  split
  · exact ⟨_, _, rfl⟩
  · exact ⟨s.power.selfTest, s.power.selfTestStart, rfl⟩

theorem State.resetEnded_power (s : State) :
    ∃ a b, s.resetEnded.power = { s.power with selfTest := a, selfTestStart := b } := by
  obtain ⟨ports, h⟩ := s.storeHellos_shape
  obtain ⟨a, b, hp⟩ := s.storeHellos.cutActions_power
  refine ⟨a, b, ?_⟩
  rw [State.resetEnded, (State.endPlan_frame _).1.power]
  show s.storeHellos.cutActions.power = _
  rw [hp, h]

theorem State.resetLost_flash (s : State) (c : ResetCause) :
    (s.resetLost c).power.flash = s.power.flash ∧ (s.resetLost c).power.copying = s.power.copying := by
  obtain ⟨a, b, hp⟩ := s.resetEnded_power
  have hq : s.resetEnded.fnsLost.clearMailboxes.power = { s.power with selfTest := a, selfTestStart := b } := by
    rw [State.clearMailboxes_power, State.fnsLost_power, hp]
  rw [State.resetLost, State.setDoms_power, State.planCleared_power, State.dropObjects_power, State.setPower_power]
  generalize s.resetEnded.fnsLost.clearMailboxes = u at hq ⊢
  rw [hq]
  exact ⟨rfl, rfl⟩

theorem State.startWarmReset_flash {s : State} (c : ResetCause) (h : s.power.copying = false) :
    (s.startWarmReset c).power.flash = s.power.flash ∧ (s.startWarmReset c).power.copying = false := by
  obtain ⟨hf, hc⟩ := s.resetLost_flash c
  rw [State.startWarmReset_of c h]
  generalize s.resetLost c = u at hf hc ⊢
  exact ⟨hf, hc.trans h⟩

theorem State.putImage_obj (s : State) (i : FwImage) (k : Nat) : (s.putImage i).obj k = s.obj k := rfl

theorem State.putImage_power (s : State) (i : FwImage) :
    (s.putImage i).power.flash = i ∧ (s.putImage i).power.copying = false ∧
    (s.putImage i).power.resetHeld = s.power.resetHeld ∧ (s.putImage i).power.boot = s.power.boot := ⟨rfl, rfl, rfl, rfl⟩

theorem State.putImage_digest (s : State) (i : FwImage) : (s.putImage i).blob oFwDigest = natLe 48 i.digest := by
  rw [State.putImage, State.blob_setBlob, if_pos rfl]

/-- What follows a copy: the warm reset that waited for it, or in the recovery loader the boot ROM's checks. -/
def State.afterCopy (s : State) : State :=
  match s.power.resetHeld with
  | some c => s.startWarmReset c
  | none => if s.power.boot = .recovery then s.bootRom else s

theorem State.exec_fwImageCopied {s : State} {i : FwImage} (hc : s.power.copying = true) (hs : s.power.staged = some i) :
    exec .fwImageCopied s = .next ((s.quiet.putImage i).cmdDone oFwActivate).afterCopy := by
  show execFwImageCopied s = _
  rw [execFwImageCopied]
  refine (if_pos (show s.quiet.power.copying = true from hc)).trans ?_
  rw [show s.quiet.power.staged = some i from hs]
  dsimp only
  generalize (s.quiet.putImage i).cmdDone oFwActivate = t
  unfold State.afterCopy
  cases t.power.resetHeld with
  | some c => rfl
  | none =>
    dsimp only
    split <;> rfl

/-- A firmware image copied into flash. -/
theorem State.afterCopy_spec {s : State} {i : FwImage} (hf : s.power.flash = i) (hc : s.power.copying = false)
    (hd : s.obj oFwActivate = 0x20000) (hb : s.blob oFwDigest = natLe 48 i.digest) :
    s.afterCopy.power.flash = i ∧ s.afterCopy.power.copying = false ∧
    (s.power.resetHeld = none → s.afterCopy.obj oFwActivate = 0x20000 ∧ s.afterCopy.blob oFwDigest = natLe 48 i.digest) ∧
    (s.power.resetHeld = none → s.power.boot ≠ .recovery → s.afterCopy = s) ∧
    (s.power.resetHeld = none → s.power.boot = .recovery → i.good = true → s.obj oFwSvnFuse ≤ i.svn →
      s.afterCopy.power.boot = .image ∧ s.afterCopy.obj oFwSvnFuse = i.svn) ∧
    (∀ c, s.power.resetHeld = some c → s.afterCopy.power.warmReset = some c) := by
  subst hf
  cases hh : s.power.resetHeld with
  | some c =>
    have h : s.afterCopy = s.startWarmReset c := by rw [State.afterCopy, hh]
    obtain ⟨hfl, hcp⟩ := State.startWarmReset_flash c hc
    rw [h]
    refine ⟨hfl, hcp, nofun, nofun, nofun, ?_⟩
    rintro _ ⟨⟩
    exact (State.startWarmReset_spec c hc).1
  | none =>
    have h : s.afterCopy = if s.power.boot = .recovery then s.bootRom else s := by rw [State.afterCopy, hh]
    rw [h]
    by_cases hr : s.power.boot = .recovery
    · rw [if_pos hr]
      by_cases hg : s.power.flash.good = true ∧ s.obj oFwSvnFuse ≤ s.power.flash.svn
      · obtain ⟨h1, -, h3, -, h5, -, h7, h8, h9⟩ := State.bootRom_image_spec hg.1 hg.2
        exact ⟨h7, h8.trans hc, fun _ => ⟨(h5 _ (by decide)).trans hd, (h9 _ (by decide)).trans hb⟩, fun _ hn => absurd hr hn,
          fun _ _ _ _ => ⟨h1, h3⟩, nofun⟩
      · have hbad : s.power.flash.good = false ∨ s.power.flash.svn < s.obj oFwSvnFuse := by
          rw [Classical.not_and_iff_not_or_not, Bool.not_eq_true, Nat.not_le] at hg
          exact hg
        obtain ⟨-, -, h3, -, h5, h6, h7⟩ := s.recoveryRuns_spec
        rw [State.bootRom_of_bad hbad]
        exact ⟨h5, h6.trans hc, fun _ => ⟨(h3 _ (by decide)).trans hd, (h7 _ (by decide)).trans hb⟩, fun _ hn => absurd hr hn,
          fun _ _ q1 q2 => absurd ⟨q1, q2⟩ hg, nofun⟩
    · rw [if_neg hr]
      exact ⟨rfl, hc, fun _ => ⟨hd, hb⟩, fun _ _ => rfl, fun _ q => absurd q hr, nofun⟩

/-! ### Firmware objects -/

theorem State.putBytes_fwStage (s : State) (bs : Bytes) : s.putBytes oFwStage bs = s.takeImage bs := by
  unfold State.putBytes
  rw [if_neg (by decide), if_pos rfl]

theorem State.exec_bootRomVerify {s : State} (h : s.power.boot = .verifying) :
    exec .bootRomVerify s = .next s.quiet.bootRom := by
  show execBootRomVerify s = _
  rw [execBootRomVerify]
  exact if_pos h

/-- Settles O22. -/
theorem firmwareCommands : Obligations.FirmwareCommands := by
  unfold Obligations.FirmwareCommands
  refine ⟨fun q bs s hf => ?_, fun q bs a s hw hf => ?_, fun q v s h hs => ?_, fun q v s h => ?_, fun i s hc hs => ?_,
    fun s hb hg hv => ?_, fun s hb h => ?_⟩
  · refine Does.bytes rfl (by decide) (by decide)
      (t := (s.quiet.setPower { s.power with staged := some ⟨fieldLe bs 4 4, fieldLe bs 8 1,
        leNat (sha384 (imageBody bs)), true⟩ }).setObj oFwStagedVersion (fieldLe bs 4 4)) ?_ ?_
    · rw [State.putBytes_fwStage, State.takeImage, show s.quiet.imageFault bs = none from hf]
      rfl
    · refine ⟨State.obj_setObj_self .., rfl, ?_, SameMem.refl s⟩
      exact SameObj.setObj (t := s.quiet.setPower _) (fun _ _ => rfl) _ (by decide)
  · show execFwStage q bs s = _
    rw [execFwStage]
    refine congrArg _ (State.write_bytes_refused (t := s.quiet) hw (by decide) (by decide) ?_)
    rw [State.putBytes_fwStage, State.takeImage, show s.quiet.imageFault bs = some a from hf]
  · refine Does.action (t := s.quiet.actFwActivate) rfl (by decide) (by decide) (State.act_fwActivate ..) ?_
    have hn : ¬s.quiet.power.staged.isNone = true := by
      rw [Option.isNone_iff_eq_none]
      intro hq
      rw [show s.power.staged = none from hq] at hs
      exact Bool.false_ne_true hs
    rw [State.actFwActivate, if_neg (show ¬s.quiet.planHeld = true from Bool.eq_false_iff.mp h), if_neg hn]
    exact ⟨rfl, (State.obj_congr _).trans (s.quiet.cmdStart_obj oFwActivate),
      (s.quiet.cmdStart_sameObj oFwActivate).congr, SameMem.refl s⟩
  · refine Does.action (t := s.quiet.actFwActivate) rfl (by decide) (by decide) (State.act_fwActivate ..) ?_
    rw [State.actFwActivate]
    by_cases hp : s.planHeld = true
    · rw [if_pos (show s.quiet.planHeld = true from hp), if_pos hp]
    · rw [if_neg (show ¬s.quiet.planHeld = true from hp), if_neg hp,
        if_pos (show s.quiet.power.staged.isNone = true from Option.isNone_iff_eq_none.mpr (h.resolve_left hp))]
  · refine ⟨_, State.exec_fwImageCopied hc hs, ?_⟩
    have hsame : SameObj s ((s.quiet.putImage i).cmdDone oFwActivate) (oFwActivate :: eventKeys) :=
      SameObj.trans (t := s.quiet.putImage i) (fun _ _ => rfl) (State.cmdDone_sameObj _ oFwActivate)
    have hpw := (s.quiet.putImage i).cmdDone_power oFwActivate
    have hdig := ((s.quiet.putImage i).cmdDone_blob oFwActivate oFwDigest).trans (s.quiet.putImage_digest i)
    have hdone := State.cmdDone_obj (s.quiet.putImage i) oFwActivate (by decide)
    obtain ⟨p1, p2, p3, p4⟩ := s.quiet.putImage_power i
    rw [← hpw] at p1 p2 p3 p4
    generalize (s.quiet.putImage i).cmdDone oFwActivate = t at *
    obtain ⟨h1, h2, h3, h4, h5, h6⟩ := State.afterCopy_spec p1 p2 hdone hdig
    refine ⟨h1, h2, fun hh => h3 (p3.trans hh), fun hh hb => ?_, fun hh hb hg hv => ?_, fun c hh => h6 c (p3.trans hh)⟩
    · rw [h4 (p3.trans hh) (fun q => hb (p4.symm.trans q))]
      exact hsame
    · exact h5 (p3.trans hh) (p4.trans hb) hg (by rw [hsame _ (by decide)]; exact hv)
  · obtain ⟨h1, h2, h3, h4, h5, h6, -, -, -⟩ := State.bootRom_image_spec (s := s.quiet) hg hv
    exact ⟨_, State.exec_bootRomVerify hb, h1, h2, h3, h4, h5, SameMem.of_mem h6⟩
  · obtain ⟨h1, h2, h3, h4, -, -, -⟩ := s.quiet.recoveryRuns_spec
    refine ⟨_, State.exec_bootRomVerify hb, ?_⟩
    rw [State.bootRom_of_bad (s := s.quiet) h]
    exact ⟨h1, h2, h3, SameMem.of_mem h4⟩

end Sys2Proof.Machine

namespace Sys2Proof.Machine

/-! ### SAFE -/

/-- One value written to the objects of a list. -/
theorem State.foldl_setObj (s : State) (l : List Nat) (f : Nat → Nat) (v k : Nat) :
    (l.foldl (fun s a => s.setObj (f a) v) s).obj k = if k ∈ l.map f then v else s.obj k := by
  induction l generalizing s with
  | nil => rfl
  | cons a l ih =>
    rw [List.foldl_cons, ih, State.obj_setObj]
    by_cases h : k = f a
    · simp [h]
    · simp [h]

/-- The objects that the entry into SAFE writes. -/
def safeKeys : List Nat := oSafe :: (upto 24).map oDataGate ++ eventKeys

/-- Every data gate closed and every lane dark. -/
def State.gatesClosed (s : State) : State :=
  (upto 24).foldl (fun (s : State) p => s.setObj (oDataGate p) 0) s.darkLanes

theorem State.gatesClosed_obj (s : State) (k : Nat) :
    s.gatesClosed.obj k = if k ∈ (upto 24).map oDataGate then 0 else s.obj k := by
  rw [State.gatesClosed, State.foldl_setObj]
  rfl

theorem State.darkLanes_noLanes (s : State) : s.darkLanes.noLanes := by
  intro e he
  obtain ⟨e', -, rfl⟩ := List.mem_map.mp (List.mem_filter.mp he).1
  exact ⟨rfl, rfl⟩

theorem State.gatesClosed_onlyObj (s : State) : OnlyObj s.darkLanes s.gatesClosed :=
  OnlyObj.foldl _ (fun t _ => (OnlyObj.refl t).setObj _ _) _

theorem OnlyObj.ports {s t : State} (h : OnlyObj s t) : t.ports = s.ports := by
  obtain ⟨_, rfl⟩ := h; rfl

theorem State.enterSafe_already {s : State} (c : Nat) (h : s.obj oSafe ≠ 0) : s.enterSafe c = s.gatesClosed := by
  rw [State.enterSafe, beq_eq_false_iff_ne.mpr h]
  rfl

theorem State.enterSafe_first {s : State} (c : Nat) (h : s.obj oSafe = 0) :
    s.enterSafe c = (s.setObj oSafe c).gatesClosed.raise .safeEntered := by
  rw [State.enterSafe, beq_iff_eq.mpr h]
  rfl

/-- Entry into SAFE (R403). -/
theorem State.enterSafe_spec (s : State) (c : Nat) :
    (s.enterSafe c).obj oSafe = (if s.obj oSafe = 0 then c else s.obj oSafe) ∧
    (∀ p < 24, (s.enterSafe c).obj (oDataGate p) = 0) ∧ (s.enterSafe c).noLanes ∧
    SameObj s (s.enterSafe c) safeKeys ∧ (s.enterSafe c).power = s.power ∧ (s.enterSafe c).now = s.now := by
  have hgate : ∀ p < 24, oDataGate p ∉ eventKeys := by decide +kernel
  have hin : ∀ p < 24, oDataGate p ∈ (upto 24).map oDataGate := fun p h => List.mem_map_of_mem (List.mem_range.mpr h)
  by_cases h : s.obj oSafe = 0
  · rw [State.enterSafe_first c h, if_pos h]
    have hl := (s.setObj oSafe c).gatesClosed.raise_logs .safeEntered
    have ho := (s.setObj oSafe c).gatesClosed_onlyObj
    refine ⟨?_, fun p hp => ?_, ?_, fun k hk => ?_, ?_, ?_⟩
    · rw [hl.obj _ (by decide), State.gatesClosed_obj, if_neg (by decide +kernel), State.obj_setObj_self]
    · rw [hl.obj _ (hgate p hp), State.gatesClosed_obj, if_pos (hin p hp)]
    · exact (State.darkLanes_noLanes _).of_ports (hl.ports.trans ho.ports)
    · simp only [safeKeys, List.cons_append, List.mem_cons, List.mem_append, not_or] at hk
      obtain ⟨h1, h2, h3⟩ := hk
      rw [hl.obj _ h3, State.gatesClosed_obj, if_neg h2, State.obj_setObj_ne _ _ h1]
    · rw [hl.power, ho.power]
      rfl
    · obtain ⟨od, hod⟩ := ho
      rw [hl.now, hod]
      rfl
  · rw [State.enterSafe_already c h, if_neg h]
    have ho := s.gatesClosed_onlyObj
    refine ⟨?_, fun p hp => ?_, ?_, fun k hk => ?_, ?_, ?_⟩
    · rw [State.gatesClosed_obj, if_neg (by decide +kernel)]
    · rw [State.gatesClosed_obj, if_pos (hin p hp)]
    · exact (State.darkLanes_noLanes _).of_ports ho.ports
    · simp only [safeKeys, List.cons_append, List.mem_cons, List.mem_append, not_or] at hk
      rw [State.gatesClosed_obj, if_neg hk.2.1]
    · rw [ho.power]
      rfl
    · obtain ⟨od, hod⟩ := ho
      rw [hod]
      rfl

/-! ### Security violations -/

/-- What a security violation leaves: counted, the plan ended, SAFE entered. -/
def Violated (s t : State) : Prop :=
  t.obj oViolationCount = (s.obj oViolationCount + 1) % 2 ^ objBits oViolationCount ∧ t.obj oSafe ≠ 0 ∧
  (s.obj oSafe = 0 → t.obj oSafe = 2) ∧ t.admitted = false ∧ (∀ p < 24, t.obj (oDataGate p) = 0) ∧
  ∀ p, (t.portSt p).useTx = 0 ∧ (t.portSt p).useRx = 0

/-- A security violation counted, with its cause and its event. -/
theorem State.violation_eq (s : State) (cause : Nat) :
    ∃ n, s.violation cause =
      (((s.bump oViolationCount).setObj oLastViolation n).raise .securityViolation).classD := ⟨_, rfl⟩

theorem State.classD_eq (s : State) : s.classD = s.faultC.enterSafe 2 := rfl

theorem State.violation_spec (s : State) (cause : Nat) : Violated s (s.violation cause) := by
  obtain ⟨n, h⟩ := s.violation_eq cause
  have hcount : (((s.bump oViolationCount).setObj oLastViolation n).raise .securityViolation).obj oViolationCount =
      (s.obj oViolationCount + 1) % 2 ^ objBits oViolationCount := by
    rw [(State.raise_logs ..).obj _ (by decide), State.obj_setObj_ne _ _ (by decide), State.bump_obj_self]
  have hsafe : (((s.bump oViolationCount).setObj oLastViolation n).raise .securityViolation).obj oSafe = s.obj oSafe := by
    rw [(State.raise_logs ..).obj _ (by decide), State.obj_setObj_ne _ _ (by decide), State.bump_obj_ne _ (by decide)]
  rw [h, State.classD_eq]
  generalize ((s.bump oViolationCount).setObj oLastViolation n).raise .securityViolation = t at hcount hsafe
  have hs : t.faultC.obj oSafe = s.obj oSafe := (t.faultC_sameObj _ (by decide)).trans hsafe
  obtain ⟨h1, h2, h3, h4, -, -⟩ := t.faultC.enterSafe_spec 2
  rw [hs] at h1
  refine ⟨?_, ?_, fun h0 => h1.trans (if_pos h0), ?_, h2, h3.portSt⟩
  · rw [h4 _ (by decide +kernel), t.faultC_sameObj _ (by decide), hcount]
  · rw [h1]
    split
    · decide
    · assumption
  · rw [State.admitted_congr (h4 _ (by decide +kernel)), t.faultC_admitted]

/-- Settles O60. -/
theorem securityViolations : Obligations.SecurityViolations := by
  unfold Obligations.SecurityViolations
  refine ⟨fun d s => ⟨fun hb hd => ⟨_, ?_, s.quiet.violation_spec 1⟩, fun h => ?_⟩,
    fun s => ⟨fun ha => ⟨_, ?_, s.quiet.violation_spec 2⟩, fun h => ?_⟩,
    fun s => ⟨fun ha hg => ⟨_, ?_, s.quiet.violation_spec 3⟩, fun h => ?_⟩⟩
  · exact if_pos ⟨hb, hd⟩
  · exact if_neg (fun ⟨hb, hd⟩ => h.elim (fun q => q hb) (fun q => hd q))
  · exact if_pos ha
  · exact if_neg (Bool.eq_false_iff.mp h)
  · exact if_pos ⟨ha, hg⟩
  · exact if_neg (fun ⟨ha, hg⟩ => h.elim (fun q => Bool.false_ne_true (q.symm.trans ha)) (fun q => q hg))

end Sys2Proof.Machine

namespace Sys2Proof.Machine

/-! ### Operations that write objects and raise events -/

/-- `t` is `s` after events and writes of the objects `ks`, or of the memory. -/
structure Writes (ks : List Nat) (s t : State) : Prop where
  shape : ∃ od events ledger rings mem flows router, t = s.relog od events ledger rings mem flows router
  obj : SameObj s t (ks ++ eventKeys)

theorem Writes.refl (ks : List Nat) (s : State) : Writes ks s s := ⟨⟨_, _, _, _, _, _, _, rfl⟩, SameObj.refl s _⟩

theorem Writes.trans {ks : List Nat} {s t u : State} (h : Writes ks s t) (k : Writes ks t u) : Writes ks s u := by
  obtain ⟨_, _, _, _, _, _, _, e⟩ := h.shape
  obtain ⟨a, b, c, d, f, g, i, e'⟩ := k.shape
  exact ⟨⟨a, b, c, d, f, g, i, by rw [e', e]; rfl⟩, h.obj.trans k.obj⟩

theorem Writes.setObj (ks : List Nat) (s : State) {k : Nat} (v : Nat) (hk : k ∈ ks) : Writes ks s (s.setObj k v) :=
  ⟨⟨_, _, _, _, _, _, _, rfl⟩, (SameObj.refl s _).setObj v (List.mem_append_left _ hk)⟩

theorem Logs.writes {ks : List Nat} {s t : State} (h : Logs s t) : Writes ks s t :=
  ⟨h.shape, h.sameObj.mono (fun _ q => List.mem_append_right _ q)⟩

theorem Writes.foldl {α : Type} {ks : List Nat} {f : State → α → State} (l : List α)
    (h : ∀ s, ∀ a ∈ l, Writes ks s (f s a)) (s : State) : Writes ks s (l.foldl f s) :=
  List.foldlRecOn l f (motive := fun t => Writes ks s t) (Writes.refl ks s) (fun t ht a ha => ht.trans (h t a ha))

section
variable {ks : List Nat} {s t : State} (h : Writes ks s t)
include h
theorem Writes.kept {k : Nat} (hk : (ks ++ eventKeys).contains k = false) : t.obj k = s.obj k :=
  h.obj k (fun q => Bool.false_ne_true (hk.symm.trans (List.contains_iff_mem.mpr q)))
theorem Writes.power : t.power = s.power := by obtain ⟨_, _, _, _, _, _, _, e⟩ := h.shape; rw [e]; rfl
theorem Writes.now : t.now = s.now := by obtain ⟨_, _, _, _, _, _, _, e⟩ := h.shape; rw [e]; rfl
theorem Writes.bell : t.bell = s.bell := by obtain ⟨_, _, _, _, _, _, _, e⟩ := h.shape; rw [e]; rfl
theorem Writes.ports : t.ports = s.ports := by obtain ⟨_, _, _, _, _, _, _, e⟩ := h.shape; rw [e]; rfl
theorem Writes.blob (k : Nat) : t.blob k = s.blob k := by obtain ⟨_, _, _, _, _, _, _, e⟩ := h.shape; rw [e]; rfl
end

/-! ### The results of a self-test -/

/-- The objects that a self-test's results bind: slots, engines, spares, cores, control lasers and pages. -/
def bindKeys : List Nat :=
  [oDegraded, oSpareSLeftD0, oSpareNLeftD0, oSpareSLeftD1, oSpareNLeftD1, oSparesLeftMin, oPagesRetired] ++ coreStateKeys ++
  (upto 24).map oClState ++ (upto 2).flatMap (fun die =>
    (upto 96).map (oSlotMap die) ++ (upto 96).map (oStrikes die) ++ (upto 100).map (oPhysState die))

theorem oSlotMap_bind {die e : Nat} (hd : die < 2) (h : e < 96) : oSlotMap die e ∈ bindKeys :=
  List.mem_append_right _ (List.mem_flatMap.mpr ⟨die, List.mem_range.mpr hd, List.mem_append_left _
    (List.mem_append_left _ (List.mem_map_of_mem (List.mem_range.mpr h)))⟩)

theorem oStrikes_bind {die e : Nat} (hd : die < 2) (h : e < 96) : oStrikes die e ∈ bindKeys :=
  List.mem_append_right _ (List.mem_flatMap.mpr ⟨die, List.mem_range.mpr hd, List.mem_append_left _
    (List.mem_append_right _ (List.mem_map_of_mem (List.mem_range.mpr h)))⟩)

theorem oPhysState_bind {die e : Nat} (hd : die < 2) (h : e < 100) : oPhysState die e ∈ bindKeys :=
  List.mem_append_right _ (List.mem_flatMap.mpr ⟨die, List.mem_range.mpr hd,
    List.mem_append_right _ (List.mem_map_of_mem (List.mem_range.mpr h))⟩)

theorem oCoreState_bind {c : Nat} (h : c < 16) : oCoreState c ∈ bindKeys :=
  List.mem_append_left _ (List.mem_append_left _ (List.mem_append_right _
    (List.mem_map_of_mem (List.mem_range.mpr h))))

theorem oClState_bind {p : Nat} (h : p < 24) : oClState p ∈ bindKeys :=
  List.mem_append_left _ (List.mem_append_right _ (List.mem_map_of_mem (List.mem_range.mpr h)))

theorem State.applyReport_writes (s : State) : Writes bindKeys s s.applyReport := by
  unfold State.applyReport
  extract_lets rep lost t u
  have h1 : Writes bindKeys s t := by
    show Writes bindKeys s (if _ then _ else _)
    split
    · exact (State.raise_logs ..).writes
    · exact Writes.refl _ s
  have h2 : Writes bindKeys t u := Writes.foldl _ (fun v c hc => by
    have hm := oCoreState_bind (List.mem_range.mp hc)
    split
    · exact Writes.setObj _ _ _ hm
    · split
      · exact Writes.setObj _ _ _ hm
      · exact Writes.refl _ v) t
  refine (h1.trans h2).trans (Writes.foldl _ (fun v j hj => ?_) u)
  have hm : oClState (j / 2) ∈ bindKeys := oClState_bind (by have := List.mem_range.mp hj; omega)
  split
  · exact Writes.setObj _ _ _ hm
  · exact Writes.refl _ v

/-- R130 gives every slot of a die an entry. -/
theorem bindSlots_length (bad : Nat → Bool) : (bindSlots bad).length = 96 := by
  have hstep : ∀ (f : List Nat × List Nat → Nat → List Nat × List Nat), (∀ a e, (f a e).1.length = a.1.length + 1) →
      ∀ (l : List Nat) (a : List Nat × List Nat), (l.foldl f a).1.length = a.1.length + l.length := by
    intro f hf l
    induction l with
    | nil => exact fun a => rfl
    | cons e l ih =>
      intro a
      rw [List.foldl_cons, ih, hf, List.length_cons]
      omega
  unfold bindSlots
  refine (hstep _ (fun a e => ?_) _ _).trans rfl
  dsimp only
  split
  · exact List.length_append
  · split <;> exact List.length_append

theorem State.countSpares_writes (s : State) (die : Nat) : Writes bindKeys s (s.countSpares die) := by
  unfold State.countSpares
  extract_lets free
  split
  · exact (Writes.setObj _ _ _ (by decide)).trans (Writes.setObj _ _ _ (by decide))
  · exact (Writes.setObj _ _ _ (by decide)).trans (Writes.setObj _ _ _ (by decide))

theorem State.rebuildSlots_writes (s : State) {die : Nat} (hd : die < 2) (powerOn : Bool) :
    Writes bindKeys s (s.rebuildSlots die powerOn) := by
  unfold State.rebuildSlots
  extract_lets mask rep fenced bad mapped t u
  have h1 : Writes bindKeys s t := Writes.foldl _ (fun v e he => by
    have hlt : e.2 < 96 := by
      have := List.snd_lt_of_mem_zipIdx he
      rwa [show mapped.length = 96 from bindSlots_length bad] at this
    extract_lets w
    have hw : Writes bindKeys v w := by
      show Writes bindKeys v (if _ then _ else _)
      split
      · exact Writes.refl _ v
      · exact Writes.setObj _ _ _ (oStrikes_bind hd hlt)
    exact hw.trans (Writes.setObj _ _ _ (oSlotMap_bind hd hlt))) s
  have h2 : Writes bindKeys t u := Writes.foldl _ (fun v i hi =>
    Writes.setObj _ _ _ (oPhysState_bind hd (List.mem_range.mp hi))) t
  exact (h1.trans h2).trans (u.countSpares_writes die)

theorem State.showDegraded_writes (s : State) : Writes bindKeys s s.showDegraded := by
  unfold State.showDegraded
  extract_lets bad was t
  have h : Writes bindKeys s t := Writes.setObj _ _ _ (by decide)
  split
  · exact h.trans (State.raise_logs ..).writes
  · exact h

/-- The last self-test's results bind the engines, cores and control lasers (R130, Table 15-7). -/
def State.bindReport (s : State) (powerOn : Bool) : State :=
  ((s.applyReport.rebuildSlots 0 powerOn).rebuildSlots 1 powerOn).showDegraded

theorem State.bindReport_writes (s : State) (powerOn : Bool) : Writes bindKeys s (s.bindReport powerOn) :=
  ((s.applyReport_writes.trans (State.rebuildSlots_writes _ (by decide) _)).trans
    (State.rebuildSlots_writes _ (by decide) _)).trans (State.showDegraded_writes _)

theorem State.retirePage_writes (s : State) (page : Nat) : Writes bindKeys s (s.retirePage page) := by
  unfold State.retirePage
  split
  · exact Writes.refl _ s
  · extract_lets ch used m t u
    split
    · exact (State.raise_logs ..).writes
    · have h1 : Writes bindKeys s t := ⟨⟨_, _, _, _, _, _, _, rfl⟩, fun _ _ => rfl⟩
      exact (h1.trans (Writes.setObj _ _ _ (by decide))).trans (Writes.setObj _ _ _ (by decide))

end Sys2Proof.Machine

namespace Sys2Proof.Machine

/-! ### The results of a self-test stored -/

/-- The outcome of a self-test (Table 15-7): the worst of its failing units, 1 where none fails. -/
def testOutcome (r : StDone) : Nat := r.failing.foldl (fun a f => max a (kindOutcome f.kind.toNat)) 1

theorem testOutcome_le (r : StDone) : testOutcome r ≤ 3 :=
  List.foldlRecOn (motive := fun (a : Nat) => a ≤ 3) _ _ (by decide) (fun _ ha f _ => by
    have h : kindOutcome f.kind.toNat ≤ 3 := by
      unfold kindOutcome
      split <;> decide
    exact Nat.max_le.mpr ⟨ha, h⟩)

/-- The results in their objects, before the pages that the test found are retired. -/
def State.testShown (s : State) (r : StDone) : State :=
  ((((s.setObj oStResult (testOutcome r)).setBlob oStReport (reportBytes r.failing)).setObj oStWhen s.timeNow).setObj
    oStDurationMs r.durationMs.toNat).setObj oStSkipped r.skipped.toNat

theorem State.storeTest_writes (s : State) (r : StDone) : Writes bindKeys (s.testShown r) (s.storeTest r) :=
  Writes.foldl _ (fun t _ _ => t.retirePage_writes _) _

theorem State.testShown_power (s : State) (r : StDone) : (s.testShown r).power = s.power := by
  rw [State.testShown, State.setObj_power, State.setObj_power, State.setObj_power, State.setBlob_power, State.setObj_power]

theorem State.testShown_now (s : State) (r : StDone) : (s.testShown r).now = s.now := by
  rw [State.testShown, State.setObj_now, State.setObj_now, State.setObj_now, State.setBlob_now, State.setObj_now]

theorem State.testShown_obj (s : State) (r : StDone) :
    (s.testShown r).obj oStResult = testOutcome r ∧ (s.testShown r).obj oStDurationMs = r.durationMs.toNat ∧
    (s.testShown r).blob oStReport = reportBytes r.failing ∧
    SameObj s (s.testShown r) [oStResult, oStWhen, oStDurationMs, oStSkipped] := by
  have ho : ∀ k, (s.testShown r).obj k = ((((s.setObj oStResult (testOutcome r)).setObj oStWhen s.timeNow).setObj
      oStDurationMs r.durationMs.toNat).setObj oStSkipped r.skipped.toNat).obj k := fun k => rfl
  refine ⟨?_, ?_, ?_, fun k hk => ?_⟩
  · rw [ho, State.obj_setObj_ne _ _ (by decide), State.obj_setObj_ne _ _ (by decide), State.obj_setObj_ne _ _ (by decide),
      State.obj_setObj_self]
  · rw [ho, State.obj_setObj_ne _ _ (by decide), State.obj_setObj_self]
  · rw [State.testShown, State.setObj_blob, State.setObj_blob, State.setObj_blob, State.blob_setBlob, if_pos rfl]
  · rw [ho]
    exact ((((SameObj.refl s _).setObj (k := oStResult) _ (by decide)).setObj (k := oStWhen) _ (by decide)).setObj
      (k := oStDurationMs) _ (by decide)).setObj (k := oStSkipped) _ (by decide) k hk

/-- What the results of a self-test leave, whether they also bind the engines or not. -/
structure TestKept (s : State) (r : StDone) (t : State) : Prop where
  result : t.obj oStResult = testOutcome r
  duration : t.obj oStDurationMs = r.durationMs.toNat
  report : t.blob oStReport = reportBytes r.failing
  power : t.power = s.power
  now : t.now = s.now
  same : SameObj s t ([oStResult, oStWhen, oStDurationMs, oStSkipped] ++ (bindKeys ++ eventKeys))

theorem State.storeTest_kept (s : State) (r : StDone) : TestKept s r (s.storeTest r) := by
  obtain ⟨h1, h2, h3, h4⟩ := s.testShown_obj r
  have h := s.storeTest_writes r
  exact ⟨(h.kept (by decide +kernel)).trans h1, (h.kept (by decide +kernel)).trans h2, (h.blob _).trans h3,
    h.power.trans (s.testShown_power r), h.now.trans (s.testShown_now r),
    (h4.mono (fun _ q => List.mem_append_left _ q)).trans (h.obj.mono (fun _ q => List.mem_append_right _ q))⟩

theorem TestKept.writes {s t u : State} {r : StDone} (h : TestKept s r t) (k : Writes bindKeys t u) : TestKept s r u :=
  ⟨(k.kept (by decide +kernel)).trans h.result, (k.kept (by decide +kernel)).trans h.duration, (k.blob _).trans h.report,
    k.power.trans h.power, k.now.trans h.now, h.same.trans (k.obj.mono (fun _ q => List.mem_append_right _ q))⟩

/-! ### The end of an orderly shutdown -/

theorem State.powerReached_power (s : State) (v k : Nat) : (s.powerReached v k).power = s.power := by
  rw [State.powerReached, State.cmdDone_power, State.setPowerState_power]

theorem State.finishShutdown_eq (s : State) :
    s.finishShutdown = ((s.setObj oLastShutdownOrderly 1).kept.setPower { (s.setObj oLastShutdownOrderly 1).kept.power with
      shutdown := false, selfTest := false, waking := [], requests := [], staged := none }).powerReached 5 oShutdown := rfl

theorem State.finishShutdown_spec (s : State) :
    s.finishShutdown.obj oPowerState = 5 ∧ s.finishShutdown.obj oShutdown = 0x20000 ∧
    s.finishShutdown.obj oLastShutdownOrderly = 1 ∧ s.finishShutdown.power.selfTest = false ∧
    s.finishShutdown.power.shutdown = false ∧ s.finishShutdown.obj oStResult = s.obj oStResult ∧
    (∀ d ∈ domains48, keepDomains.contains d = false → s.finishShutdown.dom d = domOff) := by
  have hk : ∀ k, keptByFns k = true → (∀ d ∈ domains48, k ≠ oDomainState d) → keyLost [.d, .v] allFns k = false →
      (s.setObj oLastShutdownOrderly 1).kept.obj k = (s.setObj oLastShutdownOrderly 1).obj k := by
    intro k h1 h2 h3
    rw [State.kept_obj h1 h2, h3]
    rfl
  have hd := (s.setObj oLastShutdownOrderly 1).kept_dom
  rw [State.finishShutdown_eq]
  generalize (s.setObj oLastShutdownOrderly 1).kept = t at hk hd
  have hdom : ∀ d ∈ domains48, d < 64 ∧ oDomainState d ∉ oShutdown :: oPowerState :: eventKeys := by decide +kernel
  refine ⟨State.powerReached_state _ _ _ (by decide), State.cmdDone_obj _ _ (by decide), ?_, ?_, ?_, ?_,
    fun d h1 h2 => ?_⟩
  · rw [State.powerReached_sameObj _ _ _ _ (by decide), State.setPower_obj, hk _ (by decide +kernel) (by decide) (by decide +kernel),
      State.obj_setObj_self]
  · rw [State.powerReached_power, State.setPower_power]
  · rw [State.powerReached_power, State.setPower_power]
  · rw [State.powerReached_sameObj _ _ _ _ (by decide), State.setPower_obj, hk _ (by decide +kernel) (by decide) (by decide +kernel),
      State.obj_setObj_ne _ _ (by decide)]
  · obtain ⟨hlt, hnk⟩ := hdom d h1
    rw [State.dom, State.powerReached_sameObj _ _ _ _ hnk, State.setPower_obj]
    refine (hd d hlt).trans (if_pos (List.mem_filter.mpr ⟨h1, ?_⟩))
    rw [h2]
    rfl

/-! ### SAFE after a test -/

/-- The result word of ST_RUN holds the outcome, raised as its event. -/
def State.runShown (s : State) : State := (s.setResult oStRun 2 (s.obj oStResult)).cmdEvent oStRun

theorem State.runShown_spec {s : State} {n : Nat} (h : s.obj oStResult = n) (hn : n ≤ 3) :
    s.runShown.obj oStRun = 0x20000 + n ∧ s.runShown.power = s.power ∧
    SameObj s s.runShown (oStRun :: eventKeys) := by
  have hl := State.cmdEvent_logs (s.setObj oStRun (2 * 65536 + s.obj oStResult % 65536)) oStRun
  refine ⟨?_, hl.power, fun k hk => ?_⟩
  · refine (hl.obj _ (by decide)).trans ((State.obj_setObj_self ..).trans ?_)
    rw [h]
    omega
  · rw [List.mem_cons, not_or] at hk
    exact (hl.obj k hk.2).trans (State.obj_setObj_ne _ _ hk.1)

/-- SAFE is entered by a FAIL, and ends with another outcome once no trip is latched (R403). -/
theorem State.judgeSafe_spec (s : State) :
    s.judgeSafe.obj oStResult = s.obj oStResult ∧ s.judgeSafe.power = s.power ∧
    (s.obj oStResult = 3 → s.judgeSafe.obj oSafe ≠ 0) ∧
    (s.obj oStResult ≠ 3 → s.power.tripLatched = false → s.judgeSafe.obj oSafe = 0) := by
  unfold State.judgeSafe
  by_cases h3 : s.obj oStResult = 3
  · rw [if_pos h3]
    by_cases hs : s.obj oSafe = 0
    · rw [if_pos hs]
      obtain ⟨h1, -, -, h4, h5, -⟩ := s.endPlan.enterSafe_spec 1
      have he := s.endPlan_frame
      refine ⟨?_, ?_, fun _ => ?_, fun q => absurd h3 q⟩
      · rw [h4 _ (by decide +kernel), he.2 _ (by decide)]
      · rw [h5, he.1.power]
      · rw [h1, he.2 _ (by decide), if_pos hs]
        decide
    · rw [if_neg hs]
      exact ⟨rfl, rfl, fun _ => hs, fun q => absurd h3 q⟩
  · rw [if_neg h3]
    by_cases ht : s.power.tripLatched = true
    · rw [if_pos ht]
      exact ⟨rfl, rfl, fun q => absurd q h3, fun _ q => absurd ht (Bool.eq_false_iff.mp q)⟩
    · rw [if_neg ht]
      exact ⟨State.obj_setObj_ne _ _ (by decide), rfl, fun q => absurd q h3, fun _ _ => State.obj_setObj_self ..⟩

/-- A self-test's end, by the test that ran. -/
def State.testDone (s : State) (r : StDone) : State :=
  if s.power.selfTestStart = true then ((s.storeTest r).bindReport true).testOver
  else if s.power.selfTest = true ∧ s.power.shutdown = true then (s.storeTest r).finishShutdown
  else if s.power.selfTest = true then ((s.storeTest r).bindReport false).testOver.judgeSafe.runShown
  else s

theorem State.exec_selfTestDone (s : State) (r : StDone) :
    exec (.selfTestDone r) s = .next ((s.quiet.advance (r.durationMs.toNat * 1000000)).testDone r) := by
  show execSelfTestDone r s = _
  unfold execSelfTestDone State.testDone
  dsimp only
  generalize s.quiet.advance (r.durationMs.toNat * 1000000) = u
  repeat' split
  all_goals rfl

theorem State.testDone_start {s : State} {r : StDone} (h : s.power.selfTestStart = true) :
    (s.testDone r).power.selfTestStart = false ∧ (s.testDone r).obj oStResult = testOutcome r ∧
    (s.testDone r).blob oStReport = reportBytes r.failing ∧ (s.testDone r).obj oStDurationMs = r.durationMs.toNat ∧
    (s.testDone r).now = s.now := by
  have hk := (s.storeTest_kept r).writes ((s.storeTest r).bindReport_writes true)
  rw [State.testDone, if_pos h]
  generalize (s.storeTest r).bindReport true = t at hk
  exact ⟨rfl, hk.result, hk.report, hk.duration, hk.now⟩

theorem State.testDone_shutdown {s : State} {r : StDone} (h1 : s.power.selfTestStart = false)
    (h2 : s.power.selfTest = true) (h3 : s.power.shutdown = true) :
    s.testDone r = (s.storeTest r).finishShutdown := by
  rw [State.testDone, if_neg (Bool.eq_false_iff.mp h1), if_pos ⟨h2, h3⟩]

theorem State.testDone_run {s : State} {r : StDone} (h1 : s.power.selfTestStart = false)
    (h2 : s.power.selfTest = true) (h3 : s.power.shutdown = false) :
    (s.testDone r).obj oStResult = testOutcome r ∧ (s.testDone r).obj oStRun = 0x20000 + testOutcome r ∧
    (s.testDone r).power.selfTest = false ∧ (testOutcome r = 3 → (s.testDone r).obj oSafe ≠ 0) ∧
    (testOutcome r ≠ 3 → s.power.tripLatched = false → (s.testDone r).obj oSafe = 0) := by
  have hk := (s.storeTest_kept r).writes ((s.storeTest r).bindReport_writes false)
  rw [State.testDone, if_neg (Bool.eq_false_iff.mp h1), if_neg (fun ⟨_, q⟩ => absurd q (Bool.eq_false_iff.mp h3)),
    if_pos h2]
  generalize (s.storeTest r).bindReport false = t at hk
  have hr : t.testOver.obj oStResult = testOutcome r := hk.result
  have ht : t.testOver.power.tripLatched = s.power.tripLatched := by
    show t.power.tripLatched = _
    rw [hk.power]
  have hst : t.testOver.power.selfTest = false := rfl
  generalize t.testOver = v at hr ht hst
  obtain ⟨j1, j2, j3, j4⟩ := v.judgeSafe_spec
  obtain ⟨d1, d2, d3⟩ := State.runShown_spec (j1.trans hr) (testOutcome_le r)
  refine ⟨?_, d1, ?_, fun q => ?_, fun q ql => ?_⟩
  · rw [d3 _ (by decide), j1, hr]
  · rw [d2, j2, hst]
  · rw [d3 _ (by decide)]
    exact j3 (hr.trans q)
  · rw [d3 _ (by decide)]
    exact j4 (fun e => q (hr.symm.trans e)) (ht.trans ql)

theorem State.testDone_none {s : State} {r : StDone} (h1 : s.power.selfTestStart = false)
    (h2 : s.power.selfTest = false) : s.testDone r = s := by
  rw [State.testDone, if_neg (Bool.eq_false_iff.mp h1), if_neg (fun ⟨q, _⟩ => absurd q (Bool.eq_false_iff.mp h2)),
    if_neg (Bool.eq_false_iff.mp h2)]

theorem State.quiet_advance (s : State) (d : Nat) :
    (s.quiet.advance d).power = s.power ∧ (s.quiet.advance d).now = s.now + d := ⟨rfl, rfl⟩

/-- Settles O48. -/
theorem selfTestsEnd : Obligations.SelfTestsEnd := by
  unfold Obligations.SelfTestsEnd
  intro r s outcome
  obtain ⟨hp, hn⟩ := s.quiet_advance (r.durationMs.toNat * 1000000)
  refine ⟨fun h1 => ⟨_, s.exec_selfTestDone r, ?_⟩, fun h1 h2 h3 => ⟨_, s.exec_selfTestDone r, ?_⟩,
    fun h1 h2 h3 => ⟨_, s.exec_selfTestDone r, ?_⟩, fun h1 h2 => (s.exec_selfTestDone r).trans ?_⟩
  · rw [← hp] at h1
    obtain ⟨a1, a2, a3, a4, a5⟩ := State.testDone_start (r := r) h1
    exact ⟨a1, a2, a3, a4, a5.trans hn⟩
  · rw [← hp] at h1 h2 h3
    rw [State.testDone_shutdown h1 h2 h3]
    obtain ⟨a1, a2, a3, a4, a5, a6, a7⟩ := (State.storeTest _ r).finishShutdown_spec
    exact ⟨a1, a2, a3, a4, a5, a6.trans (State.storeTest_kept _ r).result, a7⟩
  · rw [← hp] at h1 h2 h3 ⊢
    exact State.testDone_run h1 h2 h3
  · rw [← hp] at h1 h2
    rw [State.testDone_none h1 h2]

end Sys2Proof.Machine

namespace Sys2Proof.Machine

/-! ### Every 48 V domain off -/

/-- The actions cut off and the plan ended, as the power goes. -/
def State.offEnded (s : State) : State :=
  State.endPlan (if (s.obj oPowerState == 5) = true then s.cutActions else s.cutActions.setObj oLastShutdownOrderly 0)

/-- What no 48 V domain retains given up: the bell count, the plan, the memory's content, the rings, lasers and links. -/
def State.bared (s : State) : State :=
  { s with
    bell := Bell.init, plan := none, admitting := none, deferred := [],
    step := StepSt.init, events := [],
    ledger := { s.ledger with ring := [] },
    mem := { MemSt.init with
      retired := s.mem.copying.foldl (fun xs p => insertSorted p xs) s.mem.retired,
      sparesUsed := s.mem.sparesUsed },
    ports := [], micro := [], settings := [], lasers := [], lsc := [], prep := none, xrClear := false,
    captures := [], digesting := none, keeper := none,
    power := { s.power with
      powerUp := none, zeroing := false, selfTestStart := false, warmReset := none,
      resetHeld := none, requests := [], started := [], waking := [], thermalHeld := false,
      coolSince := none, noticeArmed := true, reinit := none, shutdown := false, selfTest := false,
      staged := if s.power.copying then s.power.staged else none, coolant := 0 } }

/-- The state with every 48 V domain off, before the always-on domains are shown. -/
def State.bareOff (s : State) : State :=
  (s.offEnded.fnsLost.clearMailboxes.dropObjects [.k, .d, .v] allFns).bared

/-- The always-on domains and the input's voltage shown. -/
def State.auxShown (s : State) : State :=
  (if s.power.aux then (s.setDom 39 domOn).setDom 40 domOn else s).setObj oInputMv s.power.mv48

theorem State.auxShown_eq (s : State) :
    s.auxShown = (let t := if s.power.aux then (s.setDom 39 domOn).setDom 40 domOn else s
      t.setObj oInputMv t.power.mv48) := by
  unfold State.auxShown
  cases s.power.aux <;> rfl

theorem State.powerOff_eq (s : State) :
    s.powerOff = if s.obj oPowerState = 0 then s.bareOff.auxShown else s.bareOff.auxShown.raise .powerStateChanged := by
  rw [State.auxShown_eq]
  unfold State.powerOff State.bareOff State.offEnded State.fnsLost State.bared
  dsimp only

theorem State.offEnded_sameObj (s : State) : SameObj s s.offEnded (oStResult :: oLastShutdownOrderly :: planEndKeys) := by
  have h1 : SameObj s s.cutActions (oStResult :: oLastShutdownOrderly :: planEndKeys) :=
    s.cutActions_sameObj.mono (fun _ h => List.mem_singleton.mp h ▸ List.mem_cons_self ..)
  refine SameObj.trans ?_ ((State.endPlan_frame _).2.mono (fun _ h => List.mem_cons_of_mem _ (List.mem_cons_of_mem _ h)))
  split
  · exact h1
  · exact h1.setObj (k := oLastShutdownOrderly) 0 (List.mem_cons_of_mem _ (List.mem_cons_self ..))

/-- LAST_SHUTDOWN_ORDERLY stands 0 where it was, and becomes 0 but after an orderly shutdown. -/
theorem State.offEnded_orderly (s : State) (h : s.obj oPowerState ≠ 5 ∨ s.obj oLastShutdownOrderly = 0) :
    s.offEnded.obj oLastShutdownOrderly = 0 := by
  rw [State.offEnded, (State.endPlan_frame _).2 _ (by decide)]
  split
  · next h5 =>
    rw [s.cutActions_sameObj _ (by decide)]
    exact h.resolve_left (fun q => q (by simpa using h5))
  · exact State.obj_setObj_self ..

theorem State.offEnded_power (s : State) :
    ∃ a b, s.offEnded.power = { s.power with selfTest := a, selfTestStart := b } := by
  obtain ⟨a, b, h⟩ := s.cutActions_power
  refine ⟨a, b, ?_⟩
  rw [State.offEnded, (State.endPlan_frame _).1.power, ← h]
  split
  · rfl
  · rw [State.setObj_power]

theorem State.bared_obj (s : State) (k : Nat) : s.bared.obj k = s.obj k := rfl

theorem State.bared_bytes (s : State) : s.bared.mem.bytes = [] := rfl

theorem State.bareOff_obj {s : State} {k : Nat} (hm : k ≠ oMbStates) (hf : keptByFns k = true) :
    s.bareOff.obj k = if keyLost [.k, .d, .v] allFns k then objDefault k else s.offEnded.obj k := by
  rw [State.bareOff, State.bared_obj, State.obj_dropObjects, State.clearMailboxes_obj hm, State.fnsLost_kept hf]

theorem State.bared_kept (s : State) :
    s.bared.power.aux = s.power.aux ∧ s.bared.power.pwrEn = s.power.pwrEn ∧ s.bared.power.mv48 = s.power.mv48 ∧
    s.bared.power.auxSettled = s.power.auxSettled ∧ s.bared.power.flash = s.power.flash := ⟨rfl, rfl, rfl, rfl, rfl⟩

theorem State.bareOff_power (s : State) :
    s.bareOff.power.aux = s.power.aux ∧ s.bareOff.power.pwrEn = s.power.pwrEn ∧
    s.bareOff.power.auxSettled = s.power.auxSettled := by
  obtain ⟨a, b, h⟩ := s.offEnded_power
  have hp : (s.offEnded.fnsLost.clearMailboxes.dropObjects [.k, .d, .v] allFns).power =
      { s.power with selfTest := a, selfTestStart := b } := by
    rw [State.dropObjects_power, State.clearMailboxes_power, State.fnsLost_power, h]
  obtain ⟨h1, h2, -, h4, -⟩ := State.bared_kept (s.offEnded.fnsLost.clearMailboxes.dropObjects [.k, .d, .v] allFns)
  rw [hp] at h1 h2 h4
  exact ⟨h1, h2, h4⟩

/-- The objects that the always-on domains' state is shown in. -/
def auxKeys : List Nat := [oDomainState 39, oDomainState 40, oInputMv]

theorem State.auxShown_onlyObj (s : State) : OnlyObj s s.auxShown := by
  unfold State.auxShown
  refine OnlyObj.setObj ?_ _ _
  split
  · exact ((OnlyObj.refl s).setObj _ _).setObj _ _
  · exact OnlyObj.refl s

theorem State.auxShown_sameObj (s : State) : SameObj s s.auxShown auxKeys := by
  unfold State.auxShown
  refine SameObj.setObj ?_ _ (by decide)
  split
  · exact ((SameObj.refl s auxKeys).setObj (k := oDomainState 39) _ (by decide)).setObj (k := oDomainState 40) _ (by decide)
  · exact SameObj.refl s _

theorem State.auxShown_on {s : State} (h : s.power.aux = true) :
    s.auxShown.dom 39 = domOn ∧ s.auxShown.dom 40 = domOn := by
  unfold State.auxShown
  rw [if_pos h, State.dom, State.dom, State.obj_setObj_ne _ _ (by decide), State.obj_setObj_ne _ _ (by decide)]
  refine ⟨?_, ?_⟩
  · refine (State.dom_setDom _ 40 domOn 39).trans ((if_neg (by decide)).trans ((State.dom_setDom s 39 domOn 39).trans (if_pos rfl)))
  · exact (State.dom_setDom _ 40 domOn 40).trans (if_pos rfl)

/-- What the loss of the 48 V domains leaves (Table 17-6). -/
structure Off (s t : State) : Prop where
  state : t.obj oPowerState = 0
  admitted : t.admitted = false
  doms : ∀ d ∈ domains48, t.dom d = domOff
  orderly : s.obj oPowerState ≠ 5 ∨ s.obj oLastShutdownOrderly = 0 → t.obj oLastShutdownOrderly = 0
  bytes : ∀ a, t.byteAt a = 0
  aux : t.power.aux = s.power.aux
  pwrEn : t.power.pwrEn = s.power.pwrEn
  settled : t.power.auxSettled = s.power.auxSettled
  on : s.power.aux = true → t.dom 39 = domOn ∧ t.dom 40 = domOn

theorem domains48_lost : ∀ d ∈ domains48, keptByFns (oDomainState d) = true ∧
    keyLost [.k, .d, .v] allFns (oDomainState d) = true ∧ objDefault (oDomainState d) = domOff ∧
    oDomainState d ≠ oMbStates ∧ oDomainState d ∉ auxKeys ∧ oDomainState d ∉ eventKeys := by
  decide +kernel

theorem State.bareOff_auxShown_off (s : State) : Off s s.bareOff.auxShown := by
  obtain ⟨hp1, hp2, hp3⟩ := s.bareOff_power
  have hlost : ∀ k, k ≠ oMbStates → keptByFns k = true → keyLost [.k, .d, .v] allFns k = true → k ∉ auxKeys →
      s.bareOff.auxShown.obj k = objDefault k := by
    intro k h1 h2 h3 h4
    rw [State.auxShown_sameObj _ k h4, State.bareOff_obj h1 h2, if_pos h3]
  have ho := s.bareOff.auxShown_onlyObj
  refine ⟨?_, State.admitted_of_empty ?_, fun d hd => ?_, fun h => ?_, fun a => ?_, ?_, ?_, ?_, fun ha => ?_⟩
  · rw [hlost _ (by decide) (by decide +kernel) (by decide +kernel) (by decide)]
    decide +kernel
  · rw [hlost _ (by decide) (by decide +kernel) (by decide +kernel) (by decide)]
    decide +kernel
  · obtain ⟨h1, h2, h3, h4, h5, -⟩ := domains48_lost d hd
    exact (hlost _ h4 h1 h2 h5).trans h3
  · rw [State.auxShown_sameObj _ _ (by decide), State.bareOff_obj (by decide) (by decide +kernel), if_neg (by decide +kernel),
      s.offEnded_orderly h]
  · rw [State.byteAt, ho.mem, State.bareOff, State.bared_bytes]
    rfl
  · rw [ho.power, hp1]
  · rw [ho.power, hp2]
  · rw [ho.power, hp3]
  · exact State.auxShown_on (hp1.trans ha)

/-- An event changes none of it: no plan stands whose EVENT queue could take its record. -/
theorem Off.logs {s t u : State} (h : Off s t) (k : Logs t u) : Off s u := by
  have hq := k.quiet (State.eventQueue_of_not_admitted h.admitted)
  refine ⟨(k.obj _ (by decide)).trans h.state, (State.admitted_congr (k.obj _ (by decide))).trans h.admitted,
    fun d hd => ?_, fun ho => (k.obj _ (by decide)).trans (h.orderly ho), fun a => ?_, ?_, ?_, ?_, fun ha => ?_⟩
  · obtain ⟨-, -, -, -, -, h6⟩ := domains48_lost d hd
    exact (k.obj _ h6).trans (h.doms d hd)
  · rw [State.byteAt, hq.1]
    exact h.bytes a
  · rw [k.power, h.aux]
  · rw [k.power, h.pwrEn]
  · rw [k.power, h.settled]
  · obtain ⟨h1, h2⟩ := h.on ha
    exact ⟨(k.obj _ (by decide)).trans h1, (k.obj _ (by decide)).trans h2⟩

theorem State.powerOff_off (s : State) : Off s s.powerOff := by
  rw [State.powerOff_eq]
  split
  · exact s.bareOff_auxShown_off
  · exact s.bareOff_auxShown_off.logs (State.raise_logs ..)

end Sys2Proof.Machine

namespace Sys2Proof.Machine

/-! ### The management complex restarted after a power loss -/

theorem State.restartMgmt_boot (s : State) :
    s.restartMgmt.power.boot = (if s.power.aux then .verifying else .off) ∧ s.restartMgmt.power.aux = s.power.aux ∧
    s.restartMgmt.power.pwrEn = s.power.pwrEn ∧ s.restartMgmt.power.auxSettled = s.power.auxSettled ∧
    s.restartMgmt.power.auxSince = s.power.auxSince ∧
    s.restartMgmt.mem = s.mem := ⟨rfl, rfl, rfl, rfl, rfl, rfl⟩

theorem State.restartMgmt_kept (s : State) {k : Nat} (h : keyLost [.v] [.mgmt] k = false) :
    s.restartMgmt.obj k = s.obj k := by
  rw [State.restartMgmt_obj, h]
  rfl

theorem domains_mgmt : ∀ d < 64, keyLost [.v] [.mgmt] (oDomainState d) = false := by decide +kernel

theorem Off.restart {s t : State} (h : Off s t) : Off s t.restartMgmt := by
  obtain ⟨-, h2, h3, h4, -, h6⟩ := t.restartMgmt_boot
  have h48 : ∀ d ∈ domains48, d < 64 := by decide
  have hd : ∀ d < 64, t.restartMgmt.dom d = t.dom d := fun d q => t.restartMgmt_kept (domains_mgmt d q)
  refine ⟨(t.restartMgmt_kept (by decide +kernel)).trans h.state,
    (State.admitted_congr (t.restartMgmt_kept (by decide +kernel))).trans h.admitted, fun d q => (hd d (h48 d q)).trans (h.doms d q),
    fun ho => (t.restartMgmt_kept (by decide +kernel)).trans (h.orderly ho), fun a => ?_, h2.trans h.aux, h3.trans h.pwrEn,
    h4.trans h.settled, fun ha => ?_⟩
  · rw [State.byteAt, h6]
    exact h.bytes a
  · obtain ⟨q1, q2⟩ := h.on ha
    exact ⟨(hd 39 (by decide)).trans q1, (hd 40 (by decide)).trans q2⟩

theorem State.cutCopy_power (s : State) :
    ∃ b f, s.cutCopy = s.setPower { s.power with copying := b, flash := f } := by
  unfold State.cutCopy
  split
  · exact ⟨_, _, rfl⟩
  · exact ⟨s.power.copying, s.power.flash, rfl⟩

/-- PWR_EN falls: OFF with the bytes lost, and the management complex started again while AUX_3V3 stands. -/
theorem State.pwrEnFalls_spec (s : State) :
    let t := s.pwrEnFalls
    t.obj oPowerState = 0 ∧ t.admitted = false ∧ (∀ d ∈ domains48, t.dom d = domOff) ∧ (∀ a, t.byteAt a = 0) ∧
    (s.obj oLastShutdownOrderly = 0 → t.obj oLastShutdownOrderly = 0) ∧ t.power.pwrEn = false ∧
    t.power.aux = s.power.aux ∧ t.power.auxSettled = s.power.auxSettled ∧
    t.power.boot = (if s.power.aux then .verifying else .off) ∧
    (s.power.aux = true → t.dom 39 = domOn ∧ t.dom 40 = domOn) := by
  let p : PowerSt := { s.power with pwrEn := false, thermTripN := false, latchedOff := false }
  obtain ⟨b, f, hc⟩ := (s.setPower p).cutCopy_power
  have h := State.powerOff_off (s.setPower p).cutCopy
  have he : s.pwrEnFalls = (s.setPower p).cutCopy.powerOff.restartMgmt := rfl
  obtain ⟨hb, -, -, -, -, -⟩ := State.restartMgmt_boot (s.setPower p).cutCopy.powerOff
  have hr := h.restart
  rw [h.aux] at hb
  have ha : (s.setPower p).cutCopy.power.aux = s.power.aux := by rw [hc]; rfl
  have hen : (s.setPower p).cutCopy.power.pwrEn = false := by rw [hc]; rfl
  have hse : (s.setPower p).cutCopy.power.auxSettled = s.power.auxSettled := by rw [hc]; rfl
  have ho : (s.setPower p).cutCopy.obj oLastShutdownOrderly = s.obj oLastShutdownOrderly := by rw [hc]; rfl
  rw [ha] at hb
  rw [he]
  exact ⟨hr.state, hr.admitted, hr.doms, hr.bytes, fun q => hr.orderly (.inr (ho.trans q)), hr.pwrEn.trans hen,
    hr.aux.trans ha, hr.settled.trans hse, hb, fun q => hr.on (ha.trans q)⟩

/-! ### The power-up -/

/-- A power-up of what a state shows of it: begun now, its domains waking, its memory to be zeroed, and counted. -/
structure Up (s t : State) : Prop where
  powerUp : t.power.powerUp = some s.now
  zeroing : t.power.zeroing = true
  now : t.now = s.now
  doms : ∀ d ∈ domains48, t.dom d = domWaking
  mem : t.obj oMemState = 0
  count : t.obj oPowerOnCount = (s.obj oPowerOnCount + 1) % 2 ^ objBits oPowerOnCount
  pins : t.power.pwrEn = s.power.pwrEn ∧ t.power.auxSettled = s.power.auxSettled ∧ t.power.auxSince = s.power.auxSince
  kept : ∀ k ∈ [oOrderlyAtStart, oLastShutdownOrderly, oInputMv], t.obj k = s.obj k

/-- The power fields as a power-up begins. -/
def PowerSt.upBegun (p : PowerSt) (now : Nat) : PowerSt :=
  { p with powerUp := some now, zeroing := true, nonces := p.nonces + 1,
           waking := domains48.map (fun d => ⟨d, now + wakeOffset d + domLatency d⟩) }

/-- The power-up counted, its domains waking and the memory lost. -/
def State.upStarted (s : State) : State :=
  ((((s.bump oPowerOnCount).setPower (s.power.upBegun s.now)).setObj oLcNonce
    (Config.lcNonce (s.power.nonces + 1)).toNat).setDoms domains48 domWaking).setObj oMemState 0

/-- The power-up begun, before the last self-test's results bind the engines. -/
def State.upBegun (s : State) : State :=
  s.upStarted.setPower { s.upStarted.power with selfTestStart := s.upStarted.needsStartTest }

theorem State.beginPowerUp_eq (s : State) : s.beginPowerUp = s.upBegun.bindReport true := by
  unfold State.beginPowerUp State.upBegun State.bindReport State.setPower State.upStarted
  dsimp only
  simp only [State.bump, State.addObj, State.setObj_power, State.setObj_now]
  rfl

theorem State.upStarted_power (s : State) : s.upStarted.power = s.power.upBegun s.now ∧ s.upStarted.now = s.now := by
  have h : OnlyObj ((s.bump oPowerOnCount).setPower (s.power.upBegun s.now)) s.upStarted :=
    (((OnlyObj.refl _).setObj _ _).trans (State.setDoms_onlyObj _ _ _)).setObj _ _
  obtain ⟨od, h⟩ := h
  rw [h]
  exact ⟨rfl, rfl⟩

theorem State.upBegun_power (s : State) :
    s.upBegun.power.powerUp = some s.now ∧ s.upBegun.power.zeroing = true ∧ s.upBegun.power.pwrEn = s.power.pwrEn ∧
    s.upBegun.power.auxSettled = s.power.auxSettled ∧ s.upBegun.power.auxSince = s.power.auxSince ∧
    s.upBegun.now = s.now := by
  obtain ⟨h1, h2⟩ := s.upStarted_power
  unfold State.upBegun
  generalize s.upStarted = t at h1 h2
  rw [h1]
  exact ⟨rfl, rfl, rfl, rfl, rfl, h2⟩

theorem State.upBegun_obj (s : State) {k : Nat} (h : ∀ d ∈ domains48, k ≠ oDomainState d) :
    s.upBegun.obj k = (((s.bump oPowerOnCount).setObj oLcNonce (Config.lcNonce (s.power.nonces + 1)).toNat).setObj
      oMemState 0).obj k := by
  rw [State.upBegun, State.setPower_obj, State.upStarted, State.obj_setObj, State.obj_setObj, State.obj_setDoms _ _ _ h,
    State.obj_setObj, State.obj_setObj, State.setPower_obj]

theorem State.upBegun_dom (s : State) {d : Nat} (h : d ∈ domains48) : s.upBegun.dom d = domWaking := by
  have hne : ∀ d ∈ domains48, oDomainState d ≠ oMemState := by decide
  rw [State.upBegun, State.setPower_dom, State.upStarted, State.dom, State.obj_setObj_ne _ _ (hne d h)]
  exact (State.dom_setDoms _ _ _ _).trans (if_pos h)

theorem domains48_bind : ∀ d ∈ domains48, (bindKeys ++ eventKeys).contains (oDomainState d) = false := by decide +kernel

theorem State.beginPowerUp_up (s : State) : Up s s.beginPowerUp := by
  obtain ⟨h1, h2, h3, h4, h5, h6⟩ := s.upBegun_power
  have hw := s.upBegun.bindReport_writes true
  have ho : ∀ k, (bindKeys ++ eventKeys).contains k = false → (∀ d ∈ domains48, k ≠ oDomainState d) →
      (s.upBegun.bindReport true).obj k = (((s.bump oPowerOnCount).setObj oLcNonce
        (Config.lcNonce (s.power.nonces + 1)).toNat).setObj oMemState 0).obj k :=
    fun k q1 q2 => (hw.kept q1).trans (s.upBegun_obj q2)
  rw [State.beginPowerUp_eq]
  refine ⟨by rw [hw.power, h1], by rw [hw.power, h2], hw.now.trans h6, fun d hd => ?_, ?_, ?_, ?_, fun k hk => ?_⟩
  · exact (hw.kept (domains48_bind d hd)).trans (s.upBegun_dom hd)
  · rw [ho _ (by decide +kernel) (by decide), State.obj_setObj_self]
  · rw [ho _ (by decide +kernel) (by decide), State.obj_setObj_ne _ _ (by decide), State.obj_setObj_ne _ _ (by decide),
      State.bump_obj_self]
  · rw [hw.power]
    exact ⟨h3, h4, h5⟩
  · have hall : ∀ k ∈ [oOrderlyAtStart, oLastShutdownOrderly, oInputMv], (bindKeys ++ eventKeys).contains k = false ∧
        (∀ d ∈ domains48, k ≠ oDomainState d) ∧ k ≠ oMemState ∧ k ≠ oLcNonce ∧ k ≠ oPowerOnCount := by decide +kernel
    obtain ⟨q1, q2, q3, q4, q5⟩ := hall k hk
    rw [ho k q1 q2, State.obj_setObj_ne _ _ q3, State.obj_setObj_ne _ _ q4, State.bump_obj_ne _ q5]

/-- What a power-up waits for (R437, R440, R464, R475). -/
def State.mayPowerUp (s : State) : Bool :=
  s.power.pwrEn && s.power.auxSettled && s.inRange48 && !s.power.latchedOff && s.power.powerUp.isNone &&
  s.obj oPowerState == 0 && s.power.resetN && !s.power.thermTripN

theorem State.tryPowerUp_eq (s : State) : s.tryPowerUp = if s.mayPowerUp then s.beginPowerUp else s := rfl

/-- LAST_SHUTDOWN_ORDERLY copied and cleared, as the PWR_EN rise is sampled. -/
def State.orderlySampled (s : State) : State :=
  (s.setObj oOrderlyAtStart (s.obj oLastShutdownOrderly)).setObj oLastShutdownOrderly 0

theorem State.sampleRise_eq (s : State) : s.sampleRise = s.orderlySampled.tryPowerUp := rfl

theorem State.orderlySampled_obj (s : State) :
    s.orderlySampled.obj oOrderlyAtStart = s.obj oLastShutdownOrderly ∧ s.orderlySampled.obj oLastShutdownOrderly = 0 ∧
    SameObj s s.orderlySampled [oOrderlyAtStart, oLastShutdownOrderly] := by
  refine ⟨?_, State.obj_setObj_self .., ?_⟩
  · rw [State.orderlySampled, State.obj_setObj_ne _ _ (by decide), State.obj_setObj_self]
  · exact ((SameObj.refl s _).setObj (k := oOrderlyAtStart) _ (by decide)).setObj (k := oLastShutdownOrderly) _ (by decide)

theorem State.orderlySampled_may (s : State) : s.orderlySampled.mayPowerUp = s.mayPowerUp := by
  have h := s.orderlySampled_obj.2.2 oPowerState (by decide)
  simp only [State.mayPowerUp, h]
  rfl

theorem State.orderlySampled_power (s : State) : s.orderlySampled.power = s.power := by
  rw [State.orderlySampled, State.setObj_power, State.setObj_power]

theorem State.orderlySampled_now (s : State) : s.orderlySampled.now = s.now := by
  rw [State.orderlySampled, State.setObj_now, State.setObj_now]

theorem State.orderlySampled_mem (s : State) : s.orderlySampled.mem = s.mem := by
  rw [State.orderlySampled, State.setObj_mem, State.setObj_mem]

/-- What `Up` says of a state whose objects and clock another shares, but for the shutdown's notes. -/
theorem State.sampleRise_up {s : State} (h : s.mayPowerUp = true) :
    Up s.orderlySampled s.sampleRise ∧ s.sampleRise.obj oOrderlyAtStart = s.obj oLastShutdownOrderly ∧
    s.sampleRise.obj oLastShutdownOrderly = 0 := by
  obtain ⟨h1, h2, -⟩ := s.orderlySampled_obj
  have hu := s.orderlySampled.beginPowerUp_up
  rw [State.sampleRise_eq, State.tryPowerUp_eq, s.orderlySampled_may, if_pos h]
  exact ⟨hu, (hu.kept _ (by decide)).trans h1, (hu.kept _ (by decide)).trans h2⟩

theorem State.sampleRise_waits {s : State} (h : s.mayPowerUp = false) : s.sampleRise = s.orderlySampled := by
  rw [State.sampleRise_eq, State.tryPowerUp_eq, s.orderlySampled_may, h]
  rfl

end Sys2Proof.Machine

namespace Sys2Proof.Machine

/-! ### The end of the power-up -/

theorem State.advanceTo_le (s : State) (t : Nat) : t ≤ (s.advanceTo t).now := by
  show t ≤ s.now + (t - s.now)
  omega

theorem State.advanceTo_frame (s : State) (t : Nat) :
    (s.advanceTo t).power = s.power ∧ (s.advanceTo t).od = s.od ∧ (s.advanceTo t).mem = s.mem := ⟨rfl, rfl, rfl⟩

theorem State.advanceTo_obj (s : State) (t k : Nat) : (s.advanceTo t).obj k = s.obj k := rfl

theorem State.endPowerUp_spec (s : State) :
    s.endPowerUp.power.powerUp = none ∧ s.endPowerUp.power.tripLatched = s.power.tripLatched ∧
    (∀ d ∈ domains48, s.endPowerUp.dom d = domOn) ∧ s.endPowerUp.now = s.now ∧
    (∀ k, (∀ d ∈ domains48, k ≠ oDomainState d) → s.endPowerUp.obj k = s.obj k) := by
  have h : s.endPowerUp = (s.setPower { s.power with powerUp := none, waking := [] }).setDoms domains48 domOn := rfl
  obtain ⟨od, ho⟩ := State.setDoms_onlyObj (s.setPower { s.power with powerUp := none, waking := [] }) domains48 domOn
  refine ⟨?_, ?_, fun d hd => ?_, ?_, fun k hk => ?_⟩
  · rw [h, State.setDoms_power]
    rfl
  · rw [h, State.setDoms_power]
    rfl
  · rw [h]
    exact (State.dom_setDoms _ _ _ _).trans (if_pos hd)
  · rw [h, ho]
    rfl
  · rw [h, State.obj_setDoms _ _ _ hk]
    rfl

/-- The power-up ended in RUN, SAFE not yet judged. -/
def State.runReached (s : State) (t : Nat) : State := (s.advanceTo t).endPowerUp.setPowerState 1

theorem State.runReached_spec (s : State) (t : Nat) :
    (s.runReached t).obj oPowerState = 1 ∧ (∀ d ∈ domains48, (s.runReached t).dom d = domOn) ∧
    (s.runReached t).power.powerUp = none ∧ (s.runReached t).power.tripLatched = s.power.tripLatched ∧
    t ≤ (s.runReached t).now ∧ (s.runReached t).obj oStResult = s.obj oStResult ∧
    (s.runReached t).obj oSafe = s.obj oSafe := by
  obtain ⟨h1, h2, h3, h4, h5⟩ := (s.advanceTo t).endPowerUp_spec
  have hs := (s.advanceTo t).endPowerUp.setPowerState_sameObj 1
  have hk : ∀ d ∈ domains48, oDomainState d ∉ oPowerState :: eventKeys := by decide +kernel
  unfold State.runReached
  refine ⟨State.setPowerState_obj .., fun d hd => (hs _ (hk d hd)).trans (h3 d hd), ?_, ?_, ?_, ?_, ?_⟩
  · rw [State.setPowerState_power, h1]
  · rw [State.setPowerState_power, h2]
    rfl
  · rw [((s.advanceTo t).endPowerUp.setPowerState_logs 1).now, State.setObj_now, h4]
    exact s.advanceTo_le t
  · rw [hs _ (by decide), h5 _ (by decide), State.advanceTo_obj]
  · rw [hs _ (by decide), h5 _ (by decide), State.advanceTo_obj]

theorem domains48_safe : ∀ d ∈ domains48, oDomainState d ∉ safeKeys := by decide +kernel

/-- SAFE as the power-up ends (R403, R440): entered by a FAIL, or by the trip that was latched. -/
def State.safeJudged (s : State) : State :=
  if s.obj oStResult = 3 then s.clearTrip.enterSafe 1
  else if s.power.tripLatched then s.clearTrip.enterSafe 2
  else s

theorem State.clearTrip_spec (s : State) :
    s.clearTrip.power.powerUp = s.power.powerUp ∧ s.clearTrip.power.tripLatched = false ∧ s.clearTrip.now = s.now ∧
    (∀ k, s.clearTrip.obj k = s.obj k) := ⟨rfl, rfl, rfl, fun _ => rfl⟩

theorem State.safeJudged_spec (s : State) :
    s.safeJudged.power.powerUp = s.power.powerUp ∧ s.safeJudged.now = s.now ∧
    (∀ k, k ∉ safeKeys → s.safeJudged.obj k = s.obj k) ∧
    (s.obj oStResult = 3 → s.safeJudged.obj oSafe ≠ 0 ∧ (s.obj oSafe = 0 → s.safeJudged.obj oSafe = 1)) ∧
    (s.obj oStResult ≠ 3 → s.power.tripLatched = true →
      s.safeJudged.obj oSafe ≠ 0 ∧ (s.obj oSafe = 0 → s.safeJudged.obj oSafe = 2) ∧
        s.safeJudged.power.tripLatched = false) ∧
    (s.obj oStResult ≠ 3 → s.power.tripLatched = false → s.safeJudged.obj oSafe = s.obj oSafe) := by
  obtain ⟨c1, c2, c3, c4⟩ := s.clearTrip_spec
  have hne : ∀ c, c ≠ 0 → (if s.obj oSafe = 0 then c else s.obj oSafe) ≠ 0 := by
    intro c hc
    split
    · exact hc
    · assumption
  unfold State.safeJudged
  by_cases h3 : s.obj oStResult = 3
  · rw [if_pos h3]
    obtain ⟨e1, -, -, e4, e5, e6⟩ := s.clearTrip.enterSafe_spec 1
    rw [c4] at e1
    refine ⟨by rw [e5, c1], e6.trans c3, fun k hk => (e4 k hk).trans (c4 k), fun _ => ⟨?_, fun q => e1.trans (if_pos q)⟩,
      fun q => absurd h3 q, fun q => absurd h3 q⟩
    rw [e1]
    exact hne 1 (by decide)
  · rw [if_neg h3]
    by_cases ht : s.power.tripLatched = true
    · rw [if_pos ht]
      obtain ⟨e1, -, -, e4, e5, e6⟩ := s.clearTrip.enterSafe_spec 2
      rw [c4] at e1
      refine ⟨by rw [e5, c1], e6.trans c3, fun k hk => (e4 k hk).trans (c4 k), fun q => absurd q h3,
        fun _ _ => ⟨?_, fun q => e1.trans (if_pos q), by rw [e5, c2]⟩, fun _ q => absurd ht (Bool.eq_false_iff.mp q)⟩
      rw [e1]
      exact hne 2 (by decide)
    · rw [if_neg ht]
      exact ⟨rfl, rfl, fun _ _ => rfl, fun q => absurd q h3, fun _ q => absurd q ht, fun _ _ => rfl⟩

theorem State.exec_powerUpDone {s : State} {n : Nat} (h : s.power.powerUp = some n) (hz : s.power.zeroing = false)
    (ht : s.power.selfTestStart = false) :
    exec .powerUpDone s = .next (s.quiet.runReached (n + powerUpNs)).safeJudged := by
  show execPowerUpDone s = _
  have hn : ¬(s.quiet.power.zeroing || s.quiet.power.selfTestStart) = true := by
    rw [show s.quiet.power.zeroing = false from hz, show s.quiet.power.selfTestStart = false from ht]
    decide
  rw [execPowerUpDone, show s.quiet.power.powerUp = some n from h]
  refine (if_neg hn).trans ?_
  unfold State.safeJudged State.runReached
  dsimp only
  generalize (s.quiet.advanceTo (n + powerUpNs)).endPowerUp.setPowerState 1 = t
  repeat' split
  all_goals rfl

theorem State.exec_powerUpDone_waits {s : State}
    (h : (s.power.powerUp.isSome && !s.power.zeroing && !s.power.selfTestStart) = false) :
    exec .powerUpDone s = .next s.quiet := by
  show execPowerUpDone s = _
  unfold execPowerUpDone
  extract_lets t
  split
  · rfl
  · next n hn =>
    refine if_pos ?_
    rw [show s.power.powerUp = some n from hn] at h
    show (s.power.zeroing || s.power.selfTestStart) = true
    revert h
    cases s.power.zeroing <;> cases s.power.selfTestStart <;> simp

/-! ### Pins and supplies -/

/-- PWR_EN high, or noted as latched no more. -/
def State.raisePwrEn (s : State) : State := s.setPower { s.power with pwrEn := true, latchedOff := false }

theorem State.exec_pwrEnRise {s : State} (h : s.power.pwrEn = false) :
    exec .pwrEnRise s = .next (if s.power.auxSettled then s.quiet.raisePwrEn.sampleRise else s.quiet.raisePwrEn) := by
  show execPwrEnRise s = _
  rw [execPwrEnRise]
  refine (if_neg (show ¬s.quiet.power.pwrEn = true from Bool.eq_false_iff.mp h)).trans ?_
  cases ha : s.power.auxSettled with
  | true => exact if_pos ha
  | false => exact if_neg (Bool.eq_false_iff.mp ha)

/-- A power-up does not stand against the power state, the pins or a power-up under way. -/
def State.upFree (s : State) : Bool :=
  s.power.powerUp.isNone && s.obj oPowerState == 0 && s.power.resetN && !s.power.thermTripN

theorem State.mayPowerUp_eq (s : State) :
    s.mayPowerUp = (s.power.pwrEn && s.power.auxSettled && !s.power.latchedOff && (s.inRange48 && s.upFree)) := by
  simp only [State.mayPowerUp, State.upFree]
  cases s.power.pwrEn <;> cases s.power.auxSettled <;> cases s.power.latchedOff <;> simp [Bool.and_assoc]

theorem State.raisePwrEn_may {s : State} (h : s.power.auxSettled = true) :
    s.quiet.raisePwrEn.mayPowerUp = (s.inRange48 && s.upFree) := by
  have hp : s.quiet.raisePwrEn.power.pwrEn = true := rfl
  have hl : s.quiet.raisePwrEn.power.latchedOff = false := rfl
  have ha : s.quiet.raisePwrEn.power.auxSettled = true := h
  rw [State.mayPowerUp_eq, hp, hl, ha]
  rfl

theorem State.raisePwrEn_spec (s : State) :
    s.quiet.raisePwrEn.power.pwrEn = true ∧ s.quiet.raisePwrEn.power.powerUp = s.power.powerUp ∧
    s.quiet.raisePwrEn.od = s.od ∧ s.quiet.raisePwrEn.mem = s.mem ∧ s.quiet.raisePwrEn.now = s.now ∧
    (∀ k, s.quiet.raisePwrEn.obj k = s.obj k) := ⟨rfl, rfl, rfl, rfl, rfl, fun _ => rfl⟩

/-- A sampled rise that begins the power-up. -/
theorem State.sampleRise_begins {s : State} (h : s.mayPowerUp = true) :
    s.sampleRise.now = s.now ∧ s.sampleRise.power.pwrEn = s.power.pwrEn ∧
    s.sampleRise.power.auxSettled = s.power.auxSettled ∧
    s.sampleRise.power.powerUp = some s.now ∧ s.sampleRise.power.zeroing = true ∧
    (∀ d ∈ domains48, s.sampleRise.dom d = domWaking) ∧ s.sampleRise.obj oMemState = 0 ∧
    s.sampleRise.obj oPowerOnCount = (s.obj oPowerOnCount + 1) % 2 ^ objBits oPowerOnCount ∧
    s.sampleRise.obj oOrderlyAtStart = s.obj oLastShutdownOrderly ∧ s.sampleRise.obj oLastShutdownOrderly = 0 := by
  obtain ⟨hu, h1, h2⟩ := State.sampleRise_up h
  obtain ⟨p1, p2, -⟩ := hu.pins
  rw [s.orderlySampled_power] at p1 p2
  refine ⟨hu.now.trans s.orderlySampled_now, p1, p2, ?_, hu.zeroing, hu.doms, hu.mem, ?_, h1, h2⟩
  · rw [hu.powerUp, s.orderlySampled_now]
  · rw [hu.count, s.orderlySampled_obj.2.2 _ (by decide)]

theorem State.exec_pwrEnFall {s : State} (h : s.power.pwrEn = true) :
    exec .pwrEnFall s = .next s.quiet.pwrEnFalls := by
  show execPwrEnFall s = _
  rw [execPwrEnFall]
  exact if_pos h

/-- AUX_3V3 gone. -/
def State.auxGone (s : State) : State := s.setPower { s.power with aux := false, auxSettled := false }

/-- The loss of AUX_3V3 with PWR_EN high: the fall of PWR_EN, whose level stands. -/
def State.auxLostHigh (s : State) : State :=
  let t := (s.auxGone.setObj oLastShutdownOrderly 0).pwrEnFalls
  t.setPower { t.power with pwrEn := true }

/-- The always-on domains shown off, or on. -/
def State.setAon (s : State) (v : Nat) : State := (s.setDom 39 v).setDom 40 v

theorem State.setAon_spec (s : State) (v : Nat) :
    (s.setAon v).dom 39 = v ∧ (s.setAon v).dom 40 = v ∧ (s.setAon v).power = s.power ∧
    SameObj s (s.setAon v) [oDomainState 39, oDomainState 40] := by
  refine ⟨?_, ?_, rfl, ?_⟩
  · exact (State.dom_setDom _ 40 v 39).trans ((if_neg (by decide)).trans ((State.dom_setDom s 39 v 39).trans (if_pos rfl)))
  · exact (State.dom_setDom _ 40 v 40).trans (if_pos rfl)
  · exact ((SameObj.refl s _).setObj (k := oDomainState 39) v (by decide)).setObj (k := oDomainState 40) v (by decide)

theorem State.exec_aux3v3Loss {s : State} (h : s.power.aux = true) :
    exec .aux3v3Loss s = .next (State.setAon
      (if s.power.pwrEn then s.quiet.auxLostHigh else s.quiet.auxGone.cutCopy.restartMgmt) domOff) := by
  show execAux3v3Loss s = _
  rw [execAux3v3Loss]
  exact if_pos h

theorem State.auxLostHigh_spec (s : State) :
    s.auxLostHigh.power.aux = false ∧ s.auxLostHigh.power.auxSettled = false ∧ s.auxLostHigh.power.boot = .off ∧
    s.auxLostHigh.power.pwrEn = true ∧ s.auxLostHigh.obj oPowerState = 0 ∧ s.auxLostHigh.obj oLastShutdownOrderly = 0 ∧
    (∀ d ∈ domains48, s.auxLostHigh.dom d = domOff) := by
  obtain ⟨h1, -, h3, -, h5, -, h7, h8, h9, -⟩ := (s.auxGone.setObj oLastShutdownOrderly 0).pwrEnFalls_spec
  rw [State.setObj_power] at h7 h8 h9
  exact ⟨h7, h8, h9, rfl, h1, h5 (State.obj_setObj_self ..), h3⟩

theorem State.auxLostLow_spec (s : State) :
    s.auxGone.cutCopy.restartMgmt.power.aux = false ∧ s.auxGone.cutCopy.restartMgmt.power.auxSettled = false ∧
    s.auxGone.cutCopy.restartMgmt.power.boot = .off ∧
    s.auxGone.cutCopy.restartMgmt.power.pwrEn = s.power.pwrEn := by
  obtain ⟨b, f, hc⟩ := s.auxGone.cutCopy_power
  obtain ⟨h1, h2, h3, h4, -, -⟩ := s.auxGone.cutCopy.restartMgmt_boot
  have ha : s.auxGone.cutCopy.power.aux = false := by rw [hc]; rfl
  rw [ha] at h1 h2
  refine ⟨h2, h4.trans ?_, h1, h3.trans ?_⟩
  · rw [hc]; rfl
  · rw [hc]; rfl

/-- AUX_3V3 in range from now on, and the ledger's interval begun with it. -/
def State.auxRisen (s : State) : State :=
  { s with power := { s.power with aux := true, auxSince := s.now },
           ledger := { s.ledger with intervalStart := s.now, inInterval := 0, suppressedRaised := false } }

theorem State.auxRisen_power (s : State) : s.auxRisen.power = { s.power with aux := true, auxSince := s.now } := rfl

theorem State.exec_aux3v3Rise {s : State} (h : s.power.aux = false) :
    exec .aux3v3Rise s = .next (s.quiet.auxRisen.restartMgmt.setAon domOn) := by
  show execAux3v3Rise s = _
  rw [execAux3v3Rise]
  exact if_neg (Bool.eq_false_iff.mp h)

/-- AUX_3V3 settled at the time `n`. -/
def State.auxSettleAt (s : State) (n : Nat) : State :=
  (s.advanceTo n).setPower { (s.advanceTo n).power with auxSettled := true }

theorem State.auxSettleAt_power (s : State) (n : Nat) :
    (s.auxSettleAt n).power = { s.power with auxSettled := true } ∧ n ≤ (s.auxSettleAt n).now ∧
    (s.auxSettleAt n).od = s.od ∧ (s.auxSettleAt n).mem = s.mem ∧ (∀ k, (s.auxSettleAt n).obj k = s.obj k) :=
  ⟨rfl, s.advanceTo_le n, rfl, rfl, fun _ => rfl⟩

/-- AUX_3V3 settled at the time `n`, and PWR_EN sampled. -/
def State.settledOutcome (s : State) (n : Nat) : Host.Outcome State Fault Refusal :=
  let s := s.advanceTo n
  let s := { s with power := { s.power with auxSettled := true } }
  if s.power.pwrEn then .next s.sampleRise else .next s

theorem State.settledOutcome_eq (s : State) (n : Nat) :
    s.settledOutcome n = .next (if s.power.pwrEn then (s.auxSettleAt n).sampleRise else s.auxSettleAt n) := by
  cases ha : s.power.pwrEn with
  | true => exact if_pos ha
  | false => exact if_neg (Bool.eq_false_iff.mp ha)

theorem State.exec_aux3v3Settled {s : State} (h : (s.power.aux && !s.power.auxSettled) = true) :
    exec .aux3v3Settled s = .next (if s.power.pwrEn then
      (s.quiet.auxSettleAt (s.power.auxSince + 200000000)).sampleRise
      else s.quiet.auxSettleAt (s.power.auxSince + 200000000)) := by
  have hx : exec .aux3v3Settled s = if s.quiet.power.aux && !s.quiet.power.auxSettled then
      s.quiet.settledOutcome (s.quiet.power.auxSince + 200000000) else .next s.quiet := rfl
  rw [hx, State.settledOutcome_eq]
  exact if_pos h

end Sys2Proof.Machine

namespace Sys2Proof.Machine

/-! ### The 48 V input -/

/-- The input's voltage noted. -/
def State.inputNoted (s : State) (mv : Nat) : State :=
  (s.setObj oInputMv mv).setPower { s.power with mv48 := mv }

theorem State.inputNoted_spec (s : State) (mv : Nat) :
    (s.inputNoted mv).obj oInputMv = mv ∧ SameObj s (s.inputNoted mv) [oInputMv] ∧
    (s.inputNoted mv).power = { s.power with mv48 := mv } ∧ (s.inputNoted mv).mem = s.mem ∧
    (s.inputNoted mv).now = s.now := by
  refine ⟨?_, fun k hk => ?_, rfl, rfl, rfl⟩
  · rw [State.inputNoted, State.setPower_obj, State.obj_setObj_self]
  · rw [State.inputNoted, State.setPower_obj, State.obj_setObj_ne _ _ (fun h => hk (List.mem_singleton.mpr h))]

/-- The module on, or its power-up under way. -/
def State.poweredOn (s : State) : Prop := s.obj oPowerState ≠ 0 ∨ s.power.powerUp.isSome = true

/-- What a new voltage does once it is noted. -/
def State.inputJudged (s : State) (was : Bool) (mv : Nat) : Host.Outcome State Fault Refusal :=
  if s.obj oPowerState ≠ 0 ∨ s.power.powerUp.isSome = true then
    if mv < 38000 ∨ 62000 < mv then .next (s.powerLost.setPower { s.powerLost.power with latchedOff := true })
    else if was && !s.inRange48 then .next (s.bump oInputAlerts)
    else .next s
  else .next s.tryPowerUp

theorem State.exec_inputVoltageChange (s : State) (mv : W32) :
    exec (.inputVoltageChange mv) s = (s.quiet.inputNoted mv.toNat).inputJudged s.inRange48 mv.toNat := rfl

theorem State.inputNoted_poweredOn {s : State} {mv : Nat} :
    ((s.quiet.inputNoted mv).obj oPowerState ≠ 0 ∨ (s.quiet.inputNoted mv).power.powerUp.isSome = true) ↔
      s.poweredOn := by
  obtain ⟨-, h2, h3, -, -⟩ := s.quiet.inputNoted_spec mv
  rw [h2 _ (by decide), h3]
  exact Iff.rfl

theorem State.inputNoted_inRange48 (s : State) (mv : Nat) :
    (s.inputNoted mv).inRange48 = (decide (40000 ≤ mv) && decide (mv ≤ 60000)) := by
  obtain ⟨-, -, h3, -, -⟩ := s.inputNoted_spec mv
  rw [State.inRange48, h3]

theorem State.inputNoted_alert {s : State} {mv : Nat} (h : mv < 40000 ∨ 60000 < mv) : (s.inputNoted mv).alert = true := by
  obtain ⟨-, -, h3, -, -⟩ := s.inputNoted_spec mv
  rw [State.alert, h3]
  rcases h with h | h
  · simp only [decide_eq_true h, Bool.or_true, Bool.true_or]
  · simp only [decide_eq_true h, Bool.or_true]

theorem State.powerLost_off (s : State) : Off (s.setObj oLastShutdownOrderly 0) s.powerLost := State.powerOff_off _

theorem State.inputNoted_may (s : State) (mv : Nat) (h : ¬ s.poweredOn) :
    (s.quiet.inputNoted mv).mayPowerUp = (s.power.pwrEn && s.power.auxSettled && !s.power.latchedOff && s.power.resetN &&
      !s.power.thermTripN && decide (40000 ≤ mv) && decide (mv ≤ 60000)) := by
  rw [State.poweredOn, not_or, Classical.not_not, Bool.not_eq_true, Option.isSome_eq_false_iff] at h
  obtain ⟨hs, hu⟩ := h
  obtain ⟨-, h2, h3, -, -⟩ := s.quiet.inputNoted_spec mv
  have hs' : (s.quiet.inputNoted mv).obj oPowerState = 0 := (h2 _ (by decide)).trans hs
  have hu' : (s.quiet.inputNoted mv).power.powerUp.isNone = true := by rw [h3]; exact hu
  have h1 : (s.quiet.inputNoted mv).upFree = (s.power.resetN && !s.power.thermTripN) := by
    rw [State.upFree, hs', hu', h3]
    rfl
  rw [State.mayPowerUp_eq, h1, State.inputNoted_inRange48, h3]
  show (s.power.pwrEn && s.power.auxSettled && !s.power.latchedOff && (decide (40000 ≤ mv) && decide (mv ≤ 60000) &&
    (s.power.resetN && !s.power.thermTripN))) = _
  generalize decide (40000 ≤ mv) = a
  generalize decide (mv ≤ 60000) = b
  generalize (s.power.pwrEn && s.power.auxSettled && !s.power.latchedOff) = c
  cases c <;> cases a <;> cases b <;> simp

/-! ### The power pins -/

theorem State.auxSettleAt_may {s : State} (n : Nat) (h : s.power.pwrEn = true) :
    (s.quiet.auxSettleAt n).mayPowerUp = (s.inRange48 && !s.power.latchedOff && s.upFree) := by
  obtain ⟨hp, -, -, -, ho⟩ := s.quiet.auxSettleAt_power n
  have h1 : (s.quiet.auxSettleAt n).upFree = s.upFree := by
    rw [State.upFree, hp, ho]
    rfl
  have h2 : (s.quiet.auxSettleAt n).inRange48 = s.inRange48 := by
    rw [State.inRange48, hp]
    rfl
  have h3 : (s.quiet.auxSettleAt n).power.pwrEn = true := by rw [hp]; exact h
  have h4 : (s.quiet.auxSettleAt n).power.auxSettled = true := by rw [hp]
  have h5 : (s.quiet.auxSettleAt n).power.latchedOff = s.power.latchedOff := by rw [hp]; rfl
  rw [State.mayPowerUp_eq, h1, h2, h3, h4, h5]
  cases s.power.latchedOff <;> simp

/-- AUX_3V3 settles with PWR_EN low: nothing but the time and the note of it changes. -/
theorem State.aux3v3Settled_low {s : State} (h : (s.power.aux && !s.power.auxSettled) = true) (hp : s.power.pwrEn = false) :
    Gives .aux3v3Settled s (fun t => (t.power.auxSettled = true ∧ s.power.auxSince + 200000000 ≤ t.now) ∧ t.od = s.od ∧
      t.mem = s.mem) := by
  refine ⟨_, State.exec_aux3v3Settled h, ?_⟩
  rw [hp]
  obtain ⟨h1, h2, h3, h4, -⟩ := s.quiet.auxSettleAt_power (s.power.auxSince + 200000000)
  exact ⟨⟨congrArg PowerSt.auxSettled h1, h2⟩, h3, h4⟩

theorem State.aux3v3Settled_begins {s : State} (h : (s.power.aux && !s.power.auxSettled) = true) (hp : s.power.pwrEn = true)
    (hg : (s.inRange48 && !s.power.latchedOff && s.upFree) = true) :
    Gives .aux3v3Settled s (fun t => (t.power.auxSettled = true ∧ s.power.auxSince + 200000000 ≤ t.now) ∧
      (t.power.powerUp = some t.now ∧ t.power.zeroing = true ∧ (∀ d ∈ domains48, t.dom d = domWaking) ∧
        t.obj oMemState = 0 ∧ t.obj oPowerOnCount = (s.obj oPowerOnCount + 1) % 2 ^ objBits oPowerOnCount) ∧
      t.obj oOrderlyAtStart = s.obj oLastShutdownOrderly ∧ t.obj oLastShutdownOrderly = 0) := by
  refine ⟨_, State.exec_aux3v3Settled h, ?_⟩
  rw [hp]
  obtain ⟨h1, h2, -, -, h5⟩ := s.quiet.auxSettleAt_power (s.power.auxSince + 200000000)
  have hm := s.auxSettleAt_may (s.power.auxSince + 200000000) hp
  rw [hg] at hm
  generalize s.quiet.auxSettleAt (s.power.auxSince + 200000000) = u at h1 h2 h5 hm
  obtain ⟨a1, -, a3, a4, a5, a6, a7, a8, a9, a10⟩ := State.sampleRise_begins hm
  rw [if_pos rfl]
  refine ⟨⟨a3.trans (congrArg PowerSt.auxSettled h1), a1 ▸ h2⟩, ⟨a4.trans (congrArg some a1.symm), a5, a6, a7, ?_⟩,
    a9.trans (h5 _), a10⟩
  rw [a8, h5]
  rfl

theorem State.aux3v3Settled_waits {s : State} (h : (s.power.aux && !s.power.auxSettled) = true) (hp : s.power.pwrEn = true)
    (hg : (s.inRange48 && !s.power.latchedOff && s.upFree) = false) :
    Gives .aux3v3Settled s (fun t => (t.power.auxSettled = true ∧ s.power.auxSince + 200000000 ≤ t.now) ∧
      (t.obj oOrderlyAtStart = s.obj oLastShutdownOrderly ∧ t.obj oLastShutdownOrderly = 0) ∧
      t.power.powerUp = s.power.powerUp ∧ SameObj s t [oOrderlyAtStart, oLastShutdownOrderly]) := by
  refine ⟨_, State.exec_aux3v3Settled h, ?_⟩
  rw [hp]
  obtain ⟨h1, h2, -, -, h5⟩ := s.quiet.auxSettleAt_power (s.power.auxSince + 200000000)
  have hm := s.auxSettleAt_may (s.power.auxSince + 200000000) hp
  rw [hg] at hm
  generalize s.quiet.auxSettleAt (s.power.auxSince + 200000000) = u at h1 h2 h5 hm
  obtain ⟨o1, o2, o3⟩ := u.orderlySampled_obj
  rw [if_pos rfl, State.sampleRise_waits hm]
  refine ⟨⟨?_, ?_⟩, ⟨o1.trans (h5 _), o2⟩, ?_, fun k hk => (o3 k hk).trans (h5 k)⟩
  · rw [u.orderlySampled_power, h1]
  · rw [u.orderlySampled_now]
    exact h2
  · rw [u.orderlySampled_power, h1]
    rfl

theorem State.pwrEnRise_begins {s : State} (h : s.power.pwrEn = false) (ha : s.power.auxSettled = true)
    (hg : (s.inRange48 && s.upFree) = true) :
    Gives .pwrEnRise s (fun t => t.power.pwrEn = true ∧ t.now = s.now ∧
      (t.power.powerUp = some t.now ∧ t.power.zeroing = true ∧ (∀ d ∈ domains48, t.dom d = domWaking) ∧
        t.obj oMemState = 0 ∧ t.obj oPowerOnCount = (s.obj oPowerOnCount + 1) % 2 ^ objBits oPowerOnCount) ∧
      t.obj oOrderlyAtStart = s.obj oLastShutdownOrderly ∧ t.obj oLastShutdownOrderly = 0) := by
  refine ⟨_, State.exec_pwrEnRise h, ?_⟩
  obtain ⟨h1, -, -, -, h5, h6⟩ := s.raisePwrEn_spec
  have hm := (s.raisePwrEn_may ha).trans hg
  rw [ha, if_pos rfl]
  generalize s.quiet.raisePwrEn = u at h1 h5 h6 hm
  obtain ⟨a1, a2, -, a4, a5, a6, a7, a8, a9, a10⟩ := State.sampleRise_begins hm
  refine ⟨a2.trans h1, a1.trans h5, ⟨a4.trans (congrArg some a1.symm), a5, a6, a7, ?_⟩, a9.trans (h6 _), a10⟩
  rw [a8, h6]

theorem State.pwrEnRise_waits {s : State} (h : s.power.pwrEn = false) (ha : s.power.auxSettled = true)
    (hg : (s.inRange48 && s.upFree) = false) :
    Gives .pwrEnRise s (fun t => t.power.pwrEn = true ∧ t.power.powerUp = s.power.powerUp ∧
      (t.obj oOrderlyAtStart = s.obj oLastShutdownOrderly ∧ t.obj oLastShutdownOrderly = 0) ∧
      SameObj s t [oOrderlyAtStart, oLastShutdownOrderly] ∧ t.mem = s.mem) := by
  refine ⟨_, State.exec_pwrEnRise h, ?_⟩
  obtain ⟨h1, h2, -, h4, -, h6⟩ := s.raisePwrEn_spec
  have hm := (s.raisePwrEn_may ha).trans hg
  rw [ha, if_pos rfl]
  generalize s.quiet.raisePwrEn = u at h1 h2 h4 h6 hm
  obtain ⟨o1, o2, o3⟩ := u.orderlySampled_obj
  rw [State.sampleRise_waits hm]
  refine ⟨?_, ?_, ⟨o1.trans (h6 _), o2⟩, fun k hk => (o3 k hk).trans (h6 k), u.orderlySampled_mem.trans h4⟩
  · rw [u.orderlySampled_power, h1]
  · rw [u.orderlySampled_power, h2]

/-- Settles O56. -/
theorem powerPins : Obligations.PowerPins := by
  unfold Obligations.PowerPins
  intro up sampled off free
  refine ⟨fun s => ⟨fun h => ?_, fun h ha hg => State.pwrEnRise_begins h ha hg, fun h ha hg => State.pwrEnRise_waits h ha hg,
      fun h ha => ?_⟩,
    fun s => ⟨fun h => State.exec_powerUpDone_waits h, fun n h hn => ?_⟩, fun s => ⟨fun h => ?_, fun h => ?_⟩,
    fun s => ⟨fun h => ?_, fun h => ?_, fun h => ?_, fun h => ?_⟩,
    fun s => ⟨fun h => ?_, fun h hp => State.aux3v3Settled_low h hp, fun h hp hg => State.aux3v3Settled_begins h hp hg,
      fun h hp hg => State.aux3v3Settled_waits h hp hg⟩,
    fun mv s => ⟨fun hon hf => ?_, fun hon hf hal => ?_, fun h => ?_, fun hon hg => ?_⟩⟩
  · exact if_pos h
  · refine ⟨_, State.exec_pwrEnRise h, ?_⟩
    rw [ha]
    exact ⟨rfl, rfl, rfl, rfl⟩
  · rw [hn] at h
    simp only [Option.isSome_some, Bool.true_and, Bool.and_eq_true, Bool.not_eq_true'] at h
    obtain ⟨hz, ht⟩ := h
    refine ⟨_, State.exec_powerUpDone hn hz ht, ?_⟩
    obtain ⟨r1, r2, r3, r4, r5, r6, r7⟩ := s.quiet.runReached_spec (n + powerUpNs)
    generalize s.quiet.runReached (n + powerUpNs) = u at r1 r2 r3 r4 r5 r6 r7
    obtain ⟨j1, j2, j3, j4, j5, j6⟩ := u.safeJudged_spec
    rw [r6, r7] at j4
    rw [r6, r4, r7] at j5 j6
    refine ⟨(j3 _ (by decide +kernel)).trans r1, fun d hd => (j3 _ (domains48_safe d hd)).trans (r2 d hd), by rw [j1, r3], ?_,
      j4, j5, j6⟩
    rw [j2]
    exact r5
  · obtain ⟨f1, f2, f3, f4, -, f6, -, -, f9, f10⟩ := s.quiet.pwrEnFalls_spec
    refine ⟨_, State.exec_pwrEnFall h, f6, ⟨f1, f2, f3⟩, f4, fun ha => ?_⟩
    obtain ⟨a1, a2⟩ := f10 ha
    exact ⟨a1, a2, f9.trans (if_pos ha)⟩
  · exact if_neg (Bool.eq_false_iff.mp h)
  · refine ⟨_, State.exec_aux3v3Loss h, ?_⟩
    cases hp : s.power.pwrEn with
    | true =>
      obtain ⟨l1, l2, l3, l4, l5, l6, l7⟩ := s.quiet.auxLostHigh_spec
      rw [if_pos rfl]
      generalize s.quiet.auxLostHigh = u at l1 l2 l3 l4 l5 l6 l7
      obtain ⟨a1, a2, a3, a4⟩ := u.setAon_spec domOff
      have hne : ∀ d ∈ domains48, oDomainState d ∉ [oDomainState 39, oDomainState 40] := by decide
      exact ⟨by rw [a3, l1], by rw [a3, l2], a1, a2, by rw [a3, l3], by rw [a3, l4], fun _ =>
        ⟨(a4 _ (by decide)).trans l5, (a4 _ (by decide)).trans l6, fun d hd => (a4 _ (hne d hd)).trans (l7 d hd)⟩⟩
    | false =>
      obtain ⟨l1, l2, l3, l4⟩ := s.quiet.auxLostLow_spec
      rw [if_neg Bool.false_ne_true]
      generalize s.quiet.auxGone.cutCopy.restartMgmt = u at l1 l2 l3 l4
      obtain ⟨a1, a2, a3, -⟩ := u.setAon_spec domOff
      refine ⟨by rw [a3, l1], by rw [a3, l2], a1, a2, by rw [a3, l3], ?_, fun q => absurd q Bool.false_ne_true⟩
      rw [a3, l4]
      exact hp
  · exact if_neg (Bool.eq_false_iff.mp h)
  · refine ⟨_, State.exec_aux3v3Rise h, ?_⟩
    obtain ⟨b1, b2, -, -, b5, -⟩ := s.quiet.auxRisen.restartMgmt_boot
    rw [State.auxRisen_power] at b1 b2 b5
    generalize s.quiet.auxRisen.restartMgmt = u at b1 b2 b5
    obtain ⟨a1, a2, a3, -⟩ := u.setAon_spec domOn
    exact ⟨by rw [a3, b2], by rw [a3, b5]; rfl, a1, a2, by rw [a3, b1]; rfl⟩
  · exact if_pos h
  · exact if_neg (Bool.eq_false_iff.mp h)
  · have hx : exec (.inputVoltageChange mv) s = .next ((s.quiet.inputNoted mv.toNat).powerLost.setPower
        { (s.quiet.inputNoted mv.toNat).powerLost.power with latchedOff := true }) := by
      rw [State.exec_inputVoltageChange]
      exact (if_pos (State.inputNoted_poweredOn.mpr hon)).trans (if_pos hf)
    have hoff := (s.quiet.inputNoted mv.toNat).powerLost_off
    refine ⟨_, hx, ?_⟩
    generalize (s.quiet.inputNoted mv.toNat).powerLost = u at hoff
    exact ⟨⟨hoff.state, hoff.admitted, hoff.doms⟩, rfl, hoff.orderly (.inr (State.obj_setObj_self ..))⟩
  · have hout : (s.quiet.inputNoted mv.toNat).inRange48 = false := by
      rw [State.inputNoted_inRange48, Bool.and_eq_false_iff, decide_eq_false_iff_not, decide_eq_false_iff_not, Nat.not_le,
        Nat.not_le]
      exact hal.2
    have hx : exec (.inputVoltageChange mv) s = .next ((s.quiet.inputNoted mv.toNat).bump oInputAlerts) := by
      rw [State.exec_inputVoltageChange]
      refine (if_pos (State.inputNoted_poweredOn.mpr hon)).trans ((if_neg hf).trans (if_pos ?_))
      rw [hout, hal.1]
      rfl
    obtain ⟨n1, n2, -, n4, -⟩ := s.quiet.inputNoted_spec mv.toNat
    have hala := State.inputNoted_alert (s := s.quiet) hal.2
    refine ⟨_, hx, ?_⟩
    generalize s.quiet.inputNoted mv.toNat = u at n1 n2 n4 hala
    refine ⟨(State.bump_obj_ne _ (by decide)).trans n1, ?_, ?_, ?_, n4⟩
    · rw [← hala, State.alert, State.bump_obj_ne _ (by decide), State.bump_obj_ne _ (by decide),
        State.bump_obj_ne _ (by decide)]
      rfl
    · rw [State.bump_obj_self, n2 _ (by decide)]
      rfl
    · exact SameObj.setObj (n2.mono (by decide)) _ (by decide)
  · have hx : exec (.inputVoltageChange mv) s = .next (s.quiet.inputNoted mv.toNat) := by
      rw [State.exec_inputVoltageChange]
      rcases h with ⟨hon, hf, hal⟩ | ⟨hon, hg⟩
      · refine (if_pos (State.inputNoted_poweredOn.mpr hon)).trans ((if_neg hf).trans (if_neg ?_))
        rw [State.inputNoted_inRange48, Bool.and_eq_true, Bool.not_eq_true', Bool.and_eq_false_iff,
          decide_eq_false_iff_not, decide_eq_false_iff_not, Nat.not_le, Nat.not_le]
        exact hal
      · refine (if_neg (fun q => hon (State.inputNoted_poweredOn.mp q))).trans ?_
        rw [State.tryPowerUp_eq, State.inputNoted_may s _ hon, if_neg (Bool.eq_false_iff.mp hg)]
    obtain ⟨n1, n2, n3, n4, -⟩ := s.quiet.inputNoted_spec mv.toNat
    refine ⟨_, hx, ?_⟩
    generalize s.quiet.inputNoted mv.toNat = u at n1 n2 n3 n4
    exact ⟨by rw [n3], n1, n2, n4, by rw [n3]; rfl⟩
  · have hx : exec (.inputVoltageChange mv) s = .next (s.quiet.inputNoted mv.toNat).beginPowerUp := by
      rw [State.exec_inputVoltageChange]
      refine (if_neg (fun q => hon (State.inputNoted_poweredOn.mp q))).trans ?_
      rw [State.tryPowerUp_eq, State.inputNoted_may s _ hon, if_pos hg]
    obtain ⟨n1, n2, -, -, -⟩ := s.quiet.inputNoted_spec mv.toNat
    refine ⟨_, hx, ?_⟩
    generalize s.quiet.inputNoted mv.toNat = u at n1 n2
    have hu := u.beginPowerUp_up
    refine ⟨(hu.kept _ (by decide)).trans n1, hu.powerUp.trans (congrArg some hu.now.symm), hu.zeroing, hu.doms, hu.mem, ?_⟩
    rw [hu.count, n2 _ (by decide)]
    rfl

end Sys2Proof.Machine

namespace Sys2Proof.Machine

/-! ### The bank of control cores -/

theorem State.core_setCore (s : State) (k : Nat) (c : CoreSt) (j : Nat) :
    (s.setCore k c).core j = if j = k then c else s.core j := Bank.get_set ..

theorem State.core_setCore_self (s : State) (k : Nat) (c : CoreSt) : (s.setCore k c).core k = c :=
  (s.core_setCore k c k).trans (if_pos rfl)

theorem State.core_setCore_ne (s : State) {k j : Nat} (c : CoreSt) (h : j ≠ k) : (s.setCore k c).core j = s.core j :=
  (s.core_setCore k c j).trans (if_neg h)

theorem State.core_setObj (s : State) (k v j : Nat) : (s.setObj k v).core j = s.core j := rfl

theorem State.obj_setCore (s : State) (k : Nat) (c : CoreSt) (j : Nat) : (s.setCore k c).obj j = s.obj j := rfl

theorem CoreSt.stepPc_x (c : CoreSt) (r : Nat) : c.stepPc.x r = c.x r := rfl

theorem CoreSt.setX_pc (c : CoreSt) (r v : Nat) : (c.setX r v).pc = c.pc := by
  unfold CoreSt.setX
  split <;> rfl

theorem CoreSt.setX_slots (c : CoreSt) (r v : Nat) : (c.setX r v).slots = c.slots := by
  unfold CoreSt.setX
  split <;> rfl

theorem CoreSt.setX_dmem (c : CoreSt) (r v : Nat) : (c.setX r v).dmem = c.dmem := by
  unfold CoreSt.setX
  split <;> rfl

theorem CoreSt.setX_wait (c : CoreSt) (r v : Nat) : (c.setX r v).wait = c.wait := by
  unfold CoreSt.setX
  split <;> rfl

theorem State.coreReady_iff {s : State} {r : CoreReq} (h : s.coreReady r = true) :
    s.coreRuns (coreKey r.die r.cluster) = true ∧ (s.core (coreKey r.die r.cluster)).pc < 0x10000 ∧ r.funct7 = 0 ∧
    r.agree = true := by
  simpa only [State.coreReady, Bool.and_eq_true, decide_eq_true_eq, and_assoc] using h

/-- A device-access instruction that is not held up does what it says. -/
theorem State.coreAccess_of_ready {s : State} {r : CoreReq} (h : s.coreReady r = true) (f : State → State) :
    s.coreAccess r f = f s.quiet := by
  obtain ⟨h1, h2, h3, h4⟩ := State.coreReady_iff h
  have hr : ¬s.quiet.coreRuns (coreKey r.die r.cluster) = false := by
    rw [show s.quiet.coreRuns (coreKey r.die r.cluster) = true from h1]
    exact Bool.noConfusion
  rw [State.coreAccess, if_neg hr, if_neg (show ¬0x10000 ≤ (s.quiet.core (coreKey r.die r.cluster)).pc from Nat.not_le.mpr h2),
    if_neg (Classical.not_not.mpr h3), if_pos h4]

/-- The parts of the state that an instruction of a core leaves alone. -/
structure CoreSame (s t : State) : Prop where
  cores : t.cores = s.cores
  od : t.od = s.od
  blobs : t.blobs = s.blobs
  mem : t.mem = s.mem
  engines : t.engines = s.engines
  rings : t.rings = s.rings

theorem CoreSame.quiet (s : State) : CoreSame s s.quiet := ⟨rfl, rfl, rfl, rfl, rfl, rfl⟩

theorem CoreSame.fresh (s : State) : CoreSame s s.quiet.fresh.2 := ⟨rfl, rfl, rfl, rfl, rfl, rfl⟩

theorem CoreSame.core {s t : State} (h : CoreSame s t) (k : Nat) : t.core k = s.core k := by
  rw [State.core, h.cores]
  rfl

theorem Returns.of_coreRet {c : Instr} {s u : State} {k rd v : Nat} (hx : exec c s = .next (u.coreRet k rd v))
    (h : CoreSame s u) : Returns c s k rd v := by
  refine ⟨_, hx, ?_, fun j hj => ?_, h.od, h.blobs, h.mem, h.engines, h.rings⟩
  · rw [State.coreRet, State.core_setCore_self, h.core]
  · rw [State.coreRet, State.core_setCore_ne _ _ hj, h.core]

/-! ### A core that stalls or goes on -/

theorem State.coreState_setCore (s : State) (k : Nat) (c : CoreSt) (j : Nat) :
    (s.setCore k c).coreState j = s.coreState j := rfl

/-- What a stall leaves: the core waits, its instruction not ended. -/
theorem State.coreStall_spec (s : State) (k : Nat) (w : CoreWait) :
    ((s.coreStall k w).core k).wait = some w ∧ ((s.coreStall k w).core k).pc = (s.core k).pc ∧
    (s.coreState k = 1 → (s.coreStall k w).coreState k = 2) ∧ SameObj s (s.coreStall k w) [oCoreState k] ∧
    (s.coreStall k w).mem = s.mem ∧ (s.coreStall k w).engines = s.engines := by
  unfold State.coreStall
  extract_lets c t
  have hc : t.core k = { s.core k with wait := some w, passed := false } := State.core_setCore_self ..
  have ho : SameObj s t [oCoreState k] := fun _ _ => rfl
  split
  · refine ⟨?_, ?_, fun _ => State.obj_setObj_self .., ho.setObj _ (List.mem_singleton.mpr rfl), rfl, rfl⟩
    · rw [State.core_setObj, hc]
    · rw [State.core_setObj, hc]
  · next h =>
    exact ⟨by rw [hc], by rw [hc], fun q => absurd q h, ho, rfl, rfl⟩

/-- A core's wait taken off, WAITING becoming RUNNING. -/
def State.coreWoken (s : State) (k : Nat) : State :=
  let t := s.setCore k { s.core k with wait := none, passed := false }
  if t.coreState k = 2 then t.setObj (oCoreState k) 1 else t

theorem State.coreWoken_spec (s : State) (k : Nat) :
    (s.coreWoken k).core k = { s.core k with wait := none, passed := false } ∧
    (∀ j, j ≠ k → (s.coreWoken k).core j = s.core j) ∧ (s.coreState k = 2 → (s.coreWoken k).coreState k = 1) ∧
    SameObj s (s.coreWoken k) [oCoreState k] ∧ (s.coreWoken k).mem = s.mem ∧ (s.coreWoken k).engines = s.engines := by
  unfold State.coreWoken
  extract_lets c t
  have hc : t.core k = { s.core k with wait := none, passed := false } := State.core_setCore_self ..
  have hn : ∀ j, j ≠ k → t.core j = s.core j := fun j hj => State.core_setCore_ne _ _ hj
  have ho : SameObj s t [oCoreState k] := fun _ _ => rfl
  split
  · refine ⟨?_, fun j hj => ?_, fun _ => State.obj_setObj_self .., ho.setObj _ (List.mem_singleton.mpr rfl), rfl, rfl⟩
    · rw [State.core_setObj, hc]
    · rw [State.core_setObj, hn j hj]
  · next h => exact ⟨hc, hn, fun q => absurd q h, ho, rfl, rfl⟩

/-- What a core does once its wait is over. -/
def State.coreGoesOn (s : State) (k : Nat) (w : CoreWait) : State :=
  match w with
  | .fifo _ _ => s
  | .count rd slot _ => s.coreRet k rd ((s.core k).slot slot).contrib
  | .boundary => s.coreRet k 0 0
  | .idle _ => s.coreRet k 0 0

theorem State.exec_coreResume {s : State} {die : Die} {cluster : Cluster} {w : CoreWait}
    (h : (s.core (coreKey die cluster)).wait = some w) (hm : s.waitMet (coreKey die cluster) w = true) :
    exec (.coreResume die cluster) s =
      .next ((s.quiet.coreWoken (coreKey die cluster)).coreGoesOn (coreKey die cluster) w) := by
  have hm' : ¬s.quiet.waitMet (coreKey die cluster) w = false := by
    rw [show s.quiet.waitMet (coreKey die cluster) w = true from hm]
    exact Bool.noConfusion
  show execCoreResume die cluster s = _
  rw [execCoreResume, show (s.quiet.core (coreKey die cluster)).wait = some w from h]
  refine (if_neg hm').trans ?_
  cases w <;> rfl

theorem State.coreRet_obj (s : State) (k rd v j : Nat) : (s.coreRet k rd v).obj j = s.obj j := rfl

theorem State.coreRet_mem (s : State) (k rd v : Nat) : (s.coreRet k rd v).mem = s.mem := rfl

theorem State.coreGoesOn_same (s : State) (k : Nat) (w : CoreWait) :
    (∀ j, j ≠ k → (s.coreGoesOn k w).core j = s.core j) ∧ (∀ j, (s.coreGoesOn k w).obj j = s.obj j) ∧
    (s.coreGoesOn k w).mem = s.mem ∧ (s.coreGoesOn k w).engines = s.engines ∧
    ((s.coreGoesOn k w).core k).wait = (s.core k).wait := by
  cases w with
  | fifo a b => exact ⟨fun _ _ => rfl, fun _ => rfl, rfl, rfl, rfl⟩
  | count rd slot n =>
    refine ⟨fun j hj => State.core_setCore_ne _ _ hj, fun _ => rfl, rfl, rfl, ?_⟩
    rw [State.coreGoesOn, State.coreRet, State.core_setCore_self]
    exact CoreSt.setX_wait ..
  | boundary =>
    refine ⟨fun j hj => State.core_setCore_ne _ _ hj, fun _ => rfl, rfl, rfl, ?_⟩
    rw [State.coreGoesOn, State.coreRet, State.core_setCore_self]
    rfl
  | idle m =>
    refine ⟨fun j hj => State.core_setCore_ne _ _ hj, fun _ => rfl, rfl, rfl, ?_⟩
    rw [State.coreGoesOn, State.coreRet, State.core_setCore_self]
    rfl

/-- The core of an instruction that ends. -/
theorem State.coreGoesOn_core (s : State) (k : Nat) (w : CoreWait) :
    (∀ a b, w = .fifo a b → (s.coreGoesOn k w).core k = s.core k) ∧
    (∀ rd n m, w = .count rd n m → (s.coreGoesOn k w).core k = ((s.core k).setX rd ((s.core k).slot n).contrib).stepPc) ∧
    (w = .boundary ∨ (∃ m, w = .idle m) → (s.coreGoesOn k w).core k = (s.core k).stepPc) := by
  refine ⟨?_, ?_, ?_⟩
  · rintro a b rfl
    rfl
  · rintro rd n m rfl
    exact State.core_setCore_self ..
  · rintro (rfl | ⟨m, rfl⟩)
    · exact (State.core_setCore_self ..).trans (by rw [CoreSt.setX_zero])
    · exact (State.core_setCore_self ..).trans (by rw [CoreSt.setX_zero])

theorem State.coreResume_spec {s : State} {die : Die} {cluster : Cluster} {w : CoreWait}
    (h : (s.core (coreKey die cluster)).wait = some w) (hm : s.waitMet (coreKey die cluster) w = true) :
    let k := coreKey die cluster
    Gives (.coreResume die cluster) s (fun t => (t.core k).wait = none ∧ (s.coreState k = 2 → t.coreState k = 1) ∧
      (∀ a b, w = .fifo a b → (t.core k).pc = (s.core k).pc ∧ (t.core k).xregs = (s.core k).xregs) ∧
      (∀ rd n m, w = .count rd n m → (t.core k).pc = (s.core k).pc + 4 ∧
        (rd ≠ 0 → (t.core k).x rd = ((s.core k).slot n).contrib % 2 ^ 64)) ∧
      (w = .boundary ∨ (∃ m, w = .idle m) → (t.core k).pc = (s.core k).pc + 4 ∧ (t.core k).xregs = (s.core k).xregs) ∧
      SameObj s t [oCoreState k] ∧ (∀ j, j ≠ k → t.core j = s.core j) ∧ t.mem = s.mem ∧ t.engines = s.engines) := by
  intro k
  refine ⟨_, State.exec_coreResume h hm, ?_⟩
  obtain ⟨w1, w2, w3, w4, w5, w6⟩ := s.quiet.coreWoken_spec k
  generalize s.quiet.coreWoken k = u at w1 w2 w3 w4 w5 w6
  obtain ⟨g1, g2, g3, g4, g5⟩ := u.coreGoesOn_same k w
  obtain ⟨c1, c2, c3⟩ := u.coreGoesOn_core k w
  generalize u.coreGoesOn k w = t at g1 g2 g3 g4 g5 c1 c2 c3
  refine ⟨by rw [g5, w1], fun q => (g2 _).trans (w3 q), fun a b q => ?_, fun rd n m q => ?_, fun q => ?_,
    fun j hj => (g2 j).trans (w4 j hj), fun j hj => (g1 j hj).trans (w2 j hj), g3.trans w5, g4.trans w6⟩
  · rw [c1 a b q, w1]
    exact ⟨rfl, rfl⟩
  · rw [c2 rd n m q, w1]
    refine ⟨?_, fun hr => ?_⟩
    · rw [CoreSt.stepPc, CoreSt.setX_pc]
      rfl
    · rw [CoreSt.stepPc_x, CoreSt.x_setX_self _ _ hr]
      rfl
  · rw [c3 q, w1]
    exact ⟨rfl, rfl⟩

theorem State.coreResume_waits {s : State} {die : Die} {cluster : Cluster}
    (h : ∀ w, (s.core (coreKey die cluster)).wait = some w → s.waitMet (coreKey die cluster) w = false) :
    exec (.coreResume die cluster) s = .next s.quiet := by
  show execCoreResume die cluster s = _
  unfold execCoreResume
  extract_lets u k
  split
  · rfl
  · next w hw => exact if_pos (h w hw)

/-! ### An instruction of the pair that retires -/

theorem State.exec_coreInstruction {s : State} {i : Retire} (h : s.retires i = true) (ha : i.agree = true) :
    exec (.coreInstruction i) s = .next (s.quiet.setCore (coreKey i.die i.cluster)
      (retireInto (s.core (coreKey i.die i.cluster)) i i.value.toNat)) := by
  simp only [State.retires, Bool.and_eq_true, decide_eq_true_eq] at h
  obtain ⟨⟨⟨⟨h1, h2⟩, h3⟩, h4⟩, h5⟩ := h
  have hr : ¬s.quiet.coreRuns (coreKey i.die i.cluster) = false := by
    rw [show s.quiet.coreRuns (coreKey i.die i.cluster) = true from h1]
    exact Bool.noConfusion
  show execCoreInstruction i s = _
  rw [execCoreInstruction, Option.isNone_iff_eq_none.mp h3]
  refine (if_neg hr).trans ((if_neg (Nat.not_le.mpr h2)).trans ((if_neg ?_).trans ((if_neg ?_).trans (if_pos ha))))
  · cases hl : i.loadAt with
    | none => exact Bool.false_ne_true
    | some l =>
      rw [hl] at h4
      simp only [Option.all_some] at h4
      simp only [h4]
      decide
  · cases hl : i.storeAt with
    | none => exact Bool.false_ne_true
    | some l =>
      rw [hl] at h5
      simp only [Option.all_some] at h5
      simp only [h5]
      decide

/-- A retired instruction's floating-point and control registers and its store, before its pc. -/
theorem retireInto_spec (c : CoreSt) (i : Retire) :
    let d := retireInto c i i.value.toNat
    d.pc = i.nextPc.toNat ∧ d.xregs = (c.setX i.rd i.value.toNat).xregs ∧
    (∀ f, i.fp = some f → Bank.get d.fregs 0 f.1 = f.2.toNat) ∧
    (∀ f, i.csr = some f → Bank.get d.csrs 0 f.1.toNat = f.2.toNat) ∧
    (∀ x, i.storeAt = some x → d.dmem = memWrite c.dmem x.1.toNat x.2) ∧ (i.storeAt = none → d.dmem = c.dmem) := by
  have hm : (c.setX i.rd i.value.toNat).dmem = c.dmem := CoreSt.setX_dmem ..
  unfold retireInto
  generalize c.setX i.rd i.value.toNat = e at hm
  refine ⟨rfl, ?_, fun f hf => ?_, fun f hf => ?_, fun x hx => ?_, fun hx => ?_⟩
  · cases i.fp <;> cases i.csr <;> cases i.storeAt <;> rfl
  · rw [hf]
    have hg : Bank.get (Bank.set e.fregs 0 f.1 f.2.toNat) 0 f.1 = f.2.toNat := by rw [Bank.get_set, if_pos rfl]
    cases i.csr <;> cases i.storeAt <;> exact hg
  · rw [hf]
    cases i.fp <;> cases i.storeAt <;> exact (Bank.get_set ..).trans (if_pos rfl)
  · rw [hx, ← hm]
    cases i.fp <;> cases i.csr <;> rfl
  · rw [hx, ← hm]
    cases i.fp <;> cases i.csr <;> rfl

theorem CoreSt.x_congr {c d : CoreSt} (h : d.xregs = c.xregs) (r : Nat) : d.x r = c.x r := by
  rw [CoreSt.x, h]
  rfl

end Sys2Proof.Machine

namespace Sys2Proof.Machine

/-- What CC_BEAT reads, by its selector. -/
def State.beatRead (s : State) (k rd n : Nat) : State :=
  match n with
  | 0 => s.coreRet k rd s.bell.beat
  | 1 => s.coreRet k rd s.stepNow
  | 2 => s.coreRet k rd (s.obj oStepBeatNow)
  | 3 => s.coreRet k rd s.bell.off
  | _ => s.fresh.2.coreRet k rd s.fresh.1

theorem State.exec_ccBeat {s : State} {r : CoreReq} (h : s.coreReady r = true) :
    exec (.ccBeat r) s = .next (s.quiet.beatRead (coreKey r.die r.cluster) r.rd
      ((s.core (coreKey r.die r.cluster)).x r.rs1)) :=
  congrArg _ (State.coreAccess_of_ready h _)

theorem State.beatRead_other {s : State} {k rd n : Nat} (h : 3 < n) :
    s.beatRead k rd n = s.fresh.2.coreRet k rd s.fresh.1 := by
  obtain ⟨m, rfl⟩ : ∃ m, n = m + 4 := ⟨n - 4, by omega⟩
  rfl

/-- What CC_SUMRD reads of a slot. -/
def State.slotRead (s : State) (k rd : Nat) (v : Option Nat) : State :=
  match v with
  | some v => s.coreRet k rd v
  | none => s.fresh.2.coreRet k rd s.fresh.1

theorem State.exec_ccSumrd {s : State} {r : CoreReq} (h : s.coreReady r = true) :
    let c := s.core (coreKey r.die r.cluster)
    exec (.ccSumrd r) s = .next (s.quiet.slotRead (coreKey r.die r.cluster) r.rd
      (if c.x r.rs1 < 64 then (c.slot (c.x r.rs1)).field (c.x r.rs2) else none)) := by
  refine congrArg _ ((State.coreAccess_of_ready h _).trans ?_)
  unfold State.slotRead
  rfl

theorem State.exec_ccSumwait {s : State} {r : CoreReq} (h : s.coreReady r = true) :
    let k := coreKey r.die r.cluster
    let c := s.core k
    exec (.ccSumwait r) s = .next (if c.x r.rs2 ≤ (c.slot (c.x r.rs1)).contrib then
      s.quiet.coreRet k r.rd (c.slot (c.x r.rs1)).contrib else s.quiet.coreStall k (.count r.rd (c.x r.rs1) (c.x r.rs2))) :=
  congrArg _ (State.coreAccess_of_ready h _)

theorem State.exec_ccWaitIdle {s : State} {r : CoreReq} (h : s.coreReady r = true) :
    let k := coreKey r.die r.cluster
    let m := (s.core k).x r.rs2 % 2 ^ 12
    exec (.ccWaitIdle r) s = .next (if s.slotsIdle k m then s.quiet.coreRet k 0 0 else s.quiet.coreStall k (.idle m)) :=
  congrArg _ (State.coreAccess_of_ready h _)

theorem State.exec_ccSumclr {s : State} {r : CoreReq} (h : s.coreReady r = true) :
    let k := coreKey r.die r.cluster
    let c := s.core k
    exec (.ccSumclr r) s = .next ((s.quiet.setCore k
      { c with slots := Bank.set c.slots SumSlot.zero (c.x r.rs1) SumSlot.zero }).coreRet k 0 0) :=
  congrArg _ (State.coreAccess_of_ready h _)

theorem State.exec_ccWaitBoundary {s : State} {r : CoreReq} (h : s.coreReady r = true) :
    exec (.ccWaitBoundary r) s = .next (s.quiet.coreStall (coreKey r.die r.cluster) .boundary) :=
  congrArg _ (State.coreAccess_of_ready h _)

/-- CC_ISSUE once its operands pass: what it does with a descriptor of the kind that they name. -/
def State.issueJudged (s : State) (r : CoreReq) (slot : Nat) (d : Bytes) : State :=
  let k := coreKey r.die r.cluster
  let kind := fieldLe d 0 1
  if (kind = 0x01 ∨ kind = 0x11) ∧ s.borrowed k slot = true then
    ((s.bump oBorrowRefusedCount).refuseIssue k kind slot (r.cluster * 12 + slot)).coreRet k r.rd 1
  else if fifoRoom (s.eng (engKey r.die (r.cluster * 12 + slot))) kind = false then s.coreStall k (.fifo slot kind)
  else s.issue k r.rd slot d r.agree

/-- The kinds of descriptor that ISSUE takes. -/
theorem issueKind_of_mem {kind : Nat} (h : kind ∈ [0x01, 0x02, 0x11, 0x12]) :
    ¬(kind ≠ 0x01 ∧ kind ≠ 0x02 ∧ kind ≠ 0x11 ∧ kind ≠ 0x12) := by
  simp only [List.mem_cons, List.not_mem_nil, or_false] at h
  omega

theorem State.exec_ccIssue {s : State} {r : CoreReq} (h : s.coreReady r = true) :
    let c := s.core (coreKey r.die r.cluster)
    let d := memRead c.dmem (c.x r.rs1) 64
    c.x r.rs2 ≤ 11 → c.x r.rs1 % 64 = 0 → inDmem (c.x r.rs1) 64 = true → fieldLe d 0 1 ∈ [0x01, 0x02, 0x11, 0x12] →
    exec (.ccIssue r) s = .next (s.quiet.issueJudged r (c.x r.rs2) d) := by
  intro c d h1 h2 h3 h4
  refine congrArg _ ((State.coreAccess_of_ready h _).trans ?_)
  refine (if_neg (Nat.not_lt.mpr h1)).trans ((if_neg (Classical.not_not.mpr h2)).trans ((if_neg ?_).trans ((if_neg (issueKind_of_mem h4)).trans rfl)))
  exact fun q => Bool.false_ne_true (q.symm.trans h3)

theorem State.issueJudged_full {s : State} {r : CoreReq} {slot : Nat} {d : Bytes}
    (hb : fieldLe d 0 1 = 0x01 ∨ fieldLe d 0 1 = 0x11 → s.borrowed (coreKey r.die r.cluster) slot = false)
    (hf : fifoRoom (s.eng (engKey r.die (r.cluster * 12 + slot))) (fieldLe d 0 1) = false) :
    s.issueJudged r slot d = s.coreStall (coreKey r.die r.cluster) (.fifo slot (fieldLe d 0 1)) := by
  refine (if_neg ?_).trans (if_pos hf)
  rintro ⟨q1, q2⟩
  exact Bool.false_ne_true ((hb q1).symm.trans q2)

/-- Settles O25. -/
theorem coreAccesses : Obligations.CoreAccesses := by
  unfold Obligations.CoreAccesses
  refine ⟨fun r s h => ?_, fun r s h => ?_, fun die cluster w s hw hm => State.coreResume_spec hw hm,
    fun die cluster s h => State.coreResume_waits h, fun i s h ha => ?_⟩
  · intro k c
    refine ⟨fun q => ?_, fun q => ?_, fun q => ?_, fun q => ?_, fun q => ?_, fun q => ?_, fun v q1 q2 => ?_, fun q => ?_,
      fun q => ?_, ?_⟩
    · refine Returns.of_coreRet ((State.exec_ccBeat h).trans ?_) (CoreSame.quiet s)
      rw [show (s.core (coreKey r.die r.cluster)).x r.rs1 = 0 from q]
      rfl
    · refine Returns.of_coreRet ((State.exec_ccBeat h).trans ?_) (CoreSame.quiet s)
      rw [show (s.core (coreKey r.die r.cluster)).x r.rs1 = 1 from q]
      rfl
    · refine Returns.of_coreRet ((State.exec_ccBeat h).trans ?_) (CoreSame.quiet s)
      rw [show (s.core (coreKey r.die r.cluster)).x r.rs1 = 2 from q]
      rfl
    · refine Returns.of_coreRet ((State.exec_ccBeat h).trans ?_) (CoreSame.quiet s)
      rw [show (s.core (coreKey r.die r.cluster)).x r.rs1 = 3 from q]
      rfl
    · exact Returns.of_coreRet ((State.exec_ccBeat h).trans (congrArg _ (State.beatRead_other q))) (CoreSame.fresh s)
    · refine Returns.of_coreRet ((State.exec_ccSumrd h).trans ?_) (CoreSame.fresh s)
      have hn : (if c.x r.rs1 < 64 then (c.slot (c.x r.rs1)).field (c.x r.rs2) else none) = none := by
        split
        · next hlt => exact q.resolve_left (Nat.not_le.mpr hlt)
        · rfl
      rw [hn]
      rfl
    · refine Returns.of_coreRet ((State.exec_ccSumrd h).trans ?_) (CoreSame.quiet s)
      rw [if_pos q1, q2]
      rfl
    · exact Returns.of_coreRet ((State.exec_ccSumwait h).trans (congrArg _ (if_pos q))) (CoreSame.quiet s)
    · exact Returns.of_coreRet ((State.exec_ccWaitIdle h).trans (congrArg _ (if_pos q))) (CoreSame.quiet s)
    · refine ⟨_, State.exec_ccSumclr h, ?_⟩
      generalize hd : ({ c with slots := Bank.set c.slots SumSlot.zero (c.x r.rs1) SumSlot.zero } : CoreSt) = d
      have hc : ((s.quiet.setCore k d).coreRet k 0 0).core k = d.stepPc := by
        rw [State.coreRet, State.core_setCore_self, State.core_setCore_self, CoreSt.setX_zero]
      have hslot : ∀ n, d.slot n = if n = c.x r.rs1 then SumSlot.zero else c.slot n := by
        intro n
        rw [← hd]
        show Bank.get (Bank.set c.slots SumSlot.zero (c.x r.rs1) SumSlot.zero) SumSlot.zero n = _
        rw [Bank.get_set]
        rfl
      refine ⟨?_, ?_, fun n hn => ?_, ?_, fun j hj => ?_, rfl, rfl⟩
      · rw [hc]
        exact (hslot _).trans (if_pos rfl)
      · rw [hc, ← hd]
        rfl
      · rw [hc]
        exact (hslot n).trans (if_neg hn)
      · rw [hc, ← hd]
        rfl
      · rw [State.coreRet, State.core_setCore_ne _ _ hj, State.core_setCore_ne _ _ hj]
        rfl
  · intro k c waits
    have hw : ∀ w, waits w (s.quiet.coreStall k w) := fun w => s.quiet.coreStall_spec k w
    refine ⟨⟨_, State.exec_ccWaitBoundary h, hw _⟩, fun q => ⟨_, (State.exec_ccWaitIdle h).trans (congrArg _ ?_), hw _⟩,
      fun q => ⟨_, (State.exec_ccSumwait h).trans (congrArg _ (if_neg (Nat.not_le.mpr q))), hw _⟩,
      fun kind hk hd h1 h2 h3 h4 h5 => ⟨_, ?_, hw _⟩⟩
    · exact if_neg (Bool.eq_false_iff.mp q)
    · subst hd
      exact (State.exec_ccIssue h h1 h2 h3 hk).trans (congrArg _ (State.issueJudged_full (s := s.quiet) h4 h5))
  · intro k
    refine ⟨_, State.exec_coreInstruction h ha, ?_⟩
    obtain ⟨r1, r2, r3, r4, r5, r6⟩ := retireInto_spec (s.core k) i
    have hc : (s.quiet.setCore k (retireInto (s.core k) i i.value.toNat)).core k = retireInto (s.core k) i i.value.toNat :=
      State.core_setCore_self ..
    refine ⟨by rw [hc, r1], fun hr => ?_, fun j hj => ?_, fun f hf => by rw [hc, r3 f hf], fun f hf => by rw [hc, r4 f hf],
      ?_, fun j hj => State.core_setCore_ne _ _ hj, rfl, rfl⟩
    · rw [hc, CoreSt.x_congr r2, CoreSt.x_setX_self _ _ hr]
      exact Nat.mod_eq_of_lt i.value.isLt
    · rw [hc, CoreSt.x_congr r2, CoreSt.x_setX_ne _ _ hj]
    · rw [hc]
      cases hx : i.storeAt with
      | none => exact r6 hx
      | some x => exact r5 x hx

end Sys2Proof.Machine

namespace Sys2Proof.Machine

/-! ### Descriptors that enter a FIFO or are refused -/

theorem coreKey_div (d : Die) (c : Cluster) : coreKey d c / 8 = d := by
  have := c.isLt
  simp only [coreKey]
  omega

theorem coreKey_mod (d : Die) (c : Cluster) : coreKey d c % 8 = c := by
  have := c.isLt
  simp only [coreKey]
  omega

/-- A step poisoned for good, where a plan is admitted. -/
theorem State.poison_step {s : State} (hold : Bool) (h : s.admitted = true) :
    (s.poison hold).step.fault = true ∧ (hold = true → (s.poison hold).step.hold = true) := by
  rw [State.poison, if_pos h]
  refine ⟨rfl, ?_⟩
  rintro rfl
  exact Bool.or_true _

theorem State.poison_cores (s : State) (hold : Bool) :
    (s.poison hold).cores = s.cores ∧ (s.poison hold).engines = s.engines := by
  unfold State.poison
  split <;> exact ⟨rfl, rfl⟩

theorem State.bump_cores (s : State) (k : Nat) : (s.bump k).cores = s.cores := rfl

theorem State.bump_engines (s : State) (k : Nat) : (s.bump k).engines = s.engines := rfl

/-- What the refusal of a descriptor leaves (R71). -/
structure Refused (s t : State) : Prop where
  cores : t.cores = s.cores
  engines : t.engines = s.engines
  step : s.admitted = true → t.step.fault = true ∧ t.step.hold = true
  count : t.obj oIssueRefusedCount = (s.obj oIssueRefusedCount + 1) % 2 ^ objBits oIssueRefusedCount
  same : SameObj s t ([oIssueRefusedCount, oLastIssueRefused] ++ eventKeys)

theorem State.refuseIssue_eq (s : State) (core kind slot engine : Nat) :
    ∃ n, s.refuseIssue core kind slot engine =
      (((s.bump oIssueRefusedCount).setObj oLastIssueRefused n).poison true).raise .boundExceeded := ⟨_, rfl⟩

theorem State.refuseIssue_refused (s : State) (core kind slot engine : Nat) :
    Refused s (s.refuseIssue core kind slot engine) := by
  obtain ⟨n, h⟩ := s.refuseIssue_eq core kind slot engine
  have hu : SameObj s ((s.bump oIssueRefusedCount).setObj oLastIssueRefused n) [oIssueRefusedCount, oLastIssueRefused] :=
    ((SameObj.refl s _).setObj (k := oIssueRefusedCount) _ (by decide)).setObj (k := oLastIssueRefused) _ (by decide)
  have hb : ((s.bump oIssueRefusedCount).setObj oLastIssueRefused n).obj oIssueRefusedCount =
      (s.obj oIssueRefusedCount + 1) % 2 ^ objBits oIssueRefusedCount := by
    rw [State.obj_setObj_ne _ _ (by decide), State.bump_obj_self]
  have hc : ((s.bump oIssueRefusedCount).setObj oLastIssueRefused n).cores = s.cores ∧
      ((s.bump oIssueRefusedCount).setObj oLastIssueRefused n).engines = s.engines := by
    rw [State.setObj_cores, State.setObj_engines]
    exact ⟨s.bump_cores _, s.bump_engines _⟩
  rw [h]
  generalize (s.bump oIssueRefusedCount).setObj oLastIssueRefused n = u at hu hb hc
  obtain ⟨p1, p2⟩ := u.poison_cores true
  have hl := (u.poison true).raise_logs .boundExceeded
  refine ⟨hl.cores.trans (p1.trans hc.1), hl.engines.trans (p2.trans hc.2), fun ha => ?_, ?_, fun k hk => ?_⟩
  · rw [hl.step]
    have hq := State.poison_step (s := u) true (by rw [State.admitted_congr (hu _ (by decide)), ha])
    exact ⟨hq.1, hq.2 rfl⟩
  · rw [hl.obj _ (by decide), State.poison_obj, hb]
  · rw [List.mem_append, not_or] at hk
    rw [hl.obj k hk.2, State.poison_obj, hu k hk.1]

theorem State.core_of_cores {s t : State} (h : t.cores = s.cores) (k : Nat) : t.core k = s.core k := by
  rw [State.core, h]
  rfl

theorem State.coreRet_same (s : State) (k rd v : Nat) :
    (∀ j, (s.coreRet k rd v).obj j = s.obj j) ∧ (s.coreRet k rd v).engines = s.engines ∧
    (s.coreRet k rd v).step = s.step := ⟨fun _ => rfl, rfl, rfl⟩

theorem State.eng_setEng (s : State) (k : Nat) (e : EngineSt) (j : Nat) :
    (s.setEng k e).eng j = if j = k then e else s.eng j := Bank.get_set ..

theorem State.issueJudged_borrowed {s : State} {r : CoreReq} {slot : Nat} {d : Bytes}
    (hk : fieldLe d 0 1 = 0x01 ∨ fieldLe d 0 1 = 0x11) (hb : s.borrowed (coreKey r.die r.cluster) slot = true) :
    s.issueJudged r slot d = ((s.bump oBorrowRefusedCount).refuseIssue (coreKey r.die r.cluster) (fieldLe d 0 1) slot
      (r.cluster * 12 + slot)).coreRet (coreKey r.die r.cluster) r.rd 1 := if_pos ⟨hk, hb⟩

theorem State.issueJudged_room {s : State} {r : CoreReq} {slot : Nat} {d : Bytes}
    (hb : fieldLe d 0 1 = 0x01 ∨ fieldLe d 0 1 = 0x11 → s.borrowed (coreKey r.die r.cluster) slot = false)
    (hf : fifoRoom (s.eng (engKey r.die (r.cluster * 12 + slot))) (fieldLe d 0 1) = true) :
    s.issueJudged r slot d = s.issue (coreKey r.die r.cluster) r.rd slot d r.agree := by
  refine (if_neg ?_).trans (if_neg ?_)
  · rintro ⟨q1, q2⟩
    exact Bool.false_ne_true ((hb q1).symm.trans q2)
  · exact fun q => Bool.false_ne_true (q.symm.trans hf)

/-- The descriptor as it enters its FIFO. -/
def State.queuedOf (s : State) (core slot : Nat) (d : Bytes) (agree : Bool) (bound : Nat) : Queued :=
  { bytes := d, void := !agree || s.coreState core == 3 || s.coreState core == 4,
    seq := (s.eng (engKey (core / 8) ((core % 8) * 12 + slot))).seq,
    notBefore := s.startFrom, beat := s.bell.beat, bound := bound }

/-- A descriptor in its FIFO, its cost taken from its item and ISSUE's result returned. -/
def State.issued (s : State) (k core rd : Nat) (e : EngineSt) (spent : Bank Nat) : State :=
  (({ s with spent := spent } : State).setEng k e).coreRet core rd 0

theorem State.issued_spec (s : State) (k core rd : Nat) (e : EngineSt) (spent : Bank Nat) :
    (s.issued k core rd e spent).core core = ((s.core core).setX rd 0).stepPc ∧ (s.issued k core rd e spent).eng k = e ∧
    (∀ j, j ≠ k → (s.issued k core rd e spent).eng j = s.eng j) ∧ (s.issued k core rd e spent).spent = spent ∧
    (s.issued k core rd e spent).od = s.od ∧ (s.issued k core rd e spent).mem = s.mem :=
  ⟨State.core_setCore_self .., (Bank.get_set ..).trans (if_pos rfl), fun _ hj => (Bank.get_set ..).trans (if_neg hj), rfl,
    rfl, rfl⟩

theorem State.issue_covered {s : State} {core rd slot : Nat} {d : Bytes} {agree : Bool} {it : Item × Nat}
    (h : s.coverItem (fieldLe d 0 1) (core / 8) ((core % 8) * 12 + slot) d = some it) :
    let k := engKey (core / 8) ((core % 8) * 12 + slot)
    s.issue core rd slot d agree = s.issued k core rd
      (enqueue (s.eng k) (fieldLe d 0 1) (s.queuedOf core slot d agree it.1.a))
      (Bank.set s.spent 0 it.2 (Bank.get s.spent 0 it.2 + issueCost (fieldLe d 0 1) d)) := by
  simp only [State.issue, h]
  rfl

theorem State.issue_uncovered {s : State} {core rd slot : Nat} {d : Bytes} {agree : Bool}
    (h : s.coverItem (fieldLe d 0 1) (core / 8) ((core % 8) * 12 + slot) d = none) :
    s.issue core rd slot d agree =
      (s.refuseIssue core (fieldLe d 0 1) slot ((core % 8) * 12 + slot)).coreRet core rd 1 := by
  simp only [State.issue, h]

/-- Settles O26. -/
theorem issueEntersFifo : Obligations.IssueEntersFifo := by
  unfold Obligations.IssueEntersFifo
  intro r s hr k c slot d kind engine e h1 h2 h3 h4
  have hx := State.exec_ccIssue hr h1 h2 h3 h4
  obtain ⟨-, -, -, ha⟩ := State.coreReady_iff hr
  have hd := coreKey_div r.die r.cluster
  have hm := coreKey_mod r.die r.cluster
  refine ⟨fun hk hb => ⟨_, hx, ?_⟩, fun hb hf => ⟨fun it hit => ⟨_, hx, ?_⟩, fun hit => ⟨_, hx, ?_⟩⟩⟩
  · rw [State.issueJudged_borrowed (s := s.quiet) hk hb]
    have hu : SameObj s (s.quiet.bump oBorrowRefusedCount) [oBorrowRefusedCount] :=
      SameObj.setObj (t := s.quiet) (fun _ _ => rfl) _ (by decide)
    have hc : (s.quiet.bump oBorrowRefusedCount).obj oBorrowRefusedCount =
        (s.obj oBorrowRefusedCount + 1) % 2 ^ objBits oBorrowRefusedCount := State.bump_obj_self ..
    have hcores : (s.quiet.bump oBorrowRefusedCount).cores = s.cores := s.quiet.bump_cores _
    have heng : (s.quiet.bump oBorrowRefusedCount).engines = s.engines := s.quiet.bump_engines _
    generalize s.quiet.bump oBorrowRefusedCount = u at hu hc hcores heng
    have hf := u.refuseIssue_refused (coreKey r.die r.cluster) (fieldLe d 0 1) slot (r.cluster * 12 + slot)
    generalize u.refuseIssue (coreKey r.die r.cluster) (fieldLe d 0 1) slot (r.cluster * 12 + slot) = t at hf
    obtain ⟨r1, r2, r3⟩ := t.coreRet_same (coreKey r.die r.cluster) r.rd 1
    refine ⟨?_, r2.trans (hf.engines.trans heng), fun q => ?_, ?_, fun j hj => (r1 j).trans ?_⟩
    · rw [State.coreRet, State.core_setCore_self, State.core_of_cores (hf.cores.trans hcores)]
    · rw [r3]
      exact hf.step ((State.admitted_congr (hu _ (by decide))).trans q)
    · exact (r1 _).trans ((hf.same _ (by decide)).trans hc)
    · exact SameObj.trans (hu.mono (by decide)) (SameObj.mono (t := t) hf.same (by decide)) j hj
  · rw [State.issueJudged_room (s := s.quiet) hb hf, State.issue_covered (it := it) (by rw [hd, hm]; exact hit), hd, hm, ha]
    obtain ⟨i1, i2, i3, i4, i5, i6⟩ := s.quiet.issued_spec e k r.rd
      (enqueue (s.eng e) kind (s.quiet.queuedOf k slot d true it.1.a))
      (Bank.set s.spent 0 it.2 (Bank.get s.spent 0 it.2 + issueCost kind d))
    refine ⟨i1, i2.trans ?_, i3, ?_, i5, i6⟩
    · rw [State.queuedOf, hd, hm]
      rfl
    · exact (congrArg (fun m => Bank.get m 0 it.2) i4).trans ((Bank.get_set ..).trans (if_pos rfl))
  · rw [State.issueJudged_room (s := s.quiet) hb hf, State.issue_uncovered (by rw [hd, hm]; exact hit), hm]
    have hq := s.quiet.refuseIssue_refused (coreKey r.die r.cluster) (fieldLe d 0 1) slot (r.cluster * 12 + slot)
    generalize s.quiet.refuseIssue (coreKey r.die r.cluster) (fieldLe d 0 1) slot (r.cluster * 12 + slot) = t at hq
    obtain ⟨r1, r2, r3⟩ := t.coreRet_same (coreKey r.die r.cluster) r.rd 1
    refine ⟨?_, fun q => ?_, r2.trans hq.engines, (r1 _).trans hq.count, fun j hj => (r1 j).trans (hq.same j hj)⟩
    · rw [State.coreRet, State.core_setCore_self, State.core_of_cores hq.cores]
      rfl
    · rw [r3]
      exact hq.step q

end Sys2Proof.Machine

namespace Sys2Proof.Machine

/-! ### What sending on flows keeps -/

/-- What the receiver's side of a flow holds. -/
structure RxSame (f g : FlowSt) : Prop where
  expected : g.rxExpected = f.rxExpected
  seen : g.rxSeen = f.rxSeen
  doneMsg : g.doneMsg = f.doneMsg
  doneStatus : g.doneStatus = f.doneStatus
  bells : g.bells = f.bells

theorem RxSame.refl (f : FlowSt) : RxSame f f := ⟨rfl, rfl, rfl, rfl, rfl⟩

theorem RxSame.trans {f g h : FlowSt} (a : RxSame f g) (b : RxSame g h) : RxSame f h :=
  ⟨b.expected.trans a.expected, b.seen.trans a.seen, b.doneMsg.trans a.doneMsg, b.doneStatus.trans a.doneStatus,
    b.bells.trans a.bells⟩

theorem State.flow_of_flows {s t : State} (h : t.flows = s.flows) (n : Nat) : t.flow n = s.flow n := by
  rw [State.flow, h]
  rfl

/-- A flow after messages were sent on it: its receiver's side stands and its packets not acknowledged only grow. -/
structure FlowKept (f g : FlowSt) : Prop where
  rx : RxSame f g
  unacked : f.unacked <+: g.unacked
  state : g.state = f.state
  ackDue : g.ackDue = f.ackDue

theorem FlowKept.refl (f : FlowSt) : FlowKept f f := ⟨RxSame.refl f, List.prefix_refl _, rfl, rfl⟩

theorem FlowKept.trans {f g h : FlowSt} (a : FlowKept f g) (b : FlowKept g h) : FlowKept f h :=
  ⟨a.rx.trans b.rx, a.unacked.trans b.unacked, b.state.trans a.state, b.ackDue.trans a.ackDue⟩

theorem pumpFlow_kept (now k : Nat) (f : FlowSt) : FlowKept f (pumpFlow now k f).1 := by
  induction k generalizing f with
  | zero => exact FlowKept.refl f
  | succ k ih =>
    rw [pumpFlow]
    split
    · exact FlowKept.refl f
    · split
      · refine FlowKept.trans ?_ (ih _)
        exact ⟨⟨rfl, rfl, rfl, rfl, rfl⟩, List.prefix_append .., rfl, rfl⟩
      · exact FlowKept.refl f

/-- Every flow of `t` is that of `s` after sending. -/
structure FlowsKept (s t : State) : Prop where
  flow : ∀ n, FlowKept (s.flow n) (t.flow n)

theorem FlowsKept.refl (s : State) : FlowsKept s s := ⟨fun _ => FlowKept.refl _⟩

theorem FlowsKept.trans {s t u : State} (h : FlowsKept s t) (k : FlowsKept t u) : FlowsKept s u :=
  ⟨fun n => (h.flow n).trans (k.flow n)⟩

theorem FlowsKept.of_flows {s t : State} (h : t.flows = s.flows) : FlowsKept s t := ⟨fun n => by
  rw [State.flow_of_flows h]
  exact FlowKept.refl _⟩

theorem FlowsKept.setFlow {s : State} {n : Nat} {f : FlowSt} (h : FlowKept (s.flow n) f) : FlowsKept s (s.setFlow n f) := by
  refine ⟨fun j => ?_⟩
  rw [s.flow_setFlow]
  split
  next e => exact e ▸ h
  next => exact FlowKept.refl _

theorem State.foldl_inject_flows (s : State) (l : List Bytes) : (l.foldl (fun s b => s.inject b) s).flows = s.flows :=
  List.foldlRecOn l _ (motive := fun t : State => t.flows = s.flows) rfl (fun _ ht _ _ => ht)

theorem State.pump_kept (s : State) (n : Nat) : FlowsKept s (s.pump n) :=
  (FlowsKept.setFlow (pumpFlow_kept _ _ _)).trans (FlowsKept.of_flows (State.foldl_inject_flows ..))

theorem State.sendMessage_kept (s : State) (n ty : Nat) (ps : List Piece) (step attempt kind : Nat) :
    FlowsKept s (s.sendMessage n ty ps step attempt kind) := by
  unfold State.sendMessage
  extract_lets f pk
  split
  · exact FlowsKept.refl s
  · refine (FlowsKept.setFlow ?_).trans (State.pump_kept _ n)
    exact ⟨⟨rfl, rfl, rfl, rfl, rfl⟩, List.prefix_refl _, rfl, rfl⟩

theorem State.writeLine_flows (s : State) (line : Nat) (bs : Bytes) : (s.writeLine line bs).flows = s.flows := rfl

theorem State.postRecord_kept (s : State) (q : QueueEntry) (kind : Nat) (body : Bytes) :
    FlowsKept s (s.postRecord q kind body).1 := by
  unfold State.postRecord
  extract_lets r bytes off s1 s2
  split
  · exact FlowsKept.of_flows rfl
  · have h1 : FlowsKept s s1 := FlowsKept.of_flows rfl
    show FlowsKept s (if q.region = 0xFFFF then _ else _)
    split
    · exact h1.trans (State.sendMessage_kept ..)
    · split
      · exact h1.trans (FlowsKept.of_flows (State.writeLine_flows ..))
      · exact h1

theorem State.logEvent_flows (s : State) (e : Ev) (cls : Nat) (dk : Option Nat) (detail : Nat) (keeper : Bool) :
    (s.logEvent e cls dk detail keeper).1.flows = s.flows := by
  unfold State.logEvent
  extract_lets s1 r wantsFlash fits toFlash entry src led s2 s3
  have h3 : s3.flows = s.flows := by
    show (if toFlash = true then _ else s2).flows = _
    split <;> rfl
  split
  · exact h3
  · exact h3

theorem State.raiseOnce_kept (s : State) (e : Ev) (cls : Nat) (dk : Option Nat) (detail : Nat) :
    FlowsKept s (s.raiseOnce e cls dk detail).1 := by
  unfold State.raiseOnce
  extract_lets r
  have h : FlowsKept s r.1 := FlowsKept.of_flows (s.logEvent_flows ..)
  split
  · exact h.trans (State.postRecord_kept ..)
  · exact h

theorem State.noteSuppressed_kept (s : State) (before : Nat) : FlowsKept s (s.noteSuppressed before) := by
  unfold State.noteSuppressed
  split
  · extract_lets led t
    exact FlowsKept.trans (t := t) (FlowsKept.of_flows rfl) (State.raiseOnce_kept ..)
  · exact FlowsKept.refl s

theorem State.raiseWith_kept (s : State) (e : Ev) (cls : Nat) (dk : Option Nat) (detail : Nat) :
    FlowsKept s (s.raiseWith e cls dk detail) := by
  unfold State.raiseWith
  extract_lets before r t
  have ht : FlowsKept s t := (s.raiseOnce_kept e cls dk detail).trans (State.noteSuppressed_kept ..)
  split
  · exact ht.trans (State.raiseOnce_kept ..)
  · exact ht

theorem State.raiseAt_kept (s : State) (e : Ev) (n cls : Nat) : FlowsKept s (s.raiseAt e n cls) := by
  unfold State.raiseAt
  split
  · exact State.raiseWith_kept ..
  · exact State.raiseWith_kept ..

theorem State.raise_kept (s : State) (e : Ev) : FlowsKept s (s.raise e) := State.raiseAt_kept ..

/-! ### Which messages are open -/

/-- Every message open on a flow of `t` that tells what it serves was open in `s`: those of records and events tell nothing. -/
structure KindsKept (s t : State) : Prop where
  msgs : ∀ f ∈ t.flows, ∀ m ∈ f.2.openMsgs, 2 ≤ m.kind → ∃ g ∈ s.flows, m ∈ g.2.openMsgs

theorem KindsKept.of_flows {s t : State} (h : t.flows = s.flows) : KindsKept s t :=
  ⟨fun f hf _ hm _ => ⟨f, h ▸ hf, hm⟩⟩

theorem KindsKept.refl (s : State) : KindsKept s s := KindsKept.of_flows rfl

theorem KindsKept.trans {s t u : State} (h : KindsKept s t) (k : KindsKept t u) : KindsKept s u := ⟨fun f hf m hm h2 => by
  obtain ⟨g, hg, hm'⟩ := k.msgs f hf m hm h2
  exact h.msgs g hg m hm' h2⟩

theorem State.mem_openMsgs_flow {s : State} {n : Nat} {m : TxMessage} (h : m ∈ (s.flow n).openMsgs) :
    ∃ g ∈ s.flows, m ∈ g.2.openMsgs := by
  rcases Bank.get_mem s.flows FlowSt.init n with e | ⟨g, hg, e⟩
  · rw [State.flow, e] at h
    exact nomatch h
  · exact ⟨g, hg, by rw [e]; exact h⟩

theorem KindsKept.setFlow {s : State} {n : Nat} {f : FlowSt} (h : ∀ m ∈ f.openMsgs, 2 ≤ m.kind → m ∈ (s.flow n).openMsgs) :
    KindsKept s (s.setFlow n f) := by
  refine ⟨fun g hg m hm h2 => ?_⟩
  rcases Bank.mem_set hg with e | e
  · rw [e] at hm
    exact State.mem_openMsgs_flow (h m hm h2)
  · exact ⟨g, e, hm⟩

theorem pumpFlow_openMsgs (now k : Nat) (f : FlowSt) : (pumpFlow now k f).1.openMsgs = f.openMsgs := by
  induction k generalizing f with
  | zero => rfl
  | succ k ih =>
    rw [pumpFlow]
    split
    · rfl
    · split
      · exact ih _
      · rfl

theorem State.pump_kinds (s : State) (n : Nat) : KindsKept s (s.pump n) := by
  refine KindsKept.trans (KindsKept.setFlow fun m hm _ => ?_) (KindsKept.of_flows (State.foldl_inject_flows ..))
  rwa [pumpFlow_openMsgs] at hm

theorem State.sendMessage_kinds (s : State) (n ty : Nat) (ps : List Piece) (step attempt : Nat) {kind : Nat} (h : kind < 2) :
    KindsKept s (s.sendMessage n ty ps step attempt kind) := by
  unfold State.sendMessage
  extract_lets f pk
  split
  · exact KindsKept.refl s
  · refine (KindsKept.setFlow fun m hm h2 => ?_).trans (State.pump_kinds _ n)
    rcases List.mem_append.mp hm with e | e
    · exact e
    · rw [List.mem_singleton.mp e] at h2
      exact absurd h2 (Nat.not_le.mpr h)

theorem State.postRecord_kinds (s : State) (q : QueueEntry) (kind : Nat) (body : Bytes) :
    KindsKept s (s.postRecord q kind body).1 := by
  unfold State.postRecord
  extract_lets r bytes off s1 s2
  split
  · exact KindsKept.of_flows rfl
  · have h1 : KindsKept s s1 := KindsKept.of_flows rfl
    show KindsKept s (if q.region = 0xFFFF then _ else _)
    split
    · exact h1.trans (State.sendMessage_kinds _ _ _ _ _ _ (by decide))
    · split
      · exact h1.trans (KindsKept.of_flows (State.writeLine_flows ..))
      · exact h1

theorem State.raiseOnce_kinds (s : State) (e : Ev) (cls : Nat) (dk : Option Nat) (detail : Nat) :
    KindsKept s (s.raiseOnce e cls dk detail).1 := by
  unfold State.raiseOnce
  extract_lets r
  have h : KindsKept s r.1 := KindsKept.of_flows (s.logEvent_flows ..)
  split
  · exact h.trans (State.postRecord_kinds ..)
  · exact h

theorem State.noteSuppressed_kinds (s : State) (before : Nat) : KindsKept s (s.noteSuppressed before) := by
  unfold State.noteSuppressed
  split
  · extract_lets led t
    exact KindsKept.trans (t := t) (KindsKept.of_flows rfl) (State.raiseOnce_kinds ..)
  · exact KindsKept.refl s

theorem State.raiseWith_kinds (s : State) (e : Ev) (cls : Nat) (dk : Option Nat) (detail : Nat) :
    KindsKept s (s.raiseWith e cls dk detail) := by
  unfold State.raiseWith
  extract_lets before r t
  have ht : KindsKept s t := (s.raiseOnce_kinds e cls dk detail).trans (State.noteSuppressed_kinds ..)
  split
  · exact ht.trans (State.raiseOnce_kinds ..)
  · exact ht

theorem State.raiseAt_kinds (s : State) (e : Ev) (n cls : Nat) : KindsKept s (s.raiseAt e n cls) := by
  unfold State.raiseAt
  split
  · exact State.raiseWith_kinds ..
  · exact State.raiseWith_kinds ..

/-! ### What an access to the memory leaves -/

/-- The objects that an access to the memory writes. -/
def memKeys : List Nat :=
  [oDeniedCount, oLastDenied, oLastDeniedStep, oCorrectedCount, oUncorrectableCount, oLastUncorrectable, oSnapValid,
    oSparesLeftMin, oPagesRetired] ++ eventKeys

/-- `t` is `s` after accesses to the memory: the memory, its objects, the step's verdict, the count of free values and
what an event writes may differ; the rings, flows and router only where the plan declares an EVENT queue. Messages may
be sent, a step that is POISONED stays so, and nothing else of the step differs. -/
structure MemWork (s t : State) : Prop where
  shape : ∃ od events ledger rings mem flows router step free,
    t = { s.relog od events ledger rings mem flows router with step := step, freeCount := free }
  obj : SameObj s t memKeys
  calm : s.eventQueue = none → t.rings = s.rings ∧ t.flows = s.flows ∧ t.router = s.router
  kept : FlowsKept s t
  fault : s.step.fault = true → t.step.fault = true
  only : ∃ f h, t.step = { s.step with fault := f, hold := h }
  kinds : KindsKept s t

theorem MemWork.refl (s : State) : MemWork s s :=
  ⟨⟨_, _, _, _, _, _, _, _, _, rfl⟩, SameObj.refl s _, fun _ => ⟨rfl, rfl, rfl⟩, FlowsKept.refl s, id, ⟨_, _, rfl⟩, KindsKept.refl s⟩

theorem MemWork.queue {s t : State} (h : MemWork s t) : t.eventQueue = s.eventQueue := by
  refine eventQueue_congr ?_ (h.obj _ (by decide)) (h.obj _ (by decide))
  obtain ⟨_, _, _, _, _, _, _, _, _, e⟩ := h.shape
  rw [e]
  rfl

theorem MemWork.trans {s t u : State} (h : MemWork s t) (k : MemWork t u) : MemWork s u := by
  refine ⟨?_, h.obj.trans k.obj, fun q => ?_, h.kept.trans k.kept, fun q => k.fault (h.fault q), ?_, h.kinds.trans k.kinds⟩
  · obtain ⟨_, _, _, _, _, _, _, _, _, e⟩ := h.shape
    obtain ⟨a, b, c, d, f, g, i, j, l, e'⟩ := k.shape
    exact ⟨a, b, c, d, f, g, i, j, l, by rw [e', e]; rfl⟩
  · obtain ⟨h1, h2, h3⟩ := h.calm q
    obtain ⟨k1, k2, k3⟩ := k.calm (h.queue.trans q)
    exact ⟨k1.trans h1, k2.trans h2, k3.trans h3⟩
  · obtain ⟨_, _, h1⟩ := h.only
    obtain ⟨f, g, k1⟩ := k.only
    exact ⟨f, g, by rw [k1, h1]⟩

theorem MemWork.foldl {α : Type} {f : State → α → State} (l : List α) (h : ∀ s a, MemWork s (f s a)) (s : State) :
    MemWork s (l.foldl f s) :=
  List.foldlRecOn l f (motive := fun t => MemWork s t) (MemWork.refl s) (fun t ht a _ => ht.trans (h t a))

theorem Logs.memWork {s t : State} (h : Logs s t) (k : FlowsKept s t) (l : KindsKept s t) : MemWork s t := by
  obtain ⟨a, b, c, d, f, g, i, e⟩ := h.shape
  exact ⟨⟨a, b, c, d, f, g, i, _, _, e⟩, h.sameObj.mono (fun _ q => List.mem_append_right _ q), fun q => (h.quiet q).2,
    k, fun q => by rw [h.step]; exact q, ⟨_, _, by rw [h.step]⟩, l⟩

theorem State.raiseAt_memWork (s : State) (e : Ev) (n cls : Nat) : MemWork s (s.raiseAt e n cls) :=
  (s.raiseAt_logs e n cls).memWork (s.raiseAt_kept e n cls) (s.raiseAt_kinds e n cls)

theorem State.raise_memWork (s : State) (e : Ev) : MemWork s (s.raise e) := (s.raise_logs e).memWork (s.raise_kept e) (s.raiseAt_kinds ..)

theorem MemWork.setObj (s : State) {k : Nat} (v : Nat) (h : k ∈ memKeys) : MemWork s (s.setObj k v) :=
  ⟨⟨_, _, _, _, _, _, _, _, _, rfl⟩, (SameObj.refl s _).setObj v h, fun _ => ⟨rfl, rfl, rfl⟩,
    FlowsKept.of_flows rfl, id, ⟨_, _, rfl⟩, KindsKept.of_flows rfl⟩

theorem MemWork.setMem (s : State) (m : MemSt) : MemWork s { s with mem := m } :=
  ⟨⟨s.od, s.events, s.ledger, s.rings, m, s.flows, s.router, s.step, s.freeCount, rfl⟩, fun _ _ => rfl,
    fun _ => ⟨rfl, rfl, rfl⟩, FlowsKept.of_flows rfl, id, ⟨_, _, rfl⟩, KindsKept.of_flows rfl⟩

theorem State.poison_memWork (s : State) (hold : Bool) : MemWork s (s.poison hold) := by
  obtain ⟨x, h⟩ := s.poison_shape hold
  have hf : s.step.fault = true → (s.poison hold).step.fault = true := by
    unfold State.poison
    split
    · exact fun _ => rfl
    · exact id
  have ha : ∃ f h, (s.poison hold).step = { s.step with fault := f, hold := h } := by
    unfold State.poison
    split <;> exact ⟨_, _, rfl⟩
  rw [h] at hf ha ⊢
  exact ⟨⟨_, _, _, _, _, _, _, _, _, rfl⟩, fun _ _ => rfl, fun _ => ⟨rfl, rfl, rfl⟩, FlowsKept.of_flows rfl, hf, ha, KindsKept.of_flows rfl⟩

theorem State.deny_memWork (s : State) (ag : Agent) (write : Bool) (a : Nat) : MemWork s (s.deny ag write a) := by
  unfold State.deny
  extract_lets t u v
  have h : MemWork s v :=
    ((MemWork.setObj s _ (by decide)).trans (MemWork.setObj t _ (by decide))).trans (MemWork.setObj u _ (by decide))
  split
  · exact h.trans (State.raiseAt_memWork ..)
  · exact (h.trans (v.poison_memWork true)).trans (State.raiseAt_memWork ..)

theorem State.retirePage_memWork (s : State) (page : Nat) : MemWork s (s.retirePage page) := by
  unfold State.retirePage
  split
  · exact MemWork.refl s
  · extract_lets ch used m t u
    split
    · exact (State.raise_memWork ..)
    · exact ((MemWork.setMem s _).trans (MemWork.setObj _ _ (by decide))).trans (MemWork.setObj _ _ (by decide))

theorem State.correctedEvent_memWork (s : State) (line : Nat) : MemWork s (s.correctedEvent line) := by
  unfold State.correctedEvent
  extract_lets t page last m u
  have h : MemWork s u := (MemWork.setObj s _ (by decide)).trans (MemWork.setMem t _)
  split
  · exact h.trans (State.retirePage_memWork ..)
  · exact h

theorem State.uncorrectable_memWork (s : State) (ag : Option Agent) (va line : Nat) :
    MemWork s (s.uncorrectable ag va line) := by
  unfold State.uncorrectable
  extract_lets r t u
  have h : MemWork s u := (MemWork.setObj s _ (by decide)).trans (MemWork.setObj t _ (by decide))
  split
  · exact h.trans (State.raiseAt_memWork ..)
  · extract_lets c v w
    have hv : MemWork s v := by
      show MemWork s (if _ then _ else _)
      split
      · exact h.trans (State.poison_memWork ..)
      · exact h
    have hw : MemWork s w := hv.trans (State.raiseAt_memWork ..)
    split
    · exact (hw.trans (MemWork.setObj w _ (by decide))).trans (State.raise_memWork ..)
    · exact hw

theorem State.freshLine_memWork (s : State) (line : Nat) : MemWork s (s.freshLine line) := MemWork.setMem s _

theorem State.poke_memWork (s : State) (a : Nat) (bs : Bytes) : MemWork s (s.poke a bs) := MemWork.setMem s _

theorem State.mark_memWork (s : State) (line : Nat) : MemWork s (s.mark line) := MemWork.setMem s _

theorem State.meetLine_memWork (s : State) (ag : Option Agent) (va line : Nat) : MemWork s (s.meetLine ag va line) := by
  unfold State.meetLine
  extract_lets e w
  split
  · split
    · exact State.uncorrectable_memWork ..
    · exact MemWork.refl s
  · split
    · exact MemWork.refl s
    · have h : ∀ bs, MemWork s ((s.freshLine line).poke line bs) := fun bs =>
        (s.freshLine_memWork line).trans (State.poke_memWork ..)
      split
      · exact h _
      · exact (h _).trans (State.correctedEvent_memWork ..)
      · exact (((h _).trans (State.mark_memWork ..)).trans (State.uncorrectable_memWork ..)).trans
          (State.retirePage_memWork ..)

theorem State.meetLines_memWork (s : State) (ag : Agent) (ps : List (Nat × Nat)) : MemWork s (s.meetLines ag ps) :=
  MemWork.foldl _ (fun t _ => t.meetLine_memWork ..) s

theorem State.readPhys_memWork (s : State) (ag : Agent) (a n : Nat) : MemWork s (s.readPhys ag a n).1 :=
  MemWork.foldl _ (fun t _ => t.meetLine_memWork ..) s

theorem State.load_memWork (s : State) (ag : Agent) (a n : Nat) : MemWork s (s.load ag a n).1 := by
  unfold State.load
  split
  · exact s.meetLines_memWork ag _
  · exact s.deny_memWork ag false a

theorem freeBytes_memWork (n : Nat) (s : State) : MemWork s (freeBytes n s).2 := by
  induction n generalizing s with
  | zero => exact MemWork.refl s
  | succ n ih =>
    refine MemWork.trans ?_ (ih s.fresh.2)
    exact ⟨⟨_, _, _, _, _, _, _, _, _, rfl⟩, fun _ _ => rfl,
    fun _ => ⟨rfl, rfl, rfl⟩, FlowsKept.of_flows rfl, id, ⟨_, _, rfl⟩, KindsKept.of_flows rfl⟩

theorem State.loadData_memWork (s : State) (ag : Agent) (a n : Nat) : MemWork s (s.loadData ag a n).1 := by
  unfold State.loadData
  extract_lets r f
  split
  · exact (s.load_memWork ag a n).trans (freeBytes_memWork n _)
  · exact s.load_memWork ag a n

theorem State.writeLine_memWork (s : State) (a : Nat) (bs : Bytes) : MemWork s (s.writeLine a bs) := by
  obtain ⟨m, h⟩ : ∃ m, s.writeLine a bs = { s with mem := m } := ⟨_, rfl⟩
  rw [h]
  exact MemWork.setMem s m

theorem State.storeLines_memWork (s : State) (ag : Agent) (a : Nat) (bs : Bytes) : MemWork s (s.storeLines ag a bs) := by
  refine MemWork.foldl _ (fun t p => ?_) s
  extract_lets pa part
  split
  · exact t.writeLine_memWork ..
  · exact (t.meetLine_memWork ..).trans (State.poke_memWork ..)

theorem State.store_memWork (s : State) (ag : Agent) (a : Nat) (bs : Bytes) : MemWork s (s.store ag a bs).1 := by
  unfold State.store
  split
  · exact s.storeLines_memWork ag a bs
  · exact s.deny_memWork ag true a

theorem State.storeBy_memWork (s : State) (ag : Agent) (a : Nat) (bs : Bytes) : MemWork s (s.storeBy ag a bs) :=
  s.store_memWork ag a bs

section
variable {s t : State} (h : MemWork s t)
include h
theorem MemWork.cores : t.cores = s.cores := by obtain ⟨_, _, _, _, _, _, _, _, _, e⟩ := h.shape; rw [e]; rfl
theorem MemWork.engines : t.engines = s.engines := by obtain ⟨_, _, _, _, _, _, _, _, _, e⟩ := h.shape; rw [e]; rfl
theorem MemWork.now : t.now = s.now := by obtain ⟨_, _, _, _, _, _, _, _, _, e⟩ := h.shape; rw [e]; rfl
theorem MemWork.bell : t.bell = s.bell := by obtain ⟨_, _, _, _, _, _, _, _, _, e⟩ := h.shape; rw [e]; rfl
theorem MemWork.power : t.power = s.power := by obtain ⟨_, _, _, _, _, _, _, _, _, e⟩ := h.shape; rw [e]; rfl
theorem MemWork.blobs : t.blobs = s.blobs := by obtain ⟨_, _, _, _, _, _, _, _, _, e⟩ := h.shape; rw [e]; rfl
theorem MemWork.plan : t.plan = s.plan := by obtain ⟨_, _, _, _, _, _, _, _, _, e⟩ := h.shape; rw [e]; rfl
theorem MemWork.windows : t.windows = s.windows := by obtain ⟨_, _, _, _, _, _, _, _, _, e⟩ := h.shape; rw [e]; rfl
theorem MemWork.merges : t.merges = s.merges := by obtain ⟨_, _, _, _, _, _, _, _, _, e⟩ := h.shape; rw [e]; rfl
theorem MemWork.verdicts : t.verdicts = s.verdicts := by obtain ⟨_, _, _, _, _, _, _, _, _, e⟩ := h.shape; rw [e]; rfl
theorem MemWork.shards : t.shards = s.shards := by obtain ⟨_, _, _, _, _, _, _, _, _, e⟩ := h.shape; rw [e]; rfl
theorem MemWork.delivered : t.delivered = s.delivered := by
  obtain ⟨_, _, _, _, _, _, _, _, _, e⟩ := h.shape; rw [e]; rfl
theorem MemWork.contribs : t.contribs = s.contribs := by
  obtain ⟨_, _, _, _, _, _, _, _, _, e⟩ := h.shape; rw [e]; rfl
theorem MemWork.out : t.out = s.out := by obtain ⟨_, _, _, _, _, _, _, _, _, e⟩ := h.shape; rw [e]; rfl
theorem MemWork.core (k : Nat) : t.core k = s.core k := State.core_of_cores h.cores k
theorem MemWork.eng (k : Nat) : t.eng k = s.eng k := by
  rw [State.eng, h.engines]
  rfl
end

end Sys2Proof.Machine

namespace Sys2Proof.Machine

/-! ### QTAKE, NOTE and summaries on their way -/

/-- The first element that fits stands at the index found, and leaves the list as erasing it does. -/
theorem List.find?_findIdx? {α : Type} [BEq α] [LawfulBEq α] {p : α → Bool} {l : List α} {a : α} (h : l.find? p = some a) :
    ∃ i, l.findIdx? p = some i ∧ l[i]? = some a ∧ l.eraseIdx i = l.erase a := by
  induction l with
  | nil => cases h
  | cons b l ih =>
    cases hb : p b with
    | true =>
      rw [List.find?_cons_of_pos hb] at h
      cases h
      exact ⟨0, by rw [List.findIdx?_cons, hb]; rfl, rfl, by rw [List.erase_cons_head]; rfl⟩
    | false =>
      rw [List.find?_cons_of_neg (by rw [hb]; exact Bool.false_ne_true)] at h
      obtain ⟨i, h1, h2, h3⟩ := ih h
      have hne : ¬(b == a) = true := by
        intro q
        rw [eq_of_beq q] at hb
        exact Bool.false_ne_true (hb.symm.trans (List.find?_some h))
      refine ⟨i + 1, by rw [List.findIdx?_cons, hb, h1]; rfl, h2, ?_⟩
      rw [List.erase_cons_tail hne, List.eraseIdx_cons_succ, h3]

/-- QTAKE of a queue of the core. -/
theorem exec_ccQtake {r : CoreReq} {s : State} {q : QueueEntry} (hr : s.coreReady r = true)
    (h1 : s.queue? ((s.core (coreKey r.die r.cluster)).x r.rs1) = some q) (h2 : q.kind = 0 ∨ q.kind = 3)
    (h3 : q.consumer = coreKey r.die r.cluster)
    (h4 : inDmem ((s.core (coreKey r.die r.cluster)).x r.rs2) 64 = true) :
    let k := coreKey r.die r.cluster
    let n := (s.core k).x r.rs1
    let base := match s.region? q.region with | some x => x.base | none => 0
    let l := s.quiet.loadData .core (base + q.offset + ((s.ring n).ci % q.entries) * 64) 64
    let t := l.1.setRing n { l.1.ring n with ci := ((s.ring n).ci + 1) % 2 ^ 32 }
    exec (.ccQtake r) s = .next (if (s.ring n).pi = (s.ring n).ci then s.quiet.coreRet k r.rd 0 else
      (t.setCore k { t.core k with dmem := memWrite (t.core k).dmem ((s.core k).x r.rs2) l.2 }).coreRet k r.rd 1) := by
  intro k n base l t
  show execCcQtake r s = _
  rw [execCcQtake, State.coreAccess_of_ready hr]
  have e : s.quiet.queue? ((s.quiet.core (coreKey r.die r.cluster)).x r.rs1) = some q := h1
  have ha : ¬((q.kind ≠ 0 ∧ q.kind ≠ 3) ∨ q.consumer ≠ coreKey r.die r.cluster) := by
    rintro (⟨a, b⟩ | a)
    · exact h2.elim a b
    · exact a h3
  have hb : ¬inDmem ((s.quiet.core (coreKey r.die r.cluster)).x r.rs2) 64 = false := fun x =>
    Bool.false_ne_true (x.symm.trans h4)
  simp only [e, if_neg ha, if_neg hb]
  rfl

/-- What QTAKE leaves: the entry in data memory, 1 in the register, the ring moved on. -/
theorem State.qtaken_spec (t : State) (k rd n : Nat) (g : RingSt) (d : List Host.Cell) :
    let u := ((t.setRing n g).setCore k { (t.setRing n g).core k with dmem := d }).coreRet k rd 1
    u.ring n = g ∧ u.core k = (({ t.core k with dmem := d } : CoreSt).setX rd 1).stepPc ∧ u.mem = t.mem ∧ u.od = t.od ∧
    ∀ j, j ≠ k → u.core j = t.core j := by
  intro u
  refine ⟨(Bank.get_set ..).trans (if_pos rfl), ?_, rfl, rfl, fun j hj => ?_⟩
  · exact (State.core_setCore_self ..).trans (by rw [State.core_setCore_self]; rfl)
  · exact (State.core_setCore_ne _ _ hj).trans (State.core_setCore_ne _ _ hj)

/-- NOTE of a core that is not held up. -/
theorem exec_ccNote {r : CoreReq} {s : State} (hr : s.coreReady r = true) :
    let k := coreKey r.die r.cluster
    let c := s.core k
    let t := s.quiet.coreRet k 0 0
    exec (.ccNote r) s = .next (if c.noted then t else
      (((((t.setCore k { t.core k with noted := true }).bump oCoreNoteCount).setObj oLastNoteTag
        (c.x r.rs1 % 2 ^ 16 + k * 2 ^ 16)).setObj oLastNoteValue (c.x r.rs2)).coreReport k).raise .coreNote) := by
  intro k c t
  show execCcNote r s = _
  rw [execCcNote, State.coreAccess_of_ready hr]
  rfl

theorem State.setMailbox_spec (s : State) (n : Nat) (m : MailboxSt) :
    (s.setMailbox n m).mailbox n = m ∧ (s.setMailbox n m).cores = s.cores ∧
    SameObj s (s.setMailbox n m) [oMbStates] :=
  ⟨(Bank.get_set ..).trans (if_pos rfl), rfl,
    SameObj.setObj (t := { s with mailboxes := Bank.set s.mailboxes MailboxSt.init n m }) (fun _ _ => rfl) _
      (List.mem_singleton.mpr rfl)⟩

/-- A core's report fills its mailbox (R182, R368). -/
theorem State.coreReport_spec (s : State) (k : Nat) :
    ((s.coreReport k).mailbox (16 + k)).full = true ∧ (s.coreReport k).cores = s.cores ∧
    SameObj s (s.coreReport k) [oMbStates] := by
  unfold State.coreReport
  extract_lets v
  unfold State.mailboxGo
  extract_lets m t
  have hl : 8 ≤ 8 + v 16 % 9 ∧ 8 + v 16 % 9 ≤ 16 := by omega
  have hn : ¬(4 ≤ 16 + k ∧ 16 + k ≤ 7) := by omega
  by_cases h : m.full = true
  · rw [if_pos h]
    exact ⟨h, rfl, fun _ _ => rfl⟩
  · rw [if_neg h, if_pos hl, if_neg hn]
    obtain ⟨h1, h2, h3⟩ := ({ s with freeCount := s.freeCount + 18 } : State).setMailbox_spec (16 + k)
      ⟨((upto 16).map v ++ List.replicate 16 0).take 16, true, 8 + v 16 % 9, v 17 % 65536, false, s.now⟩
    exact ⟨congrArg MailboxSt.full h1, h2, SameObj.trans (t := { s with freeCount := s.freeCount + 18 }) (fun _ _ => rfl) h3⟩

theorem State.mailbox_congr {s t : State} (h : t.mailboxes = s.mailboxes) (n : Nat) : t.mailbox n = s.mailbox n := by
  rw [State.mailbox, h]
  rfl

theorem CoreSt.slot_setSlot (c : CoreSt) (n : Nat) (v : SumSlot) (j : Nat) :
    CoreSt.slot { c with slots := Bank.set c.slots SumSlot.zero n v } j = if j = n then v else c.slot j := Bank.get_set ..

/-- A summary on its way merges into its slot. -/
theorem exec_summaryMerge {die : Die} {cluster : Cluster} {m : Merge} {s : State}
    (h : s.merges.find? (fun x => x.die == die.val && x.cluster == cluster.val) = some m) :
    let k := coreKey die cluster
    exec (.summaryMerge die cluster) s = .next (({ s.quiet with merges := s.merges.erase m } : State).setCore k
      { s.core k with slots := Bank.set (s.core k).slots SumSlot.zero m.slot (((s.core k).slot m.slot).merge m.value) }) := by
  intro k
  obtain ⟨i, h1, h2, h3⟩ := List.find?_findIdx? h
  show execSummaryMerge die cluster s = _
  rw [execSummaryMerge]
  simp only [show s.quiet.merges = s.merges from rfl, h1, h2, h3]
  rfl

/-- Settles O27. -/
theorem coreQueuesAndNotes : Obligations.CoreQueuesAndNotes := by
  unfold Obligations.CoreQueuesAndNotes
  refine ⟨?_, ?_, ?_⟩
  · intro r q s hr k c n base entry h1 h2 h3 h4
    have hx := exec_ccQtake hr h1 h2 h3 h4
    refine ⟨fun he => ?_, fun hne => ⟨_, hx, ?_⟩⟩
    · exact Returns.of_coreRet (hx.trans (congrArg Host.Outcome.next (if_pos he))) (CoreSame.quiet s)
    · rw [if_neg hne]
      have hm := s.quiet.loadData_memWork .core (base + q.offset + ((s.ring n).ci % q.entries) * 64) 64
      have hck : (entry.1).core k = c := hm.core k
      have hcj : ∀ j, entry.1.core j = s.core j := hm.core
      obtain ⟨u1, u2, u3, u4, u5⟩ := entry.1.qtaken_spec k r.rd n { entry.1.ring n with ci := ((s.ring n).ci + 1) % 2 ^ 32 }
        (memWrite (entry.1.core k).dmem (c.x r.rs2) entry.2)
      refine ⟨congrArg RingSt.ci u1, (congrArg CoreSt.pc u2).trans ?_, fun hrd => (congrArg (fun z : CoreSt => z.x r.rd) u2).trans ?_,
        (congrArg CoreSt.dmem u2).trans ?_, u3, u4, fun j hj => (u5 j hj).trans (hcj j)⟩
      · rw [hck]
        exact congrArg (· + 4) (CoreSt.setX_pc ..)
      · exact (CoreSt.stepPc_x ..).trans (CoreSt.x_setX_self _ _ hrd)
      · rw [hck]
        exact CoreSt.setX_dmem ..
  · intro r s hr k
    have hx := exec_ccNote hr
    refine ⟨fun hn => ?_, fun hn => ⟨_, hx, ?_⟩⟩
    · exact Returns.of_coreRet (hx.trans (congrArg Host.Outcome.next (if_pos hn))) (CoreSame.quiet s)
    · rw [if_neg (by rw [hn]; exact Bool.false_ne_true)]
      have hc := (s.quiet.coreRet k 0 0).core_setCore_self k { (s.quiet.coreRet k 0 0).core k with noted := true }
      have hp : ((s.quiet.coreRet k 0 0).core k).pc = (s.core k).pc + 4 := by
        rw [State.coreRet, State.core_setCore_self]
        rfl
      have ho : SameObj s ((s.quiet.coreRet k 0 0).setCore k { (s.quiet.coreRet k 0 0).core k with noted := true }) [] :=
        fun _ _ => rfl
      generalize (s.quiet.coreRet k 0 0).setCore k { (s.quiet.coreRet k 0 0).core k with noted := true } = t at hc ho ⊢
      have hu : SameObj t (((t.bump oCoreNoteCount).setObj oLastNoteTag ((s.core k).x r.rs1 % 2 ^ 16 + k * 2 ^ 16)).setObj
          oLastNoteValue ((s.core k).x r.rs2)) [oCoreNoteCount, oLastNoteTag, oLastNoteValue] :=
        (((SameObj.refl t _).setObj (k := oCoreNoteCount) _ (by decide)).setObj (k := oLastNoteTag) _ (by decide)).setObj
          (k := oLastNoteValue) _ (by decide)
      have hcu : (((t.bump oCoreNoteCount).setObj oLastNoteTag ((s.core k).x r.rs1 % 2 ^ 16 + k * 2 ^ 16)).setObj
          oLastNoteValue ((s.core k).x r.rs2)).cores = t.cores := by
        rw [State.setObj_cores, State.setObj_cores, State.bump_cores]
      have hv := State.obj_setObj_self ((t.bump oCoreNoteCount).setObj oLastNoteTag ((s.core k).x r.rs1 % 2 ^ 16 + k * 2 ^ 16))
        oLastNoteValue ((s.core k).x r.rs2)
      have ht : (((t.bump oCoreNoteCount).setObj oLastNoteTag ((s.core k).x r.rs1 % 2 ^ 16 + k * 2 ^ 16)).setObj
          oLastNoteValue ((s.core k).x r.rs2)).obj oLastNoteTag = (s.core k).x r.rs1 % 2 ^ 16 + k * 2 ^ 16 := by
        rw [State.obj_setObj_ne _ _ (by decide), State.obj_setObj_self]
      generalize ((t.bump oCoreNoteCount).setObj oLastNoteTag ((s.core k).x r.rs1 % 2 ^ 16 + k * 2 ^ 16)).setObj
          oLastNoteValue ((s.core k).x r.rs2) = u at hu hcu hv ht ⊢
      obtain ⟨w1, w2, w3⟩ := u.coreReport_spec k
      have hl := (u.coreReport k).raise_logs .coreNote
      have hk : ((u.coreReport k).raise .coreNote).core k = t.core k :=
        State.core_of_cores (hl.cores.trans (w2.trans hcu)) k
      refine ⟨by rw [hk, hc], ?_, ?_, ?_, ?_, ?_⟩
      · rw [hk, hc]
        exact hp
      · rw [State.mailbox_congr hl.mailboxes, w1]
      · rw [hl.obj _ (by decide), w3 _ (by decide), hv]
      · rw [hl.obj _ (by decide), w3 _ (by decide), ht]
      · exact (SameObj.mono ho (by decide)).trans
          ((SameObj.mono hu (by decide)).trans ((SameObj.mono w3 (by decide)).trans
            (hl.sameObj.mono (by decide))))
  · intro die cluster m s h k
    refine ⟨_, exec_summaryMerge h, rfl, ?_, fun n hn => ?_, fun j hj => State.core_setCore_ne _ _ hj, rfl, rfl⟩
    · rw [State.core_setCore_self, CoreSt.slot_setSlot, if_pos rfl]
    · rw [State.core_setCore_self, CoreSt.slot_setSlot, if_neg hn]

end Sys2Proof.Machine

namespace Sys2Proof.Machine

/-! ### Records that an event leaves in the ring of events -/

/-- At most `n` records entered the ring of events. -/
def Pushed (n : Nat) (s t : State) : Prop := ∃ l, l.length ≤ n ∧ t.events = (l ++ s.events).take 256

theorem Pushed.of_eq {s t : State} (n : Nat) (h : t.events = s.events.take 256) : Pushed n s t := ⟨[], Nat.zero_le n, h⟩

theorem Pushed.trans {m n : Nat} {s t u : State} (h : Pushed m s t) (k : Pushed n t u) : Pushed (n + m) s u := by
  obtain ⟨l, hl, e⟩ := h
  obtain ⟨l', hl', e'⟩ := k
  refine ⟨l' ++ l, by rw [List.length_append]; omega, ?_⟩
  rw [e', e, List.append_assoc, List.take_append, List.take_append (l₁ := l'), List.take_take]
  congr 2
  omega

/-- A record at the front is still in the ring after a few more. -/
theorem Pushed.mem {n : Nat} {s t : State} (h : Pushed n s t) (hn : n < 256) {r : RingRec} {rest : List RingRec}
    (he : s.events = r :: rest) : r ∈ t.events := by
  obtain ⟨l, hl, e⟩ := h
  rw [e, he, List.take_append]
  refine List.mem_append_right _ ?_
  obtain ⟨j, hj⟩ : ∃ j, 256 - l.length = j + 1 := ⟨255 - l.length, by omega⟩
  rw [hj]
  exact List.mem_cons_self

theorem State.logEvent_pushed (s : State) (e : Ev) (cls : Nat) (dk : Option Nat) (detail : Nat) (keeper : Bool) :
    Pushed 1 s (s.logEvent e cls dk detail keeper).1 := by
  obtain ⟨r, h⟩ : ∃ r, (s.logEvent e cls dk detail keeper).1.events = (r :: s.events).take 256 := by
    unfold State.logEvent
    extract_lets s1 r wantsFlash fits toFlash entry src led s2 s3
    have h3 : s3.events = (RingRec.event r :: s.events).take 256 := by
      show (if toFlash = true then _ else s2).events = _
      split <;> rfl
    refine ⟨.event r, ?_⟩
    dsimp only
    split
    · exact h3
    · exact h3
  exact ⟨[r], Nat.le_refl _, h⟩

theorem Pushed.record {n : Nat} {s t : State} (h : Pushed n s t) (q : QueueEntry) (kind : Nat) (body : Bytes) :
    Pushed n s (t.postRecord q kind body).1 := by
  obtain ⟨l, hl, e⟩ := h
  obtain ⟨⟨_, _, _, _, _, e'⟩, -⟩ := t.postRecord_shape q kind body
  exact ⟨l, hl, by rw [e']; exact e⟩

theorem State.raiseOnce_pushed (s : State) (e : Ev) (cls : Nat) (dk : Option Nat) (detail : Nat) :
    Pushed 1 s (s.raiseOnce e cls dk detail).1 := by
  unfold State.raiseOnce
  extract_lets r
  split
  · exact (s.logEvent_pushed ..).record ..
  · exact s.logEvent_pushed ..

theorem Pushed.congr {n : Nat} {s t u : State} (h : Pushed n t u) (e : t.events = s.events) : Pushed n s u := by
  rwa [Pushed, ← e]

theorem Pushed.le {n : Nat} {s t : State} (h : Pushed n s t) : t.events.length ≤ 256 := by
  obtain ⟨l, -, e⟩ := h
  rw [e]
  exact List.length_take_le ..

theorem State.noteSuppressed_pushed (s : State) (before : Nat) (h : s.events.length ≤ 256) :
    Pushed 1 s (s.noteSuppressed before) := by
  unfold State.noteSuppressed
  split
  · extract_lets led t
    exact Pushed.congr (t.raiseOnce_pushed ..) rfl
  · exact Pushed.of_eq 1 (List.take_of_length_le h).symm

theorem State.raiseWith_pushed (s : State) (e : Ev) (cls : Nat) (dk : Option Nat) (detail : Nat) :
    Pushed 3 s (s.raiseWith e cls dk detail) := by
  unfold State.raiseWith
  extract_lets before r t
  have ht : Pushed 2 s t := Pushed.trans (s.raiseOnce_pushed ..) (State.noteSuppressed_pushed _ _ (s.raiseOnce_pushed ..).le)
  split
  · exact ht.trans (State.raiseOnce_pushed ..)
  · obtain ⟨l, hl, e⟩ := ht
    exact ⟨l, by omega, e⟩

theorem State.raiseAt_pushed (s : State) (e : Ev) (n cls : Nat) :
    Pushed 3 s (s.raiseAt e n cls) := by
  unfold State.raiseAt
  split
  · exact State.raiseWith_pushed ..
  · exact State.raiseWith_pushed ..

/-! ### Mailboxes -/

theorem State.post_logs {s : State} {q : QueueEntry} (h : s.eventQueue = some q) (kind : Nat) (body : Bytes) :
    Logs s (s.post q kind body) := by
  have hr : Logs s (s.postRecord q kind body).1 := by
    obtain ⟨⟨a, b, c, d, f, e1⟩, e2⟩ := s.postRecord_shape q kind body
    refine Logs.of_shape ⟨a, _, _, b, c, d, f, e1⟩ (fun k hk => e2 k (fun e => hk (e ▸ by decide))) (fun hn => ?_)
    rw [hn] at h
    cases h
  unfold State.post
  extract_lets r
  split
  · exact hr.trans (State.raise_logs ..)
  · exact hr

/-- The record of a mailbox for the host: in the ring of events, and what an event leaves. -/
theorem State.postMailbox_spec (s : State) (n st tag : Nat) :
    Logs s (s.postMailbox n st tag) ∧ RingRec.mailbox n (st + tag * 256) ∈ (s.postMailbox n st tag).events := by
  unfold State.postMailbox
  extract_lets t
  have ht : Logs s t := Logs.of_shape ⟨s.od, t.events, _, _, _, _, _, rfl⟩ (fun _ _ => rfl) (fun _ => ⟨rfl, rfl, rfl, rfl⟩)
  have he : t.events = RingRec.mailbox n (st + tag * 256) :: s.events.take 255 := rfl
  have hlen : t.events.length ≤ 256 := List.length_take_le ..
  split
  next q hq =>
    refine ⟨ht.trans (State.post_logs hq _ _), ?_⟩
    have hr : Pushed 0 t (t.postRecord q 0x23 (mailboxBody n st tag)).1 :=
      Pushed.record (Pushed.of_eq 0 (List.take_of_length_le hlen).symm) q _ _
    unfold State.post
    extract_lets r
    split
    · exact (hr.trans (State.raiseAt_pushed ..)).mem (by decide) he
    · exact hr.mem (by decide) he
  next => exact ⟨ht, he ▸ List.mem_cons_self⟩

theorem bit_setBits (x n v : Nat) : bit (setBits x n 1 v) n = (v % 2 == 1) := by
  have h : setBits x n 1 v / 2 ^ n % 2 = v % 2 := by
    unfold setBits bits
    have hp : 0 < 2 ^ n := Nat.two_pow_pos n
    have hle : 2 ^ n * (x / 2 ^ n % 2 ^ 1) ≤ x :=
      Nat.le_trans (Nat.mul_le_mul_left _ (Nat.mod_le _ _)) (Nat.mul_div_le ..)
    rw [Nat.add_mul_div_right _ _ hp, Nat.mul_comm _ (2 ^ n), Nat.sub_mul_div_of_le _ _ _ hle]
    omega
  rw [bit, Nat.testBit_eq_decide_div_mod_eq, h]
  rfl

/-- What a mailbox replaced leaves. -/
structure MailboxSet (n : Nat) (m : MailboxSt) (s t : State) : Prop where
  box : t.mailbox n = m
  rest : ∀ j, j ≠ n → t.mailbox j = s.mailbox j
  state : bit (t.obj oMbStates) n = m.full
  same : SameObj s t (oMbStates :: eventKeys)
  out : t.out = s.out
  now : t.now = s.now

theorem State.setMailbox_set (s : State) (n : Nat) (m : MailboxSt) : MailboxSet n m s (s.setMailbox n m) := by
  refine ⟨(s.setMailbox_spec n m).1, fun j hj => (Bank.get_set ..).trans (if_neg hj), ?_,
    (s.setMailbox_spec n m).2.2.mono (by decide), rfl, rfl⟩
  unfold State.setMailbox
  extract_lets st
  rw [State.obj_setObj_self, bit_setBits]
  cases m.full <;> rfl

theorem MailboxSet.logs {n : Nat} {m : MailboxSt} {s t u : State} (h : MailboxSet n m s t) (k : Logs t u) :
    MailboxSet n m s u :=
  ⟨(State.mailbox_congr k.mailboxes n).trans h.box, fun j hj => (State.mailbox_congr k.mailboxes j).trans (h.rest j hj),
    (congrArg (bit · n) (k.obj _ (by decide))).trans h.state, h.same.trans (k.sameObj.mono (by decide)), k.out.trans h.out,
    k.now.trans h.now⟩

/-- What a mailbox's sender is told (R370, R371): a record for the host's mailboxes, an interrupt for the others. -/
theorem State.mailboxInterrupt_spec (s : State) (n : Nat) (m : MailboxSt) (late : Bool) :
    (n < 4 → Logs s (s.mailboxInterrupt n m late) ∧
      RingRec.mailbox n ((if late then 2 else 1) + m.tag * 256) ∈ (s.mailboxInterrupt n m late).events) ∧
    (4 ≤ n → s.mailboxInterrupt n m late = s.emit (.mailboxInterrupt n late)) := by
  unfold State.mailboxInterrupt
  refine ⟨fun h => ?_, fun h => if_neg (Nat.not_lt.mpr h)⟩
  rw [if_pos h]
  exact s.postMailbox_spec ..

end Sys2Proof.Machine

namespace Sys2Proof.Machine

theorem Logs.mailbox {s t : State} (h : Logs s t) (n : Nat) : t.mailbox n = s.mailbox n := State.mailbox_congr h.mailboxes n

theorem State.mailboxGo_of_full {s : State} {n : Nat} (h : (s.mailbox n).full = true) (regs : List Nat) (length tag : Nat) :
    s.mailboxGo n regs length tag = s := if_pos h

theorem State.mailboxGo_of_length {s : State} {n length : Nat} (h : ¬(8 ≤ length ∧ length ≤ 16)) (regs : List Nat)
    (tag : Nat) : s.mailboxGo n regs length tag = s := by
  unfold State.mailboxGo
  extract_lets m t
  rw [if_neg h, ite_self]

theorem State.mailboxGo_of_room {s : State} {n length : Nat} (h : (s.mailbox n).full = false) (h8 : 8 ≤ length)
    (h16 : length ≤ 16) (regs : List Nat) (tag : Nat) :
    s.mailboxGo n regs length tag =
      let t := s.setMailbox n ⟨(regs ++ List.replicate 16 0).take 16, true, length, tag, false, s.now⟩
      if 4 ≤ n ∧ n ≤ 7 then t.postMailbox n 3 tag else t :=
  (if_neg (by rw [h]; exact Bool.false_ne_true)).trans (if_pos ⟨h8, h16⟩)

theorem exec_mailboxGo (m : Mailbox) (regs : List W64) (len : BitVec 5) (tag : W16) (s : State) :
    exec (.mailboxGo m regs len tag) s =
      .next (s.quiet.mailboxGo m.val (regs.map BitVec.toNat) len.toNat tag.toNat) := rfl

theorem exec_mailboxClear_full {m : Mailbox} {s : State} (h : (s.mailbox m.val).full = true) :
    exec (.mailboxClear m) s = .next ((s.quiet.setMailbox m.val { s.mailbox m.val with full := false }).mailboxInterrupt
      m.val (s.mailbox m.val) false) := by
  show execMailboxClear m s = _
  exact congrArg Host.Outcome.next (if_pos h)

/-- A mailbox withdrawn at the moment `n`. -/
def withdrawn (s : State) (m : Mailbox) (n : Nat) : State :=
  ((((s.quiet.advanceTo n).setMailbox m.val { s.mailbox m.val with full := false, timedOut := true }).bump
    oMbTimeoutCount).raise .mailboxTimeout).mailboxInterrupt m.val (s.mailbox m.val) true

theorem exec_mailboxTimeout_full {m : Mailbox} {s : State} (h : (s.mailbox m.val).full = true) :
    exec (.mailboxTimeout m) s =
      .next (withdrawn s m ((s.mailbox m.val).goAt + s.obj oMbTimeoutMs * 1000000)) := by
  show execMailboxTimeout m s = _
  exact if_pos h

theorem State.bump_frame (s : State) (k : Nat) :
    (s.bump k).mailboxes = s.mailboxes ∧ (s.bump k).out = s.out ∧ (s.bump k).now = s.now := ⟨rfl, rfl, rfl⟩

theorem State.advanceTo_mailboxes (s : State) (n : Nat) :
    (s.advanceTo n).mailboxes = s.mailboxes ∧ (s.advanceTo n).out = s.out := ⟨rfl, rfl⟩

/-- What telling the sender leaves. -/
structure Told (n : Nat) (m : MailboxSt) (late : Bool) (s t : State) : Prop where
  boxes : t.mailboxes = s.mailboxes
  obj : ∀ k, k ∉ eventKeys → t.obj k = s.obj k
  now : t.now = s.now
  out : 4 ≤ n → t.out = s.out ++ [.mailboxInterrupt n late]
  event : n < 4 → RingRec.mailbox n ((if late then 2 else 1) + m.tag * 256) ∈ t.events

theorem State.mailboxInterrupt_told (s : State) (n : Nat) (m : MailboxSt) (late : Bool) :
    Told n m late s (s.mailboxInterrupt n m late) := by
  obtain ⟨h1, h2⟩ := s.mailboxInterrupt_spec n m late
  by_cases h : n < 4
  · obtain ⟨hl, he⟩ := h1 h
    exact ⟨hl.mailboxes, hl.obj, hl.now, fun q => absurd h (Nat.not_lt.mpr q), fun _ => he⟩
  · rw [h2 (Nat.not_lt.mp h)]
    exact ⟨rfl, fun _ _ => rfl, rfl, fun _ => rfl, fun q => absurd q h⟩

/-- What a mailbox withdrawn in time leaves. -/
theorem withdrawn_spec (s : State) (m : Mailbox) (n : Nat) :
    let t := withdrawn s m n
    t.mailbox m.val = { s.mailbox m.val with full := false, timedOut := true } ∧
    (∀ j, j ≠ m.val → t.mailbox j = s.mailbox j) ∧ bit (t.obj oMbStates) m.val = false ∧ n ≤ t.now ∧
    t.obj oMbTimeoutCount = (s.obj oMbTimeoutCount + 1) % 2 ^ objBits oMbTimeoutCount ∧
    SameObj s t ([oMbStates, oMbTimeoutCount] ++ eventKeys) ∧ (4 ≤ m.val → t.out = [.mailboxInterrupt m.val true]) ∧
    (m.val < 4 → RingRec.mailbox m.val (2 + (s.mailbox m.val).tag * 256) ∈ t.events) := by
  intro t
  have hm := (s.quiet.advanceTo n).setMailbox_set m.val { s.mailbox m.val with full := false, timedOut := true }
  have hs := ((s.quiet.advanceTo n).setMailbox_spec m.val { s.mailbox m.val with full := false, timedOut := true }).2.2
  have hn : n ≤ (s.quiet.advanceTo n).now := s.quiet.advanceTo_le n
  have ho : SameObj s (s.quiet.advanceTo n) [] := fun k _ => s.quiet.advanceTo_obj n k
  have hb : ∀ j, (s.quiet.advanceTo n).mailbox j = s.mailbox j :=
    fun j => State.mailbox_congr (s.quiet.advanceTo_mailboxes n).1 j
  have hout : (s.quiet.advanceTo n).out = [] := (s.quiet.advanceTo_mailboxes n).2
  have hw : t = ((((s.quiet.advanceTo n).setMailbox m.val { s.mailbox m.val with full := false, timedOut := true }).bump
    oMbTimeoutCount).raise .mailboxTimeout).mailboxInterrupt m.val (s.mailbox m.val) true := by
    unfold t withdrawn
    rfl
  clear_value t
  subst hw
  generalize s.quiet.advanceTo n = a at hm hs hn ho hb hout
  generalize a.setMailbox m.val { s.mailbox m.val with full := false, timedOut := true } = u at hm hs
  obtain ⟨b1, b2, b3⟩ := u.bump_frame oMbTimeoutCount
  have bs : (u.bump oMbTimeoutCount).obj oMbTimeoutCount = (u.obj oMbTimeoutCount + 1) % 2 ^ objBits oMbTimeoutCount :=
    u.bump_obj_self _
  have bo : SameObj u (u.bump oMbTimeoutCount) [oMbTimeoutCount] :=
    (SameObj.refl u _).setObj (k := oMbTimeoutCount) _ (by decide)
  generalize u.bump oMbTimeoutCount = v at b1 b2 b3 bs bo
  have hl := v.raise_logs .mailboxTimeout
  generalize v.raise .mailboxTimeout = w at hl
  have ht := w.mailboxInterrupt_told m.val (s.mailbox m.val) true
  generalize w.mailboxInterrupt m.val (s.mailbox m.val) true = x at ht
  have hbox : ∀ j, x.mailbox j = u.mailbox j :=
    fun j => State.mailbox_congr (ht.boxes.trans (hl.mailboxes.trans b1)) j
  have hobj : ∀ k, k ∉ eventKeys → x.obj k = v.obj k := fun k hk => (ht.obj k hk).trans (hl.obj k hk)
  refine ⟨(hbox _).trans hm.box, fun j hj => (hbox j).trans ((hm.rest j hj).trans (hb j)), ?_, ?_, ?_, fun k hk => ?_,
    fun q => ?_, ht.event⟩
  · rw [hobj _ (by decide), bo _ (by decide)]
    exact hm.state
  · rw [ht.now, hl.now, b3, hm.now]
    exact hn
  · rw [hobj _ (by decide), bs, hs _ (by decide), ho _ (by decide)]
  · rw [List.mem_append, not_or] at hk
    obtain ⟨k1, k2⟩ := hk
    rw [hobj k k2, bo k (fun q => k1 (List.mem_of_mem_tail q)), hs k (fun q => k1 (List.mem_cons.mpr (.inl (List.mem_singleton.mp q)))),
      ho k List.not_mem_nil]
  · rw [ht.out q, hl.out, b2, hm.out, hout, List.nil_append]

/-- Settles O37. -/
theorem mailboxCommands : Obligations.MailboxCommands := by
  unfold Obligations.MailboxCommands
  refine ⟨fun m regs len tag s => ⟨fun hf h8 h16 => ⟨_, exec_mailboxGo .., ?_⟩, fun h => ?_⟩,
    fun m s => ⟨fun hf => ⟨⟨_, exec_mailboxClear_full hf, ?_⟩, ⟨_, exec_mailboxTimeout_full hf, withdrawn_spec ..⟩⟩,
      fun hf => ?_⟩⟩
  · rw [State.mailboxGo_of_room (s := s.quiet) hf h8 h16]
    have h := s.quiet.setMailbox_set m.val ⟨(regs.map BitVec.toNat ++ List.replicate 16 0).take 16, true, len.toNat,
      tag.toNat, false, s.quiet.now⟩
    dsimp only
    generalize s.quiet.setMailbox _ _ = t at h
    split
    next =>
      obtain ⟨hl, he⟩ := t.postMailbox_spec m.val 3 tag.toNat
      have ht := h.logs hl
      exact ⟨ht.box, ht.rest, ht.state, ht.same, fun _ _ => he⟩
    next hn => exact ⟨h.box, h.rest, h.state, h.same, fun a b => absurd ⟨a, b⟩ hn⟩
  · rw [exec_mailboxGo]
    rcases h with h | h
    · rw [State.mailboxGo_of_full (s := s.quiet) h]
    · rw [State.mailboxGo_of_length (by omega)]
  · have h := s.quiet.setMailbox_set m.val { s.mailbox m.val with full := false }
    generalize s.quiet.setMailbox m.val { s.mailbox m.val with full := false } = t at h
    have ht := t.mailboxInterrupt_told m.val (s.mailbox m.val) false
    refine ⟨(State.mailbox_congr ht.boxes _).trans h.box, fun j hj => (State.mailbox_congr ht.boxes j).trans (h.rest j hj),
      ?_, h.same.trans (SameObj.mono (ks := eventKeys) ht.obj (by decide)), fun q => (ht.out q).trans ?_, ht.event⟩
    · rw [ht.obj _ (by decide)]
      exact h.state
    · rw [h.out]
      rfl
  · have hn : ¬(s.quiet.mailbox m.val).full = true := fun q => Bool.false_ne_true (hf.symm.trans q)
    exact ⟨congrArg Host.Outcome.next (if_neg hn), if_neg hn⟩

end Sys2Proof.Machine

namespace Sys2Proof.Machine

/-! ### The result of an admission -/

def planResultKeys : List Nat := [oReason, oStepBeat, oProgram, oResource, oExcessNs, oDetail]

theorem State.setPlanResult_spec (s : State) (f : PlanFault) :
    SameObj s (s.setPlanResult f) planResultKeys ∧ OnlyObj s (s.setPlanResult f) ∧
    (s.setPlanResult f).obj oReason = f.reason ∧ (s.setPlanResult f).obj oStepBeat = f.stepBeat ∧
    (s.setPlanResult f).obj oProgram = f.program ∧ (s.setPlanResult f).obj oResource = f.resource ∧
    (s.setPlanResult f).obj oExcessNs = f.excess ∧ (s.setPlanResult f).obj oDetail = f.detail := by
  have hb := SameObj.refl s planResultKeys
  have ho := OnlyObj.refl s
  unfold State.setPlanResult
  refine ⟨(((((hb.setObj (k := oReason) _ (by decide)).setObj (k := oStepBeat) _ (by decide)).setObj (k := oProgram) _
    (by decide)).setObj (k := oResource) _ (by decide)).setObj (k := oExcessNs) _ (by decide)).setObj (k := oDetail) _
    (by decide), (((((ho.setObj _ _).setObj _ _).setObj _ _).setObj _ _).setObj _ _).setObj _ _, ?_, ?_, ?_, ?_, ?_, ?_⟩
  · rw [State.obj_setObj_ne _ _ (by decide), State.obj_setObj_ne _ _ (by decide), State.obj_setObj_ne _ _ (by decide),
      State.obj_setObj_ne _ _ (by decide), State.obj_setObj_ne _ _ (by decide), State.obj_setObj_self]
  · rw [State.obj_setObj_ne _ _ (by decide), State.obj_setObj_ne _ _ (by decide),
      State.obj_setObj_ne _ _ (by decide), State.obj_setObj_ne _ _ (by decide), State.obj_setObj_self]
  · rw [State.obj_setObj_ne _ _ (by decide), State.obj_setObj_ne _ _ (by decide), State.obj_setObj_ne _ _ (by decide),
      State.obj_setObj_self]
  · rw [State.obj_setObj_ne _ _ (by decide), State.obj_setObj_ne _ _ (by decide), State.obj_setObj_self]
  · rw [State.obj_setObj_ne _ _ (by decide), State.obj_setObj_self]
  · rw [State.obj_setObj_self]

/-- The objects that show what a plan declares, its recipe and the strikes. -/
def planShownKeys : List Nat :=
  [oQueuesDeclared, oEventQueue, oWindowsOwned, oShardsServed, oRegionCount, oRtMapTables, oMapNow, oPowerPeakW,
    oTreeRoot, oTreeParentPort, oTreeChildren, oTreeDepth, oTreeCount, oLsExp, oLsRun, oLsLimits, oTensorCount, oLossSource,
    oFlowsOpen] ++ (upto 192).map oStrike

theorem State.setPlanCounts_spec (s : State) (pl : Plan) :
    SameObj s (s.setPlanCounts pl) planShownKeys ∧ (s.setPlanCounts pl).blobs = s.blobs := by
  unfold State.setPlanCounts
  extract_lets me qs ev t
  refine ⟨((((((((SameObj.refl s _).setObj (k := oQueuesDeclared) _ (by decide)).setObj (k := oEventQueue) _
    (by decide)).setObj (k := oWindowsOwned) _ (by decide)).setObj (k := oShardsServed) _ (by decide)).setObj
    (k := oRegionCount) _ (by decide)).setObj (k := oRtMapTables) _ (by decide)).setObj (k := oMapNow) _
    (by decide)).setObj (k := oPowerPeakW) _ (by decide), rfl⟩

theorem State.setTree_spec (s : State) (pl : Plan) :
    SameObj s (s.setTree pl) planShownKeys ∧ (s.setTree pl).blobs = s.blobs := by
  unfold State.setTree
  extract_lets me t parent kids
  exact ⟨(((((SameObj.refl s _).setObj (k := oTreeRoot) _ (by decide)).setObj (k := oTreeParentPort) _
    (by decide)).setObj (k := oTreeChildren) _ (by decide)).setObj (k := oTreeDepth) _ (by decide)).setObj
    (k := oTreeCount) _ (by decide), rfl⟩

theorem SameObj.setBlob {s t : State} {ks : List Nat} (h : SameObj s t ks) (k : Nat) (v : Bytes) :
    SameObj s (t.setBlob k v) ks := h

theorem State.setRecipe_spec (s : State) (r : Recipe) :
    SameObj s (s.setRecipe r) planShownKeys ∧ (s.setRecipe r).blob oPlanDigest = s.blob oPlanDigest := by
  unfold State.setRecipe
  extract_lets e n kinds limits
  refine ⟨((SameObj.setBlob ((((SameObj.refl s _).setObj (k := oLsExp) _ (by decide)).setObj (k := oLsRun) _
    (by decide)).setObj (k := oLsLimits) _ (by decide)) _ _).setObj (k := oTensorCount) _ (by decide)).setObj
    (k := oLossSource) _ (by decide), ?_⟩
  rw [State.blob_congr _ (State.setObj_blobs ..), State.blob_congr _ (State.setObj_blobs ..), State.blob_setBlob,
    if_neg (by decide), State.blob_congr _ (State.setObj_blobs ..), State.blob_congr _ (State.setObj_blobs ..),
    State.blob_congr _ (State.setObj_blobs ..)]

theorem State.openFlows_spec (s : State) (pl : Plan) :
    SameObj s (s.openFlows pl) planShownKeys ∧ (s.openFlows pl).blobs = s.blobs := by
  unfold State.openFlows
  extract_lets fs t0 t
  have h : t.od = s.od ∧ t.blobs = s.blobs :=
    List.foldlRecOn fs _ (motive := fun t : State => t.od = s.od ∧ t.blobs = s.blobs) ⟨rfl, rfl⟩ (fun _ ht _ _ => ht)
  exact ⟨SameObj.setObj (SameObj.of_od h.1) (k := oFlowsOpen) _ (by decide), h.2⟩

theorem State.clearStrikes_spec (s : State) :
    SameObj s s.clearStrikes planShownKeys ∧ s.clearStrikes.blobs = s.blobs := by
  unfold State.clearStrikes
  extract_lets t
  have h := OnlyObj.foldl (f := fun (s : State) k => s.setObj (oStrike k) 0) (upto 192) (fun u a => (OnlyObj.refl u).setObj _ _) t
  refine ⟨fun k hk => (t.foldl_setObj (upto 192) oStrike 0 k).trans (if_neg (fun q => hk (List.mem_append_right _ q))), h.blobs⟩

theorem SameObj.digest (s : State) (bs : Bytes) (pl : Plan) :
    SameObj s (s.setPlanDigest bs pl) [oPlanId, oSeedDigest] ∧ (s.setPlanDigest bs pl).obj oPlanId = pl.id ∧
    (s.setPlanDigest bs pl).blob oPlanDigest = sha384 bs := by
  unfold State.setPlanDigest
  refine ⟨((SameObj.setBlob (SameObj.refl s _) _ _).setObj (k := oPlanId) _ (by decide)).setObj (k := oSeedDigest) _ (by decide),
    ?_, (State.blob_setBlob ..).trans (if_pos rfl)⟩
  rw [State.obj_setObj_ne _ _ (by decide), State.obj_setObj_self]

/-- A plan admitted: the stages of `State.admitPlan` before the replay counts. -/
def State.planShown (s : State) (bs : Bytes) (pl : Plan) : State :=
  ((((((s.setObj oPlanState 3).setPlanDigest bs pl).setPlanCounts pl).setTree pl).setRecipe pl.recipe).openFlows pl).clearStrikes

theorem State.planShown_spec (s : State) (bs : Bytes) (pl : Plan) :
    SameObj s (s.planShown bs pl) ([oPlanState, oPlanId, oSeedDigest] ++ planShownKeys) ∧
    (s.planShown bs pl).obj oPlanState = 3 ∧ (s.planShown bs pl).obj oPlanId = pl.id ∧
    (s.planShown bs pl).blob oPlanDigest = sha384 bs := by
  have h0 : SameObj s (s.setObj oPlanState 3) [oPlanState] := (SameObj.refl s _).setObj _ (by decide)
  have v0 := s.obj_setObj_self oPlanState 3
  unfold State.planShown
  generalize s.setObj oPlanState 3 = a at h0 v0
  obtain ⟨h1, i1, d1⟩ := SameObj.digest a bs pl
  generalize a.setPlanDigest bs pl = b at h1 i1 d1
  obtain ⟨h2, e2⟩ := b.setPlanCounts_spec pl
  generalize b.setPlanCounts pl = c at h2 e2
  obtain ⟨h3, e3⟩ := c.setTree_spec pl
  generalize c.setTree pl = d at h3 e3
  obtain ⟨h4, e4⟩ := d.setRecipe_spec pl.recipe
  generalize d.setRecipe pl.recipe = e at h4 e4
  obtain ⟨h5, e5⟩ := e.openFlows_spec pl
  generalize e.openFlows pl = f at h5 e5
  obtain ⟨h6, e6⟩ := f.clearStrikes_spec
  generalize f.clearStrikes = g at h6 e6
  have hbg : SameObj b g planShownKeys := h2.trans (h3.trans (h4.trans (h5.trans h6)))
  refine ⟨fun k hk => ?_, ?_, ?_, ?_⟩
  · rw [List.mem_append, not_or] at hk
    obtain ⟨k1, k2⟩ := hk
    rw [hbg k k2, h1 k (fun q => k1 (List.mem_cons_of_mem _ q)), h0 k (fun q => k1 (List.mem_cons.mpr (.inl (List.mem_singleton.mp q))))]
  · rw [hbg _ (by decide +kernel), h1 _ (by decide), v0]
  · rw [hbg _ (by decide +kernel), i1]
  · rw [State.blob_congr _ (e6.trans e5), e4, State.blob_congr _ (e3.trans e2), d1]

theorem State.admitPlan_eq (s : State) (bs : Bytes) (pl : Plan) : ∃ g m,
    s.admitPlan bs pl = { ((s.planShown bs pl).setObj oFaultReplays 0).setObj oOverflowReplays 0 with
      plan := some pl, admitting := none, keeper := none, groupT := g, step := StepSt.init, mem := m } := ⟨_, _, rfl⟩

/-- What an admission leaves. -/
theorem State.admitPlan_spec (s : State) (bs : Bytes) (pl : Plan) :
    let t := s.admitPlan bs pl
    SameObj s t ([oPlanState, oPlanId, oSeedDigest, oFaultReplays, oOverflowReplays] ++ planShownKeys) ∧
    t.obj oPlanState = 3 ∧ t.obj oPlanId = pl.id ∧ t.obj oFaultReplays = 0 ∧ t.obj oOverflowReplays = 0 ∧
    t.blob oPlanDigest = sha384 bs ∧ t.plan = some pl ∧ t.admitting = none ∧ t.step.running = false := by
  intro t
  obtain ⟨g, m, h⟩ := s.admitPlan_eq bs pl
  obtain ⟨h1, h2, h3, h4⟩ := s.planShown_spec bs pl
  have ht : t = _ := h
  clear_value t
  subst ht
  generalize s.planShown bs pl = u at h1 h2 h3 h4
  have hr : SameObj u ((u.setObj oFaultReplays 0).setObj oOverflowReplays 0) [oFaultReplays, oOverflowReplays] :=
    ((SameObj.refl u _).setObj (k := oFaultReplays) _ (by decide)).setObj (k := oOverflowReplays) _ (by decide)
  have r1 : ((u.setObj oFaultReplays 0).setObj oOverflowReplays 0).obj oFaultReplays = 0 := by
    rw [State.obj_setObj_ne _ _ (by decide), State.obj_setObj_self]
  have r2 : ((u.setObj oFaultReplays 0).setObj oOverflowReplays 0).obj oOverflowReplays = 0 := State.obj_setObj_self ..
  have r3 : ((u.setObj oFaultReplays 0).setObj oOverflowReplays 0).blobs = u.blobs := by
    rw [State.setObj_blobs, State.setObj_blobs]
  generalize (u.setObj oFaultReplays 0).setObj oOverflowReplays 0 = v at hr r1 r2 r3
  refine ⟨fun k hk => ?_, (hr _ (by decide)).trans h2, (hr _ (by decide)).trans h3, r1, r2,
    (State.blob_congr oPlanDigest r3).trans h4, rfl, rfl, rfl⟩
  simp only [List.mem_append, List.mem_cons, not_or] at hk
  obtain ⟨⟨k1, k2, k3, k4, k5, -⟩, k6⟩ := hk
  refine (hr k ?_).trans (h1 k ?_)
  · simp only [List.mem_cons, not_or]
    exact ⟨k4, k5, List.not_mem_nil⟩
  · simp only [List.mem_append, List.mem_cons, not_or]
    exact ⟨⟨k1, k2, k3, List.not_mem_nil⟩, k6⟩

theorem exec_admissionResult_admitted {s : State} {a : Admitting} (h : s.admitting = some a)
    (hf : s.quiet.planFault (s.blob oPlanBlob) (parsePlan (s.blob oPlanBlob)) a = none) :
    exec .admissionResult s = .next (((s.quiet.setPlanResult (faultOnly 0)).admitPlan (s.blob oPlanBlob)
      (parsePlan (s.blob oPlanBlob))).cmdDone oAdmit) := by
  show execAdmissionResult s = _
  unfold execAdmissionResult
  simp only [show s.quiet.admitting = some a from h, show s.quiet.blob oPlanBlob = s.blob oPlanBlob from rfl, hf]

theorem exec_admissionResult_refused {s : State} {a : Admitting} {f : PlanFault} (h : s.admitting = some a)
    (hf : s.quiet.planFault (s.blob oPlanBlob) (parsePlan (s.blob oPlanBlob)) a = some f) :
    exec .admissionResult s = .next (((({ s.quiet with plan := none, admitting := none } : State).setPlanResult f).setObj
      oPlanState 1).cmdFail oAdmit f.reason) := by
  show execAdmissionResult s = _
  unfold execAdmissionResult
  simp only [show s.quiet.admitting = some a from h, show s.quiet.blob oPlanBlob = s.blob oPlanBlob from rfl, hf]

/-- An admission that ends with the plan admitted. -/
theorem admissionResult_admitted {s : State} {a : Admitting} (h : s.admitting = some a)
    (hf : s.quiet.planFault (s.blob oPlanBlob) (parsePlan (s.blob oPlanBlob)) a = none) :
    Gives .admissionResult s (fun t => t.obj oPlanState = 3 ∧ t.obj oAdmit = 0x20000 ∧
      t.plan = some (parsePlan (s.blob oPlanBlob)) ∧ t.admitting = none ∧ t.obj oReason = 0 ∧
      t.obj oPlanId = (parsePlan (s.blob oPlanBlob)).id ∧ t.blob oPlanDigest = sha384 (s.blob oPlanBlob) ∧
      t.obj oFaultReplays = 0 ∧ t.obj oOverflowReplays = 0 ∧ t.step.running = false) := by
  refine ⟨_, exec_admissionResult_admitted h hf, ?_⟩
  obtain ⟨-, -, hr, -⟩ := s.quiet.setPlanResult_spec (faultOnly 0)
  generalize s.quiet.setPlanResult (faultOnly 0) = u at hr
  obtain ⟨p1, p2, p3, p4, p5, p6, p7, p8, p9⟩ := u.admitPlan_spec (s.blob oPlanBlob) (parsePlan (s.blob oPlanBlob))
  generalize u.admitPlan (s.blob oPlanBlob) (parsePlan (s.blob oPlanBlob)) = v at p1 p2 p3 p4 p5 p6 p7 p8 p9
  have hd := v.cmdDone_sameObj oAdmit
  have hl := v.cmdDone_logs oAdmit
  exact ⟨(hd _ (by decide)).trans p2, v.cmdDone_obj _ (by decide), hl.plan.trans p7, hl.admitting.trans p8,
    (hd _ (by decide)).trans ((p1 _ (by decide +kernel)).trans hr), (hd _ (by decide)).trans p3,
    (State.blob_congr _ hl.blobs).trans p6, (hd _ (by decide)).trans p4, (hd _ (by decide)).trans p5,
    (congrArg StepSt.running hl.step).trans p9⟩

/-- An admission that ends at its first failing check. -/
theorem admissionResult_refused {s : State} {a : Admitting} {f : PlanFault} (h : s.admitting = some a)
    (hf : s.quiet.planFault (s.blob oPlanBlob) (parsePlan (s.blob oPlanBlob)) a = some f) :
    Gives .admissionResult s (fun t => t.obj oPlanState = 1 ∧ t.obj oAdmit = 0x30000 + f.reason % 2 ^ 16 ∧
      t.plan = none ∧ t.admitting = none ∧ t.obj oReason = f.reason ∧ t.obj oStepBeat = f.stepBeat ∧
      t.obj oProgram = f.program ∧ t.obj oResource = f.resource ∧ t.obj oExcessNs = f.excess ∧
      t.obj oDetail = f.detail ∧ t.blobs = s.blobs ∧
      SameObj s t ([oPlanState, oAdmit, oReason, oStepBeat, oProgram, oResource, oExcessNs, oDetail] ++ eventKeys)) := by
  refine ⟨_, exec_admissionResult_refused h hf, ?_⟩
  have hs : SameObj s ({ s.quiet with plan := none, admitting := none } : State) [] := fun _ _ => rfl
  obtain ⟨q1, ho, q3, q4, q5, q6, q7, q8⟩ := ({ s.quiet with plan := none, admitting := none } : State).setPlanResult_spec f
  have e : (({ s.quiet with plan := none, admitting := none } : State).setPlanResult f).plan = none ∧
      (({ s.quiet with plan := none, admitting := none } : State).setPlanResult f).admitting = none ∧
      (({ s.quiet with plan := none, admitting := none } : State).setPlanResult f).blobs = s.blobs := by
    obtain ⟨_, e⟩ := ho
    rw [e]
    exact ⟨rfl, rfl, rfl⟩
  have h1 : SameObj s (({ s.quiet with plan := none, admitting := none } : State).setPlanResult f) planResultKeys :=
    SameObj.trans (hs.mono (by decide)) q1
  generalize ({ s.quiet with plan := none, admitting := none } : State).setPlanResult f = u at q3 q4 q5 q6 q7 q8 h1 e
  have h2 : SameObj u (u.setObj oPlanState 1) [oPlanState] := (SameObj.refl u _).setObj _ (by decide)
  have hp := u.obj_setObj_self oPlanState 1
  have hu : (u.setObj oPlanState 1).plan = u.plan ∧ (u.setObj oPlanState 1).admitting = u.admitting ∧
      (u.setObj oPlanState 1).blobs = u.blobs :=
    ⟨State.setObj_plan .., State.setObj_admitting .., State.setObj_blobs ..⟩
  generalize u.setObj oPlanState 1 = v at h2 hp hu
  have hd := v.cmdFail_sameObj oAdmit f.reason
  have hl := v.cmdFail_logs oAdmit f.reason
  refine ⟨(hd _ (by decide)).trans hp, v.cmdFail_obj _ _ (by decide), hl.plan.trans (hu.1.trans e.1),
    hl.admitting.trans (hu.2.1.trans e.2.1), (hd _ (by decide)).trans ((h2 _ (by decide)).trans q3),
    (hd _ (by decide)).trans ((h2 _ (by decide)).trans q4), (hd _ (by decide)).trans ((h2 _ (by decide)).trans q5),
    (hd _ (by decide)).trans ((h2 _ (by decide)).trans q6), (hd _ (by decide)).trans ((h2 _ (by decide)).trans q7),
    (hd _ (by decide)).trans ((h2 _ (by decide)).trans q8), hl.blobs.trans (hu.2.2.trans e.2.2), ?_⟩
  exact (SameObj.mono h1 (by decide)).trans ((SameObj.mono h2 (by decide)).trans (SameObj.mono hd (by decide)))

/-! ### Actions that end later -/

theorem exec_regionDigestDone {s : State} {b n d : Nat} (h : s.digesting = some (b, n, d)) :
    let l := State.readPhys { s.quiet.advanceTo d with digesting := none } .ring b n
    exec .regionDigestDone s = .next ((l.1.setObj oRegionDigest (regionDigest l.2)).cmdDone oDigestRegion) := by
  show execRegionDigestDone s = _
  unfold execRegionDigestDone
  simp only [show s.quiet.digesting = some (b, n, d) from h]

/-- A memory without errors and marks reads as it stands. -/
theorem State.readPhys_clean {s : State} (he : s.mem.errors = []) (hp : s.mem.poison = []) (ag : Agent) (b n : Nat) :
    s.readPhys ag b n = (s, memRead s.mem.bytes b n) := by
  have h : ∀ va line, s.meetLine (some ag) va line = s := by
    intro va line
    unfold State.meetLine
    extract_lets e w
    have hm : ¬s.marked line = true := by
      rw [State.marked, hp]
      exact Bool.false_ne_true
    have h0 : e = 0 := by
      unfold e
      rw [he]
      rfl
    rw [if_neg hm, if_pos h0]
  unfold State.readPhys
  extract_lets t
  have ht : t = s := List.foldlRecOn _ _ (motive := fun t : State => t = s) rfl (fun t ht p _ => by rw [ht]; exact h ..)
  rw [ht]

theorem State.regionDigested_spec (u : State) (v : Nat) :
    let t := (u.setObj oRegionDigest v).cmdDone oDigestRegion
    t.obj oRegionDigest = v ∧ t.obj oDigestRegion = 0x20000 ∧ t.now = u.now ∧ t.digesting = u.digesting ∧
    SameObj u t ([oRegionDigest, oDigestRegion] ++ eventKeys) := by
  intro t
  have hd := (u.setObj oRegionDigest v).cmdDone_sameObj oDigestRegion
  have hl := (u.setObj oRegionDigest v).cmdDone_logs oDigestRegion
  have h1 : SameObj u (u.setObj oRegionDigest v) [oRegionDigest] := (SameObj.refl u _).setObj _ (by decide)
  exact ⟨(hd _ (by decide)).trans (State.obj_setObj_self ..), State.cmdDone_obj _ _ (by decide), hl.now, hl.digesting,
    (SameObj.mono h1 (by decide)).trans (SameObj.mono hd (by decide))⟩

theorem MemWork.digesting {s t : State} (h : MemWork s t) : t.digesting = s.digesting := by
  obtain ⟨_, _, _, _, _, _, _, _, _, e⟩ := h.shape
  rw [e]
  rfl

/-- The digest of a region at its time. -/
theorem regionDigestDone_gives {b n d : Nat} {s : State} (h : s.digesting = some (b, n, d)) :
    let v : State := { s.quiet.advanceTo d with digesting := none }
    Gives .regionDigestDone s (fun t => t.obj oRegionDigest = regionDigest (v.readPhys .ring b n).2 ∧
      t.obj oDigestRegion = 0x20000 ∧ d ≤ t.now ∧ t.digesting = none ∧
      (s.mem.errors = [] → s.mem.poison = [] → t.obj oRegionDigest = regionDigest (memRead s.mem.bytes b n) ∧
        SameObj s t ([oRegionDigest, oDigestRegion] ++ eventKeys))) := by
  intro v
  have hx : exec .regionDigestDone s = .next (((v.readPhys .ring b n).1.setObj oRegionDigest
    (regionDigest (v.readPhys .ring b n).2)).cmdDone oDigestRegion) := exec_regionDigestDone h
  have hn : d ≤ v.now := s.quiet.advanceTo_le d
  have hg : v.digesting = none := rfl
  have hv : SameObj s v [] := fun k _ => s.quiet.advanceTo_obj d k
  have hm : v.mem = s.mem := (s.quiet.advanceTo_frame d).2.2
  clear_value v
  refine ⟨_, hx, ?_⟩
  have hw := v.readPhys_memWork .ring b n
  have hc := fun he hp => v.readPhys_clean (by rw [hm]; exact he) (by rw [hm]; exact hp) .ring b n
  generalize v.readPhys .ring b n = l at hw hc
  obtain ⟨d1, d2, d3, d4, d5⟩ := l.1.regionDigested_spec (regionDigest l.2)
  refine ⟨d1, d2, by rw [d3, hw.now]; exact hn, by rw [d4, hw.digesting]; exact hg, fun he hp => ?_⟩
  have hl := hc he hp
  rw [d1]
  rw [hl] at d5
  rw [hl]
  exact ⟨by rw [hm], (SameObj.mono hv (by decide)).trans d5⟩

theorem exec_steProgramDone {s : State} (h : s.cmdRunning oSteStart = true) (output : Bytes) :
    exec (.steProgramDone output) s = .next ((s.quiet.setBlob oSteOutput output).cmdDone oSteStart) := by
  show execSteProgramDone output s = _
  exact if_pos h

theorem steProgramDone_gives {s : State} (h : s.cmdRunning oSteStart = true) (output : Bytes) :
    Gives (.steProgramDone output) s (fun t => t.blob oSteOutput = output ∧ t.obj oSteStart = 0x20000 ∧
      SameObj s t (oSteStart :: eventKeys)) := by
  refine ⟨_, exec_steProgramDone h output, ?_, State.cmdDone_obj _ _ (by decide),
    SameObj.trans (t := s.quiet.setBlob oSteOutput output) (fun _ _ => rfl) (State.cmdDone_sameObj _ oSteStart)⟩
  exact (State.blob_congr _ (State.cmdDone_logs _ oSteStart).blobs).trans ((State.blob_setBlob ..).trans (if_pos rfl))

/-- A snapshot whose messages are acknowledged, at the state whose flow carries its header's last write. -/
theorem exec_snapshotDone {s : State} {x : SnapSt} (h : s.step.snap = some x) (ha : s.snapAcked x = true) :
    ∃ flows router, exec .snapshotDone s = .next
      (((({ s.quiet.relog s.od s.events s.ledger s.rings s.mem flows router with step := { s.step with snap := none } } :
        State).setObj oSnapState 2).setObj oLastSnapshot (x.word true)).raise .snapshotDone) := by
  obtain ⟨f, r, e⟩ := sendMessage_shape { s.quiet with step := { s.step with snap := none } } x.flow 0x01
    (writePieces 1 x.dstRegion 0 (overwrite x.header 19 [1])) 0xFFFFFFFF 0 0
  refine ⟨f, r, ?_⟩
  show execSnapshotDone s = _
  unfold execSnapshotDone
  simp only [show s.quiet.step.snap = some x from h]
  rw [if_pos (show s.quiet.snapAcked x = true from ha)]
  refine congrArg (fun u : State => Host.Outcome.next (((u.setObj oSnapState 2).setObj oLastSnapshot (x.word true)).raise .snapshotDone)) ?_
  exact e

theorem snapshotDone_gives {s : State} {x : SnapSt} (h : s.step.snap = some x) (ha : s.snapAcked x = true) :
    Gives .snapshotDone s (fun t => t.step.snap = none ∧ t.obj oSnapState = 2 ∧ t.obj oLastSnapshot = x.word true ∧
      SameObj s t ([oSnapState, oLastSnapshot] ++ eventKeys)) := by
  obtain ⟨f, r, hx⟩ := exec_snapshotDone h ha
  refine ⟨_, hx, ?_⟩
  have hs : SameObj s ({ s.quiet.relog s.od s.events s.ledger s.rings s.mem f r with step := { s.step with snap := none } } :
      State) [oSnapState, oLastSnapshot] := fun _ _ => rfl
  have hn : ({ s.quiet.relog s.od s.events s.ledger s.rings s.mem f r with step := { s.step with snap := none } } :
      State).step.snap = none := rfl
  generalize ({ s.quiet.relog s.od s.events s.ledger s.rings s.mem f r with step := { s.step with snap := none } } :
      State) = u at hs hn
  have hu : SameObj s ((u.setObj oSnapState 2).setObj oLastSnapshot (x.word true)) [oSnapState, oLastSnapshot] :=
    (hs.setObj (k := oSnapState) _ (by decide)).setObj (k := oLastSnapshot) _ (by decide)
  have hl := ((u.setObj oSnapState 2).setObj oLastSnapshot (x.word true)).raise_logs .snapshotDone
  refine ⟨?_, ?_, ?_, (SameObj.mono hu (by decide)).trans (hl.sameObj.mono (by decide))⟩
  · rw [hl.step, State.setObj_step, State.setObj_step, hn]
  · rw [hl.obj _ (by decide), State.obj_setObj_ne _ _ (by decide), State.obj_setObj_self]
  · rw [hl.obj _ (by decide), State.obj_setObj_self]

/-- Settles O47. -/
theorem admissionAndActions : Obligations.AdmissionAndActions := by
  unfold Obligations.AdmissionAndActions
  refine ⟨⟨fun a s => admissionResult_admitted, fun a f s => admissionResult_refused⟩,
    fun b n d s => regionDigestDone_gives, fun output s h => steProgramDone_gives h output,
    fun x s => snapshotDone_gives, fun output s => ⟨fun h => ?_, fun h => ?_, fun h => ?_, fun h => ?_⟩⟩
  · show execAdmissionResult s = _
    unfold execAdmissionResult
    simp only [show s.quiet.admitting = none from h]
  · show execRegionDigestDone s = _
    unfold execRegionDigestDone
    simp only [show s.quiet.digesting = none from h]
  · show execSteProgramDone output s = _
    exact if_neg (fun q => Bool.false_ne_true (h.symm.trans q))
  · show execSnapshotDone s = _
    unfold execSnapshotDone
    cases hx : s.step.snap with
    | none => simp only [show s.quiet.step.snap = none from hx]
    | some x =>
      rw [hx] at h
      simp only [show s.quiet.step.snap = some x from hx]
      rw [if_neg]
      intro q
      have hq : s.snapAcked x = true := q
      rw [Option.all_some, hq] at h
      exact Bool.false_ne_true h

end Sys2Proof.Machine

namespace Sys2Proof.Machine

/-! ### SPDM requests -/

/-- An SPDM request counted and answered with `code` and `data`, `m` being the responder's state after it. -/
def SpdmAnswered (s : State) (code : Nat) (data : Bytes) (m : MctpSt) (t : State) : Prop :=
  t.out = [.spdm code data] ∧ t.obj oSpdmRequests = (s.obj oSpdmRequests + 1) % 2 ^ objBits oSpdmRequests ∧
  SameObj s t [oSpdmRequests] ∧ t.blobs = s.blobs ∧ t.mem = s.mem ∧ t.power = s.power ∧ t.mctp = m

theorem State.spdmAnswer_eq (s : State) (code : Nat) (data : Bytes) :
    s.spdmAnswer code data = (s.bump oSpdmRequests).emit (.spdm code data) := rfl

theorem State.bump_spdm (s : State) (k : Nat) :
    (s.bump k).out = s.out ∧ (s.bump k).blobs = s.blobs ∧ (s.bump k).mem = s.mem ∧ (s.bump k).power = s.power ∧
    (s.bump k).mctp = s.mctp := ⟨rfl, rfl, rfl, rfl, rfl⟩

theorem State.spdmAnswer_answered (s : State) (m : MctpSt) (code : Nat) (data : Bytes) :
    SpdmAnswered s code data m (({ s.quiet with mctp := m } : State).spdmAnswer code data) := by
  have hs : SameObj s ({ s.quiet with mctp := m } : State) [oSpdmRequests] := fun _ _ => rfl
  have hf : ({ s.quiet with mctp := m } : State).out = [] ∧ ({ s.quiet with mctp := m } : State).blobs = s.blobs ∧
      ({ s.quiet with mctp := m } : State).mem = s.mem ∧ ({ s.quiet with mctp := m } : State).power = s.power ∧
      ({ s.quiet with mctp := m } : State).mctp = m := ⟨rfl, rfl, rfl, rfl, rfl⟩
  have hc : ({ s.quiet with mctp := m } : State).obj oSpdmRequests = s.obj oSpdmRequests := rfl
  generalize ({ s.quiet with mctp := m } : State) = u at hs hf hc
  rw [State.spdmAnswer_eq]
  have hb : SameObj u (u.bump oSpdmRequests) [oSpdmRequests] := (SameObj.refl u _).setObj _ (List.mem_singleton.mpr rfl)
  have hv := u.bump_obj_self oSpdmRequests
  obtain ⟨b1, b2, b3, b4, b5⟩ := u.bump_spdm oSpdmRequests
  generalize u.bump oSpdmRequests = v at hb hv b1 b2 b3 b4 b5
  obtain ⟨f1, f2, f3, f4, f5⟩ := hf
  refine ⟨?_, hv.trans (by rw [hc]), SameObj.trans hs hb, b2.trans f2, b3.trans f3, b4.trans f4, b5.trans f5⟩
  rw [State.emit, b1, f1]
  rfl

theorem State.spdmServed_of_image {s : State} (h : s.power.boot = .image) : s.quiet.spdmServed = true := by
  rw [State.spdmServed, show s.quiet.power.boot = .image from h]
  rfl

theorem State.spdmServed_of_other {s : State} (h : s.power.boot ≠ .image) : ¬s.quiet.spdmServed = true := fun q => h (eq_of_beq q)

/-- What each SPDM request does where an image runs. -/
theorem exec_spdm {s : State} (h : s.power.boot = .image) :
    exec .getVersion s = .next s.quiet.spdmVersion ∧ exec .getCapabilities s = .next s.quiet.spdmCapabilities ∧
    (∀ a b, exec (.negotiateAlgorithms a b) s = .next (s.quiet.spdmAlgorithms a.toNat b.toNat)) ∧
    exec .getDigests s = .next s.quiet.spdmDigests ∧
    (∀ o l, exec (.getCertificate o l) s = .next (s.quiet.spdmCertificate o.toNat l.toNat)) ∧
    (∀ n, exec (.challenge n) s = .next (s.quiet.spdmChallenge n)) ∧
    ∀ i n, exec (.getMeasurements i n) s = .next (s.quiet.spdmMeasurements i.toNat n) := by
  have hi := State.spdmServed_of_image h
  exact ⟨if_pos hi, if_pos hi, fun _ _ => if_pos hi, if_pos hi, fun _ _ => if_pos hi, fun _ => if_pos hi,
    fun _ _ => if_pos hi⟩

/-- A request that the responder's state does not allow. -/
theorem spdm_unexpected {s : State} (h : s.power.boot = .image) (hn : s.mctp.spdmNegotiated = false) (o l : W16)
    (n : BitVec 256) (i : Byte) :
    ∀ c ∈ [Instr.getDigests, .getCertificate o l, .challenge n, .getMeasurements i n],
      exec c s = .next (s.quiet.spdmFail 0x04) := by
  obtain ⟨-, -, -, e4, e5, e6, e7⟩ := exec_spdm h
  have hq : s.quiet.mctp.spdmNegotiated = false := hn
  intro c hc
  simp only [List.mem_cons, List.not_mem_nil, or_false] at hc
  rcases hc with rfl | rfl | rfl | rfl
  · exact e4.trans (congrArg Host.Outcome.next (if_pos hq))
  · exact (e5 o l).trans (congrArg Host.Outcome.next (if_pos hq))
  · exact (e6 n).trans (congrArg Host.Outcome.next (if_pos hq))
  · exact (e7 i n).trans (congrArg Host.Outcome.next (if_pos hq))

theorem State.spdmSigned_key {s : State} {key : Nat} (hn : s.mctp.spdmNegotiated = true) (hk : s.power.identity = some key)
    (code : Nat) (n : BitVec 256) (bs : Bytes) :
    s.spdmSigned code n bs = ({ s with mctp := { s.mctp with nonces := s.mctp.nonces + 1 } } : State).spdmAnswer code
      (s.signedData key (bs ++ (natLe 32 (Config.spdmNonce s.mctp.nonces).toNat ++ natLe 32 n.toNat))) := by
  rw [State.spdmSigned, if_neg (by rw [hn]; exact Bool.noConfusion), hk, ← List.append_assoc]

theorem State.spdmSigned_none {s : State} (hn : s.mctp.spdmNegotiated = true) (hk : s.power.identity = none)
    (code : Nat) (n : BitVec 256) (bs : Bytes) : s.spdmSigned code n bs = s.spdmFail 0x05 := by
  rw [State.spdmSigned, if_neg (by rw [hn]; exact Bool.noConfusion), hk]

/-- The error that a request out of its order gives. -/
theorem State.spdmFail_answered (s : State) (code : Nat) :
    SpdmAnswered s 0x7F (natLe 1 code) s.mctp (s.quiet.spdmFail code) := State.spdmAnswer_answered s s.mctp 0x7F (natLe 1 code)

/-! ### MCTP control and packets -/

theorem natLe_byte (b : Byte) : natLe 1 b.toNat = [b] := by
  rw [natLe, natLe, BitVec.ofNat_toNat, BitVec.setWidth_eq]

theorem exec_control {s : State} (h : s.controlServed = true) :
    (∀ eid, exec (.setEndpointId eid) s = .next (s.quiet.setEid eid.toNat)) ∧
    exec .getEndpointId s = .next s.quiet.getEid ∧ exec .getMctpVersionSupport s = .next s.quiet.mctpVersions ∧
    exec .getMessageTypeSupport s = .next s.quiet.mctpTypes ∧
    ∀ a, exec (.dynamicAddressAssignment a) s = .next (s.quiet.setObj oI3cDynamicAddr a.toNat) := by
  have hi : s.quiet.controlServed = true := h
  exact ⟨fun _ => if_pos hi, if_pos hi, if_pos hi, if_pos hi, fun _ => if_pos hi⟩

theorem exec_mctpPacket {s : State} (h : s.controlServed = true) (b : Bytes) :
    exec (.mctpPacket b) s = .next (if s.mctpFits b then
      s.quiet.assemble (fieldLe b 2 1) (fieldLe b 3 1) (b.drop 4).dropLast else s.quiet) := by
  show execMctpPacket b s = _
  unfold execMctpPacket
  simp only [show s.quiet.controlServed = true from h, show s.quiet.mctpFits b = s.mctpFits b from rfl, Bool.true_and]
  split <;> rfl

/-- The message held once a packet is in, where it opens one or goes on with the one held (R49). -/
def State.heldWith (s : State) (src flags : Nat) (payload : Bytes) : Option Bytes :=
  if bit flags 7 then some payload else match s.mctp.assembling with
    | some (a, g, n, bs) => if a = src ∧ g = flags % 16 ∧ n = bits flags 4 2 then some (bs ++ payload) else none
    | none => none

theorem State.assemble_of_held (s : State) (src flags : Nat) (payload : Bytes) :
    s.assemble src flags payload = match s.heldWith src flags payload with
      | none => s.setAssembling none
      | some bs =>
        if bit flags 6 then ((s.setAssembling none).mctpMessage bs).sendPackets src flags (fieldLe bs 1 1)
        else s.setAssembling (some (src, flags % 16, (bits flags 4 2 + 1) % 4, bs)) := rfl

/-- A packet that fits, while the management complex serves. -/
theorem mctpPacket_gives {s : State} (h : s.controlServed = true) (b : Bytes) (hf : s.mctpFits b = true) :
    let src := fieldLe b 2 1
    let flags := fieldLe b 3 1
    let held := s.heldWith src flags (b.drop 4).dropLast
    (held = none → Gives (.mctpPacket b) s (fun t => t.od = s.od ∧ t.mem = s.mem ∧ t.out = [] ∧
      t.mctp.assembling = none)) ∧
    (∀ bs, held = some bs → bit flags 6 = false → Gives (.mctpPacket b) s (fun t => t.od = s.od ∧ t.mem = s.mem ∧
      t.out = [] ∧ t.mctp.assembling = some (src, flags % 16, (bits flags 4 2 + 1) % 4, bs))) ∧
    (∀ bs, held = some bs → bit flags 6 = true → exec (.mctpPacket b) s =
      .next (((s.quiet.setAssembling none).mctpMessage bs).sendPackets src flags (fieldLe bs 1 1))) := by
  intro src flags held
  have hx := exec_mctpPacket h b
  rw [if_pos hf, State.assemble_of_held] at hx
  have hh : s.quiet.heldWith (fieldLe b 2 1) (fieldLe b 3 1) (b.drop 4).dropLast = held := rfl
  rw [hh] at hx
  refine ⟨fun hn => ?_, fun bs hb h6 => ?_, fun bs hb h6 => ?_⟩
  · rw [hn] at hx
    exact ⟨_, hx, rfl, rfl, rfl, rfl⟩
  · rw [hb] at hx
    exact ⟨_, hx.trans (congrArg Host.Outcome.next (if_neg (by rw [h6]; exact Bool.false_ne_true))), rfl, rfl, rfl, rfl⟩
  · rw [hb] at hx
    exact hx.trans (congrArg Host.Outcome.next (if_pos h6))

/-- MCTP control requests while the management complex serves. -/
theorem mctpControl_gives {s : State} (h : s.controlServed = true) :
    (∀ eid : Byte, eid.toNat ≠ 0 → eid.toNat ≠ 0xFF → Gives (.setEndpointId eid) s (fun t =>
      t.obj oMctpEid = eid.toNat ∧ SameObj s t [oMctpEid] ∧ t.out = [.control 1 [0, eid]] ∧ t.mem = s.mem)) ∧
    (∀ eid : Byte, eid.toNat = 0 ∨ eid.toNat = 0xFF → Gives (.setEndpointId eid) s (fun t =>
      t.od = s.od ∧ t.out = [.control 1 [2]])) ∧
    exec .getEndpointId s = .next (s.quiet.emit (.control 2 (natLe 1 (s.obj oMctpEid)))) ∧
    exec .getMctpVersionSupport s = .next (s.quiet.emit (.control 4 [1])) ∧
    exec .getMessageTypeSupport s = .next (s.quiet.emit (.control 5 [0, 5, 0x7F])) ∧
    (∀ a : BitVec 7, Gives (.dynamicAddressAssignment a) s (fun t => t.obj oI3cDynamicAddr = a.toNat ∧
      SameObj s t [oI3cDynamicAddr] ∧ t.out = [] ∧ t.mem = s.mem)) := by
  obtain ⟨e1, e2, e3, e4, e5⟩ := exec_control h
  refine ⟨fun eid h0 hff => ⟨_, e1 eid, ?_⟩, fun eid he => ⟨_, e1 eid, ?_⟩, e2, e3, e4, fun a => ⟨_, e5 a, ?_⟩⟩
  · rw [State.setEid, if_neg (not_or.mpr ⟨h0, hff⟩), natLe_byte]
    exact ⟨State.obj_setObj_self .., SameObj.setObj (t := s.quiet) (fun _ _ => rfl) _ (List.mem_singleton.mpr rfl), rfl, rfl⟩
  · rw [State.setEid, if_pos he]
    exact ⟨rfl, rfl⟩
  · exact ⟨State.obj_setObj_self .., SameObj.setObj (t := s.quiet) (fun _ _ => rfl) _ (List.mem_singleton.mpr rfl), rfl, rfl⟩

/-- Without the management complex no MCTP request has an effect. -/
theorem mctp_not_served {s : State} (h : s.controlServed = false) (eid : Byte) (a : BitVec 7) (b : Bytes) :
    ∀ c ∈ [Instr.setEndpointId eid, .getEndpointId, .getMctpVersionSupport, .getMessageTypeSupport,
      .dynamicAddressAssignment a, .mctpPacket b], exec c s = .next s.quiet := by
  have hi : ¬s.quiet.controlServed = true := fun q => Bool.false_ne_true (h.symm.trans q)
  intro c hc
  simp only [List.mem_cons, List.not_mem_nil, or_false] at hc
  rcases hc with rfl | rfl | rfl | rfl | rfl | rfl
  · exact if_neg hi
  · exact if_neg hi
  · exact if_neg hi
  · exact if_neg hi
  · exact if_neg hi
  · exact if_neg (fun q => hi (Bool.and_eq_true_iff.mp q).1)

/-- Without an image no SPDM request has an effect. -/
theorem spdm_not_served {s : State} (h : s.power.boot ≠ .image) (a b : W32) (o l : W16) (n : BitVec 256) (i : Byte) :
    ∀ c ∈ [Instr.getVersion, .getCapabilities, .negotiateAlgorithms a b, .getDigests, .getCertificate o l, .challenge n,
      .getMeasurements i n], exec c s = .next s.quiet := by
  have hi := State.spdmServed_of_other h
  intro c hc
  simp only [List.mem_cons, List.not_mem_nil, or_false] at hc
  rcases hc with rfl | rfl | rfl | rfl | rfl | rfl | rfl
  all_goals exact if_neg hi

/-- Settles O49. -/
theorem mctpAndSpdm : Obligations.MctpAndSpdm := by
  unfold Obligations.MctpAndSpdm
  refine ⟨fun s h => ?_, fun s h eid a b => mctp_not_served h eid a b, ?_,
    fun s a b o l n i h => spdm_not_served h a b o l n i⟩
  · obtain ⟨c1, c2, c3, c4, c5, c6⟩ := mctpControl_gives h
    refine ⟨c1, c2, c3, c4, c5, c6, fun b hf => ?_, fun b hf => mctpPacket_gives h b hf⟩
    rw [exec_mctpPacket h, if_neg (by rw [hf]; exact Bool.false_ne_true)]
  · intro s h answers
    obtain ⟨e1, e2, e3, e4, e5, e6, e7⟩ := exec_spdm h
    have give : ∀ {c code data m}, exec c s = .next (({ s.quiet with mctp := m } : State).spdmAnswer code data) →
        answers c code data m := fun hx => ⟨_, hx, s.spdmAnswer_answered ..⟩
    have fail : ∀ {c} code, exec c s = .next (s.quiet.spdmFail code) → answers c 0x7F (natLe 1 code) s.mctp :=
      fun code hx => ⟨_, hx, s.spdmFail_answered code⟩
    refine ⟨give e1, fun hv => give (e2.trans (congrArg Host.Outcome.next (if_pos hv))), fun hv => ?_,
      fun a b hc => give ((e3 a b).trans (congrArg Host.Outcome.next (if_pos hc))), fun a b hc => ?_,
      fun o l n i hn c hc => fail 0x04 (spdm_unexpected h hn o l n i c hc), fun hn => ?_⟩
    · exact fail 0x04 (e2.trans (congrArg Host.Outcome.next (if_neg (fun q => Bool.false_ne_true (hv.symm.trans q)))))
    · exact fail 0x04 ((e3 a b).trans (congrArg Host.Outcome.next (if_neg (fun q => Bool.false_ne_true (hc.symm.trans q)))))
    have hq : ¬s.quiet.mctp.spdmNegotiated = false := fun q => Bool.false_ne_true (q.symm.trans hn)
    refine ⟨fun hc => ?_, fun hc => ?_, fun o l => ?_, fun i n => ?_⟩
    · exact give (m := s.mctp) (e4.trans (congrArg Host.Outcome.next ((if_neg hq).trans
        (if_neg (fun q => Bool.false_ne_true (hc.symm.trans q))))))
    · exact fail 0x05 (e4.trans (congrArg Host.Outcome.next ((if_neg hq).trans (if_pos hc))))
    · exact give (m := s.mctp) ((e5 o l).trans (congrArg Host.Outcome.next (if_neg hq)))
    · intro signed nonces
      refine ⟨fun key hk => ⟨?_, ?_⟩, fun hk => ⟨?_, ?_⟩⟩
      · exact give ((e6 n).trans (congrArg Host.Outcome.next (State.spdmSigned_key (s := s.quiet) hn hk ..)))
      · exact give ((e7 i n).trans (congrArg Host.Outcome.next (State.spdmSigned_key (s := s.quiet) hn hk ..)))
      · exact fail 0x05 ((e6 n).trans (congrArg Host.Outcome.next (State.spdmSigned_none (s := s.quiet) hn hk ..)))
      · exact fail 0x05 ((e7 i n).trans (congrArg Host.Outcome.next (State.spdmSigned_none (s := s.quiet) hn hk ..)))

end Sys2Proof.Machine

namespace Sys2Proof.Machine

/-! ### Wakes -/

/-- What the start of a wake leaves (R439). -/
structure Woken (d : Nat) (s t : State) : Prop where
  dom : t.dom d = domWaking
  same : SameObj s t [oDomainState d]
  requests : t.power.requests = s.power.requests
  waking : Waking.mk d (s.now + domLatency d) ∈ t.power.waking
  now : t.now = s.now
  mem : t.mem = s.mem

theorem State.startWake_woken (s : State) (d : Nat) : Woken d s (s.startWake d) := by
  obtain ⟨p, hr, hw, h⟩ : ∃ p : PowerSt, p.requests = s.power.requests ∧ Waking.mk d (s.now + domLatency d) ∈ p.waking ∧
      s.startWake d = { s.setDom d domWaking with power := p } :=
    ⟨(s.startWake d).power, rfl, List.mem_append_right _ (List.mem_singleton.mpr rfl), rfl⟩
  rw [h]
  refine ⟨?_, ?_, hr, hw, rfl, rfl⟩
  · exact (s.dom_setDom d domWaking d).trans (if_pos rfl)
  · exact (SameObj.refl s _).setObj _ (List.mem_singleton.mpr rfl)

/-- What a delay noted leaves. -/
structure DelayNoted (s t : State) : Prop where
  same : SameObj s t ([oWakeDelayCount, oWakeDelayMaxNs] ++ eventKeys)
  power : t.power = s.power
  now : t.now = s.now

theorem State.bump_power_now (s : State) (k : Nat) : (s.bump k).power = s.power ∧ (s.bump k).now = s.now := ⟨rfl, rfl⟩

theorem State.noteDelay_noted (s : State) (delay : Nat) : DelayNoted s (s.noteDelay delay) := by
  unfold State.noteDelay
  split
  · exact ⟨SameObj.refl s _, rfl, rfl⟩
  · extract_lets t
    have h1 : SameObj s t [oWakeDelayCount, oWakeDelayMaxNs] := (SameObj.refl s _).setObj (k := oWakeDelayCount) _ (by decide)
    have h2 : t.power = s.power ∧ t.now = s.now := s.bump_power_now _
    clear_value t
    have h3 : SameObj t (t.setObj oWakeDelayMaxNs (max (t.obj oWakeDelayMaxNs) (satNat 32 delay)))
      [oWakeDelayCount, oWakeDelayMaxNs] := (SameObj.refl t _).setObj (k := oWakeDelayMaxNs) _ (by decide)
    have hl := State.raise_logs (t.setObj oWakeDelayMaxNs (max (t.obj oWakeDelayMaxNs) (satNat 32 delay))) .wakeDelayed
    exact ⟨(SameObj.mono (h1.trans h3) (by decide)).trans (hl.sameObj.mono (by decide)), hl.power.trans h2.1,
      hl.now.trans h2.2⟩

/-- The state with one request granted at the moment `n`. -/
def grantedAt (s : State) (r : WakeRequest) (n : Nat) : State :=
  let u := s.quiet.advanceTo n
  (({ u with power := { u.power with requests := u.power.requests.filter (fun x => x.domain != r.domain) } } : State).startWake
    r.domain).noteDelay (u.now - r.requestedAt)

theorem exec_wakeStart {s : State} {r : WakeRequest} (h : s.power.requests.find? (fun r => !s.heldOff r.domain) = some r) :
    exec .wakeStart s = .next (grantedAt s r (earliestWake (s.power.started ++ s.plannedWakes) r.domain s.now)) := by
  show execWakeStart s = _
  unfold execWakeStart
  simp only [show s.quiet.power.requests.find? (fun r => !s.quiet.heldOff r.domain) = some r from h]
  rfl

theorem grantedAt_spec (s : State) (r : WakeRequest) (n : Nat) (h : r.domain < 50) :
    let t := grantedAt s r n
    t.dom r.domain = domWaking ∧ n ≤ t.now ∧ (∀ x ∈ t.power.requests, x.domain ≠ r.domain) ∧
    Waking.mk r.domain (t.now + domLatency r.domain) ∈ t.power.waking ∧
    SameObj s t ([oDomainState r.domain, oWakeDelayCount, oWakeDelayMaxNs] ++ eventKeys) := by
  have hn : n ≤ (s.quiet.advanceTo n).now := s.quiet.advanceTo_le n
  have ho : SameObj s (s.quiet.advanceTo n) [] := fun k _ => s.quiet.advanceTo_obj n k
  unfold grantedAt
  generalize s.quiet.advanceTo n = u at hn ho
  dsimp only
  have hf : ∀ x ∈ u.power.requests.filter (fun x => x.domain != r.domain), x.domain ≠ r.domain := fun x hx =>
    bne_iff_ne.mp (List.mem_filter.mp hx).2
  have hw := ({ u with power := { u.power with
    requests := u.power.requests.filter (fun x => x.domain != r.domain) } } : State).startWake_woken r.domain
  generalize State.startWake _ r.domain = v at hw
  have hd := v.noteDelay_noted (u.now - r.requestedAt)
  generalize v.noteDelay _ = t at hd
  have hk : ∀ d < 50, ([oWakeDelayCount, oWakeDelayMaxNs] ++ eventKeys).contains (oDomainState d) = false := by
    decide +kernel
  have hnow : t.now = u.now := hd.now.trans hw.now
  refine ⟨?_, hnow ▸ hn, ?_, ?_, fun k hk => ?_⟩
  · refine Eq.trans (hd.same (oDomainState r.domain) ?_) hw.dom
    have := hk _ h
    simpa using this
  · rw [hd.power, hw.requests]
    exact hf
  · rw [hd.power, hnow]
    exact hw.waking
  · rw [List.cons_append, List.mem_cons, not_or] at hk
    refine (hd.same k hk.2).trans ((hw.same k (fun q => hk.1 (List.mem_singleton.mp q))).trans ?_)
    exact ho k List.not_mem_nil

/-! ### Planned wakes and gates -/

theorem State.settleIdle_spec (s : State) :
    OnlyObj s s.settleIdle ∧ SameObj s s.settleIdle [oPowerState] ∧
    (s.obj oPowerState = 1 ∨ s.obj oPowerState = 2 → ∀ d < 50, gateable d = true → s.dom d = domGated →
      s.settleIdle.obj oPowerState = 2) := by
  unfold State.settleIdle
  extract_lets st
  split
  next h =>
    refine ⟨(OnlyObj.refl s).setObj _ _, (SameObj.refl s _).setObj _ (List.mem_singleton.mpr rfl), fun _ d hd hg hs => ?_⟩
    rw [State.obj_setObj_self, if_pos]
    exact List.any_eq_true.mpr ⟨d, List.mem_range.mpr hd, by rw [hg, hs]; rfl⟩
  next h => exact ⟨OnlyObj.refl s, SameObj.refl s _, fun q => absurd q h⟩

theorem domainState_ne_power {d : Nat} (h : d < 50) : oDomainState d ≠ oPowerState := by
  simp only [oDomainState, objKey, oPowerState]
  omega

theorem State.toOffset_spec (s : State) (off : Nat) :
    (∀ k, (s.toOffset off).obj k = s.obj k) ∧ (s.toOffset off).now = s.now + (2000 + off - s.bell.off) ∧
    (s.toOffset off).mem = s.mem ∧ (s.toOffset off).power = s.power := ⟨fun _ => rfl, rfl, rfl, rfl⟩

theorem OnlyObj.now {s t : State} (h : OnlyObj s t) : t.now = s.now := by
  obtain ⟨_, rfl⟩ := h
  rfl

/-- A planned item of its kind takes place at its offset. -/
theorem exec_wakeItem {n : W16} {i : Item} {s : State} (h : s.item? n.toNat = some i) (hk : i.kind = 0x09) :
    let u := s.quiet.toOffset i.a
    exec (.wakeItem n) s = .next (if u.dom i.unit = domGated ∨ u.dom i.unit = domOff then
      (if u.heldOff i.unit then u else (u.startWake i.unit).settleIdle) else u) := by
  intro u
  show execWakeItem n s = _
  unfold execWakeItem
  simp only [show s.quiet.item? n.toNat = some i from h, if_pos hk]
  rw [apply_ite Host.Outcome.next, apply_ite Host.Outcome.next]

/-- The state with a domain gated, its wake ended and its cluster cleared. -/
def State.gatedNow (s : State) (d : Nat) : State :=
  let t := s.setDom d domGated
  let t := { t with power := { t.power with waking := t.power.waking.filter (fun w => w.domain != d) } }
  if isCluster d then t.clearCluster (if d < 8 then d else d - 4) else t

theorem exec_gateItem {n : W16} {i : Item} {s : State} (h : s.item? n.toNat = some i) (hk : i.kind = 0x0A) :
    let u := s.quiet.toOffset i.a
    exec (.gateItem n) s = .next (if u.dom i.unit = domOn ∨ u.dom i.unit = domWaking then
      (u.gatedNow i.unit).settleIdle else u) := by
  intro u
  show execGateItem n s = _
  unfold execGateItem
  simp only [show s.quiet.item? n.toNat = some i from h, if_pos hk]
  rw [apply_ite Host.Outcome.next]
  rfl

theorem State.clearCluster_spec (s : State) (c : Nat) :
    SameObj s (s.clearCluster c) [oCoreState c] ∧ (s.clearCluster c).now = s.now ∧ (s.clearCluster c).mem = s.mem := by
  unfold State.clearCluster
  extract_lets t
  split
  · exact ⟨SameObj.refl s _, rfl, rfl⟩
  · exact ⟨SameObj.setObj (t := t) (SameObj.refl s _) _ (List.mem_singleton.mpr rfl), rfl, rfl⟩

theorem State.gatedNow_spec (s : State) {d : Nat} (h : d < 50) :
    (s.gatedNow d).dom d = domGated ∧ (s.gatedNow d).now = s.now ∧ (s.gatedNow d).mem = s.mem ∧
    (s.gatedNow d).obj oPowerState = s.obj oPowerState ∧
    (isCluster d = false → SameObj s (s.gatedNow d) [oDomainState d]) := by
  obtain ⟨p, hp⟩ : ∃ p : PowerSt, s.gatedNow d = if isCluster d then
      ({ s.setDom d domGated with power := p } : State).clearCluster (if d < 8 then d else d - 4)
    else { s.setDom d domGated with power := p } := ⟨_, rfl⟩
  have h1 : ({ s.setDom d domGated with power := p } : State).dom d = domGated := (s.dom_setDom d domGated d).trans (if_pos rfl)
  have h2 : SameObj s ({ s.setDom d domGated with power := p } : State) [oDomainState d] :=
    (SameObj.refl s _).setObj _ (List.mem_singleton.mpr rfl)
  have h3 : ({ s.setDom d domGated with power := p } : State).now = s.now := rfl
  have h4 : ({ s.setDom d domGated with power := p } : State).mem = s.mem := rfl
  rw [hp]
  generalize ({ s.setDom d domGated with power := p } : State) = t at h1 h2 h3 h4
  have hpow : t.obj oPowerState = s.obj oPowerState :=
    h2 _ (fun q => domainState_ne_power h (List.mem_singleton.mp q).symm)
  split
  next hc =>
    obtain ⟨c1, c2, c3⟩ := t.clearCluster_spec (if d < 8 then d else d - 4)
    have hne : oDomainState d ≠ oCoreState (if d < 8 then d else d - 4) := by
      simp only [oDomainState, oCoreState, objKey]
      split <;> omega
    have hnp : oPowerState ≠ oCoreState (if d < 8 then d else d - 4) := by
      simp only [oPowerState, oCoreState, objKey]
      split <;> omega
    exact ⟨(c1 _ (fun q => hne (List.mem_singleton.mp q))).trans h1, c2.trans h3, c3.trans h4,
      (c1 _ (fun q => hnp (List.mem_singleton.mp q))).trans hpow, fun q => absurd (hc.symm.trans q) Bool.noConfusion⟩
  next => exact ⟨h1, h3, h4, hpow, fun _ => h2⟩

/-- The end of a wake at the moment `n`. -/
def State.wokenAt (s : State) (d n : Nat) : State :=
  let u := s.quiet.advanceTo n
  ({ u with power := { u.power with waking := u.power.waking.filter (fun x => x.domain != d) } } : State).setDom d domOn

theorem exec_domainWakeDone {d : Domain} {s : State} {w : Waking}
    (h : s.power.waking.find? (fun w => w.domain == d.val) = some w) :
    exec (.domainWakeDone d) s = .next (s.wokenAt d.val w.usableAt) := by
  show execDomainWakeDone d s = _
  unfold execDomainWakeDone
  simp only [show s.quiet.power.waking.find? (fun w => w.domain == d.val) = some w from h]
  rfl

theorem State.wokenAt_spec (s : State) (d n : Nat) :
    (s.wokenAt d n).dom d = domOn ∧ n ≤ (s.wokenAt d n).now ∧ (∀ x ∈ (s.wokenAt d n).power.waking, x.domain ≠ d) ∧
    SameObj s (s.wokenAt d n) [oDomainState d] ∧ (s.wokenAt d n).mem = s.mem := by
  have hn : n ≤ (s.quiet.advanceTo n).now := s.quiet.advanceTo_le n
  have ho : SameObj s (s.quiet.advanceTo n) [oDomainState d] := fun k _ => s.quiet.advanceTo_obj n k
  have hm : (s.quiet.advanceTo n).mem = s.mem := (s.quiet.advanceTo_frame n).2.2
  unfold State.wokenAt
  generalize s.quiet.advanceTo n = u at hn ho hm
  refine ⟨(State.dom_setDom _ d domOn d).trans (if_pos rfl), hn, fun x hx => bne_iff_ne.mp (List.mem_filter.mp hx).2,
    SameObj.setObj (t := { u with power := { u.power with waking := u.power.waking.filter (fun x => x.domain != d) } }) ho _
      (List.mem_singleton.mpr rfl), hm⟩

/-- Settles O52. -/
theorem domainWakes : Obligations.DomainWakes := by
  unfold Obligations.DomainWakes
  refine ⟨fun s => ⟨fun r hr hd => ⟨_, exec_wakeStart hr, grantedAt_spec s r _ hd⟩, fun h => ?_⟩, ?_, ?_, fun n s h => ?_,
    fun n s h => ?_, fun d s => ⟨fun w hw => ⟨_, exec_domainWakeDone hw, s.wokenAt_spec d.val w.usableAt⟩, fun h => ?_⟩⟩
  · show execWakeStart s = _
    unfold execWakeStart
    simp only [show s.quiet.power.requests.find? (fun r => !s.quiet.heldOff r.domain) = none from h]
  · intro n i s hi hk hu gone
    have hx := exec_wakeItem hi hk
    obtain ⟨o1, o2, o3, o4⟩ := s.quiet.toOffset_spec i.a
    have hdom : (s.quiet.toOffset i.a).dom i.unit = s.dom i.unit := o1 _
    have hheld : (s.quiet.toOffset i.a).heldOff i.unit = s.heldOff i.unit := by rw [State.heldOff, o4]; rfl
    dsimp only at hx
    rw [hdom, hheld] at hx
    have hs : SameObj s (s.quiet.toOffset i.a) [oDomainState i.unit] := fun k _ => o1 k
    generalize s.quiet.toOffset i.a = u at o2 o3 hx hs
    refine ⟨fun hg hh => ?_, fun hn => ?_⟩
    · rw [if_pos hg, if_neg (by rw [hh]; exact Bool.false_ne_true)] at hx
      refine ⟨_, hx, ?_⟩
      have hw := u.startWake_woken i.unit
      generalize u.startWake i.unit = v at hw
      obtain ⟨i1, i2, -⟩ := v.settleIdle_spec
      refine ⟨(i2 _ (fun q => domainState_ne_power hu (List.mem_singleton.mp q))).trans hw.dom,
        i1.now.trans (hw.now.trans o2), ?_, i1.mem.trans (hw.mem.trans o3)⟩
      exact ((hs.trans hw.same).mono (by simp)).trans (i2.mono (by simp))
    · rw [hx]
      rcases hn with hn | hn
      · rw [if_neg hn]
      · rw [if_pos hn, ite_self]
  · intro n i s hi hk hu up
    have hx := exec_gateItem hi hk
    obtain ⟨o1, o2, o3, -⟩ := s.quiet.toOffset_spec i.a
    have hdom : (s.quiet.toOffset i.a).dom i.unit = s.dom i.unit := o1 _
    dsimp only at hx
    rw [hdom] at hx
    have hs : SameObj s (s.quiet.toOffset i.a) [oDomainState i.unit] := fun k _ => o1 k
    have hp : (s.quiet.toOffset i.a).obj oPowerState = s.obj oPowerState := o1 _
    generalize s.quiet.toOffset i.a = u at o2 o3 hx hs hp
    refine ⟨fun hg => ?_, fun hn => by rw [hx, if_neg hn]⟩
    rw [if_pos hg] at hx
    refine ⟨_, hx, ?_⟩
    obtain ⟨g1, g2, g3, g4, g5⟩ := u.gatedNow_spec hu
    generalize u.gatedNow i.unit = v at g1 g2 g3 g4 g5
    obtain ⟨i1, i2, i3⟩ := v.settleIdle_spec
    refine ⟨(i2 _ (fun q => domainState_ne_power hu (List.mem_singleton.mp q))).trans g1, i1.now.trans (g2.trans o2),
      fun hgate hst => i3 (by rw [g4, hp]; exact hst) i.unit hu hgate g1, fun hc => ?_, i1.mem.trans (g3.trans o3)⟩
    exact ((hs.trans (g5 hc)).mono (by simp)).trans (i2.mono (by simp))
  · show execWakeItem n s = _
    unfold execWakeItem
    cases hi : s.item? n.toNat with
    | none => simp only [show s.quiet.item? n.toNat = none from hi]
    | some i =>
      rw [hi] at h
      simp only [show s.quiet.item? n.toNat = some i from hi]
      rw [if_neg (bne_iff_ne.mp h)]
  · show execGateItem n s = _
    unfold execGateItem
    cases hi : s.item? n.toNat with
    | none => simp only [show s.quiet.item? n.toNat = none from hi]
    | some i =>
      rw [hi] at h
      simp only [show s.quiet.item? n.toNat = some i from hi]
      rw [if_neg (bne_iff_ne.mp h)]
  · show execDomainWakeDone d s = _
    unfold execDomainWakeDone
    simp only [show s.quiet.power.waking.find? (fun w => w.domain == d.val) = none from h]

end Sys2Proof.Machine

namespace Sys2Proof.Machine

/-! ### A flowed packet that is a whole message -/

/-- `t` is `s` but for its flows and its router. -/
def FlowWork (s t : State) : Prop := ∃ flows router, t = { s with flows := flows, router := router }

theorem FlowWork.refl (s : State) : FlowWork s s := ⟨_, _, rfl⟩

theorem FlowWork.trans {s t u : State} (h : FlowWork s t) (k : FlowWork t u) : FlowWork s u := by
  obtain ⟨a, b, rfl⟩ := h
  obtain ⟨c, d, rfl⟩ := k
  exact ⟨c, d, rfl⟩

theorem FlowWork.setFlow (s : State) (n : Nat) (f : FlowSt) : FlowWork s (s.setFlow n f) := ⟨_, _, rfl⟩

theorem State.sendAck_flowWork (s : State) (n : Nat) : FlowWork s (s.sendAck n) := ⟨_, _, rfl⟩

theorem State.sendAck_flow (s : State) (n : Nat) :
    (s.sendAck n).flow n = { s.flow n with sinceAck := 0, ackDue := none } := (s.flow_setFlow n _ n).trans (if_pos rfl)

section
variable {s t : State} (h : FlowWork s t)
include h
theorem FlowWork.od : t.od = s.od := by obtain ⟨_, _, rfl⟩ := h; rfl
theorem FlowWork.obj (k : Nat) : t.obj k = s.obj k := by obtain ⟨_, _, rfl⟩ := h; rfl
theorem FlowWork.mem : t.mem = s.mem := by obtain ⟨_, _, rfl⟩ := h; rfl
theorem FlowWork.rings : t.rings = s.rings := by obtain ⟨_, _, rfl⟩ := h; rfl
theorem FlowWork.contribs : t.contribs = s.contribs := by obtain ⟨_, _, rfl⟩ := h; rfl
theorem FlowWork.same (ks : List Nat) : SameObj s t ks := fun k _ => h.obj k
end

theorem State.ackSixteen_spec (s : State) (n : Nat) :
    FlowWork s (s.ackSixteen n) ∧ RxSame (s.flow n) ((s.ackSixteen n).flow n) := by
  unfold State.ackSixteen
  split
  · refine ⟨s.sendAck_flowWork n, ?_⟩
    rw [s.sendAck_flow]
    exact ⟨rfl, rfl, rfl, rfl, rfl⟩
  · exact ⟨FlowWork.refl s, RxSame.refl _⟩

/-- A message complete in its order (R354). -/
theorem State.completeMsg_next {s : State} {n id : Nat} (status : Nat) (ha : (s.flow n).doneAhead = [])
    (hn : ((s.flow n).doneMsg + 1) % 2 ^ 32 = id) :
    FlowWork s (s.completeMsg n id status) ∧
    RxSame { s.flow n with doneMsg := id, doneStatus := status } ((s.completeMsg n id status).flow n) := by
  unfold State.completeMsg
  extract_lets f t u
  have hf : t.flow n = { f with doneAhead := [(id, status)], rxMsgs := f.rxMsgs.filter (fun m => m.id != id) } := by
    refine (s.flow_setFlow n _ n).trans ((if_pos rfl).trans ?_)
    rw [show f.doneAhead = [] from ha]
    rfl
  have ht : FlowWork s t := FlowWork.setFlow ..
  have hfind : ((t.flow n).doneAhead.find? (fun e => e.1 == ((t.flow n).doneMsg + 1) % 2 ^ 32)) = some (id, status) := by
    rw [hf]
    exact List.find?_cons_of_pos (beq_iff_eq.mpr hn.symm)
  obtain ⟨v, hv, hvf, hu⟩ : ∃ v, FlowWork t v ∧ RxSame { s.flow n with doneMsg := id, doneStatus := status } (v.flow n) ∧
      u = v ∧ (v.flow n).doneAhead = [] := by
    show ∃ v, FlowWork t v ∧ _ ∧ State.settleDone (f.doneAhead.length + 1) t n = v ∧ _
    rw [show f.doneAhead.length + 1 = 0 + 1 by rw [show f.doneAhead = [] from ha]; rfl]
    simp only [State.settleDone, hfind]
    have hw : ∀ w : State, w.flow n = { t.flow n with
        doneMsg := ((t.flow n).doneMsg + 1) % 2 ^ 32, doneStatus := status,
        doneAhead := (t.flow n).doneAhead.filter (fun x => x.1 != ((t.flow n).doneMsg + 1) % 2 ^ 32) } →
        RxSame { s.flow n with doneMsg := id, doneStatus := status } (w.flow n) ∧ (w.flow n).doneAhead = [] := by
      intro w e
      rw [e, hf]
      refine ⟨⟨rfl, rfl, hn, rfl, rfl⟩, ?_⟩
      exact List.filter_eq_nil_iff.mpr (fun x hx => by
        rw [List.mem_singleton.mp hx]
        exact fun q => bne_iff_ne.mp q hn.symm)
    obtain ⟨w1, w2⟩ := hw (t.setFlow n { t.flow n with
        doneMsg := ((t.flow n).doneMsg + 1) % 2 ^ 32, doneStatus := status,
        doneAhead := (t.flow n).doneAhead.filter (fun x => x.1 != ((t.flow n).doneMsg + 1) % 2 ^ 32) })
      ((t.flow_setFlow n _ n).trans (if_pos rfl))
    refine ⟨_, ?_, ?_, rfl, ?_⟩
    · split
      · exact (FlowWork.setFlow ..).trans (State.sendAck_flowWork ..)
      · exact FlowWork.setFlow ..
    · split
      · rw [State.sendAck_flow]
        exact w1.trans ⟨rfl, rfl, rfl, rfl, rfl⟩
      · exact w1
    · split
      · rw [State.sendAck_flow]
        exact w2
      · exact w2
  obtain ⟨hu, hd⟩ := hu
  rw [hu, if_neg]
  · exact ⟨ht.trans hv, hvf⟩
  · rintro ⟨-, h⟩
    rw [hd] at h
    exact Bool.false_ne_true h

/-- What a packet that is a whole message states of its flow (R345, R350, R354). -/
structure Whole (s : State) (ty : Nat) (p : Packet) : Prop where
  head : headOk ty p = true
  flowed : p.noFlow = false
  epoch : ∃ q, s.activePlan = some q ∧ q.id % 256 = p.epoch.toNat
  state : (s.flow p.flow.toNat).state = 1
  sender : (if (s.flow p.flow.toNat).host then p.srcHost else !p.srcHost && (s.flow p.flow.toNat).peer == p.src.toNat) = true
  psn : p.psn.toNat = (s.flow p.flow.toNat).rxExpected
  seen : (s.flow p.flow.toNat).rxSeen = []
  window : 0 < (s.flow p.flow.toNat).window
  index : p.index.toNat = 0
  count : p.count.toNat = 1
  crc : crc64 p.payload = p.msgCrc.toNat
  fresh : (s.flow p.flow.toNat).rxMsgs.find? (fun m => m.id == p.msgId.toNat) = none
  ahead : (s.flow p.flow.toNat).doneAhead = []
  next : ((s.flow p.flow.toNat).doneMsg + 1) % 2 ^ 32 = p.msgId.toNat

theorem State.whole_of_wholeMessage {s : State} {ty : Nat} {p : Packet} (h : s.wholeMessage ty p = true) : Whole s ty p := by
  simp only [State.wholeMessage, State.inOrder, Bool.and_eq_true, beq_iff_eq, Bool.not_eq_true', decide_eq_true_eq,
    List.isEmpty_iff, Option.isNone_iff_eq_none] at h
  obtain ⟨⟨⟨⟨⟨⟨⟨⟨⟨⟨⟨⟨⟨h1, h2⟩, h3⟩, h4⟩, h5⟩, h6⟩, h7⟩, h8⟩, h9⟩, h10⟩, h11⟩, h12⟩, h13⟩, h14⟩ := h
  refine ⟨h1, h2, ?_, h4, h5, h6, h7, h8, h9, h10, h11, h12, h13, h14⟩
  split at h3
  next q hq => exact ⟨q, hq, beq_iff_eq.mp h3⟩
  next => cases h3

/-- The state in which a whole message is delivered: the packet counted toward the next ACK. -/
def State.arrived (s : State) (p : Packet) : State := (s.counted p).noteArrival p.flow.toNat

theorem State.receive_whole {s : State} {ty : Nat} {p : Packet} (h : Whole s ty p) (hty : ty ≠ 0x01 ∧ ty ≠ 0x02) :
    s.quiet.receive ty p = ((s.arrived p).acceptPacket ty p).ackSixteen p.flow.toNat := by
  unfold State.receive
  rw [if_neg (by rw [h.head]; exact Bool.noConfusion), if_neg (by rintro ⟨-, q | q, -⟩; exact hty.1 q; exact hty.2 q),
    if_neg (by rw [h.flowed]; exact Bool.false_ne_true)]
  unfold State.receiveFlowed
  extract_lets n f epoch fromPeer d a t
  have hf : f = s.flow p.flow.toNat := rfl
  have hep : epoch = p.epoch.toNat := by
    obtain ⟨q, hq, he⟩ := h.epoch
    show (match s.activePlan with | some q => q.id % 256 | none => 256) = _
    rw [hq]
    exact he
  have hd : d = 0 := by
    show (p.psn.toNat + 2 ^ 24 - f.rxExpected) % 2 ^ 24 = 0
    rw [h.psn, hf, Nat.add_sub_cancel_left, Nat.mod_self]
  have ha : a = ((f.rxExpected + 1) % 2 ^ 24, []) := by
    show advanceRx (f.rxSeen.length + 1) f.rxExpected (p.psn.toNat :: f.rxSeen) = _
    rw [show f.rxSeen = [] from h.seen, h.psn, hf]
    simp [advanceRx]
  rw [if_neg, if_neg, if_neg]
  · show ((s.quiet.setFlow n { f with rxExpected := a.1, rxSeen := a.2 }).noteArrival n |>.acceptPacket ty p).ackSixteen n = _
    rw [ha]
    rfl
  · rw [hd]
    exact Nat.not_le.mpr h.window
  · rw [hd, show f.rxSeen = [] from h.seen]
    rintro (q | q)
    · exact absurd q (by decide)
    · exact Bool.false_ne_true q
  · rintro (q | q | q)
    · exact q hep.symm
    · exact q h.state
    · exact Bool.false_ne_true (q.symm.trans h.sender)

/-- A whole message's record on its flow, with the status of its delivery. -/
def wholeMsg (ty : Nat) (p : Packet) (status : Nat) (room : Option (Nat × Nat)) : RxMessage :=
  { id := p.msgId.toNat, count := p.count.toNat, got := [0], payload := Bank.set [] [] 0 p.payload,
    crc := some p.msgCrc.toNat, status := status, type := ty, queue := p.window, reserved := room }

/-- A whole message entered on its flow, once delivered with its status. -/
def State.entered (u : State) (ty : Nat) (p : Packet) (status : Nat) (room : Option (Nat × Nat)) : State :=
  u.setFlow p.flow.toNat { u.flow p.flow.toNat with
    rxMsgs := (u.flow p.flow.toNat).rxMsgs.filter (fun x => x.id != p.msgId.toNat) ++ [wholeMsg ty p status room] }

theorem State.noteArrival_flow (s : State) (n : Nat) : ∃ due,
    (s.noteArrival n).flow n = { s.flow n with sinceAck := (s.flow n).sinceAck + 1, ackDue := due } :=
  ⟨_, (s.flow_setFlow n _ n).trans (if_pos rfl)⟩

theorem State.counted_flow (s : State) (p : Packet) :
    (s.counted p).flow p.flow.toNat = { s.flow p.flow.toNat with
      rxExpected := ((s.flow p.flow.toNat).rxExpected + 1) % 2 ^ 24, rxSeen := [] } :=
  (s.quiet.flow_setFlow _ _ _).trans (if_pos rfl)

theorem State.arrived_flow (s : State) (p : Packet) : ∃ due,
    (s.arrived p).flow p.flow.toNat = { s.flow p.flow.toNat with
      rxExpected := ((s.flow p.flow.toNat).rxExpected + 1) % 2 ^ 24, rxSeen := [],
      sinceAck := (s.flow p.flow.toNat).sinceAck + 1, ackDue := due } := by
  obtain ⟨due, h⟩ := (s.counted p).noteArrival_flow p.flow.toNat
  refine ⟨due, ?_⟩
  rw [State.arrived, h, s.counted_flow]

theorem State.arrived_work (s : State) (p : Packet) : FlowWork s.quiet (s.arrived p) :=
  (FlowWork.setFlow ..).trans (FlowWork.setFlow ..)

theorem State.acceptPacket_whole {s : State} {ty : Nat} {p : Packet} (h : Whole s ty p) :
    let r := (s.arrived p).deliver ty p true
    (s.arrived p).acceptPacket ty p =
      (r.1.entered ty p r.2.1 r.2.2).finishMessage p.flow.toNat (wholeMsg ty p r.2.1 r.2.2) p := by
  intro r
  obtain ⟨due, hf⟩ := s.arrived_flow p
  unfold State.acceptPacket
  extract_lets n id old r' t m0 i m f u
  have hold : old = none := by
    show ((s.arrived p).flow p.flow.toNat).rxMsgs.find? (fun m => m.id == p.msgId.toNat) = none
    rw [hf]
    exact h.fresh
  have hr : r' = r := by
    show (s.arrived p).deliver ty p old.isNone = _
    rw [hold]
    rfl
  have hlast : p.isLast = true := by
    rw [Packet.isLast, h.index, h.count]
    rfl
  have hm : m = wholeMsg ty p r.2.1 r.2.2 := by
    have hi : i = 0 := h.index
    unfold m m0
    rw [hold, hlast, hr, hi]
    rfl
  have hgot : m.got.length = m.count := by
    rw [hm]
    exact h.count.symm
  rw [if_pos hgot, hm]
  show ((t.setFlow n { f with rxMsgs := f.rxMsgs.filter (fun x => x.id != id) ++ [m] })).finishMessage n _ p = _
  rw [hm]
  show ((r'.1.setFlow n { r'.1.flow n with rxMsgs := (r'.1.flow n).rxMsgs.filter (fun x => x.id != id) ++ [_] })).finishMessage n _ p = _
  rw [hr]
  rfl

end Sys2Proof.Machine

namespace Sys2Proof.Machine

/-- The flow of a whole message as its completion finds it (R350, R354). -/
structure FlowReady (s v : State) (p : Packet) : Prop where
  expected : (v.flow p.flow.toNat).rxExpected = ((s.flow p.flow.toNat).rxExpected + 1) % 2 ^ 24
  seen : (v.flow p.flow.toNat).rxSeen = []
  ahead : (v.flow p.flow.toNat).doneAhead = []
  doneMsg : (v.flow p.flow.toNat).doneMsg = (s.flow p.flow.toNat).doneMsg

theorem FlowReady.arrived {s : State} {ty : Nat} {p : Packet} (h : Whole s ty p) : FlowReady s (s.arrived p) p := by
  obtain ⟨due, e⟩ := s.arrived_flow p
  constructor
  · rw [e]
  · rw [e]
  · rw [e]
    exact h.ahead
  · rw [e]

theorem FlowReady.of_flows {s u v : State} {p : Packet} (h : FlowReady s u p) (e : v.flows = u.flows) :
    FlowReady s v p := by
  have hf := State.flow_of_flows e p.flow.toNat
  exact ⟨by rw [hf]; exact h.expected, by rw [hf]; exact h.seen, by rw [hf]; exact h.ahead, by rw [hf]; exact h.doneMsg⟩

theorem State.entered_flow (u : State) (ty : Nat) (p : Packet) (status : Nat) (room : Option (Nat × Nat)) :
    ∃ ms, (u.entered ty p status room).flow p.flow.toNat = { u.flow p.flow.toNat with rxMsgs := ms } :=
  ⟨_, (u.flow_setFlow _ _ _).trans (if_pos rfl)⟩

theorem FlowReady.entered {s u : State} {p : Packet} (h : FlowReady s u p) (ty status : Nat) (room : Option (Nat × Nat)) :
    FlowReady s (u.entered ty p status room) p := by
  obtain ⟨ms, e⟩ := u.entered_flow ty p status room
  exact ⟨by rw [e]; exact h.expected, by rw [e]; exact h.seen, by rw [e]; exact h.ahead, by rw [e]; exact h.doneMsg⟩

/-- A whole message completes with its status. -/
theorem FlowReady.complete {s v : State} {ty : Nat} {p : Packet} (h : Whole s ty p) (hv : FlowReady s v p) (status : Nat) :
    let t := (v.completeMsg p.flow.toNat p.msgId.toNat status).ackSixteen p.flow.toNat
    FlowWork v t ∧ TookAs s t p status ∧ (t.flow p.flow.toNat).bells = (v.flow p.flow.toNat).bells := by
  intro t
  obtain ⟨c1, c2⟩ := State.completeMsg_next (s := v) (id := p.msgId.toNat) status hv.ahead (by rw [hv.doneMsg]; exact h.next)
  obtain ⟨a1, a2⟩ := (v.completeMsg p.flow.toNat p.msgId.toNat status).ackSixteen_spec p.flow.toNat
  have hr := c2.trans a2
  exact ⟨c1.trans a1, ⟨hr.expected.trans hv.expected, hr.seen.trans hv.seen, hr.doneMsg, hr.doneStatus⟩, hr.bells⟩

theorem wholeMsg_payload (ty : Nat) (p : Packet) (status : Nat) (room : Option (Nat × Nat)) (h : p.count.toNat = 1) :
    (upto (wholeMsg ty p status room).count).foldl (fun a i => a ++ Bank.get (wholeMsg ty p status room).payload [] i) [] =
      p.payload := by
  rw [show (wholeMsg ty p status room).count = 1 from h]
  show [] ++ Bank.get (Bank.set [] [] 0 p.payload) [] 0 = _
  rw [List.nil_append, Bank.get_set, if_pos rfl]

theorem State.finishMessage_whole {s : State} {ty : Nat} {p : Packet} (h : Whole s ty p) (v : State) (status : Nat)
    (room : Option (Nat × Nat)) :
    (status ≠ 0 → v.finishMessage p.flow.toNat (wholeMsg ty p status room) p =
      (if status = 2 then v.bump oQueueFullCount else v).completeMsg p.flow.toNat p.msgId.toNat status) ∧
    (status = 0 → ty ≠ 0x07 → ty ≠ 0x01 → v.finishMessage p.flow.toNat (wholeMsg ty p status room) p =
      v.completeMsg p.flow.toNat p.msgId.toNat 0) ∧
    (status = 0 → ty = 0x07 → ∀ q, v.queue? p.window = some q →
      v.finishMessage p.flow.toNat (wholeMsg ty p status room) p =
        (v.appendInbox q p.payload).completeMsg p.flow.toNat p.msgId.toNat 0) := by
  have hcrc : (wholeMsg ty p status room).crc = some p.msgCrc.toNat := rfl
  unfold State.finishMessage
  simp only [wholeMsg_payload ty p status room h.count, hcrc, h.crc, bne_self_eq_false]
  rw [if_neg Bool.false_ne_true]
  refine ⟨fun hs => ?_, fun hs h7 h1 => ?_, fun hs h7 q hq => ?_⟩
  · rw [if_pos (show (wholeMsg ty p status room).status ≠ 0 from hs)]
    rfl
  · rw [if_neg (show ¬(wholeMsg ty p status room).status ≠ 0 from Classical.not_not.mpr hs), if_neg (show ¬(wholeMsg ty p status room).type = 0x07 from h7),
      if_neg (show ¬((wholeMsg ty p status room).type = 0x01 ∧ p.space = 2) from fun q => h1 q.1),
      if_neg (show ¬((wholeMsg ty p status room).type = 0x01 ∧ p.space = 1 ∧ p.addr = 0) from fun q => h1 q.1)]
    rfl
  · rw [if_neg (show ¬(wholeMsg ty p status room).status ≠ 0 from Classical.not_not.mpr hs), if_pos (show (wholeMsg ty p status room).type = 0x07 from h7),
      show v.queue? (wholeMsg ty p status room).queue = some q from hq]
    rfl

theorem State.entered_work (u : State) (ty : Nat) (p : Packet) (status : Nat) (room : Option (Nat × Nat)) :
    FlowWork u (u.entered ty p status room) := FlowWork.setFlow ..

/-- A whole message of a type that only completes: what its delivery left, complete with the delivery's status. -/
theorem whole_completes {s u : State} {ty : Nat} {p : Packet} {status : Nat} {room : Option (Nat × Nat)} (h : Whole s ty p)
    (hty : ty ≠ 0x01 ∧ ty ≠ 0x02) (h7 : ty = 0x07 → status ≠ 0) (h2 : status ≠ 2)
    (hd : (s.arrived p).deliver ty p true = (u, status, room)) (hu : FlowReady s u p) :
    ∃ t, s.quiet.receive ty p = t ∧ FlowWork u t ∧ TookAs s t p status ∧
      (t.flow p.flow.toNat).bells = (u.flow p.flow.toNat).bells := by
  have hx := State.receive_whole h hty
  rw [State.acceptPacket_whole h, hd] at hx
  have he := hu.entered ty status room
  have hb : ((u.entered ty p status room).flow p.flow.toNat).bells = (u.flow p.flow.toNat).bells := by
    obtain ⟨ms, e⟩ := u.entered_flow ty p status room
    rw [e]
  have hw := u.entered_work ty p status room
  dsimp only at hx
  generalize u.entered ty p status room = v at hx he hb hw
  obtain ⟨f1, f2, -⟩ := State.finishMessage_whole h v status room
  obtain ⟨c1, c2, c3⟩ := he.complete h status
  refine ⟨_, rfl, ?_⟩
  by_cases hs : status = 0
  · rw [hx, f2 hs (fun q => h7 q hs) hty.1, ← hs]
    exact ⟨hw.trans c1, c2, c3.trans hb⟩
  · rw [hx, f1 hs, if_neg h2]
    exact ⟨hw.trans c1, c2, c3.trans hb⟩

/-! ### Contribution packets -/

theorem State.arrived_stale (s : State) (p : Packet) : staleStep (s.arrived p) p = staleStep s p := rfl

theorem State.arrived_window (s : State) (p : Packet) (n : Nat) : (s.arrived p).ownWindow n = s.ownWindow n := rfl

theorem FlowWork.bell {s t : State} (h : FlowWork s t) : t.bell = s.bell := by
  obtain ⟨_, _, rfl⟩ := h
  rfl

theorem State.deliverContribs_of (u : State) {ty : Nat} {p : Packet} (h : ¬(ty = 0x04 ∧ 2 < p.form)) :
    u.deliverContribs ty p = ({ u with contribs := u.contribs ++ packetContribs u.bell.beat ty p },
      if (u.ownWindow p.window).isNone then 4 else if staleStep u p then 5 else 0) := if_neg h

/-- A packet of contributions of a form: they are on their way, and the message is complete. -/
theorem contribs_gives {c : Instr} {s : State} {ty : Nat} {p : Packet} (hx : exec c s = .next (s.quiet.receive ty p))
    (h : Whole s ty p) (hty : ty = 0x04 ∧ p.form ≤ 2 ∨ ty = 0x05 ∨ ty = 0x06) :
    Gives c s (fun t => TookAs s t p (if (s.ownWindow p.window).isNone then 4 else if staleStep s p then 5 else 0) ∧
      t.contribs = s.contribs ++ packetContribs s.bell.beat ty p ∧ t.mem = s.mem ∧ SameObj s t []) := by
  have hn : ¬(ty = 0x04 ∧ 2 < p.form) := by omega
  have ha := s.arrived_work p
  have hd : (s.arrived p).deliver ty p true =
      ({ s.arrived p with contribs := s.contribs ++ packetContribs s.bell.beat ty p },
        if (s.ownWindow p.window).isNone then 4 else if staleStep s p then 5 else 0, none) := by
    have hc := (s.arrived p).deliverContribs_of hn
    rw [ha.contribs, ha.bell, s.arrived_window, s.arrived_stale] at hc
    have h1 : (s.arrived p).deliver ty p true =
        (((s.arrived p).deliverContribs ty p).1, ((s.arrived p).deliverContribs ty p).2, none) := by
      rcases hty with ⟨rfl, -⟩ | rfl | rfl
      · rfl
      · rfl
      · rfl
    rw [h1, hc]
    rfl
  obtain ⟨t, ht, hw, hk, -⟩ := whole_completes h (by omega) (by omega) (by split <;> (try split) <;> decide) hd
    ((FlowReady.arrived h).of_flows rfl)
  refine ⟨t, hx.trans (congrArg Host.Outcome.next ht), hk, hw.contribs, hw.mem.trans ?_, fun k _ => (hw.obj k).trans ?_⟩
  · exact ha.mem
  · exact ha.obj k

/-- Settles O34. -/
theorem contributionPackets : Obligations.ContributionPackets := by
  unfold Obligations.ContributionPackets
  intro p s st
  refine ⟨fun h hf => ?_, fun h hf => ?_, fun h => ?_, fun h => ?_⟩
  · exact contribs_gives rfl (State.whole_of_wholeMessage h) (.inl ⟨rfl, hf⟩)
  · have hw := State.whole_of_wholeMessage h
    have hd : (s.arrived p).deliver 0x04 p true = (s.arrived p, 4, none) := by
      have hc : (s.arrived p).deliverContribs 0x04 p = (s.arrived p, 4) := if_pos ⟨rfl, hf⟩
      show (((s.arrived p).deliverContribs 0x04 p).1, ((s.arrived p).deliverContribs 0x04 p).2, none) = _
      rw [hc]
    obtain ⟨t, ht, ho, hk, -⟩ := whole_completes hw (by decide) (by decide) (by decide) hd (FlowReady.arrived hw)
    have ha := s.arrived_work p
    exact ⟨t, congrArg Host.Outcome.next ht, hk, ho.contribs.trans ha.contribs, ho.mem.trans ha.mem,
      fun k _ => (ho.obj k).trans (ha.obj k)⟩
  · exact contribs_gives rfl (State.whole_of_wholeMessage h) (.inr (.inl rfl))
  · exact contribs_gives rfl (State.whole_of_wholeMessage h) (.inr (.inr rfl))

end Sys2Proof.Machine

namespace Sys2Proof.Machine

/-! ### MESSAGE -/

theorem Bank.put_put {α : Type} (m : Bank α) (k : Nat) (v w : α) : Bank.put (Bank.put m k v) k w = Bank.put m k w := by
  induction m with
  | nil => simp [Bank.put]
  | cons e rest ih =>
    obtain ⟨j, x⟩ := e
    rcases Nat.lt_trichotomy k j with h | h | h
    · simp [Bank.put, h]
    · simp [Bank.put, h]
    · simp [Bank.put, Nat.lt_asymm h, Nat.ne_of_gt h, ih]

/-- A value put in place of another that a function does not tell from it. -/
theorem Bank.map_put {α β : Type} (m : Bank α) (k : Nat) {v w : α} (g : α → β) (h : g v = g w) :
    (Bank.put m k v).map (fun e => g e.2) = (Bank.put m k w).map (fun e => g e.2) := by
  induction m with
  | nil => simp [Bank.put, h]
  | cons e rest ih =>
    obtain ⟨j, x⟩ := e
    rcases Nat.lt_trichotomy k j with hk | hk | hk
    · simp [Bank.put, hk, h]
    · simp [Bank.put, hk, h]
    · simp [Bank.put, Nat.lt_asymm hk, Nat.ne_of_gt hk, ih]

/-- The entries of an INBOX that open messages reserve. -/
def heldRoom (q : QueueEntry) (ms : List (List RxMessage)) : Nat :=
  ms.foldl (fun a l => l.foldl (fun b m => match m.reserved with
    | some h => if h.1 = q.num then b + h.2 else b
    | none => b) a) 0

theorem State.inboxRoom_eq (s : State) (q : QueueEntry) :
    s.inboxRoom q = q.entries - ((s.ring q.num).pi + 2 ^ 32 - (s.ring q.num).ci) % 2 ^ 32 -
      heldRoom q (s.flows.map (fun e => e.2.rxMsgs)) := by
  rw [State.inboxRoom, heldRoom, List.foldl_map] <;> rfl

theorem FlowSt.ne_init_of_open {f : FlowSt} (h : f.state = 1) : f ≠ FlowSt.init := by
  rintro rfl
  exact absurd h (by decide)

theorem State.setFlow_open {s : State} {n : Nat} {f : FlowSt} (h : f.state = 1) :
    (s.setFlow n f).flows = Bank.put s.flows n f := if_neg (FlowSt.ne_init_of_open h)

/-- The room of an INBOX does not depend on the packet's arrival being counted. -/
theorem State.arrived_room {s : State} {p : Packet} (h : (s.flow p.flow.toNat).state = 1) (q : QueueEntry) :
    (s.arrived p).inboxRoom q = (s.counted p).inboxRoom q := by
  have hc := State.setFlow_open (s := s.quiet) (n := p.flow.toNat) (f := { s.flow p.flow.toNat with
    rxExpected := ((s.flow p.flow.toNat).rxExpected + 1) % 2 ^ 24, rxSeen := [] }) h
  obtain ⟨g, hg, ha⟩ : ∃ g : FlowSt, (g.state = 1 ∧ g.rxMsgs = (s.flow p.flow.toNat).rxMsgs) ∧
      s.arrived p = (s.counted p).setFlow p.flow.toNat g := by
    unfold State.arrived State.noteArrival
    refine ⟨_, ?_, rfl⟩
    dsimp only
    rw [s.counted_flow]
    exact ⟨h, rfl⟩
  have hput := State.setFlow_open (s := s.counted p) (n := p.flow.toNat) hg.1
  have hcounted : (s.counted p).flows = Bank.put s.flows p.flow.toNat { s.flow p.flow.toNat with
    rxExpected := ((s.flow p.flow.toNat).rxExpected + 1) % 2 ^ 24, rxSeen := [] } := hc
  rw [State.inboxRoom_eq, State.inboxRoom_eq, ha, hput, hcounted, Bank.put_put,
    Bank.map_put (w := s.flow p.flow.toNat) s.flows p.flow.toNat (fun f : FlowSt => f.rxMsgs) hg.2,
    Bank.map_put (v := { s.flow p.flow.toNat with
      rxExpected := ((s.flow p.flow.toNat).rxExpected + 1) % 2 ^ 24, rxSeen := [] })
      (w := s.flow p.flow.toNat) s.flows p.flow.toNat (fun f : FlowSt => f.rxMsgs) rfl]
  rfl

/-- The memory after a whole line is written (R266). -/
def MemSt.lineWritten (m : MemSt) (line : Nat) (bs : Bytes) : MemSt :=
  { m with errors := Bank.set m.errors 0 line 0, poison := m.poison.filter (fun l => l != line),
           bytes := memWrite m.bytes line bs }

theorem State.writeLine_eq (s : State) (line : Nat) (bs : Bytes) :
    s.writeLine line bs = { s with mem := s.mem.lineWritten line bs } := rfl

/-- One entry of a MESSAGE appended to its INBOX. -/
def State.appendEntry (q : QueueEntry) (bs : Bytes) (s : State) (i : Nat) : State :=
  let r := s.ring q.num
  let s := match s.region? q.region with
    | some g => s.writeLine (g.base + q.offset + (r.pi % q.entries) * 64) (sliceB bs (64 * i) 64)
    | none => s
  s.setRing q.num { r with pi := (r.pi + 1) % 2 ^ 32 }

theorem State.appendInbox_eq (s : State) (q : QueueEntry) (bs : Bytes) :
    s.appendInbox q bs = (upto (bs.length / 64)).foldl (State.appendEntry q bs) s := rfl

/-- The memory after an entry appended, where the queue's region is `g`. -/
def entryMem (q : QueueEntry) (bs : Bytes) (m : MemSt) (r : Bank RingSt) (g : Option Region) (i : Nat) : MemSt :=
  match g with
  | some g => m.lineWritten (g.base + q.offset + ((Bank.get r RingSt.init q.num).pi % q.entries) * 64) (sliceB bs (64 * i) 64)
  | none => m

/-- The rings after an entry appended. -/
def entryRings (q : QueueEntry) (r : Bank RingSt) : Bank RingSt :=
  Bank.set r RingSt.init q.num { Bank.get r RingSt.init q.num with
    pi := ((Bank.get r RingSt.init q.num).pi + 1) % 2 ^ 32 }

theorem State.appendEntry_eq (q : QueueEntry) (bs : Bytes) (s : State) (i : Nat) :
    State.appendEntry q bs s i = { s with mem := entryMem q bs s.mem s.rings (s.region? q.region) i, rings := entryRings q s.rings } := by
  unfold State.appendEntry entryMem
  cases s.region? q.region with
  | none => rfl
  | some g =>
    dsimp only
    rw [State.writeLine_eq]
    rfl

/-- A region is found by the plan, its state and the place alone. -/
theorem State.region?_congr {s t : State} (h1 : t.plan = s.plan) (h2 : t.od = s.od) (n : Nat) :
    t.region? n = s.region? n := by
  simp only [State.region?, State.regions, State.planHeld, State.admitted, State.planState, State.obj, h1, h2]
  rfl

/-- What an INBOX appended to leaves: the same memory and rings whatever the flows hold. -/
theorem State.appendInbox_congr {s t : State} (hm : t.mem = s.mem) (hr : t.rings = s.rings) (hp : t.plan = s.plan)
    (ho : t.od = s.od) (q : QueueEntry) (bs : Bytes) :
    (t.appendInbox q bs).mem = (s.appendInbox q bs).mem ∧ (t.appendInbox q bs).rings = (s.appendInbox q bs).rings := by
  rw [State.appendInbox_eq, State.appendInbox_eq]
  generalize upto (bs.length / 64) = l
  induction l generalizing s t with
  | nil => exact ⟨hm, hr⟩
  | cons i l ih =>
    refine ih ?_ ?_ ?_ ?_
    · rw [State.appendEntry_eq, State.appendEntry_eq, hm, hr, State.region?_congr hp ho]
    · rw [State.appendEntry_eq, State.appendEntry_eq, hr]
    · rw [State.appendEntry_eq, State.appendEntry_eq]
      exact hp
    · rw [State.appendEntry_eq, State.appendEntry_eq]
      exact ho

theorem State.appendInbox_work (s : State) (q : QueueEntry) (bs : Bytes) :
    (s.appendInbox q bs).od = s.od ∧ (s.appendInbox q bs).flows = s.flows := by
  rw [State.appendInbox_eq]
  refine List.foldlRecOn _ _ (motive := fun t : State => t.od = s.od ∧ t.flows = s.flows) ⟨rfl, rfl⟩ (fun t ht i _ => ?_)
  rw [State.appendEntry_eq]
  exact ht

/-- The producer index after entries appended (R359). -/
theorem State.appendInbox_ring (s : State) (q : QueueEntry) (bs : Bytes) (h : 64 ≤ bs.length) :
    ((s.appendInbox q bs).ring q.num).pi = ((s.ring q.num).pi + bs.length / 64) % 2 ^ 32 ∧
    ((s.appendInbox q bs).ring q.num).ci = (s.ring q.num).ci := by
  have step : ∀ (t : State) i, ((State.appendEntry q bs t i).ring q.num) =
      { t.ring q.num with pi := ((t.ring q.num).pi + 1) % 2 ^ 32 } := by
    intro t i
    rw [State.appendEntry_eq]
    exact (Bank.get_set ..).trans (if_pos rfl)
  have gen : ∀ (l : List Nat) (t : State), ((l.foldl (State.appendEntry q bs) t).ring q.num).ci = (t.ring q.num).ci ∧
      (l ≠ [] → ((l.foldl (State.appendEntry q bs) t).ring q.num).pi = ((t.ring q.num).pi + l.length) % 2 ^ 32) := by
    intro l
    induction l with
    | nil => exact fun t => ⟨rfl, fun h => absurd rfl h⟩
    | cons i l ih =>
      intro t
      obtain ⟨h1, h2⟩ := ih (State.appendEntry q bs t i)
      refine ⟨by rw [List.foldl_cons, h1, step], fun _ => ?_⟩
      cases l with
      | nil => rw [List.foldl_cons, List.foldl_nil, step]; rfl
      | cons j l =>
        rw [List.foldl_cons, h2 (List.cons_ne_nil _ _), step, List.length_cons, List.length_cons, List.length_cons]
        dsimp only
        omega
  obtain ⟨h1, h2⟩ := gen (upto (bs.length / 64)) s
  rw [State.appendInbox_eq]
  have hl : (upto (bs.length / 64)).length = bs.length / 64 := List.length_range
  refine ⟨?_, h1⟩
  rw [h2, hl]
  intro q
  rw [q] at hl
  have : bs.length / 64 = 0 := hl.symm
  omega

end Sys2Proof.Machine

namespace Sys2Proof.Machine

/-! ### MESSAGE and DOORBELL -/

theorem State.arrived_queue (s : State) (p : Packet) (n : Nat) : (s.arrived p).queue? n = s.queue? n := rfl

/-- What a MESSAGE's delivery answers (R359): its status and the room it reserves. -/
theorem State.deliver_message (u : State) (p : Packet) :
    (staleStep u p = true → u.deliver 0x07 p true = (u, 5, none)) ∧
    (staleStep u p = false → (u.queue? p.window).all (fun q => q.kind != 3) = true → u.deliver 0x07 p true = (u, 4, none)) ∧
    (staleStep u p = false → ∀ q, u.queue? p.window = some q → q.kind = 3 →
      u.deliver 0x07 p true =
        if messageRoom p ≤ u.inboxRoom q then (u, 0, some (q.num, messageRoom p)) else (u, 2, none)) := by
  refine ⟨fun h => if_pos h, fun h hq => ?_, fun h q hq hk => ?_⟩
  · refine (if_neg (by rw [h]; exact Bool.false_ne_true)).trans ?_
    cases hw : u.queue? p.window with
    | none => rfl
    | some q =>
      rw [hw] at hq
      exact if_pos (bne_iff_ne.mp hq)
  · refine (if_neg (by rw [h]; exact Bool.false_ne_true)).trans ?_
    rw [hq]
    exact (if_neg (Classical.not_not.mpr hk)).trans (if_pos rfl)

/-- A MESSAGE that only completes, with a status of its own. -/
theorem message_completes {s : State} {p : Packet} {status : Nat} (h : Whole s 0x07 p) (h0 : status ≠ 0) (h2 : status ≠ 2)
    (hd : (s.arrived p).deliver 0x07 p true = (s.arrived p, status, none)) :
    Gives (.message p) s (fun t => TookAs s t p status ∧ SameObj s t [] ∧ t.mem = s.mem ∧ t.rings = s.rings) := by
  obtain ⟨t, ht, ho, hk, -⟩ := whole_completes h (by decide) (fun _ => h0) h2 hd (FlowReady.arrived h)
  have ha := s.arrived_work p
  exact ⟨t, congrArg Host.Outcome.next ht, hk, fun k _ => (ho.obj k).trans (ha.obj k), ho.mem.trans ha.mem,
    ho.rings.trans ha.rings⟩

theorem State.bump_flows (s : State) (k : Nat) :
    (s.bump k).flows = s.flows ∧ (s.bump k).mem = s.mem ∧ (s.bump k).rings = s.rings := ⟨rfl, rfl, rfl⟩

/-- A MESSAGE without room in its INBOX. -/
theorem message_without_room {s : State} {p : Packet} (h : Whole s 0x07 p)
    (hd : (s.arrived p).deliver 0x07 p true = (s.arrived p, 2, none)) :
    Gives (.message p) s (fun t => TookAs s t p 2 ∧ SameObj s t [oQueueFullCount] ∧ t.mem = s.mem ∧ t.rings = s.rings ∧
      t.obj oQueueFullCount = (s.obj oQueueFullCount + 1) % 2 ^ objBits oQueueFullCount) := by
  have hx := State.receive_whole h (by decide)
  rw [State.acceptPacket_whole h, hd] at hx
  dsimp only at hx
  have hr := (FlowReady.arrived h).entered 0x07 2 none
  have hw : FlowWork s.quiet ((s.arrived p).entered 0x07 p 2 none) := (s.arrived_work p).trans (State.entered_work ..)
  generalize (s.arrived p).entered 0x07 p 2 none = v at hx hr hw
  rw [(State.finishMessage_whole h v 2 none).1 (by decide), if_pos rfl] at hx
  have hb : SameObj v (v.bump oQueueFullCount) [oQueueFullCount] := (SameObj.refl v _).setObj _ (List.mem_singleton.mpr rfl)
  have hv := v.bump_obj_self oQueueFullCount
  obtain ⟨b1, b2, b3⟩ := v.bump_flows oQueueFullCount
  have hrb := hr.of_flows b1
  generalize v.bump oQueueFullCount = w at hx hb hv b2 b3 hrb
  obtain ⟨c1, c2, -⟩ := hrb.complete h 2
  refine ⟨_, congrArg Host.Outcome.next hx, c2, fun k hk => ?_, c1.mem.trans (b2.trans hw.mem), c1.rings.trans (b3.trans hw.rings), ?_⟩
  · rw [c1.obj, hb k hk, hw.obj]
    rfl
  · rw [c1.obj, hv, hw.obj]
    rfl

theorem FlowWork.queue? {s t : State} (h : FlowWork s t) (n : Nat) : t.queue? n = s.queue? n := by
  obtain ⟨_, _, rfl⟩ := h
  rfl

theorem FlowWork.plan {s t : State} (h : FlowWork s t) : t.plan = s.plan := by
  obtain ⟨_, _, rfl⟩ := h
  rfl

/-- A MESSAGE with room in its INBOX. -/
theorem message_with_room {s : State} {p : Packet} {q : QueueEntry} (h : Whole s 0x07 p) (hq : s.queue? p.window = some q)
    (hd : (s.arrived p).deliver 0x07 p true = (s.arrived p, 0, some (q.num, messageRoom p))) :
    Gives (.message p) s (fun t => TookAs s t p 0 ∧ SameObj s t [] ∧ t.mem = (s.appendInbox q p.payload).mem ∧
      (∀ n, t.ring n = (s.appendInbox q p.payload).ring n)) := by
  have hx := State.receive_whole h (by decide)
  rw [State.acceptPacket_whole h, hd] at hx
  dsimp only at hx
  have hr := (FlowReady.arrived h).entered 0x07 0 (some (q.num, messageRoom p))
  have hw : FlowWork s.quiet ((s.arrived p).entered 0x07 p 0 (some (q.num, messageRoom p))) :=
    (s.arrived_work p).trans (State.entered_work ..)
  generalize (s.arrived p).entered 0x07 p 0 (some (q.num, messageRoom p)) = v at hx hr hw
  have hqv : v.queue? p.window = some q := (hw.queue? _).trans hq
  have hplan : v.plan = s.plan := hw.plan
  rw [(State.finishMessage_whole h v 0 (some (q.num, messageRoom p))).2.2 rfl rfl q hqv] at hx
  obtain ⟨a1, a2⟩ := v.appendInbox_work q p.payload
  obtain ⟨a3, a4⟩ := State.appendInbox_congr (s := s) (t := v) hw.mem hw.rings hplan hw.od q p.payload
  have hra := hr.of_flows a2
  generalize v.appendInbox q p.payload = w at hx a1 a3 a4 hra
  obtain ⟨c1, c2, -⟩ := hra.complete h 0
  refine ⟨_, congrArg Host.Outcome.next hx, c2, fun k _ => ?_, c1.mem.trans a3, fun n => ?_⟩
  · rw [c1.obj, State.obj_congr k (a1.trans hw.od)]
    rfl
  · rw [State.ring, State.ring, c1.rings, a4]

theorem State.counted_stale (s : State) (p : Packet) : staleStep (s.arrived p) p = staleStep s p := rfl

/-- A DOORBELL waits on its flow, or is of another step. -/
theorem doorbell_gives {s : State} {p : Packet} (h : Whole s 0x08 p) :
    Gives (.doorbell p) s (fun t => TookAs s t p (if staleStep s p then 5 else 0) ∧ t.mem = s.mem ∧ SameObj s t [] ∧
      (t.flow p.flow.toNat).bells = (if staleStep s p then (s.flow p.flow.toNat).bells
        else (s.flow p.flow.toNat).bells ++ [⟨p.msgId.toNat, p.field 40 2, p.field 42 4⟩])) := by
  have ha := s.arrived_work p
  obtain ⟨due, hf⟩ := s.arrived_flow p
  have hready := FlowReady.arrived h
  have hst := s.counted_stale p
  cases hs : staleStep s p with
  | true =>
    have hd : (s.arrived p).deliver 0x08 p true = (s.arrived p, 5, none) := if_pos (hst.trans hs)
    obtain ⟨t, ht, ho, hk, hb⟩ := whole_completes h (by decide) (by decide) (by decide) hd hready
    refine ⟨t, congrArg Host.Outcome.next ht, hk, ho.mem.trans ha.mem, fun k _ => (ho.obj k).trans (ha.obj k), ?_⟩
    rw [hb, hf]
    rfl
  | false =>
    have hd : (s.arrived p).deliver 0x08 p true = ((s.arrived p).setFlow p.flow.toNat { (s.arrived p).flow p.flow.toNat with
        bells := ((s.arrived p).flow p.flow.toNat).bells ++ [⟨p.msgId.toNat, p.field 40 2, p.field 42 4⟩] }, 0, none) :=
      if_neg (by rw [hst, hs]; exact Bool.false_ne_true)
    generalize hu : s.arrived p = u at hd ha hf hready
    have hself := (u.flow_setFlow p.flow.toNat { u.flow p.flow.toNat with
      bells := (u.flow p.flow.toNat).bells ++ [⟨p.msgId.toNat, p.field 40 2, p.field 42 4⟩] } p.flow.toNat).trans (if_pos rfl)
    have hwork := FlowWork.setFlow u p.flow.toNat { u.flow p.flow.toNat with
      bells := (u.flow p.flow.toNat).bells ++ [⟨p.msgId.toNat, p.field 40 2, p.field 42 4⟩] }
    generalize u.setFlow p.flow.toNat { u.flow p.flow.toNat with
      bells := (u.flow p.flow.toNat).bells ++ [⟨p.msgId.toNat, p.field 40 2, p.field 42 4⟩] } = v at hd hself hwork
    have hv : FlowReady s v p := ⟨by rw [hself]; exact hready.expected, by rw [hself]; exact hready.seen,
      by rw [hself]; exact hready.ahead, by rw [hself]; exact hready.doneMsg⟩
    have ho' := ha.trans hwork
    rw [← hu] at hd
    obtain ⟨t, ht, ho, hk, hb⟩ := whole_completes h (by decide) (by decide) (by decide) hd hv
    refine ⟨t, congrArg Host.Outcome.next ht, hk, ho.mem.trans ho'.mem, fun k _ => (ho.obj k).trans (ho'.obj k), ?_⟩
    rw [hb, hself, hf]
    rfl

/-! ### DOORBELL_APPLY -/

/-- The first waiting doorbell of a flow taken off it. -/
def State.bellTaken (s : State) (n : Nat) (b : WaitingBell) : State :=
  s.quiet.setFlow n { s.flow n with bells := (s.flow n).bells.filter (fun x => x.msg != b.msg) }

theorem exec_doorbellApply {flow : BitVec 12} {s : State} {b : WaitingBell}
    (h : (s.flow flow.toNat).bells.find? (fun b => earlierDone (s.flow flow.toNat) b.msg) = some b) :
    exec (.doorbellApply flow) s = .next ((s.bellTaken flow.toNat b).ringBell b.queue b.index) := by
  show execDoorbellApply flow s = _
  unfold execDoorbellApply
  simp only [show (s.quiet.flow flow.toNat).bells.find? (fun b => earlierDone (s.quiet.flow flow.toNat) b.msg) = some b from h]
  rfl

theorem State.bellTaken_spec (s : State) (n : Nat) (b : WaitingBell) :
    FlowWork s.quiet (s.bellTaken n b) ∧
    ((s.bellTaken n b).flow n).bells = (s.flow n).bells.filter (fun x => x.msg != b.msg) :=
  ⟨FlowWork.setFlow .., congrArg FlowSt.bells ((s.quiet.flow_setFlow n _ n).trans (if_pos rfl))⟩

theorem State.ringBell_valid {s : State} {queue index : Nat} {r : RingSt}
    (h : (s.queue? queue).bind (fun q => doorbellIndex q (s.ring queue) index) = some r) :
    s.ringBell queue index = s.setRing queue r := by
  rw [State.ringBell, h]

theorem State.ringBell_invalid {s : State} {queue index : Nat}
    (h : (s.queue? queue).bind (fun q => doorbellIndex q (s.ring queue) index) = none) :
    s.ringBell queue index = ((s.bump oDoorbellInvalidCount).setObj oLastDoorbellInvalid (queue + index * 65536)).raise
      .doorbellInvalid := by
  rw [State.ringBell, h]

/-- What a doorbell discarded leaves. -/
theorem State.ringBell_discarded {s : State} {queue index : Nat}
    (h : (s.queue? queue).bind (fun q => doorbellIndex q (s.ring queue) index) = none) :
    (s.ringBell queue index).obj oLastDoorbellInvalid = queue + index * 65536 ∧
    (s.ringBell queue index).obj oDoorbellInvalidCount =
      (s.obj oDoorbellInvalidCount + 1) % 2 ^ objBits oDoorbellInvalidCount ∧
    FlowsKept s (s.ringBell queue index) ∧
    SameObj s (s.ringBell queue index) ([oDoorbellInvalidCount, oLastDoorbellInvalid] ++ eventKeys) := by
  rw [State.ringBell_invalid h]
  have hb : SameObj s (s.bump oDoorbellInvalidCount) [oDoorbellInvalidCount] :=
    (SameObj.refl s _).setObj _ (List.mem_singleton.mpr rfl)
  have hv := s.bump_obj_self oDoorbellInvalidCount
  have hf := (s.bump_flows oDoorbellInvalidCount).1
  generalize s.bump oDoorbellInvalidCount = u at hb hv hf
  have hs : SameObj u (u.setObj oLastDoorbellInvalid (queue + index * 65536)) [oLastDoorbellInvalid] :=
    (SameObj.refl u _).setObj _ (List.mem_singleton.mpr rfl)
  have hw := u.obj_setObj_self oLastDoorbellInvalid (queue + index * 65536)
  have hg : (u.setObj oLastDoorbellInvalid (queue + index * 65536)).flows = u.flows := State.setObj_flows ..
  generalize u.setObj oLastDoorbellInvalid (queue + index * 65536) = v at hs hw hg
  have hl := v.raise_logs .doorbellInvalid
  refine ⟨(hl.obj _ (by decide)).trans hw, ?_, (FlowsKept.of_flows (hg.trans hf)).trans (v.raise_kept _), ?_⟩
  · rw [hl.obj _ (by decide), hs _ (by decide), hv]
  · exact (SameObj.mono hb (by decide)).trans ((SameObj.mono hs (by decide)).trans (hl.sameObj.mono (by decide)))

/-- Settles O35. -/
theorem messagesAndDoorbells : Obligations.MessagesAndDoorbells := by
  unfold Obligations.MessagesAndDoorbells
  refine ⟨fun p s hp => ?_, fun p s h => doorbell_gives (State.whole_of_wholeMessage h), fun flow s => ?_⟩
  · have h := State.whole_of_wholeMessage hp
    obtain ⟨d1, d2, d3⟩ := (s.arrived p).deliver_message p
    rw [s.counted_stale] at d1 d2 d3
    refine ⟨fun q hs hq hk => ⟨fun hroom => ?_, fun hroom => ?_⟩, fun hs hq => ?_, fun hs => ?_⟩
    · have hd := d3 hs q hq hk
      rw [State.arrived_room h.state, if_pos hroom] at hd
      obtain ⟨t, ht, h1, h2, h3, h4⟩ := message_with_room h hq hd
      refine ⟨t, ht, h1, h2, h3, h4, fun hl => ?_⟩
      rw [h4]
      exact s.appendInbox_ring q p.payload hl
    · have hd := d3 hs q hq hk
      rw [State.arrived_room h.state, if_neg (Nat.not_le.mpr hroom)] at hd
      exact message_without_room h hd
    · exact message_completes h (by decide) (by decide) (d2 hs hq)
    · exact message_completes h (by decide) (by decide) (d1 hs)
  · intro first
    refine ⟨fun b r hb hr => ⟨_, exec_doorbellApply hb, ?_⟩, fun b hb hr => ⟨_, exec_doorbellApply hb, ?_⟩, fun hb => ?_⟩
    · obtain ⟨w, e⟩ := s.bellTaken_spec flow.toNat b
      generalize s.bellTaken flow.toNat b = u at w e
      have hring : ∀ n, u.ring n = s.ring n := fun n => by
        rw [State.ring, w.rings]
        rfl
      rw [State.ringBell_valid (r := r) (by rw [w.queue?, hring]; exact hr)]
      refine ⟨(u.ring_setRing _ _ _).trans (if_pos rfl), fun n hn => ((u.ring_setRing _ _ _).trans (if_neg hn)).trans (hring n),
        e, fun k _ => w.obj k, w.mem⟩
    · obtain ⟨w, e⟩ := s.bellTaken_spec flow.toNat b
      generalize s.bellTaken flow.toNat b = u at w e
      have hring : ∀ n, u.ring n = s.ring n := fun n => by
        rw [State.ring, w.rings]
        rfl
      obtain ⟨r1, r2, r3, r4⟩ := State.ringBell_discarded (s := u) (queue := b.queue) (index := b.index)
        (by rw [w.queue?, hring]; exact hr)
      refine ⟨r1, ?_, (r3.flow _).rx.bells.trans e, SameObj.trans (w.same _) r4⟩
      rw [r2, w.obj]
      rfl
    · show execDoorbellApply flow s = _
      unfold execDoorbellApply
      simp only [show (s.quiet.flow flow.toNat).bells.find? (fun b => earlierDone (s.quiet.flow flow.toNat) b.msg) = none from hb]

end Sys2Proof.Machine

namespace Sys2Proof.Machine

/-! ### What follows an acknowledgement -/

/-- What sending, accesses to the memory and events keep of an acknowledgement: what the flows have not acknowledged
only grows, a POISONED step stays so, and no CRC failure is counted. -/
structure AckWork (s t : State) : Prop where
  kept : FlowsKept s t
  fault : s.step.fault = true → t.step.fault = true
  crc : t.obj oCrcFailCount = s.obj oCrcFailCount

theorem AckWork.refl (s : State) : AckWork s s := ⟨FlowsKept.refl s, id, rfl⟩

theorem AckWork.trans {s t u : State} (h : AckWork s t) (k : AckWork t u) : AckWork s u :=
  ⟨h.kept.trans k.kept, fun q => k.fault (h.fault q), k.crc.trans h.crc⟩

theorem MemWork.ackWork {s t : State} (h : MemWork s t) : AckWork s t := ⟨h.kept, h.fault, h.obj _ (by decide)⟩

/-- Flows that stand, and a step and objects that stand. -/
theorem AckWork.of_same {s t : State} (hf : t.flows = s.flows) (hs : t.step = s.step) (ho : t.od = s.od) : AckWork s t :=
  ⟨FlowsKept.of_flows hf, fun q => by rw [hs]; exact q, State.obj_congr _ ho⟩

theorem FlowWork.ackWork {s t : State} (h : FlowWork s t) (k : FlowsKept s t) : AckWork s t :=
  ⟨k, fun q => by obtain ⟨_, _, rfl⟩ := h; exact q, h.obj _⟩

theorem State.pump_flowWork (s : State) (n : Nat) : FlowWork s (s.pump n) := by
  obtain ⟨f, r, e⟩ := pump_shape s n
  exact ⟨f, r, e⟩

theorem State.sendMessage_flowWork (s : State) (n ty : Nat) (ps : List Piece) (step attempt kind : Nat) :
    FlowWork s (s.sendMessage n ty ps step attempt kind) := by
  obtain ⟨f, r, e⟩ := sendMessage_shape s n ty ps step attempt kind
  exact ⟨f, r, e⟩

theorem State.raiseWith_memWork (s : State) (e : Ev) (cls : Nat) (dk : Option Nat) (detail : Nat) :
    MemWork s (s.raiseWith e cls dk detail) := (s.raiseWith_logs ..).memWork (s.raiseWith_kept ..) (s.raiseWith_kinds ..)

theorem State.post_ackWork (s : State) (q : QueueEntry) (kind : Nat) (body : Bytes) : AckWork s (s.post q kind body) := by
  have hr : AckWork s (s.postRecord q kind body).1 := by
    obtain ⟨⟨_, _, _, _, _, e⟩, ho⟩ := s.postRecord_shape q kind body
    exact ⟨s.postRecord_kept q kind body, fun h => by rw [e]; exact h, ho _ (by decide)⟩
  unfold State.post
  extract_lets r
  split
  · exact hr.trans (State.raise_memWork ..).ackWork
  · exact hr

theorem State.completeWindow_ackWork (s : State) (w : Window) : AckWork s (s.completeWindow w) := by
  unfold State.completeWindow
  extract_lets st t n st' u v
  have ht : AckWork s t := by
    show AckWork s (if w.touched = true then _ else s)
    split
    · exact (State.storeBy_memWork ..).ackWork
    · exact AckWork.refl s
  have hu : AckWork s u := ht.trans (AckWork.of_same rfl rfl rfl)
  have hv : AckWork s v := by
    show AckWork s (if w.touched = true ∧ w.maxTouched < n then u.boundExceeded else u)
    split
    · exact hu.trans ((State.poison_memWork ..).trans (State.raiseWith_memWork ..)).ackWork
    · exact hu
  split
  · exact hv.trans (State.post_ackWork ..)
  · exact hv

theorem State.settleShard_ackWork (s : State) (j : Job) : AckWork s (s.settleShard j) := by
  unfold State.settleShard
  extract_lets x t
  have ht : AckWork s t := AckWork.of_same rfl rfl rfl
  split
  · split
    · exact ht.trans (State.completeWindow_ackWork ..)
    · exact ht
  · exact AckWork.refl s

theorem State.settleShards_ackWork (s : State) : AckWork s s.settleShards :=
  List.foldlRecOn _ _ (motive := fun t => AckWork s t) (AckWork.refl s) (fun t ht j _ => ht.trans (t.settleShard_ackWork j))

theorem State.sendPiece_ackWork (s : State) (x : SnapSt) (e : Nat × Nat × Nat × Nat) : AckWork s (s.sendPiece x e) := by
  unfold State.sendPiece
  split
  · extract_lets l
    exact (s.readPhys_memWork .snapshot e.2.1 e.2.2.2).ackWork.trans
      ((State.sendMessage_flowWork ..).ackWork (State.sendMessage_kept ..))
  · exact AckWork.refl s

theorem State.streamPieces_ackWork (k : Nat) (s : State) : AckWork s (State.streamPieces k s) := by
  induction k generalizing s with
  | zero => exact AckWork.refl s
  | succ k ih =>
    rw [State.streamPieces]
    split
    next x _ =>
      split
      next e rest _ =>
        extract_lets f st t
        split
        · have ht : AckWork s t := ⟨FlowsKept.of_flows rfl, id, rfl⟩
          exact ht.trans ((State.sendPiece_ackWork ..).trans (ih _))
        · exact AckWork.refl s
      next => exact AckWork.refl s
    next => exact AckWork.refl s

theorem State.cutSnapshot_ackWork (s : State) : AckWork s s.cutSnapshot := by
  unfold State.cutSnapshot
  split
  · exact ⟨FlowsKept.of_flows rfl, id, State.obj_setObj_ne _ _ (by decide)⟩
  · exact AckWork.refl s

/-! ### ACK -/

/-- The flow with the packets and messages that an ACK covers taken off it. -/
def State.ackCovered (s : State) (p : Packet) : State :=
  let f := s.flow p.flow.toNat
  s.setFlow p.flow.toNat { f with
    unacked := f.unacked.filter (fun x => !acked (p.field 32 3) (p.field 48 8 + p.msgCrc.toNat * 2 ^ 64) x.psn)
    openMsgs := f.openMsgs.filter (fun o => !decide ((p.field 36 4 + 2 ^ 32 - o.id) % 2 ^ 32 < 2 ^ 31)) }

/-- A failed CRC reported by an ACK (R355). -/
def State.crcReported (s : State) (p : Packet) (named : Bool) : State :=
  if p.field 40 1 = 3 ∧ named = true then
    let u := s.bump oCrcFailCount
    if u.admitted then (u.poison false).raiseAt .flowCrcFail 0 1 else u.raiseAt .flowCrcFail 0 0
  else s

/-- The snapshot cut off whose message an ACK reports failed. -/
def State.snapshotReported (s : State) (p : Packet) (kind : Bool) : State :=
  if p.field 40 1 ≠ 0 ∧ kind = true then s.cutSnapshot else s

theorem State.takeAck_eq (s : State) (p : Packet) :
    let named := (s.flow p.flow.toNat).openMsgs.find? (fun o => o.id == p.field 36 4)
    ∃ kind, s.takeAck p = (((s.ackCovered p).crcReported p named.isSome).snapshotReported p kind).pump p.flow.toNat :=
  ⟨_, rfl⟩

theorem State.snapshotReported_ackWork (s : State) (p : Packet) (kind : Bool) : AckWork s (s.snapshotReported p kind) := by
  unfold State.snapshotReported
  split
  · exact s.cutSnapshot_ackWork
  · exact AckWork.refl s

theorem State.crcReported_kept (s : State) (p : Packet) (named : Bool) : FlowsKept s (s.crcReported p named) := by
  unfold State.crcReported
  split
  · extract_lets u
    have hu : FlowsKept s u := FlowsKept.of_flows (s.bump_flows _).1
    split
    · exact hu.trans ((State.poison_memWork ..).kept.trans (State.raiseAt_kept ..))
    · exact hu.trans (State.raiseAt_kept ..)
  · exact FlowsKept.refl s

/-- A failed CRC counted, and the step POISONED. -/
theorem State.crcReported_failed {s : State} {p : Packet} (h : p.field 40 1 = 3) (ha : s.admitted = true) :
    (s.crcReported p true).step.fault = true ∧
    (s.crcReported p true).obj oCrcFailCount = (s.obj oCrcFailCount + 1) % 2 ^ objBits oCrcFailCount := by
  unfold State.crcReported
  rw [if_pos ⟨h, rfl⟩]
  have hv := s.bump_obj_self oCrcFailCount
  have hu : (s.bump oCrcFailCount).admitted = true := by
    rw [State.admitted_congr (State.bump_obj_ne _ (by decide)), ha]
  dsimp only
  rw [if_pos hu]
  generalize s.bump oCrcFailCount = u at hv hu
  have hl := (u.poison false).raiseAt_logs .flowCrcFail 0 1
  refine ⟨by rw [hl.step]; exact (State.poison_step false hu).1, ?_⟩
  rw [hl.obj _ (by decide), State.poison_obj, hv]

/-- An ACK that is good at the flow that it names (R351). -/
theorem exec_ack (p : Packet) (s : State) :
    exec (.ack p) s = .next (if (headOk 0x0A p && !p.noFlow &&
      (match s.activePlan with | some q => q.id % 256 == p.epoch.toNat | none => false) && (s.flow p.flow.toNat).state == 1 &&
      (if (s.flow p.flow.toNat).host then p.srcHost else !p.srcHost && (s.flow p.flow.toNat).peer == p.src.toNat)) = true
      then (s.quiet.takeAck p).settleShards.pumpSnapshot else s.quiet.badHead) := by
  have hlt : p.epoch.toNat < 256 := p.epoch.isLt
  show execAck p s = _
  unfold execAck
  extract_lets u f epoch
  have hep : (match s.activePlan with | some q => q.id % 256 == p.epoch.toNat | none => false) = decide (p.epoch.toNat = epoch) := by
    show _ = decide (p.epoch.toNat = (match s.activePlan with | some q => q.id % 256 | none => 256))
    cases s.activePlan with
    | none => exact (decide_eq_false (show ¬p.epoch.toNat = 256 by omega)).symm
    | some q => exact Bool.eq_iff_iff.mpr (by rw [beq_iff_eq, decide_eq_true_iff]; exact eq_comm)
  rw [hep]
  show _ = Host.Outcome.next (if (headOk 0x0A p && !p.noFlow && decide (p.epoch.toNat = epoch) && f.state == 1 &&
    (if f.host then p.srcHost else !p.srcHost && f.peer == p.src.toNat)) = true then _ else _)
  generalize (if f.host then p.srcHost else !p.srcHost && f.peer == p.src.toNat) = peer
  by_cases h1 : headOk 0x0A p = false ∨ p.noFlow = true
  · rw [if_pos h1, if_neg]
    simp only [Bool.and_eq_true, Bool.not_eq_true']
    rintro ⟨⟨⟨⟨q1, q2⟩, -⟩, -⟩, -⟩
    rcases h1 with h1 | h1
    · exact absurd (h1.symm.trans q1) Bool.noConfusion
    · exact absurd (h1.symm.trans q2) Bool.noConfusion
  · rw [if_neg h1]
    rw [not_or, Bool.not_eq_false, Bool.not_eq_true] at h1
    rw [h1.1, h1.2]
    by_cases h2 : p.epoch.toNat ≠ epoch ∨ f.state ≠ 1 ∨ peer = false
    · rw [if_pos h2, if_neg]
      simp only [Bool.and_eq_true, decide_eq_true_eq, beq_iff_eq]
      rintro ⟨⟨⟨-, q1⟩, q2⟩, q3⟩
      rcases h2 with h2 | h2 | h2
      · exact h2 q1
      · exact h2 q2
      · exact Bool.false_ne_true (h2.symm.trans q3)
    · rw [if_neg h2, if_pos]
      rw [not_or, not_or, Classical.not_not, Classical.not_not, Bool.not_eq_false] at h2
      rw [decide_eq_true h2.1, h2.2.1, h2.2.2]
      rfl

theorem State.ackCovered_flow (s : State) (p : Packet) :
    ((s.ackCovered p).flow p.flow.toNat).unacked = (s.flow p.flow.toNat).unacked.filter
      (fun x => !acked (p.field 32 3) (p.field 48 8 + p.msgCrc.toNat * 2 ^ 64) x.psn) ∧
    ((s.ackCovered p).flow p.flow.toNat).waiting = (s.flow p.flow.toNat).waiting := by
  have h : (s.ackCovered p).flow p.flow.toNat = _ := (s.flow_setFlow p.flow.toNat _ p.flow.toNat).trans (if_pos rfl)
  rw [h]
  exact ⟨rfl, rfl⟩

theorem State.ackCovered_work (s : State) (p : Packet) : FlowWork s (s.ackCovered p) := FlowWork.setFlow ..

/-- A flow with nothing waiting sends nothing. -/
theorem State.pump_idle {s : State} {n : Nat} (h : (s.flow n).waiting = []) : s.pump n = s.setFlow n (s.flow n) := by
  have hp : pumpFlow s.now (s.flow n).waiting.length (s.flow n) = (s.flow n, []) := by rw [h]; rfl
  unfold State.pump
  simp only [hp]
  rfl

theorem State.settleShards_none {s : State} (h : s.shards = []) : s.settleShards = s := by
  refine List.foldlRecOn _ _ (motive := fun t : State => t = s) rfl (fun t ht j _ => ?_)
  rw [ht, State.settleShard]
  refine if_neg (fun q => ?_)
  have hs : s.shard j.w.num = ShardSt.init := by
    rw [State.shard, h]
    rfl
  rw [hs] at q
  exact absurd q.1 (by decide)

theorem State.pumpSnapshot_none {s : State} (h : s.step.snap = none) : s.pumpSnapshot = s := by
  unfold State.pumpSnapshot State.streamPieces
  rw [h]

/-! ### The ACK timer and the resend timeout -/

theorem State.sendAck_router (s : State) (n : Nat) : (s.sendAck n).router.length = s.router.length + 1 :=
  List.length_append

theorem exec_ackTimer {flow : BitVec 12} {s : State} {d : Nat} (h : (s.flow flow.toNat).ackDue = some d) :
    exec (.ackTimer flow) s = .next ((s.quiet.advanceTo d).sendAck flow.toNat) := by
  show execAckTimer flow s = _
  unfold execAckTimer
  simp only [show (s.quiet.flow flow.toNat).ackDue = some d from h]

theorem State.advanceTo_flows (s : State) (n : Nat) :
    (s.advanceTo n).flows = s.flows ∧ (s.advanceTo n).router = s.router := ⟨rfl, rfl⟩

theorem ackTimer_gives {flow : BitVec 12} {s : State} {d : Nat} (h : (s.flow flow.toNat).ackDue = some d) :
    Gives (.ackTimer flow) s (fun t => d ≤ t.now ∧ (t.flow flow.toNat).ackDue = none ∧ (t.flow flow.toNat).sinceAck = 0 ∧
      t.router.length = s.router.length + 1 ∧ t.od = s.od ∧ t.mem = s.mem) := by
  refine ⟨_, exec_ackTimer h, ?_⟩
  have hn : d ≤ (s.quiet.advanceTo d).now := s.quiet.advanceTo_le d
  obtain ⟨-, ho, hm⟩ := s.quiet.advanceTo_frame d
  have hr := (s.quiet.advanceTo_flows d).2
  generalize s.quiet.advanceTo d = u at hn ho hm hr
  have hw := u.sendAck_flowWork flow.toNat
  have hnow : (u.sendAck flow.toNat).now = u.now := by obtain ⟨_, _, e⟩ := hw; rw [e]
  refine ⟨hnow ▸ hn, ?_, ?_, ?_, hw.od.trans ho, hw.mem.trans hm⟩
  · rw [u.sendAck_flow]
  · rw [u.sendAck_flow]
  · rw [u.sendAck_router, hr]
    rfl

/-- The packet named sent again from the state `u` at its time (R352). -/
def State.resent (s u : State) (n : Nat) (x : TxPacket) : State :=
  let f := s.flow n
  let y := { x with resends := x.resends + 1, sentAt := u.now, bytes := readdress s f x.bytes }
  ((u.setFlow n { f with unacked := f.unacked.map (fun z => if z.psn == x.psn then y else z) }).bump oResends).inject y.bytes

/-- The flow FAILED at its time (R352). -/
def State.flowFailed (s u : State) (n : Nat) (x : TxPacket) : State :=
  let fail := x.psn + x.resends * 2 ^ 24 + u.bell.beat % 2 ^ 32 * 2 ^ 32
  let v := u.setFlow n { s.flow n with state := 2, lastFail := fail }
  (v.setObj oFlowsOpen (v.obj oFlowsOpen - 1)).bump oFlowFailedCount

/-- RTO_EXPIRY of a packet of an open flow, `n` being its moment. -/
theorem exec_rtoExpiry {flow : BitVec 12} {psn : BitVec 24} {s : State} {x : TxPacket}
    (h : (s.flow flow.toNat).unacked.find? (fun y => y.psn == psn.toNat) = some x) (hs : (s.flow flow.toNat).state = 1) :
    ∃ u, u = s.quiet.advanceTo (x.sentAt + s.obj oRtoBaseUs * 1000 * 2 ^ x.resends) ∧
    exec (.rtoExpiry flow psn) s = .next (if 8 ≤ x.resends then
        (let v := s.flowFailed u flow.toNat x
         if v.admitted then (v.raiseAt .flowFailed 0 3).faultC else v.raiseAt .flowFailed 0 0)
      else s.resent u flow.toNat x) := by
  refine ⟨_, rfl, ?_⟩
  show execRtoExpiry flow psn s = _
  unfold execRtoExpiry
  have hf : (s.quiet.flow flow.toNat).unacked.find? (fun y => y.psn == psn.toNat) = some x := h
  have hst : ¬(s.quiet.flow flow.toNat).state ≠ 1 := Classical.not_not.mpr hs
  simp only [hf, if_neg hst]
  by_cases h8 : 8 ≤ x.resends
  · rw [if_pos h8, if_pos h8]
    exact (apply_ite Host.Outcome.next _ _ _).symm
  · rw [if_neg h8, if_neg h8]
    rfl

theorem State.bump_router (s : State) (k : Nat) :
    (s.bump k).router = s.router ∧ (s.bump k).flows = s.flows ∧ (s.bump k).mem = s.mem ∧ (s.bump k).now = s.now :=
  ⟨rfl, rfl, rfl, rfl⟩

theorem State.inject_spec (s : State) (b : Bytes) :
    (s.inject b).router.map (fun r => r.data) = s.router.map (fun r => r.data) ++ [b] ∧ (s.inject b).flows = s.flows ∧
    (s.inject b).od = s.od ∧ (s.inject b).mem = s.mem ∧ (s.inject b).now = s.now :=
  ⟨List.map_append, rfl, rfl, rfl, rfl⟩

/-- The first packet of a number is still the first after it was sent again. -/
theorem find?_resent (l : List TxPacket) (x y : TxPacket) (n : Nat) (h : l.find? (fun z => z.psn == n) = some x)
    (hy : y.psn = x.psn) : (l.map (fun z => if z.psn == x.psn then y else z)).find? (fun z => z.psn == n) = some y := by
  have hx : x.psn = n := beq_iff_eq.mp (List.find?_some (p := fun z : TxPacket => z.psn == n) h)
  induction l with
  | nil => cases h
  | cons z l ih =>
    rw [List.map_cons]
    by_cases hz : z.psn = n
    · rw [if_pos (beq_iff_eq.mpr (hz.trans hx.symm))]
      exact List.find?_cons_of_pos (beq_iff_eq.mpr (hy.trans hx))
    · rw [if_neg (fun q => hz ((beq_iff_eq.mp q).trans hx)), List.find?_cons_of_neg (p := fun z : TxPacket => z.psn == n) (fun q => hz (beq_iff_eq.mp q))]
      rw [List.find?_cons_of_neg (p := fun z : TxPacket => z.psn == n) (fun q => hz (beq_iff_eq.mp q))] at h
      exact ih h

/-- What a resend leaves. -/
theorem State.resent_spec {s u : State} {n : Nat} {x : TxPacket} {m : Nat}
    (h : (s.flow n).unacked.find? (fun y => y.psn == m) = some x) (hs : (s.flow n).state = 1) :
    ((s.resent u n x).flow n).state = 1 ∧ (s.resent u n x).now = u.now ∧
    (s.resent u n x).router.map (fun r => r.data) =
      u.router.map (fun r => r.data) ++ [readdress s (s.flow n) x.bytes] ∧
    (((s.resent u n x).flow n).unacked.find? (fun y => y.psn == m)).map (fun y => y.resends) = some (x.resends + 1) ∧
    SameObj u (s.resent u n x) [oResends] ∧ (s.resent u n x).mem = u.mem := by
  unfold State.resent
  extract_lets f y
  obtain ⟨g, hg, hgu⟩ : ∃ g : FlowSt, g.state = f.state ∧
      g.unacked = f.unacked.map (fun z => if z.psn == x.psn then y else z) ∧
      g = { f with unacked := f.unacked.map (fun z => if z.psn == x.psn then y else z) } :=
    ⟨{ f with unacked := f.unacked.map (fun z => if z.psn == x.psn then y else z) }, rfl, rfl, rfl⟩
  rw [← hgu.2]
  obtain ⟨v, hve⟩ : ∃ v, v = u.setFlow n g := ⟨_, rfl⟩
  rw [← hve]
  have hv : v.flow n = g := hve ▸ (u.flow_setFlow n _ n).trans (if_pos rfl)
  have hw : FlowWork u v := hve ▸ FlowWork.setFlow ..
  have hvr : v.router = u.router := by rw [hve]; rfl
  have hvn : v.now = u.now := by rw [hve]; rfl
  obtain ⟨b1, b2, b3, b4⟩ := v.bump_router oResends
  have bo : SameObj v (v.bump oResends) [oResends] := (SameObj.refl v _).setObj _ (List.mem_singleton.mpr rfl)
  generalize v.bump oResends = b at b1 b2 b3 b4 bo
  obtain ⟨i1, i2, i3, i4, i5⟩ := b.inject_spec y.bytes
  have hf : (b.inject y.bytes).flow n = g := (State.flow_of_flows (i2.trans b2) n).trans hv
  refine ⟨?_, i5.trans (b4.trans hvn), ?_, ?_, fun k hk => ?_, i4.trans (b3.trans hw.mem)⟩
  · rw [hf, hg]
    exact hs
  · rw [i1, b1, hvr]
  · rw [hf, hgu.1, find?_resent _ x y m h rfl]
    rfl
  · rw [State.obj_congr k i3, bo k hk, hw.obj]

/-- What the failure of a flow leaves (R352). -/
theorem State.flowFailed_spec (s u : State) (n : Nat) (x : TxPacket) :
    ((s.flowFailed u n x).flow n).state = 2 ∧
    (s.flowFailed u n x).obj oFlowFailedCount = (u.obj oFlowFailedCount + 1) % 2 ^ objBits oFlowFailedCount ∧
    SameObj u (s.flowFailed u n x) [oFlowsOpen, oFlowFailedCount] := by
  unfold State.flowFailed
  extract_lets fail st v
  have hv : (v.flow n).state = 2 := congrArg FlowSt.state ((u.flow_setFlow n _ n).trans (if_pos rfl))
  have hw : FlowWork u v := FlowWork.setFlow ..
  clear_value v
  have hs : SameObj v (v.setObj oFlowsOpen (v.obj oFlowsOpen - 1)) [oFlowsOpen] :=
    (SameObj.refl v _).setObj _ (List.mem_singleton.mpr rfl)
  have hf : (v.setObj oFlowsOpen (v.obj oFlowsOpen - 1)).flows = v.flows := State.setObj_flows ..
  generalize v.setObj oFlowsOpen (v.obj oFlowsOpen - 1) = w at hs hf
  have hb : SameObj w (w.bump oFlowFailedCount) [oFlowFailedCount] := (SameObj.refl w _).setObj _ (List.mem_singleton.mpr rfl)
  refine ⟨?_, ?_, SameObj.trans (SameObj.mono (hw.same [oFlowsOpen]) (by decide)) ((hs.mono (by decide)).trans (hb.mono (by decide)))⟩
  · rw [State.flow_of_flows ((w.bump_router oFlowFailedCount).2.1.trans hf), hv]
  · rw [State.bump_obj_self, hs _ (by decide), hw.obj]

/-- RTO_EXPIRY before the eighth resend. -/
theorem rtoExpiry_resends {flow : BitVec 12} {psn : BitVec 24} {s : State} {x : TxPacket}
    (hs : (s.flow flow.toNat).state = 1) (h : (s.flow flow.toNat).unacked.find? (fun y => y.psn == psn.toNat) = some x)
    (h8 : x.resends < 8) :
    Gives (.rtoExpiry flow psn) s (fun t => (t.flow flow.toNat).state = 1 ∧
      x.sentAt + s.obj oRtoBaseUs * 1000 * 2 ^ x.resends ≤ t.now ∧
      t.router.map (fun r => r.data) = s.router.map (fun r => r.data) ++ [readdress s (s.flow flow.toNat) x.bytes] ∧
      ((t.flow flow.toNat).unacked.find? (fun y => y.psn == psn.toNat)).map (fun y => y.resends) = some (x.resends + 1) ∧
      SameObj s t [oResends] ∧ t.mem = s.mem) := by
  obtain ⟨u, hu, hx⟩ := exec_rtoExpiry h hs
  rw [if_neg (Nat.not_le.mpr h8)] at hx
  have hn : x.sentAt + s.obj oRtoBaseUs * 1000 * 2 ^ x.resends ≤ u.now := hu ▸ s.quiet.advanceTo_le _
  have ho : SameObj s u [] := fun k _ => hu ▸ s.quiet.advanceTo_obj _ k
  have hr : u.router = s.router := by
    rw [hu, (s.quiet.advanceTo_flows _).2]
    rfl
  have hm : u.mem = s.mem := by
    rw [hu, (s.quiet.advanceTo_frame _).2.2]
    rfl
  clear hu
  obtain ⟨r1, r2, r3, r4, r5, r6⟩ := State.resent_spec (u := u) h hs
  exact ⟨_, hx, r1, r2 ▸ hn, r3.trans (by rw [hr]), r4, (ho.mono (by decide)).trans r5, r6.trans hm⟩

/-- RTO_EXPIRY after the eighth resend. -/
theorem rtoExpiry_fails {flow : BitVec 12} {psn : BitVec 24} {s : State} {x : TxPacket}
    (hs : (s.flow flow.toNat).state = 1) (h : (s.flow flow.toNat).unacked.find? (fun y => y.psn == psn.toNat) = some x)
    (h8 : 8 ≤ x.resends) :
    Gives (.rtoExpiry flow psn) s (fun t => t.obj oFlowFailedCount = (s.obj oFlowFailedCount + 1) % 2 ^ 32 ∧
      (s.admitted = false → (t.flow flow.toNat).state = 2 ∧
        SameObj s t ([oFlowsOpen, oFlowFailedCount] ++ eventKeys)) ∧
      (s.admitted = true → t.planState = 1)) := by
  obtain ⟨u, hu, hx⟩ := exec_rtoExpiry h hs
  rw [if_pos h8] at hx
  refine ⟨_, hx, ?_⟩
  have ho : SameObj s u [] := fun k _ => hu ▸ s.quiet.advanceTo_obj _ k
  clear hu hx
  obtain ⟨f1, f2, f3⟩ := s.flowFailed_spec u flow.toNat x
  generalize s.flowFailed u flow.toNat x = v at f1 f2 f3
  have ha : v.admitted = s.admitted := State.admitted_congr ((f3 _ (by decide)).trans (ho _ (by decide)))
  have hc : v.obj oFlowFailedCount = (s.obj oFlowFailedCount + 1) % 2 ^ 32 := by
    rw [f2, ho _ (by decide)]
    rfl
  dsimp only
  rw [ha]
  cases hadm : s.admitted with
  | true =>
    rw [if_pos rfl]
    have hl := v.raiseAt_logs .flowFailed 0 3
    refine ⟨?_, nofun, fun _ => State.faultC_planState ?_⟩
    · rw [State.faultC_sameObj _ _ (by decide), hl.obj _ (by decide), hc]
    · rw [State.admitted_congr (hl.obj _ (by decide)), ha, hadm]
  | false =>
    rw [if_neg Bool.false_ne_true]
    have hl := v.raiseAt_logs .flowFailed 0 0
    refine ⟨(hl.obj _ (by decide)).trans hc, fun _ => ⟨?_, ?_⟩, nofun⟩
    · rw [((v.raiseAt_kept .flowFailed 0 0).flow _).state, f1]
    · exact (SameObj.mono ho (by decide)).trans ((f3.mono (by decide)).trans (hl.sameObj.mono (by decide)))

theorem rtoExpiry_idle {flow : BitVec 12} {psn : BitVec 24} {s : State}
    (h : (s.flow flow.toNat).state ≠ 1 ∨ (s.flow flow.toNat).unacked.find? (fun y => y.psn == psn.toNat) = none) :
    exec (.rtoExpiry flow psn) s = .next s.quiet := by
  show execRtoExpiry flow psn s = _
  unfold execRtoExpiry
  cases hf : (s.flow flow.toNat).unacked.find? (fun y => y.psn == psn.toNat) with
  | none => simp only [show (s.quiet.flow flow.toNat).unacked.find? (fun y => y.psn == psn.toNat) = none from hf]
  | some x =>
    rw [hf] at h
    have hs : (s.quiet.flow flow.toNat).state ≠ 1 := h.resolve_right nofun
    simp only [show (s.quiet.flow flow.toNat).unacked.find? (fun y => y.psn == psn.toNat) = some x from hf, if_pos hs]

/-- Settles O36. -/
theorem acksAndTimeouts : Obligations.AcksAndTimeouts := by
  unfold Obligations.AcksAndTimeouts
  refine ⟨?_, fun flow s => ⟨fun d => ackTimer_gives, fun h => ?_⟩, fun flow psn s => ⟨fun x => rtoExpiry_resends,
    fun x => rtoExpiry_fails, rtoExpiry_idle⟩⟩
  · intro p s f g good
    have hx := exec_ack p s
    have hgood : ∀ h : good = true, exec (.ack p) s = .next (s.quiet.takeAck p).settleShards.pumpSnapshot := fun h =>
      hx.trans (congrArg Host.Outcome.next (if_pos h))
    obtain ⟨kind, hk⟩ := s.quiet.takeAck_eq p
    obtain ⟨c1, c2⟩ := s.quiet.ackCovered_flow p
    have cw := s.quiet.ackCovered_work p
    generalize s.quiet.ackCovered p = u at hk c1 c2 cw
    refine ⟨fun h => hx.trans (congrArg Host.Outcome.next (if_neg (fun q => Bool.false_ne_true (h.symm.trans q)))), fun h =>
      ⟨⟨_, hgood h, ?_⟩, fun hwait h0 hsnap hsh => ⟨_, hgood h, ?_⟩, fun h3 hnamed => ⟨_, hgood h, ?_⟩⟩⟩
    · have hkept : FlowsKept u (s.quiet.takeAck p).settleShards.pumpSnapshot := by
        rw [hk]
        exact (u.crcReported_kept p _).trans ((State.snapshotReported_ackWork ..).kept.trans ((State.pump_kept ..).trans
          ((State.settleShards_ackWork _).kept.trans (State.streamPieces_ackWork ..).kept)))
      have := (hkept.flow p.flow.toNat).unacked
      rw [c1] at this
      exact this
    · have hcrc : ∀ b, u.crcReported p b = u := fun b => if_neg (by rw [h0]; rintro ⟨q, -⟩; exact absurd q (by decide))
      have hsr : u.snapshotReported p kind = u := if_neg (by rw [h0]; rintro ⟨q, -⟩; exact q rfl)
      rw [hcrc, hsr, State.pump_idle (c2.trans hwait)] at hk
      have hpw : FlowWork s.quiet (s.quiet.takeAck p) := hk ▸ cw.trans (FlowWork.setFlow ..)
      have hpf : (s.quiet.takeAck p).flow p.flow.toNat = u.flow p.flow.toNat := by
        rw [hk]
        exact (u.flow_setFlow _ _ _).trans (if_pos rfl)
      generalize s.quiet.takeAck p = v at hpw hpf
      have hv1 : v.shards = [] := by obtain ⟨_, _, e⟩ := hpw; rw [e]; exact hsh
      have hv2 : v.step.snap = none := by obtain ⟨_, _, e⟩ := hpw; rw [e]; exact hsnap
      rw [State.settleShards_none hv1, State.pumpSnapshot_none hv2]
      exact ⟨fun k _ => hpw.obj k, hpw.mem, (congrArg FlowSt.unacked hpf).trans c1⟩
    · have ha : s.admitted = true := by
        have hq : (match s.activePlan with | some q => q.id % 256 == p.epoch.toNat | none => false) = true := by
          have h' : (headOk 0x0A p && !p.noFlow &&
            (match s.activePlan with | some q => q.id % 256 == p.epoch.toNat | none => false) && f.state == 1 &&
            (if f.host then p.srcHost else !p.srcHost && f.peer == p.src.toNat)) = true := h
          simp only [Bool.and_eq_true] at h'
          exact h'.1.1.2
        refine Classical.byContradiction fun hn => ?_
        rw [State.activePlan, if_neg hn] at hq
        exact Bool.false_ne_true hq
      have hau : u.admitted = true := (State.admitted_congr (cw.obj _)).trans ha
      rw [show ((s.quiet.flow p.flow.toNat).openMsgs.find? (fun o => o.id == p.field 36 4)).isSome = true from hnamed] at hk
      obtain ⟨f1, f2⟩ := State.crcReported_failed h3 hau
      have hw : AckWork (u.crcReported p true) (s.quiet.takeAck p).settleShards.pumpSnapshot := by
        rw [hk]
        exact (State.snapshotReported_ackWork ..).trans (((State.pump_flowWork ..).ackWork (State.pump_kept ..)).trans
          ((State.settleShards_ackWork _).trans (State.streamPieces_ackWork ..)))
      refine ⟨hw.fault f1, ?_⟩
      rw [hw.crc, f2, cw.obj]
      rfl
  · show execAckTimer flow s = _
    unfold execAckTimer
    simp only [show (s.quiet.flow flow.toNat).ackDue = none from h]

end Sys2Proof.Machine

namespace Sys2Proof.Machine

/-! ### Lane C frames of the links' retry -/

theorem State.canSend_congr {s t : State} {p : Nat} (h1 : t.obj (oDomainState 36) = s.obj (oDomainState 36))
    (h2 : t.obj (oClState p) = s.obj (oClState p)) : t.canSend p = s.canSend p := by
  simp only [State.canSend, State.keeperOn, State.dom, State.activeLaser, h1, h2]

theorem State.ctlFrame_sent {s : State} {p : Nat} (h : s.canSend p = true) (type : Nat) (seq : Option Nat) (body : Bytes) :
    s.ctlFrame p type seq body = s.emit (.frame p (frameBytes type seq body)) := if_pos h

theorem State.ctlFrame_unsent {s : State} {p : Nat} (h : s.canSend p = false) (type : Nat) (seq : Option Nat) (body : Bytes) :
    s.ctlFrame p type seq body = s := if_neg (fun q => Bool.false_ne_true (h.symm.trans q))

/-- A frame on lane C changes the output alone. -/
theorem State.ctlFrame_out (s : State) (p type : Nat) (seq : Option Nat) (body : Bytes) :
    ∃ out, s.ctlFrame p type seq body = { s with out := out } ∧
      (s.canSend p = true → out = s.out ++ [.frame p (frameBytes type seq body)]) := by
  cases h : s.canSend p with
  | true => exact ⟨_, State.ctlFrame_sent h .., fun _ => rfl⟩
  | false => exact ⟨_, State.ctlFrame_unsent h .., nofun⟩

theorem State.txLink_setTxLink (s : State) (k : Nat) (t : TxLink) (j : Nat) :
    (s.setTxLink k t).txLink j = if j = k then t else s.txLink j := Bank.get_set ..

theorem State.rxLink_setRxLink (s : State) (k : Nat) (r : RxLink) (j : Nat) :
    (s.setRxLink k r).rxLink j = if j = k then r else s.rxLink j := Bank.get_set ..

theorem State.txLink_congr {s t : State} (h : t.txLinks = s.txLinks) (k : Nat) : t.txLink k = s.txLink k := by
  rw [State.txLink, h]
  rfl

/-- The link that a NAK names set to resend (R318). -/
def State.nakTaken (s : State) (k seq : Nat) (failSeq fails lanes : Nat) : State :=
  (s.quiet.setTxLink k { s.txLink k with
    resend := some seq, resendAt := s.now + 128, mask := lanes, failSeq := failSeq, fails := fails }).bump (oReplays (k / 8))

/-- How often in a row the groups from a SEQ have failed. -/
def nakFails (t : TxLink) (seq : Nat) : Nat :=
  let again := decide (t.failSeq = seq) && t.resend != some seq && decide (t.fails ≠ 0)
  if again then t.fails + 1 else if t.failSeq = seq ∧ t.fails ≠ 0 then t.fails else 1

theorem exec_nakFrame (port : Port) {l : LinkName} (seq : BitVec 12) {s : State} {k : Nat}
    (h : l.place.toNat = s.place ∧ l.port.toNat < 24) (hk : s.linkKey l.port.toNat false l.lane.val = some k) :
    ∃ fails,
      let u := (s.nakTaken k seq.toNat seq.toNat fails (s.lanesInUse k false)).ctlFrame (k / 8) 0x05 none
        (linkBytes l ++ natLe 2 seq.toNat ++ natLe 1 (s.lanesInUse k false))
      exec (.nakFrame port l seq) s = .next u ∨
      exec (.nakFrame port l seq) s = .next (u.raiseAt .linkRetryExhausted (k / 8) 0) := by
  have hx : exec (.nakFrame port l seq) s = execNakFrame port l seq s := rfl
  rw [hx]
  unfold execNakFrame
  dsimp only
  rw [if_pos (show l.place.toNat = s.quiet.place ∧ l.port.toNat < 24 from h),
    show s.quiet.linkKey l.port.toNat false l.lane.val = some k from hk]
  dsimp only
  refine ⟨if 5 ≤ nakFails (s.txLink k) seq.toNat then 0 else nakFails (s.txLink k) seq.toNat, ?_⟩
  by_cases h5 : 5 ≤ nakFails (s.txLink k) seq.toNat
  · exact .inr (congrArg Host.Outcome.next (if_pos h5))
  · exact .inl (congrArg Host.Outcome.next (if_neg h5))

theorem State.nakTaken_spec (s : State) (k seq failSeq fails lanes : Nat) :
    let t := s.nakTaken k seq failSeq fails lanes
    (t.txLink k).resend = some seq ∧ (t.txLink k).resendAt = s.now + 128 ∧ (t.txLink k).groups = (s.txLink k).groups ∧
    (∀ j, j ≠ k → t.txLink j = s.txLink j) ∧ SameObj s t [oReplays (k / 8)] ∧ t.out = [] := by
  have e : (s.nakTaken k seq failSeq fails lanes).txLinks = (s.quiet.setTxLink k { s.txLink k with
      resend := some seq, resendAt := s.now + 128, mask := lanes, failSeq := failSeq, fails := fails }).txLinks := by
    unfold State.nakTaken
    exact State.setObj_txLinks ..
  have hself := (State.txLink_congr e k).trans ((s.quiet.txLink_setTxLink k _ k).trans (if_pos rfl))
  refine ⟨by rw [hself], by rw [hself], by rw [hself], fun j hj =>
    (State.txLink_congr e j).trans ((s.quiet.txLink_setTxLink k _ j).trans (if_neg hj)), ?_, ?_⟩
  · exact SameObj.setObj (t := s.quiet.setTxLink k _) (fun _ _ => rfl) _ (List.mem_singleton.mpr rfl)
  · unfold State.nakTaken
    exact State.setObj_out ..

theorem oReplays_ne (p q : Nat) : oReplays p ≠ oDomainState 36 ∧ oReplays p ≠ oClState q := by
  simp only [oReplays, oDomainState, oClState, objKey]
  omega

theorem nakFrame_gives (port : Port) {l : LinkName} (seq : BitVec 12) {s : State} {k : Nat}
    (h : l.place.toNat = s.place ∧ l.port.toNat < 24) (hk : s.linkKey l.port.toNat false l.lane.val = some k) :
    Gives (.nakFrame port l seq) s (fun t => (t.txLink k).resend = some seq.toNat ∧
      (t.txLink k).resendAt = s.now + 128 ∧ (t.txLink k).groups = (s.txLink k).groups ∧
      (∀ j, j ≠ k → t.txLink j = s.txLink j) ∧ SameObj s t (oReplays (k / 8) :: eventKeys) ∧
      (s.canSend (k / 8) = true → t.out = [.frame (k / 8) (frameBytes 0x05 none
        (linkBytes l ++ natLe 2 seq.toNat ++ natLe 1 (s.lanesInUse k false)))])) := by
  obtain ⟨fails, hx⟩ := exec_nakFrame port seq h hk
  obtain ⟨n1, n2, n3, n4, n5, n6⟩ := s.nakTaken_spec k seq.toNat seq.toNat fails (s.lanesInUse k false)
  generalize s.nakTaken k seq.toNat seq.toNat fails (s.lanesInUse k false) = v at n1 n2 n3 n4 n5 n6 hx
  obtain ⟨ne1, ne2⟩ := oReplays_ne (k / 8) (k / 8)
  have hc : v.canSend (k / 8) = s.canSend (k / 8) := State.canSend_congr
    (n5 _ (fun q => ne1 (List.mem_singleton.mp q).symm)) (n5 _ (fun q => ne2 (List.mem_singleton.mp q).symm))
  obtain ⟨out, ho, hout⟩ := v.ctlFrame_out (k / 8) 0x05 none (linkBytes l ++ natLe 2 seq.toNat ++ natLe 1 (s.lanesInUse k false))
  dsimp only at hx
  rw [ho] at hx
  rw [hc] at hout
  have hw : ∀ w : State, w.txLinks = v.txLinks → SameObj v w eventKeys → w.out = out →
      ((w.txLink k).resend = some seq.toNat ∧ (w.txLink k).resendAt = s.now + 128 ∧
        (w.txLink k).groups = (s.txLink k).groups ∧ (∀ j, j ≠ k → w.txLink j = s.txLink j) ∧
        SameObj s w (oReplays (k / 8) :: eventKeys) ∧ (s.canSend (k / 8) = true → w.out = [.frame (k / 8) (frameBytes 0x05 none
          (linkBytes l ++ natLe 2 seq.toNat ++ natLe 1 (s.lanesInUse k false)))])) := by
    intro w w1 w2 w3
    have hl := State.txLink_congr w1
    refine ⟨by rw [hl, n1], by rw [hl, n2], by rw [hl, n3], fun j hj => by rw [hl, n4 j hj], fun j hj => ?_, fun q => ?_⟩
    · rw [List.mem_cons, not_or] at hj
      rw [w2 j hj.2, n5 j (fun q => hj.1 (List.mem_singleton.mp q))]
    · rw [w3, hout q, n6]
      rfl
  rcases hx with hx | hx
  · exact ⟨_, hx, hw _ rfl (fun _ _ => rfl) rfl⟩
  · have hl := State.raiseAt_logs { v with out := out } .linkRetryExhausted (k / 8) 0
    exact ⟨_, hx, hw _ hl.txLinks hl.sameObj hl.out⟩

/-! ### RETURN -/

theorem exec_returnFrame (port : Port) {l : LinkName} (a : Option (BitVec 12)) (cs : List (BitVec 12)) {s : State} {k : Nat}
    (h : l.place.toNat = s.place ∧ l.port.toNat < 24) (hk : s.linkKey l.port.toNat false l.lane.val = some k) :
    exec (.returnFrame port l a cs) s =
      .next (s.quiet.takeReturn k (a.map (fun a => a.toNat)) (cs.map (fun c => c.toNat))) := by
  show execReturnFrame port l a cs s = _
  unfold execReturnFrame
  refine (if_pos (show l.place.toNat = s.quiet.place ∧ l.port.toNat < 24 from h)).trans ?_
  rw [show s.quiet.linkKey l.port.toNat false l.lane.val = some k from hk]

/-- A cumulative count of freed flits moved on to the value received, modulo 4,096 (R337). -/
def countFreed (b : Bank Nat) (e : Nat × Nat) : Bank Nat :=
  Bank.set b 0 e.1 (Bank.get b 0 e.1 + (e.2 + 4096 - Bank.get b 0 e.1 % 4096) % 4096)

theorem countFreed_other (b : Bank Nat) (e : Nat × Nat) {v : Nat} (h : v ≠ e.1) :
    Bank.get (countFreed b e) 0 v = Bank.get b 0 v := (Bank.get_set ..).trans (if_neg h)

theorem countFreed_self (b : Bank Nat) (e : Nat × Nat) (h : e.2 < 4096) :
    Bank.get (countFreed b e) 0 e.1 % 4096 = e.2 ∧ Bank.get b 0 e.1 ≤ Bank.get (countFreed b e) 0 e.1 := by
  have hg : Bank.get (countFreed b e) 0 e.1 = Bank.get b 0 e.1 + (e.2 + 4096 - Bank.get b 0 e.1 % 4096) % 4096 :=
    (Bank.get_set ..).trans (if_pos rfl)
  rw [hg]
  omega

/-- The counts of a RETURN, each for a virtual channel of its own. -/
theorem foldl_countFreed (l : List (Nat × Nat)) (b : Bank Nat) (hn : (l.map Prod.fst).Nodup) (hl : ∀ e ∈ l, e.2 < 4096) :
    (∀ e ∈ l, Bank.get (l.foldl countFreed b) 0 e.1 % 4096 = e.2 ∧
      Bank.get b 0 e.1 ≤ Bank.get (l.foldl countFreed b) 0 e.1) ∧
    ∀ v, v ∉ l.map Prod.fst → Bank.get (l.foldl countFreed b) 0 v = Bank.get b 0 v := by
  induction l generalizing b with
  | nil => exact ⟨nofun, fun _ _ => rfl⟩
  | cons x l ih =>
    rw [List.map_cons, List.nodup_cons] at hn
    obtain ⟨h1, h2⟩ := ih (countFreed b x) hn.2 (fun e he => hl e (List.mem_cons_of_mem _ he))
    refine ⟨fun e he => ?_, fun v hv => ?_⟩
    · rcases List.mem_cons.mp he with rfl | he'
      · rw [List.foldl_cons, h2 _ hn.1]
        exact countFreed_self b e (hl e he)
      · obtain ⟨g1, g2⟩ := h1 e he'
        have hne : e.1 ≠ x.1 := fun q => hn.1 (q ▸ List.mem_map_of_mem he')
        rw [countFreed_other b x hne] at g2
        exact ⟨g1, g2⟩
    · rw [List.map_cons, List.mem_cons, not_or] at hv
      rw [List.foldl_cons, h2 v hv.2, countFreed_other b x hv.1]

theorem zip_nodup_fst (vs cs : List Nat) (h : vs.Nodup) : ((vs.zip cs).map Prod.fst).Nodup := by
  rw [List.zip_eq_zip_take_min, List.map_fst_zip (by simp only [List.length_take]; omega)]
  exact h.sublist (List.take_sublist ..)

/-- The groups still kept after an acknowledgement (R318). -/
def keptGroups (t : TxLink) (ack : Option Nat) : List Group16 :=
  match ack with
  | some a => t.groups.filter (fun g => decide (2048 ≤ (a + 4096 - g.seq) % 4096))
  | none => t.groups

theorem State.takeReturn_eq (s : State) (k : Nat) (ack : Option Nat) (cs : List Nat) :
    ∃ t : TxLink, s.takeReturn k ack cs = s.setTxLink k t ∧ t.groups = keptGroups (s.txLink k) ack ∧
      t.freed = (dataVcs.zip cs).foldl countFreed (s.txLink k).freed ∧ t.queue = (s.txLink k).queue :=
  ⟨{ s.txLink k with
    groups := keptGroups (s.txLink k) ack, freed := (dataVcs.zip cs).foldl countFreed (s.txLink k).freed }, rfl, rfl, rfl, rfl⟩

theorem returnFrame_gives (port : Port) {l : LinkName} (a : Option (BitVec 12)) (cs : List (BitVec 12)) {s : State} {k : Nat}
    (h : l.place.toNat = s.place ∧ l.port.toNat < 24) (hk : s.linkKey l.port.toNat false l.lane.val = some k) :
    Gives (.returnFrame port l a cs) s (fun t =>
      (t.txLink k).groups = (match a with
        | some a => (s.txLink k).groups.filter (fun g => decide (2048 ≤ (a.toNat + 4096 - g.seq) % 4096))
        | none => (s.txLink k).groups) ∧
      (∀ e ∈ dataVcs.zip cs, Bank.get (t.txLink k).freed 0 e.1 % 4096 = e.2.toNat ∧
        Bank.get (s.txLink k).freed 0 e.1 ≤ Bank.get (t.txLink k).freed 0 e.1) ∧
      (t.txLink k).queue = (s.txLink k).queue ∧ (∀ j, j ≠ k → t.txLink j = s.txLink j) ∧ t.od = s.od ∧ t.mem = s.mem) := by
  refine ⟨_, exec_returnFrame port a cs h hk, ?_⟩
  obtain ⟨x, hx, hg, hf, hq⟩ := s.quiet.takeReturn_eq k (a.map (fun a => a.toNat)) (cs.map (fun c => c.toNat))
  have hself : (s.quiet.setTxLink k x).txLink k = x := (s.quiet.txLink_setTxLink k x k).trans (if_pos rfl)
  rw [hx]
  obtain ⟨f1, -⟩ := foldl_countFreed (dataVcs.zip (cs.map (fun c => c.toNat))) (s.txLink k).freed
    (zip_nodup_fst _ _ (by decide)) (fun e he => by
      obtain ⟨c, -, hc⟩ := List.mem_map.mp (List.of_mem_zip he).2
      exact hc ▸ c.isLt)
  refine ⟨?_, fun e he => ?_, ?_, fun j hj => (s.quiet.txLink_setTxLink k _ j).trans (if_neg hj), rfl, rfl⟩
  · rw [hself, hg]
    cases a <;> rfl
  · have hz : (e.1, e.2.toNat) ∈ dataVcs.zip (cs.map (fun c => c.toNat)) := by
      rw [List.zip_map_right]
      exact List.mem_map.mpr ⟨e, he, rfl⟩
    obtain ⟨g1, g2⟩ := f1 _ hz
    rw [hself, hf]
    exact ⟨g1, g2⟩
  · rw [hself, hq]
    rfl

/-! ### The repeated NAK and RETURN -/

theorem exec_nakRepeat {port : Port} {lane : Lane} {s : State} {k n : Nat} (hk : s.linkKey port.val true lane.val = some k)
    (hn : (s.rxLink k).nak = some n) : exec (.nakRepeat port lane) s = .next ((s.quiet.advanceTo (n + 2000)).sendNak k) := by
  show execNakRepeat port lane s = _
  unfold execNakRepeat
  simp only [show s.quiet.linkKey port.val true lane.val = some k from hk, show (s.quiet.rxLink k).nak = some n from hn]

theorem State.advanceTo_links (s : State) (n : Nat) :
    (∀ k, (s.advanceTo n).rxLink k = s.rxLink k) ∧ (∀ k, (s.advanceTo n).rxName k = s.rxName k) ∧
    (∀ p, (s.advanceTo n).canSend p = s.canSend p) ∧ (s.advanceTo n).out = s.out := ⟨fun _ => rfl, fun _ => rfl, fun _ => rfl, rfl⟩

theorem State.sendNak_spec (s : State) (k : Nat) :
    ((s.sendNak k).rxLink k).nak = some s.now ∧ ((s.sendNak k).rxLink k).expect = (s.rxLink k).expect ∧
    (s.sendNak k).now = s.now ∧ (s.sendNak k).od = s.od ∧ (s.sendNak k).mem = s.mem ∧
    (s.canSend (k / 8) = true → (s.sendNak k).out = s.out ++ [.frame (k / 8) (frameBytes 0x04 none
      (linkBytes (s.rxName k) ++ natLe 2 (s.rxLink k).expect))]) := by
  have hself := (s.rxLink_setRxLink k { s.rxLink k with nak := some s.now } k).trans (if_pos rfl)
  obtain ⟨out, ho, hout⟩ := (s.setRxLink k { s.rxLink k with nak := some s.now }).ctlFrame_out (k / 8) 0x04 none
    (linkBytes (s.rxName k) ++ natLe 2 (s.rxLink k).expect)
  have h : s.sendNak k = { s.setRxLink k { s.rxLink k with nak := some s.now } with out := out } := ho
  rw [h]
  have hl : State.rxLink { s.setRxLink k { s.rxLink k with nak := some s.now } with out := out } k =
      (s.setRxLink k { s.rxLink k with nak := some s.now }).rxLink k := rfl
  rw [hl, hself]
  exact ⟨rfl, rfl, rfl, rfl, rfl, fun q => hout q⟩

theorem nakRepeat_gives {port : Port} {lane : Lane} {s : State} {k n : Nat} (hk : s.linkKey port.val true lane.val = some k)
    (hn : (s.rxLink k).nak = some n) :
    Gives (.nakRepeat port lane) s (fun t => n + 2000 ≤ t.now ∧ (t.rxLink k).nak = some t.now ∧
      (t.rxLink k).expect = (s.rxLink k).expect ∧ t.od = s.od ∧ t.mem = s.mem ∧
      (s.canSend (k / 8) = true → t.out = [.frame (k / 8) (frameBytes 0x04 none
        (linkBytes (s.rxName k) ++ natLe 2 (s.rxLink k).expect))])) := by
  refine ⟨_, exec_nakRepeat hk hn, ?_⟩
  have ht : n + 2000 ≤ (s.quiet.advanceTo (n + 2000)).now := s.quiet.advanceTo_le _
  obtain ⟨-, ho, hm⟩ := s.quiet.advanceTo_frame (n + 2000)
  obtain ⟨a1, a2, a3, a4⟩ := s.quiet.advanceTo_links (n + 2000)
  generalize s.quiet.advanceTo (n + 2000) = u at ht ho hm a1 a2 a3 a4
  obtain ⟨k1, k2, k3, k4, k5, k6⟩ := u.sendNak_spec k
  refine ⟨k3 ▸ ht, k1.trans (congrArg some k3.symm), k2.trans (congrArg RxLink.expect (a1 k)), k4.trans ho, k5.trans hm,
    fun q => ?_⟩
  rw [k6 ((a3 _).trans q), a4, a1, a2]
  rfl

theorem exec_returnSend {port : Port} {lane : Lane} {s : State} {k : Nat} (hk : s.linkKey port.val true lane.val = some k) :
    exec (.returnSend port lane) s = .next (if (s.reverseKey k true).all (fun j => s.lanesInUse j false == 0) = true then
      s.quiet.ctlFrame (k / 8) 0x0A none (linkBytes (s.rxName k) ++
        returnRest (if (s.rxLink k).any then some (((s.rxLink k).expect + 4095) % 4096) else none)
          (dataVcs.map (fun v => Bank.get (s.rxLink k).freed 0 v))) else s.quiet) := by
  show execReturnSend port lane s = _
  unfold execReturnSend
  simp only [show s.quiet.linkKey port.val true lane.val = some k from hk]
  rw [show s.quiet.reverseKey k true = s.reverseKey k true from rfl]
  cases hr : s.reverseKey k true with
  | none => rfl
  | some j =>
    rw [Option.all_some]
    exact (apply_ite Host.Outcome.next _ _ _).symm

/-! ### REPLAY -/

/-- A REPLAY at the receiving end that it names. -/
theorem exec_replayFrame_mine {port : Port} {l : LinkName} {s : State} {k : Nat}
    (h : s.linkKey port.val true l.lane.val = some k ∧ (s.rxName k).place = l.place ∧ (s.rxName k).port = l.port)
    (seq : BitVec 12) (mask : Byte) :
    exec (.replayFrame port l seq mask) s = .next (if seq.toNat = (s.rxLink k).expect then
      s.quiet.setRxLink k { s.rxLink k with nak := none, mask := mask.toNat } else s.quiet) := by
  show execReplayFrame port l seq mask s = _
  unfold execReplayFrame
  simp only [show s.quiet.linkKey port.val true l.lane.val = some k from h.1]
  exact if_pos h.2

theorem exec_replayFrame_other {port : Port} {l : LinkName} {s : State}
    (h : ∀ k, ¬(s.linkKey port.val true l.lane.val = some k ∧ (s.rxName k).place = l.place ∧ (s.rxName k).port = l.port))
    (seq : BitVec 12) (mask : Byte) :
    exec (.replayFrame port l seq mask) s =
      .next (s.quiet.relay l false 0x05 (natLe 2 seq.toNat ++ natLe 1 mask.toNat)) := by
  show execReplayFrame port l seq mask s = _
  unfold execReplayFrame
  cases hk : s.linkKey port.val true l.lane.val with
  | none => simp only [show s.quiet.linkKey port.val true l.lane.val = none from hk]
  | some k =>
    simp only [show s.quiet.linkKey port.val true l.lane.val = some k from hk]
    exact if_neg (fun q => h k ⟨hk, q⟩)

/-- Settles O42. -/
theorem replayFrames : Obligations.ReplayFrames := by
  unfold Obligations.ReplayFrames
  refine ⟨?_, fun port lane s => ⟨fun k n => nakRepeat_gives, fun h => ?_, fun k hk hr hc => ?_, fun h => ?_⟩, ?_⟩
  · intro port l s here key
    refine ⟨fun seq k h hk => nakFrame_gives port seq h hk, fun seq h => if_neg h,
      fun a cs k h hk => returnFrame_gives port a cs h hk, fun a cs h => if_neg h, fun seq a cs h hk => ⟨?_, ?_⟩⟩
    · refine (if_pos h).trans ?_
      rw [show s.quiet.linkKey l.port.toNat false l.lane.val = none from hk]
    · refine (if_pos h).trans ?_
      rw [show s.quiet.linkKey l.port.toNat false l.lane.val = none from hk]
  · show execNakRepeat port lane s = _
    unfold execNakRepeat
    cases hk : s.linkKey port.val true lane.val with
    | none => simp only [show s.quiet.linkKey port.val true lane.val = none from hk]
    | some k =>
      rw [hk, Option.all_some, Option.isNone_iff_eq_none] at h
      simp only [show s.quiet.linkKey port.val true lane.val = some k from hk, show (s.quiet.rxLink k).nak = none from h]
  · have hx := exec_returnSend hk
    rw [if_pos hr] at hx
    refine ⟨_, hx, ?_⟩
    obtain ⟨out, ho, hout⟩ := s.quiet.ctlFrame_out (k / 8) 0x0A none (linkBytes (s.rxName k) ++
      returnRest (if (s.rxLink k).any then some (((s.rxLink k).expect + 4095) % 4096) else none)
        (dataVcs.map (fun v => Bank.get (s.rxLink k).freed 0 v)))
    rw [ho]
    exact ⟨rfl, rfl, rfl, hout hc⟩
  · cases hk : s.linkKey port.val true lane.val with
    | none =>
      show execReturnSend port lane s = _
      unfold execReturnSend
      simp only [show s.quiet.linkKey port.val true lane.val = none from hk]
    | some k =>
      rw [exec_returnSend hk]
      rw [hk, Option.all_some, Bool.or_eq_true, Bool.not_eq_true', Bool.not_eq_true'] at h
      rcases h with h | h
      · rw [if_neg (by rw [h]; exact Bool.false_ne_true)]
      · rw [State.ctlFrame_unsent (s := s.quiet) h, ite_self]
  · intro port l seq mask s mine
    refine ⟨fun k hm he => ?_, fun k hm he => ?_, fun h => exec_replayFrame_other h seq mask⟩
    · have hx := exec_replayFrame_mine hm seq mask
      rw [if_pos he] at hx
      have hself := (s.quiet.rxLink_setRxLink k { s.rxLink k with nak := none, mask := mask.toNat } k).trans (if_pos rfl)
      exact ⟨_, hx, congrArg RxLink.nak hself, congrArg RxLink.mask hself,
        fun j hj => (s.quiet.rxLink_setRxLink k _ j).trans (if_neg hj), rfl, rfl⟩
    · rw [exec_replayFrame_mine hm, if_neg he]

end Sys2Proof.Machine

namespace Sys2Proof.Machine

/-! ### The queue of sequenced frames -/

/-- What a sequenced frame carries, whenever it is sent. -/
def CtlFrame.key (f : CtlFrame) : Nat × Nat × Bytes := (f.seq, f.type, f.body)

/-- Only frames join the output. -/
def OutFrames (s t : State) : Prop := ∃ fs, t.out = s.out ++ fs ∧ ∀ o ∈ fs, ∃ q b, o = Out.frame q b

theorem OutFrames.refl (s : State) : OutFrames s s := ⟨[], (List.append_nil _).symm, nofun⟩

theorem OutFrames.trans {s t u : State} (h : OutFrames s t) (k : OutFrames t u) : OutFrames s u := by
  obtain ⟨fs, e, hf⟩ := h
  obtain ⟨gs, e', hg⟩ := k
  refine ⟨fs ++ gs, by rw [e', e, List.append_assoc], fun o ho => ?_⟩
  rcases List.mem_append.mp ho with ho | ho
  · exact hf o ho
  · exact hg o ho

theorem OutFrames.foldl {α : Type} {f : State → α → State} (l : List α) (h : ∀ s a, OutFrames s (f s a)) (s : State) :
    OutFrames s (l.foldl f s) :=
  List.foldlRecOn l f (motive := fun t => OutFrames s t) (OutFrames.refl s) (fun t ht a _ => ht.trans (h t a))

theorem State.ctlFrame_frames (s : State) (p type : Nat) (seq : Option Nat) (body : Bytes) :
    OutFrames s (s.ctlFrame p type seq body) := by
  cases h : s.canSend p with
  | true =>
    rw [State.ctlFrame_sent h]
    exact ⟨_, rfl, fun o ho => ⟨_, _, List.mem_singleton.mp ho⟩⟩
  | false =>
    rw [State.ctlFrame_unsent h]
    exact OutFrames.refl s

theorem State.ctlFrame_ports (s : State) (p type : Nat) (seq : Option Nat) (body : Bytes) :
    (s.ctlFrame p type seq body).ports = s.ports := by
  obtain ⟨out, h, -⟩ := s.ctlFrame_out p type seq body
  rw [h]

theorem State.portSt_congr {s t : State} (h : t.ports = s.ports) (p : Nat) : t.portSt p = s.portSt p := by
  rw [State.portSt, h]
  rfl

/-- The frames of the replay buffer sent: each keeps what it carries, and no other port is touched. -/
structure Pumped (s t : State) (p : Nat) : Prop where
  keys : (t.portSt p).ctlSent.map CtlFrame.key = (s.portSt p).ctlSent.map CtlFrame.key
  port : ∃ sent, t.portSt p = { s.portSt p with ctlSent := sent }
  rest : ∀ q, q ≠ p → t.portSt q = s.portSt q
  frames : OutFrames s t

theorem State.pumpCtl_eq (s : State) (p : Nat) : ∃ (l : List (CtlFrame × Nat)) (sent : List CtlFrame),
    sent.map CtlFrame.key = (s.portSt p).ctlSent.map CtlFrame.key ∧
    s.pumpCtl p = l.foldl (fun s e => s.ctlFrame p e.1.type (some e.1.seq) e.1.body)
      (s.setPort p { s.portSt p with ctlSent := sent }) := by
  refine ⟨_, (s.portSt p).ctlSent.zipIdx.map (fun e =>
    if e.1.sentAt == none && decide (ctlBytes ((s.portSt p).ctlSent.take (e.2 + 1)) ≤ 65536) then
      { e.1 with sentAt := some s.now } else e.1), ?_, rfl⟩
  rw [List.map_map]
  have h : ∀ e ∈ (s.portSt p).ctlSent.zipIdx, (CtlFrame.key ∘ fun e : CtlFrame × Nat =>
      if e.1.sentAt == none && decide (ctlBytes ((s.portSt p).ctlSent.take (e.2 + 1)) ≤ 65536) then
        { e.1 with sentAt := some s.now } else e.1) e = (CtlFrame.key ∘ Prod.fst) e := by
    intro e _
    dsimp only [Function.comp]
    split <;> rfl
  rw [List.map_congr_left h, ← List.map_map, List.zipIdx_map_fst]

theorem State.pumpCtl_pumped (s : State) (p : Nat) : Pumped s (s.pumpCtl p) p := by
  obtain ⟨l, sent, hk, h⟩ := s.pumpCtl_eq p
  have hports : (s.pumpCtl p).ports = (s.setPort p { s.portSt p with ctlSent := sent }).ports := by
    rw [h]
    exact List.foldlRecOn l _ (motive := fun t : State => t.ports = (s.setPort p { s.portSt p with ctlSent := sent }).ports) rfl
      (fun t ht e _ => (t.ctlFrame_ports ..).trans ht)
  have hself : (s.pumpCtl p).portSt p = { s.portSt p with ctlSent := sent } :=
    (State.portSt_congr hports p).trans ((s.portSt_setPort ..).trans (if_pos rfl))
  refine ⟨?_, ⟨sent, hself⟩, fun q hq => (State.portSt_congr hports q).trans ((s.portSt_setPort ..).trans (if_neg hq)), ?_⟩
  · rw [hself]
    exact hk
  · rw [h]
    exact OutFrames.trans (t := s.setPort p { s.portSt p with ctlSent := sent }) (OutFrames.refl s)
      (OutFrames.foldl l (fun t e => t.ctlFrame_frames ..) _)

/-- A frame put on lane C joins the end of its port's queue (R326). -/
theorem State.sendCtl_spec (s : State) (p type : Nat) (body : Bytes) :
    ((s.sendCtl p type body).portSt p).ctlSent.map CtlFrame.key =
      (s.portSt p).ctlSent.map CtlFrame.key ++ [((s.portSt p).ctlSeq, type, body)] ∧
    (∀ q, q ≠ p → (s.sendCtl p type body).portSt q = s.portSt q) ∧ OutFrames s (s.sendCtl p type body) := by
  unfold State.sendCtl
  extract_lets x
  obtain ⟨z, hz, hs⟩ : ∃ z : PortSt, z.ctlSent = x.ctlSent ++ [⟨x.ctlSeq, type, body, none⟩] ∧
      s.setPort p { x with ctlSeq := (x.ctlSeq + 1) % 4096, ctlSent := x.ctlSent ++ [⟨x.ctlSeq, type, body, none⟩] } =
        s.setPort p z := ⟨_, rfl, rfl⟩
  rw [hs]
  have hself : (s.setPort p z).portSt p = z := (s.portSt_setPort p z p).trans (if_pos rfl)
  have hrest : ∀ q, q ≠ p → (s.setPort p z).portSt q = s.portSt q := fun q hq => (s.portSt_setPort ..).trans (if_neg hq)
  have ho : OutFrames s (s.setPort p z) := OutFrames.refl s
  generalize s.setPort p z = u at hself hrest ho
  have hp := u.pumpCtl_pumped p
  refine ⟨?_, fun q hq => (hp.rest q hq).trans (hrest q hq), ho.trans hp.frames⟩
  rw [hp.keys, hself, hz, List.map_append]
  rfl

theorem State.sendMgmt_frames (s : State) (p : Nat) (b : Bytes) : OutFrames s (s.sendMgmt p b) :=
  OutFrames.foldl _ (fun t _ => (t.sendCtl_spec ..).2.2) s

/-! ### Acknowledgements and resends of sequenced frames -/

theorem Sends.frame {s t : State} (h : Sends s t) : t.od = s.od ∧ t.mem = s.mem ∧ t.now = s.now := by
  obtain ⟨_, _, e⟩ := h.shape
  rw [e]
  exact ⟨rfl, rfl, rfl⟩

theorem controlAck_gives (p : Port) (a : CtlAck) (s : State) : Gives (.controlAck p a) s (fun t =>
    (t.portSt p.val).ctlSent.map (fun f => f.seq) = ((s.portSt p.val).ctlSent.filter (fun f =>
      decide (2048 ≤ (a.seq.toNat + 4096 - f.seq) % 4096) || f.sentAt == none)).map (fun f => f.seq) ∧
    (t.portSt p.val).mgmtCredit = a.credits.toNat ∧
    (∀ q, q ≠ p.val → t.portSt q = s.portSt q) ∧ t.od = s.od ∧ t.mem = s.mem) := by
  obtain ⟨x, hx, hl, hc⟩ : ∃ x : PortSt, exec (.controlAck p a) s = .next ((s.quiet.setPort p.val x).pumpCtl p.val) ∧
      x.ctlSent = ((s.portSt p.val).ctlSent.filter (fun f =>
        decide (2048 ≤ (a.seq.toNat + 4096 - f.seq) % 4096) || f.sentAt == none)) ∧ x.mgmtCredit = a.credits.toNat :=
    ⟨{ s.portSt p.val with
      ctlSent := (s.portSt p.val).ctlSent.filter (fun f =>
        decide (2048 ≤ (a.seq.toNat + 4096 - f.seq) % 4096) || f.sentAt == none)
      mgmtCredit := a.credits.toNat }, rfl, rfl, rfl⟩
  refine ⟨_, hx, ?_⟩
  have hself : (s.quiet.setPort p.val x).portSt p.val = x := (s.quiet.portSt_setPort ..).trans (if_pos rfl)
  have hrest : ∀ q, q ≠ p.val → (s.quiet.setPort p.val x).portSt q = s.portSt q :=
    fun q hq => (s.quiet.portSt_setPort ..).trans (if_neg hq)
  have hf : (s.quiet.setPort p.val x).od = s.od ∧ (s.quiet.setPort p.val x).mem = s.mem := ⟨rfl, rfl⟩
  generalize s.quiet.setPort p.val x = u at hself hrest hf
  have hp := u.pumpCtl_pumped p.val
  obtain ⟨f1, f2, -⟩ := (u.pumpCtl_sends p.val).frame
  refine ⟨?_, ?_, fun q hq => (hp.rest q hq).trans (hrest q hq), f1.trans hf.1, f2.trans hf.2⟩
  · rw [← hl, ← hself]
    have := congrArg (List.map Prod.fst) hp.keys
    rwa [List.map_map, List.map_map] at this
  · obtain ⟨sent, e⟩ := hp.port
    rw [e, hself]
    exact hc

theorem State.ctlFrame_ite (s : State) (p type : Nat) (seq : Option Nat) (body : Bytes) :
    ∃ out, s.ctlFrame p type seq body = { s with out := out } ∧
      out = if s.canSend p then s.out ++ [.frame p (frameBytes type seq body)] else s.out := by
  cases h : s.canSend p with
  | true => exact ⟨_, State.ctlFrame_sent h .., rfl⟩
  | false => exact ⟨_, State.ctlFrame_unsent h .., rfl⟩

theorem controlAckSend_gives {p : Port} {s : State} (h : (s.portSt p.val).ackDue = true) :
    Gives (.controlAckSend p) s (fun t => (t.portSt p.val).ackDue = false ∧
      t.od = s.od ∧ t.mem = s.mem ∧ t.out = (if s.canSend p.val then [.frame p.val (frameBytes 0x09 none
        (natLe 2 (((s.portSt p.val).ctlExpect + 4095) % 4096) ++ natLe 2 ((s.portSt p.val).mgmtFreed % 4096)))]
        else [])) := by
  have hx : exec (.controlAckSend p) s = .next ((s.quiet.setPort p.val { s.portSt p.val with ackDue := false }).ctlFrame
      p.val 0x09 none (natLe 2 (((s.portSt p.val).ctlExpect + 4095) % 4096) ++ natLe 2 ((s.portSt p.val).mgmtFreed % 4096))) := by
    show execControlAckSend p s = _
    exact if_pos h
  obtain ⟨out, ho, hout⟩ := (s.quiet.setPort p.val { s.portSt p.val with ackDue := false }).ctlFrame_ite p.val 0x09 none
    (natLe 2 (((s.portSt p.val).ctlExpect + 4095) % 4096) ++ natLe 2 ((s.portSt p.val).mgmtFreed % 4096))
  rw [ho] at hx
  refine ⟨_, hx, ?_, rfl, rfl, hout⟩
  exact congrArg PortSt.ackDue ((s.quiet.portSt_setPort p.val { s.portSt p.val with ackDue := false } p.val).trans (if_pos rfl))

/-- The oldest frame sent again at the moment `m`. -/
def State.resentCtl (u : State) (p : Nat) (f : CtlFrame) (rest : List CtlFrame) : State :=
  (u.setPort p { u.portSt p with ctlSent := { f with sentAt := some u.now } :: rest }).ctlFrame p f.type (some f.seq) f.body

theorem exec_laneCResend {p : Port} {s : State} {f : CtlFrame} {rest : List CtlFrame} {n : Nat}
    (h : (s.portSt p.val).ctlSent = f :: rest) (hn : f.sentAt = some n) :
    exec (.laneCResend p) s = .next ((s.quiet.advanceTo (n + 2000)).resentCtl p.val f rest) := by
  show execLaneCResend p s = _
  unfold execLaneCResend
  simp only [show (s.quiet.portSt p.val).ctlSent = f :: rest from h, hn]
  rfl

theorem laneCResend_gives {p : Port} {s : State} {f : CtlFrame} {rest : List CtlFrame} {n : Nat}
    (h : (s.portSt p.val).ctlSent = f :: rest) (hn : f.sentAt = some n) :
    Gives (.laneCResend p) s (fun t => n + 2000 ≤ t.now ∧
      (t.portSt p.val).ctlSent = { f with sentAt := some t.now } :: rest ∧ t.od = s.od ∧ t.mem = s.mem ∧
      t.out = (if s.canSend p.val then [.frame p.val (frameBytes f.type (some f.seq) f.body)] else [])) := by
  refine ⟨_, exec_laneCResend h hn, ?_⟩
  have ht : n + 2000 ≤ (s.quiet.advanceTo (n + 2000)).now := s.quiet.advanceTo_le _
  obtain ⟨-, ho, hm⟩ := s.quiet.advanceTo_frame (n + 2000)
  obtain ⟨-, -, a3, a4⟩ := s.quiet.advanceTo_links (n + 2000)
  generalize s.quiet.advanceTo (n + 2000) = u at ht ho hm a3 a4
  have hself := (u.portSt_setPort p.val { u.portSt p.val with ctlSent := { f with sentAt := some u.now } :: rest } p.val).trans
    (if_pos rfl)
  obtain ⟨out, hc, hout⟩ := (u.setPort p.val { u.portSt p.val with
    ctlSent := { f with sentAt := some u.now } :: rest }).ctlFrame_ite p.val f.type (some f.seq) f.body
  have hr : u.resentCtl p.val f rest = _ := hc
  rw [hr]
  refine ⟨ht, congrArg PortSt.ctlSent hself, ho, hm, ?_⟩
  refine Eq.trans hout ?_
  show (if u.canSend p.val then u.out ++ _ else u.out) = _
  rw [a3, a4]
  rfl

/-! ### Management flits -/

theorem State.takeMgmt_whole {s : State} {p seq : Nat} {flit : Bytes} (hp : s.flag (oCtrlRxPresent p) = true)
    (hs : seq = (s.portSt p).ctlExpect) :
    let y : PortSt := { s.portSt p with ackDue := true, ctlExpect := ((s.portSt p).ctlExpect + 1) % 4096 }
    let got := (s.portSt p).mgmt ++ flit
    let size := 64 * (1 + ceilDiv (pkLength got) 64)
    s.takeMgmt p seq flit =
      if got.length < size then (s.setPort p y).setPort p { y with mgmt := got }
      else ((s.setPort p y).setPort p { y with mgmt := [], mgmtFreed := (s.portSt p).mgmtFreed + size / 64 }).routeMgmt p
        (got.take (64 + pkLength got)) := by
  intro y got size
  have hr : s.takeCtl p seq = (true, s.setPort p y) := by
    unfold State.takeCtl
    simp only [decide_eq_true hs, if_true]
    rfl
  have hy : (s.setPort p y).portSt p = y := (s.portSt_setPort p y p).trans (if_pos rfl)
  unfold State.takeMgmt
  rw [if_neg (by rw [hp]; exact Bool.noConfusion), hr]
  simp only [if_true, hy]
  rfl

theorem exec_mgmtFlit {p : Port} {seq : BitVec 12} {flit : BitVec 512} {s t : State}
    (h : s.quiet.takeMgmt p.val seq.toNat (natLe 64 flit.toNat) = t) (ho : OutFrames s.quiet t) :
    exec (.mgmtFlit p seq flit) s = .next t := by
  show execMgmtFlit p seq flit s = _
  unfold execMgmtFlit
  simp only [h]
  obtain ⟨fs, hout, hf⟩ := ho
  have hl : t.out = fs := hout
  rw [hl]
  cases hg : fs.getLast? with
  | none => rfl
  | some o =>
    obtain ⟨q, b, rfl⟩ := hf o (List.mem_of_getLast? hg)
    rfl

/-- A packet that does not end here leaves only frames in the output. -/
theorem State.routeMgmt_frames {s : State} {p : Nat} {b : Bytes}
    (h : ¬(pkDst b < 0x4000 ∧ pkSrc b < 0x4000 ∧ bits (fieldLe b 32 16) 0 4 ≤ bits (fieldLe b 32 16) 4 4 ∧
      pkDst b = s.place ∧ fieldLe b 0 1 = 9 ∧ fieldLe b 2 1 = 4)) : OutFrames s (s.routeMgmt p b) := by
  have hb : ∀ k, OutFrames s (s.bump k) := fun k => ⟨[], by rw [(s.bump_frame k).2.1, List.append_nil], nofun⟩
  unfold State.routeMgmt
  extract_lets w hops next out open_
  split
  · exact hb _
  · next hp =>
    split
    · next hle =>
      split
      · next hd => exact absurd ⟨by omega, by omega, hle, hd⟩ h
      · exact hb _
    · split
      · exact hb _
      · split
        · exact State.sendMgmt_frames ..
        · exact OutFrames.refl s

theorem State.routeMgmt_mine {s : State} {p : Nat} {b : Bytes}
    (h : pkDst b < 0x4000 ∧ pkSrc b < 0x4000 ∧ bits (fieldLe b 32 16) 0 4 ≤ bits (fieldLe b 32 16) 4 4 ∧
      pkDst b = s.place ∧ fieldLe b 0 1 = 9 ∧ fieldLe b 2 1 = 4) : s.routeMgmt p b = s.emit (.delivered b) := by
  obtain ⟨h1, h2, h3, h4⟩ := h
  unfold State.routeMgmt
  dsimp only
  rw [if_neg (by omega), if_pos h3, if_pos h4]

/-- Settles O45. -/
theorem sequencedFrames : Obligations.SequencedFrames := by
  unfold Obligations.SequencedFrames
  refine ⟨fun p a s => controlAck_gives p a s, fun p s => ⟨controlAckSend_gives, fun h => ?_, fun f rest n => laneCResend_gives,
    fun h => ?_⟩, ?_⟩
  · show execControlAckSend p s = _
    exact if_neg (fun q => Bool.false_ne_true (h.symm.trans q))
  · show execLaneCResend p s = _
    unfold execLaneCResend
    cases hc : (s.portSt p.val).ctlSent with
    | nil => simp only [show (s.quiet.portSt p.val).ctlSent = [] from hc]
    | cons f rest =>
      rw [hc] at h
      have hf : f.sentAt = none := h
      simp only [show (s.quiet.portSt p.val).ctlSent = f :: rest from hc, hf]
  · intro p seq flit s x got size b y v mine
    refine ⟨fun hp => ?_, fun hp => ⟨fun hs => ?_, fun hs hg => ?_, fun hs hg hm => ?_, fun hs hg hm => ?_⟩⟩
    · exact exec_mgmtFlit (if_pos hp) (OutFrames.refl _)
    · refine exec_mgmtFlit ?_ (OutFrames.refl s.quiet)
      have hp' : ¬s.quiet.flag (oCtrlRxPresent p.val) = false := fun q => Bool.false_ne_true (q.symm.trans hp)
      have hd : decide (seq.toNat = (s.quiet.portSt p.val).ctlExpect) = false := decide_eq_false hs
      unfold State.takeMgmt State.takeCtl
      simp only [if_neg hp', hd, Bool.false_eq_true, if_false]
      rfl
    · refine exec_mgmtFlit ?_ (OutFrames.refl s.quiet)
      exact (State.takeMgmt_whole (s := s.quiet) hp hs).trans (if_pos hg)
    · have ht : s.quiet.takeMgmt p.val seq.toNat (natLe 64 flit.toNat) = v.emit (.delivered b) :=
        ((State.takeMgmt_whole (s := s.quiet) hp hs).trans (if_neg (Nat.not_lt.mpr hg))).trans (State.routeMgmt_mine hm)
      show execMgmtFlit p seq flit s = _
      unfold execMgmtFlit
      simp only [ht]
      rfl
    · have ht : s.quiet.takeMgmt p.val seq.toNat (natLe 64 flit.toNat) = v.routeMgmt p.val b :=
        (State.takeMgmt_whole (s := s.quiet) hp hs).trans (if_neg (Nat.not_lt.mpr hg))
      exact exec_mgmtFlit ht (OutFrames.trans (t := v) (OutFrames.refl _) (State.routeMgmt_frames hm))

end Sys2Proof.Machine

namespace Sys2Proof.Machine

/-! ### The step-clean tree -/

/-- The type and body of the newest sequenced frame of a port. -/
def State.newest (s : State) (p : Nat) : Option (Nat × Bytes) := (s.portSt p).ctlSent.getLast?.map (fun f => (f.type, f.body))

theorem State.newest_of_keys {s : State} {p : Nat} {ks : List (Nat × Nat × Bytes)} {k : Nat × Nat × Bytes}
    (h : (s.portSt p).ctlSent.map CtlFrame.key = ks ++ [k]) : s.newest p = some k.2 := by
  have hl := congrArg List.getLast? h
  rw [List.getLast?_map, List.getLast?_append, List.getLast?_singleton] at hl
  rw [State.newest]
  cases hg : (s.portSt p).ctlSent.getLast? with
  | none =>
    rw [hg] at hl
    cases hl
  | some f =>
    rw [hg] at hl
    have hf : f.key = k := Option.some.inj hl
    rw [← hf]
    rfl

theorem State.sendCtl_newest (s : State) (p type : Nat) (body : Bytes) : (s.sendCtl p type body).newest p = some (type, body) :=
  State.newest_of_keys (s.sendCtl_spec p type body).1

/-- A frame sent on every port of a list is the newest of each. -/
theorem State.foldl_sendCtl_newest (l : List Nat) (s : State) (type : Nat) (body : Bytes) :
    (∀ q ∈ l, (l.foldl (fun (s : State) p => s.sendCtl p type body) s).newest q = some (type, body)) ∧
    ∀ q, q ∉ l → (l.foldl (fun (s : State) p => s.sendCtl p type body) s).portSt q = s.portSt q := by
  induction l generalizing s with
  | nil => exact ⟨nofun, fun _ _ => rfl⟩
  | cons a l ih =>
    obtain ⟨h1, h2⟩ := ih (s.sendCtl a type body)
    refine ⟨fun q hq => ?_, fun q hq => ?_⟩
    · by_cases hl : q ∈ l
      · exact h1 q hl
      · rcases List.mem_cons.mp hq with rfl | hq
        · rw [List.foldl_cons, State.newest, h2 _ hl]
          exact s.sendCtl_newest ..
        · exact absurd hq hl
    · rw [List.mem_cons, not_or] at hq
      rw [List.foldl_cons, h2 q hq.2, (s.sendCtl_spec a type body).2.1 q hq.1]

/-- What sends on lane C leave of the step, the keeper, the objects and the memory. -/
theorem Sends.tree {s t : State} (h : Sends s t) : t.step = s.step ∧ t.keeper = s.keeper ∧ t.od = s.od ∧ t.mem = s.mem := by
  obtain ⟨_, _, e⟩ := h.shape
  rw [e]
  exact ⟨rfl, rfl, rfl, rfl⟩

theorem State.sendDown_spec (s : State) (c : CleanFrame) :
    Sends s (s.sendDown c) ∧ ∀ q ∈ s.childPorts, (s.sendDown c).newest q = some (0x07, c.bytes) :=
  ⟨Sends.foldl _ (fun t _ => t.sendCtl_sends ..) s, (State.foldl_sendCtl_newest s.childPorts s 0x07 c.bytes).1⟩

theorem State.keeperDown_sends (s : State) (k : Keeper) (c : CleanFrame) : Sends s (s.keeperDown k c) :=
  Sends.foldl _ (fun t _ => t.sendCtl_sends ..) s

theorem State.ownTree {s : State} (h : s.keeper = none ∨ s.admitted = true) : ¬(s.keeper.isSome && !s.admitted) = true := by
  rcases h with h | h
  · rw [h]
    exact Bool.false_ne_true
  · rw [h, Bool.not_true, Bool.and_false]
    exact Bool.false_ne_true

theorem State.keeperTree {s : State} {k : Keeper} (h : s.keeper = some k) (ha : s.admitted = false) :
    (s.keeper.isSome && !s.admitted) = true := by
  rw [h, ha]
  rfl

/-! ### CLEAN_SEND -/

theorem exec_cleanSend_own {s : State} (h : s.keeper = none ∨ s.admitted = true) :
    exec .cleanSend s = .next (if (s.traffic && s.childrenIn && !s.step.sent) = true then
      if s.obj oTreeParentPort = 0xFF then
        ({ s.quiet with step := { s.step with sent := true, verdict := some (s.globalOf s.combined) } } : State).sendDown
          (s.globalOf s.combined)
      else ({ s.quiet with step := { s.step with sent := true } } : State).sendCtl (s.obj oTreeParentPort) 0x07 s.combined.bytes
      else s.quiet) := by
  show execCleanSend s = _
  unfold execCleanSend
  refine (if_neg (State.ownTree (s := s.quiet) h)).trans ?_
  rw [apply_ite Host.Outcome.next, apply_ite Host.Outcome.next]
  rfl

theorem exec_cleanSend_keeper {s : State} {k : Keeper} (h : s.keeper = some k) (ha : s.admitted = false) :
    exec .cleanSend s = .next (s.quiet.keeperSend k) := by
  show execCleanSend s = _
  unfold execCleanSend
  refine (if_pos (State.keeperTree (s := s.quiet) h ha)).trans ?_
  rw [show s.quiet.keeper = some k from h]
  rfl

/-! ### CLEAN -/

theorem State.takeCtl_sends_none (s : State) (p seq : Nat) :
    (s.takeCtl p seq).2.step = s.step ∧ (s.takeCtl p seq).2.keeper = s.keeper ∧ (s.takeCtl p seq).2.od = s.od ∧
    (s.takeCtl p seq).2.mem = s.mem ∧ (s.takeCtl p seq).2.plan = s.plan := ⟨rfl, rfl, rfl, rfl, rfl⟩

theorem State.takeCtl_ok (s : State) (p seq : Nat) : (s.takeCtl p seq).1 = decide (seq = (s.portSt p).ctlExpect) := rfl

theorem bit_verdict (f : CleanBody) : bit (frameOf f).verdict 7 = f.verdict.getLsbD 7 := BitVec.testBit_toNat ..

/-- A CLEAN frame in its order, where the module's own step engine serves the tree. -/
theorem exec_cleanFrame_own {p : Port} {seq : BitVec 12} {f : CleanBody} {s : State}
    (hl : s.flag (oCtrlRxPresent p.val) = true ∧ s.linkClass p.val = 2) (ho : seq.toNat = (s.portSt p.val).ctlExpect)
    (h : s.keeper = none ∨ s.admitted = true) :
    let v := (s.quiet.takeCtl p.val seq.toNat).2
    let c := frameOf f
    exec (.cleanFrame p seq f) s = .next (if s.frameFresh c = false then v.bump oStaleFrames
      else if f.verdict.getLsbD 7 = true then
        if p.val = s.obj oTreeParentPort ∧ s.step.verdict.isNone then
          ({ v with step := { s.step with verdict := some c } } : State).sendDown c else v
      else if s.childPorts.contains p.val = true then
        { v with step := { s.step with
          children := s.step.children.filter (fun k => k.port != p.val) ++ [ChildFrame.mk p.val c] } }
      else v) := by
  intro v c
  show execCleanFrame p seq f s = _
  unfold execCleanFrame
  have h1 : ¬(s.quiet.flag (oCtrlRxPresent p.val) = false ∨ s.quiet.linkClass p.val ≠ 2) := by
    rintro (q | q)
    · exact Bool.false_ne_true (q.symm.trans hl.1)
    · exact q hl.2
  have h2 : ¬(s.quiet.takeCtl p.val seq.toNat).1 = false := by
    rw [State.takeCtl_ok, decide_eq_true (show seq.toNat = (s.quiet.portSt p.val).ctlExpect from ho)]
    exact Bool.noConfusion
  have h3 : ¬(v.keeper.isSome && !v.admitted) = true := State.ownTree h
  refine (if_neg h1).trans ((if_neg h2).trans ((if_neg h3).trans ?_))
  rw [← bit_verdict]
  rw [apply_ite Host.Outcome.next, apply_ite Host.Outcome.next, apply_ite Host.Outcome.next, apply_ite Host.Outcome.next]
  rfl

theorem exec_cleanFrame_keeper {p : Port} {seq : BitVec 12} {f : CleanBody} {s : State} {k : Keeper}
    (hl : s.flag (oCtrlRxPresent p.val) = true ∧ s.linkClass p.val = 2) (ho : seq.toNat = (s.portSt p.val).ctlExpect)
    (h : s.keeper = some k) (ha : s.admitted = false) :
    exec (.cleanFrame p seq f) s = .next ((s.quiet.takeCtl p.val seq.toNat).2.keeperFrame k p.val (frameOf f)) := by
  show execCleanFrame p seq f s = _
  unfold execCleanFrame
  have h1 : ¬(s.quiet.flag (oCtrlRxPresent p.val) = false ∨ s.quiet.linkClass p.val ≠ 2) := by
    rintro (q | q)
    · exact Bool.false_ne_true (q.symm.trans hl.1)
    · exact q hl.2
  have h2 : ¬(s.quiet.takeCtl p.val seq.toNat).1 = false := by
    rw [State.takeCtl_ok, decide_eq_true (show seq.toNat = (s.quiet.portSt p.val).ctlExpect from ho)]
    exact Bool.noConfusion
  have h3 : ((s.quiet.takeCtl p.val seq.toNat).2.keeper.isSome && !(s.quiet.takeCtl p.val seq.toNat).2.admitted) = true :=
    State.keeperTree (k := k) h ha
  refine (if_neg h1).trans ((if_neg h2).trans ((if_pos h3).trans ?_))
  rw [show (s.quiet.takeCtl p.val seq.toNat).2.keeper = some k from h]
  rfl

/-! ### The keeper of a forwarding-only module -/

theorem exec_cleanSend_ready {s : State} {k : Keeper} (h : s.keeper = some k) (ha : s.admitted = false)
    (hr : (k.st.running && !k.st.sent && (setBitsOf 24 k.children).all (fun p => k.st.children.any (fun c => c.port == p))) =
      true) :
    let g : CleanFrame := { k.combined with
      verdict := (if k.combined.covered = k.count then k.combined.verdict else k.combined.verdict ||| 5) + 128, covered := k.count }
    exec .cleanSend s = .next (if k.parent = 0xFF then
      (s.quiet.setKeeper { k with st := { k.st with sent := true, verdict := some g } }).keeperDown k g
      else (s.quiet.setKeeper { k with st := { k.st with sent := true } }).sendCtl k.parent 0x07 k.combined.bytes) := by
  intro g
  rw [exec_cleanSend_keeper h ha]
  exact congrArg Host.Outcome.next (if_pos hr)

/-- Whether a frame is of the keeper's step, before its deadline. -/
def Keeper.fresh (k : Keeper) (c : CleanFrame) : Bool :=
  k.st.running && c.step == k.step && c.attempt == k.st.attempt && decide (k.beat < k.deadlineBeat)

theorem State.keeperFrame_eq (s : State) (k : Keeper) (p : Nat) (c : CleanFrame) :
    s.keeperFrame k p c = if k.fresh c = false then s.bump oStaleFrames
      else if bit c.verdict 7 = true then
        if p = k.parent ∧ k.st.verdict.isNone then
          (s.setKeeper { k with st := { k.st with verdict := some c } }).keeperDown k c else s
      else if bit k.children p = true then
        s.setKeeper { k with st := { k.st with
          children := k.st.children.filter (fun x => x.port != p) ++ [ChildFrame.mk p c] } }
      else s := by
  unfold State.keeperFrame
  rw [show (k.st.running && c.step == k.step && c.attempt == k.st.attempt && decide (k.beat < k.deadlineBeat)) = k.fresh c from rfl]
  cases k.fresh c <;> rfl

theorem State.bump_stale (s : State) :
    (s.bump oStaleFrames).obj oStaleFrames = (s.obj oStaleFrames + 1) % 2 ^ 32 ∧ (s.bump oStaleFrames).step = s.step ∧
    (s.bump oStaleFrames).keeper = s.keeper ∧ SameObj s (s.bump oStaleFrames) [oStaleFrames] ∧
    (s.bump oStaleFrames).mem = s.mem :=
  ⟨s.bump_obj_self _, State.setObj_step .., State.setObj_keeper .., (SameObj.refl s _).setObj _ (List.mem_singleton.mpr rfl),
    State.setObj_mem ..⟩

/-- CLEAN_SEND. -/
theorem cleanSend_spec (s : State) :
    let own := s.keeper = none ∨ s.admitted = true
    let ready := s.traffic && s.childrenIn && !s.step.sent
    (own → ready = true → s.obj oTreeParentPort ≠ 0xFF →
      Gives .cleanSend s (fun t => t.step.sent = true ∧ t.step.verdict = s.step.verdict ∧ t.od = s.od ∧ t.mem = s.mem ∧
        (t.portSt (s.obj oTreeParentPort)).ctlSent.getLast?.map (fun f => (f.type, f.body)) =
          some (0x07, s.combined.bytes))) ∧
    (own → ready = true → s.obj oTreeParentPort = 0xFF →
      Gives .cleanSend s (fun t => t.step.sent = true ∧ t.step.verdict = some (s.globalOf s.combined) ∧ t.od = s.od ∧
        t.mem = s.mem ∧ ∀ q ∈ s.childPorts, (t.portSt q).ctlSent.getLast?.map (fun f => (f.type, f.body)) =
          some (0x07, (s.globalOf s.combined).bytes))) ∧
    (own → ready = false → exec .cleanSend s = .next s.quiet) := by
  refine ⟨fun ho hr hp => ?_, fun ho hr hp => ?_, fun ho hr => ?_⟩
  · have hx := exec_cleanSend_own ho
    rw [if_pos hr, if_neg hp] at hx
    obtain ⟨h1, -, h3, h4⟩ := (State.sendCtl_sends ({ s.quiet with step := { s.step with sent := true } } : State)
      (s.obj oTreeParentPort) 0x07 s.combined.bytes).tree
    exact ⟨_, hx, by rw [h1], by rw [h1], h3, h4, State.sendCtl_newest ..⟩
  · have hx := exec_cleanSend_own ho
    rw [if_pos hr, if_pos hp] at hx
    obtain ⟨hs, hn⟩ := State.sendDown_spec ({ s.quiet with
      step := { s.step with sent := true, verdict := some (s.globalOf s.combined) } } : State) (s.globalOf s.combined)
    obtain ⟨h1, -, h3, h4⟩ := hs.tree
    exact ⟨_, hx, by rw [h1], by rw [h1], h3, h4, hn⟩
  · rw [exec_cleanSend_own ho, if_neg (by rw [hr]; exact Bool.false_ne_true)]

/-- CLEAN_SEND of a forwarding-only module's keeper. -/
theorem cleanSend_keeper {s : State} {k : Keeper} (h : s.keeper = some k) (ha : s.admitted = false) :
    let kready := k.st.running && !k.st.sent &&
      (setBitsOf 24 k.children).all (fun p => k.st.children.any (fun c => c.port == p))
    (kready = true → k.parent ≠ 0xFF → Gives .cleanSend s (fun t =>
      t.keeper = some { k with st := { k.st with sent := true } } ∧ t.od = s.od ∧ t.mem = s.mem ∧
      (t.portSt k.parent).ctlSent.getLast?.map (fun f => (f.type, f.body)) = some (0x07, k.combined.bytes))) ∧
    (kready = true → k.parent = 0xFF →
      let v := k.combined.verdict
      let g : CleanFrame := { k.combined with
        verdict := (if k.combined.covered = k.count then v else v ||| 5) + 128, covered := k.count }
      Gives .cleanSend s (fun t => t.od = s.od ∧ t.mem = s.mem ∧
        t.keeper = some { k with st := { k.st with sent := true, verdict := some g } })) ∧
    (kready = false → exec .cleanSend s = .next s.quiet) := by
  refine ⟨fun hr hp => ?_, ?_, fun hr => ?_⟩
  · have hx := exec_cleanSend_ready h ha hr
    dsimp only at hx
    rw [if_neg hp] at hx
    obtain ⟨-, h2, h3, h4⟩ := ((s.quiet.setKeeper { k with st := { k.st with sent := true } }).sendCtl_sends k.parent 0x07
      k.combined.bytes).tree
    exact ⟨_, hx, h2, h3, h4, State.sendCtl_newest ..⟩
  · intro hr hp v g
    have hx := exec_cleanSend_ready h ha hr
    dsimp only at hx
    rw [if_pos hp] at hx
    obtain ⟨-, h2, h3, h4⟩ := ((s.quiet.setKeeper { k with st := { k.st with sent := true, verdict := some g } }).keeperDown_sends
      k g).tree
    exact ⟨_, hx, h3, h4, h2⟩
  · rw [exec_cleanSend_keeper h ha]
    exact congrArg Host.Outcome.next (if_neg (fun q => Bool.false_ne_true (hr.symm.trans q)))

/-- CLEAN at the module's own step engine. -/
theorem cleanFrame_own {p : Port} {seq : BitVec 12} {f : CleanBody} {s : State}
    (hl : s.flag (oCtrlRxPresent p.val) = true ∧ s.linkClass p.val = 2) (ho : seq.toNat = (s.portSt p.val).ctlExpect)
    (h : s.keeper = none ∨ s.admitted = true) :
    let c := frameOf f
    let v := (s.quiet.takeCtl p.val seq.toNat).2
    (s.frameFresh c = true → f.verdict.getLsbD 7 = true → p.val = s.obj oTreeParentPort → s.step.verdict = none →
      Gives (.cleanFrame p seq f) s (fun t => t.step.verdict = some c ∧ t.od = s.od ∧ t.mem = s.mem ∧
        ∀ q ∈ s.childPorts, (t.portSt q).ctlSent.getLast?.map (fun f => (f.type, f.body)) = some (0x07, c.bytes))) ∧
    (s.frameFresh c = true → f.verdict.getLsbD 7 = true → p.val ≠ s.obj oTreeParentPort ∨ s.step.verdict ≠ none →
      exec (.cleanFrame p seq f) s = .next v) ∧
    (s.frameFresh c = true → f.verdict.getLsbD 7 = false → s.childPorts.contains p.val = true →
      Gives (.cleanFrame p seq f) s (fun t => ChildFrame.mk p.val c ∈ t.step.children ∧
        t.step.verdict = s.step.verdict ∧ t.od = s.od ∧ t.mem = s.mem)) ∧
    (s.frameFresh c = true → f.verdict.getLsbD 7 = false → s.childPorts.contains p.val = false →
      exec (.cleanFrame p seq f) s = .next v) ∧
    (s.frameFresh c = false →
      Gives (.cleanFrame p seq f) s (fun t => t.obj oStaleFrames = (s.obj oStaleFrames + 1) % 2 ^ 32 ∧
        t.step = s.step ∧ SameObj s t [oStaleFrames] ∧ t.mem = s.mem)) := by
  intro c v
  have hx := exec_cleanFrame_own (f := f) hl ho h
  dsimp only at hx
  have hfresh : s.frameFresh c = true → ¬s.frameFresh (frameOf f) = false := fun q r => Bool.false_ne_true (r.symm.trans q)
  have hrise : f.verdict.getLsbD 7 = false → ¬f.verdict.getLsbD 7 = true := fun q r => Bool.false_ne_true (q.symm.trans r)
  refine ⟨fun h1 h2 h3 h4 => ?_, fun h1 h2 h3 => ?_, fun h1 h2 h3 => ?_, fun h1 h2 h3 => ?_, fun h1 => ?_⟩
  · rw [if_neg (hfresh h1), if_pos h2, if_pos ⟨h3, by rw [h4]; rfl⟩] at hx
    obtain ⟨hs, hn⟩ := State.sendDown_spec ({ v with step := { s.step with verdict := some c } } : State) c
    obtain ⟨t1, -, t3, t4⟩ := hs.tree
    exact ⟨_, hx, by rw [t1], t3, t4, hn⟩
  · rw [if_neg (hfresh h1), if_pos h2, if_neg] at hx
    · exact hx
    · rintro ⟨q1, q2⟩
      rcases h3 with h3 | h3
      · exact h3 q1
      · exact h3 (Option.isNone_iff_eq_none.mp q2)
  · rw [if_neg (hfresh h1), if_neg (hrise h2), if_pos h3] at hx
    exact ⟨_, hx, List.mem_append_right _ (List.mem_singleton.mpr rfl), rfl, rfl, rfl⟩
  · rw [if_neg (hfresh h1), if_neg (hrise h2), if_neg (by rw [h3]; exact Bool.false_ne_true)] at hx
    exact hx
  · rw [if_pos h1] at hx
    obtain ⟨b1, b2, -, b4, b5⟩ := v.bump_stale
    exact ⟨_, hx, b1, b2, b4, b5⟩

/-- CLEAN at the keeper of a forwarding-only module. -/
theorem cleanFrame_keeper {p : Port} {seq : BitVec 12} {f : CleanBody} {s : State} {k : Keeper}
    (hl : s.flag (oCtrlRxPresent p.val) = true ∧ s.linkClass p.val = 2) (ho : seq.toNat = (s.portSt p.val).ctlExpect)
    (h : s.keeper = some k) (ha : s.admitted = false) :
    let c := frameOf f
    let v := (s.quiet.takeCtl p.val seq.toNat).2
    (k.fresh c = false → Gives (.cleanFrame p seq f) s (fun t => t.keeper = s.keeper ∧
      t.obj oStaleFrames = (s.obj oStaleFrames + 1) % 2 ^ 32)) ∧
    (k.fresh c = true → f.verdict.getLsbD 7 = true → p.val = k.parent → k.st.verdict = none →
      Gives (.cleanFrame p seq f) s (fun t => t.keeper = some { k with st := { k.st with verdict := some c } } ∧
        t.od = s.od)) ∧
    (k.fresh c = true → f.verdict.getLsbD 7 = true → p.val ≠ k.parent ∨ k.st.verdict ≠ none →
      exec (.cleanFrame p seq f) s = .next v) ∧
    (k.fresh c = true → f.verdict.getLsbD 7 = false → bit k.children p.val = true →
      Gives (.cleanFrame p seq f) s (fun t => t.od = s.od ∧ t.keeper = some { k with st := { k.st with
        children := k.st.children.filter (fun x => x.port != p.val) ++ [ChildFrame.mk p.val c] } })) ∧
    (k.fresh c = true → f.verdict.getLsbD 7 = false → bit k.children p.val = false →
      exec (.cleanFrame p seq f) s = .next v) := by
  intro c v
  have hx : exec (.cleanFrame p seq f) s = .next (v.keeperFrame k p.val c) := exec_cleanFrame_keeper hl ho h ha
  rw [State.keeperFrame_eq, show bit c.verdict 7 = f.verdict.getLsbD 7 from bit_verdict f] at hx
  have hfresh : k.fresh c = true → ¬k.fresh c = false := fun q r => Bool.false_ne_true (r.symm.trans q)
  have hrise : f.verdict.getLsbD 7 = false → ¬f.verdict.getLsbD 7 = true := fun q r => Bool.false_ne_true (q.symm.trans r)
  refine ⟨fun h1 => ?_, fun h1 h2 h3 h4 => ?_, fun h1 h2 h3 => ?_, fun h1 h2 h3 => ?_, fun h1 h2 h3 => ?_⟩
  · rw [if_pos h1] at hx
    obtain ⟨b1, -, b3, -⟩ := v.bump_stale
    exact ⟨_, hx, b3, b1⟩
  · rw [if_neg (hfresh h1), if_pos h2, if_pos ⟨h3, by rw [h4]; rfl⟩] at hx
    obtain ⟨-, t2, t3, -⟩ := ((v.setKeeper { k with st := { k.st with verdict := some c } }).keeperDown_sends k c).tree
    exact ⟨_, hx, t2, t3⟩
  · rw [if_neg (hfresh h1), if_pos h2, if_neg] at hx
    · exact hx
    · rintro ⟨q1, q2⟩
      rcases h3 with h3 | h3
      · exact h3 q1
      · exact h3 (Option.isNone_iff_eq_none.mp q2)
  · rw [if_neg (hfresh h1), if_neg (hrise h2), if_pos h3] at hx
    exact ⟨_, hx, rfl, rfl⟩
  · rw [if_neg (hfresh h1), if_neg (hrise h2), if_neg (by rw [h3]; exact Bool.false_ne_true)] at hx
    exact hx

/-- Settles O46. -/
theorem cleanTree : Obligations.CleanTree := by
  unfold Obligations.CleanTree
  refine ⟨?_, ?_⟩
  · intro s own ready
    obtain ⟨s1, s2, s3⟩ := cleanSend_spec s
    exact ⟨s1, s2, s3, fun k h ha => cleanSend_keeper h ha⟩
  · intro p seq f s c lit inOrder v
    refine ⟨fun hn => ?_, fun hl hn => ?_, fun ho h => cleanFrame_own ho.1 ho.2 h, fun k ho h ha => cleanFrame_keeper ho.1 ho.2 h ha⟩
    · refine if_pos ?_
      refine Classical.byContradiction fun q => ?_
      rw [not_or, Classical.not_not, Bool.not_eq_false] at q
      exact hn q
    · show execCleanFrame p seq f s = _
      unfold execCleanFrame
      have h1 : ¬(s.quiet.flag (oCtrlRxPresent p.val) = false ∨ s.quiet.linkClass p.val ≠ 2) := by
        rintro (q | q)
        · exact Bool.false_ne_true (q.symm.trans hl.1)
        · exact q hl.2
      have h2 : (s.quiet.takeCtl p.val seq.toNat).1 = false := decide_eq_false (fun q => hn ⟨hl, q⟩)
      exact (if_neg h1).trans (if_pos h2)

end Sys2Proof.Machine

namespace Sys2Proof.Machine

/-! ### What leaves the rings as they are -/

/-- No ring's state, no plan's admission, no object outside `ks` and neither clock differs. -/
structure RingsKept (ks : List Nat) (s t : State) : Prop where
  micro : t.micro = s.micro
  bell : t.bell = s.bell
  now : t.now = s.now
  plan : oPlanState ∉ ks
  obj : SameObj s t ks

theorem RingsKept.trans {ks : List Nat} {s t u : State} (h : RingsKept ks s t) (k : RingsKept ks t u) : RingsKept ks s u :=
  ⟨k.micro.trans h.micro, k.bell.trans h.bell, k.now.trans h.now, h.plan, h.obj.trans k.obj⟩

theorem RingsKept.mono {ks ls : List Nat} {s t : State} (h : RingsKept ks s t) (hl : ∀ k ∈ ks, k ∈ ls) (hp : oPlanState ∉ ls) :
    RingsKept ls s t := ⟨h.micro, h.bell, h.now, hp, h.obj.mono hl⟩

theorem RingsKept.ringAt {ks : List Nat} {s t : State} (h : RingsKept ks s t) (j : Nat) : t.ringAt j = s.ringAt j := by
  rw [State.ringAt, State.ringAt, h.micro]

theorem RingsKept.admitted {ks : List Nat} {s t : State} (h : RingsKept ks s t) : t.admitted = s.admitted :=
  State.admitted_congr (h.obj _ h.plan)

theorem Logs.ringsKept {s t : State} (h : Logs s t) : RingsKept eventKeys s t :=
  ⟨h.micro, h.bell, h.now, by decide, h.sameObj⟩

theorem RingsKept.refl {ks : List Nat} (s : State) (h : oPlanState ∉ ks) : RingsKept ks s s :=
  ⟨rfl, rfl, rfl, h, SameObj.refl s ks⟩

theorem RingsKept.setObj {ks : List Nat} {s t : State} (h : RingsKept ks s t) {k : Nat} (v : Nat) (hk : k ∈ ks) :
    RingsKept ks s (t.setObj k v) :=
  ⟨(State.setObj_micro ..).trans h.micro, (State.setObj_bell ..).trans h.bell, (State.setObj_now ..).trans h.now, h.plan,
    h.obj.setObj v hk⟩

theorem RingsKept.logs {ks : List Nat} {s t u : State} (h : RingsKept ks s t) (k : Logs t u)
    (hk : ∀ k ∈ eventKeys, k ∈ ks) : RingsKept ks s u := h.trans (k.ringsKept.mono hk h.plan)

theorem LaneWork.ringsKept {s t : State} (h : LaneWork s t) : RingsKept linkKeys s t := by
  obtain ⟨_, _, _, _, _, _, _, _, _, _, e⟩ := h.shape
  exact ⟨by rw [e]; rfl, by rw [e]; rfl, by rw [e]; rfl, by decide +kernel, h.obj⟩

/-- The objects that a limit met writes. -/
def limitKeys : List Nat := oLimitHitCount :: oLastLimit :: eventKeys

theorem State.limitHit_kept (s : State) (code place lane : Nat) :
    RingsKept limitKeys s (s.limitHit code place lane) ∧
      (s.limitHit code place lane).obj oLimitHitCount = (s.obj oLimitHitCount + 1) % 2 ^ objBits oLimitHitCount := by
  have h1 : RingsKept limitKeys s (s.bump oLimitHitCount) := (RingsKept.refl s (by decide)).setObj _ (by decide)
  unfold State.limitHit
  extract_lets w
  generalize w = w
  have h2 := h1.setObj (k := oLastLimit) w (by decide)
  exact ⟨h2.logs (State.raise_logs _ .opticsLimit) (by decide),
    ((State.raise_logs ..).obj _ (by decide)).trans ((State.obj_setObj_ne _ _ (by decide)).trans (s.bump_obj_self _))⟩

/-- The objects that a pilot mismatch writes. -/
def mismatchKeys : List Nat := oMismatchCount :: oLastMismatch :: eventKeys

theorem State.mismatch_kept (s : State) (word : Nat) : RingsKept mismatchKeys s (s.mismatch word) ∧
    (s.mismatch word).obj oMismatchCount = (s.obj oMismatchCount + 1) % 2 ^ objBits oMismatchCount := by
  refine ⟨(((RingsKept.refl s (by decide)).setObj _ (by decide)).setObj _ (by decide)).logs (State.raise_logs ..) (by decide),
    ((State.raise_logs ..).obj _ (by decide)).trans ((State.obj_setObj_ne _ _ (by decide)).trans (s.bump_obj_self _))⟩

theorem State.notePower_kept (s : State) (k power : Nat) : RingsKept [] s (s.notePower k power) ∧
    (s.notePower k power).od = s.od := by
  unfold State.notePower
  extract_lets o
  generalize overwrite (s.blob o) (2 * ((k - 384) % 16)) (natLe 2 power) = b
  split
  · exact ⟨⟨rfl, rfl, rfl, by decide, fun _ _ => rfl⟩, rfl⟩
  · exact ⟨⟨rfl, rfl, rfl, by decide, fun _ _ => rfl⟩, rfl⟩

/-! ### One ring's state -/

theorem State.ringAt_setRingAt (s : State) (k : Nat) (m : Micro) (j : Nat) :
    (s.setRingAt k m).ringAt j = if j = k then m else s.ringAt j := Bank.get_set ..

theorem State.ringAt_setRingAt_self (s : State) (k : Nat) (m : Micro) : (s.setRingAt k m).ringAt k = m := by
  rw [State.ringAt_setRingAt, if_pos rfl]

theorem State.ringAt_setRingAt_ne (s : State) {k j : Nat} (m : Micro) (h : j ≠ k) :
    (s.setRingAt k m).ringAt j = s.ringAt j := by
  rw [State.ringAt_setRingAt, if_neg h]

/-- `t` is `s` with ring `k` now `m`; the objects outside `ks` and the other rings stand. -/
structure RingSet (ks : List Nat) (k : Nat) (m : Micro) (s t : State) : Prop where
  here : t.ringAt k = m
  alone : ∀ j, j ≠ k → t.ringAt j = s.ringAt j
  obj : SameObj s t ks

theorem State.setRingAt_set (s : State) (k : Nat) (m : Micro) (ks : List Nat) : RingSet ks k m s (s.setRingAt k m) :=
  ⟨s.ringAt_setRingAt_self k m, fun _ h => s.ringAt_setRingAt_ne m h, fun _ _ => rfl⟩

theorem RingSet.then {ks : List Nat} {k : Nat} {m : Micro} {s t u : State} (h : RingSet ks k m s t) (g : RingsKept ks t u) :
    RingSet ks k m s u :=
  ⟨(g.ringAt k).trans h.here, fun j hj => (g.ringAt j).trans (h.alone j hj), h.obj.trans g.obj⟩

theorem RingSet.after {ks : List Nat} {k : Nat} {m : Micro} {s t u : State} (g : RingsKept ks s t) (h : RingSet ks k m t u) :
    RingSet ks k m s u :=
  ⟨h.here, fun j hj => (h.alone j hj).trans (g.ringAt j), g.obj.trans h.obj⟩

theorem RingSet.again {ks : List Nat} {k : Nat} {m m' : Micro} {s t u : State} (g : RingSet ks k m s t)
    (h : RingSet ks k m' t u) : RingSet ks k m' s u :=
  ⟨h.here, fun j hj => (h.alone j hj).trans (g.alone j hj), g.obj.trans h.obj⟩

theorem RingSet.mono {ks ls : List Nat} {k : Nat} {m : Micro} {s t : State} (h : RingSet ks k m s t) (hl : ∀ k ∈ ks, k ∈ ls) :
    RingSet ls k m s t := ⟨h.here, h.alone, h.obj.mono hl⟩

/-! ### The operations of the tuning -/

theorem ringKey_lt (r : RingId) : ringKey r < 480 := by
  cases r with
  | tx p n => have := p.2; have := n.2; simp only [ringKey, txKey]; omega
  | xp p n => have := p.2; have := n.2; simp only [ringKey, xpKey]; omega
  | monitor i t n =>
    have := i.2
    have := n.2
    have : b2n t ≤ 1 := by cases t <;> decide
    simp only [ringKey, monKey]
    omega

theorem State.ringLanesLost_laneWork (s : State) {k : Nat} (h : k < 480) : LaneWork s (s.ringLanesLost k) := by
  unfold State.ringLanesLost
  extract_lets n i
  split
  · next h1 => exact s.loseLane_laneWork (by omega) false n
  · next h1 =>
    split
    · next h2 =>
      have hp : ringPlace k < 24 := by rw [ringPlace, if_neg h1, if_pos h2]; omega
      split
      · exact s.loseLane_laneWork hp true n
      · split
        · exact (s.reportPass_sends ..).laneWork
        · exact LaneWork.refl s
    · next h2 =>
      have hi : i < 6 := by show ringPlace k < 6; rw [ringPlace, if_neg h1, if_neg h2]; omega
      split
      · refine LaneWork.foldl _ (fun t j hj => ?_) s
        have : j < 4 := List.mem_range.mp hj
        split
        · exact t.loseLane_laneWork (by omega) false n
        · exact LaneWork.refl t
      · exact LaneWork.refl s

/-- A ring that unlocks starts a sweep. -/
theorem State.unlockRing_set (s : State) {k : Nat} (h : k < 480) :
    RingSet linkKeys k { (s.ringAt k).sweeping s with unlocked := true } s (s.unlockRing k) :=
  ((s.setRingAt_set k _ _).then ((State.raise_logs ..).ringsKept.mono (fun _ => eventKeys_sub_linkKeys) (by decide +kernel))).then
    (State.ringLanesLost_laneWork _ h).ringsKept

/-- The objects that a failing rehearsal writes. -/
def prepFailKeys : List Nat := oPrepareState :: oPrepareResult :: oPrepare :: linkKeys

theorem State.prepFail_kept (s : State) (map port lane cause : Nat) :
    RingsKept prepFailKeys s (s.prepFail map port lane cause) := by
  have hp : oPlanState ∉ prepFailKeys := by decide +kernel
  unfold State.prepFail
  split
  · exact (((RingsKept.refl s hp).setObj _ (by decide +kernel)).setObj _ (by decide +kernel)).setObj _
      (by decide +kernel) |>.logs (State.cmdFail_logs ..) (by decide +kernel)
  · exact RingsKept.refl s hp

theorem State.ringFails_set (s : State) {k : Nat} (h : k < 480) (cause : Nat) :
    RingSet prepFailKeys k { s.ringAt k with state := 6, cands := [] } s (s.ringFails k cause) := by
  have hp : oPlanState ∉ prepFailKeys := by decide +kernel
  have h0 := s.setRingAt_set k { s.ringAt k with state := 6, cands := [] } prepFailKeys
  have hl : ∀ t : State, RingsKept prepFailKeys t (t.ringLanesLost k) := fun t =>
    (t.ringLanesLost_laneWork h).ringsKept.mono
      (fun _ q => List.mem_cons_of_mem _ (List.mem_cons_of_mem _ (List.mem_cons_of_mem _ q))) hp
  unfold State.ringFails
  extract_lets m t u
  refine RingSet.then ?_ (hl u)
  show RingSet _ _ _ s (match t.prep with
    | some q => if k < 384 ∧ q.isOver = false then
        t.prepFail q.map (ringPlace k) (ringLane k) (if m.limited then 4 else cause) else t
    | none => t)
  split
  · split
    · exact h0.then (t.prepFail_kept ..)
    · exact h0
  · exact h0

/-- What LOCKING at the nearest of some candidates makes of a ring. -/
def Micro.locked? (m : Micro) (admitted : Bool) (s : State) : Micro :=
  if admitted then { m with state := 2, waits := true } else
    { m with
      state := 2, cands := m.cands.tail, track := 0, want := 0, waits := false,
      setting := (Int.ofNat (m.cands.headD 0) - 32) * 12500, stepAt := s.now, stepBeat := s.bell.beat }

theorem State.beginLocking_set (s : State) {k : Nat} (h : (s.ringAt k).cands ≠ []) (ks : List Nat) :
    RingSet ks k ((s.ringAt k).locked? s.admitted s) s (s.beginLocking k) := by
  unfold State.beginLocking Micro.locked?
  cases s.admitted with
  | true => exact s.setRingAt_set k _ ks
  | false =>
    obtain ⟨c, rest, hc⟩ := List.exists_cons_of_ne_nil h
    have : s.moveHeater k = s.setRingAt k { s.ringAt k with
        state := 2, cands := rest, track := 0, want := 0, waits := false,
        setting := (Int.ofNat c - 32) * 12500, stepAt := s.now, stepBeat := s.bell.beat } := by
      unfold State.moveHeater
      simp only [hc]
    show RingSet _ _ _ s (s.moveHeater k)
    rw [this, hc]
    exact s.setRingAt_set k _ ks

theorem mem_orderCands {cs : List Nat} {c : Nat} (h : c ∈ cs) (hc : c ≤ 64) : c ∈ orderCands cs := by
  refine List.mem_flatMap.mpr ⟨(Int.ofNat c - 32).natAbs, List.mem_range.mpr ?_, List.mem_filter.mpr ⟨h, ?_⟩⟩
  · have : Int.ofNat c = (c : Int) := rfl
    omega
  · exact beq_self_eq_true _

/-- The objects that a heater's power writes. -/
def heatKeys : List Nat := oHeaterTotalMw :: limitKeys

theorem State.heat_kept (s : State) (k ringMw totalMw : Nat) :
    RingsKept heatKeys s (s.heat k ringMw totalMw) ∧ (s.heat k ringMw totalMw).obj oHeaterTotalMw = min 60000 totalMw := by
  have h0 := (RingsKept.refl s (ks := heatKeys) (by decide)).setObj (k := oHeaterTotalMw) (min 60000 totalMw) (by decide)
  have v0 := s.obj_setObj_self oHeaterTotalMw (min 60000 totalMw)
  have hit : ∀ (t : State) (c n : Nat), RingsKept heatKeys s t → t.obj oHeaterTotalMw = min 60000 totalMw →
      RingsKept heatKeys s (t.limitHit c (ringPlace k) n) ∧
        (t.limitHit c (ringPlace k) n).obj oHeaterTotalMw = min 60000 totalMw := fun t c n h v =>
    ⟨h.trans ((t.limitHit_kept ..).1.mono (by decide) (by decide)), ((t.limitHit_kept ..).1.obj _ (by decide)).trans v⟩
  unfold State.heat
  extract_lets t u
  obtain ⟨h1, v1⟩ : RingsKept heatKeys s u ∧ u.obj oHeaterTotalMw = min 60000 totalMw := by
    by_cases h : 8 < ringMw
    · rw [show u = t.limitHit 4 (ringPlace k) (ringLane k) from if_pos h]
      exact hit t 4 _ h0 v0
    · rw [show u = t from if_neg h]
      exact ⟨h0, v0⟩
  split
  · exact hit u 5 _ h1 v1
  · exact ⟨h1, v1⟩

/-- The limits that a heater's power meets. -/
def heatHits (ringMw totalMw : Nat) : Nat := b2n (decide (8 < ringMw)) + b2n (decide (60000 < totalMw))

theorem State.heat_hits (s : State) (k ringMw totalMw : Nat) (h : 0 < heatHits ringMw totalMw) :
    (s.heat k ringMw totalMw).obj oLimitHitCount =
      (s.obj oLimitHitCount + heatHits ringMw totalMw) % 2 ^ objBits oLimitHitCount := by
  have h0 := State.obj_setObj_ne s (min 60000 totalMw) (show oLimitHitCount ≠ oHeaterTotalMw by decide)
  unfold heatHits at h ⊢
  unfold State.heat
  by_cases h1 : 8 < ringMw <;> by_cases h2 : 60000 < totalMw
  · simp only [h1, h2, if_true, decide_true, b2n, (State.limitHit_kept ..).2, h0, Nat.mod_add_mod, Nat.add_assoc]
  · simp only [h1, h2, if_true, if_false, decide_true, decide_false, b2n, (State.limitHit_kept ..).2, h0]
    rfl
  · simp only [h1, h2, if_true, if_false, decide_true, decide_false, b2n, (State.limitHit_kept ..).2, h0]
    rfl
  · rw [decide_eq_false h1, decide_eq_false h2] at h
    exact absurd h (by decide)

theorem State.heat_of_no_hit (s : State) (k ringMw totalMw : Nat) (h : heatHits ringMw totalMw = 0) :
    s.heat k ringMw totalMw = s.setObj oHeaterTotalMw (min 60000 totalMw) := by
  have h1 : ¬8 < ringMw := fun q => by rw [heatHits, decide_eq_true q] at h; exact absurd h (by simp [b2n])
  have h2 : ¬60000 < totalMw := fun q => by rw [heatHits, decide_eq_true q] at h; exact absurd h (by simp [b2n])
  unfold State.heat
  simp only [h1, h2, if_false]

/-- A correction of `mhz` and what it leaves: the ring's new setting, its held correction, or its unlocking. -/
theorem State.trackRing_set (s : State) {k : Nat} (h : k < 480) (mhz : Int) :
    let m := s.ringAt k
    let want := clampInt 400000 (m.setting + mhz) - m.setting
    ∃ m', RingSet (limitKeys ++ linkKeys) k m' s (s.trackRing k mhz) ∧
      (s.admitted = false → m' = { m with setting := m.setting + want, track := 0, want := 0 }) ∧
      (s.admitted = true → mhz.natAbs ≤ 50000 → m' = { m with track := clampInt 25000 want, want := want }) ∧
      (s.admitted = true → 50000 < mhz.natAbs → m' = { m.sweeping s with unlocked := true }) := by
  intro m want
  have hp : oPlanState ∉ limitKeys ++ linkKeys := by decide +kernel
  have hl : ∀ k ∈ limitKeys, k ∈ limitKeys ++ linkKeys := fun _ q => List.mem_append_left _ q
  obtain ⟨t, ht, h0⟩ : ∃ t : State, t = (if want = mhz then s else s.limitHit 6 (ringPlace k) (ringLane k)) ∧
      RingsKept (limitKeys ++ linkKeys) s t := by
    refine ⟨_, rfl, ?_⟩
    split
    · exact RingsKept.refl s hp
    · exact (s.limitHit_kept ..).1.mono hl hp
  have e : s.trackRing k mhz = if t.admitted = false then
        t.setRingAt k { m with setting := m.setting + want, track := 0, want := 0 }
      else if 50000 < mhz.natAbs then t.unlockRing k
      else t.setRingAt k { m with track := clampInt 25000 want, want := want } := by
    rw [ht]; rfl
  rw [e, h0.admitted]
  cases ha : s.admitted with
  | false => exact ⟨_, .after h0 (t.setRingAt_set k _ _), fun _ => rfl, nofun, nofun⟩
  | true =>
    by_cases hm : 50000 < mhz.natAbs
    · rw [if_neg Bool.noConfusion, if_pos hm]
      refine ⟨_, .after h0 ((t.unlockRing_set h).mono (fun _ q => List.mem_append_right _ q)), nofun, fun _ q => ?_, fun _ _ => ?_⟩
      · exact absurd hm (Nat.not_lt.mpr q)
      · rw [h0.ringAt, Micro.sweeping, Micro.sweeping, h0.now, h0.bell]
    · rw [if_neg Bool.noConfusion, if_neg hm]
      exact ⟨_, .after h0 (t.setRingAt_set k _ _), nofun, fun _ _ => rfl, fun _ q => absurd q hm⟩

/-- A ring that shows its tone is LOCKED. -/
theorem State.lockRing_set (s : State) (k : Nat) :
    RingSet eventKeys k { s.ringAt k with state := 4, unlocked := false, dark := false, cands := [] } s (s.lockRing k) := by
  unfold State.lockRing
  extract_lets m t
  have h0 : RingSet eventKeys k { s.ringAt k with state := 4, unlocked := false, dark := false, cands := [] } s t :=
    (s.setRingAt_set k _ _).then ⟨rfl, rfl, rfl, by decide, fun _ _ => rfl⟩
  split
  · exact h0.then (t.raise_logs _).ringsKept
  · exact h0

end Sys2Proof.Machine

namespace Sys2Proof.Machine

/-! ### A sweep's step -/

/-- The time at which a sweep's step takes place: under a plan it waits for nothing, otherwise 5 µs have passed. -/
def State.sweepPaced (s : State) (k : Nat) : State :=
  if s.admitted then s else s.advanceTo ((s.ringAt k).stepAt + 5000)

theorem State.sweepPaced_spec (s : State) (k : Nat) :
    (s.sweepPaced k).micro = s.micro ∧ (s.sweepPaced k).od = s.od ∧ (s.sweepPaced k).mem = s.mem ∧
    (s.admitted = false → (s.ringAt k).stepAt + 5000 ≤ (s.sweepPaced k).now) ∧
    (s.admitted = true → (s.sweepPaced k).now = s.now) := by
  unfold State.sweepPaced
  split
  · next h => exact ⟨rfl, rfl, rfl, fun q => absurd (h.symm.trans q) Bool.noConfusion, fun _ => rfl⟩
  · next h => exact ⟨rfl, rfl, rfl, fun _ => s.advanceTo_le _, fun q => absurd q h⟩

/-- The candidates after a step, and whether a limit was met in the sweep. -/
def sweepCands (m : Micro) (res : Bool) (total : Nat) : List Nat :=
  if res = true ∧ total ≤ 60000 then m.cands ++ [m.steps] else m.cands

/-- A ring after a step of its sweep. -/
def Micro.swept (m : Micro) (res : Bool) (mw total now beat : Nat) : Micro :=
  { m with
    steps := m.steps + 1, cands := sweepCands m res total,
    limited := m.limited || decide (0 < heatHits mw total), stepAt := now, stepBeat := beat }

/-- A step of a sweep. -/
def State.swept (s : State) (k : Nat) (res : Bool) (mw total : Nat) : State :=
  let u := (s.sweepPaced k).heat k mw total
  u.setRingAt k ((s.ringAt k).swept res mw total u.now u.bell.beat)

theorem sweepCands_eq (m : Micro) (res : Bool) (total : Nat) :
    (if res && !decide (60000 < total) then m.cands ++ [m.steps] else m.cands) = sweepCands m res total := by
  unfold sweepCands
  congr 1
  simp

theorem limited_eq (b : Bool) (mw total : Nat) :
    (b || decide (60000 < total) || decide (8 < mw)) = (b || decide (0 < heatHits mw total)) := by
  unfold heatHits
  by_cases h1 : 8 < mw <;> by_cases h2 : 60000 < total <;> simp [h1, h2, b2n]

theorem exec_ringSweepStep {ring : RingId} (res : Bool) (mw : Byte) (total : W32) {s : State}
    (h1 : (s.ringAt (ringKey ring)).state = 1) (h2 : (s.ringAt (ringKey ring)).steps < 65)
    (h3 : s.admitted = false ∨ (s.bell.inGuard = true ∧ (s.ringAt (ringKey ring)).stepBeat < s.bell.beat)) :
    exec (.ringSweepStep ring res mw total) s = .next (
      let k := ringKey ring
      let m := s.ringAt k
      let t := s.quiet.swept k res mw.toNat total.toNat
      let cands := sweepCands m res total.toNat
      if m.steps + 1 < 65 then t
      else if cands = [] then (if m.unlocked then t.raise .ringUnlock else t).ringFails k 3
      else (t.setRingAt k { t.ringAt k with cands := orderCands cands }).beginLocking k) := by
  have n1 : ¬((s.quiet.ringAt (ringKey ring)).state ≠ 1 ∨ 65 ≤ (s.quiet.ringAt (ringKey ring)).steps) := by
    rintro (q | q)
    · exact q h1
    · exact absurd h2 (Nat.not_lt.mpr q)
  have n2 : ¬(s.quiet.admitted = true ∧
      (s.quiet.bell.inGuard = false ∨ s.quiet.bell.beat ≤ (s.quiet.ringAt (ringKey ring)).stepBeat)) := by
    rintro ⟨q1, q2⟩
    rcases h3 with h3 | ⟨h3, h4⟩
    · exact absurd (h3.symm.trans q1) Bool.noConfusion
    · rcases q2 with q2 | q2
      · exact absurd (h3.symm.trans q2) Bool.noConfusion
      · exact absurd h4 (Nat.not_lt.mpr q2)
  show execRingSweepStep ring res mw total s = _
  unfold execRingSweepStep
  refine (if_neg n1).trans ((if_neg n2).trans ?_)
  dsimp only
  rw [sweepCands_eq, limited_eq]
  simp only [apply_ite Host.Outcome.next]
  rfl

/-- What a step of a sweep leaves. -/
theorem State.swept_spec (s : State) (k : Nat) (res : Bool) (mw total : Nat) :
    let m := s.ringAt k
    let t := s.swept k res mw total
    (∃ now beat, RingSet heatKeys k (m.swept res mw total now beat) s t) ∧
    (s.admitted = false → m.stepAt + 5000 ≤ t.now) ∧ (s.admitted = true → t.now = s.now) ∧
    t.obj oHeaterTotalMw = min 60000 total ∧
    (heatHits mw total = 0 → SameObj s t [oHeaterTotalMw] ∧ t.mem = s.mem) ∧
    (0 < heatHits mw total → t.obj oLimitHitCount =
      (s.obj oLimitHitCount + heatHits mw total) % 2 ^ objBits oLimitHitCount) := by
  obtain ⟨p1, p2, p3, p4, p5⟩ := s.sweepPaced_spec k
  unfold State.swept
  generalize s.sweepPaced k = a at p1 p2 p3 p4 p5
  intro m t
  obtain ⟨h1, h2⟩ := a.heat_kept k mw total
  have hn : t.now = a.now := h1.now
  have ho : SameObj s a [] := SameObj.of_od p2
  have hr : ∀ j, a.ringAt j = s.ringAt j := fun j => by rw [State.ringAt, State.ringAt, p1]
  refine ⟨⟨_, _, (a.heat k mw total).ringAt_setRingAt_self .., fun j hj => ?_, ?_⟩, fun q => hn.symm ▸ p4 q,
    fun q => hn.trans (p5 q), h2, fun q => ?_, fun q => ?_⟩
  · exact (State.ringAt_setRingAt_ne _ _ hj).trans ((h1.ringAt j).trans (hr j))
  · exact (ho.mono nofun).trans h1.obj
  · refine ⟨(ho.mono nofun).trans ?_, ?_⟩
    · intro j hj
      exact (congrArg (fun x : State => x.obj j) (a.heat_of_no_hit k mw total q)).trans
        (State.obj_setObj_ne _ _ (fun e => hj (List.mem_singleton.mpr e)))
    · show (a.heat k mw total).mem = _
      rw [a.heat_of_no_hit k mw total q, State.setObj_mem, p3]
  · exact (a.heat_hits k mw total q).trans (by rw [ho _ nofun])

end Sys2Proof.Machine

namespace Sys2Proof.Machine

/-! ### RING_SWEEP_STEP -/

theorem ringSweepStep_idle {ring : RingId} (res : Bool) (mw : Byte) (total : W32) {s : State}
    (h : (s.ringAt (ringKey ring)).state ≠ 1 ∨ 65 ≤ (s.ringAt (ringKey ring)).steps ∨
      ¬(s.admitted = false ∨ (s.bell.inGuard = true ∧ (s.ringAt (ringKey ring)).stepBeat < s.bell.beat))) :
    exec (.ringSweepStep ring res mw total) s = .next s.quiet := by
  show execRingSweepStep ring res mw total s = _
  unfold execRingSweepStep
  by_cases h1 : (s.ringAt (ringKey ring)).state ≠ 1 ∨ 65 ≤ (s.ringAt (ringKey ring)).steps
  · exact if_pos h1
  · refine (if_neg h1).trans (if_pos ?_)
    have h2 := (or_assoc.mpr h).resolve_left h1
    rw [not_or, Classical.not_and_iff_not_or_not, Bool.not_eq_false, Bool.not_eq_true, Nat.not_lt] at h2
    exact h2

theorem ringSweepStep_goes {ring : RingId} (res : Bool) (mw : Byte) (total : W32) {s : State}
    (h1 : (s.ringAt (ringKey ring)).state = 1)
    (h3 : s.admitted = false ∨ (s.bell.inGuard = true ∧ (s.ringAt (ringKey ring)).stepBeat < s.bell.beat))
    (h2 : (s.ringAt (ringKey ring)).steps < 64) :
    exec (.ringSweepStep ring res mw total) s = .next (s.quiet.swept (ringKey ring) res mw.toNat total.toNat) := by
  rw [exec_ringSweepStep res mw total h1 (by omega) h3]
  exact congrArg Host.Outcome.next (if_pos (show (s.ringAt (ringKey ring)).steps + 1 < 65 by omega))

/-- The 65th step without a candidate. -/
theorem ringSweepStep_fails {ring : RingId} (res : Bool) (mw : Byte) (total : W32) {s : State}
    (h1 : (s.ringAt (ringKey ring)).state = 1)
    (h3 : s.admitted = false ∨ (s.bell.inGuard = true ∧ (s.ringAt (ringKey ring)).stepBeat < s.bell.beat))
    (h2 : (s.ringAt (ringKey ring)).steps = 64)
    (hc : sweepCands (s.ringAt (ringKey ring)) res total.toNat = []) :
    Gives (.ringSweepStep ring res mw total) s (fun t => t.obj oHeaterTotalMw = min 60000 total.toNat ∧
      (t.ringAt (ringKey ring)).state = 6) := by
  have hx := exec_ringSweepStep res mw total h1 (by omega) h3
  dsimp only at hx
  rw [h2, if_neg (by decide), if_pos hc] at hx
  obtain ⟨-, -, -, h4, -⟩ := s.quiet.swept_spec (ringKey ring) res mw.toNat total.toNat
  generalize s.quiet.swept (ringKey ring) res mw.toNat total.toNat = t at hx h4
  have hf := State.ringFails_set (if (s.ringAt (ringKey ring)).unlocked then t.raise .ringUnlock else t) (ringKey_lt ring) 3
  refine ⟨_, hx, (hf.obj _ (by decide +kernel)).trans ?_, by rw [hf.here]⟩
  split
  · exact ((t.raise_logs _).obj _ (by decide)).trans h4
  · exact h4

/-- The 65th step with a candidate. -/
theorem ringSweepStep_locks {ring : RingId} (res : Bool) (mw : Byte) (total : W32) {s : State}
    (h1 : (s.ringAt (ringKey ring)).state = 1)
    (h3 : s.admitted = false ∨ (s.bell.inGuard = true ∧ (s.ringAt (ringKey ring)).stepBeat < s.bell.beat))
    (h2 : (s.ringAt (ringKey ring)).steps = 64)
    (hc : sweepCands (s.ringAt (ringKey ring)) res total.toNat ≠ []) :
    let k := ringKey ring
    let m := s.ringAt k
    let cs := orderCands (sweepCands m res total.toNat)
    Gives (.ringSweepStep ring res mw total) s (fun t => t.obj oHeaterTotalMw = min 60000 total.toNat ∧
      ((∀ c ∈ m.cands, c ≤ 64) → (t.ringAt k).state = 2 ∧
        (s.admitted = false → (t.ringAt k).waits = false ∧ (t.ringAt k).cands = cs.tail ∧
          (t.ringAt k).setting = (Int.ofNat (cs.headD 0) - 32) * 12500) ∧
        (s.admitted = true → (t.ringAt k).waits = true ∧ (t.ringAt k).cands = cs ∧
          (t.ringAt k).setting = m.setting))) := by
  intro k m cs
  have hx := exec_ringSweepStep res mw total h1 (by omega) h3
  dsimp only at hx
  rw [h2, if_neg (by decide), if_neg hc] at hx
  obtain ⟨⟨now, beat, hset⟩, -, -, h4, -⟩ := s.quiet.swept_spec (ringKey ring) res mw.toNat total.toNat
  generalize s.quiet.swept (ringKey ring) res mw.toNat total.toNat = t at hx h4 hset
  have ha : t.admitted = s.admitted := State.admitted_congr (hset.obj _ (by decide))
  obtain ⟨u, hu, hus⟩ : ∃ u, u = t.setRingAt k { t.ringAt k with cands := cs } ∧
      RingSet [] k { t.ringAt k with cands := cs } t u := ⟨_, rfl, State.setRingAt_set ..⟩
  have hau : u.admitted = s.admitted := (State.admitted_congr (hus.obj _ nofun)).trans ha
  replace hx : exec (.ringSweepStep ring res mw total) s = .next (u.beginLocking k) := hu ▸ hx
  refine ⟨_, hx, ?_, fun hle => ?_⟩
  · rw [State.beginLocking]
    split
    · exact (hus.obj _ nofun).trans h4
    · rw [State.moveHeater]
      split
      · exact (hus.obj _ nofun).trans h4
      · exact (hus.obj _ nofun).trans h4
  · have hne : cs ≠ [] := by
      obtain ⟨c, hmem⟩ := List.exists_mem_of_ne_nil _ hc
      refine List.ne_nil_of_mem (mem_orderCands hmem ?_)
      unfold sweepCands at hmem
      split at hmem
      · rcases List.mem_append.mp hmem with q | q
        · exact hle c q
        · rw [List.mem_singleton.mp q]
          exact Nat.le_of_eq h2
      · exact hle c hmem
    have hb := u.beginLocking_set (k := k) (by rw [hus.here]; exact hne) []
    rw [hb.here, hau, hus.here]
    have hs : (t.ringAt k).setting = m.setting := by rw [hset.here]; rfl
    unfold Micro.locked?
    cases s.admitted with
    | true => exact ⟨rfl, nofun, fun _ => ⟨rfl, rfl, hs⟩⟩
    | false => exact ⟨rfl, fun _ => ⟨rfl, rfl, rfl⟩, nofun⟩

/-! ### TONE_WINDOW -/

theorem ring_tracked {s a : State} {ring : RingId} {mhz : Int} (ha : RingsKept heatKeys s a)
    (h : (s.ringAt (ringKey ring)).state = 4) :
    let k := ringKey ring
    let m := s.ringAt k
    let t := a.trackRing k mhz
    let alone := ∀ j, j ≠ k → t.ringAt j = s.ringAt j
    let want := clampInt 400000 (m.setting + mhz) - m.setting
    ((s.admitted = false → (t.ringAt k).state = 4 ∧ (t.ringAt k).setting = m.setting + want ∧
       (t.ringAt k).track = 0 ∧ (t.ringAt k).want = 0 ∧ alone) ∧
     (s.admitted = true → mhz.natAbs ≤ 50000 → (t.ringAt k).state = 4 ∧ (t.ringAt k).setting = m.setting ∧
       (t.ringAt k).track = clampInt 25000 want ∧ (t.ringAt k).want = want ∧ alone) ∧
     (s.admitted = true → 50000 < mhz.natAbs → (t.ringAt k).state = 1 ∧ (t.ringAt k).steps = 0 ∧ (t.ringAt k).cands = [] ∧
       (t.ringAt k).unlocked = true ∧ alone)) ∧ t.obj oHeaterTotalMw = a.obj oHeaterTotalMw := by
  intro k m t alone want
  obtain ⟨m', hs, h1, h2, h3⟩ := a.trackRing_set (ringKey_lt ring) mhz
  rw [ha.ringAt, ha.admitted] at h1
  rw [ha.ringAt, ha.admitted] at h2 h3
  have hal : alone := fun j hj => (hs.alone j hj).trans (ha.ringAt j)
  refine ⟨⟨fun q => ?_, fun q r => ?_, fun q r => ?_⟩, hs.obj _ (by decide +kernel)⟩
  · rw [hs.here, h1 q]
    exact ⟨h, rfl, rfl, rfl, hal⟩
  · rw [hs.here, h2 q r]
    exact ⟨h, rfl, rfl, rfl, hal⟩
  · rw [hs.here, h3 q r]
    exact ⟨rfl, rfl, rfl, rfl, hal⟩

/-- A ring at which another line's tone shows unlocks, and the mismatch counts. -/
theorem ring_mismatched {s a : State} {ring : RingId} (ha : RingsKept [] s a) (word : Nat) :
    let k := ringKey ring
    let t := (a.mismatch word).unlockRing k
    ((t.ringAt k).state = 1 ∧ (t.ringAt k).steps = 0 ∧ (t.ringAt k).cands = [] ∧ (t.ringAt k).unlocked = true ∧
      ∀ j, j ≠ k → t.ringAt j = s.ringAt j) ∧
    t.obj oMismatchCount = (s.obj oMismatchCount + 1) % 2 ^ objBits oMismatchCount := by
  intro k t
  obtain ⟨h1, h2⟩ := a.mismatch_kept word
  have hu := (a.mismatch word).unlockRing_set (ringKey_lt ring)
  refine ⟨?_, ?_⟩
  · rw [hu.here]
    exact ⟨rfl, rfl, rfl, rfl, fun j hj => (hu.alone j hj).trans ((h1.ringAt j).trans (ha.ringAt j))⟩
  · rw [hu.obj _ (by decide +kernel), h2, ha.obj _ nofun]

theorem toneWindow_locks {ring : RingId} {ts : List Tone} (w : W16) (mhz : W32) {s : State}
    (h : (s.ringAt (ringKey ring)).state = 3) (hne : ts ≠ []) (hw : wrongTone (ringLane (ringKey ring)) ts = none) :
    exec (.toneWindow ring ts w mhz) s = .next ((s.quiet.notePower (ringKey ring) w.toNat).lockRing (ringKey ring)) := by
  show execToneWindow ring ts w mhz s = _
  refine (if_pos h).trans (if_pos ?_)
  rw [hw, List.isEmpty_eq_false_iff.mpr hne]
  rfl

theorem tone_not_right {n : Nat} {ts : List Tone} (h : ts = [] ∨ wrongTone n ts ≠ none) :
    (!ts.isEmpty && (wrongTone n ts).isNone) = false := by
  rcases h with h | h
  · rw [h]; rfl
  · rw [Option.isNone_eq_false_iff.mpr (Option.isSome_iff_ne_none.mpr h), Bool.and_false]

/-- A window of a VERIFYING ring that does not show its tone. -/
theorem toneWindow_refuses {ring : RingId} {ts : List Tone} (w : W16) (mhz : W32) {s : State}
    (h : (s.ringAt (ringKey ring)).state = 3) (hw : ts = [] ∨ wrongTone (ringLane (ringKey ring)) ts ≠ none) :
    ∃ word cause, exec (.toneWindow ring ts w mhz) s = .next (
      let t := (s.quiet.notePower (ringKey ring) w.toNat).mismatch word
      if (s.ringAt (ringKey ring)).cands = [] then t.ringFails (ringKey ring) cause else t.beginLocking (ringKey ring)) := by
  refine ⟨mismatchWord (ringKey ring) (wrongTone (ringLane (ringKey ring)) ts), if ts.isEmpty then 3 else 1, ?_⟩
  show execToneWindow ring ts w mhz s = _
  unfold execToneWindow
  refine (if_pos h).trans ((if_neg (fun q => absurd (q.symm.trans (tone_not_right hw)) Bool.noConfusion)).trans ?_)
  dsimp only
  rw [show s.quiet.ringAt (ringKey ring) = s.ringAt (ringKey ring) from rfl]
  cases (s.ringAt (ringKey ring)).cands with
  | nil => rw [if_pos rfl]
  | cons c cs => rw [if_neg (List.cons_ne_nil c cs)]

theorem toneWindow_slips {ring : RingId} {ts : List Tone} (w : W16) (mhz : W32) {s : State}
    (h : (s.ringAt (ringKey ring)).state = 4 ∨
      ((s.ringAt (ringKey ring)).state = 5 ∧ (s.ringAt (ringKey ring)).dark = false))
    (hw : wrongTone (ringLane (ringKey ring)) ts ≠ none) :
    ∃ word, exec (.toneWindow ring ts w mhz) s = .next
      (((s.quiet.notePower (ringKey ring) w.toNat).mismatch word).unlockRing (ringKey ring)) := by
  have hs := Option.isSome_iff_ne_none.mpr hw
  rcases h with h | ⟨h, hd⟩
  · refine ⟨_, (if_neg ?_).trans ((if_pos h).trans (if_pos hs))⟩
    exact fun q => absurd (h.symm.trans q) (by decide)
  · refine ⟨_, (if_neg ?_).trans ((if_neg ?_).trans ((if_pos ⟨h, hd⟩).trans ((if_neg ?_).trans (if_pos hs))))⟩
    · exact fun q => absurd (h.symm.trans q) (by decide)
    · exact fun q => absurd (h.symm.trans q) (by decide)
    · exact fun q => absurd (q.symm.trans (tone_not_right (Or.inr hw))) Bool.noConfusion

theorem toneWindow_tracks {ring : RingId} {ts : List Tone} (w : W16) (mhz : W32) {s : State}
    (h : (s.ringAt (ringKey ring)).state = 4) (hw : wrongTone (ringLane (ringKey ring)) ts = none) :
    exec (.toneWindow ring ts w mhz) s = .next
      ((s.quiet.notePower (ringKey ring) w.toNat).trackRing (ringKey ring) (toSigned 32 mhz.toNat)) := by
  refine (if_neg ?_).trans ((if_pos h).trans (if_neg ?_))
  · exact fun q => absurd (h.symm.trans q) (by decide)
  · show ¬(wrongTone (ringLane (ringKey ring)) ts).isSome = true
    rw [hw]
    exact Bool.noConfusion

theorem toneWindow_holds {ring : RingId} {ts : List Tone} (w : W16) (mhz : W32) {s : State}
    (h : (s.ringAt (ringKey ring)).state = 5) (hd : (s.ringAt (ringKey ring)).dark = false) (hne : ts ≠ [])
    (hw : wrongTone (ringLane (ringKey ring)) ts = none) :
    exec (.toneWindow ring ts w mhz) s = .next ((s.quiet.notePower (ringKey ring) w.toNat).setRingAt (ringKey ring)
      { s.ringAt (ringKey ring) with state := 4 }) := by
  refine (if_neg ?_).trans ((if_neg ?_).trans ((if_pos ⟨h, hd⟩).trans (if_pos ?_)))
  · exact fun q => absurd (h.symm.trans q) (by decide)
  · exact fun q => absurd (h.symm.trans q) (by decide)
  · rw [hw, List.isEmpty_eq_false_iff.mpr hne]
    rfl

theorem toneWindow_notes {ring : RingId} {ts : List Tone} (w : W16) (mhz : W32) {s : State}
    (h : (s.ringAt (ringKey ring)).state = 5 ∧ (s.ringAt (ringKey ring)).dark = false ∧ ts = [] ∨
      (s.ringAt (ringKey ring)).state = 5 ∧ (s.ringAt (ringKey ring)).dark = true ∨
      (s.ringAt (ringKey ring)).state < 3 ∨ 5 < (s.ringAt (ringKey ring)).state) :
    exec (.toneWindow ring ts w mhz) s = .next (s.quiet.notePower (ringKey ring) w.toNat) := by
  have n3 : ¬(s.ringAt (ringKey ring)).state = 3 := by omega
  have n4 : ¬(s.ringAt (ringKey ring)).state = 4 := by omega
  refine (if_neg n3).trans ((if_neg n4).trans ?_)
  rcases h with ⟨h1, h2, rfl⟩ | h
  · exact (if_pos ⟨h1, h2⟩).trans ((if_neg Bool.noConfusion).trans (if_neg Bool.noConfusion))
  · refine if_neg ?_
    rintro ⟨q1, q2⟩
    rcases h with ⟨-, h⟩ | h | h
    · exact absurd (q2.symm.trans h) Bool.noConfusion
    · exact absurd (Nat.lt_of_le_of_lt (Nat.le_of_eq q1.symm) h) (by decide)
    · exact absurd (Nat.le_trans h (Nat.le_of_eq q1)) (by decide)

/-! ### The obligation -/

/-- Settles O53, command by command: which ring is set to what is one lemma about each operation of the tuning. -/
theorem ringTuning : Obligations.RingTuning := by
  intro ring s k m alone unlocked tracked
  refine ⟨?_, ?_, ?_, ?_, ?_, ?_, ?_, ?_, ?_⟩
  · intro res mw total sweep free cands hits
    refine ⟨fun h => ringSweepStep_idle res mw total h, fun h1 h3 h2 => ?_, fun h1 h3 h2 => ?_⟩
    · obtain ⟨⟨now, beat, hs⟩, p1, p2, p3, p4, p5⟩ := s.quiet.swept_spec k res mw.toNat total.toNat
      refine ⟨_, ringSweepStep_goes res mw total h1 h3 h2, p1, p2, ?_, ?_, ?_, ?_, hs.alone, p3, p4, p5⟩
      · rw [hs.here]; exact h1
      · rw [hs.here]; rfl
      · rw [hs.here]; rfl
      · rw [hs.here]; rfl
    · by_cases hc : cands = []
      · obtain ⟨t, hx, q1, q2⟩ := ringSweepStep_fails res mw total h1 h3 h2 hc
        exact ⟨t, hx, q1, fun _ => q2, fun q => absurd hc q⟩
      · obtain ⟨t, hx, q1, q2⟩ := ringSweepStep_locks res mw total h1 h3 h2 hc
        exact ⟨t, hx, q1, fun q => absurd q hc, fun _ hle => q2 hle⟩
  · intro h
    refine ⟨_, if_pos h, ?_⟩
    have hs := s.quiet.setRingAt_set k { m with state := 3 } []
    exact ⟨congrArg Micro.state hs.here, (congrArg Micro.setting hs.here).trans rfl, hs.alone, rfl, rfl⟩
  · intro h
    refine if_neg ?_
    rintro ⟨q1, q2⟩
    rcases h with h | h
    · exact h q1
    · exact absurd (q2.symm.trans h) Bool.noConfusion
  · intro ts w mhz window wrong mismatched
    obtain ⟨hn, hod⟩ := s.quiet.notePower_kept k w.toNat
    have hn' : RingsKept [] s (s.quiet.notePower k w.toNat) := ⟨hn.micro, hn.bell, hn.now, hn.plan, hn.obj⟩
    refine ⟨fun h hne hw => ?_, fun h hw hc => ?_, fun h hw hc => ?_, fun h hw => ?_, fun h hw => ?_,
      fun h hd hne hw => ?_, fun h hd hw => ?_, fun h => toneWindow_notes w mhz h⟩
    · have hl := RingSet.after (hn'.mono nofun (by decide)) (State.lockRing_set _ k)
      rw [hn'.ringAt] at hl
      exact ⟨_, toneWindow_locks w mhz h hne hw, by rw [hl.here], by rw [hl.here], by rw [hl.here], hl.alone, hl.obj⟩
    · obtain ⟨word, cause, hx⟩ := toneWindow_refuses w mhz h hw
      dsimp only at hx
      rw [if_pos hc] at hx
      obtain ⟨h1, h2⟩ := (s.quiet.notePower k w.toNat).mismatch_kept word
      have hf := ((s.quiet.notePower k w.toNat).mismatch word).ringFails_set (ringKey_lt ring) cause
      refine ⟨_, hx, by rw [hf.here], ?_⟩
      show State.obj _ oMismatchCount = _
      rw [hf.obj _ (by decide +kernel), h2, hn'.obj _ nofun]
    · obtain ⟨word, cause, hx⟩ := toneWindow_refuses w mhz h hw
      dsimp only at hx
      rw [if_neg hc] at hx
      obtain ⟨h1, h2⟩ := (s.quiet.notePower k w.toNat).mismatch_kept word
      have hr : ∀ j, ((s.quiet.notePower k w.toNat).mismatch word).ringAt j = s.ringAt j :=
        fun j => (h1.ringAt j).trans (hn'.ringAt j)
      have hb := ((s.quiet.notePower k w.toNat).mismatch word).beginLocking_set (k := k) (by rw [hr]; exact hc) []
      rw [hr, h1.admitted, hn'.admitted] at hb
      refine ⟨_, hx, ?_, ?_, fun j hj => (hb.alone j hj).trans (hr j), fun q => ?_, fun q => ?_⟩
      · rw [hb.here, Micro.locked?]; split <;> rfl
      · show State.obj _ oMismatchCount = _
        rw [hb.obj _ nofun, h2, hn'.obj _ nofun]
      · rw [hb.here, q]; exact ⟨rfl, rfl⟩
      · rw [hb.here, q]; exact ⟨rfl, rfl⟩
    · obtain ⟨word, hx⟩ := toneWindow_slips w mhz (Or.inl h) hw
      exact ⟨_, hx, ring_mismatched hn' word⟩
    · exact ⟨_, toneWindow_tracks w mhz h hw, (ring_tracked (hn'.mono nofun (by decide)) h).1⟩
    · have hs := (s.quiet.notePower k w.toNat).setRingAt_set k { m with state := 4 } []
      exact ⟨_, toneWindow_holds w mhz h hd hne hw, by rw [hs.here], by rw [hs.here],
        fun j hj => (hs.alone j hj).trans (hn'.ringAt j), hod⟩
    · obtain ⟨word, hx⟩ := toneWindow_slips w mhz (Or.inr ⟨h, hd⟩) hw
      exact ⟨_, hx, ring_mismatched hn' word⟩
  · intro h
    have hs := (s.quiet.setRingAt_set k { m with state := 5, dark := true } linkKeys).then
      (State.ringLanesLost_laneWork _ (ringKey_lt ring)).ringsKept
    exact ⟨_, if_pos h, congrArg Micro.state hs.here, congrArg Micro.dark hs.here, (congrArg Micro.setting hs.here).trans rfl, hs.alone⟩
  · exact fun h => if_neg h
  · intro h
    have hs := s.quiet.setRingAt_set k { m with dark := false } []
    exact ⟨_, if_pos h, (congrArg Micro.state hs.here).trans h, congrArg Micro.dark hs.here, hs.alone, rfl, rfl⟩
  · exact fun h => if_neg h
  · rintro d rfl high
    refine ⟨fun h => if_pos h, fun h hh => ?_, fun h hh => ?_⟩
    · obtain ⟨h1, h2⟩ := s.quiet.heat_kept k d.ringMw.toNat d.totalMw.toNat
      have hx : exec (.ringDrift d) s = .next ((s.quiet.heat k d.ringMw.toNat d.totalMw.toNat).unlockRing k) :=
        (if_neg (Classical.not_not.mpr h)).trans (if_pos hh)
      generalize s.quiet.heat k d.ringMw.toNat d.totalMw.toNat = a at h1 h2 hx
      have hu := a.unlockRing_set (ringKey_lt d.ring)
      refine ⟨_, hx, ⟨by rw [hu.here]; rfl, by rw [hu.here]; rfl, by rw [hu.here]; rfl, by rw [hu.here],
        fun j hj => (hu.alone j hj).trans (h1.ringAt j)⟩, (hu.obj _ (by decide +kernel)).trans h2⟩
    · obtain ⟨h1, h2⟩ := s.quiet.heat_kept k d.ringMw.toNat d.totalMw.toNat
      have hx : exec (.ringDrift d) s = .next ((s.quiet.heat k d.ringMw.toNat d.totalMw.toNat).trackRing k
          (toSigned 32 d.driftMhz.toNat)) := (if_neg (Classical.not_not.mpr h)).trans (if_neg hh)
      generalize s.quiet.heat k d.ringMw.toNat d.totalMw.toNat = a at h1 h2 hx
      obtain ⟨t1, t2⟩ := ring_tracked (mhz := toSigned 32 d.driftMhz.toNat)
        (show RingsKept heatKeys s a from ⟨h1.micro, h1.bell, h1.now, h1.plan, h1.obj⟩) h
      refine ⟨_, hx, t1, t2.trans (h2.trans (Nat.min_eq_right ?_))⟩
      exact Nat.not_lt.mp (fun q => hh (Or.inr q))

end Sys2Proof.Machine

namespace Sys2Proof.Machine

/-! ### Line protection: what is never put in a line -/

/-- No stored line of `t` has errors that it has not in `s`, and none but those of `ls` is newly marked. -/
structure LinesKept (ls : List Nat) (s t : State) : Prop where
  errors : ∀ l, Bank.get t.mem.errors 0 l = Bank.get s.mem.errors 0 l ∨ Bank.get t.mem.errors 0 l = 0
  marks : ∀ l, l ∉ ls → s.marked l = false → t.marked l = false

theorem LinesKept.of_mem {ls : List Nat} {s t : State} (h : t.mem.errors = s.mem.errors) (k : t.mem.poison = s.mem.poison) :
    LinesKept ls s t :=
  ⟨fun l => Or.inl (by rw [h]), fun l _ q => by rw [State.marked, k]; exact q⟩

theorem LinesKept.refl (ls : List Nat) (s : State) : LinesKept ls s s := .of_mem rfl rfl

theorem LinesKept.trans {ls : List Nat} {s t u : State} (h : LinesKept ls s t) (k : LinesKept ls t u) : LinesKept ls s u := by
  refine ⟨fun l => ?_, fun l hl q => k.marks l hl (h.marks l hl q)⟩
  rcases k.errors l with q | q
  · rw [q]
    exact h.errors l
  · exact Or.inr q

theorem LinesKept.mono {ls ms : List Nat} {s t : State} (h : LinesKept ls s t) (hm : ∀ l ∈ ls, l ∈ ms) : LinesKept ms s t :=
  ⟨h.errors, fun l hl => h.marks l (fun q => hl (hm l q))⟩

theorem LinesKept.zero {ls : List Nat} {s t : State} (h : LinesKept ls s t) {l : Nat} (q : Bank.get s.mem.errors 0 l = 0) :
    Bank.get t.mem.errors 0 l = 0 := by
  rcases h.errors l with k | k
  · rw [k, q]
  · exact k

theorem State.freshLine_errors (s : State) (line l : Nat) :
    Bank.get (s.freshLine line).mem.errors 0 l = if l = line then 0 else Bank.get s.mem.errors 0 l := by
  show Bank.get (Bank.set s.mem.errors 0 line 0) 0 l = _
  rw [Bank.get_set]

theorem State.freshLine_linesKept (s : State) (line : Nat) : LinesKept [] s (s.freshLine line) := by
  refine ⟨fun l => ?_, fun l _ q => q⟩
  rw [s.freshLine_errors]
  split
  · exact Or.inr rfl
  · exact Or.inl rfl

theorem State.unmark_linesKept (s : State) (line : Nat) : LinesKept [] s (s.unmark line) := by
  refine ⟨fun l => Or.inl rfl, fun l _ q => ?_⟩
  rw [State.marked, List.contains_eq_mem, decide_eq_false_iff_not] at q ⊢
  exact fun h => q (List.mem_filter.mp h).1

theorem State.writeLine_linesKept (s : State) (line : Nat) (bs : Bytes) : LinesKept [] s (s.writeLine line bs) :=
  ((s.freshLine_linesKept line).trans (State.unmark_linesKept _ line)).trans (.of_mem rfl rfl)

/-! ### What an event leaves of the lines -/

theorem State.sendMessage_mem (s : State) (n ty : Nat) (ps : List Piece) (step attempt kind : Nat) :
    (s.sendMessage n ty ps step attempt kind).mem = s.mem := by
  obtain ⟨_, _, e⟩ := sendMessage_shape s n ty ps step attempt kind
  rw [e]
  rfl

theorem State.postRecord_linesKept (s : State) (q : QueueEntry) (kind : Nat) (body : Bytes) :
    LinesKept [] s (s.postRecord q kind body).1 := by
  unfold State.postRecord
  extract_lets r bytes off s1 s2
  split
  · exact .of_mem rfl rfl
  · show LinesKept [] s (if q.region = 0xFFFF then _ else _)
    split
    · exact .of_mem (by rw [State.sendMessage_mem]; rfl) (by rw [State.sendMessage_mem]; rfl)
    · split
      · exact LinesKept.trans (t := s1) (.of_mem rfl rfl) (State.writeLine_linesKept ..)
      · exact .of_mem rfl rfl

theorem State.logEvent_mem (s : State) (e : Ev) (cls : Nat) (dk : Option Nat) (detail : Nat) (keeper : Bool) :
    (s.logEvent e cls dk detail keeper).1.mem = s.mem := by
  unfold State.logEvent
  extract_lets s1 r wantsFlash fits toFlash entry src led s2 s3
  have h3 : s3.mem = s.mem := by
    show (if toFlash = true then _ else s2).mem = _
    split <;> rfl
  split
  · exact h3
  · exact h3

theorem State.raiseOnce_linesKept (s : State) (e : Ev) (cls : Nat) (dk : Option Nat) (detail : Nat) :
    LinesKept [] s (s.raiseOnce e cls dk detail).1 := by
  have hm := s.logEvent_mem e cls dk detail s.power.warmReset.isSome
  have h : LinesKept [] s (s.logEvent e cls dk detail s.power.warmReset.isSome).1 := .of_mem (by rw [hm]) (by rw [hm])
  unfold State.raiseOnce
  extract_lets r
  split
  · exact h.trans (State.postRecord_linesKept ..)
  · exact h

theorem State.noteSuppressed_linesKept (s : State) (before : Nat) : LinesKept [] s (s.noteSuppressed before) := by
  unfold State.noteSuppressed
  split
  · extract_lets led t
    exact LinesKept.trans (t := t) (.of_mem rfl rfl) (State.raiseOnce_linesKept ..)
  · exact LinesKept.refl [] s

theorem State.raiseWith_linesKept (s : State) (e : Ev) (cls : Nat) (dk : Option Nat) (detail : Nat) :
    LinesKept [] s (s.raiseWith e cls dk detail) := by
  unfold State.raiseWith
  extract_lets before r t
  have ht : LinesKept [] s t := (s.raiseOnce_linesKept e cls dk detail).trans (State.noteSuppressed_linesKept ..)
  split
  · exact ht.trans (State.raiseOnce_linesKept ..)
  · exact ht

theorem State.raiseAt_linesKept (s : State) (e : Ev) (n cls : Nat) : LinesKept [] s (s.raiseAt e n cls) := by
  unfold State.raiseAt
  split
  · exact State.raiseWith_linesKept ..
  · exact State.raiseWith_linesKept ..

/-! ### What a line met leaves -/

theorem State.retirePage_linesKept (s : State) (page : Nat) : LinesKept [] s (s.retirePage page) := by
  unfold State.retirePage
  split
  · exact LinesKept.refl [] s
  · extract_lets ch used m t u
    split
    · exact State.raiseAt_linesKept ..
    · exact .of_mem rfl rfl

theorem State.correctedEvent_linesKept (s : State) (line : Nat) : LinesKept [] s (s.correctedEvent line) := by
  unfold State.correctedEvent
  extract_lets t page last m u
  have h : LinesKept [] s u := .of_mem rfl rfl
  split
  · exact h.trans (State.retirePage_linesKept ..)
  · exact h

theorem State.uncorrectable_none (s : State) (va line : Nat) : ∃ v, s.uncorrectable none va line =
    ((s.bump oUncorrectableCount).setObj oLastUncorrectable v).raiseAt .memoryUncorrectable 0 0 := ⟨_, rfl⟩

theorem State.uncorrectable_none_linesKept (s : State) (va line : Nat) :
    LinesKept [] s (s.uncorrectable none va line) := by
  obtain ⟨v, h⟩ := s.uncorrectable_none va line
  rw [h]
  exact LinesKept.trans (t := (s.bump oUncorrectableCount).setObj oLastUncorrectable v) (.of_mem rfl rfl)
    (State.raiseAt_linesKept ..)

theorem mem_insertSorted (x y : Nat) (l : List Nat) : y ∈ insertSorted x l ↔ y = x ∨ y ∈ l := by
  induction l with
  | nil => simp [insertSorted]
  | cons z zs ih =>
    rw [insertSorted]
    split
    · exact List.mem_cons
    · split
      · next h => subst h; simp
      · simp [ih, or_left_comm]

theorem State.mark_linesKept (s : State) (line : Nat) : LinesKept [line] s (s.mark line) := by
  refine ⟨fun _ => Or.inl rfl, fun l hl q => ?_⟩
  rw [State.marked, List.contains_eq_mem, decide_eq_false_iff_not] at q ⊢
  intro h
  rcases (mem_insertSorted line l _).mp h with k | k
  · exact hl (List.mem_singleton.mpr k)
  · exact q k

/-- The word stored in a line, with its errors. -/
def State.lineWord (s : State) (line : Nat) : List Nat :=
  storedWord (memRead s.mem.bytes line 64) (Bank.get s.mem.errors 0 line)

/-- A line's symbols written back without errors. -/
def State.rewritten (s : State) (line : Nat) (w : List Nat) : State := (s.freshLine line).poke line (symbolBytes w)

/-- A line in which an error is detected: it is marked and raised, and its page retired. -/
def State.lineLost (s : State) (ag : Option Agent) (va line : Nat) : State :=
  (((s.rewritten line (s.lineWord line)).mark line).uncorrectable ag va line).retirePage (line / 4096)

section
variable {s : State} {ag : Option Agent} {va line : Nat} (hm : s.marked line = false) (he : Bank.get s.mem.errors 0 line ≠ 0)
include hm he

theorem State.meetLine_clean (h : decodeWord (s.lineWord line) = .clean) :
    s.meetLine ag va line = s.rewritten line (s.lineWord line) := by
  unfold State.meetLine
  rw [State.lineWord] at h
  simp only [hm, he, h, Bool.false_eq_true, if_false]
  rfl

theorem State.meetLine_corrected {c : List Nat} (h : decodeWord (s.lineWord line) = .corrected c) :
    s.meetLine ag va line = (s.rewritten line c).correctedEvent line := by
  unfold State.meetLine
  rw [State.lineWord] at h
  simp only [hm, he, h, Bool.false_eq_true, if_false]
  rfl

theorem State.meetLine_detected (h : decodeWord (s.lineWord line) = .detected) :
    s.meetLine ag va line = s.lineLost ag va line := by
  unfold State.meetLine
  rw [State.lineWord] at h
  simp only [hm, he, h, Bool.false_eq_true, if_false]
  rfl
end

/-- Patrol scrub and the page copy pass a line that is marked or holds no error. -/
theorem State.meetLine_passes {s : State} {va line : Nat} (h : s.marked line = true ∨ Bank.get s.mem.errors 0 line = 0) :
    s.meetLine none va line = s := by
  unfold State.meetLine
  cases hm : s.marked line with
  | true => rfl
  | false =>
    have he : Bank.get s.mem.errors 0 line = 0 := h.resolve_left (by rw [hm]; exact Bool.noConfusion)
    simp only [he, if_true, Bool.false_eq_true, if_false]

theorem State.rewritten_linesKept (s : State) (line : Nat) (w : List Nat) : LinesKept [line] s (s.rewritten line w) ∧
    Bank.get (s.rewritten line w).mem.errors 0 line = 0 :=
  ⟨((s.freshLine_linesKept line).mono nofun).trans (.of_mem rfl rfl), (s.freshLine_errors line line).trans (if_pos rfl)⟩

theorem State.lineLost_linesKept (s : State) (va line : Nat) : LinesKept [line] s (s.lineLost none va line) ∧
    Bank.get (s.lineLost none va line).mem.errors 0 line = 0 := by
  obtain ⟨h1, h2⟩ := s.rewritten_linesKept line (s.lineWord line)
  unfold State.lineLost
  generalize s.rewritten line (s.lineWord line) = t at h1 h2
  have hm := t.mark_linesKept line
  generalize t.mark line = m at hm
  have hu := m.uncorrectable_none_linesKept va line
  generalize m.uncorrectable none va line = n at hu
  have hd := (hm.trans (hu.mono (ms := [line]) nofun)).trans ((n.retirePage_linesKept (line / 4096)).mono (ms := [line]) nofun)
  exact ⟨h1.trans hd, hd.zero h2⟩

/-- A line met by patrol scrub or a page copy: its errors are gone where it was not marked. -/
theorem State.meetLine_none (s : State) (va line : Nat) : LinesKept [line] s (s.meetLine none va line) ∧
    (s.marked line = false → Bank.get (s.meetLine none va line).mem.errors 0 line = 0) := by
  by_cases h : s.marked line = true ∨ Bank.get s.mem.errors 0 line = 0
  · rw [State.meetLine_passes h]
    exact ⟨LinesKept.refl _ s, fun q => h.resolve_left (by rw [q]; exact Bool.noConfusion)⟩
  · rw [not_or, Bool.not_eq_true] at h
    obtain ⟨hm, he⟩ := h
    cases hd : decodeWord (s.lineWord line) with
    | clean =>
      rw [State.meetLine_clean hm he hd]
      obtain ⟨h1, h2⟩ := s.rewritten_linesKept line (s.lineWord line)
      exact ⟨h1, fun _ => h2⟩
    | corrected c =>
      rw [State.meetLine_corrected hm he hd]
      obtain ⟨h1, h2⟩ := s.rewritten_linesKept line c
      have hc := ((s.rewritten line c).correctedEvent_linesKept line).mono (ms := [line]) nofun
      exact ⟨h1.trans hc, fun _ => hc.zero h2⟩
    | detected =>
      rw [State.meetLine_detected hm he hd]
      obtain ⟨h1, h2⟩ := s.lineLost_linesKept va line
      exact ⟨h1, fun _ => h2⟩

end Sys2Proof.Machine

namespace Sys2Proof.Machine

/-! ### Bytes written and read back -/

theorem Bank.get_eq_default {α : Type} {m : Bank α} {d : α} {k : Nat} (h : ∀ e ∈ m, e.1 ≠ k) : Bank.get m d k = d := by
  induction m with
  | nil => rfl
  | cons e rest ih =>
    rw [Bank.get, if_neg (h e (List.mem_cons_self ..))]
    exact ih (fun f hf => h f (List.mem_cons_of_mem _ hf))

theorem cellsOf_get (bs : Bytes) (a i : Nat) (h : i < bs.length) : Bank.get (cellsOf a bs) 0 (a + i) = bs[i] := by
  induction bs generalizing a i with
  | nil => exact absurd h (Nat.not_lt_zero i)
  | cons b bs ih =>
    rw [cellsOf]
    cases i with
    | zero =>
      split
      · next hb => exact (Bank.get_eq_default (fun e he => by have := (cellsOf_mem he).1; omega)).trans hb.symm
      · exact if_pos rfl
    | succ i =>
      have hi := ih (a + 1) i (Nat.lt_of_succ_lt_succ h)
      rw [Nat.add_assoc, Nat.add_comm 1 i] at hi
      split
      · exact hi
      · exact (if_neg (by omega)).trans hi

theorem memRead_memWrite (m : List Host.Cell) (a : Nat) (bs : Bytes) : memRead (memWrite m a bs) a bs.length = bs := by
  have hseg : (memWrite m a bs).filter (fun c => decide (a ≤ c.1) && decide (c.1 < a + bs.length)) = cellsOf a bs := by
    have h1 : (m.filter (fun c => decide (c.1 < a))).filter
        (fun c => decide (a ≤ c.1) && decide (c.1 < a + bs.length)) = [] := List.filter_eq_nil_iff.mpr (fun c hc => by
      have := of_decide_eq_true (List.mem_filter.mp hc).2
      simp only [Bool.and_eq_true, decide_eq_true_eq]
      omega)
    have h2 : (cellsOf a bs).filter (fun c => decide (a ≤ c.1) && decide (c.1 < a + bs.length)) = cellsOf a bs :=
      List.filter_eq_self.mpr (fun c hc => by
        obtain ⟨h1, h2, -⟩ := cellsOf_mem hc
        simp only [Bool.and_eq_true, decide_eq_true_eq]
        exact ⟨h1, h2⟩)
    have h3 : (m.filter (fun c => decide (a + bs.length ≤ c.1))).filter
        (fun c => decide (a ≤ c.1) && decide (c.1 < a + bs.length)) = [] := List.filter_eq_nil_iff.mpr (fun c hc => by
      have := of_decide_eq_true (List.mem_filter.mp hc).2
      simp only [Bool.and_eq_true, decide_eq_true_eq]
      omega)
    rw [memWrite, List.filter_append, List.filter_append, h1, h2, h3, List.nil_append, List.append_nil]
  unfold memRead
  extract_lets seg
  rw [show seg = cellsOf a bs from hseg]
  refine List.ext_getElem (by simp [upto]) (fun i h1 h2 => ?_)
  rw [List.getElem_map]
  simp only [upto, List.getElem_range]
  exact cellsOf_get bs a i h2

theorem symbolBytes_length {ws : List Nat} (h : 32 ≤ ws.length) : (symbolBytes ws).length = 64 := by
  rw [symbolBytes, List.length_flatMap, List.map_congr_left (g := fun _ => 2) (fun w _ => natLe_length 2 w)]
  rw [List.map_const', List.sum_replicate_nat, List.length_take, Nat.min_eq_left h]

theorem fixSymbols_length (w : List Nat) (es : List (Nat × Nat)) : (fixSymbols w es).length = w.length := by
  simp [fixSymbols]

theorem storedWord_length (bs : Bytes) (e : Nat) : 32 ≤ (storedWord bs e).length := by
  simp [storedWord, dataSymbols, upto]

theorem corrected_length {w c : List Nat} (h : decodeWord w = .corrected c) : c.length = w.length := by
  unfold decodeWord at h
  extract_lets s0 s1 s2 s3 det d a b at h
  split at h
  · exact nomatch h
  · split at h
    · split at h
      · next i _ =>
        cases h
        exact fixSymbols_length ..
      · exact nomatch h
    · split at h
      · next i j _ =>
        cases h
        exact fixSymbols_length ..
      · exact nomatch h

/-! ### What a line met by patrol scrub leaves -/

/-- Errors that strike lines change nothing else. -/
theorem State.strike_spec (s : State) (us : List Upset) :
    ∃ e, s.strike us = { s with mem := { s.mem with errors := e } } := by
  refine List.foldlRecOn us _ (motive := fun t : State => ∃ e, t = { s with mem := { s.mem with errors := e } }) ⟨_, rfl⟩ ?_
  rintro t ⟨e, rfl⟩ u -
  exact ⟨_, rfl⟩

theorem State.rewritten_spec (s : State) (line : Nat) (w : List Nat) :
    (s.rewritten line w).od = s.od ∧ (s.rewritten line w).mem.poison = s.mem.poison ∧
    (s.rewritten line w).mem.bytes = memWrite s.mem.bytes line (symbolBytes w) ∧ MemWork s (s.rewritten line w) :=
  ⟨rfl, rfl, rfl, (s.freshLine_memWork line).trans (State.poke_memWork ..)⟩

/-- The objects that a page's retirement writes. -/
def retireKeys : List Nat := oSparesLeftMin :: oPagesRetired :: eventKeys

/-- A page's retirement leaves the lines as they are where no record is posted. -/
theorem State.retirePage_spec (s : State) (page : Nat) : SameObj s (s.retirePage page) retireKeys ∧
    (s.eventQueue = none → (s.retirePage page).mem.bytes = s.mem.bytes ∧ (s.retirePage page).mem.poison = s.mem.poison) := by
  unfold State.retirePage
  split
  · exact ⟨SameObj.refl s _, fun _ => ⟨rfl, rfl⟩⟩
  · extract_lets ch used m t u
    split
    · have hl := s.raise_logs .memorySparesOut
      exact ⟨hl.sameObj.mono (by decide), fun q => by rw [(hl.quiet q).1]; exact ⟨rfl, rfl⟩⟩
    · refine ⟨((SameObj.refl s retireKeys).setObj (k := oSparesLeftMin) _ (by decide)).bump (k := oPagesRetired) (by decide),
        fun _ => ⟨rfl, rfl⟩⟩

theorem State.correctedEvent_spec (s : State) (line : Nat) :
    (s.correctedEvent line).obj oCorrectedCount = (s.obj oCorrectedCount + 1) % 2 ^ objBits oCorrectedCount ∧
    (s.eventQueue = none → (s.correctedEvent line).mem.bytes = s.mem.bytes ∧
      (s.correctedEvent line).mem.poison = s.mem.poison) := by
  have hb := s.bump_obj_self oCorrectedCount
  unfold State.correctedEvent
  extract_lets t page last m u
  have hu : u.obj oCorrectedCount = (s.obj oCorrectedCount + 1) % 2 ^ objBits oCorrectedCount := hb
  have hq : u.eventQueue = s.eventQueue := (MemWork.setObj s _ (by decide) |>.trans (MemWork.setMem t m)).queue
  split
  · obtain ⟨h1, h2⟩ := u.retirePage_spec page
    exact ⟨(h1 _ (by decide)).trans hu, fun q => h2 (hq.trans q)⟩
  · exact ⟨hu, fun _ => ⟨rfl, rfl⟩⟩

theorem State.marked_mark (s : State) (line : Nat) : (s.mark line).marked line = true :=
  List.contains_iff_mem.mpr ((mem_insertSorted line line s.mem.poison).mpr (Or.inl rfl))

theorem State.lineLost_spec (s : State) (va line : Nat) :
    (s.lineLost none va line).obj oUncorrectableCount = (s.obj oUncorrectableCount + 1) % 2 ^ objBits oUncorrectableCount ∧
    (s.eventQueue = none → (s.lineLost none va line).marked line = true) := by
  obtain ⟨h1, -, -, h4⟩ := s.rewritten_spec line (s.lineWord line)
  unfold State.lineLost
  generalize s.rewritten line (s.lineWord line) = r at h1 h4
  have hm := r.marked_mark line
  have hq : (r.mark line).eventQueue = s.eventQueue := (r.mark_memWork line).queue.trans h4.queue
  have ho : (r.mark line).obj oUncorrectableCount = s.obj oUncorrectableCount := State.obj_of_od (show _ = s.od from h1) _
  generalize r.mark line = m at hm hq ho
  obtain ⟨v, hu⟩ := m.uncorrectable_none va line
  obtain ⟨n, hn, hc, hk, hp⟩ : ∃ n, n = (m.bump oUncorrectableCount).setObj oLastUncorrectable v ∧
      n.obj oUncorrectableCount = (m.obj oUncorrectableCount + 1) % 2 ^ objBits oUncorrectableCount ∧
      n.mem = m.mem ∧ n.eventQueue = m.eventQueue :=
    ⟨_, rfl, (State.obj_setObj_ne _ _ (by decide)).trans (m.bump_obj_self _), rfl,
      (MemWork.setObj m _ (by decide) |>.trans (MemWork.setObj _ v (by decide))).queue⟩
  rw [hu, ← hn]
  have hl := n.raiseAt_logs .memoryUncorrectable 0 0
  obtain ⟨r1, r2⟩ := (n.raiseAt .memoryUncorrectable 0 0).retirePage_spec (line / 4096)
  refine ⟨?_, fun q => ?_⟩
  · rw [r1 _ (by decide), hl.obj _ (by decide), hc, ho]
  · have hnq : n.eventQueue = none := hp.trans (hq.trans q)
    rw [State.marked, (r2 (hl.queue.trans hnq)).2, (hl.quiet hnq).1, hk]
    exact hm

/-! ### PATROL_SCRUB -/

/-- The scrub position moved on from `pos`, with the pass counted at the top. -/
def State.scrubMoved (s : State) (pos : Nat) : State :=
  if memTop ≤ pos + 64 then ((s.setObj oScrubPosition 0).bump oScrubPasses).setObj oLastPassEnd s.timeNow
  else s.setObj oScrubPosition (pos + 64)

/-- The objects of the scrub. -/
def scrubKeys : List Nat := [oScrubPosition, oScrubPasses, oLastPassEnd]

theorem State.scrubMoved_spec (s : State) (pos : Nat) :
    let t := s.scrubMoved pos
    (pos + 64 < memTop → t.obj oScrubPosition = pos + 64 ∧ t.obj oScrubPasses = s.obj oScrubPasses) ∧
    (memTop ≤ pos + 64 → t.obj oScrubPosition = 0 ∧ t.obj oLastPassEnd = s.timeNow ∧
      t.obj oScrubPasses = (s.obj oScrubPasses + 1) % 2 ^ objBits oScrubPasses) ∧
    SameObj s t scrubKeys ∧ t.mem = s.mem := by
  intro t
  by_cases h : memTop ≤ pos + 64
  · have ht : t = ((s.setObj oScrubPosition 0).bump oScrubPasses).setObj oLastPassEnd s.timeNow := if_pos h
    clear_value t
    subst ht
    refine ⟨fun q => absurd h (Nat.not_le.mpr q), fun _ => ⟨?_, State.obj_setObj_self .., ?_⟩,
      (((SameObj.refl s _).setObj _ (by decide)).bump (by decide)).setObj _ (by decide), ?_⟩
    · rw [State.obj_setObj_ne _ _ (by decide), State.bump_obj_ne _ (by decide), State.obj_setObj_self]
    · rw [State.obj_setObj_ne _ _ (by decide), State.bump_obj_self, State.obj_setObj_ne _ _ (by decide)]
    · rw [State.setObj_mem, State.bump, State.addObj, State.setObj_mem, State.setObj_mem]
  · have ht : t = s.setObj oScrubPosition (pos + 64) := if_neg h
    clear_value t
    subst ht
    exact ⟨fun _ => ⟨State.obj_setObj_self .., State.obj_setObj_ne _ _ (by decide)⟩, fun q => absurd q h,
      (SameObj.refl s _).setObj _ (by decide), State.setObj_mem ..⟩

theorem exec_patrolScrub (us : List Upset) (w : Bool) (s : State) :
    exec (.patrolScrub us w) s = .next (
      let u := s.quiet.strike us
      if (s.obj oPowerState = 1 ∨ s.obj oPowerState = 2) ∧ s.obj oMemState ≠ 0 ∧ s.power.warmReset = none then
        (if w then u else u.meetLine none (s.obj oScrubPosition) (s.obj oScrubPosition)).scrubMoved (s.obj oScrubPosition)
      else u) := by
  show execPatrolScrub us w s = _
  obtain ⟨e, he⟩ := s.quiet.strike_spec us
  unfold execPatrolScrub State.scrubMoved
  have ho : ∀ k, (s.quiet.strike us).obj k = s.obj k := fun k => by rw [he]; rfl
  have hp : (s.quiet.strike us).power = s.power := by rw [he]; rfl
  generalize s.quiet.strike us = u at ho hp
  dsimp only
  rw [ho, ho, ho, hp]
  split
  · exact (apply_ite Host.Outcome.next _ _ _).symm
  · rfl

/-- `u` is `s` with errors struck into stored lines. -/
structure Struck (s u : State) : Prop where
  od : u.od = s.od
  bytes : u.mem.bytes = s.mem.bytes
  poison : u.mem.poison = s.mem.poison
  bell : u.bell = s.bell
  queue : u.eventQueue = s.eventQueue

theorem State.strike_struck (s : State) (us : List Upset) : Struck s (s.quiet.strike us) := by
  obtain ⟨e, he⟩ := s.quiet.strike_spec us
  rw [he]
  exact ⟨rfl, rfl, rfl, rfl, eventQueue_congr rfl rfl rfl⟩

/-- The scrub position and the passes of `t` are those of `s` moved on by a line. -/
def ScrubMoved (s t : State) : Prop :=
  (s.obj oScrubPosition + 64 < memTop →
    t.obj oScrubPosition = s.obj oScrubPosition + 64 ∧ t.obj oScrubPasses = s.obj oScrubPasses) ∧
  (memTop ≤ s.obj oScrubPosition + 64 → t.obj oScrubPosition = 0 ∧ t.obj oLastPassEnd = s.timeNow ∧
    t.obj oScrubPasses = (s.obj oScrubPasses + 1) % 2 ^ objBits oScrubPasses)

section
variable {s u : State} (hu : Struck s u)
include hu

theorem Struck.obj (k : Nat) : u.obj k = s.obj k := State.obj_of_od hu.od k

theorem Struck.marked (l : Nat) : u.marked l = s.marked l := by rw [State.marked, hu.poison]; rfl

theorem Struck.moved {v : State} (h : MemWork u v) : ScrubMoved s (v.scrubMoved (s.obj oScrubPosition)) ∧
    SameObj v (v.scrubMoved (s.obj oScrubPosition)) scrubKeys ∧ (v.scrubMoved (s.obj oScrubPosition)).mem = v.mem := by
  obtain ⟨h1, h2, h3, h4⟩ := v.scrubMoved_spec (s.obj oScrubPosition)
  rw [h.obj _ (by decide), hu.obj] at h1 h2
  rw [State.timeNow, h.bell, hu.bell] at h2
  exact ⟨⟨h1, h2⟩, h3, h4⟩

/-- The scrub of a line whose word is whole but for what its errors cancel. -/
theorem Struck.clean {pos : Nat} (w : List Nat) (hp : s.obj oScrubPosition = pos) :
    let t := (u.rewritten pos w).scrubMoved pos
    ScrubMoved s t ∧ Bank.get t.mem.errors 0 pos = 0 ∧ t.mem.poison = s.mem.poison ∧ SameObj s t scrubKeys := by
  subst hp
  obtain ⟨r1, r2, -, r4⟩ := u.rewritten_spec (s.obj oScrubPosition) w
  have r5 := (u.rewritten_linesKept (s.obj oScrubPosition) w).2
  generalize u.rewritten (s.obj oScrubPosition) w = v at r1 r2 r4 r5
  obtain ⟨h1, h2, h3⟩ := hu.moved r4
  exact ⟨h1, by rw [h3]; exact r5, by rw [h3, r2, hu.poison], (SameObj.of_od (r1.trans hu.od)).trans h2⟩

/-- The scrub of a line with errors that are corrected. -/
theorem Struck.corrected {pos : Nat} {c : List Nat} (hp : s.obj oScrubPosition = pos) (hl : (symbolBytes c).length = 64) :
    let t := ((u.rewritten pos c).correctedEvent pos).scrubMoved pos
    ScrubMoved s t ∧ t.obj oCorrectedCount = (s.obj oCorrectedCount + 1) % 2 ^ objBits oCorrectedCount ∧
    Bank.get t.mem.errors 0 pos = 0 ∧
    (s.eventQueue = none → t.mem.poison = s.mem.poison ∧ memRead t.mem.bytes pos 64 = symbolBytes c) := by
  subst hp
  obtain ⟨r1, r2, r3, r4⟩ := u.rewritten_spec (s.obj oScrubPosition) c
  have r5 := (u.rewritten_linesKept (s.obj oScrubPosition) c).2
  generalize u.rewritten (s.obj oScrubPosition) c = r at r1 r2 r3 r4 r5
  obtain ⟨c1, c2⟩ := r.correctedEvent_spec (s.obj oScrubPosition)
  have c3 := r.correctedEvent_memWork (s.obj oScrubPosition)
  have c4 := (r.correctedEvent_linesKept (s.obj oScrubPosition)).zero r5
  generalize r.correctedEvent (s.obj oScrubPosition) = v at c1 c2 c3 c4
  obtain ⟨h1, h2, h3⟩ := hu.moved (r4.trans c3)
  refine ⟨h1, ?_, by rw [h3]; exact c4, fun q => ?_⟩
  · rw [h2 _ (by decide), c1, State.obj_of_od r1, hu.obj]
  · obtain ⟨q1, q2⟩ := c2 (r4.queue.trans (hu.queue.trans q))
    rw [h3, q1, q2, r2, hu.poison, r3, ← hl]
    exact ⟨rfl, memRead_memWrite _ _ _⟩

/-- The scrub of a line in which an error is detected. -/
theorem Struck.detected {pos : Nat} (hp : s.obj oScrubPosition = pos) (hw : MemWork u (u.lineLost none pos pos)) :
    let t := (u.lineLost none pos pos).scrubMoved pos
    ScrubMoved s t ∧ t.obj oUncorrectableCount = (s.obj oUncorrectableCount + 1) % 2 ^ objBits oUncorrectableCount ∧
    Bank.get t.mem.errors 0 pos = 0 ∧ (s.eventQueue = none → t.marked pos = true) := by
  obtain ⟨l1, l2⟩ := u.lineLost_spec pos pos
  have l3 := (u.lineLost_linesKept pos pos).2
  generalize u.lineLost none pos pos = v at hw l1 l2 l3
  obtain ⟨h1, h2, h3⟩ := hu.moved hw
  subst hp
  refine ⟨h1, ?_, by rw [h3]; exact l3, fun q => ?_⟩
  · rw [h2 _ (by decide), l1, hu.obj]
  · rw [State.marked, h3]
    exact l2 (hu.queue.trans q)
end

/-- PATROL_SCRUB. -/
theorem patrolScrub_spec (us : List Upset) (w : Bool) (s : State) :
    let u := s.quiet.strike us
    let pos := s.obj oScrubPosition
    let e := Bank.get u.mem.errors 0 pos
    let word := storedWord (memRead s.mem.bytes pos 64) e
    let runs := (s.obj oPowerState = 1 ∨ s.obj oPowerState = 2) ∧ s.obj oMemState ≠ 0 ∧ s.power.warmReset = none
    let meets := w = false ∧ s.marked pos = false ∧ e ≠ 0
    (¬ runs → exec (.patrolScrub us w) s = .next u) ∧
    (runs → ¬ meets → Gives (.patrolScrub us w) s (fun t => ScrubMoved s t ∧ t.mem = u.mem ∧ SameObj s t scrubKeys)) ∧
    (runs → meets → decodeWord word = .clean → Gives (.patrolScrub us w) s (fun t => ScrubMoved s t ∧
      Bank.get t.mem.errors 0 pos = 0 ∧ t.mem.poison = s.mem.poison ∧ SameObj s t scrubKeys)) ∧
    (∀ c, runs → meets → decodeWord word = .corrected c → Gives (.patrolScrub us w) s (fun t => ScrubMoved s t ∧
      t.obj oCorrectedCount = (s.obj oCorrectedCount + 1) % 2 ^ objBits oCorrectedCount ∧
      Bank.get t.mem.errors 0 pos = 0 ∧
      (s.eventQueue = none → t.mem.poison = s.mem.poison ∧ memRead t.mem.bytes pos 64 = symbolBytes c))) ∧
    (runs → meets → decodeWord word = .detected → Gives (.patrolScrub us w) s (fun t => ScrubMoved s t ∧
      t.obj oUncorrectableCount = (s.obj oUncorrectableCount + 1) % 2 ^ objBits oUncorrectableCount ∧
      Bank.get t.mem.errors 0 pos = 0 ∧ (s.eventQueue = none → t.marked pos = true))) := by
  intro u pos e word runs meets
  have hx := exec_patrolScrub us w s
  have hu : Struck s u := s.strike_struck us
  have hword : u.lineWord pos = word := by rw [State.lineWord, hu.bytes]
  have hpos : s.obj oScrubPosition = pos := rfl
  have hstop : ¬runs → exec (.patrolScrub us w) s = .next u := fun h => hx.trans (congrArg Host.Outcome.next (if_neg h))
  have hrun : runs → exec (.patrolScrub us w) s = .next ((if w then u else u.meetLine none pos pos).scrubMoved pos) :=
    fun h => hx.trans (congrArg Host.Outcome.next (if_pos h))
  have hread : runs → meets → exec (.patrolScrub us w) s = .next ((u.meetLine none pos pos).scrubMoved pos) ∧
      u.marked pos = false ∧ Bank.get u.mem.errors 0 pos ≠ 0 := by
    rintro h ⟨hw, hm, he⟩
    have hr := hrun h
    rw [hw] at hr ⊢
    exact ⟨hr, (hu.marked pos).trans hm, he⟩
  clear hx
  clear_value u pos word runs
  refine ⟨hstop, fun h hm => ?_, fun h hm hd => ?_, fun c h hm hd => ?_, fun h hm hd => ?_⟩
  · have hx := hrun h
    have hv : (if w then u else u.meetLine none pos pos) = u := by
      cases w with
      | true => rfl
      | false =>
        rw [if_neg Bool.noConfusion]
        refine State.meetLine_passes ?_
        refine Classical.byContradiction fun q => ?_
        rw [not_or, Bool.not_eq_true, hu.marked] at q
        exact hm ⟨rfl, q.1, q.2⟩
    obtain ⟨h1, h2, h3⟩ := hu.moved (MemWork.refl u)
    rw [hv, ← hpos] at hx
    exact ⟨_, hx, h1, h3, (SameObj.of_od hu.od).trans h2⟩
  · rw [← hword] at hd
    obtain ⟨hx, hm, he⟩ := hread h hm
    rw [State.meetLine_clean hm he hd] at hx
    exact ⟨_, hx, hu.clean _ hpos⟩
  · rw [← hword] at hd
    obtain ⟨hx, hm, he⟩ := hread h hm
    rw [State.meetLine_corrected hm he hd] at hx
    refine ⟨_, hx, hu.corrected hpos (symbolBytes_length ?_)⟩
    rw [corrected_length hd]
    exact storedWord_length _ _
  · rw [← hword] at hd
    obtain ⟨hx, hm, he⟩ := hread h hm
    have hmw := u.meetLine_memWork none pos pos
    rw [State.meetLine_detected hm he hd] at hmw hx
    exact ⟨_, hx, hu.detected hpos hmw⟩

end Sys2Proof.Machine

namespace Sys2Proof.Machine

/-! ### PAGE_COPY_DONE -/

/-- The line of a page at a place. -/
def pageLine (page i : Nat) : Nat := page * 4096 + 64 * i

theorem pageLine_injective {page i j : Nat} (h : pageLine page i = pageLine page j) : i = j := by
  unfold pageLine at h
  omega

/-- A page's lines read for its copy. -/
def State.copyLines (s : State) (page : Nat) (is : List Nat) : State :=
  is.foldl (fun s i => s.meetLine none (pageLine page i) (pageLine page i)) s

/-- A page's lines that hold no error are copied as they are. -/
theorem State.copyLines_sound {s : State} {page : Nat} {is : List Nat}
    (h : ∀ i ∈ is, s.marked (pageLine page i) = true ∨ Bank.get s.mem.errors 0 (pageLine page i) = 0) :
    s.copyLines page is = s := by
  induction is with
  | nil => rfl
  | cons i is ih =>
    rw [State.copyLines, List.foldl_cons, State.meetLine_passes (h i (List.mem_cons_self ..))]
    exact ih (fun j hj => h j (List.mem_cons_of_mem _ hj))

/-- No line of a page is left with an error that was not marked. -/
theorem State.copyLines_errors (s : State) (page : Nat) (is : List Nat) :
    ∀ i, s.marked (pageLine page i) = false → i ∈ is ∨ Bank.get s.mem.errors 0 (pageLine page i) = 0 →
      Bank.get (s.copyLines page is).mem.errors 0 (pageLine page i) = 0 := by
  induction is generalizing s with
  | nil => exact fun i _ hi => hi.resolve_left List.not_mem_nil
  | cons j is ih =>
    intro i hm hi
    obtain ⟨hk, hj⟩ := s.meetLine_none (pageLine page j) (pageLine page j)
    rw [State.copyLines, List.foldl_cons]
    generalize s.meetLine none (pageLine page j) (pageLine page j) = t at hk hj
    by_cases hij : i = j
    · subst hij
      have h0 := hj hm
      clear hi hj
      -- once without an error, the line stays so
      have hz : LinesKept (is.map (pageLine page)) t (t.copyLines page is) := by
        refine List.foldlRecOn is _ (motive := fun u => LinesKept (is.map (pageLine page)) t u) (LinesKept.refl _ t) ?_
        intro u hu k hk
        refine hu.trans ((u.meetLine_none _ _).1.mono (fun l hl => ?_))
        rw [List.mem_singleton.mp hl]
        exact List.mem_map_of_mem hk
      exact hz.zero h0
    · refine ih t i (hk.marks _ ?_ hm) ?_
      · exact fun q => hij (pageLine_injective (List.mem_singleton.mp q))
      · exact hi.imp (fun q => (List.mem_cons.mp q).resolve_left hij) hk.zero

/-- The state after a page's copy is put in its place. -/
def State.copied (s : State) (page : Nat) (rest : List Nat) : State :=
  { s with
    mem := { s.mem with
      copying := rest ++ s.mem.copying.drop (rest.length + 1), retired := insertSorted page s.mem.retired,
      corrected := Bank.set s.mem.corrected 0 page 0 } }

theorem State.copied_spec (s : State) (page : Nat) (rest : List Nat) :
    page ∈ (s.copied page rest).mem.retired ∧
    (s.copied page rest).mem.copying = rest ++ s.mem.copying.drop (rest.length + 1) ∧
    (s.copied page rest).mem.errors = s.mem.errors ∧ (s.copied page rest).mem.bytes = s.mem.bytes ∧
    (s.copied page rest).od = s.od :=
  ⟨(mem_insertSorted ..).mpr (Or.inl rfl), rfl, rfl, rfl, rfl⟩

theorem exec_pageCopyDone {us : List Upset} {s : State} :
    exec (.pageCopyDone us) s = .next (match s.mem.copying with
      | [] => s.quiet.strike us
      | page :: rest => ((s.quiet.strike us).copyLines page (upto 64)).copied page rest) := by
  show execPageCopyDone us s = _
  obtain ⟨e, he⟩ := s.quiet.strike_spec us
  have hc : (s.quiet.strike us).mem.copying = s.mem.copying := by rw [he]; rfl
  unfold execPageCopyDone
  generalize s.quiet.strike us = u at hc
  generalize upto 64 = is
  dsimp only
  rw [hc]
  cases s.mem.copying with
  | nil => rfl
  | cons page rest => rfl

theorem pageCopyDone_spec {us : List Upset} {s : State} {page : Nat} {rest : List Nat} (h : s.mem.copying = page :: rest) :
    let u := s.quiet.strike us
    let sound := fun (i : Nat) => s.marked (page * 4096 + 64 * i) = true ∨
      Bank.get u.mem.errors 0 (page * 4096 + 64 * i) = 0
    Gives (.pageCopyDone us) s (fun t => page ∈ t.mem.retired ∧ (∀ q ∈ rest, q ∈ t.mem.copying) ∧
      ((∀ i < 64, sound i) → t.mem.copying = rest ∧ SameMem s t ∧ t.od = s.od) ∧
      (∀ i < 64, s.marked (page * 4096 + 64 * i) = false →
        Bank.get t.mem.errors 0 (page * 4096 + 64 * i) = 0)) := by
  intro u sound
  have hx := exec_pageCopyDone (us := us) (s := s)
  rw [h] at hx
  have hu : Struck s u := s.strike_struck us
  have hc : u.mem.copying = page :: rest := by
    obtain ⟨e, he⟩ := s.quiet.strike_spec us
    rw [show u = _ from he, ← h]
    rfl
  change exec (.pageCopyDone us) s = .next ((u.copyLines page (upto 64)).copied page rest) at hx
  clear_value u
  have herr := u.copyLines_errors page (upto 64)
  have hsame : (∀ i < 64, sound i) → u.copyLines page (upto 64) = u := fun hs =>
    State.copyLines_sound (fun i hi => by rw [hu.marked]; exact hs i (List.mem_range.mp hi))
  generalize u.copyLines page (upto 64) = v at hx herr hsame
  obtain ⟨h1, h2, h3, h4, h5⟩ := v.copied_spec page rest
  refine ⟨_, hx, h1, fun q hq => ?_, fun hs => ?_, fun i hi hm => ?_⟩
  · rw [h2]
    exact List.mem_append_left _ hq
  · have hv := hsame hs
    refine ⟨?_, fun a => ?_, h5.trans (by rw [hv, hu.od])⟩
    · rw [h2, hv, hc, List.drop_succ_cons, List.drop_length, List.append_nil]
    · rw [State.byteAt, h4, hv, hu.bytes]
      rfl
  · rw [h3]
    exact herr i ((hu.marked _).trans hm) (Or.inl (List.mem_range.mpr hi))

/-! ### Zeroing and the ledger's interval -/

theorem zeroingDone_spec (s : State) :
    (s.power.zeroing = true → Gives .zeroingDone s (fun t => (∀ a, t.byteAt a = 0) ∧ t.mem.poison = [] ∧
      t.mem.errors = [] ∧ t.obj oMemState = 1 ∧ t.power.zeroing = false ∧ SameObj s t [oMemState])) ∧
    (s.power.zeroing = false → exec .zeroingDone s = .next s.quiet) := by
  refine ⟨fun h => ?_, fun h => ?_⟩
  · obtain ⟨u, hu, hod, hmem, hpow⟩ : ∃ u : State,
        u = { s.quiet with
          power := { s.power with zeroing := false }, mem := { s.mem with bytes := [], poison := [], errors := [] } } ∧
        u.od = s.od ∧ u.mem = { s.mem with bytes := [], poison := [], errors := [] } ∧
        u.power = { s.power with zeroing := false } := ⟨_, rfl, rfl, rfl, rfl⟩
    have hx : exec .zeroingDone s = .next (u.setObj oMemState 1) := by
      rw [hu]
      exact if_pos h
    have hm := (State.setObj_mem u oMemState 1).trans hmem
    refine ⟨_, hx, fun a => ?_, by rw [hm], by rw [hm], u.obj_setObj_self _ _, by rw [State.setObj_power, hpow],
      (SameObj.of_od hod).setObj _ (List.mem_singleton.mpr rfl)⟩
    rw [State.byteAt, hm]
    rfl
  · exact if_neg (by rw [show s.quiet.power = s.power from rfl, h]; exact Bool.noConfusion)

/-- The ledger's interval begins again at `start`. -/
def State.ledgerFrom (s : State) (start : Nat) : State :=
  { s with ledger := { s.ledger with intervalStart := start, inInterval := 0, suppressedRaised := false } }

theorem execLedgerInterval_on (s : State) (h : s.quiet.power.aux = true) : ∃ n start, s.quiet.ledger.intervalStart + 1000000000 = n ∧
    execLedgerInterval s = .next ((s.quiet.advanceTo n).ledgerFrom start) := by
  refine ⟨s.quiet.ledger.intervalStart + 1000000000, (s.quiet.advanceTo (s.quiet.ledger.intervalStart + 1000000000)).ledger.intervalStart +
    ((s.quiet.advanceTo (s.quiet.ledger.intervalStart + 1000000000)).now -
      (s.quiet.advanceTo (s.quiet.ledger.intervalStart + 1000000000)).ledger.intervalStart) / 1000000000 * 1000000000, rfl, ?_⟩
  unfold execLedgerInterval
  dsimp only
  rw [if_pos h]
  rfl

theorem ledgerInterval_spec (s : State) :
    (s.power.aux = true → Gives .ledgerInterval s (fun t => t.ledger.inInterval = 0 ∧
      t.ledger.suppressedRaised = false ∧ t.ledger.ring = s.ledger.ring ∧ t.ledger.flash = s.ledger.flash ∧
      s.ledger.intervalStart + 1000000000 ≤ t.now ∧ t.od = s.od ∧ t.mem = s.mem)) ∧
    (s.power.aux = false → exec .ledgerInterval s = .next s.quiet) := by
  refine ⟨fun h => ?_, fun h => ?_⟩
  · obtain ⟨n, start, hn, hx⟩ := execLedgerInterval_on s h
    rw [show s.quiet.ledger = s.ledger from rfl] at hn
    rw [hn]
    have hle := s.quiet.advanceTo_le n
    obtain ⟨hl, hod, hm⟩ : (s.quiet.advanceTo n).ledger = s.ledger ∧ (s.quiet.advanceTo n).od = s.od ∧
        (s.quiet.advanceTo n).mem = s.mem := ⟨rfl, rfl, rfl⟩
    generalize s.quiet.advanceTo n = u at hx hle hl hod hm
    refine ⟨_, hx, rfl, rfl, ?_, ?_, hle, hod, hm⟩
    · exact (show (u.ledgerFrom start).ledger.ring = u.ledger.ring from rfl).trans (by rw [hl])
    · exact (show (u.ledgerFrom start).ledger.flash = u.ledger.flash from rfl).trans (by rw [hl])
  · exact if_neg (by rw [show s.quiet.power = s.power from rfl, h]; exact Bool.noConfusion)

/-- Settles O55: a line met is taken apart by what its word decodes to, and no later line or record brings errors back. -/
theorem memoryUpkeep : Obligations.MemoryUpkeep :=
  ⟨fun us w s => patrolScrub_spec us w s,
    fun us s => ⟨fun h => by rw [exec_pageCopyDone, h], fun _ _ h => pageCopyDone_spec h⟩,
    zeroingDone_spec, ledgerInterval_spec⟩

end Sys2Proof.Machine

namespace Sys2Proof.Machine

/-! ### What the engines' stores, reports and contributions leave -/

/-- The objects that an engine's store or report of an overflow writes. -/
def unitKeys : List Nat := [oStepOverflow, oFirstOverflow, oFirstOverflowStep, oOverflowStepCount] ++ memKeys

/-- `t` is `s` after an engine stored, sent and reported: besides what a store writes, the contributions on their way and
the time of the last overflow may differ, and of the step its verdict alone. -/
structure UnitWork (s t : State) : Prop where
  shape : ∃ od events ledger rings mem flows router step free ovf contribs,
    t = { s.relog od events ledger rings mem flows router with
      step := step, freeCount := free, ovfAt := ovf, contribs := contribs }
  obj : SameObj s t unitKeys
  only : ∃ f h o, t.step = { s.step with fault := f, hold := h, overflow := o }

theorem UnitWork.refl (s : State) : UnitWork s s :=
  ⟨⟨_, _, _, _, _, _, _, _, _, _, _, rfl⟩, SameObj.refl s _, _, _, _, rfl⟩

theorem UnitWork.trans {s t u : State} (h : UnitWork s t) (k : UnitWork t u) : UnitWork s u := by
  refine ⟨?_, h.obj.trans k.obj, ?_⟩
  · obtain ⟨_, _, _, _, _, _, _, _, _, _, _, e⟩ := h.shape
    obtain ⟨a, b, c, d, f, g, i, j, l, m, n, e'⟩ := k.shape
    exact ⟨a, b, c, d, f, g, i, j, l, m, n, by rw [e', e]; rfl⟩
  · obtain ⟨_, _, _, h1⟩ := h.only
    obtain ⟨f, g, o, k1⟩ := k.only
    exact ⟨f, g, o, by rw [k1, h1]⟩

theorem UnitWork.foldl {α : Type} {f : State → α → State} (l : List α) (h : ∀ s a, UnitWork s (f s a)) (s : State) :
    UnitWork s (l.foldl f s) :=
  List.foldlRecOn l f (motive := fun t => UnitWork s t) (UnitWork.refl s) (fun t ht a _ => ht.trans (h t a))

theorem MemWork.unitWork {s t : State} (h : MemWork s t) : UnitWork s t := by
  obtain ⟨a, b, c, d, f, g, i, j, l, e⟩ := h.shape
  obtain ⟨x, y, e'⟩ := h.only
  exact ⟨⟨a, b, c, d, f, g, i, j, l, _, _, e⟩, h.obj.mono (fun _ q => List.mem_append_right _ q), x, y, _, e'⟩

theorem UnitWork.setObj (s : State) {k : Nat} (v : Nat) (h : k ∈ unitKeys) : UnitWork s (s.setObj k v) :=
  ⟨⟨_, _, _, _, _, _, _, _, _, _, _, rfl⟩, (SameObj.refl s _).setObj v h, _, _, _, rfl⟩

theorem State.poisonOverflow_unitWork (s : State) : UnitWork s s.poisonOverflow := by
  unfold State.poisonOverflow
  split
  · exact ⟨⟨_, _, _, _, _, _, _, _, _, _, _, rfl⟩, fun _ _ => rfl, _, _, _, rfl⟩
  · exact UnitWork.refl s

theorem State.overflow_unitWork (s : State) (src info : Nat) : UnitWork s (s.overflow src info) := by
  unfold State.overflow
  extract_lets w t u
  split
  · exact UnitWork.refl s
  · split
    · split
      · exact UnitWork.setObj s _ (by decide)
      · exact UnitWork.refl s
    · have ht : UnitWork s t := ⟨⟨_, _, _, _, _, _, _, _, _, _, _, rfl⟩, fun _ _ => rfl, _, _, _, rfl⟩
      have hu : UnitWork s u := ((ht.trans (UnitWork.setObj t _ (by decide))).trans (UnitWork.setObj _ _ (by decide))).trans
        (UnitWork.setObj _ _ (by decide))
      exact ((hu.trans u.poisonOverflow_unitWork).trans (UnitWork.setObj _ _ (by decide))).trans
        (State.raise_memWork ..).unitWork

theorem State.overflowIf_unitWork (s : State) (c : Bool) (src info : Nat) : UnitWork s (s.overflowIf c src info) := by
  unfold State.overflowIf
  split
  · exact s.overflow_unitWork ..
  · exact UnitWork.refl s

theorem State.sendMessage_unitWork (s : State) (n ty : Nat) (ps : List Piece) (step attempt kind : Nat) :
    UnitWork s (s.sendMessage n ty ps step attempt kind) := by
  obtain ⟨f, r, e⟩ := sendMessage_shape s n ty ps step attempt kind
  rw [e]
  exact ⟨⟨s.od, s.events, s.ledger, s.rings, s.mem, f, r, s.step, s.freeCount, s.ovfAt, s.contribs, rfl⟩, fun _ _ => rfl,
    s.step.fault, s.step.hold, s.step.overflow, rfl⟩

theorem State.contribute_unitWork (s : State) (win form : Nat) (anchor : Int) (runs : List ElemRun) :
    UnitWork s (s.contribute win form anchor runs) := by
  unfold State.contribute
  split
  · exact UnitWork.refl s
  · split
    · exact ⟨⟨_, _, _, _, _, _, _, _, _, _, _, rfl⟩, fun _ _ => rfl, _, _, _, rfl⟩
    · split
      · exact s.sendMessage_unitWork ..
      · exact UnitWork.refl s

theorem State.contribute_mem (s : State) (win form : Nat) (anchor : Int) (runs : List ElemRun) :
    (s.contribute win form anchor runs).mem = s.mem := by
  unfold State.contribute
  split
  · rfl
  · split
    · rfl
    · split
      · exact s.sendMessage_mem ..
      · rfl

theorem State.storeRow_memWork (s : State) (ag : Agent) (c a : Nat) (xs : List Nat) : MemWork s (s.storeRow ag c a xs) :=
  State.storeBy_memWork ..

theorem State.storeScales_memWork (s : State) (ag : Agent) (c a : Nat) (scales : List Nat) :
    MemWork s (s.storeScales ag c a scales) := MemWork.foldl _ (fun t _ => t.storeBy_memWork ..) s

theorem UnitWork.ite {s t u : State} {p : Prop} [Decidable p] (h : UnitWork s t) (k : UnitWork s u) :
    UnitWork s (if p then t else u) := by
  split
  · exact h
  · exact k

/-! ### An engine's work -/

/-- `t` is `s` after work of engine `k`: the other engines, the time, the verdicts due, the summaries on their way and the
objects but those of a store stand. -/
structure EngWork (k : Nat) (s t : State) : Prop where
  eng : ∀ j, j ≠ k → t.eng j = s.eng j
  now : t.now = s.now
  verdicts : t.verdicts = s.verdicts
  merges : t.merges = s.merges
  obj : SameObj s t unitKeys
  attempt : t.step.attempt = s.step.attempt

theorem EngWork.trans {k : Nat} {s t u : State} (h : EngWork k s t) (g : EngWork k t u) : EngWork k s u :=
  ⟨fun j hj => (g.eng j hj).trans (h.eng j hj), g.now.trans h.now, g.verdicts.trans h.verdicts, g.merges.trans h.merges,
    h.obj.trans g.obj, g.attempt.trans h.attempt⟩

theorem UnitWork.engines {s t : State} (h : UnitWork s t) : t.engines = s.engines := by
  obtain ⟨_, _, _, _, _, _, _, _, _, _, _, e⟩ := h.shape
  rw [e]
  rfl

theorem State.eng_of_engines {s t : State} (h : t.engines = s.engines) (j : Nat) : t.eng j = s.eng j := by
  rw [State.eng, h]
  rfl

theorem UnitWork.eng {s t : State} (h : UnitWork s t) (j : Nat) : t.eng j = s.eng j := State.eng_of_engines h.engines j

theorem UnitWork.engWork {s t : State} (h : UnitWork s t) (k : Nat) : EngWork k s t := by
  obtain ⟨f, g, o, h1⟩ := h.only
  refine ⟨fun j _ => h.eng j, ?_, ?_, ?_, h.obj, by rw [h1]⟩
  all_goals
    obtain ⟨_, _, _, _, _, _, _, _, _, _, _, e⟩ := h.shape
    rw [e]
    rfl

theorem State.setEng_engWork (s : State) (k : Nat) (e : EngineSt) : EngWork k s (s.setEng k e) :=
  ⟨fun j hj => by rw [State.eng_setEng, if_neg hj], rfl, rfl, rfl, SameObj.refl s _, rfl⟩

theorem State.eng_setEng_self (s : State) (k : Nat) (e : EngineSt) : (s.setEng k e).eng k = e := by
  rw [State.eng_setEng, if_pos rfl]

/-! ### Tiles and planes -/

theorem EngineSt.tile_setTile_self (e : EngineSt) (t : Nat) (x : TileSt) : (e.setTile t x).tile t = x := by
  unfold EngineSt.setTile EngineSt.tile
  by_cases h : t = 0
  · simp only [h, if_true]
  · simp only [h, if_false]

theorem EngineSt.plane_setPlane_self (e : EngineSt) (t : Nat) (x : PlaneSt) : (e.setPlane t x).plane t = x := by
  unfold EngineSt.setPlane EngineSt.plane
  by_cases h : t = 0
  · simp only [h, if_true]
  · simp only [h, if_false]

theorem EngineSt.tile_setPlane (e : EngineSt) (p : Nat) (x : PlaneSt) (t : Nat) : (e.setPlane p x).tile t = e.tile t := by
  unfold EngineSt.setPlane EngineSt.tile
  by_cases h : p = 0 <;> simp only [h, if_true, if_false]

theorem EngineSt.plane_setTile (e : EngineSt) (t : Nat) (x : TileSt) (p : Nat) : (e.setTile t x).plane p = e.plane p := by
  unfold EngineSt.setTile EngineSt.plane
  by_cases h : t = 0 <;> simp only [h, if_true, if_false]

/-! ### The engines' cycles -/

theorem State.toCycle_spec (s : State) (c : Nat) :
    c ≤ 2 * (s.toCycle c).now ∧ s.now ≤ (s.toCycle c).now ∧ (s.toCycle c).od = s.od ∧ (s.toCycle c).mem = s.mem ∧
    (s.toCycle c).engines = s.engines ∧ (s.toCycle c).verdicts = s.verdicts ∧ (s.toCycle c).merges = s.merges ∧
    (s.toCycle c).step = s.step ∧ (s.toCycle c).plan = s.plan := by
  obtain ⟨n, hn, h⟩ : ∃ n, (max s.cyc c + 1) / 2 = n ∧ s.toCycle c =
      { s.advanceTo n with bell := { (s.advanceTo n).bell with lastCyc := max s.cyc c } } := ⟨_, rfl, rfl⟩
  have h1 := s.advanceTo_le n
  have h2 : s.now ≤ (s.advanceTo n).now := Nat.le_add_right ..
  rw [h]
  refine ⟨?_, h2, rfl, rfl, rfl, rfl, rfl, rfl, rfl⟩
  have h3 : c ≤ max s.cyc c := Nat.le_max_right ..
  show c ≤ 2 * (s.advanceTo n).now
  omega

end Sys2Proof.Machine

namespace Sys2Proof.Machine

/-! ### Drains -/

theorem exec_drainStart {die : Die} {engine : Engine} {tile : Fin 2} {s : State} :
    let k := engKey die engine
    let e := s.eng k
    let x := e.tile tile
    let m := matrixD x.desc
    exec (.drainStart die engine tile) s = .next (
      if x.phase ≠ 2 then s.quiet
      else if m.drain = 1 then
        if (e.plane tile).state ≠ 0 then s.quiet
        else s.quiet.setEng k ((e.setTile tile { x with phase := 3, drainAt := s.quiet.cyc + 64 }).setPlane tile
          { e.plane tile with state := 1 })
      else s.quiet.setEng k (e.setTile tile { x with phase := 3, drainAt := s.quiet.cyc + 64 })) := by
  intro k e x m
  show execDrainStart die engine tile s = _
  unfold execDrainStart
  simp only [apply_ite Host.Outcome.next]
  rfl

/-- DRAIN_START. -/
theorem drainStart_spec (die : Die) (engine : Engine) (tile : Fin 2) (s : State) :
    let k := engKey die engine
    let e := s.eng k
    let m := matrixD (e.tile tile).desc
    ((e.tile tile).phase = 2 → (m.drain = 1 → (e.plane tile).state = 0) →
      Gives (.drainStart die engine tile) s (fun t => ((t.eng k).tile tile).phase = 3 ∧
        ((t.eng k).tile tile).drainAt = s.cyc + 64 ∧ (m.drain = 1 → ((t.eng k).plane tile).state = 1) ∧
        (∀ j, j ≠ k → t.eng j = s.eng j) ∧ t.od = s.od ∧ t.mem = s.mem)) ∧
    ((e.tile tile).phase ≠ 2 ∨ m.drain = 1 ∧ (e.plane tile).state ≠ 0 →
      exec (.drainStart die engine tile) s = .next s.quiet) := by
  intro k e m
  have hx := exec_drainStart (die := die) (engine := engine) (tile := tile) (s := s)
  dsimp only at hx
  refine ⟨fun h2 hp => ?_, fun h => ?_⟩
  · rw [if_neg (Classical.not_not.mpr h2)] at hx
    by_cases h1 : m.drain = 1
    · rw [if_pos h1, if_neg (Classical.not_not.mpr (hp h1))] at hx
      refine ⟨_, hx, ?_, ?_, fun _ => ?_, (s.quiet.setEng_engWork k _).eng, rfl, rfl⟩
      · rw [State.eng_setEng_self, EngineSt.tile_setPlane, EngineSt.tile_setTile_self]
      · rw [State.eng_setEng_self, EngineSt.tile_setPlane, EngineSt.tile_setTile_self]
        rfl
      · rw [State.eng_setEng_self, EngineSt.plane_setPlane_self]
    · rw [if_neg h1] at hx
      refine ⟨_, hx, ?_, ?_, fun q => absurd q h1, (s.quiet.setEng_engWork k _).eng, rfl, rfl⟩
      · rw [State.eng_setEng_self, EngineSt.tile_setTile_self]
      · rw [State.eng_setEng_self, EngineSt.tile_setTile_self]
        rfl
  · by_cases h2 : (e.tile tile).phase ≠ 2
    · rw [if_pos h2] at hx
      exact hx
    · obtain ⟨h1, h0⟩ := h.resolve_left h2
      rw [if_neg h2, if_pos h1, if_pos h0] at hx
      exact hx

theorem State.drainReports_unitWork (s : State) (m : MatrixD) (x : TileSt) (cs : List Conv) (r : Nat) (counted : Bool) :
    UnitWork s (s.drainReports m x cs r counted) :=
  (s.overflowIf_unitWork _ _ _).trans (State.overflowIf_unitWork ..)

/-- A drain to VECTOR fills its plane. -/
theorem State.drainVector_spec (s : State) (k tile : Nat) (m : MatrixD) (x : TileSt) :
    EngWork k s (s.drainVector k tile m x) ∧ (((s.drainVector k tile m x).eng k).plane tile).state = 2 := by
  unfold State.drainVector
  extract_lets cells u
  have hu : UnitWork s u := by
    show UnitWork s (if x.void then s else _)
    split
    · exact UnitWork.refl s
    · exact UnitWork.foldl _ (fun t r => t.drainReports_unitWork ..) s
  refine ⟨(hu.engWork k).trans (u.setEng_engWork k _), ?_⟩
  rw [State.eng_setEng_self, EngineSt.plane_setPlane_self]

theorem State.drainMemory_unitWork (s : State) (m : MatrixD) (x : TileSt) : UnitWork s (s.drainMemory m x) := by
  unfold State.drainMemory
  split
  · exact UnitWork.refl s
  · refine UnitWork.foldl _ (fun t r => ?_) s
    exact ((t.drainReports_unitWork ..).trans (State.storeRow_memWork ..).unitWork).trans
      (State.storeScales_memWork ..).unitWork

theorem State.drainTally_unitWork (s : State) (m : MatrixD) (x : TileSt) : UnitWork s (s.drainTally m x) := by
  unfold State.drainTally
  extract_lets a t u
  split
  · exact s.contribute_unitWork ..
  · have ht : UnitWork s t := UnitWork.foldl _ (fun t r => t.drainReports_unitWork ..) s
    exact (ht.trans (t.overflowIf_unitWork ..)).trans (State.contribute_unitWork ..)

theorem State.drainFp32_unitWork (s : State) (m : MatrixD) (x : TileSt) : UnitWork s (s.drainFp32 m x) := by
  unfold State.drainFp32
  extract_lets k runs t
  split
  · exact s.contribute_unitWork ..
  · exact (UnitWork.foldl _ (fun t r => t.drainReports_unitWork ..) s).trans (State.contribute_unitWork ..)

/-- The rows of a tile delivered by its drain action. -/
def State.drained (s : State) (k tile : Nat) (m : MatrixD) (x : TileSt) : State :=
  match m.drain with
  | 1 => s.drainVector k tile m x
  | 2 => s.drainMemory m x
  | 3 => s.drainTally m x
  | 4 => s.drainFp32 m x
  | _ => s

theorem State.drained_spec (s : State) (k tile : Nat) (m : MatrixD) (x : TileSt) :
    EngWork k s (s.drained k tile m x) ∧ (m.drain = 1 → (((s.drained k tile m x).eng k).plane tile).state = 2) := by
  unfold State.drained
  split
  · obtain ⟨h1, h2⟩ := s.drainVector_spec k tile m x
    exact ⟨h1, fun _ => h2⟩
  · next h => exact ⟨(s.drainMemory_unitWork m x).engWork k, fun q => absurd (h.symm.trans q) (by decide)⟩
  · next h => exact ⟨(s.drainTally_unitWork m x).engWork k, fun q => absurd (h.symm.trans q) (by decide)⟩
  · next h => exact ⟨(s.drainFp32_unitWork m x).engWork k, fun q => absurd (h.symm.trans q) (by decide)⟩
  · next h _ _ _ => exact ⟨(UnitWork.refl s).engWork k, fun q => absurd q h⟩

theorem exec_drainEnd {die : Die} {engine : Engine} {d : DrainEnd} {s : State} :
    let k := engKey die engine
    let x := strikeTile d.errors ((s.eng k).tile d.tile)
    let m := matrixD x.desc
    let u := ((s.quiet.toCycle x.drainAt).overflowIf (!x.void && x.cells.any (fun e => e.2.overflowed)) 0x02 m.tensor).drained
      k d.tile m x
    let v := (u.setEng k ((u.eng k).setTile d.tile TileSt.init)).setObj (oTileStatus k d.tile)
      (if x.void then 2 ^ 33 else tileStatus x)
    (x.phase ≠ 3 → exec (.drainEnd die engine d) s = .next s.quiet) ∧
    (x.phase = 3 → exec (.drainEnd die engine d) s = .next (if x.void then v else
      { v with verdicts := v.verdicts ++
        [⟨1, die, engine, v.stepNow, v.step.attempt, v.now, x.desc, m.window, tileChecks x⟩] })) := by
  intro k x m u v
  refine ⟨fun h => if_pos h, fun h => (if_neg (Classical.not_not.mpr h)).trans ?_⟩
  exact (apply_ite Host.Outcome.next _ _ _).symm

theorem oStepNow_ne_oTileStatus (k t : Nat) : oStepNow ≠ oTileStatus k t := by
  unfold oTileStatus
  split
  · unfold oStepNow oTileStatusD0 objKey
    omega
  · unfold oStepNow oTileStatusD1 objKey
    omega

/-- DRAIN_END. -/
theorem drainEnd_spec (die : Die) (engine : Engine) (d : DrainEnd) (s : State) :
    let k := engKey die engine
    let x := strikeTile d.errors ((s.eng k).tile d.tile)
    (x.phase = 3 →
      Gives (.drainEnd die engine d) s (fun t => (t.eng k).tile d.tile = TileSt.init ∧ x.drainAt ≤ 2 * t.now ∧
        t.obj (oTileStatus k d.tile) = (if x.void then 2 ^ 33 else tileStatus x) ∧
        ((matrixD x.desc).drain = 1 → ((t.eng k).plane d.tile).state = 2) ∧
        (∀ j, j ≠ k → t.eng j = s.eng j) ∧
        t.verdicts = s.verdicts ++ (if x.void then [] else
          [⟨1, die, engine, s.obj oStepNow, s.step.attempt, t.now, x.desc, (matrixD x.desc).window, tileChecks x⟩]))) ∧
    (x.phase ≠ 3 → exec (.drainEnd die engine d) s = .next s.quiet) := by
  intro k x
  obtain ⟨h1, h2⟩ := exec_drainEnd (die := die) (engine := engine) (d := d) (s := s)
  refine ⟨fun h => ?_, h1⟩
  have hx := h2 h
  clear h1 h2
  obtain ⟨c1, -, c3, -, c5, c6, -, c8, -⟩ := s.quiet.toCycle_spec x.drainAt
  generalize s.quiet.toCycle x.drainAt = a at hx c1 c3 c5 c6 c8
  have hb := (a.overflowIf_unitWork (!x.void && x.cells.any (fun e => e.2.overflowed)) 0x02 (matrixD x.desc).tensor).engWork k
  generalize a.overflowIf (!x.void && x.cells.any (fun e => e.2.overflowed)) 0x02 (matrixD x.desc).tensor = b at hx hb
  obtain ⟨hu, hp⟩ := b.drained_spec k d.tile (matrixD x.desc) x
  generalize b.drained k d.tile (matrixD x.desc) x = u at hx hu hp
  have hw := hb.trans hu
  obtain ⟨v, hv, v1, v2, v3, v4, v5, v6, v7⟩ : ∃ v, v = (u.setEng k ((u.eng k).setTile d.tile TileSt.init)).setObj
        (oTileStatus k d.tile) (if x.void then 2 ^ 33 else tileStatus x) ∧
      v.eng k = (u.eng k).setTile d.tile TileSt.init ∧ (∀ j, j ≠ k → v.eng j = u.eng j) ∧ v.now = u.now ∧
      v.verdicts = u.verdicts ∧ v.stepNow = u.stepNow ∧ v.step = u.step ∧
      v.obj (oTileStatus k d.tile) = (if x.void then 2 ^ 33 else tileStatus x) := by
    refine ⟨_, rfl, ?_, fun j hj => ?_, State.setObj_now .., State.setObj_verdicts .., State.obj_setObj_ne _ _ (oStepNow_ne_oTileStatus _ _),
      State.setObj_step .., State.obj_setObj_self ..⟩
    · rw [State.eng_of_engines (State.setObj_engines ..), State.eng_setEng_self]
    · rw [State.eng_of_engines (State.setObj_engines ..), (u.setEng_engWork k _).eng j hj]
  rw [← hv] at hx
  obtain ⟨w, hw1, w1, w2, w3, w4⟩ : ∃ w, w = (if x.void then v else { v with verdicts := v.verdicts ++
        [⟨1, die, engine, v.stepNow, v.step.attempt, v.now, x.desc, (matrixD x.desc).window, tileChecks x⟩] }) ∧
      w.engines = v.engines ∧ w.now = v.now ∧ w.od = v.od ∧ w.verdicts = v.verdicts ++ (if x.void then [] else
        [⟨1, die, engine, v.stepNow, v.step.attempt, v.now, x.desc, (matrixD x.desc).window, tileChecks x⟩]) := by
    refine ⟨_, rfl, ?_⟩
    split
    · exact ⟨rfl, rfl, rfl, (List.append_nil _).symm⟩
    · exact ⟨rfl, rfl, rfl, rfl⟩
  have hnow : w.now = a.now := w2.trans (v3.trans hw.now)
  have hstep : v.stepNow = s.obj oStepNow := v5.trans ((hw.obj _ (by decide)).trans (State.obj_of_od c3 _))
  have hatt : v.step.attempt = s.step.attempt := (congrArg StepSt.attempt v6).trans (hw.attempt.trans (by rw [c8]; rfl))
  have hverd : v.verdicts = s.verdicts := v4.trans (hw.verdicts.trans c6)
  refine ⟨w, hx.trans (by rw [hw1]), ?_, hnow ▸ c1, (State.obj_of_od w3 _).trans v7, fun q => ?_, fun j hj => ?_, ?_⟩
  · rw [State.eng_of_engines w1, v1, EngineSt.tile_setTile_self]
  · rw [State.eng_of_engines w1, v1, EngineSt.plane_setTile]
    exact hp q
  · rw [State.eng_of_engines w1, v2 j hj, hw.eng j hj]
    exact State.eng_of_engines c5 j
  · rw [w4, hverd, hstep, hatt, w2]

/-- Settles O30: whatever a drain delivers leaves the other engines, the verdicts due and the step's name as they are. -/
theorem drainCommands : Obligations.DrainCommands := ⟨drainStart_spec, drainEnd_spec⟩

end Sys2Proof.Machine

namespace Sys2Proof.Machine

/-! ### A descriptor refused at its start -/

/-- `t` is `s` with an invalid command counted at `c`, shown at `l` and raised, and the step poisoned without a replay. -/
structure CmdRefused (c l : Nat) (s t : State) : Prop where
  engines : t.engines = s.engines
  step : s.admitted = true → t.step.fault = true ∧ t.step.hold = true
  count : t.obj c = (s.obj c + 1) % 2 ^ objBits c
  same : SameObj s t ([c, l] ++ eventKeys)

theorem State.refuseCmd_refused (s : State) {c l : Nat} (v : Nat) (ev : Ev) (hcl : c ≠ l) (hc : c ∉ eventKeys)
    (hp : oPlanState ≠ c ∧ oPlanState ≠ l) :
    CmdRefused c l s ((((s.bump c).setObj l v).poison true).raise ev) := by
  obtain ⟨u, hu, h1, h2, h3, h4⟩ : ∃ u, u = (s.bump c).setObj l v ∧ u.engines = s.engines ∧
      u.obj c = (s.obj c + 1) % 2 ^ objBits c ∧ SameObj s u [c, l] ∧ u.admitted = s.admitted := by
    refine ⟨_, rfl, ?_, ?_, ((SameObj.refl s _).bump (List.mem_cons_self ..)).setObj _ (by simp), ?_⟩
    · rw [State.setObj_engines, s.bump_engines]
    · rw [State.obj_setObj_ne _ _ hcl, s.bump_obj_self]
    · exact State.admitted_congr ((State.obj_setObj_ne _ _ hp.2).trans (s.bump_obj_ne hp.1))
  rw [← hu]
  have hl := (u.poison true).raise_logs ev
  obtain ⟨-, p2⟩ := u.poison_cores true
  refine ⟨hl.engines.trans (p2.trans h1), fun ha => ?_, ?_, fun k hk => ?_⟩
  · rw [hl.step]
    obtain ⟨q1, q2⟩ := State.poison_step (s := u) true (h4.trans ha)
    exact ⟨q1, q2 rfl⟩
  · rw [hl.obj c hc, State.poison_obj, h2]
  · rw [List.mem_append, not_or] at hk
    rw [hl.obj k hk.2, State.poison_obj, h3 k hk.1]

/-- MATRIX_CMD_INVALID. -/
theorem State.matrixInvalid_spec (s : State) (k code fill : Nat) :
    ∃ u, CmdRefused oCmdInvalidCount oLastCmdInvalid s u ∧
      s.matrixInvalid k code fill = u.setEng k { u.eng k with voidStep := true } :=
  ⟨_, s.refuseCmd_refused _ .matrixCmdInvalid (by decide) (by decide) ⟨by decide, by decide⟩, rfl⟩

/-- An engine's first descriptor taken from its FIFO and refused. -/
theorem State.matrixInvalid_taken {s a : State} {k code fill : Nat} {e : EngineSt} (ha : a.od = s.od) :
    let t := (a.setEng k e).matrixInvalid k code fill
    t.eng k = { e with voidStep := true } ∧ (s.admitted = true → t.step.fault = true ∧ t.step.hold = true) ∧
    t.obj oCmdInvalidCount = (s.obj oCmdInvalidCount + 1) % 2 ^ objBits oCmdInvalidCount ∧
    SameObj s t ([oCmdInvalidCount, oLastCmdInvalid] ++ eventKeys) := by
  intro t
  obtain ⟨u, hu, ht⟩ := (a.setEng k e).matrixInvalid_spec k code fill
  have htu : t = _ := ht
  have hod : ∀ j, (a.setEng k e).obj j = s.obj j := State.obj_of_od ha
  clear_value t
  subst htu
  refine ⟨?_, fun q => hu.step ((State.admitted_congr (hod _)).trans q), ?_, fun j hj => (hu.same j hj).trans (hod j)⟩
  · rw [State.eng_setEng_self, State.eng_of_engines hu.engines, State.eng_setEng_self]
  · exact hu.count.trans (by rw [hod])

/-! ### FILL -/

/-- A fold over states with something beside them. -/
theorem UnitWork.foldlPair {α β : Type} {f : State × β → α → State × β} (l : List α) (h : ∀ a x, UnitWork a.1 (f a x).1)
    (a : State × β) : UnitWork a.1 (l.foldl f a).1 :=
  List.foldlRecOn l f (motive := fun b => UnitWork a.1 b.1) (UnitWork.refl _) (fun b hb x _ => hb.trans (h b x))

theorem State.fillRow_unitWork (s : State) (f : FillD) (j r : Nat) : UnitWork s (s.fillRow f j r).1 := by
  unfold State.fillRow
  extract_lets rb n l cs
  split
  · exact UnitWork.refl s
  · have hl : UnitWork s l.1 := (s.loadData_memWork ..).unitWork
    split
    · exact hl
    · exact hl.trans (State.overflowIf_unitWork ..)

theorem State.fillScales_unitWork (s : State) (f : FillD) (j : Nat) : UnitWork s (s.fillScales f j).1 := by
  refine UnitWork.foldlPair (upto 64) (fun a r => ?_) (s, [])
  split
  · exact UnitWork.refl _
  · exact (State.loadData_memWork ..).unitWork

theorem State.fillLine_unitWork (s : State) (f : FillD) (j l : Nat) : UnitWork s (s.fillLine f j l).1 := by
  unfold State.fillLine
  extract_lets rb
  split
  · exact s.fillScales_unitWork f j
  · refine UnitWork.foldlPair _ (fun a i => ?_) (s, [])
    exact a.1.fillRow_unitWork ..

/-- Lines were put in engine `k`'s buffer. -/
structure BufWork (k : Nat) (s t : State) : Prop where
  work : EngWork k s t
  self : ∃ buf filled sums, t.eng k = { s.eng k with buf := buf, filled := filled, sums := sums }

theorem BufWork.trans {k : Nat} {s t u : State} (h : BufWork k s t) (g : BufWork k t u) : BufWork k s u := by
  obtain ⟨_, _, _, h1⟩ := h.self
  obtain ⟨a, b, c, g1⟩ := g.self
  exact ⟨h.work.trans g.work, a, b, c, by rw [g1, h1]⟩

theorem State.putLine_bufWork (s : State) (k : Nat) (f : FillD) (n0 n : Nat) : BufWork k s (s.putLine k f n0 n) := by
  unfold State.putLine
  extract_lets pl r e l e'
  have hr : UnitWork s r.1 := s.fillLine_unitWork ..
  refine ⟨(hr.engWork k).trans (r.1.setEng_engWork k _), ?_⟩
  rw [State.eng_setEng_self]
  have he : e = s.eng k := hr.eng k
  split
  · exact ⟨_, _, _, by rw [← he]; rfl⟩
  · exact ⟨_, _, _, by rw [← he]⟩

/-- The lines of a FILL's page put in the buffer. -/
def State.putLines (s : State) (k : Nat) (f : FillD) (n0 : Nat) (ns : List Nat) : State :=
  ns.foldl (fun s n => s.putLine k f n0 n) s

theorem State.putLines_bufWork (s : State) (k : Nat) (f : FillD) (n0 : Nat) (ns : List Nat) :
    BufWork k s (s.putLines k f n0 ns) := by
  refine List.foldlRecOn ns _ (motive := fun t => BufWork k s t) ⟨(UnitWork.refl s).engWork k, _, _, _, rfl⟩ ?_
  exact fun t ht n _ => ht.trans (t.putLine_bufWork k f n0 n)

theorem State.writePage_eq (s : State) (k : Nat) (f : FillD) :
    let e := s.eng k
    let span := fillPage e f e.fillPages
    let u := s.putLines k f (fillStart e f) ((upto (span.2 - span.1)).map (fun i => span.1 + i))
    let page := bufLine f.line f.ring span.1 / 64
    ∃ panels, s.writePage k f =
      if fillStart e f + fillTotal f ≤ span.2 then
        u.setEng k { u.eng k with
          valid := insertSorted page (u.eng k).valid, panels := panels, fills := (u.eng k).fills.drop 1, fillPages := 0,
          streams := Bank.set (u.eng k).streams 0 f.line (fillStart e f + fillTotal f) }
      else u.setEng k { u.eng k with
        valid := insertSorted page (u.eng k).valid, panels := panels, fillPages := e.fillPages + 1 } := ⟨_, rfl⟩

theorem State.writePage_spec (s : State) (k : Nat) (f : FillD) :
    let e := s.eng k
    let span := fillPage e f e.fillPages
    let w := s.writePage k f
    bufLine f.line f.ring span.1 / 64 ∈ (w.eng k).valid ∧
    (w.eng k).buf = ((s.putLines k f (fillStart e f) ((upto (span.2 - span.1)).map (fun i => span.1 + i))).eng k).buf ∧
    ((w.eng k).fills = e.fills.drop 1 ∨ (w.eng k).fills = e.fills) ∧ (∀ j, j ≠ k → w.eng j = s.eng j) := by
  intro e span w
  obtain ⟨panels, hw⟩ := s.writePage_eq k f
  have hb := s.putLines_bufWork k f (fillStart e f) ((upto (span.2 - span.1)).map (fun i => span.1 + i))
  have hwu : w = _ := hw
  clear_value w
  subst hwu
  dsimp only
  generalize s.putLines k f (fillStart e f) ((upto (span.2 - span.1)).map (fun i => span.1 + i)) = u at hb
  obtain ⟨buf, filled, sums, he⟩ := hb.self
  have hf : (u.eng k).fills = e.fills := by rw [he]
  split
  · refine ⟨?_, ?_, Or.inl ?_, (hb.work.trans (u.setEng_engWork k _)).eng⟩
    · rw [State.eng_setEng_self]
      exact (mem_insertSorted ..).mpr (Or.inl rfl)
    · rw [State.eng_setEng_self]
    · rw [State.eng_setEng_self, hf]
  · refine ⟨?_, ?_, Or.inr ?_, (hb.work.trans (u.setEng_engWork k _)).eng⟩
    · rw [State.eng_setEng_self]
      exact (mem_insertSorted ..).mpr (Or.inl rfl)
    · rw [State.eng_setEng_self]
    · rw [State.eng_setEng_self, hf]

theorem exec_fill {die : Die} {engine : Engine} {us : List Upset} {q : Queued} {rest : List Queued} {s : State}
    (h : (s.eng (engKey die engine)).fills = q :: rest) :
    let k := engKey die engine
    let e := s.eng k
    let f := fillD q.bytes
    let u := (s.quiet.strike us).advanceTo q.notBefore
    exec (.fill die engine us) s = .next (
      if s.runsVoid k q then (s.quiet.strike us).setEng k { e with fills := rest, fillPages := 0 }
      else if e.fillPages = 0 ∧ fillBad q.bytes ≠ 0 then (u.setEng k { e with fills := rest }).matrixInvalid k (fillBad q.bytes) 1
      else if e.valid.contains (bufLine f.line f.ring (fillPage e f e.fillPages).1 / 64) then u
      else (u.writePage k f).runSlice k) := by
  intro k e f u
  obtain ⟨b, hb⟩ := s.quiet.strike_spec us
  have hx : exec (.fill die engine us) s = execFill die engine us s := rfl
  have he : (s.quiet.strike us).eng k = e := by rw [hb]; rfl
  have hv : (s.quiet.strike us).runsVoid k q = s.runsVoid k q := by rw [hb]; rfl
  rw [hx]
  unfold execFill
  dsimp only
  change (match ((s.quiet.strike us).eng k).fills with
    | [] => _
    | q :: rest => _) = _
  rw [he, show e.fills = q :: rest from h]
  dsimp only
  rw [hv]
  simp only [apply_ite Host.Outcome.next]
  rfl

/-- FILL with a descriptor in its FIFO. -/
theorem fill_spec (die : Die) (engine : Engine) (us : List Upset) (q : Queued) (rest : List Queued) (s : State)
    (h : (s.eng (engKey die engine)).fills = q :: rest) :
    let k := engKey die engine
    let e := s.eng k
    let f := fillD q.bytes
    let page := bufLine f.line f.ring (fillPage e f e.fillPages).1 / 64
    let u := (s.quiet.strike us).advanceTo q.notBefore
    (s.runsVoid k q = true →
      exec (.fill die engine us) s = .next ((s.quiet.strike us).setEng k { e with fills := rest, fillPages := 0 })) ∧
    (s.runsVoid k q = false → e.fillPages = 0 → fillBad q.bytes ≠ 0 →
      Gives (.fill die engine us) s (fun t => (t.eng k).voidStep = true ∧ (t.eng k).fills = rest ∧
        (s.admitted = true → t.step.fault = true ∧ t.step.hold = true) ∧
        t.obj oCmdInvalidCount = (s.obj oCmdInvalidCount + 1) % 2 ^ objBits oCmdInvalidCount ∧
        SameObj s t ([oCmdInvalidCount, oLastCmdInvalid] ++ eventKeys))) ∧
    (s.runsVoid k q = false → e.fillPages ≠ 0 ∨ fillBad q.bytes = 0 → page ∈ e.valid →
      exec (.fill die engine us) s = .next u) ∧
    (s.runsVoid k q = false → e.fillPages ≠ 0 ∨ fillBad q.bytes = 0 → page ∉ e.valid →
      let span := fillPage e f e.fillPages
      let w := u.writePage k f
      exec (.fill die engine us) s = .next (w.runSlice k) ∧ page ∈ (w.eng k).valid ∧
        (w.eng k).buf = (((upto (span.2 - span.1)).foldl
          (fun (x : State) i => x.putLine k f (fillStart e f) (span.1 + i)) u).eng k).buf ∧
        ((w.eng k).fills = rest ∨ (w.eng k).fills = e.fills) ∧ (∀ j, j ≠ k → w.eng j = s.eng j)) := by
  intro k e f page u
  have hx := exec_fill (us := us) h
  dsimp only at hx
  obtain ⟨hod, heng⟩ : u.od = s.od ∧ u.engines = s.engines := by
    obtain ⟨b, hb⟩ := s.quiet.strike_spec us
    have hu : u = (s.quiet.strike us).advanceTo q.notBefore := rfl
    rw [hu, hb]
    exact ⟨rfl, rfl⟩
  change exec (.fill die engine us) s = .next (
    if s.runsVoid k q then (s.quiet.strike us).setEng k { e with fills := rest, fillPages := 0 }
    else if e.fillPages = 0 ∧ fillBad q.bytes ≠ 0 then (u.setEng k { e with fills := rest }).matrixInvalid k (fillBad q.bytes) 1
    else if e.valid.contains page then u else (u.writePage k f).runSlice k) at hx
  have he : u.eng k = e := State.eng_of_engines heng k
  have hfills : e.fills = q :: rest := h
  have hpage : page = bufLine f.line f.ring (fillPage e f e.fillPages).1 / 64 := rfl
  clear_value u e page
  have hgood : e.fillPages ≠ 0 ∨ fillBad q.bytes = 0 → ¬(e.fillPages = 0 ∧ fillBad q.bytes ≠ 0) := by
    rintro (q | q) ⟨q1, q2⟩
    · exact q q1
    · exact q2 q
  refine ⟨fun hv => ?_, fun hv hp hb => ?_, fun hv hb hm => ?_, fun hv hb hm => ?_⟩
  · rw [hv, if_pos rfl] at hx
    exact hx
  · rw [hv, if_neg Bool.noConfusion, if_pos ⟨hp, hb⟩] at hx
    obtain ⟨h1, h2, h3, h4⟩ := State.matrixInvalid_taken (k := k) (code := fillBad q.bytes) (fill := 1)
      (e := { e with fills := rest }) hod
    exact ⟨_, hx, by rw [h1], by rw [h1], h2, h3, h4⟩
  · rw [hv, if_neg Bool.noConfusion, if_neg (hgood hb), if_pos (List.contains_iff_mem.mpr hm)] at hx
    exact hx
  · rw [hv, if_neg Bool.noConfusion, if_neg (hgood hb), if_neg (fun q => hm (List.contains_iff_mem.mp q))] at hx
    obtain ⟨w1, w2, w3, w4⟩ := u.writePage_spec k f
    rw [he] at w1 w2 w3
    intro span w
    refine ⟨hx, hpage ▸ w1, w2.trans ?_, ?_, fun j hj => (w4 j hj).trans (State.eng_of_engines heng j)⟩
    · rw [State.putLines, List.foldl_map]
    · rw [hfills] at w3 ⊢
      exact w3

end Sys2Proof.Machine

namespace Sys2Proof.Machine

/-! ### What the entry of k-blocks leaves -/

/-- The accumulation of a tile is the same one. -/
structure SameTile (x y : TileSt) : Prop where
  phase : y.phase = x.phase
  products : y.products = x.products

theorem SameTile.refl (x : TileSt) : SameTile x x := ⟨rfl, rfl⟩

theorem SameTile.trans {x y z : TileSt} (h : SameTile x y) (k : SameTile y z) : SameTile x z :=
  ⟨k.phase.trans h.phase, k.products.trans h.products⟩

theorem enterTerm_sameTile (s : State) (m : MatrixD) (x : TileSt) (a : Int) (pr : Products) (r c kb p : Nat) :
    SameTile x (enterTerm s m x a pr r c kb p) := ⟨rfl, rfl⟩

theorem SameTile.foldlPair {α β : Type} {f : TileSt × β → α → TileSt × β} (l : List α) (h : ∀ a x, SameTile a.1 (f a x).1)
    (a : TileSt × β) : SameTile a.1 (l.foldl f a).1 :=
  List.foldlRecOn l f (motive := fun b => SameTile a.1 b.1) (SameTile.refl _) (fun b hb x _ => hb.trans (h b x))

theorem SameTile.checked {x y : TileSt} (h : SameTile x y) (e : Bank Nat) (b : List BlockCheck) :
    SameTile x { y with expect := e, blocks := b } := ⟨h.phase, h.products⟩

theorem enterPass_sameTile (s : State) (m : MatrixD) (an : Int) (a b : Panel) (n kb : Nat) (x : TileSt)
    (pp : (Nat × Nat) × Nat) : SameTile x (enterPass s m an a b n kb x pp) := by
  unfold enterPass
  refine SameTile.checked ?_ _ _
  generalize tileCells = cells
  refine SameTile.foldlPair cells (fun y rc => ?_) (x, 0)
  exact enterTerm_sameTile ..

theorem enterBlock_sameTile (s : State) (m : MatrixD) (x : TileSt) (a b : Panel) (n kb : Nat) :
    SameTile x (enterBlock s m x a b n kb) := by
  unfold enterBlock
  extract_lets af
  refine List.foldlRecOn _ _ (motive := fun y => SameTile x y) ⟨rfl, rfl⟩ ?_
  exact fun y hy pp _ => hy.trans (enterPass_sameTile ..)

/-- A slice runs on in an engine: its FIFO, its descriptor and the tiles' accumulations are the same. -/
structure SliceRuns (e f : EngineSt) : Prop where
  slices : f.slices = e.slices
  slice : f.slice.map (fun x => (x.desc, x.void)) = e.slice.map (fun x => (x.desc, x.void))
  tile : ∀ i, SameTile (e.tile i) (f.tile i)

theorem SliceRuns.refl (e : EngineSt) : SliceRuns e e := ⟨rfl, rfl, fun _ => SameTile.refl _⟩

theorem SliceRuns.trans {e f g : EngineSt} (h : SliceRuns e f) (k : SliceRuns f g) : SliceRuns e g :=
  ⟨k.slices.trans h.slices, k.slice.trans h.slice, fun i => (h.tile i).trans (k.tile i)⟩

theorem takeLine_runs (e : EngineSt) (l : Nat) : SliceRuns e (takeLine e l) := by
  unfold takeLine
  extract_lets p got
  split <;> exact ⟨rfl, rfl, fun _ => SameTile.refl _⟩

theorem releasePanel_runs (e : EngineSt) (line ring c j : Nat) : SliceRuns e (releasePanel e line ring c j) :=
  List.foldlRecOn _ _ (motive := fun f => SliceRuns e f) (SliceRuns.refl e) (fun f hf l _ => hf.trans (takeLine_runs f l))

theorem EngineSt.tile_setTile (e : EngineSt) (t : Nat) (x : TileSt) (i : Nat) :
    (e.setTile t x).tile i = if (i = 0 ↔ t = 0) then x else e.tile i := by
  unfold EngineSt.setTile EngineSt.tile
  by_cases h : t = 0 <;> by_cases g : i = 0 <;> simp [h, g]

theorem EngineSt.setTile_runs (e : EngineSt) {t : Nat} {x : TileSt} (h : SameTile (e.tile t) x) : SliceRuns e (e.setTile t x) := by
  have hs : (e.setTile t x).slices = e.slices ∧ (e.setTile t x).slice = e.slice := by
    unfold EngineSt.setTile
    split <;> exact ⟨rfl, rfl⟩
  refine ⟨hs.1, by rw [hs.2], fun i => ?_⟩
  rw [EngineSt.tile_setTile]
  split
  · next hi =>
    have : e.tile i = e.tile t := by
      unfold EngineSt.tile
      simp only [hi]
    rw [this]
    exact h
  · exact SameTile.refl _

/-- A slice runs on in engine `k` of a state: the other engines and the memory stand. -/
structure BlockWork (k : Nat) (s t : State) : Prop where
  self : SliceRuns (s.eng k) (t.eng k)
  eng : ∀ j, j ≠ k → t.eng j = s.eng j
  mem : t.mem = s.mem

theorem BlockWork.refl (k : Nat) (s : State) : BlockWork k s s := ⟨SliceRuns.refl _, fun _ _ => rfl, rfl⟩

theorem BlockWork.trans {k : Nat} {s t u : State} (h : BlockWork k s t) (g : BlockWork k t u) : BlockWork k s u :=
  ⟨h.self.trans g.self, fun j hj => (g.eng j hj).trans (h.eng j hj), g.mem.trans h.mem⟩

theorem BlockWork.setEng {k : Nat} {s u : State} {e : EngineSt} (hu : u.engines = s.engines) (hm : u.mem = s.mem)
    (h : SliceRuns (s.eng k) e) : BlockWork k s (u.setEng k e) :=
  ⟨by rw [State.eng_setEng_self]; exact h,
    fun j hj => ((u.setEng_engWork k e).eng j hj).trans (State.eng_of_engines hu j), hm⟩

theorem State.addObj_same (s : State) (k n : Nat) :
    (s.addObj k n).engines = s.engines ∧ (s.addObj k n).mem = s.mem ∧ (s.addObj k n).now = s.now ∧
    SameObj s (s.addObj k n) [k] :=
  ⟨rfl, rfl, rfl, (SameObj.refl s _).setObj _ (List.mem_singleton.mpr rfl)⟩

theorem State.stepBlock_blockWork (s : State) (k : Nat) : BlockWork k s (s.stepBlock k) := by
  unfold State.stepBlock
  extract_lets e
  split
  · exact BlockWork.refl k s
  · next sl hsl =>
    extract_lets m j x e1 e2 e3 wait
    split
    · exact BlockWork.refl k s
    · split
      · refine BlockWork.setEng rfl rfl ⟨rfl, ?_, fun _ => SameTile.refl _⟩
        rw [show (s.eng k).slice = some sl from hsl]
        rfl
      · split
        · have h1 : SliceRuns e e1 := e.setTile_runs (enterBlock_sameTile ..)
          have h2 : SliceRuns e e2 := by
            show SliceRuns e (if m.relA then releasePanel e1 m.aLine m.aRing m.fa (sl.aBase + j) else e1)
            split
            · exact h1.trans (releasePanel_runs ..)
            · exact h1
          have h3 : SliceRuns e e3 := by
            show SliceRuns e (if m.relB then releasePanel e2 m.bLine m.bRing m.fb (sl.bBase + j) else e2)
            split
            · exact h2.trans (releasePanel_runs ..)
            · exact h2
          obtain ⟨a1, a2, -⟩ := s.addObj_same oStallCycles wait
          refine BlockWork.setEng a1 a2 ⟨h3.slices, ?_, h3.tile⟩
          rw [show (s.eng k).slice = some sl from hsl]
          rfl
        · exact BlockWork.refl k s

theorem State.runBlocks_blockWork (n : Nat) (s : State) (k : Nat) : BlockWork k s (State.runBlocks n s k) := by
  induction n generalizing s with
  | zero => exact BlockWork.refl k s
  | succ n ih =>
    rw [State.runBlocks]
    split
    · exact s.stepBlock_blockWork k
    · exact (s.stepBlock_blockWork k).trans (ih _)

theorem State.runSlice_blockWork (s : State) (k : Nat) : BlockWork k s (s.runSlice k) := State.runBlocks_blockWork _ s k

/-! ### SLICE_START -/

/-- The engine as a slice begins. -/
def EngineSt.begun (e : EngineSt) (q : Queued) (void : Bool) (start : Nat) : EngineSt :=
  let m := matrixD q.bytes
  let x := if m.cont then e.tile m.tile else newTile m void
  let a0 := Bank.get e.panels 0 m.aLine
  let b0 := Bank.get e.panels 0 m.bLine
  let e := e.setTile m.tile { x with products := x.products + m.k * m.passes, void := x.void || void }
  let e := { e with
    slices := e.slices.drop 1, lastTile := some m.tile,
    slice := some ⟨q.bytes, void, 0, a0, b0, q.beat, start + 24⟩ }
  if void then e else
    { e with panels := (fun p => if m.relB then Bank.set p 0 m.bLine (b0 + m.blocks) else p)
               (if m.relA then Bank.set e.panels 0 m.aLine (a0 + m.blocks) else e.panels) }

theorem EngineSt.begun_spec (e : EngineSt) (q : Queued) (void : Bool) (start : Nat) :
    let m := matrixD q.bytes
    (e.begun q void start).slices = e.slices.drop 1 ∧
    (e.begun q void start).slice.map (fun x => (x.desc, x.void)) = some (q.bytes, void) ∧
    (m.cont = false → ((e.begun q void start).tile m.tile).phase = 1 ∧
      ((e.begun q void start).tile m.tile).products = m.k * m.passes) := by
  intro m
  unfold EngineSt.begun
  extract_lets x a0 b0 e1 e2
  have h1 : e1.slices = e.slices := by
    show (EngineSt.setTile ..).slices = _
    unfold EngineSt.setTile
    split <;> rfl
  have h2 : e2.slices = e.slices.drop 1 ∧ e2.slice.map (fun x => (x.desc, x.void)) = some (q.bytes, void) ∧
      (m.cont = false → (e2.tile m.tile).phase = 1 ∧ (e2.tile m.tile).products = m.k * m.passes) := by
    refine ⟨by rw [← h1], rfl, fun hc => ?_⟩
    have ht : e2.tile m.tile = { x with products := x.products + m.k * m.passes, void := x.void || void } :=
      EngineSt.tile_setTile_self ..
    have hx : x = newTile m void := if_neg (by rw [show m.cont = false from hc]; exact Bool.noConfusion)
    rw [ht, hx]
    exact ⟨rfl, Nat.zero_add _⟩
  split
  · exact h2
  · exact h2

theorem State.beginSlice_eq (s : State) (k : Nat) (q : Queued) (void : Bool) : ∃ n start,
    s.beginSlice k q void =
      (if (matrixD q.bytes).cont then (s.addObj oStallCycles n).setEng k ((s.eng k).begun q void start)
      else ((s.addObj oStallCycles n).setEng k ((s.eng k).begun q void start)).setObj
        (oTileStatus k (matrixD q.bytes).tile) (2 ^ 33)).runSlice k := ⟨_, _, rfl⟩

/-- What the begin of a slice leaves. -/
theorem State.beginSlice_spec (s : State) (k : Nat) (q : Queued) (void : Bool) :
    let m := matrixD q.bytes
    let t := s.beginSlice k q void
    (t.eng k).slices = (s.eng k).slices.drop 1 ∧
    (t.eng k).slice.map (fun x => (x.desc, x.void)) = some (q.bytes, void) ∧
    (m.cont = false → ((t.eng k).tile m.tile).phase = 1 ∧ ((t.eng k).tile m.tile).products = m.k * m.passes) ∧
    (∀ j, j ≠ k → t.eng j = s.eng j) ∧ t.mem = s.mem := by
  intro m t
  obtain ⟨n, start, ht⟩ := s.beginSlice_eq k q void
  have htu : t = _ := ht
  clear_value t
  subst htu
  obtain ⟨b1, b2, b3⟩ := (s.eng k).begun_spec q void start
  obtain ⟨a1, a2, -⟩ := s.addObj_same oStallCycles n
  generalize s.addObj oStallCycles n = a at a1 a2
  obtain ⟨u, hu, u1, u2, u3⟩ : ∃ u, u = (if (matrixD q.bytes).cont then a.setEng k ((s.eng k).begun q void start)
        else (a.setEng k ((s.eng k).begun q void start)).setObj (oTileStatus k (matrixD q.bytes).tile) (2 ^ 33)) ∧
      u.eng k = (s.eng k).begun q void start ∧ (∀ j, j ≠ k → u.eng j = s.eng j) ∧ u.mem = s.mem := by
    have h1 : (a.setEng k ((s.eng k).begun q void start)).eng k = (s.eng k).begun q void start := State.eng_setEng_self ..
    have h2 : ∀ j, j ≠ k → (a.setEng k ((s.eng k).begun q void start)).eng j = s.eng j := fun j hj =>
      ((a.setEng_engWork k _).eng j hj).trans (State.eng_of_engines a1 j)
    refine ⟨_, rfl, ?_⟩
    split
    · exact ⟨h1, h2, a2⟩
    · exact ⟨(State.eng_of_engines (State.setObj_engines ..) k).trans h1,
        fun j hj => (State.eng_of_engines (State.setObj_engines ..) j).trans (h2 j hj), (State.setObj_mem ..).trans a2⟩
  rw [← hu]
  have hr := u.runSlice_blockWork k
  refine ⟨?_, ?_, fun hc => ?_, fun j hj => (hr.eng j hj).trans (u2 j hj), hr.mem.trans u3⟩
  · rw [hr.self.slices, u1, b1]
  · rw [hr.self.slice, u1, b2]
  · obtain ⟨c1, c2⟩ := b3 hc
    rw [(hr.self.tile _).phase, (hr.self.tile _).products, u1]
    exact ⟨c1, c2⟩

end Sys2Proof.Machine

namespace Sys2Proof.Machine

/-! ### SLICE_START -/

theorem State.toCycle_eq (s : State) (c : Nat) : ∃ now bell, s.toCycle c = { s with now := now, bell := bell } :=
  ⟨_, _, rfl⟩

/-- What a descriptor is judged by does not depend on the time. -/
theorem State.matrixBad_toCycle (s : State) (c k : Nat) (d : Bytes) : (s.toCycle c).matrixBad k d = s.matrixBad k d := by
  obtain ⟨now, bell, h⟩ := s.toCycle_eq c
  rw [h]
  rfl

theorem exec_sliceStart {die : Die} {engine : Engine} {q : Queued} {rest : List Queued} {s : State}
    (h1 : (s.eng (engKey die engine)).slice = none) (h2 : (s.eng (engKey die engine)).slices = q :: rest) :
    let k := engKey die engine
    let e := s.eng k
    let m := matrixD q.bytes
    let void := s.runsVoid k q
    let u := s.quiet.toCycle (max (2 * q.notBefore) e.readyAt)
    let code := if void then 0 else s.matrixBad k q.bytes
    exec (.sliceStart die engine) s = .next (
      if code ≠ 0 then (u.setEng k { e with slices := rest }).matrixInvalid k code 0
      else if m.cont = false ∧ 2 ≤ (e.tile m.tile).phase then u
      else if void ∨ (panelReady e m.aLine m.aRing m.fa (Bank.get e.panels 0 m.aLine) &&
        panelReady e m.bLine m.bRing m.fb (Bank.get e.panels 0 m.bLine)) = true then u.beginSlice k q void
      else u) := by
  intro k e m void u code
  have hb : u.matrixBad k q.bytes = s.matrixBad k q.bytes := State.matrixBad_toCycle ..
  have hx : exec (.sliceStart die engine) s = execSliceStart die engine s := rfl
  rw [hx]
  unfold execSliceStart
  extract_lets s0 e0
  have h3 : e0.slice = none := h1
  have h4 : e0.slices = q :: rest := h2
  split
  · next q' rest' g1 g2 =>
    obtain ⟨rfl, rfl⟩ : q = q' ∧ rest = rest' := by
      rw [h4] at g2
      exact ⟨(List.cons.inj g2).1, (List.cons.inj g2).2⟩
    extract_lets v1 u1 c1
    have hc : c1 = code := by
      show (if v1 then 0 else u.matrixBad k q.bytes) = _
      rw [hb]
      rfl
    rw [hc]
    simp only [apply_ite Host.Outcome.next]
    rfl
  · next g => exact (g q rest h3 h4).elim

/-- SLICE_START with a descriptor in its FIFO and no slice in progress. -/
theorem sliceStart_spec (die : Die) (engine : Engine) (q : Queued) (rest : List Queued) (s : State) :
    let k := engKey die engine
    let e := s.eng k
    let m := matrixD q.bytes
    let ready := panelReady e m.aLine m.aRing m.fa (Bank.get e.panels 0 m.aLine) &&
      panelReady e m.bLine m.bRing m.fb (Bank.get e.panels 0 m.bLine)
    let begun := fun (void : Bool) (t : State) => (t.eng k).slices = rest ∧
      (t.eng k).slice.map (fun x => (x.desc, x.void)) = some (q.bytes, void) ∧
      (m.cont = false → ((t.eng k).tile m.tile).phase = 1 ∧
        ((t.eng k).tile m.tile).products = m.k * m.passes) ∧ (∀ j, j ≠ k → t.eng j = s.eng j) ∧ t.mem = s.mem
    e.slice = none → e.slices = q :: rest →
    (s.runsVoid k q = false → s.matrixBad k q.bytes = 0 → m.cont = true ∨ (e.tile m.tile).phase < 2 → ready = true →
      Gives (.sliceStart die engine) s (begun false)) ∧
    (s.runsVoid k q = true → m.cont = true ∨ (e.tile m.tile).phase < 2 →
      Gives (.sliceStart die engine) s (begun true)) ∧
    (s.runsVoid k q = false → s.matrixBad k q.bytes ≠ 0 →
      Gives (.sliceStart die engine) s (fun t => (t.eng k).voidStep = true ∧ (t.eng k).slices = rest ∧
        (t.eng k).slice = none ∧ (s.admitted = true → t.step.fault = true ∧ t.step.hold = true) ∧
        t.obj oCmdInvalidCount = (s.obj oCmdInvalidCount + 1) % 2 ^ objBits oCmdInvalidCount ∧
        SameObj s t ([oCmdInvalidCount, oLastCmdInvalid] ++ eventKeys))) ∧
    (s.runsVoid k q = true ∨ s.matrixBad k q.bytes = 0 →
      m.cont = false ∧ 2 ≤ (e.tile m.tile).phase ∨ s.runsVoid k q = false ∧ ready = false →
      exec (.sliceStart die engine) s = .next (s.quiet.toCycle (max (2 * q.notBefore) e.readyAt))) := by
  intro k e m ready begun h1 h2
  have hx := exec_sliceStart h1 h2
  dsimp only at hx
  obtain ⟨-, -, hod, hmem, heng, -⟩ := s.quiet.toCycle_spec (max (2 * q.notBefore) e.readyAt)
  obtain ⟨u, hu⟩ : ∃ u, u = s.quiet.toCycle (max (2 * q.notBefore) e.readyAt) := ⟨_, rfl⟩
  change exec (.sliceStart die engine) s = .next (
    if (if s.runsVoid k q then 0 else s.matrixBad k q.bytes) ≠ 0 then
      ((s.quiet.toCycle (max (2 * q.notBefore) e.readyAt)).setEng k { e with slices := rest }).matrixInvalid k
        (if s.runsVoid k q then 0 else s.matrixBad k q.bytes) 0
    else if m.cont = false ∧ 2 ≤ (e.tile m.tile).phase then s.quiet.toCycle (max (2 * q.notBefore) e.readyAt)
    else if s.runsVoid k q = true ∨ ready = true then
      (s.quiet.toCycle (max (2 * q.notBefore) e.readyAt)).beginSlice k q (s.runsVoid k q)
    else s.quiet.toCycle (max (2 * q.notBefore) e.readyAt)) at hx
  rw [← hu] at hx hod hmem heng ⊢
  have he : u.eng k = e := State.eng_of_engines heng k
  have h2' : e.slices = q :: rest := h2
  have h1' : e.slice = none := h1
  have hbegin : ∀ v, begun v (u.beginSlice k q v) := by
    intro v
    obtain ⟨b1, b2, b3, b4, b5⟩ := u.beginSlice_spec k q v
    refine ⟨?_, b2, b3, fun j hj => (b4 j hj).trans (State.eng_of_engines heng j), b5.trans hmem⟩
    rw [b1, he, h2']
    rfl
  clear_value e ready
  have hgo : m.cont = true ∨ (e.tile m.tile).phase < 2 → ¬(m.cont = false ∧ 2 ≤ (e.tile m.tile).phase) := by
    rintro (q | q) ⟨q1, q2⟩
    · exact Bool.noConfusion (q.symm.trans q1)
    · exact absurd q (Nat.not_lt.mpr q2)
  have hcode : s.runsVoid k q = true ∨ s.matrixBad k q.bytes = 0 →
      ¬(if s.runsVoid k q then 0 else s.matrixBad k q.bytes) ≠ 0 := by
    intro h
    rw [Classical.not_not]
    rcases h with h | h
    · rw [h, if_pos rfl]
    · rw [h, ite_self]
  refine ⟨fun hv hb hp hr => ?_, fun hv hp => ?_, fun hv hb => ?_, fun hvb hp => ?_⟩
  · rw [if_neg (hcode (Or.inr hb)), if_neg (hgo hp), if_pos (Or.inr hr), hv] at hx
    exact ⟨_, hx, hbegin false⟩
  · rw [if_neg (hcode (Or.inl hv)), if_neg (hgo hp), if_pos (Or.inl hv), hv] at hx
    exact ⟨_, hx, hbegin true⟩
  · have hc : (if s.runsVoid k q then 0 else s.matrixBad k q.bytes) = s.matrixBad k q.bytes := by rw [hv]; rfl
    rw [hc, if_pos hb] at hx
    obtain ⟨t1, t2, t3, t4⟩ := State.matrixInvalid_taken (k := k) (code := s.matrixBad k q.bytes) (fill := 0)
      (e := { e with slices := rest }) hod
    exact ⟨_, hx, by rw [t1], by rw [t1], by rw [t1]; exact h1', t2, t3, t4⟩
  · rw [if_neg (hcode hvb)] at hx
    by_cases hw : m.cont = false ∧ 2 ≤ (e.tile m.tile).phase
    · rw [if_pos hw] at hx
      exact hx
    · obtain ⟨hv, hr⟩ := hp.resolve_left hw
      rw [if_neg hw, hv, hr, if_neg (by simp)] at hx
      exact hx

/-! ### SLICE_END -/

theorem strikeTerms_sameTile (errors : List TermError) (x : TileSt) : SameTile x (strikeTerms errors x) := by
  unfold strikeTerms
  extract_lets y
  have hy : SameTile x y := by
    refine List.foldlRecOn errors _ (motive := fun y => SameTile x y) (SameTile.refl x) ?_
    intro y hy e _
    split
    · exact ⟨hy.phase, hy.products⟩
    · exact hy
  exact ⟨hy.phase, hy.products⟩

/-- A tile after the last term of a slice is in it. -/
def TileSt.ended (x : TileSt) (sl : SliceSt) : TileSt :=
  let m := matrixD sl.desc
  let y := { x with whole := m.k % 16 == 0 }
  if m.drain = 0 then y else { y with phase := 2, desc := sl.desc, beat := sl.beat }

theorem TileSt.ended_spec (x : TileSt) (sl : SliceSt) :
    (x.ended sl).phase = (if (matrixD sl.desc).drain = 0 then x.phase else 2) ∧
    ((matrixD sl.desc).drain ≠ 0 → (x.ended sl).desc = sl.desc) ∧ (x.ended sl).cells = x.cells := by
  unfold TileSt.ended
  by_cases h : (matrixD sl.desc).drain = 0
  · simp only [h, if_true]
    exact ⟨trivial, fun q => absurd rfl q, trivial⟩
  · simp only [h, if_false]
    exact ⟨trivial, fun _ => trivial, trivial⟩

theorem exec_sliceEnd {die : Die} {x : SliceEnd} {sl : SliceSt} {s : State} (h : (s.eng (engKey die x.engine)).slice = some sl) :
    let k := engKey die x.engine
    let e := s.eng k
    let m := matrixD sl.desc
    exec (.sliceEnd die x) s = .next (
      if sl.done < m.blocks then s.quiet
      else (s.quiet.toCycle sl.cycle).setEng k
        { e.setTile m.tile ((strikeTerms x.errors (e.tile m.tile)).ended sl) with slice := none, readyAt := sl.cycle }) := by
  intro k e m
  have hx : exec (.sliceEnd die x) s = execSliceEnd die x s := rfl
  rw [hx]
  unfold execSliceEnd
  extract_lets s0 e0
  have h3 : e0.slice = some sl := h
  split
  · next g => exact absurd (h3.symm.trans g) nofun
  · next sl' g =>
    obtain rfl : sl = sl' := Option.some.inj (h3.symm.trans g)
    exact (apply_ite Host.Outcome.next _ _ _).symm

theorem sliceEnd_spec (die : Die) (x : SliceEnd) (sl : SliceSt) (s : State) :
    let k := engKey die x.engine
    let e := s.eng k
    let m := matrixD sl.desc
    e.slice = some sl →
    (m.blocks ≤ sl.done →
      Gives (.sliceEnd die x) s (fun t => (t.eng k).slice = none ∧ (t.eng k).readyAt = sl.cycle ∧
        sl.cycle ≤ 2 * t.now ∧
        ((t.eng k).tile m.tile).phase = (if m.drain = 0 then (e.tile m.tile).phase else 2) ∧
        (m.drain ≠ 0 → ((t.eng k).tile m.tile).desc = sl.desc) ∧
        ((t.eng k).tile m.tile).cells = (strikeTerms x.errors (e.tile m.tile)).cells ∧
        (x.errors = [] → ((t.eng k).tile m.tile).cells = (e.tile m.tile).cells) ∧
        (∀ j, j ≠ k → t.eng j = s.eng j) ∧ t.od = s.od ∧ t.mem = s.mem ∧ s.now ≤ t.now)) ∧
    (sl.done < m.blocks → exec (.sliceEnd die x) s = .next s.quiet) := by
  intro k e m h
  have hx := exec_sliceEnd h
  dsimp only at hx
  refine ⟨fun hd => ?_, fun hd => ?_⟩
  · rw [if_neg (Nat.not_lt.mpr hd)] at hx
    obtain ⟨c1, c2, c3, c4, c5, -⟩ := s.quiet.toCycle_spec sl.cycle
    generalize s.quiet.toCycle sl.cycle = u at hx c1 c2 c3 c4 c5
    obtain ⟨t1, t2, t3⟩ := (strikeTerms x.errors (e.tile m.tile)).ended_spec sl
    have htile : ∀ (f : EngineSt) (y : TileSt), ({ f.setTile m.tile y with slice := none, readyAt := sl.cycle } :
        EngineSt).tile m.tile = y := fun f y => f.tile_setTile_self m.tile y
    have hself := u.eng_setEng_self k
      { e.setTile m.tile ((strikeTerms x.errors (e.tile m.tile)).ended sl) with slice := none, readyAt := sl.cycle }
    refine ⟨_, hx, by rw [hself], by rw [hself], c1, ?_, fun q => ?_, ?_, fun q => ?_, fun j hj => ?_, c3, c4, c2⟩
    · rw [hself, htile, t1, (strikeTerms_sameTile ..).phase]
    · rw [hself, htile, t2 q]
    · rw [hself, htile, t3]
    · rw [hself, htile, t3, q]
      rfl
    · exact ((u.setEng_engWork k _).eng j hj).trans (State.eng_of_engines c5 j)
  · rw [if_pos hd] at hx
    exact hx

/-- Settles O29: what a FILL puts in its page, what a slice's k-blocks leave of a tile and of the FIFO, and what a refused
descriptor changes. -/
theorem fillsAndSlices : Obligations.FillsAndSlices := by
  refine ⟨fun die engine us s h => ?_, fun die engine us q rest s => fun h => fill_spec die engine us q rest s h,
    sliceStart_spec, fun die engine s h => ?_, sliceEnd_spec, fun die x s h => ?_⟩
  · show execFill die engine us s = _
    obtain ⟨b, hb⟩ := s.quiet.strike_spec us
    have he : ((s.quiet.strike us).eng (engKey die engine)).fills = [] := by rw [hb]; exact h
    unfold execFill
    extract_lets u k e
    split
    · rfl
    · next g => exact absurd (he.symm.trans g) nofun
  · show execSliceStart die engine s = _
    unfold execSliceStart
    extract_lets u k e
    split
    · next g1 g2 =>
      rcases h with h | h
      · exact absurd g1 h
      · exact absurd (h.symm.trans g2) nofun
    · rfl
  · show execSliceEnd die x s = _
    unfold execSliceEnd
    extract_lets u k e
    split
    · rfl
    · next g => exact absurd (h.symm.trans g) nofun

end Sys2Proof.Machine

namespace Sys2Proof.Machine

/-! ### VLOAD -/

/-- VECTOR_CMD_INVALID. -/
theorem State.vectorInvalid_spec (s : State) (k code instr vload : Nat) :
    ∃ u, CmdRefused oVecCmdInvalidCount oLastVecCmdInvalid s u ∧
      s.vectorInvalid k code instr vload = u.setEng k { u.eng k with voidVec := true } :=
  ⟨_, s.refuseCmd_refused _ .vectorCmdInvalid (by decide) (by decide) ⟨by decide, by decide⟩, rfl⟩

/-- An engine's first descriptor of a vector FIFO taken and refused. -/
theorem State.vectorInvalid_taken {s a : State} {k code instr vload : Nat} {e : EngineSt} (ha : a.od = s.od) :
    let t := (a.setEng k e).vectorInvalid k code instr vload
    t.eng k = { e with voidVec := true } ∧ (s.admitted = true → t.step.fault = true ∧ t.step.hold = true) ∧
    t.obj oVecCmdInvalidCount = (s.obj oVecCmdInvalidCount + 1) % 2 ^ objBits oVecCmdInvalidCount ∧
    SameObj s t ([oVecCmdInvalidCount, oLastVecCmdInvalid] ++ eventKeys) := by
  intro t
  obtain ⟨u, hu, ht⟩ := (a.setEng k e).vectorInvalid_spec k code instr vload
  have htu : t = _ := ht
  have hod : ∀ j, (a.setEng k e).obj j = s.obj j := State.obj_of_od ha
  clear_value t
  subst htu
  refine ⟨?_, fun q => hu.step ((State.admitted_congr (hod _)).trans q), ?_, fun j hj => (hu.same j hj).trans (hod j)⟩
  · rw [State.eng_setEng_self, State.eng_of_engines hu.engines, State.eng_setEng_self]
  · exact hu.count.trans (by rw [hod])

theorem State.loadRow_memWork (s : State) (v : VloadD) (r n : Nat) : MemWork s (s.loadRow v r n).1 := by
  unfold State.loadRow
  extract_lets l sc
  have hl : MemWork s l.1 := s.loadData_memWork ..
  show MemWork s (if isMx v.format then _ else _ : State × Bytes).1
  split
  · exact hl.trans (State.loadData_memWork ..)
  · exact hl

/-- A bank filled with a list from an index on. -/
theorem Bank.get_fill (xs : List Nat) (n : Nat) (b : Bank Nat) (i : Nat) :
    Bank.get ((xs.zipIdx n).foldl (fun (b : Bank Nat) x => Bank.set b 0 x.2 x.1) b) 0 i =
      if n ≤ i ∧ i < n + xs.length then xs.getD (i - n) 0 else Bank.get b 0 i := by
  induction xs generalizing n b with
  | nil => exact (if_neg (by simp)).symm
  | cons x xs ih =>
    rw [List.zipIdx_cons, List.foldl_cons, ih, Bank.get_set, List.length_cons]
    by_cases h : i = n
    · subst h
      rw [if_neg (by omega), if_pos rfl, if_pos (by omega), Nat.sub_self]
      rfl
    · rw [if_neg h]
      by_cases h1 : n + 1 ≤ i ∧ i < n + 1 + xs.length
      · rw [if_pos h1, if_pos (by omega), show i - n = (i - (n + 1)) + 1 by omega]
        rfl
      · rw [if_neg h1, if_neg (by omega)]

/-- A VLOAD's data put in its target. -/
theorem State.runVload_spec (s : State) (k : Nat) (v : VloadD) :
    EngWork k s (s.runVload k v) ∧ ((s.runVload k v).eng k).vloads = (s.eng k).vloads ∧
    ((s.runVload k v).eng k).vectors = (s.eng k).vectors ∧
    (v.isPlane = true → (((s.runVload k v).eng k).plane v.target).state = 2) ∧
    (v.isPlane = false → v.isBcast = true →
      Bank.get ((s.runVload k v).eng k).bcasts BcastSt.init (v.target - 0x10) =
        ⟨(s.loadRow v 0 v.rows).2.zipIdx.foldl (fun (b : Bank Nat) x => Bank.set b 0 x.2 x.1) [], [], v.colvec⟩) ∧
    (v.isPlane = false → v.isBcast = false →
      Bank.get ((s.runVload k v).eng k).progs [] (v.target - 0x20) = (s.loadData .engine v.src 192).2) := by
  unfold State.runVload
  cases hp : v.isPlane with
  | true =>
    rw [if_pos rfl]
    extract_lets r
    have hr : UnitWork s r.1 := by
      refine UnitWork.foldlPair (upto v.rows) (fun a i => ?_) (s, [])
      exact (a.1.loadRow_memWork ..).unitWork
    have hs : ∀ (e : EngineSt) (x : PlaneSt), (e.setPlane v.target x).vloads = e.vloads ∧
        (e.setPlane v.target x).vectors = e.vectors := by
      intro e x
      unfold EngineSt.setPlane
      split <;> exact ⟨rfl, rfl⟩
    refine ⟨(hr.engWork k).trans (r.1.setEng_engWork k _), ?_, ?_, fun _ => ?_, nofun, nofun⟩
    · rw [State.eng_setEng_self, (hs _ _).1, hr.eng]
    · rw [State.eng_setEng_self, (hs _ _).2, hr.eng]
    · rw [State.eng_setEng_self, EngineSt.plane_setPlane_self]
  | false =>
    rw [if_neg Bool.noConfusion]
    cases hb : v.isBcast with
    | true =>
      rw [if_pos rfl]
      extract_lets l e vals
      have hl : UnitWork s l.1 := (s.loadRow_memWork ..).unitWork
      refine ⟨(hl.engWork k).trans (l.1.setEng_engWork k _), ?_, ?_, nofun, fun _ _ => ?_, nofun⟩
      · rw [State.eng_setEng_self, ← hl.eng k]
      · rw [State.eng_setEng_self, ← hl.eng k]
      · rw [State.eng_setEng_self]
        exact (Bank.get_set ..).trans (if_pos rfl)
    | false =>
      rw [if_neg Bool.noConfusion]
      extract_lets l e
      have hl : UnitWork s l.1 := (s.loadData_memWork ..).unitWork
      refine ⟨(hl.engWork k).trans (l.1.setEng_engWork k _), ?_, ?_, nofun, nofun, fun _ _ => ?_⟩
      · rw [State.eng_setEng_self, ← hl.eng k]
      · rw [State.eng_setEng_self, ← hl.eng k]
      · rw [State.eng_setEng_self]
        exact (Bank.get_set ..).trans (if_pos rfl)

theorem exec_vload {die : Die} {engine : Engine} {q : Queued} {rest : List Queued} {s : State}
    (h : (s.eng (engKey die engine)).vloads = q :: rest) :
    let k := engKey die engine
    let e := s.eng k
    let v := vloadD q.bytes
    let a := s.quiet.advanceTo q.notBefore
    let b := a.addObj oVecStallCycles (a.cyc - max e.vloadReady (2 * q.notBefore))
    exec (.vload die engine) s = .next (
      if s.runsVoidVec k q then s.quiet.setEng k { e with vloads := rest }
      else if vloadBad q.bytes ≠ 0 then (a.setEng k { e with vloads := rest }).vectorInvalid k (vloadBad q.bytes) 0 1
      else if vloadWaits e q || (v.isPlane && (e.plane v.target).state != 0) then a
      else (b.setEng k { e with vloads := rest, vloadReady := b.cyc }).runVload k v) := by
  intro k e v a b
  have hx : exec (.vload die engine) s = execVload die engine s := rfl
  rw [hx]
  unfold execVload
  extract_lets s0 e0
  have h3 : e0.vloads = q :: rest := h
  split
  · next g => exact absurd (h3.symm.trans g) nofun
  · next q' rest' g =>
    obtain ⟨rfl, rfl⟩ : q = q' ∧ rest = rest' := List.cons.inj (h3.symm.trans g)
    simp only [apply_ite Host.Outcome.next]
    rfl

/-- VLOAD with a descriptor in its FIFO. -/
theorem vload_spec (die : Die) (engine : Engine) (q : Queued) (rest : List Queued) (s : State) :
    let k := engKey die engine
    let e := s.eng k
    let v := vloadD q.bytes
    let a := s.quiet.advanceTo q.notBefore
    let b := a.addObj oVecStallCycles (a.cyc - max e.vloadReady (2 * q.notBefore))
    let w := b.setEng k { e with vloads := rest, vloadReady := b.cyc }
    e.vloads = q :: rest →
    (s.runsVoidVec k q = true → exec (.vload die engine) s = .next (s.quiet.setEng k { e with vloads := rest })) ∧
    (s.runsVoidVec k q = false → vloadBad q.bytes ≠ 0 →
      Gives (.vload die engine) s (fun t => (t.eng k).vloads = rest ∧ (t.eng k).voidVec = true ∧
        (s.admitted = true → t.step.fault = true ∧ t.step.hold = true) ∧
        t.obj oVecCmdInvalidCount = (s.obj oVecCmdInvalidCount + 1) % 2 ^ objBits oVecCmdInvalidCount ∧
        SameObj s t ([oVecCmdInvalidCount, oLastVecCmdInvalid] ++ eventKeys))) ∧
    (s.runsVoidVec k q = false → vloadBad q.bytes = 0 →
      vloadWaits e q = true ∨ v.isPlane = true ∧ (e.plane v.target).state ≠ 0 →
      exec (.vload die engine) s = .next a) ∧
    (s.runsVoidVec k q = false → vloadBad q.bytes = 0 → vloadWaits e q = false →
      (v.isPlane = true → (e.plane v.target).state = 0) →
      exec (.vload die engine) s = .next (w.runVload k v) ∧
      Gives (.vload die engine) s (fun t => (t.eng k).vloads = rest ∧
        (v.isPlane = true → ((t.eng k).plane v.target).state = 2) ∧
        (v.isBcast = true → (Bank.get (t.eng k).bcasts BcastSt.init (v.target - 0x10)).colvec = v.colvec ∧
          ∀ i < v.rows, Bank.get (Bank.get (t.eng k).bcasts BcastSt.init (v.target - 0x10)).vals 0 i =
            (w.loadRow v 0 v.rows).2.getD i 0) ∧
        (v.isProg = true → Bank.get (t.eng k).progs [] (v.target - 0x20) = (w.loadData .engine v.src 192).2) ∧
        (t.eng k).vectors = e.vectors ∧ (∀ j, j ≠ k → t.eng j = s.eng j))) := by
  intro k e v a b w h
  have hx := exec_vload h
  change exec (.vload die engine) s = .next (
      if s.runsVoidVec k q then s.quiet.setEng k { e with vloads := rest }
      else if vloadBad q.bytes ≠ 0 then (a.setEng k { e with vloads := rest }).vectorInvalid k (vloadBad q.bytes) 0 1
      else if vloadWaits e q || (v.isPlane && (e.plane v.target).state != 0) then a else w.runVload k v) at hx
  obtain ⟨hod, heng⟩ : a.od = s.od ∧ a.engines = s.engines := ⟨rfl, rfl⟩
  obtain ⟨hw1, hw2, hw3⟩ : (w.eng k).vloads = rest ∧ (w.eng k).vectors = e.vectors ∧ ∀ j, j ≠ k → w.eng j = s.eng j := by
    have hw := b.eng_setEng_self k { e with vloads := rest, vloadReady := b.cyc }
    refine ⟨by rw [show w.eng k = _ from hw], by rw [show w.eng k = _ from hw], fun j hj => ?_⟩
    obtain ⟨b1, -⟩ := a.addObj_same oVecStallCycles (a.cyc - max e.vloadReady (2 * q.notBefore))
    exact ((b.setEng_engWork k _).eng j hj).trans (State.eng_of_engines (b1.trans heng) j)
  clear_value w b a
  refine ⟨fun hv => ?_, fun hv hb => ?_, fun hv hb hp => ?_, fun hv hb hp hs => ?_⟩
  · rw [hv, if_pos rfl] at hx
    exact hx
  · rw [hv, if_neg Bool.noConfusion, if_pos hb] at hx
    obtain ⟨t1, t2, t3, t4⟩ := State.vectorInvalid_taken (k := k) (code := vloadBad q.bytes) (instr := 0) (vload := 1)
      (e := { e with vloads := rest }) hod
    exact ⟨_, hx, by rw [t1], by rw [t1], t2, t3, t4⟩
  · rw [hv, if_neg Bool.noConfusion, if_neg (Classical.not_not.mpr hb), if_pos] at hx
    · exact hx
    · rcases hp with hp | ⟨hp, hs⟩
      · rw [hp, Bool.true_or]
      · rw [hp, bne_iff_ne.mpr hs, Bool.and_self, Bool.or_true]
  · have hgo : ¬(vloadWaits e q || (v.isPlane && (e.plane v.target).state != 0)) = true := by
      rw [hp, Bool.false_or, Bool.and_eq_true, bne_iff_ne]
      exact fun q => q.2 (hs q.1)
    rw [hv, if_neg Bool.noConfusion, if_neg (Classical.not_not.mpr hb), if_neg hgo] at hx
    obtain ⟨r1, r2, r3, r4, r5, r6⟩ := w.runVload_spec k v
    have hfar : v.isPlane = true → v.isBcast = false ∧ v.isProg = false := by
      simp only [VloadD.isPlane, VloadD.isBcast, VloadD.isProg, Bool.and_eq_false_iff, decide_eq_true_eq, decide_eq_false_iff_not]
      omega
    have hprog : v.isProg = true → v.isPlane = false ∧ v.isBcast = false := by
      simp only [VloadD.isPlane, VloadD.isBcast, VloadD.isProg, Bool.and_eq_false_iff, Bool.and_eq_true, decide_eq_true_eq,
        decide_eq_false_iff_not]
      omega
    refine ⟨hx, _, hx, r2.trans hw1, r4, fun q => ?_, fun q => r6 (hprog q).1 (hprog q).2, r3.trans hw2,
      fun j hj => (r1.eng j hj).trans (hw3 j hj)⟩
    have hnp : v.isPlane = false := by
      cases hp' : v.isPlane with
      | false => rfl
      | true => exact absurd (q.symm.trans (hfar hp').1) Bool.noConfusion
    rw [r5 hnp q]
    refine ⟨rfl, fun i _ => ?_⟩
    rw [Bank.get_fill]
    split
    · rw [Nat.sub_zero]
    · next hi =>
      rw [List.getD_eq_getElem?_getD, List.getElem?_eq_none (by omega)]
      rfl

end Sys2Proof.Machine

namespace Sys2Proof.Machine

/-! ### PROGRAM_START -/

theorem State.vectorBad_toCycle (s : State) (c k : Nat) (d : Bytes) : (s.toCycle c).vectorBad k d = s.vectorBad k d := by
  obtain ⟨now, bell, h⟩ := s.toCycle_eq c
  rw [h]
  rfl

/-- BOUND_EXCEEDED raised away from an issue. -/
theorem State.boundExceeded_spec (s : State) : s.boundExceeded.engines = s.engines ∧ SameObj s s.boundExceeded eventKeys ∧
    (s.admitted = true → s.boundExceeded.step.fault = true ∧ s.boundExceeded.step.hold = true) := by
  have hl := (s.poison true).raiseWith_logs .boundExceeded 2 none 0
  refine ⟨hl.engines.trans (s.poison_cores true).2, fun k hk => (hl.obj k hk).trans (s.poison_obj true k), fun ha => ?_⟩
  rw [State.boundExceeded, hl.step]
  obtain ⟨q1, q2⟩ := State.poison_step (s := s) true ha
  exact ⟨q1, q2 rfl⟩

/-- The engine as a program begins. -/
def EngineSt.programBegun (e : EngineSt) (q : Queued) (void isOver : Bool) (cycle : Nat) : EngineSt :=
  let v := vectorD q.bytes
  let f := if void then e else e.setPlane v.plane { e.plane v.plane with state := 3 }
  { f with vectors := f.vectors.drop 1, run := some ⟨q.bytes, void || isOver, q.beat, cycle⟩ }

theorem EngineSt.setPlane_vectors (e : EngineSt) (p : Nat) (x : PlaneSt) : (e.setPlane p x).vectors = e.vectors := by
  unfold EngineSt.setPlane
  split <;> rfl

theorem EngineSt.programBegun_spec (e : EngineSt) (q : Queued) (void isOver : Bool) (cycle : Nat) :
    (e.programBegun q void isOver cycle).vectors = e.vectors.drop 1 ∧
    (e.programBegun q void isOver cycle).run.map (fun x => (x.desc, x.void, x.beat)) = some (q.bytes, void || isOver, q.beat) ∧
    (void = false → ((e.programBegun q void isOver cycle).plane (vectorD q.bytes).plane).state = 3) ∧
    (void = true → (e.programBegun q void isOver cycle).plane (vectorD q.bytes).plane = e.plane (vectorD q.bytes).plane) := by
  unfold EngineSt.programBegun
  cases void with
  | true => exact ⟨rfl, rfl, nofun, fun _ => rfl⟩
  | false =>
    refine ⟨?_, rfl, fun _ => ?_, nofun⟩
    · exact congrArg (List.drop 1) (e.setPlane_vectors _ _)
    · exact congrArg PlaneSt.state (e.plane_setPlane_self (vectorD q.bytes).plane
        { e.plane (vectorD q.bytes).plane with state := 3 })

/-- Whether a program's COUNT exceeds its item's bound. -/
def EngineSt.exceeds (e : EngineSt) (q : Queued) : Bool :=
  decide (q.bound < min 32 (progCount (Bank.get e.progs [] (vectorD q.bytes).prog)))

theorem State.beginProgram_eq (s : State) (k : Nat) (q : Queued) (void : Bool) : ∃ n cycle,
    s.beginProgram k q void =
      if !void && (s.eng k).exceeds q then ((s.addObj oVecStallCycles n).setEng k
        ((s.eng k).programBegun q void (!void && (s.eng k).exceeds q) cycle)).boundExceeded
      else (s.addObj oVecStallCycles n).setEng k ((s.eng k).programBegun q void (!void && (s.eng k).exceeds q) cycle) :=
  ⟨_, _, rfl⟩

/-- The begin of a program. -/
theorem State.beginProgram_spec (s : State) (k : Nat) (q : Queued) (void : Bool) :
    let t := s.beginProgram k q void
    let isOver := !void && (s.eng k).exceeds q
    (∃ cycle, t.eng k = (s.eng k).programBegun q void isOver cycle) ∧ (∀ j, j ≠ k → t.eng j = s.eng j) ∧
    SameObj s t (oVecStallCycles :: eventKeys) ∧ (isOver = false → SameObj s t [oVecStallCycles] ∧ t.mem = s.mem) ∧
    (isOver = true → s.admitted = true → t.step.fault = true ∧ t.step.hold = true) := by
  intro t isOver
  obtain ⟨n, cycle, h⟩ := s.beginProgram_eq k q void
  change t = (if isOver then _ else _) at h
  obtain ⟨a1, a2, -, a4⟩ := s.addObj_same oVecStallCycles n
  have hu := (s.addObj oVecStallCycles n).setEng_engWork k ((s.eng k).programBegun q void isOver cycle)
  have he := (s.addObj oVecStallCycles n).eng_setEng_self k ((s.eng k).programBegun q void isOver cycle)
  obtain ⟨u, u1, u2, u3⟩ : ∃ u, u = (s.addObj oVecStallCycles n).setEng k ((s.eng k).programBegun q void isOver cycle) ∧
      SameObj s u [oVecStallCycles] ∧ u.mem = s.mem := ⟨_, rfl, a4, a2⟩
  change t = (if isOver then ((s.addObj oVecStallCycles n).setEng k ((s.eng k).programBegun q void isOver cycle)).boundExceeded
    else (s.addObj oVecStallCycles n).setEng k ((s.eng k).programBegun q void isOver cycle)) at h
  rw [← u1] at hu he h
  have hun : ∀ j, j ≠ k → u.eng j = s.eng j := fun j hj => (hu.eng j hj).trans (State.eng_of_engines a1 j)
  clear_value t isOver
  cases isOver with
  | false =>
    rw [if_neg Bool.noConfusion] at h
    subst h
    exact ⟨⟨cycle, he⟩, hun, u2.mono (by simp), fun _ => ⟨u2, u3⟩, nofun⟩
  | true =>
    rw [if_pos rfl] at h
    subst h
    obtain ⟨b1, b2, b3⟩ := u.boundExceeded_spec
    refine ⟨⟨cycle, (State.eng_of_engines b1 k).trans he⟩, fun j hj => (State.eng_of_engines b1 j).trans (hun j hj),
      (u2.mono (by simp)).trans (b2.mono (fun _ => List.mem_cons_of_mem _)), nofun, fun _ ha => b3 ?_⟩
    exact (State.admitted_congr (u2 _ (by decide))).trans ha

theorem exec_programStart {die : Die} {engine : Engine} {q : Queued} {rest : List Queued} {s : State}
    (h1 : (s.eng (engKey die engine)).run = none) (h2 : (s.eng (engKey die engine)).vectors = q :: rest) :
    let k := engKey die engine
    let e := s.eng k
    let u := s.quiet.toCycle (max (2 * q.notBefore) e.vecReady)
    exec (.programStart die engine) s = .next (
      if s.runsVoidVec k q then u.beginProgram k q true
      else if (e.plane (vectorD q.bytes).plane).state ≠ 2 ∨ vectorWaits e q = true then u
      else if (s.vectorBad k q.bytes).1 ≠ 0 then
        (u.setEng k { e with vectors := rest }).vectorInvalid k (s.vectorBad k q.bytes).1 (s.vectorBad k q.bytes).2 0
      else u.beginProgram k q false) := by
  intro k e u
  have hb : u.vectorBad k q.bytes = s.vectorBad k q.bytes := State.vectorBad_toCycle ..
  have hv : u.runsVoidVec k q = s.runsVoidVec k q := by
    obtain ⟨now, bell, h⟩ := s.quiet.toCycle_eq (max (2 * q.notBefore) e.vecReady)
    rw [show u = _ from h]
    rfl
  have hx : exec (.programStart die engine) s = execProgramStart die engine s := rfl
  rw [hx]
  unfold execProgramStart
  extract_lets s0 e0
  have h3 : e0.run = none := h1
  have h4 : e0.vectors = q :: rest := h2
  split
  · next q' rest' g1 g2 =>
    obtain ⟨rfl, rfl⟩ : q = q' ∧ rest = rest' := List.cons.inj (h4.symm.trans g2)
    extract_lets v1 u1 bad
    rw [show u1.runsVoidVec k q = s.runsVoidVec k q from hv, show bad = s.vectorBad k q.bytes from hb]
    simp only [apply_ite Host.Outcome.next]
    rfl
  · next g => exact (g q rest h3 h4).elim

/-- PROGRAM_START with a descriptor in its FIFO and no program in progress. -/
theorem programStart_spec (die : Die) (engine : Engine) (q : Queued) (rest : List Queued) (s : State) :
    let k := engKey die engine
    let e := s.eng k
    let v := vectorD q.bytes
    let n := min 32 (progCount (Bank.get e.progs [] v.prog))
    e.run = none → e.vectors = q :: rest →
    (s.runsVoidVec k q = false → (e.plane v.plane).state = 2 → vectorWaits e q = false →
      (s.vectorBad k q.bytes).1 = 0 →
      Gives (.programStart die engine) s (fun t => (t.eng k).vectors = rest ∧
        (t.eng k).run.map (fun x => (x.desc, x.void, x.beat)) = some (q.bytes, decide (q.bound < n), q.beat) ∧
        ((t.eng k).plane v.plane).state = 3 ∧ (∀ j, j ≠ k → t.eng j = s.eng j) ∧
        SameObj s t (oVecStallCycles :: eventKeys) ∧
        (n ≤ q.bound → SameObj s t [oVecStallCycles] ∧ t.mem = s.mem) ∧
        (q.bound < n → s.admitted = true → t.step.fault = true ∧ t.step.hold = true))) ∧
    (s.runsVoidVec k q = true → Gives (.programStart die engine) s (fun t => (t.eng k).vectors = rest ∧
      (t.eng k).run.map (fun x => (x.desc, x.void, x.beat)) = some (q.bytes, true, q.beat) ∧
      (t.eng k).plane v.plane = e.plane v.plane ∧ (∀ j, j ≠ k → t.eng j = s.eng j) ∧
      SameObj s t [oVecStallCycles] ∧ t.mem = s.mem)) ∧
    (s.runsVoidVec k q = false → (e.plane v.plane).state = 2 → vectorWaits e q = false →
      (s.vectorBad k q.bytes).1 ≠ 0 →
      Gives (.programStart die engine) s (fun t => (t.eng k).vectors = rest ∧ (t.eng k).run = none ∧
        (t.eng k).voidVec = true ∧ (s.admitted = true → t.step.fault = true ∧ t.step.hold = true) ∧
        t.obj oVecCmdInvalidCount = (s.obj oVecCmdInvalidCount + 1) % 2 ^ objBits oVecCmdInvalidCount ∧
        SameObj s t ([oVecCmdInvalidCount, oLastVecCmdInvalid] ++ eventKeys))) ∧
    (s.runsVoidVec k q = false → (e.plane v.plane).state ≠ 2 ∨ vectorWaits e q = true →
      exec (.programStart die engine) s = .next (s.quiet.toCycle (max (2 * q.notBefore) e.vecReady))) := by
  intro k e v n h1 h2
  have hx := exec_programStart h1 h2
  dsimp only at hx
  obtain ⟨-, -, hod, hmem, heng, -⟩ := s.quiet.toCycle_spec (max (2 * q.notBefore) e.vecReady)
  change exec (.programStart die engine) s = .next (
      if s.runsVoidVec k q then (s.quiet.toCycle (max (2 * q.notBefore) e.vecReady)).beginProgram k q true
      else if (e.plane v.plane).state ≠ 2 ∨ vectorWaits e q = true then s.quiet.toCycle (max (2 * q.notBefore) e.vecReady)
      else if (s.vectorBad k q.bytes).1 ≠ 0 then
        ((s.quiet.toCycle (max (2 * q.notBefore) e.vecReady)).setEng k { e with vectors := rest }).vectorInvalid k
          (s.vectorBad k q.bytes).1 (s.vectorBad k q.bytes).2 0
      else (s.quiet.toCycle (max (2 * q.notBefore) e.vecReady)).beginProgram k q false) at hx
  generalize s.quiet.toCycle (max (2 * q.notBefore) e.vecReady) = u at hx hod hmem heng ⊢
  have he : u.eng k = e := State.eng_of_engines heng k
  have hn : e.exceeds q = decide (q.bound < n) := rfl
  have hvec : e.vectors.drop 1 = rest := by rw [show e.vectors = q :: rest from h2]; rfl
  have hrun : e.run = none := h1
  have hod' : ∀ ks, SameObj s u ks := fun ks => SameObj.of_od hod
  have hbeg := u.beginProgram_spec k q
  dsimp only at hbeg
  rw [he] at hbeg
  clear_value e n
  have hgo : (e.plane v.plane).state = 2 → vectorWaits e q = false →
      ¬((e.plane v.plane).state ≠ 2 ∨ vectorWaits e q = true) := by
    rintro g1 g2 (g | g)
    · exact g g1
    · exact Bool.noConfusion (g2.symm.trans g)
  refine ⟨fun hv hp hw hb => ?_, fun hv => ?_, fun hv hp hw hb => ?_, fun hv hp => ?_⟩
  · rw [hv, if_neg Bool.noConfusion, if_neg (hgo hp hw), if_neg (Classical.not_not.mpr hb)] at hx
    obtain ⟨⟨cycle, b1⟩, b2, b3, b4, b5⟩ := hbeg false
    rw [Bool.not_false, Bool.true_and, hn] at b1 b4 b5
    obtain ⟨p1, p2, p3, -⟩ := e.programBegun_spec q false (decide (q.bound < n)) cycle
    refine ⟨_, hx, ?_, ?_, ?_, fun j hj => (b2 j hj).trans (State.eng_of_engines heng j), (hod' _).trans b3, fun g => ?_,
      fun g ha => b5 (decide_eq_true g) ((State.admitted_congr (hod' [] _ nofun)).trans ha)⟩
    · rw [b1, p1, hvec]
    · rw [b1, p2, Bool.false_or]
    · rw [b1]
      exact p3 rfl
    · obtain ⟨g1, g2⟩ := b4 (decide_eq_false (Nat.not_lt.mpr g))
      exact ⟨(hod' _).trans g1, g2.trans hmem⟩
  · rw [hv, if_pos rfl] at hx
    obtain ⟨⟨cycle, b1⟩, b2, -, b4, -⟩ := hbeg true
    obtain ⟨p1, p2, -, p4⟩ := e.programBegun_spec q true (!true && e.exceeds q) cycle
    obtain ⟨g1, g2⟩ := b4 rfl
    refine ⟨_, hx, ?_, ?_, ?_, fun j hj => (b2 j hj).trans (State.eng_of_engines heng j), (hod' _).trans g1, g2.trans hmem⟩
    · rw [b1, p1, hvec]
    · rw [b1, p2, Bool.true_or]
    · rw [b1]
      exact p4 rfl
  · rw [hv, if_neg Bool.noConfusion, if_neg (hgo hp hw), if_pos hb] at hx
    obtain ⟨t1, t2, t3, t4⟩ := State.vectorInvalid_taken (k := k) (code := (s.vectorBad k q.bytes).1)
      (instr := (s.vectorBad k q.bytes).2) (vload := 0) (e := { e with vectors := rest }) hod
    exact ⟨_, hx, by rw [t1], by rw [t1]; exact hrun, by rw [t1], t2, t3, t4⟩
  · rw [hv, if_neg Bool.noConfusion, if_pos hp] at hx
    exact hx

end Sys2Proof.Machine

namespace Sys2Proof.Machine

/-! ### PROGRAM_END -/

theorem State.storeOut_unitWork (s : State) (k : Nat) (v : VectorD) : UnitWork s (s.storeOut k v) := by
  unfold State.storeOut
  extract_lets e t b words
  have ht : UnitWork s t := by
    show UnitWork s (if v.action = 0 then s else _)
    split
    · exact UnitWork.refl s
    · refine UnitWork.foldl _ (fun u r => ?_) s
      extract_lets cs u1 a
      have hu : UnitWork u u1 := u.overflowIf_unitWork ..
      split
      · exact (hu.trans (State.storeRow_memWork ..).unitWork).trans (State.storeScales_memWork ..).unitWork
      · exact hu.trans (State.contribute_unitWork ..)
  split
  · exact ht.trans (State.storeBy_memWork ..).unitWork
  · exact ht

/-- What a program's end leaves of its input plane. -/
def PlaneSt.freed (p : PlaneSt) (release : Bool) : PlaneSt :=
  if p.state = 2 ∨ p.state = 3 then (if release then { p with state := 0 } else { p with state := 2 }) else p

theorem PlaneSt.freed_state {p : PlaneSt} (release : Bool) (h : p.state = 2 ∨ p.state = 3) :
    (p.freed release).state = if release then 0 else 2 := by
  rw [PlaneSt.freed, if_pos h]
  cases release <;> rfl

/-- The summaries that a void program leaves. -/
def voidSums (p : Bytes) : List (Nat × SumSlot) :=
  ((progInstrs p).filter (fun w => iOp w == 0x28)).map (fun w => (bits (iFlags w) 0 6, { SumSlot.zero with contrib := 1 }))

/-- The engine at its program's end. -/
def EngineSt.programDone (e : EngineSt) (r : RunSt) (regs : Bank Nat) (bcasts : Bank BcastSt) : EngineSt :=
  let v := vectorD r.desc
  { e.setPlane v.plane ((e.plane v.plane).freed v.release) with
    run := none, vecReady := r.cycle, regs := regs, bcasts := bcasts }

theorem EngineSt.programDone_spec (e : EngineSt) (r : RunSt) (regs : Bank Nat) (bcasts : Bank BcastSt) :
    (e.programDone r regs bcasts).run = none ∧ (e.programDone r regs bcasts).vecReady = r.cycle ∧
    (e.programDone r regs bcasts).regs = regs ∧ (e.programDone r regs bcasts).bcasts = bcasts ∧
    (e.programDone r regs bcasts).plane (vectorD r.desc).plane =
      (e.plane (vectorD r.desc).plane).freed (vectorD r.desc).release :=
  ⟨rfl, rfl, rfl, rfl, e.plane_setPlane_self ..⟩

theorem EngineSt.setPlane_regs (e : EngineSt) (p : Nat) (x : PlaneSt) :
    (e.setPlane p x).regs = e.regs ∧ (e.setPlane p x).bcasts = e.bcasts := by
  unfold EngineSt.setPlane
  split <;> exact ⟨rfl, rfl⟩

/-- A void program's deliveries: zeros to its window. -/
def State.deliverZeros (s : State) (v : VectorD) : State :=
  if v.action = 2 then s.contribute v.window 0 0 (zeroRuns 0 v.first v.destStride v.rows v.cols) else s

theorem State.deliverZeros_spec (s : State) (v : VectorD) : UnitWork s (s.deliverZeros v) ∧ (s.deliverZeros v).mem = s.mem := by
  unfold State.deliverZeros
  split
  · exact ⟨s.contribute_unitWork .., s.contribute_mem ..⟩
  · exact ⟨UnitWork.refl s, rfl⟩

theorem exec_programEnd {die : Die} {engine : Engine} {r : RunSt} {s : State} (h : (s.eng (engKey die engine)).run = some r) :
    let k := engKey die engine
    let e := s.eng k
    let v := vectorD r.desc
    let p := padTo 192 (Bank.get e.progs [] v.prog)
    let u := s.quiet.toCycle r.cycle
    let l := (progInstrs p).foldl (runInstr u v p (e.plane v.plane).cells) ⟨e.regs, e.bcasts, []⟩
    let w := ((u.setEng k (e.programDone r l.regs l.bcasts)).storeOut k v).sendSums k l.sums
    exec (.programEnd die engine) s = .next (
      if r.void then ((u.setEng k (e.programDone r (e.setPlane v.plane ((e.plane v.plane).freed v.release)).regs
          (e.setPlane v.plane ((e.plane v.plane).freed v.release)).bcasts)).deliverZeros v).sendSums k (voidSums p)
      else { w with verdicts := w.verdicts ++
        [⟨2, die, engine, w.stepNow, w.step.attempt, w.now, r.desc, v.window, Checks.none⟩] }) := by
  intro k e v p u l w
  have hx : exec (.programEnd die engine) s = execProgramEnd die engine s := rfl
  rw [hx]
  unfold execProgramEnd
  extract_lets s0 e0
  have h3 : e0.run = some r := h
  split
  · next g => exact absurd (h3.symm.trans g) nofun
  · next r' g =>
    obtain rfl : r = r' := Option.some.inj (h3.symm.trans g)
    exact (apply_ite Host.Outcome.next _ _ _).symm

theorem State.sendSums_spec (s : State) (k : Nat) (xs : List (Nat × SumSlot)) :
    (s.sendSums k xs).merges = s.merges ++ xs.map (fun x => ⟨k / 96, (k % 96) / 12, x.1, x.2⟩) ∧
    (s.sendSums k xs).engines = s.engines ∧ (s.sendSums k xs).now = s.now ∧ (s.sendSums k xs).od = s.od ∧
    (s.sendSums k xs).mem = s.mem ∧ (s.sendSums k xs).verdicts = s.verdicts ∧ (s.sendSums k xs).step = s.step :=
  ⟨rfl, rfl, rfl, rfl, rfl, rfl, rfl⟩

/-- PROGRAM_END of a program in progress. -/
theorem programEnd_spec (die : Die) (engine : Engine) (r : RunSt) (s : State) :
    let k := engKey die engine
    let e := s.eng k
    let v := vectorD r.desc
    let p := padTo 192 (Bank.get e.progs [] v.prog)
    let l := (progInstrs p).foldl (runInstr (s.quiet.toCycle r.cycle) v p (e.plane v.plane).cells) ⟨e.regs, e.bcasts, []⟩
    let sums := if r.void then voidSums p else l.sums
    e.run = some r →
    Gives (.programEnd die engine) s (fun t => (t.eng k).run = none ∧ (t.eng k).vecReady = r.cycle ∧
      r.cycle ≤ 2 * t.now ∧
      ((e.plane v.plane).state = 2 ∨ (e.plane v.plane).state = 3 →
        ((t.eng k).plane v.plane).state = (if v.release then 0 else 2)) ∧
      (r.void = false → (t.eng k).regs = l.regs ∧ (t.eng k).bcasts = l.bcasts) ∧
      (r.void = true → (t.eng k).regs = e.regs ∧ (t.eng k).bcasts = e.bcasts ∧ t.mem = s.mem) ∧
      t.merges = s.merges ++ sums.map (fun x => ⟨k / 96, (k % 96) / 12, x.1, x.2⟩) ∧
      (∀ j, j ≠ k → t.eng j = s.eng j) ∧
      t.verdicts = s.verdicts ++ (if r.void then [] else
        [⟨2, die, engine, s.obj oStepNow, s.step.attempt, t.now, r.desc, v.window, Checks.none⟩])) := by
  intro k e v p l sums h
  have hx := exec_programEnd h
  dsimp only at hx
  obtain ⟨c1, -, c3, c4, c5, c6, c7, c8, -⟩ := s.quiet.toCycle_spec r.cycle
  have hrun := e.programDone_spec r
  have hregs := e.setPlane_regs v.plane ((e.plane v.plane).freed v.release)
  have hl : l = (progInstrs p).foldl (runInstr (s.quiet.toCycle r.cycle) v p (e.plane v.plane).cells) ⟨e.regs, e.bcasts, []⟩ := rfl
  change exec (.programEnd die engine) s = .next (
      if r.void then (((s.quiet.toCycle r.cycle).setEng k (e.programDone r
          (e.setPlane v.plane ((e.plane v.plane).freed v.release)).regs
          (e.setPlane v.plane ((e.plane v.plane).freed v.release)).bcasts)).deliverZeros v).sendSums k (voidSums p)
      else { (((s.quiet.toCycle r.cycle).setEng k (e.programDone r l.regs l.bcasts)).storeOut k v).sendSums k l.sums with
        verdicts := ((((s.quiet.toCycle r.cycle).setEng k (e.programDone r l.regs l.bcasts)).storeOut k v).sendSums k
          l.sums).verdicts ++
        [⟨2, die, engine, ((((s.quiet.toCycle r.cycle).setEng k (e.programDone r l.regs l.bcasts)).storeOut k v).sendSums k
          l.sums).stepNow, ((((s.quiet.toCycle r.cycle).setEng k (e.programDone r l.regs l.bcasts)).storeOut k v).sendSums k
          l.sums).step.attempt, ((((s.quiet.toCycle r.cycle).setEng k (e.programDone r l.regs l.bcasts)).storeOut k v).sendSums
          k l.sums).now, r.desc, v.window, Checks.none⟩] }) at hx
  clear_value l p
  generalize s.quiet.toCycle r.cycle = u at *
  cases hv : r.void with
  | true =>
    rw [hv, if_pos rfl, hregs.1, hregs.2] at hx
    have hs : sums = voidSums p := if_pos hv
    obtain ⟨d1, d2, d3, d4, d5⟩ := hrun e.regs e.bcasts
    have hu := u.setEng_engWork k (e.programDone r e.regs e.bcasts)
    have he := u.eng_setEng_self k (e.programDone r e.regs e.bcasts)
    have hm : (u.setEng k (e.programDone r e.regs e.bcasts)).mem = u.mem := rfl
    generalize u.setEng k (e.programDone r e.regs e.bcasts) = a at hx hu he hm
    obtain ⟨z1, z2⟩ := a.deliverZeros_spec v
    generalize a.deliverZeros v = b at hx z1 z2
    obtain ⟨m1, m2, m3, -, m5, m6, -⟩ := b.sendSums_spec k (voidSums p)
    generalize b.sendSums k (voidSums p) = t at hx m1 m2 m3 m5 m6
    have hw := hu.trans (z1.engWork k)
    have hte : t.eng k = e.programDone r e.regs e.bcasts := (State.eng_of_engines m2 k).trans ((z1.eng k).trans he)
    refine ⟨t, hx, by rw [hte, d1], by rw [hte, d2], ?_, fun q => ?_, nofun, fun _ => ?_, ?_, fun j hj => ?_, ?_⟩
    · rw [m3, hw.now]
      exact c1
    · rw [hte, d5, PlaneSt.freed_state _ q]
    · rw [hte, d3, d4, m5, z2, hm, c4]
      exact ⟨rfl, rfl, rfl⟩
    · rw [m1, hw.merges, c7, hs]
      rfl
    · rw [State.eng_of_engines m2 j, hw.eng j hj]
      exact State.eng_of_engines c5 j
    · rw [m6, hw.verdicts, c6, if_pos rfl, List.append_nil]
      rfl
  | false =>
    rw [hv, if_neg Bool.noConfusion] at hx
    have hs : sums = l.sums := if_neg (by rw [hv]; exact Bool.noConfusion)
    obtain ⟨d1, d2, d3, d4, d5⟩ := hrun l.regs l.bcasts
    have hu := u.setEng_engWork k (e.programDone r l.regs l.bcasts)
    have he := u.eng_setEng_self k (e.programDone r l.regs l.bcasts)
    generalize u.setEng k (e.programDone r l.regs l.bcasts) = a at hx hu he
    have z1 := a.storeOut_unitWork k v
    generalize a.storeOut k v = b at hx z1
    obtain ⟨m1, m2, m3, m4, -, m6, m7⟩ := b.sendSums_spec k l.sums
    generalize b.sendSums k l.sums = c at hx m1 m2 m3 m4 m6 m7
    have hw := hu.trans (z1.engWork k)
    have hce : c.eng k = e.programDone r l.regs l.bcasts := (State.eng_of_engines m2 k).trans ((z1.eng k).trans he)
    have hcj : ∀ j, j ≠ k → c.eng j = s.eng j := fun j hj =>
      (State.eng_of_engines m2 j).trans ((hw.eng j hj).trans (State.eng_of_engines c5 j))
    have hstep : c.stepNow = s.obj oStepNow :=
      (State.obj_of_od m4 _).trans ((hw.obj _ (by decide)).trans (State.obj_of_od c3 _))
    have hatt : c.step.attempt = s.step.attempt := by rw [m7, hw.attempt, c8]; rfl
    refine ⟨_, hx, ?_, ?_, ?_, fun q => ?_, fun _ => ?_, nofun, ?_, hcj, ?_⟩
    · exact (congrArg EngineSt.run hce).trans d1
    · exact (congrArg EngineSt.vecReady hce).trans d2
    · show r.cycle ≤ 2 * c.now
      rw [m3, hw.now]
      exact c1
    · show ((c.eng k).plane v.plane).state = _
      rw [hce, d5, PlaneSt.freed_state _ q]
    · show (c.eng k).regs = _ ∧ (c.eng k).bcasts = _
      rw [hce, d3, d4]
      exact ⟨rfl, rfl⟩
    · show c.merges = _
      rw [m1, hw.merges, c7, hs]
      rfl
    · show c.verdicts ++ _ = _
      rw [hstep, hatt, m6, hw.verdicts, c6, if_neg Bool.noConfusion]
      rfl

/-- Settles O31: what a VLOAD puts in its target, and what a program's begin and its end leave of the engine. -/
theorem vloadsAndPrograms : Obligations.VloadsAndPrograms := by
  refine ⟨vload_spec, fun die engine s h => ?_, programStart_spec, fun die engine s h => ?_, programEnd_spec,
    fun die engine s h => ?_⟩
  · show execVload die engine s = _
    unfold execVload
    extract_lets u k e
    split
    · rfl
    · next g => exact absurd (h.symm.trans g) nofun
  · show execProgramStart die engine s = _
    unfold execProgramStart
    extract_lets u k e
    split
    · next g1 g2 =>
      rcases h with h | h
      · exact absurd g1 h
      · exact absurd (h.symm.trans g2) nofun
    · rfl
  · show execProgramEnd die engine s = _
    unfold execProgramEnd
    extract_lets u k e
    split
    · rfl
    · next g => exact absurd (h.symm.trans g) nofun

end Sys2Proof.Machine

namespace Sys2Proof.Machine

/-! ### A record that stays near the front of the ring of events -/

/-- A record of code `c` is among the first `n + 1` of the ring. -/
def Recent (c n : Nat) (s : State) : Prop := ∃ i ≤ n, ∃ r, s.events[i]? = some (RingRec.event r) ∧ r.code = c

theorem Recent.pushed {c m n : Nat} {s t : State} (h : Recent c n s) (k : Pushed m s t) (hn : n + m < 256) :
    Recent c (n + m) t := by
  obtain ⟨i, hi, r, h1, h2⟩ := h
  obtain ⟨l, hl, e⟩ := k
  refine ⟨l.length + i, by omega, r, ?_, h2⟩
  rw [e, List.getElem?_take, if_pos (by omega), List.getElem?_append_right (by omega), Nat.add_sub_cancel_left]
  exact h1

theorem Recent.mem {c n : Nat} {s : State} (h : Recent c n s) : ∃ r, RingRec.event r ∈ s.events ∧ r.code = c := by
  obtain ⟨i, -, r, h1, h2⟩ := h
  exact ⟨r, List.mem_of_getElem? h1, h2⟩

theorem Recent.congr {c n : Nat} {s t : State} (h : Recent c n s) (e : t.events = s.events) : Recent c n t := by
  rwa [Recent, e]

theorem State.logEvent_recent (s : State) (e : Ev) (cls : Nat) (dk : Option Nat) (detail : Nat) (keeper : Bool) :
    Recent e.code 0 (s.logEvent e cls dk detail keeper).1 := by
  obtain ⟨r, h, hc⟩ : ∃ r, (s.logEvent e cls dk detail keeper).1.events = (RingRec.event r :: s.events).take 256 ∧
      r.code = e.code := by
    unfold State.logEvent
    extract_lets s1 r wantsFlash fits toFlash entry src led s2 s3
    have h3 : s3.events = (RingRec.event r :: s.events).take 256 := by
      show (if toFlash = true then _ else s2).events = _
      split <;> rfl
    refine ⟨r, ?_, rfl⟩
    dsimp only
    split
    · exact h3
    · exact h3
  exact ⟨0, Nat.le_refl _, r, by rw [h]; rfl, hc⟩

theorem State.postRecord_events (s : State) (q : QueueEntry) (kind : Nat) (body : Bytes) :
    (s.postRecord q kind body).1.events = s.events := by
  obtain ⟨⟨_, _, _, _, _, e⟩, -⟩ := s.postRecord_shape q kind body
  rw [e]
  rfl

theorem State.raiseOnce_recent (s : State) (e : Ev) (cls : Nat) (dk : Option Nat) (detail : Nat) :
    Recent e.code 0 (s.raiseOnce e cls dk detail).1 := by
  unfold State.raiseOnce
  extract_lets r
  split
  · exact (s.logEvent_recent ..).congr (State.postRecord_events ..)
  · exact s.logEvent_recent ..

theorem State.raiseWith_recent (s : State) (e : Ev) (cls : Nat) (dk : Option Nat) (detail : Nat) :
    Recent e.code 2 (s.raiseWith e cls dk detail) := by
  unfold State.raiseWith
  extract_lets before r t
  have ht : Recent e.code 1 t := (s.raiseOnce_recent ..).pushed (State.noteSuppressed_pushed _ _ (s.raiseOnce_pushed ..).le)
    (by decide)
  split
  · exact ht.pushed (State.raiseOnce_pushed ..) (by decide)
  · obtain ⟨i, hi, r, h⟩ := ht
    exact ⟨i, by omega, r, h⟩

theorem State.raiseAt_recent (s : State) (e : Ev) (n cls : Nat) : Recent e.code 2 (s.raiseAt e n cls) := by
  unfold State.raiseAt
  split
  · exact State.raiseWith_recent ..
  · exact State.raiseWith_recent ..

/-! ### What a strike leaves -/

/-- The objects that a fence writes. -/
def fenceKeys : List Nat :=
  [oFenceCount, oLastFence, oDegraded, oSpareSLeftD0, oSpareNLeftD0, oSpareSLeftD1, oSpareNLeftD1, oFencedUnits,
    oLastUnitFence] ++ eventKeys ++ ((upto 128).map oPhysStateD0 ++ (upto 128).map oPhysStateD1)

theorem oPhysState_mem_fenceKeys (d : Nat) {i : Nat} (h : i < 128) : oPhysState d i ∈ fenceKeys := by
  unfold oPhysState
  split
  · exact List.mem_append_right _ (List.mem_append_left _ (List.mem_map_of_mem (List.mem_range.mpr h)))
  · exact List.mem_append_right _ (List.mem_append_right _ (List.mem_map_of_mem (List.mem_range.mpr h)))

theorem eventKeys_sub_fenceKeys : ∀ k ∈ eventKeys, k ∈ fenceKeys :=
  fun _ h => List.mem_append_left _ (List.mem_append_right _ h)

/-- `t` is `s` after fences: the verdicts due stand, at most six records are new, a POISONED step stays so. -/
structure FenceWork (n : Nat) (s t : State) : Prop where
  verdicts : t.verdicts = s.verdicts
  events : Pushed n s t
  obj : SameObj s t fenceKeys
  fault : s.step.fault = true → t.step.fault = true

theorem FenceWork.trans {m n : Nat} {s t u : State} (h : FenceWork m s t) (k : FenceWork n t u) : FenceWork (n + m) s u :=
  ⟨k.verdicts.trans h.verdicts, h.events.trans k.events, h.obj.trans k.obj, fun q => k.fault (h.fault q)⟩

/-- A step that changes neither the ring of events nor the verdicts. -/
theorem FenceWork.then {n : Nat} {s t u : State} (h : FenceWork n s t) (hv : u.verdicts = t.verdicts)
    (he : u.events = t.events) (ho : SameObj t u fenceKeys) (hf : t.step.fault = true → u.step.fault = true) :
    FenceWork n s u := by
  refine ⟨hv.trans h.verdicts, ?_, h.obj.trans ho, fun q => hf (h.fault q)⟩
  obtain ⟨l, hl, e⟩ := h.events
  exact ⟨l, hl, he.trans e⟩

theorem FenceWork.setObj {n : Nat} {s t : State} (h : FenceWork n s t) {k : Nat} (v : Nat) (hk : k ∈ fenceKeys) :
    FenceWork n s (t.setObj k v) :=
  h.then (State.setObj_verdicts ..) (State.setObj_events ..) ((SameObj.refl t _).setObj v hk)
    (fun q => by rw [State.setObj_step]; exact q)

theorem FenceWork.poison {n : Nat} {s t : State} (h : FenceWork n s t) (hold : Bool) : FenceWork n s (t.poison hold) := by
  have hm := t.poison_memWork hold
  obtain ⟨x, e⟩ := t.poison_shape hold
  exact h.then hm.verdicts (by rw [e]) (fun k _ => t.poison_obj hold k) hm.fault

theorem State.raise_fenceWork (s : State) (e : Ev) : FenceWork 3 s (s.raise e) := by
  have hl := s.raise_logs e
  exact ⟨hl.verdicts, s.raiseAt_pushed .., hl.sameObj.mono eventKeys_sub_fenceKeys, fun q => by rw [hl.step]; exact q⟩

theorem FenceWork.raise {n : Nat} {s t : State} (h : FenceWork n s t) (e : Ev) : FenceWork (3 + n) s (t.raise e) :=
  h.trans (t.raise_fenceWork e)

theorem FenceWork.countSpares {n : Nat} {s t : State} (h : FenceWork n s t) (die : Nat) : FenceWork n s (t.countSpares die) := by
  unfold State.countSpares
  extract_lets free
  split
  · exact (h.setObj _ (by decide +kernel)).setObj _ (by decide +kernel)
  · exact (h.setObj _ (by decide +kernel)).setObj _ (by decide +kernel)

theorem State.pickSpare_lt {s : State} {die engine i : Nat} (h : s.pickSpare die engine = some i) : i < 128 := by
  have hm := List.mem_of_find?_eq_some h
  unfold spareClass at hm
  split at hm <;> simp only [List.mem_cons, List.not_mem_nil, or_false] at hm <;> omega

/-- The start of a strike's work: records no longer than the ring. -/
theorem FenceWork.start {s : State} (h : s.events.length ≤ 256) : FenceWork 0 s s :=
  ⟨rfl, Pushed.of_eq 0 (List.take_of_length_le h).symm, SameObj.refl s _, id⟩

theorem State.fenceEngine_fenceWork {s : State} (h : s.events.length ≤ 256) (die engine : Nat) :
    FenceWork 6 s (s.fenceEngine die engine) := by
  unfold State.fenceEngine
  extract_lets phys spare s1 s2 s3 pw
  have h2 : FenceWork 0 s s2 := ((FenceWork.start h).setObj _ (by decide +kernel)).setObj _ (by decide +kernel)
  have h3 : FenceWork 0 s s3 := by
    show FenceWork 0 s (if 100 ≤ phys then s2 else s2.setObj (oPhysState die phys) 3)
    split
    · exact h2
    · exact h2.setObj _ (oPhysState_mem_fenceKeys die (by omega))
  have hs : ∀ i, spare = some i → i < 128 := fun i hi => State.pickSpare_lt hi
  clear_value s3 s2 s1 spare
  cases spare with
  | some i =>
    have h4 := h3.then (u := { s3 with power := { s3.power with
      spareSlots := Bank.set s3.power.spareSlots 0 (128 * die + i) (engine + 1) } }) rfl rfl (SameObj.refl s3 _) id
    have h5 := (((h4.setObj 2 (oPhysState_mem_fenceKeys die (hs i rfl))).countSpares die).poison false).raise .engineFenced
    obtain ⟨l, hl, e⟩ := h5.events
    exact ⟨h5.verdicts, ⟨l, by omega, e⟩, h5.obj, h5.fault⟩
  | none => exact (((h3.setObj 1 (by decide +kernel)).poison true).raise .engineFenced).raise .degraded

/-- A strike against an engine. -/
theorem State.strikeEngine_spec {s : State} (h : s.events.length ≤ 256) (die engine : Nat) :
    (s.strikeEngine die engine).verdicts = s.verdicts ∧ Pushed 6 s (s.strikeEngine die engine) ∧
    (∀ k, k ∉ fenceKeys → k ≠ oStrikes die engine → (s.strikeEngine die engine).obj k = s.obj k) ∧
    (oStrikes die engine ∉ fenceKeys → (s.strikeEngine die engine).obj (oStrikes die engine) =
      min (s.obj (oStrikes die engine) + 1) 255) ∧
    (oPlanState ≠ oStrikes die engine → s.admitted = true → (s.strikeEngine die engine).step.fault = true) := by
  obtain ⟨t, ht, t1, t2, t3, t4, t5⟩ : ∃ t, t = (s.setObj (oStrikes die engine)
        (min (s.obj (oStrikes die engine) + 1) 255)).poison false ∧ t.verdicts = s.verdicts ∧ t.events = s.events ∧
      (∀ k, k ≠ oStrikes die engine → t.obj k = s.obj k) ∧
      t.obj (oStrikes die engine) = min (s.obj (oStrikes die engine) + 1) 255 ∧
      (oPlanState ≠ oStrikes die engine → s.admitted = true → t.step.fault = true) := by
    refine ⟨_, rfl, ?_, ?_, fun k hk => ?_, ?_, fun hk ha => ?_⟩
    · rw [(State.poison_memWork _ false).verdicts, State.setObj_verdicts]
    · obtain ⟨x, e⟩ := (s.setObj (oStrikes die engine) (min (s.obj (oStrikes die engine) + 1) 255)).poison_shape false
      rw [e]
      exact s.setObj_events (oStrikes die engine) (min (s.obj (oStrikes die engine) + 1) 255)
    · rw [State.poison_obj, State.obj_setObj_ne _ _ hk]
    · rw [State.poison_obj, State.obj_setObj_self]
    · exact State.poison_fault false ((State.admitted_congr (State.obj_setObj_ne _ _ hk)).trans ha)
  have hx : s.strikeEngine die engine =
      if s.obj (oStrikes die engine) + 1 = 2 then t.fenceEngine die engine else t := by rw [ht]; rfl
  rw [hx]
  split
  · have hf := State.fenceEngine_fenceWork (t2 ▸ h) die engine
    refine ⟨hf.verdicts.trans t1, hf.events.congr t2, fun k h1 h2 => (hf.obj k h1).trans (t3 k h2),
      fun h1 => (hf.obj _ h1).trans t4, fun h1 ha => hf.fault (t5 h1 ha)⟩
  · refine ⟨t1, ⟨[], Nat.zero_le _, ?_⟩, fun k _ h2 => t3 k h2, fun _ => t4, t5⟩
    rw [List.nil_append, t2, List.take_of_length_le h]

/-- A strike against a granary unit or an update engine. -/
theorem State.strikeUnit_spec {s : State} (h : s.events.length ≤ 256) (update : Bool) (die unit : Nat) :
    (s.strikeUnit update die unit).verdicts = s.verdicts ∧ Pushed 6 s (s.strikeUnit update die unit) ∧
    SameObj s (s.strikeUnit update die unit) fenceKeys ∧
    (s.admitted = true → (s.strikeUnit update die unit).step.fault = true) := by
  unfold State.strikeUnit
  extract_lets b n t u v
  have ht : FenceWork 0 s t := by
    refine FenceWork.poison ?_ false
    exact (FenceWork.start h).then rfl rfl (SameObj.refl s _) id
  have hf : s.admitted = true → t.step.fault = true := fun ha => State.poison_fault false ha
  split
  · have hv : FenceWork 0 s v := (ht.setObj _ (by decide +kernel)).setObj _ (by decide +kernel)
    have hw := ((hv.poison true).raise .unitFenced).raise .degraded
    refine ⟨hw.verdicts, hw.events, hw.obj, fun ha => ?_⟩
    have hvf : v.step.fault = true := by
      rw [show v.step = t.step from (State.setObj_step ..).trans (State.setObj_step ..)]
      exact hf ha
    exact (State.raise_fenceWork _ _).fault ((State.raise_fenceWork _ _).fault ((v.poison_memWork true).fault hvf))
  · obtain ⟨l, hl, e⟩ := ht.events
    exact ⟨ht.verdicts, ⟨l, by omega, e⟩, ht.obj, hf⟩

end Sys2Proof.Machine

namespace Sys2Proof.Machine

/-! ### VERDICT_ARRIVAL -/

theorem exec_verdictArrival {v : Verdict} {s : State} (h : v.gen = none) :
    exec (.verdictArrival v) s = .next (s.quiet.takeVerdict v) := by
  show execVerdictArrival v s = _
  unfold execVerdictArrival
  rw [h]

/-- A verdict due taken, with the latency it had. -/
def State.verdictTaken (s : State) (d : VerdictDue) : State :=
  ({ s with verdicts := s.verdicts.erase d } : State).setObj oVerdictLatencyMaxNs
    (max (s.obj oVerdictLatencyMaxNs) (satNat 32 (s.now - d.madeAt)))

theorem State.takeVerdict_some {s : State} {v : Verdict} {d : VerdictDue} (h : s.verdicts.find? (dueMatches v) = some d) :
    s.takeVerdict v = if verdictFails v d then (s.verdictTaken d).failVerdict v d else s.verdictTaken d := by
  obtain ⟨i, h1, h2, h3⟩ := List.find?_findIdx? h
  unfold State.takeVerdict
  rw [h1]
  dsimp only
  rw [h2]
  dsimp only
  rw [h3]
  rfl

theorem State.takeVerdict_none {s : State} {v : Verdict} (h : s.verdicts.find? (dueMatches v) = none) : s.takeVerdict v = s := by
  have : s.verdicts.findIdx? (dueMatches v) = none := by
    rw [List.findIdx?_eq_none_iff]
    exact fun x hx => Bool.not_eq_true _ ▸ List.find?_eq_none.mp h x hx
  unfold State.takeVerdict
  rw [this]

theorem State.verdictTaken_spec (s : State) (d : VerdictDue) :
    (s.verdictTaken d).verdicts = s.verdicts.erase d ∧ SameObj s (s.verdictTaken d) [oVerdictLatencyMaxNs] ∧
    (s.verdictTaken d).obj oVerdictLatencyMaxNs = max (s.obj oVerdictLatencyMaxNs) (satNat 32 (s.now - d.madeAt)) ∧
    (s.verdictTaken d).step = s.step ∧ (s.verdictTaken d).mem = s.mem := by
  have h0 : SameObj s { s with verdicts := s.verdicts.erase d } [oVerdictLatencyMaxNs] := SameObj.of_od rfl
  unfold State.verdictTaken
  exact ⟨State.setObj_verdicts .., h0.setObj _ (List.mem_singleton.mpr rfl), State.obj_setObj_self .., State.setObj_step ..,
    State.setObj_mem ..⟩

/-- The objects that a failing verdict writes beside a strike's. -/
def failKeys : List Nat :=
  [oCheckFailCount, oLastCheckFail, oCheckerMismatchCount, oLastCheckerMismatch, oResidueFailCount, oLastResidueFail,
    oUpdateCheckFailCount]

/-- A state that differs in objects alone. -/
theorem State.countFailing_spec (s : State) (v : Verdict) (d : VerdictDue) :
    OnlyObj s (s.countFailing v d) ∧ SameObj s (s.countFailing v d) [oCheckerMismatchCount, oLastCheckerMismatch,
      oResidueFailCount, oLastResidueFail, oUpdateCheckFailCount] := by
  unfold State.countFailing
  split
  · exact ⟨((OnlyObj.refl s).setObj _ _).setObj _ _, ((SameObj.refl s _).bump (by decide)).setObj _ (by decide)⟩
  · split
    · exact ⟨((OnlyObj.refl s).setObj _ _).setObj _ _, ((SameObj.refl s _).bump (by decide)).setObj _ (by decide)⟩
    · split
      · exact ⟨(OnlyObj.refl s).setObj _ _, (SameObj.refl s _).bump (by decide)⟩
      · exact ⟨OnlyObj.refl s, SameObj.refl s _⟩

theorem State.beginCapture_spec (s : State) (v : Verdict) (d : VerdictDue) :
    (s.beginCapture v d).verdicts = s.verdicts ∧ (s.beginCapture v d).od = s.od := by
  unfold State.beginCapture
  split
  · exact ⟨rfl, rfl⟩
  · exact ⟨rfl, rfl⟩

theorem oStrikes_bounds (d e : Nat) : 0x300500 < oStrikes d e ∧ (e < 256 → oStrikes d e < 0x300800) := by
  unfold oStrikes
  split
  · unfold oStrikesD0 objKey
    omega
  · unfold oStrikesD1 objKey
    omega

theorem oStrikes_not_mem_fenceKeys {d e : Nat} (h : e < 96) : oStrikes d e ∉ fenceKeys := by
  have h0 : ∀ e < 96, oStrikesD0 e ∉ fenceKeys := by decide +kernel
  have h1 : ∀ e < 96, oStrikesD1 e ∉ fenceKeys := by decide +kernel
  unfold oStrikes
  split
  · exact h0 e h
  · exact h1 e h

/-- The verdict counted and recorded, its capture begun and CHECK_FAILED raised. -/
def State.failRecorded (s : State) (v : Verdict) (d : VerdictDue) : State :=
  ((((s.bump oCheckFailCount).setObj oLastCheckFail (checkFailWord v d)).countFailing v d).beginCapture v d).raise .checkFailed

theorem State.failRecorded_spec (s : State) (v : Verdict) (d : VerdictDue) :
    (s.failRecorded v d).verdicts = s.verdicts ∧ Recent Ev.checkFailed.code 2 (s.failRecorded v d) ∧
    SameObj s (s.failRecorded v d) (failKeys ++ eventKeys) ∧
    (s.failRecorded v d).obj oCheckFailCount = (s.obj oCheckFailCount + 1) % 2 ^ objBits oCheckFailCount ∧
    (s.failRecorded v d).obj oLastCheckFail = checkFailWord v d ∧ (s.failRecorded v d).events.length ≤ 256 := by
  obtain ⟨a, ha, a1, a2, a3, a4⟩ : ∃ a, a = (s.bump oCheckFailCount).setObj oLastCheckFail (checkFailWord v d) ∧
      a.verdicts = s.verdicts ∧ SameObj s a [oCheckFailCount, oLastCheckFail] ∧
      a.obj oCheckFailCount = (s.obj oCheckFailCount + 1) % 2 ^ objBits oCheckFailCount ∧
      a.obj oLastCheckFail = checkFailWord v d := by
    refine ⟨_, rfl, ?_, ((SameObj.refl s _).bump (by decide)).setObj _ (by decide), ?_, State.obj_setObj_self ..⟩
    · rw [State.setObj_verdicts]
      exact State.setObj_verdicts ..
    · exact (State.obj_setObj_ne _ _ (by decide)).trans (s.bump_obj_self _)
  unfold State.failRecorded
  rw [← ha]
  clear ha
  obtain ⟨b1, b2⟩ := a.countFailing_spec v d
  have bv : (a.countFailing v d).verdicts = a.verdicts := by
    obtain ⟨_, e⟩ := b1
    rw [e]
  generalize a.countFailing v d = b at b1 b2 bv
  obtain ⟨c1, c2⟩ := b.beginCapture_spec v d
  generalize b.beginCapture v d = c at c1 c2
  have hl := c.raise_logs .checkFailed
  have hc : ∀ k, c.obj k = b.obj k := fun k => State.obj_congr k c2
  have hr := c.raiseAt_recent .checkFailed 0 Ev.checkFailed.cls
  have hp := (c.raiseAt_pushed .checkFailed 0 Ev.checkFailed.cls).le
  refine ⟨hl.verdicts.trans (c1.trans (bv.trans a1)), hr, ?_, ?_, ?_, hp⟩
  · exact (a2.mono (by decide)).trans ((b2.mono (by decide)).trans ((SameObj.of_od c2).trans (hl.sameObj.mono (by decide))))
  · rw [hl.obj _ (by decide), hc, b2 _ (by decide), a3]
  · rw [hl.obj _ (by decide), hc, b2 _ (by decide), a4]

/-- A failing verdict. -/
theorem State.failVerdict_spec (s : State) (v : Verdict) (d : VerdictDue) :
    let t := s.failVerdict v d
    t.verdicts = s.verdicts ∧ (s.admitted = true → t.step.fault = true) ∧
    t.obj oCheckFailCount = (s.obj oCheckFailCount + 1) % 2 ^ objBits oCheckFailCount ∧
    t.obj oLastCheckFail = checkFailWord v d ∧ (∃ r, RingRec.event r ∈ t.events ∧ r.code = Ev.checkFailed.code) ∧
    (v.kind.val ≤ 2 → v.unit.toNat < 96 →
      t.obj (oStrikes v.die v.unit.toNat) = min (s.obj (oStrikes v.die v.unit.toNat) + 1) 255) := by
  intro t
  obtain ⟨r1, r2, r3, r4, r5, r6⟩ := s.failRecorded_spec v d
  have ht : t = if v.kind.val ≤ 2 then (s.failRecorded v d).strikeEngine v.die.val v.unit.toNat
    else (s.failRecorded v d).strikeUnit (v.kind.val == 4) v.die.val (v.unit.toNat % 16) := rfl
  clear_value t
  subst ht
  have hadm : (s.failRecorded v d).admitted = s.admitted := State.admitted_congr (r3 _ (by decide))
  generalize s.failRecorded v d = u at r1 r2 r3 r4 r5 r6 hadm ⊢
  obtain ⟨b1, b2⟩ := oStrikes_bounds v.die v.unit.toNat
  have hlt := b2 v.unit.isLt
  by_cases hk : v.kind.val ≤ 2
  · rw [if_pos hk]
    obtain ⟨e1, e2, e3, e4, e5⟩ := State.strikeEngine_spec r6 v.die.val v.unit.toNat
    refine ⟨e1.trans r1, fun ha => e5 ?_ (hadm.trans ha), ?_, ?_, (r2.pushed e2 (by decide)).mem, fun _ hu => ?_⟩
    · unfold oPlanState; omega
    · rw [e3 _ (by decide +kernel) (by unfold oCheckFailCount; omega), r4]
    · rw [e3 _ (by decide +kernel) (by unfold oLastCheckFail; omega), r5]
    · rw [e4 (oStrikes_not_mem_fenceKeys hu), r3]
      simp only [failKeys, eventKeys, List.cons_append, List.nil_append, List.mem_cons, List.not_mem_nil, or_false, not_or,
        oCheckFailCount, oLastCheckFail, oCheckerMismatchCount, oLastCheckerMismatch, oResidueFailCount, oLastResidueFail,
        oUpdateCheckFailCount, oEventSeq, oLedgerFill, oLedgerSuppressed, oRecordsLostCount]
      omega
  · rw [if_neg hk]
    obtain ⟨e1, e2, e3, e4⟩ := State.strikeUnit_spec r6 (v.kind.val == 4) v.die.val (v.unit.toNat % 16)
    refine ⟨e1.trans r1, fun ha => e4 (hadm.trans ha), ?_, ?_, (r2.pushed e2 (by decide)).mem, fun q => absurd q hk⟩
    · rw [e3 _ (by decide +kernel), r4]
    · rw [e3 _ (by decide +kernel), r5]

/-- A generator that fails its check. -/
theorem State.generatorFails_spec (s : State) (g : GenFailure) :
    (s.generatorFails g).verdicts = s.verdicts ∧ (s.admitted = true → (s.generatorFails g).step.fault = true) ∧
    (s.generatorFails g).obj oGenFaultCount = (s.obj oGenFaultCount + 1) % 2 ^ objBits oGenFaultCount := by
  obtain ⟨w, a, ha, a1, a2, a3, a4⟩ : ∃ w a, a = (((s.bump oGenFaultCount).setObj oLastGenFault w).poison false).raise .generatorFault ∧
      a.verdicts = s.verdicts ∧ a.admitted = s.admitted ∧
      a.obj oGenFaultCount = (s.obj oGenFaultCount + 1) % 2 ^ objBits oGenFaultCount ∧
      s.generatorFails g = (if g.kind.val = 0 then a.strikeEngine g.die.val g.unit.toNat
        else a.strikeUnit (g.kind.val == 2) g.die.val (g.unit.toNat % 16)) := by
    refine ⟨_, _, rfl, ?_, ?_, ?_, rfl⟩
    · rw [(State.raise_logs ..).verdicts, (State.poison_memWork _ false).verdicts, State.setObj_verdicts]
      rfl
    · refine State.admitted_congr ?_
      rw [(State.raise_logs ..).obj _ (by decide), State.poison_obj, State.obj_setObj_ne _ _ (by decide),
        State.bump_obj_ne _ (by decide)]
    · rw [(State.raise_logs ..).obj _ (by decide), State.poison_obj, State.obj_setObj_ne _ _ (by decide), State.bump_obj_self]
  have hlen : a.events.length ≤ 256 := by rw [ha]; exact (State.raiseAt_pushed ..).le
  obtain ⟨b1, b2⟩ := oStrikes_bounds g.die.val g.unit.toNat
  rw [a4]
  clear ha a4
  split
  · obtain ⟨e1, -, e3, -, e5⟩ := State.strikeEngine_spec hlen g.die.val g.unit.toNat
    refine ⟨e1.trans a1, fun q => e5 ?_ (a2.trans q), ?_⟩
    · unfold oPlanState; omega
    · rw [e3 _ (by decide +kernel) ?_, a3]
      have := b2 g.unit.isLt
      unfold oGenFaultCount
      omega
  · obtain ⟨e1, -, e3, e4⟩ := State.strikeUnit_spec hlen (g.kind.val == 2) g.die.val (g.unit.toNat % 16)
    exact ⟨e1.trans a1, fun q => e4 (a2.trans q), by rw [e3 _ (by decide +kernel), a3]⟩

end Sys2Proof.Machine

namespace Sys2Proof.Machine

/-! ### EVIDENCE_CAPTURED -/

/-- Evidence in its slot of DRAM, or dropped: the captures, the count and the byte objects stand. -/
theorem State.slotCapture_spec (s : State) (bs : Bytes) :
    (s.slotCapture bs).captures = s.captures ∧ (s.slotCapture bs).blobs = s.blobs ∧
    (s.slotCapture bs).obj oEvidenceCount = s.obj oEvidenceCount := by
  unfold State.slotCapture
  split
  · exact ⟨rfl, rfl, rfl⟩
  · next r _ =>
    extract_lets n
    split
    · have h := s.storeBy_memWork .integrity (r.base + n * evidenceSlot) bs
      obtain ⟨_, _, _, _, _, _, _, _, _, e⟩ := h.shape
      refine ⟨?_, ?_, ?_⟩
      · rw [State.setObj_captures, e]
        rfl
      · rw [State.setObj_blobs, h.blobs]
      · rw [State.obj_setObj_ne _ _ (by decide), h.obj _ (by decide)]
    · exact ⟨rfl, rfl, State.bump_obj_ne _ (by decide)⟩

theorem exec_evidenceCaptured_none {e : EvidenceData} {s : State} (h : s.captures.find? (fun c => c.die == e.die.val) = none) :
    exec (.evidenceCaptured e) s = .next s.quiet := by
  show execEvidenceCaptured e s = _
  unfold execEvidenceCaptured
  extract_lets q
  rw [show q.captures = s.captures from rfl, h]

/-- The evidence of a die staged and counted, its capture taken. -/
def State.evidenceStaged (s : State) (e : EvidenceData) (bs : Bytes) : State :=
  (({ s with captures := s.captures.filter (fun x => x.die != e.die.val) } : State).setBlob
    (if e.die.val = 0 then oEvidenceStagedD0 else oEvidenceStagedD1) bs).bump oEvidenceCount

theorem exec_evidenceCaptured_some {e : EvidenceData} {s : State} {c : Capture}
    (h : s.captures.find? (fun c => c.die == e.die.val) = some c) :
    exec (.evidenceCaptured e) s = .next (((s.quiet.evidenceStaged e (s.evidenceHeader c e ++ e.payload.take 262144)).slotCapture
      (s.evidenceHeader c e ++ e.payload.take 262144)).raise .evidenceCaptured) := by
  show execEvidenceCaptured e s = _
  unfold execEvidenceCaptured
  extract_lets q
  rw [show q.captures = s.captures from rfl, h]
  rfl

theorem State.evidenceStaged_spec (s : State) (e : EvidenceData) (bs : Bytes) :
    (s.evidenceStaged e bs).captures = s.captures.filter (fun x => x.die != e.die.val) ∧
    (s.evidenceStaged e bs).blob (if e.die.val = 0 then oEvidenceStagedD0 else oEvidenceStagedD1) = bs ∧
    (s.evidenceStaged e bs).obj oEvidenceCount = (s.obj oEvidenceCount + 1) % 2 ^ objBits oEvidenceCount := by
  unfold State.evidenceStaged
  refine ⟨?_, ?_, State.bump_obj_self ..⟩
  · exact State.setObj_captures ..
  · exact (State.blob_congr _ (State.setObj_blobs ..)).trans ((State.blob_setBlob ..).trans (if_pos rfl))

/-- A completed capture is staged and counted. -/
theorem evidenceCaptured_gives {e : EvidenceData} {s : State} {c : Capture}
    (h : s.captures.find? (fun c => c.die == e.die.val) = some c) :
    Gives (.evidenceCaptured e) s (fun t =>
      t.obj oEvidenceCount = (s.obj oEvidenceCount + 1) % 2 ^ objBits oEvidenceCount ∧
      t.blob (if e.die.val = 0 then oEvidenceStagedD0 else oEvidenceStagedD1) =
        s.evidenceHeader c e ++ e.payload.take 262144 ∧
      t.captures.all (fun x => x.die != e.die.val) = true) := by
  refine ⟨_, exec_evidenceCaptured_some h, ?_⟩
  generalize s.evidenceHeader c e ++ e.payload.take 262144 = bs
  obtain ⟨a1, a2, a3⟩ := s.quiet.evidenceStaged_spec e bs
  generalize s.quiet.evidenceStaged e bs = u at a1 a2 a3
  obtain ⟨b1, b2, b3⟩ := u.slotCapture_spec bs
  have hl := (u.slotCapture bs).raise_logs .evidenceCaptured
  refine ⟨?_, ?_, ?_⟩
  · rw [hl.obj _ (by decide), b3, a3]
    rfl
  · rw [State.blob_congr _ (hl.blobs.trans b2), a2]
  · rw [hl.captures, b1, a1]
    exact List.all_eq_true.mpr fun x hx => (List.mem_filter.mp hx).2

/-! ### PATTERN_CASE_DONE -/

/-- A pattern case that may run at this moment. -/
def State.caseMay (s : State) (c : CaseDone) (p : Pack) (g : Program) : Bool :=
  s.idleCases && decide (c.index.toNat < p.cases) && caseUnitFree p g c.die.val c.unit.toNat &&
    s.caseMayRun p c.die.val c.unit.toNat

theorem exec_patternCaseDone_refused {c : CaseDone} {s : State}
    (h : ∀ p g, s.packs.find? (fun x => x.id == c.pack.toNat) = some p → s.program? = some g → s.caseMay c p g = false) :
    exec (.patternCaseDone c) s = .next s.quiet := by
  show execPatternCaseDone c s = _
  unfold execPatternCaseDone
  extract_lets q
  split
  · next p g hp hg => exact if_neg (Bool.not_eq_true _ ▸ h p g hp hg)
  · rfl

theorem exec_patternCaseDone_runs {c : CaseDone} {s : State} {p : Pack} {g : Program}
    (hp : s.packs.find? (fun x => x.id == c.pack.toNat) = some p) (hg : s.program? = some g) (h : s.caseMay c p g = true) :
    exec (.patternCaseDone c) s = if c.passed then .next ((s.quiet.bump oIdleCasesRun).noteCase p c.die.val c.unit.toNat)
      else .next (((s.quiet.bump oIdleCasesRun).noteCase p c.die.val c.unit.toNat).failCase p c) := by
  show execPatternCaseDone c s = _
  unfold execPatternCaseDone
  extract_lets q
  rw [show q.packs = s.packs from rfl, show q.program? = s.program? from rfl, hp, hg]
  exact if_pos h

/-- A unit whose case of this idle beat is noted runs no other in it. -/
theorem State.caseMayRun_noteCase (s : State) (p : Pack) (die unit : Nat) :
    (s.noteCase p die unit).caseMayRun p die unit = false := by
  unfold State.caseMayRun State.noteCase
  simp

/-- A pattern case that fails. -/
theorem State.failCase_spec (s : State) (p : Pack) (c : CaseDone) :
    (s.admitted = true → (s.failCase p c).step.fault = true) ∧
    (s.failCase p c).obj oPackCaseFailCount = (s.obj oPackCaseFailCount + 1) % 2 ^ objBits oPackCaseFailCount := by
  obtain ⟨w, a, ha, a2, a3, a4⟩ : ∃ w a, a = (((s.bump oPackCaseFailCount).setObj oLastPackCaseFail w).poison false).raise
        .packCaseFailed ∧ a.admitted = s.admitted ∧
      a.obj oPackCaseFailCount = (s.obj oPackCaseFailCount + 1) % 2 ^ objBits oPackCaseFailCount ∧
      s.failCase p c = (if p.target ≤ 3 then a.strikeEngine c.die.val c.unit.toNat
        else a.strikeUnit (p.target == 5) c.die.val c.unit.toNat) := by
    refine ⟨_, _, rfl, ?_, ?_, rfl⟩
    · refine State.admitted_congr ?_
      rw [(State.raise_logs ..).obj _ (by decide), State.poison_obj, State.obj_setObj_ne _ _ (by decide),
        State.bump_obj_ne _ (by decide)]
    · rw [(State.raise_logs ..).obj _ (by decide), State.poison_obj, State.obj_setObj_ne _ _ (by decide), State.bump_obj_self]
  have hlen : a.events.length ≤ 256 := by rw [ha]; exact (State.raiseAt_pushed ..).le
  obtain ⟨b1, b2⟩ := oStrikes_bounds c.die.val c.unit.toNat
  rw [a4]
  clear ha a4
  split
  · obtain ⟨-, -, e3, -, e5⟩ := State.strikeEngine_spec hlen c.die.val c.unit.toNat
    refine ⟨fun q => e5 ?_ (a2.trans q), ?_⟩
    · unfold oPlanState; omega
    · rw [e3 _ (by decide +kernel) ?_, a3]
      have := b2 c.unit.isLt
      unfold oPackCaseFailCount
      omega
  · obtain ⟨-, -, e3, e4⟩ := State.strikeUnit_spec hlen (p.target == 5) c.die.val c.unit.toNat
    exact ⟨fun q => e4 (a2.trans q), by rw [e3 _ (by decide +kernel), a3]⟩

/-! ### The generator's verdicts -/

theorem exec_verdictArrival_gen {v : Verdict} {g : GenFailure} {s : State} (h : v.gen = some g) :
    exec (.verdictArrival v) s = .next (if s.step.running then s.quiet.generatorFails g else s.quiet) := by
  show execVerdictArrival v s = _
  unfold execVerdictArrival
  rw [h]
  rfl

/-- Settles O32: what a verdict taken, a strike and a failing case leave, command by command. -/
theorem verdictsAndEvidence : Obligations.VerdictsAndEvidence := by
  unfold Obligations.VerdictsAndEvidence
  refine ⟨fun v s hg h => ?_, fun v d s hg h hf => ?_, fun v d s hg h hf => ?_, fun v g s hg => ⟨fun hr => ?_, fun hr => ?_⟩,
    fun e c s h => evidenceCaptured_gives h, fun e s h => exec_evidenceCaptured_none h, fun c s => ?_⟩
  · rw [exec_verdictArrival hg, State.takeVerdict_none (s := s.quiet) h]
  · have hx := exec_verdictArrival (s := s) hg
    rw [State.takeVerdict_some (s := s.quiet) h, hf, if_neg Bool.noConfusion] at hx
    exact ⟨_, hx, s.quiet.verdictTaken_spec d⟩
  · have hx := exec_verdictArrival (s := s) hg
    rw [State.takeVerdict_some (s := s.quiet) h, hf, if_pos rfl] at hx
    obtain ⟨a1, a2, -, -, -⟩ := s.quiet.verdictTaken_spec d
    generalize s.quiet.verdictTaken d = u at hx a1 a2
    obtain ⟨b1, b2, b3, b4, b5, b6⟩ := u.failVerdict_spec v d
    have hu : ∀ k, k ∉ [oVerdictLatencyMaxNs] → u.obj k = s.obj k := fun k hk => a2 k hk
    refine ⟨_, hx, b1.trans a1, fun ha => b2 ((State.admitted_congr (hu _ (by decide))).trans ha), ?_, b4, b5, fun h1 h2 => ?_⟩
    · rw [b3, hu _ (by decide)]
    · rw [b6 h1 h2, hu]
      obtain ⟨q1, q2⟩ := oStrikes_bounds v.die v.unit.toNat
      have q3 := q2 v.unit.isLt
      rw [List.mem_singleton]
      unfold oVerdictLatencyMaxNs
      omega
  · rw [exec_verdictArrival_gen hg, hr, if_neg Bool.noConfusion]
  · have hx := exec_verdictArrival_gen (s := s) hg
    rw [hr, if_pos rfl] at hx
    exact ⟨_, hx, s.quiet.generatorFails_spec g⟩
  · intro may
    refine ⟨fun h => exec_patternCaseDone_refused h, fun p g hp hg hm => ?_⟩
    intro u
    have hx := exec_patternCaseDone_runs hp hg hm
    have ho : ∀ k, u.obj k = (s.quiet.bump oIdleCasesRun).obj k := fun k => State.obj_congr k rfl
    refine ⟨State.caseMayRun_noteCase .., fun hc => ?_, fun hc => ⟨?_, fun ha => ?_, ?_⟩⟩
    · rw [hx, hc, if_pos rfl]
    · rw [hx, hc, if_neg Bool.noConfusion]
    · refine (u.failCase_spec p c).1 ((State.admitted_congr ?_).trans ha)
      rw [ho, State.bump_obj_ne _ (by decide)]
      rfl
    · rw [(u.failCase_spec p c).2, ho, State.bump_obj_ne _ (by decide)]
      rfl

end Sys2Proof.Machine

namespace Sys2Proof.Machine

/-! ### Windows and chunks -/

@[simp] theorem State.win_setWin_self (s : State) (n : Nat) (w : WindowSt) : (s.setWin n w).win n = w :=
  (Bank.get_set ..).trans (if_pos rfl)

theorem State.win_setWin_ne (s : State) {n j : Nat} (w : WindowSt) (h : j ≠ n) : (s.setWin n w).win j = s.win j :=
  (Bank.get_set ..).trans (if_neg h)

theorem State.win_of_windows {s t : State} (h : t.windows = s.windows) (n : Nat) : t.win n = s.win n := by
  rw [State.win, h]
  rfl

@[simp] theorem WindowSt.chunk_setChunk_self (w : WindowSt) (n : Nat) (c : ChunkSt) : (w.setChunk n c).chunk n = c :=
  (Bank.get_set ..).trans (if_pos rfl)

theorem WindowSt.chunk_of_chunks {t st : WindowSt} {n : Nat} {c : ChunkSt} (h : t.chunks = (st.setChunk n c).chunks) :
    t.chunk n = c := by
  rw [WindowSt.chunk, h]
  exact WindowSt.chunk_setChunk_self st n c

theorem Window.isComplete_congr {w : Window} {n : Nat} {c d : ChunkSt} (h1 : d.markers = c.markers) (h2 : d.count = c.count)
    (h3 : d.total = c.total) : w.isComplete n d = w.isComplete n c := by
  unfold Window.isComplete
  rw [h1, h2, h3]

theorem countIn_value {c : Contribution} (h : c.form ≠ 2) (w : Window) (st : WindowSt) :
    (countIn w st c).accepted = st.accepted + 1 ∧ (countIn w st c).chunk c.chunk =
      { st.chunk c.chunk with
        count := (st.chunk c.chunk).count + 1
        complete := w.isComplete c.chunk { st.chunk c.chunk with count := (st.chunk c.chunk).count + 1 }
        beat := c.beat } := by
  unfold countIn
  extract_lets n ch d t
  have hd : d = { ch with count := ch.count + 1 } := if_neg h
  rw [if_neg h]
  refine ⟨rfl, ?_⟩
  refine (WindowSt.chunk_setChunk_self ..).trans ?_
  rw [hd]

theorem countIn_marker {c : Contribution} (h : c.form = 2) (w : Window) (st : WindowSt) :
    (countIn w st c).chunk c.chunk =
      { st.chunk c.chunk with
        markers := (st.chunk c.chunk).markers + 1
        total := (st.chunk c.chunk).total + c.aux
        complete := w.isComplete c.chunk { st.chunk c.chunk with
          markers := (st.chunk c.chunk).markers + 1, total := (st.chunk c.chunk).total + c.aux }
        beat := c.beat } := by
  unfold countIn
  extract_lets n ch d t
  have hd : d = { ch with markers := ch.markers + 1, total := ch.total + c.aux } := if_pos h
  rw [if_pos h]
  refine (WindowSt.chunk_setChunk_self ..).trans ?_
  rw [hd]

/-! ### A value entered -/

theorem State.elementTally_memWork (s : State) (w : Window) (ch : ChunkSt) (e : Nat) : MemWork s (s.elementTally w ch e).1 := by
  unfold State.elementTally
  split
  · exact s.loadData_memWork ..
  · exact MemWork.refl s

theorem State.elementTally_eq {s : State} {w : Window} (h : w.spill = false) (ch : ChunkSt) (e : Nat) :
    s.elementTally w ch e = (s, Bank.get ch.tallies Tally.zero e) := by
  unfold State.elementTally
  rw [h]
  rfl

theorem State.boundExceeded_memWork (s : State) : MemWork s s.boundExceeded :=
  (s.poison_memWork true).trans (State.raiseWith_memWork ..)

/-- What entering a value leaves of its chunk and of the rest. -/
structure Entered (w : Window) (c : Contribution) (s t : State) : Prop where
  contribs : t.contribs = s.contribs
  others : ∀ n, n ≠ w.num → t.win n = s.win n
  accepted : (t.win w.num).accepted = (s.win w.num).accepted
  count : ((t.win w.num).chunk c.chunk).count = ((s.win w.num).chunk c.chunk).count
  quiet : w.spill = false → t.od = s.od

/-- A pair entered in a MAXIDX or MINIDX window (R224). -/
theorem State.enterValue_pair (s : State) {w : Window} (c : Contribution) (h : w.sumMode ≠ 0) :
    Entered w c s (s.enterValue w c) ∧ (s.enterValue w c).mem = s.mem ∧
    Bank.get (((s.enterValue w c).win w.num).chunk c.chunk).winners none c.element =
      betterPair (w.sumMode == 2) (Bank.get ((s.win w.num).chunk c.chunk).winners none c.element) (c.value, c.aux) := by
  obtain ⟨st, hx, h1, h2⟩ : ∃ st, s.enterValue w c = s.setWin w.num st ∧ st.accepted = (s.win w.num).accepted ∧
      st.chunk c.chunk = { (s.win w.num).chunk c.chunk with
        winners := Bank.set ((s.win w.num).chunk c.chunk).winners none c.element
          (betterPair (w.sumMode == 2) (Bank.get ((s.win w.num).chunk c.chunk).winners none c.element) (c.value, c.aux)) } := by
    unfold State.enterValue
    extract_lets n e
    rw [if_pos h]
    exact ⟨_, rfl, rfl, WindowSt.chunk_setChunk_self ..⟩
  rw [hx]
  refine ⟨⟨rfl, fun n hn => State.win_setWin_ne s st hn, ?_, ?_, fun _ => rfl⟩, rfl, ?_⟩
  · rw [State.win_setWin_self, h1]
  · rw [State.win_setWin_self, h2]
  · rw [State.win_setWin_self, h2]
    exact (Bank.get_set ..).trans (if_pos rfl)

/-- A chunk with a value entered in its element's tally and in its residue (R223, R236). -/
def enteredChunk (w : Window) (c : Contribution) (x : Entry) (ch : ChunkSt) : ChunkSt :=
  { (if w.spill then { ch with inDram := insertSorted c.element ch.inDram }
      else { ch with tallies := Bank.set ch.tallies Tally.zero c.element x.tally }) with
    rho := addRes ch.rho (addRes (termRho w c) x.kappa) }

/-- A value entered in its tally (R223). -/
theorem State.enterValue_sum (s : State) {w : Window} (c : Contribution) (h : w.sumMode = 0) :
    let ch := (s.win w.num).chunk c.chunk
    let old := s.elementTally w ch c.element
    let x := sumEntry old.1 w old.2 c
    let t := s.enterValue w c
    Entered w c s t ∧
    (w.spill = false → Bank.get ((t.win w.num).chunk c.chunk).tallies Tally.zero c.element = x.tally ∧ t.mem = s.mem ∧
      ((t.win w.num).chunk c.chunk).rho = addRes ch.rho (addRes (termRho w c) x.kappa)) ∧
    (w.spill = true → c.element ∈ ((t.win w.num).chunk c.chunk).inDram ∧
      t.mem = (old.1.storeBy .granary (w.spillAddr + 32 * c.element)
        (tallyBytes x.tally.t ++ natLe 8 x.tally.word)).mem) := by
  intro ch old x t
  obtain ⟨u, st, hx, hu, h1, h2⟩ : ∃ u st, t = u.setWin w.num st ∧
      u = (if w.spill then old.1.storeBy .granary (w.spillAddr + 32 * c.element)
        (tallyBytes x.tally.t ++ natLe 8 x.tally.word) else old.1) ∧ st.accepted = (u.win w.num).accepted ∧
      st.chunk c.chunk = enteredChunk w c x ((u.win w.num).chunk c.chunk) := by
    show ∃ (u : State) (st : WindowSt), s.enterValue w c = u.setWin w.num st ∧ _
    unfold State.enterValue
    extract_lets n e st0 ch0 best y w0 r s1 x1 s2 st1 ch1 ch2 ch3 row w1
    rw [if_neg (Classical.not_not.mpr h)]
    refine ⟨s2, _, rfl, rfl, rfl, ?_⟩
    have hc : ch3 = enteredChunk w c x ((s2.win w.num).chunk c.chunk) := by
      simp only [ch3, ch2, enteredChunk]
      split <;> rfl
    rw [← hc]
    exact WindowSt.chunk_of_chunks rfl
  have hm : MemWork s u := by
    refine (s.elementTally_memWork w ch c.element).trans ?_
    rw [hu]
    split
    · exact State.storeBy_memWork ..
    · exact MemWork.refl _
  have hw : ∀ n, u.win n = s.win n := State.win_of_windows hm.windows
  have ht : (t.win w.num).chunk c.chunk = enteredChunk w c x ch := by
    rw [hx, State.win_setWin_self, h2, hw]
  have hq : w.spill = false → u = s := fun q => by
    rw [hu, q, if_neg Bool.noConfusion]
    exact congrArg Prod.fst (State.elementTally_eq q ch c.element)
  refine ⟨⟨?_, fun n hn => ?_, ?_, ?_, fun q => ?_⟩, fun q => ⟨?_, ?_, ?_⟩, fun q => ⟨?_, ?_⟩⟩
  · rw [hx]
    exact hm.contribs
  · rw [hx, State.win_setWin_ne _ _ hn, hw]
  · rw [hx, State.win_setWin_self, h1, hw]
  · rw [ht]
    unfold enteredChunk
    split <;> rfl
  · rw [hx, hq q]
    rfl
  · rw [ht, enteredChunk, if_neg (Bool.not_eq_true _ ▸ q)]
    exact (Bank.get_set ..).trans (if_pos rfl)
  · rw [hx, hq q]
    rfl
  · rw [ht, enteredChunk]
  · rw [ht, enteredChunk, if_pos q]
    exact (mem_insertSorted ..).mpr (.inl rfl)
  · rw [hx]
    show u.mem = _
    rw [hu, if_pos q]

/-! ### A contribution taken -/

theorem State.accept_beyond {s : State} {w : Window} {c : Contribution} (u : Nat) (h : beyondBound w (s.win w.num) c = true) :
    s.accept w u c = s.boundExceeded := by
  unfold State.accept
  rw [if_pos h]

theorem beyondBound_marker {w : Window} {st : WindowSt} {c : Contribution} (h : c.form = 2) : beyondBound w st c = false := by
  unfold beyondBound
  rw [h]
  simp

/-- A marker accepted (R225). -/
theorem State.accept_marker {s : State} {w : Window} {c : Contribution} (u : Nat) (h : c.form = 2) :
    MemWork (s.setWin w.num (countIn w (s.win w.num) c)) (s.accept w u c) := by
  unfold State.accept
  rw [beyondBound_marker h, if_neg Bool.noConfusion]
  extract_lets s1 before s2 after
  have h1 : s1 = s := if_pos h
  have h2 : s2 = s.setWin w.num (countIn w (s.win w.num) c) := by
    show s1.setWin w.num (countIn w (s1.win w.num) c) = _
    rw [h1]
  rw [← h2]
  split
  · exact State.boundExceeded_memWork _
  · exact MemWork.refl _

/-- A value accepted (R225). -/
theorem State.accept_value {s : State} {w : Window} {c : Contribution} (u : Nat) (h : c.form ≠ 2)
    (hb : beyondBound w (s.win w.num) c = false) :
    let e := (s.enterValue w c).bump (oUnitAdds u)
    s.accept w u c = e.setWin w.num (countIn w (e.win w.num) c) := by
  intro e
  unfold State.accept
  rw [hb, if_neg Bool.noConfusion]
  extract_lets s1 before s2 after
  have h1 : s1 = e := if_neg h
  have h2 : s2 = e.setWin w.num (countIn w (e.win w.num) c) := by
    show s1.setWin w.num (countIn w (s1.win w.num) c) = _
    rw [h1]
  have h3 : after = before := by
    show ((s2.win w.num).chunk c.chunk).total = ((s1.win w.num).chunk c.chunk).total
    rw [h2, State.win_setWin_self, (countIn_value h ..).2, h1]
  rw [h3, if_neg (fun q => absurd (Nat.lt_of_le_of_lt q.2.1 q.2.2) (Nat.lt_irrefl _)), h2]

theorem State.stray_spec (s : State) (c : Contribution) (r : Nat) :
    (s.stray c r).contribs = s.contribs ∧ (s.stray c r).obj oStrayCount = (s.obj oStrayCount + 1) % 2 ^ objBits oStrayCount ∧
    (s.stray c r).obj oLastStray = r + c.window * 2 ^ 8 + (c.source % 2 ^ 14) * 2 ^ 24 ∧
    (s.admitted = true → (s.stray c r).step.fault = true) ∧ (s.stray c r).windows = s.windows := by
  unfold State.stray
  generalize r + c.window * 2 ^ 8 + (c.source % 2 ^ 14) * 2 ^ 24 = v
  extract_lets b
  have hb1 : b.obj oStrayCount = (s.obj oStrayCount + 1) % 2 ^ objBits oStrayCount :=
    (State.obj_setObj_ne _ _ (by decide)).trans (s.bump_obj_self _)
  have hb2 : b.obj oLastStray = v := State.obj_setObj_self ..
  have hb3 : b.admitted = s.admitted :=
    State.admitted_congr ((State.obj_setObj_ne _ _ (by decide)).trans (State.bump_obj_ne _ (by decide)))
  have hb4 : b.contribs = s.contribs := (State.setObj_contribs ..).trans (State.setObj_contribs ..)
  have hb5 : b.windows = s.windows := (State.setObj_windows ..).trans (State.setObj_windows ..)
  clear_value b
  have hp := b.poison_memWork false
  have hr := (b.poison false).raise_memWork .strayContribution
  have h := hp.trans hr
  exact ⟨h.contribs.trans hb4, (h.obj _ (by decide)).trans hb1, (h.obj _ (by decide)).trans hb2,
    fun ha => hr.fault (State.poison_fault false (hb3.trans ha)), h.windows.trans hb5⟩

theorem State.late_spec (s : State) (c : Contribution) :
    (s.late c).contribs = s.contribs ∧ (s.late c).obj oLateCount = (s.obj oLateCount + 1) % 2 ^ objBits oLateCount ∧
    (s.admitted = true → (s.late c).step.fault = true) ∧ (s.late c).windows = s.windows := by
  unfold State.late
  generalize c.window + (c.source % 2 ^ 14) * 2 ^ 16 = v
  extract_lets b
  have hb1 : b.obj oLateCount = (s.obj oLateCount + 1) % 2 ^ objBits oLateCount :=
    (State.obj_setObj_ne _ _ (by decide)).trans (s.bump_obj_self _)
  have hb3 : b.admitted = s.admitted :=
    State.admitted_congr ((State.obj_setObj_ne _ _ (by decide)).trans (State.bump_obj_ne _ (by decide)))
  have hb4 : b.contribs = s.contribs := (State.setObj_contribs ..).trans (State.setObj_contribs ..)
  have hb5 : b.windows = s.windows := (State.setObj_windows ..).trans (State.setObj_windows ..)
  clear_value b
  have hp := b.poison_memWork false
  have hr := (b.poison false).raise_memWork .lateContribution
  have h := hp.trans hr
  exact ⟨h.contribs.trans hb4, (h.obj _ (by decide)).trans hb1,
    fun ha => hr.fault (State.poison_fault false (hb3.trans ha)), h.windows.trans hb5⟩

theorem State.takeContribution_unowned {s : State} {c : Contribution} (u : Nat) (h : s.ownWindow c.window = none) :
    s.takeContribution u c = s.stray c 0x01 := by
  unfold State.takeContribution
  rw [h]

theorem State.takeContribution_owned {s : State} {c : Contribution} {w : Window} (u : Nat) (h : s.ownWindow c.window = some w) :
    s.takeContribution u c =
      (if earlier c.step c.attempt (s.win w.num).step (s.win w.num).attempt then s.bump oStaleCount
      else if c.step = (s.win w.num).step ∧ c.attempt = (s.win w.num).attempt ∧ ((s.win w.num).state = 3 ∨
          ((s.win w.num).state = 2 ∧ ((s.win w.num).chunk c.chunk).complete = true)) then s.late c
      else if strayReason w (s.win w.num) c ≠ 0 then s.stray c (strayReason w (s.win w.num) c) else s.accept w u c) := by
  unfold State.takeContribution
  rw [h]

/-! ### GRANARY_CONTRIBUTION -/

theorem exec_granaryContribution_none {die : Die} {unit : GranUnit} {s : State}
    (h : s.contribs.findIdx? (fun c => s.unitFor c == die.val * 16 + unit.val) = none) :
    exec (.granaryContribution die unit) s = .next s.quiet := by
  show execGranaryContribution die unit s = _
  unfold execGranaryContribution
  extract_lets q u
  rw [show q.contribs.findIdx? (fun c => q.unitFor c == u) = none from h]

theorem exec_granaryContribution_some {die : Die} {unit : GranUnit} {s : State} {i : Nat} {c : Contribution}
    (h : s.contribs.findIdx? (fun c => s.unitFor c == die.val * 16 + unit.val) = some i) (hc : s.contribs[i]? = some c) :
    exec (.granaryContribution die unit) s =
      .next (({ s.quiet with contribs := s.contribs.eraseIdx i } : State).takeContribution (die.val * 16 + unit.val) c) := by
  show execGranaryContribution die unit s = _
  unfold execGranaryContribution
  extract_lets q u
  rw [show q.contribs.findIdx? (fun c => q.unitFor c == u) = some i from h]
  dsimp only
  rw [show q.contribs[i]? = some c from hc]
  rfl

/-- A marker taken. -/
theorem State.accept_marker_spec {s : State} {w : Window} {c : Contribution} (u : Nat) (h : c.form = 2) :
    let ch := (s.win w.num).chunk c.chunk
    let t := s.accept w u c
    t.contribs = s.contribs ∧
    let dh := (t.win w.num).chunk c.chunk
    dh.markers = ch.markers + 1 ∧ dh.total = ch.total + c.aux ∧ dh.count = ch.count ∧
    dh.complete = w.isComplete c.chunk dh ∧ dh.tallies = ch.tallies := by
  intro ch t
  have hm : MemWork _ t := State.accept_marker u h
  have hw : t.win w.num = countIn w (s.win w.num) c := by rw [State.win_of_windows hm.windows, State.win_setWin_self]
  refine ⟨hm.contribs, ?_⟩
  rw [hw, countIn_marker h]
  exact ⟨rfl, rfl, rfl, Window.isComplete_congr rfl rfl rfl, rfl⟩

/-- A value taken. -/
theorem State.accept_value_spec {s : State} {w : Window} {c : Contribution} (u : Nat) (h : c.form ≠ 2)
    (hb : beyondBound w (s.win w.num) c = false) :
    let ch := (s.win w.num).chunk c.chunk
    let old := s.elementTally w ch c.element
    let x := sumEntry old.1 w old.2 c
    let t := s.accept w u c
    t.contribs = s.contribs ∧
    let dh := (t.win w.num).chunk c.chunk
    (t.win w.num).accepted = (s.win w.num).accepted + 1 ∧ dh.count = ch.count + 1 ∧
    dh.complete = w.isComplete c.chunk dh ∧ (∀ n, n ≠ w.num → t.win n = s.win n) ∧
    (w.sumMode = 0 → w.spill = false → Bank.get dh.tallies Tally.zero c.element = x.tally ∧ t.mem = s.mem ∧
      dh.rho = addRes ch.rho (addRes (termRho w c) x.kappa)) ∧
    (w.sumMode = 0 → w.spill = true → c.element ∈ dh.inDram ∧
      t.mem = (old.1.storeBy .granary (w.spillAddr + 32 * c.element)
        (tallyBytes x.tally.t ++ natLe 8 x.tally.word)).mem) ∧
    (w.sumMode ≠ 0 → t.mem = s.mem ∧ Bank.get dh.winners none c.element =
      betterPair (w.sumMode == 2) (Bank.get ch.winners none c.element) (c.value, c.aux)) ∧
    (w.spill = false → SameObj s t [oUnitAdds u]) := by
  intro ch old x t
  have hsum : w.sumMode = 0 → _ := fun q => s.enterValue_sum c q
  have hpair : w.sumMode ≠ 0 → _ := fun q => s.enterValue_pair c q
  have he : Entered w c s (s.enterValue w c) := by
    by_cases q : w.sumMode = 0
    · exact (hsum q).1
    · exact (hpair q).1
  have ht : t = _ := State.accept_value u h hb
  clear_value t
  generalize s.enterValue w c = e at ht hsum hpair he
  obtain ⟨f, hf, f1, f2, f3, f4⟩ : ∃ f, f = e.bump (oUnitAdds u) ∧ f.contribs = e.contribs ∧ f.windows = e.windows ∧
      f.mem = e.mem ∧ SameObj e f [oUnitAdds u] :=
    ⟨_, rfl, State.setObj_contribs .., State.setObj_windows .., State.setObj_mem ..,
      (SameObj.refl e _).bump (List.mem_singleton.mpr rfl)⟩
  rw [← hf] at ht
  have fw : ∀ n, f.win n = e.win n := State.win_of_windows f2
  rw [fw] at ht
  obtain ⟨ca, cc⟩ := countIn_value h w (e.win w.num)
  have tw : t.win w.num = countIn w (e.win w.num) c := by rw [ht, State.win_setWin_self]
  have tm : t.mem = e.mem := by rw [ht]; exact f3
  refine ⟨by rw [ht]; exact f1.trans he.contribs, ?_⟩
  rw [tw, cc]
  refine ⟨ca.trans (by rw [he.accepted]), ?_, Window.isComplete_congr rfl rfl rfl, fun n hn => ?_, fun q1 q2 => ?_,
    fun q1 q2 => ?_, fun q => ?_, fun q => ?_⟩
  · exact congrArg (· + 1) he.count
  · rw [ht, State.win_setWin_ne _ _ hn, fw, he.others n hn]
  · obtain ⟨k1, k2, k3⟩ := (hsum q1).2.1 q2
    exact ⟨k1, tm.trans k2, k3⟩
  · obtain ⟨k1, k2⟩ := (hsum q1).2.2 q2
    exact ⟨k1, tm.trans k2⟩
  · obtain ⟨-, k1, k2⟩ := hpair q
    exact ⟨tm.trans k1, k2⟩
  · refine (SameObj.of_od (he.quiet q)).trans (f4.trans (SameObj.of_od ?_))
    rw [ht]
    rfl

end Sys2Proof.Machine

namespace Sys2Proof.Machine

/-! ### The outputs of a chunk -/

section
variable {s t : State} (h : UnitWork s t)
include h

theorem UnitWork.now : t.now = s.now := by obtain ⟨_, _, _, _, _, _, _, _, _, _, _, e⟩ := h.shape; rw [e]; rfl
theorem UnitWork.verdicts : t.verdicts = s.verdicts := by
  obtain ⟨_, _, _, _, _, _, _, _, _, _, _, e⟩ := h.shape; rw [e]; rfl
theorem UnitWork.windows : t.windows = s.windows := by
  obtain ⟨_, _, _, _, _, _, _, _, _, _, _, e⟩ := h.shape; rw [e]; rfl
theorem UnitWork.delivered : t.delivered = s.delivered := by
  obtain ⟨_, _, _, _, _, _, _, _, _, _, _, e⟩ := h.shape; rw [e]; rfl
theorem UnitWork.plan : t.plan = s.plan := by obtain ⟨_, _, _, _, _, _, _, _, _, _, _, e⟩ := h.shape; rw [e]; rfl
theorem UnitWork.shards : t.shards = s.shards := by
  obtain ⟨_, _, _, _, _, _, _, _, _, _, _, e⟩ := h.shape; rw [e]; rfl

end

theorem State.post_unitWork (s : State) (q : QueueEntry) (kind : Nat) (body : Bytes) : UnitWork s (s.post q kind body) := by
  have hr : UnitWork s (s.postRecord q kind body).1 := by
    obtain ⟨⟨od, rings, mem, flows, router, e⟩, ho⟩ := s.postRecord_shape q kind body
    exact ⟨⟨od, s.events, s.ledger, rings, mem, flows, router, s.step, s.freeCount, s.ovfAt, s.contribs, e⟩,
      fun k hk => ho k (fun q => hk (q ▸ by decide)), s.step.fault, s.step.hold, s.step.overflow, by rw [e]; rfl⟩
  unfold State.post
  extract_lets r
  split
  · exact hr.trans (State.raise_memWork ..).unitWork
  · exact hr

/-- `t` is `s` after outputs of window `n`: of the window its overflows alone may differ. -/
structure OutWork (n : Nat) (s t : State) : Prop where
  win : ∃ v, t.win n = { s.win n with ovf := v }
  now : t.now = s.now
  verdicts : t.verdicts = s.verdicts
  plan : t.plan = s.plan
  obj : SameObj s t unitKeys
  attempt : t.step.attempt = s.step.attempt

theorem OutWork.trans {n : Nat} {s t u : State} (h : OutWork n s t) (k : OutWork n t u) : OutWork n s u := by
  obtain ⟨v, hv⟩ := h.win
  obtain ⟨x, hx⟩ := k.win
  exact ⟨⟨x, by rw [hx, hv]⟩, k.now.trans h.now, k.verdicts.trans h.verdicts, k.plan.trans h.plan, h.obj.trans k.obj,
    k.attempt.trans h.attempt⟩

theorem UnitWork.outWork {s t : State} (h : UnitWork s t) (n : Nat) : OutWork n s t := by
  obtain ⟨_, _, _, e⟩ := h.only
  exact ⟨⟨(s.win n).ovf, State.win_of_windows h.windows n⟩, h.now, h.verdicts, h.plan, h.obj, by rw [e]⟩

theorem State.outTally_unitWork (s : State) (w : Window) (ch : ChunkSt) (e : Nat) : UnitWork s (s.outTally w ch e).1 := by
  unfold State.outTally
  split
  · exact UnitWork.refl s
  · exact (s.elementTally_memWork ..).unitWork

theorem State.outReports_unitWork (s : State) (w : Window) (unit : Nat) (t : Tally) (cv : Conv) :
    UnitWork s (s.outReports w unit t cv) :=
  ((s.overflowIf_unitWork ..).trans (State.overflowIf_unitWork ..)).trans (State.overflowIf_unitWork ..)

theorem State.outElement_outWork (s : State) (w : Window) (unit e : Nat) (errors : List TallyError) :
    OutWork w.num s (s.outElement w unit e errors).1 := by
  unfold State.outElement
  extract_lets st r t cv u st1 v
  have hu : OutWork w.num s u := ((s.outTally_unitWork ..).trans (State.outReports_unitWork ..)).outWork _
  refine hu.trans ⟨⟨_, State.win_setWin_self ..⟩, rfl, rfl, rfl, fun _ _ => rfl, rfl⟩

theorem State.outChunk_outWork (s : State) (w : Window) (unit n : Nat) (errors : List TallyError) :
    OutWork w.num s (s.outChunk w unit n errors).1 := by
  unfold State.outChunk
  extract_lets es r
  split
  · exact (State.storeBy_memWork ..).unitWork.outWork _
  · have hr : OutWork w.num s r.1 := by
      refine List.foldlRecOn es _ (motive := fun (a : State × List Nat × Bytes × Nat) => OutWork w.num s a.1) ((UnitWork.refl s).outWork _) ?_
      exact fun a ha e _ => ha.trans (a.1.outElement_outWork w unit e errors)
    split
    · exact hr.trans ⟨⟨_, rfl⟩, rfl, rfl, rfl, fun _ _ => rfl, rfl⟩
    · exact hr.trans ((State.storeBy_memWork ..).unitWork.outWork _)

theorem State.completeWindow_spec (s : State) (w : Window) :
    (s.completeWindow w).verdicts = s.verdicts ∧ (s.completeWindow w).delivered = s.delivered ∧
    ∃ d n, (s.completeWindow w).win w.num = { s.win w.num with state := 3, doneAt := d, touched := n } := by
  unfold State.completeWindow
  extract_lets st t n st' u v
  have ht : UnitWork s t := ((State.storeBy_memWork ..).unitWork).ite (UnitWork.refl s)
  have hv : UnitWork u v := ((State.boundExceeded_memWork _).unitWork).ite (UnitWork.refl u)
  have hx : ∀ x, UnitWork v x → x.verdicts = s.verdicts ∧ x.delivered = s.delivered ∧
      ∃ d n, x.win w.num = { s.win w.num with state := 3, doneAt := d, touched := n } := by
    intro x k
    have hux := hv.trans k
    refine ⟨hux.verdicts.trans ht.verdicts, hux.delivered.trans ht.delivered, t.timeNow, n, ?_⟩
    rw [State.win_of_windows hux.windows]
    exact State.win_setWin_self ..
  split
  · exact hx _ (State.post_unitWork ..)
  · exact hx _ (UnitWork.refl v)

theorem State.activePlan_congr {s t : State} (h1 : t.plan = s.plan) (h2 : t.obj oPlanState = s.obj oPlanState) :
    t.activePlan = s.activePlan := by
  unfold State.activePlan
  rw [State.admitted_congr h2, h1]

theorem windowFinished_congr {w : Window} {x y : WindowSt} (h : y.chunks = x.chunks) : windowFinished w y = windowFinished w x := by
  unfold windowFinished WindowSt.chunk
  rw [h]

/-! ### CHUNK_OUTPUT_DONE -/

/-- A chunk of a window whose outputs are due. -/
def State.chunkDue (s : State) (w : Window) (c : ChunkOut) : Prop :=
  (s.win w.num).state = 2 ∧ c.chunk.toNat < w.chunkCount ∧ ((s.win w.num).chunk c.chunk.toNat).complete = true ∧
    ((s.win w.num).chunk c.chunk.toNat).delivered = false

theorem exec_chunkOutputDone_none {window : W16} {c : ChunkOut} {s : State}
    (h : ∀ w, s.ownWindow window.toNat = some w → ¬ s.chunkDue w c) : exec (.chunkOutputDone window c) s = .next s.quiet := by
  show execChunkOutputDone window c s = _
  unfold execChunkOutputDone
  extract_lets q n
  rw [show q.ownWindow window.toNat = s.ownWindow window.toNat from rfl]
  cases hw : s.ownWindow window.toNat with
  | none => rfl
  | some w =>
    have hd := h w hw
    refine if_pos ?_
    refine Classical.byContradiction fun hn => ?_
    rw [not_or, not_or, not_or] at hn
    obtain ⟨h1, h2, h3, h4⟩ := hn
    exact hd ⟨Classical.not_not.mp h1, Nat.lt_of_not_le h2, eq_true_of_ne_false h3, eq_false_of_ne_true h4⟩

/-- A chunk after its outputs: delivered and its slots empty. -/
def ChunkSt.emptied (c : ChunkSt) : ChunkSt := { c with delivered := true, tallies := [], winners := [], inDram := [] }

/-- The chunk emptied and its verdict due. -/
def State.chunkEmptied (s : State) (w : Window) (n : Nat) (d : VerdictDue) : State :=
  { s.setWin w.num ((s.win w.num).setChunk n ((s.win w.num).chunk n).emptied) with verdicts := s.verdicts ++ [d] }

theorem exec_chunkOutputDone_due {window : W16} {c : ChunkOut} {s : State} {w : Window}
    (hw : s.ownWindow window.toNat = some w) (hd : s.chunkDue w c) :
    let o := s.quiet.outChunk w ((w.die % 2) * 16 + w.unitOf c.chunk.toNat) c.chunk.toNat c.errors
    let u := o.1.chunkEmptied w c.chunk.toNat ⟨3, w.die % 2, w.unitOf c.chunk.toNat, o.1.stepNow, o.1.step.attempt, o.1.now,
      w.raw, w.num, ⟨[((s.win w.num).chunk c.chunk.toNat).rho], [o.2], []⟩⟩
    exec (.chunkOutputDone window c) s = .next (if w.outAction = 1 ∧ u.feedsShard w.num = true then u
      else if windowFinished w (u.win w.num) then u.completeWindow w else u) := by
  intro o u
  obtain ⟨h1, h2, h3, h4⟩ := hd
  show execChunkOutputDone window c s = _
  unfold execChunkOutputDone
  extract_lets q n
  rw [show q.ownWindow window.toNat = some w from hw]
  dsimp only
  rw [if_neg (by
    rintro (q1 | q1 | q1 | q1)
    · exact q1 h1
    · exact absurd h2 (Nat.not_lt.mpr q1)
    · exact Bool.noConfusion (h3.symm.trans q1)
    · exact Bool.noConfusion (h4.symm.trans q1))]
  rw [apply_ite Host.Outcome.next, apply_ite Host.Outcome.next]
  rfl

theorem State.feedsShard_congr {s t : State} (h : t.activePlan = s.activePlan) (n : Nat) : t.feedsShard n = s.feedsShard n := by
  unfold State.feedsShard
  rw [h]

/-- A chunk's outputs written or delivered. -/
theorem chunkOutputDone_gives {window : W16} {c : ChunkOut} {s : State} {w : Window}
    (hw : s.ownWindow window.toNat = some w) (hd : s.chunkDue w c) :
    let unit := (w.die % 2) * 16 + w.unitOf c.chunk.toNat
    let o := s.quiet.outChunk w unit c.chunk.toNat c.errors
    let open_ := w.outAction = 1 ∧ s.feedsShard w.num = true
    Gives (.chunkOutputDone window c) s (fun t =>
      let ch := (t.win w.num).chunk c.chunk.toNat
      ch.delivered = true ∧ ch.tallies = [] ∧ ch.winners = [] ∧ ch.inDram = [] ∧ t.delivered = o.1.delivered ∧
      t.verdicts = s.verdicts ++ [⟨3, w.die % 2, w.unitOf c.chunk.toNat, s.obj oStepNow, s.step.attempt, s.now,
        w.raw, w.num, ⟨[((s.win w.num).chunk c.chunk.toNat).rho], [o.2], []⟩⟩] ∧
      (open_ ∨ windowFinished w (t.win w.num) = false → (t.win w.num).state = 2 ∧ t.mem = o.1.mem) ∧
      (¬ open_ → windowFinished w (t.win w.num) = true → (t.win w.num).state = 3)) := by
  intro unit o open_
  have ho : OutWork w.num s.quiet o.1 := State.outChunk_outWork ..
  obtain ⟨v, hv⟩ := ho.win
  have h2 : (o.1.win w.num).state = 2 := by rw [hv]; exact hd.1
  obtain ⟨u, hx, u1, u2, u3, u4, u5, u6⟩ : ∃ u : State, exec (.chunkOutputDone window c) s =
        .next (if w.outAction = 1 ∧ u.feedsShard w.num = true then u
          else if windowFinished w (u.win w.num) then u.completeWindow w else u) ∧
      (u.win w.num).chunk c.chunk.toNat = ((o.1.win w.num).chunk c.chunk.toNat).emptied ∧ (u.win w.num).state = 2 ∧
      u.delivered = o.1.delivered ∧ u.mem = o.1.mem ∧
      u.verdicts = s.verdicts ++ [⟨3, w.die % 2, w.unitOf c.chunk.toNat, s.obj oStepNow, s.step.attempt, s.now,
        w.raw, w.num, ⟨[((s.win w.num).chunk c.chunk.toNat).rho], [o.2], []⟩⟩] ∧
      u.feedsShard w.num = s.feedsShard w.num := by
    have hw1 : ∀ d, (o.1.chunkEmptied w c.chunk.toNat d).win w.num =
      (o.1.win w.num).setChunk c.chunk.toNat ((o.1.win w.num).chunk c.chunk.toNat).emptied := fun _ => State.win_setWin_self ..
    refine ⟨_, exec_chunkOutputDone_due hw hd, ?_, ?_, rfl, rfl, ?_, ?_⟩
    · rw [hw1, WindowSt.chunk_setChunk_self]
    · rw [hw1]
      exact h2
    · show o.1.verdicts ++ _ = _
      rw [State.stepNow, ho.obj _ (by decide), ho.attempt, ho.now, ho.verdicts]
      rfl
    · exact State.feedsShard_congr (State.activePlan_congr (s := s) ho.plan (ho.obj _ (by decide))) _
  clear_value o
  have hch : ∀ t : State, (t.win w.num).chunks = (u.win w.num).chunks → (t.win w.num).chunk c.chunk.toNat =
      ((o.1.win w.num).chunk c.chunk.toNat).emptied := fun t q => by
    rw [WindowSt.chunk, q]
    exact u1
  have hopen : open_ = (w.outAction = 1 ∧ u.feedsShard w.num = true) := by rw [u6]
  clear_value open_
  subst hopen
  have hch' : ∀ t : State, (t.win w.num).chunks = (u.win w.num).chunks → ∀ d, d = (t.win w.num).chunk c.chunk.toNat →
      d.delivered = true ∧ d.tallies = [] ∧ d.winners = [] ∧ d.inDram = [] := by
    intro t q d hdd
    rw [hdd, hch t q]
    exact ⟨rfl, rfl, rfl, rfl⟩
  by_cases hop : w.outAction = 1 ∧ u.feedsShard w.num = true
  · rw [if_pos hop] at hx
    obtain ⟨k1, k2, k3, k4⟩ := hch' u rfl _ rfl
    exact ⟨_, hx, k1, k2, k3, k4, u3, u5, fun _ => ⟨u2, u4⟩, fun q => absurd hop q⟩
  · rw [if_neg hop] at hx
    by_cases hf : windowFinished w (u.win w.num) = true
    · rw [if_pos hf] at hx
      obtain ⟨c1, c2, d, n, c3⟩ := u.completeWindow_spec w
      obtain ⟨k1, k2, k3, k4⟩ := hch' (u.completeWindow w) (by rw [c3]) _ rfl
      refine ⟨_, hx, k1, k2, k3, k4, c2.trans u3, c1.trans u5, fun q => ?_, fun _ _ => by rw [c3]⟩
      rcases q with q | q
      · exact absurd q hop
      · rw [windowFinished_congr (x := u.win w.num) (by rw [c3]), hf] at q
        exact Bool.noConfusion q
    · rw [if_neg hf] at hx
      obtain ⟨k1, k2, k3, k4⟩ := hch' u rfl _ rfl
      exact ⟨_, hx, k1, k2, k3, k4, u3, u5, fun _ => ⟨u2, u4⟩, fun _ q => absurd q hf⟩

section
variable {s : State} {c : Contribution} {w : Window} (u : Nat) (h : s.ownWindow c.window = some w)
include h

theorem State.takeContribution_stale (q : earlier c.step c.attempt (s.win w.num).step (s.win w.num).attempt = true) :
    s.takeContribution u c = s.bump oStaleCount := (State.takeContribution_owned u h).trans (if_pos q)

variable (q : earlier c.step c.attempt (s.win w.num).step (s.win w.num).attempt = false)
include q

theorem State.takeContribution_late (l : c.step = (s.win w.num).step ∧ c.attempt = (s.win w.num).attempt ∧
    ((s.win w.num).state = 3 ∨ ((s.win w.num).state = 2 ∧ ((s.win w.num).chunk c.chunk).complete = true))) :
    s.takeContribution u c = s.late c := by
  rw [State.takeContribution_owned u h, if_neg (Bool.not_eq_true _ ▸ q), if_pos l]

variable (l : ¬ (c.step = (s.win w.num).step ∧ c.attempt = (s.win w.num).attempt ∧
    ((s.win w.num).state = 3 ∨ ((s.win w.num).state = 2 ∧ ((s.win w.num).chunk c.chunk).complete = true))))
include l

theorem State.takeContribution_stray (r : strayReason w (s.win w.num) c ≠ 0) :
    s.takeContribution u c = s.stray c (strayReason w (s.win w.num) c) := by
  rw [State.takeContribution_owned u h, if_neg (Bool.not_eq_true _ ▸ q), if_neg l, if_pos r]

theorem State.takeContribution_accept (r : strayReason w (s.win w.num) c = 0) : s.takeContribution u c = s.accept w u c := by
  rw [State.takeContribution_owned u h, if_neg (Bool.not_eq_true _ ▸ q), if_neg l, if_neg (Classical.not_not.mpr r)]

end

/-- Settles O38: a contribution judged and entered, a chunk's outputs delivered. -/
theorem granaryWork : Obligations.GranaryWork := by
  unfold Obligations.GranaryWork
  refine ⟨fun die unit s => ?_, fun window c s => ?_⟩
  · intro u at?
    refine ⟨fun h => exec_granaryContribution_none h, fun i c hi hc => ?_⟩
    intro base strays
    have hx : exec (.granaryContribution die unit) s = .next (base.takeContribution u c) :=
      exec_granaryContribution_some hi hc
    have hstray : ∀ r, base.takeContribution u c = base.stray c r → strays r := fun r q =>
      ⟨_, hx, by rw [q]; exact base.stray_spec c r⟩
    refine ⟨fun h => hstray 1 (State.takeContribution_unowned (s := base) u h), fun w h => ?_⟩
    intro st ch late stale enters
    refine ⟨fun q => ?_, fun q1 q2 => ⟨_, hx, ?_⟩, fun q1 q2 q3 => hstray _ (State.takeContribution_stray (s := base) u h q1 q2 q3),
      fun ⟨q1, q2, q3⟩ hb => ⟨_, hx, ?_⟩, fun ⟨q1, q2, q3⟩ hf => ⟨_, hx, ?_⟩, fun ⟨q1, q2, q3⟩ hf hb => ⟨_, hx, ?_⟩⟩
    · rw [hx, State.takeContribution_stale (s := base) u h q]
    · rw [State.takeContribution_late (s := base) u h q1 q2]
      exact base.late_spec c
    · rw [State.takeContribution_accept (s := base) u h q2 q1 q3, State.accept_beyond (s := base) u hb]
      have hm := base.boundExceeded_memWork
      exact ⟨hm.contribs, hm.windows, fun ha => (State.raiseWith_memWork ..).fault (State.poison_fault true ha)⟩
    · rw [State.takeContribution_accept (s := base) u h q2 q1 q3]
      exact State.accept_marker_spec u hf
    · rw [State.takeContribution_accept (s := base) u h q2 q1 q3]
      exact State.accept_value_spec u hf hb
  · intro due
    exact ⟨fun h => exec_chunkOutputDone_none h, fun w hw hd => chunkOutputDone_gives hw hd⟩

end Sys2Proof.Machine

namespace Sys2Proof.Machine

/-! ### Shards -/

@[simp] theorem State.shard_setShard_self (s : State) (n : Nat) (x : ShardSt) : (s.setShard n x).shard n = x :=
  (Bank.get_set ..).trans (if_pos rfl)

theorem State.shard_of_shards {s t : State} (h : t.shards = s.shards) (n : Nat) : t.shard n = s.shard n := by
  rw [State.shard, h]
  rfl

theorem insertSorted_idem (x : Nat) (l : List Nat) : insertSorted x (insertSorted x l) = insertSorted x l := by
  induction l with
  | nil => simp [insertSorted]
  | cons y ys ih =>
    rw [insertSorted]
    split
    · rw [insertSorted, if_neg (Nat.lt_irrefl _), if_pos rfl]
    · split
      · next h1 h2 => rw [insertSorted, if_neg h1, if_pos h2]
      · next h1 h2 => rw [insertSorted, if_neg h1, if_neg h2, ih]

/-! ### What the update engine's work on a run leaves -/

/-- `t` is `s` after the update engine's work on elements of shard `n`: of the shard its state and the chunks it has taken
stand, and so do the verdicts due, the chunks delivered, the time and the objects but those of a store. -/
structure UpdWork (n : Nat) (s t : State) : Prop where
  state : (t.shard n).state = (s.shard n).state
  taken : (t.shard n).taken = (s.shard n).taken
  verdicts : t.verdicts = s.verdicts
  delivered : t.delivered = s.delivered
  now : t.now = s.now
  obj : SameObj s t unitKeys
  attempt : t.step.attempt = s.step.attempt

theorem UpdWork.trans {n : Nat} {s t u : State} (h : UpdWork n s t) (k : UpdWork n t u) : UpdWork n s u :=
  ⟨k.state.trans h.state, k.taken.trans h.taken, k.verdicts.trans h.verdicts, k.delivered.trans h.delivered,
    k.now.trans h.now, h.obj.trans k.obj, k.attempt.trans h.attempt⟩

theorem UnitWork.updWork {s t : State} (h : UnitWork s t) (n : Nat) : UpdWork n s t := by
  obtain ⟨_, _, _, e⟩ := h.only
  have hs := State.shard_of_shards h.shards n
  exact ⟨by rw [hs], by rw [hs], h.verdicts, h.delivered, h.now, h.obj, by rw [e]⟩

theorem MemWork.updWork {s t : State} (h : MemWork s t) (n : Nat) : UpdWork n s t := h.unitWork.updWork n

theorem UpdWork.refl (n : Nat) (s : State) : UpdWork n s s := (UnitWork.refl s).updWork n

theorem UpdWork.setShard {n : Nat} {s : State} {x : ShardSt} (h1 : x.state = (s.shard n).state)
    (h2 : x.taken = (s.shard n).taken) : UpdWork n s (s.setShard n x) :=
  ⟨by rw [State.shard_setShard_self, h1], by rw [State.shard_setShard_self, h2], rfl, rfl, rfl, fun _ _ => rfl, rfl⟩

theorem UpdWork.setSum (n : Nat) (s : State) (g : Nat) (x : GroupSum) : UpdWork n s (s.setSum g x) :=
  ⟨rfl, rfl, rfl, rfl, rfl, fun _ _ => rfl, rfl⟩

theorem UpdWork.foldl {α : Type} {n : Nat} {f : State → α → State} (l : List α) (h : ∀ s a, UpdWork n s (f s a)) (s : State) :
    UpdWork n s (l.foldl f s) :=
  List.foldlRecOn l f (motive := fun t => UpdWork n s t) (UpdWork.refl n s) (fun t ht a _ => ht.trans (h t a))

theorem UpdWork.ite {n : Nat} {s t u : State} {p : Prop} [Decidable p] (h : UpdWork n s t) (k : UpdWork n s u) :
    UpdWork n s (if p then t else u) := by
  split
  · exact h
  · exact k

theorem State.updRead_memWork (s : State) (reg off first n : Nat) : MemWork s (s.updRead reg off first n).1 := by
  unfold State.updRead
  split
  · exact MemWork.refl s
  · exact s.loadData_memWork ..

theorem State.updWrite_memWork (s : State) (reg off first : Nat) (xs : List Nat) : MemWork s (s.updWrite reg off first xs) := by
  unfold State.updWrite
  split
  · exact MemWork.refl s
  · exact s.storeBy_memWork ..

theorem State.loadWords_memWork (s : State) (ag : Agent) (a n : Nat) : MemWork s (s.loadWords ag a n).1 :=
  s.loadData_memWork ..

theorem State.elemsIn_memWork (s : State) (j : Job) (first : Nat) (grads : List Nat) : MemWork s (s.elemsIn j first grads).1 := by
  unfold State.elemsIn
  extract_lets n w m v
  have hm : MemWork s m.1 := (s.updRead_memWork ..).trans (w.1.updRead_memWork ..)
  show MemWork s (if j.g.shape = 1 then _ else _ : State × List Nat).1
  split
  · exact hm.trans (m.1.updRead_memWork ..)
  · exact hm

section
variable (j : Job)

theorem State.putArray_updWork (s : State) (isCopy : Bool) (b : Nat) (bs : Bytes) :
    UpdWork j.w.num s (s.putArray j isCopy b bs) := by
  unfold State.putArray
  extract_lets off t x
  refine ((State.storeBy_memWork ..).updWork _).trans (UpdWork.setShard ?_ ?_)
  · split <;> rfl
  · split <;> rfl

theorem State.neighbour_memWork (s : State) (b row : Nat) : MemWork s (s.neighbour j b row).1 := by
  unfold State.neighbour
  split
  · exact MemWork.refl s
  · exact s.loadData_memWork ..

theorem State.putCopy_updWork (s : State) (first : Nat) (xs : List Nat) : UpdWork j.w.num s (s.putCopy j first xs) := by
  unfold State.putCopy
  extract_lets c re halves lead l stop tail r ys
  have hl : UpdWork j.w.num s l.1 := by
    show UpdWork j.w.num s (if lead = true then _ else _ : State × Nat).1
    split
    · exact (s.neighbour_memWork ..).updWork _
    · exact UpdWork.refl _ s
  have hr : UpdWork j.w.num s r.1 := by
    show UpdWork j.w.num s (if tail = true then _ else _ : State × Nat).1
    split
    · exact hl.trans ((l.1.neighbour_memWork ..).updWork _)
    · exact hl
  exact hr.trans (State.putArray_updWork ..)

theorem State.copyRun_updWork (s : State) (first : Nat) (xs : List FVal) : UpdWork j.w.num s (s.copyRun j first xs) := by
  unfold State.copyRun
  extract_lets c mode vs cs t
  exact (((s.overflowIf_unitWork ..).updWork _).trans (State.putCopy_updWork ..)).trans
    ((State.storeScales_memWork ..).updWork _)

theorem State.blockValue_memWork (s : State) (e : Nat) : MemWork s (s.blockValue j e).1 := by
  unfold State.blockValue
  split
  · exact MemWork.refl s
  · exact s.updRead_memWork ..

theorem State.copyBlock_updWork (s : State) (b : Nat) : UpdWork j.w.num s (s.copyBlock j b) := by
  unfold State.copyBlock
  extract_lets r
  refine UpdWork.trans (t := r.1) ?_ (State.copyRun_updWork ..)
  refine List.foldlRecOn _ _ (motive := fun (a : State × List FVal) => UpdWork j.w.num s a.1) (UpdWork.refl _ s) ?_
  exact fun a ha i _ => ha.trans ((a.1.blockValue_memWork ..).updWork _)

theorem State.updCopy_updWork (s : State) (first : Nat) (xs : List FVal) : UpdWork j.w.num s (s.updCopy j first xs) := by
  unfold State.updCopy
  split
  · exact UpdWork.refl _ s
  · split
    · extract_lets x t
      exact UpdWork.trans (t := t) (UpdWork.setShard rfl rfl) (UpdWork.foldl _ (fun u b => u.copyBlock_updWork j b) t)
    · exact s.copyRun_updWork ..

theorem State.updRun_updWork (s : State) (t first : Nat) (xs : List (Nat × Nat)) :
    UpdWork j.w.num s (s.updRun j t first xs) := by
  unfold State.updRun
  extract_lets r s1 shift os s2 s3 s4 s5
  have h1 : UpdWork j.w.num s s1 := (s.elemsIn_memWork ..).updWork _
  have h3 : UpdWork j.w.num s s3 := (h1.trans (State.putArray_updWork ..)).trans ((State.updWrite_memWork ..).updWork _)
  have h4 : UpdWork j.w.num s s4 := (h3.trans ((State.updWrite_memWork ..).updWork _)).ite h3
  exact ((h4.trans (UpdWork.setSum ..)).trans ((State.overflowIf_unitWork ..).updWork _)).trans (State.updCopy_updWork ..)

/-! ### Rows -/

theorem State.carryRun_memWork (s : State) (off first n : Nat) : MemWork s (s.carryRun j off first n) :=
  (s.updRead_memWork ..).trans (State.updWrite_memWork ..)

theorem State.carryElems_updWork (s : State) (first n : Nat) : UpdWork j.w.num s (s.carryElems j first n) := by
  unfold State.carryElems
  extract_lets c view e0 l t
  have ht : UpdWork j.w.num s t := ((s.loadData_memWork ..).updWork _).trans (State.putCopy_updWork ..)
  split
  · exact ht.trans (UpdWork.foldl _ (fun u b =>
      ((u.loadData_memWork ..).trans (State.storeScales_memWork ..)).updWork _) t)
  · exact ht

theorem State.carryRow_updWork (s : State) (r : Nat) : UpdWork j.w.num s (s.carryRow j r) := by
  unfold State.carryRow
  extract_lets n w s1 s2 s3 touched s4
  have h1 : UpdWork j.w.num s s1 := ((s.updRead_memWork ..).updWork _).trans (State.putArray_updWork ..)
  have h3 : UpdWork j.w.num s s3 := (h1.trans ((State.carryRun_memWork ..).updWork _)).trans
    ((State.carryRun_memWork ..).updWork _)
  refine UpdWork.trans (t := s4) ?_ ((State.carryRun_memWork ..).updWork _)
  refine h3.ite (UpdWork.ite (h3.trans (UpdWork.foldl _ (fun u b => ?_) s3)) (h3.trans (State.carryElems_updWork ..)))
  extract_lets size
  split
  · exact u.copyBlock_updWork j b
  · exact u.carryElems_updWork j ..

theorem State.updRow_updWork (s : State) (r : Nat) : UpdWork j.w.num s (s.updRow j r) := by
  unfold State.updRow
  extract_lets n mark touched done c s1 t gs s2 l
  have hmark : ∀ u, UpdWork j.w.num u (mark u) := fun u => UpdWork.setShard rfl rfl
  split
  · have h2 : UpdWork j.w.num s s2 := ((s.updRead_memWork ..).updWork _).trans (State.updRun_updWork ..)
    exact (h2.trans ((State.updWrite_memWork ..).updWork _)).trans (hmark _)
  · have hl : UpdWork j.w.num s l.1 := (s.loadData_memWork ..).updWork _
    split
    · exact (hl.trans (State.carryRow_updWork ..)).trans (hmark _)
    · exact hl

theorem State.updRows_updWork (s : State) (n : Nat) : UpdWork j.w.num s (s.updRows j n) := by
  unfold State.updRows
  extract_lets ready t x
  exact (UpdWork.foldl _ (fun u r => u.updRow_updWork j r) s).trans (UpdWork.setShard rfl rfl)

end

end Sys2Proof.Machine

namespace Sys2Proof.Machine

/-! ### A shard written -/

theorem State.post_kinds (s : State) (q : QueueEntry) (kind : Nat) (body : Bytes) : KindsKept s (s.post q kind body) := by
  unfold State.post
  extract_lets r
  split
  · exact (s.postRecord_kinds ..).trans (State.raise_memWork ..).kinds
  · exact s.postRecord_kinds ..

theorem KindsKept.ite {s t u : State} {p : Prop} [Decidable p] (h : KindsKept s t) (k : KindsKept s u) :
    KindsKept s (if p then t else u) := by
  split
  · exact h
  · exact k

theorem State.completeWindow_kinds (s : State) (w : Window) : KindsKept s (s.completeWindow w) := by
  unfold State.completeWindow
  extract_lets st t n st' u v
  have ht : KindsKept s t := (State.storeBy_memWork ..).kinds.ite (KindsKept.refl s)
  have hu : KindsKept s u := ht.trans (KindsKept.of_flows rfl)
  have hv : KindsKept s v := KindsKept.ite (hu.trans (State.boundExceeded_memWork _).kinds) hu
  split
  · exact hv.trans (State.post_kinds ..)
  · exact hv

/-- Records and events open no message of a gather. -/
theorem KindsKept.gatherPending {s t : State} (h : KindsKept s t) {n : Nat} (hn : s.gatherPending n = false) :
    t.gatherPending n = false := by
  unfold State.gatherPending at hn ⊢
  rw [List.any_eq_false] at hn ⊢
  intro f hf hm
  obtain ⟨m, hm, hk⟩ := List.any_eq_true.mp hm
  have hk' : m.kind = gatherKind n := by simpa using hk
  obtain ⟨g, hg, hm'⟩ := h.msgs f hf m hm (by rw [hk']; unfold gatherKind; omega)
  exact hn g hg (List.any_eq_true.mpr ⟨m, hm', hk⟩)

theorem State.gatherPending_congr {s t : State} (h : t.flows = s.flows) (n : Nat) : t.gatherPending n = s.gatherPending n := by
  unfold State.gatherPending
  rw [h]

theorem State.completeWindow_shards (s : State) (w : Window) : (s.completeWindow w).shards = s.shards := by
  unfold State.completeWindow
  extract_lets st t n st' u v
  have ht : t.shards = s.shards := ((State.storeBy_memWork ..).unitWork.ite (UnitWork.refl s)).shards
  have hv : v.shards = u.shards := ((State.boundExceeded_memWork _).unitWork.ite (UnitWork.refl u)).shards
  have hu : v.shards = s.shards := hv.trans ht
  split
  · exact (State.post_unitWork ..).shards.trans hu
  · exact hu

/-- A GATHERING shard settled: DONE when no gather is open. -/
theorem State.settleShard_spec {s : State} {j : Job} (h : (s.shard j.w.num).state = 5) :
    ((s.settleShard j).shard j.w.num).state = (if (s.settleShard j).gatherPending j.w.num then 5 else 6) ∧
    ((s.settleShard j).shard j.w.num).taken = (s.shard j.w.num).taken ∧ (s.settleShard j).verdicts = s.verdicts ∧
    (s.settleShard j).delivered = s.delivered := by
  unfold State.settleShard
  extract_lets x t
  have t1 : t.shard j.w.num = { s.shard j.w.num with state := 6 } := State.shard_setShard_self ..
  by_cases hp : s.gatherPending j.w.num = false
  · rw [if_pos ⟨h, hp⟩]
    have tp : t.gatherPending j.w.num = false := hp
    split
    · obtain ⟨c1, c2, -⟩ := t.completeWindow_spec j.w
      rw [(t.completeWindow_kinds j.w).gatherPending tp, State.shard_of_shards (t.completeWindow_shards j.w), t1]
      exact ⟨rfl, rfl, c1, c2⟩
    · rw [tp, t1]
      exact ⟨rfl, rfl, rfl, rfl⟩
  · rw [if_neg (fun q => hp q.2), if_pos (Bool.not_eq_false _ ▸ hp)]
    exact ⟨h, rfl, rfl, rfl⟩

theorem State.sendGather_unitWork (s : State) (j : Job) (x : Gather) : UnitWork s (s.sendGather j x) := by
  unfold State.sendGather
  extract_lets y cells
  exact UnitWork.foldl _ (fun u sp => u.sendMessage_unitWork ..) s

theorem State.settleCleared_spec {s : State} {j : Job} (h : (s.shard j.w.num).state = 5) :
    let t := (s.setShard j.w.num { s.shard j.w.num with outW := [], outC := [], exacts := [] }).settleShard j
    (t.shard j.w.num).state = (if t.gatherPending j.w.num then 5 else 6) ∧
    (t.shard j.w.num).taken = (s.shard j.w.num).taken ∧ t.verdicts = s.verdicts ∧ t.delivered = s.delivered := by
  obtain ⟨u, hu, u1, u2, u3, u4⟩ : ∃ u, u = s.setShard j.w.num { s.shard j.w.num with outW := [], outC := [], exacts := [] } ∧
      (u.shard j.w.num).state = 5 ∧ (u.shard j.w.num).taken = (s.shard j.w.num).taken ∧ u.verdicts = s.verdicts ∧
      u.delivered = s.delivered := by
    refine ⟨_, rfl, ?_, ?_, rfl, rfl⟩
    · rw [State.shard_setShard_self, h]
    · rw [State.shard_setShard_self]
  rw [← hu]
  obtain ⟨k1, k2, k3, k4⟩ := State.settleShard_spec u1
  exact ⟨k1, k2.trans u2, k3.trans u3, k4.trans u4⟩

/-- The lag bitmap of a TOUCHED shard written (R256). -/
def State.lagWritten (s : State) (j : Job) : State :=
  if j.g.touched then s.storeBy .update (s.viewAddr j.sh.optRegion j.sh.rowOff (4 * j.w.rowCount) true)
    (bitmapBytes j.w (s.win j.w.num).rows)
  else s

/-- A shard GATHERING, its gathers sent (R257). -/
def State.gathersSent (s : State) (j : Job) (gs : List Gather) : State :=
  gs.foldl (fun s g => s.sendGather j g) (s.setShard j.w.num { s.shard j.w.num with state := 5, grads := [] })

theorem State.shardWritten_eq (s : State) (j : Job) : ∃ gs, s.shardWritten j =
    (((s.lagWritten j).gathersSent j gs).setShard j.w.num
      { ((s.lagWritten j).gathersSent j gs).shard j.w.num with outW := [], outC := [], exacts := [] }).settleShard j :=
  ⟨_, rfl⟩

theorem State.gathersSent_spec (s : State) (j : Job) (gs : List Gather) :
    ((s.gathersSent j gs).shard j.w.num).state = 5 ∧
    ((s.gathersSent j gs).shard j.w.num).taken = (s.shard j.w.num).taken ∧ (s.gathersSent j gs).verdicts = s.verdicts ∧
    (s.gathersSent j gs).delivered = s.delivered := by
  unfold State.gathersSent
  generalize hu : s.setShard j.w.num { s.shard j.w.num with state := 5, grads := [] } = u
  have h := UnitWork.foldl gs (fun u g => u.sendGather_unitWork j g) u
  have eu : u.shard j.w.num = { s.shard j.w.num with state := 5, grads := [] } := by
    rw [← hu]
    exact State.shard_setShard_self ..
  have hv : u.verdicts = s.verdicts := by rw [← hu]; rfl
  have hd : u.delivered = s.delivered := by rw [← hu]; rfl
  rw [State.shard_of_shards h.shards, eu]
  exact ⟨rfl, rfl, h.verdicts.trans hv, h.delivered.trans hd⟩

/-- A shard wholly written (R256). -/
theorem State.shardWritten_spec (s : State) (j : Job) :
    ((s.shardWritten j).shard j.w.num).state = (if (s.shardWritten j).gatherPending j.w.num then 5 else 6) ∧
    ((s.shardWritten j).shard j.w.num).taken = (s.shard j.w.num).taken ∧ (s.shardWritten j).verdicts = s.verdicts ∧
    (s.shardWritten j).delivered = s.delivered := by
  have h1 : UnitWork s (s.lagWritten j) := (State.storeBy_memWork ..).unitWork.ite (UnitWork.refl s)
  obtain ⟨gs, hx⟩ := s.shardWritten_eq j
  rw [hx]
  obtain ⟨g1, g2, g3, g4⟩ := (s.lagWritten j).gathersSent_spec j gs
  obtain ⟨k1, k2, k3, k4⟩ := State.settleCleared_spec g1
  refine ⟨k1, k2.trans (g2.trans ?_), k3.trans (g3.trans h1.verdicts), k4.trans (g4.trans h1.delivered)⟩
  rw [State.shard_of_shards h1.shards]

/-! ### UPDATE_CHUNK -/

/-- A delivered chunk that an update engine serves. -/
def State.mineOf (s : State) (die : Die) (unit : UpdUnit) (d : Delivered) : Bool :=
  match s.job? d.window with
  | some j => j.w.die % 2 == die.val && j.sh.unit % 2 == unit.val
  | none => false

theorem exec_updateChunk_none {die : Die} {unit : UpdUnit} {s : State} (h : s.delivered.findIdx? (s.mineOf die unit) = none) :
    exec (.updateChunk die unit) s = .next s.quiet := by
  show execUpdateChunk die unit s = _
  unfold execUpdateChunk
  extract_lets q mine
  rw [show q.delivered.findIdx? mine = none from h]

theorem exec_updateChunk_some {die : Die} {unit : UpdUnit} {s : State} {i : Nat} {d : Delivered} {j : Job}
    (h : s.delivered.findIdx? (s.mineOf die unit) = some i) (hd : s.delivered[i]? = some d) (hj : s.job? d.window = some j) :
    exec (.updateChunk die unit) s = .next (({ s.quiet with delivered := s.delivered.eraseIdx i } : State).takeChunk j d) := by
  show execUpdateChunk die unit s = _
  unfold execUpdateChunk
  extract_lets q mine
  rw [show q.delivered.findIdx? mine = some i from h]
  dsimp only
  rw [show q.delivered[i]? = some d from hd]
  dsimp only
  rw [show ({ q with delivered := q.delivered.eraseIdx i } : State).job? d.window = some j from hj]
  rfl

theorem ShardSt.keep_grads (x : ShardSt) (n : Nat) (gs : List Nat) {i v : Nat} (h : gs[i]? = some v) :
    Bank.get (x.keep n gs).grads 0 (1024 * n + i) = v := by
  have hf : ∀ (l : List Nat) (b : Bank Nat) (k : Nat),
      (l.zipIdx k).foldl (fun b e => Bank.set b 0 (1024 * n + e.2) e.1) b =
        (l.zipIdx (1024 * n + k)).foldl (fun (b : Bank Nat) e => Bank.set b 0 e.2 e.1) b := by
    intro l
    induction l with
    | nil => exact fun _ _ => rfl
    | cons y l ih =>
      intro b k
      rw [List.zipIdx_cons, List.zipIdx_cons, List.foldl_cons, List.foldl_cons, ih]
      rfl
  unfold ShardSt.keep
  dsimp only
  rw [hf, Nat.add_zero, Bank.get_fill]
  obtain ⟨hl, hv⟩ := List.getElem?_eq_some_iff.mp h
  rw [if_pos ⟨Nat.le_add_right .., Nat.add_lt_add_left hl _⟩, Nat.add_sub_cancel_left, List.getD_eq_getElem?_getD, h]
  rfl

/-! ### A chunk taken -/

/-- A shard with a chunk taken. -/
def ShardSt.took (x : ShardSt) (n : Nat) : ShardSt := { x with taken := insertSorted n x.taken }

/-- The chunk's elements or the rows that it completes, updated (R237, R253). -/
def State.chunkUpdated (s : State) (j : Job) (d : Delivered) : State :=
  let y := (s.shard j.w.num).took d.chunk
  if j.g.touched then (s.setShard j.w.num { y.keep d.chunk d.values with state := 2 }).updRows j d.chunk
  else (s.setShard j.w.num { y with state := 2 }).updRun j (s.groupCount j.g.num) (1024 * d.chunk)
    (d.values.map (fun g => (g, 0)))

section
variable {s : State} {j : Job} {d : Delivered}

theorem State.takeChunk_idle (h1 : (s.shard j.w.num).state ≠ 1) (h2 : (s.shard j.w.num).state ≠ 2) : s.takeChunk j d = s := by
  unfold State.takeChunk
  extract_lets x
  exact if_pos ⟨h1, h2⟩

theorem State.takeChunk_matrix (h : (s.shard j.w.num).state = 1 ∨ (s.shard j.w.num).state = 2) (hs : j.g.shape = 3) :
    s.takeChunk j d = s.setShard j.w.num { ((s.shard j.w.num).took d.chunk).keep d.chunk d.values with
      state := if decide (j.w.chunkCount ≤ ((s.shard j.w.num).took d.chunk).taken.length) then 2 else 1 } := by
  unfold State.takeChunk
  extract_lets x y all
  rw [if_neg (by rintro ⟨q1, q2⟩; exact h.elim q1 q2), if_pos hs]
  rfl

theorem State.takeChunk_other (h : (s.shard j.w.num).state = 1 ∨ (s.shard j.w.num).state = 2) (hs : j.g.shape ≠ 3) :
    s.takeChunk j d = if decide (j.w.chunkCount ≤ ((s.shard j.w.num).took d.chunk).taken.length) then
      ((s.chunkUpdated j d).expectUpdate j).shardWritten j else (s.chunkUpdated j d).expectUpdate j := by
  unfold State.takeChunk
  extract_lets x y all
  rw [if_neg (by rintro ⟨q1, q2⟩; exact h.elim q1 q2), if_neg hs]
  rfl

end

theorem State.chunkUpdated_spec (s : State) (j : Job) (d : Delivered) :
    ((s.chunkUpdated j d).shard j.w.num).state = 2 ∧
    ((s.chunkUpdated j d).shard j.w.num).taken = ((s.shard j.w.num).took d.chunk).taken ∧
    (s.chunkUpdated j d).verdicts = s.verdicts ∧ (s.chunkUpdated j d).delivered = s.delivered ∧
    (s.chunkUpdated j d).now = s.now ∧ (s.chunkUpdated j d).obj oStepNow = s.obj oStepNow ∧
    (s.chunkUpdated j d).step.attempt = s.step.attempt := by
  have hw : ∀ x t, UpdWork j.w.num (s.setShard j.w.num x) t → x.state = 2 → x.taken = ((s.shard j.w.num).took d.chunk).taken →
      (t.shard j.w.num).state = 2 ∧ (t.shard j.w.num).taken = ((s.shard j.w.num).took d.chunk).taken ∧
      t.verdicts = s.verdicts ∧ t.delivered = s.delivered ∧ t.now = s.now ∧ t.obj oStepNow = s.obj oStepNow ∧
      t.step.attempt = s.step.attempt := by
    intro x t h h1 h2
    have e := s.shard_setShard_self j.w.num x
    exact ⟨by rw [h.state, e, h1], by rw [h.taken, e, h2], h.verdicts, h.delivered, h.now, h.obj _ (by decide), h.attempt⟩
  unfold State.chunkUpdated
  extract_lets y
  split
  · exact hw _ _ (State.updRows_updWork ..) rfl (insertSorted_idem ..)
  · exact hw _ _ (State.updRun_updWork ..) rfl rfl

/-- A chunk of another shape taken. -/
theorem State.takeChunk_other_spec {s : State} {j : Job} {d : Delivered}
    (h : (s.shard j.w.num).state = 1 ∨ (s.shard j.w.num).state = 2) (hs : j.g.shape ≠ 3) :
    let last := decide (j.w.chunkCount ≤ ((s.shard j.w.num).took d.chunk).taken.length)
    let u := s.chunkUpdated j d
    let t := s.takeChunk j d
    t.delivered = s.delivered ∧ (t.shard j.w.num).taken = ((s.shard j.w.num).took d.chunk).taken ∧
    t.verdicts = s.verdicts ++
      [⟨4, j.w.die % 2, j.sh.unit % 2, s.obj oStepNow, s.step.attempt, s.now, j.sh.bytes, j.w.num, Checks.none⟩] ∧
    (last = false → (t.shard j.w.num).state = 2 ∧ t.mem = u.mem) ∧
    (last = true → t = (u.expectUpdate j).shardWritten j ∧
      (t.shard j.w.num).state = (if t.gatherPending j.w.num then 5 else 6)) := by
  intro last u t
  obtain ⟨u1, u2, u3, u4, u5, u6, u7⟩ := s.chunkUpdated_spec j d
  obtain ⟨v, hv, v1, v2, v3, v4, v5⟩ : ∃ v, v = u.expectUpdate j ∧ v.verdicts = s.verdicts ++
      [⟨4, j.w.die % 2, j.sh.unit % 2, s.obj oStepNow, s.step.attempt, s.now, j.sh.bytes, j.w.num, Checks.none⟩] ∧
      v.delivered = s.delivered ∧ (v.shard j.w.num).taken = ((s.shard j.w.num).took d.chunk).taken ∧
      (v.shard j.w.num).state = 2 ∧ v.mem = u.mem := by
    refine ⟨_, rfl, ?_, u4, u2, u1, rfl⟩
    show u.verdicts ++ [⟨4, j.w.die % 2, j.sh.unit % 2, u.obj oStepNow, u.step.attempt, u.now, j.sh.bytes, j.w.num,
      Checks.none⟩] = _
    rw [u3, u5, u6, u7]
  have ht : t = if last then v.shardWritten j else v := by rw [hv]; exact State.takeChunk_other h hs
  clear_value t
  subst ht
  rw [← hv]
  cases hl : last
  · rw [if_neg Bool.noConfusion]
    exact ⟨v2, v3, v1, fun _ => ⟨v4, v5⟩, Bool.noConfusion⟩
  · rw [if_pos rfl]
    obtain ⟨w1, w2, w3, w4⟩ := v.shardWritten_spec j
    exact ⟨w4.trans v2, w2.trans v3, w3.trans v1, Bool.noConfusion, fun _ => ⟨rfl, w1⟩⟩

end Sys2Proof.Machine

namespace Sys2Proof.Machine

/-! ### The phases of a MATRIX shard -/

/-- Of shard `n` the budget kept alone may differ. -/
def CarryWork (n : Nat) (s t : State) : Prop := ∃ c, t.shard n = { s.shard n with carry := c }

theorem CarryWork.trans {n : Nat} {s t u : State} (h : CarryWork n s t) (k : CarryWork n t u) : CarryWork n s u := by
  obtain ⟨_, e⟩ := h
  obtain ⟨c, e'⟩ := k
  exact ⟨c, by rw [e', e]⟩

theorem CarryWork.of_shards {n : Nat} {s t : State} (h : t.shards = s.shards) : CarryWork n s t :=
  ⟨_, State.shard_of_shards h n⟩

theorem UnitWork.carryWork {s t : State} (h : UnitWork s t) (n : Nat) : CarryWork n s t := .of_shards h.shards

theorem State.drawBudget_carryWork (s : State) (j : Job) (key kind engine : Nat) (d : Bytes) (n : Nat) :
    CarryWork j.w.num s (s.drawBudget j key kind engine d n).1 := by
  unfold State.drawBudget
  extract_lets x kept t es r
  split
  · exact CarryWork.of_shards rfl
  · exact ⟨_, s.shard_setShard_self j.w.num _⟩

/-- The rows of a tile of the sequencer drained. -/
theorem State.seqDrain_unitWork {s : State} {m : MatrixD} {x : TileSt} {rows : List Nat} {acc : Bank (Option Nat)}
    {g : State × Bank (Option Nat) → Nat → Bank (Option Nat)} {q : State × Bank (Option Nat)}
    (h : q = rows.foldl (fun (a : State × Bank (Option Nat)) r =>
      (a.1.drainReports m x (a.1.drainRow m x 0 (a.1.scaleOf m.tensor) r) r false, g a r)) (s, acc)) : UnitWork s q.1 := by
  rw [h]
  exact UnitWork.foldlPair rows (fun a r =>
    a.1.drainReports_unitWork m x (a.1.drainRow m x 0 (a.1.scaleOf m.tensor) r) r false) (s, acc)

/-- A tile of the sequencer run and drained, on engine `k` with the descriptor `d`. -/
def State.seqTile (s : State) (j : Job) (p : Product) (acc : Bank (Option Nat)) (i k tile : Nat) (d : Bytes) (m : MatrixD) :
    State × Bank (Option Nat) :=
  let tc := max 1 (ceilDiv p.cols 64)
  let x := (upto m.blocks).foldl (fun x b =>
    enterBlock s m x (seqPanel j.g p.fa p.rows p.len (64 * (i / tc)) (16 * b))
      (seqPanel j.g p.fb p.cols p.len (64 * (i % tc)) (16 * b)) (min 16 (p.len - 16 * b)) b)
    (newTile m false)
  let s := s.overflowIf (x.cells.any (fun e => e.2.overflowed)) 0x02 m.tensor
  let r := (upto m.rows).foldl (fun (a : State × Bank (Option Nat)) r =>
    let cs := a.1.drainRow m x 0 (a.1.scaleOf m.tensor) r
    (a.1.drainReports m x cs r false,
     cs.zipIdx.foldl (fun b c => Bank.set b none (p.place (64 * (i / tc) + r) (64 * (i % tc) + c.2)) (some c.1.bits))
       a.2)) (s, acc)
  let s := r.1.setObj (oTileStatus k tile) (tileStatus x)
  let v : VerdictDue := ⟨1, k / 96, k % 96, s.stepNow, s.step.attempt, s.now, d, 0xFFFF,
    { tileChecks x with blocks := (strikeTerms [] x).blocks }⟩
  ({ s with verdicts := s.verdicts ++ [v] }, r.2)

theorem State.tileShown_shards (s : State) (k v : Nat) (l : List VerdictDue) :
    ({ s.setObj k v with verdicts := l } : State).shards = s.shards := rfl

theorem State.seqTile_carryWork (s : State) (j : Job) (p : Product) (acc : Bank (Option Nat)) (i k tile : Nat) (d : Bytes)
    (m : MatrixD) : CarryWork j.w.num s (s.seqTile j p acc i k tile d m).1 := by
  unfold State.seqTile
  extract_lets tc x s1 r s2 v
  have h1 : UnitWork s s1 := s.overflowIf_unitWork ..
  clear_value s1 x
  have hr : UnitWork s1 r.1 := State.seqDrain_unitWork rfl
  clear_value r
  exact ((h1.trans hr).carryWork _).trans (CarryWork.of_shards (State.tileShown_shards ..))

theorem State.matTile_eq (s : State) (j : Job) (p : Product) (acc : Bank (Option Nat)) (i : Nat) :
    s.matTile j p acc i =
      (let slot := j.slotIndex i
      let engine := j.slotEngine slot
      let k := engKey (j.w.die % 2) engine
      let e := s.eng k
      let tile := if e.lastTile = some 0 then 1 else 0
      let d := j.matrixBytes p tile i
      let m := matrixD d
      let fill := j.fillBytes (m.rows + m.cols) p.len
      let one := s.drawBudget j slot 0x01 engine d 1
      let two := one.1.drawBudget j 12 0x11 engine fill (sourceBytes 0x11 fill)
      if (one.2 && two.2) = false then (s.boundExceeded, acc)
      else
        let s := two.1
        let s := s.setEng k { s.eng k with lastTile := some tile }
        if s.runsVoid k ⟨d, false, 0, 0, 0, 0⟩ then (s.setObj (oTileStatus k tile) (2 ^ 33), acc)
        else s.seqTile j p acc i k tile d m) := by
  unfold State.matTile State.seqTile
  extract_lets
  with_reducible rfl

/-- What a tile does (R183, R244). -/
theorem State.matTile_cases (s : State) (j : Job) (p : Product) (acc : Bank (Option Nat)) (i : Nat) :
    ∃ (a b c e f : Nat) (d g : Bytes) (two : State × Bool) (u : State) (k tile : Nat) (m : MatrixD),
      two = (s.drawBudget j a b c d e).1.drawBudget j 12 0x11 f g (sourceBytes 0x11 g) ∧ u.shards = two.1.shards ∧
      (s.matTile j p acc i = (s.boundExceeded, acc) ∨ s.matTile j p acc i = (u.setObj (oTileStatus k tile) (2 ^ 33), acc) ∨
        s.matTile j p acc i = u.seqTile j p acc i k tile d m) := by
  rw [State.matTile_eq]
  extract_lets slot engine k e tile d m fill one two s1 e1 s2
  refine ⟨slot, 0x01, engine, 1, engine, d, fill, two, s2, k, tile, m, rfl, rfl, ?_⟩
  split
  · exact .inl rfl
  · split
    · exact .inr (.inl rfl)
    · exact .inr (.inr rfl)

theorem State.matTile_carryWork (s : State) (j : Job) (p : Product) (acc : Bank (Option Nat)) (i : Nat) :
    CarryWork j.w.num s (s.matTile j p acc i).1 := by
  obtain ⟨a, b, c, e, f, d, g, two, u, k, tile, m, h2, hu, hx⟩ := s.matTile_cases j p acc i
  have h : CarryWork j.w.num s u := by
    refine CarryWork.trans (t := two.1) ?_ (CarryWork.of_shards hu)
    rw [h2]
    exact (s.drawBudget_carryWork ..).trans (State.drawBudget_carryWork ..)
  rcases hx with hx | hx | hx
  · rw [hx]
    exact s.boundExceeded_memWork.unitWork.carryWork _
  · rw [hx]
    exact h.trans (CarryWork.of_shards (State.setObj_shards ..))
  · rw [hx]
    exact h.trans (u.seqTile_carryWork ..)

theorem State.drainProduct_unitWork (s : State) (p : Product) (xs : Bank (Option Nat)) : UnitWork s (s.drainProduct p xs) := by
  unfold State.drainProduct
  extract_lets ys
  split
  · exact (State.storeBy_memWork ..).unitWork
  · refine UnitWork.foldl _ (fun u e => ?_) s
    split
    · exact (State.storeBy_memWork ..).unitWork
    · exact UnitWork.refl u

theorem State.matMul_carryWork (s : State) (j : Job) (p : Product) : CarryWork j.w.num s (s.matMul j p) := by
  unfold State.matMul
  extract_lets narrow t r
  have ht : CarryWork j.w.num s t := (State.overflowIf_unitWork ..).carryWork _
  have hr : CarryWork j.w.num t r.1 :=
    List.foldlRecOn _ _ (motive := fun (a : State × Bank (Option Nat)) => CarryWork j.w.num t a.1)
      (CarryWork.of_shards rfl) (fun a ha i _ => ha.trans (a.1.matTile_carryWork ..))
  exact (ht.trans hr).trans ((State.drainProduct_unitWork ..).carryWork _)

theorem State.phaseProduct_memWork (s : State) (j : Job) : MemWork s (s.phaseProduct j).1 := by
  unfold State.phaseProduct
  extract_lets x n square shape l f l1 l2 y
  split
  · exact s.loadWords_memWork ..
  · split
    · exact s.loadWords_memWork ..
    · exact (s.loadWords_memWork ..).trans (State.loadWords_memWork ..)

/-- What a phase sets of its shard. -/
structure PhaseSet (n : Nat) (s t : State) (st it ph : Nat) : Prop where
  state : (t.shard n).state = st
  iteration : (t.shard n).iteration = it
  phase : (t.shard n).phase = ph
  grads : (t.shard n).grads = (s.shard n).grads

theorem PhaseSet.of_setShard {n : Nat} {s u : State} {x : ShardSt} (h : x.grads = (s.shard n).grads) :
    PhaseSet n s (u.setShard n x) x.state x.iteration x.phase := by
  refine ⟨?_, ?_, ?_, ?_⟩
  all_goals rw [State.shard_setShard_self]
  exact h

theorem State.passOne_spec (s : State) (j : Job) : PhaseSet j.w.num s (s.passOne j) 3 0 0 := by
  unfold State.passOne
  extract_lets x r ms s1 vs sum total nu x0 bad s2 y
  have h1 : UnitWork s s1 := ((s.elemsIn_memWork ..).trans (State.updWrite_memWork ..)).unitWork
  have h2 : UnitWork s s2 := (h1.trans (State.overflowIf_unitWork ..)).trans (State.storeBy_memWork ..).unitWork
  exact PhaseSet.of_setShard (show (s2.shard j.w.num).grads = _ by rw [State.shard_of_shards h2.shards])

theorem State.passP_spec (s : State) (j : Job) :
    PhaseSet j.w.num s (s.passP j) (s.shard j.w.num).state (s.shard j.w.num).iteration 3 := by
  unfold State.passP
  extract_lets n a a2 ys t x
  have h1 : UnitWork s a2.1 := ((s.loadWords_memWork ..).trans (State.loadWords_memWork ..)).unitWork
  have h2 : UnitWork s t := (h1.trans (State.overflowIf_unitWork ..)).trans (State.storeBy_memWork ..).unitWork
  have e := State.shard_of_shards h2.shards j.w.num
  rw [← e]
  have := PhaseSet.of_setShard (n := j.w.num) (s := s) (u := t) (x := { t.shard j.w.num with phase := 3, carry := [] }) (by rw [e])
  exact this

end Sys2Proof.Machine

namespace Sys2Proof.Machine

/-- P of an iteration is formed, its phase then the last (R243). -/
theorem State.iterate_two {s : State} {j : Job} (h : (s.shard j.w.num).phase = 2) : s.iterate j = s.passP j := by
  unfold State.iterate
  extract_lets x
  exact if_pos h

/-- A product of an iteration is run, and the next phase or iteration follows. -/
theorem State.iterate_product {s : State} {j : Job} (h : (s.shard j.w.num).phase ≠ 2) :
    ∃ u, CarryWork j.w.num s u ∧ s.iterate j = u.setShard j.w.num
      (if (s.shard j.w.num).phase < 2 then { u.shard j.w.num with phase := (s.shard j.w.num).phase + 1, carry := [] }
      else { u.shard j.w.num with
        phase := 0, carry := [], iteration := (s.shard j.w.num).iteration + 1
        state := if j.g.iterations ≤ (s.shard j.w.num).iteration + 1 then 4 else 3 }) := by
  unfold State.iterate
  extract_lets x p u y it
  refine ⟨u, ?_, if_neg h⟩
  exact ((s.phaseProduct_memWork j).unitWork.carryWork _).trans (State.matMul_carryWork ..)

theorem State.iterate_inner {s : State} {j : Job} (h : (s.shard j.w.num).phase < 3) :
    PhaseSet j.w.num s (s.iterate j) (s.shard j.w.num).state (s.shard j.w.num).iteration ((s.shard j.w.num).phase + 1) := by
  by_cases h2 : (s.shard j.w.num).phase = 2
  · rw [State.iterate_two h2, h2]
    exact s.passP_spec j
  · obtain ⟨u, ⟨c, hc⟩, hx⟩ := State.iterate_product h2
    rw [hx, if_pos (by omega)]
    refine ⟨?_, ?_, ?_, ?_⟩
    all_goals rw [State.shard_setShard_self]
    all_goals dsimp only
    all_goals rw [hc]

theorem State.iterate_last {s : State} {j : Job} (h : 3 ≤ (s.shard j.w.num).phase) :
    PhaseSet j.w.num s (s.iterate j) (if j.g.iterations ≤ (s.shard j.w.num).iteration + 1 then 4 else 3)
      ((s.shard j.w.num).iteration + 1) 0 := by
  obtain ⟨u, ⟨c, hc⟩, hx⟩ := State.iterate_product (s := s) (j := j) (by omega)
  rw [hx, if_neg (by omega)]
  refine ⟨?_, ?_, ?_, ?_⟩
  all_goals rw [State.shard_setShard_self]
  rw [hc]

theorem State.passTwo_eq (s : State) (j : Job) :
    ∃ u, UpdWork j.w.num s u ∧ s.passTwo j = (u.expectUpdate j).shardWritten j :=
  ⟨_, ((s.loadWords_memWork ..).updWork _).trans (State.updRun_updWork ..), rfl⟩

/-- Pass 2 updates every element, and the gathers go out (R243). -/
theorem State.passTwo_spec (s : State) (j : Job) :
    ((s.passTwo j).shard j.w.num).state = (if (s.passTwo j).gatherPending j.w.num then 5 else 6) ∧
    s.verdicts.length + 1 = (s.passTwo j).verdicts.length := by
  obtain ⟨u, hu, hx⟩ := s.passTwo_eq j
  rw [hx]
  obtain ⟨h1, -, h3, -⟩ := (u.expectUpdate j).shardWritten_spec j
  refine ⟨h1, ?_⟩
  rw [h3, ← hu.verdicts]
  show _ = (u.verdicts ++ [_]).length
  rw [List.length_append]
  rfl

/-! ### SHARD_PHASE_DONE -/

theorem exec_shardPhaseDone_none {window : W16} {s : State} (h : (s.job? window.toNat).all (fun j =>
      j.g.shape != 3 || [2, 3, 4].contains (s.shard j.w.num).state == false) = true) :
    exec (.shardPhaseDone window) s = .next s.quiet := by
  show execShardPhaseDone window s = _
  unfold execShardPhaseDone
  extract_lets q
  rw [show q.job? window.toNat = s.job? window.toNat from rfl]
  cases hj : s.job? window.toNat with
  | none => rfl
  | some j =>
    rw [hj] at h
    have hs : q.shard j.w.num = s.shard j.w.num := rfl
    dsimp only
    rw [hs]
    by_cases h3 : j.g.shape = 3
    · have h' : [2, 3, 4].contains (s.shard j.w.num).state = false := by simpa [h3] using h
      obtain ⟨n2, n3, n4⟩ : (s.shard j.w.num).state ≠ 2 ∧ (s.shard j.w.num).state ≠ 3 ∧ (s.shard j.w.num).state ≠ 4 := by
        simpa using h'
      rw [if_neg (Classical.not_not.mpr h3), if_neg n2, if_neg n3, if_neg n4]
    · exact if_pos h3

/-- A phase of a MATRIX shard ended, by the shard's state. -/
theorem exec_shardPhaseDone_some {window : W16} {s : State} {j : Job} (hj : s.job? window.toNat = some j) (h3 : j.g.shape = 3) :
    exec (.shardPhaseDone window) s = .next (if (s.shard j.w.num).state = 2 then s.quiet.passOne j
      else if (s.shard j.w.num).state = 3 then s.quiet.iterate j
      else if (s.shard j.w.num).state = 4 then s.quiet.passTwo j else s.quiet) := by
  show execShardPhaseDone window s = _
  unfold execShardPhaseDone
  extract_lets q
  rw [show q.job? window.toNat = some j from hj]
  dsimp only
  rw [if_neg (Classical.not_not.mpr h3), apply_ite Host.Outcome.next, apply_ite Host.Outcome.next, apply_ite Host.Outcome.next]
  rfl

/-- Settles O39: a chunk taken by its update engine, and the phases of a MATRIX shard. -/
theorem updateWork : Obligations.UpdateWork := by
  unfold Obligations.UpdateWork
  refine ⟨fun die unit s => ?_, fun window s => ⟨fun h => exec_shardPhaseDone_none h, fun j hj h3 => ?_⟩⟩
  · intro mine
    refine ⟨fun h => exec_updateChunk_none h, fun i d j hi hd hj => ?_⟩
    intro base x y last
    have hx : exec (.updateChunk die unit) s = .next (base.takeChunk j d) := exec_updateChunk_some hi hd hj
    refine ⟨fun h1 h2 => ?_, fun h hs => ⟨_, hx, ?_⟩, fun h hs => ?_⟩
    · rw [hx, State.takeChunk_idle (s := base) h1 h2]
    · rw [State.takeChunk_matrix (s := base) h hs]
      have e := base.shard_setShard_self j.w.num { y.keep d.chunk d.values with state := if last then 2 else 1 }
      refine ⟨rfl, ?_, rfl, fun _ _ => rfl, fun n v hv => ?_, ?_⟩
      · exact (congrArg ShardSt.taken e).trans (insertSorted_idem ..)
      · exact (congrArg (fun z => Bank.get (ShardSt.grads z) 0 (1024 * d.chunk + n)) e).trans (y.keep_grads _ _ hv)
      · exact congrArg ShardSt.state e
    · intro u
      exact ⟨_, hx, State.takeChunk_other_spec (s := base) h hs⟩
  · intro x next
    have hx := exec_shardPhaseDone_some hj h3
    have hn : ∀ (t : State) (st it ph : Nat), exec (.shardPhaseDone window) s = .next t →
        PhaseSet j.w.num s.quiet t st it ph → next st it ph := fun t st it ph e h => ⟨t, e, h.state, h.iteration, h.phase, h.grads⟩
    refine ⟨fun h => ?_, fun h hp => ?_, fun h hp => ?_, fun h => ?_⟩
    · rw [if_pos h] at hx
      exact hn _ _ _ _ hx (State.passOne_spec ..)
    · rw [if_neg (by rw [h]; decide), if_pos h] at hx
      have hi := State.iterate_inner (s := s.quiet) (j := j) hp
      rw [show (s.quiet.shard j.w.num).state = 3 from h] at hi
      exact hn _ _ _ _ hx hi
    · rw [if_neg (by rw [h]; decide), if_pos h] at hx
      exact hn _ _ _ _ hx (State.iterate_last (s := s.quiet) hp)
    · rw [if_neg (by rw [h]; decide), if_neg (by rw [h]; decide), if_pos h] at hx
      exact ⟨_, hx, s.quiet.passTwo_spec j⟩

end Sys2Proof.Machine

namespace Sys2Proof.Machine

/-! ### The correction and the states of the bell count -/

/-- A step of the count depends on its beat length, its count and its fraction alone. -/
theorem State.stepCount_bell {s t : State} (off : Int) (h0 : t.obj oBeatLengthUs = s.obj oBeatLengthUs)
    (h1 : t.bell.beat = s.bell.beat) (h2 : t.bell.off = s.bell.off) (h3 : t.bell.fracPs = s.bell.fracPs) :
    (t.stepCount off).bell.beat = (s.stepCount off).bell.beat ∧ (t.stepCount off).bell.off = (s.stepCount off).bell.off := by
  unfold State.stepCount State.beatNs
  dsimp only
  rw [h0, h1, h2, h3]
  exact ⟨rfl, rfl⟩

/-- What a correction leaves of the bell count's own counters. -/
structure Corrected (s t : State) : Prop where
  od : t.od = s.od
  mem : t.mem = s.mem
  now : t.now = s.now
  good : t.bell.good = s.bell.good
  bad : t.bell.bad = s.bell.bad
  holdGood : t.bell.holdGood = s.bell.holdGood
  lastValid : t.bell.lastValid = s.bell.lastValid

theorem State.correct_corrected (s : State) (off : Int) : Corrected s (s.correct off) := by
  unfold State.correct
  split
  · exact ⟨rfl, rfl, rfl, rfl, rfl, rfl, rfl⟩
  · exact ⟨rfl, rfl, rfl, rfl, rfl, rfl, rfl⟩

/-- Where the count stands after a correction: stepped by the offset, or to be steered (R481). -/
structure Moved (s : State) (off : Int) (stepped : Prop) [Decidable stepped] (t : State) : Prop where
  steer : t.bell.steerPs = if stepped then 0 else -off
  beat : t.bell.beat = (if stepped then s.stepCount off else s).bell.beat
  count : t.bell.off = (if stepped then s.stepCount off else s).bell.off

theorem Moved.of_bell {s t u : State} {off : Int} {stepped : Prop} [Decidable stepped] (h : Moved s off stepped t)
    (h1 : u.bell.steerPs = t.bell.steerPs) (h2 : u.bell.beat = t.bell.beat) (h3 : u.bell.off = t.bell.off) :
    Moved s off stepped u := ⟨h1.trans h.steer, h2.trans h.beat, h3.trans h.count⟩

/-- The same count, looked at from a state before: only the counters of exchanges differ. -/
structure SameCount (s t : State) : Prop where
  beat : t.bell.beat = s.bell.beat
  off : t.bell.off = s.bell.off
  frac : t.bell.fracPs = s.bell.fracPs
  length : t.obj oBeatLengthUs = s.obj oBeatLengthUs
  admitted : t.admitted = s.admitted

/-- The correction in ACQUIRING: a step when no plan is admitted and the offset is above 100 ns. -/
theorem State.correct_acquiring {s u : State} (h : SameCount s u) (off : Int) (ha : u.obj oBellState = bellAcquiring) :
    Moved s off (s.admitted = false ∧ 100000 < off.natAbs) (u.correct off) := by
  obtain ⟨b1, b2⟩ := State.stepCount_bell off h.length h.beat h.off h.frac
  unfold State.correct
  rw [h.admitted]
  by_cases hs : s.admitted = false ∧ 100000 < off.natAbs
  · rw [if_pos ⟨ha, hs⟩]
    refine ⟨?_, ?_, ?_⟩
    all_goals rw [if_pos hs]
    · rfl
    · exact b1
    · exact b2
  · rw [if_neg (fun q => hs q.2)]
    refine ⟨?_, ?_, ?_⟩
    all_goals rw [if_neg hs]
    · exact h.beat
    · exact h.off

/-- The correction in another state: every offset is steered out. -/
theorem State.correct_steered {s : State} (off : Int) (h : s.obj oBellState ≠ bellAcquiring) :
    s.correct off = { s with bell := { s.bell with steerPs := -off } } := by
  unfold State.correct
  exact if_neg (fun q => h q.1)

/-! ### The loss of lock -/

theorem planEndKeys_bell : oBellState ∉ planEndKeys ∧ oLockLossCount ∉ planEndKeys ∧ oHoldoverLimitUs ∉ planEndKeys := by
  decide +kernel

/-- The bell count left for ACQUIRING (R60, R61). -/
theorem State.unlock_spec (s : State) :
    let t := s.unlock
    t.obj oBellState = bellAcquiring ∧ t.admitted = false ∧ t.now = s.now ∧
    t.obj oLockLossCount = (if s.obj oBellState = bellLocked then (s.obj oLockLossCount + 1) % 2 ^ objBits oLockLossCount
      else s.obj oLockLossCount) ∧
    SameObj s t ([oBellState, oLockLossCount] ++ planEndKeys) ∧
    (s.admitted = false → SameObj s t ([oBellState, oLockLossCount] ++ eventKeys)) := by
  intro t
  obtain ⟨u, hu, u1, u2, u3, u4, u5⟩ : ∃ u, t = (if u.admitted then (u.raiseAt .bellUnlocked 0 3).classC
        else u.raiseAt .bellUnlocked 0 0) ∧ u.obj oBellState = bellAcquiring ∧ u.admitted = s.admitted ∧ u.now = s.now ∧
      SameObj s u [oBellState, oLockLossCount] ∧
      u.obj oLockLossCount = (if s.obj oBellState = bellLocked then (s.obj oLockLossCount + 1) % 2 ^ objBits oLockLossCount
        else s.obj oLockLossCount) := by
    obtain ⟨v, hv, v1, v2, v3⟩ : ∃ v, v = (if s.obj oBellState == bellLocked then s.bump oLockLossCount else s) ∧
        SameObj s v [oBellState, oLockLossCount] ∧ v.now = s.now ∧
        v.obj oLockLossCount = (if s.obj oBellState = bellLocked then (s.obj oLockLossCount + 1) % 2 ^ objBits oLockLossCount
          else s.obj oLockLossCount) := by
      refine ⟨_, rfl, ?_⟩
      by_cases hl : s.obj oBellState = bellLocked
      · rw [if_pos (beq_iff_eq.mpr hl), if_pos hl]
        exact ⟨(SameObj.refl s _).bump (by decide), rfl, State.bump_obj_self ..⟩
      · rw [if_neg (fun q => hl (beq_iff_eq.mp q)), if_neg hl]
        exact ⟨SameObj.refl s _, rfl, rfl⟩
    obtain ⟨w, hw, w1, w2, w3, w4⟩ : ∃ w, w = v.setObj oBellState bellAcquiring ∧ w.obj oBellState = bellAcquiring ∧
        SameObj s w [oBellState, oLockLossCount] ∧ w.now = s.now ∧ w.obj oLockLossCount = v.obj oLockLossCount :=
      ⟨_, rfl, State.obj_setObj_self .., v1.setObj _ (by decide), v2, State.obj_setObj_ne _ _ (by decide)⟩
    exact ⟨{ w with bell := { v.bell with good := 0, bad := 0, holdGood := 0 } }, by rw [hw, hv]; rfl, w1,
      State.admitted_congr (w2 _ (by decide)), w3, w2, w4.trans v3⟩
  clear_value t
  subst hu
  obtain ⟨p1, p2, -⟩ := planEndKeys_bell
  cases ha : u.admitted
  · rw [if_neg Bool.noConfusion]
    have hl := u.raiseAt_logs .bellUnlocked 0 0
    refine ⟨(hl.obj _ (by decide)).trans u1, (State.admitted_congr (hl.obj _ (by decide))).trans ha, hl.now.trans u3,
      (hl.obj _ (by decide)).trans u5, ?_, fun _ => ?_⟩
    · exact (u4.mono (by decide +kernel)).trans (hl.sameObj.mono (by decide +kernel))
    · exact (u4.mono (by decide)).trans (hl.sameObj.mono (by decide))
  · rw [if_pos rfl]
    have hl := u.raiseAt_logs .bellUnlocked 0 3
    generalize u.raiseAt .bellUnlocked 0 3 = r at hl
    obtain ⟨e1, e2⟩ := r.endPlan_frame
    refine ⟨(e2 _ p1).trans ((hl.obj _ (by decide)).trans u1), r.endPlan_admitted, e1.now.trans (hl.now.trans u3),
      (e2 _ p2).trans ((hl.obj _ (by decide)).trans u5), ?_, fun q => ?_⟩
    · exact (u4.mono (by decide +kernel)).trans ((hl.sameObj.mono (by decide +kernel)).trans (e2.mono (by decide +kernel)))
    · exact absurd (ha.symm.trans (u2.trans q)) Bool.noConfusion

end Sys2Proof.Machine

namespace Sys2Proof.Machine

/-! ### A valid exchange in each state of the count -/

/-- A valid exchange noted: its time and the depth that it shows. -/
def State.exchangeCounted (s : State) (depth : Nat) : State :=
  ({ s with bell := { s.bell with lastValid := s.now } } : State).setObj oBellDepth (depth + 1)

theorem State.exchangeCounted_spec (s : State) (depth : Nat) :
    (s.exchangeCounted depth).obj oBellDepth = depth + 1 ∧ SameObj s (s.exchangeCounted depth) [oBellDepth] ∧
    (s.exchangeCounted depth).bell = { s.bell with lastValid := s.now } ∧ (s.exchangeCounted depth).mem = s.mem ∧
    (s.exchangeCounted depth).now = s.now := by
  have h0 : SameObj s { s with bell := { s.bell with lastValid := s.now } } [oBellDepth] := SameObj.of_od rfl
  unfold State.exchangeCounted
  exact ⟨State.obj_setObj_self .., h0.setObj _ (List.mem_singleton.mpr rfl), State.setObj_bell .., State.setObj_mem ..,
    State.setObj_now ..⟩

section
variable {s : State} (off : Int) (depth : Nat)

theorem State.validExchange_unlocked (h : s.obj oBellState = bellUnlocked) :
    s.validExchange off depth = State.correct { (s.exchangeCounted depth).setObj oBellState bellAcquiring with
      bell := { (s.exchangeCounted depth).bell with good := if off.natAbs ≤ 2000 then 1 else 0, bad := 0 } } off := by
  unfold State.validExchange
  exact if_pos h

theorem State.validExchange_acquiring (h : s.obj oBellState = bellAcquiring) :
    let g := if off.natAbs ≤ 2000 then (s.exchangeCounted depth).bell.good + 1 else 0
    let t := State.correct { s.exchangeCounted depth with bell := { (s.exchangeCounted depth).bell with good := g } } off
    s.validExchange off depth = if 64 ≤ g then
      State.raise { t.setObj oBellState bellLocked with bell := { t.bell with good := 0, bad := 0 } } .bellLocked else t := by
  unfold State.validExchange
  rw [h]
  exact (if_neg (by decide)).trans (if_pos rfl)

theorem State.validExchange_locked (h : s.obj oBellState = bellLocked) :
    let b := if 4000 < off.natAbs then (s.exchangeCounted depth).bell.bad + 1 else 0
    let t := State.correct { s.exchangeCounted depth with bell := { (s.exchangeCounted depth).bell with bad := b } } off
    s.validExchange off depth = if 4 ≤ b then t.unlock else t := by
  unfold State.validExchange
  rw [h]
  exact (if_neg (by decide)).trans ((if_neg (by decide)).trans (if_pos rfl))

theorem State.validExchange_holdover (h : s.obj oBellState = bellHoldover) :
    let g := if off.natAbs ≤ 2000 then (s.exchangeCounted depth).bell.holdGood + 1 else 0
    let t := State.correct { s.exchangeCounted depth with bell := { (s.exchangeCounted depth).bell with holdGood := g } } off
    s.validExchange off depth = if 4 ≤ g then
      { t.setObj oBellState bellLocked with bell := { t.bell with holdGood := 0, bad := 0 } } else t := by
  unfold State.validExchange
  rw [h]
  exact (if_neg (by decide)).trans ((if_neg (by decide)).trans ((if_neg (by decide)).trans (if_pos rfl)))

end

/-! ### An exchange measured -/

/-- `t` is `s` after an exchange was measured on the parent port `p`: its offset and path delay shown. -/
structure Measured (s : State) (p : Nat) (off : Int) (t : State) : Prop where
  port : t.obj (oPortOffsetPs p) = i32Of off
  offset : t.obj oBellOffsetPs = i32Of off
  same : SameObj s t [oPortOffsetPs p, oBellOffsetPs, oBellPathDelayPs]
  bell : ∃ hd, t.bell = { s.bell with heard := hd }
  mem : t.mem = s.mem
  now : t.now = s.now

/-- The objects that an exchange may write beside those that show its measurement. -/
def exchangeKeys : List Nat := [oBellState, oBellDepth, oLockLossCount] ++ planEndKeys

theorem oPortOffsetPs_not_mem : ∀ p < 24, oPortOffsetPs p ∉ exchangeKeys ∧ oPortOffsetPs p ≠ oBellOffsetPs ∧
    oPortOffsetPs p ≠ oBellPathDelayPs := by decide +kernel

theorem State.hear_quiet (s : State) (p : Nat) : (s.quiet.hear p).od = s.od ∧ (s.quiet.hear p).mem = s.mem ∧
    (s.quiet.hear p).now = s.now ∧ ∃ hd, (s.quiet.hear p).bell = { s.bell with heard := hd } := ⟨rfl, rfl, rfl, _, rfl⟩

/-- An exchange's offset shown at its port. -/
def State.portMeasured (s : State) (p : Nat) (off : Int) : State := (s.quiet.hear p).setObj (oPortOffsetPs p) (i32Of off)

/-- The parent's exchange shown. -/
def State.parentMeasured (s : State) (p : Nat) (x : TimingExchange) (off : Int) : State :=
  ((s.portMeasured p off).setObj oBellOffsetPs (i32Of off)).setObj oBellPathDelayPs (satNat 32 (exchangeDelay x).toNat)

theorem State.portMeasured_spec (s : State) (p : Nat) (off : Int) :
    (s.portMeasured p off).obj (oPortOffsetPs p) = i32Of off ∧ SameObj s (s.portMeasured p off) [oPortOffsetPs p] ∧
    (∃ hd, (s.portMeasured p off).bell = { s.bell with heard := hd }) ∧ (s.portMeasured p off).mem = s.mem ∧
    (s.portMeasured p off).now = s.now := by
  obtain ⟨h1, h2, h3, hd, h4⟩ := s.hear_quiet p
  unfold State.portMeasured
  generalize s.quiet.hear p = u at h1 h2 h3 h4
  generalize i32Of off = v
  exact ⟨State.obj_setObj_self .., (SameObj.of_od h1).setObj v (List.mem_singleton.mpr rfl),
    ⟨hd, (State.setObj_bell ..).trans h4⟩, (State.setObj_mem ..).trans h2, (State.setObj_now ..).trans h3⟩

theorem State.parentMeasured_spec (s : State) {p : Nat} (hp : p < 24) (x : TimingExchange) (off : Int) :
    Measured s p off (s.parentMeasured p x off) := by
  obtain ⟨-, k1, k2⟩ := oPortOffsetPs_not_mem p hp
  obtain ⟨h1, h2, ⟨hd, h3⟩, h4, h5⟩ := s.portMeasured_spec p off
  unfold State.parentMeasured
  generalize s.portMeasured p off = u at h1 h2 h3 h4 h5
  generalize satNat 32 (exchangeDelay x).toNat = w
  obtain ⟨v, hv⟩ : ∃ v, v = i32Of off := ⟨_, rfl⟩
  rw [← hv] at h1 ⊢
  obtain ⟨a, ha, a1, a2, a3, a4, a5, a6⟩ : ∃ a, a = u.setObj oBellOffsetPs v ∧ a.obj oBellOffsetPs = v ∧
      a.obj (oPortOffsetPs p) = v ∧ a.bell = u.bell ∧ a.mem = u.mem ∧ SameObj u a [oBellOffsetPs] ∧ a.now = u.now :=
    ⟨_, rfl, State.obj_setObj_self .., (State.obj_setObj_ne _ _ k1).trans h1, State.setObj_bell .., State.setObj_mem ..,
      (SameObj.refl u _).setObj v (List.mem_singleton.mpr rfl), State.setObj_now ..⟩
  rw [← ha]
  refine ⟨(State.obj_setObj_ne _ _ k2).trans (a2.trans hv), (State.obj_setObj_ne _ _ (by decide)).trans (a1.trans hv), ?_,
    ⟨hd, (State.setObj_bell ..).trans (a3.trans h3)⟩, (State.setObj_mem ..).trans (a4.trans h4),
    (State.setObj_now ..).trans (a6.trans h5)⟩
  refine (h2.mono ?_).trans ((a5.mono ?_).trans ((SameObj.refl a _).setObj w ?_))
  all_goals simp

/-- The objects that decide what an exchange does; measuring it writes none of them. -/
def timeKeys : List Nat :=
  [oTimeRole, oTimeAltPort, oTimeParentPort, oBeatLengthUs, oBellState, oLockLossCount, oPlanState, oBellDepth]

theorem timeKeys_not_measured : ∀ p < 24, ∀ k ∈ timeKeys, k ∉ [oPortOffsetPs p, oBellOffsetPs, oBellPathDelayPs] := by
  decide +kernel

theorem timeKeys_ne_port {p : Nat} (hp : p < 24) {k : Nat} (hk : k ∈ timeKeys) : k ∉ [oPortOffsetPs p] := fun q =>
  timeKeys_not_measured p hp k hk (by rw [List.mem_singleton.mp q]; exact List.mem_cons_self ..)

theorem State.parentPort_congr {s t : State} (h : t.bell.useAlt = s.bell.useAlt) (h1 : t.obj oTimeAltPort = s.obj oTimeAltPort)
    (h2 : t.obj oTimeParentPort = s.obj oTimeParentPort) : t.parentPort = s.parentPort := by
  unfold State.parentPort
  rw [h, h1, h2]

theorem exchangeValid_congr {s t : State} (x : TimingExchange) (h : t.obj oBeatLengthUs = s.obj oBeatLengthUs) :
    exchangeValid t x = exchangeValid s x := by
  unfold exchangeValid
  rw [h]

theorem exec_timeExchange_other {port : Port} {x : TimingExchange} {s : State} (h : s.linkClass port.val ≠ 2) :
    exec (.timeExchange port x) s = .next s.quiet := by
  show execTimeExchange port x s = _
  unfold execTimeExchange
  exact if_pos h

section
variable {port : Port} {x : TimingExchange} {s : State} (h : s.linkClass port.val = 2)
include h

/-- An exchange on a matched port, after its offset is shown there. -/
theorem exec_timeExchange_matched :
    let off := exchangeOffset x (toSigned 32 (s.obj (oAsymmetryPs port.val)))
    let u := s.portMeasured port.val off
    exec (.timeExchange port x) s = if s.obj oTimeRole = 2 ∧ port.val = s.parentPort then
        .next (if exchangeValid s x then (s.parentMeasured port.val x off).validExchange off x.depth.toNat
          else (s.parentMeasured port.val x off).invalidExchange)
      else if u.obj oTimeRole = 2 ∧ (port.val = u.obj oTimeAltPort ∨ port.val = u.obj oTimeParentPort) then
        (if exchangeValid u x then .next { u with bell := { u.bell with altValid := u.now } } else .next u)
      else .next u := by
  intro off u
  have hp := port.isLt
  obtain ⟨-, h2, ⟨hd, h3⟩, -, -⟩ := s.portMeasured_spec port.val off
  have ho : ∀ k ∈ timeKeys, u.obj k = s.obj k := fun k hk => h2 k (timeKeys_ne_port hp hk)
  have hr : u.obj oTimeRole = s.obj oTimeRole := ho _ (by decide)
  have hpp : u.parentPort = s.parentPort := State.parentPort_congr
    (show (s.portMeasured port.val off).bell.useAlt = _ by rw [h3]) (ho _ (by decide)) (ho _ (by decide))
  have hv : exchangeValid (s.parentMeasured port.val x off) x = exchangeValid s x := exchangeValid_congr x
    ((s.parentMeasured_spec hp x off).same _ (timeKeys_not_measured _ hp _ (by decide)))
  rw [← hr, ← hpp, ← hv, apply_ite Host.Outcome.next]
  show execTimeExchange port x s = _
  unfold execTimeExchange
  exact if_neg (Classical.not_not.mpr h)

end

end Sys2Proof.Machine

namespace Sys2Proof.Machine

/-! ### What a valid exchange leaves -/

theorem Corrected.sameObj {s t : State} (h : Corrected s t) (ks : List Nat) : SameObj s t ks := SameObj.of_od h.od

section
variable {s u : State} (hs : SameCount s u) (off : Int) (depth : Nat)
include hs

/-- A state that differs in the counters of exchanges and in objects beside the beat length and the plan's state. -/
theorem SameCount.counted {v : State} {ks : List Nat} (h : SameObj u v ks) (hk : oBeatLengthUs ∉ ks) (hp : oPlanState ∉ ks)
    (h1 : v.bell.beat = u.bell.beat) (h2 : v.bell.off = u.bell.off) (h3 : v.bell.fracPs = u.bell.fracPs) : SameCount s v :=
  ⟨h1.trans hs.beat, h2.trans hs.off, h3.trans hs.frac, (h _ hk).trans hs.length,
    (State.admitted_congr (h _ hp)).trans hs.admitted⟩

theorem State.validExchange_unlocked_spec (h : u.obj oBellState = bellUnlocked) :
    let t := u.validExchange off depth
    t.obj oBellState = bellAcquiring ∧ t.obj oBellDepth = depth + 1 ∧ t.bell.good = (if off.natAbs ≤ 2000 then 1 else 0) ∧
    Moved s off (s.admitted = false ∧ 100000 < off.natAbs) t ∧ SameObj u t [oBellState, oBellDepth] := by
  intro t
  obtain ⟨c1, c2, c3, -, -⟩ := u.exchangeCounted_spec depth
  have ht : t = _ := State.validExchange_unlocked off depth h
  generalize u.exchangeCounted depth = c at c1 c2 c3 ht
  obtain ⟨w, hw, w1, w2, w3⟩ : ∃ w, w = c.setObj oBellState bellAcquiring ∧ w.obj oBellState = bellAcquiring ∧
      w.obj oBellDepth = depth + 1 ∧ SameObj u w [oBellState, oBellDepth] :=
    ⟨_, rfl, State.obj_setObj_self .., (State.obj_setObj_ne _ _ (by decide)).trans c1,
      (c2.mono (by decide)).setObj _ (by decide)⟩
  rw [← hw] at ht
  clear_value t
  subst ht
  generalize hv : ({ w with bell := { c.bell with good := if off.natAbs ≤ 2000 then 1 else 0, bad := 0 } } : State) = v
  have vo : ∀ k, v.obj k = w.obj k := fun k => State.obj_congr k (by rw [← hv])
  have vs : SameObj u v [oBellState, oBellDepth] := fun k hk => (vo k).trans (w3 k hk)
  have vb : v.bell = { u.bell with lastValid := u.now, good := if off.natAbs ≤ 2000 then 1 else 0, bad := 0 } := by
    rw [← hv, c3]
  have hk := v.correct_corrected off
  refine ⟨?_, ?_, ?_, ?_, vs.trans (hk.sameObj _)⟩
  · rw [State.obj_congr _ hk.od, vo, w1]
  · rw [State.obj_congr _ hk.od, vo, w2]
  · rw [hk.good, vb]
  · exact State.correct_acquiring (hs.counted vs (by decide) (by decide) (by rw [vb]) (by rw [vb]) (by rw [vb])) off
      ((vo _).trans w1)

theorem State.validExchange_acquiring_spec (h : u.obj oBellState = bellAcquiring) :
    let t := u.validExchange off depth
    let g := if off.natAbs ≤ 2000 then u.bell.good + 1 else 0
    t.obj oBellState = (if 64 ≤ g then bellLocked else bellAcquiring) ∧ t.bell.good = (if 64 ≤ g then 0 else g) ∧
    Moved s off (s.admitted = false ∧ 100000 < off.natAbs) t ∧ SameObj u t ([oBellState, oBellDepth] ++ eventKeys) := by
  intro t g
  obtain ⟨c1, c2, c3, -, -⟩ := u.exchangeCounted_spec depth
  have ht : t = _ := State.validExchange_acquiring off depth h
  have hg : g = if off.natAbs ≤ 2000 then (u.exchangeCounted depth).bell.good + 1 else 0 := by rw [c3]
  rw [← hg] at ht
  generalize u.exchangeCounted depth = c at c1 c2 c3 ht
  clear_value g t
  subst ht
  generalize hv : ({ c with bell := { c.bell with good := g } } : State) = v
  have vo : ∀ k, v.obj k = c.obj k := fun k => State.obj_congr k (by rw [← hv])
  have vs : SameObj u v [oBellDepth] := fun k hk => (vo k).trans (c2 k hk)
  have vb : v.bell = { u.bell with lastValid := u.now, good := g } := by rw [← hv, c3]
  have va : v.obj oBellState = bellAcquiring := (vs _ (by decide)).trans h
  have hk := v.correct_corrected off
  have hm := State.correct_acquiring (hs.counted vs (by decide) (by decide) (by rw [vb]) (by rw [vb]) (by rw [vb])) off va
  have kg : (v.correct off).bell.good = g := by rw [hk.good, vb]
  generalize v.correct off = k at hk hm kg
  have ks : SameObj u k [oBellDepth] := vs.trans (hk.sameObj _)
  by_cases h64 : 64 ≤ g
  · rw [if_pos h64, if_pos h64, if_pos h64]
    obtain ⟨w, hw, w1, w2, w3⟩ : ∃ w : State, w = { k.setObj oBellState bellLocked with
        bell := { k.bell with good := 0, bad := 0 } } ∧ w.obj oBellState = bellLocked ∧
        SameObj u w ([oBellState, oBellDepth] ++ eventKeys) ∧ w.bell = { k.bell with good := 0, bad := 0 } :=
      ⟨_, rfl, State.obj_setObj_self k oBellState bellLocked,
        SameObj.trans (t := k.setObj oBellState bellLocked) ((ks.mono (by decide)).setObj bellLocked (by decide))
          (SameObj.of_od rfl), rfl⟩
    rw [← hw]
    have hl := w.raise_logs .bellLocked
    refine ⟨(hl.obj _ (by decide)).trans w1, ?_, hm.of_bell ?_ ?_ ?_, w2.trans (hl.sameObj.mono (by decide))⟩
    all_goals rw [hl.bell, w3]
  · rw [if_neg h64, if_neg h64, if_neg h64]
    exact ⟨(State.obj_congr _ hk.od).trans va, kg, hm, ks.mono (by decide)⟩

end

section
variable {u : State} (off : Int) (depth : Nat)

theorem State.validExchange_locked_few {b : Nat} (h : u.obj oBellState = bellLocked)
    (hb : b = if 4000 < off.natAbs then u.bell.bad + 1 else 0) (h4 : b < 4) :
    let t := u.validExchange off depth
    t.obj oBellState = bellLocked ∧ t.bell.bad = b ∧ t.bell.lastValid = u.now ∧ t.bell.steerPs = -off ∧
    t.bell.beat = u.bell.beat ∧ t.bell.off = u.bell.off ∧ SameObj u t [oBellDepth] ∧ t.mem = u.mem := by
  intro t
  obtain ⟨-, c2, c3, c4, -⟩ := u.exchangeCounted_spec depth
  have ht : t = _ := State.validExchange_locked off depth h
  rw [show (if 4000 < off.natAbs then (u.exchangeCounted depth).bell.bad + 1 else 0) = b by rw [c3, hb],
    if_neg (Nat.not_le.mpr h4)] at ht
  generalize u.exchangeCounted depth = c at c2 c3 c4 ht
  have ca : c.obj oBellState = bellLocked := (c2 _ (by decide)).trans h
  generalize hv : ({ c with bell := { c.bell with bad := b } } : State) = v at ht
  rw [State.correct_steered (s := v) off (by rw [State.obj_congr (s := c) _ (by rw [← hv]), ca]; decide), ← hv, c3] at ht
  clear_value t
  subst ht
  exact ⟨ca, rfl, rfl, rfl, rfl, rfl, c2.trans (SameObj.of_od rfl), c4⟩

theorem State.validExchange_locked_many {b : Nat} (h : u.obj oBellState = bellLocked)
    (hb : b = if 4000 < off.natAbs then u.bell.bad + 1 else 0) (h4 : 4 ≤ b) :
    let t := u.validExchange off depth
    t.obj oBellState = bellAcquiring ∧ t.admitted = false ∧
    t.obj oLockLossCount = (u.obj oLockLossCount + 1) % 2 ^ objBits oLockLossCount ∧ SameObj u t exchangeKeys ∧
    (u.admitted = false → SameObj u t ([oBellState, oLockLossCount, oBellDepth] ++ eventKeys)) := by
  intro t
  obtain ⟨-, c2, c3, -, -⟩ := u.exchangeCounted_spec depth
  have ht : t = _ := State.validExchange_locked off depth h
  rw [show (if 4000 < off.natAbs then (u.exchangeCounted depth).bell.bad + 1 else 0) = b by rw [c3, hb], if_pos h4] at ht
  generalize u.exchangeCounted depth = c at c2 c3 ht
  generalize hv : ({ c with bell := { c.bell with bad := b } } : State) = v at ht
  have vs : SameObj u v [oBellDepth] := c2.trans (SameObj.of_od (by rw [← hv]))
  have ks : SameObj u (v.correct off) [oBellDepth] := vs.trans ((v.correct_corrected off).sameObj _)
  generalize v.correct off = k at ht ks
  obtain ⟨u1, u2, -, u3, u4, u5⟩ := k.unlock_spec
  rw [if_pos ((ks _ (by decide)).trans h)] at u3
  clear_value t
  subst ht
  refine ⟨u1, u2, ?_, (ks.mono (by decide +kernel)).trans (u4.mono (by decide +kernel)), fun ha => ?_⟩
  · rw [u3, ks _ (by decide)]
  · exact (ks.mono (by decide)).trans ((u5 ((State.admitted_congr (ks _ (by decide))).trans ha)).mono (by decide))

theorem State.validExchange_holdover_spec {g : Nat} (h : u.obj oBellState = bellHoldover)
    (hg : g = if off.natAbs ≤ 2000 then u.bell.holdGood + 1 else 0) :
    let t := u.validExchange off depth
    t.obj oBellState = (if 4 ≤ g then bellLocked else bellHoldover) ∧ t.bell.holdGood = (if 4 ≤ g then 0 else g) ∧
    t.bell.steerPs = -off ∧ t.bell.beat = u.bell.beat ∧ t.bell.off = u.bell.off ∧ SameObj u t [oBellState, oBellDepth] ∧
    t.mem = u.mem := by
  intro t
  obtain ⟨-, c2, c3, c4, -⟩ := u.exchangeCounted_spec depth
  have ht : t = _ := State.validExchange_holdover off depth h
  rw [show (if off.natAbs ≤ 2000 then (u.exchangeCounted depth).bell.holdGood + 1 else 0) = g by rw [c3, hg]] at ht
  generalize u.exchangeCounted depth = c at c2 c3 c4 ht
  have ca : c.obj oBellState = bellHoldover := (c2 _ (by decide)).trans h
  generalize hv : ({ c with bell := { c.bell with holdGood := g } } : State) = v at ht
  rw [State.correct_steered (s := v) off (by rw [State.obj_congr (s := c) _ (by rw [← hv]), ca]; decide), ← hv, c3] at ht
  clear_value t
  subst ht
  by_cases h4 : 4 ≤ g
  · rw [if_pos h4, if_pos h4, if_pos h4]
    exact ⟨State.obj_setObj_self c oBellState bellLocked, rfl, rfl, rfl, rfl,
      SameObj.trans (t := c.setObj oBellState bellLocked) ((c2.mono (by decide)).setObj bellLocked (by decide))
        (SameObj.of_od rfl), c4⟩
  · rw [if_neg h4, if_neg h4, if_neg h4]
    exact ⟨ca, rfl, rfl, rfl, rfl, (c2.mono (by decide)).trans (SameObj.of_od rfl), c4⟩

end

end Sys2Proof.Machine

namespace Sys2Proof.Machine

/-! ### An exchange on the parent's port -/

theorem oBellOffsetPs_not_mem : oBellOffsetPs ∉ exchangeKeys := by decide +kernel

section
variable {s u : State} {p : Nat} {off : Int} (hm : Measured s p off u) (hp : p < 24)
include hm hp

theorem Measured.timeKey {k : Nat} (hk : k ∈ timeKeys) : u.obj k = s.obj k := hm.same _ (timeKeys_not_measured p hp k hk)

/-- Work that leaves the measurement's objects leaves them shown. -/
theorem Measured.read {t : State} {ks : List Nat} (h : SameObj u t ks) (hk : ∀ k ∈ ks, k ∈ exchangeKeys) :
    t.obj (oPortOffsetPs p) = i32Of off ∧ t.obj oBellOffsetPs = i32Of off :=
  ⟨(h _ fun q => (oPortOffsetPs_not_mem p hp).1 (hk _ q)).trans hm.port,
    (h _ fun q => oBellOffsetPs_not_mem (hk _ q)).trans hm.offset⟩

theorem Measured.sameCount : SameCount s u := by
  obtain ⟨hd, hb⟩ := hm.bell
  exact ⟨by rw [hb], by rw [hb], by rw [hb], hm.timeKey hp (by decide), State.admitted_congr (hm.timeKey hp (by decide))⟩

end

/-- The objects that the measurement of an exchange shows, and the depth. -/
def shownKeys (p : Nat) : List Nat := [oPortOffsetPs p, oBellOffsetPs, oBellPathDelayPs, oBellDepth]

theorem Measured.sameObj {s u t : State} {p : Nat} {off : Int} {ks js : List Nat} (hm : Measured s p off u) (h : SameObj u t ks)
    (h1 : ∀ k ∈ shownKeys p, k ∈ js) (h2 : ∀ k ∈ ks, k ∈ js) : SameObj s t js := by
  refine (hm.same.mono fun k hk => h1 k ?_).trans (h.mono h2)
  simp only [shownKeys, List.mem_cons, List.not_mem_nil, or_false] at hk ⊢
  grind

theorem exec_timeExchange_parent {port : Port} {x : TimingExchange} {s : State} (h : s.linkClass port.val = 2)
    (hr : s.obj oTimeRole = 2) (hp : port.val = s.parentPort) :
    ∃ u, Measured s port.val (exchangeOffset x (toSigned 32 (s.obj (oAsymmetryPs port.val)))) u ∧
      exec (.timeExchange port x) s = .next (if exchangeValid s x then
        u.validExchange (exchangeOffset x (toSigned 32 (s.obj (oAsymmetryPs port.val)))) x.depth.toNat
        else u.invalidExchange) := by
  refine ⟨_, s.parentMeasured_spec port.isLt x _, ?_⟩
  exact (exec_timeExchange_matched (x := x) h).trans (if_pos ⟨hr, hp⟩)

/-- An exchange on another port (R58). -/
theorem timeExchange_beside {port : Port} {x : TimingExchange} {s : State} (h : s.linkClass port.val = 2)
    (hp : port.val ≠ s.parentPort) :
    Gives (.timeExchange port x) s (fun t =>
      t.obj (oPortOffsetPs port.val) = i32Of (exchangeOffset x (toSigned 32 (s.obj (oAsymmetryPs port.val)))) ∧
      SameObj s t [oPortOffsetPs port.val] ∧ t.mem = s.mem ∧
      t.bell.beat = s.bell.beat ∧ t.bell.steerPs = s.bell.steerPs ∧ t.bell.useAlt = s.bell.useAlt) := by
  have hx := (exec_timeExchange_matched (x := x) h).trans (if_neg (fun q => hp q.2))
  obtain ⟨u1, u2, ⟨hd, u3⟩, u4, -⟩ := s.portMeasured_spec port.val
    (exchangeOffset x (toSigned 32 (s.obj (oAsymmetryPs port.val))))
  generalize s.portMeasured port.val (exchangeOffset x (toSigned 32 (s.obj (oAsymmetryPs port.val)))) = u at hx u1 u2 u3 u4
  have hg : ∀ t : State, t.od = u.od → t.mem = u.mem → t.bell.beat = u.bell.beat → t.bell.steerPs = u.bell.steerPs →
      t.bell.useAlt = u.bell.useAlt → t.obj (oPortOffsetPs port.val) =
        i32Of (exchangeOffset x (toSigned 32 (s.obj (oAsymmetryPs port.val)))) ∧ SameObj s t [oPortOffsetPs port.val] ∧
      t.mem = s.mem ∧ t.bell.beat = s.bell.beat ∧ t.bell.steerPs = s.bell.steerPs ∧ t.bell.useAlt = s.bell.useAlt := by
    intro t h1 h2 h3 h4 h5
    exact ⟨(State.obj_congr _ h1).trans u1, u2.trans (SameObj.of_od h1), h2.trans u4, by rw [h3, u3], by rw [h4, u3],
      by rw [h5, u3]⟩
  split at hx
  · split at hx
    · exact ⟨_, hx, hg _ rfl rfl rfl rfl rfl⟩
    · exact ⟨_, hx, hg _ rfl rfl rfl rfl rfl⟩
  · exact ⟨_, hx, hg _ rfl rfl rfl rfl rfl⟩

/-- An invalid exchange outside LOCKED and HOLDOVER corrects nothing. -/
theorem State.invalidExchange_spec (s : State) :
    (s.obj oBellState = bellLocked ∨ s.obj oBellState = bellHoldover → s.invalidExchange = s.unlock) ∧
    (s.obj oBellState ≠ bellLocked → s.obj oBellState ≠ bellHoldover →
      s.invalidExchange = { s with bell := { s.bell with good := 0 } }) := by
  unfold State.invalidExchange
  exact ⟨fun h => if_pos h, fun h1 h2 => if_neg (fun q => q.elim h1 h2)⟩

/-! ### The bell count's own timers -/

/-- Time moved on to a moment: no object, byte of memory or output changes. -/
theorem State.quiet_advanceTo (s : State) (t : Nat) : ∃ u, s.quiet.advanceTo t = u ∧ t ≤ u.now ∧ u.od = s.od ∧ u.mem = s.mem ∧
    u.out = [] ∧ u.bell.useAlt = s.bell.useAlt := ⟨_, rfl, s.quiet.advanceTo_le _, rfl, rfl, rfl, rfl⟩

theorem exec_timeSend_down {s : State} (h : s.fnDown .timebase = true) : exec .timeSend s = .next s.quiet := by
  show execTimeSend s = _
  unfold execTimeSend
  exact if_pos h

theorem exec_timeSend_up {s : State} (h : s.fnDown .timebase = false) :
    let u := s.quiet.advanceTo (s.bell.lastSend + 250000)
    let v : State := { u with bell := { u.bell with lastSend := u.now } }
    exec .timeSend s = .next { v with
      out := v.out ++ v.timePorts.map (fun p => .frame p (frameBytes 0x02 none (timeBody v p))) } := by
  show execTimeSend s = _
  unfold execTimeSend
  exact if_neg (Bool.not_eq_true _ ▸ h)

/-- A follower's parent port takes part in exchanges. -/
theorem State.parentPort_mem_timePorts {s : State} (hr : s.obj oTimeRole = 2) (hp : s.parentPort < 24)
    (hc : s.linkClass s.parentPort = 2) : s.parentPort ∈ s.timePorts := by
  unfold State.timePorts
  refine List.mem_filter.mpr ⟨List.mem_range.mpr hp, ?_⟩
  have he : s.parentPort = s.obj oTimeParentPort ∨ s.parentPort = s.obj oTimeAltPort := by
    unfold State.parentPort
    split
    · exact .inr rfl
    · exact .inl rfl
  rw [hc, hr]
  simp [he]

theorem timeSend_gives {s : State} (h : s.fnDown .timebase = false) :
    Gives .timeSend s (fun t => s.bell.lastSend + 250000 ≤ t.now ∧ t.bell.lastSend = t.now ∧
      t.out = t.timePorts.map (fun p => .frame p (frameBytes 0x02 none (timeBody t p))) ∧
      (s.obj oTimeRole = 2 → s.parentPort < 24 → s.linkClass s.parentPort = 2 → s.parentPort ∈ t.timePorts) ∧
      t.od = s.od ∧ t.mem = s.mem) := by
  have hx := exec_timeSend_up h
  obtain ⟨u, hu, u1, u2, u3, u4, u5⟩ := s.quiet_advanceTo (s.bell.lastSend + 250000)
  rw [hu] at hx
  clear hu
  refine ⟨_, hx, u1, rfl, ?_, fun h1 h2 h3 => ?_, u2, u3⟩
  · show u.out ++ _ = _
    rw [u4]
    rfl
  · have ho : ∀ k, u.obj k = s.obj k := fun k => State.obj_congr k u2
    have hp : u.parentPort = s.parentPort := State.parentPort_congr u5 (ho _) (ho _)
    rw [← hp] at h2 h3 ⊢
    refine State.parentPort_mem_timePorts (s := { u with bell := { u.bell with lastSend := u.now }, out := _ }) ?_ h2 ?_
    · exact (ho _).trans h1
    · refine Eq.trans ?_ h3
      show bits (u.obj _) 0 8 = bits (s.obj _) 0 8
      rw [ho]
      rfl

theorem State.holdover_spec (s : State) :
    s.holdover.obj oBellState = bellHoldover ∧ s.holdover.now = s.now ∧ s.holdover.bell.holdSince = s.now ∧
    s.holdover.obj oLockLossCount = (s.obj oLockLossCount + 1) % 2 ^ objBits oLockLossCount ∧
    SameObj s s.holdover ([oBellState, oLockLossCount] ++ eventKeys) := by
  obtain ⟨u, hu, u1, u2, u3, u4⟩ : ∃ u : State, u = (s.bump oLockLossCount).setObj oBellState bellHoldover ∧
      u.obj oBellState = bellHoldover ∧ u.now = s.now ∧
      u.obj oLockLossCount = (s.obj oLockLossCount + 1) % 2 ^ objBits oLockLossCount ∧
      SameObj s u [oBellState, oLockLossCount] :=
    ⟨_, rfl, State.obj_setObj_self .., rfl, (State.obj_setObj_ne _ _ (by decide)).trans (State.bump_obj_self ..),
      ((SameObj.refl s _).bump (by decide)).setObj _ (by decide)⟩
  obtain ⟨alt, hx⟩ : ∃ alt, s.holdover = State.raise { u with bell := { u.bell with
      holdSince := u.now, holdGood := 0, bad := 0, useAlt := alt } } .bellHoldover := ⟨_, by rw [hu]; rfl⟩
  rw [hx]
  clear hx hu
  generalize hv : ({ u with bell := { u.bell with holdSince := u.now, holdGood := 0, bad := 0, useAlt := alt } } : State) = v
  have vo : ∀ k, v.obj k = u.obj k := fun k => State.obj_congr k (by rw [← hv])
  have hl := v.raise_logs .bellHoldover
  refine ⟨?_, ?_, ?_, ?_, ?_⟩
  · rw [hl.obj _ (by decide), vo, u1]
  · rw [hl.now, ← hv, u2]
  · rw [hl.bell, ← hv, u2]
  · rw [hl.obj _ (by decide), vo, u3]
  · exact (u4.mono (by decide)).trans ((SameObj.of_od (t := v) (by rw [← hv])).trans (hl.sameObj.mono (by decide)))

end Sys2Proof.Machine

namespace Sys2Proof.Machine

theorem exec_bellHoldover_other {s : State} (h : s.obj oBellState ≠ bellLocked) : exec .bellHoldover s = .next s.quiet := by
  show execBellHoldover s = _
  unfold execBellHoldover
  exact if_neg h

theorem exec_bellHoldover_locked {s : State} (h : s.obj oBellState = bellLocked) :
    exec .bellHoldover s = .next (s.quiet.advanceTo (s.bell.lastValid + 1000000)).holdover := by
  show execBellHoldover s = _
  unfold execBellHoldover
  rw [← show s.quiet.bell.lastValid = s.bell.lastValid from rfl]
  exact if_pos h

theorem exec_holdoverLimit_other {s : State} (h : s.obj oBellState ≠ bellHoldover) :
    exec .holdoverLimit s = .next s.quiet := by
  show execHoldoverLimit s = _
  unfold execHoldoverLimit
  exact if_neg h

theorem exec_holdoverLimit_holdover {s : State} (h : s.obj oBellState = bellHoldover) :
    exec .holdoverLimit s = .next (s.quiet.advanceTo (s.bell.holdSince + s.obj oHoldoverLimitUs * 1000 + 1)).unlock := by
  show execHoldoverLimit s = _
  unfold execHoldoverLimit
  exact if_pos h

/-- LOCKED to HOLDOVER (R60). -/
theorem bellHoldover_gives {s : State} (h : s.obj oBellState = bellLocked) :
    Gives .bellHoldover s (fun t => t.obj oBellState = bellHoldover ∧ s.bell.lastValid + 1000000 ≤ t.now ∧
      t.bell.holdSince = t.now ∧ t.obj oLockLossCount = (s.obj oLockLossCount + 1) % 2 ^ objBits oLockLossCount ∧
      SameObj s t ([oBellState, oLockLossCount] ++ eventKeys)) := by
  have hx := exec_bellHoldover_locked h
  obtain ⟨u, hu, hle, ho, -⟩ := s.quiet_advanceTo (s.bell.lastValid + 1000000)
  rw [hu] at hx
  refine ⟨_, hx, ?_⟩
  obtain ⟨h1, h2, h3, h4, h5⟩ := u.holdover_spec
  exact ⟨h1, Nat.le_trans hle (Nat.le_of_eq h2.symm), h3.trans h2.symm, by rw [h4, State.obj_congr _ ho], (SameObj.of_od ho).trans h5⟩

/-- Holdover longer than its limit (R60, R61). -/
theorem holdoverLimit_gives {s : State} (h : s.obj oBellState = bellHoldover) :
    Gives .holdoverLimit s (fun t => t.obj oBellState = bellAcquiring ∧ t.admitted = false ∧
      s.bell.holdSince + s.obj oHoldoverLimitUs * 1000 < t.now ∧
      (s.admitted = false → SameObj s t (oBellState :: eventKeys))) := by
  have hx := exec_holdoverLimit_holdover h
  obtain ⟨u, hu, hle, ho, -⟩ := s.quiet_advanceTo (s.bell.holdSince + s.obj oHoldoverLimitUs * 1000 + 1)
  rw [hu] at hx
  refine ⟨_, hx, ?_⟩
  obtain ⟨h1, h2, h3, h4, -, h5⟩ := u.unlock_spec
  refine ⟨h1, h2, Nat.lt_of_lt_of_eq hle h3.symm, fun ha k hk => ?_⟩
  by_cases hl : k = oLockLossCount
  · rw [hl, h4, if_neg (by rw [State.obj_congr _ ho, h]; decide), State.obj_congr _ ho]
  · refine (h5 ((State.admitted_congr (State.obj_congr _ ho)).trans ha) k fun q => hk ?_).trans (State.obj_congr _ ho)
    rcases List.mem_append.mp q with q | q
    · rcases List.mem_cons.mp q with q | q
      · exact q ▸ List.mem_cons_self ..
      · exact absurd (List.mem_singleton.mp q) hl
    · exact List.mem_cons_of_mem _ q

theorem eventKeys_sub_exchangeKeys : ∀ k ∈ eventKeys, k ∈ exchangeKeys := by decide +kernel

/-- Settles O50: an exchange by the state of the count, and the count's own timers. -/
theorem bellCount : Obligations.BellCount := by
  unfold Obligations.BellCount
  refine ⟨fun port x s => ?_, fun s => ⟨fun h => timeSend_gives h, fun h => exec_timeSend_down h,
    fun h => bellHoldover_gives h, fun h => exec_bellHoldover_other h, fun h => holdoverLimit_gives h,
    fun h => exec_holdoverLimit_other h⟩⟩
  intro p off m shown drives stepped moved steered read
  have hp := port.isLt
  refine ⟨fun h => exec_timeExchange_other h, fun h hr => ?_, fun h _ hpp => timeExchange_beside h hpp,
    fun ⟨h, hr, hpp⟩ hv => ?_, fun ⟨h, hr, hpp⟩ hv => ?_⟩
  · have hx := (exec_timeExchange_matched (x := x) h).trans (if_neg (fun q => hr q.1))
    have ht : (s.portMeasured p off).obj oTimeRole = s.obj oTimeRole :=
      (s.portMeasured_spec p off).2.1 _ (timeKeys_ne_port hp (by decide))
    exact hx.trans (if_neg (fun q => hr (ht.symm.trans q.1)))
  · obtain ⟨u, hm, hx⟩ := exec_timeExchange_parent (x := x) h hr hpp
    rw [if_pos hv] at hx
    have hb : u.obj oBellState = s.obj oBellState := hm.timeKey hp (by decide)
    have hc := hm.sameCount hp
    obtain ⟨hd, hbell⟩ := hm.bell
    refine ⟨fun hst => ?_, fun hst => ?_, fun hst => ?_, fun hst => ?_⟩
    · obtain ⟨t1, t2, t3, t4, t5⟩ := State.validExchange_unlocked_spec hc off x.depth.toNat (hb.trans hst)
      obtain ⟨r1, r2⟩ := hm.read hp t5 (by decide +kernel)
      refine ⟨_, hx, r1, r2, t1, t2, t3, ⟨t4.steer, t4.beat, t4.count⟩, hm.sameObj t5 (fun k hk => ?_) (fun k hk => ?_)⟩
      · exact List.mem_cons_of_mem _ hk
      · simp only [shown, List.mem_cons, List.not_mem_nil, or_false] at hk ⊢
        grind
    · intro g
      obtain ⟨t1, t3, t4, t5⟩ := State.validExchange_acquiring_spec hc off x.depth.toNat (hb.trans hst)
      obtain ⟨r1, r2⟩ := hm.read hp t5 (by decide +kernel)
      rw [show u.bell.good = s.bell.good by rw [hbell]] at t1 t3
      refine ⟨_, hx, r1, r2, t1, t3, ⟨t4.steer, t4.beat, t4.count⟩, hm.sameObj t5 (fun k hk => ?_) (fun k hk => ?_)⟩
      · exact List.mem_append_left _ (List.mem_cons_of_mem _ hk)
      · simp only [shown, List.mem_append, List.mem_cons, List.not_mem_nil, or_false] at hk ⊢
        grind
    · intro b
      have hbu : b = if 4000 < off.natAbs then u.bell.bad + 1 else 0 := by rw [hbell]
      refine ⟨fun h4 => ?_, fun h4 => ?_⟩
      · obtain ⟨t1, t2, t3, t4, t5, t6, t7, t8⟩ :=
          State.validExchange_locked_few off x.depth.toNat (hb.trans hst) hbu h4
        obtain ⟨r1, r2⟩ := hm.read hp t7 (by decide +kernel)
        refine ⟨_, hx, r1, r2, t1, t2, t3.trans hm.now, ⟨t4, t5.trans (by rw [hbell]), t6.trans (by rw [hbell])⟩,
          hm.sameObj t7 (fun k hk => hk) (fun k hk => ?_), t8.trans hm.mem⟩
        rw [List.mem_singleton.mp hk]
        simp [shown]
      · obtain ⟨t1, t2, t3, t4, t5⟩ := State.validExchange_locked_many off x.depth.toNat (hb.trans hst) hbu h4
        obtain ⟨r1, r2⟩ := hm.read hp t4 (fun _ q => q)
        refine ⟨_, hx, r1, r2, t1, t2, by rw [t3, hm.timeKey hp (by decide)], fun ha =>
          hm.sameObj (t5 (hc.admitted.trans ha)) (fun k hk => ?_) (fun k hk => ?_)⟩
        · exact List.mem_append_left _ (List.mem_append_right _ hk)
        · simp only [shown, List.mem_append, List.mem_cons, List.not_mem_nil, or_false] at hk ⊢
          grind
    · intro g
      have hgu : g = if off.natAbs ≤ 2000 then u.bell.holdGood + 1 else 0 := by rw [hbell]
      obtain ⟨t1, t2, t4, t5, t6, t7, t8⟩ := State.validExchange_holdover_spec off x.depth.toNat (hb.trans hst) hgu
      obtain ⟨r1, r2⟩ := hm.read hp t7 (by decide +kernel)
      refine ⟨_, hx, r1, r2, t1, t2, ⟨t4, t5.trans (by rw [hbell]), t6.trans (by rw [hbell])⟩,
        hm.sameObj t7 (fun k hk => ?_) (fun k hk => ?_), t8.trans hm.mem⟩
      · exact List.mem_cons_of_mem _ hk
      · simp only [shown, List.mem_cons, List.not_mem_nil, or_false] at hk ⊢
        grind
  · obtain ⟨u, hm, hx⟩ := exec_timeExchange_parent (x := x) h hr hpp
    rw [if_neg (Bool.not_eq_true _ ▸ hv)] at hx
    have hb : u.obj oBellState = s.obj oBellState := hm.timeKey hp (by decide)
    obtain ⟨hd, hbell⟩ := hm.bell
    refine ⟨fun hst => ?_, fun h1 h2 => ?_⟩
    · rw [u.invalidExchange_spec.1 (by rw [hb]; exact hst)] at hx
      obtain ⟨t1, t2, -, -, t4, -⟩ := u.unlock_spec
      obtain ⟨r1, r2⟩ := hm.read hp t4 (by decide +kernel)
      exact ⟨_, hx, r1, r2, t1, t2⟩
    · rw [u.invalidExchange_spec.2 (by rw [hb]; exact h1) (by rw [hb]; exact h2)] at hx
      have hs : u.bell.steerPs = s.bell.steerPs := by rw [hbell]
      have hbt : u.bell.beat = s.bell.beat := by rw [hbell]
      have ho : SameObj u { u with bell := { u.bell with good := 0 } } [] := SameObj.of_od rfl
      obtain ⟨r1, r2⟩ := hm.read hp ho (fun _ q => nomatch q)
      exact ⟨_, hx, r1, r2, rfl, hs, hbt,
        hm.sameObj ho (fun _ q => q) (fun _ q => nomatch q), hm.mem⟩

end Sys2Proof.Machine

namespace Sys2Proof.Machine

/-! ### A loss history longer than its 64 entries -/

/-- Zeros at the keys of `n` entries of the loss history. -/
def zeroEntries (n : Nat) : Bank Nat := (upto n).map (fun i => (oLossEntry i, 0))

theorem oLossEntry_eq (i : Nat) : oLossEntry i = 0x316002 + i := by
  unfold oLossEntry objKey
  omega

theorem find?_zeroEntries {n i : Nat} (h : i < n) :
    (zeroEntries n).find? (fun e => e.1 == oLossEntry i) = some (oLossEntry i, 0) := by
  have hs : ((zeroEntries n).find? (fun e => e.1 == oLossEntry i)).isSome = true := by
    rw [List.find?_isSome]
    exact ⟨_, List.mem_map.mpr ⟨i, List.mem_range.mpr h, rfl⟩, beq_self_eq_true _⟩
  obtain ⟨e, he⟩ := Option.isSome_iff_exists.mp hs
  obtain ⟨j, -, hj⟩ := List.mem_map.mp (List.mem_of_find?_eq_some he)
  have hk : e.1 = oLossEntry i := by simpa using List.find?_some he
  rw [he, ← hk, ← hj]

/-- The first entry of a history that names step `n` ≠ 0, when every earlier one is zero. -/
theorem State.find?_history {s : State} {n m v : Nat} (hf : s.obj oHistoryFill = m + 1)
    (h0 : ∀ i < m, s.obj (oLossEntry i) = 0) (hm : s.obj (oLossEntry m) = v) (hn : n ≠ 0) (hv : v % 2 ^ 32 = n) :
    s.history.find? (fun e => e % 2 ^ 32 == n) = some v := by
  have hz : ((upto m).map (fun i => s.obj (oLossEntry i))).find? (fun e => e % 2 ^ 32 == n) = none := by
    rw [List.find?_eq_none]
    intro e he
    obtain ⟨i, hi, rfl⟩ := List.mem_map.mp he
    rw [h0 i (List.mem_range.mp hi)]
    simpa using fun q => hn q.symm
  unfold State.history
  rw [hf, upto, List.range_succ, List.map_append, List.find?_append, ← upto, hz, Option.none_or]
  rw [List.map_singleton, hm]
  exact List.find?_cons_of_pos (by rw [hv]; exact beq_self_eq_true n)

/-- An entry of step 1 with the loss that no source gives and loss scale exponent 1. -/
def foreignEntry : Nat := 1 + fmtFp32.canonNan * 2 ^ 32 + 2 ^ 64

/-- A plan admitted, step 1 in progress, and a history of 106,498 entries: the last of them is ELEMENTS_COMMITTED. -/
def longHistory : State :=
  { State.reset with
    od := (oPlanState, 3) :: (oStepNow, 1) :: (oHistoryFill, 106498) :: (oElementsCommitted, foreignEntry) ::
      zeroEntries 106497
    step := { StepSt.init with lsExp := 1 } }

/-- A recipe without a loss source. -/
def sourcelessRecipe : Recipe :=
  { lossSourceKind := 0, startExp := 0, lsMin := 0, lsMax := 0, growthInterval := 0, startRun := 0, backoff := 0,
    growth := 0, overflowLimit := 0, lossSource := 0, kinds := [], tensors := [], groups := [] }

theorem longHistory_obj : longHistory.obj oPlanState = 3 ∧ longHistory.obj oStepNow = 1 ∧
    longHistory.obj oHistoryFill = 106498 ∧ longHistory.obj oElementsCommitted = foreignEntry := ⟨rfl, rfl, rfl, rfl⟩

theorem longHistory_entry {i : Nat} (h : i < 106497) : longHistory.obj (oLossEntry i) = 0 := by
  have hk := oLossEntry_eq i
  have hne : ∀ k : Nat, k ≠ oLossEntry i → (k == oLossEntry i) = false := fun k q => beq_eq_false_iff_ne.mpr q
  have hf : longHistory.od.find? (fun e => e.1 == oLossEntry i) = some (oLossEntry i, 0) := by
    unfold longHistory
    dsimp only
    rw [List.find?_cons_of_neg, List.find?_cons_of_neg, List.find?_cons_of_neg, List.find?_cons_of_neg,
      find?_zeroEntries h]
    all_goals
      rw [hne, Bool.false_eq_true]
      · exact not_false
      · rw [hk]
        simp only [oPlanState, oStepNow, oHistoryFill, oElementsCommitted]
        omega
  unfold State.obj
  rw [hf]

/-! ### A commit without an active plan -/

theorem State.lossBits_sourceless (s : State) : s.lossBits sourcelessRecipe = (s, fmtFp32.canonNan) := rfl

theorem State.activePlan_of_plan {s : State} (h : s.plan = none) : s.activePlan = none := by
  unfold State.activePlan
  split
  · exact h
  · rfl

/-- Without a plan no half changes place and no group is served. -/
theorem State.committed_of_plan {s : State} (h : s.plan = none) :
    s.swapHalves.groupsCommit = { s.addObj oElementsCommitted 0 with sums := [] } := by
  have hp := State.activePlan_of_plan h
  have h1 : s.swapHalves = s := by
    unfold State.swapHalves
    rw [hp]
  have h2 : s.servedGroups = [] := by
    unfold State.servedGroups State.jobs
    rw [hp]
    rfl
  rw [h1, State.groupsCommit, h2]
  rfl

/-- The objects that the loss scale writes. -/
def lossKeys : List Nat := [oLsRun, oLsExp, oLsChangeCount] ++ eventKeys

theorem State.lossAfterClean_spec (s : State) (r : Recipe) :
    SameObj s (s.lossAfterClean r) lossKeys ∧ (s.lossAfterClean r).plan = s.plan := by
  unfold State.lossAfterClean
  extract_lets l run
  split
  · exact ⟨(SameObj.refl s _).setObj _ (by decide), State.setObj_plan ..⟩
  · unfold State.changeLoss State.setLoss
    generalize min (l + Int.ofNat r.growth) r.lsMax = x
    obtain ⟨u, hu, u1, u2⟩ : ∃ u, u = ((s.setObj oLsExp (ofSigned 16 x)).setObj oLsRun 0).bump oLsChangeCount ∧
        SameObj s u lossKeys ∧ u.plan = s.plan :=
      ⟨_, rfl, (((SameObj.refl s _).setObj _ (by decide)).setObj _ (by decide)).bump (by decide), rfl⟩
    rw [← hu]
    have hl := u.raise_logs .lossScaleChanged
    exact ⟨u1.trans (hl.sameObj.mono (by decide)), hl.plan.trans u2⟩

theorem State.setHistory_spec (s : State) (es : List Nat) :
    (s.setHistory es).obj oPlanState = s.obj oPlanState ∧ (s.setHistory es).plan = s.plan := by
  unfold State.setHistory
  refine List.foldlRecOn _ _ (motive := fun t : State => t.obj oPlanState = s.obj oPlanState ∧ t.plan = s.plan)
    ⟨State.obj_setObj_ne _ _ (by decide), State.setObj_plan ..⟩ (fun t ht i _ => ⟨?_, (State.setObj_plan ..).trans ht.2⟩)
  refine (State.obj_setObj_ne _ _ ?_).trans ht.1
  rw [oLossEntry_eq]
  unfold oPlanState
  omega

theorem State.withoutSums_obj (s : State) {k : Nat} (h : k ≠ oElementsCommitted) :
    ({ s.addObj oElementsCommitted 0 with sums := [] } : State).obj k = s.obj k := by
  show (s.addObj oElementsCommitted 0).obj k = _
  exact State.obj_setObj_ne s _ h

theorem State.withoutSums_elements (s : State) :
    ({ s.addObj oElementsCommitted 0 with sums := [] } : State).obj oElementsCommitted =
      (s.obj oElementsCommitted + 0) % 2 ^ objBits oElementsCommitted := by
  show (s.addObj oElementsCommitted 0).obj oElementsCommitted = _
  exact State.obj_setObj_self ..

/-- What the history says of a step that it holds already changes neither the plan nor its state. -/
theorem State.verified_spec (s : State) (w : Nat) (known bad : Bool) :
    let t := if known then
        if bad then (s.setObj oLastVerify w).raise .restartMismatch
        else ((s.setObj oLastVerify w).bump oVerifyCount).raise .restartVerified
      else s
    t.obj oPlanState = s.obj oPlanState ∧ t.plan = s.plan := by
  obtain ⟨u, hu, u1, u2⟩ : ∃ u, u = s.setObj oLastVerify w ∧ u.obj oPlanState = s.obj oPlanState ∧ u.plan = s.plan :=
    ⟨_, rfl, State.obj_setObj_ne _ _ (by decide), State.setObj_plan ..⟩
  rw [← hu]
  cases known with
  | false => exact ⟨rfl, rfl⟩
  | true =>
    cases bad with
    | true =>
      have hl := u.raise_logs .restartMismatch
      exact ⟨(hl.obj _ (by decide)).trans u1, hl.plan.trans u2⟩
    | false =>
      have hl := (u.bump oVerifyCount).raise_logs .restartVerified
      exact ⟨(hl.obj _ (by decide)).trans ((State.bump_obj_ne _ (by decide)).trans u1), hl.plan.trans u2⟩

theorem State.pushHistory_spec (s : State) (n loss l : Nat) :
    (s.pushHistory n loss l).1.obj oPlanState = s.obj oPlanState ∧ (s.pushHistory n loss l).1.plan = s.plan := by
  unfold State.pushHistory
  exact ⟨(State.setHistory_spec _ _).1.trans (State.verified_spec s _ _ _).1,
    (State.setHistory_spec _ _).2.trans (State.verified_spec s _ _ _).2⟩

/-- An entry of the step that holds another result (R423). -/
theorem State.pushHistory_differs {s : State} {n loss l e : Nat} (h : s.history.find? (fun e => e % 2 ^ 32 == n) = some e)
    (hb : (bits e 32 32 != loss || bits e 64 16 != l) = true) : (s.pushHistory n loss l).2 = true := by
  unfold State.pushHistory
  rw [h]
  exact hb

theorem State.faultC_step {s : State} (h : s.admitted = true) : s.faultC.step = StepSt.init := by
  obtain ⟨_, _, e⟩ := s.endPlan.wakeGated_shape
  show s.endPlan.wakeGated.step = _
  rw [e]
  exact State.endPlan_step h

/-- A commit that meets another result of its step ends the plan, and with it the step. -/
theorem State.commit_differs {s : State} {e : Nat} (hp : s.plan = none) (ha : s.admitted = true)
    (h : (({ s.addObj oElementsCommitted 0 with sums := [] } : State).lossAfterClean sourcelessRecipe).history.find?
      (fun e => e % 2 ^ 32 == s.obj oStepNow) = some e)
    (hb : (bits e 32 32 != fmtFp32.canonNan || bits e 64 16 != s.step.lsExp) = true) :
    (s.commit sourcelessRecipe).step = StepSt.init := by
  obtain ⟨u, hu, u1, u2⟩ : ∃ u, u = ({ s.addObj oElementsCommitted 0 with sums := [] } : State).lossAfterClean sourcelessRecipe ∧
      u.obj oPlanState = s.obj oPlanState ∧ u.plan = none := by
    obtain ⟨l1, l2⟩ := State.lossAfterClean_spec { s.addObj oElementsCommitted 0 with sums := [] } sourcelessRecipe
    refine ⟨_, rfl, (l1 _ (by decide)).trans ?_, l2.trans hp⟩
    exact State.obj_setObj_ne s _ (by decide)
  rw [← hu] at h
  have h1 := State.pushHistory_differs h hb
  obtain ⟨h2, h3⟩ := u.pushHistory_spec (s.obj oStepNow) fmtFp32.canonNan s.step.lsExp
  have hx : s.commit sourcelessRecipe =
      (let h := u.pushHistory (s.obj oStepNow) fmtFp32.canonNan s.step.lsExp
      let t := (((h.1.setObj oFaultReplays 0).setObj oOverflowReplays 0).bump oCleanCount)
      let t := (t.judged (s.obj oStepNow + 1) 0).startSnapshot (s.obj oStepNow)
      if h.2 then t.faultC else t) := by
    rw [hu, ← State.committed_of_plan hp]
    rfl
  rw [hx]
  dsimp only
  rw [h1, if_pos rfl]
  generalize (u.pushHistory (s.obj oStepNow) fmtFp32.canonNan s.step.lsExp).1 = v at h2 h3
  obtain ⟨w, hw, w1, w2⟩ : ∃ w, w = (((v.setObj oFaultReplays 0).setObj oOverflowReplays 0).bump oCleanCount).judged
      (s.obj oStepNow + 1) 0 ∧ w.obj oPlanState = v.obj oPlanState ∧ w.plan = v.plan := by
    refine ⟨_, rfl, ?_, rfl⟩
    exact (State.bump_obj_ne _ (by decide)).trans ((State.obj_setObj_ne _ _ (by decide)).trans
      (State.obj_setObj_ne _ _ (by decide)))
  rw [← hw]
  have hs : w.startSnapshot (s.obj oStepNow) = w := by
    unfold State.startSnapshot State.buddy?
    rw [State.activePlan_of_plan (w2.trans (h3.trans u2))]
    rfl
  rw [hs]
  exact State.faultC_step ((State.admitted_congr (w1.trans (h2.trans u1))).trans ha)

/-- The last entry once ELEMENTS_COMMITTED has been cut to its width. -/
theorem foreignEntry_cut : (foreignEntry + 0) % 2 ^ objBits oElementsCommitted = 1 + fmtFp32.canonNan * 2 ^ 32 := by
  decide +kernel

/-- Refutes O51: in a state whose history holds more than its 64 entries, the last of them is ELEMENTS_COMMITTED, which the
commit itself changes before it looks for an entry of the step: the one that agreed no longer does, and the plan ends. -/
theorem not_beatsAndSteps : ¬ Obligations.BeatsAndSteps := by
  unfold Obligations.BeatsAndSteps
  intro ⟨_, _, _, _, _, hcommit⟩
  obtain ⟨o1, o2, o3, o4⟩ := longHistory_obj
  have hk : oLossEntry 106497 = oElementsCommitted := by decide
  have hbefore : longHistory.history.find? (fun e => e % 2 ^ 32 == longHistory.obj oStepNow) = some foreignEntry := by
    rw [o2]
    exact State.find?_history o3 (fun i hi => longHistory_entry hi) (by rw [hk, o4]) (by decide) (by decide)
  have hagrees : (bits foreignEntry 32 32 != (longHistory.lossBits sourcelessRecipe).2 ||
      bits foreignEntry 64 16 != longHistory.step.lsExp) = false := by
    rw [State.lossBits_sourceless]
    decide
  have hclean := (hcommit sourcelessRecipe longHistory).1
  rw [hbefore] at hclean
  obtain ⟨-, hnext, -⟩ := hclean hagrees
  have hstep : (longHistory.commit sourcelessRecipe).step = StepSt.init := by
    obtain ⟨l1, -⟩ := State.lossAfterClean_spec { longHistory.addObj oElementsCommitted 0 with sums := [] } sourcelessRecipe
    have hadd : ∀ k, k ≠ oElementsCommitted → k ∉ lossKeys →
        (State.lossAfterClean { longHistory.addObj oElementsCommitted 0 with sums := [] } sourcelessRecipe).obj k =
          longHistory.obj k := fun k q1 q2 => (l1 k q2).trans (State.withoutSums_obj longHistory q1)
    have hentry : ∀ i < 106497, oLossEntry i ≠ oElementsCommitted ∧ oLossEntry i ∉ lossKeys := by
      intro i hi
      have hi' := oLossEntry_eq i
      refine ⟨?_, fun hm => ?_⟩
      · rw [hi', oElementsCommitted]
        omega
      · have hlow : ∀ k ∈ lossKeys, ¬ (0x316002 ≤ k ∧ k < 0x316002 + 106497) := by decide
        exact hlow _ hm (by omega)
    have hlast : (State.lossAfterClean { longHistory.addObj oElementsCommitted 0 with sums := [] } sourcelessRecipe).obj
        (oLossEntry 106497) = 1 + fmtFp32.canonNan * 2 ^ 32 := by
      rw [hk, l1 _ (by decide), State.withoutSums_elements, o4]
      exact foreignEntry_cut
    refine State.commit_differs (e := 1 + fmtFp32.canonNan * 2 ^ 32) rfl ?_ ?_ (by decide)
    · unfold State.admitted State.planState
      rw [o1]
      rfl
    · rw [o2]
      exact State.find?_history ((hadd _ (by decide) (by decide)).trans o3)
        (fun i hi => (hadd _ (hentry i hi).1 (hentry i hi).2).trans (longHistory_entry hi)) hlast (by decide) (by decide)
  rw [hstep, o2] at hnext
  exact absurd hnext (by decide)

end Sys2Proof.Machine
